-- ==== Sys2Proof/Word.lean ====
section
/-! DEFINITION. Word types of the VK3S1048 (00_scope.md, R2): a register is 32 bits wide, memory is bytes,
a Grotto word is 64 bits and is stored as 80 (R259). -/

namespace Sys2Proof

/-- A register (R2). -/
abbrev Word := BitVec 32

/-- A byte of host memory, Grotto or an image (little-endian, 00_scope.md). -/
abbrev Byte := BitVec 8

end Sys2Proof
end

