-- ==== Sys2Proof/Syntax.lean ====
section
/-! DEFINITION. The commands of the block: one constructor of `Instr` per row of spec/opcode_table.json, in the
table's order. The table gives no operands; each constructor carries what the rules of its row (listed in
spec/95_what_each_step_holds.md) take from outside the device. Names and numbers that the spec bounds are `Fin`s. -/

namespace Sys2Proof

/-- Chamber ID c = 256 t + n (R125). -/
abbrev ChamberId := Fin 512
/-- Logical column index (R125). -/
abbrev ColumnId := Fin 256
/-- Physical column, 0x100 to 0x107 spare (R113). -/
abbrev PhysId := Fin 264
/-- Stratum number (R46). -/
abbrev StratumId := Fin 4
/-- Queue number (R16). -/
abbrev QueueId := Fin 256
/-- Gaval bundle (chapter 13). -/
abbrev BundleId := Fin 8
/-- Data lane of a bundle (R506). -/
abbrev LaneId := Fin 8
/-- Switch group (R181). -/
abbrev GroupId := Fin 16
/-- Bank number 8 g + b of bank b in group g (R257). -/
abbrev BankId := Fin 2048
/-- Refill stream (R201). -/
abbrev StreamId := Fin 16

/-- Who makes an access (Table Scope-12). -/
inductive Requester where
  | host | supervisor | jtag | lysata
  deriving DecidableEq, Repr

/-- PCI Express link or function power state, as the entry conditions of Table Lysata-6 distinguish them. -/
inductive LinkPower where
  | l0 | l1 | down
  deriving DecidableEq, Repr

/-- What the host's system software has programmed in the function's configuration space (Table Queues-1; the PCI Express
base specification): the base addresses of the windows, sizes in bytes, the enables and the MSI-X control bits. -/
structure PcieProg where
  bar0 : Nat
  bar2 : Nat
  bar4 : Nat
  maxPayload : Nat      -- 128, 256 or 512
  maxRead    : Nat      -- 128 to 4,096
  relaxed    : Bool     -- Enable Relaxed Ordering (R311)
  msixOn     : Bool     -- MSI-X Enable
  msixMask   : Bool     -- Function Mask
  ecrcGen    : Bool
  ecrcCheck  : Bool
  ctoRange   : BitVec 4 -- completion timeout range
  ctoOff     : Bool     -- completion timeout disable
  aspmL1     : Bool
  ltr        : Bool
  deriving DecidableEq, Repr

/-- Sources of a HOST reset (Table Stack-6). -/
inductive HostResetSource where
  | fundamental | hot | linkDown | functionLevel | lysata
  deriving DecidableEq, Repr

/-- Kinds of host read error (R313, event 0x0807), in the order of the event's list. -/
inductive HostErr where
  | ur | ca | poisoned | timeout
  deriving DecidableEq, Repr

/-- Which host read failed (R313, R328). -/
inductive ReadTarget where
  | doorbell | fetch
  | data (cid : BitVec 16)
  deriving DecidableEq, Repr

/-- Causes that take a bundle out of UP on the wire's side (R522, Table Lanes-21). -/
inductive DownCause where
  | clock | block | deskew | ts1
  deriving DecidableEq, Repr

/-- A stream beat with its sideband (R337, Table Queues-8). -/
structure Beat where
  data  : BitVec 512
  bytes : BitVec 6      -- valid bytes minus one
  last  : Bool
  psn   : Bool
  par   : BitVec 8
  deriving DecidableEq, Repr

/-- What the board and the environment show at a tick (R645, R724, R736): sensor readings in the order of
Table Lysata-11 (signed degrees), rails in mV in Table Lysata-2 order, die and device power in mW, VDET codes of the
banks, voltage codes of the analogue service pins, levels at the fabric I/O balls, leaf and node parity failures found
at this tick (R691, R693), upsets of the TLB, the key table, the AES cores and the golden store since the last one, whether VPP_FUSE is in its operating range (R457), bytes that the XTS and the GCM path held back in the tick (R429), and
the forwarding load of the tick in % of the twin capacity (Table Twin-12). -/
structure TickEnv where
  sensors   : List Int
  rails     : List Nat
  diePower  : List Nat
  power     : Nat
  vdet      : List (BitVec 3)
  analogue  : List (BitVec 10)
  balls     : BitVec 768
  badLeaves : List (BitVec 16)
  badEpisodes : List (BitVec 16)
  badNodes  : List (Fin 15)
  vppGood   : Bool
  heldXts   : BitVec 48
  heldGcm   : BitVec 48
  fwdLoad   : BitVec 7
  tlbUpset  : List (Fin 256 × BitVec 36) := []  -- address space and virtual page whose TLB entry has lost its parity (R366)
  keyUpset  : List (Fin 64) := []               -- key table entries with a double-bit error (R404)
  rightsUpset : List (Fin 64) := []             -- key table entries whose rights have lost their parity (Table Crypto-6)
  xtsUpset  : Bool := false                     -- the two cores will differ on the next block of the XTS path (R430)
  gcmUpset  : Bool := false                     -- the same of the GCM path
  goldUpset : List (Fin 3072) := []             -- slots whose golden record has a word with a double-bit error (R488)
  deriving DecidableEq, Repr

/-- A chamber image: the 80-bit configuration words of its 2,048 cells, cell by cell, rising, zero words left out
(R80, R446). -/
abbrev ImageWords := List (Nat × BitVec 80)

/-- A CHIMAGE section's subheader and rows (Table Loading-9). -/
structure ChamberImage where
  slot  : BitVec 16
  pers  : BitVec 16
  rel   : Bool
  lsi   : Bool
  home  : BitVec 16
  words : ImageWords
  deriving DecidableEq, Repr

/-- What a section of a container holds (Table Loading-7). -/
inductive SectionBody where
  | manifest (members : List (BitVec 8 × BitVec 32 × BitVec 32))   -- KIND, IMAGEID, VERSION (Table Loading-10)
  | fwcode
  | keyrec (entries : List (List Byte))                            -- 80-byte entries (Table Crypto-2)
  | chimage (image : ChamberImage)
  | resident (fields : List (BitVec 16))                           -- 2,048 fields, chamber by chamber (R448)
  | reginit (records : List (Nat × Word))                          -- BAR0 offset, value (R451)
  | pad
  | other (type : BitVec 16)
  deriving DecidableEq, Repr

/-- A section as its entry gives it (Table Loading-6), with its contents and what SHA-512 and DEFLATE say of its stored bytes
(R454). -/
structure ContSection where
  offset       : Nat      -- of its stored bytes in the container
  slen         : Nat
  arg          : Nat
  critical     : Bool
  deflate      : Bool
  digestOk     : Bool
  decompressOk : Bool     -- its contents have ULEN bytes
  sizeOk       : Bool     -- ULEN and counts as Table Loading-7 asks
  zeroOk       : Bool     -- reserved fields of its contents are zero
  body         : SectionBody
  deriving DecidableEq, Repr

/-- The contents of a section and the verdicts of two functions that external standards define (log 8): SHA-512 of its stored
bytes equals DIGEST; its bytes after decompression, none when the DEFLATE stream is invalid. -/
structure SectionData where
  digestOk : Bool
  plain    : Option (List Byte)
  deriving DecidableEq, Repr

/-- A Spaub container as a flash or host memory holds it (R444): bytes 0 to SIGOFF - 1 as they stand, the end of the signature
block, the contents of its sections, and what the functions of R453 say of its signatures (log 8). -/
structure Container where
  head     : List Byte -- header and section entries (Tables Loading-5 and -6)
  sigEnd   : List Byte -- bytes 5,359:5,357 of the signature block (Table Loading-8)
  parts    : List SectionData
  present  : Nat       -- bytes of the container that can be read (SHORT below TOTLEN)
  keyMatch : Bool      -- SHA3-256 of the public keys equals the fuse digest of slot KEYSLOT (R453)
  edOk     : Bool
  mlOk     : Bool
  deriving DecidableEq, Repr

/-- A directory entry that points to a container (Table Loading-4). -/
structure FlashEntry where
  kind      : BitVec 8
  offset    : Nat
  length    : Nat
  container : Container
  deriving DecidableEq, Repr

/-- A sector of the Echo region as found at power-up (R678). -/
structure SectorImage where
  headerOk : Bool
  erases   : Nat
  retired  : Bool
  deriving DecidableEq, Repr

/-- The Echo region and its newest valid commit as found at power-up (R677, R686). -/
structure EchoRegion where
  usableShape : Bool
  sectors  : List SectorImage
  cseq     : Option Word
  lastSector : Nat
  usedSectors : Nat
  retiredCols : List PhysId                                   -- KIND 0x01 entries (Table Echo-6)
  softRepairs : List (BankId × Fin 20 × Fin 256 × Fin 2)      -- KIND 0x02 entries
  deriving DecidableEq, Repr

/-- A configuration flash (R440 to R443). -/
structure Flash where
  answers   : Bool       -- R442
  dir       : List Byte  -- the directory at 0x0000_0000
  copy      : List Byte  -- its copy at 0x0000_1000
  contents  : List (Nat × Container)  -- containers by flash offset
  echo      : Option EchoRegion
  deriving DecidableEq, Repr

/-- Fuse shadow (R483, R290, R25, R401, R696; the unique ID of R586). -/
structure Fuses where
  svn        : Nat := 0
  programmed : BitVec 4 := 0
  revoked    : BitVec 4 := 0
  uid        : BitVec 64 := 0
  kek        : BitVec 256 := 0            -- the device key-encryption key (R401)
  debugLock  : Bool := false
  redundantUsed : List (Nat × Nat) := []  -- redundant bit-line columns used by repair fuses, by 20 bank + sub-array (R295)
  shaftInRepair : List (Nat × Nat × List (Fin 68)) := [] -- layer of State's repair books, 1,024 column + group, failed members (R25)
  retiredCols : List PhysId := []
  weak       : Nat := 0                   -- fuses that read blown at the normal margin and not at the tightened one (R761)
  subsystem  : Word := 0                  -- PCI Express subsystem IDs (Table Queues-1)
  deriving DecidableEq, Repr

/-- What the device finds at power good (R433, R435, R740, R759). -/
structure Board where
  mode    : BitVec 3
  listen  : Bool
  pull    : BitVec 16
  fuses   : Fuses
  flashA  : Flash
  flashB  : Flash
  railsLate : List (Fin 7)   -- core rails not yet in their steady range when step 3 would begin
  vdet    : List (BitVec 3)
  refclk  : Bool
  vppGood : Bool               -- VPP_FUSE is in its operating range (R457)
  deriving DecidableEq, Repr

/-- A compare-path fault (R235): the two copies of the comparator disagree, or the parity of the digest bonds fails. -/
inductive PathFault where
  | comparator | digestParity
  deriving DecidableEq, Repr

/-- What the environment adds to the engine's work on a flit that closes an encrypted record: nothing, its two cores differ
(R430), or the key table entry shows a double-bit error at this use (R404). -/
inductive TagResult where
  | good | coreFault | keyError
  deriving DecidableEq, Repr

/-- A 64-byte flit as raw bytes (R548, Table Network-1). -/
abbrev FlitBytes := List Byte

/-- What the environment adds to a data descriptor that starts or goes on: the host's bytes of its source from its first
byte on, as far as they have arrived (R312, R313), whether one of the two AES cores differs (R430), a double-bit key
table error found at this use (R404), the beats that arrive for a STREAM_OUT (R337), the virtual pages whose TLB entry
fails parity at this use (R366) and the Grotto words whose check names address bits (R274). -/
structure DescEnv where
  hostData : List Byte
  beats    : List Beat
  aesFault : Option Nat     -- byte offset of the affected sector
  keyError : Bool
  tlbBad   : List Nat
  addrErr  : List Nat
  deriving DecidableEq, Repr

/-- A DPHY burst as the lanes deliver it (R731, R732). -/
structure BurstEnv where
  lanes    : List (List Byte)
  sotError : Bool
  deriving DecidableEq, Repr

/-- Contents of HELLO as the partner presents it (R595, Table Twin-4). -/
structure Hello where
  rev     : Word
  running : List (Word × Word)       -- IMAGEID, VERSION of each running member
  keys    : List (BitVec 2 × BitVec 16 × BitVec 4)   -- STATE, KCV, RIGHTS of the 64 entries (R406)
  mode    : BitVec 3
  uid     : BitVec 64
  prefer  : Bool
  delay   : BitVec 10
  pins    : Word
  clockOk : Bool
  load    : Nat                       -- replicated input load in % of capacity (R603)
  pbundleOk : Bool
  alone   : Bool                      -- partner is ALONE (R599)
  barrier : Nat                       -- TBASE of the barrier that the lead names (R596)
  deriving DecidableEq, Repr

/-- An item of Table Twin-5 as it is stamped. -/
inductive StampedItem where
  | regWrite (who : Requester) (off : Nat) (val : Word)
  | regPair (off : Nat) (val : BitVec 64)
  | committed (who : Requester) (off : Nat) (val : Word)
  | bar2Write (off : Nat) (be : List Bool) (data : List Byte) (addrErr : List Nat)
  | bar2Read (off : Nat) (len : Nat) (addrErr : List Nat)
  | dbgRead (off : Nat) (addrErr : List Nat)
  | hostData (q : QueueId) (cid : BitVec 16) (off : Word) (bytes : List Byte)
  | refillDone (stream : StreamId)
  | tlbFill (asid : Fin 256) (vpn : Nat) (size : Nat) (ppn : Nat) (r w : Bool)
  | invalidationDone
  | doorbell (q : QueueId) (rec : BitVec 64)
  | descriptors (q : QueueId) (descs : List (BitVec 256))
  | flit (b : BundleId) (bytes : FlitBytes)
  | input (bank : Fin 16) (level : BitVec 48)
  | domainReset (mask : BitVec 16)
  | stretch (level : Fin 5)
  | ladder (exits : Bool) (dst : Fin 6) (cause : BitVec 8)
  | dphy (port : Fin 32) (burst : BurstEnv)
  | fault (q : QueueId) (access : Fin 6) (id : Nat) (kind : Fin 8) (level : Fin 5) (va : Nat)
  deriving DecidableEq, Repr

/-- A NODEINFO message (Table Network-6). -/
structure NodeInfo where
  uid      : BitVec 64
  addr     : Option (Fin 64)
  proposed : Fin 64
  seq      : Nat
  links    : List (Fin 8 × BitVec 64)
  deriving DecidableEq, Repr

/-- The commands (spec/opcode_table.json). -/
inductive Instr where
  -- register accesses (R2 to R14)
  | registerWrite (who : Requester) (off : Nat) (be : BitVec 4) (val : Word)
  | loWriteStage (who : Requester) (off : Nat) (val : Word)
  | hiWriteCommit (who : Requester) (off : Nat) (val : Word)
  | loReadCapture (who : Requester) (off : Nat)
  | pairAccess64 (off : Nat) (write : Option (BitVec 64))
  | splitAccess64 (off : Nat) (write : Option (BitVec 64)) (be : BitVec 8)
  | rcRead (who : Requester) (off : Nat)
  | bar2ReservedAccess (write : Bool) (off : Nat)
  | linkStateChange (speed width ltssm : BitVec 8) (power : LinkPower) (d3hot : Bool) (prog : PcieProg)
  | tick (env : TickEnv)
  -- loading (R433 to R484)
  | powerOn (board : Board)
  | romRetry (flashA flashB : Flash)
  | flashBurstCapture (flashB : Bool) (addr : Nat) (bytes : List Byte)
  | listenerIdle (addr : Nat)
  | cfgDoneRise (micros : Nat)
  | donewaitExpire (micros : Nat)
  -- domain resets and fences
  | domainResetRequest (who : Requester) (mask : Word)
  | domainResetStart
  | fenceBoundMissed (boundary : Fin 4) (open_ : BitVec 16)
  | fenceAbortNewRequest (boundary : Fin 4) (chamber : ChamberId) (stratum : StratumId)
  | domainResetRelease (micros : BitVec 8)
  | fenceReopen (boundary : Fin 4)
  | hostReset (source : HostResetSource)
  | keyTableLoadDone
  | railLoss (rail : Fin 7)
  | railWaitTimeout (rail : Fin 7)
  -- shafts, bonds, relocation
  | shaftContention (col : ColumnId)
  | shaftParityFailure (pcol : PhysId) (group : Fin 128)
  | bondSweepDone (pcol : PhysId) (group : Fin 128) (failed : List (Fin 34))
  | memberFailed (boundary : Fin 4) (pcol : Option PhysId) (group : Fin 256) (member : Fin 68) (errors : Nat)
  | spareShiftApply (boundary : Fin 4) (pcol : Option PhysId) (group : Fin 256)
  | relocationDecision (col : ColumnId)
  | relocationRelease (col : ColumnId)
  -- chambers and strata
  | chmCmdSwitch (who : Requester) (c : ChamberId) (stratum : StratumId) (t : Bool)
  | chmCmdHold (who : Requester) (c : ChamberId)
  | chmCmdRelease (who : Requester) (c : ChamberId)
  | switchEdge (c : ChamberId)
  | holdTakeEffect (c : ChamberId)
  | releaseTakeEffect (c : ChamberId)
  | scheduleEnable (who : Requester) (c : ChamberId) (val : Word)
  | scheduleEntryStart (c : ChamberId)
  | dwellEnd (c : ChamberId)
  | scheduleStopWrite (who : Requester) (c : ChamberId) (val : Word)
  | scheduleEntryWrite (who : Requester) (c : ChamberId) (val : Word)
  | fabricTrigger (c : ChamberId)
  | groupFireSwitch (who : Requester) (g : GroupId)
  | groupFireHold (who : Requester) (g : GroupId)
  | groupFireRelease (who : Requester) (g : GroupId)
  | groupTriggerFire (g : GroupId)
  | groupFireEffect (g : GroupId)
  | portResponseArrive (c : ChamberId)
  | fenceRegisterParity (c : ChamberId)
  -- library and refill
  | libRefill (who : Requester) (slot : BitVec 12) (c : ChamberId) (stratum : StratumId)
      (spillFirst restore force notify prio : Bool) (tag : BitVec 16)
  | libSpill (who : Requester) (c : ChamberId) (stratum : StratumId) (force notify prio : Bool) (tag : BitVec 16)
  | libRestore (who : Requester) (slot : BitVec 12) (c : ChamberId) (stratum : StratumId) (notify prio : Bool)
      (tag : BitVec 16)
  | libEvict (who : Requester) (c : ChamberId) (stratum : StratumId) (notify prio : Bool) (tag : BitVec 16)
  | libDrop (who : Requester) (slot : BitVec 12) (notify prio : Bool) (tag : BitVec 16)
  | libShclr (who : Requester) (slot : BitVec 12) (notify prio : Bool) (tag : BitVec 16)
  | requestStart (retries : List (Fin 80)) (hardFail : Option (Fin 80)) (goldenLost : Bool)
  | refillComplete (stream : StreamId)
  | requestEnd (stream : StreamId)
  | sinfo0Read (who : Requester)
  -- tier lockstep
  | lockstepMismatch (col : ColumnId) (classes : BitVec 3) (digA digB : Word) (path : Option PathFault)
  | diagnosisVerdict (col : ColumnId)
  | degradedComplete (col : ColumnId)
  | lockstepEntry (col : ColumnId)
  | lockstepExit (col : ColumnId)
  -- Grotto
  | grottoRead (c : ChamberId) (line : BitVec 21)
  | grottoWrite (c : ChamberId) (line : BitVec 21) (be : BitVec 64) (data : BitVec 512) (poison : BitVec 8)
  | grottoBitset (c : ChamberId) (line : BitVec 21) (be : BitVec 64) (data : BitVec 512)
  | grottoBitclr (c : ChamberId) (line : BitVec 21) (be : BitVec 64) (data : BitVec 512)
  | bar2Write (off : Nat) (be : List Bool) (data : List Byte) (addrErr : List Nat)
  | bar2Read (off : Nat) (len : Nat) (addrErr : List Nat)
  | bankAccess (bank : BankId) (addrErr : BitVec 8)
  | correctedRewrite (bank : BankId)
  | scrubSlotOpen (bank : BankId) (micros : Nat)
  | scrubRead (bank : BankId) (micros : Nat) (addrErr : BitVec 8)
  | scrubStarvation (bank : BankId)
  | grottoFillDone (micros : BitVec 32)
  | pclkChange (col : ColumnId)
  | softRepair (bank : BankId)
  | repairRewrite (bank : BankId) (addrErr : BitVec 8)
  | bankModeWrite (who : Requester) (group : ColumnId) (val : Word)
  | bankAutoDrowsy (bank : BankId)
  | bankPowerOff (bank : BankId) (addrErr : List Nat)
  | bankFillDone (bank : BankId)
  | rmodelWrite (who : Requester) (val : Word)
  | v2segWrite (who : Requester) (k : Fin 4) (val : Word)
  -- queues
  | kick (who : Requester) (q : QueueId) (off : BitVec 12)
  | doorbellPoll (q : QueueId)
  | doorbellReadDone (q : QueueId) (rec : BitVec 64)
  | descriptorFetch (q : QueueId) (tlbBad : Bool)
  | fetchDataArrive (q : QueueId) (descs : List (BitVec 256))
  | hostReadError (q : QueueId) (target : ReadTarget) (kind : HostErr)
  | descCopy (q : QueueId) (env : DescEnv)
  | descStreamIn (q : QueueId) (env : DescEnv)
  | descStreamOut (q : QueueId) (env : DescEnv)
  | descFill (q : QueueId) (env : DescEnv)
  | descLoadImage (q : QueueId) (image : Container) (env : DescEnv)
  | descLibraryRequest (q : QueueId)
  | descSwitch (q : QueueId)
  | descGroupFire (q : QueueId)
  | descFence (q : QueueId)
  | descNop (q : QueueId)
  | completionWrite (q : QueueId)
  | irqCoalesceTimeout (q : QueueId)
  | queueEnable (who : Requester) (q : QueueId) (val : Word)
  | queueDisable (who : Requester) (q : QueueId) (val : Word)
  | drainEnd (q : QueueId)
  | ownerChange (q : QueueId)
  -- translation
  | walkComplete (asid : Fin 256) (vpn : BitVec 36) (entries : List (BitVec 64)) (error : Bool)
  | invAll (who : Requester)
  | invAsid (who : Requester) (asid : Fin 256)
  | invRange (who : Requester) (asid : Fin 256) (npages : BitVec 16)
  | invalidationComplete
  | faultRecordWrite (error : Bool)
  | faultConsumerReread (rec : Option (BitVec 64))
  | faultRingEnable (who : Requester) (val : Word)
  | ringWriteRetry (q : QueueId)
  | abandon (who : Requester) (q : QueueId)
  | taguse0Read (who : Requester)
  -- link sessions
  | sessionEstablish (b : BundleId) (transmit : Bool)
  | recordSend (b : BundleId) (aesFault : Bool) (keyError : Bool)
  -- configuration integrity
  | scanRowRead (resUpset : List (Fin 2048)) (libUpset : List (Fin 2048)) (resGolden libGolden : Fin 3)
      (selfTestOk : Bool)
  | residentLapOverrun (micros : Nat) (interruptions : BitVec 16)
  | frameRewriteStart (hardFail : Option (Fin 80))
  | frameRewriteReread (c : ChamberId) (stratum : StratumId) (rereadOk : Bool)
  -- Gaval lanes
  | bundleEnable (who : Requester) (b : BundleId) (val : Word)
  | bundleDisable (who : Requester) (b : BundleId) (val : Word)
  | bundleRetrain (who : Requester) (b : BundleId)
  | sleepRequest (who : Requester) (b : BundleId)
  | testEnter (who : Requester) (b : BundleId) (val : Word)
  | testExit (who : Requester) (b : BundleId) (val : Word)
  | bitInject (who : Requester) (b : BundleId)
  | testCounterClear (who : Requester) (b : BundleId)
  | trainingUp (b : BundleId) (pbundle : Fin 8) (lanemap : BitVec 24) (inverted : BitVec 8) (micros : BitVec 16)
  | trainingTimeout (b : BundleId) (phase : Fin 6) (skew : Option (BitVec 8))
  | backoffEnd (b : BundleId)
  | backoffClockDetect (b : BundleId)
  | bundleDown (b : BundleId) (cause : DownCause)
  | adaptWindowEnd (b : BundleId) (k : LaneId) (density : Nat) (margin : BitVec 6) (badHeaders : Nat) (taps : BitVec 30)
  | lastGoodUpdate (b : BundleId)
  | retrainReceive (b : BundleId) (mask : BitVec 8)
  | retrainBurstEnd (b : BundleId) (margins : List (BitVec 6))
  | markerSend (b : BundleId) (bip : List Byte)
  | markerReceive (b : BundleId) (k : LaneId) (bundle : Fin 8) (lane : Fin 8) (seq : Byte) (bip : Byte) (own : Byte)
  | eidleEnter (b : BundleId)
  | eidleReceive (b : BundleId)
  | eidleExit (b : BundleId)
  | sleepReceive (b : BundleId)
  | sleepAckReceive (b : BundleId)
  | sleepAckTimeout (b : BundleId)
  | beaconSend (b : BundleId)
  | beaconDetect (b : BundleId)
  -- Gaval network
  | flitReceive (b : BundleId) (bytes : FlitBytes) (tag : TagResult)
  | nakReceive (b : BundleId) (seq : BitVec 12)
  | replayTimeout (b : BundleId)
  | initResend (b : BundleId)
  | initReceive (b : BundleId) (expected : BitVec 12) (freed : List (BitVec 12)) (uid : BitVec 64) (fresh pair active : Bool)
  | lctlCreditSend (b : BundleId)
  | censusStart (b : BundleId)
  | censusReceive (b : BundleId) (depth : Fin 4) (uid : BitVec 64)
  | censusCollectEnd
  | reportReceive (b : BundleId) (size : Nat) (depth : Nat)
  | censusTimeout
  | assignReceive (b : BundleId) (base parent : Fin 64)
  | discoveryStart
  | nodeinfoReceive (b : BundleId) (info : NodeInfo)
  | discoverySettle
  | remoteRead (b : BundleId) (src : Fin 64) (rid : BitVec 16) (line : BitVec 21) (addrErr : List Nat)
  | remoteWrite (b : BundleId) (src : Fin 64) (rid : BitVec 16) (line : BitVec 21) (be : BitVec 64) (data : BitVec 512) (poison : BitVec 8)
      (addrErr : List Nat)
  | remoteBitset (b : BundleId) (src : Fin 64) (rid : BitVec 16) (line : BitVec 21) (be : BitVec 64) (data : BitVec 512)
      (addrErr : List Nat)
  | remoteBitclr (b : BundleId) (src : Fin 64) (rid : BitVec 16) (line : BitVec 21) (be : BitVec 64) (data : BitVec 512)
      (addrErr : List Nat)
  | rspReceive (rid : BitVec 16) (status : Byte) (poison : BitVec 8) (data : BitVec 512)
  | bcreditReceive (src : Fin 64) (endpoint : BitVec 10) (beats : Byte)
  | remoteTimeout (rid : BitVec 16)
  | beatReceive (src : Fin 64) (endpoint : BitVec 10) (beat : Beat)
  | cfgbReceive (flashB : Bool) (addr : Nat) (bytes : List Byte) (load : Option (Fin 3072 × Nat × Container))
  | streamRouteWrite (who : Requester) (val : Word)
  -- Brynerek
  | helloReceive (hello : Hello)
  | syncTimeout (lineLow : Bool)
  | arbitrationEnd (won : Bool)
  | syncBarrier
  | stampedDelivery (domain : Fin 40) (cycle : Nat) (late : Bool) (item : StampedItem)
  | takeover
  | sidebandFault
  | commitRecord (q : QueueId) (bytes : List Byte) (own : List Byte)
  | commitRecordAck (q : QueueId)
  | progressRecord (q : QueueId) (cid : BitVec 16) (offset : Word) (own : Word)
  | selfcheckLapEnd
  | failsilentReceive
  | heartbeatTimeout
  | rejoin (who : Requester)
  | rejoinAuto (uid : BitVec 64) (lines : BitVec 22)
  | rejoinBarrier (micros : Nat)
  | rejoinEnd (micros tbase : Nat)
  | rejoinAbandon (micros : Nat)
  -- Lysata
  | xtalSwitch
  | xtalFail
  | mgmtCoreFault (watchdog : Bool)
  | mgmtCoreRestartDone
  | supplyMonitorTrip (rail : Fin 7) (high : Bool)
  | refclkMonitorTrip
  | pllLockLoss (pll : Fin 7)
  | gclkChangeEffect (n : Fin 32)
  | fpllMultEffect (p : Fin 2)
  | pwrTargetWrite (who : Requester) (val : Word)
  | ladderEntry (partner : Fin 6)
  | wake (source : Fin 7)
  | ladderTimerExpire
  | ladderExitDone
  | tpOpen (who : Requester)
  | tpSvalWrite (who : Requester) (val : Word)
  | tpCommit (who : Requester) (digest : Word) (ticket : BitVec 16)
  | tpAbort (who : Requester) (ticket : BitVec 16)
  | ticketStagingExpire
  | ticketArmedExpire
  | commitApply (cut : Option Nat)
  | spiReadFrame (mosi : List Byte)
  | spiWriteFrame (mosi : List Byte)
  | mbColmap (who : Requester) (arg : BitVec 24)
  | mbSpares (who : Requester) (arg : BitVec 24)
  | mbIntegrity (who : Requester) (arg : BitVec 24)
  | mbTelemetry (who : Requester) (arg : BitVec 24)
  | mailboxReply (who : Requester)
  -- Echo
  | eventEnqueue (leafBad : Bool)
  | eventTake
  | echRearm (who : Requester)
  | echClearlog (who : Requester)
  | echCommit (who : Requester)
  | echoCommitStart
  | echoCommitEnd (failed : Option (BitVec 12))
  | rdata0Read (who : Requester)
  | cvalLoRead (who : Requester)
  -- debug access port
  | dbgNop
  | dbgRegrd (off : Nat)
  | dbgRegwr (off : Nat) (val : Word)
  | dbgHostrd (q : QueueId) (addr : BitVec 64) (len : Nat) (dun : BitVec 64)
  | dbgHostrdDone (data : Option (List Byte))
  | dbgBufrd (addr : Nat)
  | dbgGrtrd (off : Nat) (addrErr : List Nat)
  | dbgGrtwr (off : Nat) (val : Word) (addrErr : List Nat)
  -- JTAG
  | jtagExtest | jtagSamplePreload | jtagIdcode | jtagHighz | jtagClamp | jtagExtestPulse | jtagExtestTrain
  | jtagDbgap | jtagBypass | jtagTestLogicReset
  -- pins
  | pinLock (who : Requester) (key : Byte) (mask : BitVec 5)
  | dualInputMismatch (pin : Fin 768) (disagree : Bool)
  | dphyBurst (port : Fin 32) (burst : BurstEnv)
  | svcInputAccept (pin : Fin 16) (level : Bool)
  | svcSet (who : Requester) (val : Word)
  | svcClr (who : Requester) (val : Word)
  | svcTgl (who : Requester) (val : Word)
  | smbusBlockRead (command : Byte)
  | smbusReadWord (command : Byte)
  | smbusAlertResponse
  -- further events
  | fundamentalResetDeasserted
  | refclkAppearingOrDisappearing (present : Bool)
  | coreRailInSteadyRange (rail : Fin 7)
  | checkerSyncChange (b : BundleId) (k : LaneId) (inSync : Bool) (bits errs : Nat)
  | testCounterSaturated (b : BundleId) (k : LaneId) (err : Bool)
  | aloneReceive
  | pinCompareMismatch (pin : Fin 768)
  | grottoCrcExchange (own partner : Word)
  | mirroredOutboundFlit (b : BundleId) (bytes own : FlitBytes)
  | aerErrorLogged (type : BitVec 8)
  | ulpsEntryExit (port : Fin 32) (inUlps : Bool)
  | dphyDeskewCalibration (port : Fin 32) (ok : Bool)
  | streamRouteBeatSend (endpoint : BitVec 10) (beat : Beat)
  deriving DecidableEq, Repr

end Sys2Proof
end

