-- ==== Sys2Proof/Machine/Bits.lean ====
section
/-! DEFINITION. Bit fields, bytes and counts: the helpers the meanings use to take a register word apart and to put
bytes together, little-endian (00_scope.md, Numbers and units). -/

namespace Sys2Proof.Machine

/-- Bits lo+len-1 : lo of a word, as a number. -/
def fld {w : Nat} (v : BitVec w) (lo len : Nat) : Nat := (v.toNat >>> lo) % 2 ^ len

/-- Bit i of a word. -/
def bit {w : Nat} (v : BitVec w) (i : Nat) : Bool := v.getLsbD i

/-- A word with bits lo+len-1 : lo replaced by v. -/
def setFld (x : Word) (lo len v : Nat) : Word :=
  let m : Word := BitVec.ofNat 32 ((2 ^ len - 1) <<< lo)
  (x &&& ~~~m) ||| (BitVec.ofNat 32 ((v % 2 ^ len) <<< lo))

/-- The mask of bits lo+len-1 : lo of a register. -/
def maskOf (lo len : Nat) : Word := BitVec.ofNat 32 ((2 ^ len - 1) <<< lo)

/-- A register word with only bits lo+len-1 : lo set, to v. -/
def mkFld (lo len v : Nat) : Word := BitVec.ofNat 32 ((v % 2 ^ len) <<< lo)

/-- A register word with only bit i, set to b. -/
def mkBit (i : Nat) (b : Bool) : Word := if b then BitVec.ofNat 32 (1 <<< i) else 0

/-- A bit vector with bit i set to b. -/
def putBit {w : Nat} (v : BitVec w) (i : Nat) (b : Bool) : BitVec w :=
  let m : BitVec w := BitVec.ofNat w (1 <<< i)
  if b then v ||| m else v &&& ~~~m

/-- 0 or 1. -/
def b2n (b : Bool) : Nat := if b then 1 else 0

/-- The number of ones. -/
def popcount {w : Nat} (v : BitVec w) : Nat := (List.range w).countP fun i => v.getLsbD i

/-- The positions of the ones, rising. -/
def bitsOf {w : Nat} (v : BitVec w) : List Nat := (List.range w).filter fun i => v.getLsbD i

/-- A bit vector with ones at the listed positions. -/
def ofBits (w : Nat) (l : List Nat) : BitVec w := l.foldl (fun v i => putBit v i true) 0

/-- The n bytes of a number, lowest first. -/
def leBytes (n v : Nat) : List Byte := (List.range n).map fun i => BitVec.ofNat 8 (v >>> (8 * i))

/-- The number whose bytes, lowest first, are given. -/
def ofLeBytes : List Byte → Nat
  | [] => 0
  | b :: t => b.toNat + 256 * ofLeBytes t

/-- A list of bytes cut or filled with zeros to length n. -/
def fitBytes (n : Nat) (l : List Byte) : List Byte := (List.range n).map fun i => l.getD i 0

/-- Saturating at m (the counters of the manual). -/
def sat (m n : Nat) : Nat := min m n

/-- The values and their own positions. -/
def withPos {α : Type} (l : List α) : List (Nat × α) := (List.range l.length).zip l

/-- Division rounding up. -/
def ceilDiv (a b : Nat) : Nat := (a + b - 1) / b

/-- Signed value of an n-bit two's complement field. -/
def signed (n v : Nat) : Int := if v < 2 ^ (n - 1) then (v : Int) else (v : Int) - (2 ^ n : Nat)

end Sys2Proof.Machine
end

