-- ==== Sys2Proof/Machine/Aes.lean ====
section
/-! DEFINITION. AES-256 and the modes that 10_crypto.md names: XTS (R411, R412; IEEE 1619), GCM (R422; NIST SP 800-38D),
CMAC and the counter-mode KDF (R421; SP 800-38B, SP 800-108), Key Wrap (R401; SP 800-38F) and the key check value (R405).
The block cipher is FIPS 197. -/

namespace Sys2Proof.Machine

/- ### The block cipher (FIPS 197) -/

/-- The S-box of FIPS 197, entry b at bits 8b + 7 to 8b. -/
def aesSbox : Nat :=
  0xc072a49cafa2d4adf04759fa7dc982ca76abd7fe2b670130c56f6bf27b777c63 +
  0x75b227ebe28012079a059618c323c7041531d871f1e5a534ccf73f362693fdb7 * 2 ^ 256 +
  0xcf584c4a39becb6a5bb1fc20ed00d153842fe329b3d63b52a05a6e1b1a2c8309 * 2 ^ 512 +
  0xd2f3ff1021dab6bcf5389d928f40a351a89f3c507f02f94585334d43fbaaefd0 * 2 ^ 768 +
  0xdb0b5ede14b8ee4688902a22dc4f816073195d643d7ea7c41744975fec130ccd * 2 ^ 1024 +
  0x08ae7a65eaf4566ca94ed58d6d37c8e779e4959162acd3c25c2406490a3a32e0 * 2 ^ 1280 +
  0x9e1dc186b95735610ef6034866b53e708a8bbd4b1f74dde8c6b4a61c2e2578ba * 2 ^ 1536 +
  0x16bb54b00f2d99416842e6bf0d89a18cdf2855cee9871e9b948ed9691198f8e1 * 2 ^ 1792

/-- Its inverse, entry b at bits 8b + 7 to 8b. -/
def aesInvSbox : Nat :=
  0xcbe9dec444438e3487ff2f9b8239e37cfbd7f3819ea340bf38a53630d56a0952 +
  0x25d18b6d49a25b76b224d92866a12e084ec3fa420b954cee3d23c2a632947b54 * 2 ^ 256 +
  0x849d8da75746155edab9edfd5048706c92b6655dcc5ca4d41698688664f6f872 * 2 ^ 512 +
  0x6b8a130103bdafc1020f3fca8f1e2cd00645b3b80558e4f70ad3bc8c00abd890 * 2 ^ 768 +
  0x6edf751ce837f9e28535ade72274ac9673e6b4f0cecff297eadc674f4111913a * 2 ^ 1024 +
  0xf45acd78fec0db9a2079d2c64b3e56fc1bbe18aa0e62b76f89c5291d711af147 * 2 ^ 1280 +
  0xef9cc9939f7ae52d0d4ab519a97f51605fec8027591012b131c7078833a8dd1f * 2 ^ 1536 +
  0x7d0c2155631469e126d677ba7e042b17619953833cbbebc8b0f52aae4d3be0a0 * 2 ^ 1792

/-- Look a byte up in a table of 256 bytes. -/
def tableByte (t : Nat) (b : Byte) : Byte := BitVec.ofNat 8 (t >>> (8 * b.toNat))
/-- Multiply by x in GF(2^8). -/
def xtime (b : Byte) : Byte := (b <<< 1) ^^^ (if b.msb then 0x1B else 0)
/-- Multiply by a number below 16 in GF(2^8). -/
def gmul (n : Nat) (b : Byte) : Byte :=
  let b2 := xtime b
  let b4 := xtime b2
  (if n % 2 = 1 then b else 0) ^^^ (if n / 2 % 2 = 1 then b2 else 0) ^^^ (if n / 4 % 2 = 1 then b4 else 0)
    ^^^ (if n / 8 % 2 = 1 then xtime b4 else 0)
/-- Exclusive or of two byte strings. -/
def xorBytes (a b : List Byte) : List Byte := a.zipWith (· ^^^ ·) b
/-- The four bytes of a column times the circulant of four numbers. -/
def mixColumn (m : List Nat) (c : List Byte) : List Byte :=
  (List.range 4).map fun r => (List.range 4).foldl (fun v j => v ^^^ gmul (m.getD ((j + 4 - r) % 4) 0) (c.getD j 0)) 0
/-- MixColumns, or its inverse. -/
def mixColumns (m : List Nat) (b : List Byte) : List Byte :=
  (List.range 4).flatMap fun c => mixColumn m ((b.drop (4 * c)).take 4)
/-- The bytes of a block in another order: ShiftRows with step 5, its inverse with step 13. -/
def shiftRows (step : Nat) (b : List Byte) : List Byte := (List.range 16).map fun i => b.getD (step * i % 16) 0

/-- Words of the key schedule, the newest first, four bytes each: `i` is the next word's number. -/
def expandKey : Nat → Nat → Byte → List (List Byte) → List (List Byte)
  | 0, _, _, l => l
  | n + 1, i, rcon, l =>
    let t := l.getD 0 []
    let t := if i % 8 = 0 then xorBytes ((t.drop 1 ++ t.take 1).map (tableByte aesSbox)) [rcon, 0, 0, 0]
      else if i % 8 = 4 then t.map (tableByte aesSbox) else t
    expandKey n (i + 1) (if i % 8 = 0 then xtime rcon else rcon) (xorBytes (l.getD 7 []) t :: l)
/-- The 15 round keys of a 256-bit key. -/
def roundKeys (key : List Byte) : List (List Byte) :=
  let k := fitBytes 32 key
  let w := (expandKey 52 8 1 ((List.range 8).map fun i => (k.drop (4 * (7 - i))).take 4)).reverse
  (List.range 15).map fun r => (w.drop (4 * r)).take 4 |>.flatten

/-- Rounds of the cipher from its second round key on; the last has no MixColumns. -/
def aesRounds : List (List Byte) → List Byte → List Byte
  | [], b => b
  | [k], b => xorBytes (shiftRows 5 (b.map (tableByte aesSbox))) k
  | k :: t, b => aesRounds t (xorBytes (mixColumns [2, 3, 1, 1] (shiftRows 5 (b.map (tableByte aesSbox)))) k)
/-- Encrypt a block of 16 bytes. -/
def aesEncrypt (ks : List (List Byte)) (b : List Byte) : List Byte :=
  match ks with
  | [] => b
  | k :: t => aesRounds t (xorBytes b k)

/-- Rounds of the inverse cipher, from the last round key but one back to the first. -/
def aesInvRounds : List (List Byte) → List Byte → List Byte
  | [], b => b
  | [k], b => xorBytes ((shiftRows 13 b).map (tableByte aesInvSbox)) k
  | k :: t, b => aesInvRounds t (mixColumns [14, 11, 13, 9] (xorBytes ((shiftRows 13 b).map (tableByte aesInvSbox)) k))
/-- Decrypt a block of 16 bytes. -/
def aesDecrypt (ks : List (List Byte)) (b : List Byte) : List Byte :=
  match ks.reverse with
  | [] => b
  | k :: t => aesInvRounds t (xorBytes b k)

/-- The pieces of n bytes of a byte string, the last one as long as what is left; at most `fuel` of them. -/
def chunks (n : Nat) : Nat → List Byte → List (List Byte)
  | 0, _ => []
  | fuel + 1, l => if l.isEmpty then [] else l.take n :: chunks n fuel (l.drop n)
/-- The blocks of 16 bytes of a byte string. -/
def blocks16 (l : List Byte) : List (List Byte) := chunks 16 (l.length / 16 + 1) l

/- ### XTS (R411, R412) -/

/-- Multiply by α in GF(2^128) as XTS writes it, little-endian. -/
def xtsAlpha (t : Nat) : Nat := if 2 ^ 127 ≤ t then (2 * t - 2 ^ 128) ^^^ 0x87 else 2 * t
/-- Blocks of a data unit under tweak t (R412). -/
def xtsBlocks (f : List Byte → List Byte) : Nat → List (List Byte) → List Byte
  | _, [] => []
  | t, b :: l => xorBytes (f (xorBytes b (leBytes 16 t))) (leBytes 16 t) ++ xtsBlocks f (xtsAlpha t) l
/-- XTS-AES-256 of one data unit: Key1 (32 bytes) and Key2 (32 bytes) of the entry, encrypt or decrypt, data unit number,
bytes. -/
def xts (key : List Byte) (encrypt : Bool) (dun : Nat) (data : List Byte) : List Byte :=
  let k1 := roundKeys (key.take 32)
  let t := ofLeBytes (aesEncrypt (roundKeys (key.drop 32)) (leBytes 16 dun))
  xtsBlocks (if encrypt then aesEncrypt k1 else aesDecrypt k1) t (blocks16 data)

/- ### GCM (R422) -/

/-- A number from bytes, most significant first. -/
def ofBig (l : List Byte) : Nat := ofLeBytes l.reverse
/-- n bytes of a number, most significant first. -/
def bigBytes (n v : Nat) : List Byte := (leBytes n v).reverse
/-- Multiply in the field of GHASH, most significant bit first: n bits of x are left. -/
def ghashMul (x : Nat) : Nat → Nat → Nat → Nat
  | 0, _, z => z
  | n + 1, v, z =>
    ghashMul x n (if v % 2 = 1 then (v / 2) ^^^ (0xE1 * 2 ^ 120) else v / 2) (if x.testBit n then z ^^^ v else z)
/-- GHASH over blocks under the hash subkey h. -/
def ghash (h : Nat) (l : List (List Byte)) : Nat :=
  l.foldl (fun y b => ghashMul (y ^^^ ofBig (fitBytes 16 b)) 128 h 0) 0
/-- Counter mode from a counter block on. -/
def gctr (ks : List (List Byte)) : Nat → List (List Byte) → List Byte
  | _, [] => []
  | c, b :: l => xorBytes b (aesEncrypt ks (bigBytes 16 c)) ++ gctr ks (c / 2 ^ 32 * 2 ^ 32 + (c + 1) % 2 ^ 32) l
/-- AES-256-GCM: what counter mode makes of the data. The 96-bit IV is four zero bytes and the record counter (R422). -/
def gcmCrypt (key : List Byte) (counter : Nat) (data : List Byte) : List Byte :=
  gctr (roundKeys key) (counter * 2 ^ 32 + 2) (blocks16 data)
/-- AES-256-GCM: the tag over the additional authenticated data and the ciphertext. -/
def gcmTag (key : List Byte) (counter : Nat) (aad cipher : List Byte) : List Byte :=
  let ks := roundKeys key
  let h := ofBig (aesEncrypt ks (List.replicate 16 0))
  let g := ghash h (blocks16 aad ++ blocks16 cipher ++ [bigBytes 8 (8 * aad.length) ++ bigBytes 8 (8 * cipher.length)])
  xorBytes (bigBytes 16 g) (aesEncrypt ks (bigBytes 16 (counter * 2 ^ 32 + 1)))

/- ### CMAC and the key derivation (R421) -/

/-- Double in GF(2^128) as CMAC writes it. -/
def cmacDouble (v : Nat) : Nat := if 2 ^ 127 ≤ v then (2 * v - 2 ^ 128) ^^^ 0x87 else 2 * v
/-- AES-256-CMAC of a message (SP 800-38B). -/
def cmac (key msg : List Byte) : List Byte :=
  let ks := roundKeys key
  let k1 := cmacDouble (ofBig (aesEncrypt ks (List.replicate 16 0)))
  let bs := blocks16 msg
  let last := bs.getLast?.getD []
  let m := if last.length = 16 then xorBytes last (bigBytes 16 k1)
    else xorBytes (fitBytes 16 (last ++ [0x80])) (bigBytes 16 (cmacDouble k1))
  (bs.dropLast ++ [m]).foldl (fun y b => aesEncrypt ks (xorBytes y b)) (List.replicate 16 0)
/-- 256 bits of the counter-mode KDF of SP 800-108 with CMAC as PRF. The manual gives the key and the context; the
counter's and the length's 32 bits and the label are log 111. -/
def kdf256 (key label context : List Byte) : List Byte :=
  (List.range 2).flatMap fun i => cmac key (bigBytes 4 (i + 1) ++ label ++ [0] ++ context ++ bigBytes 4 256)

/- ### Key Wrap (R401) and the key check value (R405) -/

/-- Steps of the unwrapping: t counts down to 1; A and the semiblocks R1 to R8. -/
def unwrapSteps (ks : List (List Byte)) : Nat → List Byte → List (List Byte) → List Byte × List (List Byte)
  | 0, a, r => (a, r)
  | t + 1, a, r =>
    let i := t % 8
    let b := aesDecrypt ks (xorBytes a (bigBytes 8 (t + 1)) ++ r.getD i [])
    unwrapSteps ks t (b.take 8) (r.set i (b.drop 8))
/-- AES Key Wrap's inverse of 72 bytes under the device key-encryption key: none when the integrity check fails. -/
def keyUnwrap (kek : BitVec 256) (wrapped : List Byte) : Option (List Byte) :=
  let w := fitBytes 72 wrapped
  let (a, r) := unwrapSteps (roundKeys (bigBytes 32 kek.toNat)) 48 (w.take 8) (chunks 8 8 (w.drop 8))
  if a = List.replicate 8 0xA6 then some r.flatten else none
/-- The key check value: the first two bytes of the encryption of a zero block (R405), the first byte above (log 111). -/
def keyCheck (key : List Byte) : BitVec 16 :=
  BitVec.ofNat 16 (ofBig ((aesEncrypt (roundKeys (key.take 32)) (List.replicate 16 0)).take 2))

end Sys2Proof.Machine
end

