-- ==== Sys2Proof/Machine/Crc.lean ====
section
/-! DEFINITION. The check codes of the manual: CRC-32C (00_scope.md, R769), CRC-32 (11_loading.md, R445), and the
other CRCs of chapters 13 to 17, all over bytes. -/

namespace Sys2Proof.Machine

/-- One reflected step: the register shifts right and takes the reversed polynomial when a 1 falls out. -/
def crcStep (poly c : Nat) : Nat := if c % 2 = 1 then (c / 2) ^^^ poly else c / 2

/-- One byte, from bit 0 on. -/
def crcByte (poly c : Nat) (b : Byte) : Nat :=
  let c := c ^^^ b.toNat
  crcStep poly (crcStep poly (crcStep poly (crcStep poly (crcStep poly (crcStep poly (crcStep poly (crcStep poly c)))))))

/-- CRC-32C: polynomial 0x1EDC6F41 reflected, initial value and final XOR 0xFFFFFFFF (R769). -/
def crc32c (l : List Byte) : Word := BitVec.ofNat 32 (l.foldl (crcByte 0x82F63B78) 0xFFFFFFFF ^^^ 0xFFFFFFFF)

/-- CRC-32C going on from the result over the bytes before. -/
def crc32cFrom (c : Word) (l : List Byte) : Word :=
  BitVec.ofNat 32 (l.foldl (crcByte 0x82F63B78) (c.toNat ^^^ 0xFFFFFFFF) ^^^ 0xFFFFFFFF)

/-- CRC-32 of 11_loading.md: polynomial 0x04C11DB7 reflected, initial value and final XOR 0xFFFFFFFF. -/
def crc32 (l : List Byte) : Word := BitVec.ofNat 32 (l.foldl (crcByte 0xEDB88320) 0xFFFFFFFF ^^^ 0xFFFFFFFF)

/-- One byte of a non-reflected CRC of width w. -/
def crcMsbByte (w poly : Nat) (c : Nat) (b : Byte) : Nat :=
  (List.range 8).foldl (fun c _ => if (c >>> (w - 1)) % 2 = 1 then ((c * 2) % 2 ^ w) ^^^ poly else (c * 2) % 2 ^ w)
    (c ^^^ (b.toNat <<< (w - 8)))

/-- A CRC of width w with most significant bits first and no reflection. -/
def crcMsb (w poly init xor : Nat) (l : List Byte) : Nat := (l.foldl (crcMsbByte w poly) init) ^^^ xor

end Sys2Proof.Machine
end

