-- ==== Sys2Proof/Machine/Spaub.lean ====
section
/-! DEFINITION. What the bytes of a flash directory and of a Spaub container say (11_loading.md, R440 to R448, Tables
Loading-3 to -10). -/

namespace Sys2Proof.Machine

/-- n bytes from offset o on, the lowest first. -/
def leAt (l : List Byte) (o n : Nat) : Nat := ofLeBytes ((l.drop o).take n)

/- ### Chamber images (R446) -/

/-- The configuration words of the cells: bit b of byte j of row r is bit r of the word of cell 8 j + b. -/
def imageCells (rows : List Nat) : ImageWords :=
  let some_ := rows.foldl (· ||| ·) 0
  ((List.range 2048).filter fun c => some_.testBit c).map fun c =>
    (c, BitVec.ofNat 80 ((withPos rows).foldl (fun v p => if p.2.testBit c then v + 2 ^ p.1 else v) 0))

/-- A CHIMAGE section: the subheader of Table Loading-9 and 80 rows of 256 bytes. -/
def parseImage (l : List Byte) : ChamberImage :=
  { slot := BitVec.ofNat 16 (leAt l 0 2), pers := BitVec.ofNat 16 (leAt l 2 2), rel := leAt l 4 1 % 2 == 1,
    lsi := leAt l 4 1 / 2 % 2 == 1, home := BitVec.ofNat 16 (leAt l 6 2),
    words := imageCells ((chunks 256 80 (l.drop 32)).map ofLeBytes) }

/- ### Sections (Tables Loading-6, -7, -10) -/

/-- MANIFEST: its member entries. -/
def parseMembers (l : List Byte) : List (BitVec 8 × BitVec 32 × BitVec 32) :=
  (chunks 12 (min 32 (leAt l 0 2)) (l.drop 4)).map fun e =>
    (BitVec.ofNat 8 (leAt e 0 1), BitVec.ofNat 32 (leAt e 4 4), BitVec.ofNat 32 (leAt e 8 4))

/-- The contents of a section of this TYPE. -/
def parseBody (type : Nat) (l : List Byte) : SectionBody :=
  match type with
  | 0x01 => .manifest (parseMembers l)
  | 0x02 => .fwcode
  | 0x03 => .keyrec (chunks 80 (l.length / 80) l)
  | 0x10 => .chimage (parseImage l)
  | 0x11 => .resident ((chunks 2 2048 l).map fun e => BitVec.ofNat 16 (ofLeBytes e))
  | 0x12 => .reginit ((chunks 8 (l.length / 8) l).map fun e => (leAt e 0 4, BitVec.ofNat 32 (leAt e 4 4)))
  | 0xFF => .pad
  | t => .other (BitVec.ofNat 16 t)

/-- ULEN and the counts are those of Table Loading-7 and R446. -/
def bodySize (type ulen : Nat) (l : List Byte) : Bool :=
  match type with
  | 0x01 => let n := leAt l 0 2; decide (1 ≤ n) && decide (n ≤ 32) && ulen == 4 + 12 * n
  | 0x03 => ulen % 80 == 0
  | 0x10 => ulen == 20512
  | 0x11 => ulen == 4096
  | 0x12 => ulen % 8 == 0
  | _ => true

/-- The fields that Tables Loading-9 and -10 and R448 have zero are zero. -/
def bodyZero (type : Nat) (l : List Byte) : Bool :=
  match type with
  | 0x01 => leAt l 2 2 == 0 && (chunks 12 (min 32 (leAt l 0 2)) (l.drop 4)).all fun e => leAt e 1 3 == 0
  | 0x10 => leAt l 4 1 / 4 == 0 && leAt l 5 1 == 0 && leAt l 8 24 == 0
  | 0x11 => (chunks 2 2048 l).all fun e => ofLeBytes e / 4096 % 4 == 0
  | _ => true

/-- A section from its entry of 96 bytes and its contents. -/
def parseSection (e : List Byte) (p : Option SectionData) : ContSection :=
  let type := leAt e 0 2
  let plain := (p.bind (·.plain)).getD []
  { offset := leAt e 8 4, slen := leAt e 12 4, arg := leAt e 4 4, critical := leAt e 2 2 / 2 % 2 == 1,
    deflate := leAt e 2 2 % 2 == 1, digestOk := p.any (·.digestOk),
    decompressOk := p.any fun p => p.plain.any fun l => l.length == leAt e 16 4,
    sizeOk := bodySize type (leAt e 16 4) plain, zeroOk := bodyZero type plain, body := parseBody type plain }

/-- A section entry's reserved fields are zero. -/
def entryZero (e : List Byte) : Bool := leAt e 2 2 / 4 == 0 && leAt e 20 12 == 0

/-- Sections from byte `at_` on lie in order, each at a multiple of 4, none over another (R444); where the last ends. -/
def sectionsEnd : Nat → List (List Byte) → Option Nat
  | at_, [] => some at_
  | at_, e :: t => if leAt e 8 4 % 4 = 0 ∧ at_ ≤ leAt e 8 4 then sectionsEnd (leAt e 8 4 + leAt e 12 4) t else none

end Sys2Proof.Machine

/- ### The header (Table Loading-5) -/

namespace Sys2Proof
open Sys2Proof.Machine

/-- KIND. -/
def Container.kind (c : Container) : BitVec 8 := BitVec.ofNat 8 (leAt c.head 6 1)
/-- MAGIC and FORMAT are right. -/
def Container.magicOk (c : Container) : Bool := leAt c.head 0 4 == 0x4241_5053 && leAt c.head 4 2 == 1
/-- HCRC passes. -/
def Container.hcrcOk (c : Container) : Bool := (crc32 (c.head.take 124)).toNat == leAt c.head 124 4
/-- HFLAGS.FACTORY. -/
def Container.factory (c : Container) : Bool := leAt c.head 7 1 % 2 == 1
/-- DEVID. -/
def Container.devid (c : Container) : Word := BitVec.ofNat 32 (leAt c.head 8 4)
/-- STACK. -/
def Container.stack (c : Container) : BitVec 8 := BitVec.ofNat 8 (leAt c.head 12 1)
/-- SVN. -/
def Container.svn (c : Container) : BitVec 8 := BitVec.ofNat 8 (leAt c.head 13 1)
/-- NETMODE. -/
def Container.netmode (c : Container) : BitVec 8 := BitVec.ofNat 8 (leAt c.head 14 1)
/-- KEYSLOT. -/
def Container.keyslot (c : Container) : Nat := leAt c.head 15 1
/-- IMAGEID. -/
def Container.imageid (c : Container) : Word := BitVec.ofNat 32 (leAt c.head 16 4)
/-- VERSION. -/
def Container.version (c : Container) : Word := BitVec.ofNat 32 (leAt c.head 20 4)
/-- TOTLEN. -/
def Container.totlen (c : Container) : Nat := leAt c.head 24 4
/-- NSECT. -/
def Container.nsect (c : Container) : Nat := leAt c.head 28 2
/-- DONEWAIT. -/
def Container.donewait (c : Container) : Nat := leAt c.head 30 2
/-- The section entries. -/
def Container.table (c : Container) : List (List Byte) := chunks 96 c.nsect (c.head.drop 128)
/-- The sections. -/
def Container.sections (c : Container) : List ContSection :=
  (withPos c.table).map fun (i, e) => parseSection e c.parts[i]?
/-- Where section data begin (R444). -/
def Container.dataStart (c : Container) : Nat := 128 + 96 * c.nsect + 5360
/-- R444 and the reserved fields of header, section table and signature block hold (LENGTH of Table Loading-11, log 114). -/
def Container.lengthOk (c : Container) : Bool :=
  decide (1 ≤ c.nsect) && decide (c.nsect ≤ 4096) && leAt c.head 7 1 / 2 == 0 && leAt c.head 14 1 / 16 == 0 &&
    leAt c.head 32 92 == 0 && c.sigEnd.all (· == 0) && c.table.all entryZero &&
    sectionsEnd c.dataStart c.table == some c.totlen

/- ### The directory (R443, Tables Loading-3 and -4) -/

/-- A copy of the directory that passes: MAGIC, FORMAT, COUNT and DCRC are right (log 114). -/
def dirPasses (l : List Byte) : Bool :=
  let n := leAt l 6 2
  leAt l 0 4 == 0x5244_5053 && leAt l 4 2 == 1 && decide (n ≤ 254) &&
    (crc32 (l.take 28 ++ (l.drop 32).take (16 * n))).toNat == leAt l 28 4
/-- The directory that the device uses: the first copy that passes. -/
def Flash.directoryBytes (f : Flash) : Option (List Byte) := [f.dir, f.copy].find? dirPasses
/-- Some copy passes. -/
def Flash.directory (f : Flash) : Bool := f.directoryBytes.isSome
/-- FCLK in MHz. -/
def Flash.fclk (f : Flash) : Nat := leAt (f.directoryBytes.getD []) 8 1
/-- DUMMY: dummy cycles of a read at FCLK. -/
def Flash.dummy (f : Flash) : Nat := leAt (f.directoryBytes.getD []) 9 1
/-- What stands at an offset where no container is. -/
def noContainer : Container :=
  { head := [], sigEnd := [], parts := [], present := 0, keyMatch := false, edOk := false, mlOk := false }
/-- The container at a flash offset; a flash ends at 256 MiB (R440). -/
def Flash.containerAt (f : Flash) (o : Nat) : Container :=
  match f.contents.find? (·.1 == o) with
  | some p => if o < 2 ^ 28 then { p.2 with present := min p.2.present (2 ^ 28 - o) } else noContainer
  | none => noContainer
/-- The directory's entries (Table Loading-4). -/
def Flash.entries (f : Flash) : List FlashEntry :=
  let l := f.directoryBytes.getD []
  (chunks 16 (leAt l 6 2) (l.drop 32)).map fun e =>
    { kind := BitVec.ofNat 8 (leAt e 0 1), offset := leAt e 4 4, length := leAt e 8 4, container := f.containerAt (leAt e 4 4) }

end Sys2Proof
end

