-- ==== Sys2Proof/Config.lean ====
section
/-! DEFINITION. What the spec leaves open: the free values, constants without a body, so that a statement about one
holds for every value it could take (log 1), and what an external standard leaves to its user (log 111). -/

namespace Sys2Proof

/-- A free value of w bits; `n` is State.seed at its use, so that no two uses are related. -/
opaque Config.freeBits (w : Nat) (n : Nat) : BitVec w

/-- A free yes or no at seed n. -/
opaque Config.freeBool (n : Nat) : Bool

/-- A free number at seed n. -/
opaque Config.freeNat (n : Nat) : Nat

/-- The level of net i of a combinational loop of user logic, at seed n. -/
opaque Config.freeNet (n i : Nat) : Bool

/-- A free byte of a sequence at seed n, position i. -/
opaque Config.freeByte (n i : Nat) : Byte

/-- The label of the counter-mode KDF of SP 800-108 in R421, which the manual does not give (log 111). -/
opaque Config.kdfLabel : List Byte

/-- The outcome of the DEC-TED code for four or more wrong bits (Table Grotto-6): 0 no error found, 1 or 2 taken for
that many wrong bits and corrected wrongly, else uncorrectable. -/
opaque Config.manyBitOutcome (err : BitVec 80) : Nat
/-- The 64 data bits that the wrong correction delivers, as the change to the right ones. -/
opaque Config.manyBitData (err : BitVec 80) : BitVec 64

/-- Where the stored bits of a line (80 word + position) lie among the 20 x 32 bits that the sub-arrays of a bank give
together, as exchanges of places one after the other: any arrangement is one, and the manual gives none (log 19). -/
opaque Config.bitSwaps (bank : Nat) : List (Nat × Nat)
/-- Where the lines of a bank lie among its 128 rows of eight columns each, in the same way (log 19). -/
opaque Config.lineSwaps (bank : Nat) : List (Nat × Nat)

end Sys2Proof
end

