-- ==== Sys2Proof/Machine/Events.lean ====
section
/-! DEFINITION. Event codes: their class (R663) and the widths of their record fields (R664). -/

namespace Sys2Proof.Machine

/-- Codes of class FAULT whatever their fields (Tables Echo-1 and Integrity-5). -/
def faultCodes : List Nat :=
  [0x0204, 0x0206, 0x020A, 0x020C, 0x020D, 0x0303, 0x0405, 0x0406, 0x0602, 0x0604, 0x0605, 0x0606, 0x0608, 0x0633,
   0x0703, 0x0706, 0x0A05, 0x0A06, 0x0C03, 0x0C06, 0x0C08, 0x0D07, 0x0D0A, 0x0D0C, 0x0D0D]

/-- An event is of class FAULT (R663). 0x0D0B is FAULT unless its source is the crystal, code 1 of R632's list. -/
def isFault (code : Nat) (fields : List Nat) : Bool :=
  faultCodes.contains code || (code == 0x0D0B && fields.headD 0 != 1)

/-- The code is one of the 3,570 that have a leaf (R690, R10). -/
def hasLeaf (code : Nat) : Bool := decide (1 ≤ code / 256) && decide (code / 256 ≤ 14) && decide (code % 256 ≠ 0)

/-- Widths in bytes of the record fields of subsystems 2 to 4 (R664; Tables Stack-8, Routing-6, Strata-28,
Library-18). -/
def widthsA (code : Nat) : List Nat :=
  match code % 0x1000 with
  | 0x202 => [1, 2, 2] | 0x203 => [1, 2] | 0x204 => [1, 2, 2]
  | 0x205 => [1, 1, 2, 1, 1] | 0x206 => [2, 1] | 0x207 => [2, 1, 1, 1] | 0x208 => [2, 1]
  | 0x209 => [1, 1, 1, 1] | 0x20A => [2, 1] | 0x20B => [1, 2, 1] | 0x20C => [1, 1, 1, 2, 2] | 0x20D => [1]
  | 0x302 => [2, 1, 1] | 0x303 => [2, 1, 1] | 0x304 => [2, 1] | 0x305 => [2, 1] | 0x306 => [2, 1, 1]
  | 0x307 => [2, 1] | 0x308 => [1, 2, 1] | 0x309 => [2, 1, 1] | 0x30A => [2, 1] | 0x30B => [2, 1] | 0x30C => [2]
  | 0x402 => [2, 1, 2, 1, 2] | 0x403 => [2, 1, 2, 1, 2, 1] | 0x404 => [2, 2, 1, 1, 1] | 0x405 => [2, 1, 2, 1]
  | 0x406 => [2] | 0x407 => [2] | 0x408 => [2, 2, 2] | 0x40A => [2]
  | _ => []

/-- The same for subsystems 5 to 7 (Tables Loading-24, Integrity-5, Lockstep-7, Grotto-24). -/
def widthsB (code : Nat) : List Nat :=
  match code % 0x1000 with
  | 0x502 => [4, 4, 4, 4, 4, 4, 1, 1, 1] | 0x503 => [1, 1, 4, 1, 2] | 0x504 => [4, 4, 4] | 0x505 => [4, 4, 1]
  | 0x506 => [1] | 0x507 => [2] | 0x508 => [1, 4] | 0x509 => [1, 1, 1] | 0x50A => [1, 1] | 0x50B => [4, 1]
  | 0x50C => [1, 2, 2]
  | 0x602 => [2, 1, 2, 1, 1, 1] | 0x603 => [2, 1, 1, 1, 1] | 0x604 => [2, 1, 1] | 0x605 => [2, 1, 1]
  | 0x606 => [2, 2] | 0x607 => [4, 2] | 0x608 => [1]
  | 0x631 => [1, 8] | 0x632 => [1, 1] | 0x633 => [1, 1, 8, 1, 4, 4] | 0x634 => [1, 1, 1, 1] | 0x635 => [1, 1, 1, 1]
  | 0x636 => [1, 1, 2] | 0x637 => [1, 1]
  | 0x702 => [1, 1, 2, 1, 1] | 0x703 => [1, 1, 2, 1, 1] | 0x704 => [1, 1, 2] | 0x705 => [1, 1, 2]
  | 0x706 => [1, 1, 2, 1, 1] | 0x707 => [1, 1, 1, 1, 1] | 0x708 => [1, 1, 1, 1] | 0x709 => [1, 1, 2]
  | 0x70A => [1, 4] | 0x70B => [1]
  | _ => []

/-- The same for subsystems 8 to 10 (Tables Queues-25, Translation-22, Crypto-14). -/
def widthsC (code : Nat) : List Nat :=
  match code % 0x1000 with
  | 0x802 => [1, 1] | 0x803 => [1, 2, 1, 2] | 0x804 => [1, 2] | 0x805 => [1, 2, 1] | 0x806 => [1, 2]
  | 0x807 => [1, 2, 1] | 0x808 => [1, 2, 4] | 0x809 => [1, 8] | 0x80A => [1, 1, 1] | 0x80B => [1, 1] | 0x80C => [1]
  | 0x80D => [1, 2, 2]
  | 0x902 => [1, 1, 1, 2, 1] | 0x903 => [2, 1] | 0x904 => [1, 1] | 0x905 => [1, 2, 4] | 0x906 => [1, 1]
  | 0x907 => [1, 1] | 0x908 => [1, 2] | 0x909 => [1, 1] | 0x90A => [2]
  | 0xA02 => [1, 1] | 0xA03 => [1, 1] | 0xA04 => [1, 2, 1, 2] | 0xA05 => [1] | 0xA06 => [1, 1] | 0xA07 => [1, 8, 1]
  | 0xA08 => [1, 1, 1] | 0xA09 => [1, 8] | 0xA0A => [1, 1, 2]
  | _ => []

/-- The same for subsystems 11 to 14 (Tables Lanes-21, Network-19, Twin-20, Lysata-32, Echo-21, Pins-26). -/
def widthsD (code : Nat) : List Nat :=
  match code % 0x1000 with
  | 0xB02 => [1, 1, 4, 2] | 0xB03 => [1, 1] | 0xB04 => [1, 1, 1] | 0xB05 => [1, 1, 1] | 0xB06 => [1, 1, 1]
  | 0xB07 => [1, 1] | 0xB08 => [1, 1] | 0xB09 => [1, 1] | 0xB0A => [1, 1] | 0xB0B => [1, 1, 1] | 0xB0C => [1, 1]
  | 0xB0D => [1, 2] | 0xB0E => [1, 1, 2, 2, 2, 2] | 0xB0F => [1, 1, 1] | 0xB10 => [8, 1] | 0xB11 => [1, 1, 1]
  | 0xB12 => [1, 2] | 0xB13 => [1, 2, 1] | 0xB14 => [2, 1]
  | 0xC02 => [1, 8, 8] | 0xC03 => [1, 1, 8] | 0xC04 => [8, 8] | 0xC05 => [1, 4, 2] | 0xC06 => [1, 8] | 0xC07 => [1, 1]
  | 0xC08 => [1, 8] | 0xC09 => [1] | 0xC0A => [8, 4] | 0xC0B => [1, 2, 1] | 0xC0C => [1]
  | 0xD02 => [1, 1, 1] | 0xD03 => [2, 1] | 0xD04 => [1] | 0xD05 => [1, 1, 1] | 0xD06 => [1, 1, 1] | 0xD07 => [1, 1]
  | 0xD08 => [2, 2] | 0xD09 => [4, 1, 1] | 0xD0A => [1, 1] | 0xD0B => [1] | 0xD0C => [2, 1] | 0xD0D => [1]
  | 0xD0E => [2, 1] | 0xD0F => [2, 4, 1] | 0xD10 => [2, 1, 1] | 0xD11 => [2, 4] | 0xD12 => [1, 1]
  | 0xE02 => [2, 2] | 0xE03 => [2] | 0xE04 => [2] | 0xE05 => [4, 2, 1] | 0xE06 => [1] | 0xE07 => [2, 4, 1]
  | 0xE08 => [2] | 0xE09 => [2, 1] | 0xE0A => [1, 1] | 0xE0B => [4] | 0xE0C => [2, 2] | 0xE0D => [2, 2, 1]
  | 0xE0E => [1] | 0xE0F => [1, 1, 2] | 0xE10 => [1, 1, 1] | 0xE11 => [1, 1]
  | _ => []

/-- Widths of an event's record fields. -/
def payloadWidths (code : Nat) : List Nat :=
  if code % 256 = 1 then [4, 1, 1]
  else if code / 256 ≤ 4 then widthsA code
  else if code / 256 ≤ 7 then widthsB code
  else if code / 256 ≤ 10 then widthsC code
  else widthsD code

/-- The 32 payload bytes of a record (R664). -/
def payloadBytes (code : Nat) (fields : List Nat) : List Byte :=
  fitBytes 32 (((payloadWidths code).zip fields).flatMap fun (w, v) => leBytes w v)

/-- Some record field of the event is a TBASE value, so that no two such events are identical (R666). -/
def carriesTbase (code : Nat) : Bool := [0x0631, 0x0633, 0x0C02, 0x0C03, 0x0C04, 0x0C06].contains code

end Sys2Proof.Machine
end

