-- ==== Sys2Proof/Machine/Tab.lean ====
section
/-! DEFINITION. Sparse tables: a list of (key, value) pairs with keys strictly rising and no value equal to the
table's default, so that equal tables are equal lists. Grotto's bytes (07_grotto.md, R257), library slots, chambers,
queues and registers are held so. -/

namespace Sys2Proof.Machine

/-- The value at key k of a table whose unlisted keys hold d. -/
def tabGet {α : Type} (d : α) : List (Nat × α) → Nat → α
  | [], _ => d
  | (k', v) :: t, k => if k = k' then v else tabGet d t k

/-- A table with key k removed: it then holds the default. -/
def tabDel {α : Type} (t : List (Nat × α)) (k : Nat) : List (Nat × α) := t.filter fun p => p.1 != k

/-- A table with a new pair put before the first greater key. -/
def tabIns {α : Type} (k : Nat) (v : α) : List (Nat × α) → List (Nat × α)
  | [] => [(k, v)]
  | (k', v') :: t => if k < k' then (k, v) :: (k', v') :: t else (k', v') :: tabIns k v t

/-- A table with key k set to v; setting the default unlists the key. -/
def tabSet {α : Type} [DecidableEq α] (d : α) (t : List (Nat × α)) (k : Nat) (v : α) : List (Nat × α) :=
  if v = d then tabDel t k else tabIns k v (tabDel t k)

/-- A table with the value at key k changed by f. -/
def tabMod {α : Type} [DecidableEq α] (d : α) (t : List (Nat × α)) (k : Nat) (f : α → α) : List (Nat × α) :=
  tabSet d t k (f (tabGet d t k))

/-- The canonical form: keys strictly rising, no entry holding the default. -/
def tabWf {α : Type} [DecidableEq α] (d : α) : List (Nat × α) → Bool
  | [] => true
  | [(_, v)] => decide (v ≠ d)
  | (k, v) :: (k', v') :: t => decide (v ≠ d) && decide (k < k') && tabWf d ((k', v') :: t)

/-- n consecutive values from key k on. -/
def tabRange {α : Type} (d : α) (t : List (Nat × α)) (k n : Nat) : List α := (List.range n).map fun i => tabGet d t (k + i)

/-- A table with consecutive values from key k on. -/
def tabPuts {α : Type} [DecidableEq α] (d : α) : List (Nat × α) → Nat → List α → List (Nat × α)
  | t, _, [] => t
  | t, k, v :: vs => tabPuts d (tabSet d t k v) (k + 1) vs

/-- A set of numbers as a rising list: insertion. -/
def setAdd (k : Nat) : List Nat → List Nat
  | [] => [k]
  | x :: t => if k < x then k :: x :: t else if k = x then x :: t else x :: setAdd k t

/-- A set of numbers as a list: removal. -/
def setDel (k : Nat) (l : List Nat) : List Nat := l.filter fun x => x != k

end Sys2Proof.Machine
end

