-- ==== Sys2Proof/Machine/RegTable.lean ====
section
/-! DEFINITION. The layout of BAR0 (R15, Table Scope-6) and, per register, which bits store what is written, which of
them are RWL, their reset value, the pair a register belongs to (R2) and the allowed range of each enumerated field
(R8). Bits that are not listed here are RO, WO, W1C, W1S or reserved: a read takes them from the structures of State
(Machine/RegRead.lean) and a write acts through Machine/Registers.lean. -/

namespace Sys2Proof.Machine

/-- What a write stores in a register. -/
structure RegDesc where
  rw    : Word := 0                              -- bits stored by a write
  rwl   : Word := 0                              -- bits that change only through a two-party commit (Table Scope-5)
  reset : Word := 0                              -- reset value of the stored bits
  pair  : Nat := 0                               -- 1: _LO half, 2: _HI half (R2)
  enums : List (Nat × Nat × Nat × Nat) := []     -- field (low bit, length) and its lowest and highest allowed value
  deriving DecidableEq, Repr

/-- Register offset in chamber n's set (R16). -/
def chmReg (n o : Nat) : Nat := 0x0004_0000 + n * 0x100 + o
/-- Register offset in queue q's set (R16). -/
def queReg (q o : Nat) : Nat := 0x0008_0000 + q * 0x100 + o
/-- Kick page of queue q (R16). -/
def kickPage (q : Nat) : Nat := 0x0010_0000 + q * 0x1000
/-- Register offset of bundle b (13_lanes.md, R545). -/
def gvlReg (b o : Nat) : Nat := 0x000B_0000 + b * 0x1000 + o
/-- Register offset of switch group g (04_strata.md). -/
def grpReg (g o : Nat) : Nat := 0x0002_0100 + g * 0x10 + o

/-- A list of single registers by offset. -/
def descAt (l : List (Nat × RegDesc)) (o : Nat) : RegDesc := tabGet {} l o

/-- Tables Strata-8 to Strata-22. CHM_SAFE is RO in tier B (04_strata.md). -/
def chmDesc (n o : Nat) : RegDesc :=
  if o = 0x48 then (if n < 256 then { rw := 0x7, rwl := 0x7, enums := [(1, 2, 0, 1)] } else {})
  else descAt [
    (0x04, { rw := 0xFE00_001F }),
    (0x0C, { rw := 0x0000_FFFF }),
    (0x10, { rw := 0xFFFF_FFFF }),
    (0x14, { rw := 0x8000_003F }),
    (0x30, { pair := 1 }), (0x34, { pair := 2 }),
    (0x38, { pair := 1 }), (0x3C, { pair := 2 })] o

/-- Tables Strata-23 to Strata-27. -/
def fabDesc (o : Nat) : RegDesc :=
  if o = 0x0004 then { rw := 0xFF, reset := 0x08 }
  else if 0x100 ≤ o ∧ o < 0x200 ∧ o % 0x10 = 0 then { rw := 0xE1FF_001F }
  else {}

/-- Tables Library-7 to Library-17. -/
def libDesc (o : Nat) : RegDesc :=
  descAt [
    (0x10, { pair := 1 }), (0x14, { pair := 2 }),
    (0x18, { pair := 1 }), (0x1C, { pair := 2 }),
    (0x20, { rw := 0x8000_0FFF })] o

/-- Tables Grotto-11 to Grotto-23. -/
def grtDesc (o : Nat) : RegDesc :=
  if 0x1000 ≤ o ∧ o < 0x1400 then { rw := 0x1F00_FFFF }
  else if 0x2000 ≤ o ∧ o < 0x2010 then { rw := 0xFFFF_FFFF }
  else descAt [
    (0x04, { rw := 0xC000_0000, reset := 0x8000_0000 }),
    (0x08, { rw := 0xFFC0_0FFF, reset := 0x2580_0064 }),
    (0x10, { rw := 0x0000_FFFF, reset := 0x0400 }),
    (0x1C, { rw := 0x00FF_FFFF }),
    (0x20, { rw := 0xFFFF_FF00 }),
    (0x28, { pair := 1 }), (0x2C, { pair := 2 }),
    (0x30, { pair := 1 }), (0x34, { pair := 2 }),
    (0x38, { pair := 1 }), (0x3C, { pair := 2 })] o

/-- Tables Queues-13 to Queues-24. -/
def queDesc (o : Nat) : RegDesc :=
  descAt [
    (0x00, { rw := 0xF800_03FF }),
    (0x08, { rw := 0xFFFF_FF1F, reset := 0x04, pair := 1, enums := [(0, 5, 4, 16)] }),
    (0x0C, { rw := 0xFFFF_FFFF, pair := 2 }),
    (0x10, { rw := 0xFFFF_FF1F, reset := 0x04, pair := 1, enums := [(0, 5, 4, 16)] }),
    (0x14, { rw := 0xFFFF_FFFF, pair := 2 }),
    (0x18, { rw := 0xFFFF_FFF8, pair := 1 }), (0x1C, { rw := 0xFFFF_FFFF, pair := 2 }),
    (0x20, { rw := 0xFFFF_FFF8, pair := 1 }), (0x24, { rw := 0xFFFF_FFFF, pair := 2 }),
    (0x28, { rw := 0x80FF_FFFF }),
    (0x2C, { rw := 0xE000_003F, rwl := 0xE000_003F }),
    (0x30, { rw := 0xC000_03FF }),
    (0x34, { rw := 0x8FFF_FDFF, reset := 0x0010_0000 }),
    (0x38, { rw := 0x000F_FFFF }),
    (0x40, { pair := 1 }), (0x44, { pair := 2 }),
    (0x48, { pair := 1 }), (0x4C, { pair := 2 }),
    (0x50, { pair := 1 }), (0x54, { pair := 2 })] o

/-- Tables Translation-8 to Translation-21. -/
def xltDesc (o : Nat) : RegDesc :=
  if 0x1000 ≤ o ∧ o < 0x1800 then
    (if o % 8 = 0 then { rw := 0xFFFF_F001, rwl := 0xFFFF_F001, pair := 1 }
     else { rw := 0x000F_FFFF, rwl := 0x000F_FFFF, pair := 2 })
  else descAt [
    (0x04, { rw := 0xC000_01FF }),
    (0x08, { rw := 0xFFFF_FE1F, reset := 0x04, pair := 1, enums := [(0, 5, 4, 16)] }),
    (0x0C, { rw := 0xFFFF_FFFF, pair := 2 }),
    (0x10, { rw := 0xFFFF_FFF8, pair := 1 }), (0x14, { rw := 0xFFFF_FFFF, pair := 2 }),
    (0x20, { rw := 0xFFFF_F000, pair := 1 }), (0x24, { rw := 0x0000_FFFF, pair := 2 }),
    (0x30, { rw := 0x0FFF_0FFF, reset := 0x0300_0200 }),
    (0x34, { rw := 0x0FFF_0FFF, reset := 0x0800_0600 }),
    (0x38, { rw := 0x0FFF_0FFF, reset := 0x0800_0600 }),
    (0x48, { pair := 1 }), (0x4C, { pair := 2 }),
    (0x50, { pair := 1 }), (0x54, { pair := 2 })] o

/-- Tables Crypto-8 to Crypto-13. CRY_KEYk.RIGHTS is RWL and stands in the key table (R399). -/
def cryDesc (o : Nat) : RegDesc :=
  if 0x100 ≤ o ∧ o < 0x200 then { rwl := 0xF }
  else if 0x200 ≤ o ∧ o < 0x280 then
    (if o % 0x10 = 0 then { rw := 0xC000_3F3F, rwl := 0xC000_3F3F }
     else if o % 0x10 = 8 then { pair := 1 } else if o % 0x10 = 12 then { pair := 2 } else {})
  else descAt [(0x04, { rw := 1, rwl := 1 }), (0x10, { pair := 1 }), (0x14, { pair := 2 })] o

/-- Tables Lanes-9 to Lanes-20 (offsets within one bundle). -/
def laneDesc (o : Nat) : RegDesc :=
  if 0x100 ≤ o then
    (if o % 0x20 = 0x10 ∨ o % 0x20 = 0x18 then { pair := 1 }
     else if o % 0x20 = 0x14 ∨ o % 0x20 = 0x1C then { pair := 2 } else {})
  else descAt [
    (0x00, { rw := 0xBC00_0000, enums := [(26, 2, 0, 2)] }),
    (0x08, { rw := 0xFFFF_FF00, reset := 0x000A_4000 }),
    (0x0C, { rw := 0x0000_FFFF }),
    (0x10, { rw := 0xFF3F_3F00, reset := 0x190C_1800 }),
    (0x20, { rw := 0xEFF0_0000, reset := 0x8000_0000, enums := [(29, 3, 0, 4)] })] o

/-- Tables Network-11 to Network-18. -/
def netDesc (o : Nat) : RegDesc :=
  if 0x100 ≤ o ∧ o < 0x180 then
    (if o % 0x10 = 8 then { pair := 1 } else if o % 0x10 = 12 then { pair := 2 } else {})
  else descAt [
    (0x04, { rw := 0xF000_003F }),
    (0x08, { rw := 0x0000_FFFF, reset := 0x4E20 }),
    (0x10, { pair := 1 }), (0x14, { pair := 2 }),
    (0x20, { rw := 0x3FF }),
    (0x28, { rw := 0x3FF })] o

/-- Tables Twin-12 to Twin-19. TWN_CTRL.HANDOVER reads 0 and acts through a commit. -/
def twnDesc (o : Nat) : RegDesc :=
  descAt [
    (0x04, { rw := 0xF800_01FF, rwl := 0x3C00_0000, reset := 0x1000_0000, enums := [(28, 2, 0, 2)] }),
    (0x08, { rw := 0xFFFF_03FF, reset := 0x0064_0040 }),
    (0x0C, { rw := 0xFFFF_FFFF }),
    (0x14, { rw := 0xFFFF_FFFF, reset := 0x1000_0032 }),
    (0x20, { pair := 1 }), (0x24, { pair := 2 }),
    (0x28, { pair := 1 }), (0x2C, { pair := 2 })] o

/-- SRC and DIV of global clock n at reset (Table Lysata-4), with EN = 1. -/
def gclkReset (n : Nat) : Word :=
  let src := if n < 8 then 1 else if n < 16 then 0 else if n < 30 then 1 else 0
  let div := if n < 8 then 8 else if n < 16 then 8 else if n < 24 then 16 else if n < 28 then 32
    else if n < 30 then 64 else if n = 30 then 96 else 192
  mkBit 31 true ||| mkFld 28 2 src ||| mkFld 0 8 div

/-- Tables Lysata-13 to Lysata-31. -/
def lysDesc (o : Nat) : RegDesc :=
  if 0x80 ≤ o ∧ o < 0x100 then
    { rw := 0xF000_0FFF, reset := gclkReset ((o - 0x80) / 4), enums := [(28, 2, 0, 2), (0, 8, 4, 255)] }
  else descAt [
    (0x04, { rw := 0xF000_01FF, reset := 0x2000_0000, enums := [(30, 2, 0, 2)] }),
    (0x08, { rw := 0xE000_0000, enums := [(29, 3, 0, 5)] }),
    (0x0C, { rw := 0x3F, reset := 0x0A }),
    (0x14, { rw := 0xFFFF_FFFF }),
    (0x20, { pair := 1 }), (0x24, { pair := 2 }),
    (0x28, { rw := 0x1FF }),
    (0x30, { rw := 0xFFFF_0000, reset := 0x737A_0000 }),
    (0x38, { rw := 0xFFFF_8F00, reset := 0x7530_0800 }),
    (0x40, { rw := 0x7F, reset := 0x30, enums := [(0, 7, 32, 64)] }),
    (0x44, { rw := 0x7F, reset := 0x40, enums := [(0, 7, 32, 64)] }),
    (0x108, { rw := 0x001F_FFFC }),
    (0x114, { rw := 0x3F }),
    (0x120, { pair := 1 }), (0x124, { pair := 2 })] o

/-- Tables Echo-11 to Echo-20. -/
def echDesc (o : Nat) : RegDesc :=
  descAt [
    (0x00, { rw := 0xC0FF_F1FF, reset := 0x4010_0000 }),
    (0x10, { rw := 0x8000_0FFF }),
    (0x28, { pair := 1 }), (0x2C, { pair := 2 }),
    (0x30, { rw := 0xC000_FFFF, enums := [(30, 2, 0, 2)] }),
    (0x38, { pair := 1 }), (0x3C, { pair := 2 })] o

/-- Stored bits of PIN_SVCk: ANA reads 0 but on SENSE and USER pins (Table Pins-19). -/
def svcMask (k : Nat) : Word := (if 5 ≤ k then 0x8000_0000 else 0) ||| 0x7FFC_0000

/-- Tables Pins-15 to Pins-25. -/
def pinDesc (o : Nat) : RegDesc :=
  if 0x1000 ≤ o ∧ o < 0x1C00 then
    { rw := 0xFFFF_FE3F, reset := 0x0001_0000, enums := [(18, 4, 0, 3), (0, 6, 0, 47)] }
  else if 0x100 ≤ o ∧ o < 0x140 then { rw := svcMask ((o - 0x100) / 4), reset := 0x0208_0000 }
  else if 0x200 ≤ o ∧ o < 0x240 then { rw := if o < 0x220 then 0x1C00_0000 else 0x1800_0000 }
  else if 0x300 ≤ o ∧ o < 0x380 then
    { rw := 0xE7FC_03FF, reset := 0x6258_0000, enums := [(18, 9, 8, 450)] }
  else if 0x400 ≤ o ∧ o < 0x440 then { rw := 0xFFFF_FE00, enums := [(29, 2, 0, 2)] }
  else descAt [(0x10, { rw := 0xC000_00FF })] o

/-- Tables Loading-14 to Loading-23. CFG_CTRL.RELOAD and REVOKE read 0 and act through a commit. -/
def cfgDesc (o : Nat) : RegDesc :=
  descAt [
    (0x04, { rw := 0x4000_0000, rwl := 0xC000_000F }),
    (0x18, { rw := 0xFF, rwl := 0xFF }),
    (0x20, { rw := 0xFFFF_FFFF, rwl := 0xFFFF_FFFF }),
    (0x24, { rw := 0xFFFF_FFFF, rwl := 0xFFFF_FFFF })] o

/-- The description of the register at a BAR0 offset; of a reserved offset the empty one (R7, R15 to R17). -/
def regDesc (off : Nat) : RegDesc :=
  if off < 0x1_0000 then {}
  else if off < 0x2_0000 then lysDesc (off - 0x1_0000)
  else if off < 0x4_0000 then fabDesc (off - 0x2_0000)
  else if off < 0x6_0000 then chmDesc ((off - 0x4_0000) / 0x100) (off % 0x100)
  else if off < 0x7_0000 then libDesc (off - 0x6_0000)
  else if off < 0x8_0000 then grtDesc (off - 0x7_0000)
  else if off < 0x9_0000 then queDesc (off % 0x100)
  else if off < 0xA_0000 then xltDesc (off - 0x9_0000)
  else if off < 0xB_0000 then cryDesc (off - 0xA_0000)
  else if off < 0xB_8000 then (if off % 0x1000 < 0x200 then laneDesc (off % 0x1000) else {})
  else if off < 0xC_0000 then netDesc (off - 0xB_8000)
  else if off < 0xD_0000 then twnDesc (off - 0xC_0000)
  else if off < 0xE_0000 then echDesc (off - 0xD_0000)
  else if off < 0xF_0000 then pinDesc (off - 0xE_0000)
  else if off < 0x10_0000 then cfgDesc (off - 0xF_0000)
  else {}

/-- Reset value of the stored bits of a register. -/
def regReset (off : Nat) : Word := (regDesc off).reset

/-- The subsystem whose refused-write event a write at this offset raises (Table Scope-6). -/
def eventOwner (off : Nat) : Nat :=
  if off < 0x2_0000 then 0x0D
  else if off < 0x6_0000 then 0x03
  else if off < 0x7_0000 then 0x04
  else if off < 0x8_0000 then 0x07
  else if off < 0x9_0000 then 0x08
  else if off < 0xA_0000 then 0x09
  else if off < 0xB_0000 then 0x0A
  else if off < 0xC_0000 then 0x0B
  else if off < 0xD_0000 then 0x0C
  else if off < 0xF_0000 then 0x0E
  else if off < 0x10_0000 then 0x05
  else 0x08

/-- Some field of the value holds an undefined encoding (R8). -/
def badEnum (d : RegDesc) (v : Word) : Bool :=
  d.enums.any fun (lo, len, mn, mx) => decide (fld v lo len < mn) || decide (mx < fld v lo len)

end Sys2Proof.Machine
end

