-- ==== Sys2Proof/Machine/State.lean ====
section
/-! DEFINITION. The state of the block: everything the spec gives the VK3S1048, as plain data. The RW and RWL fields
of BAR0 registers stand in `State.regs` by their offset (R2, R16; their layout and reset values are
Machine/RegTable.lean); what RO, W1C and hidden state the chapters describe stands in the structures below, and a
register read computes its RO fields from them. A table `List (Nat × α)` is sparse: a key that is not listed holds
the table's default. Each field's comment gives: what | width | rule | reset. -/

namespace Sys2Proof.Machine

/-- A counter of Table Echo-7 with its sticky overflow mark (R689). -/
structure Ctr where
  n   : Nat := 0        -- the count | 48 or 31 bits | 17 R689 | 0 (the register tables)
  ovf : Bool := false   -- sticky: the count has saturated | 1 | 17 R689 | 0 (the register tables)
  deriving DecidableEq, Repr

/-- A raised event with the record fields of its table in order (R661, R664). -/
structure Event where
  code   : Nat
  fields : List Nat
  tbase  : Nat
  deriving DecidableEq, Repr

/-- An Echo record (R665, Table Echo-2). -/
structure Record where
  code       : Nat := 0
  fields     : List Nat := []
  fault      : Bool := false
  trigger    : Bool := false
  post       : Bool := false
  lostBefore : Bool := false
  continued  : Bool := false
  rep        : Nat := 0
  seq        : Nat := 0
  tfirst     : Nat := 0
  tlast      : Nat := 0
  deriving DecidableEq, Repr

/-- A leaf of the counter tree with its episode word (R690). -/
structure Leaf where
  count    : Ctr := {}
  lost     : Bool := false
  episodes : Nat := 0
  deriving DecidableEq, Repr

/-- A subsystem node or the root (R692, R693). -/
structure TreeNode where
  count   : Ctr := {}
  lost    : Bool := false
  invalid : Bool := false
  deriving DecidableEq, Repr

/-- A sector of the Echo region in use (R677 to R680). -/
structure Sector where
  erases  : Nat := 0
  retired : Bool := false
  deriving DecidableEq, Repr

/-- Where a flash commit stands (R682 to R685). -/
structure EchoCommit where
  pending    : Bool := false     -- a commit request waits | 1 | 17 R682 | 0
  repairOnly : Bool := false     -- every merged request was repair-only | 1 | 17 R682 | 0
  auto       : Bool := false     -- requested by AUTOCOMMIT | 1 | 17 R682 | 0
  writing    : Bool := false     -- ECH_CSTAT.STATE WRITING | 1 | 17 R684 | 0
  stopped    : Bool := false     -- ECH_CSTAT.STATE STOPPED | 1 | 17 R684 | 0
  sectors    : List Nat := []    -- sectors the commit being written uses | 12 each | 17 R685 | none
  carriesRing : Bool := false    -- the commit being written carries the ring | 1 | 17 R681 | 0
  carriesLog : Bool := false     -- the commit being written carries the log | 1 | 17 R681 | 0
  cols       : List Nat := []    -- retirements that the commit being written carries | 264 | 17 R687 | none
  softs      : List (Nat × Nat × Nat × Nat) := [] -- soft repairs that it carries | any | 17 R687 | none
  onlyRepair : Bool := false     -- the commit being written is repair-only | 1 | 17 R681 | 0
  rearmLater : Bool := false     -- a REARM waits for its end | 1 | 17 R670 | 0
  clearLater : Bool := false     -- a CLEARLOG waits for its end | 1 | 17 R672 | 0
  lastRes    : Nat := 0          -- ECH_CSTAT.LASTRES | 4 | 17 Table Echo-16 | 0
  done       : Nat := 0          -- ECH_CSTAT.DONE | 16 | 17 Table Echo-16 | 0
  deriving DecidableEq, Repr

/-- Echo (chapter 17). -/
structure Echo where
  raised     : List Event := []          -- events raised and not yet entered in the queue | any | 17 R661 | none
  queue      : List Event := []          -- the event queue | 64 events | 17 R662 | empty
  ring       : List (Nat × Record) := [] -- the pre-trigger ring by position | 4,096 records | 17 R667 | empty (R673)
  head       : Nat := 0                  -- ECH_RING.HEAD | 12 | 17 Table Echo-13 | 0x000
  wrapped    : Bool := false             -- ECH_RING.WRAPPED | 1 | 17 Table Echo-13 | 0
  ringState  : Nat := 0                  -- ECH_RING.STATE | 2 | 17 Table Echo-3 | 0b00 ARMED
  trigIdx    : Nat := 0                  -- ECH_RING.TRIGIDX | 12 | 17 Table Echo-13 | 0x000
  postLeft   : Nat := 0                  -- records still to write in POST | 12 | 17 R669 | 0
  last       : Option Nat := none        -- position of the ring's most recent record | 12 | 17 R666 | none
  log        : List Record := []         -- the first-fault log | 512 records | 17 R671 | empty (R673)
  logFull    : Bool := false             -- ECH_LOG.FULL | 1 | 17 R671 | 0
  dropped    : Nat := 0                  -- ECH_LOG.DROPPED | 16 | 17 R671 | 0x0000
  lost       : Ctr := {}                 -- ECH_LOST | 48 | 17 R662 | 0
  lostTick   : Nat := 0                  -- events lost in this tick | 16 | 17 R662, R771 | 0
  lostRing   : Bool := false             -- LOSTBEFORE pending for the ring | 1 | 17 R662 | 0
  lostLog    : Bool := false             -- LOSTBEFORE pending for the log | 1 | 17 R662 | 0
  seq        : Nat := 0                  -- number of the next event taken | 32 | 17 Table Echo-2 | 0
  leaves     : List (Nat × Leaf) := []   -- counter tree leaves by event code | 3,570 leaves | 17 R690 | 0 (R673)
  nodes      : List (Nat × TreeNode) := [] -- subsystem nodes 1 to 14, root 0 | 15 nodes | 17 R692 | 0 (R673)
  commit     : EchoCommit := {}          -- flash commit | see above | 17 R682 | idle
  hasRegion  : Bool := false             -- ECH_FSTAT.VALID | 1 | 17 R677 | 0
  regionB    : Bool := false             -- ECH_FSTAT.FLASH | 1 | 17 Table Echo-17 | 0
  sectors    : List Sector := []         -- the Echo region's sectors | 20 each | 17 R677 | none
  lastSector : Nat := 0                  -- last sector of the newest valid commit | 12 | 17 R685 | 0
  usedSectors : List Nat := []           -- sectors of the newest valid commit | 12 each | 17 R685 | none
  cseq       : Nat := 0                  -- ECH_CSEQ | 32 | 17 Table Echo-10 | 0
  exhausted  : Bool := false             -- 0x0E08 raised | 1 | 17 R685 | 0
  capture    : List (Nat × List Nat) := [] -- captured record bytes by requester | 64 bytes each | 17 R675 | none
  deriving DecidableEq, Repr

/-- An R4 capture or R5 staged half: requester, offset of the half it serves, value. -/
structure Half where
  who : Nat
  off : Nat
  val : Word
  deriving DecidableEq, Repr

/-- Reset domains and die-boundary fences (01_stack.md). -/
structure Resets where
  requested : BitVec 16 := 0     -- domains requested by LYS_RST, waiting for the tick | 16 mask | 16 R637 | 0
  inReset   : BitVec 16 := 0     -- domains in reset | 16 mask | 01 R36 | DESIGN CHOICE 0 (log 2)
  closedFor : List (Nat × Nat) := [] -- boundary, mask of domains that closed its fence | 4 x 16 | 01 R43 | none
  released  : BitVec 16 := 0     -- domains released and not yet reported ready | 16 mask | 01 R44 | 0
  deriving DecidableEq, Repr

/-- A response of the Grotto port (R261). -/
structure PortResp where
  stratum : Nat
  data    : BitVec 512
  poison  : BitVec 8
  deriving DecidableEq, Repr

/-- A read in flight on a column port, with its answer once the bank has performed it (R139, R264). -/
structure PortRead where
  stratum : Nat
  line    : Nat
  resp    : Option PortResp := none
  off     : Bool := false       -- the bank was OFF: its poison is counted under 0x0709 only (R276)
  deriving DecidableEq, Repr

/-- One resident stratum of a chamber (R46, R125, Table Strata-18). -/
structure Stratum where
  loaded    : Bool := false        -- CHM_STRATs.LOADED | 1 | 04 Table Strata-18 | 0
  quar      : Bool := false        -- CHM_STRATs.Q | 1 | 04 R183 | 0
  refilling : Bool := false        -- CHM_STRATs.REFILL | 1 | 04 Table Strata-18 | 0
  slot      : Nat := 0xFFF         -- CHM_STRATs.SLOT | 12 | 04 Table Strata-18 | 0xFFF
  words     : ImageWords := []     -- configuration words by cell | 2,048 x 80 | 02 R46, R49 | zeros (R81)
  ffs       : BitVec 2048 := 0     -- private flip-flops by cell | 2,048 | 02 R46 | 0 (R64)
  parked    : List PortResp := []  -- parked responses, issue order | 16 lines | 04 R140 | none (Table Strata-20)
  unchecked : Bool := false        -- golden record lost | 1 | 12 R488 | 0
  failMask  : List Nat := []       -- rows that failed their signature | 80 | 12 R496 | none
  wasActive : Bool := false        -- a row of the rewrite was written while active | 1 | 12 R501, Table Integrity-3 | 0
  liveLap   : Option Nat := none   -- resident lap of the last live rewrite | count | 12 R500 | none
  rewriting : Bool := false        -- a frame rewrite waits or runs | 1 | 12 R498 | 0
  needRefill : Bool := false       -- loaded at a repair hold, not refilled since | 1 | 04 R170 | 0
  deriving DecidableEq, Repr

/-- A chamber command accepted and not yet effective (R158). -/
structure ChmCmd where
  op      : Nat                    -- Table Strata-12
  stratum : Nat
  t       : Bool
  desc    : Option (Nat × Nat)     -- queue and number of the SWITCH descriptor that issued it (R339)
  wait    : Nat := 0               -- switch-clock edges still to come before its own (R158)
  deriving DecidableEq, Repr

/-- A chamber (chapter 04). -/
structure Chamber where
  released  : Bool := false              -- has left UNRELEASED | 1 | 11 R439 | 0 (Table Strata-8)
  sel       : Nat := 0                   -- CHM_STATUS.SEL | 2 | 04 Table Strata-8 | 0b00
  pend      : Option Nat := none         -- CHM_STATUS.PEND and PSTRAT | 3 | 04 R168 | 0
  hsrc      : Nat := 0                   -- CHM_STATUS.HSRC | 3 | 04 Table Strata-9 | 0b000
  reloc     : Bool := false              -- RELOCATING | 1 | 04 Table Strata-4 | 0
  strata    : List (Nat × Stratum) := [] -- the four strata | 4 | 04 R46 | see Stratum
  shared    : BitVec 2048 := 0           -- shared flip-flops by cell | 2,048 | 02 R46 | 0 (R64)
  swclkUse  : Nat := 0                   -- CHM_STATUS.SWCLK_USE | 5 | 04 Table Strata-8 | 0x00
  sched     : List (Nat × Word) := []    -- the schedule table | 64 x 32 | 04 Table Strata-16 | 0
  schedArmed : Bool := false             -- SCHED set, SSTART not yet current | 1 | 04 R150 | 0
  schedWait : Nat := 0                   -- switch-clock edges still to come before the one at which SSTART becomes current | 8 | 04 R150 | 0
  schedRun  : Bool := false              -- CHM_STATUS.SCHED_RUN | 1 | 04 Table Strata-8 | 0
  entry     : Nat := 0                   -- CHM_SSTAT.ENTRY | 6 | 04 Table Strata-17 | 0x00
  remain    : Nat := 0                   -- CHM_SSTAT.REMAIN | 22 | 04 Table Strata-17 | 0x00_0000
  nextEntry : Nat := 0                   -- NEXT of the current entry as it became current | 6 | 04 R154 | 0
  swcnt     : Ctr := {}                  -- CHM_SWCNT | 48 | 04 Table Strata-19 | 0
  lastsw    : Nat := 0                   -- CHM_LASTSW | 64 | 04 R179 | 0
  cmd       : Option ChmCmd := none      -- accepted command | 1 | 04 R158 | none
  fence     : BitVec 1024 := 0           -- fence register | 1,024 | 04 R175 | 0
  fenceBad  : Bool := false              -- fence register parity has failed | 1 | 04 R178 | 0
  portHold  : BitVec 512 := 0            -- last values of the border ports | 512 | 04 Table Strata-2 | 0 (R177)
  turn      : BitVec 8 := 0              -- pin slots in their turnaround cycle | 8 | 04 R148 | 0
  reads     : List PortRead := []        -- port reads in flight, issue order | 16 per stratum | 04 R142 | none
  selAtReset : Nat := 0                  -- stratum selected when the tier's reset began | 2 | 04 R171 | 0
  quarDue   : List (Nat × Nat) := []     -- strata to be quarantined at the next switch-clock edge, with the cause | 4 | 03 R98, 06 R236 | none
  holdDue   : Nat := 0                   -- source of a device hold that takes effect at the next switch-clock edge; 0 none | 3 | 04 R166, R167 | 0
  entering  : Nat := 0                   -- state code shown until R138's entry into RUN at the next switch-clock edge; 0 none | 3 | 04 R138 | 0
  loadedAt  : List Nat := []             -- strata loaded at entry into P4 or P5 | 4 | 16 R642 | none
  deriving DecidableEq, Repr

/-- Lockstep state of a column (Table Lockstep-5). -/
inductive LockState where
  | off | staged | comparing | diagnosing | degradedA | degradedB | silent
  deriving DecidableEq, Repr

/-- A logical column (chapters 03, 06). -/
structure Column where
  pcol     : Option Nat := none      -- CHM_PHYS.PCOL; none: its home column | 9 | 04 Table Strata-21 | n
  degraded : Bool := false           -- CHM_PHYS.DEGRADED | 1 | 04 Table Strata-21 | 0
  lock     : LockState := .off       -- lockstep state | 3 | 06 Table Lockstep-5 | OFF
  staged   : Option Bool := none     -- committed LOCKSTEP that waits for R247 | 1 | 06 R247 | none
  slice    : Nat := 0                -- switch-clock edges since comparing began | count | 06 R234 | 0
  diagStratum : Nat := 0             -- quarantined stratum under diagnosis | 2 | 06 R236 | 0
  keepers  : BitVec 4096 := 0        -- shaft levels held by the keepers, 16 per cluster | 4,096 | 03 R93 | 0 (R93: at fabric release)
  tripped  : BitVec 4096 := 0        -- contention detectors that hold both drivers off, 16 per cluster | 4,096 | 03 R97 | 0
  digests  : List (Word × Word) := [] -- digests captured at the last switch-clock edges and not yet compared, oldest first | 2 x 64 | 06 R233 | none
  reactAt  : Nat := 0                -- CHM_SAFE.REACT as it stood at the detection | 2 | 06 R246 | 0
  pclkUse  : Nat := 0                -- port clock in use | 5 | 07 R266 | 0
  detPaired : Bool := false          -- the device was LEAD or SHADOW at the detection | 1 | 06 R237 | 0
  resumeState : LockState := .off    -- degraded state that a continuation under way leads to | 3 | 06 R240 | OFF
  shadows  : List (Nat × BitVec 2048) := [] -- relocation shadows in use, by 4 tier + stratum | 8 x 2,048 | 05 R217 | none
  stateLost : Bool := false          -- the spill of step 2 could not run | 1 | 03 R119 | 0
  fromHome : Bool := false           -- a relocation that takes the column off its home column has not released it yet | 1 | 03 R117 | 0
  relocStep : Nat := 0               -- step of Table Routing-4 that uses the refill streams: 2, 4 or 5; 6 when they have ended; 0 none | 3 | 03 Table Routing-4, 05 R199 | 0
  landed   : List Nat := []          -- strata refilled into the spare column, as 4 tier + stratum | 8 | 03 R120, Table Routing-4 | none
  contStep : Nat := 0                -- step of Table Lockstep-4 under way, 4 when the completion is due; 0 none | 3 | 06 R241 | 0
  deriving DecidableEq, Repr

/-- Repair books of one group of bonds or vias (R110). -/
structure BondGroup where
  failed   : Nat := 0                -- failed signal members | 7 | 03 R110 | 0 (fuses, R25)
  failedSpares : Nat := 0            -- failed spares | 3 | 03 R110 | 0
  members  : List Nat := []          -- failed members and spares, rising | 68 | 03 R106, R104 | none (fuses, R25)
  shift    : List Nat := []          -- failed members that the shift setting in effect steps over, rising | 68 | 01 R24 | none (fuses, R25)
  errs     : List (Nat × Nat) := []  -- errors of this tick by member | 68 counts | 03 R106 | none
  pending  : Bool := false           -- a shift waits for its idle window | 1 | 03 R107 | 0
  sweeping : Bool := false           -- a bond sweep runs | 1 | 03 R103 | 0
  lost     : Bool := false           -- 0x0208 raised, or transfers over it stopped (R109) | 1 | 03 R101 | 0
  deriving DecidableEq, Repr

/-- A switch group (R181). -/
structure SwGroup where
  fire    : Option (Nat × Option (Nat × Nat)) := none -- accepted fire: OP and the descriptor that issued it | 2 | 04 R162 | none
  fireWait : Nat := 0                -- group-clock edges still to come before the accepted fire's own | 8 | 04 R162 | 0
  trig    : Bool := false            -- the next group-clock edge is the second after TCHM's trigger fired | 1 | 04 R163 | 0
  trigNew : Bool := false            -- TCHM's trigger fired at the last group-clock edge | 1 | 04 R163 | 0
  lastop  : Nat := 0                 -- FAB_GRPg_STAT.LASTOP | 2 | 04 Table Strata-27 | 0b00
  skipped : Nat := 0                 -- FAB_GRPg_STAT.SKIPPED | 10 | 04 Table Strata-27 | 0x000
  deriving DecidableEq, Repr

/-- The fabric: chambers, columns, groups, bonds, global clocks' phases. -/
structure Fabric where
  released : Bool := false                     -- FAB_STATUS.RELEASED | 1 | 04 Table Strata-23 | 0
  leaving  : List Nat := []                    -- chambers that have not left UNRELEASED since the release instant | 512 | 11 R439 | none
  chambers : List (Nat × Chamber) := []        -- the 512 chambers | 512 | 04 R125 | see Chamber
  columns  : List (Nat × Column) := []         -- the 256 logical columns | 256 | 04 R125 | see Column
  retired  : List Nat := []                    -- physical columns retired | 264 | 03 R114 | none
  spares   : List Nat := []                    -- spare columns mapped | 8 | 03 R122 | none
  stranded : List Nat := []                    -- retired columns whose logical column stays, for want of a spare | 264 | 03 R121 | none
  bonds    : List (Nat × BondGroup) := []      -- repair books by 1024 (265 layer + column) + group; layers: 0 shafts, 1 to 3 pillars of that boundary, 4 service bonds; column 264: the central field | 108,000 groups | 03 R110 | free
  groups   : List (Nat × SwGroup) := []        -- the 16 switch groups | 16 | 04 R181 | see SwGroup
  phase    : List (Nat × Nat) := []            -- MODEL: VCO periods since edge 0 of the present group of 8, per global clock | 11 | 16 R633, R636 | DESIGN CHOICE 0 (log 3)
  unrecorded : List Nat := []                  -- retirements not yet recorded in flash | 264 | 17 R682 | none
  early    : List (Nat × Nat) := []            -- MODEL: edges of a global clock that a command has brought ahead of the clock | any | 04 R134 | DESIGN CHOICE 0 (log 3)
  deriving DecidableEq, Repr

/-- A library slot with its shadow and golden record (chapters 05, 12). -/
structure Slot where
  st      : Nat := 0               -- LIB_SINFO0.STATE | 3 | 05 Table Library-1 | 0b000 EMPTY (R185)
  sumpcnt : Nat := 0               -- LIB_SINFO0.SUMPCNT | 2 | 05 R192 | 0b00
  rel     : Bool := false          -- LIB_SINFO0.REL | 1 | 05 R188 | 0
  lsi     : Bool := false          -- LIB_SINFO0.LSI | 1 | 05 R188 | 0
  home    : Nat := 0               -- LIB_SINFO0.HOME | 9 | 05 R188 | 0x000
  pers    : Nat := 0               -- LIB_SINFO0.PERS | 16 | 05 R188 | 0x0000
  image   : ImageWords := []       -- the image's words by cell | 20 KiB | 05 R184 | zeros (R185)
  shadow  : BitVec 2048 := 0       -- state shadow | 256 bytes | 05 R185 | zeros
  shv     : Bool := false          -- LIB_SINFO1.SHV | 1 | 05 R211 | 0 (R185)
  owner   : Nat := 0               -- shadow owner: 4 chamber + stratum | 11 | 05 R211 | 0
  golden  : List Word := []        -- row signatures of rows 0 to 79 | 80 x 32 | 12 R485 | none
  imgSig  : Word := 0              -- image signature | 32 | 12 R485 | 0
  lost    : Bool := false          -- golden record lost | 1 | 12 R488 | 0
  goldBad : Bool := false          -- a word of the golden record has a double-bit error that no use has met yet | 1 | 12 R488 | 0
  loadBy  : Option (Nat × Nat) := none -- queue and descriptor number of the load that writes or made it READY | 24 | 08 R338, 11 R479 | none
  deriving DecidableEq, Repr

/-- A request of the refill engine (05, Tables Library-2 and -3). -/
structure LibReq where
  op      : Nat                     -- Table Library-2
  chamber : Nat
  stratum : Nat
  slot    : Nat
  spillFirst : Bool := false
  restore : Bool := false
  force   : Bool := false
  notify  : Bool := false
  tag     : Nat := 0                -- of a request that the device or the loader places itself: 0 (log 110)
  cls     : Nat                     -- Table Library-3
  desc    : Option (Nat × Nat) := none   -- queue and number of the descriptor that placed it (R338)
  rows    : List Nat := []               -- rows of a frame rewrite (R498)
  kind    : Nat := 0                     -- 0 an ordinary request, 1 of a relocation (R200), 2 of a degraded continuation (R241)
  targets : List Nat := []               -- chambers it acts on, fixed when it starts (R251)
  was     : List (Nat × Bool × Nat) := [] -- LOADED and SLOT of each target as a refill found them (R207)
  deriving DecidableEq, Repr

/-- Library and refill engine (chapter 05). -/
structure Lib where
  slots   : List (Nat × Slot) := []    -- the 3,072 slots | 3,072 | 05 R184 | see Slot
  fifo    : List LibReq := []          -- host request FIFO | 256 entries | 05 R196 | empty (Table Library-10)
  loader  : List LibReq := []          -- loader-class requests waiting | any | 05 Table Library-3 | none
  device  : List LibReq := []          -- device-class requests waiting | any | 05 Table Library-3 | none
  streams : List (Nat × Option LibReq) := [] -- the request each stream carries | 16 | 05 R201 | free
  rowAt   : List (Nat × Nat) := []     -- LIB_STRMk.ROW | 7 each | 05 Table Library-17 | 0x00
  devhold : Bool := false              -- LIB_RQ_STAT.DEVHOLD | 1 | 05 R199 | 0
  done    : Ctr := {}                  -- LIB_DONE | 48 | 05 R209 | 0
  deriving DecidableEq, Repr

/-- Signature checker (chapter 12). -/
structure Integ where
  running  : Bool := false    -- the lanes run | 1 | 12 R494 | 0 (before fabric release)
  resPos   : Nat := 0         -- resident lane: 320 chamber + 80 stratum + row | 18 | 12 R491 | 0
  libPos   : Nat := 0         -- library lane: 80 slot + row | 18 | 12 R492 | 0
  dropStratum : Bool := false -- the lane drops the rest of this stratum | 1 | 12 Table Integrity-3 | 0
  slotFail : List Nat := []   -- failed rows of the slot being read | 80 | 12 R503 | none
  laps     : Nat := 0         -- resident laps completed | count | 12 R500 | 0
  resLap   : Nat := 0         -- last resident lap in us | 32 | 16 Table Lysata-11 | 0
  libLap   : Nat := 0         -- last library lap in us | 32 | 16 Table Lysata-11 | 0
  overrun  : Bool := false    -- 0x0607 raised in this lap | 1 | 12 R493 | 0
  interrupts : Nat := 0       -- interruptions of this lap | 16 | 12 R493 | 0
  count602 : Nat := 0         -- 0x0602 count | 32 | 16 Table Lysata-11 | 0
  count605 : Nat := 0         -- 0x0605 count | 32 | 16 Table Lysata-11 | 0
  deriving DecidableEq, Repr

/-- A queued access of a bank (R265): from the port of `chamber` (stratum `stratum`). -/
structure BankAcc where
  chamber : Nat
  stratum : Nat
  op      : Nat                 -- Table Grotto-3
  line    : Nat                 -- offset bits 26:6
  be      : BitVec 64
  data    : BitVec 512
  poison  : BitVec 8
  mesh    : Bool                -- it came over the mesh (R270)
  gone    : Bool := false       -- its tier has been reset: the response is discarded (R40)
  deriving DecidableEq, Repr

/-- A rewrite that waits for an idle bank cycle (R275). -/
structure Rewrite where
  word   : Nat                  -- word address, offset bits 26:3
  data   : BitVec 64            -- the data that the read gave
  poison : Bool
  deriving DecidableEq, Repr

/-- A bank of Grotto with its scrubber and repair log (chapter 07). -/
structure Bank where
  state   : Nat := 0                  -- GRT_GSTATn.STATE | 2 | 07 Table Grotto-8 | 0b00 AWAKE
  queue   : List BankAcc := []        -- queued accesses | 4 | 07 R265 | empty
  lastMesh : Bool := false            -- the mesh was served last | 1 | 07 R270 | 0
  rewrites : List Rewrite := []       -- corrected and poisoned rewrites waiting | any | 07 R275 | none
  goingOff : Bool := false            -- waits to go OFF | 1 | 07 R298 | 0
  scrubLine : Nat := 0                -- next line of the scrubber | 10 | 07 R284 | 0 (R288)
  slotOpen : Bool := false            -- a scrub slot is open and not yet read | 1 | 07 R284 | 0
  slots   : Nat := 0                  -- scrub slots opened in this lap | count | 07 R286 | 0
  lapRead : Bool := false             -- line 1,023 has been read, the lap ends with its 1,024th slot interval | 1 | 07 R286 | 0
  lap     : Nat := 0                  -- time of this lap in us | 22 | 07 R286 | 0
  lastLap : Nat := 0                  -- longest bank lap completed in this device lap in us | 22 | 07 R286 | 0
  lapped  : Bool := false             -- has completed a lap in this device lap | 1 | 07 R286 | 0
  starved : Bool := false             -- 0x0705 raised in this lap | 1 | 07 R287 | 0
  log     : List (Nat × Nat) := []    -- 256 sub-array + bit-line column and its corrected errors | 4 entries | 07 R291 | none
  repairs : List (Nat × Nat × Nat) := [] -- sub-array, bit-line column, redundant column in use | 40 | 07 R292 | none
  noRepair : List Nat := []           -- columns for which 0x0708 was raised | any | 07 R293 | none
  toRewrite : List Nat := []          -- lines not yet rewritten after soft repairs | 128 each | 07 R292 | none
  deriving DecidableEq, Repr

/-- A host BAR2 access that waits for a Grotto tag (R392). -/
structure BarAcc where
  read : Bool
  off  : Nat
  len  : Nat                    -- bytes that a read asks for
  be   : List Bool := []        -- byte enables of a write
  data : List Byte := []
  bad  : List Nat               -- words whose address check fails (Table Grotto-5)
  deriving DecidableEq, Repr

/-- Grotto (chapter 07). -/
structure Grotto where
  mem      : List Host.Cell := []        -- data bytes by offset | 128 MiB | 07 R257 | 0 (R281)
  poison   : List Nat := []              -- word addresses whose stored POISON is 1, rising | 1 per word | 07 R259 | none (R280)
  errs     : List (Nat × BitVec 80) := [] -- wrong stored bits by word address | 80 per word | 07 R274 | none
  banks    : List (Nat × Bank) := []     -- the 2,048 banks | 2,048 | 07 R257 | see Bank
  fillDone : Bool := false               -- GRT_STATUS.FILLDONE | 1 | 07 R280 | 0
  filling  : Bool := false               -- a fill under R280 or R282 runs | 1 | 07 R282 | 0
  starved  : Bool := false               -- GRT_STATUS.STARVED | 1 | 07 R287 | 0
  starvAt  : Nat := 0                    -- STARVGRP and STARVBANK as 8 group + bank | 11 | 07 Table Grotto-11 | 0x00
  lapLast  : Nat := 0                    -- GRT_LAP.LAST | 22 | 07 R286 | 0x00_0000
  lapSlow  : Nat := 0                    -- GRT_LAP.SLOWGRP | 8 | 07 R286 | 0x00
  ce       : Ctr := {}                   -- GRT_CE | 48 | 07 Table Grotto-19 | 0
  de       : Ctr := {}                   -- GRT_DE | 48 | 07 Table Grotto-19 | 0
  ue       : Ctr := {}                   -- GRT_UE | 48 | 07 Table Grotto-19 | 0
  fuseUsed : List (Nat × Nat) := []      -- redundant columns the repair fuses use, by 20 bank + sub-array | 2 each | 07 R295 | from fuses; DESIGN CHOICE none (log 4)
  poisonTick : List (Nat × Nat) := []    -- poisoned words delivered in the tick by receiver | 16 each | 07 R276 | none
  offTick  : List (Nat × Nat) := []      -- accesses to OFF banks in the tick by bank | 16 each | 07 R298 | none
  barWait : List BarAcc := []            -- host BAR2 accesses that wait for a tag, oldest first | - | 09 R392 | none
  repairsSet : Bool := false             -- the recorded soft repairs have been applied since power-on | 1 | 07 R294 | 0
  unrecorded : List (Nat × Nat × Nat × Nat) := [] -- soft repairs not yet recorded | any | 17 R682 | none
  deriving DecidableEq, Repr

/-- A remote request of a descriptor that has no tag yet (R393, R575). -/
structure RemReq where
  write  : Bool
  line   : Nat          -- Grotto line, offset bits 26:6
  be     : BitVec 64
  data   : BitVec 512
  poison : BitVec 8
  deriving DecidableEq, Repr

/-- A fetched descriptor in the on-chip context (R327). -/
structure Desc where
  raw     : BitVec 256
  id      : Nat                          -- the device's own number of the descriptor in its queue
  started : Bool := false
  ended   : Option (Nat × Nat) := none   -- STATUS and RESULT once it has ended
  off     : Nat := 0                     -- restart offset O (R379)
  poison  : Option Nat := none           -- offset of the first poisoned word delivered (R348)
  faulted : Bool := false                -- FAULTED (R345)
  stopped : Bool := false                -- stopped at O by a fault (R376)
  buf     : List (Byte × Bool) := []     -- bytes taken and not yet delivered, from O on, with poison (R337, R381)
  bufEnd  : Nat := 0                     -- 0 more may come, 1 LAST seen, 2 a beat failed PAR, 3 surplus discarded
  remq    : List RemReq := []            -- remote requests not yet issued
  asked   : Bool := false                -- the remote reads have been asked for
  parts   : List (Nat × BitVec 512 × BitVec 8) := [] -- remote lines that have arrived
  arrival : Nat := 0                     -- TBASE of its arrival (R347)
  readTo  : Nat := 0                     -- bytes of the host source that reads have been issued for (R310, R312)
  reads   : List (Nat × Nat) := []       -- data reads in flight, each with its tag: first byte and length (R312)
  sentTo  : Nat := 0                     -- bytes of the host source that have arrived; at a lead, that it has stamped (R321)
  hbuf    : List Byte := []              -- bytes of the host source taken and not yet used (R321)
  wantGrt : Bool := false                -- its next side-port request waits for a tag (R392, R395)
  wantTag : Bool := false                -- its next host read waits for a tag (R312, R395)
  lens    : List Nat := []               -- bytes of each beat taken that are not yet written, oldest first (R381)
  bad     : List Nat := []               -- Grotto words whose check fails for its transfer, as its commands have brought them (R274)
  yielded : Bool := false                -- it has data ready to move and has moved its 4 KiB (R344)
  deriving DecidableEq, Repr

/-- A faulting access that parks a queue (R376). -/
structure Park where
  access : Nat                           -- access class (Table Translation-4)
  cid    : Nat                           -- number of the faulting descriptor
  deriving DecidableEq, Repr

/-- Set-up that a queue took at its last enable (R355). -/
structure QueueSetup where
  sqb : BitVec 64 := 0
  cqb : BitVec 64 := 0
  dba : BitVec 64 := 0
  sha : BitVec 64 := 0
  bind : Word := 0
  prot : Word := 0
  ep  : Word := 0
  deriving DecidableEq, Repr

/-- A queue (chapter 08). -/
structure Queue where
  enabled  : Bool := false        -- not DISABLED | 1 | 08 Table Queues-10 | 0
  draining : Bool := false        -- EN written 0 | 1 | 08 R352 | 0
  error    : Bool := false        -- ERROR holds | 1 | 08 R319, R328 | 0
  detached : Bool := false        -- DETACHED holds | 1 | 08 R350 | 0
  park     : Option Park := none  -- FAULT_PARKED holds | 1 | 09 R376 | none
  ownerPark : Bool := false       -- OWNER_PARKED holds | 1 | 08 R350 | 0
  ownerSeen : Bool := false       -- the owner has been present since enable | 1 | 08 R350 | 0
  cfgerr   : Nat := 0             -- QUE_STAT.CFGERR | 5 | 08 Table Queues-11 | 0x00
  rseen    : Bool := false        -- QUE_STAT.RSEEN | 1 | 08 R318 | 0
  rseenSet : Bool := false        -- RSEEN taken from the first doorbell read since enable | 1 | 08 R354 | 0
  sqCi     : Nat := 0             -- SQ_CI and SQ_CW as a position modulo 2N | 17 | 08 Table Queues-14 | 0
  cqPi     : Nat := 0             -- CQ_PI and CQ_PW as a position modulo 2N | 17 | 08 Table Queues-22 | 0
  sqPi     : Nat := 0             -- last SQ_PI read, position | 17 | 08 R327 | 0
  cqCi     : Nat := 0             -- last CQ_CI read, position | 17 | 08 R330 | 0
  seq      : Nat := 0             -- SEQ of the next completion | 16 | 08 Table Queues-9A | 0
  dbSt     : Nat := 0             -- doorbell read: 0 none, 1 waits for a translation or a tag, 2 in flight | 2 | 08 R323 | 0
  dbAgain  : Bool := false        -- one further doorbell read is due | 1 | 08 R323 | 0
  dbTag    : Bool := false        -- its doorbell read waits for a tag | 1 | 08 R312, 09 R395 | 0
  fetchTag : Bool := false        -- its fetch waits for a tag | 1 | 08 R312, 09 R395 | 0
  fetching : Nat := 0             -- descriptors of the fetch in flight | 6 | 08 R327 | 0
  transit  : Nat := 0             -- fetched descriptors that wait for their stamped delivery | 6 | 08 R321, R330 | 0
  nextId   : Nat := 0             -- the device's number of the next descriptor | count | 08 R327 | 0
  context  : List Desc := []      -- fetched descriptors without completion, ring order | 32 | 08 R327 | none
  setup    : QueueSetup := {}     -- set-up in effect | see above | 08 R355 | 0
  done     : Ctr := {}            -- QUE_DONE | 48 | 08 Table Queues-23 | 0
  bytes    : Ctr := {}            -- QUE_BYTES | 48 | 08 Table Queues-23 | 0
  late     : Ctr := {}            -- QUE_LATE | 48 | 08 R347 | 0
  lasterr  : Word := 0            -- QUE_LASTERR | 32 | 08 Table Queues-24 | 0
  irqCount : Nat := 0             -- completions with FLAGS.IRQ since the last message | 8 | 08 R351 | 0
  flushed  : Nat := 0             -- descriptors ended FLUSHED in this draining | 6 | 08 R353 | 0
  retries  : List Nat := []       -- access classes of ring writes to retry: 4 completion, 5 shadow | 2 | 09 R388 | none
  retryTold : Bool := false       -- 0x0906 raised in this tick | 1 | 09 R388 | 0
  refTick  : Nat := 0             -- descriptors refused in this tick (0x0803) | 16 | 08 R333 | 0
  refFirst : Nat := 0             -- first of them: 65,536 status + CID | 24 | 08 R333 | 0
  lateTick : Nat := 0             -- late completions in this tick (0x0806) | 16 | 08 R347 | 0
  rightTick : Nat := 0            -- rights refusals in this tick (0x0A04) | 16 | 10 R409 | 0
  rightFirst : Nat := 0           -- first of them: 16 CID + missing mask | 20 | 10 R409 | 0
  poisonTold : Bool := false      -- 0x0808 raised in this tick | 1 | 08 R348 | 0
  deriving DecidableEq, Repr

/-- What an enable or a HOST reset leaves of a queue's own books: the counts of the tick that its end reports (R771), and the
numbers of descriptors, so that a late answer finds none of a later enable. -/
def Queue.kept (x : Queue) : Queue :=
  { nextId := x.nextId, retryTold := x.retryTold, refTick := x.refTick, refFirst := x.refFirst, lateTick := x.lateTick,
    rightTick := x.rightTick, rightFirst := x.rightFirst, poisonTold := x.poisonTold }

/-- A translation held in the TLB (R365). `size` is 12, 21 or 30. -/
structure TlbEntry where
  asid : Nat
  size : Nat
  vpn  : Nat
  ppn  : Nat
  r    : Bool
  w    : Bool
  bad  : Bool := false    -- its parity has failed and no access has met it yet (R366)
  deriving DecidableEq, Repr

/-- A walk in progress for one 4 KiB page of an address space, and the access that waits for it (R368). -/
structure Walk where
  asid   : Nat
  vpn    : Nat
  queue  : Nat
  access : Nat            -- Table Translation-4
  cid    : Nat
  va     : Nat
  deriving DecidableEq, Repr

/-- A fault record that waits or is written (Table Translation-5). -/
structure FaultRec where
  queue   : Nat
  kind    : Nat
  access  : Nat
  enc     : Bool
  more    : Bool
  ended   : Bool
  cid     : Nat
  level   : Nat
  asid    : Nat
  va      : Nat
  restart : Nat
  tbase   : Nat
  deriving DecidableEq, Repr

/-- An invalidation of the FIFO (R371). -/
structure Inval where
  scope  : Nat            -- Table Translation-2
  asid   : Nat
  va     : Nat
  npages : Nat
  deriving DecidableEq, Repr

/-- A read of host memory in flight: of data (kind 0, with the descriptor's number and the first byte), a doorbell record
(1), descriptors (2) or the debug port (5). -/
structure HostRead where
  queue : Nat
  kind  : Nat
  id    : Nat
  pos   : Nat
  deriving DecidableEq, Repr

/-- A write that the shadow holds as a commit record, or that waits at the lead for its acknowledgement (R613). -/
structure CommitRec where
  kind  : Nat           -- 1 completion, 2 consumer shadow, 3 fault record; at a lead also 4: the message of vector `addr` that follows them (R351)
  queue : Nat
  addr  : Nat
  bytes : List Byte
  deriving DecidableEq, Repr

/-- Translation unit and tag pool (chapter 09). -/
structure Xlt where
  tlb      : List TlbEntry := []   -- translations, most recently used first | 8,192 | 09 R365 | empty
  walks    : List Walk := []       -- accesses that wait for walks | any | 09 R368 | none
  walking  : List (Nat × Nat) := [] -- walks in progress: address space and virtual page | 16 | 09 R368 | none
  filling  : List (Nat × Nat) := [] -- pages whose TLB fill a lead has stamped and that is not yet delivered | 16 | 15 Table Twin-5 | none
  orphans  : List (HostRead × Nat × Nat × Nat) := [] -- reads in flight that no descriptor waits for any more, each with its tag: CID, virtual address, length | 768 | 09 R378, R394 | none
  inv      : List Inval := []      -- invalidation FIFO, the running one first | 16 | 09 R371 | empty (Table Translation-14)
  later    : List Walk := []       -- accesses that met a fault while a record of their queue waited | 768 | 09 R386 | none
  invReads : List HostRead := []   -- reads in flight when the running invalidation began, under its translations | 768 | 09 R373 | none
  invWrites : List CommitRec := [] -- writes held for the shadow's acknowledgement when the running invalidation began, under its translations | any | 09 R373 | none
  parking  : List Nat := []        -- queues of a lead whose fault waits for its stamped delivery | 256 | 09 Table Translation-6 | none
  fcTag    : Bool := false         -- the reread of the consumer record waits for a tag | 1 | 09 R385, R395 | 0
  invDone  : Nat := 0              -- XLT_INV_STAT.DONE | 16 | 09 R373 | 0x0000
  frPi     : Nat := 0              -- FR_PI and FR_PW as a position modulo 2N | 17 | 09 Table Translation-11 | 0
  fseq     : Nat := 0              -- FSEQ of the next record | 32 | 09 Table Translation-5 | 0
  frCi     : Nat := 0              -- held copy of the consumer record, position | 17 | 09 R385 | 0
  frErr    : Bool := false         -- a ring write or consumer read ended in an error | 1 | 09 R386 | 0
  waiting  : List FaultRec := []   -- fault records waiting, order of faults | 256 | 09 R386 | none
  miss     : Ctr := {}             -- XLT_MISS | 48 | 09 Table Translation-18 | 0
  faults   : Ctr := {}             -- XLT_FAULT | 48 | 09 Table Translation-18 | 0
  tlbpe    : Ctr := {}             -- XLT_TLBPE | 31 | 09 R366 | 0
  peTick   : Nat := 0              -- TLB parity failures in this tick (0x090A) | 16 | 09 R366 | 0
  deriving DecidableEq, Repr

/-- A key table entry (R399). -/
structure KeyEntry where
  st     : Nat := 0            -- CRY_KEYk.STATE | 2 | 10 Table Crypto-1 | 0b00 EMPTY
  kcv    : Nat := 0            -- CRY_KEYk.KCV | 16 | 10 R405 | 0x0000
  rights : BitVec 4 := 0       -- CRY_KEYk.RIGHTS | 4 | 10 Table Crypto-3 | from provisioning (R403)
  key    : List Byte := []     -- unwrapped key data, not readable | 64 bytes | 10 R400 | none
  dbl    : Bool := false       -- a word of the entry has a double-bit error that no use has met yet | 1 | 10 R404 | 0
  rightsBad : Bool := false    -- the parity of its rights has failed | 1 | 10 Table Crypto-6 | 0
  deriving DecidableEq, Repr

/-- A bundle direction's encryption session (R421). -/
structure Session where
  enabled : Bool := false      -- TXEN or RXEN in effect since the direction came up | 1 | 10 R420 | 0
  index   : Nat := 0           -- key index in effect | 6 | 10 R420 | 0
  running : Bool := false      -- CRY_LINKb_STAT.TXSESS or RXSESS | 1 | 10 Table Crypto-13 | 0
  counter : Nat := 0           -- record counter | 64 | 10 R421 | 0
  fails   : Nat := 0           -- consecutive tag failures of one record | 2 | 10 R424 | 0
  key     : List Byte := []    -- session key, not readable | 32 bytes | 10 R421 | none
  own     : Option (BitVec 128) := none -- own nonce sent for the session to start | 128 | 10 R421 | none
  peer    : Option (BitVec 128) := none -- partner's nonce taken for the session to start | 128 | 10 R421 | none
  heard   : Option (BitVec 128) := none -- the last nonce taken: a copy that link retry brings again is no new one | 128 | 10 R421 | none
  deriving DecidableEq, Repr

/-- Crypto engine (chapter 10). -/
structure Cry where
  keys      : List (Nat × KeyEntry) := []  -- the key table | 64 entries | 10 R399 | see KeyEntry
  loaded    : Bool := false                -- CRY_STATUS.LOADED | 1 | 10 Table Crypto-8 | 0
  record    : List (List Byte) := []       -- verified key provisioning record kept in AON | 64 x 80 bytes | 11 R437 | none
  rightsSet : Bool := false                -- rights taken from the record since power-on | 1 | 10 R408 | 0
  sessions  : List (Nat × Session) := []   -- sessions by 2 bundle + (0 transmit, 1 receive) | 16 | 10 R420 | see Session
  started   : List (Nat × Nat) := []       -- CRY_LINKb_STAT.SESSIONS | 16 each | 10 Table Crypto-13 | 0x0000
  authf     : Ctr := {}                    -- CRY_AUTHF | 48 | 10 Table Crypto-10 | 0
  xtsBp     : Bool := false                -- CRY_STATUS.XTSBP | 1 | 10 Table Crypto-8 | 0
  gcmBp     : Bool := false                -- CRY_STATUS.GCMBP | 1 | 10 Table Crypto-8 | 0
  xtsBad    : Bool := false                -- the two cores differ on the next block of the XTS path | 1 | 10 R430 | 0
  gcmBad    : Bool := false                -- the two cores differ on the next block of the GCM path | 1 | 10 R430 | 0
  heldTick  : List (Nat × Nat) := []       -- bytes held back in this tick by path | 48 each | 10 R429 | none
  dbgTick   : List (Nat × Nat) := []       -- debug accesses refused in this tick by target | 16 each | 10 R418, R419 | none
  deriving DecidableEq, Repr

/-- A member of the running set (R457, R458). -/
structure Member where
  kind    : Nat
  imageid : Nat
  version : Nat
  svn     : Nat
  keyslot : Nat
  flashB  : Bool
  deriving DecidableEq, Repr

/-- Loader (chapter 11). -/
structure Cfg where
  stage    : Nat := 1             -- CFG_STATUS.STAGE | 4 | 11 Table Loading-14 | 0x1
  mode     : BitVec 3 := 0        -- sampled MODE2:0 | 3 | 11 R433 | strap; DESIGN CHOICE STANDALONE (log 5)
  listen   : Bool := false        -- sampled LISTEN | 1 | 11 R433 | strap; DESIGN CHOICE 0 (log 5)
  pull     : BitVec 16 := 0       -- sampled PULL0 to PULL15 | 16 | 19 R740 | strap; DESIGN CHOICE 0 (log 5)
  psrc     : Nat := 0             -- CFG_STATUS.PSRC | 2 | 11 Table Loading-14 | 0b00
  fallback : Bool := false        -- CFG_STATUS.FALLBACK | 1 | 11 R463 | 0
  override : Bool := false        -- CFG_STATUS.OVERRIDE | 1 | 11 R464 | 0
  done     : Bool := false        -- CFG_STATUS.DONE | 1 | 11 Table Loading-14 | 0
  drivesDone : Bool := true       -- the device drives CFG_DONE low | 1 | 11 R472 | 1 (from AON release)
  donewait : Nat := 0             -- DONEWAIT of the running personality | 16 | 11 Table Loading-5 | 0
  doneTold : Bool := false        -- 0x0507 raised for DONEWAIT = 0 | 1 | 11 R474 | 0
  excl     : List (Nat × Nat × Nat × Bool) := [] -- containers excluded since power-on (kind, id, version, flash B) | 8 | 11 R465 | none (EXCL 0x0)
  running  : List Member := []    -- the running set | 3 | 11 R462 | none (CFG_SEL 0)
  lastrej  : Word := 0            -- CFG_LASTREJ | 32 | 11 Table Loading-18 | 0
  svn      : Nat := 0             -- rollback fuses blown | 8 | 11 R455 | from fuses; R483's part with none blown
  programmed : BitVec 4 := 1      -- CFG_KEYSLOT.PROGRAMMED | 4 | 11 R483 | from fuses; R483's part with slot 0
  revoked  : BitVec 4 := 0        -- CFG_KEYSLOT.REVOKED | 4 | 11 R483 | from fuses; R483's part
  uid      : BitVec 64 := 0       -- GVL_NET_UID | 64 | 14 R586 | from fuses; DESIGN CHOICE 0 (log 4)
  debugLock : Bool := false       -- PIN_STATUS.DBGLOCK | 1 | 19 Table Pins-15 | from fuses; 0 when not blown
  trel     : Nat := 0             -- CFG_TREL | 32 | 11 Table Loading-23 | 0x0000_0000
  flashA   : Option Flash := none -- flash A as the device found it | - | 11 R440 | none
  flashB   : Option Flash := none -- flash B as the device found it | - | 11 R440 | none
  flashOps : Nat := 0             -- flash accesses in progress | count | 16 Table Lysata-6 | 0
  perst    : Bool := false        -- the fundamental reset is deasserted | 1 | 11 R437 | DESIGN CHOICE 0 (log 5)
  hostUp   : Bool := false        -- HOST released | 1 | 11 R437 | 0
  keyLoad  : Bool := false        -- a key table load runs | 1 | 10 R400 | 0
  railsLate : List Nat := []      -- core rails not yet in their steady range | 7 | 20 R759 | none
  heard    : List (Nat × List Byte) := [] -- bytes a listener or worker has captured, with flash address | any | 11 R468, R469 | none
  idleTold : Bool := false        -- 0x0508 raised for the present wait | 1 | 11 R471 | 0
  goodVpp  : Bool := true         -- VPP_FUSE in its operating range | 1 | 11 R457 | DESIGN CHOICE 1 (log 6)
  picked   : List (Bool × FlashEntry) := [] -- the selected members with their flash (B: true): firmware, personality, keys | 3 | 11 R462 | none
  starts   : List (Nat × Nat) := []  -- start stratum by chamber | 512 x 2 | 11 R448 | 0
  flashClk : List (Nat × Nat) := []  -- read clock of flash A (0) and B (1) in MHz, once initialised and in 8D-8D-8D mode | 8 each | 11 R441 | 0 (not initialised)
  fuses    : Fuses := {}          -- what the fuses hold, as last sensed or blown | - | 20 R761, 11 R483 | from fuses; DESIGN CHOICE none blown (log 4)
  weak     : Nat := 0             -- fuses that read blown at the normal margin and not at the tightened one | count | 20 R761 | from fuses; DESIGN CHOICE 0 (log 4)
  bcast    : Option (Nat × Nat) := none -- broadcast load under way: first slot, bytes taken | - | 14 R585, 05 R186 | none
  deriving DecidableEq, Repr

/-- One receive lane (chapter 13). -/
structure Lane where
  taps    : BitVec 30 := 0x20000000#30 -- CTLE and DFE taps in use | 30 | 13 Table Lanes-17 | CTLE 0x8, taps 0
  good    : Option (BitVec 30) := none -- last-good taps | 30 | 13 R530 | none (VALID 0)
  density : Nat := 0               -- GVL_Bb_LNk_MARGIN.DENS | 8 | 13 Table Lanes-18 | 0x00
  margin  : Nat := 0               -- GVL_Bb_LNk_MARGIN.MARGIN | 6 | 13 Table Lanes-18 | 0x00
  frozen  : Bool := false          -- GVL_Bb_STAT.FROZEN bit | 1 | 13 R529 | 0
  lowDens : Nat := 0               -- consecutive windows below DENS | count | 13 R529 | 0
  okWin   : Nat := 0               -- consecutive windows that meet the thaw conditions | 5 | 13 R529 | 0
  badMs   : Bool := false          -- a window of this ms failed R530 | 1 | 13 R530 | 0
  guard   : Nat := 0               -- windows below MLOW since the guard acted | 4 | 13 R531 | 0
  guarding : Bool := false         -- the wander guard has loaded last-good taps | 1 | 13 R531 | 0
  seq     : Option Nat := none     -- SEQ of the last marker received | 8 | 13 R515 | none
  bip     : Ctr := {}              -- GVL_Bb_LNk_BIP | 31 | 13 R515 | 0
  bits    : Ctr := {}              -- GVL_Bb_LNk_BITS | 48 | 13 R542 | 0
  err     : Ctr := {}              -- GVL_Bb_LNk_ERR | 48 | 13 R542 | 0
  sync    : Bool := false          -- GVL_Bb_TEST.SYNC bit | 1 | 13 R542 | 0
  lock    : Bool := false          -- GVL_Bb_STAT.LOCK bit | 1 | 13 R516 | 0
  deriving DecidableEq, Repr

/-- The link store of a bundle and its link layer (R551). -/
structure Link where
  st       : Nat := 0                 -- GVL_Lb_STAT.LINK | 2 | 14 Table Network-17 | 0b00 DOWN
  retry    : List (List Byte) := []   -- retry buffer, oldest first | 128 flits | 14 R551 | empty
  nextSeq  : Nat := 0                 -- SEQ of the next sequenced flit | 12 | 14 R552 | 0
  expect   : Nat := 0                 -- next expected SEQ | 12 | 14 R552 | 0
  nakSent  : Bool := false            -- NAK sent in this episode | 1 | 14 R552 | 0
  resends  : Nat := 0                 -- resends in a row without ACK advancing | 4 | 14 R553 | 0
  taken    : List (Nat × Nat) := []   -- credits not available to the transmitter (B - A of R557) by VC | 12 each | 14 R557 | 0: full credits
  waiting  : List (List Byte) := []   -- flits not yet sent a first time, oldest first | any | 14 R554, R556 | none
  held     : List (Nat × List (List Byte)) := [] -- flits held in the receive buffers by VC | 160 | 14 R556 | empty
  freed    : List (Nat × Nat) := []   -- credits freed by VC, modulo 4,096 | 12 each | 14 R556 | 0
  reported : List (Nat × Nat) := []   -- credits reported by VC, modulo 4,096 | 12 each | 14 R557 | 0
  partnerFreed : List (Nat × Nat) := [] -- partner's freed counters as last reported | 12 each | 14 R556 | 0
  partner  : Option (BitVec 64) := none -- unique ID recorded at the previous INIT | 64 | 14 R555 | none
  fresh    : Bool := true             -- cleared since the last INIT exchange | 1 | 14 R555 | 1
  adopted  : Bool := false            -- GVL_Lb_STAT.ADOPTED | 1 | 14 Table Network-17 | 0
  replays  : Nat := 0                 -- GVL_Lb_STAT.REPLAYS | 16 | 14 Table Network-17 | 0x0000
  crc      : Ctr := {}                -- GVL_Lb_CRC | 48 | 14 Table Network-18 | 0
  record   : List (List Byte) := []   -- flits of the encrypted record under reception | 16 flits | 14 R560 | none
  firstHalf : List (Nat × List Byte) := [] -- first flit of a two-flit message by VC | 64 bytes | 14 R549 | none
  pair     : Bool := false            -- the last INIT carried PAIR | 1 | 15 R617 | 0
  pairActive : Bool := true           -- INIT carried ACTIVE | 1 | 15 R617 | 1
  deriving DecidableEq, Repr

/-- A Gaval bundle (chapter 13). -/
structure Bundle where
  st       : Nat := 0                 -- GVL_Bb_STAT.STATE | 4 | 13 Table Lanes-2 | 0x0 OFF
  clkLock  : Bool := false            -- GVL_Bb_STAT.CLKLOCK | 1 | 13 Table Lanes-10 | 0
  txIdle   : Bool := false            -- GVL_Bb_STAT.TXEIDLE | 1 | 13 R532 | 0
  rxIdle   : Bool := false            -- GVL_Bb_STAT.RXEIDLE | 1 | 13 R533 | 0
  attempts : Nat := 0                 -- GVL_Bb_STAT.ATTEMPTS | 7 | 13 R520 | 0x00
  timeouts : Nat := 0                 -- timeouts since last UP or enable | count | 13 R520 | 0
  lanes    : List (Nat × Lane) := []  -- the eight receive lanes | 8 | 13 R506 | see Lane
  partner  : Word := 0                -- GVL_Bb_PARTNER | 32 | 13 Table Lanes-14 | 0
  pinv     : BitVec 8 := 0            -- GVL_Bb_PINV | 8 | 13 Table Lanes-15 | 0x00
  txSeq    : Nat := 0                 -- SEQ of the next marker | 8 | 13 R514 | 0
  firstMark : Bool := true            -- the next marker carries BIP 0 | 1 | 13 R514 | 1
  burst    : Nat := 0                 -- retraining bursts asked for in this episode | 2 | 13 R531 | 0
  burstMask : BitVec 8 := 0           -- lanes in the mask of the episode | 8 | 13 R531 | 0
  sleepAsk : Bool := false            -- SLEEP sent, SLEEP_ACK awaited | 1 | 13 R536 | 0
  woken    : Bool := false            -- training from a beacon | 1 | 13 R538 | 0
  link     : Link := {}               -- link store and link layer | see Link | 14 R551 | see Link
  deriving DecidableEq, Repr

/-- An outstanding remote request (R575). -/
structure Remote where
  rid    : Nat
  queue  : Nat
  cid    : Nat
  node   : Nat
  read   : Bool
  line   : Nat        -- Grotto line at the node
  deriving DecidableEq, Repr

/-- A stream route (Table Network-16). -/
structure Route where
  v    : Bool := false      -- GVL_NET_SRDATA.V | 1 | 14 Table Network-16 | 0
  dir  : Bool := false      -- DIR | 1 | 14 Table Network-16 | 0
  node : Nat := 0           -- NODE | 6 | 14 Table Network-16 | 0x00
  cred : Nat := 32          -- CRED | 6 | 14 Table Network-16 | 0x20
  rep  : Nat := 0           -- REP | 10 | 14 Table Network-16 | 0x000
  landing : List Beat := [] -- landing buffer | 32 beats | 14 R580 | empty
  mid     : Nat := 0        -- source of a message part-way into the endpoint: 2 landing buffer, 3 STREAM_IN, 16 + p port p | 6 | 14 R581, 19 R733 | 0 (none)
  deriving DecidableEq, Repr

/-- A child of the census tree (R564, R567). -/
structure Child where
  bundle : Nat
  adopted : Bool := false
  size   : Option Nat := none
  depth  : Nat := 0
  base   : Nat := 0
  deriving DecidableEq, Repr

/-- The Gaval network (chapter 14). -/
structure Net where
  addr     : Option Nat := none       -- GVL_NET_STAT.ADDRV and ADDR | 7 | 14 Table Network-11 | 0
  nodes    : Nat := 0                 -- GVL_NET_STAT.NODES | 7 | 14 Table Network-11 | 0x00
  depth    : Nat := 0                 -- GVL_NET_STAT.DEPTH | 2 | 14 Table Network-11 | 0b00
  parent   : Option Nat := none       -- GVL_NET_STAT.PARENT | 3 | 14 Table Network-11 | 0b000
  settled  : Bool := false            -- GVL_NET_STAT.SETTLED | 1 | 14 Table Network-11 | 0
  range    : Nat := 0                 -- GVL_NET_STAT.RANGE | 6 | 14 Table Network-11 | 0x00
  census   : Bool := false            -- a census runs or is collected | 1 | 14 R563 | 0
  heard    : List (Nat × Nat × BitVec 64) := [] -- CENSUS collected: bundle, depth, unique ID | any | 14 R564 | none
  children : List Child := []         -- adopted or asked children by bundle | 8 | 14 R566 | none
  database : List NodeInfo := []      -- NODEINFO by unique ID | 64 | 14 R571 | empty
  seq      : Nat := 0                 -- own NODEINFO sequence | count | 14 R571 | 0
  routes   : List (Nat × (Nat × Nat)) := [] -- routing table: bundles on the route, outgoing bundle | 64 | 14 R573 | none
  streams  : List (Nat × Route) := [] -- stream routes by endpoint | 1,024 | 14 R580 | see Route
  remotes  : List Remote := []        -- remote requests outstanding | 4,096 | 14 R575 | none
  gens     : List (Nat × Nat) := []   -- generation of each Gaval tag | 4 each | 14 R575 | 0
  timeouts : List (Nat × Nat) := []   -- requests timed out in this tick by node | 16 each | 14 R575 | none
  deriving DecidableEq, Repr

/-- Brynerek (chapter 15). -/
structure Twin where
  role    : Nat := 0           -- TWN_STATUS.ROLE | 2 | 15 Table Twin-1 | 0b00 SOLO
  pstate  : Nat := 0           -- TWN_STATUS.PSTATE | 3 | 15 Table Twin-2 | 0b000
  fscause : Nat := 0           -- TWN_STATUS.FSCAUSE | 4 | 15 Table Twin-6 | 0x0
  failin  : Bool := false      -- TWN_STATUS.FAILIN | 1 | 15 Table Twin-12 | 0
  leadin  : Bool := false      -- TWN_STATUS.LEADIN | 1 | 15 Table Twin-12 | 0
  hbok    : Bool := false      -- TWN_STATUS.HBOK | 1 | 15 Table Twin-12 | 0
  fwdload : Nat := 0           -- TWN_STATUS.FWDLOAD | 7 | 15 Table Twin-12 | 0x00
  ready   : Bool := false      -- a RELOAD has ended a device fault, for TWN_STATUS.READY | 1 | 15 Table Twin-6 | 0
  failDrive : Option Bool := none -- level driven on PAIR_FAIL; none: high-impedance | 1 | 15 R591 | none
  leadLow : Bool := false      -- PAIR_LEAD pulled low | 1 | 15 R593 | 0
  hbRun   : Bool := false      -- PAIR_HB toggles | 1 | 15 R592 | 0
  puid    : BitVec 64 := 0     -- TWN_PUID | 64 | 15 R624 | 0
  mism    : Ctr := {}          -- TWN_MISM | 48 | 15 R618 | 0
  phase   : Nat := 0           -- TWN_REJSTAT.PHASE | 3 | 15 Table Twin-10 | 0b000
  lines   : Nat := 0           -- TWN_REJSTAT.LINES | 22 | 15 Table Twin-18 | 0x00_0000
  delay   : Nat := 64          -- injection delay in effect | 10 | 15 R603 | 64 (the minimum)
  pins    : Word := 0          -- TWN_PINS in effect | 32 | 15 Table Twin-15 | 0
  heard   : Option Hello := none -- the partner's last HELLO | - | 15 R595 | none
  sync    : Option Hello := none -- HELLO whose checks passed, barrier awaited | - | 15 R596 | none
  lead    : Bool := false      -- becomes LEAD at the barrier | 1 | 15 R596 | 0
  held    : List CommitRec := [] -- commit records received or awaiting acknowledgement | 16 | 15 R613 | none
  progress : List (Nat × Nat) := [] -- last progress offset by 65,536 queue + CID | 32 each | 15 R614 | none
  wasPaired : Bool := false    -- it has been PAIRED: what it stamped as LEAD is delivered when it goes on ALONE | 1 | 15 R607 | 0
  stamped : Nat := 0           -- last delivery cycle injected | 64 | 15 R601 | 0
  own     : List (Nat × Nat) := [] -- a shadow's own samples of replicated banks that no sample of the lead covers yet, by bank | 48 each | 15 R605 | none
  checking : Bool := false     -- SELFCHECK runs | 1 | 15 Table Twin-9 | 0
  discards : List (Nat × Nat × Nat) := [] -- shadow accesses discarded in this tick: requester, first offset, count | 16 | 15 R606 | none
  heldAtBarrier : Bool := false -- the survivor's chambers are held at the barrier | 1 | 15 R622 | 0
  maxLine : Bool := false      -- every line must be sent (after a RELOAD) | 1 | 15 Table Twin-10 | 0
  barrierHold : Nat := 0       -- length of the barrier hold in us | 16 | 15 R622 | 0
  deriving DecidableEq, Repr

/-- A ticket of the two-party change (R649). -/
structure Ticket where
  st      : Nat := 0                  -- LYS_TP_STAT.STATE | 2 | 16 Table Lysata-8 | 0b00 IDLE
  num     : Nat := 0                  -- LYS_TP_STAT.TICKET | 16 | 16 R649 | 0x0000
  sup     : Bool := false             -- LYS_TP_STAT.OWNER: staging party is the supervisor | 1 | 16 Table Lysata-27 | 0
  hostc   : Bool := false             -- LYS_TP_STAT.HOSTC | 1 | 16 Table Lysata-27 | 0
  supc    : Bool := false             -- LYS_TP_STAT.SUPC | 1 | 16 Table Lysata-27 | 0
  entries : List (Nat × Word) := []   -- entries: offset, value | 64 x 64 | 16 R650 | none
  digest  : Word := 0                 -- LYS_TP_DIGEST | 32 | 16 R651 | 0
  deriving DecidableEq, Repr

/-- A party's mailbox (R658). -/
structure Mailbox where
  busy   : Bool := false        -- LYS_MB_STAT.BUSY | 1 | 16 Table Lysata-31 | 0
  code   : Nat := 0             -- code of the command in preparation | 8 | 16 R658 | 0
  arg    : Nat := 0             -- its argument | 24 | 16 R658 | 0
  status : Nat := 0             -- LYS_MB_STAT.STATUS | 3 | 16 Table Lysata-31 | 0b000
  words  : List Word := []      -- LYS_MB_DATAi; WORDS is its length | 64 x 32 | 16 R658 | zeros
  deriving DecidableEq, Repr

/-- Lysata (chapter 16). -/
structure Lys where
  tick    : Nat := 0              -- LYS_TICK | 32 | 16 R627 | 0
  tbase   : Nat := 0              -- TBASE | 64 | 16 R628 | 0 (counts from AON release)
  frac    : Nat := 0              -- always-on fraction of a ns in 1/1,000,000 | 20 | 16 R628 | DESIGN CHOICE 0 (log 3)
  adj     : Nat := 0              -- ns since the last extra or omitted step, times abs PPM | 24 | 16 R629 | DESIGN CHOICE 0 (log 3)
  pstate  : Nat := 0              -- LYS_STATUS.STATE | 3 | 16 Table Lysata-5 | 0b000
  pend    : Bool := false         -- LYS_STATUS.PEND | 1 | 16 R638 | 0
  waited  : Nat := 0              -- ticks an entry has waited | count | 16 R638 | 0
  exiting : Bool := false         -- an exit runs | 1 | 16 R639 | 0
  exitFrom : Nat := 0             -- state that the exit leaves | 3 | 16 R639 | 0
  exitTo : Nat := 0               -- state that the exit reaches | 3 | 16 R639 | 0
  exitCause : Nat := 1            -- cause of the exit for 0x0D02 | 8 | 16 R639 | 0x01
  timer   : Option Nat := none    -- ticks left of the wake countdown | 32 | 16 R641 | none
  wakest  : BitVec 7 := 0         -- LYS_WAKEST | 7 | 16 Table Lysata-16 | 0
  devfault : Bool := false        -- LYS_STATUS.DEVFAULT | 1 | 16 R631 | 0
  silent  : Bool := false         -- LYS_STATUS.SILENT | 1 | 16 Table Lysata-1 | 0
  coresOk : Bool := true          -- LYS_STATUS.CORES | 1 | 16 Table Lysata-13 | 1
  restarting : Bool := false      -- the management cores restart | 1 | 16 R630 | 0
  xtalRun : Bool := false         -- LYS_STATUS.XTALRUN | 1 | 16 R626 | 0
  refOk   : Bool := false         -- LYS_STATUS.REFOK | 1 | 16 Table Lysata-13 | 0
  refclk  : Bool := false         -- REFCLK present | 1 | 16 R628 | DESIGN CHOICE 0 (log 5)
  sensors : List Int := []        -- sensor readings of the last tick | 56 x 8 | 16 R645 | none
  railsMv : List Nat := []        -- supply rails of the last tick in mV | 7 x 32 | 16 R645 | none
  dieMw   : List Nat := []        -- die power of the last tick in mW | 5 x 32 | 16 R645 | none
  tj      : Int := 0              -- LYS_TJ.TJ | 8 signed | 16 Table Lysata-21 | 0x00
  sensor  : Nat := 0              -- LYS_TJ.SENSOR | 8 | 16 Table Lysata-21 | 0x00
  tjMax   : Int := -128           -- LYS_TJ.MAX | 8 signed | 16 Table Lysata-21 | 0x80
  warned  : Bool := false         -- Tj has reached WARN | 1 | 16 R646 | 0
  crit    : Bool := false         -- Tj has reached CRIT and not fallen 3 below | 1 | 16 R646 | 0
  thermal : Nat := 0              -- thermal stretch demand | 3 | 16 R646 | 0
  capped  : Bool := false         -- a power episode runs | 1 | 16 R647 | 0
  cap     : Nat := 0              -- the cap's stretch demand | 3 | 16 R647 | 0
  powers  : List Nat := []        -- device power of the last ticks in mW, newest first | 15 x 16 | 16 R647 | none
  level   : Nat := 0              -- stretch level applied | 3 | 16 R647 | 0
  levels  : List (Nat × Nat) := [] -- LYS_GCLKn.LEVEL | 3 each | 16 Table Lysata-25 | 0b000
  gclk    : List (Nat × Word) := [] -- EN, SRC, PIN and DIV in effect where they differ from reset | 32 x 32 | 16 R635 | Table Lysata-4
  fpll    : List (Nat × Nat) := [] -- MULT in effect where it differs from reset | 7 each | 16 R635 | 0x30, 0x40
  locked  : List (Nat × Bool) := [] -- LYS_FPLLp.LOCK | 1 each | 16 Table Lysata-24 | 0
  ticket  : Ticket := {}          -- the two-party ticket | see Ticket | 16 R649 | IDLE
  boxes   : List (Nat × Mailbox) := [] -- mailbox of host (1) and supervisor (2) | 2 | 16 R658 | see Mailbox
  link    : LinkPower := .down    -- PCI Express link power state | - | 16 Table Lysata-6 | DESIGN CHOICE down (log 5)
  d3hot   : Bool := false         -- the function is in D3hot | 1 | 16 Table Lysata-6 | 0 (D0)
  linkInfo : Nat := 0             -- speed, width and LTSSM state of the link | 24 | 08 R357 | 0
  driversOff : Bool := false      -- every output driver disabled after a rail loss | 1 | 20 R760 | 0
  deriving DecidableEq, Repr

/-- An entry of the MSI-X table in BAR4 (Table Queues-1; the PCI Express base specification, log 95). -/
structure MsixEntry where
  addr : BitVec 64 := 0       -- message address | 64 | 08 Table Queues-1 | PRESUMED 0 (PCI Express, log 95)
  data : Word := 0            -- message data | 32 | 08 Table Queues-1 | PRESUMED 0 (PCI Express, log 95)
  mask : Bool := true         -- vector control: mask bit | 1 | 08 R351 | PRESUMED 1 (PCI Express, log 95)
  deriving DecidableEq, Repr

/-- The PCI Express function's own registers (Table Queues-1). -/
structure Pcie where
  table   : List (Nat × MsixEntry) := [] -- MSI-X table by vector | 512 | 08 Table Queues-1 | see MsixEntry
  pba     : List Nat := []      -- pending bits: vectors, rising | 512 | 08 R351 | PRESUMED none (PCI Express, log 95)
  bar0    : Nat := 0            -- base of BAR0 | 64 | 08 Table Queues-1 | PRESUMED 0 (PCI Express, log 95)
  bar2    : Nat := 0            -- base of BAR2 | 64 | 08 Table Queues-1 | PRESUMED 0 (PCI Express, log 95)
  bar4    : Nat := 0            -- base of BAR4 | 64 | 08 Table Queues-1 | PRESUMED 0 (PCI Express, log 95)
  maxPayload : Nat := 128       -- programmed max payload size | 128 to 512 | 08 R310 | PRESUMED 128 (PCI Express, log 95)
  maxRead : Nat := 512          -- programmed max read request size | 128 to 4,096 | 08 R310 | PRESUMED 512 (PCI Express, log 95)
  relaxed : Bool := true        -- Enable Relaxed Ordering | 1 | 08 R311 | PRESUMED 1 (PCI Express, log 95)
  msixOn  : Bool := false       -- MSI-X Enable | 1 | 08 Table Queues-1 | PRESUMED 0 (PCI Express, log 95)
  msixMask : Bool := false      -- MSI-X Function Mask | 1 | 08 Table Queues-1 | PRESUMED 0 (PCI Express, log 95)
  ecrcGen : Bool := false       -- ECRC generation | 1 | 08 Table Queues-1 | PRESUMED 0 (PCI Express, log 95)
  ecrcCheck : Bool := false     -- ECRC checking | 1 | 08 Table Queues-1 | PRESUMED 0 (PCI Express, log 95)
  ctoRange : BitVec 4 := 0      -- completion timeout range | 4 | 08 Table Queues-1 | PRESUMED 0 (PCI Express, log 95)
  ctoOff  : Bool := false       -- completion timeout disable | 1 | 08 Table Queues-1 | PRESUMED 0 (PCI Express, log 95)
  aspmL1  : Bool := false       -- ASPM L1 enabled | 1 | 08 Table Queues-1 | PRESUMED 0 (PCI Express, log 95)
  ltr     : Bool := false       -- LTR enabled | 1 | 08 Table Queues-1 | PRESUMED 0 (PCI Express, log 95)
  aer     : List Nat := []      -- AER error types logged, rising | 256 | 08 R357 | none
  subsystem : Word := 0         -- subsystem IDs | 32 | 08 Table Queues-1 | from fuses; DESIGN CHOICE 0 (log 4)
  deriving DecidableEq, Repr

/-- A D-PHY port (R729 to R733). -/
structure Dphy where
  hs      : Bool := false       -- PIN_DPHYp_STAT.HS | 1 | 19 Table Pins-23 | 0
  ulps    : Bool := false       -- PIN_DPHYp_STAT.ULPS | 1 | 19 R730 | 0
  skewOk  : Bool := false       -- PIN_DPHYp_STAT.SKEWOK | 1 | 19 R730 | 0
  damaged : Bool := false       -- PIN_DPHYp_STAT.DAMAGED | 1 | 19 R732 | 0
  bursts  : Nat := 0            -- PIN_DPHYp_STAT.BURSTS | 16 | 19 Table Pins-23 | 0x0000
  buffer  : List Beat := []     -- beats buffered | 128 | 19 R732 | empty
  fullTick : Nat := 0           -- bursts discarded whole in this tick | 16 | 19 R732, R771 | 0
  deriving DecidableEq, Repr

/-- A requester's PIN_LOCK sequence (R749). -/
structure LockSeq where
  count : Nat := 0        -- keys of the sequence already written | 2 | 19 R749 | 0
  mask  : BitVec 5 := 0   -- MASK of the sequence | 5 | 19 R749 | 0
  deriving DecidableEq, Repr

/-- Pins, probes, service pins, JTAG (chapter 19) and the debug access port (R695). -/
structure Pins where
  outv    : BitVec 768 := 0         -- output registers: value | 768 | 19 R719 | 0
  oe      : BitVec 768 := 0         -- output registers: enable | 768 | 19 R719 | 0 (R476)
  ball    : BitVec 768 := 0         -- input levels at the balls as last forwarded | 768 | 15 R604 | DESIGN CHOICE 0 (log 5)
  heldTold : List Nat := []         -- pins for which 0x0E0C was raised in this tick | 768 | 19 R722 | none
  vdet    : List (Nat × BitVec 3) := []   -- PIN_BANKk.VDET | 3 each | 19 R724 | from supply; DESIGN CHOICE absent (log 5)
  vdetRel : List (Nat × BitVec 3) := []   -- VDET at fabric release | 3 each | 19 R724 | 0
  vfault  : BitVec 16 := 0          -- PIN_BANKk.VFAULT | 16 | 19 R724 | 0
  svc     : BitVec 16 := 0          -- PIN_SVC_IN.LEVEL | 16 | 19 R735 | 0x0000
  user    : BitVec 4 := 0           -- output values of USER0 to USER3 | 4 | 19 R737 | 0
  edgeTold : BitVec 16 := 0         -- pins whose 0x0D12 was raised in this tick | 16 | 19 R738 | 0
  analogue : List (Nat × BitVec 10) := [] -- PIN_SVCk_AN.CODE | 10 each | 19 R736 | 0x000
  anValid : BitVec 16 := 0          -- PIN_SVCk_AN.VALID | 16 | 19 R736 | 0
  locked  : BitVec 5 := 0           -- PIN_STATUS.LOCKED | 5 | 19 R750 | 0b00000
  seqs    : List (Nat × LockSeq) := [] -- lock sequences by requester | 3 | 19 R749 | none
  episode : BitVec 768 := 0         -- pins in a mismatch episode | 768 | 19 R728 | 0
  ports   : List (Nat × Dphy) := [] -- D-PHY ports | 32 | 19 R729 | see Dphy
  jtagIr  : Nat := 0x02             -- JTAG instruction | 8 | 19 R746 | IDCODE (after Test-Logic-Reset)
  scan    : BitVec 2626 := 0        -- the boundary-scan register, cell 0 next to TDI | 2,626 | 19 R747 | DESIGN CHOICE 0 (log 2)
  scanHolds : Bool := false         -- boundary scan holds the pins | 1 | 19 R748 | 0
  dbgStatus : Nat := 0              -- STATUS of the debug access register | 4 | 17 Table Echo-8 | DESIGN CHOICE OK (log 2)
  dbgData : Word := 0               -- DATA of the debug access register | 32 | 17 Table Echo-8 | DESIGN CHOICE 0 (log 2)
  dbgBuf  : List Byte := []         -- debug buffer | 4 KiB | 17 Table Echo-9 | DESIGN CHOICE zeros (log 2)
  dbgOp   : Option (Nat × Nat × Nat × Nat) := none -- HOSTRD under way: queue, address, length, data unit | - | 17 R695 | none
  dbgGrt  : Bool := false           -- a GRTRD of the lead waits for its stamped delivery | 1 | 18 R703 | 0
  dbgTag  : Bool := false           -- its host reads wait for tags | 1 | 08 R312, 09 R395 | 0
  dbgIssued : Nat := 0              -- its host reads in flight, each with its tag | 6 | 17 R695, 08 R312 | 0
  deriving DecidableEq, Repr

/-- What the device puts on its links (model's own record of its outputs, oldest first; log 7). Kinds of `twin`, the
traffic of the twin bundles and of the sideband: 1 HELLO, 2 commit record, 3 its acknowledgement, 4 progress record,
5 FAILSILENT, 6 ALONE, 7 state of a rejoin, 8 mirrored outbound flit, 9 the 100 ns pulse of PAIR_FAIL; and the stamped
items of Table Twin-5: 10 refill completion, 11 doorbell record, 12 descriptors, 13 TLB fill, 14 invalidation completion,
15 accepted flit, 16 register write, 17 committed value, 18 BAR2 write, 19 inputs of a replicated bank, 20 domain reset,
21 stretch level, 22 host read data, 23 BAR2 read, 24 debug read of Grotto, 25 a translation fault, 26 power-ladder
step: 0 entry or 1 exit, state, cause; 27 D-PHY burst: port, error, and each lane's bytes behind their number. -/
inductive Out where
  | reply (who : Requester) (off : Nat) (val : Word) (status : Nat)      -- register reply, status of Table Lysata-10
  | bar2 (data : List Byte) (poisoned : Bool) (status : Nat)              -- BAR2 read completion: 0 success, 1 unsupported, 2 abort
  | hostWrite (kind : Nat) (q : Nat) (addr : Nat) (bytes : List Byte)    -- 1 completion, 2 shadow, 3 fault record
  | dataWrite (q : Nat) (addr : Nat) (relaxed : Bool) (bytes : List Byte) -- descriptor data with its Relaxed Ordering attribute (R311)
  | hostRead (kind : Nat) (q : Nat) (addr : Nat) (len : Nat)             -- 0 data, 1 doorbell, 2 fetch, 3 table, 4 consumer record, 5 debug
  | msix (vec : Nat) (addr : BitVec 64) (data : Word)                     -- the message of a vector
  | bar4 (data : Word)                                                    -- BAR4 read completion
  | portAbort (chamber stratum : Nat)
  | portData (chamber : Nat) (resp : PortResp)
  | beatIn (endpoint : Nat) (beat : Beat)
  | flit (b : Nat) (bytes : List Byte)
  | lctl (b : Nat) (payload : List Byte)                                  -- Table Network-4
  | block (b : Nat) (type : Nat) (arg : Nat)                              -- control block type (Table Lanes-1)
  | twin (kind : Nat) (bytes : List Byte)                                 -- kinds: see above the type
  | spi (bytes : List Byte)
  | smbus (bytes : List Byte) (ack : Bool)
  | flash (kind : Nat) (arg : Nat) (bytes : List Byte)                    -- 1 erase, 2 program, 3 sector header, 4 retire a sector; R441, bytes the flash (0 A, 1 B): 5 software reset, 6 SFDP read at arg MHz in 1S-1S-1S, 7 enter 8D-8D-8D, 8 read clock of arg MHz (with the dummy cycles), 9 read burst from address arg (with the length)
  | beacon (b : Nat)
  | cfgb (flashB : Bool) (addr len : Nat)                                 -- container bytes sent on the broadcast channel
  deriving DecidableEq, Repr

/-- The whole block. -/
structure State where
  pending : List Instr := []             -- commands waiting, first in first out | any | MODEL | empty
  regs    : List (Nat × Word) := []      -- RW and RWL fields by BAR0 offset | 2 MiB space | 00 R15 | Machine/RegTable.lean
  captures : List Half := []             -- captured _HI halves by requester | 32 each | 00 R4, R6 | none
  staged  : List Half := []              -- staged _LO halves by requester | 32 each | 00 R5, R6 | none
  ev      : Echo := {}                   -- Echo | see Echo | 17 | see Echo
  rst     : Resets := {}                 -- reset domains and fences | see Resets | 01 | see Resets
  fab     : Fabric := {}                 -- fabric | see Fabric | 03, 04, 06 | see Fabric
  lib     : Lib := {}                    -- library and refill | see Lib | 05 | see Lib
  integ   : Integ := {}                  -- signature checker | see Integ | 12 | see Integ
  grt     : Grotto := {}                 -- Grotto | see Grotto | 07 | see Grotto
  que     : List (Nat × Queue) := []     -- the 256 queues | 256 | 08 | see Queue
  arb     : List (Nat × Nat) := []       -- one more than the queue served last, by PRIO; 0 none | 4 x 8 | 08 R344 | none
  pci     : Pcie := {}                   -- the PCI Express function | see Pcie | 08 Table Queues-1 | see Pcie
  xlt     : Xlt := {}                    -- translation and tags | see Xlt | 09 | see Xlt
  cry     : Cry := {}                    -- crypto engine | see Cry | 10 | see Cry
  cfg     : Cfg := {}                    -- loader | see Cfg | 11 | see Cfg
  gvl     : List (Nat × Bundle) := []    -- the eight bundles | 8 | 13 | see Bundle
  net     : Net := {}                    -- network | see Net | 14 | see Net
  twn     : Twin := {}                   -- Brynerek | see Twin | 15 | see Twin
  lys     : Lys := {}                    -- Lysata | see Lys | 16 | see Lys
  pin     : Pins := {}                   -- pins, JTAG, debug port | see Pins | 19, 17 | see Pins
  seed    : Nat := 0                     -- MODEL: counter of the free values | any | MODEL | DESIGN CHOICE 0 (log 1)
  out     : List Out := []               -- MODEL: what the device has put on its links | any | MODEL | empty (log 7)
  deriving DecidableEq, Repr

/-- Why a step faults. No command of this block faults: every row of the table has an effect. -/
inductive Fault where
  /-- Raised by no command; kept so that the type is inhabited. Safe: the machine would stop. -/
  | none_
  deriving DecidableEq, Repr

/-- Why a command is refused. -/
inductive Refusal where
  /-- Raised by an arm of `exec` whose command has no meaning yet. Safe: the machine stops. -/
  | notModelled (mnemonic : String)
  deriving DecidableEq, Repr

/-- The block right after reset, before power good: every field at the value its comment gives. -/
def State.reset : State := {}

end Sys2Proof.Machine
end

