-- ==== Sys2Proof/Machine/Ops.lean ====
section
/-! DEFINITION. The named operations over State that every chapter's meanings share: reaching one table entry,
registers by field, raising an event (R661), counting (R689), sending on a link, taking a free value. -/

namespace Sys2Proof.Machine

/-- The one outcome of every meaning: the machine goes on. -/
def done (s : State) : Host.Outcome State Fault Refusal := .next s

/-- Apply f to the state once per element. -/
def forEach {α : Type} (l : List α) (f : α → State → State) (s : State) : State := l.foldl (fun s a => f a s) s

/-- f when the condition holds. -/
def State.when (s : State) (c : Bool) (f : State → State) : State := if c then f s else s

/-- Change Echo. -/
def State.modEv (s : State) (f : Echo → Echo) : State := { s with ev := f s.ev }
/-- Change the reset and fence state. -/
def State.modRst (s : State) (f : Resets → Resets) : State := { s with rst := f s.rst }
/-- Change the fabric. -/
def State.modFab (s : State) (f : Fabric → Fabric) : State := { s with fab := f s.fab }
/-- Change the library and refill engine. -/
def State.modLib (s : State) (f : Lib → Lib) : State := { s with lib := f s.lib }
/-- Change the signature checker. -/
def State.modInteg (s : State) (f : Integ → Integ) : State := { s with integ := f s.integ }
/-- Change Grotto. -/
def State.modGrt (s : State) (f : Grotto → Grotto) : State := { s with grt := f s.grt }
/-- Change the translation unit. -/
def State.modXlt (s : State) (f : Xlt → Xlt) : State := { s with xlt := f s.xlt }
/-- Change the crypto engine. -/
def State.modCry (s : State) (f : Cry → Cry) : State := { s with cry := f s.cry }
/-- Change the loader. -/
def State.modCfg (s : State) (f : Cfg → Cfg) : State := { s with cfg := f s.cfg }
/-- Change the network. -/
def State.modNet (s : State) (f : Net → Net) : State := { s with net := f s.net }
/-- Change Brynerek. -/
def State.modTwn (s : State) (f : Twin → Twin) : State := { s with twn := f s.twn }
/-- Change Lysata. -/
def State.modLys (s : State) (f : Lys → Lys) : State := { s with lys := f s.lys }
/-- Change the PCI Express function. -/
def State.modPci (s : State) (f : Pcie → Pcie) : State := { s with pci := f s.pci }
/-- Change the pins. -/
def State.modPin (s : State) (f : Pins → Pins) : State := { s with pin := f s.pin }

/-- Chamber c. -/
def State.chm (s : State) (c : Nat) : Chamber := tabGet {} s.fab.chambers c
/-- Change chamber c. -/
def State.modChm (s : State) (c : Nat) (f : Chamber → Chamber) : State :=
  s.modFab fun x => { x with chambers := tabMod {} x.chambers c f }
/-- Stratum k of a chamber. -/
def Chamber.strat (ch : Chamber) (k : Nat) : Stratum := tabGet {} ch.strata k
/-- Change stratum k of a chamber. -/
def Chamber.modStrat (ch : Chamber) (k : Nat) (f : Stratum → Stratum) : Chamber :=
  { ch with strata := tabMod {} ch.strata k f }
/-- Stratum k of chamber c. -/
def State.strat (s : State) (c k : Nat) : Stratum := (s.chm c).strat k
/-- Change stratum k of chamber c. -/
def State.modStrat (s : State) (c k : Nat) (f : Stratum → Stratum) : State := s.modChm c fun ch => ch.modStrat k f
/-- Logical column n. -/
def State.col (s : State) (n : Nat) : Column := tabGet {} s.fab.columns n
/-- Change column n. -/
def State.modCol (s : State) (n : Nat) (f : Column → Column) : State :=
  s.modFab fun x => { x with columns := tabMod {} x.columns n f }
/-- Switch group g. -/
def State.grp (s : State) (g : Nat) : SwGroup := tabGet {} s.fab.groups g
/-- Change switch group g. -/
def State.modGrp (s : State) (g : Nat) (f : SwGroup → SwGroup) : State :=
  s.modFab fun x => { x with groups := tabMod {} x.groups g f }
/-- Library slot i. -/
def State.slot (s : State) (i : Nat) : Slot := tabGet {} s.lib.slots i
/-- Change library slot i. -/
def State.modSlot (s : State) (i : Nat) (f : Slot → Slot) : State :=
  s.modLib fun x => { x with slots := tabMod {} x.slots i f }
/-- Grotto bank i = 8 group + bank. -/
def State.bank (s : State) (i : Nat) : Bank := tabGet {} s.grt.banks i
/-- Change Grotto bank i. -/
def State.modBank (s : State) (i : Nat) (f : Bank → Bank) : State :=
  s.modGrt fun x => { x with banks := tabMod {} x.banks i f }
/-- Queue q. -/
def State.qu (s : State) (q : Nat) : Queue := tabGet {} s.que q
/-- Change queue q. -/
def State.modQu (s : State) (q : Nat) (f : Queue → Queue) : State := { s with que := tabMod {} s.que q f }
/-- Bundle b. -/
def State.bun (s : State) (b : Nat) : Bundle := tabGet {} s.gvl b
/-- Change bundle b. -/
def State.modBun (s : State) (b : Nat) (f : Bundle → Bundle) : State := { s with gvl := tabMod {} s.gvl b f }
/-- Change the link of bundle b. -/
def State.modLink (s : State) (b : Nat) (f : Link → Link) : State := s.modBun b fun x => { x with link := f x.link }
/-- Lane k of a bundle. -/
def Bundle.lane (x : Bundle) (k : Nat) : Lane := tabGet {} x.lanes k
/-- Change lane k of bundle b. -/
def State.modLane (s : State) (b k : Nat) (f : Lane → Lane) : State :=
  s.modBun b fun x => { x with lanes := tabMod {} x.lanes k f }
/-- Key table entry k. -/
def State.key (s : State) (k : Nat) : KeyEntry := tabGet {} s.cry.keys k
/-- Change key table entry k. -/
def State.modKey (s : State) (k : Nat) (f : KeyEntry → KeyEntry) : State :=
  s.modCry fun x => { x with keys := tabMod {} x.keys k f }

/-- The stored bits of the register at an offset. -/
def State.reg (s : State) (off : Nat) : Word := tabGet (regReset off) s.regs off
/-- A field of a register's stored bits. -/
def State.regF (s : State) (off lo len : Nat) : Nat := fld (s.reg off) lo len
/-- A bit of a register's stored bits. -/
def State.regB (s : State) (off i : Nat) : Bool := bit (s.reg off) i
/-- Store a register's bits. -/
def State.setReg (s : State) (off : Nat) (v : Word) : State := { s with regs := tabSet (regReset off) s.regs off v }
/-- Store one field of a register. -/
def State.setRegF (s : State) (off lo len v : Nat) : State := s.setReg off (setFld (s.reg off) lo len v)

/-- Put something on the device's links. -/
def State.send (s : State) (o : Out) : State := { s with out := s.out ++ [o] }
/-- Count a use of the free values. -/
def State.fresh (s : State) : State := { s with seed := s.seed + 1 }

/-- A 48-bit statistics counter takes n more (R689). -/
def Ctr.add (c : Ctr) (n : Nat) : Ctr :=
  { n := min (c.n + n) (2 ^ 48 - 1), ovf := c.ovf || decide (2 ^ 48 - 1 < c.n + n) }
/-- A 31-bit narrow statistics counter takes n more (R689). -/
def Ctr.addNarrow (c : Ctr) (n : Nat) : Ctr :=
  { n := min (c.n + n) (2 ^ 31 - 1), ovf := c.ovf || decide (2 ^ 31 - 1 < c.n + n) }

/-- TBASE (R628). -/
def State.now (s : State) : Nat := s.lys.tbase

/-- An event's place among the raised ones: by Echo cycle of 5 ns, in it by code, then by order of raising (R661). -/
def evBefore (a b : Event) : Bool :=
  decide (a.tbase / 5 < b.tbase / 5) || (decide (a.tbase / 5 = b.tbase / 5) && decide (a.code < b.code))

/-- Put an event at its place among the raised ones. -/
def evInsert (e : Event) : List Event → List Event
  | [] => [e]
  | x :: t => if evBefore e x then e :: x :: t else x :: evInsert e t

/-- A twin start (Table Loading-1). -/
def State.twinStart (s : State) : Bool := bit s.cfg.mode 2

/-- The device issues host requests and MSI-X messages: not silent (R608, Table Lysata-1), not a shadow (Table
Twin-1). -/
def State.masters (s : State) : Bool := !(s.twinStart && s.twn.pstate == 4) && !s.lys.silent && s.twn.role != 2

/-- Entry of the MSI-X table. -/
def State.msixEntry (s : State) (vec : Nat) : MsixEntry := tabGet {} s.pci.table vec

/-- The vector or the whole function is masked (R351). -/
def State.masked (s : State) (vec : Nat) : Bool := (s.msixEntry vec).mask || s.pci.msixMask

/-- Send the message of an MSI-X vector; a masked vector sets its pending bit (R351). Nothing is sent while MSI-X is not
enabled (log 95). -/
def sendMsix (vec : Nat) (s : State) : State :=
  if !s.masters || !s.pci.msixOn then s
  else if s.masked vec then s.modPci fun p => { p with pba := setAdd vec p.pba }
  else s.send (.msix vec (s.msixEntry vec).addr (s.msixEntry vec).data)

/-- Pending vectors that are no longer masked send their messages (R351). -/
def releasePending (s : State) : State :=
  forEach (s.pci.pba.filter fun v => !s.masked v) (fun v s =>
    sendMsix v (s.modPci fun p => { p with pba := setDel v p.pba })) s

/-- Subsystem 13's vector is sent with each of its events (Table Lysata-14, IRQEN). -/
def sendLysVector (code : Nat) (s : State) : State :=
  s.when (code / 256 == 0x0D && s.regB 0x1_0004 28) (sendMsix (s.regF 0x1_0004 0 9))

/-- Raise an event: its code, its record fields in the order of its table, and TBASE (R661, R664). -/
def raise (code : Nat) (fields : List Nat) (s : State) : State :=
  sendLysVector code (s.modEv fun e => { e with raised := evInsert ⟨code, fields, s.now⟩ e.raised })

/-- Requester codes (Table Scope-12). -/
def Requester.code : Requester → Nat
  | .host => 1
  | .supervisor => 2
  | .jtag => 3
  | .lysata => 4

/-- The refused-write event of a subsystem (R9). -/
def raiseRefused (sub off : Nat) (who : Requester) (reason : Nat) (s : State) : State :=
  raise (sub * 256 + 1) [off, Requester.code who, reason] s

/-- Tier of a chamber ID: 0 A, 1 B (R125). -/
def tierOf (c : Nat) : Nat := c / 256
/-- Logical column of a chamber ID (R125). -/
def colOf (c : Nat) : Nat := c % 256
/-- The other chamber of the column. -/
def partnerOf (c : Nat) : Nat := if c < 256 then c + 256 else c - 256

/-- A domain is in reset. -/
def State.inReset (s : State) (d : Nat) : Bool := bit s.rst.inReset d

/-- Power state P0 to P5 (Table Lysata-5). -/
def State.pstate (s : State) : Nat := s.lys.pstate

/-- Twin roles (Table Twin-1). -/
def State.isSolo (s : State) : Bool := s.twn.role == 0
/-- The device is PAIRED (Table Twin-2). -/
def State.paired (s : State) : Bool := s.twn.role == 1 || s.twn.role == 2

end Sys2Proof.Machine
end

