-- ==== Sys2Proof/Machine/Links.lean ====
section
/-! DEFINITION. The link layer of a bundle: flits, the retry buffer, credits, records and INIT (14_network.md, R548 to
R560; 10_crypto.md, R420 to R425). A flit is its 64 bytes; before it is sent a first time its link field and CRC are
zero. -/

namespace Sys2Proof.Machine

/-- Scale-out mode: 0 STANDALONE, 1 manager, 2 worker, 3 PEER (Table Network-5). -/
def State.netMode (s : State) : Nat := s.cfg.mode.toNat % 4
/-- A bundle that carries only twin traffic (R562). -/
def State.twinBundle (s : State) (b : Nat) : Bool := s.twinStart && decide (b < 2)
/-- Standby bundle of a paired shadow: it carries only LCTL and MGMT (R617). -/
def State.standby (s : State) (b : Nat) : Bool := s.twn.role == 2 && !s.twinBundle b
/-- The bundle is UP. -/
def State.bunUp (s : State) (b : Nat) : Bool := (s.bun b).st == 6
/-- Some twin bundle is UP. -/
def State.twinUp (s : State) : Bool := s.bunUp 0 || s.bunUp 1
/-- Own node address, or 0 while there is none. -/
def State.ownAddr (s : State) : Nat := s.net.addr.getD 0

/-- Byte i of a flit. -/
def fb (f : List Byte) (i : Nat) : Nat := (f.getD i 0).toNat
/-- TYPE of a flit (Table Network-1). -/
def fTy (f : List Byte) : Nat := fb f 0 % 16
/-- VC of a flit. -/
def fVc (f : List Byte) : Nat := fb f 0 / 16 % 4
/-- POS of a flit. -/
def fPos (f : List Byte) : Nat := fb f 0 / 64
/-- DST of a flit. -/
def fDst (f : List Byte) : Nat := fb f 1 % 64
/-- SRC of a flit. -/
def fSrc (f : List Byte) : Nat := fb f 2 % 64
/-- HOPS of a flit. -/
def fHops (f : List Byte) : Nat := fb f 3 % 8
/-- SEQ of a flit. -/
def fSeq (f : List Byte) : Nat := (fb f 4 + 256 * fb f 5) % 4096
/-- ACK, when AV says it is valid. -/
def fAck (f : List Byte) : Option Nat := if 128 ≤ fb f 7 then some ((fb f 6 + 256 * fb f 7) % 4096) else none
/-- The payload of a flit, 52 bytes. -/
def fPay (f : List Byte) : List Byte := fitBytes 52 (f.drop 8)
/-- The CRC passes (Table Network-1). -/
def fCrcOk (f : List Byte) : Bool := leBytes 4 (crc32 (f.take 60)).toNat == f.drop 60

/-- A flit that has not been sent yet. -/
def mkFlit (ty vc pos dst src hops : Nat) (pay : List Byte) : List Byte :=
  leBytes 4 (ty + 16 * vc + 64 * pos + 256 * dst + 65536 * src + 16777216 * hops) ++ leBytes 4 0 ++ fitBytes 52 pay
    ++ leBytes 4 0

/-- The flits of a message of one or two (R549). -/
def mkMsg (ty vc dst src : Nat) (two : Bool) (pay : List Byte) : List (List Byte) :=
  if two then [mkFlit ty vc 1 dst src 0 (pay.take 52), mkFlit ty vc 2 dst src 0 (pay.drop 52)]
  else [mkFlit ty vc 0 dst src 0 pay]

/-- The payload of a message from its flits. -/
def msgPay (m : List (List Byte)) : List Byte := m.flatMap fPay

/-- The ACK that the receiver reports: not past a record whose TAG has not passed (R560). -/
def Link.ackVal (l : Link) : Nat := (l.expect + 4096 - l.record.length) % 4096

/-- A flit with SEQ, ACK and CRC put in (Table Network-1). -/
def stampFlit (seq ack : Nat) (f : List Byte) : List Byte :=
  let head := f.take 4 ++ leBytes 2 (seq % 4096) ++ leBytes 2 (ack % 4096 + 0x8000) ++ fPay f
  head ++ leBytes 4 (crc32 head).toNat

/-- Receive buffer of a VC (Table Network-3); VC 3 has all of it on a twin bundle (R607). -/
def bufSize (twin : Bool) (vc : Nat) : Nat :=
  if twin then (if vc = 3 then 160 else 0) else if vc < 2 then 64 else 16

/-- Credits available to the transmitter, A of R557. -/
def State.credits (s : State) (b vc : Nat) : Nat :=
  bufSize (s.twinBundle b) vc - tabGet 0 (s.bun b).link.taken vc

/-- The session of a direction (R421). -/
def State.sess (s : State) (b : Nat) (rx : Bool) : Session := tabGet {} s.cry.sessions (2 * b + b2n rx)
/-- Change the session of one direction of a bundle. -/
def State.modSess (s : State) (b : Nat) (rx : Bool) (f : Session → Session) : State :=
  s.modCry fun x => { x with sessions := tabMod {} x.sessions (2 * b + b2n rx) f }

/-- Direction codes of 0x0A08: 1 transmit, 2 receive (log 12). -/
def dirCode (rx : Bool) : Nat := if rx then 2 else 1

/-- The 52 payload bytes of an LCTL (Table Network-4, R617). -/
def lctlPay (s : State) (b kind seq : Nat) : List Byte :=
  let l := (s.bun b).link
  let freed := (List.range 4).foldl (fun n v => n + (tabGet 0 l.freed v % 4096) <<< (12 * v)) 0
  let uid := if s.paired && decide (s.twn.puid.toNat < s.cfg.uid.toNat) then s.twn.puid else s.cfg.uid
  leBytes 1 kind ++ leBytes 6 freed ++ leBytes 2 seq
    ++ leBytes 1 (s.ownAddr + (if s.net.addr.isSome then 128 else 0)) ++ leBytes 8 uid.toNat
    ++ leBytes 1 (if s.paired && !s.twinBundle b then 1 + 2 * b2n (s.twn.role == 1) else 0)

/-- Send an LCTL: it reports the freed credits (R556, R557). -/
def sendLctl (b kind seq : Nat) (s : State) : State :=
  (s.send (.lctl b (fitBytes 52 (lctlPay s b kind seq)))).modLink b fun l => { l with reported := l.freed }

/-- INIT with the expected SEQ and FRESH (R555). -/
def sendInit (b : Nat) (s : State) : State :=
  let l := (s.bun b).link
  sendLctl b (2 + 4 * b2n l.fresh) l.ackVal s

/-- The payloads of a record's flits through AES-256-GCM's counter mode: sealed, or opened again (R422). -/
def cryptRecord (key : List Byte) (counter : Nat) (flits : List (List Byte)) : List (List Byte) :=
  let c := gcmCrypt key counter (flits.flatMap fPay)
  (withPos flits).map fun (i, f) => f.take 8 ++ (c.drop (52 * i)).take 52 ++ f.drop 60

/-- The tag of a sealed record: its additional authenticated data are the flit headers (R422, R559). -/
def recordTag (key : List Byte) (counter : Nat) (flits : List (List Byte)) : List Byte :=
  gcmTag key counter (flits.flatMap (·.take 4)) (flits.flatMap fPay)

/-- A NONCE message, which goes in plaintext (R421). -/
def isNonce (f : List Byte) : Bool := fTy f == 9 && fb f 8 == 1

/-- What the wire carries for retry-buffer entries: a TAG entry holds its record's counter (R423) and closes the flits
gathered before it; a NONCE goes in plaintext and belongs to no record. -/
def wireFlits (key : List Byte) (ack : Nat) : List (List Byte) → List (List Byte) → List (List Byte)
  | gathered, [] => gathered.map fun f => stampFlit (fSeq f) ack f
  | gathered, f :: t =>
    if isNonce f then stampFlit (fSeq f) ack f :: wireFlits key ack gathered t
    else if fTy f = 0xA then
      let counter := ofLeBytes ((fPay f).take 8)
      let sealed := cryptRecord key counter gathered
      (sealed.map fun g => stampFlit (fSeq g) ack g)
        ++ [stampFlit (fSeq f) ack (f.take 8 ++ fitBytes 52 (recordTag key counter sealed) ++ f.drop 60)]
        ++ wireFlits key ack [] t
    else wireFlits key ack (gathered ++ [f]) t

/-- The direction sends words now: UP, INIT exchanged, not in electrical idle, active. -/
def State.wireOpen (s : State) (b : Nat) : Bool :=
  let x := s.bun b
  x.st == 6 && x.link.st == 2 && !x.txIdle

/-- An encrypted direction of bundle b sends only NONCE flits while it has no session (R420, R421), and none while HOST is
in reset (R426). -/
def State.maySend (s : State) (b : Nat) (f : List Byte) : Bool :=
  let ss := s.sess b false
  !ss.enabled || ss.running || (isNonce f && !s.inReset 5)

/-- Put retry-buffer entries on the wire (R552, R554); the lead mirrors them to the shadow first (R617). -/
def sendWire (b : Nat) (flits : List (List Byte)) (s : State) : State :=
  let l := (s.bun b).link
  let ss := s.sess b false
  forEach (if ss.running then wireFlits ss.key l.ackVal [] flits
      else (flits.filter (s.maySend b)).map fun f => stampFlit (fSeq f) l.ackVal f)
    (fun f s => (s.when (s.twn.role == 1 && !s.twinBundle b) fun s => s.send (.twin 8 f)).send (.flit b f)) s

/-- Take a flit into the retry buffer: it gets its SEQ and takes its credit (R552, R556). -/
def bufferFlit (b : Nat) (f : List Byte) (s : State) : State :=
  s.modLink b fun l =>
    { l with retry := l.retry ++ [f.take 4 ++ leBytes 2 l.nextSeq ++ f.drop 6],
             nextSeq := (l.nextSeq + 1) % 4096,
             taken := if fTy f = 0xA then l.taken else tabMod 0 l.taken (fVc f) (· + 1) }

/-- The flit may be sent a first time now (R554, R556): a credit and a retry place are there, and an encrypted
direction sends only NONCE here (records go under R559). A shadow's standby bundle sends only MGMT (R617). -/
def canSend (s : State) (b : Nat) (f : List Byte) : Bool :=
  s.wireOpen b && decide ((s.bun b).link.retry.length < 128) && decide (0 < s.credits b (fVc f)) &&
  (!(s.sess b false).enabled || isNonce f) && s.maySend b f && ((!s.standby b && (s.bun b).link.pairActive) || fTy f == 9)

/-- Send the waiting flits that can go, in order per VC. -/
def pumpGo (b : Nat) : List (List Byte) → List Nat → List (List Byte) → State → State
  | [], _, kept, s => s.modLink b fun l => { l with waiting := kept }
  | f :: t, blocked, kept, s =>
    if !blocked.contains (fVc f) && canSend s b f then
      let s' := bufferFlit b f s
      pumpGo b t blocked kept (sendWire b ((s'.bun b).link.retry.drop ((s.bun b).link.retry.length)) s')
    else pumpGo b t (fVc f :: blocked) (kept ++ [f]) s

/-- Send what waits on a bundle as far as sequence numbers and credits let it (R551 to R557). -/
def pump (b : Nat) (s : State) : State := pumpGo b (s.bun b).link.waiting [] [] s

/-- Give the link layer of bundle b flits to send. -/
def enqueue (b : Nat) (flits : List (List Byte)) (s : State) : State :=
  pump b (s.modLink b fun l => { l with waiting := l.waiting ++ flits })

/-- An MGMT message (Table Network-6). Its contents beyond KIND have no layout in the manual: each value is put as
its listed width in bytes (log 13). -/
def sendMgmt (b kind : Nat) (args : List (Nat × Nat)) (s : State) : State :=
  let pay := leBytes 1 kind ++ args.flatMap fun (w, v) => leBytes w v
  enqueue b (mkMsg 9 3 0 0 (decide (52 < pay.length)) pay) s

/-- An ACK passes the flits before it (R552); a new advance ends the row of resends. -/
def takeAck (b : Nat) (ack : Option Nat) (s : State) : State :=
  match ack with
  | none => s
  | some a =>
    let l := (s.bun b).link
    let n := (a + 4096 - fSeq (l.retry.headD [])) % 4096
    if l.retry = [] ∨ n = 0 ∨ l.retry.length < n then s
    else s.modLink b fun l => { l with retry := l.retry.drop n, resends := 0 }

/-- The partner's freed-credit counters give credits back (R556). -/
def takeFreed (b : Nat) (freed : List Nat) (s : State) : State :=
  s.modLink b fun l =>
    let gain v := (freed.getD v 0 + 4096 - tabGet 0 l.partnerFreed v) % 4096
    { l with taken := (List.range 4).foldl (fun t v => tabMod 0 t v (· - gain v)) l.taken,
             partnerFreed := (List.range 4).foldl (fun t v => tabSet 0 t v (freed.getD v 0 % 4096)) l.partnerFreed }

/-- n flits of a VC leave the receive buffer: their credits are freed (R556). -/
def freeCredits (b vc n : Nat) (s : State) : State :=
  s.modLink b fun l => { l with freed := tabMod 0 l.freed vc fun x => (x + n) % 4096 }

/-- Remove the first held message of a VC that satisfies p: one flit, or a first flit with the second after it. -/
def dropMsg (p : List Byte → Bool) : List (List Byte) → Option (List (List Byte) × List (List Byte))
  | [] => none
  | f :: t =>
    if p f && fPos f != 2 then
      (if fPos f = 1 then some ([f] ++ t.take 1, t.drop 1) else some ([f], t))
    else (dropMsg p t).map fun (m, r) => (m, f :: r)

/-- A message leaves the receive buffer of bundle b. -/
def takeMsg (b vc : Nat) (p : List Byte → Bool) (s : State) : State :=
  match dropMsg p (tabGet [] (s.bun b).link.held vc) with
  | none => s
  | some (m, rest) =>
    freeCredits b vc m.length (s.modLink b fun l => { l with held := tabSet [] l.held vc rest })

/-- The bundle's receive direction is encrypted and has no session: its link holds what it has received (R426). -/
def State.linkHolds (s : State) (b : Nat) : Bool := (s.sess b true).enabled && !(s.sess b true).running

/-- The lowest bundle with such a message holds it back. -/
def State.msgHeld (s : State) (vc : Nat) (p : List Byte → Bool) : Bool :=
  match (List.range 8).find? fun b => (dropMsg p (tabGet [] (s.bun b).link.held vc)).isSome with
  | some b => s.linkHolds b
  | none => false

/-- The same for the lowest bundle that holds one. -/
def takeAnyMsg (vc : Nat) (p : List Byte → Bool) (s : State) : State :=
  match (List.range 8).find? fun b => (dropMsg p (tabGet [] (s.bun b).link.held vc)).isSome with
  | some b => takeMsg b vc p s
  | none => s

/-- A message of a TYPE, or an MGMT of a KIND. -/
def isTy (ty : Nat) (f : List Byte) : Bool := fTy f == ty
/-- A MGMT message of this kind (Table Network-6). -/
def isMgmt (kind : Nat) (f : List Byte) : Bool := fTy f == 9 && fb f 8 == kind

/-- Flits held of each VC (H of R557). -/
def Link.heldOf (l : Link) (vc : Nat) : Nat := (tabGet [] l.held vc).length

/-- A cleared link store (R551): what is not part of it is kept. -/
def Link.clear (l : Link) : Link :=
  { l with retry := [], nextSeq := 0, expect := 0, nakSent := false, resends := 0, taken := [], held := [], freed := [],
           reported := [], partnerFreed := [], record := [], firstHalf := [], fresh := true }

/-- Rights that a key index gives (R404, R409): none while FAILED or while their parity fails (Table Crypto-6). -/
def rightsOf (s : State) (k : Nat) : BitVec 4 := if (s.key k).st = 3 ∨ (s.key k).rightsBad then 0 else (s.key k).rights

/-- A key table entry is used: a double-bit error makes it FAILED and raises 0x0A05 (R404). -/
def useKey (k : Nat) (s : State) : State :=
  if (s.key k).dbl ∧ (s.key k).st ≠ 3 then
    raise 0x0A05 [k] (s.modKey k fun e => { e with st := 3, kcv := 0, key := [], dbl := false })
  else s
/-- A double-bit error stands in a key table entry until its next use. -/
def spoilKey (k : Nat) (s : State) : State := s.modKey k fun e => { e with dbl := true }

/-- The index names a GCM entry with FAB (R420). -/
def linkKeyOk (s : State) (k : Nat) : Bool := (s.key k).st == 2 && bit (rightsOf s k) 2

/-- A direction comes up: the binding in effect is taken, and an enabled one asks for a session with a nonce drawn
from the random source, or carries no traffic (R420, R421). While HOST is in reset it waits for the release (R426). -/
def startSession (b : Nat) (rx : Bool) (s : State) : State :=
  let cfg := s.reg (0xA_0200 + 0x10 * b)
  let en := bit cfg (if rx then 30 else 31)
  let idx := fld cfg (if rx then 0 else 8) 6
  let s := s.modSess b rx fun x => { x with enabled := en, index := idx, running := false, fails := 0, own := none }
  if !en || s.inReset 5 then s
  else
    let s := useKey idx s
    if linkKeyOk s idx then
      let n : BitVec 128 := Config.freeBits 128 s.seed
      sendMgmt b 1 [(1, dirCode rx), (16, n.toNat)] ((s.modSess b rx fun x => { x with own := some n }).fresh)
    else raise 0x0A08 [b, dirCode rx, 1] s

/-- Both sessions of a bundle end, with the nonces exchanged for the next ones. -/
def endSessions (b : Nat) (s : State) : State :=
  forEach [false, true] (fun rx s =>
    if (s.sess b rx).enabled then s.modSess b rx fun x => { x with running := false, own := none, peer := none } else s) s

/-- The received part of a record whose TAG has not come is discarded: its flits return from H to W (R560). -/
def dropRecord (b : Nat) (s : State) : State :=
  s.modLink b fun l => { l with expect := l.ackVal, record := [] }

/-- LANEb domain reset (R546, Table Stack-6): the live PHY fields fall, last-good taps stay and give the start. -/
def laneReset (b : Nat) (s : State) : State :=
  s.modBun b fun x =>
    { x with clkLock := false, txIdle := false, rxIdle := false, burst := 0, burstMask := 0, sleepAsk := false,
             firstMark := true,
             lanes := x.lanes.foldl (fun t p => tabSet {} t p.1
               { p.2 with taps := p.2.good.getD 0x20000000#30, density := 0, margin := 0, frozen := false, lowDens := 0,
                          okWin := 0, badMs := false, guard := 0, guarding := false, seq := none, sync := false,
                          lock := false }) x.lanes }

/-- The bundle stops carrying words: its link is DOWN and its sessions end. -/
def linkDown (b : Nat) (s : State) : State :=
  dropRecord b (endSessions b (s.modLink b fun l => { l with st := 0 }))

/-- OFF at once from any state (R524); causes of 0x0B03: 1 CLOCK, 2 BLOCK, 3 DESKEW, 4 TS1, 5 MARGIN, 6 SLEEP_NAK,
7 COMMAND. -/
def bundleOff (b : Nat) (s : State) : State :=
  let s := if (s.bun b).st = 6 then raise 0x0B03 [b, 7] (linkDown b s) else s
  (laneReset b s).modBun b fun x => { x with st := 0, woken := false }

end Sys2Proof.Machine
end

