-- ==== Sys2Proof/Machine/Cells.lean ====
section
/-! DEFINITION. Cells, clusters, product-term blocks and routing (chapters 02 and 03): what the configuration words
of the active strata compute from the flip-flops and the wires. Nets are numbered over the whole fabric and held as
sets of ones; combinational logic is settled by as many rounds as there are nets, from all zeros and from all ones.
A net on which the two agree has that value; on any other (a combinational loop) the spec states none and the level
is a free value (log 9). -/

namespace Sys2Proof.Machine

/-- A cell's configuration word in a stratum (R49). -/
def wordOf (ws : ImageWords) (i : Nat) : BitVec 80 := tabGet 0 ws i

/-- The 32-bit cluster word of cluster c, from the CSL fields of its eight cells (R69). -/
def clusterWord (ws : ImageWords) (c : Nat) : Nat :=
  (List.range 8).foldl (fun a k => a + (fld (wordOf ws (8 * c + k)) 76 4) <<< (4 * k)) 0

/-- Cluster mode; the reserved code acts as logic (R51, Table Cells-7). -/
def cmode (cw : Nat) : Nat := if cw % 4 = 3 then 0 else cw % 4
/-- Multiplexer chain role; the reserved code acts as standalone (R51, Table Cells-8). -/
def mchRole (cw : Nat) : Nat := if (cw / 4) % 4 = 3 then 0 else (cw / 4) % 4

/-- The chamber word of a stratum: CHS slices are the CSL fields of cells 6 and 7 (Table Cells-6, R128). -/
def chamberWord (ws : ImageWords) : BitVec 2048 :=
  ws.foldl (fun v (i, w) =>
    if 6 ≤ i % 8 then v ||| (BitVec.ofNat 2048 (fld w 76 4) <<< (8 * (i / 8) + 4 * (i % 8 - 6))) else v) 0

/-- A field of the chamber word (Table Strata-1). -/
def chw (ws : ImageWords) (lo len : Nat) : Nat := fld (chamberWord ws) lo len

/-- PERS of the chamber word. -/
def persOf (ws : ImageWords) : Nat := chw ws 1084 16
/-- The fence codes of the chamber word. -/
def fenceOf (ws : ImageWords) : BitVec 1024 := (chamberWord ws).setWidth 1024
/-- Pin direction class of slot k (Table Strata-3): 0 none, 1 in, 2 out, 3 both. -/
def pinClass (ws : ImageWords) (k : Nat) : Nat := chw ws (1067 + 2 * k) 2
/-- The stratum owns stream endpoint slot j. -/
def sepOf (ws : ImageWords) (j : Nat) : Bool := chw ws (1065 + j) 1 == 1
/-- The stratum uses the Grotto port. -/
def gportOf (ws : ImageWords) : Bool := chw ws 1064 1 == 1

/-- The selected stratum's words of a chamber. -/
def Chamber.selWords (ch : Chamber) : ImageWords := (ch.strat ch.sel).words

/-- The state of a chamber: the first of Table Strata-4 whose condition holds (R131). Codes as CHM_STATUS.STATE. A
chamber whose selected stratum has been refilled stays in the state it was in until R138's edge (log 89). -/
def State.chmState (s : State) (c : Nat) : Nat :=
  let ch := s.chm c
  if !ch.released then 0
  else if s.inReset (tierOf c) then 6
  else if ch.reloc then 5
  else if ch.hsrc ≠ 0 then 4
  else if ch.entering ≠ 0 then ch.entering
  else if (ch.strat ch.sel).quar then 3
  else if !(ch.strat ch.sel).loaded then 2
  else 1

/-- The chamber's nets compute (R773): RUN, HELD or RELOCATING; those of a chamber held for repair too, while its selected
stratum is refilled (R48, log 98). -/
def computes (st : Nat) : Bool := st == 1 || st == 4 || st == 5

/-- Values of all nets: sets of the nets that carry 1. Cells are numbered 2048 chamber + cell, clusters
256 chamber + cluster. -/
structure Nets where
  f  : Nat := 0    -- F of each cell
  co : Nat := 0    -- CO of each cell
  w1 : Nat := 0    -- length-1 wire of each cell
  w4 : Nat := 0    -- length-4 wire of each cell
  wl : Nat := 0    -- length-16 wire of each cluster
  deriving DecidableEq, Repr

/-- Which net of a chamber is asked for. -/
inductive Wire where
  | one | four | sixteen
  deriving DecidableEq, Repr

/-- The column stands on its home column: a spare's border ports connect to nothing (R113). While a relocation runs the
column stays where it was until the release (R117, R173). -/
def State.atHome (s : State) (n : Nat) : Bool := (s.col n).pcol.isNone || (s.col n).fromHome

/-- Logical neighbour of chamber c across its side facing d (R126); a chamber on a spare column has none (R113). -/
def State.neighbour (s : State) (c d : Nat) : Option Nat :=
  let n := colOf c
  let x := n % 16
  let y := n / 16
  let pick (ok : Bool) (m : Nat) : Option Nat := if ok && s.atHome n && s.atHome m then some (256 * tierOf c + m) else none
  match d with
  | 0 => pick (decide (x < 15)) (n + 1)
  | 1 => pick (decide (y < 15)) (n + 16)
  | 2 => pick (decide (0 < x)) (n - 1)
  | _ => pick (decide (0 < y)) (n - 16)

/-- What a border port of chamber c shows instead of its driven value, if it does (R174, Table Strata-4): while
UNRELEASED 0, while fenced the value of its fence code (Table Strata-2, R130, R177, R178). -/
def State.portShows (s : State) (c port : Nat) : Option Bool :=
  let ch := s.chm c
  match s.chmState c with
  | 1 => none
  | 0 => some false
  | _ =>
    if ch.fenceBad then some false
    else match fld ch.fence (2 * port) 2 with
      | 1 => some false
      | 2 => some true
      | _ => some (bit ch.portHold port)

/-- The value of a wire of chamber c started by cluster cl (cell k for the short wires). -/
def Nets.wire (v : Nets) (c cl k : Nat) : Wire → Bool
  | .one => v.w1.testBit (2048 * c + 8 * cl + k)
  | .four => v.w4.testBit (2048 * c + 8 * cl + k)
  | .sixteen => v.wl.testBit (256 * c + cl)

/-- Arriving wire of a cluster of chamber c, for a wire that travels in direction d and starts `dist` clusters back
(R85 to R92). `slot` is the border port slot that carries it over a border, if one does (Table Routing-3). -/
def arriveFrom (s : State) (v : Nets) (c cl d dist k : Nat) (kind : Wire) (slot : Option Nat) : Bool :=
  let x := cl % 16
  let y := cl / 16
  -- position along the direction of travel, counted from the edge where such wires enter, and across it
  let (along, across) := match d with
    | 0 => (x, y)
    | 1 => (y, x)
    | 2 => (15 - x, y)
    | _ => (15 - y, x)
  let clusterAt (a : Nat) : Nat := match d with
    | 0 => 16 * across + a
    | 1 => 16 * a + across
    | 2 => 16 * across + (15 - a)
    | _ => 16 * (15 - a) + across
  if dist ≤ along then v.wire c (clusterAt (along - dist)) k kind
  else if along = 0 then
    match slot, s.neighbour c ((d + 2) % 4) with
    | some sl, some c' =>
      (match s.portShows c' (128 * d + 8 * across + sl) with
       | some b => b
       | none => v.wire c' (clusterAt (16 - dist)) k kind)
    | _, _ => false
  else false

/-- The cluster from which a length-16 wire travelling in d starts `dist` back lies at (x + y) mod 4 = d (R84). -/
def l16Starts (cl d dist : Nat) : Bool :=
  let x := cl % 16 + 32
  let y := cl / 16 + 32
  match d with
  | 0 => (x - dist + y) % 4 == 0
  | 1 => (x + (y - dist)) % 4 == 1
  | 2 => (x + dist + y) % 4 == 2
  | _ => (x + (y + dist)) % 4 == 3

/-- Arriving wire a of a cluster (Table Routing-1). -/
def arriving (s : State) (v : Nets) (c cl a : Nat) : Bool :=
  let d := (a % 8) / 2
  let k := d + 4 * (a % 2)
  if a < 8 then arriveFrom s v c cl d 1 k .one (some (a % 2))
  else if a < 16 then arriveFrom s v c cl d 4 k .four (some (2 + a % 2))
  else if a < 24 then arriveFrom s v c cl d 3 k .four none
  else if a < 32 then arriveFrom s v c cl d 2 k .four none
  else
    let d := (a - 32) / 4
    let t := (a - 32) % 4
    [1, 2, 3, 4].any fun j =>
      l16Starts cl d (4 * t + j) && arriveFrom s v c cl d (4 * t + j) 0 .sixteen (some (4 + t))

/-- Q of a cell in stratum k (R59, R60). -/
def Chamber.q (ch : Chamber) (k i : Nat) : Bool :=
  let st := ch.strat k
  if bit (wordOf st.words i) 33 then bit ch.shared i else bit st.ffs i

/-- Value of a select field, given the shaft levels (R52, R89); `off` is the rotation of Table Routing-2. -/
def selectVal (s : State) (v : Nets) (shaft : Nat → Bool) (c cl code off : Nat) : Bool :=
  let ch := s.chm c
  if code = 0 then false
  else if code = 1 then true
  else if code < 0x0A then v.f.testBit (2048 * c + 8 * cl + (code - 2))
  else if code < 0x12 then ch.q ch.sel (8 * cl + (code - 0x0A))
  else if code < 0x22 then shaft (code - 0x12)
  else arriving s v c cl ((code - 0x22 + off) % 48)

/-- SHA or SHB of the tier's cell at a shaft, with reserved codes off (R54, Table Cells-4). Shaft n of a cluster is
owned by cell n / 2; SHB does not exist in product-term mode (R73). -/
def shaftCode (ws : ImageWords) (cl n : Nat) : Nat :=
  let w := wordOf ws (8 * cl + n / 2)
  let code := if n % 2 = 0 then fld w 39 3
    else if cmode (clusterWord ws cl) = 1 then 0 else fld w 61 3
  if 5 ≤ code then 0 else code

/-- The shaft driver of chamber c is enabled (R94). -/
def shaftOn (s : State) (c cl n : Nat) : Bool :=
  s.chmState c == 1 && shaftCode (s.chm c).selWords cl n != 0

/-- IN0 of a cell. -/
def in0Code (ws : ImageWords) (i : Nat) : Nat := fld (wordOf ws i) 16 6

/-- What an enabled driver drives, except the pass-through of an input (Table Cells-4). -/
def shaftDrives (s : State) (v : Nets) (c cl n : Nat) : Bool :=
  let ch := s.chm c
  let i := 8 * cl + n / 2
  match shaftCode ch.selWords cl n with
  | 1 => v.f.testBit (2048 * c + i)
  | 2 => ch.q ch.sel i
  | _ => v.co.testBit (2048 * c + i)

/-- The level of shaft n at cluster cl of column col: the one enabled driver's, else the keeper's; the keeper's also
while the contention detector holds both drivers off (R93, R97). A
driver that passes an input on may read a further shaft of the cluster: `fuel` bounds the chain, which visits each
of the cluster's 16 shafts at most once unless it loops. -/
def shaftLevel (s : State) (v : Nets) (col cl : Nat) : Nat → Nat → Bool
  | 0, n => bit (s.col col).keepers (16 * cl + n)
  | fuel + 1, n =>
    let a := col
    let b := col + 256
    let drive (c : Nat) : Bool :=
      let ws := (s.chm c).selWords
      if shaftCode ws cl n = 4 then
        selectVal s v (shaftLevel s v col cl fuel) c cl (in0Code ws (8 * cl + n / 2)) (6 * (n / 2))
      else shaftDrives s v c cl n
    match !bit (s.col col).tripped (16 * cl + n), shaftOn s a cl n, shaftOn s b cl n with
    | true, true, false => drive a
    | true, false, true => drive b
    | _, _, _ => bit (s.col col).keepers (16 * cl + n)

/-- The shafts of a cluster of chamber c. -/
def shaftsAt (s : State) (v : Nets) (c cl : Nat) : Nat → Bool := shaftLevel s v (colOf c) cl 16

/-- Input INj of a cell (R89, Table Routing-2). -/
def inVal (s : State) (v : Nets) (c i j : Nat) : Bool :=
  let w := wordOf (s.chm c).selWords i
  let lo := match j with
    | 0 => 16
    | 1 => 22
    | 2 => 42
    | _ => 48
  selectVal s v (shaftsAt s v c (i / 8)) c (i / 8) (fld w lo 6) (12 * j + 6 * (i % 8))

/-- Multiplexer select line of cell k (R76): LUT bits 5:0, reaching as IN3. -/
def muxSel (s : State) (v : Nets) (c i : Nat) : Bool :=
  selectVal s v (shaftsAt s v c (i / 8)) c (i / 8) (fld (wordOf (s.chm c).selWords i) 0 6) (36 + 6 * (i % 8))

/-- The 32:1 result of a cluster (R76). -/
def mux32 (s : State) (v : Nets) (c cl : Nat) : Bool :=
  let sel := (List.range 5).foldl (fun a k => a + b2n (muxSel s v c (8 * cl + k)) <<< k) 0
  inVal s v c (8 * cl + sel / 4) (sel % 4)

/-- F of cell 0 of a multiplexer cluster: its own result, or as head the chosen member's (R77 to R79). -/
def muxF (s : State) (v : Nets) (c cl : Nat) : Bool :=
  let ws := (s.chm c).selWords
  if mchRole (clusterWord ws cl) = 2 then
    let pick := b2n (muxSel s v c (8 * cl + 5)) + 2 * b2n (muxSel s v c (8 * cl + 6))
    if pick = 0 then mux32 s v c cl
    else if cl < 16 * pick then false
    else
      let m := cl - 16 * pick
      let cw := clusterWord ws m
      if cmode cw = 2 ∧ mchRole cw = 1 then mux32 s v c m else false
  else mux32 s v c cl

/-- A quad function of a product-term block: cell i's LUT over the quad's four inputs (R72). -/
def quadFn (s : State) (v : Nets) (c cl q i : Nat) : Bool :=
  let x (n : Nat) : Nat := b2n (inVal s v c (8 * cl + n / 2) (n % 2))
  let idx := x (4 * q) + 2 * x (4 * q + 1) + 4 * x (4 * q + 2) + 8 * x (4 * q + 3)
  bit (wordOf (s.chm c).selWords (8 * cl + i)) idx

/-- A product term from its byte (R74, Table Cells-10). -/
def ptTerm (s : State) (v : Nets) (c cl byte : Nat) : Bool :=
  byte != 0 && (List.range 4).all fun q =>
    match (byte >>> (2 * q)) % 4 with
    | 0 => true
    | 1 => quadFn s v c cl q (2 * q)
    | 2 => quadFn s v c cl q (2 * q + 1)
    | _ => quadFn s v c cl q (2 * q) && quadFn s v c cl q (2 * q + 1)

/-- F of a macrocell (R75). -/
def ptF (s : State) (v : Nets) (c i : Nat) : Bool :=
  let w := wordOf (s.chm c).selWords i
  let t (n : Nat) : Bool := ptTerm s v c (i / 8) (fld w (44 + 8 * n) 8)
  let rest := t 1 || t 2 || t 3
  let sum := if bit w 43 then xor (t 0) rest else t 0 || rest
  xor sum (bit w 42)

/-- Carry input of a cell in an arithmetic mode (R55, R56). -/
def carryIn (s : State) (v : Nets) (c i : Nat) : Bool :=
  let ws := (s.chm c).selWords
  match fld (wordOf ws i) 54 2 with
  | 1 =>
    if i % 8 ≠ 0 then v.co.testBit (2048 * c + i - 1)
    else if i < 128 then false
    else if cmode (clusterWord ws (i / 8 - 16)) = 0 then v.co.testBit (2048 * c + (i - 128) + 7)
    else false
  | 3 => inVal s v c i 3
  | _ => false

/-- F and CO of a cell (R50, R55, R71, R72 to R79). -/
def cellOut (s : State) (v : Nets) (c i : Nat) : Bool × Bool :=
  let ws := (s.chm c).selWords
  let w := wordOf ws i
  match cmode (clusterWord ws (i / 8)) with
  | 1 => (ptF s v c i, false)
  | 2 => (i % 8 == 0 && muxF s v c (i / 8), false)
  | _ =>
    let x (j : Nat) : Nat := b2n (inVal s v c i j)
    let idx3 := x 0 + 2 * x 1 + 4 * x 2
    if fld w 54 2 = 0 then (bit w (idx3 + 8 * x 3), false)
    else
      let p := bit w idx3
      let ci := carryIn s v c i
      (xor p ci, if p then ci else bit w (8 + idx3))

/-- What a driver field puts on a short wire (R53, Tables Cells-3 and Routing-2). DRV4 does not exist in
product-term mode (R73). -/
def wireDrive (s : State) (v : Nets) (c i : Nat) (four : Bool) : Bool :=
  let ch := s.chm c
  let w := wordOf ch.selWords i
  let code := if four then (if cmode (clusterWord ch.selWords (i / 8)) = 1 then 0 else fld w 56 5) else fld w 34 5
  if code = 0 then false
  else if code = 1 then v.f.testBit (2048 * c + i)
  else if code = 2 then ch.q ch.sel i
  else if code = 3 then v.co.testBit (2048 * c + i)
  else arriving s v c (i / 8) ((code - 4 + 6 * (i % 8) + (if four then 24 else 0)) % 48)

/-- What the L16 field puts on the length-16 wire (Tables Cells-6 and Routing-2). -/
def l16Drive (s : State) (v : Nets) (c cl : Nat) : Bool :=
  let ch := s.chm c
  let code := (clusterWord ch.selWords cl >>> 18) % 64
  if code = 0 then false
  else if code < 0x09 then v.f.testBit (2048 * c + 8 * cl + (code - 1))
  else if code < 0x11 then ch.q ch.sel (8 * cl + (code - 0x09))
  else arriving s v c cl ((code - 0x11 + cl) % 48)

/-- The cells whose nets can differ from 0: those with a word in the selected stratum, and cell 0 of their clusters. -/
def liveCells (ws : ImageWords) : List Nat :=
  ws.foldl (fun l (i, _) => setAdd i (setAdd (8 * (i / 8)) l)) []

/-- Chambers that compute, with their live cells. -/
def State.liveChambers (s : State) : List (Nat × List Nat) :=
  s.fab.chambers.filterMap fun (c, ch) =>
    if computes (s.chmState c) then some (c, liveCells ch.selWords) else none

/-- Add a net to a set of ones. -/
def addOne (n : Nat) (b : Bool) (m : Nat) : Nat := if b then m ||| (1 <<< n) else m

/-- One round: every net from the values before. -/
def netRound (s : State) (live : List (Nat × List Nat)) (v : Nets) : Nets :=
  live.foldl (fun n (c, cells) =>
    cells.foldl (fun n i =>
      let (f, co) := cellOut s v c i
      let g := 2048 * c + i
      { f := addOne g f n.f, co := addOne g co n.co, w1 := addOne g (wireDrive s v c i false) n.w1,
        w4 := addOne g (wireDrive s v c i true) n.w4,
        wl := if i % 8 = 0 then addOne (256 * c + i / 8) (l16Drive s v c (i / 8)) n.wl else n.wl }) n) {}

/-- n rounds. -/
def netRounds (s : State) (live : List (Nat × List Nat)) : Nat → Nets → Nets
  | 0, v => v
  | n + 1, v => netRounds s live n (netRound s live v)

/-- Every live net at 1. -/
def allOnes (live : List (Nat × List Nat)) : Nets :=
  live.foldl (fun n (c, cells) =>
    cells.foldl (fun n i =>
      let g := 2048 * c + i
      { f := addOne g true n.f, co := addOne g true n.co, w1 := addOne g true n.w1, w4 := addOne g true n.w4,
        wl := addOne (256 * c + i / 8) true n.wl }) n) {}

/-- Each net where the two agree; elsewhere a free level. `base` keeps the five kinds of net apart. -/
def mergeNets (seed base a b : Nat) : Nat :=
  (List.range (a ^^^ b).size).foldl
    (fun m i => if (a ^^^ b).testBit i then addOne i (Config.freeNet seed (base + i)) m else m) (a &&& b)

/-- The nets as the present flip-flops and inputs give them (R47, R50 to R56, R69 to R79, R83 to R92, R773). -/
def State.nets (s : State) : Nets :=
  let live := s.liveChambers
  let rounds := 5 * live.foldl (fun a (_, l) => a + l.length) 0 + 1
  let a := netRounds s live rounds {}
  let b := netRounds s live rounds (allOnes live)
  let m := mergeNets s.seed
  { f := m 0 a.f b.f, co := m (2 ^ 21) a.co b.co, w1 := m (2 ^ 22) a.w1 b.w1, w4 := m (2 ^ 23) a.w4 b.w4,
    wl := m (2 ^ 24) a.wl b.wl }

/-- The value that border port `port` of chamber c is driven with (Table Routing-3). -/
def portDriven (v : Nets) (c port : Nat) : Bool :=
  let d := port / 128
  let i := (port % 128) / 8
  let sl := port % 8
  -- cluster at distance e inside the edge of the side facing d
  let at_ (e : Nat) : Nat := match d with
    | 0 => 16 * i + (15 - e)
    | 1 => 16 * (15 - e) + i
    | 2 => 16 * i + e
    | _ => 16 * e + i
  if sl < 2 then v.wire c (at_ 0) (d + 4 * sl) .one
  else if sl < 4 then v.wire c (at_ 3) (d + 4 * (sl - 2)) .four
  else [0, 1, 2, 3].any fun j =>
    let e := 4 * (sl - 4) + j
    let cl := at_ e
    (cl % 16 + cl / 16) % 4 == d && v.wire c cl 0 .sixteen

/-- The driven values of all border ports of a chamber. -/
def portValues (v : Nets) (c : Nat) : BitVec 512 :=
  if v.w1 = 0 ∧ v.w4 = 0 ∧ v.wl = 0 then 0 else ofBits 512 ((List.range 512).filter (portDriven v c))

/-- Clock enable and set/reset line of a cluster (R57, Table Cells-6). -/
def ctlVal (s : State) (v : Nets) (c cl : Nat) (sr : Bool) : Bool :=
  let cw := clusterWord (s.chm c).selWords cl
  let code := (cw >>> (if sr then 10 else 4)) % 64
  selectVal s v (shaftsAt s v c cl) c cl code (if sr then 24 else 0)

/-- Global clock of chamber clock j in a stratum, if enabled (R129, Table Strata-1). -/
def clkSel (ws : ImageWords) (j : Nat) : Option Nat :=
  let x := chw ws (1024 + 6 * j) 6
  if 32 ≤ x then some (x % 32) else none

/-- Cell i has a flip-flop that can load under these words: its word is not zero, it is no cell 1 to 7 of a multiplexer
cluster, its chamber clock is enabled (R58, R81, R129). -/
def canLoad (ws : ImageWords) (i : Nat) : Bool :=
  let w := wordOf ws i
  w != 0 && !(cmode (clusterWord ws (i / 8)) == 2 && i % 8 != 0) && (clkSel ws (fld w 30 2)).isSome

/-- What flip-flop i of the selected stratum loads at an edge of global clock g, if it loads (R57, R58, R81, R129). -/
def ffLoad (s : State) (v : Nets) (c g i : Nat) : Option Bool :=
  let ws := (s.chm c).selWords
  let w := wordOf ws i
  let cw := clusterWord ws (i / 8)
  if w = 0 then none
  else if cmode cw = 2 ∧ i % 8 ≠ 0 then none
  else if clkSel ws (fld w 30 2) ≠ some g then none
  else if bit w 28 && ctlVal s v c (i / 8) true then some (cw.testBit 16)
  else if bit w 29 && !ctlVal s v c (i / 8) false then none
  else some (v.f.testBit (2048 * c + i))

/-- The flip-flops of a chamber after an edge of global clock g, from the state and the nets before it (R57 to R62):
the shared one where the word has SHR = 1, else the private one of the selected stratum. -/
def loadFfs (s : State) (v : Nets) (c g : Nat) (ch : Chamber) : Chamber :=
  (ch.selWords).foldl (fun ch (i, w) =>
    match ffLoad s v c g i with
    | none => ch
    | some b =>
      if bit w 33 then { ch with shared := putBit ch.shared i b }
      else ch.modStrat ch.sel fun st => { st with ffs := putBit st.ffs i b }) ch

/-- Every keeper takes the level its shaft carries with nets v (R93). Done before any driver is turned off. -/
def settleKeepers (v : Nets) (s : State) : State :=
  let cols := s.fab.chambers.foldl (fun l (c, ch) =>
    if s.chmState c == 1 && ch.selWords.any (fun (i, _) => shaftCode ch.selWords (i / 8) (2 * (i % 8)) != 0
      || shaftCode ch.selWords (i / 8) (2 * (i % 8) + 1) != 0) then setAdd (colOf c) l else l) []
  forEach cols (fun n s =>
    let cls := ((s.chm n).selWords ++ (s.chm (n + 256)).selWords).foldl (fun l (i, _) => setAdd (i / 8) l) []
    let lv := cls.foldl (fun k cl => (List.range 16).foldl
      (fun k j => putBit k (16 * cl + j) (shaftLevel s v n cl 16 j)) k) (s.col n).keepers
    s.modCol n fun x => { x with keepers := lv }) s

/-- The shafts whose driver chamber c enables, as a set of 16 cluster + shaft (R94). -/
def shaftsOn (s : State) (c : Nat) : BitVec 4096 :=
  let ws := (s.chm c).selWords
  if s.chmState c = 1 then
    ws.foldl (fun m (i, _) => [2 * (i % 8), 2 * (i % 8) + 1].foldl (fun m n =>
      if shaftCode ws (i / 8) n = 0 then m else putBit m (16 * (i / 8) + n) true) m) 0
  else 0

/-- Every contention detector looks at the effective enables: it trips when both drivers are on and rearms when neither
is (R97). -/
def watchShafts (s : State) : State :=
  let cols := s.fab.chambers.foldl (fun l p => setAdd (colOf p.1) l) []
  forEach cols (fun n s =>
    let a := shaftsOn s n
    let b := shaftsOn s (n + 256)
    let t := (s.col n).tripped
    let t' := (a &&& b) ||| (t &&& (a ||| b))
    if t' = t then s else s.modCol n fun x => { x with tripped := t' }) s

/-- The values that the border ports of chamber c show: driven, or what stands in their place (R90, R174). -/
def portsShown (s : State) (v : Nets) (c : Nat) : BitVec 512 :=
  if s.chmState c = 1 then portValues v c
  else ofBits 512 ((List.range 512).filter fun p => (s.portShows c p).getD false)

end Sys2Proof.Machine
end

