-- ==== Sys2Proof/Machine/PinOps.lean ====
section
/-! DEFINITION. Fabric I/O pins: which pin a slot reaches, who owns it, when its output enable is held at 0
(19_pins.md, R718 to R728; R133, R148, R227). Fabric I/O pin i = 48k + j is pin j of bank k. -/

namespace Sys2Proof.Machine

/-- PIN_IOi. -/
def ioReg (i : Nat) : Nat := 0xE_1000 + 4 * i
/-- The pin that slot k of the chambers of column n reaches (R718). -/
def pinOf (n k : Nat) : Nat := (3 * n + k) % 768
/-- Column n reaches pin i (R718). -/
def reachesPin (n i : Nat) : Bool := (List.range 8).any fun k => pinOf n k == i

/-- A standard is allowed for input, for output, at a bank supply (Tables Pins-5 and Pins-6). -/
def stdIn (std vdet : Nat) : Bool :=
  match std with
  | 0 => decide (1 ≤ vdet) && decide (vdet ≤ 5)
  | 1 => vdet == 3 || vdet == 4
  | 2 => vdet == 1 || vdet == 3
  | 3 => vdet == 1 || vdet == 2 || vdet == 3
  | _ => false
/-- A standard is allowed for output at a bank supply (Table Pins-6). -/
def stdOut (std vdet : Nat) : Bool :=
  match std with
  | 0 => decide (1 ≤ vdet) && decide (vdet ≤ 5)
  | 1 => vdet == 3 || vdet == 4
  | 2 => vdet == 1 || vdet == 3
  | 3 => vdet == 3
  | _ => false

/-- VDET of bank k. -/
def State.vdet (s : State) (k : Nat) : Nat := (tabGet 0 s.pin.vdet k).toNat

/-- PIN_BANKk. -/
def bankReg (k : Nat) : Nat := 0xE_0200 + 4 * k

/-- Pin i belongs to a D-PHY port of a bank with DPHY = 1 (R729). -/
def dphyPin (s : State) (i : Nat) : Bool :=
  decide (i / 48 < 8) && decide (i % 48 % 12 < 10) && s.regB (bankReg (i / 48)) 26

/-- STD in force on pin i: D-PHY on a port pin (R729), else an odd pin's register reads the even pin's when that is
differential (R723). -/
def pinStd (s : State) (i : Nat) : Nat :=
  let own := s.regF (ioReg i) 18 4
  let even := s.regF (ioReg (i - 1)) 18 4
  if dphyPin s i then 4 else if i % 2 = 1 ∧ even ≠ 0 then even else own

/-- Another pin of the bank names pin i as its ALT (R727). -/
def namedAlt (s : State) (i : Nat) : Bool :=
  (List.range 48).any fun j =>
    let r := ioReg (48 * (i / 48) + j)
    s.regF r 10 2 != 0 && s.regF r 0 6 == i % 48

/-- The odd pin of a differential pair, which carries no fabric signal of its own (R723). -/
def pinSlave (s : State) (i : Nat) : Bool := i % 2 == 1 && s.regF (ioReg (i - 1)) 18 4 != 0

/-- The chamber named as the pin's owner (R719). -/
def pinOwner (s : State) (i : Nat) : Option Nat :=
  if s.regB (ioReg i) 31 then some (256 * s.regF (ioReg i) 30 1 + s.regF (ioReg i) 22 8) else none

/-- The output enable is held at 0 by the pin's own settings: no owner, INONLY, a standard allowed for input only (R719,
R721). -/
def pinInOnly (s : State) (i : Nat) : Bool :=
  (pinOwner s i).isNone || s.regB (ioReg i) 13 ||
    (stdIn (pinStd s i) (s.vdet (i / 48)) && !stdOut (pinStd s i) (s.vdet (i / 48)))

/-- The output enable is held at 0: by the pin's own settings, by a standard that its bank does not allow or a changed
bank supply (R724), or because another pin names it as ALT (R727). -/
def pinHeldOff (s : State) (i : Nat) : Bool :=
  pinInOnly s i || !stdOut (pinStd s i) (s.vdet (i / 48)) || bit s.pin.vfault (i / 48) || namedAlt s i

/-- The owner whose pins chamber c loads: the primary's in a lockstep column, through the good chamber of a degraded
one (R226, R227, R242); none for a chamber that drives no pin. -/
def pinActsFor (s : State) (c : Nat) : Option Nat :=
  match (s.col (colOf c)).lock with
  | .off | .staged => some c
  | .degradedB => if c < 256 then none else some (colOf c)
  | _ => if c < 256 then some c else none

/-- Every output driver of the device is off: after a rail loss (R760), or while HIGHZ holds the pins (Table Pins-12,
R748). -/
def outputsOff (s : State) : Bool := s.lys.driversOff || (s.pin.scanHolds && s.pin.jtagIr == 0x03)

/-- The output driver of pin i is disabled as a whole: with all others, in SILENT (R608, Table Lysata-1), or on a paired
bank of a shadow (Table Twin-1). -/
def driverDisabled (s : State) (i : Nat) : Bool :=
  outputsOff s || s.lys.silent || (bit s.cfg.mode 2 && s.twn.pstate == 4) || (s.twn.role == 2 && bit s.twn.pins (i / 48))

/-- The chamber that drives the pins of owner o: the good chamber of a degraded column (R226, R242), and none for the
checker's own slots in a lockstep column, whose enables are forced to 0 (R227). -/
def pinDriver (s : State) (o : Nat) : Option Nat :=
  match (s.col (colOf o)).lock with
  | .off | .staged => some o
  | .degradedB => if o < 256 then some (o + 256) else none
  | _ => if o < 256 then some o else none

/-- The enable of pin i as it drives: the output register, forced to 0 while the selected stratum of the chamber that
drives it is quarantined with class OUT or BIDIR (R133) and in the turnaround cycle (R148). -/
def pinEnable (s : State) (i : Nat) : Bool :=
  bit s.pin.oe i && !pinHeldOff s i && !driverDisabled s i &&
    match (pinOwner s i).bind (pinDriver s) with
    | none => false
    | some c =>
      let ch := s.chm c
      (List.range 8).all fun k => pinOf (colOf c) k != i ||
        (!bit ch.turn k && !((ch.strat ch.sel).quar && decide (2 ≤ pinClass ch.selWords k)))

/-- Pin slots that chamber c changes direction on at a switch from stratum u to stratum v (R147). Out of a VACANT chamber
the class under u is that of the words which u still holds (log 101); the output enable at edge E is the one that E's own
load under u leaves (log 109). -/
def turnSlots (s : State) (c u v : Nat) : BitVec 8 :=
  let ch := s.chm c
  ofBits 8 ((List.range 8).filter fun k =>
    let cu := pinClass (ch.strat u).words k
    let cv := pinClass (ch.strat v).words k
    (bit s.pin.oe (pinOf (colOf c) k) && cv == 1) || (cu == 1 && decide (2 ≤ cv)))

/-- The same at an entry into RUN with stratum v (R774). -/
def turnSlotsRun (s : State) (c v : Nat) : BitVec 8 :=
  let ch := s.chm c
  ofBits 8 ((List.range 8).filter fun k =>
    let cv := pinClass (ch.strat v).words k
    let oe := bit s.pin.oe (pinOf (colOf c) k)
    (oe && cv == 1) || (!oe && decide (2 ≤ cv)))

/-- Hold the output enable of the chamber's own pins in these slots at 0 for the turnaround cycle (R148). The
register of a pin whose new class is IN loads nothing afterwards, so it stays at 0 (log 10). -/
def holdTurn (c : Nat) (mask : BitVec 8) (s : State) : State :=
  let pins := (bitsOf mask).filterMap fun k =>
    let i := pinOf (colOf c) k
    if pinOwner s i = pinActsFor s c then some i else none
  let s := s.modPin fun p => { p with oe := pins.foldl (fun v i => putBit v i false) p.oe }
  s.modChm c fun ch => { ch with turn := mask }

/-- One pin's output register at an edge of its owner's switch clock (R719, R722). What the user logic puts on the
slot is not part of any rule (no rule connects a cell to a pin slot): value and enable are free values (log 11). -/
def loadPin (c i : Nat) (s : State) : State :=
  let s' := s.fresh.modPin fun p =>
    { p with outv := putBit p.outv i (Config.freeBool (2 * s.seed)),
             oe := putBit p.oe i (!pinHeldOff s i && Config.freeBool (2 * s.seed + 1)) }
  if pinInOnly s i && !s.pin.heldTold.contains i then
    raise 0x0E0C [i, c] (s'.modPin fun p => { p with heldTold := setAdd i p.heldTold })
  else s'

/-- The pin output registers that chamber c loads at an edge of its switch clock, under its selected stratum in RUN
(R719); FIO in reset loads nothing (R725). The turnaround cycle of the switch before ends here (R148). -/
def pinEdge (c : Nat) (s : State) : State :=
  let ch := s.chm c
  let s := if s.chmState c = 1 ∧ !s.inReset 4 then
    (match pinActsFor s c with
     | none => s
     | some o => forEach (List.range 8) (fun k s =>
         let i := pinOf (colOf c) k
         if 2 ≤ pinClass ch.selWords k ∧ pinOwner s i = some o ∧ !pinSlave s i then loadPin o i s else s) s)
    else s
  if ch.turn = 0 then s else s.modChm c fun ch => { ch with turn := 0 }

end Sys2Proof.Machine
end

