-- ==== Sys2Proof/Machine/Strata.lean ====
section
/-! DEFINITION. The operations of chambers and strata (chapter 04) that its commands and other chapters share: an edge
of the switch clock, a switch, quarantine, hold, release, schedules, groups. -/

namespace Sys2Proof.Machine

/-- End a descriptor of queue q with a status and a result; its completion is written later (R343). -/
def endDesc (q id status result : Nat) (s : State) : State :=
  let upd (d : Desc) : Desc :=
    if d.id = id ∧ d.ended.isNone then 
      { d with ended := some (status, result), buf := [], lens := [], remq := [], parts := [], hbuf := [], yielded := false }
    else d
  s.modQu q fun x => { x with context := x.context.map upd }

/-- End the descriptor that issued a command, if one did. -/
def endIssuer (d : Option (Nat × Nat)) (status result : Nat) (s : State) : State :=
  match d with
  | none => s
  | some (q, id) => endDesc q id status result s

/-- The column is in lockstep and both chambers switch together (R229): from entry until it is degraded or leaves. -/
def lockPair : LockState → Bool
  | .comparing | .diagnosing | .silent => true
  | _ => false

/-- The chamber whose CHM_CTRL, CHM_GMASK, CHM_GTGT and schedule govern chamber c (R229, R243). -/
def State.gov (s : State) (c : Nat) : Nat :=
  match (s.col (colOf c)).lock with
  | .off | .staged => c
  | _ => colOf c

/-- The chambers on which a command to chamber c acts (R229, R243). -/
def State.acting (s : State) (c : Nat) : List Nat :=
  match (s.col (colOf c)).lock with
  | .off | .staged => [c]
  | .degradedA => [colOf c]
  | .degradedB => [colOf c + 256]
  | _ => [colOf c, colOf c + 256]

/-- Chamber c leaves RUN after the cycle whose state and nets are `b` and `v`: its hold-last ports keep what they
carried in that cycle (Table Strata-2). -/
def leaveRun (b : State) (v : Nets) (c : Nat) (s : State) : State :=
  if b.chmState c = 1 then s.modChm c fun ch => { ch with portHold := portValues v c } else s

/-- Deliver the oldest parked response of the active stratum of a chamber in RUN: one in each cycle, in issue order
(R139, R141). -/
def deliverParked (c : Nat) (s : State) : State :=
  if s.chmState c = 1 then
    match (s.strat c (s.chm c).sel).parked with
    | [] => s
    | r :: rest => (s.modStrat c (s.chm c).sel fun st => { st with parked := rest }).send (.portData c r)
  else s

/-- Discard a stratum's parked responses (R144). -/
def discardParked (c k : Nat) (s : State) : State :=
  let n := (s.strat c k).parked.length
  if n = 0 then s
  else raise 0x0309 [c, k, n] (s.modStrat c k fun st => { st with parked := [] })

/-- Latch the fence register from stratum k (R175). -/
def latchFence (c k : Nat) (s : State) : State :=
  s.modChm c fun ch => { ch with fence := fenceOf (ch.strat k).words, fenceBad := false }

/-- The fence code constant 0 on every port (R175). -/
def fenceZero : BitVec 1024 := ofBits 1024 ((List.range 512).map fun p => 2 * p)

/-- A chamber has entered RUN otherwise than by a switch: its pins turn around (R774). -/
def enterRun (c : Nat) (s : State) : State :=
  if s.chmState c = 1 then holdTurn c (turnSlotsRun s c (s.chm c).sel) s else s

/-- The chamber whose state decides for the chambers that g governs: the good one of a degraded column (R243). -/
def State.lead (s : State) (g : Nat) : Nat := (s.acting g).headD g

/-- What an edge of its switch clock does to chamber c once its flip-flops have loaded: pin output registers load, the
slice of a comparing column advances (R62, R234). -/
def edgeCounts (c : Nat) (s : State) : State :=
  let s := if s.chmState c = 1 then pinEdge c s else s
  if lockPair (s.col (colOf c)).lock ∧ c < 256 then s.modCol (colOf c) fun x => { x with slice := x.slice + 1 } else s

/-- The schedule of chamber g stops (R160); reason 1 END, 2 COMMAND, 3 GROUP, 4 WRITE, 5 RESET. -/
def stopSchedule (g reason : Nat) (s : State) : State :=
  let ch := s.chm g
  if ch.schedRun then
    raise 0x0306 [g, ch.entry, reason]
      ((s.modChm g fun x => { x with schedRun := false }).setRegF (chmReg g 0x04) 31 1 0)
  else s

/-- A stratum switch of one chamber at edge E, after everything has loaded under the old stratum (R134, R136, R137,
R147 to R149, R174 to R176, R774). `b` and `v` are the state and the nets of cycle E, `t` is the declared turnaround,
`rank` the source's rank in Table Strata-6. -/
def switchTo (b : State) (v : Nets) (c k : Nat) (t : Bool) (rank : Nat) (s : State) : State :=
  let u := (s.chm c).sel
  if k = u then s
  else
    let st := s.strat c k
    let mask := turnSlots s c u k
    let s := if st.loaded && !st.quar then s else leaveRun b v c s
    let s := s.modChm c fun x => { x with sel := k, swcnt := x.swcnt.add 1, lastsw := s.now, entering := 0 }
    if st.loaded then
      let s := latchFence c k s
      let s := if mask = 0 then s else holdTurn c mask s
      if mask ≠ 0 ∧ !t then raise 0x0307 [c, mask.toNat] s else s
    else raise 0x0302 [c, k, rank] s

/-- Mark stratum k of chamber c quarantined (R183), after the cycle whose state and nets are `b` and `v`; cause 1
contention, 2 integrity, 3 lockstep. -/
def quarantineOne (b : State) (v : Nets) (c k cause : Nat) (s : State) : State :=
  if (s.strat c k).quar then s
  else
    let s := if (s.chm c).sel = k then leaveRun b v c s else s
    raise 0x0303 [c, k, cause] (s.modStrat c k fun st => { st with quar := true })

/-- Quarantine a stratum now, in both chambers of a comparing column (R230). -/
def quarantine (c k cause : Nat) (s : State) : State :=
  let v := s.nets
  let q (c : Nat) (t : State) : State := quarantineOne s v c k cause t
  let t := settleKeepers v s
  watchShafts (if lockPair (s.col (colOf c)).lock then q (colOf c + 256) (q (colOf c) t) else q c t)

/-- Stratum k of chamber c is to be quarantined at the next edge of its switch clock (R98, R236). -/
def quarantineAtEdge (c k cause : Nat) (s : State) : State :=
  s.modChm c fun ch => { ch with quarDue := ch.quarDue ++ [(k, cause)] }

/-- A HOLD takes effect on one chamber, after the cycle whose state and nets are `b` and `v`; hsrc is the hold source
of Table Strata-9 (R167, R775). -/
def holdChamber (b : State) (v : Nets) (c hsrc : Nat) (s : State) : State :=
  let st := s.chmState c
  if st = 0 ∨ st = 6 then s
  else if (st = 4 ∨ st = 5) ∧ (hsrc = 1 ∨ hsrc = 2) then s
  else raise 0x0304 [c, hsrc] ((leaveRun b v c s).modChm c fun ch => { ch with hsrc := hsrc })

/-- The strata that were loaded at a repair hold and have not been refilled since (R170). -/
def notRefilled (ch : Chamber) : List Nat := (List.range 4).filter fun k => (ch.strat k).needRefill

/-- A repair hold has taken effect: what is loaded must be refilled before the chamber resumes (R170). -/
def markRefills (c : Nat) (s : State) : State :=
  s.modChm c fun ch => { ch with strata := ch.strata.foldl (fun t p =>
    tabSet {} t p.1 { p.2 with needRefill := p.2.loaded }) ch.strata }

/-- A RELEASE takes effect at edge E: the pending stratum becomes selected without any flip-flop loading, the switch
clock written meanwhile comes into use (R169, R170, R175, R176, Table Strata-10). -/
def releaseChamber (c rank : Nat) (s : State) : State :=
  let ch := s.chm c
  if s.chmState c ≠ 4 then s
  else if ch.hsrc = 3 ∧ notRefilled ch ≠ [] then
    raise 0x030B [c, (ofBits 4 (notRefilled ch)).toNat] s
  else
    let clk := s.regF (chmReg (s.gov c) 0x04) 0 5
    let sel := ch.pend.getD ch.sel
    let s := s.modChm c fun x => { x with hsrc := 0, pend := none, sel := sel, swclkUse := clk }
    let s := if ch.pend.isSome then
        (if (s.strat c sel).loaded then latchFence c sel s else raise 0x0302 [c, sel, rank] s)
      else s
    let s := raise 0x0305 [c, sel] s
    let s := if c < 256 then s.modCol (colOf c) fun x => { x with slice := 0, digests := [] } else s
    enterRun c s

/-- Command and group delay in cycles (Table Strata-24). -/
def cmdDelay (s : State) : Nat := max 4 (s.regF 0x2_0004 0 8)

/-- A chamber command is accepted: kept until its edge, in place of an earlier one (R158, R159, R438); in a lockstep
column it is the column's (R229). -/
def acceptCmd (c op stratum : Nat) (t : Bool) (desc : Option (Nat × Nat)) (s : State) : State :=
  let g := s.gov c
  let s := match (s.chm g).cmd with
    | none => s
    | some old => endIssuer old.desc 0x0C 1 (raise 0x030A [c, 1] s)
  s.modChm g fun x => { x with cmd := some { op, stratum, t, desc, wait := cmdDelay s } }

/-- The fabric clocks run: in P1 to P5 they are gated, so that no edge comes (Table Lysata-5). -/
def clocksRun (s : State) : Bool := s.pstate == 0

/-- The command of a chamber that the next edge of its switch clock serves (R158). -/
def dueCmd (s : State) (g : Nat) : Option ChmCmd :=
  match (s.chm g).cmd with
  | some d => if d.wait = 0 then some d else none
  | none => none

/-- The command has taken effect: its descriptor ends with OK, that of a RELEASE which R170 discards too (log 109). -/
def clearCmd (g : Nat) (d : ChmCmd) (s : State) : State :=
  endIssuer d.desc 0 0 (s.modChm g fun x => { x with cmd := none })

/-- Fields of a schedule entry (Table Strata-16). -/
def schedEntry (s : State) (g e : Nat) : Word := tabGet 0 (s.chm g).sched e

/-- Entry e of the schedule of chamber g becomes current at an edge whose loads are done (R151, R152, R154). -/
def entryCurrent (b : State) (v : Nets) (g e : Nat) (s : State) : State :=
  let w := schedEntry s g e
  let s := s.modChm g fun x => { x with schedArmed := false, schedRun := true, entry := e }
  if !bit w 31 then stopSchedule g 1 s
  else
    let s := s.modChm g fun x => { x with remain := fld w 0 22, nextEntry := fld w 22 6 }
    forEach (s.acting g) (fun c s => switchTo b v c (fld w 28 2) (bit w 30) 5 s) s

/-- The chamber's schedule moves: it is in RUN, VACANT or QUARANTINED (R153). -/
def schedMoves (s : State) (g : Nat) : Bool :=
  let st := s.chmState (s.lead g)
  st == 1 || st == 2 || st == 3

/-- The schedule of chamber g makes an entry current at this edge of its switch clock: SSTART, or NEXT at the dwell's
end (R150, R151). -/
def entryDue (s : State) (g : Nat) : Option Nat :=
  let ch := s.chm g
  if !schedMoves s g then none
  else if ch.schedArmed && ch.schedWait == 0 then some (s.regF (chmReg g 0x04) 25 6)
  else if ch.schedRun && ch.remain == 0 then some ch.nextEntry
  else none

/-- The trigger cell of the active stratum (Table Strata-1). -/
def trigCell (ws : ImageWords) : Nat := chw ws 1051 11
/-- TRIG_EN of the chamber word (Table Strata-1). -/
def trigEnabled (ws : ImageWords) : Bool := chw ws 1050 1 == 1

/-- Groups whose trigger source is chamber c (R157). -/
def trigGroups (s : State) (c : Nat) : List Nat :=
  (List.range 16).filter fun g =>
    let r := s.reg (grpReg g 0)
    bit r 31 && bit r 29 && fld r 16 9 == c

/-- A group fire is accepted: it replaces one not yet effective (R162, R165). -/
def acceptFire (g op : Nat) (desc : Option (Nat × Nat)) (s : State) : State :=
  if s.regB (grpReg g 0) 31 then
    let s := match (s.grp g).fire with
      | some (_, d) => endIssuer d 0x0C 1 s
      | none => s
    s.modGrp g fun x => { x with fire := some (op, desc), fireWait := cmdDelay s }
  else endIssuer desc 0x0C 4 s

/-- Chambers whose governing CHM_GMASK makes them members of group g, one per column in lockstep (R161, R229). -/
def groupMembers (s : State) (g : Nat) : List Nat :=
  (List.range 512).filter fun c => s.gov c == c && s.regB (chmReg c 0x0C) g

/-- A device action of rank 1 is due on chamber c at the next edge of its switch clock: a quarantine or a hold. -/
def deviceDue (s : State) (c : Nat) : Bool := (s.chm c).quarDue != [] || (s.chm c).holdDue != 0

/-- A HOLD or RELEASE meets a device action on the chambers that c governs: of the lower sources only a switch takes effect
as well (R166, Table Strata-6). -/
def overruled (s : State) (op c : Nat) : Bool := op != 1 && (s.acting c).any (deviceDue s)

/-- Why a fire skips a member, apart from a lower group (R164): 1 clock, 2 state; the clock comes first (log 109), and a
HOLD or RELEASE that a device action overrules is skipped for the state (log 102). -/
def skipReason (s : State) (g op c : Nat) : Option Nat :=
  let st := s.chmState (s.lead c)
  if (s.chm (s.lead c)).swclkUse ≠ s.regF (grpReg g 0) 0 5 then some 1
  else if (op = 1 ∧ (st = 4 ∨ st = 5 ∨ st = 6 ∨ st = 0)) ∨ overruled s op c then some 2
  else none

/-- A device hold of every chamber at the next edge of its switch clock, with hold source Command (R631, R167). -/
def holdAll (s : State) : State :=
  forEach (s.fab.chambers.map (·.1)) (fun c s =>
    s.modChm c fun ch => if ch.holdDue = 0 then { ch with holdDue := 1 } else ch) s

end Sys2Proof.Machine
end

