-- ==== Sys2Proof/Machine/Safe.lean ====
section
/-! DEFINITION. Failing silent (R608), the detected device fault (R631), changes of pair state, the loss of the twin
partner (R619) and the end of a rejoin that fails (R623). -/

namespace Sys2Proof.Machine

/-- Change role and pair state; a change of pair state sends TWN_CTRL.VEC while IRQEN = 1 (Table Twin-13). -/
def setPair (role pst : Nat) (s : State) : State :=
  let old := s.twn.pstate
  let s := s.modTwn fun t => { t with role := role, pstate := pst }
  if old ≠ pst ∧ s.regB 0xC_0004 31 then sendMsix (s.regF 0xC_0004 0 9) s else s

/-- What R608 and the SILENT fault action share: host requests stop with `masters`, drivers with `driverDisabled`, and
the non-twin bundles turn off. -/
def bundlesOff (s : State) : State :=
  forEach (List.range 8) (fun b s => if s.twinBundle b then s else bundleOff b s) s

/-- Send on the twin link what Table Twin-5 and R608 name (kinds: see Out.twin). -/
def sendTwin (kind : Nat) (bytes : List Byte) (s : State) : State := s.when s.twinUp fun s => s.send (.twin kind bytes)

/-- Fail silent with a cause of Table Twin-6 (R608, R591 to R593). A PAIR_FAIL that the device has driven goes high. -/
def failSilent (cause : Nat) (s : State) : State :=
  if !s.twinStart || s.twn.pstate == 4 then s
  else
    let before := s.twn.role
    let s := sendTwin 5 [] s
    let s := s.when (before == 1) fun s => s.send (.twin 9 [])
    let s := s.modTwn fun t => { t with fscause := cause, failDrive := none, failin := t.failin || before == 1, leadLow := false, hbRun := false,
                                        checking := false, phase := 0, lines := 0 }
    let s := bundlesOff (setPair 0 4 s)
    raise 0x0C03 [cause, before, s.now] s

/-- A detected device fault (R631): 0x0D0C with the causing event and the action taken. -/
def deviceFault (code : Nat) (s : State) : State :=
  let act := if s.twinStart then 3 else s.regF 0x1_0004 30 2
  let s := raise 0x0D0C [code, act] (s.modLys fun l => { l with devfault := true })
  match act with
  | 1 => holdAll s
  | 2 => bundlesOff (s.modLys fun l => { l with silent := true })
  | 3 => failSilent 3 s
  | _ => s

/-- Writes that wait for the shadow's acknowledgement are issued, and the messages that follow them sent (R351, R613). -/
def sendHeld (p : CommitRec → Bool) (s : State) : State :=
  let s := forEach (s.twn.held.filter p) (fun r s =>
    if r.kind = 4 then sendMsix r.addr s else s.send (.hostWrite r.kind r.queue r.addr r.bytes)) s
  s.modTwn fun t => { t with held := t.held.filter fun r => !p r }

/-- A PAIRED lead loses its partner: SOLO in ALONE with 0x0C09; cause 1 FAILSILENT, 2 heartbeat, 3 bundles, 4 sync
(R619). It goes on driving; PAIR_FAIL becomes high-impedance and its pull-up takes it high (R591), PAIR_LEAD stays low (R593). Writes wait for no
acknowledgement any more. -/
def goAlone (cause : Nat) (s : State) : State :=
  let s := sendHeld (fun _ => true) (sendTwin 6 [] s)
  raise 0x0C09 [cause] (setPair 0 3 (s.modTwn fun t => { t with failDrive := none, failin := true, leadLow := true, hbRun := false }))

/-- The survivor's chambers, held at its barrier, are released (R622, R623). -/
def releaseBarrier (s : State) : State :=
  if s.twn.heldAtBarrier then
    forEach (s.fab.chambers.map (·.1)) (fun c s => if (s.chm c).hsrc = 1 then releaseChamber c 1 s else s)
      (s.modTwn fun t => { t with heldAtBarrier := false })
  else s

/-- A rejoin ends without success: the survivor stays ALONE (R623). -/
def abandonRejoin (micros : Nat) (s : State) : State :=
  if s.twn.pstate ≠ 5 then s
  else
    let phase := s.twn.phase
    raise 0x0C0B [phase, micros, 1] (setPair 0 3 ((releaseBarrier s).modTwn fun t => { t with phase := 0, lines := 0 }))

/-- The twin bundles or the partner are gone (R619). When PAIR_FAIL is high a shadow takes over instead (R610); a survivor
abandons its rejoin (R623). -/
def partnerLost (cause : Nat) (s : State) : State :=
  if s.twn.role = 1 then goAlone cause s
  else if s.twn.role = 2 ∧ !s.twn.failin then failSilent 8 s
  else if s.twn.role = 2 then s
  else abandonRejoin s.twn.barrierHold s

end Sys2Proof.Machine
end

