-- ==== Sys2Proof/Machine/Library.lean ====
section
/-! DEFINITION. The context library, the refill engine (05_library.md), the signature checker (12_integrity.md) and tier
lockstep (06_tier_lockstep.md): they act on each other's state. A request's start and its end are commands of their own;
the rows of a refill land in the step that ends it (log 15). -/

namespace Sys2Proof.Machine

/-- Row r of an image: bit i is bit r of cell i's word (R80). -/
def imageRow (ws : ImageWords) (r : Nat) : BitVec 2048 :=
  ws.foldl (fun v p => if bit p.2 r then putBit v p.1 true else v) 0

/-- Row signature: CRC-32C over the row's 256 bytes (R485, R446). -/
def rowSig (ws : ImageWords) (r : Nat) : Word := crc32c (leBytes 256 (imageRow ws r).toNat)

/-- The golden record of an image: row signatures and the image signature over them (R485). -/
def goldenOf (ws : ImageWords) : List Word × Word :=
  let rows := (List.range 80).map (rowSig ws)
  (rows, crc32c (rows.flatMap fun w => leBytes 4 w.toNat))

/-- An image with the bits of row r at these cells inverted. -/
def flipRow (ws : ImageWords) (r : Nat) (cells : List Nat) : ImageWords :=
  cells.foldl (fun t i => tabMod 0 t i fun w => w ^^^ BitVec.ofNat 80 (1 <<< r)) ws

/-- An image with rows taken from another one. -/
def copyRows (ws src : ImageWords) (rows : List Nat) : ImageWords :=
  let m := rows.foldl (fun (v : BitVec 80) r => putBit v r true) 0
  let cells := (ws.map (·.1)) ++ src.map (·.1)
  cells.foldl (fun t i => tabSet 0 t i ((wordOf ws i &&& ~~~m) ||| (wordOf src i &&& m))) ws

/-- Cells whose word has a bit set. -/
def bitMask (ws : ImageWords) (j : Nat) : BitVec 2048 :=
  ws.foldl (fun v p => if bit p.2 j then putBit v p.1 true else v) 0
/-- Cells with SHR = 1. -/
def shrMask (ws : ImageWords) : BitVec 2048 := bitMask ws 33
/-- INIT bits. -/
def initBits (ws : ImageWords) : BitVec 2048 := bitMask ws 32

/-- The cell state bits of a stratum (R59); the private ones of a stratum that is not loaded read 0 (R68). -/
def Chamber.stateBits (ch : Chamber) (k : Nat) : BitVec 2048 :=
  let st := ch.strat k
  let m := shrMask st.words
  ((if st.loaded then st.ffs else 0) &&& ~~~m) ||| (ch.shared &&& m)

/-- The stratum is active (R132). -/
def State.isActive (s : State) (c k : Nat) : Bool :=
  let st := s.chmState c
  let ch := s.chm c
  ch.sel == k && (st == 1 || st == 5 || (st == 4 && ch.hsrc != 3))

/-- Write a stratum's cell state bits (R214). A shared flip-flop that the active stratum uses is written only when that
stratum is itself the target (R63, log 90). -/
def restoreBits (c k : Nat) (v : BitVec 2048) (s : State) : State :=
  let ch := s.chm c
  let m := shrMask (ch.strat k).words
  let used := if s.isActive c ch.sel ∧ ch.sel ≠ k then shrMask (ch.strat ch.sel).words else 0
  let w := m &&& ~~~used
  s.modChm c fun ch =>
    { (ch.modStrat k fun st => { st with ffs := (st.ffs &&& m) ||| (v &&& ~~~m) }) with
      shared := (ch.shared &&& ~~~w) ||| (v &&& w) }

/-- The words of stratum k of chamber c change outside an edge. While it is active its shafts may lose a driver, so that
every keeper first takes the level its shaft carries, and the contention detectors look at the new enables (R93, R97). -/
def rewords (c k : Nat) (f : ImageWords → ImageWords) (s : State) : State :=
  let put (s : State) : State := s.modStrat c k fun st => { st with words := f st.words }
  if s.isActive c k then watchShafts (put (settleKeepers s.nets s)) else put s

/-- Reference count of a slot: strata loaded from it or being refilled from it (R189, R190). -/
def State.refs (s : State) (i : Nat) : Nat :=
  s.fab.chambers.foldl (fun n p =>
    n + p.2.strata.countP fun q => (q.2.loaded || q.2.refilling) && q.2.slot == i) 0
/-- Sum of all reference counts (R220). -/
def State.refSum (s : State) : Nat :=
  s.fab.chambers.foldl (fun n p => n + p.2.strata.countP fun q => q.2.loaded || q.2.refilling) 0

/-- The request that stream k carries. -/
def State.stream (s : State) (k : Nat) : Option LibReq := tabGet none s.lib.streams k
/-- Streams that carry a request. -/
def State.busyStreams (s : State) : List (Nat × LibReq) :=
  s.lib.streams.filterMap fun p => p.2.map fun r => (p.1, r)
/-- The lowest-numbered free stream (R201). -/
def State.freeStream (s : State) : Option Nat := (List.range 16).find? fun k => (s.stream k).isNone

/-- The fence that a domain closes keeps requests from it (R39). -/
def State.fenced (s : State) (d : Nat) : Bool := s.rst.closedFor.any fun p => bit (BitVec.ofNat 16 p.2) d

/-- A host request is accepted into the FIFO, or discarded with 0x0407 (R196); towards a CFG whose fences are closed it
ends with ABORT (R39, R41). -/
def libAccept (r : LibReq) (s : State) : State :=
  if s.fenced 2 then endIssuer r.desc 0x09 0 s
  else if 256 ≤ s.lib.fifo.length then endIssuer r.desc 0x0A 0x80 (raise 0x0407 [r.tag] s)
  else s.modLib fun l => { l with fifo := l.fifo ++ [r] }

/-- A device-class request (Table Library-3). -/
def libDevice (r : LibReq) (s : State) : State := s.modLib fun l => { l with device := l.device ++ [r] }

/-- The chambers a request acts on: both of a comparing column (R251), the named one for a relocation and a degraded
continuation (R241, R244). They are fixed when it starts. -/
def reqTargets (s : State) (r : LibReq) : List Nat :=
  if r.targets ≠ [] then r.targets
  else if r.kind = 0 ∧ (s.col (colOf r.chamber)).lock = .comparing then [colOf r.chamber, colOf r.chamber + 256]
  else [r.chamber]
/-- The chamber whose state the checks look at (R251). -/
def reqPrimary (s : State) (r : LibReq) : Nat := (reqTargets s r).headD 0

/-- A relocation is under way (R218). -/
def relocating (s : State) : Bool := s.fab.chambers.any fun p => p.2.reloc

/-- A degraded continuation of the column has begun and not ended (R241). -/
def continuing (x : Column) : Bool :=
  x.lock == .silent && (x.resumeState == .degradedA || x.resumeState == .degradedB)

/-- The engine is held to device class until step 5 of a relocation has completed (R199) and while a diagnosis or a
degraded continuation needs it (R236, R241). -/
def settleHold (s : State) : State :=
  s.modLib fun l => { l with devhold := s.fab.columns.any fun p =>
    (p.2.relocStep != 0 && p.2.relocStep != 6) || p.2.lock == .diagnosing || continuing p.2 }

/-- Physical column of a logical one. -/
def State.physOf (s : State) (n : Nat) : Nat := (s.col n).pcol.getD n

/-- The lowest-numbered free spare column (R113, R122). -/
def freeSpare (s : State) : Option Nat :=
  ((List.range 8).map (0x100 + ·)).find? fun p => !s.fab.spares.contains p && !s.fab.retired.contains p

/-- Chambers of a column whose strata are moved: only the good one of a degraded lockstep column (R244). -/
def movedChambers (s : State) (n : Nat) : List Nat :=
  match (s.col n).lock with
  | .degradedA => [n]
  | .degradedB => [n + 256]
  | _ => [n, n + 256]

/-- 0x020C for a stratum that becomes vacant (R120, R121). -/
def vacate (c k : Nat) (s : State) : State :=
  let st := s.strat c k
  raise 0x020C [colOf c, tierOf c, k, st.slot, (s.slot st.slot).pers] (s.modStrat c k fun st => { st with loaded := false })

/-- Loaded strata of the chambers of a column. -/
def loadedStrata (s : State) (n : Nat) : List (Nat × Nat) :=
  [n, n + 256].flatMap fun c => ((List.range 4).filter fun k => (s.strat c k).loaded).map fun k => (c, k)

/-- A request of the refill engine for column n belongs to its relocation. -/
def ofReloc (n : Nat) (r : LibReq) : Bool := r.kind == 1 && colOf r.chamber == n

/-- A request of a relocation waits or runs. -/
def relocBusy (s : State) (n : Nat) : Bool :=
  s.lib.device.any (ofReloc n) || s.busyStreams.any fun p => ofReloc n p.2

/-- The device-class request of a relocation for stratum k of chamber c. -/
def relocReq (s : State) (op : Nat) (q : Nat × Nat) : LibReq :=
  { op, chamber := q.1, stratum := q.2, slot := (s.strat q.1 q.2).slot, cls := 0, kind := 1 }

/-- Step 3 of Table Routing-4 (R113, R120 to R122): a spare column is mapped; step 4 places the refills of the
relocatable images that move. A bound image stays behind with 0x020C and degrades the column; without a spare every
stratum does, in place, with 0x020D. -/
def relocStep3 (n : Nat) (s : State) : State :=
  let moved := movedChambers s n
  let strata := loadedStrata s n
  let p := s.physOf n
  match freeSpare s with
  | some sp =>
    let s := (s.modCol n fun x => { x with pcol := some sp, fromHome := x.pcol.isNone, relocStep := 4 }).modFab fun f =>
      { f with spares := setAdd sp (setDel p f.spares) }
    forEach strata (fun (c, k) s =>
      if !moved.contains c then s
      else if (s.slot (s.strat c k).slot).rel then libDevice (relocReq s 1 (c, k)) s
      else vacate c k (s.modCol n fun x => { x with degraded := true })) s
  | none =>
    let s := forEach strata (fun (c, k) s => vacate c k s) s
    let s := s.modFab fun f => { f with spares := setDel p f.spares, stranded := setAdd p f.stranded }
    raise 0x020D [0] (s.modCol n fun x => { x with degraded := true, relocStep := 6 })

/-- The requests of one step of a relocation have ended: the next step places its own (Table Routing-4). Step 5 restores
what was spilled and refilled. -/
def relocNext (n : Nat) (s : State) : State :=
  if relocBusy s n then s
  else
    let x := s.col n
    let s := if x.relocStep = 2 then relocStep3 n s else s
    let s := if (s.col n).relocStep = 4 ∧ !relocBusy s n then
        let s := s.modCol n fun x => { x with relocStep := 5 }
        if x.stateLost then s
        else forEach (s.col n).landed (fun q s => libDevice (relocReq s 3 (256 * (q / 4) + n, q % 4)) s) s
      else s
    let s := if (s.col n).relocStep = 5 ∧ !relocBusy s n then s.modCol n fun x => { x with relocStep := 6 } else s
    settleHold s

/-- A stream's request ends: LIB_DONE counts it, the stream is free, its descriptor ends (R198, R209). -/
def freeStreamOf (k : Nat) (r : LibReq) (status result : Nat) (s : State) : State :=
  endIssuer r.desc status result (s.modLib fun l =>
    { l with streams := tabSet none l.streams k none, rowAt := tabSet 0 l.rowAt k 0, done := l.done.add 1 })

/-- A step of a degraded continuation has failed: the column stays silent, 0x0635 with FAILED set (R240, log 91). -/
def contFails (n : Nat) (s : State) : State :=
  let x := s.col n
  let good := b2n (x.resumeState == .degradedB)
  let s := s.modStrat (n + 256 * good) x.diagStratum fun st => { st with refilling := false }
  raise 0x0635 [n, good, x.diagStratum, 1]
    (settleHold (s.modCol n fun x => { x with resumeState := .off, contStep := 0, shadows := [] }))

/-- What follows the end of a device request (Tables Routing-4 and Lockstep-4): `ok` when it has done its work. -/
def afterDevice (r : LibReq) (ok : Bool) (s : State) : State :=
  let n := colOf r.chamber
  match r.kind with
  | 1 =>
    let s := if ok then
        (if r.op = 1 then s.modCol n fun x => { x with landed := setAdd (4 * tierOf r.chamber + r.stratum) x.landed } else s)
      else if r.op = 2 ∨ r.op = 3 then s.modCol n fun x => { x with stateLost := true }
      else s
    relocNext n s
  | 2 =>
    if !ok then contFails n s
    else
      let s := s.modCol n fun x => { x with contStep := if r.op = 2 then 2 else if r.op = 1 then 3 else 4 }
      if r.op = 2 then libDevice { r with op := 1, targets := [], was := [] } s
      else if r.op = 1 then libDevice { r with op := 3, targets := [], was := [] } s
      else s
  | _ => s

/-- A stream's request ends (R198, R209); `ok` when it was neither refused nor aborted. -/
def endStream (k : Nat) (ok : Bool) (status result : Nat) (s : State) : State :=
  match s.stream k with
  | none => s
  | some r => afterDevice r ok (freeStreamOf k r status result s)

/-- 0x0402 at completion when the request asks for it (R209). -/
def notifyDone (r : LibReq) (s : State) : State :=
  if r.notify then raise 0x0402 [r.tag, r.op, r.chamber, r.stratum, r.slot] s else s

/-- The image that a refill writes lands in its targets up to row `rows` (R203). The rows of a relocation land in the
spare column, which no chamber uses yet. -/
def landRows (r : LibReq) (rows : Nat) (s : State) : State :=
  if r.kind = 1 then s
  else forEach (reqTargets s r) (fun c s => s.modStrat c r.stratum fun st =>
    { st with words := if rows = 80 then (s.slot r.slot).image
                       else copyRows st.words (s.slot r.slot).image (List.range rows) }) s

/-- A refill in progress on a stream is aborted after some rows (R190, R194, R204, R207): its target stays not loaded,
or as it was when a fence aborts it before any row; causes of 0x0404: 1 fence, 2 row CRC, 3 SUMP. A row that fails twice
is not among the rows written (log 110). The RESULT of a descriptor whose refill a row or the sump aborted is not given: a
free value (log 16). -/
def abortRefill (k cause rows : Nat) (s : State) : State :=
  match s.stream k with
  | none => s
  | some r =>
    let s := landRows r rows s
    let untouched := cause == 1 && rows == 0
    let s := forEach r.was (fun (c, loaded, slot) s => s.modStrat c r.stratum fun st =>
      { st with refilling := false, loaded := loaded && untouched, slot := if untouched then slot else st.slot }) s
    let s := raise 0x0404 [r.tag, r.chamber, r.stratum, rows, cause] s
    if cause = 1 then endStream k false 0x09 0 s
    else endStream k false 0x0A (Config.freeBits 32 s.seed).toNat s.fresh

/-- Rows that a stream has written when something cuts it short: the rows' times are no operand of any command, so the
number is free up to `most` (log 15). -/
def rowsWritten (most : Nat) (s : State) : Nat := (Config.freeBits 7 s.seed).toNat % (most + 1)

/-- Refills from a slot that has left READY end at the next row boundary (R194). -/
def abortFromSlot (i : Nat) (s : State) : State :=
  forEach s.busyStreams (fun p s =>
    if p.2.op = 1 ∧ p.2.slot = i then abortRefill p.1 3 (rowsWritten 80 s) s.fresh else s) s

/-- A failure sends a READY slot to the sump, or the fourth time into RETIRED (R192, R194, R195); causes of 0x0405:
1 signature, 2 row CRC. -/
def toSump (i cause : Nat) (s : State) : State :=
  let x := s.slot i
  if x.st ≠ 2 then s
  else if x.sumpcnt = 3 then
    abortFromSlot i (raise 0x0406 [i] (s.modSlot i fun x => { x with st := 4 }))
  else
    abortFromSlot i (raise 0x0405 [i, cause, s.refs i, x.sumpcnt + 1]
      (s.modSlot i fun x => { x with st := 3, sumpcnt := x.sumpcnt + 1 }))

/-- A double-bit golden store error loses the slot's record (R488). -/
def loseGolden (i : Nat) (s : State) : State :=
  let hit := s.fab.chambers.flatMap fun p => (p.2.strata.filter fun q => q.2.slot == i && q.2.loaded).map fun q => (p.1, q.1)
  let s := s.modSlot i fun x => { x with lost := true, goldBad := false, golden := [], imgSig := 0 }
  let s := toSump i 1 s
  let s := forEach hit (fun p s => s.modStrat p.1 p.2 fun st => { st with unchecked := true }) s
  raise 0x0606 [i, hit.length] s

/-- A use of a slot's golden record: an error that stands in it is found now (R488). -/
def useGolden (i : Nat) (s : State) : State := if (s.slot i).goldBad then loseGolden i s else s

/-- Rows of stratum k of chamber c that differ from the golden record of its slot (R487): none where that record is lost,
before this use or by it (R488). -/
def badRows (s : State) (c k : Nat) : List Nat :=
  let st := s.strat c k
  let x := s.slot st.slot
  if st.unchecked || x.goldBad then []
  else (List.range 80).filter fun r => rowSig st.words r != x.golden.getD r 0

/-- Frame rewrites are abandoned: those that wait and those that run, which LIB_DONE counts (R209, Table Integrity-3). -/
def dropRewrites (p : LibReq → Bool) (s : State) : State :=
  let hit (r : LibReq) : Bool := r.op == 7 && p r
  let run := s.busyStreams.filter fun q => hit q.2
  s.modLib fun l => { l with
    device := l.device.filter fun r => !hit r
    streams := run.foldl (fun t q => tabSet none t q.1 none) l.streams
    rowAt := run.foldl (fun t q => tabSet 0 t q.1 0) l.rowAt
    done := run.foldl (fun n _ => n.add 1) l.done }

/- ### Lockstep reactions -/

/-- Degraded continuation starts with the spill of the good chamber's stratum (R240, R241). While a relocation holds
the shadows it waits for that one's release. -/
def degradeSetup (n good : Nat) (s : State) : State :=
  let k := (s.col n).diagStratum
  let c := if good = 0 then n else n + 256
  let slot := (s.strat c k).slot
  if relocating s then s
  else if (s.slot slot).st = 2 then
    libDevice { op := 2, chamber := c, stratum := k, slot, cls := 0, kind := 2 } (s.modCol n fun x => { x with contStep := 1 })
  else contFails n s

/-- The verdict's effect (R237, Table Lockstep-2). When the device was SOLO at the detection (log 41), with REACT = 0b01
then (R246) and a tier verdict, degraded continuation follows; in every other case the column is silent. -/
def lockReact (n verdict : Nat) (s : State) : State :=
  let s := s.modCol n fun x => { x with lock := .silent }
  if s.isSolo ∧ !(s.col n).detPaired ∧ (s.col n).reactAt = 1 ∧ verdict ≤ 1 then
    settleHold (degradeSetup n (if verdict = 0 then 1 else 0)
      (s.modCol n fun x => { x with resumeState := if verdict = 0 then .degradedB else .degradedA }))
  else settleHold s

/-- A detection at edge D: 0x0633, refill held to device class, the active stratum of both chambers is to be
quarantined at the next switch-clock edge (R236), a LEAD or SHADOW fails silent (R237). -/
def lockDetect (n mask : Nat) (digA digB : Word) (s : State) : State :=
  let k := (s.chm n).sel
  let s := raise 0x0633 [n, mask, s.now, k, digA.toNat, digB.toNat] s
  let s := s.modCol n fun x => { x with lock := .diagnosing, diagStratum := k, detPaired := s.paired,
                                        reactAt := s.regF (chmReg n 0x48) 1 2, digests := [] }
  let s := quarantineAtEdge (n + 256) k 3 (quarantineAtEdge n k 3 (s.modLib fun l => { l with devhold := true }))
  if s.paired then failSilent 1 s else s

/-- Raise 0x0634 and react; sources: 1 diagnosis, 2 reset, 3 integrity, 4 contention, 5 spill. -/
def lockVerdict (n verdict source : Nat) (s : State) : State :=
  lockReact n verdict (raise 0x0634 [n, (s.col n).diagStratum, verdict, source] s)

/-- A detection with its verdict and no diagnosis (R238, R252), on a comparing column. -/
def lockNoDiag (n mask verdict source : Nat) (s : State) : State :=
  if (s.col n).lock = .comparing then lockVerdict n verdict source (lockDetect n mask 0 0 s) else s

/-- A slot's rows are checked at once, as the library lane checks those of a READY slot (R192, R239, R492, R503). -/
def checkSlot (i : Nat) (s : State) : State :=
  let x := s.slot i
  let bad := (List.range 80).filter fun row => rowSig x.image row != x.golden.getD row 0
  if x.st ≠ 2 ∨ x.goldBad ∨ bad = [] then s
  else raise 0x0605 [i, bad.headD 0, bad.length]
    (toSump i 1 (s.modInteg fun g => { g with count605 := g.count605 + 1 }))

/-- The checker has read the 80 rows of the quarantined stratum of both chambers (R239); the resident lane reads the
stratum that it was cut short in again from row 0 (Table Integrity-3). -/
def execDiagnosisVerdict (col : ColumnId) (s : State) : Host.Outcome State Fault Refusal :=
  if (s.col col).lock = .diagnosing then
    let k := (s.col col).diagStratum
    let a := !(badRows s col k).isEmpty
    let b := !(badRows s (col + 256) k).isEmpty
    let v := if a && b then 3 else if a then 0 else if b then 1 else 2
    let s := useGolden (s.strat (col + 256) k).slot (useGolden (s.strat col k).slot (s.modInteg fun i =>
      { i with interrupts := min 65535 (i.interrupts + 1), resPos := i.resPos - i.resPos % 80 }))
    let s := lockVerdict col v 1 s
    done (if v = 3 then checkSlot (s.strat col k).slot s else s)
  else done s

/-- Degraded continuation completes once its three requests have ended: the good chamber's stratum is loaded and enters
RUN at the next switch-clock edge, alone (R138, R205, R241 to R243). -/
def execDegradedComplete (col : ColumnId) (s : State) : Host.Outcome State Fault Refusal :=
  let x := s.col col
  let good := if x.resumeState = .degradedB then 1 else 0
  let k := x.diagStratum
  let c := col.val + 256 * good
  if x.contStep = 4 then
    let before := s.chmState c
    let s := s.modStrat c k fun st => { st with loaded := true, refilling := false, quar := false, unchecked := false, failMask := [] }
    let s := s.modCol col fun x => { x with lock := x.resumeState, resumeState := .off, contStep := 0,
                                            shadows := tabDel x.shadows (4 * good + k) }
    let s := raise 0x0635 [col, good, k, 0] (settleHold s)
    done (if (s.chm c).sel = k ∧ (before = 2 ∨ before = 3) then s.modChm c fun ch => { ch with entering := before } else s)
  else done s

/-- Both chambers of the column are HELD by Command, Group or Reset release with equal switch clocks (R247). -/
def stageReady (s : State) (n : Nat) : Bool :=
  ([n, n + 256].all fun c => s.chmState c == 4 && [1, 2, 4].contains (s.chm c).hsrc) &&
  s.regF (chmReg n 0x04) 0 5 == s.regF (chmReg (n + 256) 0x04) 0 5

/-- A committed LOCKSTEP = 1 takes effect (R247, R248, R250): flip-flops cleared, strata not loaded, pending stratum
the primary's, 0x0631. -/
def execLockstepEntry (col : ColumnId) (s : State) : Host.Outcome State Fault Refusal :=
  if (s.col col).staged = some true ∧ stageReady s col then
    let sel := (s.chm col).sel
    let s := forEach [col.val, col.val + 256] (fun c s =>
      let s := forEach (List.range 4) (fun k s => discardParked c k s) s
      s.modChm c fun ch =>
        { ch with shared := 0, pend := some sel, entering := 0, quarDue := [],
                  strata := ch.strata.foldl (fun t p => tabSet {} t p.1
                    { p.2 with loaded := false, ffs := 0 }) ch.strata }) s
    let s := s.modCol col fun x => { x with lock := .comparing, staged := none, slice := 0, digests := [],
                                            resumeState := .off, contStep := 0 }
    done (raise 0x0631 [col, s.now] s)
  else done s

/-- Codes of Table Lockstep-5. -/
def lockCode : LockState → Nat
  | .off => 0
  | .staged => 1
  | .comparing => 2
  | .diagnosing => 3
  | .degradedA => 4
  | .degradedB => 5
  | .silent => 6

/-- A committed LOCKSTEP = 0 takes effect (R247, R249): 0x0632 with the state before the exit. -/
def execLockstepExit (col : ColumnId) (s : State) : Host.Outcome State Fault Refusal :=
  if (s.col col).staged = some false ∧ stageReady s col then
    let before := (s.col col).lock
    let s := s.modCol col fun x => { x with lock := .off, staged := none, resumeState := .off, contStep := 0 }
    done (raise 0x0632 [col, lockCode before] s)
  else done s

/- ### Requests -/

/-- An operation that names a slot. -/
def namesSlot (op : Nat) : Bool := op == 1 || op == 3 || op == 5 || op == 6

/-- The bound image may not go to this chamber (reason BOUND). -/
def boundElsewhere (s : State) (r : LibReq) (p : Nat) : Bool :=
  let x := s.slot r.slot
  !x.rel && (x.home != p || (s.col (colOf x.home)).pcol.isSome)

/-- The checks of Table Library-4 that fail, by code, without SLOT_RANGE and RESET. -/
def failedChecks (s : State) (r : LibReq) : List Nat :=
  let p := reqPrimary s r
  let st := s.strat p r.stratum
  let x := s.slot r.slot
  let mine := s.slot st.slot
  let sel := (s.chm p).sel == r.stratum
  let owner := 4 * p + r.stratum
  let refill := r.op == 1
  let checks : List (Nat × Bool) := [
    (1, refill && x.st == 0), (2, refill && x.st == 1), (3, refill && x.st == 3),
    (4, namesSlot r.op && x.st == 4),
    (5, (refill || r.op == 4) && s.isActive p r.stratum),
    (6, (r.op == 2 || r.op == 3) && sel && s.chmState p == 1),
    (7, (r.op == 2 || r.op == 3 || r.op == 4 || (refill && r.spillFirst)) && !st.loaded),
    (8, refill && boundElsewhere s r p),
    (9, r.op == 3 && st.slot != r.slot),
    (10, (r.op == 3 || (refill && r.restore)) && !x.shv),
    (11, (r.op == 2 || (refill && r.spillFirst)) && mine.shv && mine.owner != owner && !r.force),
    (13, r.op == 5 && (s.refs r.slot != 0 || x.shv))]
  (checks.filter (·.2)).map (·.1)

/-- The reason for which a request is refused at its start (R202), or none. The steps of a relocation and of a degraded
continuation work on strata that the ordinary checks would turn away (R132, R241): of them only the slot's state is
checked. -/
def refusal (s : State) (r : LibReq) : Option Nat :=
  if namesSlot r.op && decide (0xC00 ≤ r.slot) then some 0x0C
  else if (r.op ≤ 4 || r.op == 7) && (s.inReset (tierOf r.chamber) || s.inReset 2) then some 0x0E
  else if r.kind = 0 then (failedChecks s r).head?
  else ((failedChecks s r).filter fun x => decide (x ≤ 4) && r.op == 1).head?

/-- SPILL of one stratum into the shadow of its slot (R211 to R213); in a comparing column the primary's bits, and a
difference to the checker's is a detection (R252). A relocation and a degraded continuation spill into the relocation
shadows (R217, R241). -/
def spill (r : LibReq) (s : State) : State :=
  let p := reqPrimary s r
  let i := (s.strat p r.stratum).slot
  let x := s.slot i
  let owner := 4 * p + r.stratum
  let bits := (s.chm p).stateBits r.stratum
  if r.kind ≠ 0 then
    s.modCol (colOf p) fun x => { x with shadows := tabSet 0 x.shadows (4 * tierOf p + r.stratum) bits }
  else
    let s := if x.shv ∧ x.owner ≠ owner then raise 0x0408 [i, x.owner, owner] s else s
    let s := s.modSlot i fun x => { x with shadow := bits, shv := true, owner := owner }
    if (s.col (colOf p)).lock = .comparing ∧ (s.chm (p + 256)).stateBits r.stratum ≠ bits then
      lockNoDiag (colOf p) 8 2 5 s
    else s

/-- The request is not for a target that an earlier one in progress has (R197). -/
def targetFree (s : State) (r : LibReq) : Bool :=
  decide (5 ≤ r.op ∧ r.op ≤ 6) ||
    !(s.busyStreams.any fun p => p.2.stratum == r.stratum && (decide (p.2.op ≤ 4) || p.2.op == 7) &&
      (reqTargets s p.2).any fun c => (reqTargets s r).contains c)

/-- Remove the first element that satisfies p. -/
def takeFirst {α : Type} (p : α → Bool) : List α → Option (α × List α)
  | [] => none
  | x :: t => if p x then some (x, t) else (takeFirst p t).map fun (y, r) => (y, x :: r)

/-- A frame rewrite that could start now: its target is free, and neither its tiers nor CFG are in reset or fenced
(R197, R498, R499). -/
def rewriteCan (s : State) (r : LibReq) : Bool :=
  r.op == 7 && targetFree s r && decide (s.pstate < 2) && !s.inReset 2 && !s.fenced 2 && (s.strat r.chamber r.stratum).rewriting &&
    (reqTargets s r).all fun c => !s.inReset (tierOf c) && !s.fenced (tierOf c)

/-- A frame rewrite waits that could start: it goes ahead of every other class (R498). -/
def rewriteFirst (s : State) : Bool := s.lib.device.any (rewriteCan s)

/-- The next request to start and the state without it (R197, R199, R438, R498, R706): device class, then loader, then
host high, then host normal. Frame rewrites start by a command of their own. -/
def nextRequest (s : State) : Option (LibReq × State) :=
  let ok := fun (r : LibReq) => targetFree s r && r.op != 7
  if (2 ≤ s.pstate ∧ !s.lys.exiting) ∨ rewriteFirst s then none
  else match takeFirst ok s.lib.device with
  | some (r, rest) => some (r, s.modLib fun l => { l with device := rest })
  | none =>
    if s.lib.devhold then none
    else match takeFirst ok s.lib.loader with
    | some (r, rest) => some (r, s.modLib fun l => { l with loader := rest })
    | none =>
      if !s.fab.released || decide (2 ≤ s.pstate) then none
      else match takeFirst (fun r => ok r && r.cls == 2) s.lib.fifo with
      | some (r, rest) => some (r, s.modLib fun l => { l with fifo := rest })
      | none => match takeFirst ok s.lib.fifo with
        | some (r, rest) => some (r, s.modLib fun l => { l with fifo := rest })
        | none => none

/-- The resident lane drops the rows that it has not read yet of stratum k of chamber c, if it reads that one now. -/
def dropLane (c k : Nat) (s : State) : State :=
  if s.integ.resPos / 80 = 4 * c + k ∧ s.integ.resPos % 80 ≠ 0 then s.modInteg fun i => { i with dropStratum := true } else s

/-- A REFILL begins (R144, R189, R203, R204, R486): a row that fails twice aborts it and sends the slot to the sump. What
the resident lane has found in the stratum, or reads in it now, is dropped (Table Integrity-3). What is parked for the stratum of a degraded continuation stays, to be delivered when it resumes (R242). -/
def refillRows (k : Nat) (r : LibReq) (hardFail : Option Nat) (s : State) : State :=
  let s := if r.kind = 1 then s
    else dropRewrites (fun q => q.stratum == r.stratum && (reqTargets s r).contains q.chamber) s
  let s := if r.kind = 1 then s else forEach (reqTargets s r) (fun c s =>
    (dropLane c r.stratum (if r.kind = 2 then s else discardParked c r.stratum s)).modStrat c r.stratum (fun st =>
      { st with loaded := false, refilling := true, slot := r.slot, failMask := [], rewriting := false }) |>.modChm c fun ch =>
        if ch.sel = r.stratum then { ch with entering := 0 } else ch) s
  let x := s.slot r.slot
  let bad := match hardFail with
    | some row => some row
    | none => (List.range 80).find? fun row => rowSig x.image row != x.golden.getD row 0
  match bad with
  | some row => toSump r.slot 2 (abortRefill k 2 row s)
  | none => s.modLib fun l => { l with rowAt := tabSet 0 l.rowAt k 79 }

/-- What a refill finds at its targets: LOADED and SLOT. -/
def targetsWere (s : State) (r : LibReq) : List (Nat × Bool × Nat) :=
  if r.kind = 1 then []
  else (reqTargets s r).map fun c => (c, (s.strat c r.stratum).loaded, (s.strat c r.stratum).slot)

/-- A refill of the loader for a bound image whose home column has been retired is refused: its stratum stays not loaded, the
column is degraded and 0x020C names the slot and the personality (R120, R450). -/
def boundStays (r : LibReq) (s : State) : State :=
  forEach r.targets (fun c s => raise 0x020C [colOf c, tierOf c, r.stratum, r.slot, (s.slot r.slot).pers]
    (s.modCol (colOf c) fun x => { x with degraded := true })) s

/-- A free stream starts the next request and checks it (R202); `hardFail` is a row that fails its landing check twice,
`goldenLost` a double-bit error of the source's record. Its targets are fixed now (R251). A fence that is still closed
answers it with ABORT (R39, R44). -/
def startRequest (hardFail : Option Nat) (goldenLost : Bool) (s : State) : State :=
  match s.freeStream, nextRequest s with
  | some k, some (r, s) =>
    let r := { r with targets := reqTargets s r, was := if r.op = 1 then targetsWere s r else [] }
    let s := s.modLib fun l => { l with streams := tabSet none l.streams k (some r) }
    match refusal s r with
    | none =>
      if (r.op ≤ 4 ∧ (reqTargets s r).any fun c => s.fenced (tierOf c)) ∨ s.fenced 2 then
        endStream k false 0x09 0 (raise 0x0404 [r.tag, r.chamber, r.stratum, 0, 1] s)
      else
      let s := if r.op = 2 ∨ (r.op = 1 ∧ r.spillFirst) then spill r s else s
      if r.op = 1 then
        (if goldenLost ∨ (s.slot r.slot).goldBad then loseGolden r.slot (refillRows k r none s) else refillRows k r hardFail s)
      else s
    | some why =>
      let s := raise 0x0403 [r.tag, r.op, r.chamber, r.stratum, r.slot, why] s
      endStream k false 0x0A why (if why = 8 ∧ r.cls = 1 then boundStays r s else s)
  | _, _ => s

/-- A stratum becomes loaded at the completion of its refill (R66, R67, R205, R215). The selected stratum of a VACANT or
QUARANTINED chamber enters RUN at the next switch-clock edge (R138). -/
def loadStratum (c : Nat) (r : LibReq) (s : State) : State :=
  let k := r.stratum
  let before := s.chmState c
  let x := s.slot r.slot
  let s := s.modStrat c k fun st => { st with ffs := if (s.chm c).released then initBits st.words else 0 }
  let s := if r.restore then restoreBits c k x.shadow s else s
  let s := s.modStrat c k fun st =>
    { st with loaded := true, refilling := false, quar := false, unchecked := x.lost, failMask := [], rewriting := false,
              wasActive := false, needRefill := false, liveLap := none }
  if (before = 2 ∨ before = 3) ∧ (s.chm c).sel = k ∧ !s.lys.exiting then
    s.modChm c fun ch => { ch with entering := before, quarDue := ch.quarDue.filter (·.1 != k) }
  else s

/-- A refill completes for the fabric (R205, R209, R253). One of a relocation or of a degraded continuation only ends its
request: the stratum is loaded at the release or at the continuation's own completion. -/
def refillDone (k : Nat) (s : State) : State :=
  match s.stream k with
  | some r =>
    if r.op = 1 then
      let targets := reqTargets s r
      let s := landRows r 80 s
      let s := if r.kind = 0 then forEach targets (fun c s => loadStratum c r s) s
        else if r.kind = 2 then
          s.modStrat r.chamber r.stratum fun st =>
            { st with ffs := initBits st.words, unchecked := (s.slot r.slot).lost, needRefill := false }
        else s
      let s := if r.kind = 0 ∧ !(s.slot r.slot).lsi ∧ (s.col (colOf r.chamber)).lock = .comparing then
          raise 0x0636 [colOf r.chamber, r.stratum, r.slot] (quarantine r.chamber r.stratum 3 s)
        else s
      endStream k true 0 0 (notifyDone r s)
    else s
  | none => s

/-- A stratum is no longer loaded. If it is the active one, its chamber leaves RUN: the keepers and the hold-last ports
keep what they carried (R93, R174, Table Strata-2). -/
def unload (c k : Nat) (s : State) : State :=
  let s := if (s.chm c).sel = k ∧ s.chmState c = 1 then
      let v := s.nets
      leaveRun s v c (settleKeepers v s)
    else s
  watchShafts ((s.modStrat c k fun st => { st with loaded := false }).modChm c fun ch =>
    if ch.sel = k then { ch with entering := 0 } else ch)

/-- A SPILL, RESTORE, EVICT, DROP or SHCLR ends (R190, R209, R214, R216). A DROP leaves a slot alone that is neither READY
nor in SUMP (log 110). -/
def requestOver (k : Nat) (s : State) : State :=
  match s.stream k with
  | none => s
  | some r =>
    if r.op < 2 ∨ 6 < r.op then s
    else
      let s := match r.op with
        | 3 =>
          if r.kind = 0 then forEach (reqTargets s r) (fun c s => restoreBits c r.stratum (s.slot r.slot).shadow s) s
          else if r.kind = 2 then
            restoreBits r.chamber r.stratum (tabGet 0 (s.col (colOf r.chamber)).shadows (4 * tierOf r.chamber + r.stratum)) s
          else s
        | 4 => forEach (reqTargets s r) (fun c s => unload c r.stratum s) s
        | 5 => s.modSlot r.slot fun x =>
            if x.st = 2 ∨ x.st = 3 then { x with st := 0, rel := false, lsi := false, home := 0, pers := 0 } else x
        | 6 => s.modSlot r.slot fun x => { x with shadow := 0, shv := false, owner := 0 }
        | _ => s
      endStream k true 0 0 (notifyDone r s)

/- ### The scan -/

/-- The lanes run: P0 or P1, CFG not in reset, after fabric release (R494). -/
def lanesRun (s : State) : Bool := s.integ.running && decide (s.pstate ≤ 1) && !s.inReset 2

/-- Reaction to a failed resident row (Table Integrity-2); true when the lane goes on collecting failed rows for a
frame rewrite. -/
def residentReact (c k : Nat) (s : State) : State × Bool :=
  let st := s.strat c k
  let n := colOf c
  let again := match st.liveLap with
    | some l => decide (s.integ.laps ≤ l + 1)
    | none => false
  if st.quar then (s, false)
  else if s.isActive c k && (s.col n).lock == .comparing then (lockNoDiag n 0 (tierOf c) 3 s, false)
  else if again then (raise 0x0604 [c, k, 3] (quarantine c k 2 s), false)
  else if !s.isActive c k then (s, true)
  else if s.paired then (failSilent 2 s, true)
  else (s, true)

/-- The frame rewrite of a stratum's failure mask is placed (R498). -/
def placeRewrite (c k : Nat) (s : State) : State :=
  let st := s.strat c k
  libDevice { op := 7, chamber := c, stratum := k, slot := st.slot, cls := 0, rows := st.failMask }
    ((dropRewrites (fun r => r.chamber == c && r.stratum == k) s).modStrat c k fun st => { st with rewriting := true })

/-- One row of the resident lane (R491, R496). A failure in the lap of a SELFCHECK makes the device fail silent (Table
Twin-9). -/
def residentRow (upset : List (Fin 2048)) (golden : Nat) (s : State) : State :=
  let pos := s.integ.resPos
  let c := pos / 320
  let k := pos / 80 % 4
  let row := pos % 80
  let s := if row = 0 then s.modInteg fun i => { i with dropStratum := false } else s
  let st0 := s.strat c k
  let golden := if (s.slot st0.slot).goldBad then 2 else golden
  let reads := st0.loaded && !st0.refilling && !st0.unchecked && !(s.fab.retired.contains (s.physOf (colOf c))) &&
    !s.integ.dropStratum
  let s := if reads then
      let s := if upset = [] then s else rewords c k (fun ws => flipRow ws row (upset.map (·.val))) s
      let st := s.strat c k
      if golden = 2 then loseGolden st.slot (s.modInteg fun i => { i with dropStratum := true })
      else if rowSig st.words row = (s.slot st.slot).golden.getD row 0 then s
      else if st.failMask ≠ [] then s.modStrat c k fun st => { st with failMask := setAdd row st.failMask }
      else
        let s := raise 0x0602 [c, k, st.slot, row, b2n (s.isActive c k), 1]
          (s.modInteg fun i => { i with count602 := i.count602 + 1 })
        let s := if s.twn.checking then failSilent 2 (raise 0x0C07 [1, s.twn.role] s) else s
        let (s, collect) := residentReact c k s
        if collect then s.modStrat c k fun st => { st with failMask := [row] }
        else s.modInteg fun i => { i with dropStratum := true }
    else s
  let st := s.strat c k
  if row = 79 ∧ st.failMask ≠ [] ∧ !st.rewriting ∧ !st.refilling then placeRewrite c k s else s

/-- One row of the library lane (R492, R503). -/
def libraryRow (upset : List (Fin 2048)) (golden : Nat) (s : State) : State :=
  let i := s.integ.libPos / 80
  let row := s.integ.libPos % 80
  let s := if row = 0 then s.modInteg fun x => { x with slotFail := [] } else s
  let s := if (s.slot i).st = 2 ∨ s.integ.slotFail ≠ [] then
      let s := if upset = [] then s else s.modSlot i fun x => { x with image := flipRow x.image row (upset.map (·.val)) }
      let x := s.slot i
      if golden = 2 ∨ x.goldBad then loseGolden i s
      else if rowSig x.image row = x.golden.getD row 0 then s
      else toSump i 1 (s.modInteg fun g => { g with slotFail := setAdd row g.slotFail })
    else s
  let f := s.integ.slotFail
  if row = 79 ∧ f ≠ [] then
    raise 0x0605 [i, f.headD 0, f.length] (s.modInteg fun g => { g with count605 := g.count605 + 1, slotFail := [] })
  else s

/-- Each lane reads its next row (R489 to R496, R503). At the start of a resident lap the reference row is checked
against a wrong signature (R495). -/
def execScanRowRead (resUpset libUpset : List (Fin 2048)) (resGolden libGolden : Fin 3) (selfTestOk : Bool) (s : State) :
    Host.Outcome State Fault Refusal :=
  if !lanesRun s then done s
  else
    let s := if s.integ.resPos = 0 ∧ !selfTestOk then deviceFault 0x0608 (raise 0x0608 [1] s) else s
    let s := residentRow resUpset resGolden s
    let s := libraryRow libUpset libGolden s
    done (s.modInteg fun i =>
      let i := if i.resPos + 1 = 163840 then
          { i with resPos := 0, laps := i.laps + 1, resLap := 1638, overrun := false, interrupts := 0 }
        else { i with resPos := i.resPos + 1 }
      if i.libPos + 1 = 245760 then { i with libPos := 0, libLap := 2457 } else { i with libPos := i.libPos + 1 })

/-- A resident lap reaches 2 ms: 0x0607 once for the lap (R493). -/
def execResidentLapOverrun (micros : Nat) (interruptions : BitVec 16) (s : State) : Host.Outcome State Fault Refusal :=
  if lanesRun s ∧ !s.integ.overrun then
    done (raise 0x0607 [micros, interruptions.toNat] (s.modInteg fun i => { i with overrun := true, resLap := micros }))
  else done s

/-- A live rewrite leaves undefined the flip-flops of the stratum that load in that cycle (R501): a free value for every
one that can load under the words before or after it, shared or private as those words have it (R58, R60, R81, log 17). -/
def suspectState (before : ImageWords) (c k : Nat) (s : State) : State :=
  let v := Config.freeBits 2048 s.seed
  let w := Config.freeBits 2048 (s.seed + 1)
  let hit (shr : Bool) : BitVec 2048 := ofBits 2048 ((List.range 2048).filter fun i =>
    [before, (s.strat c k).words].any fun ws => canLoad ws i && bit (wordOf ws i) 33 == shr)
  let p := hit false
  let m := hit true
  (s.fresh.fresh).modChm c fun ch =>
    { (ch.modStrat k fun st => { st with ffs := (st.ffs &&& ~~~p) ||| (v &&& p) }) with
      shared := (ch.shared &&& ~~~m) ||| (w &&& m) }

/-- The stratum is quarantined because its rewrite failed (R500); causes of 0x0604: 1 re-read, 2 landing, 3 repeat. The
active stratum of a comparing column takes a detection instead (R238). -/
def rewriteFails (k c st cause : Nat) (s : State) : State :=
  let s := s.modStrat c st fun x => { x with rewriting := false, failMask := [] }
  let s := if s.isActive c st ∧ (s.col (colOf c)).lock = .comparing then lockNoDiag (colOf c) 0 (tierOf c) 3 s
    else quarantine c st 2 s
  endStream k true 0 0 (raise 0x0604 [c, st, cause] s)

/-- A frame rewrite starts on a free stream, ahead of every other class, and writes its rows (R498, R499, R501). From a
slot that is no longer READY each row fails at the landing (Table Integrity-3). -/
def execFrameRewriteStart (hardFail : Option (Fin 80)) (s : State) : Host.Outcome State Fault Refusal :=
  match s.freeStream, takeFirst (rewriteCan s) s.lib.device with
  | some k, some (r, rest) =>
    let r := { r with targets := reqTargets s r }
    let s := useGolden r.slot (s.modLib fun l => { l with device := rest, streams := tabSet none l.streams k (some r) })
    let x := s.slot r.slot
    let bad := x.st != 2 || hardFail.isSome || r.rows.any fun row => rowSig x.image row != x.golden.getD row 0
    if bad then done (rewriteFails k r.chamber r.stratum 2 (toSump r.slot 2 s))
    else
      let s := forEach (reqTargets s r) (fun c s =>
        let act := s.isActive c r.stratum
        let before := (s.strat c r.stratum).words
        let s := (rewords c r.stratum (fun ws => copyRows ws x.image r.rows) s).modStrat c r.stratum fun st =>
          { st with wasActive := act, liveLap := if act then some s.integ.laps else st.liveLap }
        if act then suspectState before c r.stratum s else s) s
      done (s.modLib fun l => { l with rowAt := tabSet 0 l.rowAt k (r.rows.getLastD 0) })
  | _, _ => done s

/-- The lane re-reads the rewritten rows (R500). -/
def execFrameRewriteReread (c : ChamberId) (stratum : StratumId) (rereadOk : Bool) (s : State) :
    Host.Outcome State Fault Refusal :=
  match s.busyStreams.find? fun p => p.2.op == 7 && p.2.chamber == c.val && p.2.stratum == stratum.val with
  | none => done s
  | some (k, r) =>
    let s := useGolden (s.strat c stratum).slot (s.modInteg fun i => { i with interrupts := min 65535 (i.interrupts + 1) })
    let st := s.strat c stratum
    let g := (s.slot st.slot).golden
    if rereadOk && r.rows.all fun row => rowSig st.words row == g.getD row 0 then
      let s := s.modStrat c stratum fun x => { x with rewriting := false, failMask := [], wasActive := false }
      done (endStream k true 0 0 (raise 0x0603 [c, stratum, r.rows.length, b2n st.wasActive, b2n st.wasActive] s))
    else done (rewriteFails k c stratum 1 s)

end Sys2Proof.Machine
end

