-- ==== Sys2Proof/Machine/Release.lean ====
section
/-! DEFINITION. Fabric release, step 10 of Table Loading-2 (R439, R65, R93, R172, R175, R476, R494). -/

namespace Sys2Proof.Machine

/-- The shared flip-flops at fabric release: the INIT bit of the lowest-numbered resident stratum that marks the cell
shared, or 0 (R65). -/
def sharedInit (ch : Chamber) : BitVec 2048 :=
  ((List.range 4).reverse).foldl (fun v k =>
    let x := ch.strat k
    let m := if x.loaded then shrMask x.words else 0
    (v &&& ~~~m) ||| (initBits x.words &&& m)) 0

/-- One chamber leaves UNRELEASED at the first edge of its switch clock (R439, R65, R172, R175). A command and a schedule
that wait count as accepted in the cycle that begins then (R438, R452). -/
def releaseOne (c : Nat) (s : State) : State :=
  let start := tabGet 0 s.cfg.starts c
  let clk := s.regF (chmReg (s.gov c) 0x04) 0 5
  let s := s.modChm c fun ch =>
    let ok := (ch.strat start).loaded
    { ch with released := true, sel := start, swclkUse := clk, shared := sharedInit ch, portHold := 0, fenceBad := false,
              cmd := ch.cmd.map fun d => { d with wait := cmdDelay s },
              schedWait := if ch.schedArmed then cmdDelay s else ch.schedWait,
              fence := if ok then fenceOf (ch.strat start).words else fenceZero,
              strata := ch.strata.foldl (fun t (p : Nat × Stratum) => tabSet ({} : Stratum) t p.1
                { p.2 with ffs := if p.2.loaded then initBits p.2.words else 0 }) ch.strata }
  if (s.strat c start).loaded then s else raise 0x0302 [c, start, 0] s

/-- CFG_TREL for a release that many microseconds after power good. -/
def trelOf (micros : Nat) : Nat := min (2 ^ 32 - 1) micros

/-- The release instant: the pins' output enables, the keepers and the signature lanes (R439, R476, R93, R494, R724), with
0x050B. From now on each chamber leaves UNRELEASED at the first edge of its own switch clock; a group fire that waits counts
from the cycle that its clock's first edge begins (R438). -/
def releaseFabric (micros : Nat) (s : State) : State :=
  let s := s.modFab fun f => { f with released := true, early := [], leaving := List.range 512,
                                      groups := f.groups.foldl (fun t (p : Nat × SwGroup) => tabSet ({} : SwGroup) t p.1
                                        (if p.2.fire.isSome then { p.2 with fireWait := cmdDelay s + 1 } else p.2)) f.groups,
                                      columns := f.columns.foldl (fun t (p : Nat × Column) => tabSet ({} : Column) t p.1
                                        { p.2 with keepers := 0, slice := 0 }) f.columns }
  let s := s.modPin fun p => { p with oe := 0, vdetRel := p.vdet }
  let s := s.modInteg fun x => { x with running := true, resPos := 0, libPos := 0 }
  let s := s.modCfg fun x => { x with stage := 0xB, trel := trelOf micros }
  raise 0x050B [trelOf micros, s.cfg.mode.toNat] s

end Sys2Proof.Machine
end

