-- ==== Sys2Proof/Machine/Edges.lean ====
section
/-! DEFINITION. Edges of the global clocks and all that happens at one (chapter 04, Table Strata-5): everything loads
under the old strata from the values of the cycle that ends, then the sources of Table Strata-6 act. An idle step
delivers the edges of its time (Machine/Clocks.lean); a command that names an edge brings it (log 3). In what follows
`b` and `v` are the state and the nets of the cycle that the edge ends. -/

namespace Sys2Proof.Machine

/- ### The global clocks -/

/-- What is in effect on global clock n (R635). -/
def State.gclkOf (s : State) (n : Nat) : Word := tabGet (gclkReset n) s.lys.gclk n
/-- Reset value of MULT. -/
def fpllReset (p : Nat) : Nat := if p = 0 then 0x30 else 0x40
/-- MULT in effect on FPLL p (R633). -/
def State.fpllOf (s : State) (p : Nat) : Nat := tabGet (fpllReset p) s.lys.fpll p
/-- LYS_GCLKn.LEVEL. -/
def State.levelOf (s : State) (n : Nat) : Nat := tabGet 0 s.lys.levels n

/-- Edges of a group of 8 that stretch level `lv` omits (R636). -/
def omitted (lv : Nat) : List Nat := (List.range lv).map fun i => 8 * i / lv

/-- The source periods of a stretch of `mult` of them at whose end a clock has an edge, and its phase afterwards: one
edge every `div`, less what the stretch level omits (R633, R636). -/
def edgesOf (mult div lv phase : Nat) : List Nat × Nat :=
  let at_ := (List.range mult).filter fun m =>
    let k := phase + m + 1
    k % div == 0 && !(omitted lv).contains (k / div % 8)
  (at_.map (· + 1), (phase + mult) % (8 * div))

/-- Global clock n runs from a locked FPLL (R633, R635). -/
def clockRuns (s : State) (n : Nat) : Bool :=
  let w := s.gclkOf n
  bit w 31 && decide (fld w 28 2 < 2) && decide (0 < fld w 0 8) && tabGet false s.lys.locked (fld w 28 2)

/-- The time at which global clock n has its next edge, from the start of the present REFCLK cycle and on one scale for
both FPLLs. Edges that commands have brought in this cycle are past. -/
def nextEdge (s : State) (n : Nat) : Option Nat :=
  if !clockRuns s n then none
  else
    let w := s.gclkOf n
    let div := fld w 0 8
    let phase := tabGet 0 s.fab.phase n
    let past := tabGet 0 s.fab.early n
    let kept := (List.range (8 * (past + 1))).filter fun j => !(omitted (s.levelOf n)).contains ((phase / div + 1 + j) % 8)
    kept[past]?.map fun j => ((phase / div + 1 + j) * div - phase) * s.fpllOf (1 - fld w 28 2)

/-- Global clock g and the clocks whose next edge coincides with its own (R135). -/
def coincident (s : State) (g : Nat) : List Nat :=
  (List.range (max 32 (g + 1))).filter fun n => n == g || ((nextEdge s g).isSome && nextEdge s n == nextEdge s g)

/- ### Loading and sampling -/

/-- One chamber's flip-flops at coincident edges of some global clocks (R57 to R62, R135). -/
def loadAtEdges (b : State) (v : Nets) (clks : List Nat) (c : Nat) (s : State) : State :=
  if b.chmState c ≠ 1 then s else forEach clks (fun g s => s.modChm c fun x => loadFfs b v c g x) s

/-- The trigger of chamber c's active stratum is enabled and its cell's F is 1 (R155, R168). -/
def triggerOn (b : State) (v : Nets) (c : Nat) : Bool :=
  let ws := (b.chm c).selWords
  b.chmState c == 1 && trigEnabled ws && v.f.testBit (2048 * c + trigCell ws)

/-- The bits of the column's eight pin slots in a register of the 768 pins. -/
def slotBits (reg : BitVec 768) (n : Nat) : Nat := (ofBits 8 ((List.range 8).filter fun k => bit reg (pinOf n k))).toNat

/-- The 64 cell state bits of the slice at the column's present edge (R234); at the first edge since comparing began or
resumed k is 0 (log 103). -/
def sliceBits (b : State) (c : Nat) : Nat :=
  fld ((b.chm c).stateBits (b.chm c).sel) (64 * ((b.col (colOf c)).slice % 32)) 64

/-- The compare points of class DIG of a chamber, in the order of Table Lockstep-1 from bit 0 up (log 103). What the user
logic of either chamber puts on the pin slots is the same free value, that of the output registers (log 11). -/
def digestPoints (b : State) (v : Nets) (c : Nat) : Nat :=
  let ch := b.chm c
  let fields : List (Nat × Nat) :=
    [(0, (portsShown b v c).toNat), (512, slotBits b.pin.outv (colOf c)), (520, slotBits b.pin.oe (colOf c)),
     (528, b2n (v.f.testBit (2048 * c + trigCell ch.selWords))), (529, b.chmState c), (532, ch.sel),
     (534, (b.chm (b.gov c)).entry), (540, sliceBits b c)]
  fields.foldl (fun a p => a + (p.2 <<< p.1)) 0

/-- The DIG digest of a chamber (R233, R234, R769). -/
def lockDigest (b : State) (v : Nets) (c : Nat) : Word := crc32c (leBytes 76 (digestPoints b v c))

/-- The comparator of column n at an edge of the primary's switch clock: both digests are captured, and those of two
edges before are compared (R231, R233, R234, R236). -/
def compareDigests (b : State) (v : Nets) (n : Nat) (s : State) : State :=
  if (b.col n).lock ≠ .comparing then s
  else match (b.col n).digests ++ [(lockDigest b v n, lockDigest b v (n + 256))] with
  | (x, y) :: rest@(_ :: _ :: _) =>
    let s := s.modCol n fun c => { c with digests := rest }
    if x = y then s else lockDetect n 4 x y s
  | l => s.modCol n fun c => { c with digests := l }

/- ### What acts at the edge -/

/-- R497: in a pair, a stratum under frame rewrite that a switch makes active fails the device silent. -/
def afterSwitch (b : State) (c : Nat) (s : State) : State :=
  let k := (s.chm c).sel
  if s.paired ∧ s.isActive c k ∧ !b.isActive c k ∧ (s.strat c k).rewriting then failSilent 2 s else s

/-- Rank 1 of Table Strata-6 on one chamber: R138's entry into RUN, a hold and quarantines that waited for this edge. What
is quarantined is the stratum active in the cycle that the edge ends (R98, R166, R236). -/
def deviceActs (b : State) (v : Nets) (c : Nat) (s : State) : State :=
  let ch := b.chm c
  let s := if ch.entering = 0 then s else latchFence c ch.sel (s.modChm c fun x => { x with entering := 0 })
  let s := if ch.holdDue = 0 then s else
    let s := holdChamber b v c ch.holdDue (s.modChm c fun x => { x with holdDue := 0 })
    if ch.holdDue = 3 then markRefills c s else s
  forEach ch.quarDue (fun q s =>
      let s := quarantineOne b v c ch.sel q.2 s
      if q.2 = 3 then s.modCol (colOf c) fun x => { x with diagStratum := ch.sel } else s)
    (s.modChm c fun x => { x with quarDue := x.quarDue.drop ch.quarDue.length })

/-- The schedule of chamber g stops because a higher source acts at its edge (R160, Table Strata-6). Entry SSTART goes with
it when it would have become current at this very edge (`due`); one that waits for a later edge waits on (R150). -/
def haltSchedule (g reason : Nat) (due : Option Nat) (s : State) : State :=
  if (s.chm g).schedArmed then
    (match due with
     | none => s
     | some e =>
       raise 0x0306 [g, e, reason]
         ((s.modChm g fun x => { x with schedArmed := false }).setRegF (chmReg g 0x04) 31 1 0))
  else stopSchedule g reason s

/-- The lowest-numbered group of `due` that takes effect on member c (R164). -/
def groupTakes (b : State) (due : List Nat) (c : Nat) : Option Nat :=
  due.find? fun g => b.regB (chmReg c 0x0C) g &&
    (match (b.grp g).fire with
     | some (op, _) => (skipReason b g op c).isNone
     | none => false)

/-- A SWITCH to stratum k from a group or a command, on the chambers that c governs: each switches, or sets its pending
stratum while HELD or RELOCATING (R134, R168). In a comparing column the checker raises a 0x0307 of its own for enables that
the primary's switch has left at 1 (R149, log 109). -/
def applySwitch (b : State) (v : Nets) (c k : Nat) (t : Bool) (rank : Nat) (s : State) : State :=
  forEach (b.acting c) (fun x s =>
    if b.chmState x = 4 ∨ b.chmState x = 5 then s.modChm x fun ch => { ch with pend := some k }
    else switchTo b v x k t rank s) s

/-- An operation of Table Strata-12 takes effect on the chambers that c governs (R161, R167 to R170). -/
def applyOp (b : State) (v : Nets) (c op k : Nat) (t : Bool) (rank : Nat) (s : State) : State :=
  match op with
  | 1 => applySwitch b v c k t rank s
  | 2 => forEach (b.acting c) (fun x s => holdChamber b v x (if rank = 2 then 2 else 1) s) s
  | 3 => forEach (b.acting c) (fun x s => releaseChamber x rank s) s
  | _ => s

/-- An operation stops the schedule of chamber c: a SWITCH that takes effect (R136, R160, R168), or any operation at an
edge at which the schedule would change its entry, on a trigger too (`entry`; R156, R166, Table Strata-6). -/
def stopsSchedule (b : State) (c op k : Nat) (entry : Option Nat) : Bool :=
  let st := b.chmState (b.lead c)
  (op == 1 && (k != (b.chm (b.lead c)).sel || st == 4 || st == 5)) || entry.isSome

/-- Ranks 2 to 5 of Table Strata-6 on the chambers that c governs, at an edge of their switch clock (R150 to R170; log 102
where two meet). -/
def chamberActs (b : State) (v : Nets) (due : List Nat) (c : Nat) (s : State) : State :=
  let ch := b.chm c
  let ws := (b.chm (b.lead c)).selWords
  let fired := triggerOn b v (b.lead c) && (b.acting c).all fun x => (trigGroups b x).isEmpty
  let entry := if fired && ch.schedRun then some ((entryDue b c).getD ch.nextEntry) else entryDue b c
  let s := if ch.schedRun && schedMoves b c then s.modChm c fun x => { x with remain := x.remain - 1 } else s
  let cmd := if b.chmState (b.lead c) = 6 then none else dueCmd b c
  let (cmd, s) := match cmd with
    | some d =>
      if overruled b d.op c then
        (none, endIssuer d.desc 0x0C 1 (raise 0x030A [c, 1] (s.modChm c fun x => { x with cmd := none })))
      else (some d, s)
    | none => (none, s)
  match groupTakes b due c, cmd with
  | some g, _ =>
    let op := ((b.grp g).fire.map (·.1)).getD 0
    let k := b.regF (chmReg c 0x10) (2 * g) 2
    let s := match cmd with
      | some d => endIssuer d.desc 0x0C 2 (raise 0x030A [c, 2] (s.modChm c fun x => { x with cmd := none }))
      | none => s
    let s := if stopsSchedule b c op k entry then haltSchedule c 3 entry s else s
    applyOp b v c op k (b.regB (grpReg g 0) 30) 2 s
  | none, some d =>
    let s := if stopsSchedule b c d.op d.stratum entry then haltSchedule c 2 entry s else s
    clearCmd c d (applyOp b v c d.op d.stratum d.t 3 s)
  | none, none =>
    if fired && !ch.schedRun then
      let s := if entry.isSome then haltSchedule c 2 entry s else s
      forEach (b.acting c) (fun x s => switchTo b v x (chw ws 1062 2) (chw ws 1048 1 == 1) 4 s) s
    else match entry with
      | some e => entryCurrent b v c e s
      | none => s

/-- The counts of edges that still separate an accepted command and an enabled schedule from their own edge (R150,
R158). -/
def countWaits (b : State) (c : Nat) (s : State) : State :=
  let ch := b.chm c
  if ch.cmd.isNone && ch.schedWait == 0 then s
  else s.modChm c fun x =>
    { x with schedWait := ch.schedWait - 1, cmd := x.cmd.map fun d => { d with wait := d.wait - 1 } }

/-- Once every source has acted: a chamber that entered RUN under R138 turns its pins around (R774), a chamber in RUN
takes one parked response (R141). -/
def edgeEnds (b : State) (c : Nat) (s : State) : State :=
  let s := if (b.chm c).entering ≠ 0 ∧ (s.chm c).sel = (b.chm c).sel then enterRun c s else s
  deliverParked c (afterSwitch b c s)

/- ### Switch groups -/

/-- The groups whose clock is among `clks`. -/
def groupsOn (s : State) (clks : List Nat) : List Nat :=
  (List.range 16).filter fun g => clks.contains (s.regF (grpReg g 0) 0 5)

/-- At the second group-clock edge after its source's trigger a group fires a SWITCH, in place of a fire not yet
effective, while the two clocks agree (R157, R163). It counts as accepted at that edge (R165, log 109). -/
def trigFires (clks : List Nat) (s : State) : State :=
  forEach (groupsOn s clks) (fun g s =>
    let r := s.reg (grpReg g 0)
    let c := fld r 16 9
    if !(s.grp g).trig || !bit r 31 || !bit r 29 then s
    else if (s.chm c).swclkUse = fld r 0 5 then
      let s := match (s.grp g).fire with
        | some (_, d) => endIssuer d 0x0C 1 s
        | none => s
      s.modGrp g fun x => { x with fire := some (1, none), fireWait := 0 }
    else raise 0x0308 [g, c, 1] s) s

/-- The groups that take effect at the edges of `clks` (R162, R163). -/
def dueGroups (s : State) (clks : List Nat) : List Nat :=
  (groupsOn s clks).filter fun g => (s.grp g).fire.isSome && (s.grp g).fireWait == 0

/-- Why group g of `due` skips member c (R164): 1 clock, 2 state, 3 lower group. -/
def whySkipped (b : State) (due : List Nat) (g op c : Nat) : Option Nat :=
  match skipReason b g op c with
  | some why => some why
  | none => if groupTakes b due c = some g then none else some 3

/-- The groups that took effect: skipped members with 0x0308, FAB_GRPg_STAT, the descriptor's end. A HOLD or RELEASE that
skipped members ends its descriptor with SWITCH_REFUSED 3, a SWITCH with OK and the count (Table Queues-9, log 18). -/
def groupsEnd (b : State) (due : List Nat) (s : State) : State :=
  forEach due (fun g s =>
    match (b.grp g).fire with
    | none => s
    | some (op, desc) =>
      let skips := (groupMembers b g).filterMap fun c => (whySkipped b due g op c).map fun w => (c, w)
      let s := forEach skips (fun p s => raise 0x0308 [g, p.1, p.2] s) s
      let n := skips.length
      let s := s.modGrp g fun x => { x with fire := none, lastop := op, skipped := n }
      if op = 1 ∨ n = 0 then endIssuer desc 0 n s else endIssuer desc 0x0C 3 s) s

/-- A group's counts at an edge of its clock, and the triggers of its source at this edge (R157, R162, R163). -/
def groupCounts (b : State) (v : Nets) (clks : List Nat) (s : State) : State :=
  let s := forEach (groupsOn b clks) (fun g s =>
    s.modGrp g fun x => { x with trig := x.trigNew, trigNew := false, fireWait := x.fireWait - 1 }) s
  forEach (b.fab.chambers.map (·.1)) (fun c s =>
    if clks.contains (b.chm c).swclkUse && triggerOn b v c then
      forEach (trigGroups b c) (fun g s =>
        if (b.chm c).swclkUse = b.regF (grpReg g 0) 0 5 then s.modGrp g fun x => { x with trigNew := true }
        else raise 0x0308 [g, c, 1] s) s
    else s) s

/- ### The edge -/

/-- Chambers that leave UNRELEASED at the edges of `clks` (R439). -/
def leavingOn (b : State) (clks : List Nat) : List Nat :=
  b.fab.leaving.filter fun c => clks.contains (b.regF (chmReg (b.gov c) 0x04) 0 5)

/-- They leave UNRELEASED once everything else has happened at the edge. -/
def leaveUnreleased (b : State) (clks : List Nat) (s : State) : State :=
  let out := leavingOn b clks
  if out = [] then s
  else (forEach out releaseOne s).modFab fun f => { f with leaving := f.leaving.filter fun c => !out.contains c }

/-- Chambers that have left UNRELEASED and whose switch clock is among `clks`. -/
def chambersOn (b : State) (clks : List Nat) : List Nat :=
  b.fab.chambers.filterMap fun (c, ch) => if ch.released && clks.contains ch.swclkUse then some c else none

/-- Chambers that govern themselves or their column, whose switch clock, that of the good chamber in a degraded column, is
among `clks` (R229, R243). -/
def governorsOn (b : State) (clks : List Nat) : List Nat :=
  b.fab.chambers.filterMap fun (c, ch) =>
    if ch.released && b.gov c == c && clks.contains (b.chm (b.lead c)).swclkUse then some c else none

/-- Coincident edges of some global clocks (R62, R134, R135, R166). -/
def clockEdges (clks : List Nat) (s : State) : State :=
  let b := trigFires clks s
  let v := b.nets
  let on := chambersOn b clks
  let gov := governorsOn b clks
  let due := dueGroups b clks
  let t := settleKeepers v b
  let t := forEach (b.fab.chambers.map (·.1)) (loadAtEdges b v clks) t
  let t := forEach on edgeCounts t
  let t := forEach (on.filter (· < 256)) (compareDigests b v) t
  let t := forEach on (deviceActs b v) t
  let t := forEach gov (countWaits b) t
  let t := forEach gov (chamberActs b v due) t
  let t := groupsEnd b due t
  let t := groupCounts b v clks t
  let t := forEach on (edgeEnds b) t
  (watchShafts (leaveUnreleased b clks t)).fresh

/-- A command brings the next edge of global clock g, with every edge that coincides with it. An idle step does not
deliver them again (log 3). -/
def bringEdge (g : Nat) (s : State) : State :=
  let clks := coincident s g
  let s := s.modFab fun f => { f with early := (clks.filter (clockRuns s)).foldl (fun t n => tabMod 0 t n (· + 1)) f.early }
  clockEdges clks s

/-- A device action holds some chambers, each at the next edge of its switch clock while the clocks run, else at once
(R166, R167, R622). -/
def holdChambers (cs : List Nat) (hsrc : Nat) (s : State) : State :=
  if clocksRun s && s.fab.released then
    let s := forEach cs (fun c s => s.modChm c fun ch => { ch with holdDue := hsrc }) s
    let s := forEach cs (fun c s => if (s.chm c).holdDue = 0 then s else bringEdge (s.chm c).swclkUse s) s
    forEach cs (fun c s => s.modChm c fun ch => { ch with holdDue := 0 }) s
  else
    let v := s.nets
    watchShafts (forEach cs (fun c t => holdChamber s v c hsrc t) (settleKeepers v s))

/-- The level of bank k's clock input (R726): pin 46, or the pair of 46 and 47 under a differential standard. -/
def clockInput (s : State) (k : Nat) : Bool :=
  bit s.pin.ball (48 * k + 46) && (pinStd s (48 * k + 46) == 0 || !bit s.pin.ball (48 * k + 47))

/-- A rising level at bank k's clock input: the global clocks that it feeds count it and, every DIV of them, have an edge
(R633, R636, R726). -/
def clockInputRises (k : Nat) (s : State) : State :=
  let fed := (List.range 32).filter fun n =>
    let w := s.gclkOf n
    bit w 31 && fld w 28 2 == 2 && fld w 8 4 == k && decide (0 < fld w 0 8)
  let next (n : Nat) : List Nat × Nat := edgesOf 1 (fld (s.gclkOf n) 0 8) (s.levelOf n) (tabGet 0 s.fab.phase n)
  let clks := fed.filter fun n => !(next n).1.isEmpty
  let s' := s.modFab fun f => { f with phase := fed.foldl (fun t n => tabSet 0 t n (next n).2) f.phase }
  if clks.isEmpty || !s.fab.released || !clocksRun s then s' else clockEdges clks s'

end Sys2Proof.Machine
end

