-- ==== Sys2Proof/Machine/Bonds.lean ====
section
/-! DEFINITION. Bonds, pillars, their spares, retirement and relocation of columns (01_stack.md R23 to R25, 03_routing.md
R100 to R122). Layers of the repair books: 0 shafts, 1 to 3 the pillars of that boundary, 4 service bonds; column 264
is the central field. -/

namespace Sys2Proof.Machine

/-- The key of a bond or pillar group in Fabric.bonds. -/
def bondKey (layer col group : Nat) : Nat := 1024 * (265 * layer + col) + group
/-- A bond or pillar group. -/
def State.bond (s : State) (k : Nat) : BondGroup := tabGet {} s.fab.bonds k
/-- Change a bond or pillar group. -/
def State.modBond (s : State) (k : Nat) (f : BondGroup → BondGroup) : State :=
  s.modFab fun x => { x with bonds := tabMod {} x.bonds k f }

/-- Spares of a group: 2 in the hybrid layer, 4 at the lower boundaries (R23). -/
def sparesOf (layer : Nat) : Nat := if layer = 0 ∨ layer = 4 then 2 else 4
/-- Signals of a group (R23). -/
def signalsOf (layer : Nat) : Nat := if layer = 0 ∨ layer = 4 then 32 else 64

/-- Groups of a layer: of one column, or of the central field (Tables Stack-2 and Stack-3). -/
def groupsOf (layer col : Nat) : Nat :=
  if col = 264 then (match layer with
    | 1 => 4
    | 2 => 12
    | 3 => 100
    | _ => 0)
  else match layer with
    | 0 => 128
    | 1 => 76
    | 2 => 42
    | 3 => 20
    | _ => 152

/-- Spares in use for repair: one per failed signal member while they last (R24, R110). While a shaft group is swept, the
spare that the sweep takes counts already (R111). -/
def BondGroup.inRepair (g : BondGroup) (spares : Nat) : Nat := min (g.failed + b2n g.sweeping) (spares - g.failedSpares)
/-- Free spares (R110). -/
def BondGroup.free (g : BondGroup) (spares : Nat) : Nat := spares - g.failedSpares - g.inRepair spares
/-- The group is whole: its failed members do not outnumber its spares (R24). -/
def BondGroup.whole (g : BondGroup) (spares : Nat) : Bool := decide (g.failed + g.failedSpares ≤ spares)

/-- A member or spare has failed; one that had failed before, by the fuses too, changes nothing (log 99). -/
def BondGroup.fail (g : BondGroup) (signals member : Nat) : BondGroup :=
  if g.members.contains member then g
  else if member < signals then { g with failed := g.failed + 1, members := setAdd member g.members }
  else { g with failedSpares := g.failedSpares + 1, members := setAdd member g.members }

/-- The shift setting follows the failed members (R24). -/
def BondGroup.applyShift (g : BondGroup) : BondGroup := { g with shift := g.members, pending := false }

/-- The bond or via that carries a signal of the group: a failed member's signal and every higher one have moved one
position towards the spares (R24). -/
def BondGroup.carrier (g : BondGroup) (signal : Nat) : Nat :=
  g.shift.foldl (fun p m => if m ≤ p then p + 1 else p) signal

/-- A group as the fuses record it: its failed members, with the shift set (R25). -/
def fusedGroup (layer : Nat) (members : List (Fin 68)) : BondGroup :=
  (members.foldl (fun g m => g.fail (signalsOf layer) m) ({} : BondGroup)).applyShift

/-- An error on a member of a service bond or pillar group is counted (R106). -/
def countError (layer col group member : Nat) (s : State) : State :=
  s.modBond (bondKey layer col group) fun g => { g with errs := tabMod 0 g.errs member (· + 1) }

/-- A parity error on a path of column `col`, whose group and member the spec does not name: both are free (R235, R349,
log 92). `layers` are the layers of the path. -/
def countSomeError (layers : List Nat) (col : Nat) (s : State) : State :=
  let pick (i n : Nat) : Nat := (Config.freeBits 16 (s.seed + i)).toNat % n
  let l := layers.getD (pick 0 layers.length) 4
  countError l col (pick 1 (groupsOf l col)) (pick 2 (signalsOf l + sparesOf l)) s.fresh.fresh.fresh

/-- At the tick the error counts start again (R106). -/
def clearErrors (s : State) : State :=
  s.modFab fun f => { f with bonds := f.bonds.foldl (fun t p => tabSet {} t p.1 { p.2 with errs := [] }) [] }

/-- A group of a central path has stopped (R109): `groups` of a boundary. -/
def pathDown (s : State) (boundary : Nat) (groups : List Nat) : Bool :=
  groups.any fun g => (s.bond (bondKey boundary 264 g)).lost
/-- The library load path: the first 8 central groups of boundary 2 and groups 88 to 95 of boundary 3 (Table Stack-3). -/
def loadPathDown (s : State) : Bool :=
  pathDown s 2 (List.range 8) || pathDown s 3 ((List.range 8).map (88 + ·))
/-- The management and telemetry path of a boundary: its last four central groups (Table Stack-3). -/
def managementDown (s : State) (boundary : Nat) : Bool :=
  pathDown s boundary ((List.range 4).map fun k => k + (match boundary with
    | 1 => 0
    | 2 => 8
    | _ => 96))
/-- Those of the side port's four links of 22 groups that have a stopped group (R109, Table Stack-3, log 93). -/
def downLinks (s : State) : List Nat := (List.range 4).filter fun l => pathDown s 3 ((List.range 22).map (22 * l + ·))

/-- The logical column that uses a physical one. -/
def logicalOf (s : State) (p : Nat) : Option Nat := (List.range 256).find? fun n => s.physOf n == p

/-- A physical column is retired (R114 to R116); 0x020A gives the group's number within its layer (R124, log 99). -/
def retireColumn (p group : Nat) (s : State) : State :=
  if s.fab.retired.contains p then s
  else
    let s := s.modFab fun f => { f with retired := setAdd p f.retired, unrecorded := setAdd p f.unrecorded }
    let s := raise 0x020A [p, group] s
    if s.paired then failSilent 4 s else s

/-- A repair hold of one chamber, at the next edge of its switch clock (R103, R166, R170, R775). -/
def repairHold (c : Nat) (s : State) : State :=
  if s.chmState c = 0 ∨ s.chmState c = 6 then s else s.modChm c fun ch => { ch with holdDue := 3 }

/-- A shaft group's parity check fails (R100 to R103). The event cannot come from a group without a spare for its
parity. -/
def execShaftParityFailure (pcol : PhysId) (group : Fin 128) (s : State) : Host.Outcome State Fault Refusal :=
  let k := bondKey 0 pcol group
  if (s.bond k).free 2 = 0 ∨ (s.bond k).sweeping then done s
  else
    let s := deviceFault 0x0206 (raise 0x0206 [pcol, group] s)
    let s := s.modBond k fun g => { g with sweeping := true }
    match logicalOf s pcol with
    | none => done s
    | some n => done (repairHold (n + 256) (repairHold n s))

/-- Both spares of a shaft group are in use for repair: 0x0208, once (R101). -/
def parityLost (pcol group : Nat) (s : State) : State :=
  let g := s.bond (bondKey 0 pcol group)
  if g.inRepair 2 = 2 ∧ !g.lost ∧ g.whole 2 then
    raise 0x0208 [pcol, group] (s.modBond (bondKey 0 pcol group) fun g => { g with lost := true })
  else s

/-- The bond sweep of a shaft group ends (R24, R101, R104, R114). 0x0207 counts the members newly found failed, spares
among them (log 99). -/
def execBondSweepDone (pcol : PhysId) (group : Fin 128) (failed : List (Fin 34)) (s : State) :
    Host.Outcome State Fault Refusal :=
  let k := bondKey 0 pcol group
  if !(s.bond k).sweeping then done s
  else
    let before := s.bond k
    let after := failed.foldl (fun g m => g.fail 32 m) { before with sweeping := false }
    if !after.whole 2 then done (retireColumn pcol group (s.modBond k fun _ => after))
    else
      let n := after.members.length - before.members.length
      let s := s.modBond k fun _ => after.applyShift
      done (parityLost pcol group (raise 0x0207 [pcol, group, n, after.free 2] s))

/-- The layer of a boundary number for service bonds and pillars: the hybrid layer is boundary 0. -/
def layerOf (boundary : Nat) : Nat := if boundary = 0 then 4 else boundary

/-- A service bond or pillar member is declared failed at a tick's end (R106, R107, R109, R114): `errors` are those of
the tick beside the ones that commands have counted. 0x020D gives a central group's number without its boundary, and is
raised in the role SOLO, that of ALONE too (R109, R124, log 99). -/
def execMemberFailed (boundary : Fin 4) (pcol : Option PhysId) (group : Fin 256) (member : Fin 68) (errors : Nat) (s : State) :
    Host.Outcome State Fault Refusal :=
  let l := layerOf boundary
  let col := match pcol with
    | some p => p.val
    | none => 264
  let k := bondKey l col group
  let old := s.bond k
  if tabGet 0 old.errs member + errors < 4 ∨ groupsOf l col ≤ group.val ∨ signalsOf l + sparesOf l ≤ member.val then done s
  else
    let g := old.fail (signalsOf l) member
    let whole := g.whole (sparesOf l)
    let s := s.modBond k fun _ => { g with pending := whole && decide (g.members ≠ g.shift), errs := tabDel g.errs member }
    let s := raise 0x0209 [boundary, group, member, g.free (sparesOf l)] s
    if whole then done s
    else if col < 264 then done (retireColumn col group s)
    else
      let s := s.modBond k fun g => { g with lost := true }
      let s := if s.isSolo then raise 0x020D [group] s else s
      done (deviceFault 0x0209 s)

/-- The shift of a failed member is applied in the group's idle window (R24, R107, R111). -/
def execSpareShiftApply (boundary : Fin 4) (pcol : Option PhysId) (group : Fin 256) (s : State) :
    Host.Outcome State Fault Refusal :=
  let col := match pcol with
    | some p => p.val
    | none => 264
  let k := bondKey (layerOf boundary) col group
  done (if (s.bond k).pending then s.modBond k BondGroup.applyShift else s)

/-- Shifts that wait on a boundary are applied while its fence is closed (R108). -/
def applyShifts (boundary : Nat) (s : State) : State :=
  s.modFab fun f => { f with bonds := f.bonds.foldl (fun t p =>
    tabSet {} t p.1 (if p.1 / 1024 / 265 = layerOf boundary ∧ p.2.pending then p.2.applyShift else p.2)) [] }

/- ### Relocation -/

/-- The refill landing groups of a physical column are whole: pillar groups 0 to 33 of boundary 1 (Table Stack-3;
log 22). -/
def landingWhole (s : State) (p : Nat) : Bool := (List.range 34).all fun g => (s.bond (bondKey 1 p g)).whole 4

/-- Step 1 of Table Routing-4: both chambers are held; frame rewrites for the column are abandoned (Table Integrity-3). -/
def holdForMove (n : Nat) (s : State) : State :=
  let s := dropRewrites (fun r => colOf r.chamber == n) s
  forEach [n, n + 256] (fun c s => s.modChm c fun ch =>
    { ch with reloc := true, strata := ch.strata.foldl (fun t p => tabSet {} t p.1
                { p.2 with rewriting := false, failMask := [] }) ch.strata }) (holdChambers [n, n + 256] 5 s)

/-- Lysata relocates a retired column (R116, R117, R199, R200, R218, R244): both chambers are held, and the steps of
Table Routing-4 that need a refill stream are device-class requests, the spills of step 2 first. While the management
cores restart it decides nothing (R630). -/
def execRelocationDecision (col : ColumnId) (s : State) : Host.Outcome State Fault Refusal :=
  let n := col.val
  let p := s.physOf n
  if s.lys.restarting || !s.fab.retired.contains p || s.fab.stranded.contains p || relocating s ||
      s.fab.columns.any (fun x => !x.2.shadows.isEmpty || x.2.contStep != 0) then done s
  else
    let whole := landingWhole s p
    let s := holdForMove n s
    let s := s.modCol n fun x => { x with stateLost := !whole, relocStep := 2, landed := [] }
    let moved := movedChambers s n
    let s := if whole then
        forEach ((loadedStrata s n).filter fun q => moved.contains q.1) (fun q s => libDevice (relocReq s 2 q) s) s
      else s
    done (settleHold (relocNext n s))

/-- One stratum at the release of a relocation: what step 4 refilled takes its image and, from step 5, its spilled state,
or INIT (R66, R119); what was not refilled, its slot no longer READY among the reasons, is not loaded there and degrades
nothing (R120, log 100). -/
def relocateStratum (n c k : Nat) (s : State) : State :=
  let i := 4 * tierOf c + k
  if !(s.col n).landed.contains i then s.modStrat c k fun st => { st with loaded := false }
  else
    let slot := s.slot (s.strat c k).slot
    let s := s.modStrat c k fun st => { st with words := slot.image, quar := false, unchecked := slot.lost, failMask := [],
                                                rewriting := false, ffs := initBits slot.image }
    if (s.col n).stateLost then s
    else
      let v := tabGet 0 (s.col n).shadows i
      let m := shrMask slot.image
      s.modChm c fun ch =>
        { (ch.modStrat k fun st => { st with ffs := (st.ffs &&& m) ||| (v &&& ~~~m) }) with
          shared := (ch.shared &&& ~~~m) ||| (v &&& m) }

/-- One chamber leaves RELOCATING for the state that its selected stratum gives (R173, R174, R182, R234, R774). A pending
stratum is selected as at a RELEASE (R169, R175, R176, log 23). -/
def moveEnds (c : Nat) (s : State) : State :=
  let ch := s.chm c
  let k := ch.pend.getD ch.sel
  let s := s.modChm c fun ch =>
    { ch with reloc := false, hsrc := 0, pend := none, sel := k,
              strata := ch.strata.foldl (fun t p => tabSet {} t p.1 { p.2 with needRefill := false }) ch.strata }
  let s := if (s.strat c k).loaded then (if ch.pend.isSome then latchFence c k s else s) else raise 0x0302 [c, k, 1] s
  deliverParked c (enterRun c (raise 0x0305 [c, k] s))

/-- The relocation releases its column (step 7): 0x020B when it has moved (R118, R119, R173). Of a column that has lost its
state the shared flip-flops hold 0 afterwards (log 109). -/
def execRelocationRelease (col : ColumnId) (s : State) : Host.Outcome State Fault Refusal :=
  let n := col.val
  if !(s.chm n).reloc || (s.col n).relocStep != 6 then done s
  else
    let lost := (s.col n).stateLost
    let movedTo := (s.col n).pcol.filter fun p => !s.fab.retired.contains p
    let s := if lost then forEach [n, n + 256] (fun c s => s.modChm c fun ch => { ch with shared := 0 }) s else s
    let s := if movedTo.isSome then forEach (loadedStrata s n) (fun (c, k) s => relocateStratum n c k s) s else s
    let s := watchShafts (forEach [n, n + 256] moveEnds s)
    let s := s.modCol n fun x =>
      { x with shadows := [], stateLost := false, slice := 0, digests := [], relocStep := 0, landed := [], fromHome := false }
    let s := match movedTo with
      | some sp => raise 0x020B [n, sp, b2n lost] s
      | none => s
    let waits := s.fab.columns.filter fun p => continuing p.2 && p.2.contStep == 0
    done (settleHold (forEach waits (fun p s => degradeSetup p.1 (if p.2.resumeState = .degradedB then 1 else 0) s) s))

/- ### Lockstep compare paths -/

/-- A lockstep compare difference (R233, R235, R236). A compare-path fault gets the verdict PATH at once; a failed
parity of the digest bonds counts as an error of a member of the column's service bonds too (R106). -/
def execLockstepMismatch (col : ColumnId) (classes : BitVec 3) (digA digB : Word) (path : Option PathFault) (s : State) :
    Host.Outcome State Fault Refusal :=
  if (s.col col).lock = .comparing then
    match path with
    | none => done (lockDetect col classes.toNat digA digB s)
    | some fault =>
      let s := lockVerdict col 4 1 (lockDetect col 0 digA digB s)
      done (if fault = .digestParity then countSomeError [4] (s.physOf col) s else s)
  else done s

/-- SPARES nibble of a group (Table Lysata-11). -/
def spareNibble (s : State) (layer col g : Nat) : Nat :=
  let x := s.bond (bondKey layer col g)
  if x.whole (sparesOf layer) then x.free (sparesOf layer) else 0xF

/-- Nibbles packed eight to a word. -/
def packNibbles (l : List Nat) : List Word :=
  (List.range (ceilDiv l.length 8)).map fun w =>
    BitVec.ofNat 32 ((withPos ((l.drop (8 * w)).take 8)).foldl (fun v p => v + p.2 <<< (4 * p.1)) 0)

/-- The SPARES report of a physical column or of the central field. -/
def sparesReport (s : State) (col : Nat) : List Word :=
  let g (layer n : Nat) : List Nat := (List.range n).map (spareNibble s layer col)
  packNibbles (if col < 264 then g 0 128 ++ g 4 152 ++ g 1 76 ++ g 2 42 ++ g 3 20 else g 1 4 ++ g 2 12 ++ g 3 100)

end Sys2Proof.Machine
end

