-- ==== Sys2Proof/Machine/Lanes.lean ====
section
/-! DEFINITION. Gaval lanes (13_lanes.md): training, UP and its ends, adaptation, low power, test. The moment of each
event comes from outside; an event that the bundle's state does not allow changes nothing (log 14). -/

namespace Sys2Proof.Machine

/-- A bundle in training: DETECT, CLOCK, EQ, DESKEW or CONFIRM. -/
def Bundle.training (x : Bundle) : Bool := decide (1 ≤ x.st) && decide (x.st ≤ 5)

/-- Brynerek hears of a twin bundle's fall from UP (R527, R619). -/
def twinFell (b : Nat) (s : State) : State :=
  if !s.twinBundle b then s
  else if !s.twinUp then partnerLost 3 s
  else if s.paired then raise 0x0B0A [b, (s.bun b).attempts] s
  else s

/-- Enter DETECT with a LANEb reset (R518). -/
def enterDetect (b : Nat) (s : State) : State :=
  (laneReset b s).modBun b fun x => { x with st := 1, woken := false }

/-- The other bundle of a link group, when bundle b carried it (R617). -/
def groupMate (s : State) (b : Nat) : Option Nat :=
  let l := (s.bun b).link
  if l.pair && l.pairActive then
    (List.range 8).find? fun c =>
      c != b && (s.bun c).link.pair && (s.bun c).link.partner == l.partner && s.bunUp c && !s.twinBundle c
  else none

/-- The link group's store moves to its other bundle, which sends INIT (R617). -/
def moveStore (b c : Nat) (s : State) : State :=
  let l := (s.bun b).link
  let s := s.modLink c fun m =>
    { m with st := 1, retry := l.retry, nextSeq := l.nextSeq, expect := l.expect, taken := l.taken, held := l.held,
             freed := l.freed, reported := l.reported, partnerFreed := l.partnerFreed, firstHalf := l.firstHalf,
             waiting := l.waiting, fresh := false, pairActive := true }
  sendInit c (s.modLink b fun m => { m.clear with waiting := [], pairActive := false, fresh := false })

/-- A bundle in UP leaves UP and enters DETECT (R522); the causes are those of `bundleOff`. -/
def leaveUp (b cause : Nat) (s : State) : State :=
  if (s.bun b).st = 6 then
    let s := enterDetect b (linkDown b (raise 0x0B03 [b, cause] s))
    let s := match groupMate s b with
      | some c => moveStore b c s
      | none => s
    twinFell b s
  else s

/-- Ask for deep sleep (R536). -/
def askSleep (b : Nat) (s : State) : State :=
  if (s.bun b).st = 6 then (s.send (.block b 0x78 4)).modBun b fun x => { x with sleepAsk := true } else s

/-- The bundle enters SLEEP with 0x0B09 (R536). -/
def enterSleep (b : Nat) (s : State) : State :=
  let s := linkDown b s
  twinFell b (raise 0x0B09 [b, 1]
    (s.modBun b fun x => { x with st := 7, sleepAsk := false, clkLock := false, txIdle := false, rxIdle := false }))

/-- The transmit direction leaves electrical idle: drivers on, 32 IDLE blocks, then its words (R534). -/
def leaveIdle (b : Nat) (s : State) : State :=
  if (s.bun b).txIdle then
    pump b ((s.send (.block b 0x1E 32)).modBun b fun x => { x with txIdle := false, firstMark := true })
  else s

/-- Four EIDLE blocks and electrical idle (R532, R535). -/
def enterIdle (b : Nat) (s : State) : State :=
  if (s.bun b).st = 6 ∧ !(s.bun b).txIdle ∧ !s.twinBundle b then
    (s.send (.block b 0x66 4)).modBun b fun x => { x with txIdle := true }
  else s

/-- The receive direction has left electrical idle: something has arrived. -/
def rxWake (b : Nat) (s : State) : State :=
  if (s.bun b).rxIdle then
    s.modBun b fun x => { x with rxIdle := false,
                                 lanes := x.lanes.foldl (fun t p => tabSet {} t p.1 { p.2 with seq := none }) x.lanes }
  else s

/-- Send RETRAIN with a mask, first leaving electrical idle (R531 step 2). -/
def sendRetrain (b : Nat) (mask : BitVec 8) (burst : Nat) (s : State) : State :=
  ((leaveIdle b s).send (.block b 0x55 mask.toNat)).modBun b fun x => { x with burst := burst, burstMask := mask }

/-- RETRAIN written, or 8 resends without ACK (R525, R553). -/
def retrain (b : Nat) (s : State) : State :=
  let st := (s.bun b).st
  if st = 6 then leaveUp b 7 s
  else if (1 ≤ st ∧ st ≤ 5) ∨ st = 8 then enterDetect b s
  else s

/-- TEST written 1 (R540). -/
def enterTest (b : Nat) (s : State) : State :=
  let up := (s.bun b).st = 6
  let s := if up then raise 0x0B03 [b, 7] (linkDown b s) else s
  let s := s.modBun b fun x =>
    { x with st := 9, lanes := x.lanes.foldl (fun t p => tabSet {} t p.1 { p.2 with bits := {}, err := {} }) x.lanes }
  if up then twinFell b s else s

/-- GVL_Bb_CTRL has been written over an old value (R518, R524, R525, R536, R540, R551). EN = 0 prevails over the
other fields of the same write. -/
def ctrlWritten (b : Nat) (old new : Word) (s : State) : State :=
  if !bit new 31 then
    let up := (s.bun b).st = 6
    let s := bundleOff b s
    if up then twinFell b s else s
  else
    let s := if !bit old 31 then
        enterDetect b ((s.modLink b Link.clear).modBun b fun x => { x with attempts := 0, timeouts := 0 })
      else s
    let s := if bit new 28 ∧ !bit old 28 then enterTest b s
      else if !bit new 28 ∧ bit old 28 ∧ (s.bun b).st = 9 then enterDetect b (s.modLink b Link.clear)
      else s
    let s := if bit new 30 then retrain b s else s
    if bit new 29 ∧ !bit old 29 then askSleep b s else s

/-- GVL_Bb_TEST has been written: INJ and CLR (R542, R543). -/
def testWritten (b : Nat) (val : Word) (s : State) : State :=
  let st := (s.bun b).st
  let s := if bit val 28 ∧ (st = 6 ∨ st = 9) then s.send (.block b 0x100 (fld val 20 8)) else s
  if bit val 19 then
    s.modBun b fun x =>
      { x with lanes := x.lanes.foldl (fun t p => tabSet {} t p.1 { p.2 with bits := {}, err := {}, bip := {} }) x.lanes }
  else s

/-- Training completes (R523): the lane map is learnt, the link goes to INIT, sessions start, sleep asked for
meanwhile takes effect (R537). -/
def execTrainingUp (b : BundleId) (pbundle : Fin 8) (lanemap : BitVec 24) (inverted : BitVec 8) (micros : BitVec 16)
    (s : State) : Host.Outcome State Fault Refusal :=
  let x := s.bun b
  if x.training then
    let s := s.modBun b fun x =>
      { x with st := 6, attempts := 0, timeouts := 0, clkLock := true, txIdle := false, rxIdle := false, firstMark := true,
               partner := mkBit 31 true ||| mkFld 24 3 pbundle ||| mkFld 0 24 lanemap.toNat, pinv := inverted,
               woken := false, sleepAsk := false,
               lanes := (List.range 8).foldl (fun t k => tabMod {} t k (fun (l : Lane) => { l with
                          lock := true, seq := none, badMs := false, lowDens := 0, guarding := false })) x.lanes }
    let s := raise 0x0B02 [b, pbundle, lanemap.toNat, micros.toNat] s
    let s := if x.woken then raise 0x0B09 [b, 2] s else s
    let s := sendInit b (s.modLink b fun l => { l with st := 1, nakSent := false, resends := 0 })
    let s := startSession b true (startSession b false s)
    done (if s.regB (gvlReg b 0) 29 ∨ 3 ≤ s.pstate then askSleep b s else s)
  else done s

/-- A training times out: BACKOFF (R520). `phase` is the state of Table Lanes-2 that the bundle reached. -/
def execTrainingTimeout (b : BundleId) (phase : Fin 6) (skew : Option (BitVec 8)) (s : State) :
    Host.Outcome State Fault Refusal :=
  if (s.bun b).training then
    let s := s.modBun b fun x => { x with st := 8, attempts := min 127 (x.attempts + 1), timeouts := x.timeouts + 1 }
    let x := s.bun b
    let s := match skew with
      | some k => if phase.val = 4 ∧ 8 < k.toNat then raise 0x0B08 [b, k.toNat] s else s
      | none => s
    let s := if x.timeouts ≤ 8 ∨ (x.timeouts - 8) % 64 = 0 then raise 0x0B04 [b, phase, x.attempts] s else s
    done (if s.twinBundle b then raise 0x0B0A [b, x.attempts] s else s)
  else done s

/-- BACKOFF ends (R521). -/
def execBackoffEnd (b : BundleId) (s : State) : Host.Outcome State Fault Refusal :=
  done (if (s.bun b).st = 8 then enterDetect b s else s)

/-- The partner's clock is seen after the first ms of BACKOFF (R521). -/
def execBackoffClockDetect (b : BundleId) (s : State) : Host.Outcome State Fault Refusal :=
  done (if (s.bun b).st = 8 then enterDetect b s else s)

/-- The wire takes the bundle out of UP (R522). -/
def execBundleDown (b : BundleId) (cause : DownCause) (s : State) : Host.Outcome State Fault Refusal :=
  done (leaveUp b (match cause with | .clock => 1 | .block => 2 | .deskew => 3 | .ts1 => 4) s)

/-- DENS, MLOW and MGOOD in force (Table Lanes-13). -/
def adaptDens (s : State) (b : Nat) : Nat := min 100 (s.regF (gvlReg b 0x10) 24 8)
/-- GVL_ADAPT.LOW of a bundle. -/
def adaptLow (s : State) (b : Nat) : Nat := s.regF (gvlReg b 0x10) 16 6
/-- GVL_ADAPT.GOOD of a bundle, at least LOW. -/
def adaptGood (s : State) (b : Nat) : Nat := max (adaptLow s b) (s.regF (gvlReg b 0x10) 8 6)

/-- A window ends (R528 to R531): measured values, the taps the adaptation computed, freezing after windows spanning
more than 1 ms (977 of 1.024 us), and the wander guard; a lane that asks for a burst while one is awaited joins its mask.
The phase EQ is part of a training that has no rows (log 66). -/
def execAdaptWindowEnd (b : BundleId) (k : LaneId) (density : Nat) (margin : BitVec 6) (badHeaders : Nat)
    (taps : BitVec 30) (s : State) : Host.Outcome State Fault Refusal :=
  let x := s.bun b
  if (x.training ∨ x.st = 6) ∧ !x.rxIdle then
    let dens := adaptDens s b
    let low := adaptLow s b
    let m := margin.toNat
    let okD := decide (dens ≤ density)
    let l := x.lane k
    let okW := if okD ∧ low ≤ m then l.okWin + 1 else 0
    let thaw := l.frozen && decide (16 ≤ okW)
    let lowN := if okD then 0 else l.lowDens + 1
    let freeze := !l.frozen && decide (977 ≤ lowN)
    let frozen := (l.frozen && !thaw) || freeze
    let l := { l with density := density, margin := m, okWin := okW, lowDens := lowN, frozen := frozen,
                      taps := if okD && !l.frozen then taps else l.taps,
                      badMs := l.badMs || !okD || decide (m < adaptGood s b) || decide (0 < badHeaders) }
    let act := x.st == 6 && decide (m < low)
    let first := act && !l.guarding
    let n := l.guard + 1
    let l := if first then { l with guarding := true, guard := 0, taps := l.good.getD 0x20000000#30 }
      else if act then { l with guard := n }
      else { l with guarding := false, guard := 0 }
    let s := s.modLane b k fun _ => l
    let s := if freeze then raise 0x0B07 [b, 2 ^ k.val] s else s
    let s := if first then raise 0x0B05 [b, k, m] s else s
    done (if act ∧ !first ∧ n = 8 then sendRetrain b (ofBits 8 [k] ||| (s.bun b).burstMask) (max 1 (s.bun b).burst) s else s)
  else done s

/-- At each 1 ms of UP the taps of lanes whose windows all met R530 become last-good. -/
def execLastGoodUpdate (b : BundleId) (s : State) : Host.Outcome State Fault Refusal :=
  done (if (s.bun b).st = 6 then
    forEach (List.range 8) (fun k s => s.modLane b k fun l =>
      { l with good := if l.badMs then l.good else some l.taps, badMs := false }) s
  else s)

/-- The partner asks for a burst: 256 IDLE blocks (R531 step 3). -/
def execRetrainReceive (b : BundleId) (_mask : BitVec 8) (s : State) : Host.Outcome State Fault Refusal :=
  done (if (s.bun b).st = 6 then (leaveIdle b (rxWake b s)).send (.block b 0x1E 256) else s)

/-- A burst ends and is judged (R531 step 4). -/
def execRetrainBurstEnd (b : BundleId) (margins : List (BitVec 6)) (s : State) : Host.Outcome State Fault Refusal :=
  let x := s.bun b
  if x.st = 6 ∧ 0 < x.burst then
    let low := adaptLow s b
    let bad := (bitsOf x.burstMask).any fun k => decide ((margins.getD k 0).toNat < low)
    let s := forEach (bitsOf x.burstMask) (fun k s => s.modLane b k fun l =>
      { l with margin := (margins.getD k 0).toNat, guard := 0, guarding := bad && l.guarding }) s
    let out := if !bad then 1 else if x.burst = 1 then 2 else 3
    let s := raise 0x0B06 [b, x.burstMask.toNat, out] s
    done (if out = 1 then s.modBun b fun x => { x with burst := 0, burstMask := 0 }
      else if out = 2 then sendRetrain b x.burstMask 2 s
      else leaveUp b 5 s)
  else done s

/-- A MARKER on all lanes (R513, R514): SEQ in the low byte, then the BIP of each lane. -/
def execMarkerSend (b : BundleId) (bip : List Byte) (s : State) : Host.Outcome State Fault Refusal :=
  let x := s.bun b
  if x.st = 6 then
    let v := x.txSeq + 256 * (if x.firstMark then 0 else ofLeBytes (fitBytes 8 bip))
    done ((s.send (.block b 0x4B v)).modBun b fun x => { x with txSeq := (x.txSeq + 1) % 256, firstMark := false })
  else done s

/-- A MARKER arrives on lane k (R515, R516): a wrong bundle or lane field loses deskew; mismatched BIP bits are
counted, but not against the first marker, nor against the first one after electrical idle (R514). -/
def execMarkerReceive (b : BundleId) (k : LaneId) (bundle : Fin 8) (lane : Fin 8) (seq : Byte) (bip : Byte) (own : Byte)
    (s : State) : Host.Outcome State Fault Refusal :=
  let x := s.bun b
  if x.st = 6 then
    let s := rxWake b s
    if fld x.partner 24 3 ≠ bundle.val ∨ fld x.partner (3 * k) 3 ≠ lane.val then done (leaveUp b 3 s)
    else
      let n := popcount (bip ^^^ own)
      done (s.modLane b k fun l =>
        { l with seq := some seq.toNat, bip := if l.seq.isNone then l.bip else l.bip.addNarrow n })
  else done s

/-- The transmit direction goes idle (R532, R535). -/
def execEidleEnter (b : BundleId) (s : State) : Host.Outcome State Fault Refusal :=
  done (if s.regF (gvlReg b 0x0C) 0 16 ≠ 0 ∨ s.pstate = 2 then enterIdle b s else s)

/-- EIDLE blocks arrive (R533). -/
def execEidleReceive (b : BundleId) (s : State) : Host.Outcome State Fault Refusal :=
  done (if (s.bun b).st = 6 then s.modBun b fun x => { x with rxIdle := true } else s)

/-- The direction leaves electrical idle (R534). -/
def execEidleExit (b : BundleId) (s : State) : Host.Outcome State Fault Refusal :=
  done (if (s.bun b).st = 6 then leaveIdle b s else s)

/-- SLEEP arrives: answered with four SLEEP_ACK, then SLEEP (R536). -/
def execSleepReceive (b : BundleId) (s : State) : Host.Outcome State Fault Refusal :=
  done (if (s.bun b).st = 6 then enterSleep b (s.send (.block b 0x79 4)) else s)

/-- SLEEP_ACK arrives (R536). -/
def execSleepAckReceive (b : BundleId) (s : State) : Host.Outcome State Fault Refusal :=
  done (if (s.bun b).st = 6 ∧ (s.bun b).sleepAsk then enterSleep b s else s)

/-- No SLEEP_ACK within 10 us (R536). -/
def execSleepAckTimeout (b : BundleId) (s : State) : Host.Outcome State Fault Refusal :=
  done (if (s.bun b).sleepAsk then leaveUp b 6 s else s)

/-- An end in SLEEP with SLEEP = 0 above P3 wakes the bundle (R538). -/
def execBeaconSend (b : BundleId) (s : State) : Host.Outcome State Fault Refusal :=
  done (if (s.bun b).st = 7 ∧ !s.regB (gvlReg b 0) 29 ∧ s.pstate < 3 then
    (s.send (.beacon b)).modBun b fun x => { x with st := 1, woken := true }
  else s)

/-- A beacon arrives at an end in SLEEP (R538). -/
def execBeaconDetect (b : BundleId) (s : State) : Host.Outcome State Fault Refusal :=
  done (if (s.bun b).st = 7 ∧ !s.regB (gvlReg b 0) 29 ∧ s.pstate < 3 then
    s.modBun b fun x => { x with st := 1, woken := true }
  else s)

/-- A PRBS checker enters or leaves sync (R542): the bits compared while it was in sync are counted, and a counter
that saturates raises 0x0B0B once. -/
def execCheckerSyncChange (b : BundleId) (k : LaneId) (inSync : Bool) (bits errs : Nat) (s : State) :
    Host.Outcome State Fault Refusal :=
  let x := s.bun b
  if x.st = 9 then
    let l := x.lane k
    let l' := if l.sync then { l with bits := l.bits.add bits, err := l.err.add errs, sync := inSync }
      else { l with sync := inSync }
    let s := s.modLane b k fun _ => l'
    let s := if l'.bits.ovf ∧ !l.bits.ovf then raise 0x0B0B [b, k, 1] s else s
    done (if l'.err.ovf ∧ !l.err.ovf then raise 0x0B0B [b, k, 2] s else s)
  else done s

/-- A BITS or ERR counter saturates (R542). -/
def execTestCounterSaturated (b : BundleId) (k : LaneId) (err : Bool) (s : State) : Host.Outcome State Fault Refusal :=
  let l := (s.bun b).lane k
  let c := if err then l.err else l.bits
  if (s.bun b).st = 9 ∧ l.sync ∧ !c.ovf then
    let c' : Ctr := { n := 2 ^ 48 - 1, ovf := true }
    done (raise 0x0B0B [b, k, if err then 2 else 1]
      (s.modLane b k fun l => if err then { l with err := c' } else { l with bits := c' }))
  else done s

end Sys2Proof.Machine
end

