-- ==== Sys2Proof/Machine/Network.lean ====
section
/-! DEFINITION. The Gaval network: reception of flits, INIT, census, discovery, routes (14_network.md) and the link
sessions of 10_crypto.md. Messages that have a command of their own stay held in their receive buffer until it comes. -/

namespace Sys2Proof.Machine

/-- Outgoing bundle towards a node (R568, R573). -/
def nextHop (s : State) (dst : Nat) : Option Nat :=
  if s.netMode = 3 then
    (let (hops, b) := tabGet (0, 0) s.net.routes dst
     if hops = 0 then none else some b)
  else
    match s.net.children.find? fun c => decide (c.base ≤ dst) && decide (dst < c.base + c.size.getD 0) && c.adopted with
    | some c => some c.bundle
    | none => if s.netMode = 2 then s.net.parent else none

/-- Hop limit of the mode (R568, R574). -/
def hopLimit (s : State) : Nat := if s.netMode = 3 then 4 else 6

/-- Send flits towards their destination; without a route they go nowhere. -/
def sendTo (dst : Nat) (flits : List (List Byte)) (s : State) : State :=
  match nextHop s dst with
  | some b => enqueue b flits s
  | none => s

/-- RSP to a node (Tables Network-7 and -8). -/
def sendRsp (dst rid status : Nat) (poison : BitVec 8) (data : Option (BitVec 512)) (s : State) : State :=
  let pay := leBytes 2 rid ++ leBytes 1 status ++ leBytes 1 poison.toNat
  sendTo dst (match data with
    | some d => mkMsg 6 1 dst s.ownAddr true (pay ++ leBytes 64 d.toNat)
    | none => mkMsg 6 1 dst s.ownAddr false pay) s

/-- A message without a route or at its hop limit: NOROUTE to a request, 0x0B13 for a BEAT (R579). The event's node is
the flit's source. -/
def routeDiscard (m : List (List Byte)) (s : State) : State :=
  let f := m.headD []
  if 2 ≤ fTy f ∧ fTy f ≤ 5 then sendRsp (fSrc f) (ofLeBytes ((msgPay m).take 2)) 3 0 none s
  else if fTy f = 7 then raise 0x0B13 [fSrc f, ofLeBytes ((msgPay m).take 2) % 1024, 1] s
  else s

/-- VC that Table Network-2 gives a TYPE. -/
def tyVc (ty : Nat) : Nat := if ty = 6 then 1 else if ty = 8 then 2 else if ty = 9 then 3 else 0

/-- Every asked child has answered and every adopted one has reported (R566). -/
def allReported (n : Net) : Bool := n.children.all fun c => c.adopted && c.size.isSome

/-- Addresses to the children in bundle order from a base on: preorder (R567). A child beyond the 64th address takes
none. -/
def giveBases : Nat → List Child → List Child
  | _, [] => []
  | a, c :: t => { c with base := a } :: giveBases (a + c.size.getD 0) t

/-- Take an address with a subtree and pass ASSIGN on (R567): 0x0B11. -/
def takeAddress (addr : Nat) (s : State) : State :=
  let kids := giveBases (addr + 1) s.net.children
  let total := kids.foldl (fun n c => n + c.size.getD 0) 1
  let range := min 63 (addr + total - 1)
  let s := s.modNet fun n =>
    { n with addr := some addr, range := range, nodes := range - addr + 1, settled := true, census := false,
             children := kids.filter (fun c => decide (c.base ≤ 63)) }
  let s := raise 0x0B11 [s.netMode, addr, range] s
  forEach kids (fun c s =>
    if c.base ≤ 63 then sendMgmt c.bundle 5 [(1, c.base), (1, addr)] s
    else raise 0x0B10 [((s.bun c.bundle).link.partner.getD 0).toNat, 2] s) s

/-- Report to the parent, or end the census, once everything is known (R566). -/
def censusMoves (s : State) : State :=
  if s.net.census && allReported s.net then
    if s.netMode = 1 then takeAddress 0 s
    else match s.net.parent with
      | some p =>
        let size := s.net.children.foldl (fun n c => n + c.size.getD 0) 1
        let deep := s.net.children.foldl (fun n c => max n (c.depth + 1)) 0
        sendMgmt p 4 [(1, size), (1, deep)] (s.modNet fun n => { n with census := false })
      | none => s
  else s

/-- CENSUS on the non-twin bundles that are not yet asked, except one: a manager asks those with INIT exchanged, a worker
those in UP (R563, R564). -/
def askChildren (depth : Nat) (except_ : Option Nat) (s : State) : State :=
  let l := (List.range 8).filter fun b =>
    !s.twinBundle b && (if s.netMode = 2 then (s.bun b).st == 6 else (s.bun b).link.st == 2) && except_ != some b &&
      !(s.net.children.any fun c => c.bundle == b)
  forEach l (fun b s => sendMgmt b 2 [(1, depth), (8, s.cfg.uid.toNat)]
    (s.modNet fun n => { n with children := n.children ++ [{ bundle := b }] })) s

/-- ADOPT arrives: 1 adopted, 0 refused (R564). -/
def takeAdopt (b : Nat) (yes : Bool) (s : State) : State :=
  let s := s.modNet fun n =>
    { n with children := (if yes then n.children.map (fun c => if c.bundle = b then { c with adopted := true } else c)
                          else n.children.filter (fun c => c.bundle != b)) }
  censusMoves (s.modLink b fun l => { l with adopted := yes })

/-- A NONCE arrives (R421, R424): the partner starts the session of one of its directions (log 12), so that a session which
still runs here ends and starts too. Its nonce is taken as it comes, once (log 113). -/
def takeNonce (b dir : Nat) (nonce : BitVec 128) (s : State) : State :=
  let rx := dir == 1
  if (s.sess b rx).heard = some nonce then s
  else
    let s := if (s.sess b rx).running then
        startSession b rx (raise 0x0A08 [b, dirCode rx, 3] (s.modSess b rx fun x => { x with running := false }))
      else s
    s.modSess b rx fun x => { x with peer := some nonce, heard := some nonce }

/-- An accepted message in its receive buffer: forwarded, discarded, taken at once, or left for its own command. -/
def deliverMsg (b : Nat) (m : List (List Byte)) (s : State) : State :=
  let f := m.headD []
  let vc := fVc f
  let drop := fun (s : State) => takeMsg b vc (fun g => g == f) s
  if fTy f = 9 then
    let kind := fb f 8
    if kind = 3 then drop (takeAdopt b (fb f 9 == 1) s)
    else if kind = 2 ∨ (4 ≤ kind ∧ kind ≤ 6) then s
    else drop s
  else if fTy f = 8 then (if s.netMode = 3 ∨ s.netMode = 0 then drop s else s)
  else if s.net.addr = some (fDst f) then s
  else if s.netMode = 0 ∨ hopLimit s ≤ fHops f then drop (routeDiscard m s)
  else match nextHop s (fDst f) with
    | none => drop (routeDiscard m s)
    | some o => enqueue o (m.map fun g => g.take 3 ++ leBytes 1 (fHops g + 1) ++ leBytes 4 0 ++ g.drop 8) (drop s)

/-- A flit that the receiver has accepted goes into its VC buffer, or is discarded as malformed (R549, R550); a TAG holds no credit
(R556). -/
def placeFlit (b : Nat) (f : List Byte) (s : State) : State :=
  let ty := fTy f
  let vc := fVc f
  let half := tabGet [] (s.bun b).link.firstHalf vc
  let heldNow := tabGet [] (s.bun b).link.held vc
  let heldBad := if half = [] then heldNow else heldNow.dropLast
  let bad := s.modLink b fun l =>
    { l with firstHalf := tabSet [] l.firstHalf vc [], held := tabSet [] l.held vc heldBad }
  if ty = 0 ∨ 0xA ≤ ty ∨ fPos f = 3 ∨ vc ≠ tyVc ty ∨ (fPos f = 2) ≠ (half ≠ []) ∨ (half ≠ [] ∧ fTy half ≠ ty)
      ∨ (s.twinBundle b ∧ ty ≠ 9) then
    raise 0x0B0F [b, ty, vc] (freeCredits b vc ((if ty = 0xA then 0 else 1) + if half = [] then 0 else 1) bad)
  else
    let s := s.modLink b fun l => { l with held := tabSet [] l.held vc (tabGet [] l.held vc ++ [f]),
                                           firstHalf := tabSet [] l.firstHalf vc (if fPos f = 1 then f else []) }
    if fPos f = 1 then s else deliverMsg b (if half = [] then [f] else [half, f]) s

/-- An accepted flit; on a non-twin bundle of a pair it takes effect at its stamped delivery, and the shadow discards
its own arrival (Table Twin-5, R601), but for the MGMT of a standby bundle (R617). -/
def acceptFlit (b : Nat) (f : List Byte) (s : State) : State :=
  if s.paired && !s.twinBundle b && !(s.standby b && fTy f == 9) then
    (if s.twn.role = 1 then sendTwin 15 (leBytes 1 b ++ f) s else s)
  else placeFlit b f s

/-- NAK to the partner, once per episode (R552). -/
def sendNak (b : Nat) (s : State) : State :=
  if (s.bun b).link.nakSent then s
  else sendLctl b 1 (s.bun b).link.ackVal (s.modLink b fun l => { l with nakSent := true })

/-- The session of a direction ends and a new one is asked for, with this reason of 0x0A08: 2 COUNTER, 3 RESTART. -/
def restartSession (b : Nat) (rx : Bool) (reason : Nat) (s : State) : State :=
  startSession b rx (raise 0x0A08 [b, dirCode rx, reason] (s.modSess b rx fun x => { x with running := false }))

/-- The key of a running session's direction shows a double-bit error: FAILED, and no session starts without it (R404, R420). -/
def sessionKeyFails (b : Nat) (rx : Bool) (s : State) : State :=
  let k := (s.sess b rx).index
  startSession b rx (useKey k (spoilKey k s))

/-- The compare of the two AES cores fails on the GCM path of a bundle (R430). -/
def gcmFault (b : Nat) (s : State) : State :=
  deviceFault 0x0A06 (raise 0x0A06 [2, b] (s.modCry fun c => { c with gcmBad := false }))

/-- The TAG flit of the record under reception (R422 to R425, R430, R560): what its tag gives is computed from what has
come. -/
def closeRecord (b : Nat) (tagFlit : List Byte) (engine : TagResult) (s : State) : State :=
  let l := (s.bun b).link
  let ss := s.sess b true
  let redo := fun (s : State) => sendNak b ((dropRecord b s).modLink b fun l => { l with nakSent := false })
  if ss.counter = 2 ^ 64 - 1 then restartSession b true 2 (redo s)
  else if engine = .keyError ∨ (s.key ss.index).dbl then sessionKeyFails b true (redo s)
  else if engine = .coreFault ∨ s.cry.gcmBad then redo (gcmFault b s)
  else if recordTag ss.key ss.counter l.record = (fPay tagFlit).take 16 then
    let s := s.modLink b fun l => { l with record := [], expect := (l.expect + 1) % 4096, nakSent := false }
    let s := s.modSess b true fun x => { x with counter := x.counter + 1, fails := 0 }
    forEach (cryptRecord ss.key ss.counter l.record) (fun f s => acceptFlit b f s) s
  else
    let s := s.modCry fun c => { c with authf := c.authf.add 1 }
    let s := raise 0x0A07 [b, ss.counter, ss.fails + 1] (s.modSess b true fun x => { x with fails := x.fails + 1 })
    let s := redo s
    if ss.fails + 1 = 3 then restartSession b true 3 s else s

/-- Records and other flits of the retry buffer go out (R423, R554). When the cores differ on the first record, nothing of it
is sent, and link retry brings it again (R430). -/
def sendSealed (b : Nat) (flits : List (List Byte)) (s : State) : State :=
  if s.cry.gcmBad && (s.sess b false).running && flits.any (fTy · == 0xA) then
    let s := gcmFault b s
    if s.wireOpen b then sendWire b ((flits.dropWhile (fTy · != 0xA)).drop 1) s else s
  else sendWire b flits s

/-- Resend the retry buffer from a sequence number (R553, R554). -/
def resendFrom (b seq : Nat) (s : State) : State :=
  let l := (s.bun b).link
  let old := (l.retry.headD []) |> fSeq
  let s := s.modLink b fun l => { l with replays := min 65535 (l.replays + 1), resends := l.resends + 1 }
  if s.wireOpen b then sendSealed b (l.retry.drop ((seq + 4096 - old) % 4096)) s else s

/-- A NAK's or timeout's resend, or after 8 in a row without ACK advancing 0x0B0D and RETRAIN (R553). -/
def resendOr (b seq : Nat) (s : State) : State :=
  let l := (s.bun b).link
  if l.retry = [] then s
  else if 8 ≤ l.resends then
    retrain b (raise 0x0B0D [b, fSeq (l.retry.headD [])] (s.modLink b fun l => { l with resends := 0 }))
  else resendFrom b seq s

/-- NAK with its sequence number (R553). -/
def takeNak (b seq : Nat) (s : State) : State := pump b (resendOr b seq (takeAck b (some seq) s))

/-- INIT arrives (R555, R617): the link resumes, or both ends clear the link store. -/
def takeInit (b expected : Nat) (freed : List Nat) (uid : BitVec 64) (fresh pair active : Bool) (s : State) : State :=
  let l := (s.bun b).link
  if (s.bun b).st ≠ 6 then s
  else if l.st = 2 then sendInit b s
  else
    let s := s.modLink b fun l => { l with st := 2, pair := pair, pairActive := !pair || active }
    if !l.fresh ∧ !fresh ∧ l.partner = some uid then
      let s := takeAck b (some expected) (takeFreed b freed s)
      let n := (s.bun b).link.retry.length
      let s := raise 0x0B0C [b, n] s
      pump b (if n = 0 then s else resendFrom b expected s)
    else
      let lost := fun v => ((l.retry.filter fun f => fVc f == v).length + l.heldOf v)
      let cause := if l.fresh ∨ fresh then 1 else 2
      let s := raise 0x0B0E [b, cause, lost 0, lost 1, lost 2, lost 3] s
      pump b (s.modLink b fun l => { l.clear with partner := some uid, fresh := false })

/-- LCTL: freed credits, ACK, and NAK or INIT when its KIND says so (Table Network-4). -/
def takeLctl (b : Nat) (f : List Byte) (s : State) : State :=
  let p := fPay f
  let kind := fb p 0
  let freedWord := ofLeBytes ((p.drop 1).take 6)
  let freed := (List.range 4).map fun v => freedWord >>> (12 * v) % 4096
  let seq := ofLeBytes ((p.drop 7).take 2) % 4096
  if kind / 2 % 2 = 1 then
    takeInit b seq freed (BitVec.ofNat 64 (ofLeBytes ((p.drop 10).take 8))) (kind / 4 % 2 == 1) (fb p 18 % 2 == 1)
      (fb p 18 / 2 % 2 == 1) s
  else
    let s := takeFreed b freed (takeAck b (fAck f) s)
    if kind % 2 = 1 then takeNak b seq s else pump b s

/-- A flit arrives on a bundle in UP (R550, R552, R560). A direction that is enabled holds what comes before its session has
started, unacknowledged, but for a NONCE (R420, R421, R426). -/
def takeFlit (b : BundleId) (bytes : FlitBytes) (tag : TagResult) (s : State) : State :=
  if (s.bun b).st ≠ 6 then s
  else
    let s := rxWake b s
    if !fCrcOk bytes then s.modLink b fun l => { l with crc := l.crc.add 1 }
    else if fTy bytes = 1 then takeLctl b bytes s
    else if (s.bun b).link.st ≠ 2 then s
    else
      let s := takeAck b (fAck bytes) s
      let s := if isNonce bytes then takeNonce b (fb bytes 9) (BitVec.ofNat 128 (ofLeBytes ((bytes.drop 10).take 16))) s else s
      let l := (s.bun b).link
      let d := (l.expect + 4096 - fSeq bytes) % 4096
      let ss := s.sess b true
      let s :=
        if d = 0 then
          (if ss.running && fTy bytes == 0xA then closeRecord b bytes tag s
          else if if ss.running then !isNonce bytes else ss.enabled && (!isNonce bytes || !l.record.isEmpty) then
            s.modLink b fun l => { l with record := l.record ++ [bytes], expect := (l.expect + 1) % 4096, nakSent := false }
          else acceptFlit b bytes (s.modLink b fun l => { l with expect := (l.expect + 1) % 4096, nakSent := false }))
        else if d ≤ 128 then s
        else sendNak b s
      pump b s

/-- NAK arrives (R553). -/
def execNakReceive (b : BundleId) (seq : BitVec 12) (s : State) : Host.Outcome State Fault Refusal :=
  done (if (s.bun b).st = 6 ∧ (s.bun b).link.st = 2 then takeNak b seq.toNat s else s)

/-- ACK has not advanced for 2 us while flits are held and the bundle is UP (R553). -/
def execReplayTimeout (b : BundleId) (s : State) : Host.Outcome State Fault Refusal :=
  done (if (s.bun b).st = 6 ∧ (s.bun b).link.st = 2 then resendOr b (fSeq ((s.bun b).link.retry.headD [])) s else s)

/-- INIT again while the exchange has not ended (R555). -/
def execInitResend (b : BundleId) (s : State) : Host.Outcome State Fault Refusal :=
  done (if (s.bun b).st = 6 ∧ (s.bun b).link.st = 1 then sendInit b s else s)

/-- INIT arrives (R555). -/
def execInitReceive (b : BundleId) (expected : BitVec 12) (freed : List (BitVec 12)) (uid : BitVec 64)
    (fresh pair active : Bool) (s : State) : Host.Outcome State Fault Refusal :=
  done (takeInit b expected.toNat (freed.map BitVec.toNat) uid fresh pair active s)

/-- Freed credits that no other LCTL has reported are reported (R556, R557). -/
def execLctlCreditSend (b : BundleId) (s : State) : Host.Outcome State Fault Refusal :=
  let l := (s.bun b).link
  done (if (s.bun b).st = 6 ∧ l.st = 2 ∧ l.freed ≠ l.reported then sendLctl b 0 0 s else s)

/-- A manager's bundle completes INIT: the census begins or goes on (R563). -/
def execCensusStart (b : BundleId) (s : State) : Host.Outcome State Fault Refusal :=
  done (if s.netMode = 1 ∧ !s.net.settled ∧ !s.twinBundle b ∧ (s.bun b).link.st = 2 then
    askChildren 0 none (s.modNet fun n => { n with census := true })
  else s)

/-- CENSUS arrives at a worker: collected, or refused once it has a parent (R564). -/
def execCensusReceive (b : BundleId) (depth : Fin 4) (uid : BitVec 64) (s : State) :
    Host.Outcome State Fault Refusal :=
  if s.linkHolds b then done s else
  let s := takeMsg b 3 (isMgmt 2) s
  done (if s.netMode = 2 ∧ !s.twinBundle b then
    (if s.net.parent.isNone ∧ !s.net.settled then
      s.modNet fun n => { n with heard := n.heard ++ [(b.val, depth.val, uid)], census := true }
    else sendMgmt b 3 [(1, 0)] s)
  else s)

/-- The better of two census senders: lowest depth, then unique ID, then bundle (R564). -/
def betterParent (x y : Nat × Nat × BitVec 64) : Nat × Nat × BitVec 64 :=
  let kx := (x.2.1, x.2.2.toNat, x.1)
  let ky := (y.2.1, y.2.2.toNat, y.1)
  if kx.1 < ky.1 ∨ (kx.1 = ky.1 ∧ (kx.2.1 < ky.2.1 ∨ (kx.2.1 = ky.2.1 ∧ kx.2.2 ≤ ky.2.2))) then x else y

/-- The 100 us of collection end: a parent is adopted, or none (R564, R565). -/
def execCensusCollectEnd (s : State) : Host.Outcome State Fault Refusal :=
  let heard := s.net.heard
  if s.netMode ≠ 2 ∨ heard = [] ∨ s.net.parent.isSome then done s
  else
    let s := s.modNet fun n => { n with heard := [] }
    match heard.filter fun h => decide (h.2.1 ≤ 2) with
    | [] =>
      let s := forEach heard (fun h s => sendMgmt h.1 3 [(1, 0)] s) s
      done (raise 0x0B10 [s.cfg.uid.toNat, 1] (s.modNet fun n => { n with census := false }))
    | h :: t =>
      let p := t.foldl betterParent h
      let s := s.modNet fun n => { n with parent := some p.1, depth := p.2.1 + 1 }
      let s := s.modLink p.1 fun l => { l with adopted := true }
      let s := forEach heard (fun h s => sendMgmt h.1 3 [(1, b2n (h.1 == p.1))] s) s
      done (censusMoves (askChildren (p.2.1 + 1) (some p.1) s))

/-- REPORT of an adopted child (R566). -/
def takeReport (b : BundleId) (size depth : Nat) (s : State) : State :=
  if s.linkHolds b then s else
  let s := takeMsg b 3 (isMgmt 4) s
  censusMoves (s.modNet fun n =>
    { n with children := n.children.map fun c =>
        if c.bundle = b.val ∧ c.adopted ∧ c.size.isNone then { c with size := some size, depth := depth } else c })

/-- 5 ms after its start the census ends; nodes that have not reported take no address (R566, R567). -/
def censusEnds (s : State) : State :=
  if !s.net.census then s
  else
    let late := s.net.children.filter fun c => c.adopted && c.size.isNone
    if s.netMode = 1 then
      let s := forEach late (fun c s => raise 0x0B10 [((s.bun c.bundle).link.partner.getD 0).toNat, 2] s) s
      takeAddress 0 (s.modNet fun n => { n with children := n.children.filter fun c => c.adopted && c.size.isSome })
    else raise 0x0B10 [s.cfg.uid.toNat, 2] (s.modNet fun n => { n with census := false })

/-- ASSIGN from the parent (R567, R569). -/
def execAssignReceive (b : BundleId) (base _parent : Fin 64) (s : State) : Host.Outcome State Fault Refusal :=
  if s.linkHolds b then done s else
  let s := takeMsg b 3 (isMgmt 5) s
  done (if s.netMode = 2 ∧ s.net.parent = some b.val ∧ s.net.addr.isNone then takeAddress base s else s)

/-- Own NODEINFO: links to the neighbours known from INIT (Table Network-6). -/
def ownInfo (s : State) : NodeInfo :=
  { uid := s.cfg.uid, addr := s.net.addr.map fun a => Fin.ofNat 64 a,
    proposed := Fin.ofNat 64 (if s.regB 0xB_8004 28 then s.regF 0xB_8004 0 6 else s.cfg.uid.toNat % 64),
    seq := s.net.seq,
    links := ((List.finRange 8).filter fun b => !s.twinBundle b.val && (s.bun b.val).link.st == 2).map
      fun b => (b, (s.bun b.val).link.partner.getD 0) }

/-- Put a NODEINFO into the database in the order of unique IDs. -/
def putInfo (i : NodeInfo) (db : List NodeInfo) : List NodeInfo :=
  let rest := db.filter fun j => j.uid != i.uid
  (rest.filter fun j => j.uid.toNat < i.uid.toNat) ++ [i] ++ rest.filter fun j => i.uid.toNat < j.uid.toNat

/-- Send a NODEINFO on every non-twin bundle in UP but one (R571). Up to six pairs go in a message. -/
def flood (i : NodeInfo) (except_ : Option Nat) (s : State) : State :=
  let args : List (Nat × Nat) :=
    [(8, i.uid.toNat), (1, match i.addr with | some a => 128 + a.val | none => 0), (1, i.proposed.val), (4, i.seq)]
      ++ (i.links.take 6).flatMap fun (b, u) => [(1, b.val), (8, u.toNat)]
  forEach ((List.range 8).filter fun b => !s.twinBundle b && (s.bun b).link.st == 2 && except_ != some b)
    (fun b s => sendMgmt b 6 args s) s

/-- Send the own NODEINFO with its sequence advanced (R571). -/
def announce (s : State) : State :=
  let s := s.modNet fun n => { n with seq := n.seq + 1 }
  let i := ownInfo s
  flood i none (s.modNet fun n => { n with database := putInfo i n.database })

/-- Discovery begins (R571). -/
def execDiscoveryStart (s : State) : Host.Outcome State Fault Refusal :=
  done (if s.netMode = 3 then announce (s.modNet fun n => { n with settled := false }) else s)

/-- NODEINFO: a newer one is stored and forwarded (R571). -/
def execNodeinfoReceive (b : BundleId) (info : NodeInfo) (s : State) : Host.Outcome State Fault Refusal :=
  if s.linkHolds b then done s else
  let s := takeMsg b 3 (isMgmt 6) s
  let newer : Bool := match s.net.database.find? fun j => j.uid == info.uid with
    | some j => decide (j.seq < info.seq)
    | none => true
  done (if s.netMode == 3 && newer && info.uid != s.cfg.uid then
    flood info (some b) (s.modNet fun n => { n with database := putInfo info n.database, settled := false })
  else s)

/-- Addresses at settling (R572): those held, then the lowest unique ID per proposed free address, then the lowest free
ones in the order of unique IDs. The database stands in that order. Pairs of unique ID and address. -/
def settleAddrs (db : List NodeInfo) : List (BitVec 64 × Nat) :=
  let heldA := db.filterMap fun i => i.addr.map fun a => (i.uid, a.val)
  let want := db.filter fun i => i.addr.isNone
  let first := want.foldl (fun (acc : List (BitVec 64 × Nat)) i =>
    if acc.any fun p => p.2 == i.proposed.val then acc else acc ++ [(i.uid, i.proposed.val)]) heldA
  (want.filter fun i => !(first.any fun p => p.1 == i.uid)).foldl (fun acc i =>
    match (List.range 64).find? fun a => !(acc.any fun p => p.2 == a) with
    | some a => acc ++ [(i.uid, a)]
    | none => acc) first

/-- Hop distances from the root: n rounds of relaxation. -/
def rootDist (db : List NodeInfo) : Nat → List (BitVec 64 × Nat)
  | 0 => (db.take 1).map fun i => (i.uid, 0)
  | n + 1 =>
    let d := rootDist db n
    db.foldl (fun acc i => i.links.foldl (fun acc l =>
      match d.find? fun p => p.1 == i.uid with
      | some p => if acc.any fun q => q.1 == l.2 then acc else acc ++ [(l.2, p.2 + 1)]
      | none => acc) acc) d

/-- A move from u to v goes up: v is nearer to the root, or as near with the lower unique ID (R573). -/
def goesUp (d : List (BitVec 64 × Nat)) (u v : BitVec 64) : Bool :=
  let du : Nat := ((d.find? fun p => p.1 == u).map (·.2)).getD 64
  let dv : Nat := ((d.find? fun p => p.1 == v).map (·.2)).getD 64
  decide (dv < du) || (dv == du && decide (v.toNat < u.toNat))

/-- Routes of at most n bundles: (node, went down, hops, first bundle), shortest first and then lowest bundle. -/
def legalRoutes (db : List NodeInfo) (d : List (BitVec 64 × Nat)) (self : BitVec 64) :
    Nat → List (BitVec 64 × Bool × Nat × Nat)
  | 0 => [(self, false, 0, 8)]
  | n + 1 =>
    let r := legalRoutes db d self n
    (r.filter fun x => x.2.2.1 == n).foldl (fun acc x =>
      match db.find? fun i => i.uid == x.1 with
      | none => acc
      | some i => i.links.foldl (fun acc l =>
          let up := goesUp d x.1 l.2
          if up && x.2.1 then acc
          else
            let b := if x.2.2.2 = 8 then l.1.val else x.2.2.2
            let y := (l.2, !up, n + 1, b)
            if acc.any fun z => z.1 == y.1 && z.2.1 == y.2.1 && (decide (z.2.2.1 < n + 1) || decide (z.2.2.2 ≤ b)) then acc
            else acc.filter (fun z => !(z.1 == y.1 && z.2.1 == y.2.1)) ++ [y]) acc) r

/-- The best of the routes to a node: fewest bundles, then the lowest outgoing one. -/
def bestRoute (r : List (BitVec 64 × Bool × Nat × Nat)) (u : BitVec 64) : Option (Nat × Nat) :=
  (r.filter fun x => x.1 == u && x.2.2.1 != 0).foldl (fun acc x =>
    match acc with
    | none => some (x.2.2.1, x.2.2.2)
    | some (h, b) => if x.2.2.1 < h ∨ (x.2.2.1 = h ∧ x.2.2.2 < b) then some (x.2.2.1, x.2.2.2) else some (h, b)) none

/-- Discovery settles: addresses and the routing table (R572 to R574). -/
def execDiscoverySettle (s : State) : Host.Outcome State Fault Refusal :=
  if s.netMode ≠ 3 ∨ s.net.settled then done s
  else
    let db := s.net.database
    let addrs := settleAddrs db
    let own := (addrs.find? fun p => p.1 == s.cfg.uid).map (·.2)
    let d := rootDist db 64
    let r := legalRoutes db d s.cfg.uid 4
    let others := addrs.filter fun p => p.1 != s.cfg.uid
    let routes := others.foldl (fun t p => match bestRoute r p.1 with
      | some x => tabSet (0, 0) t p.2 x
      | none => t) []
    let took := s.net.addr.isNone && own.isSome
    let s := s.modNet fun n => { n with addr := own, nodes := addrs.length, routes := routes, settled := true }
    let s := if took then raise 0x0B11 [3, own.getD 0, (ownInfo s).proposed.val] s else s
    let s := forEach others (fun p s => if (bestRoute r p.1).isNone then raise 0x0B10 [p.2, 3] s else s) s
    done (if took then announce s else s)

/-- The session key (R421): the KDF under the bound key, the context being the transmitter's nonce followed by the
receiver's. -/
def sessionKey (key : List Byte) (txNonce rxNonce : BitVec 128) : List Byte :=
  kdf256 key (Config.kdfLabel) (leBytes 16 txNonce.toNat ++ leBytes 16 rxNonce.toNat)

/-- Unacknowledged records take new counter values in their order (R424). -/
def recount (l : List (List Byte)) : List (List Byte) :=
  (l.foldl (fun (acc : List (List Byte) × Nat) f =>
    if fTy f = 0xA then (acc.1 ++ [f.take 8 ++ fitBytes 52 (leBytes 8 acc.2) ++ f.drop 60], acc.2 + 1)
    else (acc.1 ++ [f], acc.2)) ([], 0)).1

/-- The nonces have been exchanged and a session starts on a direction (R420, R421): its key, counter 0, new counter values for
unacknowledged records (R424). What a receiver has held of the session before goes back, and comes again (log 113). -/
def execSessionEstablish (b : BundleId) (transmit : Bool) (s : State) : Host.Outcome State Fault Refusal :=
  let rx := !transmit
  let ss := s.sess b rx
  match ss.own, ss.peer with
  | some own, some peer =>
    if ss.enabled ∧ !ss.running ∧ (s.bun b).st = 6 ∧ !s.inReset 5 then
      let s := useKey ss.index s
      if !linkKeyOk s ss.index then done (startSession b rx s)
      else
        let tags := if transmit then ((s.bun b).link.retry.filter fun f => fTy f == 0xA).length else 0
        let s := s.modSess b rx fun x =>
          { x with running := true, counter := tags, fails := 0, own := none, peer := none,
                   key := sessionKey (s.key ss.index).key (if transmit then own else peer) (if transmit then peer else own) }
        let s := s.modCry fun c => { c with started := tabMod 0 c.started b fun n => (n + 1) % 65536 }
        let s := if transmit then s.modLink b fun l => { l with retry := recount l.retry }
          else if (s.bun b).link.record.isEmpty then s
          else sendNak b ((dropRecord b s).modLink b fun l => { l with nakSent := false })
        done (pump b s)
    else done s
  | _, _ => done s

/-- Flits of a VC that a record may carry, within credits and retry places: 16, or whole messages (R421, R559). -/
def recordOf (s : State) (b vc : Nat) : List (List Byte) :=
  let l := (s.bun b).link
  let n := min 16 (min (s.credits b vc) (127 - l.retry.length))
  let r := (l.waiting.filter fun f => fVc f == vc && !isNonce f).take n
  if r.length < 16 && (r.getLast?.any fun f => fPos f == 1) then r.dropLast else r

/-- The flits of the next record: those of the first VC in waiting order that may send (R559). -/
def nextRecord (s : State) (b : Nat) : List (List Byte) :=
  (((s.bun b).link.waiting.map fun f => recordOf s b (fVc f)).find? fun r => !r.isEmpty).getD []

/-- What waits once the first n flits of a VC that a record may carry have left. -/
def leaveWaiting (vc : Nat) : Nat → List (List Byte) → List (List Byte)
  | 0, l => l
  | _, [] => []
  | n + 1, f :: t => if fVc f = vc ∧ !isNonce f then leaveWaiting vc n t else f :: leaveWaiting vc (n + 1) t

/-- The transmitter encrypts a record under the next counter value and sends it with its tag (R422, R423, R559); the
counter's last value is never used (R425). -/
def execRecordSend (b : BundleId) (aesFault keyError : Bool) (s : State) : Host.Outcome State Fault Refusal :=
  let ss := s.sess b false
  let rec_ := nextRecord s b
  if !ss.running || !s.wireOpen b || rec_.isEmpty || s.standby b then done s
  else if keyError || (s.key ss.index).dbl then done (sessionKeyFails b false s)
  else if ss.counter = 2 ^ 64 - 1 then done (restartSession b false 2 s)
  else
    let n := (s.bun b).link.retry.length
    let vc := fVc (rec_.headD [])
    let tag := mkFlit 0xA vc 0 0 0 0 (leBytes 8 ss.counter)
    let s := s.modLink b fun l => { l with waiting := leaveWaiting vc rec_.length l.waiting }
    let s := forEach (rec_ ++ [tag]) (fun f s => bufferFlit b f s) s
    let s := s.modSess b false fun x => { x with counter := x.counter + 1 }
    done (sendSealed b ((s.bun b).link.retry.drop n) (s.modCry fun c => { c with gcmBad := c.gcmBad || aesFault }))

end Sys2Proof.Machine
end

