-- ==== Sys2Proof/Machine/Grotto.lean ====
section
/-! DEFINITION. Grotto (07_grotto.md): the word code, accesses to a line, the column port, scrubbing, repair and bank
modes. Data bytes stand in `Grotto.mem`, wrong stored bits in `Grotto.errs`; an access of the side port acts whole in
the command that makes it, after what its bank had queued (R264, R269). -/

namespace Sys2Proof.Machine

/- ### Addresses: line number L = offset bits 26:6, word number W = offset bits 26:3 (R257) -/

/-- GROUP of a line number: offset bits 26:19 (Table Grotto-1). -/
def lineGroup (l : Nat) : Nat := l / 8192 % 256
/-- The side port's link that serves a group: the one of its quadrant (R269), in the order of the nodes 0x77, 0x78, 0x87,
0x88. -/
def linkOf (g : Nat) : Nat := g % 16 / 8 + 2 * (g / 16 / 8)
/-- LINE in the bank: offset bits 18:9. -/
def lineOf (l : Nat) : Nat := l / 8 % 1024
/-- BANK: offset bits 8:6. -/
def lineBank (l : Nat) : Nat := l % 8
/-- Bank number 8 g + b of a line. -/
def bankOf (l : Nat) : Nat := 8 * lineGroup l + lineBank l
/-- The line number of line i of a bank. -/
def bankLine (bank i : Nat) : Nat := 8192 * (bank / 8) + 8 * i + bank % 8
/-- The line of a byte offset lies in this bank. -/
def inBank (bank off : Nat) : Bool := bankOf (off / 64) == bank

/-- Stored data of word W without its errors (R259, R281). -/
def wordData (s : State) (w : Nat) : BitVec 64 := BitVec.ofNat 64 (ofLeBytes (tabRange 0 s.grt.mem (8 * w) 8))
/-- Wrong stored bits of word W. -/
def wordErr (s : State) (w : Nat) : BitVec 80 := tabGet 0 s.grt.errs w
/-- Stored POISON of word W. -/
def wordPoison (s : State) (w : Nat) : Bool := s.grt.poison.contains w
/-- The data bits as the array gives them. -/
def wordAsRead (s : State) (w : Nat) : BitVec 64 := wordData s w ^^^ (wordErr s w).setWidth 64

/-- Set the data and POISON of a word, with valid check bits. -/
def putWord (w : Nat) (d : BitVec 64) (p : Bool) (s : State) : State :=
  s.modGrt fun g => { g with mem := tabPuts 0 g.mem (8 * w) (leBytes 8 d.toNat),
                             poison := if p then setAdd w g.poison else setDel w g.poison,
                             errs := tabDel g.errs w }

/-- What the check finds (R273, Tables Grotto-5 and -6): 0 no error, 1 and 2 corrected bits, 3 uncorrectable; the data
delivered; the poison flag delivered. -/
def checkWord (s : State) (w : Nat) : Nat × BitVec 64 × Bool :=
  let e := wordErr s w
  let p := wordPoison s w
  let n := popcount e
  let kind := if n ≤ 3 then n else Config.manyBitOutcome e
  if n ≤ 2 then (n, wordData s w, p)
  else match kind with
    | 0 => (0, wordAsRead s w, p != bit e 79)
    | 1 => (1, wordData s w ^^^ Config.manyBitData e, p)
    | 2 => (2, wordData s w ^^^ Config.manyBitData e, p)
    | _ => (3, wordAsRead s w, true)

/-- The place among n to which exchanges of places take place x. -/
def swapTo (l : List (Nat × Nat)) (n x : Nat) : Nat :=
  l.foldl (fun x p => if x = p.1 % n then p.2 % n else if x = p.2 % n then p.1 % n else x) x

/-- The number of a bit-line column of a bank, 256 sub-array + column (R259): a sub-array gives 32 stored bits of a line,
each from one of eight columns, and a line lies in one of 128 rows of eight (log 19). -/
def columnOf (l pos : Nat) : Nat :=
  8 * swapTo (Config.bitSwaps (bankOf l)) 640 pos + swapTo (Config.lineSwaps (bankOf l)) 1024 (lineOf l) % 8

/-- One more corrected error on a logged bit-line column (R291). -/
def logColumn (bank col : Nat) (s : State) : State :=
  s.modBank bank fun b =>
    if b.repairs.any fun r => 256 * r.1 + r.2.1 == col then b
    else match b.log.find? fun p => p.1 == col with
    | some _ => { b with log := b.log.map fun p => if p.1 = col then (col, p.2 + 1) else p }
    | none =>
      if b.log.length < 4 then { b with log := b.log ++ [(col, 1)] }
      else
        let low := b.log.foldl (fun m p => min m p.2) (b.log.headD (0, 0)).2
        match b.log.findIdx? fun p => p.2 == low with
        | some i => { b with log := b.log.set i (col, 1) }
        | none => b

/-- Log every corrected bit of word W. -/
def logWord (w : Nat) (s : State) : State :=
  forEach (bitsOf (wordErr s w)) (fun i s => logColumn (bankOf (w / 8)) (columnOf (w / 8) (80 * (w % 8) + i)) s) s

/-- A rewrite of the word with what its read gave waits for an idle cycle (R275); one that waits already stands. -/
def queueRewrite (w : Nat) (data : BitVec 64) (poison : Bool) (s : State) : State :=
  s.modBank (bankOf (w / 8)) fun b =>
    if b.rewrites.any fun r => r.word == w then b else { b with rewrites := b.rewrites ++ [⟨w, data, poison⟩] }

/-- The record fields of 0x0702, 0x0703 and 0x0706; sources 1 port tier, 2 side port, 3 merge, 4 scrub. -/
def wordFields (w src : Nat) : List Nat :=
  [lineGroup (w / 8), lineBank (w / 8), lineOf (w / 8), w % 8, src]

/-- One read of a stored word with its check (R274): data, poison flag, uncorrectable. `bad` says that the syndrome
names address bits. -/
def readWord (src w : Nat) (bad : Bool) (s : State) : (BitVec 64 × Bool × Bool) × State :=
  if bad then
    ((wordAsRead s w, true, true),
      raise 0x0706 (wordFields w src) (s.modGrt fun g => { g with ue := g.ue.add 1 }))
  else
    let (kind, d, p) := checkWord s w
    match kind with
    | 0 => ((d, p, false), s)
    | 1 => ((d, p, false), queueRewrite w d p (logWord w (s.modGrt fun g => { g with ce := g.ce.add 1 })))
    | 2 => ((d, p, false), queueRewrite w d p (logWord w
        (raise 0x0702 (wordFields w src) (s.modGrt fun g => { g with de := g.de.add 1 }))))
    | _ => ((d, true, true), queueRewrite w d true
        (raise 0x0703 (wordFields w src) (s.modGrt fun g => { g with ue := g.ue.add 1 })))

/-- Perform a rewrite: what the read gave, with valid check bits (R275). -/
def performRewrite (r : Rewrite) (s : State) : State :=
  (putWord r.word r.data r.poison s).modBank (bankOf (r.word / 8)) fun b =>
    { b with rewrites := b.rewrites.filter fun x => x.word != r.word }

/-- Perform the rewrite of word W that waits, if one does. -/
def rewriteNow (w : Nat) (s : State) : State :=
  match (s.bank (bankOf (w / 8))).rewrites.find? fun r => r.word == w with
  | some r => performRewrite r s
  | none => s

/-- Store a word: the bank drops rewrites read before, and an armed injection inverts the named bits (R275, R306). -/
def storeWord (w : Nat) (d : BitVec 64) (p : Bool) (s : State) : State :=
  let s := (putWord w d p s).modBank (bankOf (w / 8)) fun b =>
    { b with rewrites := b.rewrites.filter fun r => r.word != w }
  let ctl := s.reg 0x7_0020
  if bit ctl 31 ∧ (s.reg 0x7_001C).toNat % 2 ^ 24 = w then
    let pos := (List.range (fld ctl 29 2)).map fun i => fld ctl (8 + 7 * i) 7
    (s.setReg 0x7_0020 (ctl &&& 0x7FFF_FFFF)).modGrt fun g => { g with errs := tabSet 0 g.errs w (ofBits 80 pos) }
  else s

/-- Data with the enabled bytes changed by an operation of Table Grotto-3 (1 WRITE, 2 BITSET, 3 BITCLR). -/
def mergeData (op : Nat) (old new : BitVec 64) (be : BitVec 8) : BitVec 64 :=
  let m : BitVec 64 := BitVec.ofNat 64 (ofLeBytes ((List.range 8).map fun i => if bit be i then (255 : Byte) else 0))
  match op with
  | 1 => (old &&& ~~~m) ||| (new &&& m)
  | 2 => old ||| (new &&& m)
  | _ => old &&& ~~~(new &&& m)

/-- Word i of a line of 512 bits. -/
def wordAt (d : BitVec 512) (i : Nat) : BitVec 64 := d.extractLsb' (64 * i) 64

/-- A WRITE, BITSET or BITCLR on one word (R261, R262, R277): a merge reads and checks the word first. -/
def writeWord (op w : Nat) (be : BitVec 8) (d : BitVec 64) (p bad : Bool) (s : State) : State :=
  if be = 0 then s
  else if op = 1 ∧ be = 0xFF then storeWord w d p s
  else
    let ((old, poisoned, lost), s) := readWord 3 w bad s
    if poisoned || lost then s
    else storeWord w (mergeData op old d be) (if op = 1 then p else false) s

/-- A line of eight words from words. -/
def lineData (ws : List (BitVec 64)) : BitVec 512 :=
  BitVec.ofNat 512 (ofLeBytes (ws.flatMap fun w => leBytes 8 w.toNat))

/-- An access to an OFF bank is counted for 0x0709 (R298). -/
def countOff (bank : Nat) (s : State) : State :=
  s.modGrt fun g => { g with offTick := tabMod 0 g.offTick bank (· + 1) }

/-- State of a bank as GRT_GSTATn shows it (Table Grotto-8, R300): 0 AWAKE, 1 DROWSY, 2 OFF, 3 FILLING. -/
def State.bankState (s : State) (i : Nat) : Nat :=
  let st := (s.bank i).state
  if st = 0 ∧ (s.pstate = 3 ∨ s.pstate = 4) then 1 else st

/-- One access to a line at its bank, whole (R262): operation, line, byte enables, data, poison flags, words whose
syndrome names address bits, source; the answer is data, poison flags and whether the bank was OFF. -/
def accessLine (op l : Nat) (be : BitVec 64) (data : BitVec 512) (poison addrErr : BitVec 8) (src : Nat) (s : State) :
    (BitVec 512 × BitVec 8 × Bool) × State :=
  if s.bankState (bankOf l) = 2 then ((0, 0xFF, true), countOff (bankOf l) s)
  else if op = 0 then
    let (ws, s) := (List.range 8).foldl (fun (acc : List (BitVec 64 × Bool) × State) i =>
      let ((d, p, _), s') := readWord src (8 * l + i) (bit addrErr i) acc.2
      (acc.1 ++ [(d, p)], s')) ([], s)
    ((lineData (ws.map (·.1)), ofBits 8 ((withPos ws).filterMap fun (i, w) => if w.2 then some i else none), false), s)
  else
    ((0, 0, false), forEach (List.range 8) (fun i s =>
      writeWord op (8 * l + i) (be.extractLsb' (8 * i) 8) (wordAt data i) (bit poison i) (bit addrErr i) s) s)

/- ### Bank modes -/

/-- GRT_GRPn. -/
def grpModeReg (n : Nat) : Nat := 0x7_1000 + 4 * n
/-- Mode of a bank (Table Grotto-7, R301). -/
def bankMode (s : State) (i : Nat) : Nat := s.regF (grpModeReg (i / 8)) (2 * (i % 8)) 2

/-- The state that a powered bank rests in under its mode. -/
def restState (s : State) (i : Nat) : Nat := if bankMode s i = 2 then 1 else 0

/-- The contents of a bank become zero words with valid check bits (R280, R299) or are lost. -/
def clearBank (i : Nat) (s : State) : State :=
  (s.modGrt fun g => { g with mem := g.mem.filter (fun c => !inBank i c.1), poison := g.poison.filter (fun w => !inBank i (8 * w)),
                              errs := g.errs.filter (fun p => !inBank i (8 * p.1)) }).modBank i fun b =>
    { b with rewrites := [], toRewrite := [] }

/-- A bank's fill ends (R299). -/
def endBankFill (i : Nat) (s : State) : State :=
  if (s.bank i).state = 3 then s.modBank i fun b => { b with state := restState s i } else s

/- ### Bank queues -/

/-- The next queued access: column port and mesh in alternation when both wait (R270). -/
def nextAccess (b : Bank) : Option (BankAcc × List BankAcc) :=
  match takeFirst (fun a => a.mesh != b.lastMesh) b.queue with
  | some x => some x
  | none => takeFirst (fun _ => true) b.queue

/-- The answer of a column-port read goes to its place in the connection's reads (R264). -/
def answerRead (a : BankAcc) (data : BitVec 512) (poison : BitVec 8) (off : Bool) (s : State) : State :=
  s.modChm a.chamber fun ch =>
    match ch.reads.findIdx? fun r => r.line == a.line && r.stratum == a.stratum && r.resp.isNone with
    | some i => { ch with reads := ch.reads.set i ⟨a.stratum, a.line, some ⟨a.stratum, data, poison⟩, off⟩ }
    | none => ch

/-- The bank performs its next queued access (R262 to R264, R270, R297). -/
def performNext (i : Nat) (addrErr : BitVec 8) (s : State) : State :=
  match nextAccess (s.bank i) with
  | none => s
  | some (a, rest) =>
    let s := s.modBank i fun b => { b with queue := rest, lastMesh := a.mesh }
    let ((d, p, off), s) := accessLine a.op a.line a.be a.data a.poison addrErr 1 s
    let s := if a.op = 0 ∧ !a.gone then answerRead a d p off s else s
    s.modBank i fun b => { b with state := if b.state = 2 then 2 else if rest = [] then restState s i else 0 }

/-- The words of a line whose check names address bits, from the list that the environment gives (R274). -/
def addrMask (bad : List Nat) (l : Nat) : BitVec 8 := ofBits 8 ((List.range 8).filter fun i => bad.contains (8 * l + i))

/-- The bank performs its next queued access with the address errors that the environment gives. -/
def performWith (bad : List Nat) (i : Nat) (s : State) : State :=
  match nextAccess (s.bank i) with
  | none => s
  | some (a, _) => performNext i (addrMask bad a.line) s

/-- The bank performs everything it has queued. -/
def drainBank (bad : List Nat) (i : Nat) (s : State) : State :=
  forEach (s.bank i).queue (fun _ s => performWith bad i s) s

/-- A bank's mode has become m (R298, R299): one that goes OFF first performs what it has queued, and a bank that leaves
OFF is filled, after it has answered what it has queued as the OFF bank it was. One that leaves OFF before its array has
been powered off is filled when it would have been. -/
def setBankMode (i m : Nat) (s : State) : State :=
  let st := (s.bank i).state
  if m = 3 then (if st = 2 then s else s.modBank i fun b => { b with goingOff := true })
  else if st = 2 then clearBank i ((drainBank [] i s).modBank i fun b => { b with state := 3 })
  else if st = 3 ∨ (s.bank i).goingOff then s
  else s.modBank i fun b => { b with state := if m = 2 ∧ b.queue = [] then 1 else 0 }

/-- An access of the mesh that arrives last is the next one that the bank performs (R270). -/
def meshNext (b : Bank) : Bool := b.queue.isEmpty || (!b.lastMesh && !b.queue.any (·.mesh))

/-- What the bank performs before an access of the mesh that has just arrived: the mesh's earlier ones, in alternation with
the column port's (R270). -/
def serveAhead (bad : List Nat) (i : Nat) (s : State) : State :=
  forEach (s.bank i).queue (fun _ s => if meshNext (s.bank i) then s else performWith bad i s) s

/-- An access of the side port, which comes over the mesh: it waits for a fill to end, takes its turn at the bank and wakes
it (R264, R270, R271, R296). `bad` are the words whose check names address bits. -/
def sideAccess (op l : Nat) (be : BitVec 64) (data : BitVec 512) (poison : BitVec 8) (bad : List Nat) (s : State) :
    (BitVec 512 × BitVec 8 × Bool) × State :=
  let i := bankOf l
  let (r, s) := accessLine op l be data poison (addrMask bad l) 2 (serveAhead bad i (endBankFill i s))
  (r, s.modBank i fun b =>
    { b with lastMesh := true, state := if b.state = 2 then 2 else if b.queue = [] then restState s i else 0 })

/-- A closed fence on this boundary for a reset of MEM answers with ABORT (R36, R39). -/
def memFenced (s : State) (boundary : Nat) : Bool := bit (BitVec.ofNat 16 (tabGet 0 s.rst.closedFor boundary)) 3
/-- Transfers of n bytes from an offset on are stopped: a link that they take has a lost group (R109, R269). -/
def sideStopped (s : State) (off n : Nat) : Bool :=
  let down := downLinks s
  !down.isEmpty && (List.range ((off % 64 + n + 63) / 64)).any fun i => down.contains (linkOf (lineGroup (off / 64 + i)))

/-- The side port gives ABORT. -/
def sideAborts (s : State) : Bool := memFenced s 3 || s.inReset 3

/-- Count poisoned words delivered to a receiver in this tick (R276): 1000 code + column for a column port. -/
def countPoison (receiver : Nat) (p : BitVec 8) (s : State) : State :=
  if p = 0 then s else s.modGrt fun g => { g with poisonTick := tabMod 0 g.poisonTick receiver (· + popcount p) }

/-- Read one line through the side port for a receiver (2 queue engine, 3 BAR2, 4 network): data and poison flags. Of
its poisoned words those in `cover` count as delivered now (R276). -/
def sideRead (receiver l : Nat) (cover : BitVec 8) (bad : List Nat) (s : State) : (BitVec 512 × BitVec 8) × State :=
  let ((d, p, off), s) := sideAccess 0 l 0 0 0 bad s
  ((d, p), if off then s else countPoison (1000 * receiver) (p &&& cover) s)

/-- Write, BITSET or BITCLR bytes from an offset on through the side port, line by line; `be` enables each byte and
POISON comes from `poison` of the byte's word. Receivers see whole lines (R262, R278, R279). -/
def sideWrite (op off : Nat) (bytes : List (Option Byte)) (poison : Nat → Bool) (bad : List Nat) (s : State) : State :=
  let first := off / 64
  let last := (off + bytes.length - 1) / 64
  if bytes = [] then s else
  forEach (List.range (last + 1 - first)) (fun i s =>
    let l := first + i
    let at_ (j : Nat) : Option Byte := if 64 * l + j < off then none else bytes.getD (64 * l + j - off) none
    let be := ofBits 64 ((List.range 64).filter fun j => (at_ j).isSome)
    let data := BitVec.ofNat 512 (ofLeBytes ((List.range 64).map fun j => (at_ j).getD 0))
    let pz := ofBits 8 ((List.range 8).filter fun w => poison (8 * l + w))
    (sideAccess op (l % 2 ^ 21) be data pz bad s).2) s

/-- Words of line l that bytes from `off` to `stop` begin to cover, in a transfer that began at byte `start`. -/
def newWords (start off stop l : Nat) : BitVec 8 :=
  ofBits 8 ((List.range 8).filter fun i =>
    let at_ := max start (64 * l + 8 * i)
    decide (off ≤ at_) && decide (at_ < stop) && decide (at_ < 64 * l + 8 * i + 8))

/-- Read n bytes from an offset through the side port, in a transfer that began at `start`: bytes and the poison flag of
each byte's word. -/
def sideBytes (receiver start off n : Nat) (bad : List Nat) (s : State) : List (Byte × Bool) × State :=
  if n = 0 then ([], s) else
  let first := off / 64
  let last := (off + n - 1) / 64
  let (all, s) := (List.range (last + 1 - first)).foldl (fun (acc : List (Byte × Bool) × State) i =>
    let ((d, p), s') := sideRead receiver ((first + i) % 2 ^ 21) (newWords start off (off + n) (first + i)) bad acc.2
    (acc.1 ++ (withPos (leBytes 64 d.toNat)).map fun (j, b) => (b, bit p (j / 8)), s')) ([], s)
  ((all.drop (off - 64 * first)).take n, s)

/- ### The column port -/

/-- Writes accepted from a connection and not yet performed. -/
def heldWrites (s : State) (c : Nat) : Nat :=
  s.grt.banks.foldl (fun n p => n + p.2.queue.countP fun a => a.chamber == c && a.op != 0) 0

/-- A request of a chamber's tier connection (R142, R226, R242, R260 to R265): a closed fence answers ABORT (R39), that
of its own tier too until it reopens (R44, log 97), a full place refuses it (unchanged), otherwise it is queued at its bank. -/
def portRequest (c op l : Nat) (be : BitVec 64) (data : BitVec 512) (poison : BitVec 8) (s : State) : State :=
  let ch := s.chm c
  let k := ch.sel
  let i := bankOf l
  if s.chmState c ≠ 1 ∨ !gportOf ch.selWords ∨ (pinActsFor s c).isNone then s
  else if memFenced s 2 || s.inReset 3 || s.fenced (tierOf c) then s.send (.portAbort c k)
  else if 4 ≤ (s.bank i).queue.length then s
  else if op = 0 ∧ 16 ≤ (ch.reads.countP fun r => r.stratum == k) + (ch.strat k).parked.length then s
  else if op ≠ 0 ∧ 16 ≤ heldWrites s c then s
  else
    let a : BankAcc := { chamber := c, stratum := k, op := op, line := l, be := be, data := data, poison := poison,
                         mesh := colOf c != lineGroup l }
    let s := s.modBank i fun b => { b with queue := b.queue ++ [a] }
    if op = 0 then s.modChm c fun ch => { ch with reads := ch.reads ++ [{ stratum := k, line := l }] } else s

/-- A READ at the column port of a chamber (R261, R264). -/
def execGrottoRead (c : ChamberId) (line : BitVec 21) (s : State) : Host.Outcome State Fault Refusal :=
  done (portRequest c 0 line.toNat 0 0 0 s)

/-- A WRITE at the column port (R261, R277). -/
def execGrottoWrite (c : ChamberId) (line : BitVec 21) (be : BitVec 64) (data : BitVec 512) (poison : BitVec 8)
    (s : State) : Host.Outcome State Fault Refusal :=
  done (portRequest c 1 line.toNat be data poison s)

/-- A BITSET at the column port (R261, Table Grotto-3). -/
def execGrottoBitset (c : ChamberId) (line : BitVec 21) (be : BitVec 64) (data : BitVec 512) (s : State) :
    Host.Outcome State Fault Refusal :=
  done (portRequest c 2 line.toNat be data 0 s)

/-- A BITCLR at the column port (R261, Table Grotto-3). -/
def execGrottoBitclr (c : ChamberId) (line : BitVec 21) (be : BitVec 64) (data : BitVec 512) (s : State) :
    Host.Outcome State Fault Refusal :=
  done (portRequest c 3 line.toNat be data 0 s)

/-- The bank performs a queued access, unless it is filling or MEM is in reset. -/
def execBankAccess (bank : BankId) (addrErr : BitVec 8) (s : State) : Host.Outcome State Fault Refusal :=
  done (if s.inReset 3 ∨ s.grt.filling ∨ (s.bank bank).state = 3 then s else performNext bank addrErr s)

/-- The oldest read's response reaches the chamber: delivered, or parked (R139 to R141, R264, R276); in a comparing
column to both chambers (R232). -/
def execPortResponseArrive (c : ChamberId) (s : State) : Host.Outcome State Fault Refusal :=
  match (s.chm c).reads with
  | ⟨k, _, some r, off⟩ :: rest =>
    let s := s.modChm c fun ch => { ch with reads := rest }
    let s := if off then s else countPoison (1000 + colOf c) r.poison s
    done (forEach (if lockPair (s.col (colOf c)).lock then [colOf c, colOf c + 256] else [c.val]) (fun x s =>
      if s.chmState x = 1 ∧ (s.chm x).sel = k ∧ (s.strat x k).parked = [] then s.send (.portData x r)
      else s.modStrat x k fun st => { st with parked := st.parked ++ [r] }) s)
  | _ => done s

/-- A rewrite takes an idle bank cycle (R275, R285). -/
def execCorrectedRewrite (bank : BankId) (s : State) : Host.Outcome State Fault Refusal :=
  match (s.bank bank).rewrites, (s.bank bank).queue with
  | r :: _, [] => done (performRewrite r s)
  | _, _ => done s

/- ### Scrubbing -/

/-- GRT_STATUS.SCRUB (R288): some bank is not OFF. -/
def scrubOn (s : State) : Bool :=
  s.regB 0x7_0004 31 && decide (s.pstate ≤ 2) && !s.inReset 3 && s.grt.fillDone && !s.grt.filling &&
    ((List.range 2048).any fun i => (s.bank i).state != 2)

/-- A device lap ends when every bank not OFF has completed a lap (R286): the longest of the laps completed in it is kept,
that of a bank which has gone OFF since too. -/
def endDeviceLap (s : State) : State :=
  let live := (List.range 2048).filter fun i => (s.bank i).state != 2
  if !live.isEmpty && live.all fun i => (s.bank i).lapped then
    let slow := (List.range 2048).foldl (fun m i => if (s.bank m).lastLap < (s.bank i).lastLap then i else m) (live.headD 0)
    forEach (s.grt.banks.map (·.1)) (fun i s => s.modBank i fun b => { b with lapped := false, lastLap := 0 })
      (s.modGrt fun g => { g with lapLast := sat 0x3F_FFFF (s.bank slow).lastLap, lapSlow := slow / 8 })
  else s

/-- A bank lap of `micros` ends (R286); `slots` are those of the next lap that have opened. -/
def endBankLap (bank micros slots : Nat) (s : State) : State :=
  endDeviceLap (s.modBank bank fun b =>
    { b with slots := slots, lapRead := false, lap := 0, lastLap := max b.lastLap micros, lapped := true, starved := false })

/-- A scrub slot opens, `micros` after the lap began (R284, R286): it merges with one that is still open. A lap whose last
line has been read ends with its 1,024th slot interval. -/
def execScrubSlotOpen (bank : BankId) (micros : Nat) (s : State) : Host.Outcome State Fault Refusal :=
  if scrubOn s ∧ (s.bank bank).state ≠ 2 then
    let s := if (s.bank bank).lapRead then endBankLap bank micros 0 s else s
    done (s.modBank bank fun b => { b with slotOpen := true, slots := b.slots + 1 })
  else done s

/-- The open slot reads its line in an idle cycle (R284 to R286, R289); `micros` is the time since the lap began. A lap
whose 1,024th slot interval has passed ends with the read of its last line. -/
def execScrubRead (bank : BankId) (micros : Nat) (addrErr : BitVec 8) (s : State) : Host.Outcome State Fault Refusal :=
  let b := s.bank bank
  if scrubOn s ∧ b.slotOpen ∧ b.queue = [] ∧ b.state ≤ 1 then
    let l := bankLine bank b.scrubLine
    let s := forEach (List.range 8) (fun i s => (readWord 4 (8 * l + i) (bit addrErr i) s).2) s
    let s := s.modBank bank fun b => { b with slotOpen := false, scrubLine := (b.scrubLine + 1) % 1024, lap := micros }
    if b.scrubLine < 1023 then done s
    else if 1024 < b.slots then done (endBankLap bank micros 0 s)
    else done (s.modBank bank fun b => { b with lapRead := true })
  else done s

/-- A lap reaches LIMIT: 0x0705 once (R287). -/
def execScrubStarvation (bank : BankId) (s : State) : Host.Outcome State Fault Refusal :=
  let b := s.bank bank
  if scrubOn s ∧ b.state ≠ 2 ∧ !b.starved then
    let s := s.modGrt fun g => if g.starved then g else { g with starved := true, starvAt := bank }
    done (raise 0x0705 [bank / 8, bank % 8, b.scrubLine] (s.modBank bank fun b => { b with starved := true }))
  else done s

/- ### Fills, repair, modes -/

/-- The banks take up their modes after a fill of all of them (R282): one whose mode is OFF powers off, and a device lap
that waited for it ends (R286). -/
def takeModes (s : State) : State :=
  endDeviceLap <| forEach ((List.range 256).filter fun n => s.regF (grpModeReg n) 0 16 != 0) (fun n s =>
    forEach (List.range 8) (fun b s => s.modBank (8 * n + b) fun x =>
      { x with goingOff := false, state := if bankMode s (8 * n + b) = 3 then 2 else restState s (8 * n + b) }) s) s

/-- The fill that runs ends (R280, R282): 0x070A with cause 1 power-on or 2 ladder exit. -/
def endFill (cause micros : Nat) (s : State) : State :=
  raise 0x070A [cause, micros] (takeModes (s.modGrt fun g => { g with filling := false, fillDone := true }))

/-- A new port clock takes effect (R266). -/
def execPclkChange (col : ColumnId) (s : State) : Host.Outcome State Fault Refusal :=
  let idle (c : Nat) : Bool := s.chmState c != 1 && (s.chm c).reads.isEmpty && heldWrites s c == 0
  done (if idle col && idle (col + 256) then
    s.modCol col fun x => { x with pclkUse := s.regF (grpModeReg col) 24 5 }
  else s)

/-- Soft repairs in use in a sub-array of a bank. -/
def softUsed (b : Bank) (sub : Nat) : Nat := b.repairs.countP fun r => r.1 == sub
/-- Redundant columns of a sub-array that fuses use (R295). -/
def fuseUsedAt (s : State) (bank sub : Nat) : Nat := tabGet 0 s.grt.fuseUsed (20 * bank + sub)

/-- Lines of a bank, with stored positions, that a bit-line column serves: one position of 128 lines (R259). -/
def columnCells (bank col : Nat) : List (Nat × Nat) :=
  let pos := (List.range 640).filter fun p => swapTo (Config.bitSwaps bank) 640 p == col / 8
  ((List.range 1024).filter fun i => swapTo (Config.lineSwaps bank) 1024 i % 8 == col % 8).flatMap fun i =>
    pos.map fun p => (bankLine bank i, p)

/-- A logged column with 16 corrected errors is mapped onto a redundant one by the management cores (R292, R293, R295,
R630). -/
def execSoftRepair (bank : BankId) (s : State) : Host.Outcome State Fault Refusal :=
  let b := s.bank bank
  match if s.lys.restarting then none else b.log.find? fun p => decide (16 ≤ p.2) && !b.noRepair.contains p.1 with
  | none => done s
  | some (col, _) =>
    let sub := col / 256
    let used := fuseUsedAt s bank sub + softUsed b sub
    if used < 2 then
      let cells := columnCells bank col
      let s := s.modBank bank fun b =>
        { b with repairs := b.repairs ++ [(sub, col % 256, used)], log := b.log.filter fun p => p.1 != col,
                 toRewrite := b.toRewrite ++ (cells.map (·.1)).filter fun l => !b.toRewrite.contains l }
      let s := s.modGrt fun g =>
        { g with unrecorded := g.unrecorded ++ [(bank.val, sub, col % 256, used)],
                 errs := cells.foldl (fun t (l, p) => tabMod 0 t (8 * l + p / 80) fun e => putBit e (p % 80) true) g.errs }
      done (raise 0x0707 [bank / 8, bank % 8, sub, col % 256, 2 - (used + 1)] s)
    else
      done (raise 0x0708 [bank / 8, bank % 8, sub, col % 256]
        (s.modBank bank fun b => { b with noRepair := b.noRepair ++ [col] }))

/-- The next line of a repaired column is read and rewritten in an idle cycle (R274, R285, R292). A word whose check names
address bits stays as it is. -/
def execRepairRewrite (bank : BankId) (addrErr : BitVec 8) (s : State) : Host.Outcome State Fault Refusal :=
  match (s.bank bank).toRewrite, (s.bank bank).queue with
  | l :: rest, [] =>
    let s := s.modBank bank fun b => { b with toRewrite := rest }
    done (forEach (List.range 8) (fun i s =>
      if bit addrErr i then (readWord 4 (8 * l + i) true s).2
      else rewriteNow (8 * l + i) (readWord 4 (8 * l + i) false s).2) s)
  | _, _ => done s

/-- GRT_RFREE.FREE and GRT_RSOFT.SOFT (R295). -/
def softCount (s : State) : Nat := s.grt.banks.foldl (fun n p => n + p.2.repairs.length) 0
/-- Redundant bit-line columns left over (R295). -/
def freeCount (s : State) : Nat := 81920 - s.grt.fuseUsed.foldl (fun n p => n + p.2) 0 - softCount s

/-- An AUTO bank has had no access for GRT_IDLE cycles (Table Grotto-7). -/
def execBankAutoDrowsy (bank : BankId) (s : State) : Host.Outcome State Fault Refusal :=
  done (if bankMode s bank = 1 ∧ (s.bank bank).state = 0 ∧ (s.bank bank).queue = [] then
    s.modBank bank fun b => { b with state := 1 }
  else s)

/-- A bank whose mode is OFF has performed its queue and powers off (R298); a device lap that waited for it ends (R286). One
whose mode has left OFF meanwhile is filled (R299). -/
def execBankPowerOff (bank : BankId) (addrErr : List Nat) (s : State) : Host.Outcome State Fault Refusal :=
  done (if (s.bank bank).goingOff ∧ (s.bank bank).state ≠ 3 then
    let s := clearBank bank (drainBank addrErr bank s)
    if bankMode s bank = 3 then endDeviceLap (s.modBank bank fun b => { b with state := 2, goingOff := false })
    else s.modBank bank fun b => { b with state := 3, goingOff := false }
  else s)

/-- A bank's fill ends (R299). -/
def execBankFillDone (bank : BankId) (s : State) : Host.Outcome State Fault Refusal :=
  done (endBankFill bank s)

/-- GRT_V2STAT.BUSY (R304). -/
def v2Busy (s : State) : Bool := s.grt.banks.any fun p => p.2.state == 3 || p.2.goingOff

/- ### What writes to GRT registers do -/

/-- Set GRT_GRPn.MODE, with its effect on the banks. -/
def setModes (n : Nat) (modes : Nat) (s : State) : State :=
  let old := s.regF (grpModeReg n) 0 16
  let s := s.setRegF (grpModeReg n) 0 16 modes
  forEach (List.range 8) (fun b s =>
    let m := modes / 4 ^ b % 4
    if m = old / 4 ^ b % 4 then s else setBankMode (8 * n + b) m s) s

/-- GRT_GRPn written (R296, R302). -/
def grtGrpWrite (n : Nat) (val : Word) (s : State) : State :=
  let s := s.setRegF (grpModeReg n) 24 5 (fld val 24 5)
  if s.regB 0x7_0004 30 then s else setModes n (fld val 0 16) s

/-- GRT_CTRL written (R303): a change of RMODEL. -/
def grtCtrlWrite (val : Word) (s : State) : State :=
  let old := s.regB 0x7_0004 30
  let new := bit val 30
  let s := s.setReg 0x7_0004 (val &&& 0xC000_0000)
  if old = new then s
  else
    let s := forEach (List.range 4) (fun k s => s.setReg (0x7_2000 + 4 * k) 0) s
    raise 0x070B [b2n new] (if new then forEach (List.range 256) (fun n s => setModes n 0 s) s else s)

/-- The mode that a segment code applies to all eight banks of a group (Table Grotto-9). -/
def segModes (code : Nat) : Nat := if code = 0 then 0 else if code = 1 then 0xAAAA else 0xFFFF

/-- GRT_V2SEGk written (R301, R302). -/
def grtSegWrite (k : Nat) (val : Word) (s : State) : State :=
  if !s.regB 0x7_0004 30 then s
  else
    let s := s.setReg (0x7_2000 + 4 * k) val
    forEach (List.range 16) (fun j s =>
      forEach (List.range 4) (fun i s => setModes (64 * k + 4 * j + i) (segModes (fld val (2 * j) 2)) s) s) s

/-- MEM resets: queues, pending rewrites and scrubbers restart; contents, modes and repair logs stay (R283, R288). -/
def memReset (s : State) : State :=
  s.modGrt fun g => { g with banks := g.banks.foldl (fun t p => tabSet {} t p.1
    { p.2 with queue := [], rewrites := [], lastMesh := false, scrubLine := 0, slotOpen := false, slots := 0,
               lapRead := false, lap := 0, lastLap := 0, lapped := false, starved := false }) g.banks }

end Sys2Proof.Machine
end

