-- ==== Sys2Proof/Machine/Translation.lean ====
section
/-! DEFINITION. Queue states (08_queues.md, R350 to R355) and the translation unit (09_translation.md): TLB, walks, faults,
parking, the fault ring, invalidations and the books of the transaction tags. -/

namespace Sys2Proof.Machine

/- ### Descriptors' fields (Tables Queues-4 and -5) -/

/-- Opcode (Table Queues-4). -/
def Desc.opc (d : Desc) : Nat := fld d.raw 0 4
/-- SUBOP. -/
def Desc.sub (d : Desc) : Nat := fld d.raw 4 4
/-- FLAGS.IRQ. -/
def Desc.irq (d : Desc) : Bool := bit d.raw 8
/-- FLAGS.SERIAL. -/
def Desc.serial (d : Desc) : Bool := bit d.raw 9
/-- FLAGS.SRCG. -/
def Desc.srcg (d : Desc) : Bool := bit d.raw 10
/-- FLAGS.DSTG. -/
def Desc.dstg (d : Desc) : Bool := bit d.raw 11
/-- FLAGS.T. -/
def Desc.turn (d : Desc) : Bool := bit d.raw 12
/-- FLAGS.EOM. -/
def Desc.eom (d : Desc) : Bool := bit d.raw 13
/-- CID. -/
def Desc.cid (d : Desc) : Nat := fld d.raw 16 16
/-- LEN. -/
def Desc.len (d : Desc) : Nat := fld d.raw 32 32
/-- SRC. -/
def Desc.src (d : Desc) : Nat := fld d.raw 64 64
/-- DST. -/
def Desc.dst (d : Desc) : Nat := fld d.raw 128 64
/-- AUX. -/
def Desc.aux (d : Desc) : Nat := fld d.raw 192 64

/-- The descriptor that carries a number. -/
def Queue.desc (x : Queue) (id : Nat) : Option Desc := x.context.find? fun d => d.id == id
/-- Change the descriptor that carries a number. -/
def modDesc (q id : Nat) (f : Desc → Desc) (s : State) : State :=
  s.modQu q fun x => { x with context := x.context.map fun d => if d.id = id then f d else d }

/- ### Set-up in effect (R355) -/

/-- Entries of a ring from its LOG2 field (4 to 16). -/
def ringSize (base : BitVec 64) : Nat := 2 ^ fld base 0 5
/-- Base address of a ring. -/
def ringBase (base : BitVec 64) : Nat := (fld base 8 56) * 256
/-- Entries of the submission ring. -/
def Queue.sqN (x : Queue) : Nat := ringSize x.setup.sqb
/-- Entries of the completion ring. -/
def Queue.cqN (x : Queue) : Nat := ringSize x.setup.cqb
/-- QUE_PROT.BYPASS in effect. -/
def Queue.bypass (x : Queue) : Bool := bit x.setup.prot 31
/-- QUE_PROT.ENC in effect. -/
def Queue.enc (x : Queue) : Bool := bit x.setup.prot 30
/-- The sector size in effect. -/
def Queue.sector (x : Queue) : Nat := if bit x.setup.prot 29 then 4096 else 512
/-- QUE_PROT.KEY in effect. -/
def Queue.keyIdx (x : Queue) : Nat := fld x.setup.prot 0 6
/-- QUE_BIND.ASID in effect. -/
def Queue.asid (x : Queue) : Nat := fld x.setup.bind 16 8
/-- HELD (R327). -/
def Queue.held (x : Queue) : Nat := x.context.length
/-- The count from position a to position b of a ring of n entries (chapter 08, Rings and indices). -/
def ringCount (n a b : Nat) : Nat := (b + 2 * n - a) % (2 * n)

/-- State of a queue by Table Queues-10's order (R352). -/
def Queue.st (x : Queue) : Nat :=
  if !x.enabled then 0
  else if x.draining then 6
  else if x.error then 5
  else if x.detached then 4
  else if x.park.isSome then 3
  else if x.ownerPark then 2
  else 1

/- ### Owners (R350) -/

/-- The personality is present: a loaded stratum carries it, or a refill from one of its slots is in progress. -/
def persPresent (s : State) (p : Nat) : Bool :=
  (s.fab.chambers.any fun c => c.2.strata.any fun k =>
    (k.2.loaded && persOf k.2.words == p) || (k.2.refilling && (s.slot k.2.slot).pers == p))
/-- The personality is active: one of its loaded strata is (R132). -/
def persActive (s : State) (p : Nat) : Bool :=
  s.fab.chambers.any fun c => c.2.strata.any fun k =>
    k.2.loaded && persOf k.2.words == p && s.isActive c.1 k.1

/-- QUE_BIND.OWNEN in effect. -/
def Queue.ownen (x : Queue) : Bool := bit x.setup.bind 31
/-- QUE_BIND.OWNER in effect. -/
def Queue.owner (x : Queue) : Nat := fld x.setup.bind 0 16

/- ### Transaction tags (R392 to R395) -/

/-- XLT_TAGHOST, XLT_TAGGRT, XLT_TAGGVL by class 1 to 3. -/
def tagReg (cls : Nat) : Nat := 0x9_002C + 4 * cls
/-- The tag reserve of a class (R392, Table Translation-15). -/
def tagRes (s : State) (cls : Nat) : Nat :=
  let r := s.regF (tagReg cls) 0 12
  if cls = 1 then max 16 r else r
/-- The tag cap of a class. -/
def tagCap (s : State) (cls : Nat) : Nat :=
  let c := s.regF (tagReg cls) 16 12
  if cls = 1 then min 768 c else min 2048 c

/-- Walks that run (R368): each holds a tag for its table read. -/
def runningWalks (s : State) : Nat := s.xlt.walking.length
/-- Host tags ISSUED outside the walker: doorbell reads, fetches, data reads and debug reads in flight (R312, R394). -/
def hostReads (s : State) : Nat :=
  s.que.foldl (fun n p => n + b2n (p.2.dbSt == 2) + b2n (decide (0 < p.2.fetching)) +
    p.2.context.foldl (fun m d => m + d.reads.length) 0) 0 + s.pin.dbgIssued + s.xlt.orphans.length
/-- Tags ISSUED of a class; accesses of the side port come and go within one step. -/
def tagsIssued (s : State) (cls : Nat) : Nat :=
  match cls with
  | 1 => hostReads s + runningWalks s
  | 3 => s.net.remotes.length
  | _ => 0
/-- The shared pool (R392). -/
def sharedPool (s : State) : Nat := 4096 - (tagRes s 1 + tagRes s 2 + tagRes s 3)
/-- Tags of the shared pool in use. -/
def sharedUsed (s : State) : Nat := (hostReads s - (tagRes s 1 - 16)) + (tagsIssued s 3 - tagRes s 3)
/-- n host reads other than the walker's may take a tag each (R312, R392). -/
def hostTagsFree (n : Nat) (s : State) : Bool :=
  let r := hostReads s + n
  decide (r + 16 ≤ tagCap s 1) &&
    (decide (r ≤ tagRes s 1 - 16) ||
      decide ((r - (tagRes s 1 - 16)) + (tagsIssued s 3 - tagRes s 3) ≤ sharedPool s))
/-- A host read other than the walker's may take a tag. -/
def hostTagFree (s : State) : Bool := hostTagsFree 1 s

/-- A range in requests of at most m bytes: first address and length of each (R310). -/
def requests (m addr len : Nat) : List (Nat × Nat) :=
  (List.range (ceilDiv len m)).map fun i => (addr + m * i, min m (len - m * i))
/-- A side-port request of the queue engine, the host or another node may take a Grotto tag. -/
def grottoTagFree (s : State) : Bool :=
  decide (0 < tagCap s 2) && (decide (0 < tagRes s 2) || decide (sharedUsed s < sharedPool s))
/-- A remote request may take a Gaval tag. -/
def gavalTagFree (s : State) : Bool :=
  let n := tagsIssued s 3
  decide (n < tagCap s 3) && (decide (n < tagRes s 3) || decide (sharedUsed s < sharedPool s))

/-- Data reads that descriptors of queue q wait for no more stay in flight, each with its tag (R378, R394). -/
def orphanReads (q : Nat) (p : Desc → Bool) (s : State) : State :=
  let lost := ((s.qu q).context.filter p).flatMap fun d =>
    d.reads.map fun r => ((⟨q, 0, d.id, r.1⟩ : HostRead), d.cid, d.src + r.1, r.2)
  if lost.isEmpty then s
  else (s.modXlt fun t => { t with orphans := t.orphans ++ lost }).modQu q fun x =>
    { x with context := x.context.map fun d => if p d then { d with reads := [] } else d }

/- ### Host writes of queues: completions, shadows and fault records are mirrored in a pair (R321, R613) -/

/-- A posted write of a completion (1), a consumer shadow (2) or a fault record (3): a lead sends it as a commit record
first and issues it at the acknowledgement. -/
def ringWrite (kind q addr : Nat) (bytes : List Byte) (s : State) : State :=
  if s.twn.role = 1 then
    (sendTwin 2 (leBytes 1 kind ++ leBytes 1 q ++ leBytes 8 addr ++ bytes) s).modTwn fun t =>
      { t with held := t.held ++ [⟨kind, q, addr, bytes⟩] }
  else s.when s.masters fun s => s.send (.hostWrite kind q addr bytes)

/-- The message of a queue follows the ring writes that cause it: at a lead it waits with those that wait for their
acknowledgement (R351, R613). -/
def sendVector (q vec : Nat) (s : State) : State :=
  if s.twn.role = 1 ∧ (s.twn.held.any fun r => r.queue == q) then s.modTwn fun t => { t with held := t.held ++ [⟨4, q, vec, []⟩] }
  else sendMsix vec s

/- ### Translation -/

/-- What a translation gives: a bus address, a walk to wait for, or a fault with its kind and level (Table
Translation-3). -/
inductive Xlated where
  | ok (bus : Nat)
  | wait
  | fault (kind level : Nat)
  deriving DecidableEq, Repr

/-- XLT_ASn_LO. -/
def asReg (n : Nat) : Nat := 0x9_1000 + 8 * n

/-- Table level of a leaf by page size (R361). -/
def leafLevel (size : Nat) : Nat := if size = 12 then 1 else if size = 21 then 2 else 3

/-- The translation of a virtual address that the TLB holds. -/
def tlbFind (s : State) (asid va : Nat) : Option TlbEntry :=
  s.xlt.tlb.find? fun e => e.asid == asid && e.vpn == va / 2 ^ e.size

/-- A TLB entry that fails parity is dropped and counted (R366). -/
def dropBad (e : TlbEntry) (s : State) : State :=
  s.modXlt fun t => { t with tlb := t.tlb.filter (fun f => f != e), tlbpe := t.tlbpe.addNarrow 1, peTick := t.peTick + 1 }

/-- Translate an address of a queue for a read or write of n bytes within one page (R358, R359, R363, R365): the hit
entry becomes the most recently used; one that fails parity is a miss (R366). -/
def translate (q va n : Nat) (wr : Bool) (s : State) : Xlated × State :=
  let x := s.qu q
  if x.bypass then (.ok va, s)
  else if 2 ^ 48 < va + n then (.fault 5 0, s)
  else if !s.regB (asReg x.asid) 0 then (.fault 6 0, s)
  else match tlbFind s x.asid va with
    | none => (.wait, s)
    | some e =>
      if e.bad then (.wait, dropBad e s) else
      let s := s.modXlt fun t => { t with tlb := e :: t.tlb.filter fun f => f != e }
      if wr && !e.w then (.fault 3 (leafLevel e.size), s)
      else if !wr && !e.r then (.fault 2 (leafLevel e.size), s)
      else (.ok (e.ppn * 2 ^ e.size + va % 2 ^ e.size), s)

/-- The level-4 table of an address space (Table Translation-21). -/
def rootOf (s : State) (asid : Nat) : Nat := s.regF (asReg asid) 12 20 * 4096 + s.regF (asReg asid + 4) 0 20 * 2 ^ 32

/-- Pages that accesses wait for and no walk serves yet get one of the 16 walks while the host class is below its cap (R367,
R368, R395): the walk reads its level-4 entry. In a pair only the lead walks (Table Translation-6). -/
def startWalks (s : State) : State :=
  if s.twn.role = 2 then s
  else forEach s.xlt.walks (fun w s =>
    let page := (w.asid, w.vpn)
    if s.xlt.walking.contains page || s.xlt.filling.contains page || decide (min 16 (tagCap s 1 - hostReads s) ≤ runningWalks s) then s
    else (s.when s.masters fun s => s.send (.hostRead 3 w.queue (rootOf s w.asid + 8 * (w.vpn / 2 ^ 27 % 512)) 8)).modXlt fun t =>
      { t with walking := t.walking ++ [page] }) s

/-- The same with a walk started on a miss for the access that needs it (R367, R368); a miss counts once for each access
(Table Translation-18). `cid` is a descriptor number. -/
def translateFor (access q cid va n : Nat) (wr : Bool) (s : State) : Xlated × State :=
  match translate q va n wr s with
  | (.wait, s) =>
    let w : Walk := { asid := (s.qu q).asid, vpn := va / 4096, queue := q, access := access, cid := cid, va := va }
    (.wait, if s.xlt.walks.contains w then s
      else startWalks (s.modXlt fun t => { t with miss := t.miss.add 1, walks := t.walks ++ [w] }))
  | r => r

/-- The TLB entry that holds a page loses its parity: the next access that meets it drops it (R366). -/
def tlbParity (asid va : Nat) (s : State) : State :=
  match tlbFind s asid va with
  | none => s
  | some e => s.modXlt fun t => { t with tlb := t.tlb.map fun f => if f = e then { f with bad := true } else f }

/-- What the entries of a walk say (R360 to R362, R369): a fault's kind and level, or the leaf's size, page number,
R and W. -/
def walkEntries (va : Nat) : Nat → List (BitVec 64) → Sum (Nat × Nat) (Nat × Nat × Bool × Bool)
  | level, [] => .inl (7, level)
  | level, e :: t =>
    let addr := fld e 12 40
    let size := 12 + 9 * (level - 1)
    if !bit e 0 then .inl (1, level)
    else if fld e 52 12 ≠ 0 ∨ fld e 3 4 ≠ 0 ∨ (bit e 7 ∧ (level = 4 ∨ level = 1)) then .inl (4, level)
    else if level = 1 ∨ bit e 7 then
      if addr % 2 ^ (size - 12) ≠ 0 then .inl (4, level)
      else .inr (size, addr / 2 ^ (size - 12), bit e 1, bit e 2)
    else walkEntries va (level - 1) t

/-- Put a translation into the TLB (R365). -/
def tlbFill (e : TlbEntry) (s : State) : State :=
  s.modXlt fun t => { t with tlb := (e :: t.tlb.filter fun f => !(f.asid == e.asid && f.size == e.size && f.vpn == e.vpn)).take 8192 }

/- ### Faults -/

/-- A fault record of the queue waits (R386). -/
def recordWaits (s : State) (q : Nat) : Bool := s.xlt.waiting.any fun r => r.queue == q

/-- An access that met a fault while a record of its queue waits is made again once that record has been written, so that
each queue has one record waiting at most and none is lost (R386, log 106). -/
def faultLater (q access cid va : Nat) (s : State) : State :=
  let w : Walk := { asid := (s.qu q).asid, vpn := va / 4096, queue := q, access := access, cid := cid, va := va }
  s.modXlt fun t => { t with later := if t.later.contains w then t.later else t.later ++ [w] }

/-- Count a fault: the failure of one translation (XLT_FAULT, Table Translation-18). -/
def countFault (s : State) : State := s.modXlt fun t => { t with faults := t.faults.add 1 }

/-- Queue a fault record and raise 0x0902 (R376, R386, R387). -/
def recordFault (q kind access cid16 level va off : Nat) (more ended : Bool) (s : State) : State :=
  let x := s.qu q
  let r : FaultRec := { queue := q, kind := kind, access := access, enc := x.enc && (access == 2 || access == 3),
                        more := more, ended := ended, cid := cid16, level := level, asid := x.asid, va := va,
                        restart := off, tbase := s.now }
  raise 0x0902 [q, kind, access, cid16, b2n ended]
    (s.modXlt fun t => { t with waiting := t.waiting ++ [r] })

/-- The eight bytes of the consumer shadow (Table Queues-3). -/
def shadowValue (x : Queue) : Nat :=
  let n := x.sqN
  let c := x.cqN
  x.sqCi % n + (b2n (decide (n ≤ x.sqCi))) <<< 16 + x.st <<< 17 + (b2n x.rseen) <<< 20 + (x.cqPi % c) <<< 32
    + (b2n (decide (c ≤ x.cqPi))) <<< 48

/-- Where the next granule of a transfer begins: a STREAM_IN has read ahead into its buffer of 64 beats. -/
def readPos (d : Desc) : Nat := if d.opc = 2 then d.off + d.buf.length else d.off

/-- The data side that lies in host memory (Table Queues-6). -/
def Desc.srcHost (d : Desc) : Bool := ((d.opc == 1 || d.opc == 2) && !d.srcg) || (d.opc == 5 && d.sub == 0)
/-- The destination is in host memory. -/
def Desc.dstHost (d : Desc) : Bool := (d.opc == 1 || d.opc == 3 || d.opc == 4) && !d.dstg
/-- The transfer is encrypted (R334, R410, R411). -/
def encrypted (x : Queue) (d : Desc) : Bool := x.enc && decide (d.opc ≤ 4) && (d.srcHost || d.dstHost)

/-- Where the granule that holds byte o begins (chapter 09, Restart offsets): a sector on a queue with ENC = 1, a
LOAD_IMAGE's too (log 112), else a piece between host addresses that are multiples of 64. -/
def granuleFloor (x : Queue) (d : Desc) (o : Nat) : Nat :=
  if x.enc && (d.srcHost || d.dstHost) then o / x.sector * x.sector
  else if d.srcHost || d.dstHost then o - ((if d.srcHost then d.src else d.dst) + o) % 64
  else o

/-- Where the first granule that does not begin below byte o begins. -/
def granuleCeil (x : Queue) (d : Desc) (o : Nat) : Nat :=
  if granuleFloor x d o = o then o
  else if x.enc then min d.len (o / x.sector * x.sector + x.sector)
  else min d.len (o + 64 - (d.src + o) % 64)

/-- The restart offset O of a descriptor (R379): every byte below it has been delivered, or, of a STREAM_IN, is in the
endpoint's buffer as the rest of a granule part of which has crossed (log 112); bytes of remote writes count once they are
performed. -/
def restartOf (s : State) (q : Nat) (d : Desc) : Nat :=
  let x := s.qu q
  if d.opc = 2 then min (d.off + d.buf.length) (granuleCeil x d d.off)
  else if d.dstg ∧ (d.opc = 1 ∨ d.opc = 3 ∨ d.opc = 4) then
    let open_ := (d.remq.filter (·.write)).map (·.line) ++
      (s.net.remotes.filter fun m => m.queue == q && m.cid == d.id && !m.read).map (·.line)
    granuleFloor x d (open_.foldl (fun o l => min o (64 * l - d.dst % 2 ^ 27)) d.off)
  else d.off

/-- A descriptor stops at its restart offset o (R376): what it had read beyond it is read again (R382). The beats that a
STREAM_OUT has taken stay (R381), and so do the rest of a granule that a STREAM_IN has begun to deliver. -/
def Desc.stop (o : Nat) (d : Desc) : Desc :=
  { d with stopped := true, faulted := true, off := if d.opc = 2 ∨ d.opc = 3 then d.off else o,
           buf := if d.opc = 2 then d.buf.take (o - d.off) else d.buf, remq := if d.opc = 3 then d.remq else [],
           asked := false, parts := [], hbuf := [], readTo := o, sentTo := o,
           yielded := false, wantTag := false, wantGrt := false }

/-- The descriptor moves data, so that a fault stops it: a transfer or a LOAD_IMAGE of a whole container (R376). -/
def Desc.moves (d : Desc) : Bool := decide (d.opc ≤ 4) || (d.opc == 5 && d.sub == 0)

/-- Descriptors in progress stop at their restart offsets (R376). Their reads in flight, and the answers of remote reads,
are discarded when they come (R378). QUE_BYTES falls back with a restart offset that does. -/
def stopWhere (q : Nat) (p : Desc → Bool) (s : State) : State :=
  let here (d : Desc) : Bool := d.started && d.ended.isNone && d.moves && !d.stopped && p d
  let ids := ((s.qu q).context.filter here).map (·.id)
  let stops := fun (d : Desc) => if here d then d.stop (restartOf s q d) else d
  let back := (s.qu q).context.foldl (fun n d => n + (d.off - (stops d).off)) 0
  let reads := fun (m : Remote) => m.queue == q && m.read && ids.contains m.cid
  let s := orphanReads q here s
  let s := if s.net.remotes.any reads then s.modNet fun n =>
      { n with remotes := n.remotes.map fun m => if reads m then { m with queue := 256 } else m }
    else s
  s.modQu q fun x => { x with context := x.context.map stops, bytes := { x.bytes with n := x.bytes.n - back } }

/-- Stop every descriptor in progress at its restart offset (R376). -/
def stopDescs (q : Nat) (s : State) : State := stopWhere q (fun _ => true) s

/-- Descriptors in progress that a fault stops, other than one. -/
def othersStop (x : Queue) (cid : Nat) : Bool :=
  x.context.any fun d => d.id != cid && d.started && d.ended.isNone && d.moves

/-- The queue's vector on a change of state (R351); the completions that count towards the next message start again. -/
def stateVector (q : Nat) (s : State) : State :=
  s.when (s.regB (queReg q 0x34) 31) fun s =>
    sendVector q (s.regF (queReg q 0x34) 0 9) (s.modQu q fun x => { x with irqCount := 0 })

/-- The ring write of an access class is to be tried again (R388). -/
def addRetry (q access : Nat) (s : State) : State :=
  s.modQu q fun x => { x with retries := if x.retries.contains access then x.retries else x.retries ++ [access] }

/-- A fault takes effect at once in a device by itself. In a pair the lead stamps it, and it takes effect in both devices at
its delivery (Table Twin-5, Table Translation-6); the shadow's own is the lead's. -/
def stampFault (q access id kind level va : Nat) (now : State → State) (s : State) : State :=
  if !s.paired then now s
  else if s.twn.role = 1 ∧ !s.xlt.parking.contains q then
    (sendTwin 25 (leBytes 1 q ++ leBytes 1 access ++ leBytes 4 id ++ leBytes 1 kind ++ leBytes 1 level ++ leBytes 8 va) s).modXlt
      fun t => { t with parking := t.parking ++ [q] }
  else s

/-- The consumer shadow's write has faulted: it parks a RUNNING or OWNER_PARKED queue, whose shadow is written at its
resumption (R376, Table Translation-4); in another state it is tried again (R388). -/
def shadowFaultNow (q kind level : Nat) (s : State) : State :=
  let s := countFault s
  let x := s.qu q
  let va := x.setup.sha.toNat
  if recordWaits s q && (x.st == 1 || x.st == 2 || !x.retries.contains 5) then faultLater q 5 0xFFFF va s
  else if x.st = 1 ∨ x.st = 2 then
    stateVector q (recordFault q kind 5 0xFFFF level va 0 (othersStop x 0xFFFFFFFF) false
      ((stopDescs q s).modQu q fun x => { x with park := some ⟨5, 0xFFFF⟩ }))
  else addRetry q 5 (if x.retries.contains 5 then s else recordFault q kind 5 0xFFFF level va 0 false true s)

/-- The consumer shadow's write faults. -/
def shadowFault (q kind level : Nat) (s : State) : State :=
  stampFault q 5 0xFFFF kind level (s.qu q).setup.sha.toNat (shadowFaultNow q kind level) s

/-- Write the consumer shadow (R320). -/
def writeShadow (q : Nat) (s : State) : State :=
  let va := (s.qu q).setup.sha.toNat
  match translateFor 5 q 0xFFFF va 8 true s with
  | (.ok bus, s) =>
    ringWrite 2 q bus (leBytes 8 (shadowValue (s.qu q)))
      (if (s.qu q).retries.contains 5 then s.modQu q fun x => { x with retries := x.retries.filter (· != 5) } else s)
  | (.wait, s) => s
  | (.fault k l, s) => shadowFault q k l s

/-- A library or chamber request that has been passed on: it completes with its own outcome (Table Queues-10). -/
def Desc.passedOn (d : Desc) : Bool := d.started && (d.opc == 6 || (d.opc == 5 && d.sub != 0))

/-- A descriptor that a change of state ends with a status: FLUSHED leaves requests passed on to their own outcome (Table
Queues-10). -/
def Desc.endsWith (status : Nat) (d : Desc) : Bool := d.ended.isNone && !(status == 0x0E && d.passedOn)

/-- End every descriptor that has not ended and that the status ends, at its restart offset (R352, R353, R387). -/
def endAll (q status : Nat) (s : State) : State :=
  let ends := fun (d : Desc) => if d.endsWith status then
      { d with ended := some (status, restartOf s q d), stopped := false, buf := [], lens := [], remq := [], hbuf := [], yielded := false }
    else d
  s.modQu q fun x => { x with context := x.context.map ends }

/-- How many descriptors `endAll` ends. -/
def toEnd (x : Queue) (status : Nat) : Nat := x.context.countP (Desc.endsWith status)

/-- Slots of a load that is rejected or abandoned (R186, R479): WRITING and READY ones become EMPTY, unless a READY one is
referenced; 0x050C tells how many stay. -/
def dropLoad (q id cid : Nat) (s : State) : State :=
  let mine := (s.lib.slots.filter fun p => p.2.loadBy == some (q, id)).map (·.1)
  let stay := mine.filter fun i => (s.slot i).st == 2 && s.refs i != 0
  let s := forEach mine (fun i s => s.modSlot i fun x =>
    if stay.contains i then { x with loadBy := none }
    else if x.st = 1 ∨ x.st = 2 then { x with st := 0, rel := false, lsi := false, home := 0, pers := 0, loadBy := none }
    else { x with loadBy := none }) s
  if stay = [] then s else raise 0x050C [q, cid, stay.length] s

/-- Loads of a queue whose descriptor has ended without success, or is gone, are cut short (R186, R479). -/
def sweepLoads (q : Nat) (s : State) : State :=
  let mine := (s.lib.slots.filterMap fun p => p.2.loadBy.bind fun l => if l.1 = q then some l.2 else none).eraseDups
  forEach mine (fun id s =>
    match (s.qu q).desc id with
    | none => dropLoad q id 0xFFFF s
    | some d => match d.ended with
      | none => s
      | some e => if e.1 = 0 then s else dropLoad q id d.cid s) s

/-- A change f of a queue's conditions, with what a change of its state does (R320, R350 to R353, R391). -/
def changeState (q : Nat) (f : Queue → Queue) (s : State) : State :=
  let old := (s.qu q).st
  let s := s.modQu q f
  let x := s.qu q
  let new := x.st
  if new = old then s
  else
    let s := match new with
      | 4 => sweepLoads q (raise 0x0805 [q, x.owner, toEnd x 0x0D] (endAll q 0x0D s))
      | 6 => sweepLoads q ((endAll q 0x0E s).modQu q fun y => { y with flushed := y.flushed + toEnd x 0x0E })
      | 2 => raise 0x0804 [q, x.owner] s
      | _ => s
    stateVector q (writeShadow q s)

/-- A data access needs its translation no more: its descriptor is gone, has ended or is stopped (R376). -/
def Queue.dropsAccess (x : Queue) (access cid : Nat) : Bool :=
  (access == 2 || access == 3) && !((x.desc cid).any fun d => d.started && d.ended.isNone && !d.stopped)

/-- A fault of an access other than the shadow's (R376, R387, R388); descriptors that have stopped write no record. `cid`
is the descriptor's number; 0xFFFF for ring reads. `va` is the address. The record has the restart offset of a data access
and 0 for the others (Table Translation-5). -/
def takeFaultNow (q access cid kind level va : Nat) (s : State) : State :=
  let s := countFault s
  let x := s.qu q
  if x.dropsAccess access cid then s
  else if recordWaits s q && (x.st == 1 || x.st == 2 || decide (access < 4) || !x.retries.contains access) then
    faultLater q access cid va s
  else
  let off := if access = 2 ∨ access = 3 then ((x.desc cid).map (restartOf s q)).getD 0 else 0
  let s := if access = 0 then s.modQu q fun x => { x with dbSt := 0 } else s
  let cid16 := match x.desc cid with
    | some d => if 2 ≤ access ∧ access ≤ 4 then d.cid else 0xFFFF
    | none => 0xFFFF
  if x.st = 1 ∨ x.st = 2 then
    let more := othersStop x (if access = 2 ∨ access = 3 then cid else 0xFFFFFFFF)
    let s := recordFault q kind access cid16 level va off more false (stopDescs q s)
    changeState q (fun x => { x with park := some ⟨access, cid⟩ }) s
  else
    let first := access < 4 || !x.retries.contains access
    let s := if first then recordFault q kind access cid16 level va off false true s else s
    if access = 4 then addRetry q 4 s
    else if access = 2 ∨ access = 3 then
      (match x.st with
       | 4 => sweepLoads q (endDesc q cid 0x0D off s)
       | 6 => sweepLoads q ((endDesc q cid 0x0E off s).modQu q fun y => { y with flushed := y.flushed + 1 })
       | _ => stopWhere q (fun d => d.id == cid) s)
    else s

/-- An access other than the shadow's faults. -/
def takeFault (q access cid kind level va : Nat) (s : State) : State :=
  stampFault q access cid kind level va (takeFaultNow q access cid kind level va) s

/- ### Invalidation (R371 to R375) -/

/-- The submission entry after the last one that has arrived (R327). -/
def Queue.fetchAt (x : Queue) : Nat := (x.sqCi + x.transit) % (2 * x.sqN)

/-- The address of the next entry to fetch. -/
def Queue.fetchVa (x : Queue) : Nat := ringBase x.setup.sqb + 32 * (x.fetchAt % x.sqN)

/-- Reads of host memory in flight, each with its virtual address and length (R312). -/
def readsInFlight (s : State) : List (HostRead × Nat × Nat) :=
  (s.que.flatMap fun (q, x) =>
    (if x.dbSt = 2 then [((⟨q, 1, 0, 0⟩ : HostRead), x.setup.dba.toNat, 8)] else [])
      ++ (if 0 < x.fetching then [((⟨q, 2, 0, 0⟩ : HostRead), x.fetchVa, 32 * x.fetching)] else [])
      ++ x.context.flatMap fun d => d.reads.map fun r => ((⟨q, 0, d.id, r.1⟩ : HostRead), d.src + r.1, r.2))
    ++ (s.xlt.orphans.map fun (r, _, va, n) => (r, va, n))
    ++ match s.pin.dbgOp with
      | some (q, addr, len, _) => if s.pin.dbgIssued = 0 then [] else [((⟨q, 5, 0, 0⟩ : HostRead), addr, len)]
      | none => []

/-- A read in flight has ended (R373). -/
def readOver (r : HostRead) (s : State) : State := s.modXlt fun t => { t with invReads := t.invReads.filter fun x => x != r }

/-- The entry is in the scope of an invalidation (Table Translation-2). -/
def inScope (v : Inval) (e : TlbEntry) : Bool :=
  match v.scope with
  | 1 => true
  | 2 => e.asid == v.asid
  | _ => e.asid == v.asid && decide (e.vpn * 2 ^ e.size < v.va + (v.npages + 1) * 4096) &&
      decide (v.va < (e.vpn + 1) * 2 ^ e.size)

/-- A read of n bytes at an address of queue q uses a translation that the invalidation removes (R373). -/
def usesRemoved (s : State) (v : Inval) (q va n : Nat) : Bool :=
  let a := (s.qu q).asid
  !(s.qu q).bypass && (v.scope == 1 || (a == v.asid && (v.scope == 2 ||
    (decide (va < v.va + (v.npages + 1) * 4096) && decide (v.va < va + n)) ||
    s.xlt.tlb.any fun e => inScope v e && e.asid == a && decide (va < (e.vpn + 1) * 2 ^ e.size) &&
      decide (e.vpn * 2 ^ e.size < va + n))))

/-- An invalidation takes its entries from the TLB (R372, R375); walks of the space start again from the root. -/
def dropEntries (v : Inval) (s : State) : State :=
  startWalks (s.modXlt fun t =>
    { t with tlb := t.tlb.filter (fun e => !inScope v e), walking := t.walking.filter fun p => !(v.scope == 1 || p.1 == v.asid) })

/-- An invalidation of the FIFO begins to run: it will wait for the reads issued under what it removes (R373). -/
def runInval (v : Inval) (s : State) : State :=
  dropEntries v (s.modXlt fun t =>
    { t with invReads := ((readsInFlight s).filter fun (r, va, n) => usesRemoved s v r.queue va n).map (·.1),
             invWrites := s.twn.held.filter fun r => (r.kind == 1 || r.kind == 2) && !(s.qu r.queue).bypass &&
               (v.scope == 1 || (s.qu r.queue).asid == v.asid) })

/-- Every read issued under a translation that the running invalidation removed has ended, and every write has been sent
(R373). -/
def invReadsOver (s : State) : Bool :=
  (s.xlt.invReads.all fun r => !((readsInFlight s).any fun x => x.1 == r)) &&
    s.xlt.invWrites.all fun r => !s.twn.held.contains r

/-- A write of XLT_INV_CMD (R371): codes ALL 1, ASID 2, RANGE 3. -/
def invCommand (scope asid npages : Nat) (s : State) : State :=
  let va := (s.reg 0x9_0020).toNat + (s.regF 0x9_0024 0 16) * 2 ^ 32
  let v : Inval := { scope := scope, asid := asid, va := va, npages := npages }
  if 16 ≤ s.xlt.inv.length then raise 0x0907 [asid, scope] s
  else
    let first := s.xlt.inv.isEmpty
    let s := s.modXlt fun t => { t with inv := t.inv ++ [v] }
    if first then runInval v s else s

/-- The root of an address space changes (R375). -/
def rootChanged (asid : Nat) (s : State) : State :=
  raise 0x0909 [asid, b2n (s.regB (asReg asid) 0)] (dropEntries { scope := 2, asid := asid, va := 0, npages := 0 } s)

/-- Send XLT_FCTRL.VEC when IRQEN = 1, behind the writes of queue q that cause it; 256: none does. -/
def xltVector (q : Nat) (s : State) : State := s.when (s.regB 0x9_0004 30) fun s => sendVector q (s.regF 0x9_0004 0 9) s

/- ### The fault ring (R383 to R386) -/

/-- XLT_FRB. -/
def frBase (s : State) : BitVec 64 := (s.reg 0x9_000C ++ s.reg 0x9_0008 : BitVec 64)
/-- Entries of the fault ring. -/
def frN (s : State) : Nat := ringSize (frBase s)
/-- The device's view shows no free entry. -/
def frFull (s : State) : Bool := ringCount (frN s) s.xlt.frCi s.xlt.frPi == frN s

/-- The 32 bytes of a fault record (Table Translation-5). -/
def faultBytes (s : State) (r : FaultRec) : List Byte :=
  let flags := b2n (decide (s.xlt.frPi < frN s)) + 2 * b2n r.enc + 4 * b2n r.more + 8 * b2n r.ended
  leBytes 1 r.queue ++ leBytes 1 r.kind ++ leBytes 1 r.access ++ leBytes 1 flags ++ leBytes 2 r.cid ++ leBytes 1 r.level
    ++ leBytes 1 r.asid ++ leBytes 8 r.va ++ leBytes 4 r.restart ++ leBytes 4 s.xlt.fseq ++ leBytes 8 r.tbase

/-- XLT_FCA: where the fault consumer record stands (R383). -/
def fcAddr (s : State) : Nat := (s.reg 0x9_0014).toNat * 2 ^ 32 + (s.reg 0x9_0010).toNat / 8 * 8

/-- The fault consumer record is read again at XLT_FCA while records wait (R383, R385, R386), in a pair by the lead alone; the
read holds a tag until its data, which this command brings; none: it ended in an error. -/
def execFaultConsumerReread (rec : Option (BitVec 64)) (s : State) : Host.Outcome State Fault Refusal :=
  if s.xlt.waiting.isEmpty then done s
  else if s.twn.role ≠ 2 ∧ !hostTagFree s then done (s.modXlt fun t => { t with fcTag := true })
  else
  let s := (s.when s.masters fun s => s.send (.hostRead 4 0 (fcAddr s) 8)).modXlt fun t => { t with fcTag := false }
  match rec with
    | none => done (s.modXlt fun t => { t with frErr := true })
    | some v => done (s.modXlt fun t => { t with frErr := false, frCi := fld v 32 16 % frN s + (if bit v 48 then frN s else 0) })

/-- XLT_FCTRL has been written over an old value: setting EN restarts the ring (R385, Table Translation-8). -/
def fctrlWritten (old new : Word) (s : State) : State :=
  if bit new 31 && !bit old 31 then s.modXlt fun t => { t with frPi := 0, fseq := 0, frCi := 0, frErr := false } else s

/-- Why records wait (R386, 0x0903): 1 ring full, 2 ring disabled, 3 host error; 0 when none of these holds and they are
about to be written. -/
def waitCause (s : State) : Nat := if !s.regB 0x9_0004 31 then 2 else if s.xlt.frErr then 3 else if frFull s then 1 else 0

/- ### The debug read of host memory (R418, R695, R704) -/

/-- A debug operation ends with a STATUS and DATA (Table Echo-8). -/
def dbgFinish (st : Nat) (data : Word) (s : State) : State :=
  s.modPin fun p => { p with dbgOp := none, dbgGrt := false, dbgIssued := 0, dbgTag := false, dbgStatus := st, dbgData := data }

/-- The parts of a range that lie in one 4 KiB page each: address and length. -/
def pageParts (addr len : Nat) : List (Nat × Nat) :=
  let n := 4096 - addr % 4096
  if len ≤ n then [(addr, len)] else [(addr, n), (addr + n, len - n)]

/-- A HOSTRD issues its reads once its pages translate, under the access code 6 of this model, and their tags are free. A
translation failure ends it with ERROR and touches neither the queue nor the fault ring (R704). -/
def dbgIssue (s : State) : State :=
  match s.pin.dbgOp with
  | none => s
  | some (q, addr, len, _) =>
    if s.pin.dbgIssued ≠ 0 then s
    else
      let (rs, s) := (pageParts addr len).foldl (fun (acc : List (Xlated × Nat) × State) p =>
        let (r, s') := translateFor 6 q 0xFFFF p.1 p.2 false acc.2
        (acc.1 ++ [(r, p.2)], s')) ([], s)
      if rs.any fun r => match r.1 with | .fault _ _ => true | _ => false then dbgFinish 3 0 (countFault s)
      else
        let reqs := rs.flatMap fun (r, n) => match r with
          | .ok bus => requests s.pci.maxRead bus n
          | _ => []
        if rs.any fun r => r.1 == .wait then s
        else if !hostTagsFree reqs.length s then s.modPin fun p => { p with dbgTag := true }
        else
          let s := forEach reqs (fun (bus, n) s => s.when s.masters fun s => s.send (.hostRead 5 q bus n)) s
          s.modPin fun p => { p with dbgIssued := reqs.length, dbgTag := false }

end Sys2Proof.Machine
end

