-- ==== Sys2Proof/Machine/Queues.lean ====
section
/-! DEFINITION. The queue engine (08_queues.md): doorbells, fetching, the checks at a descriptor's start, data transfers
granule by granule with translation and encryption (09_translation.md, 10_crypto.md), remote accesses
(14_network.md), completions, enabling and draining. A transfer runs in the command that starts it as far as it can;
what must wait goes on with the next command of its kind, which brings the environment's data again (R382). -/

namespace Sys2Proof.Machine

/- ### Doorbells (R317 to R326) -/

/-- Issue a waiting doorbell read when its address translates and a tag is free (R312, R393). -/
def tryDoorbell (q : Nat) (s : State) : State :=
  let x := s.qu q
  if x.dbSt ≠ 1 then s
  else
    let va := x.setup.dba.toNat
    match translateFor 0 q 0xFFFF va 8 false s with
    | (.ok bus, s) =>
      if hostTagFree s then
        (s.when s.masters fun s => s.send (.hostRead 1 q bus 8)).modQu q fun x => { x with dbSt := 2, dbTag := false }
      else s.modQu q fun x => { x with dbTag := true }
    | (.wait, s) => s
    | (.fault k l, s) => takeFault q 0 0xFFFF k l va s

/-- A doorbell read is due: at most one in flight, and one more after it (R323); a shadow reads none (R321). -/
def askDoorbell (q : Nat) (s : State) : State :=
  if s.twn.role = 2 then s
  else if (s.qu q).dbSt ≠ 0 then s.modQu q fun x => { x with dbAgain := true }
  else tryDoorbell q (s.modQu q fun x => { x with dbSt := 1 })

/-- Doorbell reads and a debug read that wait for a tag take one that has become free. -/
def serveReads (s : State) : State :=
  dbgIssue (forEach ((s.que.filter fun p => p.2.dbSt == 1).map (·.1)) tryDoorbell s)

/-- A write to a kick page (R322, R324); 0x0801 with RANGE_WRITE (Table Scope-11). -/
def kickWrite (who : Requester) (q off : Nat) (s : State) : State :=
  if off ≠ 0 then raiseRefused 8 (kickPage q + off) who 4 s
  else if (s.qu q).st ≠ 0 ∧ s.regB (queReg q 0) 30 then askDoorbell q s
  else s

/-- The poll interval has passed (R325). -/
def execDoorbellPoll (q : QueueId) (s : State) : Host.Outcome State Fault Refusal :=
  done (if (s.qu q).st ≠ 0 ∧ s.regF (queReg q 0) 0 10 ≠ 0 then askDoorbell q s else s)

/-- Stopped descriptors go on; the queue leaves FAULT_PARKED for the state its other conditions give, which 0x0904 names
(R389). -/
def resumeQueue (q : Nat) (s : State) : State :=
  let f (x : Queue) : Queue := { x with park := none, context := x.context.map fun d => { d with stopped := false } }
  changeState q f (raise 0x0904 [q, (f (s.qu q)).st] s)

/-- A doorbell record is malformed (R319). -/
def badDoorbell (x : Queue) (rec : BitVec 64) : Bool :=
  let pi := fld rec 0 16
  let ci := fld rec 32 16
  let p := pi + (if bit rec 16 then x.sqN else 0)
  let c := ci + (if bit rec 48 then x.cqN else 0)
  decide (x.sqN ≤ pi) || decide (x.cqN ≤ ci) || decide (x.sqN < ringCount x.sqN x.sqCi p) ||
    decide (ringCount x.cqN x.cqCi x.cqPi < ringCount x.cqN x.cqCi c)

/-- The device acts on a doorbell record (R318, R319, R354, R389). -/
def takeDoorbell (q : Nat) (rec : BitVec 64) (s : State) : State :=
  let x := s.qu q
  if badDoorbell x rec then
    changeState q (fun x => { x with error := true }) (raise 0x0809 [q, rec.toNat] s)
  else
    let r := bit rec 17
    let toggled := x.rseenSet && r != x.rseen
    let s := s.modQu q fun x =>
      { x with sqPi := fld rec 0 16 + (if bit rec 16 then x.sqN else 0),
               cqCi := fld rec 32 16 + (if bit rec 48 then x.cqN else 0), rseen := r, rseenSet := true }
    match x.park with
    | some p => if x.st = 3 ∧ (toggled ∧ p.access ≠ 0 ∨ p.access = 0) then resumeQueue q s else s
    | none => s

/-- After a doorbell read: the further one that kicks asked for, and reads that wait for the tag (R323). -/
def doorbellOver (q : Nat) (s : State) : State :=
  let again := (s.qu q).dbAgain
  let s := readOver ⟨q, 1, 0, 0⟩ (s.modQu q fun x => { x with dbSt := 0, dbAgain := false })
  serveReads (if again ∧ (s.qu q).st ≠ 0 then askDoorbell q s else s)

/-- A doorbell record arrives; in a pair it takes effect at its stamped delivery (R318, R321). -/
def execDoorbellReadDone (q : QueueId) (rec : BitVec 64) (s : State) : Host.Outcome State Fault Refusal :=
  if (s.qu q).dbSt ≠ 2 then done s
  else
    let s := s.modQu q fun x => { x with dbSt := 0 }
    done (doorbellOver q (if s.paired then sendTwin 11 (leBytes 1 q ++ leBytes 8 rec.toNat) s else takeDoorbell q rec s))

/- ### Fetching (R327 to R330) -/

/-- Descriptors that may be fetched now: submitted, within the context and the completion ring, in one run of ring
entries of one 4 KiB page and of the max read request size (R310, R327, R330). Entries that have arrived and wait for
their stamped delivery count as HELD. -/
def fetchCount (maxRead : Nat) (x : Queue) : Nat :=
  let idx := x.fetchAt % x.sqN
  let held := x.held + x.transit
  min (maxRead / 32) (min (min (ringCount x.sqN x.fetchAt x.sqPi) (32 - held))
    (min (x.cqN - (held + ringCount x.cqN x.cqCi x.cqPi)) (min (x.sqN - idx) (128 - idx % 128))))

/-- A fetch starts (R312, R327); a shadow fetches nothing (R321). -/
def tryFetch (q : Nat) (s : State) : State :=
  let x := s.qu q
  let n := fetchCount s.pci.maxRead x
  let va := x.fetchVa
  if (x.st = 1 ∨ x.st = 2) ∧ x.fetching = 0 ∧ 0 < n ∧ s.twn.role ≠ 2 then
    match translateFor 1 q 0xFFFF va (32 * n) false s with
    | (.ok bus, s) =>
      if hostTagFree s then
        (s.when s.masters fun s => s.send (.hostRead 2 q bus (32 * n))).modQu q fun x => { x with fetching := n, fetchTag := false }
      else s.modQu q fun x => { x with fetchTag := true }
    | (.wait, s) => s
    | (.fault k l, s) => takeFault q 1 0xFFFF k l va s
  else s

/-- The device fetches descriptors (R327); `tlbBad`: a TLB entry it uses fails parity (R366). -/
def execDescriptorFetch (q : QueueId) (tlbBad : Bool) (s : State) : Host.Outcome State Fault Refusal :=
  let x := s.qu q
  let s := if tlbBad then tlbParity x.asid x.fetchVa s else s
  done (tryFetch q s)

/-- What a queue in DETACHED or DRAINING does with descriptors it holds (R352). -/
def sweepQueue (q : Nat) (s : State) : State :=
  let x := s.qu q
  match x.st with
  | 4 => endAll q 0x0D s
  | 6 => (endAll q 0x0E s).modQu q fun y => { y with flushed := y.flushed + toEnd x 0x0E }
  | _ => s

/-- Fetched descriptors enter the context; SQ_CI passes them; the shadow is written (R320, R327). -/
def takeDescs (q : Nat) (descs : List (BitVec 256)) (s : State) : State :=
  let s := s.modQu q fun x =>
    { x with context := x.context ++ (withPos descs).map fun (i, d) => { raw := d, id := x.nextId + i, arrival := s.now },
             nextId := x.nextId + descs.length, sqCi := (x.sqCi + descs.length) % (2 * x.sqN),
             transit := x.transit - descs.length }
  sweepQueue q (writeShadow q s)

/-- Fetched entries arrive, all of them or those of the first reads (R327). -/
def execFetchDataArrive (q : QueueId) (descs : List (BitVec 256)) (s : State) : Host.Outcome State Fault Refusal :=
  let x := s.qu q
  let d := descs.take x.fetching
  if d.isEmpty then done s
  else
    let s := s.modQu q fun x => { x with fetching := x.fetching - d.length }
    let s := if d.length = x.fetching then readOver ⟨q, 2, 0, 0⟩ s else s
    done (serveReads (if s.paired then
        sendTwin 12 (leBytes 1 q ++ d.flatMap fun v => leBytes 32 v.toNat)
          (s.modQu q fun x => { x with transit := x.transit + d.length })
      else takeDescs q d s))

/- ### Starting (R331 to R341, R409) -/

/-- Descriptors in progress: started and not ended. -/
def inProgress (x : Queue) : Nat := x.context.countP fun d => d.started && d.ended.isNone

/-- A descriptor that starts only when every earlier one has completed (R341). -/
def Desc.barrier (d : Desc) : Bool := d.serial || d.opc == 7

/-- The next descriptor that a RUNNING queue may start (R341). -/
def nextStart (x : Queue) : Option Desc :=
  let before := x.context.takeWhile (·.started)
  let open_ := before.filter fun d => d.ended.isNone
  match x.context.find? fun d => !d.started with
  | none => none
  | some d =>
    if x.st = 1 && decide (open_.length < 8) && !(open_.any Desc.barrier) && (!d.barrier || open_.isEmpty) then some d
    else none

/- ### Arbitration among queues (R344) -/

/-- A queue has a descriptor ready to start or data ready to move. -/
def Queue.ready (x : Queue) : Bool := (nextStart x).isSome || x.context.any (·.yielded)

/-- QUE_CTRL.PRIO. -/
def prioOf (s : State) (q : Nat) : Nat := s.regF (queReg q 0) 28 2

/-- How many queues stand before q in the round of its priority. -/
def turnOf (s : State) (q : Nat) : Nat := (q + 256 - tabGet 0 s.arb (prioOf s q)) % 256

/-- Queue p is served before queue q when both are ready. -/
def servedBefore (s : State) (p q : Nat) : Bool :=
  decide (prioOf s q < prioOf s p) || (decide (prioOf s p = prioOf s q) && decide (turnOf s p < turnOf s q))

/-- It is the turn of queue q among the queues that are ready (R344, log 56). -/
def granted (s : State) (q : Nat) : Bool := !(s.que.any fun p => p.1 != q && p.2.ready && servedBefore s p.1 q)

/-- Another queue of the same or a higher priority is ready: after 4 KiB queue q gives the engine away. -/
def contested (s : State) (q : Nat) : Bool :=
  s.que.any fun p => p.1 != q && p.2.ready && decide (prioOf s q ≤ prioOf s p.1)

/-- Queue q has been served. -/
def servedNow (q : Nat) (s : State) : State := { s with arb := tabSet 0 s.arb (prioOf s q) (q + 1) }

/-- A reserved opcode (Table Queues-6). -/
def badOpcode (d : Desc) : Bool :=
  match d.opc with
  | 1 | 2 | 3 | 4 | 7 | 8 => d.sub != 0
  | 5 => decide (6 < d.sub)
  | 6 => decide (1 < d.sub)
  | _ => true

/-- Grotto addresses of the descriptor. -/
def Desc.grottoAddrs (d : Desc) : List Nat :=
  (if d.srcg ∧ (d.opc = 1 ∨ d.opc = 2) then [d.src] else []) ++ (if d.dstg ∧ (d.opc = 1 ∨ d.opc = 3 ∨ d.opc = 4) then [d.dst] else [])

/-- Bits of a Grotto address that must be zero (Table Queues-7). -/
def badGrottoAddr (a len : Nat) : Bool :=
  a / 2 ^ 62 % 2 != 0 || a / 2 ^ 27 % 2 ^ 29 != 0 || decide (2 ^ 27 < a % 2 ^ 27 + len)

/-- FLAGS that the opcode does not use and the reserved ones (R331, Table Queues-5). -/
def badFlags (d : Desc) : Bool :=
  let allowSrcg := d.opc == 1 || d.opc == 2
  let allowDstg := d.opc == 1 || d.opc == 3 || d.opc == 4
  fld d.raw 14 2 != 0 || (d.srcg && !allowSrcg) || (d.dstg && !allowDstg) || (d.turn && !(d.opc == 6 && d.sub == 0)) || (d.eom && d.opc != 2)

/-- A non-zero unused field, LEN = 0 where it is used, a reserved code or a bad Grotto address (R333, R338, R339, R413). -/
def badField (x : Queue) (d : Desc) : Bool :=
  let usesLen := (decide (1 ≤ d.opc) && decide (d.opc ≤ 4)) || (d.opc == 5 && d.sub == 0)
  let usesSrc := d.opc == 1 || d.opc == 2 || d.opc == 4 || (d.opc == 5 && d.sub == 0)
  let usesDst := d.opc == 1 || d.opc == 3 || d.opc == 4
  let auxBad :=
    match d.opc with
    | 1 | 2 | 3 | 4 => if encrypted x d then decide (2 ^ 64 ≤ d.aux + d.len / x.sector - 1 + b2n (d.len == 0)) else d.aux != 0
    | 5 => if d.sub = 0 then decide (2 ^ 12 ≤ d.aux) else decide (2 ^ 36 ≤ d.aux) || d.aux % 16 != 0
    | 6 => if d.sub = 0 then d.aux / 2 ^ 25 != 0 || d.aux / 16 % 2 ^ 12 != 0 || d.aux / 4 % 4 == 0
      else d.aux / 2 ^ 20 != 0 || d.aux / 16 % 2 ^ 12 != 0 || d.aux % 4 != 0 || d.aux / 4 % 4 == 0
    | 7 => false
    | _ => d.aux != 0
  badFlags d || auxBad || (if usesLen then d.len == 0 else d.len != 0) || (!usesSrc && d.src != 0) || (!usesDst && d.dst != 0)
    || d.grottoAddrs.any fun a => badGrottoAddr a d.len

/-- R334 is not met. -/
def badAlign (x : Queue) (d : Desc) : Bool :=
  encrypted x d && (d.len % x.sector != 0 || (if d.srcHost then d.src else d.dst) % 64 != 0)

/-- Rights required at the start (Tables Crypto-3 and -4). -/
def rightsNeeded (d : Desc) : BitVec 4 :=
  match d.opc with
  | 1 => if d.srcHost then 1 else if d.dstHost then 2 else 0
  | 2 => if d.srcHost then 5 else 4
  | 3 => if d.dstHost then 6 else 4
  | 4 => if d.dstHost then 2 else 0
  | 5 => if d.sub = 0 then 1 else 0
  | _ => 0

/-- The status with which the checks at the start end a descriptor (R333, R334, R335, R337, R409, R577, log 20). -/
def startRefusal (s : State) (x : Queue) (d : Desc) : Option Nat :=
  let ep := x.setup.ep
  if badOpcode d then some 1
  else if badField x d then some 2
  else if badAlign x d then some 3
  else if (d.opc = 1 ∧ d.srcHost ∧ d.dstHost) ∨ (s.netMode = 0 ∧ (d.grottoAddrs.any fun a => decide (2 ^ 63 ≤ a))) then some 6
  else if (d.opc = 2 ∨ d.opc = 3) ∧ (!bit ep 31 ∨ bit ep 30 ≠ (d.opc == 3)) then some 4
  else if rightsNeeded d &&& ~~~rightsOf s x.keyIdx ≠ 0 then some 5
  else none

/-- A descriptor ends at its start: R333's are counted for 0x0803, RIGHTS for 0x0A04. -/
def refuseStart (q : Nat) (d : Desc) (status : Nat) (s : State) : State :=
  let x := s.qu q
  let miss := (rightsNeeded d &&& ~~~rightsOf s x.keyIdx).toNat
  let s := endDesc q d.id status 0 s
  s.modQu q fun x =>
    if status ≤ 2 then { x with refFirst := if x.refTick = 0 then 65536 * status + d.cid else x.refFirst, refTick := x.refTick + 1 }
    else if status = 5 then { x with rightFirst := if x.rightTick = 0 then 16 * d.cid + miss else x.rightFirst, rightTick := x.rightTick + 1 }
    else x

/-- Start a descriptor of one of the opcodes, if it is the queue's next, the engine may start it and it is the queue's turn
(R344); a reserved opcode ends with BAD_OPCODE whatever the command. The state, and the number of the descriptor that now
runs. -/
def startNext (q : Nat) (opcs : Nat → Nat → Bool) (s : State) : State × Option Nat :=
  match nextStart (s.qu q) with
  | none => (s, none)
  | some d =>
    if (!opcs d.opc d.sub && !badOpcode d) || !granted s q then (s, none)
    else
      let x := s.qu q
      let s := servedNow q s
      let s := modDesc q d.id (fun d => { d with started := true }) s
      let s := if encrypted x d then useKey x.keyIdx s else s
      match startRefusal s x d with
      | some st => (refuseStart q d st s, none)
      | none => (s, some d.id)

/-- Queue q may move data now, or its descriptor is ready to (R344): a start and up to 4 KiB of data are units of their own. -/
def takeTurn (q id : Nat) (s : State) : State × Option Nat :=
  if granted s q then (servedNow q s, some id) else (modDesc q id (fun d => { d with yielded := true }) s, none)

/-- A descriptor of an opcode that has started and waits, if any, else the next one to start; each in its queue's turn. -/
def goOn (q opc : Nat) (s : State) : State × Option Nat :=
  match (s.qu q).context.find? fun d => d.started && d.ended.isNone && !d.stopped && d.opc == opc && d.sub == 0 with
  | some d => if granted s q then (servedNow q s, some d.id) else (s, none)
  | none =>
    match startNext q (fun o b => o == opc && b == 0) s with
    | (s, some id) => takeTurn q id s
    | r => r

/- ### Stream endpoints (R145, R337, R580) -/

/-- The chamber that an endpoint's traffic reaches (R127, R226, R242). -/
def epChamber (s : State) (e : Nat) : Option Nat :=
  let c := e / 2
  match (s.col (colOf c)).lock with
  | .off | .staged => some c
  | .degradedB => if c < 256 then some (c + 256) else none
  | _ => if c < 256 then some c else none

/-- The fabric side of the endpoint is not held idle (R145), and no fence on the way to its tier is closed (R44). -/
def epOwned (s : State) (e : Nat) : Bool :=
  match epChamber s e with
  | some c => s.chmState c == 1 && sepOf (s.chm c).selWords (e % 2) && !s.fenced (tierOf c)
  | none => false

/-- The endpoints that traffic into endpoint e reaches: in a comparing column the same one of both chambers (R232). -/
def epTargets (s : State) (e : Nat) : List Nat := if lockPair (s.col (colOf (e / 2))).lock && decide (e < 512) then [e, e + 512] else [e]

/-- A closed fence keeps beats from the endpoint's tier (R39). -/
def epFenced (s : State) (e : Nat) : Bool := (epChamber s e).any fun c => s.fenced (tierOf c)

/-- A queue's view of its endpoint: a sending route takes it away (R580). -/
def epOpen (s : State) (e : Nat) : Bool :=
  let r := tabGet {} s.net.streams e
  epOwned s e && !(r.v && r.dir)

/-- Even parity of a beat (Table Queues-8). -/
def beatParity (data : BitVec 512) : BitVec 8 :=
  ofBits 8 ((List.range 8).filter fun j => popcount (wordAt data j) % 2 == 1)

/-- A beat of at most 64 bytes with its poison. -/
def mkBeat (bytes : List (Byte × Bool)) (last : Bool) : Beat :=
  let data : BitVec 512 := BitVec.ofNat 512 (ofLeBytes (fitBytes 64 (bytes.map (·.1))))
  { data := data, bytes := BitVec.ofNat 6 (bytes.length - 1), last := last, psn := bytes.any (·.2), par := beatParity data }

/-- Source k may put a beat into endpoint e: no other source's message is part-way in (R581, R733). -/
def epFree (s : State) (e k : Nat) : Bool :=
  let m := (tabGet ({} : Route) s.net.streams e).mid
  epOwned s e && (m == 0 || m == k)

/-- Beats of source k go into the endpoint, whole (R146). -/
def putBeats (e k : Nat) (beats : List Beat) (s : State) : State :=
  let s := forEach beats (fun b s => forEach (epTargets s e) (fun e s => s.send (.beatIn e b)) s) s
  let open_ := match beats.getLast? with
    | some b => !b.last
    | none => false
  s.modNet fun n => { n with streams := tabMod {} n.streams e fun r => { r with mid := if open_ then k else 0 } }

/-- Beats buffered in D-PHY port p go into its endpoint (R733); BURSTS counts the messages delivered. -/
def drainPort (p : Nat) (s : State) : State :=
  let e := s.regF (0xE_0300 + 4 * p) 0 10
  let beats := (tabGet ({} : Dphy) s.pin.ports p).buffer
  if beats = [] ∨ !epFree s e (16 + p) then s
  else (putBeats e (16 + p) beats s).modPin fun x =>
    { x with ports := tabMod {} x.ports p fun d =>
      { d with buffer := [], bursts := (d.bursts + (beats.filter (·.last)).length) % 65536 } }

/-- Beats of a landing buffer go into the endpoint (R581); their credits return (R582). -/
def drainLanding (e : Nat) (s : State) : State :=
  let r := tabGet {} s.net.streams e
  if r.landing = [] ∨ !epFree s e 2 then s
  else
    let s := (putBeats e 2 r.landing s).modNet fun n =>
      { n with streams := tabMod {} n.streams e fun r => { r with landing := [] } }
    sendRsp r.node e 0x10 (BitVec.ofNat 8 r.landing.length) none s

/-- Everything that takes precedence over a STREAM_IN at a LAST boundary (R581, R733). -/
def drainInputs (e : Nat) (s : State) : State :=
  let ports := (s.pin.ports.map (·.1)).filter fun p => s.regF (0xE_0300 + 4 * p) 0 10 == e
  drainLanding e (forEach ports drainPort s)

/- ### Remote requests (R575 to R579) -/

/-- The address is another node's Grotto. -/
def isRemote (s : State) (a : Nat) : Bool := decide (2 ^ 63 ≤ a) && s.net.addr != some (a / 2 ^ 56 % 64)

/-- A request of n flits finds its REQ credits on the bundle, beside what waits there already (R393, R575). -/
def reqCredit (s : State) (b n : Nat) : Bool :=
  decide (n + ((s.bun b).link.waiting.countP fun f => fVc f == 0) ≤ s.credits b 0)

/-- Lines that a queue's turn may ask for: 4 KiB while another queue has work (R344). -/
def turnLines (s : State) (q : Nat) : Nat := if contested s q then 64 else 4096

/-- Issue remote requests of a descriptor while tags are free and credits are held (R393, R575). Without a route the node itself is the one
that discards the flit: REMOTE_ERROR (R579). -/
def issueRemotes (q id node : Nat) : Nat → State → State
  | 0, s => s
  | fuel + 1, s =>
    match (s.qu q).desc id with
    | none => s
    | some d =>
      match d.remq with
      | [] => s
      | r :: rest =>
        if !gavalTagFree s || ((nextHop s node).any fun b => !reqCredit s b (1 + b2n r.write)) then s
        else if (nextHop s node).isNone then endDesc q id 0x10 (restartOf s q d) s
        else
          match (List.range 4096).find? fun t => !(s.net.remotes.any fun m => m.rid % 4096 == t) with
          | none => s
          | some tag =>
            let rid := tag + 4096 * (tabGet 0 s.net.gens tag)
            let s := s.modNet fun n =>
              { n with gens := tabMod 0 n.gens tag (fun g => (g + 1) % 16),
                       remotes := n.remotes ++ [{ rid := rid, queue := q, cid := id, node := node, read := !r.write, line := r.line }] }
            let head := leBytes 2 rid ++ leBytes 4 (64 * r.line)
            let pay := if r.write then head ++ leBytes 8 r.be.toNat ++ leBytes 1 r.poison.toNat ++ [0] ++ leBytes 64 r.data.toNat
              else head
            let s := sendTo node (mkMsg (if r.write then 3 else 2) 0 node s.ownAddr r.write pay) s
            issueRemotes q id node fuel (modDesc q id (fun d => { d with remq := rest }) s)

/-- The descriptor has a remote request that could be issued now. -/
def remoteReady (s : State) (d : Desc) (node : Nat) : Bool :=
  match d.remq with
  | [] => false
  | r :: _ => !d.stopped && d.ended.isNone && gavalTagFree s && !((nextHop s node).any fun b => !reqCredit s b (1 + b2n r.write))

/-- The node that a descriptor's waiting remote requests go to. -/
def Desc.remoteNode (d : Desc) : Nat :=
  (if d.remq.any (·.write) then d.dst else d.src) / 2 ^ 56 % 64

/-- A turn's remote requests (R344): what is left and could be issued waits for the next turn. -/
def issueTurn (q id node : Nat) (s : State) : State :=
  let s := issueRemotes q id node (turnLines s q) s
  match (s.qu q).desc id with
  | some d => if remoteReady s d node then modDesc q id (fun d => { d with yielded := true }) s else s
  | none => s

/-- Remote requests of a descriptor that are outstanding. -/
def outstanding (s : State) (q id : Nat) : Bool := s.net.remotes.any fun m => m.queue == q && m.cid == id

/-- Remote writes of a descriptor that are outstanding: its completion waits for them (R343). -/
def writesOpen (s : State) (q id : Nat) : Bool := s.net.remotes.any fun m => m.queue == q && m.cid == id && !m.read

/-- The lines that a range of Grotto bytes touches. -/
def lineRange (off n : Nat) : List Nat := (List.range ((off + n - 1) / 64 + 1 - off / 64)).map (off / 64 + ·)

/-- The WRITE requests that put bytes at an offset. -/
def remoteWrites (off : Nat) (bytes : List (Byte × Bool)) : List RemReq :=
  (lineRange off bytes.length).map fun l =>
    let at_ (j : Nat) : Option (Byte × Bool) := if 64 * l + j < off then none else bytes[64 * l + j - off]?
    { write := true, line := l, be := ofBits 64 ((List.range 64).filter fun j => (at_ j).isSome),
      data := BitVec.ofNat 512 (ofLeBytes ((List.range 64).map fun j => ((at_ j).map (·.1)).getD 0)),
      poison := ofBits 8 ((List.range 8).filter fun w => (List.range 8).any fun j => ((at_ (8 * w + j)).map (·.2)).getD false) }

/- ### Data transfers -/

/-- Where granule by granule the next one ends (chapter 09, Restart offsets; R380, R710). -/
def granuleEnd (x : Queue) (d : Desc) (o total : Nat) : Nat :=
  let host := if d.srcHost then d.src else d.dst
  if encrypted x d then o + x.sector
  else if x.enc && d.opc == 5 then min total (o + x.sector)
  else if d.srcHost || d.dstHost then min total (o + 64 - (host + o) % 64)
  else min total (o + 64 - ((if d.opc = 2 then d.src else d.dst) + o) % 64)

/-- Pages of the host side of a granule, translated one after the other (R370, R380): bus addresses of its parts, or
what stops it. -/
def translateParts (q id access : Nat) (wr : Bool) (va n : Nat) (s : State) :
    Option (List (Nat × Nat)) × Option (Nat × Nat × Nat) × State :=
  let first := min n (4096 - va % 4096)
  let parts := if first < n then [(va, first), (va + first, n - first)] else [(va, first)]
  parts.foldl (fun (acc : Option (List (Nat × Nat)) × Option (Nat × Nat × Nat) × State) p =>
    match acc.1 with
    | none => acc
    | some l =>
      match translateFor access q id p.1 p.2 wr acc.2.2 with
      | (.ok bus, s) => (some (l ++ [(bus, p.2)]), none, s)
      | (.wait, s) => (none, none, s)
      | (.fault k lev, s) => (none, some (k, lev, p.1), s)) (some [], none, s)

/-- Crypto of one sector or plain bytes (R411, R412): data unit number AUX + o / sector. -/
def crypt (s : State) (x : Queue) (d : Desc) (enc : Bool) (o : Nat) (b : List Byte) : List Byte :=
  if encrypted x d then xts (s.key x.keyIdx).key enc (d.aux + o / x.sector) b else b

/-- The data of a granule from its source: bytes with poison flags. -/
def granuleSource (q id o n : Nat) (bad : List Nat) (s : State) : List (Byte × Bool) × State :=
  let x := s.qu q
  match x.desc id with
  | none => ([], s)
  | some d =>
    match d.opc with
    | 4 => ((List.range n).map fun i =>
        let a := d.dst + o + i
        (BitVec.ofNat 8 (d.src >>> (8 * ((if d.dstg then a % 2 ^ 27 else a) % 8))), false), s)
    | 3 => let b := d.buf.take n
           (b ++ List.replicate (n - b.length) (0, false), s)
    | _ =>
      if d.srcHost then
        ((fitBytes n d.hbuf).map fun b => (b, false), modDesc q id (fun d => { d with hbuf := d.hbuf.drop n }) s)
      else if isRemote s d.src then
        let off := d.src % 2 ^ 27 + o
        ((List.range n).map fun i =>
          let a := off + i
          match d.parts.find? fun p => p.1 == a / 64 with
          | some (_, v, pz) => (BitVec.ofNat 8 (v.toNat >>> (8 * (a % 64))), bit pz (a % 64 / 8))
          | none => (0, false), s)
      else sideBytes 2 (d.src % 2 ^ 27) (d.src % 2 ^ 27 + o) n bad s

/-- Poisoned words reach host memory: the offset is kept for the completion, and 0x0808 names the first such descriptor
of the tick (R348). -/
def notePoison (q id o : Nat) (bytes : List (Byte × Bool)) (s : State) : State :=
  match bytes.findIdx? (·.2) with
  | none => s
  | some i =>
    let x := s.qu q
    match x.desc id with
    | none => s
    | some d =>
      if d.poison.isSome then s
      else
        let off := o + i - min (o + i) ((d.src + o + i) % 8)
        let s := modDesc q id (fun d => { d with poison := some off }) s
        if x.poisonTold then s
        else raise 0x0808 [q, d.cid, off] (s.modQu q fun x => { x with poisonTold := true })

/-- Bytes go to their destination. `parts` are the bus addresses of a host destination: no write is larger than the max
payload size, and each carries Relaxed Ordering when that is enabled (R310, R311). -/
def granuleSink (q id o : Nat) (parts : List (Nat × Nat)) (bytes : List (Byte × Bool)) (bad : List Nat) (s : State) : State :=
  let x := s.qu q
  match x.desc id with
  | none => s
  | some d =>
    if d.dstHost then
      let b := crypt s x d true o (bytes.map (·.1))
      let s := notePoison q id o bytes s
      let reqs := parts.flatMap fun p => requests s.pci.maxPayload p.1 p.2
      (reqs.foldl (fun (acc : Nat × State) p =>
        (acc.1 + p.2, acc.2.when acc.2.masters fun s =>
          s.send (.dataWrite q p.1 s.pci.relaxed ((b.drop acc.1).take p.2)))) (0,
        s.when (s.twn.role == 1) (sendTwin 4 (leBytes 1 q ++ leBytes 2 d.cid ++ leBytes 4 (o + bytes.length))))).2
    else if d.opc = 2 then modDesc q id (fun d => { d with buf := d.buf ++ bytes }) s
    else if isRemote s d.dst then
      modDesc q id (fun d => { d with remq := d.remq ++ remoteWrites (d.dst % 2 ^ 27 + o) bytes }) s
    else
      let base := d.dst % 2 ^ 27 + o
      sideWrite 1 base (bytes.map fun b => some b.1) (fun w =>
        (List.range 8).any fun j => decide (base ≤ 8 * w + j) && ((bytes[8 * w + j - base]?).map (·.2)).getD false) bad s

/-- Remote lines that a descriptor still needs for its source from its read position on. -/
def linesMissing (d : Desc) : List Nat :=
  (lineRange (d.src % 2 ^ 27 + readPos d) (d.len - readPos d)).filter fun l => !(d.parts.any fun p => p.1 == l)

/-- Bytes that a descriptor moves: LEN, or for STREAM_OUT what its beats bring. -/
def totalBytes (d : Desc) : Nat := if d.opc = 3 then d.off + d.buf.length else d.len
/-- A STREAM_OUT waits for more beats before it may finish a granule. -/
def moreBeats (d : Desc) : Bool := d.opc == 3 && d.bufEnd == 0 && decide (d.off + d.buf.length < d.len)

/-- STREAM_IN: beats leave the engine's buffer while the endpoint is open: full ones, and at the end the last (R337). -/
def emitBeats (q id : Nat) : Nat → State → State
  | 0, s => s
  | fuel + 1, s =>
    let x := s.qu q
    match x.desc id with
    | none => s
    | some d =>
      let e := fld x.setup.ep 0 10
      let last := decide (d.len ≤ d.off + 64)
      let n := min 64 (d.len - d.off)
      let s := if d.opc = 2 then drainInputs e s else s
      if d.opc ≠ 2 ∨ n = 0 ∨ d.buf.length < n ∨ !epOpen s e ∨ !epFree s e 3 ∨ d.ended.isSome then s
      else
        let s := putBeats e 3 [mkBeat (d.buf.take n) (last && d.eom)] s
        let s := modDesc q id (fun d => { d with buf := d.buf.drop n, off := d.off + n }) s
        emitBeats q id fuel (s.modQu q fun x => { x with bytes := x.bytes.add n })

/-- A Grotto COPY whose ranges overlap leaves the overlapping destination bytes undefined (R335, log 1). -/
def overlapFree (d : Desc) (s : State) : State :=
  let a := d.src % 2 ^ 27
  let b := d.dst % 2 ^ 27
  if d.opc = 1 ∧ d.srcg ∧ d.dstg ∧ !isRemote s d.src ∧ !isRemote s d.dst ∧ a < b + d.len ∧ b < a + d.len then
    let lo := max a b
    let n := min (a + d.len) (b + d.len) - lo
    let bytes := (List.range n).map fun i => some (Config.freeByte s.seed i)
    sideWrite 1 lo bytes (fun _ => false) [] s.fresh
  else s

/-- A transfer that has moved everything ends (R337, R343, R348, R349); one with remote writes outstanding waits. -/
def finishDesc (q id : Nat) (s : State) : State :=
  match (s.qu q).desc id with
  | none => s
  | some d =>
    if !d.remq.isEmpty || outstanding s q id then s
    else
      let s := overlapFree d s
      if d.opc = 3 ∧ d.bufEnd = 2 then
        let e := fld (s.qu q).setup.ep 0 10
        countSomeError (if e < 512 then [1, 2, 3, 4] else [1, 2, 3]) (s.physOf (e / 2 % 256))
          (raise 0x080D [q, e, d.cid] (endDesc q id 0x11 d.off s))
      else if d.opc = 3 ∧ d.bufEnd = 3 then endDesc q id 0x0F d.len s
      else match d.poison with
        | some p => endDesc q id 7 p s
        | none => endDesc q id 0 d.off s

/-- Host reads of a granule that have not been issued yet are issued while tags are free: `parts` are the granule's bus
addresses, o its first byte (R310, R312). A shadow issues none (R321). -/
def issueReads (q id o : Nat) (parts : List (Nat × Nat)) (s : State) : State :=
  let reqs := parts.flatMap fun p => requests s.pci.maxRead p.1 p.2
  (reqs.foldl (fun (acc : Nat × State) r =>
    let (pos, s) := acc
    let s := match (s.qu q).desc id with
      | none => s
      | some d =>
        if d.readTo ≠ pos || s.twn.role == 2 then s
        else if !hostTagFree s then modDesc q id (fun d => { d with wantTag := true }) s
        else
          modDesc q id (fun d => { d with readTo := pos + r.2, reads := d.reads ++ [(pos, r.2)], wantTag := false })
            (s.when s.masters fun s => s.send (.hostRead 0 q r.1 r.2))
    (pos + r.2, s)) (o, s)).2

/-- Host bytes from offset o on as the device takes them: sectors of an encrypted queue are decrypted, whole ones only (R380,
R411, R412). -/
def takenBytes (s : State) (x : Queue) (d : Desc) (o : Nat) (bytes : List Byte) : List Byte :=
  if encrypted x d then
    (withPos (chunks x.sector (bytes.length / x.sector) bytes)).flatMap fun (i, b) => crypt s x d false (o + i * x.sector) b
  else bytes

/-- Data of the reads in flight arrive: `host` is the source from its first byte on, as far as it has come. A read whose
data have all come gives back its tag (R312, R393); a lead stamps the data, decrypted (R321, R417). -/
def takeHost (q id : Nat) (host : List Byte) (s : State) : State :=
  match (s.qu q).desc id with
  | none => s
  | some d =>
    let upTo := min host.length d.readTo
    let bytes := takenBytes s (s.qu q) d d.sentTo ((host.take upTo).drop d.sentTo)
    let s := modDesc q id (fun d =>
      { d with reads := d.reads.filter (fun r => !decide (r.1 + r.2 ≤ upTo)), sentTo := d.sentTo + bytes.length }) s
    if bytes = [] then s
    else if s.twn.role = 1 then sendTwin 22 (leBytes 1 q ++ leBytes 2 d.cid ++ leBytes 4 d.sentTo ++ bytes) s
    else modDesc q id (fun d => { d with hbuf := d.hbuf ++ bytes }) s

/-- The bytes of a granule of n bytes from o on that the host source must give are here; reads for them are issued and
their data taken as far as that goes now. -/
def hostReady (q id o n : Nat) (parts : List (Nat × Nat)) (env : Option DescEnv) (s : State) : Bool × State :=
  let s := issueReads q id o parts s
  let s := match env with
    | some e => if s.twn.role = 2 then s else takeHost q id e.hostData s
    | none => s
  (((s.qu q).desc id).any fun d => decide (n ≤ d.hbuf.length), s)

/-- The two AES cores differ in the sector from o to e (R430), which `at_` names or State.cry says. The shadow's engine handles
no host traffic (R417). -/
def xtsFault (s : State) (at_ : Option Nat) (o e : Nat) : Bool :=
  s.twn.role != 2 && (s.cry.xtsBad || at_.any fun a => decide (o ≤ a) && decide (a < e))

/-- The descriptor uses this device's Grotto. -/
def usesGrotto (s : State) (d : Desc) : Bool := (d.srcg && !isRemote s d.src) || (d.dstg && !isRemote s d.dst)

/-- A granule of n bytes from o on takes a stopped link of the side port (R109). -/
def granuleStopped (s : State) (d : Desc) (o n : Nat) : Bool :=
  (d.srcg && !isRemote s d.src && sideStopped s (d.src % 2 ^ 27 + o) n) ||
  (d.dstg && !isRemote s d.dst && sideStopped s (d.dst % 2 ^ 27 + o) n)

/-- Beats held, by the bytes of each that are not yet written, when n more bytes have been (R381). -/
def dropLens : Nat → List Nat → List Nat
  | _, [] => []
  | n, l :: t => if l ≤ n then dropLens (n - l) t else (l - n) :: t

/-- One granule after another while nothing stops the transfer, `used` bytes of its queue's turn (R344). `env` is what the
command brings; none when it brings nothing. -/
def runGranules (q id : Nat) (env : Option DescEnv) (used : Nat) : Nat → State → State
  | 0, s => s
  | fuel + 1, s =>
    let s := emitBeats q id 65 s
    let x := s.qu q
    match x.desc id with
    | none => s
    | some d =>
      if d.ended.isSome ∨ d.stopped then s
      else
        let total := totalBytes d
        let o := readPos d
        if total ≤ o ∨ (d.opc = 2 ∧ d.len ≤ o) then
          (if moreBeats d ∨ (d.opc = 2 ∧ d.off < d.len) then s else finishDesc q id s)
        else if 4096 ≤ used ∧ contested s q then modDesc q id (fun d => { d with yielded := true }) s
        else
          let e := granuleEnd x d o total
          if (moreBeats d ∧ total < e) ∨ (moreBeats d ∧ e = total ∧ (d.dst + e) % 64 ≠ 0 ∧ !encrypted x d) then s
          else if d.opc = 2 ∧ 4096 < d.buf.length + (e - o) then s
          else
            let va := (if d.srcHost then d.src else d.dst) + o
            let acc := if d.srcHost then 2 else 3
            let (parts, fault, s) := if d.srcHost || d.dstHost then translateParts q id acc d.dstHost va (e - o) s else (some [], none, s)
            match parts, fault with
            | none, some (k, lev, at_) => takeFault q acc id k lev at_ s
            | none, none => s
            | some parts, _ =>
              let s := if encrypted x d then useKey x.keyIdx s else s
              if encrypted x d ∧ (s.key x.keyIdx).st = 3 then endDesc q id 5 0 s
              else if encrypted x d ∧ xtsFault s (env.bind (·.aesFault)) o e ∧
                  (d.dstHost ∨ env.any fun v => decide (e ≤ v.hostData.length)) then
                deviceFault 0x0A06 (raise 0x0A06 [1, q] (endDesc q id 0x08 d.off (s.modCry fun c => { c with xtsBad := false })))
              else
              let (here, s) := if d.srcHost then hostReady q id o (e - o) parts env s else (true, s)
              if !here then s
              else if sideAborts s ∧ usesGrotto s d then endDesc q id 9 d.off s
              else if granuleStopped s d o (e - o) then s
              else if !grottoTagFree s ∧ usesGrotto s d then modDesc q id (fun d => { d with wantGrt := true }) s
              else
                let (bytes, s) := granuleSource q id o (e - o) d.bad s
                let s := granuleSink q id o parts bytes d.bad s
                let moved := min (e - o) (total - o)
                let s := if d.opc = 2 then s
                  else (modDesc q id (fun d => { d with off := d.off + moved, buf := d.buf.drop moved, lens := dropLens moved d.lens }) s).modQu q fun x =>
                    { x with bytes := x.bytes.add moved }
                runGranules q id env (used + (e - o)) fuel s

/-- Granules of a descriptor at most. -/
def granuleFuel (d : Desc) : Nat := d.len + 70

/-- Run a started data descriptor: remote reads first fetch their lines (R343, R575). -/
def runDesc (q id : Nat) (env : Option DescEnv) (s : State) : State :=
  let s := modDesc q id (fun d => { d with yielded := false, wantTag := false, wantGrt := false }) s
  match (s.qu q).desc id with
  | none => s
  | some d =>
    if d.ended.isSome ∨ d.stopped then s
    else if d.srcg ∧ isRemote s d.src ∧ (d.opc = 1 ∨ d.opc = 2) ∧ !d.asked then
      let reqs := (linesMissing d).map fun l => { write := false, line := l, be := 0, data := 0, poison := 0 : RemReq }
      issueTurn q id (d.src / 2 ^ 56 % 64) (modDesc q id (fun d => { d with asked := true, remq := reqs }) s)
    else if d.srcg ∧ isRemote s d.src ∧ (d.opc = 1 ∨ d.opc = 2) ∧ linesMissing d ≠ [] then
      issueTurn q id (d.src / 2 ^ 56 % 64) s
    else
      let s := runGranules q id env 0 (granuleFuel d) s
      let s := if d.dstg ∧ isRemote s d.dst then issueTurn q id (d.dst / 2 ^ 56 % 64) s else s
      match (s.qu q).desc id with
      | some d => if d.ended.isNone ∧ totalBytes d ≤ d.off ∧ !moreBeats d ∧ d.opc ≠ 2 then finishDesc q id s else s
      | none => s

/-- A descriptor whose wait has ended goes on in its queue's turn, or is ready to (R344). -/
def runTurn (q id : Nat) (s : State) : State :=
  if granted s q then runDesc q id none (servedNow q s) else modDesc q id (fun d => { d with yielded := true }) s

/-- Host read data that the lead has stamped are delivered (R321, Table Twin-5): at a shadow too they stand for its reads. A
LOAD_IMAGE goes on with its own command. -/
def takeStamped (q cid off : Nat) (bytes : List Byte) (s : State) : State :=
  match (s.qu q).context.find? fun d =>
      d.cid == cid && d.started && d.ended.isNone && !d.stopped && d.srcHost && readPos d + d.hbuf.length == off with
  | none => s
  | some d =>
    let upTo := off + bytes.length
    let s := modDesc q d.id (fun d =>
      { d with hbuf := d.hbuf ++ bytes, sentTo := max d.sentTo upTo, readTo := max d.readTo upTo }) s
    if d.opc = 5 then s else runTurn q d.id s

/-- What a data command brings of upsets: TLB entries that have lost their parity and a key table error (R366, R404). -/
def takeUpsets (q : Nat) (env : DescEnv) (s : State) : State :=
  let s := forEach env.tlbBad (fun vpn s => tlbParity (s.qu q).asid (4096 * vpn) s) s
  if env.keyError ∧ (s.qu q).enc then spoilKey (s.qu q).keyIdx s else s

/-- A data descriptor starts or goes on with what its command brings (R274, R366, R404). A stream to or from a tier behind a
closed fence ends with ABORT (R39, R41). -/
def dataCommand (q opc : Nat) (env : DescEnv) (pre : Nat → State → State) (s : State) : State :=
  match goOn q opc (takeUpsets q env s) with
  | (s, some id) =>
    if (opc = 2 ∨ opc = 3) ∧ epFenced s (fld (s.qu q).setup.ep 0 10) then
      endDesc q id 0x09 ((((s.qu q).desc id).map (·.off)).getD 0) s
    else runDesc q id (some env) (pre id (modDesc q id (fun d => { d with bad := d.bad ++ env.addrErr }) s))
  | (s, none) => s

/-- COPY (R335). -/
def execDescCopy (q : QueueId) (env : DescEnv) (s : State) : Host.Outcome State Fault Refusal :=
  done (dataCommand q 1 env (fun _ s => s) s)

/-- FILL (R336). -/
def execDescFill (q : QueueId) (env : DescEnv) (s : State) : Host.Outcome State Fault Refusal :=
  done (dataCommand q 4 env (fun _ s => s) s)

/-- STREAM_IN: a landing buffer's message goes first (R581). -/
def execDescStreamIn (q : QueueId) (env : DescEnv) (s : State) : Host.Outcome State Fault Refusal :=
  done (dataCommand q 2 env (fun _ s => drainInputs (fld (s.qu q).setup.ep 0 10) s) s)

/-- A beat's data agrees with its parity (R337, R349). -/
def beatOk (b : Beat) : Bool := beatParity b.data == b.par

/-- Take beats into the descriptor's buffer of 64 beats until LAST, a failed parity or LEN (R337, R349, R381). -/
def takeBeats : List Beat → Desc → Desc
  | [], d => d
  | b :: t, d =>
    if d.bufEnd ≠ 0 ∨ d.len ≤ d.off + d.buf.length ∨ 64 ≤ d.lens.length then d
    else if !beatOk b then { d with bufEnd := 2 }
    else
      let n := b.bytes.toNat + 1
      let room := d.len - (d.off + d.buf.length)
      let d := { d with buf := d.buf ++ ((leBytes 64 b.data.toNat).take (min n room)).map fun x => (x, false),
                        lens := d.lens ++ [min n room],
                        bufEnd := if room < n then 3 else if b.last then 1 else 0 }
      takeBeats t d

/-- STREAM_OUT: beats cross only an endpoint that is not held idle (R145). -/
def execDescStreamOut (q : QueueId) (env : DescEnv) (s : State) : Host.Outcome State Fault Refusal :=
  done (dataCommand q 3 env (fun id s =>
    if epOpen s (fld (s.qu q).setup.ep 0 10) then modDesc q id (takeBeats env.beats) s else s) s)

/-- SUBOP 1 to 6 of LOAD_IMAGE place a library request (R338). -/
def execDescLibraryRequest (q : QueueId) (s : State) : Host.Outcome State Fault Refusal :=
  match startNext q (fun o b => o == 5 && b != 0) s with
  | (s, none) => done s
  | (s, some id) =>
    match (s.qu q).desc id with
    | none => done s
    | some d =>
      let a : BitVec 64 := BitVec.ofNat 64 d.aux
      done (libAccept { op := d.sub, chamber := fld a 11 9, stratum := fld a 9 2, slot := fld a 20 12,
                        restore := bit a 32, spillFirst := bit a 33, force := bit a 34, notify := bit a 35, tag := d.cid,
                        cls := if s.regF (queReg q 0) 28 2 = 3 then 2 else 3, desc := some (q.val, id) } s)

/-- SWITCH with SUBOP 0: a chamber command (R339). -/
def execDescSwitch (q : QueueId) (s : State) : Host.Outcome State Fault Refusal :=
  match startNext q (fun o b => o == 6 && b == 0) s with
  | (s, none) => done s
  | (s, some id) =>
    match (s.qu q).desc id with
    | none => done s
    | some d => done (acceptCmd (d.aux / 2 ^ 16 % 512) (d.aux / 4 % 4) (d.aux % 4) d.turn (some (q.val, id)) s)

/-- SWITCH with SUBOP 1: a group fire (R339, R165). -/
def execDescGroupFire (q : QueueId) (s : State) : Host.Outcome State Fault Refusal :=
  match startNext q (fun o b => o == 6 && b == 1) s with
  | (s, none) => done s
  | (s, some id) =>
    match (s.qu q).desc id with
    | none => done s
    | some d => done (acceptFire (d.aux / 2 ^ 16 % 16) (d.aux / 4 % 4) (some (q.val, id)) s)

/-- A started FENCE ends when TBASE has reached AUX (R340). -/
def settleFence (q : Nat) (s : State) : State :=
  match (s.qu q).context.find? fun d => d.started && d.ended.isNone && d.opc == 7 with
  | some d => if d.aux ≤ s.now then endDesc q d.id 0 0 s else s
  | none => s

/-- FENCE (R340, R341). -/
def execDescFence (q : QueueId) (s : State) : Host.Outcome State Fault Refusal :=
  done (settleFence q (startNext q (fun o _ => o == 7) s).1)

/-- NOP (R340). -/
def execDescNop (q : QueueId) (s : State) : Host.Outcome State Fault Refusal :=
  match startNext q (fun o _ => o == 8) s with
  | (s, some id) => done (endDesc q id 0 0 s)
  | (s, none) => done s

/-- A host read ends in an error (R313, R328), or one that no descriptor waits for any more ends; kinds of 0x0807 in the order of
the event's list. A timeout cannot come while it is disabled (Table Queues-1). -/
def execHostReadError (q : QueueId) (target : ReadTarget) (kind : HostErr) (s : State) : Host.Outcome State Fault Refusal :=
  let k := match kind with | .ur => 1 | .ca => 2 | .poisoned => 3 | .timeout => 4
  if kind = .timeout ∧ s.pci.ctoOff then done s else
  let ring := fun (s : State) => changeState q (fun x => { x with error := true }) (raise 0x0807 [q, 0xFFFF, k] s)
  match target with
  | .doorbell => if (s.qu q).dbSt = 2 then done (doorbellOver q (ring s)) else done s
  | .fetch =>
    if 0 < (s.qu q).fetching then done (serveReads (ring (readOver ⟨q, 2, 0, 0⟩ (s.modQu q fun x => { x with fetching := 0 })))) else done s
  | .data cid =>
    match (s.qu q).context.find? fun d => d.cid == cid.toNat && d.started && d.ended.isNone && !d.reads.isEmpty with
    | some d => done (sweepLoads q (endDesc q d.id 8 (restartOf s q d) (raise 0x0807 [q, cid.toNat, k] s)))
    | none => done (s.modXlt fun t => { t with orphans := t.orphans.filter fun (r, c, _, _) => !(r.queue == q.val && c == cid.toNat) })

/- ### Completions (R343 to R351) -/

/-- The 16 bytes of a completion entry (Table Queues-9A). -/
def completionBytes (s : State) (x : Queue) (d : Desc) (status result : Nat) (late : Bool) : List Byte :=
  let flags := b2n (decide (x.cqPi < x.cqN)) + 2 * b2n late + 4 * b2n (status == 7) + 8 * b2n d.faulted
  leBytes 2 d.cid ++ leBytes 2 (x.sqCi % x.sqN) ++ leBytes 1 status ++ leBytes 1 flags ++ leBytes 2 x.seq
    ++ leBytes 4 result ++ leBytes 4 s.now

/-- Count a completion towards the queue's interrupt (R351). -/
def countIrq (q : Nat) (irq : Bool) (s : State) : State :=
  let r := s.reg (queReg q 0x34)
  let n := (s.qu q).irqCount + b2n irq
  if bit r 31 ∧ irq ∧ max 1 (fld r 20 8) ≤ n then
    sendVector q (fld r 0 9) (s.modQu q fun x => { x with irqCount := 0 })
  else s.modQu q fun x => { x with irqCount := n }

/-- Write the completion of the oldest descriptor, if it has ended, its remote writes have been performed and the queue may
write it (R343, R377, R388). -/
def completeFront (q : Nat) (s : State) : State :=
  let s := settleFence q s
  let x := s.qu q
  match x.context with
  | [] => s
  | d :: rest =>
    match d.ended with
    | none => s
    | some (status, result) =>
      if (x.st = 3 ∧ (x.park.any fun p => p.access == 4)) ∨ x.st = 0 ∨ writesOpen s q d.id ∨ x.retries.contains 5 then s
      else
        let va := ringBase x.setup.cqb + 16 * (x.cqPi % x.cqN)
        match translateFor 4 q d.id va 16 true s with
        | (.wait, s) => s
        | (.fault k l, s) => takeFault q 4 d.id k l va s
        | (.ok bus, s) =>
          let s := orphanReads q (fun e => e.id == d.id) s
          let dl := s.regF (queReg q 0x38) 0 20
          let late := decide (dl ≠ 0) && decide (dl * 1000 < s.now - d.arrival)
          let s := ringWrite 1 q bus (completionBytes s x d status result late) s
          let s := s.modQu q fun x =>
            { x with context := rest, cqPi := (x.cqPi + 1) % (2 * x.cqN), seq := (x.seq + 1) % 65536, done := x.done.add 1,
                     late := if late then x.late.add 1 else x.late, lateTick := x.lateTick + b2n late,
                     retries := x.retries.filter (· != 4),
                     lasterr := if status = 0 then x.lasterr
                       else mkFld 24 8 status ||| mkFld 16 8 (fld d.raw 0 8) ||| mkFld 0 16 d.cid }
          countIrq q d.irq s

/-- The front completion is written (R343, R345); one that has faulted waits for its retry (R388). -/
def execCompletionWrite (q : QueueId) (s : State) : Host.Outcome State Fault Refusal :=
  done (if (s.qu q).retries.contains 4 then s else completeFront q s)

/-- CTIME has passed since the first counted completion (R351). -/
def execIrqCoalesceTimeout (q : QueueId) (s : State) : Host.Outcome State Fault Refusal :=
  let r := s.reg (queReg q 0x34)
  done (if bit r 31 ∧ fld r 10 10 ≠ 0 ∧ 0 < (s.qu q).irqCount then
    sendVector q (fld r 0 9) (s.modQu q fun x => { x with irqCount := 0 })
  else s)

/- ### Enabling, disabling, owners -/

/-- Set-up registers of a queue as they stand (R355). -/
def setupOf (s : State) (q : Nat) : QueueSetup :=
  let r := fun o => (s.reg (queReg q (o + 4)) ++ s.reg (queReg q o) : BitVec 64)
  { sqb := r 0x08, cqb := r 0x10, dba := r 0x18, sha := r 0x20, bind := s.reg (queReg q 0x28), prot := s.reg (queReg q 0x2C),
    ep := s.reg (queReg q 0x30) }

/-- Why an enable is refused (Table Queues-11), in the table's order. -/
def enableRefusal (s : State) (q : Nat) (u : QueueSetup) : Nat :=
  let ctrl := s.reg (queReg q 0)
  let busy := bit u.ep 31 && s.que.any fun p =>
    p.1 != q && p.2.st != 0 && bit p.2.setup.ep 31 && fld p.2.setup.ep 0 10 == fld u.ep 0 10
  if !bit ctrl 30 ∧ fld ctrl 0 10 = 0 then 1
  else if busy then 2
  else if !bit u.prot 31 ∧ !s.regB (asReg (fld u.bind 16 8)) 0 then 3
  else if bit u.prot 30 ∧ (s.key (fld u.prot 0 6)).st ≠ 1 then 4
  else 0

/-- OWNER_PARKED holds (R350): an owner that is no longer there leaves it as it was until the engine sees that and enters
DETACHED. -/
def ownerParked (s : State) (q : Nat) (x : Queue) : Bool :=
  x.ownen &&
    (if persPresent s x.owner then !s.regB (queReg q 0) 27 && !persActive s x.owner else !x.ownerSeen || x.ownerPark)

/-- EN written 1 (R354). -/
def enableQueue (q : Nat) (s : State) : State :=
  let x := s.qu q
  if x.st = 6 then raise 0x0802 [q, 5] ((s.modQu q fun x => { x with cfgerr := 5 }).setRegF (queReg q 0) 31 1 0)
  else if x.st ≠ 0 then s
  else
    let u := setupOf s q
    let why := enableRefusal s q u
    if why ≠ 0 then raise 0x0802 [q, why] (s.modQu q fun x => { x with cfgerr := why })
    else
      let fresh : Queue := { x.kept with setup := u, rseen := x.rseen, lasterr := x.lasterr }
      let fresh := { fresh with ownerSeen := persPresent s fresh.owner, ownerPark := ownerParked s q { fresh with ownerSeen := persPresent s fresh.owner } }
      changeState q (fun _ => { fresh with enabled := true }) s

/-- EN written 0: DRAINING (R352). -/
def disableQueue (q : Nat) (s : State) : State :=
  if (s.qu q).st = 0 then s else changeState q (fun x => { x with draining := true }) s

/-- QUE_CTRL has been written (R350, R354, R355). -/
def queCtrlWritten (q : Nat) (new : Word) (s : State) : State :=
  let s := if bit new 31 then enableQueue q s else disableQueue q s
  if (s.qu q).enabled ∧ bit new 31 then
    changeState q (fun x => { x with ownerPark := ownerParked s q x, ownerSeen := x.ownerSeen || (x.ownen && persPresent s x.owner) }) s
  else s

/-- The engine sees its owner's presence and activity (R350). -/
def seeOwner (q : Nat) (s : State) : State :=
  let x := s.qu q
  if !x.enabled ∨ !x.ownen then s
  else
    let here := persPresent s x.owner
    changeState q (fun x =>
      { x with ownerSeen := x.ownerSeen || here, detached := x.detached || (x.ownerSeen && !here),
               ownerPark := ownerParked s q { x with ownerSeen := x.ownerSeen || here } }) s

/-- The queue engine sees its owner (R350). -/
def execOwnerChange (q : QueueId) (s : State) : Host.Outcome State Fault Refusal := done (seeOwner q s)

/-- Every fetched descriptor has arrived and has its completion: DISABLED (R353, R388). -/
def execDrainEnd (q : QueueId) (s : State) : Host.Outcome State Fault Refusal :=
  let x := s.qu q
  if x.st = 6 ∧ x.context.isEmpty ∧ x.fetching = 0 ∧ x.transit = 0 ∧ x.retries.isEmpty then
    let n := x.flushed
    let s := s.modQu q fun x => { x with enabled := false, draining := false }
    let s := s.modXlt fun t =>
      { t with walks := t.walks.filter (fun w => w.queue != q || w.access == 6), later := t.later.filter fun w => w.queue != q }
    let s := stateVector q (writeShadow q s)
    done (raise 0x080B [q, n] (s.modQu q fun x =>
      { x with error := false, detached := false, park := none, ownerPark := false, flushed := 0, dbSt := 0, dbAgain := false, dbTag := false, fetchTag := false }))
  else done s

/- ### Walks, retries, abandoning -/

/-- Do an access that waited for a translation; a LOAD_IMAGE goes on with its own command. -/
def driveAccess (w : Walk) (s : State) : State :=
  match w.access with
  | 0 => tryDoorbell w.queue s
  | 1 => tryFetch w.queue s
  | 4 => completeFront w.queue s
  | 5 => writeShadow w.queue s
  | 6 => dbgIssue s
  | _ => if ((s.qu w.queue).desc w.cid).any fun d => d.opc == 5 then s else runTurn w.queue w.cid s

/-- A queue's record has been written: its accesses that waited for that are made again (R386). -/
def madeAgain (q : Nat) (s : State) : State :=
  let mine := s.xlt.later.filter fun w => w.queue == q
  forEach mine driveAccess (s.modXlt fun t => { t with later := t.later.filter fun w => w.queue != q })

/-- The oldest waiting record is written (R384 to R386); `error`: the write ends in an error of R313. -/
def execFaultRecordWrite (error : Bool) (s : State) : Host.Outcome State Fault Refusal :=
  match s.xlt.waiting with
  | [] => done s
  | r :: rest =>
    if !s.regB 0x9_0004 31 || frFull s || s.xlt.frErr then done s
    else if error then done (s.modXlt fun t => { t with frErr := true })
    else
      let addr := ringBase (frBase s &&& 0xFFFF_FFFF_FFFF_FE00) + 32 * (s.xlt.frPi % frN s)
      let s := ringWrite 3 r.queue addr (faultBytes s r) s
      let s := s.modXlt fun t =>
        { t with waiting := rest, frPi := (t.frPi + 1) % (2 * frN s), fseq := (t.fseq + 1) % 2 ^ 32 }
      done (madeAgain r.queue (xltVector r.queue s))

/-- The fault of a walk strikes the access that waited for it. -/
def walkFault (w : Walk) (kind level : Nat) (s : State) : State :=
  match w.access with
  | 5 => shadowFault w.queue kind level s
  | 6 => dbgFinish 3 0 (countFault s)
  | _ => takeFault w.queue w.access w.cid kind level w.va s

/-- Bus addresses of the table reads that a walk makes from a table on, level by level (R360, R361): it ends at an entry that is
not valid, a leaf, or breaks R361. -/
def tableReads (va : Nat) : Nat → Nat → List (BitVec 64) → List Nat
  | 0, _, _ => []
  | l + 1, base, es =>
    let a := base + 8 * (va / 2 ^ (12 + 9 * l) % 512)
    match es with
    | [] => [a]
    | e :: t => a :: (if !bit e 0 || bit e 7 || fld e 52 12 != 0 || fld e 3 4 != 0 then [] else tableReads va l (fld e 12 40 * 4096) t)

/-- The walk of a page is one of the 16 that run (R368). -/
def walkRuns (s : State) (asid vpn : Nat) : Bool := s.xlt.walking.contains (asid, vpn)

/-- Accesses that wait for the translation of a page. -/
def waitsFor (asid vpn : Nat) (w : Walk) : Bool := w.asid == asid && w.vpn == vpn

/-- A translation comes into the TLB, and the accesses that wait for its page go on (R365, R368). -/
def fillArrives (asid vpn size ppn : Nat) (r w : Bool) (s : State) : State :=
  let mine := s.xlt.walks.filter (waitsFor asid vpn)
  let s := s.modXlt fun t =>
    { t with walks := t.walks.filter (fun w => !waitsFor asid vpn w), filling := t.filling.filter (· != (asid, vpn)) }
  serveReads (forEach mine driveAccess
    (tlbFill { asid := asid, size := size, vpn := 4096 * vpn / 2 ^ size, ppn := ppn, r := r, w := w } s))

/-- A walk ends with the table entries it read, from the root on, or an error of R313 at the next one (R367 to R369); the reads
after the root's are issued one after the other. The leaf fills the TLB, and the accesses that wait for it go on or fault. A
fill is stamped in a pair and delivered then (Table Twin-5). -/
def execWalkComplete (asid : Fin 256) (vpn : BitVec 36) (entries : List (BitVec 64)) (error : Bool) (s : State) :
    Host.Outcome State Fault Refusal :=
  let mine := s.xlt.walks.filter (waitsFor asid vpn.toNat)
  if !walkRuns s asid vpn.toNat then done s
  else
    let q := (mine.head?.map (·.queue)).getD 0
    let s := forEach ((tableReads (4096 * vpn.toNat) 4 (rootOf s asid) entries).drop 1)
      (fun a s => s.when s.masters fun s => s.send (.hostRead 3 q a 8)) s
    let s := s.modXlt fun t => { t with walking := t.walking.filter (· != (asid.val, vpn.toNat)) }
    match (if error then Sum.inl (7, 4 - min 3 entries.length) else walkEntries (4096 * vpn.toNat) 4 entries) with
    | .inl (k, l) =>
      let s := s.modXlt fun t => { t with walks := t.walks.filter fun w => !waitsFor asid vpn.toNat w }
      done (startWalks (serveReads (forEach mine (fun w s => walkFault w k l s) s)))
    | .inr (size, ppn, r, w) =>
      done (startWalks (if s.paired then
        (sendTwin 13 (leBytes 1 asid ++ leBytes 5 vpn.toNat ++ leBytes 1 size ++ leBytes 5 ppn ++ leBytes 1 (b2n r + 2 * b2n w)) s).modXlt
          fun t => { t with filling := t.filling ++ [(asid.val, vpn.toNat)] }
      else fillArrives asid vpn.toNat size ppn r w s))

/-- A ring write that faulted outside RUNNING and OWNER_PARKED is tried again (R388). -/
def retryWrite (q : Nat) (s : State) : State :=
  match (s.qu q).retries with
  | [] => s
  | a :: rest =>
    let s := if (s.qu q).retryTold then s else raise 0x0906 [q, a] (s.modQu q fun x => { x with retryTold := true })
    let s := if (a :: rest).contains 5 then writeShadow q s else s
    if (a :: rest).contains 4 then completeFront q s else s

/-- A ring write that faulted is tried again (R388). -/
def execRingWriteRetry (q : QueueId) (s : State) : Host.Outcome State Fault Refusal := done (retryWrite q s)

/-- An invalidation completes (R373, R388): DONE counts it, the next one runs, ring writes are tried again. -/
def invalidationOver (s : State) : State :=
  match s.xlt.inv with
  | [] => s
  | _ :: rest =>
    let s := s.modXlt fun t => { t with inv := rest, invReads := [], invWrites := [], invDone := (t.invDone + 1) % 65536 }
    let s := xltVector 256 s
    let s := match rest with
      | [] => s
      | v :: _ => runInval v s
    forEach (s.que.map (·.1)) retryWrite s

/-- The running invalidation completes once the reads issued under what it removed have ended (R373). -/
def execInvalidationComplete (s : State) : Host.Outcome State Fault Refusal :=
  done (if !invReadsOver s then s else if s.paired ∧ !s.xlt.inv.isEmpty then sendTwin 14 [] s else invalidationOver s)

/- ### Host accesses of Grotto through BAR2 (R278, R279) -/

/-- The three windows of BAR2 and the reserved range above them (R20, R21): 0 plain, 1 BITSET, 2 BITCLR, 3 reserved. -/
def bar2Window (off : Nat) : Nat := off / 0x0800_0000

/-- A host write at a BAR2 offset takes effect (R262, R278, R279); an abort of the side port, or a stopped link
(R109), discards it. -/
def bar2Perform (off : Nat) (be : List Bool) (data : List Byte) (bad : List Nat) (s : State) : State :=
  if sideAborts s || sideStopped s (off % 0x0800_0000) data.length then s
  else
    let bytes := (data.zip be).map fun (d, e) => if e then some d else none
    sideWrite (1 + bar2Window off) (off % 0x0800_0000) bytes (fun _ => false) bad s

/-- A host read at a BAR2 offset: its bytes with whether it covers a poisoned word (R276, R278); none behind a closed
fence (R279). -/
def bar2Fetch (off len : Nat) (bad : List Nat) (s : State) : State × Option (List Byte × Bool) :=
  if sideAborts s then (s, none)
  else
    let g := off % 0x0800_0000
    let (l, s) := sideBytes 3 g g len bad s
    (s, some (l.map (·.1), l.any (·.2)))

/-- The completion of a host BAR2 read (R276, R279). -/
def bar2Complete (off len : Nat) (bad : List Nat) (s : State) : State :=
  if sideStopped s (off % 0x0800_0000) len then s
  else match bar2Fetch off len bad s with
    | (s, some (b, p)) => s.send (.bar2 b p 0)
    | (s, none) => s.send (.bar2 [] false 2)

/-- A host BAR2 access that has its tag is made. -/
def bar2Make (a : BarAcc) (s : State) : State :=
  if !a.read then bar2Perform a.off a.be a.data a.bad s
  else if s.twn.role = 2 then (bar2Fetch a.off a.len a.bad s).1
  else bar2Complete a.off a.len a.bad s

/-- A host BAR2 access is made, or waits in its order for a Grotto tag (R279, R392, R393). -/
def bar2Take (a : BarAcc) (s : State) : State :=
  if grottoTagFree s && s.grt.barWait.isEmpty then bar2Make a s
  else s.modGrt fun g => { g with barWait := g.barWait ++ [a] }

/-- Host BAR2 accesses that wait are made once a Grotto tag is free. -/
def serveBar2 (s : State) : State :=
  if grottoTagFree s then forEach s.grt.barWait bar2Make (s.modGrt fun g => { g with barWait := [] }) else s

/- ### Responses of remote requests (R575, R579) -/

/-- A remote request's response or timeout reaches its descriptor. -/
def remoteAnswer (m : Remote) (ok : Bool) (poison : BitVec 8) (data : BitVec 512) (s : State) : State :=
  let x := s.qu m.queue
  match x.desc m.cid with
  | none => s
  | some d =>
    if d.ended.isSome then s
    else if !ok then endDesc m.queue m.cid 0x10 (restartOf s m.queue d) s
    else
      let s := if m.read then modDesc m.queue m.cid (fun d => { d with parts := d.parts ++ [(m.line, data, poison)] }) s else s
      if d.stopped then s
      else if !d.remq.isEmpty then runTurn m.queue m.cid s
      else if outstanding s m.queue m.cid then s
      else if m.read then runTurn m.queue m.cid s
      else if totalBytes d ≤ d.off ∧ !moreBeats d then finishDesc m.queue m.cid s
      else s

/-- Descriptors whose remote requests wait for a tag or a credit issue them in their queues' turns (R344, R393). -/
def serveRemotes (s : State) : State :=
  forEach (s.que.flatMap fun p => (p.2.context.filter fun d => !d.remq.isEmpty && !d.stopped).map fun d => (p.1, d.id))
    (fun p s =>
      if ((s.qu p.1).desc p.2).any fun d => remoteReady s d d.remoteNode then
        (if granted s p.1 then issueTurn p.1 p.2 ((((s.qu p.1).desc p.2).map Desc.remoteNode).getD 0) (servedNow p.1 s)
        else modDesc p.1 p.2 (fun d => { d with yielded := true }) s)
      else s) s

/-- Requests that wait for a tag take those that have become free (R392, R395). -/
def serveTags (s : State) : State := startWalks (serveBar2 (serveReads (serveRemotes s)))

/-- RSP (R575, R348): one that matches no outstanding request is discarded. -/
def execRspReceive (rid : BitVec 16) (status : Byte) (poison : BitVec 8) (data : BitVec 512) (s : State) :
    Host.Outcome State Fault Refusal :=
  let answer := fun f => fTy f == 6 && ofLeBytes ((fPay f).take 2) == rid.toNat && fb f 10 == status.toNat
  if s.msgHeld 1 answer then done s else
  let s := takeAnyMsg 1 answer s
  match s.net.remotes.find? fun m => m.rid == rid.toNat with
  | none => done s
  | some m =>
    let s := s.modNet fun n => { n with remotes := n.remotes.filter fun x => x.rid != rid.toNat }
    done (serveTags (remoteAnswer m (status == 0) poison data s))

/-- RTO has passed since the request was sent (R575). -/
def execRemoteTimeout (rid : BitVec 16) (s : State) : Host.Outcome State Fault Refusal :=
  match s.net.remotes.find? fun m => m.rid == rid.toNat with
  | none => done s
  | some m =>
    let s := s.modNet fun n => { n with remotes := n.remotes.filter (fun x => x.rid != rid.toNat),
                                        timeouts := tabMod 0 n.timeouts m.node (· + 1) }
    done (serveTags (remoteAnswer m false 0 0 s))

end Sys2Proof.Machine
end

