-- ==== Sys2Proof/Machine/Remote.lean ====
section
/-! DEFINITION. Remote Grotto requests at their target and stream routes (14_network.md, R576 to R583). -/

namespace Sys2Proof.Machine

/-- A request held in a REQ buffer: its message leaves the buffer. -/
def takeReq (b ty : Nat) (src rid : Nat) (s : State) : State :=
  takeMsg b 0 (fun f => fTy f == ty && fSrc f == src && ofLeBytes ((fPay f).take 2) == rid) s

/-- Serve a remote request on the side port (R576, R709): REFUSED 2 while RGEN = 0, ABORT 1 at a closed fence. Without a
Grotto tag it stays in its REQ buffer. Message types RD 2, WR 3, BSET 4, BCLR 5. -/
def serveRemote (b ty src rid line : Nat) (be : BitVec 64) (data : BitVec 512) (poison : BitVec 8) (bad : List Nat)
    (s : State) : State :=
  if s.linkHolds b || (s.regB 0xB_8004 31 && !sideAborts s && (sideStopped s (64 * line) 64 || !grottoTagFree s)) then s else
  let s := takeReq b ty src rid s
  if !s.regB 0xB_8004 31 then sendRsp src rid 2 0 none s
  else if sideAborts s then sendRsp src rid 1 0 none s
  else if ty = 2 then
    let ((d, p), s) := sideRead 4 line 0xFF bad s
    sendRsp src rid 0 p (some d) s
  else sendRsp src rid 0 0 none (sideAccess (ty - 2) line be data poison bad s).2

/-- A RD for the own Grotto arrives (R576). -/
def execRemoteRead (b : BundleId) (src : Fin 64) (rid : BitVec 16) (line : BitVec 21) (addrErr : List Nat)
    (s : State) : Host.Outcome State Fault Refusal :=
  done (serveRemote b 2 src rid.toNat line.toNat 0 0 0 addrErr s)

/-- A WR for the own Grotto arrives (R576). -/
def execRemoteWrite (b : BundleId) (src : Fin 64) (rid : BitVec 16) (line : BitVec 21) (be : BitVec 64)
    (data : BitVec 512) (poison : BitVec 8) (addrErr : List Nat) (s : State) : Host.Outcome State Fault Refusal :=
  done (serveRemote b 3 src rid.toNat line.toNat be data poison addrErr s)

/-- A BSET arrives. -/
def execRemoteBitset (b : BundleId) (src : Fin 64) (rid : BitVec 16) (line : BitVec 21) (be : BitVec 64)
    (data : BitVec 512) (addrErr : List Nat) (s : State) : Host.Outcome State Fault Refusal :=
  done (serveRemote b 4 src rid.toNat line.toNat be data 0 addrErr s)

/-- A BCLR arrives. -/
def execRemoteBitclr (b : BundleId) (src : Fin 64) (rid : BitVec 16) (line : BitVec 21) (be : BitVec 64)
    (data : BitVec 512) (addrErr : List Nat) (s : State) : Host.Outcome State Fault Refusal :=
  done (serveRemote b 5 src rid.toNat line.toNat be data 0 addrErr s)

/-- The stream route of an endpoint. -/
def State.route (s : State) (e : Nat) : Route := tabGet {} s.net.streams e
/-- Change the stream route of an endpoint. -/
def State.modRoute (s : State) (e : Nat) (f : Route → Route) : State :=
  s.modNet fun n => { n with streams := tabMod {} n.streams e f }

/-- Beat credits return to the sending route that has this node and destination endpoint (R582). -/
def execBcreditReceive (src : Fin 64) (endpoint : BitVec 10) (beats : Byte) (s : State) :
    Host.Outcome State Fault Refusal :=
  let credit := fun f => fTy f == 6 && fSrc f == src.val && fb f 10 == 0x10
  if s.msgHeld 1 credit then done s else
  let s := takeAnyMsg 1 credit s
  done (s.modNet fun n => { n with streams := n.streams.foldl (fun t p =>
    tabSet {} t p.1 (if p.2.v ∧ p.2.dir ∧ p.2.node = src.val ∧ p.2.rep = endpoint.toNat then
      { p.2 with cred := min 32 (p.2.cred + beats.toNat) } else p.2)) n.streams })

/-- A beat arrives: into the landing buffer of a matching route, or discarded with 0x0B13 and its credit returned
(R580, R581, R583). -/
def execBeatReceive (src : Fin 64) (endpoint : BitVec 10) (beat : Beat) (s : State) : Host.Outcome State Fault Refusal :=
  let e := endpoint.toNat
  let sent := fun f => fTy f == 7 && fSrc f == src.val && ofLeBytes ((fPay f).take 2) % 1024 == e
  if s.msgHeld 0 sent then done s else
  let s := takeAnyMsg 0 sent s
  let r := s.route e
  if r.v ∧ !r.dir ∧ r.node = src.val ∧ r.landing.length < 32 then
    done (drainInputs e (s.modRoute e fun r => { r with landing := r.landing ++ [beat] }))
  else done (raise 0x0B13 [src, e, 2] (sendRsp src e 0x10 1 none s))

/-- The bytes of a BEAT message (Table Network-7). -/
def beatPay (rep : Nat) (b : Beat) : List Byte :=
  leBytes 2 rep ++ leBytes 1 (b.bytes.toNat + 64 * b2n b.last + 128 * b2n b.psn) ++ leBytes 1 b.par.toNat
    ++ leBytes 64 b.data.toNat

/-- A beat leaves the fabric at an endpoint with a sending route (R580, R582); without a route to the node it is
discarded with 0x0B13 and holds no beat credit (R579). -/
def execStreamRouteBeatSend (endpoint : BitVec 10) (beat : Beat) (s : State) : Host.Outcome State Fault Refusal :=
  let e := endpoint.toNat
  let r := s.route e
  if r.v ∧ r.dir ∧ 0 < r.cred ∧ epOwned s e then
    done (match nextHop s r.node with
      | some b => enqueue b (mkMsg 7 0 r.node s.ownAddr true (beatPay r.rep beat))
          (s.modRoute e fun r => { r with cred := r.cred - 1 })
      | none => raise 0x0B13 [r.node, r.rep, 1] s)
  else done s

/-- GVL_NET_SRDATA has been written (Table Network-16): setting V restores the 32 beat credits (R582). -/
def srdataWritten (val : Word) (s : State) : State :=
  s.modRoute (s.regF 0xB_8028 0 10) fun r =>
    { r with v := bit val 31, dir := bit val 30, node := fld val 16 6, rep := fld val 0 10,
             cred := if bit val 31 && !r.v then 32 else r.cred }

end Sys2Proof.Machine
end

