-- ==== Sys2Proof/Machine/Echo.lean ====
section
/-! DEFINITION. Echo (17_echo.md): the event queue, the pre-trigger ring, the first-fault log, commits to flash and the
counter tree. -/

namespace Sys2Proof.Machine

/-- Offset of ECH_CTRL. -/
def echCtrl : Nat := 0xD_0000

/-- Leaf of an event code, node of a subsystem, root at 0 (R690, R692). -/
def State.leaf (s : State) (code : Nat) : Leaf := tabGet {} s.ev.leaves code
/-- A node of the counter tree (R692). -/
def State.node (s : State) (n : Nat) : TreeNode := tabGet {} s.ev.nodes n

/-- A leaf word's check fails: its count restarts at zero, 0x0E09 (R691). -/
def leafLost (code : Nat) (s : State) : State :=
  let ep := min 255 ((s.leaf code).episodes + 1)
  raise 0x0E09 [code, ep]
    (s.modEv fun e => { e with leaves := tabSet {} e.leaves code { count := {}, lost := true, episodes := ep } })

/-- An episode word's check fails (R691). -/
def episodeLost (code : Nat) (s : State) : State :=
  s.modEv fun e => { e with leaves := tabMod {} e.leaves code fun l => { l with lost := true, episodes := 255 } }

/-- The sums of a tick boundary (R692). -/
def sumNodes (s : State) : State :=
  let sum (l : List Nat) : Ctr := ({} : Ctr).add (l.foldl (· + ·) 0)
  let nodeOf (n : Nat) : TreeNode :=
    let mine := s.ev.leaves.filter fun p => p.1 / 256 == n && hasLeaf p.1
    { count := sum (mine.map fun p => p.2.count.n), lost := mine.any fun p => p.2.lost }
  let nodes := (List.range 14).map fun i => (i + 1, nodeOf (i + 1))
  let root : TreeNode := { count := sum (nodes.map fun p => p.2.count.n), lost := nodes.any fun p => p.2.lost }
  s.modEv fun e => { e with nodes := ((0, root) :: nodes).foldl (fun t p => tabSet {} t p.1 p.2) [] }

/-- The oldest raised event reaches the queue: its leaf counts it, and it joins or is lost (R661, R662, R690, R691).
A leaf whose check fails restarts at zero and then counts this raise (log 21). -/
def enqueueEvent (leafBad : Bool) (e : Event) (s : State) : State :=
  let s := if leafBad ∧ hasLeaf e.code then leafLost e.code s else s
  let s := if hasLeaf e.code then
      s.modEv fun x => { x with leaves := tabMod {} x.leaves e.code fun l => { l with count := l.count.add 1 } }
    else s
  let fault := isFault e.code e.fields
  let n := s.ev.queue.length
  if 64 ≤ n ∨ (56 ≤ n ∧ !fault) then
    s.modEv fun x => { x with lost := x.lost.add 1, lostTick := min 65535 (x.lostTick + 1), lostRing := true,
                              lostLog := x.lostLog || fault }
  else s.modEv fun x => { x with queue := x.queue ++ [e] }

/-- One raised event enters the event queue. -/
def execEventEnqueue (leafBad : Bool) (s : State) : Host.Outcome State Fault Refusal :=
  match s.ev.raised with
  | [] => done s
  | e :: rest => done (enqueueEvent leafBad e (s.modEv fun x => { x with raised := rest }))

/-- An event is identical to a record (R666). -/
def identical (e : Event) (r : Record) : Bool :=
  r.code == e.code && !carriesTbase e.code && payloadBytes r.code r.fields == payloadBytes e.code e.fields

/-- A commit ends with a result other than OK (R776); results as in ECH_CSTAT.LASTRES. -/
def commitFails (result : Nat) (s : State) : State :=
  raise 0x0E06 [result] (s.modEv fun e => { e with commit := { e.commit with lastRes := result } })

/-- The device can write commits at all (R683). -/
def commitsFlash (s : State) : Bool := s.ev.hasRegion && !s.cfg.listen && s.netMode != 2

/-- A commit is requested (R682): merged into a pending one, or ended at once with NOFLASH (R683). -/
def requestCommit (repairOnly auto : Bool) (s : State) : State :=
  if !commitsFlash s then commitFails 2 s
  else s.modEv fun e =>
    let c := e.commit
    { e with commit := { c with pending := true, repairOnly := if c.pending then c.repairOnly && repairOnly else repairOnly,
                                auto := if c.pending then c.auto || auto else auto } }

/-- Echo's vector (R674). -/
def echoVector (s : State) : State :=
  s.when (s.regB echCtrl 31) fun s => sendMsix (s.regF echCtrl 0 9) s

/-- The ring enters FROZEN (R668, R674, R682). -/
def freezeRing (s : State) : State :=
  let code := (tabGet ({} : Record) s.ev.ring s.ev.trigIdx).code
  let s := raise 0x0E02 [s.ev.trigIdx, code] (s.modEv fun e => { e with ringState := 2, postLeft := 0 })
  let s := echoVector s
  if s.regB echCtrl 30 then requestCommit false true s else s

/-- The record that an event opens in a structure. -/
def openRecord (e : Event) (seq : Nat) (fault lostBefore continued : Bool) : Record :=
  { code := e.code, fields := e.fields, fault := fault, lostBefore := lostBefore, continued := continued, seq := seq,
    tfirst := e.tbase, tlast := e.tbase }

/-- A merged record (R666). -/
def Record.merge (r : Record) (tbase : Nat) : Record := { r with rep := r.rep + 1, tlast := tbase }

/-- The ring takes an event (R666 to R669); true when it opened a record. -/
def ringTake (e : Event) (seq : Nat) (s : State) : State × Bool :=
  let x := s.ev
  if x.ringState ≥ 2 then (s, false)
  else
    let same : Bool := match x.last with
      | some p => identical e (tabGet {} x.ring p)
      | none => false
    let pos := x.last.getD 0
    if same ∧ (tabGet ({} : Record) x.ring pos).rep < 65535 then
      (s.modEv fun x => { x with ring := tabMod {} x.ring pos fun r => r.merge e.tbase }, false)
    else
      let fault := isFault e.code e.fields
      let trig := fault && x.ringState == 0
      let r := { openRecord e seq fault x.lostRing same with trigger := trig, post := x.ringState == 1 }
      let post := s.regF echCtrl 12 12
      let s := s.modEv fun x =>
        { x with ring := tabSet {} x.ring x.head r, last := some x.head, head := (x.head + 1) % 4096,
                 wrapped := x.wrapped || x.head == 4095, lostRing := false,
                 trigIdx := if trig then x.head else x.trigIdx,
                 ringState := if trig then 1 else x.ringState,
                 postLeft := if trig then post else if x.ringState = 1 then x.postLeft - 1 else x.postLeft }
      (if s.ev.ringState = 1 ∧ s.ev.postLeft = 0 then freezeRing s else s, true)

/-- The log takes a FAULT event (R671); true when it opened a record. -/
def logTake (e : Event) (seq : Nat) (s : State) : State × Bool :=
  let x := s.ev
  let same : Bool := match x.log.getLast? with
    | some r => identical e r
    | none => false
  if same ∧ (x.log.getLastD {}).rep < 65535 then
    (s.modEv fun x => { x with log := x.log.dropLast ++ [(x.log.getLastD {}).merge e.tbase] }, false)
  else if 512 ≤ x.log.length then (s.modEv fun x => { x with dropped := min 65535 (x.dropped + 1) }, false)
  else
    let s := s.modEv fun x => { x with log := x.log ++ [openRecord e seq true x.lostLog same], lostLog := false }
    if s.ev.log.length = 512 then (raise 0x0E04 [e.code] (s.modEv fun x => { x with logFull := true }), true)
    else (s, true)

/-- Echo takes the oldest event of its queue (R661 to R671, R674). -/
def execEventTake (s : State) : Host.Outcome State Fault Refusal :=
  match s.ev.queue with
  | [] => done s
  | e :: rest =>
    let seq := s.ev.seq
    let fault := isFault e.code e.fields
    let s := s.modEv fun x => { x with queue := rest, seq := (x.seq + 1) % 2 ^ 32 }
    let (s, a) := ringTake e seq s
    let (s, b) := if fault then logTake e seq s else (s, false)
    done (if fault ∧ (a ∨ b) then echoVector s else s)

/-- REARM (R670). -/
def rearm (s : State) : State :=
  if s.ev.ringState ≠ 2 then s
  else if s.ev.commit.writing ∧ s.ev.commit.carriesRing then
    s.modEv fun e => { e with commit := { e.commit with rearmLater := true } }
  else s.modEv fun e => { e with ringState := 0 }

/-- CLEARLOG (R672). -/
def clearLog (s : State) : State :=
  if s.ev.commit.writing ∧ s.ev.commit.carriesLog then
    s.modEv fun e => { e with commit := { e.commit with clearLater := true } }
  else s.modEv fun e => { e with log := [], logFull := false, dropped := 0 }

/-- The 64 bytes of a record (Table Echo-2). -/
def recordBytes (r : Record) : List Byte :=
  let flags := b2n r.fault + 2 * b2n r.trigger + 4 * b2n r.post + 8 * b2n r.lostBefore + 16 * b2n r.continued
  leBytes 2 r.code ++ leBytes 2 flags ++ leBytes 4 r.rep ++ leBytes 8 r.seq ++ leBytes 8 r.tfirst ++ leBytes 8 r.tlast
    ++ payloadBytes r.code r.fields

/-- What ECH_RIDX names (R676, Table Echo-15). -/
def recordAt (s : State) : Record :=
  let i := s.regF 0xD_0010 0 12
  if s.regB 0xD_0010 31 then s.ev.log.getD i {} else tabGet {} s.ev.ring i

/-- A read of ECH_RDATA0 captures the record (R675). -/
def captureRecord (who : Nat) (s : State) : State :=
  let b := recordBytes (recordAt s)
  let b := if (recordAt s).code = 0 then fitBytes 64 [] else b
  let words := (List.range 16).map fun k => ofLeBytes ((b.drop (4 * k)).take 4)
  s.modEv fun e => { e with capture := tabSet [] e.capture who words }

/- ### Commits -/

/-- Retirements in effect and soft repairs in effect, in the order of a commit (R687, R688). -/
def repairEntries (s : State) : List (List Byte) :=
  let cols := s.fab.retired.map fun p => leBytes 8 (1 + 256 * p)
  let softs := s.grt.banks.flatMap fun (i, b) => b.repairs.map fun (sub, col, used) =>
    leBytes 8 (2 + 256 * (i / 8 + 256 * (i % 8) + 2048 * sub + 65536 * col) + 2 ^ 32 * used)
  cols ++ softs

/-- A sector may take a commit (R680). -/
def usableSector (s : State) (i : Nat) : Bool := !((s.ev.sectors.getD i { retired := true }).retired)
/-- A sector that reaches its limit of erases is retired (R680); causes of 0x0E07: 1 LIMIT, 2 FAIL. -/
def retireSector (i cause : Nat) (s : State) : State :=
  let x := s.ev.sectors.getD i {}
  raise 0x0E07 [i, x.erases, cause]
    ((s.modEv fun e => { e with sectors := e.sectors.set i { x with retired := true } }).send (.flash 4 i []))

/-- The sectors after `from_`, in region order with wrap. -/
def sectorOrder (s : State) (from_ : Nat) : List Nat :=
  let n := s.ev.sectors.length
  (List.range n).map fun k => (from_ + 1 + k) % n

/-- Retire the sectors that may not be erased again among those a commit would reach. -/
def retireWorn (s : State) : State :=
  forEach (sectorOrder s s.ev.lastSector) (fun i s =>
    if usableSector s i ∧ 100000 ≤ (s.ev.sectors.getD i {}).erases then retireSector i 1 s else s) s

/-- Sectors outside the newest valid commit that a commit may use, from the last one on (R685). -/
def freeSectors (s : State) : List Nat :=
  (sectorOrder s s.ev.lastSector).filter fun i => usableSector s i && !s.ev.usedSectors.contains i

/-- The sector header (Table Echo-4). -/
def sectorHeader (erases : Nat) : List Byte :=
  let head := leBytes 4 0x53484345 ++ leBytes 4 erases
  head ++ leBytes 1 0xFF ++ (List.range 19).map (fun _ => (0xFF : Byte)) ++ leBytes 4 (crc32 head).toNat

/-- The bytes of a commit (R681, Table Echo-5). -/
def commitBytes (s : State) (nsect : Nat) (only ring auto : Bool) : List Byte :=
  let all := repairEntries s
  let reps := all.take 8192
  let logs := if only then [] else s.ev.log
  let rings := if ring then (List.range 4096).map fun k => tabGet ({} : Record) s.ev.ring ((s.ev.head + k) % 4096) else []
  let body := reps.flatten ++ logs.flatMap recordBytes ++ rings.flatMap recordBytes
  let flags := b2n ring + 2 * b2n auto + 4 * b2n only + 8 * b2n (decide (8192 < all.length))
  let head := leBytes 4 0x43484345 ++ leBytes 2 1 ++ leBytes 2 nsect ++ leBytes 4 (s.ev.cseq + 1) ++ leBytes 8 s.now
    ++ leBytes 8 s.cfg.uid.toNat ++ leBytes 2 reps.length ++ leBytes 2 logs.length ++ leBytes 2 rings.length
    ++ leBytes 2 flags ++ leBytes 4 (64 + body.length) ++ leBytes 20 0
  head ++ leBytes 4 (crc32 (head ++ body)).toNat ++ body

/-- Length of the commit. -/
def commitLength (s : State) (only ring : Bool) : Nat :=
  64 + 8 * min 8192 (repairEntries s).length + (if only then 0 else 64 * s.ev.log.length) + (if ring then 64 * 4096 else 0)

/-- A pending commit may start (R683, R434). -/
def commitMayStart (s : State) : Bool :=
  s.ev.commit.pending && !s.ev.commit.writing && commitsFlash s && !s.regB 0xF_0004 30 && decide (s.pstate ≤ 2) &&
  (s.cfg.stage == 0xB || s.cfg.stage == 0xC)

/-- A pending commit ends without being written. -/
def dropCommit (result : Nat) (s : State) : State :=
  commitFails result (s.modEv fun e => { e with commit := { e.commit with pending := false, stopped := false } })

/-- No usable sector is left: 0x0E08 once (R685). -/
def tellExhausted (s : State) : State :=
  if s.ev.exhausted then s else raise 0x0E08 [s.ev.sectors.length] (s.modEv fun e => { e with exhausted := true })

/-- A pending commit starts: it picks its sectors, erases them and programs header and data (R678 to R681, R685,
R687, R688). -/
def execEchoCommitStart (s : State) : Host.Outcome State Fault Refusal :=
  if !commitMayStart s then done s
  else
    let s := retireWorn s
    let c := s.ev.commit
    if !((List.range s.ev.sectors.length).any (usableSector s)) then
      done (dropCommit 4 (tellExhausted s))
    else
      let ring := s.ev.ringState == 2 && !c.repairOnly
      let n := ceilDiv (commitLength s c.repairOnly ring) 65504
      let secs := (freeSectors s).take n
      if secs.length < n then done (dropCommit 3 s)
      else
        let omitted := (repairEntries s).length - 8192
        let s := if omitted = 0 then s else raise 0x0E0B [omitted] s
        let bytes := commitBytes s n c.repairOnly ring c.auto
        let s := forEach (withPos secs) (fun (k, i) s =>
          let er := (s.ev.sectors.getD i {}).erases + 1
          let s := s.modEv fun e => { e with sectors := e.sectors.set i { erases := er } }
          (s.send (.flash 1 i [])).send (.flash 2 i (sectorHeader er ++ (bytes.drop (65504 * k)).take 65504))) s
        done ((s.modCfg fun g => { g with flashOps := g.flashOps + 1 }).modEv fun e =>
          { e with commit := { e.commit with pending := false, stopped := false, writing := true, sectors := secs,
                                             carriesRing := ring, carriesLog := !c.repairOnly, onlyRepair := c.repairOnly,
                                             cols := s.fab.unrecorded, softs := s.grt.unrecorded } })

/-- A commit that was being written is over: what waited for its end happens (R670, R672). -/
def commitOver (s : State) : State :=
  let c := s.ev.commit
  let s := (s.modCfg fun g => { g with flashOps := g.flashOps - 1 }).modEv fun e =>
    { e with commit := { e.commit with writing := false, carriesRing := false, carriesLog := false, rearmLater := false,
                                       clearLater := false, sectors := [], cols := [], softs := [] } }
  let s := if c.rearmLater then rearm s else s
  if c.clearLater then clearLog s else s

/-- FLREL, an entry into P3 or P4 or a RELOAD stops a commit (R684): it ends ABANDONED and stays pending. -/
def stopCommit (s : State) : State :=
  let c := s.ev.commit
  if !c.writing then s
  else
    let s := commitFails 5 (commitOver s)
    s.modEv fun e => { e with commit := { e.commit with pending := true, stopped := true,
                                                        repairOnly := if c.pending then c.repairOnly && c.onlyRepair else c.onlyRepair } }

/-- A commit's flash operations end (R115, R294, R680, R685, R776). A sector that fails the flash's verify is retired
and the next free sector takes its part; with none left the commit ends. -/
def execEchoCommitEnd (failed : Option (BitVec 12)) (s : State) : Host.Outcome State Fault Refusal :=
  let c := s.ev.commit
  if !c.writing then done s
  else match failed with
  | some i =>
    if !c.sectors.contains i.toNat then done s
    else
      let s := retireSector i.toNat 2 s
      match (freeSectors s).filter fun k => !c.sectors.contains k with
      | k :: _ =>
        let er := (s.ev.sectors.getD k {}).erases + 1
        let s := (s.send (.flash 1 k [])).send (.flash 2 k (sectorHeader er))
        done (s.modEv fun e =>
          { e with sectors := e.sectors.set k { erases := er },
                   commit := { e.commit with sectors := e.commit.sectors.map fun x => if x = i.toNat then k else x } })
      | [] =>
        let s := commitOver s
        if (List.range s.ev.sectors.length).any (usableSector s) then done (commitFails 3 s)
        else done (commitFails 4 (tellExhausted s))
  | none =>
    let s := s.modEv fun e =>
      { e with cseq := (e.cseq + 1) % 2 ^ 32, lastSector := c.sectors.getLastD 0, usedSectors := c.sectors,
               commit := { e.commit with lastRes := 1, done := (e.commit.done + 1) % 65536 } }
    let s := s.modFab fun f => { f with unrecorded := f.unrecorded.filter fun p => !c.cols.contains p }
    let s := s.modGrt fun g => { g with unrecorded := g.unrecorded.filter fun p => !c.softs.contains p }
    let s := raise 0x0E05 [s.ev.cseq, c.sectors.length, b2n c.onlyRepair] s
    done (commitOver s)

/-- At a tick boundary: retirements or soft repairs that no commit carries ask for a repair-only commit (R682). -/
def tickCommit (s : State) : State :=
  let c := s.ev.commit
  if s.fab.unrecorded.any (fun p => !c.cols.contains p) || s.grt.unrecorded.any (fun p => !c.softs.contains p)
  then requestCommit true false s else s

end Sys2Proof.Machine
end

