-- ==== Sys2Proof/Machine/Pins.lean ====
section
/-! DEFINITION. Pins, service pins, probes and JTAG (19_pins.md): D-PHY ports, dual inputs, service inputs and outputs,
the lock sequence, the JTAG instructions. -/

namespace Sys2Proof.Machine

/-- PIN_DPHYp. -/
def dphyReg (p : Nat) : Nat := 0xE_0300 + 4 * p
/-- Port p. -/
def State.port (s : State) (p : Nat) : Dphy := tabGet {} s.pin.ports p
/-- Change D-PHY port p. -/
def State.modPort (s : State) (p : Nat) (f : Dphy → Dphy) : State :=
  s.modPin fun x => { x with ports := tabMod {} x.ports p f }

/-- The port receives: enabled, its bank a D-PHY bank, FIO not in reset and the drivers' supplies there (R729, R731,
Table Stack-6). -/
def portOn (s : State) (p : Nat) : Bool :=
  s.regB (dphyReg p) 31 && s.regB (bankReg (p / 4)) 26 && !s.inReset 4

/-- Bytes of a burst: byte 0 of each lane, then byte 1 of each lane, and so on (R731). -/
def laneBytes (lanes : List (List Byte)) : List Byte :=
  let n := lanes.foldl (fun m l => max m l.length) 0
  (List.range n).flatMap fun i => lanes.filterMap fun l => l[i]?

/-- Bytes packed into beats of 64 (R731). -/
def packBeats : Nat → List Byte → List Beat
  | 0, _ => []
  | fuel + 1, b =>
    if b.length ≤ 64 then (if b = [] then [] else [mkBeat (b.map fun x => (x, false)) true])
    else mkBeat ((b.take 64).map fun x => (x, false)) false :: packBeats fuel (b.drop 64)

/-- The closing beat of a burst that ends under R732: one zero byte, LAST and PSN. -/
def closingBeat : Beat := { data := 0, bytes := 0, last := true, psn := true, par := 0 }

/-- Take the beats of a burst while the last free beat of the 128 is left (R732); true when a beat needed that one. -/
def bufferBeats (p : Nat) : List Beat → State → State × Bool
  | [], s => (s, false)
  | b :: t, s =>
    let s := drainPort p s
    if 127 ≤ (s.port p).buffer.length then (s, true)
    else bufferBeats p t (s.modPort p fun d => { d with buffer := d.buffer ++ [b] })

/-- A burst ends damaged (R732); causes of 0x0E0F: 1 OVERFLOW, 2 SOT, 3 FULL. -/
def closeBurst (p cause : Nat) (s : State) : State :=
  drainPort p (raise 0x0E0F [p, cause, 1] (s.modPort p fun d =>
    { d with buffer := d.buffer ++ [closingBeat], damaged := true }))

/-- An HS burst that reaches an enabled port (R731 to R733). A port whose buffer has no free beat discards it whole, told
at the tick (R771). -/
def takeBurst (p : Nat) (burst : BurstEnv) (s : State) : State :=
  let s := drainPort p s
  if !portOn s p || !s.fab.released then s
  else if 128 ≤ (s.port p).buffer.length then s.modPort p fun d => { d with fullTick := min 65535 (d.fullTick + 1) }
  else
    let lanes := burst.lanes.take (s.regF (dphyReg p) 29 2 + 1)
    let bytes := laneBytes lanes
    let beats := packBeats (bytes.length + 1) bytes
    let beats := if burst.sotError then beats.map fun b => { b with last := false } else beats
    let (s, tooMany) := bufferBeats p beats s
    if tooMany then closeBurst p 1 s
    else if burst.sotError then closeBurst p 2 s
    else drainPort p s

/-- An HS burst ends at a port. A pair sees the lead's bytes, by stamp (R604, Table Twin-5). -/
def execDphyBurst (port : Fin 32) (burst : BurstEnv) (s : State) : Host.Outcome State Fault Refusal :=
  if !s.paired then done (takeBurst port burst s)
  else if s.twn.role = 1 ∧ portOn s port ∧ s.fab.released then
    done (sendTwin 27 (leBytes 1 port ++ leBytes 1 (b2n burst.sotError) ++
      burst.lanes.flatMap fun l => leBytes 4 l.length ++ l) s)
  else done s

/-- ULPS entry or exit (R730). -/
def execUlpsEntryExit (port : Fin 32) (inUlps : Bool) (s : State) : Host.Outcome State Fault Refusal :=
  done (if portOn s port then s.modPort port fun d => { d with ulps := inUlps } else s)

/-- Deskew calibration, performed above 1.5 Gb/s (R730). -/
def execDphyDeskewCalibration (port : Fin 32) (ok : Bool) (s : State) : Host.Outcome State Fault Refusal :=
  done (if portOn s port ∧ 150 < s.regF (dphyReg port) 18 9 then s.modPort port fun d => { d with skewOk := ok } else s)

/-- The level that a chamber reads as pin i (R727, Table Pins-8); the odd pin of a differential pair carries no signal of
its own (R723). -/
def pinInput (s : State) (i : Nat) : Bool :=
  if pinSlave s i then false else
  let own := bit s.pin.ball i
  let alt := bit s.pin.ball (48 * (i / 48) + s.regF (ioReg i) 0 6)
  match s.regF (ioReg i) 10 2 with
  | 0 => own
  | 1 => alt
  | 2 => own && alt
  | _ => own || alt

/-- Four samples that disagree or agree open or end a mismatch episode (R728). -/
def execDualInputMismatch (pin : Fin 768) (disagree : Bool) (s : State) : Host.Outcome State Fault Refusal :=
  let r := ioReg pin
  if s.regB r 12 ∧ s.regF r 10 2 ≠ 0 ∧ bit s.pin.episode pin ≠ disagree then
    done (raise 0x0E0D [pin, s.regF r 0 6, if disagree then 1 else 2]
      (s.modPin fun p => { p with episode := putBit p.episode pin disagree }))
  else done s

/- ### Service pins -/

/-- PIN_SVCk. -/
def svcReg (k : Nat) : Nat := 0xE_0100 + 4 * k
/-- An output role: SVC0 to SVC3, and a USER pin with OE (Table Pins-10, R737). -/
def svcOutput (s : State) (k : Nat) : Bool := decide (k < 4) || (decide (12 ≤ k) && s.regB (svcReg k) 27)
/-- The pin is in analogue mode (R736). -/
def svcAnalogue (s : State) (k : Nat) : Bool := decide (5 ≤ k) && s.regB (svcReg k) 31 && !svcOutput s k

/-- The device is silent (Table Pins-10). -/
def State.silentNow (s : State) : Bool := s.lys.silent || (s.twinStart && s.twn.pstate == 4)

/-- What an output role drives: none while an open-drain pin is released (Table Pins-10, R737), or every driver is off. -/
def svcDrive (s : State) (k : Nat) : Option Bool :=
  let low (b : Bool) : Option Bool := if b then some false else none
  if outputsOff s then none else match k with
  | 0 => low (s.lys.devfault || s.silentNow || decide (1 ≤ s.cfg.stage ∧ s.cfg.stage ≤ 3) || s.cfg.stage == 0xC ||
      s.cfg.stage == 0xD)
  | 1 => some (s.fab.released && decide (s.pstate ≤ 2) && !s.silentNow)
  | 2 => low s.lys.warned
  | 3 => low (s.lys.devfault || s.ev.ringState == 2)
  | k =>
    if svcOutput s k then
      let v := bit s.pin.user (k - 12)
      if s.regB (svcReg k) 26 then low !v else some v
    else none

/-- PIN_SVC_IN.LEVEL of pin k (R735, R736): an output role reports the level at its own ball. -/
def svcLevel (s : State) (k : Nat) : Bool :=
  if svcOutput s k then (svcDrive s k).getD (bit s.pin.svc k)
  else bit s.pin.svc k && !svcAnalogue s k

/-- ROLE of PIN_SVC_SET and PIN_SVC_CLR: levels driven on SVC0 to SVC3 (Table Pins-18); a released open-drain pin
counts as 1. -/
def svcRoles (s : State) : Nat := (List.range 4).foldl (fun n k => n + b2n ((svcDrive s k).getD true) <<< k) 0

/-- A level is accepted at a service pin (R735, R738). -/
def execSvcInputAccept (pin : Fin 16) (level : Bool) (s : State) : Host.Outcome State Fault Refusal :=
  let k := pin.val
  if bit s.pin.svc k = level then done s
  else
    let s := s.modPin fun p => { p with svc := putBit p.svc k level }
    let edge := s.regF (svcReg k) 28 2
    let chosen := if level then edge % 2 == 1 else decide (2 ≤ edge)
    if chosen ∧ !svcOutput s k ∧ !svcAnalogue s k ∧ !bit s.pin.edgeTold k then
      done (raise 0x0D12 [k, b2n level] (s.modPin fun p => { p with edgeTold := putBit p.edgeTold k true }))
    else done s

/- ### Lantern -/

/-- The probe pins are high-impedance (R701, R745, Table Pins-12). -/
def probesOff (s : State) : Bool :=
  !s.regB 0xE_0010 31 || decide (3 ≤ s.pstate) || outputsOff s

/-- Level of probe pin i: none while it is high-impedance (R700, R743, R745). -/
def probeLevel (s : State) (i : Nat) : Option Bool :=
  let r := s.reg (0xE_0400 + 4 * i)
  let c := fld r 20 9
  let cell := fld r 9 11
  if probesOff s then none
  else if !bit r 31 then some false
  else some (match fld r 29 2 with
    | 0 => s.nets.f.testBit (2048 * c + cell)
    | 1 => (s.chm c).q (s.chm c).sel cell
    | _ => s.nets.co.testBit (2048 * c + cell))

/-- Enabled probes that name a chamber of column n (R743), with probe i as a write would leave it. -/
def probesOf (s : State) (n i : Nat) (w : Word) : Nat :=
  (List.range 16).countP fun k =>
    let r := if k = i then w else s.reg (0xE_0400 + 4 * k)
    bit r 31 && colOf (fld r 20 9) == n

/- ### The lock sequence -/

/-- The groups of R749 are locked; LOFF holds the Lantern off (R750). -/
def lockGroups (who : Requester) (mask : BitVec 5) (s : State) : State :=
  let s := s.modPin fun p => { p with locked := p.locked ||| mask }
  let s := if bit s.pin.locked 4 then s.setRegF 0xE_0010 31 1 0 else s
  raise 0x0E11 [Requester.code who, mask.toNat] s

/-- A PIN_LOCK write (R749): a write that breaks the sequence has no effect and restarts it. -/
def lockWrite (who : Requester) (key : Byte) (mask : BitVec 5) (s : State) : State :=
  let q := tabGet ({} : LockSeq) s.pin.seqs (Requester.code who)
  let put (v : LockSeq) (s : State) : State := s.modPin fun p => { p with seqs := tabSet {} p.seqs (Requester.code who) v }
  if q.count = 0 ∧ key = 0xC5 then put ⟨1, mask⟩ s
  else if q.count = 1 ∧ key = 0x3A ∧ q.mask = mask then put ⟨2, mask⟩ s
  else if q.count = 2 ∧ key = 0xC5 ∧ q.mask = mask then lockGroups who mask (put {} s)
  else put {} s

/-- A PIN write other than PIN_LOCK ends the requester's sequence (R749). -/
def breakLock (who : Requester) (s : State) : State :=
  s.modPin fun p => { p with seqs := tabSet {} p.seqs (Requester.code who) {} }

/-- Lock group that freezes a PIN register, as bits of PIN_LOCK.MASK (Table Pins-13). -/
def lockMaskOf (off : Nat) : BitVec 5 :=
  let o := off - 0xE_0000
  if 0x100 ≤ o ∧ o < 0x140 then 0b00001
  else if o = 0x24 ∨ o = 0x28 ∨ o = 0x2C then 0b00010
  else if (0x200 ≤ o ∧ o < 0x240) ∨ (0x300 ≤ o ∧ o < 0x400) ∨ 0x1000 ≤ o then 0b00100
  else if o = 0x10 ∨ (0x400 ≤ o ∧ o < 0x440) then 0b11000
  else 0

/- ### JTAG -/

/-- EXTEST, EXTEST_PULSE, EXTEST_TRAIN, HIGHZ and CLAMP act as BYPASS (R748). -/
def scanBarred (s : State) : Bool :=
  s.cfg.debugLock || (s.twinStart && !(s.twn.role == 0 && s.twn.pstate == 4))

/-- Update-IR loads an instruction. -/
def loadIr (code : Nat) (s : State) : State := s.modPin fun p => { p with jtagIr := code }

/-- Input, output and control cell of a ball of the boundary-scan register, by its place in the order of R747: the level
at the ball, and what the device drives there, if it drives. -/
def scanCells (j : Nat) (level : Bool) (drive : Option Bool) (v : BitVec 2626) : BitVec 2626 :=
  putBit (putBit (putBit v (3 * j) level) (3 * j + 1) (drive.getD true)) (3 * j + 2) drive.isSome

/-- The boundary-scan register captures what stands at the cells (R747): input, output and control cell of each fabric I/O
pin, service pin and probe pin, of PAIR_LEAD, PAIR_FAIL and CFG_DONE; the remaining cells have a value that no rule gives
(log 1). -/
def captureScan (s : State) : State :=
  let low (b : Bool) : Option Bool := if b then some false else none
  let io (v : BitVec 2626) (i : Nat) : BitVec 2626 :=
    putBit (putBit (putBit v (3 * i) (bit s.pin.ball i)) (3 * i + 1) (bit s.pin.outv i)) (3 * i + 2) (pinEnable s i)
  let svc (v : BitVec 2626) (k : Nat) : BitVec 2626 := scanCells (768 + k) (svcLevel s k) (svcDrive s k) v
  let prb (v : BitVec 2626) (k : Nat) : BitVec 2626 := scanCells (784 + k) ((probeLevel s k).getD false) (probeLevel s k) v
  let v := (List.range 768).foldl io (Config.freeBits 2626 s.seed)
  let v := (List.range 16).foldl prb ((List.range 16).foldl svc v)
  let v := scanCells 800 (s.twn.leadin && !s.twn.leadLow) (low s.twn.leadLow) v
  let v := scanCells 802 s.twn.failin s.twn.failDrive v
  s.fresh.modPin fun p => { p with scan := scanCells 803 s.cfg.done (low s.cfg.drivesDone) v }

/-- An instruction that takes the pins at Update-IR (R748). -/
def takePins (code : Nat) (s : State) : State :=
  if scanBarred s then loadIr code s
  else raise 0x0E0E [code] (loadIr code (s.modPin fun p => { p with scanHolds := true }))

/-- EXTEST (R748): the scan chain takes the pins. -/
def execJtagExtest (s : State) : Host.Outcome State Fault Refusal := done (takePins 0x00 s)
/-- EXTEST_PULSE (R748). -/
def execJtagExtestPulse (s : State) : Host.Outcome State Fault Refusal := done (takePins 0x05 s)
/-- EXTEST_TRAIN (R748). -/
def execJtagExtestTrain (s : State) : Host.Outcome State Fault Refusal := done (takePins 0x06 s)
/-- HIGHZ (R748). -/
def execJtagHighz (s : State) : Host.Outcome State Fault Refusal := done (takePins 0x03 s)
/-- CLAMP (R748). -/
def execJtagClamp (s : State) : Host.Outcome State Fault Refusal := done (takePins 0x04 s)
/-- SAMPLE/PRELOAD captures without taking the pins (R746, R747). -/
def execJtagSamplePreload (s : State) : Host.Outcome State Fault Refusal := done (captureScan (loadIr 0x01 s))
/-- IDCODE (R746). -/
def execJtagIdcode (s : State) : Host.Outcome State Fault Refusal := done (loadIr 0x02 s)
/-- DBGAP (R746): the data register is the debug access port. -/
def execJtagDbgap (s : State) : Host.Outcome State Fault Refusal := done (loadIr 0x10 s)
/-- BYPASS (R746). -/
def execJtagBypass (s : State) : Host.Outcome State Fault Refusal := done (loadIr 0xFF s)
/-- Test-Logic-Reset selects IDCODE and gives the pins back (R746, R748). -/
def execJtagTestLogicReset (s : State) : Host.Outcome State Fault Refusal :=
  done (loadIr 0x02 (s.modPin fun p => { p with scanHolds := false }))

/-- The data register that the selected instruction puts between TDI and TDO: 0 boundary scan, 1 device
identification, 2 bypass, 3 debug access (Table Pins-12); a barred instruction and every other code act as BYPASS. -/
def jtagRegister (s : State) : Nat :=
  let ir := s.pin.jtagIr
  if ir = 0x02 then 1
  else if ir = 0x10 then 3
  else if ir = 0x01 then 0
  else if (ir = 0x00 ∨ ir = 0x05 ∨ ir = 0x06) ∧ !scanBarred s then 0
  else 2

/-- The 32-bit device identification (Table Pins-12). -/
def jtagIdcode : Word := 0xB3A1_0593

end Sys2Proof.Machine
end

