-- ==== Sys2Proof/Machine/Lysata.lean ====
section
/-! DEFINITION. Lysata (16_lysata.md): clocks, monitors, the tick, telemetry and the power cap, starting an exit of the
power ladder, two-party tickets, mailbox reports and the SMBus target. -/

namespace Sys2Proof.Machine

/- ### Clocks -/

/-- LYS_GCLKn. -/
def gclkReg (n : Nat) : Nat := 0x1_0080 + 4 * n
/-- EN, SRC, PIN and DIV of a global clock. -/
def gclkMask : Word := 0xB000_0FFF
/-- LYS_GCLKn.PEND (R635). -/
def gclkPend (s : State) (n : Nat) : Bool := (s.reg (gclkReg n)) &&& gclkMask != s.gclkOf n

/-- A chamber in RUN uses global clock n (R635). -/
def clockUsed (s : State) (n : Nat) : Bool :=
  s.fab.chambers.any fun (c, ch) => s.chmState c == 1 &&
    (ch.swclkUse == n || (s.col (colOf c)).pclkUse == n || (List.range 4).any fun j => clkSel ch.selWords j == some n)

/-- A stored change of a global clock takes effect at a tick boundary (R633, R635). -/
def execGclkChangeEffect (n : Fin 32) (s : State) : Host.Outcome State Fault Refusal :=
  if clockUsed s n || s.lys.restarting then done s
  else done (s.modLys fun l => { l with gclk := tabSet (gclkReset n) l.gclk n (s.reg (gclkReg n) &&& gclkMask) })

/-- A stored MULT takes effect when every clock of the FPLL is off (R635). -/
def execFpllMultEffect (p : Fin 2) (s : State) : Host.Outcome State Fault Refusal :=
  let off := (List.range 32).all fun n => fld (s.gclkOf n) 28 2 != p.val || !bit (s.gclkOf n) 31
  let m := s.regF (0x1_0040 + 4 * p) 0 7
  if off ∧ !s.lys.restarting ∧ m ≠ s.fpllOf p then
    done (s.modLys fun l => { l with fpll := tabSet (fpllReset p) l.fpll p m, locked := tabSet false l.locked p false })
  else done s

/-- The always-on clock moves to the crystal (R626). -/
def execXtalSwitch (s : State) : Host.Outcome State Fault Refusal :=
  done (if s.regB 0x1_0004 29 ∧ !s.lys.restarting then s.modLys fun l => { l with xtalRun := true } else s)

/-- The crystal misses 4 cycles (R626, R632). -/
def execXtalFail (s : State) : Host.Outcome State Fault Refusal :=
  done (if s.lys.xtalRun then raise 0x0D0B [0x01] (s.modLys fun l => { l with xtalRun := false }) else s)

/-- REFCLK appears or disappears: TBASE changes its source (R628). -/
def execRefclkAppearingOrDisappearing (present : Bool) (s : State) : Host.Outcome State Fault Refusal :=
  done (s.modLys fun l => { l with refclk := present, refOk := present })

/-- REFCLK monitor; it does not run in P5 (Table Lysata-2). -/
def execRefclkMonitorTrip (s : State) : Host.Outcome State Fault Refusal :=
  if s.pstate = 5 then done s
  else done (deviceFault 0x0D0B (raise 0x0D0B [0x00] (s.modLys fun l => { l with refOk := false })))

/-- A PLL in use loses lock (Table Lysata-2); PLLs are off in P3 and below (Table Lysata-5). -/
def execPllLockLoss (pll : Fin 7) (s : State) : Host.Outcome State Fault Refusal :=
  if 3 ≤ s.pstate then done s
  else
    let s := if pll.val < 2 then s.modLys fun l => { l with locked := tabSet false l.locked pll false } else s
    done (deviceFault 0x0D0B (raise 0x0D0B [0x10 + pll] s))

/-- Supply monitor (Table Lysata-2, R609): LOW 1, HIGH 2. -/
def execSupplyMonitorTrip (rail : Fin 7) (high : Bool) (s : State) : Host.Outcome State Fault Refusal :=
  done (deviceFault 0x0D0A (raise 0x0D0A [rail, if high then 2 else 1] s))

/- ### Tickets -/

/-- Party code: 0 host, 1 supervisor (R652); none for a requester that is no party. -/
def partyOf : Requester → Option Nat
  | .host => some 0
  | .supervisor => some 1
  | _ => none

/-- Change the ticket. -/
def State.modTicket (s : State) (f : Ticket → Ticket) : State := s.modLys fun l => { l with ticket := f l.ticket }

/-- 0x0D10; reasons 1 BUSY, 2 TICKET, 3 DIGEST, 4 PARTY, 5 ABORT, 6 EXPIRED, 7 SHADOW. -/
def ticketEvent (party reason : Nat) (s : State) : State := raise 0x0D10 [s.lys.ticket.num, party, reason] s

/-- The digest of the present entries (R651). -/
def digestOf (t : Ticket) : Word :=
  crc32c (leBytes 2 t.num ++ t.entries.flatMap fun e => leBytes 4 e.1 ++ leBytes 4 e.2.toNat)

/-- OPEN (R649). The digest of the empty ticket stands from here on (log 24). -/
def ticketOpen (who : Requester) (s : State) : State :=
  match partyOf who with
  | none => s
  | some p =>
    if s.lys.ticket.st ≠ 0 then ticketEvent p 1 s
    else
      let num := if s.lys.ticket.num = 65535 then 1 else s.lys.ticket.num + 1
      let s := s.modTicket fun t =>
        { t with st := 1, num := num, sup := p == 1, hostc := false, supc := false, entries := [] }
      raise 0x0D0E [num, p] (s.modTicket fun t => { t with digest := digestOf t })

/-- The refused writes of R650 by reason: 2 ENCODING, 6 STAGING; none when the entry is appended. -/
def stageRefusal (s : State) (who : Requester) (off : Nat) (val : Word) : Option Nat :=
  let t := s.lys.ticket
  let d := regDesc off
  let inRwl := d.enums.filter fun e => (maskOf e.1 e.2.1 &&& d.rwl) != 0
  if t.st ≠ 1 ∨ partyOf who ≠ some (b2n t.sup) ∨ 64 ≤ t.entries.length ∨ d.rwl = 0 then some 6
  else if badEnum { d with enums := inRwl } val then some 2
  else none

/-- Blocks and windows that Table Twin-5 names: FAB, CHM, LIB, GRT, QUE, XLT, CRY, GVL, CFG, KICK (R606). -/
def pairBlock (off : Nat) : Bool :=
  (decide (0x2_0000 ≤ off) && decide (off < 0xC_0000)) || (decide (0xF_0000 ≤ off) && decide (off < 0x20_0000))

/-- A write of LYS_TP_SVAL (R650, R651, R655). -/
def ticketStage (who : Requester) (val : Word) (s : State) : State :=
  let off := s.reg 0x1_0108
  match stageRefusal s who off.toNat val with
  | some why => raiseRefused 0x0D 0x1_010C who why s
  | none =>
    if s.twn.role = 2 ∧ pairBlock off.toNat then ticketEvent ((partyOf who).getD 0) 7 s
    else
      let s := s.modTicket fun t => { t with entries := t.entries ++ [(off.toNat, val)] }
      s.modTicket fun t => { t with digest := digestOf t }

/-- The party has committed this ticket. -/
def Ticket.committed (t : Ticket) (p : Nat) : Bool := if p = 0 then t.hostc else t.supc
/-- Mark a commit of party p. -/
def Ticket.mark (t : Ticket) (p : Nat) : Ticket := if p = 0 then { t with hostc := true } else { t with supc := true }

/-- COMMIT (R652, Table Lysata-8): the ticket number is looked at first, then the party, then the digest (log 24). -/
def ticketCommit (who : Requester) (digest : Word) (num : Nat) (s : State) : State :=
  let t := s.lys.ticket
  match partyOf who with
  | none => s
  | some p =>
    if t.st = 3 then s
    else if t.st = 0 ∨ num ≠ t.num then ticketEvent p 2 s
    else if t.committed p then ticketEvent p 4 s
    else if digest ≠ t.digest then ticketEvent p 3 (s.modTicket fun t => { t with st := 0 })
    else s.modTicket fun t => { t.mark p with st := if t.st = 1 then 2 else 3 }

/-- ABORT (R653, Table Lysata-8). -/
def ticketAbort (who : Requester) (num : Nat) (s : State) : State :=
  let t := s.lys.ticket
  match partyOf who with
  | none => s
  | some p =>
    if t.st = 0 ∨ t.st = 3 then s
    else if num ≠ t.num then ticketEvent p 2 s
    else ticketEvent p 5 (s.modTicket fun t => { t with st := 0 })

/-- A ticket ends EXPIRED: no party acted (R652). -/
def ticketExpire (s : State) : State := ticketEvent 0xFF 6 (s.modTicket fun t => { t with st := 0 })

/-- 8,192 ticks have passed in STAGING (Table Lysata-8). -/
def execTicketStagingExpire (s : State) : Host.Outcome State Fault Refusal :=
  done (if s.lys.ticket.st = 1 then ticketExpire s else s)
/-- 1,638 always-on cycles have passed in ARMED (Table Lysata-8). -/
def execTicketArmedExpire (s : State) : Host.Outcome State Fault Refusal :=
  done (if s.lys.ticket.st = 2 then ticketExpire s else s)

/-- Management cores mismatch (1) or miss the watchdog (2) (R630). -/
def execMgmtCoreFault (watchdog : Bool) (s : State) : Host.Outcome State Fault Refusal :=
  let s := raise 0x0D0D [if watchdog then 2 else 1] (s.modLys fun l => { l with restarting := true, coresOk := false })
  let s := if s.lys.ticket.st = 1 ∨ s.lys.ticket.st = 2 then ticketExpire s else s
  done (deviceFault 0x0D0D s)

/-- The cores run again (R630). -/
def execMgmtCoreRestartDone (s : State) : Host.Outcome State Fault Refusal :=
  done (s.modLys fun l => { l with restarting := false, coresOk := true })

/- ### The power ladder: what starts -/

/-- LYS_PWR.TARGET. -/
def pwrTarget (s : State) : Nat := s.regF 0x1_0008 29 3

/-- Conditions of Table Lysata-6 and R707 that are unmet for a target, by the codes of Table Lysata-33, in code order. -/
def ladderUnmet (s : State) (t : Nat) : List Nat :=
  let inProgress := s.que.any fun p => p.2.context.any fun d => d.started && d.ended.isNone
  let c : List (Nat × Bool) := [
    (0x01, decide (2 ≤ t) && (!s.lib.fifo.isEmpty || !s.busyStreams.isEmpty)),
    (0x02, decide (2 ≤ t) && inProgress),
    (0x03, decide (3 ≤ t) && s.que.any fun p => !p.2.context.isEmpty),
    (0x04, decide (3 ≤ t) && s.lys.link != .l1 && !s.lys.d3hot),
    (0x05, decide (3 ≤ t) && s.paired),
    (0x06, decide (t = 5) && s.que.any fun p => p.2.enabled),
    (0x07, decide (t = 5) && !s.lys.d3hot),
    (0x08, decide (t = 5) && s.lys.ticket.st != 0),
    (0x09, decide (t = 5) && decide (0 < s.cfg.flashOps)),
    (0x0A, decide (3 ≤ t) && (!s.xlt.inv.isEmpty || !s.xlt.walks.isEmpty))]
  (c.filter (·.2)).map (·.1)

/-- Target in force: while PAIRED never deeper than P2, and the shallower of the two devices' (R644). -/
def effectiveTarget (s : State) (partner : Nat) : Nat :=
  if s.paired then min (min (pwrTarget s) partner) 2 else pwrTarget s

/-- The state changes (R639, R641); causes: 1 TARGET, 2 thermal trip, 0x10 + b a wake. A survivor that leaves P0 ends its
rejoin (R708). -/
def enterState (t cause : Nat) (s : State) : State :=
  let old := s.pstate
  let ticks := (s.reg 0x1_0014).toNat
  let s := s.modLys fun l => { l with pstate := t, pend := false, waited := 0,
                                      timer := if t = 0 ∨ ticks = 0 then none else some ticks }
  let s := raise 0x0D02 [old, t, cause] s
  if old = 0 then abandonRejoin s.twn.barrierHold s else s

/-- Loader-class refills of what was loaded at entry (R642); a column in lockstep takes one per stratum (R251). -/
def placeExitRefills (s : State) : State :=
  forEach s.fab.chambers (fun (c, ch) s =>
    if lockPair (s.col (colOf c)).lock ∧ 256 ≤ c then s
    else forEach ch.loadedAt (fun k s => s.modLib fun l =>
      { l with loader := l.loader ++ [{ op := 1, chamber := c, stratum := k, slot := (ch.strat k).slot, cls := 1 }] }) s) s

/-- An exit to state `dst` starts (R639, R642, R643). What P4 loses is refilled by an exit that goes above it. -/
def startExit (dst cause : Nat) (s : State) : State :=
  if s.pstate = 0 ∨ s.lys.exiting then s
  else
    let old := s.pstate
    let s := s.modLys fun l => { l with exiting := true, exitFrom := old, exitTo := dst, exitCause := cause, timer := none, pend := false }
    let s := if old = 5 then s.modGrt fun g => { g with filling := true } else s
    if 4 ≤ old ∧ dst ≤ 3 then placeExitRefills s else s

/-- An exit is asked for. In a pair a stamped item carries it, so that both devices leave together, and a wake at either
wakes both (R644, Table Twin-5). -/
def askExit (dst cause : Nat) (s : State) : State :=
  if s.paired then sendTwin 26 (leBytes 1 1 ++ leBytes 1 dst ++ leBytes 1 cause) s else startExit dst cause s

/-- A wake source fires (R639): the exit goes to P0. -/
def wakeUp (b : Nat) (s : State) : State :=
  let en := b == 6 || s.regB 0x1_000C b
  let awake := (b == 3 && !(decide (1 ≤ s.pstate) && decide (s.pstate ≤ 2))) ||
    (b == 6 && !(decide (3 ≤ s.pstate) && decide (s.pstate ≤ 4)))
  if !en || awake || s.pstate == 0 then s
  else
    let s := raise 0x0D04 [b] (s.modLys fun l => { l with wakest := putBit l.wakest b true })
    let s := s.setRegF 0x1_0008 29 3 0
    if s.lys.exiting then s else askExit 0 (0x10 + b) s

/-- An enabled wake source fires (R639, R640, Table Lysata-16). -/
def execWake (source : Fin 7) (s : State) : Host.Outcome State Fault Refusal := done (wakeUp source s)

/-- The countdown ends (R641). -/
def execLadderTimerExpire (s : State) : Host.Outcome State Fault Refusal :=
  done (if s.lys.timer = some 0 then wakeUp 0 (s.modLys fun l => { l with timer := none }) else s)

/-- LYS_PWR has been written (R638, R639). -/
def pwrWritten (s : State) : State :=
  let t := if s.paired then min (pwrTarget s) 2 else pwrTarget s
  if t < s.pstate then askExit t 1 s
  else s.modLys fun l => { l with pend := decide (l.pstate < t), waited := 0 }

/- ### The tick -/

/-- Remote requests for the own Grotto that are held in REQ buffers (R576). -/
def remotesHeld (s : State) : Nat :=
  s.gvl.foldl (fun n p => n + (tabGet [] p.2.link.held 0).countP fun f =>
    decide (2 ≤ fTy f) && decide (fTy f ≤ 5) && fPos f != 2 && s.net.addr == some (fDst f)) 0

/-- Tick summaries (R771), in ascending order of code, and the events that a tick boundary repeats (R386, R395). -/
def tickSummaries (s : State) : State :=
  let s := forEach s.grt.poisonTick (fun (k, n) s => raise 0x0704 [k / 1000, k % 1000, min 65535 n] s) s
  let s := forEach s.grt.offTick (fun (b, n) s => raise 0x0709 [b / 8, b % 8, min 65535 n] s) s
  let s := forEach s.que (fun (q, x) s =>
    if x.refTick = 0 then s else raise 0x0803 [q, x.refFirst % 65536, x.refFirst / 65536, min 65535 x.refTick] s) s
  let s := forEach s.que (fun (q, x) s => if x.lateTick = 0 then s else raise 0x0806 [q, min 65535 x.lateTick] s) s
  let s := if s.xlt.waiting = [] ∨ waitCause s = 0 then s else raise 0x0903 [s.xlt.waiting.length, waitCause s] s
  let waitHost := s.que.foldl (fun n p =>
    n + b2n (p.2.dbSt == 1 && p.2.dbTag) + b2n p.2.fetchTag + p.2.context.countP fun d => d.wantTag && d.ended.isNone && !d.stopped) 0
    + b2n s.pin.dbgTag + b2n s.xlt.fcTag
  let waitGvl := s.que.foldl (fun n p => n + p.2.context.foldl (fun m d => m + d.remq.length) 0) 0
  let waitGrt := s.grt.barWait.length + remotesHeld s + s.que.foldl (fun n p =>
    n + p.2.context.countP fun d => d.wantGrt && d.ended.isNone && !d.stopped) 0
  let s := if 0 < waitHost ∧ tagCap s 1 ≤ hostReads s + 16 then raise 0x0908 [1, min 65535 waitHost] s else s
  let s := if 0 < waitGrt ∧ tagCap s 2 = 0 then raise 0x0908 [2, min 65535 waitGrt] s else s
  let s := if 0 < waitGvl ∧ tagCap s 3 ≤ tagsIssued s 3 then raise 0x0908 [3, min 65535 waitGvl] s else s
  let s := if s.xlt.peTick = 0 then s else raise 0x090A [min 65535 s.xlt.peTick] s
  let s := forEach s.que (fun (q, x) s =>
    if x.rightTick = 0 then s else raise 0x0A04 [q, x.rightFirst / 16, x.rightFirst % 16, min 65535 x.rightTick] s) s
  let s := forEach s.cry.heldTick (fun (p, n) s => raise 0x0A09 [p, n] s) s
  let s := forEach s.cry.dbgTick (fun (t, n) s => raise 0x0A0A [Requester.code .jtag, t, min 65535 n] s) s
  let s := forEach s.net.timeouts (fun (d, n) s => raise 0x0B12 [d, min 65535 n] s) s
  let s := forEach s.twn.discards (fun (who, off, n) s => raise 0x0C05 [who, off, min 65535 n] s) s
  let s := if s.ev.lostTick = 0 then s else raise 0x0E03 [s.ev.lostTick] s
  let s := forEach s.pin.ports (fun (p, d) s => if d.fullTick = 0 then s else raise 0x0E0F [p, 3, d.fullTick] s) s
  let s := { s with que := s.que.foldl (fun t (p : Nat × Queue) => tabSet ({} : Queue) t p.1
    { p.2 with refTick := 0, refFirst := 0, lateTick := 0, rightTick := 0, rightFirst := 0, poisonTold := false,
               retryTold := false }) s.que }
  let s := (s.modGrt fun g => { g with poisonTick := [], offTick := [] }).modXlt fun x => { x with peTick := 0 }
  let s := (s.modCry fun c => { c with heldTick := [], dbgTick := [] }).modNet fun n => { n with timeouts := [] }
  let s := (s.modTwn fun t => { t with discards := [] }).modEv fun e => { e with lostTick := 0 }
  s.modPin fun p => { p with heldTold := [], edgeTold := 0,
                             ports := p.ports.foldl (fun t (q : Nat × Dphy) => tabSet ({} : Dphy) t q.1 { q.2 with fullTick := 0 }) p.ports }

/-- What the tick's traffic came to: bytes that each path of the crypto engine held back (R429; 1 XTS, 2 GCM) and the
forwarding load of a pair. -/
def tickLoads (env : TickEnv) (s : State) : State :=
  let held (p : Nat) (n : BitVec 48) : List (Nat × Nat) := if n = 0 then [] else [(p, n.toNat)]
  (s.modCry fun c => { c with xtsBp := env.heldXts != 0, gcmBp := env.heldGcm != 0,
                              heldTick := held 1 env.heldXts ++ held 2 env.heldGcm }).modTwn fun t =>
    { t with fwdload := env.fwdLoad.toNat }

/-- Upsets since the last tick: each stands until the next use of what it has struck (R366, R404, R430, R488, Table Crypto-6). Reads of
host memory that nobody waits for any more have ended by the tick (log 107). -/
def tickUpsets (env : TickEnv) (s : State) : State :=
  let s := forEach env.tlbUpset (fun p s => tlbParity p.1 (4096 * p.2.toNat) s) s
  let s := forEach env.keyUpset (fun k s => spoilKey k s) s
  let s := forEach env.rightsUpset (fun k s => s.modKey k fun e => { e with rightsBad := true }) s
  let s := forEach env.goldUpset (fun i s => s.modSlot i fun x => { x with goldBad := !x.golden.isEmpty }) s
  (s.modCry fun c => { c with xtsBad := c.xtsBad || env.xtsUpset, gcmBad := c.gcmBad || env.gcmUpset }).modXlt fun x =>
    { x with orphans := [] }

/-- A replicated bank (R604): named in TWN_PINS in effect, or with an enabled D-PHY receiver. -/
def replicated (s : State) (k : Nat) : Bool :=
  bit s.twn.pins (16 + k) || (decide (k < 8) && (List.range 4).any fun q => portOn s (4 * k + q))

/-- The 48 input levels of bank k. -/
def bankLevels (v : BitVec 768) (k : Nat) : BitVec 48 := v.extractLsb' (48 * k) 48

/-- Levels arrive at the balls of bank k; a rise of its clock input is an edge there (R726). -/
def setBank (k : Nat) (level : BitVec 48) (s : State) : State :=
  let t := s.modPin fun p => { p with ball := (List.range 48).foldl (fun v j => putBit v (48 * k + j) (bit level j)) p.ball }
  if !clockInput s k && clockInput t k then clockInputRises k t else t

/-- Inputs as the tick finds them; a pair sees the lead's samples of a replicated bank, by stamp (R604), and the shadow
keeps its own until the lead's arrives (R605). -/
def tickInputs (balls : BitVec 768) (s : State) : State :=
  forEach (List.range 16) (fun k s =>
    if s.paired && replicated s k then
      (if s.twn.role = 1 then sendTwin 19 (leBytes 1 k ++ leBytes 6 (bankLevels balls k).toNat) s
      else s.modTwn fun t => { t with own := tabSet (2 ^ 48) t.own k (bankLevels balls k).toNat })
    else setBank k (bankLevels balls k) s) s

/-- VDET of every bank (R724) and the conversions of analogue service pins (R736). -/
def tickPins (env : TickEnv) (s : State) : State :=
  let s := forEach (List.range 16) (fun k s =>
    let now := env.vdet.getD k 0
    let old := tabGet 0 s.pin.vdet k
    let rel := tabGet 0 s.pin.vdetRel k
    let s := s.modPin fun p => { p with vdet := tabSet 0 p.vdet k now }
    if !s.fab.released then s
    else
      let s := s.modPin fun p => { p with vfault := putBit p.vfault k (now != rel) }
      if now = old then s else raise 0x0E10 [k, rel.toNat, now.toNat] s) s
  forEach (List.range 16) (fun k s =>
    if svcAnalogue s k then s.modPin fun p =>
      { p with analogue := tabSet 0 p.analogue k (env.analogue.getD k 0), anValid := putBit p.anValid k true }
    else s) s

/-- Signed degrees as the byte of an event field. -/
def tjByte (t : Int) : Nat := (t % 256).toNat

/-- Telemetry of a die (tiers 0 and 1, C 2, M 3, B 4) crosses the boundaries below it and stops with a lost group there (R109,
log 93). -/
def telemetryDown (s : State) (die : Nat) : Bool :=
  (List.range 3).any fun k => decide (die ≤ k + 1) && managementDown s (k + 1)

/-- Readings by die, of which those of a stopped path stay as they last came. -/
def heardReadings {α : Type} (s : State) (dieOf : Nat → Nat) (old new : List α) : List α :=
  if telemetryDown s 0 then
    (withPos new).map fun (i, v) => if telemetryDown s (dieOf i) then old.getD i v else v
  else new

/-- The die of a sensor (Table Lysata-11). -/
def sensorDie (i : Nat) : Nat := if i < 32 then i / 16 else if i < 36 then 2 else if i < 44 then 3 else 4

/-- Readings of the tick (R29, R645). -/
def takeReadings (env : TickEnv) (s : State) : State :=
  let sensors := heardReadings s sensorDie s.lys.sensors env.sensors
  let tj := sensors.foldl max (-128)
  let hot := (sensors.findIdx? fun t => t == tj).getD 0
  s.modLys fun l => { l with sensors := sensors, railsMv := env.rails,
                             dieMw := heardReadings s id s.lys.dieMw env.diePower, tj := tj, sensor := hot,
                             tjMax := max l.tjMax tj, powers := (env.power :: l.powers).take 15 }

/-- Thresholds of R646: 1 ENTER, 2 LEAVE. At 127 degrees P1 is entered whatever the conditions. -/
def thermalCheck (oldTj : Int) (s : State) : State :=
  let tj := s.lys.tj
  let warn : Int := s.regF 0x1_0030 24 8
  let crit : Int := min (s.regF 0x1_0030 16 8) 125
  let f (dir : Nat) : List Nat := [tjByte tj, s.lys.sensor, dir]
  let s := if !s.lys.warned ∧ warn ≤ tj then raise 0x0D05 (f 1) (s.modLys fun l => { l with warned := true })
    else if s.lys.warned ∧ tj ≤ warn - 3 then raise 0x0D05 (f 2) (s.modLys fun l => { l with warned := false })
    else s
  let s := if !s.lys.crit ∧ crit ≤ tj then raise 0x0D06 (f 1) (s.modLys fun l => { l with crit := true })
    else if s.lys.crit ∧ tj ≤ crit - 3 then raise 0x0D06 (f 2) (s.modLys fun l => { l with crit := false })
    else s
  if 127 ≤ tj ∧ oldTj < 127 then
    let s := if s.pstate = 0 then enterState 1 2 s else s
    deviceFault 0x0D07 (raise 0x0D07 [tjByte tj, s.lys.sensor] s)
  else s

/-- The window average (R647); before WINDOW ticks have passed it is over the ticks so far (log 25). -/
def windowAverage (s : State) : Nat :=
  let l := s.lys.powers.take (max 1 (s.regF 0x1_0038 8 4))
  if l = [] then 0 else l.foldl (· + ·) 0 / l.length

/-- The cap's episode and its demand (R647), and the thermal demand, which rises and falls as the cap's does (R646,
log 25). -/
def capCheck (s : State) : State :=
  let avg := windowAverage s
  let limit := min 30000 (max 1000 (s.regF 0x1_0038 16 16))
  let low := decide (avg * 100 ≤ 95 * limit)
  let s := if !s.lys.capped ∧ limit < avg then
      raise 0x0D08 [min 65535 avg, limit] (s.modLys fun l => { l with capped := true })
    else s
  s.modLys fun l =>
    let cap := if low then l.cap - 1 else if l.capped then min 4 (l.cap + 1) else l.cap
    { l with capped := l.capped && !low, cap := cap, thermal := if l.crit then min 4 (l.thermal + 1) else l.thermal - 1 }

/-- Stretch level `level` on the clocks with SPERM = 1 (R636, R647): 0x0D09 with the clocks changed; causes 1 cap,
2 thermal. -/
def applyStretch (level : Nat) (s : State) : State :=
  let want (n : Nat) : Nat := if s.regB (gclkReg n) 30 then level else 0
  let tell (lv : Nat) (s' : State) : State :=
    let mask := ofBits 32 ((List.range 32).filter fun n => want n != s.levelOf n && want n == lv)
    if mask = 0 then s' else raise 0x0D09 [mask.toNat, lv, if s.lys.cap < s.lys.thermal then 2 else 1] s'
  let s' := if level = 0 then tell 0 s else tell level (tell 0 s)
  s'.modLys fun l => { l with level := level,
                              levels := (List.range 32).foldl (fun t n => tabSet 0 t n (want n)) l.levels }

/-- The level is decided at the boundary (R647); in a pair the lead stamps it (R636, R648). -/
def stretchClocks (s : State) : State :=
  let level := if s.regB 0x1_0038 15 then max s.lys.cap s.lys.thermal else 0
  if s.paired then (if s.twn.role = 1 then sendTwin 21 (leBytes 1 level) s else s) else applyStretch level s

/-- A rejoin goes on from LIBRARY to GROTTO (Table Twin-10; log 28). -/
def tickRejoin (s : State) : State :=
  if s.twn.pstate = 5 ∧ s.twn.phase = 2 then s.modTwn fun t => { t with phase := 3 } else s

/-- An entry that waits (R638): 0x0D03 at the first tick and at every 64th after it. -/
def tickLadder (s : State) : State :=
  let t := effectiveTarget s 5
  if t ≤ s.pstate ∨ s.lys.exiting then s.modLys fun l => { l with pend := false, waited := 0 }
  else match ladderUnmet s t with
  | [] => s.modLys fun l => { l with pend := true }
  | c :: _ =>
    let s := if s.lys.waited % 64 = 0 then raise 0x0D03 [t, c] s else s
    s.modLys fun l => { l with pend := true, waited := l.waited + 1 }

/-- Nodes that failed their check are rebuilt with the others (R692, R693); levels of 0x0E0A: 1 node, 2 root. -/
def tickTree (bad : List (Fin 15)) (s : State) : State :=
  let was := s.ev.nodes.filter fun p => p.2.invalid
  let s := forEach was (fun (n, _) s => raise 0x0E0A [if n = 0 then 2 else 1, n] s) (sumNodes s)
  forEach bad (fun n s => s.modEv fun e =>
    { e with nodes := tabSet {} e.nodes n.val { count := {}, lost := false, invalid := true } }) s

/-- A tick boundary (R627). While the management cores restart no decision is taken (R630). The FPLLs that relock have
done so by the next tick (log 26). -/
def execTick (env : TickEnv) (s : State) : Host.Outcome State Fault Refusal :=
  let oldTj := s.lys.tj
  let s := s.modLys fun l => { l with tick := (l.tick + 1) % 2 ^ 32, timer := l.timer.map (· - 1),
                                      locked := tabSet false (tabSet false l.locked 0 true) 1 true }
  let s := tickUpsets env (clearErrors (tickSummaries (tickLoads env s)))
  let s := forEach env.badLeaves (fun c s => if hasLeaf c.toNat then leafLost c.toNat s else s) s
  let s := forEach env.badEpisodes (fun c s => if hasLeaf c.toNat then episodeLost c.toNat s else s) s
  let s := (tickPins env (tickInputs env.balls s)).modCfg fun c => { c with goodVpp := env.vppGood }
  if s.lys.restarting then done s
  else
    let s := takeReadings env s
    let s := thermalCheck oldTj s
    let s := stretchClocks (capCheck s)
    let s := tickTree env.badNodes s
    done (tickCommit (tickRejoin (tickLadder s)))

/- ### Mailbox and SMBus -/

/-- Unchecked strata (R488, Table Lysata-11). -/
def uncheckedStrata (s : State) : List (Nat × Nat) :=
  s.fab.chambers.flatMap fun (c, ch) => (ch.strata.filter fun p => p.2.unchecked).map fun p => (c, p.1)

/-- Codes of Table Lockstep-5 are `lockCode`; the lockstep state of a column with a staged change reads STAGED. -/
def lockShown (x : Column) : Nat := if x.staged.isSome then 1 else lockCode x.lock

/-- The telemetry words (Table Lysata-11). -/
def telemetry (s : State) : List Word :=
  let b := (List.range 56).map fun i => BitVec.ofInt 8 (s.lys.sensors.getD i 0)
  let sens := (List.range 14).map fun i => BitVec.ofNat 32 (ofLeBytes ((b.drop (4 * i)).take 4))
  let w (l : List Nat) (n : Nat) : List Word := (List.range n).map fun i => BitVec.ofNat 32 (l.getD i 0)
  sens ++ w s.lys.railsMv 7 ++ w s.lys.dieMw 5 ++ w s.lys.powers 1

/-- The reply to a mailbox command: STATUS (0 OK, 1 BAD_CODE, 2 BAD_ARG) and words (Table Lysata-11). -/
def mailboxAnswer (s : State) (code arg : Nat) : Nat × List Word :=
  match code with
  | 1 =>
    if arg % 64 ≠ 0 ∨ 256 ≤ arg then (2, [])
    else (0, (List.range 64).map fun i =>
      let n := arg + i
      mkFld 0 9 (s.physOf n) ||| mkBit 9 (s.col n).degraded ||| mkFld 10 3 (lockShown (s.col n)))
  | 2 => if arg < 0x108 then (0, sparesReport s arg) else if arg = 0x1FF then (0, sparesReport s 264) else (2, [])
  | 3 =>
    if arg ≠ 0 then (2, [])
    else
      let u := uncheckedStrata s
      (0, [BitVec.ofNat 32 s.integ.resLap, BitVec.ofNat 32 s.integ.libLap, BitVec.ofNat 32 s.integ.count602,
        BitVec.ofNat 32 s.integ.count605, BitVec.ofNat 32 u.length] ++
        (u.take 59).map fun (c, k) => mkFld 2 9 c ||| mkFld 0 2 k)
  | 4 => if arg ≠ 0 then (2, []) else (0, telemetry s)
  | _ => (1, [])

/-- A write of LYS_MB_CMD (R658, R630). -/
def mailboxCommand (who : Requester) (code arg : Nat) (s : State) : State :=
  let b := tabGet ({} : Mailbox) s.lys.boxes (Requester.code who)
  if b.busy ∨ s.lys.restarting ∨ partyOf who = none then s
  else s.modLys fun l => { l with boxes := tabSet {} l.boxes (Requester.code who) { b with busy := true, code := code, arg := arg } }

/-- Lysata has prepared a reply (R658). -/
def execMailboxReply (who : Requester) (s : State) : Host.Outcome State Fault Refusal :=
  let b := tabGet ({} : Mailbox) s.lys.boxes (Requester.code who)
  if !b.busy || s.lys.restarting then done s
  else
    let (st, words) := mailboxAnswer s b.code b.arg
    done (s.modLys fun l => { l with boxes := tabSet {} l.boxes (Requester.code who) { b with busy := false, status := st, words := words } })

/-- LYS_STATUS bits 31:16 (R739, Table Lysata-13). -/
def statusHigh (s : State) : Word :=
  mkFld 29 3 s.lys.pstate ||| mkBit 28 s.lys.pend ||| mkBit 27 s.lys.devfault ||| mkBit 26 s.lys.silent |||
  mkBit 25 s.lys.coresOk ||| mkBit 24 s.lys.xtalRun ||| mkBit 23 s.lys.refOk

/-- PEC of an SMBus transfer: CRC-8 with polynomial 0x07 (R739, SMBus 3.1). -/
def pec (l : List Byte) : List Byte := leBytes 1 (crcMsb 8 0x07 0 0 l)

/-- Block Read (R739). -/
def execSmbusBlockRead (command : Byte) (s : State) : Host.Outcome State Fault Refusal :=
  if command = 0x04 then
    let data := leBytes 1 108 ++ (telemetry s).flatMap fun w => leBytes 4 w.toNat
    done (s.send (.smbus (data ++ pec ([0xB4, command, 0xB5] ++ data)) true))
  else done (s.send (.smbus [] false))

/-- Read Word (R739). -/
def execSmbusReadWord (command : Byte) (s : State) : Host.Outcome State Fault Refusal :=
  if command = 0x10 then
    let data := leBytes 2 (fld (statusHigh s) 16 16)
    done (s.send (.smbus (data ++ pec ([0xB4, command, 0xB5] ++ data)) true))
  else done (s.send (.smbus [] false))

/-- The Alert Response Address is answered while ALERT_N is low (R739): the device's own address 0x5A. -/
def execSmbusAlertResponse (s : State) : Host.Outcome State Fault Refusal :=
  if svcDrive s 3 = some false then done (s.send (.smbus ([0xB4] ++ pec [0x19, 0xB4]) true))
  else done (s.send (.smbus [] false))

end Sys2Proof.Machine
end

