-- ==== Sys2Proof/Machine/RegRead.lean ====
section
/-! DEFINITION. Reading BAR0: the stored bits of `State.regs` with the RO, W1C and hidden fields that the chapters'
register tables place beside them, and what a read itself does (R4, R6, R224, R397, R675, Table Strata-15). WO
registers, reserved bits and reserved offsets read zero (Table Scope-5, R7). -/

namespace Sys2Proof.Machine

/-- Bits 31:0 of a 48-bit counter. -/
def ctrLo (c : Ctr) : Word := BitVec.ofNat 32 c.n
/-- OVF and COUNT bits 47:32 (Table Grotto-19 and its like). -/
def ctrHi (c : Ctr) : Word := mkBit 31 c.ovf ||| mkFld 0 16 (c.n >>> 32)
/-- OVF and COUNT of a 31-bit counter. -/
def ctrNarrow (c : Ctr) : Word := mkBit 31 c.ovf ||| mkFld 0 31 c.n
/-- Low and high half of a 64-bit quantity. -/
def lo32 (n : Nat) : Word := BitVec.ofNat 32 n
/-- Bits 63:32 of a number. -/
def hi32 (n : Nat) : Word := BitVec.ofNat 32 (n >>> 32)

/-- The DEV block (Tables Scope-7 to -9). -/
def devRead (o : Nat) : Word :=
  match o with
  | 0x0 => mkFld 16 16 0x3A10 ||| mkFld 0 16 0x1F6B
  | 0x4 => mkFld 8 8 0x03 ||| mkFld 0 8 0xB0
  | 0x8 => mkBit 25 true ||| mkBit 24 true ||| mkFld 16 8 0x40 ||| mkFld 12 4 4 ||| mkFld 0 10 0x200
  | _ => 0

/-- LYS_TP_STAT (Table Lysata-27). -/
def ticketStat (t : Ticket) : Word :=
  mkFld 30 2 t.st ||| mkBit 29 t.sup ||| mkBit 28 t.hostc ||| mkBit 27 t.supc ||| mkFld 16 7 t.entries.length |||
  mkFld 0 16 t.num

/-- The entry that LYS_TP_RIDX names. -/
def ticketEntry (s : State) : Nat × Word := s.lys.ticket.entries.getD (s.regF 0x1_0114 0 6) (0, 0)

/-- What the PCI Express function presents as its identity (Table Queues-1), as the first words of its configuration space
stand in PCI Express (log 95): device and vendor ID, class code and revision ID, subsystem IDs. -/
def pciIdentity (s : State) : List Word :=
  [devRead 0, mkFld 8 24 0x12_0000 ||| mkFld 0 8 (fld (devRead 4) 0 8), s.pci.subsystem]

/-- The LYS block (Tables Lysata-12 to -31); a mailbox is the requester's own. -/
def lysRead (who : Nat) (s : State) (o : Nat) : Word :=
  let l := s.lys
  let box := tabGet ({} : Mailbox) l.boxes who
  let stored := s.reg (0x1_0000 + o)
  if 0x80 ≤ o ∧ o < 0x100 then
    let n := (o - 0x80) / 4
    stored ||| mkBit 27 (gclkPend s n) ||| mkFld 24 3 (s.levelOf n)
  else if 0x300 ≤ o ∧ o < 0x400 then box.words.getD ((o - 0x300) / 4) 0
  else match o with
    | 0x00 => statusHigh s
    | 0x0C => stored ||| mkBit 6 true
    | 0x10 => l.wakest.setWidth 32
    | 0x1C => lo32 l.tick
    | 0x20 => lo32 l.tbase
    | 0x24 => hi32 l.tbase
    | 0x34 => mkFld 24 8 (tjByte l.tj) ||| mkFld 16 8 l.sensor ||| mkFld 8 8 (tjByte l.tjMax)
    | 0x3C => mkFld 16 16 (min 65535 (windowAverage s)) ||| mkFld 0 16 (min 65535 (l.powers.headD 0))
    | 0x40 => stored ||| mkBit 31 (tabGet false l.locked 0)
    | 0x44 => stored ||| mkBit 31 (tabGet false l.locked 1)
    | 0x104 => ticketStat l.ticket
    | 0x110 => l.ticket.digest
    | 0x118 => lo32 (ticketEntry s).1
    | 0x11C => (ticketEntry s).2
    | 0x204 => mkBit 31 (box.busy || s.lys.restarting) ||| mkFld 28 3 box.status ||| mkFld 0 7 box.words.length
    | _ => stored

/-- Chambers in one of the listed states. -/
def countState (s : State) (states : List Nat) : Nat := (List.range 512).countP fun c => states.contains (s.chmState c)

/-- The FAB block (Tables Strata-23 to -27). -/
def fabRead (s : State) (o : Nat) : Word :=
  if o = 0 then
    mkBit 31 s.fab.released ||| mkFld 20 10 (countState s [3]) ||| mkFld 10 10 (countState s [4, 5]) |||
    mkFld 0 10 (countState s [2])
  else if 0x100 ≤ o ∧ o < 0x200 ∧ o % 0x10 = 8 then
    let g := s.grp ((o - 0x100) / 0x10)
    mkBit 31 g.fire.isSome ||| mkFld 29 2 g.lastop ||| mkFld 0 10 g.skipped
  else s.reg (0x2_0000 + o)

/-- Chamber c's registers (Tables Strata-8 to -22, R180). -/
def chmRead (s : State) (c o : Nat) : Word :=
  let ch := s.chm c
  let four (f : Nat → Bool) : Nat := (List.range 4).foldl (fun n k => n + b2n (f k) * 2 ^ k) 0
  if 0x20 ≤ o ∧ o < 0x30 then
    let x := ch.strat ((o - 0x20) / 4)
    mkBit 31 x.loaded ||| mkBit 30 x.quar ||| mkBit 29 x.refilling ||| mkFld 16 12 x.slot ||| mkFld 0 16 (persOf x.words)
  else match o with
    | 0x00 =>
      mkFld 29 3 (s.chmState c) ||| mkFld 27 2 ch.sel ||| mkBit 26 ch.pend.isSome ||| mkFld 24 2 (ch.pend.getD 0) |||
      mkFld 20 4 (four fun k => (ch.strat k).loaded) ||| mkFld 16 4 (four fun k => (ch.strat k).quar) |||
      mkBit 15 ch.schedRun ||| mkFld 12 3 ch.hsrc ||| mkFld 7 5 ch.swclkUse
    | 0x18 => tabGet 0 ch.sched (s.regF (chmReg c 0x14) 0 6)
    | 0x1C => mkFld 22 6 ch.entry ||| mkFld 0 22 ch.remain
    | 0x30 => ctrLo ch.swcnt
    | 0x34 => ctrHi ch.swcnt
    | 0x38 => lo32 ch.lastsw
    | 0x3C => hi32 ch.lastsw
    | 0x40 => (List.range 4).foldl (fun w k => w ||| mkFld (5 * k) 5 (ch.strat k).parked.length) 0
    | 0x44 => mkBit 31 (s.col (colOf c)).degraded ||| mkFld 0 9 (s.physOf (colOf c))
    | 0x48 => s.reg (chmReg (colOf c) 0x48)
    | _ => s.reg (chmReg c o)

/-- Slots in a state of Table Library-1. -/
def slotCount (s : State) (st : Nat) : Nat :=
  if st = 0 then 3072 - s.lib.slots.countP (fun p => p.2.st != 0) else s.lib.slots.countP fun p => p.2.st == st

/-- LIB_SINFO0 and LIB_SINFO1 of the slot that LIB_SIDX names (Tables Library-14 to -16). -/
def slotInfo (s : State) : Word × Word :=
  let i := s.regF 0x6_0020 0 12
  let x := s.slot i
  if 0xC00 ≤ i then (0, 0)
  else (mkFld 29 3 x.st ||| mkFld 25 2 x.sumpcnt |||
      (if x.st ≤ 1 then 0 else mkBit 28 x.rel ||| mkBit 27 x.lsi ||| mkFld 16 9 x.home ||| mkFld 0 16 x.pers),
    mkBit 31 x.shv ||| mkFld 22 9 (x.owner / 4) ||| mkFld 20 2 (x.owner % 4) ||| mkFld 0 12 (s.refs i))

/-- The LIB block (Tables Library-6 to -17). -/
def libRead (s : State) (o : Nat) : Word :=
  if 0x100 ≤ o ∧ o < 0x140 then
    let k := (o - 0x100) / 4
    match s.stream k with
    | none => 0
    | some r => mkBit 31 true ||| mkFld 27 4 r.op ||| mkFld 18 9 r.chamber ||| mkFld 16 2 r.stratum ||| mkFld 14 2 r.cls |||
        mkFld 0 7 (tabGet 0 s.lib.rowAt k)
  else match o with
    | 0x00 => mkFld 16 12 (slotCount s 2) ||| mkFld 0 12 (slotCount s 0)
    | 0x04 => mkFld 24 5 (slotCount s 1) ||| mkFld 12 12 (slotCount s 4) ||| mkFld 0 12 (slotCount s 3)
    | 0x08 => mkFld 0 12 s.refSum
    | 0x0C => mkBit 31 s.lib.devhold ||| mkFld 14 5 s.busyStreams.length ||| mkFld 0 9 (256 - s.lib.fifo.length)
    | 0x18 => ctrLo s.lib.done
    | 0x1C => ctrHi s.lib.done
    | 0x24 => (slotInfo s).1
    | 0x28 => (slotInfo s).2
    | _ => s.reg (0x6_0000 + o)

/-- The GRT block (Tables Grotto-10 to -23; R302: V2SEG reads zero while RMODEL = 0). -/
def grtRead (s : State) (o : Nat) : Word :=
  let g := s.grt
  if 0x1400 ≤ o ∧ o < 0x1800 then
    let n := (o - 0x1400) / 4
    (List.range 8).foldl (fun w b => w ||| mkFld (2 * b) 2 (s.bankState (8 * n + b))) 0
  else if 0x2000 ≤ o ∧ o < 0x2010 then (if s.regB 0x7_0004 30 then s.reg (0x7_0000 + o) else 0)
  else match o with
    | 0x00 =>
      mkBit 31 g.fillDone ||| mkBit 30 g.starved ||| mkBit 29 (s.regB 0x7_0004 30) ||| mkBit 28 (scrubOn s) |||
      mkFld 5 11 g.starvAt
    | 0x0C => mkFld 24 8 g.lapSlow ||| mkFld 0 22 g.lapLast
    | 0x14 => mkFld 0 17 (freeCount s)
    | 0x18 => mkFld 0 17 (softCount s)
    | 0x28 => ctrLo g.ce
    | 0x2C => ctrHi g.ce
    | 0x30 => ctrLo g.de
    | 0x34 => ctrHi g.de
    | 0x38 => ctrLo g.ue
    | 0x3C => ctrHi g.ue
    | 0x2010 => mkBit 31 (v2Busy s)
    | _ => s.reg (0x7_0000 + o)

/-- Queue q's registers (Tables Queues-12 to -24). -/
def queRead (s : State) (q o : Nat) : Word :=
  let x := s.qu q
  let pos (n p : Nat) : Word := mkBit 16 (decide (n ≤ p)) ||| mkFld 0 16 (p % n)
  match o with
  | 0x04 => mkFld 29 3 x.st ||| mkFld 24 5 x.cfgerr ||| mkBit 23 x.rseen ||| mkFld 17 6 x.held ||| pos x.sqN x.sqCi
  | 0x3C => pos x.cqN x.cqPi
  | 0x40 => ctrLo x.done
  | 0x44 => ctrHi x.done
  | 0x48 => ctrLo x.bytes
  | 0x4C => ctrHi x.bytes
  | 0x50 => ctrLo x.late
  | 0x54 => ctrHi x.late
  | 0x58 => x.lasterr
  | _ => s.reg (queReg q o)

/-- XLT_TAGUSE0 and XLT_TAGUSE1 (Tables Translation-16 and -17). -/
def tagUse (s : State) : Word × Word :=
  let h := tagsIssued s 1
  let g := tagsIssued s 2
  let v := tagsIssued s 3
  (mkFld 16 12 g ||| mkFld 0 10 h, mkFld 16 13 (4096 - h - g - v) ||| mkFld 0 12 v)

/-- The XLT block (Tables Translation-7 to -21). -/
def xltRead (s : State) (o : Nat) : Word :=
  let x := s.xlt
  match o with
  | 0x18 => mkFld 23 9 x.waiting.length ||| mkBit 16 (decide (frN s ≤ x.frPi)) ||| mkFld 0 16 (x.frPi % frN s)
  | 0x2C => mkFld 27 5 (16 - x.inv.length) ||| mkBit 26 (!x.inv.isEmpty) ||| mkFld 0 16 x.invDone
  | 0x40 => (tagUse s).1
  | 0x44 => (tagUse s).2
  | 0x48 => ctrLo x.miss
  | 0x4C => ctrHi x.miss
  | 0x50 => ctrLo x.faults
  | 0x54 => ctrHi x.faults
  | 0x5C => ctrNarrow x.tlbpe
  | _ => s.reg (0x9_0000 + o)

/-- The CRY block (Tables Crypto-7 to -13). -/
def cryRead (s : State) (o : Nat) : Word :=
  if 0x100 ≤ o ∧ o < 0x200 then
    let k := s.key ((o - 0x100) / 4)
    mkFld 30 2 k.st ||| mkFld 8 16 k.kcv ||| k.rights.setWidth 32
  else if 0x200 ≤ o ∧ o < 0x280 then
    let b := (o - 0x200) / 0x10
    match o % 0x10 with
    | 4 => mkBit 31 (s.sess b false).running ||| mkBit 30 (s.sess b true).running ||| mkFld 0 16 (tabGet 0 s.cry.started b)
    | 8 => lo32 (s.sess b false).counter
    | 12 => hi32 (s.sess b false).counter
    | _ => s.reg (0xA_0000 + o)
  else match o with
    | 0x00 =>
      mkBit 31 s.cry.loaded ||| mkBit 30 s.cry.xtsBp ||| mkBit 29 s.cry.gcmBp |||
      mkFld 16 7 (s.cry.keys.countP fun p => p.2.st == 3) |||
      mkFld 0 7 (s.cry.keys.countP fun p => p.2.st == 1 || p.2.st == 2)
    | 0x10 => ctrLo s.cry.authf
    | 0x14 => ctrHi s.cry.authf
    | _ => s.reg (0xA_0000 + o)

/-- Bundle b's registers (Tables Lanes-8 to -20). -/
def gvlRead (s : State) (b o : Nat) : Word :=
  let x := s.bun b
  if 0x200 ≤ o then 0
  else if 0x100 ≤ o then
    let l := x.lane ((o - 0x100) / 0x20)
    match o % 0x20 with
    | 0x00 => l.taps.setWidth 32
    | 0x04 => mkBit 31 l.good.isSome ||| (l.good.getD 0x20000000).setWidth 32
    | 0x08 => mkFld 16 8 l.density ||| mkFld 0 6 l.margin
    | 0x0C => ctrNarrow l.bip
    | 0x10 => ctrLo l.bits
    | 0x14 => ctrHi l.bits
    | 0x18 => ctrLo l.err
    | _ => ctrHi l.err
  else match o with
    | 0x04 =>
      let eight (f : Lane → Bool) : Nat := (List.range 8).foldl (fun n k => n + b2n (f (x.lane k)) * 2 ^ k) 0
      mkFld 28 4 x.st ||| mkBit 27 x.clkLock ||| mkBit 26 x.txIdle ||| mkBit 25 x.rxIdle ||| mkFld 17 7 x.attempts |||
      mkFld 8 8 (eight (·.lock)) ||| mkFld 0 8 (eight (·.frozen))
    | 0x14 => x.partner
    | 0x18 => x.pinv.setWidth 32
    | 0x20 => s.reg (gvlReg b o) ||| mkFld 0 8 ((List.range 8).foldl (fun n k => n + b2n (x.lane k).sync * 2 ^ k) 0)
    | _ => s.reg (gvlReg b o)

/-- GVL_NET_SRDATA of an endpoint (Table Network-16). -/
def routeWord (r : Route) : Word :=
  mkBit 31 r.v ||| mkBit 30 r.dir ||| mkFld 16 6 r.node ||| mkFld 10 6 r.cred ||| mkFld 0 10 r.rep

/-- The NET registers (Tables Network-10 to -18). -/
def netRead (s : State) (o : Nat) : Word :=
  let n := s.net
  if 0x100 ≤ o ∧ o < 0x180 then
    let l := (s.bun ((o - 0x100) / 0x10)).link
    match o % 0x10 with
    | 0 => mkFld 30 2 l.st ||| mkBit 29 l.adopted ||| mkFld 16 8 l.retry.length ||| mkFld 0 16 l.replays
    | 8 => ctrLo l.crc
    | 12 => ctrHi l.crc
    | _ => 0
  else match o with
    | 0x00 =>
      mkFld 30 2 s.netMode ||| mkBit 29 n.addr.isSome ||| mkFld 23 6 (n.addr.getD 0) ||| mkFld 16 7 n.nodes |||
      mkFld 14 2 n.depth ||| mkFld 11 3 (n.parent.getD 0) ||| mkBit 10 n.settled ||| mkFld 0 6 n.range
    | 0x10 => lo32 s.cfg.uid.toNat
    | 0x14 => hi32 s.cfg.uid.toNat
    | 0x24 =>
      let d := s.regF 0xB_8020 0 10
      if 64 ≤ d then 0
      else match tabGet (0, 0) n.routes d with
        | (0, _) => 0
        | (hops, b) => mkBit 31 true ||| mkFld 4 3 hops ||| mkFld 0 3 b
    | 0x2C => routeWord (tabGet {} n.streams (s.regF 0xB_8028 0 10))
    | _ => s.reg (0xB_8000 + o)

/-- TWN_STATUS.READY: a silent device is ready to rejoin (Table Twin-6). -/
def twinReady (s : State) : Bool :=
  s.twn.pstate == 4 && (match s.twn.fscause with
    | 0 => false
    | 3 => s.twn.ready
    | 4 => !relocating s
    | 5 => s.cfg.stage == 9 || s.cfg.stage == 0xB
    | 8 => s.twinUp
    | _ => true)

/-- The TWN block (Tables Twin-11 to -19). -/
def twnRead (s : State) (o : Nat) : Word :=
  let t := s.twn
  match o with
  | 0x00 =>
    mkFld 30 2 t.role ||| mkFld 27 3 t.pstate ||| mkFld 23 4 t.fscause ||| mkBit 22 (twinReady s) ||| mkBit 21 t.failin |||
    mkBit 20 (t.leadin && !t.leadLow) ||| mkBit 19 t.hbok ||| mkBit 18 (s.bunUp 0) ||| mkBit 17 (s.bunUp 1) ||| mkFld 10 7 t.fwdload
  | 0x18 => mkFld 29 3 t.phase ||| mkFld 0 22 t.lines
  | 0x20 => ctrLo t.mism
  | 0x24 => ctrHi t.mism
  | 0x28 => lo32 t.puid.toNat
  | 0x2C => hi32 t.puid.toNat
  | _ => s.reg (0xC_0000 + o)

/-- ECH_CVAL_LO and ECH_CVAL_HI of what ECH_CIDX names (Tables Echo-19 and -20, R691 to R694). -/
def counterShown (s : State) : Word × Word :=
  let code := s.regF 0xD_0030 0 16
  match s.regF 0xD_0030 30 2 with
  | 0 =>
    let x := s.leaf code
    if hasLeaf code then (ctrLo x.count, ctrHi x.count ||| mkBit 30 x.lost ||| mkFld 16 8 x.episodes) else (0, 0)
  | lv =>
    let n := if lv = 1 then code / 256 else 0
    let x := s.node n
    if lv = 1 ∧ (n = 0 ∨ 14 < n) then (0, 0) else (ctrLo x.count, ctrHi x.count ||| mkBit 30 x.lost ||| mkBit 29 x.invalid)

/-- ECH_CSTAT.STATE (Table Echo-16). -/
def commitState (c : EchoCommit) : Nat := if c.writing then 2 else if c.stopped then 3 else if c.pending then 1 else 0

/-- The ECH block (Tables Echo-10 to -20). -/
def echRead (who : Nat) (s : State) (o : Nat) : Word :=
  let e := s.ev
  let usable := e.sectors.filter fun x => !x.retired
  if 0x40 ≤ o ∧ o < 0x80 then BitVec.ofNat 32 ((tabGet [] e.capture who).getD ((o - 0x40) / 4) 0)
  else match o with
    | 0x08 => mkFld 30 2 e.ringState ||| mkBit 29 e.wrapped ||| mkFld 12 12 e.trigIdx ||| mkFld 0 12 e.head
    | 0x0C => mkBit 31 e.logFull ||| mkFld 16 10 e.log.length ||| mkFld 0 16 e.dropped
    | 0x14 => mkFld 30 2 (commitState e.commit) ||| mkFld 26 4 e.commit.lastRes ||| mkFld 0 16 e.commit.done
    | 0x18 => lo32 e.cseq
    | 0x1C =>
      mkBit 31 e.hasRegion ||| mkBit 30 e.regionB ||| mkFld 12 12 usable.length |||
      mkFld 0 12 (e.sectors.length - usable.length)
    | 0x20 => mkFld 0 17 (usable.foldl (fun m x => max m x.erases) 0)
    | 0x28 => ctrLo e.lost
    | 0x2C => ctrHi e.lost
    | 0x38 => (counterShown s).1
    | 0x3C => (counterShown s).2
    | _ => s.reg (0xD_0000 + o)

/-- The PIN block (Tables Pins-14 to -25; R723, R729: the STD that a register reads). -/
def pinRead (s : State) (o : Nat) : Word :=
  let p := s.pin
  let stored := s.reg (0xE_0000 + o)
  if 0x1000 ≤ o then
    setFld stored 18 4 (pinStd s ((o - 0x1000) / 4))
  else if 0x180 ≤ o ∧ o < 0x1C0 then
    let k := (o - 0x180) / 4
    mkBit 31 (bit p.anValid k) ||| mkFld 0 10 (tabGet 0 p.analogue k).toNat
  else if 0x200 ≤ o ∧ o < 0x240 then
    let k := (o - 0x200) / 4
    stored ||| mkFld 29 3 (s.vdet k) ||| mkBit 25 (bit p.vfault k)
  else if 0x380 ≤ o ∧ o < 0x400 then
    let d := s.port ((o - 0x380) / 4)
    mkBit 31 d.hs ||| mkBit 30 d.ulps ||| mkBit 29 d.skewOk ||| mkBit 28 d.damaged ||| mkFld 0 16 d.bursts
  else match o with
    | 0x00 =>
      mkFld 27 5 p.locked.toNat ||| mkBit 26 s.cfg.debugLock ||| mkBit 25 (!probesOff s) ||| s.cfg.pull.setWidth 32
    | 0x20 => mkFld 0 16 ((List.range 16).foldl (fun n k => n + b2n (svcLevel s k) * 2 ^ k) 0)
    | 0x24 | 0x28 => mkFld 12 4 p.user.toNat ||| mkFld 0 4 (svcRoles s)
    | _ => stored

/-- The member of the running set of a kind (1 FIRMWARE, 2 PERSONALITY, 3 KEYS). -/
def State.member (s : State) (kind : Nat) : Option Member := s.cfg.running.find? fun m => m.kind == kind

/-- The CFG block (Tables Loading-13 to -23). -/
def cfgRead (s : State) (o : Nat) : Word :=
  let c := s.cfg
  match o with
  | 0x00 =>
    mkFld 28 4 c.stage ||| mkFld 25 3 c.mode.toNat ||| mkBit 24 c.listen ||| mkFld 22 2 c.psrc ||| mkBit 21 c.fallback |||
    mkBit 20 c.override ||| mkBit 19 c.done ||| mkBit 18 (s.regB 0xF_0004 30) ||| mkFld 8 4 c.excl.length
  | 0x08 => lo32 ((s.member 2).map (·.imageid) |>.getD 0)
  | 0x0C => lo32 ((s.member 2).map (·.version) |>.getD 0)
  | 0x10 => c.lastrej
  | 0x14 => mkBit 31 (decide (128 ≤ c.svn)) ||| mkFld 0 8 c.svn
  | 0x1C => mkFld 4 4 c.revoked.toNat ||| mkFld 0 4 c.programmed.toNat
  | 0x28 => lo32 c.trel
  | _ => s.reg (0xF_0000 + o)

/-- The value of the register at an offset for a requester, as it stands (R7: zero at a reserved offset). -/
def readLive (who : Nat) (s : State) (off : Nat) : Word :=
  if off < 0x1_0000 then devRead off
  else if off < 0x2_0000 then lysRead who s (off - 0x1_0000)
  else if off < 0x4_0000 then fabRead s (off - 0x2_0000)
  else if off < 0x6_0000 then chmRead s ((off - 0x4_0000) / 0x100) (off % 0x100)
  else if off < 0x7_0000 then libRead s (off - 0x6_0000)
  else if off < 0x8_0000 then grtRead s (off - 0x7_0000)
  else if off < 0x9_0000 then queRead s ((off - 0x8_0000) / 0x100) (off % 0x100)
  else if off < 0xA_0000 then xltRead s (off - 0x9_0000)
  else if off < 0xB_0000 then cryRead s (off - 0xA_0000)
  else if off < 0xB_8000 then gvlRead s ((off - 0xB_0000) / 0x1000) (off % 0x1000)
  else if off < 0xC_0000 then netRead s (off - 0xB_8000)
  else if off < 0xD_0000 then twnRead s (off - 0xC_0000)
  else if off < 0xE_0000 then echRead who s (off - 0xD_0000)
  else if off < 0xF_0000 then pinRead s (off - 0xE_0000)
  else if off < 0x10_0000 then cfgRead s (off - 0xF_0000)
  else 0

/-- A half held for a requester: of a register the capture or the staged half serves. -/
def findHalf (l : List Half) (who off : Nat) : Option Word := (l.find? fun h => h.who == who && h.off == off).map (·.val)
/-- The list without that half. -/
def dropHalf (l : List Half) (who off : Nat) : List Half := l.filter fun h => !(h.who == who && h.off == off)
/-- Hold a capture (R4); an older one of the register is replaced (R6). -/
def holdCapture (who off : Nat) (v : Word) (s : State) : State :=
  { s with captures := ⟨who, off, v⟩ :: dropHalf s.captures who off }
/-- Use a capture if one is held, else the value as it stands (R4, R6). -/
def useCapture (who off : Nat) (s : State) : Word × State :=
  match findHalf s.captures who off with
  | some v => (v, { s with captures := dropHalf s.captures who off })
  | none => (readLive who s off, s)

/-- Advance an index register whose AUTOINC bit is set, modulo n (Tables Strata-15 and Library-14). -/
def autoInc (off len n : Nat) (s : State) : State :=
  if s.regB off 31 then s.setRegF off 0 len ((s.regF off 0 len + 1) % n) else s

/-- The register is CHM_SDATA of some chamber. -/
def isSdata (off : Nat) : Bool := decide (0x4_0000 ≤ off) && decide (off < 0x6_0000) && off % 0x100 == 0x18

/-- A 32-bit read of the register at an offset by a requester: its value and what the read does (R4, R6, R224, R397,
R675, Table Strata-15). No register of the manual has the access code RC, so none is cleared by a read (R14). -/
def readReg (who off : Nat) (s : State) : Word × State :=
  let v := readLive who s off
  if (regDesc off).pair = 1 then (v, holdCapture who (off + 4) (readLive who s (off + 4)) s)
  else if (regDesc off).pair = 2 then useCapture who off s
  else if off = 0x6_0024 then (v, autoInc 0x6_0020 12 3072 (holdCapture who 0x6_0028 (slotInfo s).2 s))
  else if off = 0x9_0040 then (v, holdCapture who 0x9_0044 (tagUse s).2 s)
  else if off = 0x6_0028 ∨ off = 0x9_0044 then useCapture who off s
  else if isSdata off then (v, autoInc (off - 4) 6 64 s)
  else if off = 0xD_0040 then
    let s := captureRecord who s
    (readLive who s off, s)
  else (v, s)

end Sys2Proof.Machine
end

