-- ==== Sys2Proof/Machine/Twin.lean ====
section
/-! DEFINITION. Brynerek (15_twin.md): synchronisation, takeover, mirroring, comparison, partner loss and rejoin.
Delivery by stamp is in Machine/Access.lean, since an item may be a register write. -/

namespace Sys2Proof.Machine

/- ### Synchronisation -/

/-- TWN_CTRL.PREFER. -/
def prefersLead (s : State) : Bool := s.regB 0xC_0004 27
/-- The device that would become LEAD (R596): PREFER, else the lower unique ID. -/
def wouldLead (s : State) (h : Hello) : Bool :=
  if prefersLead s != h.prefer then prefersLead s else decide (s.cfg.uid.toNat < h.uid.toNat)
/-- STATE, KCV and RIGHTS of the 64 key table entries (R406). -/
def keysShown (s : State) : List (BitVec 2 × BitVec 16 × BitVec 4) :=
  (List.range 64).map fun k => (BitVec.ofNat 2 (s.key k).st, BitVec.ofNat 16 (s.key k).kcv, (s.key k).rights)
/-- IMAGEID and VERSION of the running members. -/
def membersShown (s : State) : List (Word × Word) :=
  s.cfg.running.map fun m => (BitVec.ofNat 32 m.imageid, BitVec.ofNat 32 m.version)
/-- PBUNDLE of every UP twin bundle is its own number, and one of them is UP. -/
def wiringOk (s : State) : Bool :=
  s.twinUp && [0, 1].all fun b => !s.bunUp b || ((s.bun b).partner.getLsbD 31 && fld (s.bun b).partner 24 3 == b)
/-- A global clock that runs is not derived from REFCLK (Table Twin-4). -/
def foreignClock (s : State) : Bool := (List.range 32).any fun n => bit (s.gclkOf n) 31 && fld (s.gclkOf n) 28 2 == 2

/-- The checks of Table Twin-4 but TIMEOUT, in its order: the first that fails. -/
def helloRefusal (s : State) (h : Hello) : Option Nat :=
  let checks : List (Nat × Bool) := [
    (2, h.rev != devRead 4),
    (3, h.running != membersShown s),
    (4, h.keys != keysShown s),
    (5, h.mode != s.cfg.mode),
    (6, !h.pbundleOk || !wiringOk s),
    (7, h.delay.toNat != s.regF 0xC_0008 0 10),
    (8, h.pins != s.reg 0xC_000C),
    (9, !h.clockOk || foreignClock s),
    (10, decide (40 < h.load))]
  ((checks.filter (·.2)).map (·.1)).head?

/-- Injection delay in effect: TWN_DELAY.CYCLES, at least 64, or 80 with an encrypted twin bundle (R603). -/
def delayInEffect (s : State) : Nat :=
  let enc := s.regF 0xA_0200 30 2 != 0 || s.regF 0xA_0210 30 2 != 0
  max (s.regF 0xC_0008 0 10) (if enc then 80 else 64)

/-- TWN_DELAY and TWN_PINS take effect (Tables Twin-14 and -15). -/
def takeTwinSetup (s : State) : State :=
  let d := delayInEffect s
  let p := s.reg 0xC_000C
  s.modTwn fun t => { t with delay := d, pins := p }

/-- What the device sends as HELLO (R595, R406; its layout is internal to Brynerek, R607: log 29). -/
def helloBytes (s : State) : List Byte :=
  leBytes 4 (devRead 4).toNat ++ (membersShown s).flatMap (fun m => leBytes 4 m.1.toNat ++ leBytes 4 m.2.toNat)
    ++ (keysShown s).flatMap (fun k => leBytes 1 k.1.toNat ++ leBytes 2 k.2.1.toNat ++ leBytes 1 k.2.2.toNat)
    ++ leBytes 1 s.cfg.mode.toNat ++ leBytes 8 s.cfg.uid.toNat ++ leBytes 1 (b2n (prefersLead s))
    ++ leBytes 2 (s.regF 0xC_0008 0 10) ++ leBytes 4 (s.reg 0xC_000C).toNat ++ leBytes 1 (b2n (s.twn.pstate == 3))

/-- Step 9 begins (R595). -/
def beginSync (s : State) : State :=
  let s := s.modTwn fun t => { t with sync := none, heard := none }
  let s := s.modCfg fun c => { c with stage := 9 }
  let s := if s.twn.pstate = 4 then s else setPair 0 1 s
  sendTwin 1 (helloBytes s) s

/-- Microseconds of TBASE. -/
def State.micros (s : State) : Nat := s.now / 1000

/-- Step 10 as SOLO in ALONE, with 0x0C09 and the cause sync (R597, R598, R593, Table Twin-20, log 84). -/
def goOnAlone (s : State) : State :=
  releaseFabric s.micros <| raise 0x0C09 [4] (setPair 0 3 (s.modTwn fun t => { t with leadLow := true, failDrive := none, hbRun := false }))
/-- Step 10 as SOLO in SILENT with the cause SYNC (R597, R598). -/
def goOnSilent (s : State) : State := releaseFabric s.micros (failSilent 0xB s)

/-- The device is in step 9 and has not settled its role. -/
def syncing (s : State) : Bool := s.cfg.stage == 9 && s.twn.pstate == 1

/- ### Rejoin -/

/-- The survivor starts a rejoin (R621, R708): ALONE, in P0. A check of Table Twin-4 that fails raises 0x0C0C. -/
def rejoinStart (h : Option Hello) (uid lines : Nat) (s : State) : State :=
  if s.twn.pstate ≠ 3 ∨ s.pstate ≠ 0 then s
  else match h.bind (helloRefusal s) with
    | some r => raise 0x0C0C [r] s
    | none =>
      let lines := if s.twn.maxLine then 2 ^ 21 else lines
      raise 0x0C0A [uid, lines] (setPair 0 5 (s.modTwn fun t => { t with phase := 2, lines := lines }))

/-- Lines to send when no command gives their number: what the survivor has logged, which the manual bounds only by
the memory's size; a free value (log 30). -/
def linesLogged (s : State) : Nat × State := (Config.freeNat s.seed % (2 ^ 21 + 1), s.fresh)

/-- TWN_CMD.OP = REJOIN (R621). -/
def rejoinCommand (s : State) : State :=
  let (n, s) := linesLogged s
  rejoinStart s.twn.heard s.twn.puid.toNat n s

/- ### Commands -/

/-- HELLO arrives (R595 to R597, R599, R621). -/
def execHelloReceive (hello : Hello) (s : State) : Host.Outcome State Fault Refusal :=
  if !s.twinStart then done s
  else
    let s := s.modTwn fun t => { t with puid := hello.uid, heard := some hello }
    if s.twn.pstate = 3 then
      let (n, s) := linesLogged s
      done (rejoinStart (some hello) hello.uid.toNat n s)
    else if !syncing s || s.twn.sync.isSome || hello.alone then done s
    else match helloRefusal s hello with
      | none => done (s.modTwn fun t => { t with sync := some hello, lead := wouldLead s hello })
      | some r =>
        let s' := raise 0x0C0C [r] s
        done (if wouldLead s hello then goOnAlone s' else goOnSilent s')

/-- SYNCTMO passes without HELLO and the line has been watched (R598, steps 1 and 2). -/
def execSyncTimeout (lineLow : Bool) (s : State) : Host.Outcome State Fault Refusal :=
  if !syncing s || s.twn.heard.isSome then done s
  else if lineLow then done (goOnSilent (raise 0x0C0C [1] (s.modTwn fun t => { t with leadin := false })))
  else done (s.modTwn fun t => { t with leadLow := true, leadin := true })

/-- The arbitration frame ends (R598, steps 4 and 5). -/
def execArbitrationEnd (won : Bool) (s : State) : Host.Outcome State Fault Refusal :=
  if !syncing s || s.twn.heard.isSome then done s
  else
    let s := raise 0x0C0C [1] (s.modTwn fun t => { t with leadLow := won, leadin := false })
    done (if won then goOnAlone s else goOnSilent s)

/-- The barrier (R596): cycle counters to zero, the shadow takes the lead's TBASE, PAIRED, 0x0C02, then step 10. -/
def execSyncBarrier (s : State) : Host.Outcome State Fault Refusal :=
  match s.twn.sync with
  | none => done s
  | some h =>
    if !syncing s then done s
    else
      let lead := s.twn.lead
      let s := if lead then s else s.modLys fun l => { l with tbase := h.barrier }
      let s := (takeTwinSetup s).modFab fun f => { f with phase := [], early := [] }
      let s := s.modTwn fun t => { t with sync := none, failDrive := if lead then some false else none, failin := false,
                                          leadLow := lead, leadin := false, hbRun := !lead, hbok := lead, stamped := 0, wasPaired := true,
                                          held := [], progress := [], own := [] }
      let s := setPair (if lead then 1 else 2) 2 s
      done (releaseFabric s.micros (raise 0x0C02 [s.twn.role, h.uid.toNat, s.now] s))

/-- The last n elements. -/
def lastOf {α : Type} (n : Nat) (l : List α) : List α := l.drop (l.length - n)

/-- Commit records of a queue that the new lead writes (R615): completions from the last CQ_CI on, the newest shadow
write, the fault records from the held consumer position on. -/
def recordsToWrite (s : State) (q : Nat) : List CommitRec :=
  let x := s.qu q
  let of (k : Nat) : List CommitRec := s.twn.held.filter fun r => r.kind == k && r.queue == q
  lastOf (ringCount x.cqN x.cqCi x.cqPi) (of 1) ++ lastOf 1 (of 2) ++ lastOf (ringCount (frN s) s.xlt.frCi s.xlt.frPi) (of 3)

/-- What the new lead does for a queue that is not DISABLED (R615). A descriptor whose source can be read again goes on
from its last progress offset. -/
def takeQueue (q : Nat) (s : State) : State :=
  let s := forEach (recordsToWrite s q) (fun r s => s.send (.hostWrite r.kind r.queue r.addr r.bytes)) s
  let s := s.modQu q fun x => { x with context := x.context.map fun d =>
    if d.started && d.ended.isNone && d.dstHost && d.opc != 3 then
      { d with off := min d.off (tabGet 0 s.twn.progress (65536 * q + d.cid)) }
    else d }
  askDoorbell q (s.modQu q fun x => { x with dbSt := 0, dbAgain := false })

/-- A PAIRED shadow sees PAIR_FAIL high (R610, R615, R593); where no sample of the lead came it uses its own (R605). -/
def execTakeover (s : State) : Host.Outcome State Fault Refusal :=
  if s.twn.role ≠ 2 then done s
  else
    let s := setPair 0 3 (s.modTwn fun t => { t with failin := true, leadLow := true, hbRun := false, checking := false })
    let s := raise 0x0C04 [s.now, s.twn.puid.toNat] s
    let s := forEach ((s.que.filter fun p => p.2.st != 0).map (·.1)) takeQueue s
    let s := forEach s.twn.own (fun (k, v) s => setBank k (BitVec.ofNat 48 v) s) s
    done (s.modTwn fun t => { t with held := [], progress := [], own := [] })

/-- The lead's PAIR_FAIL ball reads high while it drives it low (R594). -/
def execSidebandFault (s : State) : Host.Outcome State Fault Refusal :=
  done (if s.twn.role = 1 then failSilent 9 (s.modTwn fun t => { t with failin := true }) else s)

/-- A diagnosis ends: 0x0C07 with the policy and who yielded: 1 lead, 2 shadow, 3 both (R618, Table Twin-9). -/
def diagnosed (policy who : Nat) (s : State) : State := failSilent 7 (raise 0x0C07 [policy, who] s)

/-- A mismatch of class 1 PIN, 2 HOST, 3 LINK, 4 GROTTO found by the shadow (R618). -/
def mismatch (cls : Nat) (s : State) : State :=
  let s := raise 0x0C06 [cls, s.now] (s.modTwn fun t => { t with mism := t.mism.add 1 })
  match s.regF 0xC_0004 28 2 with
  | 0 => diagnosed 0 2 s
  | 1 =>
    (s.modTwn fun t => { t with checking := true }).modInteg fun x =>
      { x with resPos := 0, dropStratum := false }
  | _ => diagnosed 2 3 s

/-- A commit record reaches the shadow (R613, R618). -/
def execCommitRecord (q : QueueId) (bytes : List Byte) (own : List Byte) (s : State) : Host.Outcome State Fault Refusal :=
  if s.twn.role ≠ 2 then done s
  else
    let r : CommitRec := ⟨fb bytes 0, q, ofLeBytes ((bytes.drop 2).take 8), bytes.drop 10⟩
    let s := sendTwin 3 (leBytes 1 q) (s.modTwn fun t => { t with held := t.held ++ [r] })
    done (if bytes = own then s else mismatch 2 s)

/-- The shadow's acknowledgement reaches the lead, which issues the writes (R613). -/
def execCommitRecordAck (q : QueueId) (s : State) : Host.Outcome State Fault Refusal :=
  if s.twn.role ≠ 1 then done s
  else
    done (sendHeld (fun r => r.queue == q.val) s)

/-- A progress record reaches the shadow (R614, R618). -/
def execProgressRecord (q : QueueId) (cid : BitVec 16) (offset : Word) (own : Word) (s : State) :
    Host.Outcome State Fault Refusal :=
  if s.twn.role ≠ 2 then done s
  else
    let s := s.modTwn fun t => { t with progress := tabSet 0 t.progress (65536 * q + cid.toNat) offset.toNat }
    done (if offset = own then s else mismatch 2 s)

/-- The lap that SELFCHECK started ends with neither device at fault (Table Twin-9). -/
def execSelfcheckLapEnd (s : State) : Host.Outcome State Fault Refusal :=
  if !s.twn.checking then done s
  else
    let s := s.modTwn fun t => { t with checking := false }
    done (if s.twn.role = 2 then diagnosed 1 2 s else s)

/-- FAILSILENT arrives (R619, R623). -/
def execFailsilentReceive (s : State) : Host.Outcome State Fault Refusal :=
  done (if s.twn.pstate = 5 then abandonRejoin s.twn.barrierHold s
    else if s.twn.role = 1 then goAlone 1 s
    else if s.twn.role = 2 then s.modTwn fun t => { t with leadin := true }
    else s)

/-- No PAIR_HB edge for 1 µs (R619). -/
def execHeartbeatTimeout (s : State) : Host.Outcome State Fault Refusal :=
  done (if s.twn.role = 1 then goAlone 2 (s.modTwn fun t => { t with hbok := false }) else s)

/-- ALONE arrives from the lead (R619). -/
def execAloneReceive (s : State) : Host.Outcome State Fault Refusal :=
  done (if s.twn.role = 2 ∧ !s.twn.failin then failSilent 8 s else s)

/-- A paired pin's register differs from the net (R618). -/
def execPinCompareMismatch (pin : Fin 768) (s : State) : Host.Outcome State Fault Refusal :=
  done (if s.twn.role = 2 ∧ bit s.twn.pins (pin / 48) then mismatch 1 s else s)

/-- A mirrored outbound flit of an active bundle (R617, R618). -/
def execMirroredOutboundFlit (b : BundleId) (bytes own : FlitBytes) (s : State) : Host.Outcome State Fault Refusal :=
  done (if s.twn.role = 2 ∧ !s.twinBundle b ∧ bytes ≠ own then mismatch 3 s else s)

/-- The CRCs over 4,096 mesh cycles of Grotto writes are exchanged (R618). -/
def execGrottoCrcExchange (own partner : Word) (s : State) : Host.Outcome State Fault Refusal :=
  done (if s.twn.role = 2 ∧ own ≠ partner then mismatch 4 s else s)

/-- With AUTOREJ = 1 the silent partner is ready (R621). -/
def execRejoinAuto (uid : BitVec 64) (lines : BitVec 22) (s : State) : Host.Outcome State Fault Refusal :=
  done (if s.regB 0xC_0004 30 then rejoinStart s.twn.heard uid.toNat lines.toNat s else s)

/-- The survivor enters BARRIER when what is left can be sent in time (R622): it holds every chamber and sends the cell
state of every loaded stratum. -/
def execRejoinBarrier (micros : Nat) (s : State) : Host.Outcome State Fault Refusal :=
  if s.twn.pstate ≠ 5 ∨ max 1 (s.regF 0xC_0014 0 16) < micros then done s
  else
    let s := holdChambers (s.fab.chambers.map (·.1)) 1 s
    let s := forEach s.fab.chambers (fun (c, ch) s =>
      forEach (List.range 4) (fun k s =>
        if (ch.strat k).loaded then
          sendTwin 7 (leBytes 2 c ++ leBytes 1 k ++ leBytes 2 (ch.strat k).slot ++ leBytes 256 (ch.stateBits k).toNat) s
        else s) s) s
    done (s.modTwn fun t => { t with phase := 4, heldAtBarrier := true, barrierHold := micros,
                                     lines := min t.lines (max 1 (s.regF 0xC_0014 16 16)) })

/-- A rejoiner's chamber takes the survivor's state: each of its strata is refilled from its slot and restored. The cell
state that arrives is no operand of any command, so it is free where the stratum's words let a cell hold state (R81, log
30). A hold for repair ends so (R105). -/
def takeState (c : Nat) (s : State) : State :=
  let free (i : Nat) : BitVec 2048 := Config.freeBits 2048 (s.seed + i)
  let taken (x : Stratum) : Bool := decide (x.slot < 0xC00) && (x.loaded || x.needRefill || x.quar)
  let shr := (s.chm c).strata.foldl (fun m p => if taken p.2 then m ||| shrMask (s.slot p.2.slot).image else m) 0
  let s := s.modChm c fun ch =>
    { ch with hsrc := 0, pend := none, shared := (ch.shared &&& ~~~shr) ||| (free 0 &&& shr),
              strata := ch.strata.foldl (fun t (p : Nat × Stratum) =>
                let x := p.2
                let ws := (s.slot x.slot).image
                let m := ofBits 2048 (ws.map (·.1)) &&& ~~~shrMask ws
                tabSet ({} : Stratum) t p.1 (if taken x then
                  { x with loaded := true, quar := false, needRefill := false, rewriting := false, failMask := [],
                           words := ws, ffs := (initBits ws &&& ~~~m) ||| (free (1 + p.1) &&& m) } else x)) ch.strata }
  { s with seed := s.seed + 8 }

/-- A rejoin ends (R622): the survivor is LEAD, the rejoiner SHADOW, and both raise 0x0C0B. `tbase` is the survivor's
TBASE. -/
def execRejoinEnd (micros tbase : Nat) (s : State) : Host.Outcome State Fault Refusal :=
  if s.twn.pstate = 5 ∧ s.twn.phase = 4 then
    let s := takeTwinSetup (releaseBarrier s)
    let s := s.modTwn fun t => { t with phase := 0, lines := 0, failDrive := some false, failin := false, leadLow := true,
                                        hbok := true, maxLine := false, held := [], progress := [], wasPaired := true }
    done (raise 0x0C0B [4, micros, 0] (setPair 1 2 s))
  else if s.twinStart ∧ (twinReady s ∨ syncing s) then
    let s := forEach (s.fab.chambers.map (·.1)) takeState s
    let s := (takeTwinSetup s).modLys fun l => { l with tbase := tbase }
    let s := s.modFab fun f => { f with phase := [], early := [], released := true }
    let s := s.modTwn fun t => { t with failDrive := none, failin := false, leadLow := false, hbRun := true, ready := false,
                                        held := [], progress := [], sync := none, wasPaired := true }
    let s := s.modCfg fun c => { c with stage := 0xB }
    done (raise 0x0C0B [4, micros, 0] (setPair 2 2 s))
  else done s

/-- A rejoin is abandoned (R623). -/
def execRejoinAbandon (micros : Nat) (s : State) : Host.Outcome State Fault Refusal := done (abandonRejoin micros s)

end Sys2Proof.Machine
end

