-- ==== Sys2Proof/Machine/Registers.lean ====
section
/-! DEFINITION. Writing BAR0: the refusals of R8 with the encodings that the chapters declare undefined, the RWL rule,
_LO and _HI pairs (R2 to R6), and what the write of each register does. An undefined encoding is looked for before an
RWL change (log 31). -/

namespace Sys2Proof.Machine

/-- A chamber register's offset within its set. -/
def inChm (off o : Nat) : Bool := decide (0x4_0000 ≤ off) && decide (off < 0x6_0000) && off % 0x100 == o
/-- Chamber of a CHM offset. -/
def chmOf (off : Nat) : Nat := (off - 0x4_0000) / 0x100
/-- A switch group's register. -/
def inGrp (off o : Nat) : Bool := decide (0x2_0100 ≤ off) && decide (off < 0x2_0200) && off % 0x10 == o
/-- Queue of a QUE offset. -/
def queOf (off : Nat) : Nat := (off - 0x8_0000) / 0x100
/-- The offset is register o of some queue. -/
def inQue (off o : Nat) : Bool := decide (0x8_0000 ≤ off) && decide (off < 0x9_0000) && off % 0x100 == o
/-- Bundle register. -/
def inGvl (off o : Nat) : Bool := decide (0xB_0000 ≤ off) && decide (off < 0xB_8000) && off % 0x1000 == o

/- ### Undefined encodings (R8) -/

/-- LYS_TBADJ and LYS_GCLKn (R629, R633). -/
def badLys (s : State) (off val : Nat) (v : Word) : Bool :=
  let o := off - 0x1_0000
  if o = 0x28 then decide (200 < (signed 9 val).natAbs)
  else if 0x80 ≤ o ∧ o < 0x100 then
    let src := fld v 28 2
    decide (src < 2) && decide (8 * fld v 0 8 < s.regF (0x1_0040 + 4 * src) 0 7)
  else if o = 0x124 then !(fld v 30 2 == 1 || fld v 30 2 == 2)
  else false

/-- GRT_INJ_CTL and GRT_V2SEGk, which ignores writes while RMODEL = 0 (R306, R301, R302). -/
def badGrt (s : State) (off : Nat) (v : Word) : Bool :=
  if off = 0x7_0020 then [8, 15, 22].any fun lo => decide (80 ≤ fld v lo 7)
  else if 0x7_2000 ≤ off ∧ off < 0x7_2010 then
    s.regB 0x7_0004 30 && (List.range 16).any fun j => fld v (2 * j) 2 == 3
  else false

/-- A tag reserve that would make the three exceed 4,096; an invalidation without a scope; an ABANDON that has nothing
to abandon (Tables Translation-13, -15 and -19, R390). -/
def badXlt (s : State) (off : Nat) (v : Word) : Bool :=
  if off = 0x9_0028 then fld v 30 2 == 0
  else if off = 0x9_0030 ∨ off = 0x9_0034 ∨ off = 0x9_0038 then
    let res (o : Nat) : Nat := if o = off then fld v 0 12 else s.regF o 0 12
    decide (4096 < res 0x9_0030 + res 0x9_0034 + res 0x9_0038)
  else if off = 0x9_0058 then
    let x := s.qu (fld v 0 8)
    !(fld v 30 2 == 1 && x.st == 3 && x.park.any fun p => p.access == 2 || p.access == 3)
  else false

/-- What a write would leave in the stored bits of a register. -/
def storedAfter (s : State) (off : Nat) (v : Word) : Word :=
  let m := (regDesc off).rw
  (s.reg off &&& ~~~m) ||| (v &&& m)

/-- PIN_IOi (R721, R723): the odd pin of a differential pair ignores writes. An owner column counts while OWNEN = 1
(log 32). -/
def badPinIo (s : State) (i : Nat) (v : Word) : Bool :=
  let r := ioReg i
  let off (lo len : Nat) : Bool := fld v lo len != s.regF r lo len
  let k := i / 48
  let std := fld v 18 4
  (bit v 31 && !reachesPin (fld v 22 8) i) || !stdIn std (s.vdet k) ||
    (pinEnable s i && (off 18 4 || off 31 1 || off 30 1 || off 22 8 || off 13 1 || off 10 2 || off 0 6))

/-- The PIN block: locked groups (R750), PIN_IOi, a D-PHY bank without its supply (R729), a fifth probe (R743). -/
def badPin (s : State) (off : Nat) (v : Word) : Bool :=
  let user := fld v 12 4
  let moves : Bool :=
    if off = 0xE_0024 then (BitVec.ofNat 4 user &&& ~~~s.pin.user) != 0
    else if off = 0xE_0028 then (BitVec.ofNat 4 user &&& s.pin.user) != 0
    else if off = 0xE_002C then user != 0
    else storedAfter s off v != s.reg off
  let locked := (lockMaskOf off &&& s.pin.locked) != 0
  if 0xE_1000 ≤ off ∧ off < 0xE_1C00 then
    let i := (off - 0xE_1000) / 4
    !pinSlave s i && (badPinIo s i v || (locked && moves))
  else if 0xE_0200 ≤ off ∧ off < 0xE_0220 then (locked && moves) || (bit v 26 && s.vdet ((off - 0xE_0200) / 4) != 1)
  else if 0xE_0400 ≤ off ∧ off < 0xE_0440 then
    let i := (off - 0xE_0400) / 4
    (locked && moves) || (bit v 31 && decide (4 < probesOf s (colOf (fld v 20 9)) i v))
  else locked && moves

/-- A write holds an encoding that some rule leaves undefined (R8). `lo` is the _LO half of a pair. -/
def badByRule (s : State) (off : Nat) (lo v : Word) : Bool :=
  if off < 0x1_0000 then false
  else if off < 0x2_0000 then badLys s off (fld v 0 9) v
  else if off < 0x6_0000 then (inChm off 0x08 || inGrp off 0x04) && fld v 30 2 == 0
  else if off < 0x7_0000 then off == 0x6_0014 && !(decide (1 ≤ fld lo 0 4) && decide (fld lo 0 4 ≤ 6))
  else if off < 0x8_0000 then badGrt s off v
  else if off < 0x9_0000 then false
  else if off < 0xA_0000 then badXlt s off v
  else if off < 0xC_0000 then false
  else if off < 0xD_0000 then off == 0xC_0010 && !(fld v 30 2 == 1 && s.twn.pstate == 3)
  else if off < 0xE_0000 then off == 0xD_0004 && fld v 30 2 == 0
  else if off < 0xF_0000 then badPin s off v
  else false

/-- An enumerated field of the register, or of the _LO half beside it, holds an undefined code (R8). An odd pin's register
ignores the write instead (R723). -/
def badFields (s : State) (off : Nat) (lo v : Word) : Bool :=
  if 0xE_1000 ≤ off ∧ off < 0xE_1C00 ∧ pinSlave s ((off - 0xE_1000) / 4) then false
  else badEnum (regDesc off) v || ((regDesc off).pair == 2 && badEnum (regDesc (off - 4)) lo)

/-- A write would change an RWL field (R8). -/
def changesRwl (s : State) (who off : Nat) (v : Word) : Bool := ((readLive who s off ^^^ v) &&& (regDesc off).rwl) != 0

/-- Reason for which a write is refused (R8, Table Scope-11): 2 ENCODING, 3 RWL; none when it takes effect. -/
def writeRefusal (s : State) (who off : Nat) (lo v : Word) : Option Nat :=
  if badFields s off lo v || badByRule s off lo v then some 2
  else if changesRwl s who off v || ((regDesc off).pair == 2 && changesRwl s who (off - 4) lo) then some 3
  else none

/- ### What a write does -/

/-- Store the RW bits of a register. -/
def storeReg (off : Nat) (v : Word) (s : State) : State := s.setReg off (storedAfter s off v)

/-- A write of LYS_RST (R637): domains already in reset or waiting are left alone; outside P0 and P1 the write is
discarded with 0x0D03 and the condition STATE. -/
def requestResets (mask : Word) (s : State) : State :=
  let want : BitVec 16 := (mask &&& 0xFF1F).setWidth 16
  if want = 0 then s
  else if 2 ≤ s.pstate then raise 0x0D03 [want.toNat, 0x0B] s
  else
    let new := want &&& ~~~s.rst.inReset &&& ~~~s.rst.requested
    s.modRst fun r => { r with requested := r.requested ||| new }

/-- ABANDON (R390): the faulting descriptor ends with XLT_ABORTED and the queue resumes. -/
def abandonQueue (q : Nat) (s : State) : State :=
  let x := s.qu q
  match x.park with
  | none => s
  | some p =>
    match x.desc p.cid with
    | none => resumeQueue q s
    | some d =>
      let o := restartOf s q d
      let s := if d.opc = 5 then dropLoad q d.id d.cid s else s
      resumeQueue q (raise 0x0905 [q, d.cid, o] (endDesc q d.id 0x12 o s))

/-- Writes of the LYS block. -/
def lysWrite (who : Requester) (off : Nat) (lo v : Word) (s : State) : State :=
  match off - 0x1_0000 with
  | 0x00 => if bit v 27 then s.modLys fun l => { l with devfault := false } else s
  | 0x08 => pwrWritten (storeReg off v s)
  | 0x10 => s.modLys fun l => { l with wakest := l.wakest &&& ~~~(v.setWidth 7) }
  | 0x18 => requestResets v s
  | 0x100 => if bit v 31 then ticketOpen who s else s
  | 0x10C => ticketStage who v s
  | 0x124 => if fld v 30 2 = 1 then ticketCommit who lo (fld v 0 16) s else ticketAbort who (fld v 0 16) s
  | 0x200 => mailboxCommand who (fld v 24 8) (fld v 0 24) s
  | _ => storeReg off v s

/-- Writes of the FAB block: FIRE (R162). -/
def fabWrite (off : Nat) (v : Word) (s : State) : State :=
  if inGrp off 0x04 then acceptFire ((off - 0x2_0100) / 0x10) (fld v 30 2) none s else storeReg off v s

/-- CHM_CTRL (R150, R160): SCHED from 0 to 1 arms the schedule, 0 stops it. In a column in lockstep the primary's
register governs (R229). -/
def chmCtrlWrite (c : Nat) (v : Word) (s : State) : State :=
  let r := chmReg c 0x04
  let was := s.regB r 31
  if s.gov c ≠ c then storeReg r v s
  else if bit v 31 then
    let s := storeReg r v s
    if was then s else s.modChm c fun x => { x with schedArmed := true, schedWait := cmdDelay s }
  else storeReg r v ((stopSchedule c 4 s).modChm c fun x => { x with schedArmed := false })

/-- Writes of a chamber's registers (Tables Strata-10 to -16). -/
def chmWrite (off : Nat) (v : Word) (s : State) : State :=
  let c := chmOf off
  match off % 0x100 with
  | 0x04 => chmCtrlWrite c v s
  | 0x08 => acceptCmd c (fld v 30 2) (fld v 0 2) (bit v 2) none s
  | 0x18 =>
    autoInc (chmReg c 0x14) 6 64 (s.modChm c fun x => { x with sched := tabSet 0 x.sched (s.regF (chmReg c 0x14) 0 6) v })
  | _ => storeReg off v s

/-- The request that a write of LIB_RQ names (Tables Library-11 and -12). -/
def libRequest (lo v : Word) : LibReq :=
  { op := fld lo 0 4, chamber := fld lo 11 9, stratum := fld lo 9 2, slot := fld lo 20 12, tag := fld v 16 16,
    cls := if bit v 4 then 2 else 3, notify := bit v 3, force := bit v 2, spillFirst := bit v 1, restore := bit v 0 }

/-- Writes of the GRT block. -/
def grtWrite (off : Nat) (v : Word) (s : State) : State :=
  let o := off - 0x7_0000
  if 0x1000 ≤ o ∧ o < 0x1400 then grtGrpWrite ((o - 0x1000) / 4) v s
  else if 0x2000 ≤ o ∧ o < 0x2010 then grtSegWrite ((o - 0x2000) / 4) v s
  else if o = 0 then (if bit v 30 then s.modGrt fun g => { g with starved := false } else s)
  else if o = 4 then grtCtrlWrite v s
  else storeReg off v s

/-- Writes of the XLT block; `who` matters to no effect of it. -/
def xltWrite (off : Nat) (v : Word) (s : State) : State :=
  match off - 0x9_0000 with
  | 0x04 =>
    let old := s.reg off
    fctrlWritten old v (storeReg off v s)
  | 0x28 => invCommand (fld v 30 2) (fld v 16 8) (fld v 0 16) s
  | 0x30 | 0x34 | 0x38 => serveTags (storeReg off v s)
  | 0x58 => abandonQueue (fld v 0 8) s
  | _ => storeReg off v s

/-- Writes of the GVL block: bundles and network. A node of a peer network announces a new proposed address (R571). -/
def gvlWrite (off : Nat) (v : Word) (s : State) : State :=
  if off < 0xB_8000 then
    let b := (off - 0xB_0000) / 0x1000
    match off % 0x1000 with
    | 0x00 =>
      let old := s.reg off
      ctrlWritten b old v (storeReg off v s)
    | 0x20 => testWritten b v (storeReg off v s)
    | _ => storeReg off v s
  else if off = 0xB_802C then srdataWritten v s
  else if off = 0xB_8004 then
    let old := (ownInfo s).proposed
    let s := storeReg off v s
    if s.netMode = 3 ∧ 0 < s.net.seq ∧ (ownInfo s).proposed ≠ old then announce s else s
  else storeReg off v s

/-- Writes of the ECH block (R670, R672, R682). -/
def echWrite (off : Nat) (v : Word) (s : State) : State :=
  if off = 0xD_0004 then
    (match fld v 30 2 with
    | 1 => rearm s
    | 2 => clearLog s
    | _ => requestCommit false false s)
  else storeReg off v s

/-- PIN_SVCk (R736): a pin put into analogue mode has no valid conversion yet. -/
def svcWrite (off : Nat) (v : Word) (s : State) : State :=
  let k := (off - 0xE_0100) / 4
  let was := svcAnalogue s k
  let s := storeReg off v s
  if svcAnalogue s k && !was then s.modPin fun p => { p with anValid := putBit p.anValid k false } else s

/-- Writes of the PIN block: every write but PIN_LOCK's ends the requester's lock sequence (R749). -/
def pinWrite (who : Requester) (off : Nat) (v : Word) (s : State) : State :=
  let o := off - 0xE_0000
  if o = 0x04 then lockWrite who (BitVec.ofNat 8 (fld v 24 8)) (BitVec.ofNat 5 (fld v 0 5)) s
  else
    let user : BitVec 4 := BitVec.ofNat 4 (fld v 12 4)
    if o = 0x24 then s.modPin fun p => { p with user := p.user ||| user }
    else if o = 0x28 then s.modPin fun p => { p with user := p.user &&& ~~~user }
    else if o = 0x2C then s.modPin fun p => { p with user := p.user ^^^ user }
    else if o = 0x10 then storeReg off (if bit s.pin.locked 4 then v &&& 0x7FFF_FFFF else v) s
    else if 0x100 ≤ o ∧ o < 0x140 then svcWrite off v s
    else if 0x380 ≤ o ∧ o < 0x400 then
      (if bit v 28 then s.modPort ((o - 0x380) / 4) fun d => { d with damaged := false } else s)
    else if 0x1000 ≤ o ∧ pinSlave s ((o - 0x1000) / 4) then s
    else storeReg off v s

/-- A write that is not refused takes effect (R12); `lo` is the _LO half that goes with a _HI register. -/
def performWrite (who : Requester) (off : Nat) (lo v : Word) (s : State) : State :=
  let s := if (regDesc off).pair = 2 then storeReg (off - 4) lo s else s
  if off < 0x1_0000 then s
  else if off < 0x2_0000 then lysWrite who off lo v s
  else if off < 0x4_0000 then fabWrite off v s
  else if off < 0x6_0000 then chmWrite off v s
  else if off < 0x7_0000 then (if off = 0x6_0014 then libAccept (libRequest lo v) s else storeReg off v s)
  else if off < 0x8_0000 then grtWrite off v s
  else if off < 0x9_0000 then
    (if off % 0x100 = 0 then queCtrlWritten (queOf off) v (storeReg off v s) else storeReg off v s)
  else if off < 0xA_0000 then xltWrite off v s
  else if off < 0xB_0000 then storeReg off v s
  else if off < 0xC_0000 then gvlWrite off v s
  else if off < 0xD_0000 then (if off = 0xC_0010 then rejoinCommand s else storeReg off v s)
  else if off < 0xE_0000 then echWrite off v s
  else if off < 0xF_0000 then pinWrite who off v s
  else if off < 0x10_0000 then storeReg off v s
  else kickWrite who ((off - 0x10_0000) / 0x1000) (off % 0x1000) s

/- ### Pairs, staging and twin pairs -/

/-- The _LO register takes part in staging: its pair is RW or WO (R5, R6). -/
def stages (off : Nat) : Bool :=
  (regDesc off).pair == 1 &&
    ((regDesc off).rw != 0 || (regDesc (off + 4)).rw != 0 || off == 0x6_0010 || off == 0x1_0120)

/-- A PIN write ends the requester's lock sequence whether or not it is refused (R749). -/
def pinSequence (who : Requester) (off : Nat) (s : State) : State :=
  if 0xE_0000 ≤ off ∧ off < 0xF_0000 ∧ off ≠ 0xE_0004 then breakLock who s else s

/-- The write of one whole value: refused under R8 with the event of the owning subsystem, or performed. -/
def writeWhole (who : Requester) (off at_ : Nat) (lo v : Word) (s : State) : State :=
  match writeRefusal s (Requester.code who) off lo v with
  | some reason => raiseRefused (eventOwner at_) at_ who reason (pinSequence who off s)
  | none => performWrite who off lo v (pinSequence who off s)

/-- Stage a _LO half (R5, R6). -/
def stageHalf (who off : Nat) (v : Word) (s : State) : State :=
  { s with staged := ⟨who, off, v⟩ :: dropHalf s.staged who off }

/-- The _LO half that a write of the _HI register takes: the staged one, else the register as it stands, which is zero for
a WO pair (R6). -/
def loHalf (who off : Nat) (s : State) : Word × State :=
  match findHalf s.staged who (off - 4) with
  | some v => (v, { s with staged := dropHalf s.staged who (off - 4) })
  | none => (s.reg (off - 4), s)

/-- A 32-bit write at the block that holds the register (R5, R6, R8). -/
def write32 (who : Requester) (off : Nat) (v : Word) (s : State) : State :=
  let w := Requester.code who
  if (regDesc off).pair = 1 then (if stages off then stageHalf w off v s else s)
  else if (regDesc off).pair = 2 then
    let (lo, s) := loHalf w off s
    writeWhole who off off lo v s
  else writeWhole who off off 0 v s

/-- One more discarded access of a requester; the first one's offset is kept (R606, R771). -/
def addDiscard (who off : Nat) (l : List (Nat × Nat × Nat)) : List (Nat × Nat × Nat) :=
  if l.any (fun p => p.1 == who) then l.map fun p => if p.1 = who then (p.1, p.2.1, p.2.2 + 1) else p
  else l ++ [(who, off, 1)]

/-- A write that a shadow discards is counted for 0x0C05 (R606). -/
def discardWrite (who off : Nat) (s : State) : State :=
  s.modTwn fun t => { t with discards := addDiscard who off t.discards }

/-- The fence of a CFG in reset answers the access with ABORT (R39): the LIB block lies in CFG (Table Stack-6). -/
def fenceAborts (s : State) (off : Nat) : Bool := decide (0x6_0000 ≤ off) && decide (off < 0x7_0000) && s.fenced 2

/-- Management accesses of the C die's registers cross boundaries 3 and 2, and stop with a lost group there (R109, log 93). -/
def managementStopped (s : State) (off : Nat) : Bool :=
  decide (0x6_0000 ≤ off) && decide (off < 0x7_0000) && (managementDown s 3 || managementDown s 2)

/-- The access does not reach its register. -/
def accessStopped (s : State) (off : Nat) : Bool := fenceAborts s off || managementStopped s off

/-- Offset 0x000 of a kick page, where byte enables do not matter (R322, log 96). -/
def isKick (off : Nat) : Bool := decide (0x10_0000 ≤ off) && off % 0x1000 == 0

/-- A write of a requester as it arrives: in a pair a shadow discards what the lead stamps, and the lead's takes effect at
its stamped delivery (R601, R606). Byte enables that do not cover the whole register have it refused (R8), at a reserved
offset too (log 96). -/
def writeReg (who : Requester) (off : Nat) (be : BitVec 4) (v : Word) (s : State) : State :=
  if accessStopped s off then s
  else if s.twn.role = 2 ∧ pairBlock off then discardWrite (Requester.code who) off s
  else if be ≠ 0xF ∧ !isKick off then raiseRefused (eventOwner off) off who 1 (pinSequence who off s)
  else if s.twn.role = 1 ∧ pairBlock off then
    sendTwin 16 (leBytes 1 (Requester.code who) ++ leBytes 4 off ++ leBytes 4 v.toNat) s
  else write32 who off v s

/-- Both halves of a pair take effect together; a refusal names the offset of the _LO register (R3, R9, log 44). -/
def writeBoth (off : Nat) (v : BitVec 64) (s : State) : State :=
  if stages off then writeWhole .host (off + 4) off (v.setWidth 32) ((v >>> 32).setWidth 32) s else s

/-- A 64-bit write of a pair (R3, R6): capture and staged half are discarded and both halves take effect together, in a
pair at one stamped delivery. -/
def writePair (off : Nat) (v : BitVec 64) (s : State) : State :=
  if accessStopped s off then s
  else
    let s := { s with captures := dropHalf s.captures 1 (off + 4), staged := dropHalf s.staged 1 off }
    if s.twn.role = 2 ∧ pairBlock off then discardWrite 1 off s
    else if s.twn.role = 1 ∧ pairBlock off then sendTwin 16 (leBytes 1 1 ++ leBytes 4 off ++ leBytes 8 v.toNat) s
    else writeBoth off v s

/-- A 64-bit write of a pair whose byte enables do not cover both registers (R6, R8): capture and staged half are
discarded, and the access is refused whole. -/
def partialPair (off : Nat) (s : State) : State :=
  let s := { s with captures := dropHalf s.captures 1 (off + 4), staged := dropHalf s.staged 1 off }
  if s.twn.role = 2 ∧ pairBlock off then discardWrite 1 off s
  else raiseRefused (eventOwner off) off .host 1 (pinSequence .host off s)

/-- A register reply (Table Lysata-10: 0 OK). -/
def reply (who : Requester) (off : Nat) (v : Word) (s : State) : State := s.send (.reply who off v 0)

/-- A 32-bit read with its reply; status 6 stands for the ABORT of a fence (R39, log 104). -/
def read32 (who : Requester) (off : Nat) (s : State) : State :=
  if accessStopped s off then s.when (!managementStopped s off) fun s => s.send (.reply who off 0 6)
  else
  let (v, s) := readReg (Requester.code who) off s
  reply who off v s

end Sys2Proof.Machine
end

