-- ==== Sys2Proof/Machine/Stack.lean ====
section
/-! DEFINITION. Reset domains and die-boundary fences (01_stack.md; R637) and the reset of HOST (R314, R396, R400, R426,
R437). -/

namespace Sys2Proof.Machine

/- ### Fences -/

/-- The domains on the two sides of a boundary that have a fence there (R36, Table Stack-7). -/
def sidesOf (b : Nat) : BitVec 16 := if b = 0 then 0x3 else if b = 1 then 0x6 else if b = 2 then 0xC else 0x28

/-- Domains of a set with a fence on a boundary. -/
def sideMask (mask : BitVec 16) (b : Nat) : BitVec 16 := mask &&& sidesOf b

/-- The domain at place p of the stack, tier A at 0 to the B die at 4, resets (Tables Stack-6 and -7). -/
def placeResets (mask : BitVec 16) (p : Nat) : Bool := bit mask (if p = 4 then 5 else p)

/-- The boundary on which the fence for a transfer stands, from a surviving requester at place `req` to a completer at
`comp` that resets: that of the resetting domain nearest the surviving end. A fence between two resetting domains completes
nothing (R42), so that of the next one towards the requester does (R41). -/
def fenceFor (mask : BitVec 16) (req comp : Nat) : Nat :=
  if comp < req then
    (((List.range (req - comp)).map (comp + ·)).find? fun b => !placeResets mask (b + 1)).getD (req - 1)
  else
    (((List.range (comp - req)).map (comp - 1 - ·)).find? fun b => !placeResets mask b).getD req

/-- Streams whose request acts on a stratum of a tier: a DROP or SHCLR does not (Table Library-2). -/
def tierStreams (s : State) (t : Nat) : List Nat :=
  (s.busyStreams.filter fun p => p.2.op != 5 && p.2.op != 6 && (reqTargets s p.2).any fun c => tierOf c == t).map (·.1)

/-- Writes that tier t has queued at Grotto's banks: the chamber and stratum of each. -/
def portWrites (s : State) (t : Nat) : List (Nat × Nat) :=
  s.grt.banks.flatMap fun p => (p.2.queue.filter fun a => a.op != 0 && !a.gone && tierOf a.chamber == t).map fun a =>
    (a.chamber, a.stratum)

/-- Column-port transfers of tier t that MEM has not answered or performed. A boundary's flow credits are held as the
transfers that hold them (log 94). -/
def portOpen (s : State) (t : Nat) : Nat :=
  s.fab.chambers.foldl (fun n p => if tierOf p.1 = t then n + p.2.reads.length else n) 0 + (portWrites s t).length

/-- Descriptors in progress whose transfers a reset of these domains cuts short: beats to or from a tier, a load into the
library (R37, R41). -/
def cutDescs (s : State) (f : Nat → Queue → Desc → Bool) : List (Nat × Nat) :=
  s.que.flatMap fun p => (p.2.context.filter fun d => d.started && d.ended.isNone && f p.1 p.2 d).map fun d => (p.1, d.id)

/-- STREAM_IN and STREAM_OUT descriptors in progress whose endpoint lies in tier t. -/
def tierBeats (s : State) (t : Nat) : List (Nat × Nat) :=
  cutDescs s fun _ x d => (d.opc == 2 || d.opc == 3) && ((epChamber s (fld x.setup.ep 0 10)).any fun c => tierOf c == t)

/-- LOAD_IMAGE descriptors with SUBOP 0 in progress. -/
def openLoads (s : State) : List (Nat × Nat) := cutDescs s fun _ _ d => d.opc == 5 && d.sub == 0

/-- The open transfers from surviving requesters to completers that reset, each kind with the places of its two ends and
their number: of the refill engine and of stream descriptors to a tier, of loads to CFG, of column ports to MEM. Those of
the side port begin and end within one command (log 69). -/
def openTransfers (s : State) : List (Nat × Nat × Nat) :=
  (4, 2, (openLoads s).length) :: (List.range 2).flatMap fun t =>
    [(2, t, (tierStreams s t).length), (4, t, (tierBeats s t).length), (t, 3, portOpen s t)]

/-- Transfers from surviving requesters that the closing fence of a boundary aborts (R37, R41, R42). -/
def abortCount (s : State) (mask : BitVec 16) (b : Nat) : Nat :=
  (openTransfers s).foldl (fun n (req, comp, k) =>
    if placeResets mask comp && !placeResets mask req && fenceFor mask req comp == b then n + k else n) 0

/-- A request on a stream is aborted by a fence (R190, R207): a refill after some of its rows (log 15), a frame rewrite
after all of its own, which its start has written. The stratum of a frame rewrite stays loaded (R499), and the device
places the whole rewrite again: it waits for the fence to reopen (Table Integrity-3). -/
def abortRequest (k : Nat) (s : State) : State :=
  match s.stream k with
  | none => s
  | some r =>
    if r.op = 1 then abortRefill k 1 (rowsWritten 80 s) s.fresh
    else if r.op = 7 then
      let s := s.modLib fun l => { l with device := { r with targets := [], was := [] } :: l.device }
      endStream k false 0x09 0 (raise 0x0404 [r.tag, r.chamber, r.stratum, r.rows.length, 1] s)
    else endStream k false 0x09 0 (raise 0x0404 [r.tag, r.chamber, r.stratum, 0, 1] s)

/-- Every read in flight of a chamber's tier connection ends with ABORT (R37, R41). -/
def abortReads (c : Nat) (s : State) : State :=
  let rs := (s.chm c).reads
  if rs = [] then s
  else forEach rs (fun r s => s.send (.portAbort c r.stratum)) (s.modChm c fun ch => { ch with reads := [] })

/-- The reads and the queued writes of a tier's column ports end with ABORT as MEM resets (R37, R38, R41). -/
def abortPorts (t : Nat) (s : State) : State :=
  let writes := portWrites s t
  let s := forEach ((s.fab.chambers.map (·.1)).filter (tierOf · == t)) abortReads s
  forEach writes (fun p s => s.send (.portAbort p.1 p.2)) s

/-- Descriptors end with ABORT and what they have delivered (R37, R41); the slots of a load are EMPTY again (R186). -/
def endCut (l : List (Nat × Nat)) (s : State) : State :=
  forEach l (fun p s => sweepLoads p.1 (match (s.qu p.1).desc p.2 with
    | some d => endDesc p.1 p.2 0x09 d.off s
    | none => s)) s

/-- The transfers that the resets of `mask` cut short end (R37, R38, R40, R207). -/
def abortTransfers (mask : BitVec 16) (s : State) : State :=
  let s := if bit mask 5 then s else endCut (if bit mask 2 then openLoads s else []) s
  let s := if bit mask 5 then s
    else forEach ((List.range 2).filter (bit mask ·)) (fun t s => endCut (tierBeats s t) s) s
  let s := if bit mask 2 then forEach (List.range 16) abortRequest s
    else forEach ((List.range 2).filter (bit mask ·)) (fun t s => forEach (tierStreams s t) abortRequest s) s
  if bit mask 3 then forEach ((List.range 2).filter (!bit mask ·)) abortPorts s else s

/-- The fences of resetting domains close (R36, R37, R43): each one newly closed raises its 0x0202, whose mask holds the
resetting domains with a fence on that boundary; one that is closed already raises no second one for what the later reset
aborts (log 97). Shifts that waited for a closed fence are
applied (R108). -/
def closeFences (mask : BitVec 16) (s : State) : State :=
  let newly := (List.range 4).filter fun b => sideMask mask b != 0 && tabGet 0 s.rst.closedFor b == 0
  let counts := newly.map fun b => (b, min 65535 (abortCount s mask b))
  let s := abortTransfers mask s
  let s := forEach counts (fun (b, n) s => raise 0x0202 [b, (sideMask mask b).toNat, n] (applyShifts b s)) s
  s.modRst fun r => { r with closedFor := (List.range 4).foldl (fun t b =>
    tabMod 0 t b (fun m => m ||| (sideMask mask b).toNat)) r.closedFor }

/- ### Entering reset -/

/-- The captures and staged halves of the registers of a block are discarded (R6). -/
def dropHalves (lo hi : Nat) (s : State) : State :=
  let keep (h : Half) : Bool := !(decide (lo ≤ h.off) && decide (h.off < hi))
  { s with captures := s.captures.filter keep, staged := s.staged.filter keep }

/-- One chamber of a tier that enters reset (R32, R33, R37, R144) after the cycle whose state and nets are `b` and `v`:
flip-flops of every stratum are cleared, the strata stay resident, parked responses and a waiting command are gone. -/
def tierEnterOne (b : State) (v : Nets) (c : Nat) (s : State) : State :=
  let s := leaveRun b v c s
  let s := forEach (List.range 4) (discardParked c) s
  let s := match (s.chm c).cmd with
    | some d => endIssuer d.desc 0x09 0 s
    | none => s
  s.modChm c fun ch =>
    { ch with selAtReset := ch.sel, shared := 0, reads := [], turn := 0, schedArmed := false, cmd := none, holdDue := 0,
              entering := 0,
              strata := ch.strata.foldl (fun t (p : Nat × Stratum) => tabSet ({} : Stratum) t p.1
                { p.2 with ffs := 0 }) ch.strata }

/-- The responses to what a tier had asked of Grotto are discarded at the fence, its whole writes are finished (R40). -/
def disownReads (ts : List Nat) (s : State) : State :=
  s.modGrt fun g => { g with banks := g.banks.foldl (fun t (p : Nat × Bank) => tabSet ({} : Bank) t p.1
    { p.2 with queue := p.2.queue.map fun a => if ts.contains (tierOf a.chamber) then { a with gone := true } else a }) g.banks }

/-- FABA (0) or FABB (1) or both enter reset: comparing columns take the verdict naming the tier first (R238), keepers
take the levels of the last cycle (R33, R93). -/
def tiersEnter (ts : List Nat) (s : State) : State :=
  let s := forEach ts (fun t s => forEach (List.range 256) (fun n s => lockNoDiag n 0 t 2 s) s) s
  let v := s.nets
  let t := forEach ts (fun t u => forEach (List.range 256) (fun n u => tierEnterOne s v (256 * t + n) u) u)
    (settleKeepers v s)
  disownReads ts t

/-- CFG enters reset (R31, R208, R494, R6): the FIFO is discarded, its descriptors end with ABORT (R41); slots in WRITING
become EMPTY; what waits in the engine is gone, but for frame rewrites, with LIB_DONE, LIB_SIDX and the checker's own state. Library slots and
shadows stay (Table Stack-6). -/
def cfgEnter (s : State) : State :=
  let gone := s.lib.fifo
  let own := s.lib.loader ++ s.lib.device.filter (·.op != 7)
  let s := forEach gone (fun r s => endIssuer r.desc 0x09 0 s)
    (s.modLib fun l => { l with fifo := [], loader := [], device := l.device.filter (·.op == 7), done := {} })
  let s := if gone = [] then s else raise 0x040A [gone.length] s
  let s := s.modLib fun l => { l with slots := l.slots.foldl (fun t (p : Nat × Slot) => tabSet ({} : Slot) t p.1
    (if p.2.st = 1 then { p.2 with st := 0, rel := false, lsi := false, home := 0, pers := 0, loadBy := none } else p.2)) l.slots }
  let s := s.modInteg fun i => { running := i.running }
  let s := (s.modCfg fun c => { c with bcast := none }).modFab fun f =>
    { f with chambers := f.chambers.foldl (fun t (p : Nat × Chamber) => tabSet ({} : Chamber) t p.1
    { p.2 with strata := p.2.strata.foldl (fun u (q : Nat × Stratum) => tabSet ({} : Stratum) u q.1
      { q.2 with failMask := if q.2.rewriting then q.2.failMask else [], liveLap := none }) p.2.strata }) f.chambers }
  let s := forEach own (fun r s => afterDevice r false s) s
  dropHalves 0x6_0000 0x7_0000 (s.setReg 0x6_0020 (regReset 0x6_0020))

/-- FIO enters reset: every fabric I/O ball is high-impedance, the D-PHY receivers hold nothing, and the PIN registers keep
their values (R31, R725). -/
def fioEnter (s : State) : State :=
  s.modPin fun p => { p with outv := 0, oe := 0,
                             ports := p.ports.foldl (fun t x => tabSet {} t x.1 { x.2 with buffer := [] }) p.ports }

/-- LANEb resets on Lysata's request (R546): an enabled bundle begins training again, one in UP leaves it (log 33). -/
def laneEnter (b : Nat) (s : State) : State :=
  let st := (s.bun b).st
  if st = 6 then leaveUp b 7 s
  else if st = 0 ∨ st = 9 then laneReset b s
  else enterDetect b s

/-- No descriptor waits any longer for what it has passed to other blocks (R314); a slot that a load of theirs was writing is
EMPTY (R186). -/
def disownDescs (s : State) : State :=
  let free (r : LibReq) : LibReq := { r with desc := none }
  let left (x : Slot) : Slot :=
    if x.loadBy.any fun l => decide (l.1 < 256) then
      (if x.st = 1 then { x with st := 0, rel := false, lsi := false, home := 0, pers := 0, loadBy := none }
      else { x with loadBy := none })
    else x
  let s := s.modLib fun l =>
    { l with fifo := l.fifo.map free, streams := l.streams.map (fun p => (p.1, p.2.map free)),
             slots := l.slots.foldl (fun t (p : Nat × Slot) => tabSet ({} : Slot) t p.1 (left p.2)) l.slots }
  s.modFab fun f =>
    { f with groups := f.groups.foldl (fun t (p : Nat × SwGroup) => tabSet ({} : SwGroup) t p.1
               { p.2 with fire := p.2.fire.map (fun x => (x.1, none)) }) f.groups,
             chambers := f.chambers.foldl (fun t (p : Nat × Chamber) => tabSet ({} : Chamber) t p.1
               { p.2 with cmd := p.2.cmd.map (fun d => { d with desc := none }) }) f.chambers }

/-- What stays of the HOST domain's registers: XLT_ASn, held in AON (R396), and CRY_LINKb_CFG, which a new session after
the reset needs (R426, log 34). -/
def hostRegs (l : List (Nat × Word)) : List (Nat × Word) :=
  l.filter fun p => !((decide (0x8_0000 ≤ p.1) && decide (p.1 < 0x9_1000)) || p.1 == 0xA_0004)

/-- What HOST's reset does to its state (R6, R314, R396, R400, R426): queues DISABLED, no completion for what they had
fetched, translations, walks, tags and fault records gone, the key table without keys (rights and the record stay, R408),
link sessions ended and their counters at 0 (SESSIONS counts on, Table Crypto-13), and no write of a queue left to send. What queues
have passed to other blocks goes on, but no descriptor of theirs is left to end. Counts of the tick stay (R771). -/
def hostEnter (s : State) : State :=
  let left := s.que.foldl (fun t p => tabSet ({} : Queue) t p.1 p.2.kept) []
  let s := disownDescs { s with regs := hostRegs s.regs, que := left, arb := [], xlt := { peTick := s.xlt.peTick }, pci := { subsystem := s.pci.subsystem } }
  let s := dropHalves 0x8_0000 0x9_1000 (dropHalves 0xA_0000 0xB_0000 (dropHalves 0x10_0000 0x20_0000 s))
  let s := (s.modNet fun n => { n with remotes := [] }).modGrt fun g => { g with barWait := [] }
  let s := s.modTwn fun t => { t with held := [] }
  let s := s.modCry fun c =>
    { c with loaded := false, authf := {}, xtsBp := false, gcmBp := false, heldTick := [],
             sessions := c.sessions.foldl (fun t (p : Nat × Session) => tabSet ({} : Session) t p.1
               { enabled := p.2.enabled, index := p.2.index, heard := p.2.heard }) c.sessions,
             keys := c.keys.foldl (fun t (p : Nat × KeyEntry) => tabSet ({} : KeyEntry) t p.1
               { p.2 with st := 0, kcv := 0, key := [], dbl := false }) c.keys }
  let s := if s.pin.dbgOp.isSome then dbgFinish 3 0 s else s
  s.modCfg fun c => { c with hostUp := false, keyLoad := true }

/-- The domains of a set enter reset together (R36, R42, R637). -/
def startResets (mask : BitVec 16) (s : State) : State :=
  let mask := mask &&& ~~~s.rst.inReset
  let s := closeFences mask s
  let s := if mask &&& 3 = 0 then s else tiersEnter ((List.range 2).filter (bit mask ·)) s
  let s := s.modRst fun r => { r with inReset := r.inReset ||| mask, released := r.released &&& ~~~mask }
  let s := if mask &&& 3 = 0 then s else watchShafts s
  let s := if bit mask 2 then cfgEnter s else s
  let s := if bit mask 3 then memReset s else s
  let s := if bit mask 4 then fioEnter s else s
  let s := if bit mask 5 then hostEnter s else s
  forEach ((List.range 8).filter fun b => bit mask (8 + b)) laneEnter s

/-- A reset of HOST begins (Table Stack-6): its fence closes first (R36). One that comes in reset has the key table
loaded again (R400). -/
def startHostReset (s : State) : State :=
  if s.inReset 5 then s.modCfg fun c => { c with keyLoad := true } else startResets 0x20 s

/-- The deterministic domains FABA, FABB, CFG and MEM (Table Twin-5). -/
def detDomains : BitVec 16 := 0xF

/- ### Release -/

/-- One chamber of a tier that leaves reset (R171, R175): it is HELD, its schedule has its reset state (Table Stack-6). A
chamber that has not been released stays as it is. -/
def tierLeaveOne (c : Nat) (s : State) : State :=
  let ch := s.chm c
  if !ch.released then s
  else
    let s := if s.gov c = c then stopSchedule c 5 s else s
    let s := s.setRegF (chmReg c 0x04) 31 1 0
    let ok := (ch.strat ch.selAtReset).loaded
    let s := s.modChm c fun ch =>
      { ch with hsrc := 4, pend := some ch.selAtReset, sel := ch.selAtReset, schedArmed := false, schedRun := false,
                sched := [], entry := 0, remain := 0, nextEntry := 0, fenceBad := false,
                fence := if ok then fenceOf (ch.strat ch.selAtReset).words else fenceZero }
    raise 0x0304 [c, 4] s

/-- CFG leaves reset: the lanes begin new laps at chamber 0 and slot 0 (R494). Reference counts follow the strata
themselves (R208). -/
def cfgLeave (s : State) : State :=
  s.modInteg fun x => { x with resPos := 0, libPos := 0, dropStratum := false, slotFail := [] }

/-- MEM leaves reset: the bank controllers take up the modes and port clocks that the registers hold (R305). -/
def memLeave (s : State) : State :=
  let s := forEach (List.range 256) (fun n s =>
    let clk := s.regF (grpModeReg n) 24 5
    if (s.col n).pclkUse = clk then s else s.modCol n fun x => { x with pclkUse := clk }) s
  let held := ((List.range 256).filter fun n => s.regF (grpModeReg n) 0 16 != 0).flatMap fun n => (List.range 8).map (8 * n + ·)
  forEach (s.grt.banks.map (·.1) ++ held) (fun i s =>
    if (s.bank i).state ≤ 1 then s.modBank i fun b => { b with state := restState s i } else s) s

/-- The domains of a set leave reset (R31, R171, R208, R305). -/
def releaseDomains (mask : BitVec 16) (s : State) : State :=
  let s := s.modRst fun r => { r with inReset := r.inReset &&& ~~~mask, released := r.released ||| mask }
  let s := forEach ((List.range 2).filter (bit mask ·)) (fun t s =>
    forEach (List.range 256) (fun n s => tierLeaveOne (256 * t + n) s) s) s
  let s := if bit mask 3 then memLeave s else s
  if bit mask 2 then cfgLeave s else s

/-- Domains that keep a boundary's fence closed. -/
def closersOf (s : State) (b : Nat) : BitVec 16 := BitVec.ofNat 16 (tabGet 0 s.rst.closedFor b)

/-- A fence reopens with full credits once every domain that closed it has been released (R43, R44). -/
def reopenFence (b : Nat) (s : State) : State :=
  let m := closersOf s b
  if m = 0 ∨ (m &&& s.rst.inReset) ≠ 0 then s
  else raise 0x0203 [b, m.toNat] (s.modRst fun r => { r with closedFor := tabSet 0 r.closedFor b 0 })

/- ### HOST -/

/-- HOST is released (R35, R400, R437): once its key table is loaded and the fundamental reset is deasserted, unless P5
keeps it in reset. Encrypted directions of bundles in UP ask for new sessions (R426). -/
def tryHostRelease (s : State) : State :=
  if s.cfg.keyLoad || !s.cfg.perst || s.pstate == 5 || s.cfg.hostUp || s.cfg.stage < 4 || s.cfg.stage == 13 then s
  else
    let s := s.modCfg fun c => { c with hostUp := true }
    let s := s.modRst fun r => { r with inReset := r.inReset &&& ~~~0x20, released := r.released ||| 0x20 }
    forEach (List.range 8) (fun b s => if s.bunUp b then startSession b true (startSession b false s) else s) s

/- ### Commands -/

/-- A reset of domains is asked for by a write of LYS_RST (R637). -/
def execDomainResetRequest (who : Requester) (mask : Word) (s : State) : Host.Outcome State Fault Refusal :=
  done (writeReg who 0x1_0018 0xF mask s)

/-- The tick boundary after a request (R637): fences close and the domains enter reset, unless the management cores restart
(R630). In a pair the lead stamps the
resets of deterministic domains and the shadow takes no such action of its own (R606, Table Twin-5). -/
def execDomainResetStart (s : State) : Host.Outcome State Fault Refusal :=
  let m := s.rst.requested
  if m = 0 ∨ s.lys.restarting then done s
  else
    let s := s.modRst fun r => { r with requested := 0 }
    if s.twn.role = 1 then
      let det := m &&& detDomains
      let s := if det = 0 then s else sendTwin 20 (leBytes 2 det.toNat) s
      done (startResets (m &&& ~~~detDomains) s)
    else if s.twn.role = 2 then done (startResets (m &&& ~~~detDomains) s)
    else done (startResets m s)

/-- A closed fence has not completed its aborts within the bound of R37 (R45). -/
def execFenceBoundMissed (boundary : Fin 4) (open_ : BitVec 16) (s : State) : Host.Outcome State Fault Refusal :=
  let m := closersOf s boundary
  if m = 0 then done s
  else done (deviceFault 0x0204 (raise 0x0204 [boundary, m.toNat, open_.toNat] s))

/-- A new request towards the resetting side of a closed fence is answered with ABORT (R39, R41). -/
def execFenceAbortNewRequest (boundary : Fin 4) (chamber : ChamberId) (stratum : StratumId) (s : State) :
    Host.Outcome State Fault Refusal :=
  if closersOf s boundary = 0 then done s else done (s.send (.portAbort chamber stratum))

/-- The domains requested by LYS_RST leave reset; 0x0D11 once they report ready (R637). `micros` is the time they were
held. -/
def execDomainResetRelease (micros : BitVec 8) (s : State) : Host.Outcome State Fault Refusal :=
  let m := s.rst.inReset &&& ~~~0x20
  if m = 0 then done s
  else done (raise 0x0D11 [m.toNat, micros.toNat] (releaseDomains m s))

/-- A fence reopens (R43, R44). -/
def execFenceReopen (boundary : Fin 4) (s : State) : Host.Outcome State Fault Refusal := done (reopenFence boundary s)

/-- PCI Express resets HOST (Table Stack-6): the fundamental reset is then asserted, the other sources end by
themselves. -/
def execHostReset (source : HostResetSource) (s : State) : Host.Outcome State Fault Refusal :=
  let s := if source = .fundamental then s.modCfg fun c => { c with perst := false } else s
  done (startHostReset s)

/-- The fundamental reset is deasserted (R437). -/
def execFundamentalResetDeasserted (s : State) : Host.Outcome State Fault Refusal :=
  done (tryHostRelease (s.modCfg fun c => { c with perst := true }))

/-- A core rail is lost: every output driver is disabled (R760). -/
def execRailLoss (_rail : Fin 7) (s : State) : Host.Outcome State Fault Refusal :=
  done (s.modLys fun l => { l with driversOff := true })

end Sys2Proof.Machine
end

