-- ==== Sys2Proof/Machine/Container.lean ====
section
/-! DEFINITION. Spaub containers: the checks of Table Loading-11 (R444 to R460), staging into slots (R186, R188, R485) and
loads from the host (R477 to R480, R585). -/

namespace Sys2Proof.Machine

/- ### Header, section table and signature block -/

/-- NETMODE permits the sampled start (Table Loading-5). -/
def netmodeOk (s : State) (c : Container) : Bool :=
  bit c.netmode (if s.netMode = 0 then 0 else if s.netMode = 3 then 2 else 1) && (!s.twinStart || bit c.netmode 3)

/-- The signing key slot passes (R453): its digest is the one of the keys, programmed and not revoked. -/
def keyslotOk (s : State) (c : Container) : Bool :=
  c.keyMatch && decide (c.keyslot < 4) && bit s.cfg.programmed c.keyslot && !bit s.cfg.revoked c.keyslot

/-- Reasons of Table Loading-11 that concern the whole container, in its order. `host`: a load from the host, whose length
must be `len` and whose NETMODE is not looked at (R477). -/
def headerReason (s : State) (kind : Nat) (host : Bool) (len : Nat) (c : Container) : Option Nat :=
  let checks : List (Nat × Bool) := [
    (0x02, !c.magicOk), (0x03, !c.hcrcOk), (0x04, c.devid != devRead 0), (0x05, c.stack.toNat != fld (devRead 4) 8 8),
    (0x06, c.kind.toNat != kind),
    (0x07, !c.lengthOk || (if host then c.totlen != len else decide (len < c.totlen))),
    (0x08, decide (c.present < c.totlen)), (0x09, !host && !netmodeOk s c), (0x0A, !keyslotOk s c),
    (0x0B, !c.edOk), (0x0C, !c.mlOk), (0x0D, decide (c.svn.toNat < s.cfg.svn))]
  ((checks.filter (·.2)).map (·.1)).head?

/- ### Sections -/

/-- A section's type belongs to the container's KIND (Table Loading-7). -/
def typeKnown (kind : Nat) : SectionBody → Bool
  | .manifest _ | .pad => true
  | .fwcode => kind == 1
  | .keyrec _ => kind == 3
  | .chimage _ | .resident _ | .reginit _ => kind == 2
  | .other _ => false

/-- The CHIMAGE sections of a container by their relative slot. -/
def imagesOf (c : Container) : List (Nat × ChamberImage) :=
  c.sections.filterMap fun x => match x.body with
    | .chimage im => some (x.arg, im)
    | _ => none

/-- The REGINIT records of a container. -/
def recordsOf (c : Container) : List (Nat × Word) :=
  c.sections.flatMap fun x => match x.body with
    | .reginit l => l
    | _ => []

/-- The RESIDENT fields of a container, 512 entries of four (R448); empty when it has none. -/
def fieldsOf (c : Container) : List (BitVec 16) :=
  c.sections.flatMap fun x => match x.body with
    | .resident l => l
    | _ => []

/-- The container's REGINIT makes column n a lockstep column: its last record for CHM_SAFE of chamber n sets LOCKSTEP. -/
def locksColumn (c : Container) (n : Nat) : Bool :=
  match ((recordsOf c).filter fun r => r.1 == chmReg n 0x48).getLast? with
  | some r => bit r.2 0
  | none => false

/-- The field of stratum k of chamber c. -/
def residentField (f : List (BitVec 16)) (c k : Nat) : BitVec 16 := f.getD (4 * c + k) 0

/-- R449: RESIDENT is broken. -/
def residentBad (c : Container) (f : List (BitVec 16)) : Bool :=
  let imgs := imagesOf c
  (List.range 512).any fun ch =>
    let e := (List.range 4).map (residentField f ch)
    let lock := locksColumn c (colOf ch)
    decide (1 < e.countP fun x => bit x 14) ||
      (lock && decide (ch < 256) && e != (List.range 4).map (residentField f (ch + 256))) ||
      e.any fun x => bit x 15 && match imgs.find? fun p => p.1 == fld x 0 12 with
        | none => true
        | some (_, im) => (!im.rel && im.home.toNat != ch) || (lock && !im.lsi)

/-- CHM_SAFE of some chamber. -/
def isSafe (off : Nat) : Bool := inChm off 0x48

/-- The register is one that a write of the loader may name (R451): RW, or CHM_SAFE. CHM_SDATA and GVL_NET_SRDATA are RW
and store into tables of their own. -/
def isRw (off : Nat) : Bool := (regDesc off).rw != 0 || inChm off 0x18 || off == 0xB_802C || isSafe off

/-- The offset lies in FAB, CHM, GRT, GVL or PIN (R451). -/
def reginitBlock (off : Nat) : Bool :=
  (decide (0x2_0000 ≤ off) && decide (off < 0x6_0000)) || (decide (0x7_0000 ≤ off) && decide (off < 0x8_0000)) ||
    (decide (0xB_0000 ≤ off) && decide (off < 0xC_0000)) || (decide (0xE_0000 ≤ off) && decide (off < 0xF_0000))

/-- CHM_SAFE of column n as the loader or a commit stores it. -/
def storeSafe (n : Nat) (v : Word) (s : State) : State := s.setReg (chmReg n 0x48) (v &&& 0x7)

/-- One REGINIT record takes effect (R452); LOCKSTEP set before fabric release makes the column one that compares (R245). -/
def applyRecord (r : Nat × Word) (s : State) : State :=
  if isSafe r.1 then
    (if chmOf r.1 < 256 then
      (storeSafe (chmOf r.1) r.2 s).modCol (chmOf r.1) fun x => { x with lock := if bit r.2 0 then .comparing else .off }
    else s)
  else performWrite .lysata r.1 0 r.2 s

/-- R451 for every record, each judged with those before it in place. -/
def reginitOk : List (Nat × Word) → State → Bool
  | [], _ => true
  | r :: l, s => decide (r.1 % 4 = 0) && reginitBlock r.1 && isRw r.1 && !badFields s r.1 0 r.2 && !badByRule s r.1 0 r.2 &&
      reginitOk l (applyRecord r s)

/-- Loads beside those of descriptors, in Slot.loadBy: the loader's own, and a broadcast's (R186). -/
def loaderLoad : Nat × Nat := (256, 0)
/-- A load by configuration broadcast. -/
def bcastLoad : Nat × Nat := (257, 0)

/-- R187 refuses the load `who` into the slot, or it lies beyond the last one (reason SLOT). A slot that the load itself
writes already is no reason. -/
def slotRefused (s : State) (who : Option (Nat × Nat)) (i : Nat) : Bool :=
  let mine := who.isSome && (s.slot i).loadBy == who
  decide (0xC00 ≤ i) || (!mine && (decide (((s.slot i).st = 1 ∨ (s.slot i).st = 4) ∨ s.refs i ≠ 0) ||
    decide (16 ≤ s.lib.slots.countP fun p => p.2.st == 1)))

/-- The section does not agree with itself, or is one too many (reason SECTION: R445, R447, counts of Table Loading-7).
`i` is its index. -/
def sectionBroken (c : Container) (host : Bool) (i : Nat) (x : ContSection) : Bool :=
  let before (p : SectionBody → Bool) : Bool := (c.sections.take i).any fun y => p y.body
  let first := !host && i == 0 && match x.body with
    | .manifest _ => x.deflate
    | _ => true
  first || match x.body with
    | .manifest _ => !host && (decide (0 < i) || !x.sizeOk)
    | .chimage im => !x.sizeOk || im.slot.toNat != x.arg || im.pers.toNat != persOf im.words ||
        im.lsi != (chw im.words 1083 1 == 1) || before fun b => match b with
          | .chimage o => o.slot == im.slot
          | _ => false
    | .resident _ => !host && (!x.sizeOk || before fun b => match b with | .resident _ => true | _ => false)
    | .reginit _ => !host && (!x.sizeOk || before fun b => match b with | .reginit _ => true | _ => false)
    | .keyrec l => !x.sizeOk || decide (64 < l.length)
    | .fwcode => !x.sizeOk
    | .pad => false
    | .other _ => false

/-- The first reason of Table Loading-11 for which section i fails. A type that is not the container's is skipped when
CRITICAL = 0, after its digest; RESIDENT and REGINIT are skipped in a load from the host (R445, R477). -/
def sectionReason (s : State) (c : Container) (host : Bool) (i : Nat) (x : ContSection) : Option Nat :=
  let known := typeKnown c.kind.toNat x.body
  let skip := !known || (host && match x.body with | .resident _ | .reginit _ => true | _ => false)
  let checks : List (Nat × Bool) := [
    (0x07, !skip && !x.zeroOk),
    (0x0E, !x.digestOk),
    (0x0F, !skip && !x.decompressOk),
    (0x10, if known then !skip && sectionBroken c host i x else x.critical || (!host && i == 0)),
    (0x11, !skip && match x.body with | .resident f => residentBad c f | _ => false),
    (0x12, !skip && match x.body with | .reginit l => !reginitOk l s | _ => false),
    (0x13, !skip && !host && match x.body with | .chimage _ => slotRefused s (some loaderLoad) x.arg | _ => false)]
  ((checks.filter (·.2)).map (·.1)).head?

/-- The smaller of two failures: by reason, then by section (R459). -/
def worse (a b : Nat × Nat) : Nat × Nat := if a.1 < b.1 ∨ (a.1 = b.1 ∧ a.2 ≤ b.2) then a else b

/-- The failing section with the first reason of the table. -/
def sectionsFail (s : State) (c : Container) (host : Bool) : Option (Nat × Nat) :=
  let l := (withPos c.sections).filterMap fun (i, x) => (sectionReason s c host i x).map fun r => (r, i)
  match l with
  | [] => none
  | f :: r => some (r.foldl worse f)

/- ### Staging -/

/-- An image has passed and becomes the slot's (R186, R188, R485); `by_` is the load of a descriptor. -/
def stageImage (i : Nat) (by_ : Option (Nat × Nat)) (im : ChamberImage) (s : State) : State :=
  let g := goldenOf im.words
  s.modSlot i fun x => { x with st := 2, rel := im.rel, lsi := im.lsi, home := if im.rel then 0 else im.home.toNat % 512,
                                pers := im.pers.toNat, image := im.words, golden := g.1, imgSig := g.2, lost := false, goldBad := false,
                                loadBy := by_ }

/-- A rejection is recorded (R459); sources 0 flash A, 1 flash B, 2 broadcast, 3 host. -/
def recordReject (source : Nat) (c : Container) (reason sect : Nat) (s : State) : State :=
  let k := c.kind.toNat
  let w : Word := mkFld 24 8 reason ||| mkFld 22 2 source ||| mkFld 20 2 k ||| mkFld 0 16 sect
  raise 0x0503 [k, source, c.imageid.toNat, reason, sect] (s.modCfg fun x => { x with lastrej := w })

/- ### Loads from the host -/

/-- Where section data begin (R444). -/
def dataStart (c : Container) : Nat := c.dataStart

/-- Why the load `who` into slots from `base` on is rejected: header first, then every target slot (R478), then the sections
(log 35). -/
def hostReject (s : State) (who : Nat × Nat) (len base : Nat) (c : Container) : Option (Nat × Nat) :=
  match headerReason s 2 true len c with
  | some r => some (r, 0xFFFF)
  | none =>
    let bad := (withPos c.sections).find? fun (_, x) => match x.body with
      | .chimage _ => slotRefused s (some who) (base + x.arg)
      | _ => false
    match bad with
    | some (i, _) => some (0x13, i)
    | none => sectionsFail s c true

/-- A slot is written into: WRITING, with nothing left of what it held (R186, R188). -/
def beginSlot (i : Nat) (who : Nat × Nat) (s : State) : State :=
  s.modSlot i fun y => { y with st := 1, rel := false, lsi := false, home := 0, pers := 0, loadBy := some who }

/-- A slot whose image has failed a check is EMPTY (R186). -/
def emptySlot (i : Nat) (s : State) : State :=
  s.modSlot i fun y => { y with st := 0, rel := false, lsi := false, home := 0, pers := 0, loadBy := none }

/-- Container bytes from `lo` to `hi` have been read for the load `who`: a section that has begun has its slot in WRITING,
one that has ended has it READY when it passes and EMPTY when it fails; nothing is staged from section `stop` on (R186, R479,
chapter 09). A slot that R187 has come to refuse
meanwhile stops the load there (log 35): the section is given. -/
def stageUpTo (who : Nat × Nat) (host : Bool) (base lo hi stop : Nat) (c : Container) (s : State) : State × Option Nat :=
  (withPos c.sections).foldl (fun (acc : State × Option Nat) (p : Nat × ContSection) =>
    let (s, bad) := acc
    match p.2.body with
    | .chimage im =>
      let k := base + p.2.arg
      if bad.isSome ∨ stop ≤ p.1 ∨ hi ≤ p.2.offset ∨ p.2.offset + p.2.slen ≤ lo then (s, bad)
      else if slotRefused s (some who) k then (s, some p.1)
      else if hi < p.2.offset + p.2.slen then (beginSlot k who s, none)
      else if (sectionReason s c host p.1 p.2).isSome then (emptySlot k (beginSlot k who s), none)
      else (stageImage k (some who) im s, none)
    | _ => (s, bad)) (s, none)

/-- A load has ended with success: its slots are nobody's any more. -/
def freeLoad (who : Nat × Nat) (s : State) : State :=
  s.modLib fun l => { l with slots := l.slots.foldl (fun t (p : Nat × Slot) => tabSet ({} : Slot) t p.1
    (if p.2.loadBy = some who then { p.2 with loadBy := none } else p.2)) l.slots }

/-- The byte up to which a container must have been read for its rejection to be known. -/
def rejectAt (c : Container) (f : Nat × Nat) : Nat :=
  match c.sections[f.2]? with
  | some x => if f.1 = 0x13 then dataStart c else x.offset + x.slen
  | none => dataStart c

/-- The section from which on nothing is staged: the one behind the failing one, or the first when the header or a target slot
fails (R478, R479). -/
def stageStop (fail : Option (Nat × Nat)) : Nat :=
  match fail with
  | none => 0xFFFF
  | some f => if f.1 = 0x13 ∨ f.2 = 0xFFFF then 0 else f.2 + 1

/-- The load is rejected: its descriptor ends with IMAGE_REJECTED, its slots are given up (R459, R479, R480). -/
def rejectLoad (q id : Nat) (d : Desc) (c : Container) (f : Nat × Nat) (s : State) : State :=
  dropLoad q id d.cid (recordReject 3 c f.1 f.2 (endDesc q id 0x0B (f.1 + 65536 * f.2) s))

/-- The load of descriptor id goes on granule by granule, while its pages translate, its data have come and the way to the
library is open (R39, R109, R310, R312, R313, R321, R338, R344, R370, R376, R379, R410, R477 to R480): the reads are those of any
transfer, each with its tag. `used` are the bytes of its queue's turn. -/
def readImage (q id : Nat) (c : Container) (fail : Option (Nat × Nat)) (env : DescEnv) (used : Nat) : Nat → State → State
  | 0, s => s
  | fuel + 1, s =>
    match (s.qu q).desc id with
    | none => s
    | some d =>
      let x := s.qu q
      if d.ended.isSome ∨ d.stopped then s
      else if d.len ≤ d.off then freeLoad (q, id) (endDesc q id 0 d.len s)
      else if s.fenced 2 then sweepLoads q (endDesc q id 0x09 d.off s)
      else if loadPathDown s then s
      else if 4096 ≤ used ∧ contested s q then modDesc q id (fun d => { d with yielded := true }) s
      else
        let hi := granuleEnd x d d.off d.len
        let n := hi - d.off
        match translateParts q id 2 false (d.src + d.off) n s with
        | (none, some (k, lev, at_), s) => takeFault q 2 id k lev at_ s
        | (none, none, s) => s
        | (some parts, _, s) =>
          let (here, s) := hostReady q id d.off n parts (some env) s
          if !here then s
          else
            let s := (modDesc q id (fun d => { d with off := hi, hbuf := d.hbuf.drop n }) s).modQu q fun x =>
              { x with bytes := x.bytes.add n }
            let (s, bad) := if dataStart c ≤ hi then stageUpTo (q, id) true d.aux d.off hi (stageStop fail) c s else (s, none)
            match bad, fail with
            | some i, _ => rejectLoad q id d c (0x13, i) s
            | none, some f =>
              if min d.len (rejectAt c f) ≤ hi then rejectLoad q id d c f s
              else readImage q id c fail env (used + n) fuel s
            | none, none => readImage q id c fail env (used + n) fuel s

/-- A load by configuration broadcast is rejected (R479, R585): 0x0B14 with the first slot and the reason. -/
def rejectBcast (base : Nat) (c : Container) (f : Nat × Nat) (s : State) : State :=
  let s := (dropLoad 257 0 0xFFFF s).modCfg fun x => { x with bcast := none }
  raise 0x0B14 [base, f.1] (recordReject 2 c f.1 f.2 s)

/-- A load by configuration broadcast into slots from `base` on, of which `hi` bytes have come (R477 to R479, R585). -/
def broadcastLoad (base hi : Nat) (c : Container) (s : State) : State :=
  let lo := match s.cfg.bcast with
    | some (b, n) => if b = base then n else 0
    | none => 0
  let fail := if dataStart c ≤ lo then sectionsFail s c true else hostReject s bcastLoad c.totlen base c
  if hi < dataStart c ∨ loadPathDown s then s
  else
    let (s, bad) := stageUpTo bcastLoad true base lo hi (stageStop fail) c (s.modCfg fun x => { x with bcast := some (base, hi) })
    match bad, fail with
    | some i, _ => rejectBcast base c (0x13, i) s
    | none, some f => if min c.totlen (rejectAt c f) ≤ hi then rejectBcast base c f s else s
    | none, none =>
      if hi < c.totlen then s
      else raise 0x0B14 [base, 0] ((freeLoad bcastLoad s).modCfg fun x => { x with bcast := none })

/-- LOAD_IMAGE with SUBOP 0 starts, or goes on after a translation or a resumption. A load that goes on has its checks made
when it began: its own slots are no reason against it. A manager broadcasts what it loads (R585). -/
def loadImage (q : Nat) (c : Container) (env : DescEnv) (s : State) : State :=
  let s := takeUpsets q env s
  let run (id : Nat) (s : State) : State :=
    match (s.qu q).desc id with
    | none => s
    | some d =>
      let fail := if dataStart c ≤ d.off then (sectionsFail s c true) else hostReject s (q, id) d.len d.aux c
      readImage q id c fail env 0 (granuleFuel d) (modDesc q id (fun d => { d with yielded := false, wantTag := false }) s)
  let started := (s.qu q).context.any fun d => d.started && d.ended.isNone && !d.stopped && d.opc == 5 && d.sub == 0
  match goOn q 5 s with
  | (s, none) => s
  | (s, some id) =>
    run id (if !started ∧ s.netMode = 1 ∧ s.regB 0xB_8004 30 then s.send (.cfgb false 0 c.totlen) else s)

/-- LOAD_IMAGE with SUBOP 0 (R338, R477 to R480). -/
def execDescLoadImage (q : QueueId) (image : Container) (env : DescEnv) (s : State) : Host.Outcome State Fault Refusal :=
  done (loadImage q image env s)

end Sys2Proof.Machine
end

