-- ==== Sys2Proof/Machine/Loading.lean ====
section
/-! DEFINITION. The loader (11_loading.md): choosing a set, the start-up sequence of Table Loading-2, the key table load
(R400 to R408), RELOAD. The sequence goes on by itself until it has to wait: for a rail (step 3), for bytes that a listener
or worker has not captured, for the end of the fill (step 4), for the refills of step 7, for the CFG_DONE line (step 8). -/

namespace Sys2Proof.Machine

/- ### Choosing a set (R461 to R464) -/

/-- Containers that the directories point to (R443, Table Loading-4). -/
def sources (s : State) : List (Bool × FlashEntry) :=
  let of (b : Bool) (f : Option Flash) : List (Bool × FlashEntry) :=
    match f with
    | some f => if f.answers && f.directory then
        (f.entries.filter fun e => decide (1 ≤ e.kind.toNat) && decide (e.kind.toNat ≤ 3)).map (b, ·) else []
    | none => []
  of false s.cfg.flashA ++ of true s.cfg.flashB

/-- The identity under which a container is excluded (R465). -/
def exclKey (e : Bool × FlashEntry) : Nat × Nat × Nat × Bool :=
  (e.2.kind.toNat, e.2.container.imageid.toNat, e.2.container.version.toNat, e.1)

/-- The members that a container's MANIFEST lists; none when it is not its first section, stored uncompressed. -/
def manifestOf (c : Container) : Option (List (BitVec 8 × BitVec 32 × BitVec 32)) :=
  match c.sections with
  | x :: _ => match x.body with
    | .manifest l => if x.deflate then none else some l
    | _ => none
  | [] => none

/-- A container is eligible (R461). -/
def eligible (s : State) (e : Bool × FlashEntry) : Bool :=
  let c := e.2.container
  c.magicOk && c.hcrcOk && c.kind == e.2.kind && c.devid == devRead 0 && c.stack.toNat == fld (devRead 4) 8 8 &&
    decide (c.totlen ≤ e.2.length) && netmodeOk s c && keyslotOk s c && decide (s.cfg.svn ≤ c.svn.toNat) &&
    (manifestOf c).isSome && !s.cfg.excl.contains (exclKey e)

/-- The manifest of a lists b. -/
def lists (a b : Bool × FlashEntry) : Bool :=
  ((manifestOf a.2.container).getD []).any fun m =>
    m.1 == b.2.kind && m.2.1 == b.2.container.imageid && m.2.2 == b.2.container.version

/-- A set: firmware, personality, keys. -/
abbrev Chosen := (Bool × FlashEntry) × (Bool × FlashEntry) × (Bool × FlashEntry)

/-- The set is declared tested. -/
def tested (x : Chosen) : Bool :=
  let (f, p, k) := x
  lists f p && lists f k && lists p f && lists p k && lists k f && lists k p

/-- How R462 ranks a set: versions of personality, firmware and keys, then members on flash A. -/
def setRank (x : Chosen) : List Nat :=
  let v (e : Bool × FlashEntry) : Nat := e.2.container.version.toNat
  let (f, p, k) := x
  [v p, v f, v k, b2n (!f.1) + b2n (!p.1) + b2n (!k.1)]

/-- Lexicographic order. -/
def rankLt : List Nat → List Nat → Bool
  | a :: l, b :: m => decide (a < b) || (a == b && rankLt l m)
  | _, _ => false

/-- The first of the best. -/
def bestSet : List Chosen → Option Chosen
  | [] => none
  | x :: l => some (l.foldl (fun b y => if rankLt (setRank b) (setRank y) then y else b) x)

/-- The best declared-tested set of eligible containers with a value of FACTORY. -/
def pickSet (s : State) (factory : Bool) : Option Chosen :=
  let l := (sources s).filter fun e => eligible s e && e.2.container.factory == factory
  let of (k : Nat) : List (Bool × FlashEntry) := l.filter fun e => e.2.kind.toNat == k
  bestSet (((of 1).flatMap fun f => (of 2).flatMap fun p => (of 3).map fun k => (f, p, k)).filter tested)

/-- A firmware to run when no set can be selected (R466, R467; log 37): the highest version, FACTORY = 0 before 1. -/
def pickFirmware (s : State) : Option (Bool × FlashEntry) :=
  let l := (sources s).filter fun e => eligible s e && e.2.kind.toNat == 1
  let rank (e : Bool × FlashEntry) : List Nat := [b2n (!e.2.container.factory), e.2.container.version.toNat]
  match l with
  | [] => none
  | x :: r => some (r.foldl (fun b y => if rankLt (rank b) (rank y) then y else b) x)

/-- The running set as CFG_SEL and the rollback rules see it. -/
def memberOf (e : Bool × FlashEntry) : Member :=
  let c := e.2.container
  ⟨e.2.kind.toNat, c.imageid.toNat, c.version.toNat, c.svn.toNat, c.keyslot, e.1⟩

/-- The override of R464 on a selected set. -/
def applyOverride (x : Chosen) (s : State) : Chosen × State :=
  let id := s.reg 0xF_0020
  let ver := s.reg 0xF_0024
  if id = 0 then (x, s)
  else match (sources s).find? fun e => eligible s e && e.2.kind.toNat == 2 && e.2.container.imageid == id &&
      e.2.container.version == ver with
    | some p => ((x.1, p, x.2.2), raise 0x0505 [id.toNat, ver.toNat, 0] (s.modCfg fun c => { c with override := true }))
    | none => (x, raise 0x0505 [id.toNat, ver.toNat, 1] s)

/-- Take a set as selected: 0x0502, CFG_SEL, CFG_STATUS. -/
def takeSet (x : Chosen) (factory : Bool) (s : State) : State :=
  let s := s.modCfg fun c => { c with fallback := factory, override := false }
  let s := if factory then raise 0x0504 [x.1.2.container.imageid.toNat, x.2.1.2.container.imageid.toNat,
      x.2.2.2.container.imageid.toNat] s else s
  let (x, s) := applyOverride x s
  let l := [x.1, x.2.1, x.2.2]
  let s := s.modCfg fun c => { c with picked := l, running := l.map memberOf, donewait := x.2.1.2.container.donewait,
                                      psrc := if s.netMode = 2 then 2 else b2n x.2.1.1 }
  raise 0x0502 ((l.flatMap fun e => [e.2.container.imageid.toNat, e.2.container.version.toNat]) ++ l.map fun e => b2n e.1) s

/- ### Bytes that a listener or worker has captured (R468, R469) -/

/-- The device takes its bytes from other devices' reads. -/
def passive (s : State) : Bool := s.netMode == 2 || s.cfg.listen

/-- An address on a flash: flash B lies above flash A's 32-bit addresses. -/
def flashAddr (b : Bool) (a : Nat) : Nat := (if b then 2 ^ 32 else 0) + a

/-- The end of what has been captured without a gap from an address on, after at most n extensions. -/
def capturedTo (l : List (Nat × List Byte)) : Nat → Nat → Nat
  | 0, p => p
  | n + 1, p => capturedTo l n (l.foldl (fun q x => if x.1 ≤ q ∧ q < x.1 + x.2.length then x.1 + x.2.length else q) p)

/-- The device makes no flash access (R482). -/
def flashHeld (s : State) : Bool := s.regB 0xF_0004 30 && !passive s

/-- The bytes of a flash from lo to hi can be read. -/
def haveBytes (s : State) (b : Bool) (lo hi : Nat) : Bool :=
  if !passive s then !flashHeld s else decide (flashAddr b hi ≤ capturedTo s.cfg.heard s.cfg.heard.length (flashAddr b lo))

/-- Every directory, or its copy, can be read. -/
def haveDirectories (s : State) : Bool :=
  [(false, s.cfg.flashA), (true, s.cfg.flashB)].all fun (b, f) => match f with
    | some f => !f.answers || !f.directory || haveBytes s b 0 (32 + 16 * f.entries.length) ||
        haveBytes s b 0x1000 (0x1000 + 32 + 16 * f.entries.length)
    | none => true

/-- The whole container of a member can be read. -/
def haveMember (s : State) (e : Bool × FlashEntry) : Bool := haveBytes s e.1 e.2.offset (e.2.offset + e.2.container.totlen)

/-- The device that clocks the bus reads n bytes of a flash (B: true) from an address on (R434, R440); how many bursts it takes is
not said (log 114). -/
def readBurst (b : Bool) (addr n : Nat) (s : State) : State :=
  s.when (!passive s) fun s => s.send (.flash 9 addr (leBytes 1 (b2n b) ++ leBytes 4 n))

/-- The directories of the flashes are read: each copy up to the first that passes (R443). -/
def readDirectories (s : State) : State :=
  forEach [(false, s.cfg.flashA), (true, s.cfg.flashB)] (fun (b, f) s => match f with
    | some f => s.when f.answers fun s =>
        (readBurst b 0 4096 s).when (!dirPasses f.dir) fun s => readBurst b 0x1000 4096 s
    | none => s) s

/-- The first n bytes of a container have been read; a manager sends them on (R470). -/
def broadcastRead (e : Bool × FlashEntry) (n : Nat) (s : State) : State :=
  let n := min n e.2.container.totlen
  (readBurst e.1 e.2.offset n s).when (s.netMode == 1) fun s => s.send (.cfgb e.1 e.2.offset n)

/-- A whole container has been read; a manager sends on every byte of it (R470). -/
def broadcastMember (e : Bool × FlashEntry) (s : State) : State := broadcastRead e e.2.container.totlen s

/-- Source code of a rejection. -/
def sourceCode (s : State) (b : Bool) : Nat := if s.netMode = 2 then 2 else b2n b

/- ### The key table (R400 to R405) -/

/-- Why a provisioning entry is rejected (R402), given the indices named before it; reasons of 0x0A03: 1 unwrap, 2 type,
3 index 0, 4 GCM padding, 5 duplicate. -/
def keyReason (kek : BitVec 256) (seen : List Nat) (e : List Byte) : Option Nat :=
  let ty := fb e 1
  let key := keyUnwrap kek (e.drop 8)
  let checks : List (Nat × Bool) := [
    (1, (ty == 1 || ty == 2) && key.isNone), (2, decide (2 < ty)), (3, fb e 0 % 64 == 0 && ty != 0),
    (4, ty == 2 && (key.getD []).drop 32 != List.replicate 32 0), (5, seen.contains (fb e 0 % 64))]
  ((checks.filter (·.2)).map (·.1)).head?

/-- What an accepted entry gives its index. -/
def keyEntry (kek : BitVec 256) (e : List Byte) : KeyEntry :=
  let ty := fb e 1
  let key := (keyUnwrap kek (e.drop 8)).getD []
  if ty = 0 then { rights := BitVec.ofNat 4 (fb e 2) }
  else { st := ty, kcv := (keyCheck key).toNat, rights := BitVec.ofNat 4 (fb e 2), key := key }

/-- The entries of a record one after the other: the table they give, the indices named, accepted and rejected counts. -/
def takeEntries : List (List Byte) → List (Nat × KeyEntry) → List Nat → Nat → Nat → State →
    List (Nat × KeyEntry) × List Nat × Nat × Nat × State
  | [], t, seen, ok, bad, s => (t, seen, ok, bad, s)
  | e :: l, t, seen, ok, bad, s =>
    let k := fb e 0 % 64
    match keyReason s.cfg.fuses.kek seen e with
    | some r => takeEntries l t (setAdd k seen) ok (bad + 1) (raise 0x0A03 [k, r] s)
    | none => takeEntries l (tabSet {} t k (keyEntry s.cfg.fuses.kek e)) (setAdd k seen) (ok + 1) bad s

/-- Lysata loads the key table from its record (R400 to R405). The rights come from it only at power-on (R403, R408). -/
def loadKeys (s : State) : State :=
  let (t, seen, ok, bad, s) := takeEntries s.cry.record [] [] 0 0 s
  let old := s.cry.keys
  let first := !s.cry.rightsSet
  let entry (k : Nat) : KeyEntry :=
    let e := tabGet {} t k
    if first then { e with rights := if k = 0 ∧ !seen.contains 0 then 7 else e.rights }
    else { e with rights := (tabGet ({} : KeyEntry) old k).rights, rightsBad := (tabGet ({} : KeyEntry) old k).rightsBad }
  let s := s.modCry fun c => { c with keys := (List.range 64).foldl (fun t k => tabSet {} t k (entry k)) [], loaded := true,
                                      rightsSet := true }
  raise 0x0A02 [ok, bad] (s.modCfg fun c => { c with keyLoad := false })

/- ### Resets by the loader -/

/-- Physical columns for the logical ones whose home is retired, from the lowest spare on (R113, R115). -/
def mapColumns (s : State) : State :=
  let s := s.modFab fun f => { f with spares := [] }
  forEach ((List.range 256).filter (s.fab.retired.contains ·)) (fun n s =>
    match freeSpare s with
    | some p => (s.modCol n fun x => { x with pcol := some p }).modFab fun f => { f with spares := setAdd p f.spares }
    | none => s.modCol n fun x => { x with pcol := none, degraded := true }) s

/-- The fabric as at power-on: every chamber UNRELEASED, nothing loaded; CHM and FAB registers at their reset values, with no
capture or staged half of theirs (R6, log 36). -/
def freshFabric (s : State) : State :=
  let s := { s with regs := s.regs.filter fun p => !(decide (0x2_0000 ≤ p.1) && decide (p.1 < 0x6_0000)) }
  mapColumns ((dropHalves 0x2_0000 0x6_0000 s).modFab fun f =>
    { f with released := false, leaving := [], chambers := [], columns := [], groups := [], early := [] })

/-- Every domain but AON resets and is released again (R465, R481); HOST waits for step 3 (R437). -/
def resetAll (s : State) : State :=
  let s := if s.inReset 5 then startHostReset (startResets 0xFF1F s) else startResets 0xFF3F s
  let s := (releaseDomains 0xFF1F s).modRst fun r => { r with requested := 0 }
  let s := s.modLib fun l => { l with loader := [], device := [], devhold := false }
  let s := s.modInteg fun _ => {}
  memLeave (freshFabric s)

/-- The loader is back at step 2 with nothing selected. -/
def backToSelect (s : State) : State :=
  s.modCfg fun c => { c with stage := 2, picked := [], running := [], fallback := false, override := false,
                             starts := [], done := false, drivesDone := true, doneTold := false, idleTold := false }

/-- A selected member is rejected at start-up (R459, R460, R465); a manager has sent what it has read of it (R470). -/
def rejectMember (e : Bool × FlashEntry) (reason sect : Nat) (s : State) : State :=
  let s := broadcastRead e (rejectAt e.2.container (reason, sect)) s
  let s := recordReject (sourceCode s e.1) e.2.container reason sect s
  let s := s.modCfg fun c => { c with excl := c.excl ++ [exclKey e] }
  backToSelect (resetAll (dropLoad 256 0 0xFFFF s))

/- ### Steps -/

/-- A manager that clocks its flash bus begins no flash read before its census has ended (R570). -/
def censusAwaited (s : State) : Bool := s.netMode == 1 && !s.net.settled && !s.cfg.listen

/-- A flash (B: true) reads at `mhz` from now on (R441), with the dummy cycles of its directory at FCLK (Table Loading-3). -/
def setFlashClk (b : Bool) (mhz : Nat) (dummy : List Byte) (s : State) : State :=
  (s.send (.flash 8 mhz (leBytes 1 (b2n b) ++ dummy))).modCfg fun c => { c with flashClk := tabSet 0 c.flashClk (b2n b) mhz }

/-- The read clock that a directory names (Table Loading-3). -/
def fclkOf (f : Flash) : Nat := min 200 (max 50 f.fclk)

/-- Step 3 of Table Loading-2 has been passed: reads run at FCLK (R441). -/
def pastStep3 (s : State) : Bool := decide (4 ≤ s.cfg.stage) && s.cfg.stage != 0xD

/-- The mask ROM initialises a flash: software reset, SFDP tables at 25 MHz, 8D-8D-8D mode, reads at 50 MHz; one that does
not answer raises 0x0503 (R441, R442). A listener drives no flash pin (R468). -/
def initFlash (b : Bool) (f : Flash) (s : State) : State :=
  let id := leBytes 1 (b2n b)
  let s := if s.cfg.listen then s else (s.send (.flash 5 0 id)).send (.flash 6 25 id)
  if !f.answers then raise 0x0503 [0, b2n b, 0, 1, 0xFFFF] s
  else if s.cfg.listen then s
  else if pastStep3 s && f.directory then setFlashClk b (fclkOf f) (leBytes 1 f.dummy) (s.send (.flash 7 0 id))
  else setFlashClk b 50 [] (s.send (.flash 7 0 id))

/-- A flash that is there. -/
def flashOf (s : State) (b : Bool) : Option Flash := if b then s.cfg.flashB else s.cfg.flashA

/-- Every flash is found and initialised (R441), unless FLREL holds the drivers off (R482). A worker reads no flash. -/
def discoverFlash (s : State) : State :=
  if s.netMode = 2 ∨ censusAwaited s ∨ flashHeld s then s
  else forEach [false, true] (fun b s => match flashOf s b with
    | some f => initFlash b f s
    | none => s) (s.modCfg fun c => { c with flashClk := [] })

/-- The firmware sets FCLK of each flash's directory (R441, step 3 of Table Loading-2). -/
def setFclk (s : State) : State :=
  if s.netMode = 2 ∨ s.cfg.listen then s
  else forEach [false, true] (fun b s => match flashOf s b with
    | some f => if f.answers && f.directory && tabGet 0 s.cfg.flashClk (b2n b) != 0 then setFlashClk b (fclkOf f) (leBytes 1 f.dummy) s else s
    | none => s) s

/-- Set selection in step 2. -/
def stepSelect (s : State) : State :=
  if s.cfg.stage ≠ 2 ∨ s.cfg.picked ≠ [] ∨ flashHeld s ∨ censusAwaited s ∨ !haveDirectories s then s
  else
    let s := readDirectories s
    match (if s.cfg.excl.length < 8 then pickSet s false else none) with
    | some x => takeSet x false s
    | none => match pickSet s true with
      | some x => takeSet x true s
      | none => match pickFirmware s with
        | some f => s.modCfg fun c => { c with picked := [f], running := [memberOf f] }
        | none => s.modCfg fun c => { c with stage := 0xD }

/-- A member of the selected set (0 firmware, 1 personality, 2 keys). -/
def picked (s : State) (i : Nat) : Option (Bool × FlashEntry) := s.cfg.picked[i]?

/-- Why a member read whole is rejected: reason and section. -/
def memberFail (s : State) (kind : Nat) (e : Bool × FlashEntry) : Option (Nat × Nat) :=
  match headerReason s kind false e.2.length e.2.container with
  | some r => some (r, 0xFFFF)
  | none => sectionsFail s e.2.container false

/-- The firmware is verified and started: the end of step 2. -/
def stepFirmware (s : State) : State :=
  match picked s 0 with
  | none => s
  | some f =>
    if s.cfg.stage ≠ 2 ∨ !haveMember s f then s
    else match memberFail s 1 f with
      | some r => rejectMember f r.1 r.2 s
      | none => broadcastMember f (s.modCfg fun c => { c with stage := 3 })

/-- Sectors of a region as found (R679): a broken header takes the highest valid count of erases. -/
def regionSectors (r : EchoRegion) : List Sector :=
  let top := r.sectors.foldl (fun n x => if x.headerOk then max n x.erases else n) 0
  r.sectors.map fun x => { erases := if x.headerOk then x.erases else top, retired := x.headerOk && x.retired }

/-- The Echo region in use (R677) and the repairs of its newest valid commit (R686, R115, R294), applied once after a
power-up: what a part has repaired since stays through a later step 3 (R294). -/
def applyRecorded (s : State) : State :=
  if s.grt.repairsSet then s
  else
    let s := s.modGrt fun g => { g with repairsSet := true }
    let of (f : Option Flash) : Option EchoRegion := match f with
      | some f => if f.answers && f.directory then f.echo else none
      | none => none
    let b := (of s.cfg.flashA).isNone
    match (if b then of s.cfg.flashB else of s.cfg.flashA) with
    | none => mapColumns s
    | some r =>
      if !r.usableShape || r.sectors.length < 2 then mapColumns s
      else
        let n := r.sectors.length
        let s := s.modEv fun e => { e with hasRegion := true, regionB := b, sectors := regionSectors r,
                                           cseq := (r.cseq.getD 0).toNat, lastSector := r.lastSector,
                                           usedSectors := (List.range r.usedSectors).map fun i =>
                                             (r.lastSector + n + 1 + i - r.usedSectors) % n }
        let s := s.modFab fun f => { f with retired := r.retiredCols.foldl (fun l (p : PhysId) => setAdd p.val l) f.retired }
        let clear := s.grt.banks.foldl (fun t (p : Nat × Bank) => tabSet ({} : Bank) t p.1 { p.2 with repairs := [] }) s.grt.banks
        let s := s.modGrt fun g => { g with banks := clear }
        mapColumns (forEach r.softRepairs (fun (x : BankId × Fin 20 × Fin 256 × Fin 2) s => s.modBank x.1 fun k =>
          { k with repairs := k.repairs ++ [(x.2.1.val, x.2.2.1.val, x.2.2.2.val)] }) s)

/-- Bundles whose EN is 1 train (R526). -/
def trainBundles (s : State) : State :=
  forEach (List.range 8) (fun b s => if s.regB (gvlReg b 0) 31 ∧ (s.bun b).st = 0 then enterDetect b s else s) s

/-- Lysata senses every fuse at a tightened margin and, with VPP_FUSE in range, blows again those that read blown at the
normal one only (R761, log 105). -/
def blowWeak (s : State) : State := if s.cfg.goodVpp then s.modCfg fun c => { c with weak := 0, fuses := { c.fuses with weak := 0 } } else s

/-- What step 3 does once its rails are steady and its keys are known: flash clock, fuses, PLLs, repairs, key table, HOST
(R25, R290, R437, R441, R761). -/
def finishStep3 (record : List (List Byte)) (next : Nat) (s : State) : State :=
  let s := blowWeak (setFclk s)
  let s := applyRecorded (s.modLys fun l => { l with locked := tabSet false (tabSet false l.locked 0 true) 1 true })
  let s := loadKeys (s.modCry fun c => { c with record := record })
  let s := tryHostRelease (s.modCfg fun c => { c with stage := next })
  if s.netMode = 1 ∨ s.netMode = 2 then s else trainBundles s

/-- The key provisioning record of a KEYS container. -/
def keyRecord (c : Container) : List (List Byte) :=
  c.sections.flatMap fun x => match x.body with
    | .keyrec l => l
    | _ => []

/-- The fill of step 4 begins (R280, R185): Grotto and the library as after power-on. In the fill of a RELOAD a RETIRED slot
stays RETIRED, until power-off (Table Library-1), and the other slots' SUMPCNT starts again at 0 (log 110). -/
def startFill (s : State) : State :=
  let s := s.modGrt fun g => { g with filling := true, mem := [], poison := [], errs := [] }
  s.modLib fun l => { l with slots := l.slots.filter fun p => p.2.st == 4 }

/-- Step 3, with NOCONFIG when there is no personality (R467). -/
def stepThree (s : State) : State :=
  if s.cfg.stage ≠ 3 ∨ s.cfg.railsLate ≠ [] then s
  else match picked s 2 with
    | none => raise 0x0506 [s.cfg.excl.length] ((finishStep3 [] 0xC s).modCfg fun c => { c with running := [] })
    | some k =>
      if !haveMember s k then s
      else match memberFail s 3 k with
        | some r => rejectMember k r.1 r.2 s
        | none => startFill (broadcastMember k (finishStep3 (keyRecord k.2.container) 4 s))

/-- Step 5: header, section table and signatures of the personality. -/
def stepFive (s : State) : State :=
  match picked s 1 with
  | none => s
  | some p =>
    if s.cfg.stage ≠ 5 ∨ !haveBytes s p.1 p.2.offset (p.2.offset + dataStart p.2.container) then s
    else match headerReason s 2 false p.2.length p.2.container with
      | some r => rejectMember p r 0xFFFF s
      | none => s.modCfg fun c => { c with stage := 6 }

/-- Start stratum of a chamber (R448). -/
def startOf (f : List (BitVec 16)) (c : Nat) : Nat :=
  ((List.range 4).find? fun k => bit (residentField f c k) 14).getD 0

/-- The loader-class refills of RESIDENT (R450): one for both chambers of a lockstep column. -/
def residentRefills (c : Container) : List LibReq :=
  let f := fieldsOf c
  (List.range 512).flatMap fun ch => (List.range 4).filterMap fun k =>
    let x := residentField f ch k
    if bit x 15 ∧ !(256 ≤ ch ∧ locksColumn c (colOf ch)) then
      some { op := 1, chamber := ch, stratum := k, slot := fld x 0 12, cls := 1 }
    else none

/-- Bytes of a member that can be read from its first one on. -/
def memberBytes (s : State) (e : Bool × FlashEntry) : Nat :=
  let lo := flashAddr e.1 e.2.offset
  if passive s then min e.2.container.totlen (capturedTo s.cfg.heard s.cfg.heard.length lo - lo) else e.2.container.totlen

/-- The end of steps 6 and 7: REGINIT applied, refills placed (R446 to R454). -/
def endStepSix (p : Bool × FlashEntry) (s : State) : State :=
  let c := p.2.container
  let s := forEach (recordsOf c) applyRecord (broadcastMember p (freeLoad loaderLoad s))
  let starts := (List.range 512).foldl (fun t ch => tabSet 0 t ch (startOf (fieldsOf c) ch)) []
  (s.modLib fun l => { l with loader := l.loader ++ residentRefills c }).modCfg fun x => { x with stage := 7, starts := starts }

/-- Steps 6 and 7: every section that can be read is checked and staged, its slot in WRITING until it is whole (R186). -/
def stepSix (s : State) : State :=
  match picked s 1 with
  | none => s
  | some p =>
    let c := p.2.container
    let n := memberBytes s p
    if s.cfg.stage ≠ 6 ∨ n < dataStart c ∨ loadPathDown s ∨ flashHeld s then s
    else
      let fail := sectionsFail s c false
      let (s, _) := stageUpTo loaderLoad false 0 0 n (stageStop fail) c s
      if n < c.totlen then s
      else match fail with
        | some r => rejectMember p r.1 r.2 s
        | none => endStepSix p s

/-- Step 8 begins once the refills of step 7 have ended (R435, R472): the device stops driving CFG_DONE. -/
def settleLoad (s : State) : State :=
  if s.cfg.stage = 7 ∧ s.lib.loader.isEmpty ∧ (s.busyStreams.all fun p => p.2.cls != 1) then
    s.modCfg fun c => { c with stage := 8, drivesDone := false, doneTold := false }
  else s

/-- The sequence goes on: a rejected member begins it again, at most once per container. -/
def loadRounds : Nat → State → State
  | 0, s => s
  | n + 1, s => loadRounds n (settleLoad (stepSix (stepFive (stepThree (stepFirmware (stepSelect s))))))

/-- The loader does all it can do now. -/
def loadGo (s : State) : State := loadRounds ((sources s).length + 2) s

/-- Step 9, or step 10 at once when the start is not a twin start (Table Loading-1). -/
def afterStep8 (micros : Nat) (s : State) : State := if s.twinStart then beginSync s else releaseFabric micros s

/-- RELOAD (R481, R473, R608; Table Lysata-1, Table Twin-10). -/
def reload (s : State) : State :=
  let s := stopCommit (failSilent 5 s)
  let s := resetAll (s.modLys fun l => { l with silent := false })
  let s := s.modTwn fun t => { t with ready := decide (t.pstate = 4), maxLine := true }
  let s := backToSelect s
  loadGo (discoverFlash (s.modCfg fun c => { c with heard := [] }))

/- ### Commands -/

/-- What the fuses hold, given what they held before and what this power-up reads: a blown fuse stays blown (R761, log
105). -/
def joinFuses (old new : Fuses) : Fuses :=
  { svn := max old.svn (min 128 new.svn)
    programmed := old.programmed ||| new.programmed
    revoked := old.revoked ||| new.revoked
    uid := old.uid ||| new.uid
    kek := old.kek ||| new.kek
    debugLock := old.debugLock || new.debugLock
    redundantUsed := new.redundantUsed.foldl (fun t p => tabSet 0 t p.1 (max p.2 (tabGet 0 t p.1))) old.redundantUsed
    shaftInRepair := new.shaftInRepair ++ old.shaftInRepair.filter fun p =>
      !new.shaftInRepair.any fun q => q.1 == p.1 && q.2.1 == p.2.1
    retiredCols := new.retiredCols ++ old.retiredCols.filter fun p => !new.retiredCols.contains p
    weak := max old.weak new.weak
    subsystem := old.subsystem ||| new.subsystem }

/-- Reset value of GVL_Bb_CTRL.EN (Table Lanes-4). -/
def enAtReset (s : State) (b : Nat) : Bool :=
  if s.netMode ≠ 0 then true else s.twinStart && decide (b < 2)

/-- AON leaves reset: fuse shadow, straps, pulls, bundle enables (R433, R483, R526, R725, R740). No fuse that has been
blown reads unblown later (R761). -/
def aonRelease (board : Board) (s : State) : State :=
  let f := joinFuses s.cfg.fuses board.fuses
  let s : State := { State.reset with pending := s.pending, seed := s.seed, out := s.out }
  let s := s.modPci fun p => { p with subsystem := f.subsystem }
  let s := s.modCfg fun c => { c with
    stage := 2, mode := board.mode, listen := board.listen, pull := board.pull, svn := min 128 f.svn,
    programmed := f.programmed, revoked := f.revoked, uid := f.uid, debugLock := f.debugLock,
    flashA := some board.flashA, flashB := some board.flashB, railsLate := board.railsLate.map (·.val),
    fuses := f, weak := f.weak, goodVpp := board.vppGood }
  let s := s.modGrt fun g => { g with fuseUsed := f.redundantUsed.foldl (fun t p => tabSet 0 t p.1 p.2) [] }
  let s := s.modFab fun x => { x with
    retired := f.retiredCols.foldl (fun l (p : PhysId) => setAdd p.val l) [],
    bonds := f.shaftInRepair.foldl (fun t (p : Nat × Nat × List (Fin 68)) =>
      tabSet ({} : BondGroup) t (bondKey p.1 0 p.2.1) (fusedGroup p.1 p.2.2)) [] }
  let s := forEach (f.shaftInRepair.filter (·.1 == 0)) (fun p s => parityLost (p.2.1 / 1024) (p.2.1 % 1024) s) s
  let s := s.modLys fun l => { l with refclk := board.refclk, refOk := board.refclk }
  let s := s.modRst fun r => { r with inReset := 0x20 }
  let s := s.modPin fun p => { p with vdet := (withPos board.vdet).foldl (fun t v => tabSet 0 t v.1 v.2) [] }
  let s := forEach (List.range 16) (fun k s => s.setRegF (bankReg k) 27 2 (if bit board.pull k then 2 else 1)) s
  let s := forEach (List.range 8) (fun b s => s.setRegF (gvlReg b 0) 31 1 (b2n (enAtReset s b))) s
  if s.netMode = 1 ∨ s.netMode = 2 then trainBundles s else s

/-- Power good (R435). -/
def execPowerOn (board : Board) (s : State) : Host.Outcome State Fault Refusal :=
  done (loadGo (discoverFlash (aonRelease board s)))

/-- Step 2 begins its flash reads when the census has just ended (R570). -/
def goOnAfterCensus (before after : State) : State :=
  if censusAwaited before && !censusAwaited after && after.cfg.stage == 2 then loadGo (discoverFlash after) else after

/-- A flit arrives on a bundle in UP (R550, R552, R560, R570). -/
def execFlitReceive (b : BundleId) (bytes : FlitBytes) (tag : TagResult) (s : State) :
    Host.Outcome State Fault Refusal := done (goOnAfterCensus s (serveRemotes (takeFlit b bytes tag s)))
/-- REPORT of an adopted child (R566, R570). -/
def execReportReceive (b : BundleId) (size depth : Nat) (s : State) : Host.Outcome State Fault Refusal :=
  done (goOnAfterCensus s (takeReport b size depth s))
/-- 5 ms after its start the census ends (R566, R567, R570). -/
def execCensusTimeout (s : State) : Host.Outcome State Fault Refusal := done (goOnAfterCensus s (censusEnds s))

/-- The mask ROM begins step 2 again every second while no firmware can be selected (R466). -/
def execRomRetry (flashA flashB : Flash) (s : State) : Host.Outcome State Fault Refusal :=
  if s.cfg.stage = 0xD then
    let s := backToSelect (s.modCfg fun c => { c with flashA := some flashA, flashB := some flashB })
    done (loadGo (discoverFlash s))
  else done s

/-- Captured bytes. -/
def hear (b : Bool) (addr : Nat) (bytes : List Byte) (s : State) : State :=
  if s.cfg.stage < 7 then
    loadGo (s.modCfg fun c => { c with heard := c.heard ++ [(flashAddr b addr, bytes)], idleTold := false })
  else s

/-- A listener captures a read burst of the clocking device (R468). -/
def execFlashBurstCapture (flashB : Bool) (addr : Nat) (bytes : List Byte) (s : State) : Host.Outcome State Fault Refusal :=
  done (if s.cfg.listen ∧ s.netMode ≠ 2 then hear flashB addr bytes s else s)

/-- A listener or worker has waited 100 ms for bytes (R471). -/
def execListenerIdle (addr : Nat) (s : State) : Host.Outcome State Fault Refusal :=
  if passive s ∧ s.cfg.stage < 7 ∧ !s.cfg.idleTold then
    done (raise 0x0508 [if s.netMode = 2 then 2 else 1, addr] (s.modCfg fun c => { c with idleTold := true }))
  else done s

/-- A configuration broadcast message reaches a worker (R469, R584, R585): its bytes are taken, it goes on to every adopted
child, and its credit is freed. `load` is the host load that the message belongs to: its first slot, the bytes that have come, its
container. -/
def execCfgbReceive (flashB : Bool) (addr : Nat) (bytes : List Byte) (load : Option (Fin 3072 × Nat × Container)) (s : State) :
    Host.Outcome State Fault Refusal :=
  let pay := leBytes 1 (b2n flashB) ++ leBytes 1 bytes.length ++ leBytes 4 addr ++ bytes
  let sent := fun f => isTy 8 f && (fPay f).take 6 == pay.take 6
  if s.netMode ≠ 2 ∨ s.msgHeld 2 sent then done s
  else
    let s := forEach (s.net.children.filter (·.adopted)) (fun c s =>
      enqueue c.bundle (mkMsg 8 2 0 s.ownAddr false (fitBytes 52 pay)) s) s
    let s := takeAnyMsg 2 sent (hear flashB addr bytes s)
    match load with
    | some (base, hi, c) => done (if s.regB 0xB_8004 29 then broadcastLoad base hi c s else s)
    | none => done s

/-- CFG_DONE has been sampled high on 8 REFCLK cycles (R472, R473). `micros` is the time since power good. -/
def execCfgDoneRise (micros : Nat) (s : State) : Host.Outcome State Fault Refusal :=
  let s := s.modCfg fun c => { c with done := true }
  done (if s.cfg.stage = 8 then afterStep8 micros s else s)

/-- DONEWAIT ms have passed since step 8, or 1 s when it is 0 (R474). -/
def execDonewaitExpire (micros : Nat) (s : State) : Host.Outcome State Fault Refusal :=
  if s.cfg.stage ≠ 8 then done s
  else if s.cfg.donewait = 0 then
    (if s.cfg.doneTold then done s else done (raise 0x0507 [1000] (s.modCfg fun c => { c with doneTold := true })))
  else done (afterStep8 micros (raise 0x0507 [s.cfg.donewait] s))

/-- Lysata has loaded the key table after a HOST reset (R400, R405, R437). -/
def execKeyTableLoadDone (s : State) : Host.Outcome State Fault Refusal :=
  done (if s.cfg.keyLoad ∧ 4 ≤ s.cfg.stage ∧ s.cfg.stage ≠ 13 then tryHostRelease (loadKeys s) else s)

/-- The fill ends (R280, R282): at start-up step 5 follows. -/
def execGrottoFillDone (micros : BitVec 32) (s : State) : Host.Outcome State Fault Refusal :=
  if !s.grt.filling then done s
  else if s.cfg.stage = 4 then done (loadGo ((endFill 1 micros.toNat s).modCfg fun c => { c with stage := 5 }))
  else done (endFill 2 micros.toNat s)

/-- A core rail has come into its steady range (R759). -/
def execCoreRailInSteadyRange (rail : Fin 7) (s : State) : Host.Outcome State Fault Refusal :=
  done (loadGo (s.modCfg fun c => { c with railsLate := setDel rail.val c.railsLate }))

/-- A core rail is still outside its steady range 100 ms after power good or a second later (R759). -/
def execRailWaitTimeout (rail : Fin 7) (s : State) : Host.Outcome State Fault Refusal :=
  done (if s.cfg.stage = 3 ∧ s.cfg.railsLate.contains rail.val then raise 0x0D0A [rail, 1] s else s)

/-- A free stream starts a request (R202); `retries` lengthen it and change nothing else. -/
def execRequestStart (_retries : List (Fin 80)) (hardFail : Option (Fin 80)) (goldenLost : Bool) (s : State) :
    Host.Outcome State Fault Refusal :=
  done (settleLoad (startRequest (hardFail.map (·.val)) goldenLost s))

/-- A refill completes: in a pair it takes effect at its stamped delivery (R205, R206). -/
def execRefillComplete (stream : StreamId) (s : State) : Host.Outcome State Fault Refusal :=
  done (if s.paired ∧ (s.stream stream).isSome then (if s.twn.role = 1 then sendTwin 10 (leBytes 1 stream) s else s)
    else settleLoad (refillDone stream s))

/-- A SPILL, RESTORE, EVICT, DROP or SHCLR ends (R190, R209, R214, R216). -/
def execRequestEnd (stream : StreamId) (s : State) : Host.Outcome State Fault Refusal :=
  done (settleLoad (requestOver stream s))

end Sys2Proof.Machine
end

