-- ==== Sys2Proof/Machine/Ladder.lean ====
section
/-! DEFINITION. Entries and exits of the power ladder (16_lysata.md, R638 to R644) and the application of a two-party
commit (R654, R655), which may reload the device. -/

namespace Sys2Proof.Machine

/- ### Entries -/

/-- What P4 and P5 lose of one chamber (Table Lysata-5): its resident strata and its flip-flops. The shared flip-flops'
later value is free (log 38); the strata come back from INIT (R642). -/
def loseChamber (c : Nat) (s : State) : State :=
  let kept := (List.range 4).filter fun k => (s.strat c k).loaded
  let v := Config.freeBits 2048 s.seed
  (s.modChm c fun ch =>
    { ch with loadedAt := kept, selAtReset := ch.sel, hsrc := 0, pend := none, shared := v,
              strata := ch.strata.foldl (fun t (p : Nat × Stratum) => tabSet ({} : Stratum) t p.1
                { p.2 with loaded := false, refilling := false, words := [], ffs := 0, unchecked := false, failMask := [],
                           rewriting := false, wasActive := false, needRefill := false, liveLap := none }) ch.strata }).fresh

/-- Every chamber loses what P4 and P5 lose; the keepers and the hold-last ports keep what they carried (R93, R174). Frame
rewrites of the strata that go are abandoned (Table Integrity-3). -/
def loseChambers (s : State) : State :=
  let v := s.nets
  let s := dropRewrites (fun _ => true) s
  watchShafts (forEach (s.fab.chambers.map (·.1)) (fun c t => loseChamber c (leaveRun s v c t)) (settleKeepers v s))

/-- Grotto is lost (R300): its next contents are those of the fill (R282). -/
def loseGrotto (s : State) : State :=
  s.modGrt fun g => { g with
    mem := [], poison := [], errs := [],
    banks := g.banks.foldl (fun t (p : Nat × Bank) => tabSet ({} : Bank) t p.1
      { p.2 with queue := [], rewrites := [], toRewrite := [], goingOff := false, state := 0 }) g.banks }

/-- What an entry into P2, P3, P4 or P5 does to the bundles (R532, R536, R539). -/
def ladderBundles (t : Nat) (s : State) : State :=
  if t = 2 then forEach (List.range 8) enterIdle s
  else if t = 3 then forEach (List.range 8) askSleep s
  else if 4 ≤ t then forEach (List.range 8) bundleOff s
  else s

/-- HOST loses its supply in P5 and the PCI Express link goes down (Table Lysata-5). -/
def hostDown (s : State) : State := startHostReset (s.modLys fun l => { l with link := .down })

/-- The device enters state t (R638, Table Lysata-5). -/
def enterLadder (t : Nat) (s : State) : State :=
  let old := s.pstate
  let s := ladderBundles t (enterState t 1 s)
  let s := if 3 ≤ t then stopCommit s else s
  let s := if 4 ≤ t ∧ old < 4 then loseChambers s else s
  if t = 5 then hostDown (loseGrotto s) else s

/-- A tick boundary at which the entry conditions hold (R638): the device goes directly to its effective target. In a pair
the lead stamps the entry (R644, Table Twin-5). `partner` is the partner's target. -/
def execLadderEntry (partner : Fin 6) (s : State) : Host.Outcome State Fault Refusal :=
  let t := effectiveTarget s partner
  if t ≤ s.pstate ∨ s.lys.exiting ∨ s.lys.restarting ∨ ladderUnmet s t ≠ [] then done s
  else if s.twn.role = 1 then done (sendTwin 26 (leBytes 1 0 ++ leBytes 1 t ++ leBytes 1 1) s)
  else if s.twn.role = 2 then done s
  else done (enterLadder t s)

/-- A ladder step takes effect in its delivery cycle (R644). -/
def stampedLadder (exits : Bool) (t cause : Nat) (s : State) : State :=
  if s.lys.exiting then s
  else if exits then (if t < s.pstate then startExit t cause s else s)
  else if s.pstate < t then enterLadder t s
  else s

/- ### Exits -/

/-- At the end of an exit from P4 or P5 every chamber is HELD by Reset release (R642, R171). -/
def holdAfterSleep (s : State) : State :=
  forEach (s.fab.chambers.map (·.1)) (fun c s => (tierLeaveOne c s).modChm c fun ch => { ch with loadedAt := [] }) s

/-- On the return to P0 each bundle with EN = 1 that is OFF trains (R539), unless the device is silent (R608). -/
def wakeBundles (s : State) : State :=
  forEach (List.range 8) (fun b s =>
    if s.regB (gvlReg b 0) 31 ∧ (s.bun b).st = 0 ∧ (!s.silentNow || s.twinBundle b) then enterDetect b s else s) s

/-- What the exit waits for: the refills of R642, the fill of R643. -/
def exitWaits (s : State) : Bool :=
  (decide (4 ≤ s.lys.exitFrom) && decide (s.lys.exitTo ≤ 3) &&
    (!s.lib.loader.isEmpty || s.busyStreams.any fun p => p.2.cls == 1)) || (s.lys.exitFrom == 5 && s.grt.filling)

/-- An exit ends (R639, R642, R643, R494, R534, R539). A shallower TARGET written meanwhile starts the next one (log 39). -/
def execLadderExitDone (s : State) : Host.Outcome State Fault Refusal :=
  if !s.lys.exiting || exitWaits s then done s
  else
    let from_ := s.lys.exitFrom
    let dst := s.lys.exitTo
    let s := enterState dst s.lys.exitCause (s.modLys fun l => { l with exiting := false })
    let s := if 4 ≤ from_ ∧ dst ≤ 3 then holdAfterSleep s else s
    let s := if 2 ≤ from_ ∧ dst ≤ 1 then forEach (List.range 8) leaveIdle (cfgLeave s) else s
    let s := if dst = 0 then wakeBundles s else s
    let s := if from_ = 5 then tryHostRelease s else s
    let t := effectiveTarget s 5
    done (if t < dst then askExit t 1 s else s)

/-- LYS_PWR is written (R639, R644). -/
def execPwrTargetWrite (who : Requester) (val : Word) (s : State) : Host.Outcome State Fault Refusal :=
  done (writeReg who 0x1_0008 0xF val s)

/- ### Applying a commit -/

/-- The RWL fields of `val` over the register's present value (R654). -/
def mergeRwl (s : State) (who off : Nat) (val : Word) : Word :=
  let m := (regDesc off).rwl
  (readLive who s off &&& ~~~m) ||| (val &&& m)

/-- Store the RWL bits that a register holds as written. -/
def storeRwl (off : Nat) (val : Word) (s : State) : State :=
  let m := (regDesc off).rwl &&& (regDesc off).rw
  s.setReg off ((s.reg off &&& ~~~m) ||| (val &&& m))

/-- A committed CHM_SAFE of column n (R245 to R247, R250): a LOCKSTEP that differs from what is in effect, or re-arms the
column, is staged. -/
def commitSafe (n : Nat) (val : Word) (s : State) : State :=
  let x := s.col n
  let want := bit val 0
  let rearm := want && (x.lock == .degradedA || x.lock == .degradedB || x.lock == .silent)
  let same := want == (x.lock != .off) && !rearm
  let s := storeSafe n val s
  let s := if same then s else raise 0x0637 [n, b2n want] s
  s.modCol n fun y =>
    { y with staged := if same then none else some want }

/-- Slots of keys that signed a member of the running set (R458). -/
def runningSlots (s : State) : BitVec 4 := ofBits 4 (s.cfg.running.map (·.keyslot))

/-- How many of n fuses read blown after their blow, which the loss of VPP_FUSE or of power cuts short after `cut` whole
ones: how the next one reads from then on, at either margin, is free (R761). -/
def blow (cut : Option Nat) (n : Nat) (s : State) : Nat × State :=
  match cut with
  | none => (n, s)
  | some k =>
    if n ≤ k then (n, s)
    else
      let v := Config.freeBits 2 s.seed
      let one := b2n (bit v 0)
      let s := s.fresh.modCfg fun c =>
        let w := if bit v 0 && bit v 1 then c.weak + 1 else c.weak
        { c with weak := w, fuses := { c.fuses with weak := w } }
      (k + one, s)

/-- CFG_CTRL.REVOKE (R458): the fuses of the named slots, from slot 0 on. -/
def commitRevoke (cut : Option Nat) (k : BitVec 4) (s : State) : State :=
  if k = 0 then s
  else if (k &&& runningSlots s) ≠ 0 then raise 0x050A [2, 3] s
  else
    let l := (List.range 4).filter fun i => bit k i && !bit s.cfg.revoked i
    let (n, s) := blow cut l.length s
    s.modCfg fun c =>
      let r := c.revoked ||| ofBits 4 (l.take n)
      { c with revoked := r, fuses := { c.fuses with revoked := r } }

/-- CFG_CTRL.FLREL (R482, R684): while it is 1 the loader makes no access; afterwards it finds the flashes again. -/
def commitFlrel (b : Bool) (s : State) : State :=
  let was := s.regB 0xF_0004 30
  let s := s.setRegF 0xF_0004 30 1 (b2n b)
  if b && !was then stopCommit s
  else if !b && was then loadGo (discoverFlash s)
  else s

/-- CFG_SVNADV.TARGET (R456, R457, R761): TARGET above the SVN of a running member, or VPP_FUSE out of range, is refused. -/
def commitSvn (cut : Option Nat) (target : Nat) (s : State) : State :=
  if s.cfg.running.any fun m => decide (m.svn < target) then raise 0x050A [1, 1] s
  else if !s.cfg.goodVpp then raise 0x050A [1, 2] s
  else
    let old := s.cfg.svn
    let new := max old (min target 128)
    let (n, s) := blow cut (new - old) s
    let s := s.modCfg fun c => { c with svn := old + n, fuses := { c.fuses with svn := old + n } }
    match cut with
    | none => raise 0x0509 [old, new, b2n (decide (128 ≤ old))] s
    | some k => if new - old ≤ k then raise 0x0509 [old, new, b2n (decide (128 ≤ old))] s else s

/-- The root register of an address space (R358, R375), both halves together. -/
def commitRoot (asid : Nat) (lo hi : Word) (s : State) : State :=
  let o := 0x9_1000 + 8 * asid
  let s' := storeRwl (o + 4) hi (storeRwl o lo s)
  if s'.reg o = s.reg o ∧ s'.reg (o + 4) = s.reg (o + 4) then s else rootChanged asid s'

/-- Code of a staging party's own staging at Lysata, kept apart from what the party has staged (R13, R654). -/
def lysataStage (who : Requester) : Nat := 16 + Requester.code who

/-- A committed value takes effect on its register's RWL fields (R654). CFG_CTRL acts field by field: REVOKE, FLREL,
RELOAD. `cut` as in `blow`. -/
def applyCommitted (cut : Option Nat) (who : Requester) (off : Nat) (val : Word) (s : State) : State :=
  let d := regDesc off
  if d.rwl = 0 then s
  else if d.pair = 1 then stageHalf (lysataStage who) off val s
  else if d.pair = 2 then
    let (lo, s) := loHalf (lysataStage who) off s
    commitRoot ((off - 0x9_1000) / 8) lo val s
  else if isSafe off then commitSafe (chmOf off) (mergeRwl s (Requester.code who) off val) s
  else if 0xA_0100 ≤ off ∧ off < 0xA_0200 then
    s.modKey ((off - 0xA_0100) / 4) fun k => { k with rights := BitVec.ofNat 4 (fld val 0 4), rightsBad := false }
  else if off = 0xC_0004 then
    let s := storeRwl off val s
    if bit val 26 ∧ s.twn.role = 1 then failSilent 0xA s else s
  else if off = 0xF_0004 then
    let s := commitFlrel (bit val 30) (commitRevoke cut (BitVec.ofNat 4 (fld val 0 4)) s)
    if bit val 31 then reload s else s
  else if off = 0xF_0018 then commitSvn cut (fld val 0 8) (storeRwl off val s)
  else storeRwl off val s

/-- One entry at the device that applies the commit (R655): the lead stamps those that name a block of Table Twin-5, a
shadow applies none of them. -/
def applyEntry (cut : Option Nat) (who : Requester) (e : Nat × Word) (s : State) : State :=
  if pairBlock e.1 ∧ s.twn.role = 1 then
    sendTwin 17 (leBytes 1 (Requester.code who) ++ leBytes 4 e.1 ++ leBytes 4 e.2.toNat) s
  else if pairBlock e.1 ∧ s.twn.role = 2 then ticketEvent ((partyOf who).getD 0) 7 s
  else applyCommitted cut who e.1 e.2 s

/-- The first tick boundary in APPLYING (R654). While the management cores restart no tick decision is taken (R630).
`cut` is the number of whole fuses that a blow of this commit makes before VPP_FUSE or power is lost (R761). -/
def execCommitApply (cut : Option Nat) (s : State) : Host.Outcome State Fault Refusal :=
  let t := s.lys.ticket
  if t.st ≠ 3 ∨ s.lys.restarting then done s
  else
    let who : Requester := if t.sup then .supervisor else .host
    let s := forEach t.entries (applyEntry cut who) s
    done (raise 0x0D0F [t.num, t.digest.toNat, t.entries.length] (s.modTicket fun x => { x with st := 0 }))

end Sys2Proof.Machine
end

