-- ==== Sys2Proof/Machine/Access.lean ====
section
/-! DEFINITION. Accesses from outside: register accesses and the commands that are writes or reads of one register
(R2 to R14, R770), the BAR2 windows (R20, R21, R278, R279), the supervisor SPI (R656, R657), the debug access port (R695,
R696, R703 to R705), stamped deliveries in a pair (R601, R602) and the host link's changes (R357). -/

namespace Sys2Proof.Machine

/- ### 32-bit and 64-bit register accesses -/

/- BAR4 (Table Queues-1): its offset o stands at `bar4At` + o in the commands that name an offset of BAR0 (log 95). -/

/-- Where BAR4 begins in the offsets of register accesses: above BAR0's 2 MiB (log 95). -/
def bar4At : Nat := 0x20_0000

/-- A word with the enabled bytes taken from another. -/
def mergeBytes (old new : Word) (be : BitVec 4) : Word :=
  let m : Word := BitVec.ofNat 32 (ofLeBytes ((List.range 4).map fun i => if bit be i then (255 : Byte) else 0))
  (old &&& ~~~m) ||| (new &&& m)

/-- Word i of an MSI-X table entry: message address, its upper half, message data, vector control. -/
def MsixEntry.word (e : MsixEntry) (i : Nat) : Word :=
  match i with
  | 0 => e.addr.setWidth 32
  | 1 => (e.addr >>> 32).setWidth 32
  | 2 => e.data
  | _ => mkBit 0 e.mask

/-- An MSI-X table entry with word i replaced. -/
def MsixEntry.put (e : MsixEntry) (i : Nat) (v : Word) : MsixEntry :=
  match i with
  | 0 => { e with addr := e.word 1 ++ v }
  | 1 => { e with addr := v ++ e.word 0 }
  | 2 => { e with data := v }
  | _ => { e with mask := bit v 0 }

/-- A word of BAR4: the MSI-X table, the pending bits, and a remainder that reads zero (Table Queues-1, log 95). -/
def bar4Word (s : State) (o : Nat) : Word :=
  if o < 0x2000 then (s.msixEntry (o / 16)).word (o / 4 % 4)
  else if o < 0x2040 then ofBits 32 ((List.range 32).filter fun i => s.pci.pba.contains (8 * (o - 0x2000) + i))
  else 0

/-- The host writes BAR4: an entry of the MSI-X table, after which vectors no longer masked send what was pending (R351). -/
def bar4Write (who : Requester) (o : Nat) (be : BitVec 4) (val : Word) (s : State) : State :=
  if who ≠ .host ∨ 0x2000 ≤ o then s
  else
    let o := o - o % 4
    let v := mergeBytes (bar4Word s o) val be
    releasePending (s.modPci fun p => { p with table := tabMod {} p.table (o / 16) fun e => e.put (o / 4 % 4) v })

/-- The host reads BAR4. -/
def bar4Read (who : Requester) (o : Nat) (s : State) : State := s.when (who == .host) fun s => s.send (.bar4 (bar4Word s (o - o % 4)))

/-- A register write (R8, R9, R12), or a write of BAR4. -/
def execRegisterWrite (who : Requester) (off : Nat) (be : BitVec 4) (val : Word) (s : State) :
    Host.Outcome State Fault Refusal :=
  done (if bar4At ≤ off then bar4Write who (off - bar4At) be val s else writeReg who off be val s)

/-- A write of a _LO register is staged (R5, R6). -/
def execLoWriteStage (who : Requester) (off : Nat) (val : Word) (s : State) : Host.Outcome State Fault Refusal :=
  done (writeReg who off 0xF val s)

/-- A write of a _HI register takes both halves (R5, R6, R8). -/
def execHiWriteCommit (who : Requester) (off : Nat) (val : Word) (s : State) : Host.Outcome State Fault Refusal :=
  done (writeReg who off 0xF val s)

/-- A read of a _LO register captures the _HI half (R4, R6). -/
def execLoReadCapture (who : Requester) (off : Nat) (s : State) : Host.Outcome State Fault Refusal := done (read32 who off s)

/-- A read of an RC register clears it (R14). No register of the manual has that access code, so this is a read, of BAR0 or
of BAR4. -/
def execRcRead (who : Requester) (off : Nat) (s : State) : Host.Outcome State Fault Refusal :=
  done (if bar4At ≤ off then bar4Read who (off - bar4At) s else read32 who off s)

/-- An aligned 64-bit read of a pair (R3, R6): both halves as they stand at one moment, low half first in the reply. -/
def readPair (off : Nat) (s : State) : State :=
  if accessStopped s off then s.when (!managementStopped s off) fun s => (s.send (.reply .host off 0 6)).send (.reply .host (off + 4) 0 6)
  else
  let s := { s with captures := dropHalf s.captures 1 (off + 4), staged := dropHalf s.staged 1 off }
  let lo := readLive 1 s off
  let hi := readLive 1 s (off + 4)
  reply .host (off + 4) hi (reply .host off lo s)

/-- The offset holds the _LO register of a pair (R2). -/
def isPair (off : Nat) : Bool := (regDesc off).pair == 1

/-- One half of a split access (R770): byte enables of its own on a write. -/
def splitHalf (off : Nat) (v : Option Word) (be : BitVec 4) (s : State) : State :=
  match v with
  | some v => writeReg .host off be v s
  | none => read32 .host off s

/-- Two 32-bit accesses, the lower offset first; one refused half does not stop the other (R770). -/
def splitAccess (off : Nat) (write : Option (BitVec 64)) (be : BitVec 8) (s : State) : State :=
  splitHalf (off + 4) (write.map fun (v : BitVec 64) => (v >>> 32).setWidth 32) (BitVec.ofNat 4 (fld be 4 4))
    (splitHalf off (write.map fun (v : BitVec 64) => v.setWidth 32) (be.setWidth 4) s)

/-- An aligned 64-bit host access to a pair (R3, R6, R8). Where the offset holds no pair it is two accesses (R770). -/
def execPairAccess64 (off : Nat) (write : Option (BitVec 64)) (s : State) : Host.Outcome State Fault Refusal :=
  if !isPair off then done (splitAccess off write 0xFF s)
  else match write with
    | some v => done (writePair off v s)
    | none => done (readPair off s)

/-- An aligned 64-bit host access to two registers that are no pair (R770). Where the offset holds a pair, byte enables that
do not cover both halves have the whole access refused (R3, R8). -/
def execSplitAccess64 (off : Nat) (write : Option (BitVec 64)) (be : BitVec 8) (s : State) :
    Host.Outcome State Fault Refusal :=
  if isPair off then
    done (match write with
      | some v => if be = 0xFF then writePair off v s else partialPair off s
      | none => readPair off s)
  else done (splitAccess off write be s)

/- ### Chambers, groups and the library -/

/-- CHM_CMD with OP = SWITCH (R158, Table Strata-11). -/
def execChmCmdSwitch (who : Requester) (c : ChamberId) (stratum : StratumId) (t : Bool) (s : State) :
    Host.Outcome State Fault Refusal :=
  done (writeReg who (chmReg c 0x08) 0xF (mkFld 30 2 1 ||| mkBit 2 t ||| mkFld 0 2 stratum) s)
/-- CHM_CMD with OP = HOLD (R158). -/
def execChmCmdHold (who : Requester) (c : ChamberId) (s : State) : Host.Outcome State Fault Refusal :=
  done (writeReg who (chmReg c 0x08) 0xF (mkFld 30 2 2) s)
/-- CHM_CMD with OP = RELEASE (R158). -/
def execChmCmdRelease (who : Requester) (c : ChamberId) (s : State) : Host.Outcome State Fault Refusal :=
  done (writeReg who (chmReg c 0x08) 0xF (mkFld 30 2 3) s)
/-- CHM_CTRL with SCHED = 1 (R150). -/
def execScheduleEnable (who : Requester) (c : ChamberId) (val : Word) (s : State) : Host.Outcome State Fault Refusal :=
  done (writeReg who (chmReg c 0x04) 0xF (val ||| mkBit 31 true) s)
/-- CHM_CTRL with SCHED = 0 (R160). -/
def execScheduleStopWrite (who : Requester) (c : ChamberId) (val : Word) (s : State) : Host.Outcome State Fault Refusal :=
  done (writeReg who (chmReg c 0x04) 0xF (val &&& ~~~mkBit 31 true) s)
/-- CHM_SDATA: the schedule entry that CHM_SIDX names (Table Strata-15). -/
def execScheduleEntryWrite (who : Requester) (c : ChamberId) (val : Word) (s : State) : Host.Outcome State Fault Refusal :=
  done (writeReg who (chmReg c 0x18) 0xF val s)
/-- FAB_GRPg_FIRE with OP = SWITCH (R162). -/
def execGroupFireSwitch (who : Requester) (g : GroupId) (s : State) : Host.Outcome State Fault Refusal :=
  done (writeReg who (grpReg g 0x04) 0xF (mkFld 30 2 1) s)
/-- FAB_GRPg_FIRE with OP = HOLD (R162). -/
def execGroupFireHold (who : Requester) (g : GroupId) (s : State) : Host.Outcome State Fault Refusal :=
  done (writeReg who (grpReg g 0x04) 0xF (mkFld 30 2 2) s)
/-- FAB_GRPg_FIRE with OP = RELEASE (R162). -/
def execGroupFireRelease (who : Requester) (g : GroupId) (s : State) : Host.Outcome State Fault Refusal :=
  done (writeReg who (grpReg g 0x04) 0xF (mkFld 30 2 3) s)

/-- Both halves of LIB_RQ, low half first (R5, R223; Tables Library-11 and -12). -/
def libWrite (who : Requester) (op slot c stratum : Nat) (spillFirst restore force notify prio : Bool) (tag : Nat)
    (s : State) : State :=
  let lo := mkFld 20 12 slot ||| mkFld 11 9 c ||| mkFld 9 2 stratum ||| mkFld 0 4 op
  let hi := mkFld 16 16 tag ||| mkBit 4 prio ||| mkBit 3 notify ||| mkBit 2 force ||| mkBit 1 spillFirst ||| mkBit 0 restore
  writeReg who 0x6_0014 0xF hi (writeReg who 0x6_0010 0xF lo s)

/-- LIB_RQ with REFILL (Table Library-2). -/
def execLibRefill (who : Requester) (slot : BitVec 12) (c : ChamberId) (stratum : StratumId)
    (spillFirst restore force notify prio : Bool) (tag : BitVec 16) (s : State) : Host.Outcome State Fault Refusal :=
  done (libWrite who 1 slot.toNat c stratum spillFirst restore force notify prio tag.toNat s)
/-- LIB_RQ with SPILL. -/
def execLibSpill (who : Requester) (c : ChamberId) (stratum : StratumId) (force notify prio : Bool) (tag : BitVec 16)
    (s : State) : Host.Outcome State Fault Refusal :=
  done (libWrite who 2 0 c stratum false false force notify prio tag.toNat s)
/-- LIB_RQ with RESTORE. -/
def execLibRestore (who : Requester) (slot : BitVec 12) (c : ChamberId) (stratum : StratumId) (notify prio : Bool)
    (tag : BitVec 16) (s : State) : Host.Outcome State Fault Refusal :=
  done (libWrite who 3 slot.toNat c stratum false false false notify prio tag.toNat s)
/-- LIB_RQ with EVICT. -/
def execLibEvict (who : Requester) (c : ChamberId) (stratum : StratumId) (notify prio : Bool) (tag : BitVec 16)
    (s : State) : Host.Outcome State Fault Refusal :=
  done (libWrite who 4 0 c stratum false false false notify prio tag.toNat s)
/-- LIB_RQ with DROP. -/
def execLibDrop (who : Requester) (slot : BitVec 12) (notify prio : Bool) (tag : BitVec 16) (s : State) :
    Host.Outcome State Fault Refusal := done (libWrite who 5 slot.toNat 0 0 false false false notify prio tag.toNat s)
/-- LIB_RQ with SHCLR. -/
def execLibShclr (who : Requester) (slot : BitVec 12) (notify prio : Bool) (tag : BitVec 16) (s : State) :
    Host.Outcome State Fault Refusal := done (libWrite who 6 slot.toNat 0 0 false false false notify prio tag.toNat s)
/-- A read of LIB_SINFO0 (R224). -/
def execSinfo0Read (who : Requester) (s : State) : Host.Outcome State Fault Refusal := done (read32 who 0x6_0024 s)

/- ### Grotto's modes, queues, translation -/

/-- GRT_GRPn (R298, R299). -/
def execBankModeWrite (who : Requester) (group : ColumnId) (val : Word) (s : State) : Host.Outcome State Fault Refusal :=
  done (writeReg who (grpModeReg group) 0xF val s)
/-- GRT_CTRL (R301, R302). -/
def execRmodelWrite (who : Requester) (val : Word) (s : State) : Host.Outcome State Fault Refusal :=
  done (writeReg who 0x7_0004 0xF val s)
/-- GRT_V2SEGk (R301, R302). -/
def execV2segWrite (who : Requester) (k : Fin 4) (val : Word) (s : State) : Host.Outcome State Fault Refusal :=
  done (writeReg who (0x7_2000 + 4 * k) 0xF val s)
/-- A write to queue q's kick page (R322 to R324); its value has no meaning. -/
def execKick (who : Requester) (q : QueueId) (off : BitVec 12) (s : State) : Host.Outcome State Fault Refusal :=
  done (writeReg who (kickPage q + off.toNat) 0xF 0 s)
/-- QUE_CTRL with EN = 1 (R354). -/
def execQueueEnable (who : Requester) (q : QueueId) (val : Word) (s : State) : Host.Outcome State Fault Refusal :=
  done (writeReg who (queReg q 0) 0xF (val ||| mkBit 31 true) s)
/-- QUE_CTRL with EN = 0 (R352). -/
def execQueueDisable (who : Requester) (q : QueueId) (val : Word) (s : State) : Host.Outcome State Fault Refusal :=
  done (writeReg who (queReg q 0) 0xF (val &&& ~~~mkBit 31 true) s)
/-- XLT_INV_CMD with SCOPE = ALL (R371). -/
def execInvAll (who : Requester) (s : State) : Host.Outcome State Fault Refusal :=
  done (writeReg who 0x9_0028 0xF (mkFld 30 2 1) s)
/-- XLT_INV_CMD with SCOPE = ASID. -/
def execInvAsid (who : Requester) (asid : Fin 256) (s : State) : Host.Outcome State Fault Refusal :=
  done (writeReg who 0x9_0028 0xF (mkFld 30 2 2 ||| mkFld 16 8 asid) s)
/-- XLT_INV_CMD with SCOPE = RANGE; the address is that of XLT_INV_VA. -/
def execInvRange (who : Requester) (asid : Fin 256) (npages : BitVec 16) (s : State) : Host.Outcome State Fault Refusal :=
  done (writeReg who 0x9_0028 0xF (mkFld 30 2 3 ||| mkFld 16 8 asid ||| mkFld 0 16 npages.toNat) s)
/-- XLT_FCTRL with EN = 1 (R383, R384). -/
def execFaultRingEnable (who : Requester) (val : Word) (s : State) : Host.Outcome State Fault Refusal :=
  done (writeReg who 0x9_0004 0xF (val ||| mkBit 31 true) s)
/-- XLT_QACT with OP = ABANDON (R390). -/
def execAbandon (who : Requester) (q : QueueId) (s : State) : Host.Outcome State Fault Refusal :=
  done (writeReg who 0x9_0058 0xF (mkFld 30 2 1 ||| mkFld 0 8 q) s)
/-- A read of XLT_TAGUSE0 (R397). -/
def execTaguse0Read (who : Requester) (s : State) : Host.Outcome State Fault Refusal := done (read32 who 0x9_0040 s)

/- ### Bundles, streams, twin -/

/-- GVL_Bb_CTRL with EN = 1 (R518). -/
def execBundleEnable (who : Requester) (b : BundleId) (val : Word) (s : State) : Host.Outcome State Fault Refusal :=
  done (writeReg who (gvlReg b 0) 0xF (val ||| mkBit 31 true) s)
/-- GVL_Bb_CTRL with EN = 0 (R524). -/
def execBundleDisable (who : Requester) (b : BundleId) (val : Word) (s : State) : Host.Outcome State Fault Refusal :=
  done (writeReg who (gvlReg b 0) 0xF (val &&& ~~~mkBit 31 true) s)
/-- GVL_Bb_CTRL as it stands, with RETRAIN = 1 (R525). -/
def execBundleRetrain (who : Requester) (b : BundleId) (s : State) : Host.Outcome State Fault Refusal :=
  done (writeReg who (gvlReg b 0) 0xF (s.reg (gvlReg b 0) ||| mkBit 30 true) s)
/-- GVL_Bb_CTRL as it stands, with SLEEP = 1 (R536). -/
def execSleepRequest (who : Requester) (b : BundleId) (s : State) : Host.Outcome State Fault Refusal :=
  done (writeReg who (gvlReg b 0) 0xF (s.reg (gvlReg b 0) ||| mkBit 29 true) s)
/-- GVL_Bb_CTRL with TEST = 1 (R540). -/
def execTestEnter (who : Requester) (b : BundleId) (val : Word) (s : State) : Host.Outcome State Fault Refusal :=
  done (writeReg who (gvlReg b 0) 0xF (val ||| mkBit 28 true) s)
/-- GVL_Bb_CTRL with TEST = 0 (R540). -/
def execTestExit (who : Requester) (b : BundleId) (val : Word) (s : State) : Host.Outcome State Fault Refusal :=
  done (writeReg who (gvlReg b 0) 0xF (val &&& ~~~mkBit 28 true) s)
/-- GVL_Bb_TEST as it stands, with INJ = 1 (R543). -/
def execBitInject (who : Requester) (b : BundleId) (s : State) : Host.Outcome State Fault Refusal :=
  done (writeReg who (gvlReg b 0x20) 0xF (s.reg (gvlReg b 0x20) ||| mkBit 28 true) s)
/-- GVL_Bb_TEST as it stands, with CLR = 1 (R542). -/
def execTestCounterClear (who : Requester) (b : BundleId) (s : State) : Host.Outcome State Fault Refusal :=
  done (writeReg who (gvlReg b 0x20) 0xF (s.reg (gvlReg b 0x20) ||| mkBit 19 true) s)
/-- GVL_NET_SRDATA: the route that GVL_NET_SRIDX names (R580). -/
def execStreamRouteWrite (who : Requester) (val : Word) (s : State) : Host.Outcome State Fault Refusal :=
  done (writeReg who 0xB_802C 0xF val s)
/-- TWN_CMD with OP = REJOIN (R621). -/
def execRejoin (who : Requester) (s : State) : Host.Outcome State Fault Refusal :=
  done (writeReg who 0xC_0010 0xF (mkFld 30 2 1) s)

/- ### Lysata, Echo, pins -/

/-- LYS_TP_OPEN (R649). -/
def execTpOpen (who : Requester) (s : State) : Host.Outcome State Fault Refusal :=
  done (writeReg who 0x1_0100 0xF (mkBit 31 true) s)
/-- LYS_TP_SVAL (R650). -/
def execTpSvalWrite (who : Requester) (val : Word) (s : State) : Host.Outcome State Fault Refusal :=
  done (writeReg who 0x1_010C 0xF val s)
/-- LYS_TP_COMMIT with OP = COMMIT: digest in the low half, ticket in the high half (R652). -/
def execTpCommit (who : Requester) (digest : Word) (ticket : BitVec 16) (s : State) : Host.Outcome State Fault Refusal :=
  done (writeReg who 0x1_0124 0xF (mkFld 30 2 1 ||| mkFld 0 16 ticket.toNat) (writeReg who 0x1_0120 0xF digest s))
/-- LYS_TP_COMMIT with OP = ABORT (R653). -/
def execTpAbort (who : Requester) (ticket : BitVec 16) (s : State) : Host.Outcome State Fault Refusal :=
  done (writeReg who 0x1_0124 0xF (mkFld 30 2 2 ||| mkFld 0 16 ticket.toNat) s)
/-- LYS_MB_CMD with CODE = COLMAP (R658, Table Lysata-11). -/
def execMbColmap (who : Requester) (arg : BitVec 24) (s : State) : Host.Outcome State Fault Refusal :=
  done (writeReg who 0x1_0200 0xF (mkFld 24 8 1 ||| mkFld 0 24 arg.toNat) s)
/-- LYS_MB_CMD with CODE = SPARES. -/
def execMbSpares (who : Requester) (arg : BitVec 24) (s : State) : Host.Outcome State Fault Refusal :=
  done (writeReg who 0x1_0200 0xF (mkFld 24 8 2 ||| mkFld 0 24 arg.toNat) s)
/-- LYS_MB_CMD with CODE = INTEGRITY. -/
def execMbIntegrity (who : Requester) (arg : BitVec 24) (s : State) : Host.Outcome State Fault Refusal :=
  done (writeReg who 0x1_0200 0xF (mkFld 24 8 3 ||| mkFld 0 24 arg.toNat) s)
/-- LYS_MB_CMD with CODE = TELEMETRY. -/
def execMbTelemetry (who : Requester) (arg : BitVec 24) (s : State) : Host.Outcome State Fault Refusal :=
  done (writeReg who 0x1_0200 0xF (mkFld 24 8 4 ||| mkFld 0 24 arg.toNat) s)
/-- ECH_CMD with OP = REARM (R670). -/
def execEchRearm (who : Requester) (s : State) : Host.Outcome State Fault Refusal :=
  done (writeReg who 0xD_0004 0xF (mkFld 30 2 1) s)
/-- ECH_CMD with OP = CLEARLOG (R672). -/
def execEchClearlog (who : Requester) (s : State) : Host.Outcome State Fault Refusal :=
  done (writeReg who 0xD_0004 0xF (mkFld 30 2 2) s)
/-- ECH_CMD with OP = COMMIT (R682). -/
def execEchCommit (who : Requester) (s : State) : Host.Outcome State Fault Refusal :=
  done (writeReg who 0xD_0004 0xF (mkFld 30 2 3) s)
/-- A read of ECH_RDATA0 captures the record that ECH_RIDX names (R675). -/
def execRdata0Read (who : Requester) (s : State) : Host.Outcome State Fault Refusal := done (read32 who 0xD_0040 s)
/-- A read of ECH_CVAL_LO (R4, R694). -/
def execCvalLoRead (who : Requester) (s : State) : Host.Outcome State Fault Refusal := done (read32 who 0xD_0038 s)
/-- PIN_LOCK (R749). -/
def execPinLock (who : Requester) (key : Byte) (mask : BitVec 5) (s : State) : Host.Outcome State Fault Refusal :=
  done (writeReg who 0xE_0004 0xF (mkFld 24 8 key.toNat ||| mkFld 0 5 mask.toNat) s)
/-- PIN_SVC_SET (R737). -/
def execSvcSet (who : Requester) (val : Word) (s : State) : Host.Outcome State Fault Refusal :=
  done (writeReg who 0xE_0024 0xF val s)
/-- PIN_SVC_CLR. -/
def execSvcClr (who : Requester) (val : Word) (s : State) : Host.Outcome State Fault Refusal :=
  done (writeReg who 0xE_0028 0xF val s)
/-- PIN_SVC_TGL. -/
def execSvcTgl (who : Requester) (val : Word) (s : State) : Host.Outcome State Fault Refusal :=
  done (writeReg who 0xE_002C 0xF val s)

/- ### BAR2 -/

/-- A host access to the reserved range (R21): 0x0701; a read completes with zero data. -/
def bar2Reserved (write : Bool) (off len : Nat) (s : State) : State :=
  let s := raiseRefused 7 off .host (if write then 4 else 5) s
  if write then s else s.send (.bar2 (List.replicate len 0) false 0)

/-- A host access to the reserved BAR2 range (R21). -/
def execBar2ReservedAccess (write : Bool) (off : Nat) (s : State) : Host.Outcome State Fault Refusal :=
  done (bar2Reserved write off 4 s)

/-- A host BAR2 write (R20, R278, R279, R606): the lead stamps it, a shadow discards it. -/
def execBar2Write (off : Nat) (be : List Bool) (data : List Byte) (addrErr : List Nat) (s : State) :
    Host.Outcome State Fault Refusal :=
  if 3 ≤ bar2Window off then done (bar2Reserved true off data.length s)
  else if s.twn.role = 2 then done (discardWrite 1 off s)
  else if s.twn.role = 1 then
    done (sendTwin 18 (leBytes 4 off ++ leBytes 2 data.length ++ (be.map fun b => BitVec.ofNat 8 (b2n b)) ++ data) s)
  else done (bar2Take { read := false, off := off, len := 0, be := be, data := data, bad := addrErr } s)

/-- A host BAR2 read (R20, R276, R278, R279, R606): poisoned when it covers a poisoned word, aborted behind a closed
fence, unsupported at a shadow; the lead stamps it as it does the writes before it. -/
def execBar2Read (off len : Nat) (addrErr : List Nat) (s : State) : Host.Outcome State Fault Refusal :=
  if 3 ≤ bar2Window off then done (bar2Reserved false off len s)
  else if s.twn.role = 2 then done ((discardWrite 1 off s).send (.bar2 [] false 1))
  else if s.twn.role = 1 then done (sendTwin 23 (leBytes 4 off ++ leBytes 4 len) s)
  else done (bar2Take { read := true, off := off, len := len, bad := addrErr } s)

/- ### The supervisor's SPI and the debug port -/

/-- Refused-write events among those raised (R9). -/
def refusals (s : State) : Nat := s.ev.raised.countP fun e => e.code % 256 == 1

/-- The blocks that answer in every power state (R640): LYS, TWN, ECH, CFG. -/
def alwaysOn (off : Nat) : Bool :=
  (decide (0x1_0000 ≤ off) && decide (off < 0x2_0000)) || (decide (0xC_0000 ≤ off) && decide (off < 0xE_0000)) ||
    (decide (0xF_0000 ≤ off) && decide (off < 0x10_0000))

/-- The block that holds the offset is powered: P0 to P2 (R640, Table Lysata-5). -/
def blockPowered (s : State) (off : Nat) : Bool := alwaysOn off || decide (s.pstate ≤ 2)

/-- CRC-8 of a frame (R656). -/
def spiCrc (l : List Byte) : Nat := crcMsb 8 0x2F 0xFF 0xFF l

/-- A 32-bit value, most significant byte first. -/
def beBytes (v : Word) : List Byte := (leBytes 4 v.toNat).reverse
/-- The 32-bit value of four bytes, most significant first. -/
def ofBeBytes (l : List Byte) : Nat := ofLeBytes l.reverse

/-- Bytes 10 to 15 of SUP_MISO; a frame that ends before byte 16 loses them (R656, R657). -/
def spiReply (len st : Nat) (data : Word) (s : State) : State :=
  let body := leBytes 1 st ++ beBytes data
  if len < 16 then s else s.send (.spi (body ++ leBytes 1 (spiCrc body)))

/-- What a frame's access gives once its CRC has passed: STATUS and data (Table Lysata-10). -/
def spiAccess (write : Bool) (addr : Nat) (val : Word) (s : State) : (Nat × Word) × State :=
  if 0x20_0000 ≤ addr then ((3, 0), s)
  else if !blockPowered s addr then ((5, 0), s)
  else if write then
    let n := refusals s
    let s := writeReg .supervisor addr 0xF val s
    ((if n < refusals s then 4 else 0, 0), s)
  else
    let (v, s) := readReg 2 addr s
    ((0, v), s)

/-- One frame (R656, R657): byte 0 is 0x0B for a read and 0x02 for a write. A frame cut before its CRC byte performs
nothing. -/
def spiFrame (mosi : List Byte) (s : State) : State :=
  let op := fb mosi 0
  let n := mosi.length
  let addr := ofBeBytes ((mosi.drop 1).take 4)
  let addr := addr - addr % 4
  let go (crcAt : Nat) (write : Bool) (val : Word) : State :=
    if n ≤ crcAt then s
    else if spiCrc (mosi.take crcAt) ≠ fb mosi crcAt then spiReply n 1 0 s
    else
      let ((st, v), s) := spiAccess write addr val s
      spiReply n st v s
  if op = 0x0B then go 5 false 0
  else if op = 0x02 then go 9 true (BitVec.ofNat 32 (ofBeBytes ((mosi.drop 5).take 4)))
  else spiReply n 2 0 s

/-- A supervisor read frame (R640, R656, R657). -/
def execSpiReadFrame (mosi : List Byte) (s : State) : Host.Outcome State Fault Refusal := done (spiFrame mosi s)
/-- A supervisor write frame (R8, R11, R640, R656, R657). -/
def execSpiWriteFrame (mosi : List Byte) (s : State) : Host.Outcome State Fault Refusal := done (spiFrame mosi s)

/-- A debug operation starts unless one is BUSY, in which case BUSY stands (R695), or the debug-lock fuse is blown and the
operation is not exempt (R696). -/
def dbgStart (exempt : Bool) (f : State → State) (s : State) : State :=
  if s.pin.dbgOp.isSome || (s.pin.dbgGrt && s.paired) then s
  else if s.cfg.debugLock && !exempt then dbgFinish 4 0 s
  else f s

/-- The DEV and ECH blocks (R696). -/
def lockExempt (off : Nat) : Bool := decide (off < 0x1_0000) || (decide (0xD_0000 ≤ off) && decide (off < 0xE_0000))

/-- A refusal at a shadow, counted for 0x0C05 (R703). -/
def dbgShadow (off : Nat) (s : State) : State := dbgFinish 2 0 (discardWrite 3 off s)

/-- NOP (Table Echo-9). -/
def execDbgNop (s : State) : Host.Outcome State Fault Refusal := done (dbgStart false (dbgFinish 0 0) s)

/-- REGRD (R14, R696, R705). -/
def execDbgRegrd (off : Nat) (s : State) : Host.Outcome State Fault Refusal :=
  done (dbgStart (lockExempt off) (fun s =>
    if !blockPowered s off then dbgFinish 3 0 s
    else
      let (v, s) := readReg 3 off s
      dbgFinish 0 v s) s)

/-- REGWR (R8, R606, R703, R705). -/
def execDbgRegwr (off : Nat) (val : Word) (s : State) : Host.Outcome State Fault Refusal :=
  done (dbgStart false (fun s =>
    if !blockPowered s off then dbgFinish 3 0 s
    else if s.twn.role = 2 ∧ pairBlock off then dbgShadow off s
    else
      let n := refusals s
      let s := writeReg .jtag off 0xF val s
      dbgFinish (if n < refusals s then 2 else 0) 0 s) s)

/-- HOSTRD (R418, R703 to R705): BUSY until its data arrive. A length outside 1 to 4,096 is refused. -/
def execDbgHostrd (q : QueueId) (addr : BitVec 64) (len : Nat) (dun : BitVec 64) (s : State) :
    Host.Outcome State Fault Refusal :=
  done (dbgStart false (fun s =>
    if 2 < s.pstate then dbgFinish 3 0 s
    else if s.twn.role = 2 then dbgShadow 0 s
    else if len = 0 ∨ 4096 < len then dbgFinish 2 0 s
    else dbgIssue (s.modPin fun p =>
      { p with dbgOp := some (q, addr.toNat, len, dun.toNat), dbgIssued := 0, dbgStatus := 1, dbgData := 0 })) s)

/-- A debug access that the engine does not perform as asked is counted for 0x0A0A (R418, R419): 1 Grotto, 2 host sector. -/
def countDebug (target : Nat) (s : State) : State :=
  s.modCry fun c => { c with dbgTick := tabMod 0 c.dbgTick target (· + 1) }

/-- The host's bytes of a HOSTRD arrive, or its error (R418, R696). -/
def execDbgHostrdDone (data : Option (List Byte)) (s : State) : Host.Outcome State Fault Refusal :=
  match s.pin.dbgOp with
  | none => done s
  | some (q, _, len, dun) =>
    if s.pin.dbgIssued = 0 then done s
    else match data with
      | none => done (dbgFinish 3 0 s)
      | some bytes =>
        let x := s.qu q
        let s := if x.enc then useKey x.keyIdx s else s
        let stored := fitBytes len bytes
        let open_ := x.enc && bit (rightsOf s x.keyIdx) 3
        let whole := len % x.sector == 0
        if open_ && whole && s.cry.xtsBad then
          done (deviceFault 0x0A06 (raise 0x0A06 [1, q] (dbgFinish 3 0 (s.modCry fun c => { c with xtsBad := false }))))
        else
        let got := if open_ && whole then
            (withPos (chunks x.sector (len / x.sector) stored)).flatMap fun (i, b) => xts (s.key x.keyIdx).key false (dun + i) b
          else stored
        let s := if open_ && !whole then countDebug 2 s else s
        let s := s.modPin fun p => { p with dbgBuf := fitBytes 4096 (got ++ p.dbgBuf.drop len) }
        done (dbgFinish 0 0 s)

/-- BUFRD: a word of the debug buffer. -/
def execDbgBufrd (addr : Nat) (s : State) : Host.Outcome State Fault Refusal :=
  done (dbgStart false (fun s =>
    dbgFinish 0 (BitVec.ofNat 32 (ofLeBytes (fitBytes 4 (s.pin.dbgBuf.drop (addr - addr % 4))))) s) s)

/-- JTAG may access Grotto (R419). -/
def grottoOpen (s : State) : Bool := s.regB 0xA_0004 0

/-- The Grotto word of a GRTRD (R419, R705): the lead or a single device answers with it; a shadow reads as the lead does. -/
def dbgGrotto (g : Nat) (bad : List Nat) (s : State) : State :=
  if sideAborts s || sideStopped s (g - g % 4) 4 then (if s.twn.role = 2 then s else dbgFinish 3 0 s)
  else
    let ((d, _, isOff), s) := sideAccess 0 (g / 64) 0 0 0 bad s
    if s.twn.role = 2 then s
    else if isOff then dbgFinish 3 0 s
    else dbgFinish 0 (BitVec.ofNat 32 (d.toNat >>> (8 * (g % 64 - g % 4)))) s

/-- GRTRD (R419, R703, R705): the lead stamps it and is BUSY until its delivery. -/
def execDbgGrtrd (off : Nat) (addrErr : List Nat) (s : State) : Host.Outcome State Fault Refusal :=
  done (dbgStart false (fun s =>
    if 2 < s.pstate then dbgFinish 3 0 s
    else if s.twn.role = 2 then dbgShadow off s
    else if !grottoOpen s then dbgFinish 2 0 (countDebug 1 s)
    else
      let g := off % 0x0800_0000
      if s.twn.role = 1 then
        sendTwin 24 (leBytes 4 g) (s.modPin fun p => { p with dbgGrt := true, dbgStatus := 1, dbgData := 0 })
      else dbgGrotto g addrErr s) s)

/-- GRTWR (R419, R703, R705): the lead stamps it as it does a BAR2 write. -/
def execDbgGrtwr (off : Nat) (val : Word) (addrErr : List Nat) (s : State) : Host.Outcome State Fault Refusal :=
  done (dbgStart false (fun s =>
    if 2 < s.pstate then dbgFinish 3 0 s
    else if s.twn.role = 2 then dbgShadow off s
    else if !grottoOpen s then dbgFinish 2 0 (countDebug 1 s)
    else
      let g := off % 0x0800_0000
      let data := leBytes 4 val.toNat
      if s.twn.role = 1 then
        dbgFinish 0 0 (sendTwin 18 (leBytes 4 g ++ leBytes 2 4 ++ List.replicate 4 1 ++ data) s)
      else if sideAborts s || sideStopped s g 4 then dbgFinish 3 0 s
      else dbgFinish 0 0 (bar2Perform g [true, true, true, true] data addrErr s)) s)

/- ### Stamped deliveries (R601, R602) -/

/-- An item takes effect in its delivery cycle (Table Twin-5). -/
def inject (item : StampedItem) (s : State) : State :=
  match item with
  | .regWrite who off val => write32 who off val s
  | .regPair off val => writeBoth off val s
  | .committed who off val => applyCommitted none who off val s
  | .bar2Write off be data bad => bar2Take { read := false, off := off, len := 0, be := be, data := data, bad := bad } s
  | .bar2Read off len bad => bar2Take { read := true, off := off, len := len, bad := bad } s
  | .dbgRead off bad => dbgGrotto off bad s
  | .hostData q cid off bytes => takeStamped q cid.toNat off.toNat bytes s
  | .refillDone k => settleLoad (requestOver k (refillDone k s))
  | .tlbFill asid vpn size ppn r w => fillArrives asid vpn size ppn r w s
  | .fault q access id kind level va =>
    let s := s.modXlt fun t =>
      { t with parking := t.parking.filter (· != q.val),
               walks := t.walks.filter fun w => !(w.queue == q.val && w.access == access.val && w.cid == id && w.va == va) }
    if access.val = 5 then shadowFaultNow q kind level s else takeFaultNow q access id kind level va s
  | .invalidationDone => invalidationOver s
  | .doorbell q rec => takeDoorbell q rec s
  | .descriptors q descs => takeDescs q descs s
  | .flit b bytes => placeFlit b bytes s
  | .input bank level => setBank bank level (s.modTwn fun t => { t with own := tabDel t.own bank })
  | .domainReset mask => startResets (mask &&& detDomains) s
  | .stretch level => applyStretch level s
  | .ladder exits dst cause => stampedLadder exits dst cause.toNat s
  | .dphy port burst => takeBurst port burst s

/-- A delivery in a pair; an item that is late fails the shadow silent with 0x0C08 (R602). A device that was PAIRED and goes on
ALONE delivers what it had stamped. -/
def execStampedDelivery (domain : Fin 40) (cycle : Nat) (late : Bool) (item : StampedItem) (s : State) :
    Host.Outcome State Fault Refusal :=
  if !s.paired && !(s.twn.wasPaired && s.twn.pstate == 3) then done s
  else if late ∧ s.twn.role = 2 then done (failSilent 6 (raise 0x0C08 [domain, cycle] s))
  else done (inject item (s.modTwn fun t => { t with stamped := cycle }))

/- ### The host link -/

/-- What the host's system software has programmed takes effect (R310, R311, R351); a payload or read size that Table
Queues-1 does not list leaves the one in effect. -/
def takeProg (p : PcieProg) (s : State) : State :=
  releasePending (s.modPci fun x =>
    { x with bar0 := p.bar0, bar2 := p.bar2, bar4 := p.bar4,
             maxPayload := if [128, 256, 512].contains p.maxPayload then p.maxPayload else x.maxPayload,
             maxRead := if [128, 256, 512, 1024, 2048, 4096].contains p.maxRead then p.maxRead else x.maxRead,
             relaxed := p.relaxed, msixOn := p.msixOn, msixMask := p.msixMask, ecrcGen := p.ecrcGen,
             ecrcCheck := p.ecrcCheck, ctoRange := p.ctoRange, ctoOff := p.ctoOff, aspmL1 := p.aspmL1, ltr := p.ltr })

/-- The PCI Express link or the function changes state: 0x080A (R357, Table Lysata-6). `prog` is what its configuration
space then holds. -/
def execLinkStateChange (speed width ltssm : BitVec 8) (power : LinkPower) (d3hot : Bool) (prog : PcieProg) (s : State) :
    Host.Outcome State Fault Refusal :=
  done (raise 0x080A [speed.toNat, width.toNat, ltssm.toNat] ((takeProg prog s).modLys fun l =>
    { l with link := power, d3hot := d3hot, linkInfo := speed.toNat + 256 * width.toNat + 65536 * ltssm.toNat }))

/-- The endpoint logs an error: 0x080C (R357). -/
def execAerErrorLogged (type : BitVec 8) (s : State) : Host.Outcome State Fault Refusal :=
  done (raise 0x080C [type.toNat] (s.modPci fun p => { p with aer := setAdd type.toNat p.aer }))

end Sys2Proof.Machine
end

