-- ==== Sys2Proof/Machine/Chambers.lean ====
section
/-! DEFINITION. Chambers and strata (04_strata.md) and shaft contention (03_routing.md). A command that names an edge
brings the next edge of that clock, and all that is due at it happens (Machine/Edges.lean). When what it names is not
due there, it is not that command's edge and the state stays (log 14). -/

namespace Sys2Proof.Machine

/-- The clocks run, the chamber has been released and its tier is not in reset: its switch clock can have an edge. -/
def edgeCan (s : State) (c : Nat) : Bool :=
  clocksRun s && s.fab.released && (s.chm c).released && s.chmState c != 6

/-- The next edge of the switch clock of the chambers that g governs. -/
def bringChamberEdge (g : Nat) (s : State) : State := bringEdge (s.chm (s.lead g)).swclkUse s

/-- The edge at which a chamber command of operation `op` takes effect (R158). -/
def commandEdge (op : Nat) (c : ChamberId) (s : State) : State :=
  let g := s.gov c
  match dueCmd s g with
  | some d => if d.op = op ∧ edgeCan s (s.lead g) then bringChamberEdge g s else s
  | none => s

/-- A command SWITCH at its edge (R134, R136, R137, R160, R168, R229). -/
def execSwitchEdge (c : ChamberId) (s : State) : Host.Outcome State Fault Refusal := done (commandEdge 1 c s)

/-- A command HOLD at its edge (R167, R775). -/
def execHoldTakeEffect (c : ChamberId) (s : State) : Host.Outcome State Fault Refusal := done (commandEdge 2 c s)

/-- A command RELEASE at its edge (R169, R170). -/
def execReleaseTakeEffect (c : ChamberId) (s : State) : Host.Outcome State Fault Refusal := done (commandEdge 3 c s)

/-- Entry SSTART becomes current (R150 to R152). -/
def execScheduleEntryStart (c : ChamberId) (s : State) : Host.Outcome State Fault Refusal :=
  let g := s.gov c
  done (if (s.chm g).schedArmed && (entryDue s g).isSome && edgeCan s (s.lead g) then bringChamberEdge g s else s)

/-- A dwell ends: entry NEXT becomes current (R151 to R153). -/
def execDwellEnd (c : ChamberId) (s : State) : Host.Outcome State Fault Refusal :=
  let g := s.gov c
  done (if !(s.chm g).schedArmed && (entryDue s g).isSome && edgeCan s (s.lead g) then bringChamberEdge g s else s)

/-- The fabric trigger fires at a switch-clock edge (R155 to R157, R163): through its groups, through a running
schedule, or as a switch to TRIG_TGT. -/
def execFabricTrigger (c : ChamberId) (s : State) : Host.Outcome State Fault Refusal :=
  done (if triggerOn s s.nets c && edgeCan s c then bringEdge (s.chm c).swclkUse s else s)

/-- The second group-clock edge after the source chamber's trigger: the group fires a SWITCH while the two clocks
agree (R157, R163). -/
def execGroupTriggerFire (g : GroupId) (s : State) : Host.Outcome State Fault Refusal :=
  done (if (s.grp g).trig && clocksRun s && s.fab.released then bringEdge (s.regF (grpReg g 0) 0 5) s else s)

/-- A fire takes effect on every member at one edge of the group clock (R160 to R167). -/
def execGroupFireEffect (g : GroupId) (s : State) : Host.Outcome State Fault Refusal :=
  done (if (s.grp g).fire.isSome && (s.grp g).fireWait == 0 && clocksRun s && s.fab.released then
      bringEdge (s.regF (grpReg g 0) 0 5) s
    else s)

/-- The fence register's parity fails (R178). -/
def execFenceRegisterParity (c : ChamberId) (s : State) : Host.Outcome State Fault Refusal :=
  done (raise 0x030C [c] (s.modChm c fun ch => { ch with fenceBad := true }))

/-- Shafts of column n in contention: both tiers enable a driver, or the detector still holds both off (R97). -/
def contended (s : State) (n : Nat) : BitVec 4096 := (s.col n).tripped ||| (shaftsOn s n &&& shaftsOn s (n + 256))

/-- A contention is detected: 0x0205 with the first cluster concerned, both active strata are to be quarantined at the
next edge of their chamber's switch clock, the rows of both strata are checked (R98, R99, R502), and a comparing column
takes a detection with the verdict UNKNOWN (R238). A contention whose strata are already to be quarantined is not
detected again. -/
def execShaftContention (col : ColumnId) (s : State) : Host.Outcome State Fault Refusal :=
  let n := col.val
  match (List.range 256).find? fun cl => fld (contended s n) (16 * cl) 16 != 0 with
  | none => done s
  | some cl =>
    if (s.chm n).quarDue.any (·.2 == 1) || (s.chm (n + 256)).quarDue.any (·.2 == 1) then done s
    else
      let a := (s.chm n).sel
      let b := (s.chm (n + 256)).sel
      let comparing := (s.col n).lock = .comparing
      let slots := [(n, a), (n + 256, b)]
      let s := raise 0x0205 [n, cl, fld (contended s n) (16 * cl) 16, a, b] s
      let s := forEach slots (fun (c, k) s => if s.isActive c k then quarantineAtEdge c k 1 s else s) s
      let s := watchShafts s
      let s := s.modInteg fun i => { i with interrupts := min 65535 (i.interrupts + 1) }
      let bad := fun (p : Nat × Nat) => badRows s p.1 p.2
      let s := forEach slots (fun (c, k) s => useGolden (s.strat c k).slot s) s
      let s := forEach slots (fun (c, k) s =>
        match bad (c, k) with
        | [] => s
        | r :: _ => raise 0x0602 [c, k, (s.strat c k).slot, r, 1, 2]
            (s.modInteg fun i => { i with count602 := i.count602 + 1 })) s
      done (if comparing then lockNoDiag n 0 2 4 s else s)

end Sys2Proof.Machine
end

