-- ==== Sys2Proof/Machine/Clocks.lean ====
section
/-! DEFINITION. What happens while no command waits (log 40): one REFCLK cycle of 10 ns passes, or one always-on cycle
while REFCLK is absent. TBASE advances (R628, R629), the global clocks deliver their edges (R633 to R636) and what waits
for an endpoint goes in (R581, R733). -/

namespace Sys2Proof.Machine

/-- LYS_TBADJ.PPM; the shadow of a pair ignores its own (R629). -/
def tbPpm (s : State) : Int := if s.twn.role = 2 then 0 else (BitVec.ofNat 9 (s.regF 0x1_0028 0 9)).toInt

/-- ns of one cycle before any adjustment, and the fraction carried (R628). -/
def tbStep (s : State) : Nat × Nat :=
  if s.lys.refclk then (10, 0)
  else
    let f := s.lys.frac + 578125
    (30517 + f / 1000000, f % 1000000)

/-- TBASE advances by one cycle (R628), with an extra or an omitted 10 ns every 10^7 / |p| ns (R629). -/
def passTime (s : State) : State :=
  let (n, f) := tbStep s
  let p := tbPpm s
  let a := if p = 0 then 0 else s.lys.adj + n * p.natAbs
  let due := decide (10000000 ≤ a)
  let n' := if !due then n else if 0 < p then n + 10 else n - 10
  s.modLys fun l => { l with tbase := (l.tbase + n') % 2 ^ 64, frac := f, adj := if due then a - 10000000 else a }

/-- The edges of every global clock in this cycle, each with its time (the two FPLLs' periods on one scale), and the
phases afterwards. -/
def cycleEdges (s : State) : List (Nat × Nat) × List (Nat × Nat) :=
  (List.range 32).foldl (fun (es, ph) n =>
    if !clockRuns s n then (es, ph)
    else
      let p := fld (s.gclkOf n) 28 2
      let (l, phase) := edgesOf (s.fpllOf p) (fld (s.gclkOf n) 0 8) (s.levelOf n) (tabGet 0 ph n)
      (es ++ l.map fun m => (m * s.fpllOf (1 - p), n), tabSet 0 ph n phase)) ([], s.fab.phase)

/-- The distinct times of a list of edges, rising. -/
def edgeTimes (es : List (Nat × Nat)) : List Nat := es.foldl (fun l e => setAdd e.1 l) []

/-- Coincident edges of the cycle, less those that commands have brought already (log 3). -/
def passClocks (clks : List Nat) (s : State) : State :=
  let had := clks.filter fun n => tabGet 0 s.fab.early n != 0
  let s := s.modFab fun f => { f with early := had.foldl (fun t n => tabMod 0 t n (· - 1)) f.early }
  let left := clks.filter fun n => !had.contains n
  if left = [] then s else clockEdges left s

/-- The global clocks' edges of one cycle, in order of time. The fabric clocks run in P0 only (Table Lysata-5). -/
def passEdges (s : State) : State :=
  if !s.fab.released || !clocksRun s || !s.lys.refclk then s
  else
    let (es, ph) := cycleEdges s
    let s := s.modFab fun f => { f with phase := ph }
    forEach (edgeTimes es) (fun t s => passClocks ((es.filter fun e => e.1 == t).map (·.2)) s) s

/-- Endpoints with a landing buffer or a D-PHY port behind them. -/
def inputEndpoints (s : State) : List Nat :=
  s.pin.ports.foldl (fun l p => setAdd (s.regF (0xE_0300 + 4 * p.1) 0 10) l)
    (s.net.streams.foldl (fun l r => setAdd r.1 l) [])

/-- Beats that wait for their endpoint go in while the fabric runs (R581, R640, R733). -/
def passBeats (s : State) : State := if s.pstate != 0 then s else forEach (inputEndpoints s) drainInputs s

/-- One cycle with no command. -/
def idle (s : State) : State := passBeats (passEdges (passTime s))

end Sys2Proof.Machine
end

