-- ==== Sys2Proof/Machine/Dispatch.lean ====
section
/-! DEFINITION. The dispatch: one arm per command, each a direct call of its meaning. -/

namespace Sys2Proof.Machine

/-- The effect of a command on everything but the queue: one arm per row of spec/opcode_table.json. -/
def exec (i : Instr) (s : State) : Host.Outcome State Fault Refusal :=
  match i with
  | .registerWrite who off be val => Sys2Proof.Machine.execRegisterWrite who off be val s
  | .loWriteStage who off val => Sys2Proof.Machine.execLoWriteStage who off val s
  | .hiWriteCommit who off val => Sys2Proof.Machine.execHiWriteCommit who off val s
  | .loReadCapture who off => Sys2Proof.Machine.execLoReadCapture who off s
  | .pairAccess64 off write => Sys2Proof.Machine.execPairAccess64 off write s
  | .splitAccess64 off write be => Sys2Proof.Machine.execSplitAccess64 off write be s
  | .rcRead who off => Sys2Proof.Machine.execRcRead who off s
  | .bar2ReservedAccess write off => Sys2Proof.Machine.execBar2ReservedAccess write off s
  | .linkStateChange speed width ltssm power d3hot prog => Sys2Proof.Machine.execLinkStateChange speed width ltssm power d3hot prog s
  | .tick env => Sys2Proof.Machine.execTick env s
  | .powerOn board => Sys2Proof.Machine.execPowerOn board s
  | .romRetry flashA flashB => Sys2Proof.Machine.execRomRetry flashA flashB s
  | .flashBurstCapture flashB addr bytes => Sys2Proof.Machine.execFlashBurstCapture flashB addr bytes s
  | .listenerIdle addr => Sys2Proof.Machine.execListenerIdle addr s
  | .cfgDoneRise micros => Sys2Proof.Machine.execCfgDoneRise micros s
  | .donewaitExpire micros => Sys2Proof.Machine.execDonewaitExpire micros s
  | .domainResetRequest who mask => Sys2Proof.Machine.execDomainResetRequest who mask s
  | .domainResetStart => Sys2Proof.Machine.execDomainResetStart s
  | .fenceBoundMissed boundary open_ => Sys2Proof.Machine.execFenceBoundMissed boundary open_ s
  | .fenceAbortNewRequest boundary chamber stratum => Sys2Proof.Machine.execFenceAbortNewRequest boundary chamber stratum s
  | .domainResetRelease micros => Sys2Proof.Machine.execDomainResetRelease micros s
  | .fenceReopen boundary => Sys2Proof.Machine.execFenceReopen boundary s
  | .hostReset source => Sys2Proof.Machine.execHostReset source s
  | .keyTableLoadDone => Sys2Proof.Machine.execKeyTableLoadDone s
  | .railLoss rail => Sys2Proof.Machine.execRailLoss rail s
  | .railWaitTimeout rail => Sys2Proof.Machine.execRailWaitTimeout rail s
  | .shaftContention col => Sys2Proof.Machine.execShaftContention col s
  | .shaftParityFailure pcol group => Sys2Proof.Machine.execShaftParityFailure pcol group s
  | .bondSweepDone pcol group failed => Sys2Proof.Machine.execBondSweepDone pcol group failed s
  | .memberFailed boundary pcol group member errors => Sys2Proof.Machine.execMemberFailed boundary pcol group member errors s
  | .spareShiftApply boundary pcol group => Sys2Proof.Machine.execSpareShiftApply boundary pcol group s
  | .relocationDecision col => Sys2Proof.Machine.execRelocationDecision col s
  | .relocationRelease col => Sys2Proof.Machine.execRelocationRelease col s
  | .chmCmdSwitch who c stratum t => Sys2Proof.Machine.execChmCmdSwitch who c stratum t s
  | .chmCmdHold who c => Sys2Proof.Machine.execChmCmdHold who c s
  | .chmCmdRelease who c => Sys2Proof.Machine.execChmCmdRelease who c s
  | .switchEdge c => Sys2Proof.Machine.execSwitchEdge c s
  | .holdTakeEffect c => Sys2Proof.Machine.execHoldTakeEffect c s
  | .releaseTakeEffect c => Sys2Proof.Machine.execReleaseTakeEffect c s
  | .scheduleEnable who c val => Sys2Proof.Machine.execScheduleEnable who c val s
  | .scheduleEntryStart c => Sys2Proof.Machine.execScheduleEntryStart c s
  | .dwellEnd c => Sys2Proof.Machine.execDwellEnd c s
  | .scheduleStopWrite who c val => Sys2Proof.Machine.execScheduleStopWrite who c val s
  | .scheduleEntryWrite who c val => Sys2Proof.Machine.execScheduleEntryWrite who c val s
  | .fabricTrigger c => Sys2Proof.Machine.execFabricTrigger c s
  | .groupFireSwitch who g => Sys2Proof.Machine.execGroupFireSwitch who g s
  | .groupFireHold who g => Sys2Proof.Machine.execGroupFireHold who g s
  | .groupFireRelease who g => Sys2Proof.Machine.execGroupFireRelease who g s
  | .groupTriggerFire g => Sys2Proof.Machine.execGroupTriggerFire g s
  | .groupFireEffect g => Sys2Proof.Machine.execGroupFireEffect g s
  | .portResponseArrive c => Sys2Proof.Machine.execPortResponseArrive c s
  | .fenceRegisterParity c => Sys2Proof.Machine.execFenceRegisterParity c s
  | .libRefill who slot c stratum spillFirst restore force notify prio tag => Sys2Proof.Machine.execLibRefill who slot c stratum spillFirst restore force notify prio tag s
  | .libSpill who c stratum force notify prio tag => Sys2Proof.Machine.execLibSpill who c stratum force notify prio tag s
  | .libRestore who slot c stratum notify prio tag => Sys2Proof.Machine.execLibRestore who slot c stratum notify prio tag s
  | .libEvict who c stratum notify prio tag => Sys2Proof.Machine.execLibEvict who c stratum notify prio tag s
  | .libDrop who slot notify prio tag => Sys2Proof.Machine.execLibDrop who slot notify prio tag s
  | .libShclr who slot notify prio tag => Sys2Proof.Machine.execLibShclr who slot notify prio tag s
  | .requestStart retries hardFail goldenLost => Sys2Proof.Machine.execRequestStart retries hardFail goldenLost s
  | .refillComplete stream => Sys2Proof.Machine.execRefillComplete stream s
  | .requestEnd stream => Sys2Proof.Machine.execRequestEnd stream s
  | .sinfo0Read who => Sys2Proof.Machine.execSinfo0Read who s
  | .lockstepMismatch col classes digA digB path => Sys2Proof.Machine.execLockstepMismatch col classes digA digB path s
  | .diagnosisVerdict col => Sys2Proof.Machine.execDiagnosisVerdict col s
  | .degradedComplete col => Sys2Proof.Machine.execDegradedComplete col s
  | .lockstepEntry col => Sys2Proof.Machine.execLockstepEntry col s
  | .lockstepExit col => Sys2Proof.Machine.execLockstepExit col s
  | .grottoRead c line => Sys2Proof.Machine.execGrottoRead c line s
  | .grottoWrite c line be data poison => Sys2Proof.Machine.execGrottoWrite c line be data poison s
  | .grottoBitset c line be data => Sys2Proof.Machine.execGrottoBitset c line be data s
  | .grottoBitclr c line be data => Sys2Proof.Machine.execGrottoBitclr c line be data s
  | .bar2Write off be data addrErr => Sys2Proof.Machine.execBar2Write off be data addrErr s
  | .bar2Read off len addrErr => Sys2Proof.Machine.execBar2Read off len addrErr s
  | .bankAccess bank addrErr => Sys2Proof.Machine.execBankAccess bank addrErr s
  | .correctedRewrite bank => Sys2Proof.Machine.execCorrectedRewrite bank s
  | .scrubSlotOpen bank micros => Sys2Proof.Machine.execScrubSlotOpen bank micros s
  | .scrubRead bank micros addrErr => Sys2Proof.Machine.execScrubRead bank micros addrErr s
  | .scrubStarvation bank => Sys2Proof.Machine.execScrubStarvation bank s
  | .grottoFillDone micros => Sys2Proof.Machine.execGrottoFillDone micros s
  | .pclkChange col => Sys2Proof.Machine.execPclkChange col s
  | .softRepair bank => Sys2Proof.Machine.execSoftRepair bank s
  | .repairRewrite bank addrErr => Sys2Proof.Machine.execRepairRewrite bank addrErr s
  | .bankModeWrite who group val => Sys2Proof.Machine.execBankModeWrite who group val s
  | .bankAutoDrowsy bank => Sys2Proof.Machine.execBankAutoDrowsy bank s
  | .bankPowerOff bank addrErr => Sys2Proof.Machine.execBankPowerOff bank addrErr s
  | .bankFillDone bank => Sys2Proof.Machine.execBankFillDone bank s
  | .rmodelWrite who val => Sys2Proof.Machine.execRmodelWrite who val s
  | .v2segWrite who k val => Sys2Proof.Machine.execV2segWrite who k val s
  | .kick who q off => Sys2Proof.Machine.execKick who q off s
  | .doorbellPoll q => Sys2Proof.Machine.execDoorbellPoll q s
  | .doorbellReadDone q rec => Sys2Proof.Machine.execDoorbellReadDone q rec s
  | .descriptorFetch q tlbBad => Sys2Proof.Machine.execDescriptorFetch q tlbBad s
  | .fetchDataArrive q descs => Sys2Proof.Machine.execFetchDataArrive q descs s
  | .hostReadError q target kind => Sys2Proof.Machine.execHostReadError q target kind s
  | .descCopy q env => Sys2Proof.Machine.execDescCopy q env s
  | .descStreamIn q env => Sys2Proof.Machine.execDescStreamIn q env s
  | .descStreamOut q env => Sys2Proof.Machine.execDescStreamOut q env s
  | .descFill q env => Sys2Proof.Machine.execDescFill q env s
  | .descLoadImage q image env => Sys2Proof.Machine.execDescLoadImage q image env s
  | .descLibraryRequest q => Sys2Proof.Machine.execDescLibraryRequest q s
  | .descSwitch q => Sys2Proof.Machine.execDescSwitch q s
  | .descGroupFire q => Sys2Proof.Machine.execDescGroupFire q s
  | .descFence q => Sys2Proof.Machine.execDescFence q s
  | .descNop q => Sys2Proof.Machine.execDescNop q s
  | .completionWrite q => Sys2Proof.Machine.execCompletionWrite q s
  | .irqCoalesceTimeout q => Sys2Proof.Machine.execIrqCoalesceTimeout q s
  | .queueEnable who q val => Sys2Proof.Machine.execQueueEnable who q val s
  | .queueDisable who q val => Sys2Proof.Machine.execQueueDisable who q val s
  | .drainEnd q => Sys2Proof.Machine.execDrainEnd q s
  | .ownerChange q => Sys2Proof.Machine.execOwnerChange q s
  | .walkComplete asid vpn entries error => Sys2Proof.Machine.execWalkComplete asid vpn entries error s
  | .invAll who => Sys2Proof.Machine.execInvAll who s
  | .invAsid who asid => Sys2Proof.Machine.execInvAsid who asid s
  | .invRange who asid npages => Sys2Proof.Machine.execInvRange who asid npages s
  | .invalidationComplete => Sys2Proof.Machine.execInvalidationComplete s
  | .faultRecordWrite error => Sys2Proof.Machine.execFaultRecordWrite error s
  | .faultConsumerReread rec => Sys2Proof.Machine.execFaultConsumerReread rec s
  | .faultRingEnable who val => Sys2Proof.Machine.execFaultRingEnable who val s
  | .ringWriteRetry q => Sys2Proof.Machine.execRingWriteRetry q s
  | .abandon who q => Sys2Proof.Machine.execAbandon who q s
  | .taguse0Read who => Sys2Proof.Machine.execTaguse0Read who s
  | .sessionEstablish b transmit => Sys2Proof.Machine.execSessionEstablish b transmit s
  | .recordSend b aesFault keyError => Sys2Proof.Machine.execRecordSend b aesFault keyError s
  | .scanRowRead resUpset libUpset resGolden libGolden selfTestOk => Sys2Proof.Machine.execScanRowRead resUpset libUpset resGolden libGolden selfTestOk s
  | .residentLapOverrun micros interruptions => Sys2Proof.Machine.execResidentLapOverrun micros interruptions s
  | .frameRewriteStart hardFail => Sys2Proof.Machine.execFrameRewriteStart hardFail s
  | .frameRewriteReread c stratum rereadOk => Sys2Proof.Machine.execFrameRewriteReread c stratum rereadOk s
  | .bundleEnable who b val => Sys2Proof.Machine.execBundleEnable who b val s
  | .bundleDisable who b val => Sys2Proof.Machine.execBundleDisable who b val s
  | .bundleRetrain who b => Sys2Proof.Machine.execBundleRetrain who b s
  | .sleepRequest who b => Sys2Proof.Machine.execSleepRequest who b s
  | .testEnter who b val => Sys2Proof.Machine.execTestEnter who b val s
  | .testExit who b val => Sys2Proof.Machine.execTestExit who b val s
  | .bitInject who b => Sys2Proof.Machine.execBitInject who b s
  | .testCounterClear who b => Sys2Proof.Machine.execTestCounterClear who b s
  | .trainingUp b pbundle lanemap inverted micros => Sys2Proof.Machine.execTrainingUp b pbundle lanemap inverted micros s
  | .trainingTimeout b phase skew => Sys2Proof.Machine.execTrainingTimeout b phase skew s
  | .backoffEnd b => Sys2Proof.Machine.execBackoffEnd b s
  | .backoffClockDetect b => Sys2Proof.Machine.execBackoffClockDetect b s
  | .bundleDown b cause => Sys2Proof.Machine.execBundleDown b cause s
  | .adaptWindowEnd b k density margin badHeaders taps => Sys2Proof.Machine.execAdaptWindowEnd b k density margin badHeaders taps s
  | .lastGoodUpdate b => Sys2Proof.Machine.execLastGoodUpdate b s
  | .retrainReceive b mask => Sys2Proof.Machine.execRetrainReceive b mask s
  | .retrainBurstEnd b margins => Sys2Proof.Machine.execRetrainBurstEnd b margins s
  | .markerSend b bip => Sys2Proof.Machine.execMarkerSend b bip s
  | .markerReceive b k bundle lane seq bip own => Sys2Proof.Machine.execMarkerReceive b k bundle lane seq bip own s
  | .eidleEnter b => Sys2Proof.Machine.execEidleEnter b s
  | .eidleReceive b => Sys2Proof.Machine.execEidleReceive b s
  | .eidleExit b => Sys2Proof.Machine.execEidleExit b s
  | .sleepReceive b => Sys2Proof.Machine.execSleepReceive b s
  | .sleepAckReceive b => Sys2Proof.Machine.execSleepAckReceive b s
  | .sleepAckTimeout b => Sys2Proof.Machine.execSleepAckTimeout b s
  | .beaconSend b => Sys2Proof.Machine.execBeaconSend b s
  | .beaconDetect b => Sys2Proof.Machine.execBeaconDetect b s
  | .flitReceive b bytes tag => Sys2Proof.Machine.execFlitReceive b bytes tag s
  | .nakReceive b seq => Sys2Proof.Machine.execNakReceive b seq s
  | .replayTimeout b => Sys2Proof.Machine.execReplayTimeout b s
  | .initResend b => Sys2Proof.Machine.execInitResend b s
  | .initReceive b expected freed uid fresh pair active => Sys2Proof.Machine.execInitReceive b expected freed uid fresh pair active s
  | .lctlCreditSend b => Sys2Proof.Machine.execLctlCreditSend b s
  | .censusStart b => Sys2Proof.Machine.execCensusStart b s
  | .censusReceive b depth uid => Sys2Proof.Machine.execCensusReceive b depth uid s
  | .censusCollectEnd => Sys2Proof.Machine.execCensusCollectEnd s
  | .reportReceive b size depth => Sys2Proof.Machine.execReportReceive b size depth s
  | .censusTimeout => Sys2Proof.Machine.execCensusTimeout s
  | .assignReceive b base parent => Sys2Proof.Machine.execAssignReceive b base parent s
  | .discoveryStart => Sys2Proof.Machine.execDiscoveryStart s
  | .nodeinfoReceive b info => Sys2Proof.Machine.execNodeinfoReceive b info s
  | .discoverySettle => Sys2Proof.Machine.execDiscoverySettle s
  | .remoteRead b src rid line addrErr => Sys2Proof.Machine.execRemoteRead b src rid line addrErr s
  | .remoteWrite b src rid line be data poison addrErr => Sys2Proof.Machine.execRemoteWrite b src rid line be data poison addrErr s
  | .remoteBitset b src rid line be data addrErr => Sys2Proof.Machine.execRemoteBitset b src rid line be data addrErr s
  | .remoteBitclr b src rid line be data addrErr => Sys2Proof.Machine.execRemoteBitclr b src rid line be data addrErr s
  | .rspReceive rid status poison data => Sys2Proof.Machine.execRspReceive rid status poison data s
  | .bcreditReceive src endpoint beats => Sys2Proof.Machine.execBcreditReceive src endpoint beats s
  | .remoteTimeout rid => Sys2Proof.Machine.execRemoteTimeout rid s
  | .beatReceive src endpoint beat => Sys2Proof.Machine.execBeatReceive src endpoint beat s
  | .cfgbReceive flashB addr bytes load => Sys2Proof.Machine.execCfgbReceive flashB addr bytes load s
  | .streamRouteWrite who val => Sys2Proof.Machine.execStreamRouteWrite who val s
  | .helloReceive hello => Sys2Proof.Machine.execHelloReceive hello s
  | .syncTimeout lineLow => Sys2Proof.Machine.execSyncTimeout lineLow s
  | .arbitrationEnd won => Sys2Proof.Machine.execArbitrationEnd won s
  | .syncBarrier => Sys2Proof.Machine.execSyncBarrier s
  | .stampedDelivery domain cycle late item => Sys2Proof.Machine.execStampedDelivery domain cycle late item s
  | .takeover => Sys2Proof.Machine.execTakeover s
  | .sidebandFault => Sys2Proof.Machine.execSidebandFault s
  | .commitRecord q bytes own => Sys2Proof.Machine.execCommitRecord q bytes own s
  | .commitRecordAck q => Sys2Proof.Machine.execCommitRecordAck q s
  | .progressRecord q cid offset own => Sys2Proof.Machine.execProgressRecord q cid offset own s
  | .selfcheckLapEnd => Sys2Proof.Machine.execSelfcheckLapEnd s
  | .failsilentReceive => Sys2Proof.Machine.execFailsilentReceive s
  | .heartbeatTimeout => Sys2Proof.Machine.execHeartbeatTimeout s
  | .rejoin who => Sys2Proof.Machine.execRejoin who s
  | .rejoinAuto uid lines => Sys2Proof.Machine.execRejoinAuto uid lines s
  | .rejoinBarrier micros => Sys2Proof.Machine.execRejoinBarrier micros s
  | .rejoinEnd micros tbase => Sys2Proof.Machine.execRejoinEnd micros tbase s
  | .rejoinAbandon micros => Sys2Proof.Machine.execRejoinAbandon micros s
  | .xtalSwitch => Sys2Proof.Machine.execXtalSwitch s
  | .xtalFail => Sys2Proof.Machine.execXtalFail s
  | .mgmtCoreFault watchdog => Sys2Proof.Machine.execMgmtCoreFault watchdog s
  | .mgmtCoreRestartDone => Sys2Proof.Machine.execMgmtCoreRestartDone s
  | .supplyMonitorTrip rail high => Sys2Proof.Machine.execSupplyMonitorTrip rail high s
  | .refclkMonitorTrip => Sys2Proof.Machine.execRefclkMonitorTrip s
  | .pllLockLoss pll => Sys2Proof.Machine.execPllLockLoss pll s
  | .gclkChangeEffect n => Sys2Proof.Machine.execGclkChangeEffect n s
  | .fpllMultEffect p => Sys2Proof.Machine.execFpllMultEffect p s
  | .pwrTargetWrite who val => Sys2Proof.Machine.execPwrTargetWrite who val s
  | .ladderEntry partner => Sys2Proof.Machine.execLadderEntry partner s
  | .wake source => Sys2Proof.Machine.execWake source s
  | .ladderTimerExpire => Sys2Proof.Machine.execLadderTimerExpire s
  | .ladderExitDone => Sys2Proof.Machine.execLadderExitDone s
  | .tpOpen who => Sys2Proof.Machine.execTpOpen who s
  | .tpSvalWrite who val => Sys2Proof.Machine.execTpSvalWrite who val s
  | .tpCommit who digest ticket => Sys2Proof.Machine.execTpCommit who digest ticket s
  | .tpAbort who ticket => Sys2Proof.Machine.execTpAbort who ticket s
  | .ticketStagingExpire => Sys2Proof.Machine.execTicketStagingExpire s
  | .ticketArmedExpire => Sys2Proof.Machine.execTicketArmedExpire s
  | .commitApply cut => Sys2Proof.Machine.execCommitApply cut s
  | .spiReadFrame mosi => Sys2Proof.Machine.execSpiReadFrame mosi s
  | .spiWriteFrame mosi => Sys2Proof.Machine.execSpiWriteFrame mosi s
  | .mbColmap who arg => Sys2Proof.Machine.execMbColmap who arg s
  | .mbSpares who arg => Sys2Proof.Machine.execMbSpares who arg s
  | .mbIntegrity who arg => Sys2Proof.Machine.execMbIntegrity who arg s
  | .mbTelemetry who arg => Sys2Proof.Machine.execMbTelemetry who arg s
  | .mailboxReply who => Sys2Proof.Machine.execMailboxReply who s
  | .eventEnqueue leafBad => Sys2Proof.Machine.execEventEnqueue leafBad s
  | .eventTake => Sys2Proof.Machine.execEventTake s
  | .echRearm who => Sys2Proof.Machine.execEchRearm who s
  | .echClearlog who => Sys2Proof.Machine.execEchClearlog who s
  | .echCommit who => Sys2Proof.Machine.execEchCommit who s
  | .echoCommitStart => Sys2Proof.Machine.execEchoCommitStart s
  | .echoCommitEnd failed => Sys2Proof.Machine.execEchoCommitEnd failed s
  | .rdata0Read who => Sys2Proof.Machine.execRdata0Read who s
  | .cvalLoRead who => Sys2Proof.Machine.execCvalLoRead who s
  | .dbgNop => Sys2Proof.Machine.execDbgNop s
  | .dbgRegrd off => Sys2Proof.Machine.execDbgRegrd off s
  | .dbgRegwr off val => Sys2Proof.Machine.execDbgRegwr off val s
  | .dbgHostrd q addr len dun => Sys2Proof.Machine.execDbgHostrd q addr len dun s
  | .dbgHostrdDone data => Sys2Proof.Machine.execDbgHostrdDone data s
  | .dbgBufrd addr => Sys2Proof.Machine.execDbgBufrd addr s
  | .dbgGrtrd off addrErr => Sys2Proof.Machine.execDbgGrtrd off addrErr s
  | .dbgGrtwr off val addrErr => Sys2Proof.Machine.execDbgGrtwr off val addrErr s
  | .jtagExtest => Sys2Proof.Machine.execJtagExtest s
  | .jtagSamplePreload => Sys2Proof.Machine.execJtagSamplePreload s
  | .jtagIdcode => Sys2Proof.Machine.execJtagIdcode s
  | .jtagHighz => Sys2Proof.Machine.execJtagHighz s
  | .jtagClamp => Sys2Proof.Machine.execJtagClamp s
  | .jtagExtestPulse => Sys2Proof.Machine.execJtagExtestPulse s
  | .jtagExtestTrain => Sys2Proof.Machine.execJtagExtestTrain s
  | .jtagDbgap => Sys2Proof.Machine.execJtagDbgap s
  | .jtagBypass => Sys2Proof.Machine.execJtagBypass s
  | .jtagTestLogicReset => Sys2Proof.Machine.execJtagTestLogicReset s
  | .pinLock who key mask => Sys2Proof.Machine.execPinLock who key mask s
  | .dualInputMismatch pin disagree => Sys2Proof.Machine.execDualInputMismatch pin disagree s
  | .dphyBurst port burst => Sys2Proof.Machine.execDphyBurst port burst s
  | .svcInputAccept pin level => Sys2Proof.Machine.execSvcInputAccept pin level s
  | .svcSet who val => Sys2Proof.Machine.execSvcSet who val s
  | .svcClr who val => Sys2Proof.Machine.execSvcClr who val s
  | .svcTgl who val => Sys2Proof.Machine.execSvcTgl who val s
  | .smbusBlockRead command => Sys2Proof.Machine.execSmbusBlockRead command s
  | .smbusReadWord command => Sys2Proof.Machine.execSmbusReadWord command s
  | .smbusAlertResponse => Sys2Proof.Machine.execSmbusAlertResponse s
  | .fundamentalResetDeasserted => Sys2Proof.Machine.execFundamentalResetDeasserted s
  | .refclkAppearingOrDisappearing present => Sys2Proof.Machine.execRefclkAppearingOrDisappearing present s
  | .coreRailInSteadyRange rail => Sys2Proof.Machine.execCoreRailInSteadyRange rail s
  | .checkerSyncChange b k inSync bits errs => Sys2Proof.Machine.execCheckerSyncChange b k inSync bits errs s
  | .testCounterSaturated b k err => Sys2Proof.Machine.execTestCounterSaturated b k err s
  | .aloneReceive => Sys2Proof.Machine.execAloneReceive s
  | .pinCompareMismatch pin => Sys2Proof.Machine.execPinCompareMismatch pin s
  | .grottoCrcExchange own partner => Sys2Proof.Machine.execGrottoCrcExchange own partner s
  | .mirroredOutboundFlit b bytes own => Sys2Proof.Machine.execMirroredOutboundFlit b bytes own s
  | .aerErrorLogged type => Sys2Proof.Machine.execAerErrorLogged type s
  | .ulpsEntryExit port inUlps => Sys2Proof.Machine.execUlpsEntryExit port inUlps s
  | .dphyDeskewCalibration port ok => Sys2Proof.Machine.execDphyDeskewCalibration port ok s
  | .streamRouteBeatSend endpoint beat => Sys2Proof.Machine.execStreamRouteBeatSend endpoint beat s

end Sys2Proof.Machine
end

