-- ==== Sys2Proof/Safety.lean ====
section
/-! DEFINITION. The terms in which the statements speak: a command that completes, an event raised, the bytes of Grotto,
the canonical forms of memory and registers. -/

namespace Sys2Proof

open Sys2Proof.Machine

/-- The command completes: it answers a next state, of which P holds. -/
def Completes (i : Instr) (s : State) (P : State → Prop) : Prop := ∃ t, exec i s = .next t ∧ P t

/-- The parts of the state, for saying what a command leaves alone: one per field of State. -/
inductive Part where
  | regs      -- stored bits of every BAR0 register
  | captures  -- captured halves
  | staged    -- staged halves
  | ev        -- Echo
  | rst       -- reset domains and fences
  | fab       -- fabric
  | lib       -- library and refill
  | integ     -- signature checker
  | grt       -- Grotto
  | que       -- queues
  | arb       -- which queue each priority served last
  | pci       -- PCI Express function
  | xlt       -- translation and tags
  | cry       -- crypto engine
  | cfg       -- loader
  | gvl       -- bundles
  | net       -- network
  | twn       -- Brynerek
  | lys       -- Lysata
  | pin       -- pins, JTAG and debug port
  | seed      -- counter of the free values
  | out       -- what the device has put on its links
  | pending   -- queue of commands
  deriving DecidableEq, Repr

/-- A part of t is as it is in s. -/
def Part.same (s t : State) : Part → Prop
  | .regs => ∀ o, t.reg o = s.reg o
  | .captures => t.captures = s.captures
  | .staged => t.staged = s.staged
  | .ev => t.ev = s.ev
  | .rst => t.rst = s.rst
  | .fab => t.fab = s.fab
  | .lib => t.lib = s.lib
  | .integ => t.integ = s.integ
  | .grt => t.grt = s.grt
  | .que => t.que = s.que
  | .arb => t.arb = s.arb
  | .pci => t.pci = s.pci
  | .xlt => t.xlt = s.xlt
  | .cry => t.cry = s.cry
  | .cfg => t.cfg = s.cfg
  | .gvl => t.gvl = s.gvl
  | .net => t.net = s.net
  | .twn => t.twn = s.twn
  | .lys => t.lys = s.lys
  | .pin => t.pin = s.pin
  | .seed => t.seed = s.seed
  | .out => t.out = s.out
  | .pending => t.pending = s.pending

/-- A frame: t differs from s in the listed parts at most. -/
def OnlyChanges (l : List Part) (s t : State) : Prop := ∀ p, p ∉ l → p.same s t

/-- What raising an event touches besides its own chapter: Echo, and through IRQEN the links or a masked vector's pending
bit (R351, R661, Table Lysata-14). -/
def events : List Part := [.ev, .out, .pci]

/-- In t the event with this code and these record fields stands raised at s's TBASE (R661, R664). -/
def Raised (s t : State) (code : Nat) (fields : List Nat) : Prop := (⟨code, fields, s.now⟩ : Event) ∈ t.ev.raised

/-- What the edges of a global clock touch in a device that is not PAIRED: the chambers and columns on it, pins, SCHED bits,
the descriptors that their commands end, and the hold on refills after a detection (Table Strata-5, Table Strata-6). -/
def edgeParts : List Part := .fab :: .pin :: .regs :: .seed :: .que :: .lib :: events

/-- Chamber c of a column that is not in lockstep can have an edge of its switch clock, and nothing that the device has
ordered waits for that edge (rank 1 of Table Strata-6). -/
def ownEdge (s : State) (c : Nat) : Prop :=
  edgeCan s c = true ∧ (s.col (colOf c)).lock = .off ∧ s.twn.role = 0 ∧ (s.chm c).holdDue = 0 ∧ (s.chm c).quarDue = [] ∧
  (s.chm c).entering = 0 ∧ s.fab.leaving.contains c = false

/-- The management paths of the host through boundaries 3 and 2 carry transfers (R109). -/
def managementUp (s : State) : Bool := !managementDown s 3 && !managementDown s 2

/-- No switch group has a fire under way (rank 2 of Table Strata-6). -/
def noFires (s : State) : Prop := ∀ g, (s.grp g).fire = none ∧ (s.grp g).trig = false

/-- The data byte that Grotto holds at an offset (R257). -/
def grottoByte (s : State) (a : Nat) : Byte := tabGet 0 s.grt.mem a

/-- The canonical form of Grotto: bytes, poison flags and error patterns at rising addresses, none listed that equals
what an unlisted one reads as. -/
def Memory.wf (s : State) : Bool :=
  tabWf 0 s.grt.mem && s.grt.poison.Pairwise (· < ·) && tabWf 0 s.grt.errs

/-- The canonical form of the registers: offsets rising, no register listed at its reset value. -/
def regsWf (s : State) : Bool :=
  (s.regs.map (·.1)).Pairwise (· < ·) && s.regs.all fun p => p.2 != regReset p.1

/-- The queue of commands moved on by exactly its front: what a step of a command leaves is the rest. -/
def queueMovedOn (s t : State) : Prop := t.pending = s.pending.tail

/-- The host request FIFO has taken exactly this request more (R196), and nothing else has changed but the staged half that
a pair write used up. -/
def requestQueued (s : State) (r : LibReq) (t : State) : Prop :=
  t.lib = { s.lib with fifo := s.lib.fifo ++ [r] } ∧ OnlyChanges [.lib, .staged] s t

/-- Nothing waits or is wrong in Grotto: bank queues empty, banks awake, no wrong stored bit, no poisoned word, no
injection armed, the side port open and none of its links stopped, a Grotto tag free and no host access waiting for one. -/
def quietGrotto (s : State) : Prop :=
  sideAborts s = false ∧ downLinks s = [] ∧ grottoTagFree s = true ∧ s.grt.barWait = [] ∧ (∀ b, (s.bank b).queue = [] ∧ (s.bank b).state = 0) ∧ s.grt.errs = [] ∧ s.grt.poison = [] ∧
  s.regB 0x7_0020 31 = false

/-- No bank that is OFF or going OFF has anything queued. -/
def offDrained (s : State) : Prop := ∀ i, (s.bank i).goingOff = true ∨ (s.bank i).state = 2 → (s.bank i).queue = []

/-- Queue q of a SOLO device that masters the bus is RUNNING and holds one descriptor: 256 bits w, number i, arrived at
TBASE a, not yet started; its checks pass (R341, R333). -/
def readyFor (s : State) (q : Nat) (w : BitVec 256) (i a : Nat) : Prop :=
  s.twn.role = 0 ∧ s.masters = true ∧ (s.qu q).st = 1 ∧ (s.qu q).context = [{ raw := w, id := i, arrival := a }] ∧
  startRefusal s (s.qu q) { raw := w, id := i, arrival := a } = none

/-- Descriptor number i of queue q has started and not ended, as one passed on does (R338, R339). -/
def descRuns (t : State) (q : Nat) (w : BitVec 256) (i a : Nat) : Prop :=
  (t.qu q).context = [{ raw := w, id := i, arrival := a, started := true }]

/-- The only descriptor of queue q has ended with this status and RESULT; its completion waits (R343). -/
def descEnded (t : State) (q : Nat) (w : BitVec 256) (status result : Nat) : Prop :=
  ∃ d, (t.qu q).context = [d] ∧ d.raw = w ∧ d.ended = some (status, result)

/-- Memory holds these bytes from an offset on and is otherwise as in s. -/
def storedAt (s t : State) (g : Nat) (bytes : List Byte) : Prop :=
  (∀ i < bytes.length, grottoByte t (g + i) = bytes.getD i 0) ∧
  ∀ a, a < g ∨ g + bytes.length ≤ a → grottoByte t a = grottoByte s a

/-- A run that never stops: every step from s answers a next state. -/
def NeverStops (s : State) : Prop := ∀ n, ∃ t, Host.Core.run core n s = .next t

end Sys2Proof
end

