-- ==== Sys2Proof/Certificates/Slice0/Obligations.lean ====
section
/-! DEFINITION. The statements for the provers: what the spec says the commands of each family do, what a step does, and
the invariants that every step keeps. -/

open Sys2Proof Sys2Proof.Machine

/-- For every command c and state s, the step of s with c at the front of its queue is exec c on s with the queue's rest.
On an empty queue the step answers the idle state; what an idle cycle does is the model's choice (log 40).
(95_what_each_step_holds.md, INDEX.md) -/
def Obligations.StepRunsTheFrontCommand : Prop :=
  (∀ (s : State) (c : Instr) (rest : List Instr), s.pending = c :: rest → step s = exec c { s with pending := rest }) ∧
  (∀ s : State, s.pending = [] → step s = .next (idle s))

/-- For every state, reachable or not, the step answers a next state (no fault, no refusal) whose queue of commands is the
old queue without its front, and so every run of any length goes on. The queue is the model's own (log 40); that no
command stops is log 14. (00_scope.md, Access paths and concurrency, 95_what_each_step_holds.md) -/
def Obligations.EveryStepTakesTheFrontAndGoesOn : Prop :=
  ∀ s : State, (∃ t, step s = .next t ∧ queueMovedOn s t) ∧ NeverStops s

/-- If Memory.wf holds of a state (data bytes and error patterns at rising addresses with none equal to what an unlisted
one reads as, poisoned words rising), it holds after every step, whatever the command. The form is the model's
representation of R257's memory. (07_grotto.md, Organisation and addresses) -/
def Obligations.StepKeepsGrottoCanonical : Prop :=
  ∀ s t : State, Memory.wf s = true → step s = .next t → Memory.wf t = true

/-- If regsWf holds of a state (the stored bits of the BAR0 registers stand at rising offsets and none at its reset
value), it holds after every step, whatever the command. (00_scope.md, BAR0 register space) -/
def Obligations.StepKeepsRegistersCanonical : Prop :=
  ∀ s t : State, regsWf s = true → step s = .next t → regsWf t = true

/-- At State.reset no command waits, every register reads its reset value, Echo's ring is ARMED and its queue and log are
empty, TBASE is 0, the role is SOLO, every bundle is OFF, every queue DISABLED, every Grotto byte zero, every chamber
UNRELEASED, every slot and key EMPTY, output enables and lock groups 0, JTAG at IDCODE and no ticket open; Memory.wf
and regsWf hold. Values for which the manual gives no reset value are the model's choice (logs 1 to 5). (00_scope.md,
BAR0 register space, 11_loading.md, The start-up sequence, 17_echo.md, Reading records, log 2) -/
def Obligations.ResetState : Prop :=
  (let r := State.reset
  r.pending = [] ∧ (∀ off, r.reg off = regReset off) ∧ r.ev.ringState = 0 ∧ r.ev.log = [] ∧ r.ev.queue = [] ∧
  r.now = 0 ∧ r.twn.role = 0 ∧ (∀ b, (r.bun b).st = 0) ∧ (∀ q, (r.qu q).st = 0) ∧ (∀ a, grottoByte r a = 0) ∧
  (∀ c, r.chmState c = 0) ∧ (∀ i, (r.slot i).st = 0) ∧ (∀ k, (r.key k).st = 0) ∧ r.pin.oe = 0 ∧ r.pin.locked = 0 ∧
  r.pin.jtagIr = 2 ∧ r.lys.ticket.st = 0) ∧
  (Memory.wf State.reset = true ∧ regsWf State.reset = true)

/-- On an empty queue the step lets one REFCLK cycle pass: TBASE grows by 10 ns, by 20 ns when the adjustment of R629 is
due, and without REFCLK by 30,517 ns and the carried fraction of the always-on clock (the model's choice of what an
idle step is, log 40). A tick advances the tick counter; while the management cores restart it changes no temperature,
level or warning; otherwise, while the telemetry path carries its readings, it takes Tj, the highest Tj, the power
readings and the balls, raises 0x0D05 when Tj reaches WARN, and raises the tick summaries 0x090A and 0x0E03 of what
has been counted and 0x0A09 for each crypto path that held bytes back. (16_lysata.md, Always-on clock, tick and
timebase, 16_lysata.md, Telemetry and the power cap, 17_echo.md, Events into records, 10_crypto.md, Latency and
capacity, log 40) -/
def Obligations.TimePasses : Prop :=
  (∀ s : State, s.pending = [] →
  (s.lys.refclk = true → tbPpm s = 0 → ∃ t, step s = .next t ∧ t.now = (s.now + 10) % 2 ^ 64 ∧ t.pending = []) ∧
  (s.lys.refclk = false → tbPpm s = 0 → s.lys.frac < 1000000 → ∃ t, step s = .next t ∧ t.pending = [] ∧
    t.lys.frac = (s.lys.frac + 578125) % 1000000 ∧
    t.now = (s.now + 30517 + (s.lys.frac + 578125) / 1000000) % 2 ^ 64) ∧
  (∀ p : Int, s.lys.refclk = true → tbPpm s = p → 0 < p → 10000000 ≤ s.lys.adj + 10 * p.natAbs → ∃ t, step s = .next t ∧
    t.now = (s.now + 20) % 2 ^ 64 ∧ t.lys.adj = s.lys.adj + 10 * p.natAbs - 10000000)) ∧
  (∀ (s : State) (env : TickEnv), s.paired = false →
  (s.lys.restarting = true → Completes (.tick env) s fun t =>
    t.lys.tick = (s.lys.tick + 1) % 2 ^ 32 ∧ t.lys.tj = s.lys.tj ∧ t.lys.level = s.lys.level ∧ t.lys.warned = s.lys.warned ∧
    t.pin.ball = env.balls ∧ t.xlt.peTick = 0 ∧ t.ev.lostTick = 0) ∧
  (s.lys.restarting = false → env.sensors.foldl max (-128) < 127 → telemetryDown s 0 = false → Completes (.tick env) s fun t =>
    t.lys.tick = (s.lys.tick + 1) % 2 ^ 32 ∧ t.lys.tj = env.sensors.foldl max (-128) ∧
    t.lys.tjMax = max s.lys.tjMax (env.sensors.foldl max (-128)) ∧ t.lys.powers = (env.power :: s.lys.powers).take 15 ∧
    t.pin.ball = env.balls ∧
    (s.lys.warned = false → (s.regF 0x1_0030 24 8 : Int) ≤ env.sensors.foldl max (-128) →
      t.lys.warned = true ∧ ∃ sensor, Raised s t 0x0D05 [tjByte (env.sensors.foldl max (-128)), sensor, 1]) ∧
    (s.xlt.peTick ≠ 0 → Raised s t 0x090A [min 65535 s.xlt.peTick]) ∧
    (env.heldXts ≠ 0 → Raised s t 0x0A09 [1, env.heldXts.toNat]) ∧ (env.heldGcm ≠ 0 → Raised s t 0x0A09 [2, env.heldGcm.toNat]) ∧
    (s.ev.lostTick ≠ 0 → Raised s t 0x0E03 [s.ev.lostTick])))

/-- For the registers of the QUE block but QUE_CTRL and of the TWN block but TWN_CMD that are no pair: a write that no
refusal strikes stores the RW bits and leaves every other register and part alone; a refused one stores nothing and
raises the refused-write event with offset, requester and reason; a write with partial byte enables is refused with
PARTIAL. A write that would change the RWL bits of QUE_PROT is refused with RWL, one that leaves them alone changes
nothing. (00_scope.md, Register conventions, 00_scope.md, Access paths and concurrency) -/
def Obligations.RegisterWriteStoresOrIsRefused : Prop :=
  (∀ (s : State) (who : Requester) (off : Nat) (val : Word),
  ((0x8_0000 ≤ off ∧ off < 0x9_0000 ∧ off % 0x100 ≠ 0) ∨ (0xC_0000 ≤ off ∧ off < 0xD_0000 ∧ off ≠ 0xC_0010)) →
  s.twn.role = 0 → (regDesc off).pair = 0 →
  (writeRefusal s (Requester.code who) off 0 val = none → Completes (.registerWrite who off 0xF val) s fun t =>
    t.reg off = (s.reg off &&& ~~~(regDesc off).rw) ||| (val &&& (regDesc off).rw) ∧
    (∀ o, o ≠ off → t.reg o = s.reg o) ∧ OnlyChanges [.regs] s t) ∧
  (∀ reason, writeRefusal s (Requester.code who) off 0 val = some reason →
    Completes (.registerWrite who off 0xF val) s fun t =>
      Raised s t (eventOwner off * 256 + 1) [off, Requester.code who, reason] ∧ OnlyChanges events s t) ∧
  (∀ be : BitVec 4, be ≠ 0xF → Completes (.registerWrite who off be val) s fun t =>
    Raised s t (eventOwner off * 256 + 1) [off, Requester.code who, 1] ∧ OnlyChanges events s t)) ∧
  (∀ (s : State) (who : Requester) (q : Fin 256) (val : Word), s.twn.role = 0 →
  ((s.reg (queReg q 0x2C) ^^^ val) &&& 0xE000_003F ≠ 0 → Completes (.registerWrite who (queReg q 0x2C) 0xF val) s fun t =>
    Raised s t 0x0801 [queReg q 0x2C, Requester.code who, 3] ∧ OnlyChanges events s t) ∧
  ((s.reg (queReg q 0x2C) ^^^ val) &&& 0xE000_003F = 0 → Completes (.registerWrite who (queReg q 0x2C) 0xF val) s fun t =>
    OnlyChanges [] s t))

/-- On the QUE_SQB pair of any queue: a _LO write is staged for its requester and changes no register; the _HI write takes
both halves together and uses the staged half up; a _LO read answers and captures the _HI half; a 64-bit write or read
of the pair is whole and discards the host's capture and staged half; one whose byte enables do not cover the pair is
refused whole with reason PARTIAL. A 64-bit access to two registers that are no pair is two 32-bit accesses, and a
half that is refused does not stop the other (R770). A read of a register of no pair answers its value and changes
nothing. (00_scope.md, Register conventions, 18_combinations.md) -/
def Obligations.RegisterPairsAreWhole : Prop :=
  (∀ (s : State) (who : Requester) (q : Fin 256) (lo hi : Word), s.twn.role = 0 →
  (Completes (.loWriteStage who (queReg q 0x08) lo) s fun t =>
    findHalf t.staged (Requester.code who) (queReg q 0x08) = some lo ∧ OnlyChanges [.staged] s t) ∧
  (findHalf s.staged (Requester.code who) (queReg q 0x08) = some lo → 4 ≤ fld lo 0 5 → fld lo 0 5 ≤ 16 →
    Completes (.hiWriteCommit who (queReg q 0x0C) hi) s fun t =>
      t.reg (queReg q 0x08) = (s.reg (queReg q 0x08) &&& 0xE0) ||| (lo &&& 0xFFFF_FF1F) ∧ t.reg (queReg q 0x0C) = hi ∧
      findHalf t.staged (Requester.code who) (queReg q 0x08) = none ∧ OnlyChanges [.regs, .staged] s t) ∧
  (Completes (.loReadCapture who (queReg q 0x08)) s fun t =>
    t.out = s.out ++ [.reply who (queReg q 0x08) (readLive (Requester.code who) s (queReg q 0x08)) 0] ∧
    findHalf t.captures (Requester.code who) (queReg q 0x0C) = some (readLive (Requester.code who) s (queReg q 0x0C)) ∧
    OnlyChanges [.captures, .out] s t) ∧
  (∀ off, (regDesc off).pair = 0 → isSdata off = false → off ≠ 0x6_0024 → off ≠ 0x6_0028 → off ≠ 0x9_0040 →
    off ≠ 0x9_0044 → off ≠ 0xD_0040 → off < 0x20_0000 → accessStopped s off = false → Completes (.rcRead who off) s fun t =>
      t.out = s.out ++ [.reply who off (readLive (Requester.code who) s off) 0] ∧ OnlyChanges [.out] s t)) ∧
  (∀ (s : State) (q : Fin 256), s.twn.role = 0 →
  (∀ v : BitVec 64, 4 ≤ fld v 0 5 → fld v 0 5 ≤ 16 → Completes (.pairAccess64 (queReg q 0x08) (some v)) s fun t =>
    t.reg (queReg q 0x08) = (s.reg (queReg q 0x08) &&& 0xE0) ||| (v.setWidth 32 &&& 0xFFFF_FF1F) ∧
    t.reg (queReg q 0x0C) = (v >>> 32).setWidth 32 ∧ findHalf t.staged 1 (queReg q 0x08) = none ∧
    findHalf t.captures 1 (queReg q 0x0C) = none ∧ OnlyChanges [.regs, .staged, .captures] s t) ∧
  (Completes (.pairAccess64 (queReg q 0x08) none) s fun t =>
    t.out = s.out ++ [.reply .host (queReg q 0x08) (readLive 1 s (queReg q 0x08)) 0,
      .reply .host (queReg q 0x0C) (readLive 1 s (queReg q 0x0C)) 0] ∧ OnlyChanges [.out, .staged, .captures] s t) ∧
  (∀ v : BitVec 64, Completes (.splitAccess64 (queReg q 0x30) (some v) 0xFF) s fun t =>
    t.reg (queReg q 0x30) = (s.reg (queReg q 0x30) &&& 0x3FFF_FC00) ||| (v.setWidth 32 &&& 0xC000_03FF) ∧
    t.reg (queReg q 0x34) = (s.reg (queReg q 0x34) &&& 0x7000_0200) ||| ((v >>> 32).setWidth 32 &&& 0x8FFF_FDFF) ∧
    OnlyChanges [.regs] s t) ∧
  (∀ v : BitVec 64, Completes (.splitAccess64 (queReg q 0x30) (some v) 0xF7) s fun t =>
    t.reg (queReg q 0x30) = s.reg (queReg q 0x30) ∧ Raised s t 0x0801 [queReg q 0x30, 1, 1] ∧
    t.reg (queReg q 0x34) = (s.reg (queReg q 0x34) &&& 0x7000_0200) ||| ((v >>> 32).setWidth 32 &&& 0x8FFF_FDFF) ∧
    OnlyChanges (.regs :: events) s t) ∧
  (Completes (.splitAccess64 (queReg q 0x30) none 0xFF) s fun t =>
    t.out = s.out ++ [.reply .host (queReg q 0x30) (readLive 1 s (queReg q 0x30)) 0,
      .reply .host (queReg q 0x34) (readLive 1 s (queReg q 0x34)) 0] ∧ OnlyChanges [.out] s t) ∧
  (∀ (v : BitVec 64) (be : BitVec 8), be ≠ 0xFF → Completes (.splitAccess64 (queReg q 0x08) (some v) be) s fun t =>
    Raised s t 0x0801 [queReg q 0x08, 1, 1] ∧ findHalf t.staged 1 (queReg q 0x08) = none ∧
    findHalf t.captures 1 (queReg q 0x0C) = none ∧ OnlyChanges (.staged :: .captures :: events) s t))

/-- A host read in the reserved BAR2 range completes with zero data, a host write there changes nothing, and either raises
the refused-write event of subsystem 7 with the reason RANGE_READ or RANGE_WRITE, whether it comes as an access of its
own or as a BAR2 read or write at such an offset. (R21) -/
def Obligations.ReservedBar2Range : Prop :=
  ∀ (s : State) (off : Nat),
  (Completes (.bar2ReservedAccess true off) s fun t => Raised s t 0x0701 [off, 1, 4] ∧ OnlyChanges events s t) ∧
  (Completes (.bar2ReservedAccess false off) s fun t =>
    Raised s t 0x0701 [off, 1, 5] ∧ t.out = s.out ++ [.bar2 [0, 0, 0, 0] false 0] ∧ OnlyChanges events s t) ∧
  (∀ (be : List Bool) (data : List Byte) (bad : List Nat), 0x1800_0000 ≤ off → Completes (.bar2Write off be data bad) s fun t =>
    Raised s t 0x0701 [off, 1, 4] ∧ (∀ a, grottoByte t a = grottoByte s a) ∧ OnlyChanges events s t) ∧
  (∀ (n : Nat) (bad : List Nat), 0x1800_0000 ≤ off → Completes (.bar2Read off n bad) s fun t =>
    Raised s t 0x0701 [off, 1, 5] ∧ t.out = s.out ++ [.bar2 (List.replicate n 0) false 0] ∧ OnlyChanges events s t)

/-- The crystal's failure and return switch the always-on clock; REFCLK's presence is seen; a global clock's register
comes into use while no chamber uses that clock; a changed FPLL multiplier comes into use, unlocked, while no global
clock runs from it. With the fault action REPORT, a REFCLK trip, a lost PLL lock, a supply trip and a management core
fault raise 0x0D0B, 0x0D0A or 0x0D0D and 0x0D0C with the action taken, and set DEVFAULT; the cores' restart ends.
(16_lysata.md, Management cores and device faults, 16_lysata.md, Clock domains, 16_lysata.md, Always-on clock, tick
and timebase) -/
def Obligations.MonitorsAndDeviceFaults : Prop :=
  ((∀ s : State, s.lys.xtalRun = true → Completes .xtalFail s fun t =>
    t.lys = { s.lys with xtalRun := false } ∧ Raised s t 0x0D0B [0x01] ∧ OnlyChanges (.lys :: events) s t) ∧
  (∀ s : State, s.regB 0x1_0004 29 = true → s.lys.restarting = false → Completes .xtalSwitch s fun t =>
    t.lys = { s.lys with xtalRun := true } ∧ OnlyChanges [.lys] s t) ∧
  (∀ (s : State) (p : Bool), Completes (.refclkAppearingOrDisappearing p) s fun t =>
    t.lys = { s.lys with refclk := p, refOk := p } ∧ OnlyChanges [.lys] s t) ∧
  (∀ (s : State) (n : Fin 32), clockUsed s n = false → s.lys.restarting = false → Completes (.gclkChangeEffect n) s fun t =>
    t.gclkOf n = s.reg (gclkReg n) &&& gclkMask ∧ (∀ m, m ≠ n.val → t.gclkOf m = s.gclkOf m) ∧ OnlyChanges [.lys] s t) ∧
  (∀ (s : State) (p : Fin 2), (∀ n < 32, fld (s.gclkOf n) 28 2 = p.val → bit (s.gclkOf n) 31 = false) →
    s.lys.restarting = false → s.regF (0x1_0040 + 4 * p) 0 7 ≠ s.fpllOf p → Completes (.fpllMultEffect p) s fun t =>
      t.fpllOf p = s.regF (0x1_0040 + 4 * p) 0 7 ∧ tabGet false t.lys.locked p = false ∧ OnlyChanges [.lys] s t)) ∧
  (∀ s : State, s.twinStart = false → s.regF 0x1_0004 30 2 = 0 →
  (s.pstate ≠ 5 → Completes .refclkMonitorTrip s fun t =>
    t.lys = { s.lys with refOk := false, devfault := true } ∧ Raised s t 0x0D0B [0x00] ∧ Raised s t 0x0D0C [0x0D0B, 0] ∧
    OnlyChanges (.lys :: events) s t) ∧
  (s.pstate < 3 → ∀ p : Fin 7, Completes (.pllLockLoss p) s fun t =>
    t.lys.devfault = true ∧ (p.val < 2 → tabGet false t.lys.locked p = false) ∧
    Raised s t 0x0D0B [0x10 + p] ∧ Raised s t 0x0D0C [0x0D0B, 0] ∧ OnlyChanges (.lys :: events) s t) ∧
  (∀ (r : Fin 7) (high : Bool), Completes (.supplyMonitorTrip r high) s fun t =>
    t.lys = { s.lys with devfault := true } ∧ Raised s t 0x0D0A [r, if high then 2 else 1] ∧
    Raised s t 0x0D0C [0x0D0A, 0] ∧ OnlyChanges (.lys :: events) s t) ∧
  (s.lys.ticket.st = 0 → ∀ w : Bool, Completes (.mgmtCoreFault w) s fun t =>
    t.lys = { s.lys with restarting := true, coresOk := false, devfault := true } ∧
    Raised s t 0x0D0D [if w then 2 else 1] ∧ Raised s t 0x0D0C [0x0D0D, 0] ∧ OnlyChanges (.lys :: events) s t) ∧
  (Completes .mgmtCoreRestartDone s fun t =>
    t.lys = { s.lys with restarting := false, coresOk := true } ∧ OnlyChanges [.lys] s t))

/-- OPEN in IDLE starts a ticket with the next number and no entries; an entry that no rule refuses joins it and the
digest follows; a refused one raises 0x0D01 with STAGING. A COMMIT with the right number and digest of a party that
has not committed moves STAGING to ARMED and ARMED to APPLYING; a wrong digest, an ABORT and either timeout end the
ticket with 0x0D10 and their reason. (16_lysata.md, Two-party protection changes) -/
def Obligations.TicketNeedsBothParties : Prop :=
  (∀ (s : State) (who : Requester) (p : Nat), partyOf who = some p →
  (s.lys.ticket.st = 0 → Completes (.tpOpen who) s fun t =>
    t.lys.ticket.st = 1 ∧ t.lys.ticket.num = (if s.lys.ticket.num = 65535 then 1 else s.lys.ticket.num + 1) ∧
    t.lys.ticket.entries = [] ∧ t.lys.ticket.sup = (p == 1) ∧ Raised s t 0x0D0E [t.lys.ticket.num, p] ∧
    OnlyChanges (.lys :: events) s t) ∧
  (∀ val : Word, stageRefusal s who (s.reg 0x1_0108).toNat val = none → s.twn.role ≠ 2 →
    Completes (.tpSvalWrite who val) s fun t =>
      t.lys.ticket.entries = s.lys.ticket.entries ++ [((s.reg 0x1_0108).toNat, val)] ∧
      t.lys.ticket.digest = digestOf t.lys.ticket ∧ t.lys.ticket.st = s.lys.ticket.st ∧ OnlyChanges [.lys] s t) ∧
  (∀ val : Word, stageRefusal s who (s.reg 0x1_0108).toNat val = some 6 → Completes (.tpSvalWrite who val) s fun t =>
      Raised s t 0x0D01 [0x1_010C, Requester.code who, 6] ∧ OnlyChanges events s t)) ∧
  (∀ (s : State) (who : Requester) (p : Nat), partyOf who = some p →
  (∀ t0 : Nat, s.lys.ticket.st = t0 → t0 = 1 ∨ t0 = 2 → s.lys.ticket.num < 65536 → s.lys.ticket.committed p = false →
    Completes (.tpCommit who s.lys.ticket.digest (BitVec.ofNat 16 s.lys.ticket.num)) s fun t =>
      t.lys.ticket = { s.lys.ticket.mark p with st := t0 + 1 } ∧ OnlyChanges [.lys, .staged] s t) ∧
  (∀ digest : Word, digest ≠ s.lys.ticket.digest → s.lys.ticket.st = 1 ∨ s.lys.ticket.st = 2 →
    s.lys.ticket.num < 65536 → s.lys.ticket.committed p = false →
    Completes (.tpCommit who digest (BitVec.ofNat 16 s.lys.ticket.num)) s fun t =>
      t.lys.ticket = { s.lys.ticket with st := 0 } ∧ Raised s t 0x0D10 [s.lys.ticket.num, p, 3] ∧
      OnlyChanges (.lys :: .staged :: events) s t) ∧
  (s.lys.ticket.st = 1 ∨ s.lys.ticket.st = 2 → s.lys.ticket.num < 65536 →
    Completes (.tpAbort who (BitVec.ofNat 16 s.lys.ticket.num)) s fun t =>
      t.lys.ticket = { s.lys.ticket with st := 0 } ∧ Raised s t 0x0D10 [s.lys.ticket.num, p, 5] ∧
      OnlyChanges (.lys :: .staged :: events) s t) ∧
  (s.lys.ticket.st = 1 → Completes .ticketStagingExpire s fun t =>
    t.lys.ticket = { s.lys.ticket with st := 0 } ∧ Raised s t 0x0D10 [s.lys.ticket.num, 0xFF, 6] ∧
    OnlyChanges (.lys :: events) s t) ∧
  (s.lys.ticket.st = 2 → Completes .ticketArmedExpire s fun t =>
    t.lys.ticket = { s.lys.ticket with st := 0 } ∧ Raised s t 0x0D10 [s.lys.ticket.num, 0xFF, 6] ∧
    OnlyChanges (.lys :: events) s t))

/-- An ABORT whose ticket differs from the current one leaves all of Lysata as it was in any state; in STAGING and ARMED
it raises 0x0D10 with the reason TICKET, in IDLE and APPLYING nothing. A staged half of the register pair is used up
by the write, as by any. (R653) -/
def Obligations.AbortOfAnotherTicket : Prop :=
  ∀ (s : State) (who : Requester) (p : Nat) (n : BitVec 16), partyOf who = some p → n.toNat ≠ s.lys.ticket.num →
  (s.lys.ticket.st = 1 ∨ s.lys.ticket.st = 2 → Completes (.tpAbort who n) s fun t =>
    t.lys = s.lys ∧ Raised s t 0x0D10 [s.lys.ticket.num, p, 2] ∧ OnlyChanges (.staged :: events) s t) ∧
  (s.lys.ticket.st = 0 ∨ s.lys.ticket.st = 3 → Completes (.tpAbort who n) s fun t => OnlyChanges [.staged] s t)

/-- A ticket in APPLYING with one entry for QUE_PROT of a queue writes exactly that register's RWL bits from the entry's
value, leaves every other register alone, returns to IDLE and raises 0x0D0F with ticket, digest and the number of
entries. (16_lysata.md, Two-party protection changes, 00_scope.md, Register conventions) -/
def Obligations.CommitAppliesProtectedField : Prop :=
  ∀ (s : State) (q : Fin 256) (val : Word) (cut : Option Nat), s.lys.ticket.st = 3 → s.lys.restarting = false → s.twn.role = 0 →
    s.lys.ticket.entries = [(queReg q 0x2C, val)] → Completes (.commitApply cut) s fun t =>
      t.reg (queReg q 0x2C) = (s.reg (queReg q 0x2C) &&& 0x1FFF_FFC0) ||| (val &&& 0xE000_003F) ∧
      (∀ o, o ≠ queReg q 0x2C → t.reg o = s.reg o) ∧ t.lys.ticket = { s.lys.ticket with st := 0 } ∧
      Raised s t 0x0D0F [s.lys.ticket.num, s.lys.ticket.digest.toNat, 1] ∧ OnlyChanges (.regs :: .lys :: events) s t

/-- A target write within P5 is stored and makes an entry pending, one above is refused; an entry into P1 whose conditions
hold sets the state with 0x0D02; an enabled wake source and the wake timer start an exit to P0, clear the target and
raise 0x0D04; an exit's end sets P0 with 0x0D02 and the cause. In a pair (log 84) the lead sends an entry and either
device an exit, the shadow's own entry row changes nothing, and both take effect when they are delivered.
(16_lysata.md, The power ladder) -/
def Obligations.PowerLadderMoves : Prop :=
  (∀ (s : State) (who : Requester) (val : Word), fld val 29 3 ≤ 5 → s.pstate ≤ fld val 29 3 → s.paired = false →
    Completes (.pwrTargetWrite who val) s fun t =>
      t.regF 0x1_0008 29 3 = fld val 29 3 ∧ t.lys = { s.lys with pend := decide (s.pstate < fld val 29 3), waited := 0 } ∧
      OnlyChanges [.regs, .lys] s t) ∧
  (∀ (s : State) (who : Requester) (val : Word), 5 < fld val 29 3 → Completes (.pwrTargetWrite who val) s fun t =>
      Raised s t 0x0D01 [0x1_0008, Requester.code who, 2] ∧ OnlyChanges events s t) ∧
  (∀ (s : State) (partner : Fin 6), s.pstate = 0 → effectiveTarget s partner = 1 → s.lys.exiting = false →
    s.lys.restarting = false →
    (s.paired = false → s.twn.pstate ≠ 5 → Completes (.ladderEntry partner) s fun t =>
      t.pstate = 1 ∧ t.lys.pend = false ∧ Raised s t 0x0D02 [0, 1, 1] ∧ OnlyChanges (.lys :: events) s t) ∧
    (s.twn.role = 1 → s.twinUp = true → Completes (.ladderEntry partner) s fun t =>
      t.out = s.out ++ [.twin 26 [0, 1, 1]] ∧ t.pstate = 0 ∧ OnlyChanges [.out] s t) ∧
    (s.twn.role = 2 → exec (.ladderEntry partner) s = .next s)) ∧
  (∀ (s : State) (b : Fin 7), 1 ≤ s.pstate → s.pstate ≤ 3 → s.lys.exiting = false → b.val ≠ 3 → b.val ≠ 6 →
    s.regB 0x1_000C b = true →
    (s.paired = false → Completes (.wake b) s fun t =>
      t.lys.exiting = true ∧ t.lys.exitTo = 0 ∧ t.lys.exitCause = 0x10 + b ∧ bit t.lys.wakest b = true ∧
      t.regF 0x1_0008 29 3 = 0 ∧ t.pstate = s.pstate ∧ Raised s t 0x0D04 [b] ∧
      OnlyChanges (.regs :: .lys :: events) s t) ∧
    (s.paired = true → s.twinUp = true → Completes (.wake b) s fun t =>
      .twin 26 [1, 0, BitVec.ofNat 8 (0x10 + b)] ∈ t.out ∧ t.lys.exiting = false ∧ bit t.lys.wakest b = true ∧
      t.regF 0x1_0008 29 3 = 0 ∧ t.pstate = s.pstate ∧ Raised s t 0x0D04 [b] ∧
      OnlyChanges (.regs :: .lys :: .out :: events) s t)) ∧
  (∀ (s : State) (d : Fin 40) (n : Nat) (c : BitVec 8), s.paired = true → s.lys.exiting = false →
    (1 ≤ s.pstate → s.pstate ≤ 3 → Completes (.stampedDelivery d n false (.ladder true 0 c)) s fun t =>
      t.lys.exiting = true ∧ t.lys.exitTo = 0 ∧ t.lys.exitCause = c.toNat ∧ t.pstate = s.pstate ∧
      OnlyChanges [.lys, .twn] s t) ∧
    (s.pstate = 0 → s.twn.pstate ≠ 5 → Completes (.stampedDelivery d n false (.ladder false 1 1)) s fun t =>
      t.pstate = 1 ∧ Raised s t 0x0D02 [0, 1, 1] ∧ OnlyChanges (.lys :: .twn :: events) s t)) ∧
  (∀ s : State, 1 ≤ s.pstate → s.pstate ≤ 3 → s.lys.exiting = false → s.lys.timer = some 0 → s.regB 0x1_000C 0 = true →
    s.paired = false → Completes .ladderTimerExpire s fun t =>
      t.lys.exiting = true ∧ t.lys.exitTo = 0 ∧ t.lys.timer = none ∧ bit t.lys.wakest 0 = true ∧ Raised s t 0x0D04 [0] ∧
      OnlyChanges (.regs :: .lys :: events) s t) ∧
  (∀ s : State, s.pstate = 1 → s.lys.exiting = true → s.lys.exitFrom = 1 → s.lys.exitTo = 0 →
    (∀ b < 8, s.regB (gvlReg b 0) 31 = false) → Completes .ladderExitDone s fun t =>
      t.pstate = 0 ∧ t.lys.exiting = false ∧ Raised s t 0x0D02 [1, 0, s.lys.exitCause] ∧ OnlyChanges (.lys :: events) s t)

/-- Each of the four mailbox commands of a party whose mailbox is free makes it BUSY with its code and argument and
changes nothing else; the reply clears BUSY and gives status and words. SMBus answers Block Read 0x04 with the 27
telemetry words, Read Word 0x10 with the status half and the alert response while the alert pin is low, and
acknowledges no other command. (16_lysata.md, Mailbox, 19_pins.md, Service pins) -/
def Obligations.MailboxAndSmbus : Prop :=
  (∀ (s : State) (who : Requester) (arg : BitVec 24), (partyOf who).isSome = true → s.lys.restarting = false →
  (tabGet ({} : Mailbox) s.lys.boxes (Requester.code who)).busy = false →
  (Completes (.mbColmap who arg) s fun t => (tabGet {} t.lys.boxes (Requester.code who)).busy = true ∧
    (tabGet {} t.lys.boxes (Requester.code who)).code = 1 ∧ (tabGet {} t.lys.boxes (Requester.code who)).arg = arg.toNat ∧
    OnlyChanges [.lys] s t) ∧
  (Completes (.mbSpares who arg) s fun t => (tabGet {} t.lys.boxes (Requester.code who)).busy = true ∧
    (tabGet {} t.lys.boxes (Requester.code who)).code = 2 ∧ (tabGet {} t.lys.boxes (Requester.code who)).arg = arg.toNat ∧
    OnlyChanges [.lys] s t) ∧
  (Completes (.mbIntegrity who arg) s fun t => (tabGet {} t.lys.boxes (Requester.code who)).busy = true ∧
    (tabGet {} t.lys.boxes (Requester.code who)).code = 3 ∧ (tabGet {} t.lys.boxes (Requester.code who)).arg = arg.toNat ∧
    OnlyChanges [.lys] s t) ∧
  (Completes (.mbTelemetry who arg) s fun t => (tabGet {} t.lys.boxes (Requester.code who)).busy = true ∧
    (tabGet {} t.lys.boxes (Requester.code who)).code = 4 ∧ (tabGet {} t.lys.boxes (Requester.code who)).arg = arg.toNat ∧
    OnlyChanges [.lys] s t)) ∧
  ((∀ (s : State) (who : Requester) (b : Mailbox), s.lys.restarting = false →
    tabGet {} s.lys.boxes (Requester.code who) = b → b.busy = true → Completes (.mailboxReply who) s fun t =>
      tabGet {} t.lys.boxes (Requester.code who) = { b with busy := false, status := (mailboxAnswer s b.code b.arg).1, words := (mailboxAnswer s b.code b.arg).2 } ∧
      OnlyChanges [.lys] s t) ∧
  (∀ s : State, mailboxAnswer s 4 0 = (0, telemetry s) ∧ (telemetry s).length = 27 ∧ (mailboxAnswer s 0 0).1 = 1 ∧
    (mailboxAnswer s 3 1).1 = 2) ∧
  (∀ s : State, Completes (.smbusBlockRead 0x04) s fun t =>
    t.out = s.out ++ [.smbus (leBytes 1 108 ++ ((telemetry s).flatMap fun w => leBytes 4 w.toNat) ++
      pec ([0xB4, 0x04, 0xB5] ++ (leBytes 1 108 ++ (telemetry s).flatMap fun w => leBytes 4 w.toNat))) true] ∧
    OnlyChanges [.out] s t) ∧
  (∀ s : State, Completes (.smbusReadWord 0x10) s fun t =>
    t.out = s.out ++ [.smbus (leBytes 2 (fld (statusHigh s) 16 16) ++
      pec ([0xB4, 0x10, 0xB5] ++ leBytes 2 (fld (statusHigh s) 16 16))) true] ∧ OnlyChanges [.out] s t) ∧
  (∀ (s : State) (c : Byte), c ≠ 0x10 → Completes (.smbusReadWord c) s fun t =>
    t.out = s.out ++ [.smbus [] false] ∧ OnlyChanges [.out] s t) ∧
  (∀ s : State, svcDrive s 3 = some false → Completes .smbusAlertResponse s fun t =>
    t.out = s.out ++ [.smbus ([0xB4] ++ pec [0x19, 0xB4]) true] ∧ OnlyChanges [.out] s t))

/-- A LYS_RST write in P0 or P1 requests the domains not already in reset, elsewhere it raises 0x0D03. The start puts the
requested domains into reset, and does nothing while the management processor restarts; for FIO alone it clears the
pins' output registers; the release ends it and raises 0x0D11. A closed fence aborts new requests, reopens with 0x0203
when no domain that closed it is in reset and stays closed otherwise, and a missed bound raises 0x0204 as a detected
device fault. (16_lysata.md, Domain resets, 01_stack.md, Reset domains, 01_stack.md, Die-boundary fences) -/
def Obligations.DomainResetsAndFences : Prop :=
  ((∀ (s : State) (who : Requester) (mask : Word), s.pstate < 2 → Completes (.domainResetRequest who mask) s fun t =>
    t.rst = { s.rst with requested := s.rst.requested ||| (((mask &&& 0xFF1F).setWidth 16) &&& ~~~s.rst.inReset) } ∧
    OnlyChanges [.rst] s t) ∧
  (∀ (s : State) (who : Requester) (mask : Word), 2 ≤ s.pstate → mask &&& 0xFF1F ≠ 0 →
    Completes (.domainResetRequest who mask) s fun t =>
      Raised s t 0x0D03 [(mask &&& 0xFF1F).toNat, 0x0B] ∧ OnlyChanges events s t) ∧
  (∀ s : State, s.twn.role = 0 → s.rst.requested ≠ 0 → s.lys.restarting = true → exec .domainResetStart s = .next s) ∧
  (∀ s : State, s.twn.role = 0 → s.rst.requested ≠ 0 → s.lys.restarting = false → Completes .domainResetStart s fun t =>
    t.rst.requested = 0 ∧ t.rst.inReset = s.rst.inReset ||| s.rst.requested ∧ t.lys = s.lys) ∧
  (∀ s : State, s.twn.role = 0 → s.rst.requested = 0x10 → s.rst.inReset = 0 →
    s.lys.restarting = false → Completes .domainResetStart s fun t =>
    t.rst.requested = 0 ∧ t.rst.inReset = 0x10 ∧ t.rst.released = s.rst.released &&& 0xFFEF ∧
    (∀ b, tabGet 0 t.rst.closedFor b = tabGet 0 s.rst.closedFor b) ∧
    t.pin.outv = 0 ∧ t.pin.oe = 0 ∧ (∀ p, (tabGet {} t.pin.ports p).buffer = []) ∧ OnlyChanges [.rst, .pin] s t) ∧
  (∀ (s : State) (micros : BitVec 8), s.rst.inReset = 0x10 → Completes (.domainResetRelease micros) s fun t =>
    t.rst = { s.rst with inReset := 0, released := s.rst.released ||| 0x10 } ∧
    Raised s t 0x0D11 [0x10, micros.toNat] ∧ OnlyChanges (.rst :: events) s t)) ∧
  (∀ (s : State) (b : Fin 4) (m : Nat), tabGet 0 s.rst.closedFor b = m → 0 < m → m < 65536 →
  (BitVec.ofNat 16 m &&& s.rst.inReset = 0 → Completes (.fenceReopen b) s fun t =>
    tabGet 0 t.rst.closedFor b = 0 ∧ (∀ x, x ≠ b.val → tabGet 0 t.rst.closedFor x = tabGet 0 s.rst.closedFor x) ∧
    Raised s t 0x0203 [b, m] ∧ OnlyChanges (.rst :: events) s t) ∧
  (BitVec.ofNat 16 m &&& s.rst.inReset ≠ 0 → exec (.fenceReopen b) s = .next s) ∧
  (∀ (c : ChamberId) (k : StratumId), Completes (.fenceAbortNewRequest b c k) s fun t =>
    t.out = s.out ++ [.portAbort c k] ∧ OnlyChanges [.out] s t) ∧
  (∀ n : BitVec 16, s.twinStart = false → s.regF 0x1_0004 30 2 = 0 → Completes (.fenceBoundMissed b n) s fun t =>
    t.lys = { s.lys with devfault := true } ∧ Raised s t 0x0204 [b, m, n.toNat] ∧ Raised s t 0x0D0C [0x0204, 0] ∧
    OnlyChanges (.lys :: events) s t))

/-- A HOST reset takes the HOST domain into reset, empties queues, translation and key table, puts the registers of the
QUE block and the XLT block's page back to their reset values and leaves every other register alone, and closes the
host fence with 0x0202. PERST's end lets the host port come up; a rail loss disables the drivers; a link change takes
what the host has programmed with 0x080A, a logged error is kept with 0x080C; a write to an MSI-X table entry in BAR4
changes that entry, and a read answers it (the layout of BAR4 is the model's, log 95). (01_stack.md, Reset domains,
08_queues.md, The PCI Express function, 16_lysata.md, Management cores and device faults) -/
def Obligations.HostResetAndLinkEvents : Prop :=
  ((∀ (s : State) (src : HostResetSource), s.inReset 5 = false → tabGet 0 s.rst.closedFor 3 = 0 →
    Completes (.hostReset src) s fun t =>
      t.inReset 5 = true ∧ t.cfg.keyLoad = true ∧ t.cfg.hostUp = false ∧
      (t.cfg.perst = false ↔ src = .fundamental ∨ s.cfg.perst = false) ∧ (∀ q, (t.qu q).st = 0 ∧ (t.qu q).context = [] ∧ (t.qu q).setup = {} ∧ (t.qu q).sqCi = 0 ∧ (t.qu q).cqPi = 0) ∧ t.arb = [] ∧
      t.xlt = { peTick := s.xlt.peTick } ∧ t.twn.held = [] ∧
      (∀ b rx, (t.sess b rx).running = false ∧ (t.sess b rx).counter = 0 ∧ (t.sess b rx).own = none ∧ (t.sess b rx).peer = none) ∧
      t.pci = { subsystem := s.pci.subsystem } ∧ t.cry.loaded = false ∧
      (∀ k, (t.key k).st = 0) ∧
      (∀ o, 0x8_0000 ≤ o → o < 0x9_1000 → t.reg o = regReset o) ∧
      t.reg 0xA_0004 = regReset 0xA_0004 ∧
      (∀ o, o < 0x8_0000 ∨ 0x9_1000 ≤ o → o ≠ 0xA_0004 → t.reg o = s.reg o) ∧ Raised s t 0x0202 [3, 0x20, 0]) ∧
  (∀ s : State, s.cfg.keyLoad = false → s.cfg.hostUp = false → 4 ≤ s.cfg.stage → s.cfg.stage ≠ 13 → s.pstate ≠ 5 →
    (∀ b < 8, s.bunUp b = false) → Completes .fundamentalResetDeasserted s fun t =>
      t.cfg = { s.cfg with perst := true, hostUp := true } ∧ t.inReset 5 = false ∧ OnlyChanges [.cfg, .rst] s t) ∧
  (∀ s : State, s.cfg.keyLoad = true → Completes .fundamentalResetDeasserted s fun t =>
      t.cfg = { s.cfg with perst := true } ∧ OnlyChanges [.cfg] s t) ∧
  (∀ (s : State) (r : Fin 7), Completes (.railLoss r) s fun t =>
    t.lys = { s.lys with driversOff := true } ∧ OnlyChanges [.lys] s t)) ∧
  ((∀ (s : State) (speed width ltssm : BitVec 8) (power : LinkPower) (d3 : Bool) (prog : PcieProg),
    Completes (.linkStateChange speed width ltssm power d3 prog) s fun t =>
      t.lys.link = power ∧ t.lys.d3hot = d3 ∧ Raised s t 0x080A [speed.toNat, width.toNat, ltssm.toNat] ∧
      t.pci.relaxed = prog.relaxed ∧ t.pci.msixOn = prog.msixOn ∧ t.pci.msixMask = prog.msixMask ∧ t.pci.table = s.pci.table ∧
      (prog.maxPayload = 128 ∨ prog.maxPayload = 256 ∨ prog.maxPayload = 512 → t.pci.maxPayload = prog.maxPayload) ∧
      OnlyChanges (.lys :: events) s t) ∧
  (∀ (s : State) (type : BitVec 8), Completes (.aerErrorLogged type) s fun t =>
    Raised s t 0x080C [type.toNat] ∧ t.pci = { s.pci with aer := setAdd type.toNat s.pci.aer } ∧ OnlyChanges events s t) ∧
  (∀ (s : State) (v : Fin 512) (val : Word), s.pci.pba = [] →
    (Completes (.registerWrite .host (0x20_0008 + 16 * v) 0xF val) s fun t =>
      t.msixEntry v = { s.msixEntry v with data := val } ∧ (∀ k, k ≠ v.val → t.msixEntry k = s.msixEntry k) ∧
      OnlyChanges [.pci] s t) ∧
    (Completes (.rcRead .host (0x20_0008 + 16 * v)) s fun t =>
      t.out = s.out ++ [.bar4 (s.msixEntry v).data] ∧ OnlyChanges [.out] s t)))

/-- Power-on with no flash that answers stops at the ROM's wait with 0x0503 FLASH_READ for both flashes, with mode, unique
ID, SVN and revocations taken; a retry tries both again; with flashes that answer but carry no directory it reads each
directory and its copy. A manager that clocks its flashes reads none of them and selects nothing before its census has
ended. Rails that come late are waited for and told. In step 8 the rise of CFG_DONE, or DONEWAIT's end, releases the
fabric, starts the scan lanes, clears the pins' enables and raises 0x050B; every chamber then leaves UNRELEASED at the
first edge of its own switch clock, in its start stratum, with 0x0302 when that is not loaded; with DONEWAIT 0 it only
raises 0x0507. (11_loading.md, The start-up sequence, 11_loading.md, Pins while loading, 11_loading.md, Many devices
from one stream, 20_electrical.md, Sequencing) -/
def Obligations.StartUpAndFabricRelease : Prop :=
  ((∀ (s : State) (b : Board), (b.mode.toNat % 4 ≠ 1 ∨ b.listen = true) → b.mode.toNat % 4 ≠ 2 → b.flashA.answers = false → b.flashB.answers = false →
    Completes (.powerOn b) s fun t =>
      t.cfg.stage = 0xD ∧ t.cfg.mode = b.mode ∧ t.cfg.uid = s.cfg.fuses.uid ||| b.fuses.uid ∧
      t.cfg.svn = max s.cfg.fuses.svn (min 128 b.fuses.svn) ∧ t.cfg.revoked = s.cfg.fuses.revoked ||| b.fuses.revoked ∧ t.inReset 5 = true ∧ t.fab.released = false ∧ t.lys.refclk = b.refclk ∧
      (⟨0x0503, [0, 0, 0, 1, 0xFFFF], 0⟩ : Event) ∈ t.ev.raised ∧ (⟨0x0503, [0, 1, 0, 1, 0xFFFF], 0⟩ : Event) ∈ t.ev.raised ∧
      (∀ k < 16, t.regF (bankReg k) 27 2 = if bit b.pull k then 2 else 1) ∧ t.pending = s.pending) ∧
  (∀ (s : State) (b : Board), b.mode.toNat % 4 = 1 → b.listen = false → Completes (.powerOn b) s fun t =>
      t.cfg.stage = 2 ∧ t.cfg.picked = [] ∧ t.cfg.mode = b.mode ∧ (∀ e ∈ t.ev.raised, e.code ≠ 0x0503) ∧ t.net.settled = false) ∧
  (∀ (s : State) (a b : Flash), s.cfg.stage = 0xD → (s.netMode ≠ 1 ∨ s.net.settled = true ∨ s.cfg.listen = true) → s.netMode ≠ 2 → s.regB 0xF_0004 30 = false → a.answers = false →
    b.answers = false → Completes (.romRetry a b) s fun t =>
      t.cfg.stage = 0xD ∧ t.cfg.flashA = some a ∧ t.cfg.flashB = some b ∧ Raised s t 0x0503 [0, 0, 0, 1, 0xFFFF] ∧
      Raised s t 0x0503 [0, 1, 0, 1, 0xFFFF] ∧ OnlyChanges (.cfg :: events) s t) ∧
  (∀ (s : State) (a b : Flash), s.cfg.stage = 0xD → (s.netMode ≠ 1 ∨ s.net.settled = true) → s.netMode ≠ 2 →
    s.cfg.listen = false → s.regB 0xF_0004 30 = false → a.answers = true → a.directory = false → b.answers = true →
    b.directory = false → Completes (.romRetry a b) s fun t =>
      t.cfg.stage = 0xD ∧ tabGet 0 t.cfg.flashClk 0 = 50 ∧ tabGet 0 t.cfg.flashClk 1 = 50 ∧
      t.out = s.out ++ [.flash 5 0 [0], .flash 6 25 [0], .flash 7 0 [0], .flash 8 50 [0],
        .flash 5 0 [1], .flash 6 25 [1], .flash 7 0 [1], .flash 8 50 [1],
        .flash 9 0 [0, 0, 0x10, 0, 0], .flash 9 0x1000 [0, 0, 0x10, 0, 0],
        .flash 9 0 [1, 0, 0x10, 0, 0], .flash 9 0x1000 [1, 0, 0x10, 0, 0]] ∧ OnlyChanges [.cfg, .out] s t) ∧
  (∀ (s : State) (r : Fin 7) (o : Nat), s.cfg.stage = 3 → o ∈ s.cfg.railsLate → o ≠ r.val →
    Completes (.coreRailInSteadyRange r) s fun t =>
      t.cfg = { s.cfg with railsLate := setDel r.val s.cfg.railsLate } ∧ OnlyChanges [.cfg] s t) ∧
  (∀ (s : State) (r : Fin 7), s.cfg.stage = 3 → s.cfg.railsLate.contains r.val = true → Completes (.railWaitTimeout r) s fun t =>
    Raised s t 0x0D0A [r, 1] ∧ OnlyChanges events s t)) ∧
  ((∀ (s : State) (micros : Nat), s.cfg.stage = 8 → s.twinStart = false → Completes (.cfgDoneRise micros) s fun t =>
    t.cfg = { s.cfg with done := true, stage := 0xB, trel := min (2 ^ 32 - 1) micros } ∧ t.fab.released = true ∧
    t.integ.running = true ∧ t.pin.oe = 0 ∧ t.fab.leaving = List.range 512 ∧ (∀ c, t.chm c = s.chm c) ∧
    Raised s t 0x050B [min (2 ^ 32 - 1) micros, s.cfg.mode.toNat] ∧
    OnlyChanges (.cfg :: .fab :: .integ :: .pin :: events) s t) ∧
  (∀ (s : State) (micros : Nat), s.cfg.stage ≠ 8 → Completes (.cfgDoneRise micros) s fun t =>
    t.cfg = { s.cfg with done := true } ∧ OnlyChanges [.cfg] s t) ∧
  (∀ (s : State) (c x : ChamberId) (v : Nat) (d : Bool), edgeCan s c = true → (s.col (colOf c)).lock = .off →
    (s.chm c).cmd = some ⟨1, v, d, none, 0⟩ → x.val ∈ s.fab.leaving →
    s.regF (chmReg (s.gov x) 0x04) 0 5 = (s.chm c).swclkUse → Completes (.switchEdge c) s fun t =>
      (t.chm x).released = true ∧ (t.chm x).sel = tabGet 0 s.cfg.starts x ∧ (t.chm x).swclkUse = (s.chm c).swclkUse ∧
      x.val ∉ t.fab.leaving ∧ ((s.strat x (tabGet 0 s.cfg.starts x)).loaded = false →
        Raised s t 0x0302 [x, tabGet 0 s.cfg.starts x, 0])) ∧
  (∀ (s : State) (micros n : Nat), s.cfg.stage = 8 → s.cfg.donewait = n → 0 < n → s.twinStart = false →
    Completes (.donewaitExpire micros) s fun t =>
      Raised s t 0x0507 [n] ∧ Raised s t 0x050B [min (2 ^ 32 - 1) micros, s.cfg.mode.toNat] ∧ t.fab.released = true ∧
      t.cfg = { s.cfg with stage := 0xB, trel := min (2 ^ 32 - 1) micros } ∧
      OnlyChanges (.cfg :: .fab :: .integ :: .pin :: events) s t) ∧
  (∀ (s : State) (micros : Nat), s.cfg.stage = 8 → s.cfg.donewait = 0 → s.cfg.doneTold = false →
    Completes (.donewaitExpire micros) s fun t =>
      t.cfg = { s.cfg with doneTold := true } ∧ Raised s t 0x0507 [1000] ∧ OnlyChanges (.cfg :: events) s t))

/-- A listener keeps the burst it captures, a device that does not listen changes nothing, an idle stream is told once
with 0x0508; a worker takes CFGB bytes. The key table load keeps rights set before, and with no record it leaves the
table empty and raises 0x0A02; a Grotto fill ends with 0x070A. (11_loading.md, Many devices from one stream,
10_crypto.md, The key table, 07_grotto.md, Start-up fill) -/
def Obligations.ListenersAndKeyLoad : Prop :=
  ((∀ (s : State) (b : Bool) (a : Nat) (bytes : List Byte), s.cfg.listen = true → s.netMode ≠ 2 → s.cfg.stage = 4 →
    Completes (.flashBurstCapture b a bytes) s fun t =>
      t.cfg = { s.cfg with heard := s.cfg.heard ++ [(flashAddr b a, bytes)], idleTold := false } ∧ OnlyChanges [.cfg] s t) ∧
  (∀ (s : State) (b : Bool) (a : Nat) (bytes : List Byte), s.cfg.listen = false →
    exec (.flashBurstCapture b a bytes) s = .next s) ∧
  (∀ (s : State) (a : Nat), s.cfg.listen = true → s.netMode ≠ 2 → s.cfg.stage < 7 → s.cfg.idleTold = false →
    Completes (.listenerIdle a) s fun t =>
      t.cfg = { s.cfg with idleTold := true } ∧ Raised s t 0x0508 [1, a] ∧ OnlyChanges (.cfg :: events) s t) ∧
  (∀ (s : State) (b : Bool) (a : Nat) (bytes : List Byte), s.netMode = 2 → s.cfg.stage = 4 →
    (∀ c, s.linkHolds c = false) → Completes (.cfgbReceive b a bytes none) s fun t =>
      t.cfg = { s.cfg with heard := s.cfg.heard ++ [(flashAddr b a, bytes)], idleTold := false } ∧
      OnlyChanges [.cfg, .gvl, .out] s t)) ∧
  ((∀ s : State, s.cfg.keyLoad = true → s.cfg.perst = false → 4 ≤ s.cfg.stage → s.cfg.stage ≠ 13 → s.cry.rightsSet = true →
    Completes .keyTableLoadDone s fun t =>
      t.cfg = { s.cfg with keyLoad := false } ∧ t.cry.loaded = true ∧ t.cry.record = s.cry.record ∧
      (∀ k < 64, (t.key k).rights = (s.key k).rights) ∧ OnlyChanges (.cfg :: .cry :: events) s t) ∧
  (∀ s : State, s.cfg.keyLoad = true → s.cfg.perst = false → 4 ≤ s.cfg.stage → s.cfg.stage ≠ 13 → s.cry.record = [] →
    Completes .keyTableLoadDone s fun t =>
      (∀ k, (t.key k).st = 0 ∧ (t.key k).kcv = 0) ∧ Raised s t 0x0A02 [0, 0] ∧ OnlyChanges (.cfg :: .cry :: events) s t) ∧
  (∀ (s : State) (micros : BitVec 32), s.grt.filling = true → s.cfg.stage ≠ 4 → Completes (.grottoFillDone micros) s fun t =>
    t.grt.filling = false ∧ t.grt.fillDone = true ∧ (∀ a, grottoByte t a = grottoByte s a) ∧
    (∀ n < 256, ∀ b < 8, s.regF (grpModeReg n) 0 16 ≠ 0 → (t.bank (8 * n + b)).goingOff = false ∧
      (t.bank (8 * n + b)).state = if bankMode s (8 * n + b) = 3 then 2 else restState s (8 * n + b)) ∧
    Raised s t 0x070A [2, micros.toNat] ∧
    OnlyChanges (.grt :: events) s t))

/-- Contention on a column's shafts raises 0x0205 and has both selected strata quarantined at the next edges of their
switch clocks; no slot changes when no golden record it uses has an error. A shaft parity failure has the column's
chambers held for repair at their edges and starts a sweep with 0x0206; the sweep spares what failed with 0x0207 or
retires the column with 0x020A; a member whose errors reach four in a tick fails and takes a spare with 0x0209, below
that nothing happens; the shift takes the recorded members. A relocation decision holds a retired column and moves it
to a free spare, or degrades it with 0x020D; its release lets both chambers run with their pending strata and raises
0x020B. (03_routing.md, Shaft contention, 03_routing.md, Spares and in-service repair, 03_routing.md, Retirement and
relocation, 01_stack.md, Vertical connections) -/
def Obligations.ContentionBondsAndRelocation : Prop :=
  (∀ (s : State) (col : ColumnId) (cl : Nat),
  (List.range 256).find? (fun x => fld (contended s col) (16 * x) 16 != 0) = some cl → (s.col col).lock = .off →
  s.isActive col (s.chm col).sel = true → s.isActive (col + 256) (s.chm (col + 256)).sel = true →
  (∀ q ∈ (s.chm col).quarDue ++ (s.chm (col + 256)).quarDue, q.2 ≠ 1) →
  Completes (.shaftContention col) s fun t =>
    (t.chm col).quarDue = (s.chm col).quarDue ++ [((s.chm col).sel, 1)] ∧
    (t.chm (col + 256)).quarDue = (s.chm (col + 256)).quarDue ++ [((s.chm (col + 256)).sel, 1)] ∧
    Raised s t 0x0205 [col, cl, fld (contended s col) (16 * cl) 16, (s.chm col).sel, (s.chm (col + 256)).sel] ∧
    ((s.slot (s.strat col (s.chm col).sel).slot).goldBad = false →
      (s.slot (s.strat (col + 256) (s.chm (col + 256)).sel).slot).goldBad = false → t.lib = s.lib) ∧
    OnlyChanges (.fab :: .integ :: .lib :: events) s t) ∧
  ((∀ (s : State) (p : PhysId) (g : Fin 128), (s.bond (bondKey 0 p g)).free 2 ≠ 0 → (s.bond (bondKey 0 p g)).sweeping = false →
    s.twinStart = false → s.regF 0x1_0004 30 2 = 0 → Completes (.shaftParityFailure p g) s fun t =>
      (t.bond (bondKey 0 p g)).sweeping = true ∧ Raised s t 0x0206 [p, g] ∧ Raised s t 0x0D0C [0x0206, 0] ∧
      (∀ n, logicalOf s p = some n → ∀ c, c = n ∨ c = n + 256 → s.chmState c ≠ 0 → s.chmState c ≠ 6 →
        (t.chm c).holdDue = 3) ∧
      OnlyChanges (.fab :: .lys :: events) s t) ∧
  (∀ (s : State) (p : PhysId) (g : Fin 128) (failed : List (Fin 34)) (a : BondGroup), (s.bond (bondKey 0 p g)).sweeping = true →
    failed.foldl (fun x m => x.fail 32 m) { s.bond (bondKey 0 p g) with sweeping := false } = a → a.failed + a.failedSpares ≤ 2 →
    Completes (.bondSweepDone p g failed) s fun t =>
      t.bond (bondKey 0 p g) = { a with shift := a.members, pending := false, lost := a.lost || a.inRepair 2 == 2 } ∧
      Raised s t 0x0207 [p, g, a.members.length - (s.bond (bondKey 0 p g)).members.length, a.free 2] ∧
      OnlyChanges (.fab :: events) s t) ∧
  (∀ (s : State) (p : PhysId) (g : Fin 128) (failed : List (Fin 34)) (a : BondGroup), (s.bond (bondKey 0 p g)).sweeping = true →
    failed.foldl (fun x m => x.fail 32 m) { s.bond (bondKey 0 p g) with sweeping := false } = a → 2 < a.failed + a.failedSpares →
    s.fab.retired.contains p.val = false → s.paired = false → Completes (.bondSweepDone p g failed) s fun t =>
      p.val ∈ t.fab.retired ∧ Raised s t 0x020A [p, g] ∧ OnlyChanges (.fab :: events) s t) ∧
  (∀ (s : State) (b : Fin 4) (p : PhysId) (g : Fin 256) (m : Fin 68) (n k : Nat) (a : BondGroup),
    bondKey (layerOf b) p g = k → (s.bond k).fail (signalsOf (layerOf b)) m = a → 4 ≤ tabGet 0 (s.bond k).errs m + n →
    g.val < groupsOf (layerOf b) p → m.val < signalsOf (layerOf b) + sparesOf (layerOf b) →
    a.failed + a.failedSpares ≤ sparesOf (layerOf b) → Completes (.memberFailed b (some p) g m n) s fun t =>
      t.bond k = { a with pending := decide (a.members ≠ a.shift), errs := tabDel a.errs m } ∧
      Raised s t 0x0209 [b, g, m, a.free (sparesOf (layerOf b))] ∧ OnlyChanges (.fab :: events) s t) ∧
  (∀ (s : State) (b : Fin 4) (p : PhysId) (g : Fin 256) (m : Fin 68) (n : Nat),
    tabGet 0 (s.bond (bondKey (layerOf b) p g)).errs m + n < 4 → exec (.memberFailed b (some p) g m n) s = .next s) ∧
  (∀ (s : State) (b : Fin 4) (p : PhysId) (g : Fin 256) (x : BondGroup), s.bond (bondKey (layerOf b) p g) = x →
    x.pending = true → Completes (.spareShiftApply b (some p) g) s fun t =>
      t.bond (bondKey (layerOf b) p g) = { x with shift := x.members, pending := false } ∧
      (∀ k, k ≠ bondKey (layerOf b) p g → t.bond k = s.bond k) ∧ OnlyChanges [.fab] s t)) ∧
  ((∀ (s : State) (col : ColumnId), s.twn.role = 0 → s.fab.retired.contains (s.physOf col) = true →
    s.fab.stranded.contains (s.physOf col) = false → relocating s = false → s.lys.restarting = false →
    relocBusy s col = false → (∀ x ∈ s.fab.columns, x.2.shadows = [] ∧ x.2.contStep = 0) → Completes (.relocationDecision col) s fun t =>
      (t.chm col).reloc = true ∧ (t.chm (col + 256)).reloc = true ∧ 2 ≤ (t.col col).relocStep ∧
      (loadedStrata s col = [] → ∀ sp, freeSpare s = some sp →
        (t.col col).pcol = some sp ∧ sp ∈ t.fab.spares ∧ (t.col col).relocStep = 6) ∧
      (loadedStrata s col = [] → freeSpare s = none →
        (t.col col).degraded = true ∧ (t.col col).relocStep = 6 ∧ Raised s t 0x020D [0]) ∧
      OnlyChanges edgeParts s t) ∧
  (∀ (s : State) (col : ColumnId) (sp : Nat), (s.chm col).reloc = true → (s.col col).relocStep = 6 →
    (s.col col).pcol = some sp → s.fab.retired.contains sp = false → s.paired = false →
    Completes (.relocationRelease col) s fun t =>
      (t.chm col).reloc = false ∧ (t.chm col).hsrc = 0 ∧ (t.chm (col + 256)).reloc = false ∧ (t.chm (col + 256)).hsrc = 0 ∧
      (t.chm col).sel = (s.chm col).pend.getD (s.chm col).sel ∧ (t.col col).slice = 0 ∧ (t.col col).relocStep = 0 ∧
      Raised s t 0x020B [col, sp, if (s.col col).stateLost then 1 else 0] ∧ OnlyChanges (.fab :: .lib :: .pin :: events) s t))

/-- SWITCH, HOLD and RELEASE written to a chamber wait at the chamber that governs it and change no other; a command that
replaces a waiting one raises 0x030A. (04_strata.md, Commands) -/
def Obligations.ChamberCommandsWait : Prop :=
  ∀ (s : State) (who : Requester) (c : ChamberId), s.twn.role = 0 →
  (∀ (k : StratumId) (d : Bool), (s.chm (s.gov c)).cmd = none → Completes (.chmCmdSwitch who c k d) s fun t =>
    t.chm (s.gov c) = { s.chm (s.gov c) with cmd := some ⟨1, k, d, none, cmdDelay s⟩ } ∧
    (∀ x, x ≠ s.gov c → t.chm x = s.chm x) ∧ OnlyChanges [.fab] s t) ∧
  ((s.chm (s.gov c)).cmd = none → Completes (.chmCmdHold who c) s fun t =>
    t.chm (s.gov c) = { s.chm (s.gov c) with cmd := some ⟨2, 0, false, none, cmdDelay s⟩ } ∧
    (∀ x, x ≠ s.gov c → t.chm x = s.chm x) ∧ OnlyChanges [.fab] s t) ∧
  ((s.chm (s.gov c)).cmd = none → Completes (.chmCmdRelease who c) s fun t =>
    t.chm (s.gov c) = { s.chm (s.gov c) with cmd := some ⟨3, 0, false, none, cmdDelay s⟩ } ∧
    (∀ x, x ≠ s.gov c → t.chm x = s.chm x) ∧ OnlyChanges [.fab] s t) ∧
  (∀ (k : StratumId) (d : Bool) (old : ChmCmd), (s.chm (s.gov c)).cmd = some old → old.desc = none →
    Completes (.chmCmdSwitch who c k d) s fun t =>
      (t.chm (s.gov c)).cmd = some ⟨1, k, d, none, cmdDelay s⟩ ∧ Raised s t 0x030A [c, 1] ∧ OnlyChanges (.fab :: events) s t)

/-- At the switch edge of a chamber in RUN outside lockstep, with nothing of a higher rank due, the stratum of a waiting
SWITCH becomes selected; into a loaded stratum the switch counts, its time is kept and the fence register latches;
into one that is not loaded 0x0302 is raised. In HELD the stratum becomes pending. A quarantine that waited for the
edge takes effect with 0x0303. (04_strata.md, The switch edge, 04_strata.md, Border fences) -/
def Obligations.SwitchTakesEffectAtItsEdge : Prop :=
  ∀ (s : State) (c : ChamberId) (v : Nat) (d : Bool), (s.chm c).cmd = some ⟨1, v, d, none, 0⟩ →
  (ownEdge s c → noFires s → (s.chm c).schedArmed = false → s.chmState c = 1 → v ≠ (s.chm c).sel →
    (s.strat c v).loaded = true → Completes (.switchEdge c) s fun t =>
      (t.chm c).sel = v ∧ (t.chm c).cmd = none ∧ (t.chm c).swcnt = (s.chm c).swcnt.add 1 ∧ (t.chm c).lastsw = s.now ∧
      (t.chm c).fence = fenceOf (s.strat c v).words ∧ (t.chm c).schedRun = false ∧ OnlyChanges edgeParts s t) ∧
  (ownEdge s c → noFires s → s.chmState c = 1 → v ≠ (s.chm c).sel → (s.strat c v).loaded = false →
    Completes (.switchEdge c) s fun t =>
      (t.chm c).sel = v ∧ (t.chm c).cmd = none ∧ (t.chm c).fence = (s.chm c).fence ∧ Raised s t 0x0302 [c, v, 3] ∧
      OnlyChanges edgeParts s t) ∧
  (ownEdge s c → noFires s → s.chmState c = 4 → Completes (.switchEdge c) s fun t =>
      (t.chm c).sel = (s.chm c).sel ∧ (t.chm c).pend = some v ∧ (t.chm c).cmd = none ∧ (t.chm c).hsrc = (s.chm c).hsrc ∧
      OnlyChanges edgeParts s t) ∧
  (∀ k cause : Nat, edgeCan s c = true → (s.col (colOf c)).lock = .off → s.twn.role = 0 → (s.chm c).holdDue = 0 →
    (s.chm c).entering = 0 → (s.chm c).quarDue = [(k, cause)] → (s.chm c).sel = k → (s.strat c k).quar = false →
    Completes (.switchEdge c) s fun t =>
      (t.strat c k).quar = true ∧ (t.chm c).quarDue = [] ∧ Raised s t 0x0303 [c, k, cause] ∧ OnlyChanges edgeParts s t)

/-- A waiting HOLD takes a chamber from RUN to HELD with 0x0304; a waiting RELEASE makes the pending stratum selected,
takes the switch clock written meanwhile and raises 0x0305, unless a repair hold still has strata to refill. A parity
failure of the fence register sets its mark and raises 0x030C. (04_strata.md, Holding and releasing, 04_strata.md,
Border fences) -/
def Obligations.HoldAndReleaseTakeEffect : Prop :=
  (∀ (s : State) (c : ChamberId), ownEdge s c → noFires s → (s.chm c).cmd = some ⟨2, 0, false, none, 0⟩ →
    s.chmState c = 1 → Completes (.holdTakeEffect c) s fun t =>
      t.chmState c = 4 ∧ (t.chm c).hsrc = 1 ∧ (t.chm c).cmd = none ∧ (t.chm c).sel = (s.chm c).sel ∧
      Raised s t 0x0304 [c, 1] ∧ OnlyChanges edgeParts s t) ∧
  (∀ (s : State) (c : ChamberId), ownEdge s c → noFires s → (s.chm c).cmd = some ⟨3, 0, false, none, 0⟩ →
    s.chmState c = 4 → (s.chm c).hsrc ≠ 3 → Completes (.releaseTakeEffect c) s fun t =>
      (t.chm c).hsrc = 0 ∧ (t.chm c).pend = none ∧ (t.chm c).cmd = none ∧
      (t.chm c).sel = (s.chm c).pend.getD (s.chm c).sel ∧ (t.chm c).swclkUse = s.regF (chmReg c 0x04) 0 5 ∧
      Raised s t 0x0305 [c, (s.chm c).pend.getD (s.chm c).sel] ∧ OnlyChanges edgeParts s t) ∧
  (∀ (s : State) (c : ChamberId) (k : Nat), ownEdge s c → noFires s → (s.chm c).cmd = some ⟨3, 0, false, none, 0⟩ →
    s.chmState c = 4 → (s.chm c).hsrc = 3 → k < 4 → ((s.chm c).strat k).needRefill = true →
    Completes (.releaseTakeEffect c) s fun t =>
      (t.chm c).hsrc = 3 ∧ (t.chm c).cmd = none ∧
      Raised s t 0x030B [c, (ofBits 4 (notRefilled (s.chm c))).toNat] ∧ OnlyChanges edgeParts s t) ∧
  (∀ (s : State) (c : ChamberId), Completes (.fenceRegisterParity c) s fun t =>
    t.chm c = { s.chm c with fenceBad := true } ∧ (∀ x, x ≠ c.val → t.chm x = s.chm x) ∧ Raised s t 0x030C [c] ∧
    OnlyChanges (.fab :: events) s t)

/-- SCHED = 1 arms a schedule, SCHED = 0 stops it with 0x0306; schedule entries are written through CHM_SIDX, which steps
when INC is set. An armed schedule starts at its entry; one whose next entry is invalid stops at the dwell's end with
0x0306. A FIRE waits for its edge in an enabled group only; a fabric trigger on the group's clock arms it, another is
skipped with 0x0308; a group fires at its edge: it switches, holds or releases its members or skips them with 0x0308.
(04_strata.md, Schedule table, 04_strata.md, Fabric trigger, 04_strata.md, Switch groups) -/
def Obligations.SchedulesAndGroups : Prop :=
  ((∀ (s : State) (who : Requester) (c : ChamberId) (val : Word), s.twn.role = 0 → s.gov c = c →
    s.regB (chmReg c 0x04) 31 = false → Completes (.scheduleEnable who c val) s fun t =>
      t.reg (chmReg c 0x04) = (s.reg (chmReg c 0x04) &&& 0x01FF_FFE0) ||| ((val ||| 0x8000_0000) &&& 0xFE00_001F) ∧
      t.chm c = { s.chm c with schedArmed := true, schedWait := cmdDelay s } ∧
      (∀ o, o ≠ chmReg c 0x04 → t.reg o = s.reg o) ∧ OnlyChanges [.regs, .fab] s t) ∧
  (∀ (s : State) (who : Requester) (c : ChamberId) (val : Word), s.twn.role = 0 → s.gov c = c →
    (s.chm c).schedRun = true → Completes (.scheduleStopWrite who c val) s fun t =>
      t.regB (chmReg c 0x04) 31 = false ∧ (t.chm c).schedRun = false ∧ (t.chm c).schedArmed = false ∧
      Raised s t 0x0306 [c, (s.chm c).entry, 4] ∧ OnlyChanges (.regs :: .fab :: events) s t) ∧
  (∀ (s : State) (who : Requester) (c : ChamberId) (val : Word), s.twn.role = 0 →
    Completes (.scheduleEntryWrite who c val) s fun t =>
      tabGet 0 (t.chm c).sched (s.regF (chmReg c 0x14) 0 6) = val ∧
      (∀ e, e ≠ s.regF (chmReg c 0x14) 0 6 → tabGet 0 (t.chm c).sched e = tabGet 0 (s.chm c).sched e) ∧
      (s.regB (chmReg c 0x14) 31 = true → t.regF (chmReg c 0x14) 0 6 = (s.regF (chmReg c 0x14) 0 6 + 1) % 64) ∧
      (s.regB (chmReg c 0x14) 31 = false → t.reg (chmReg c 0x14) = s.reg (chmReg c 0x14)) ∧
      OnlyChanges [.regs, .fab] s t) ∧
  (∀ (s : State) (c : ChamberId) (w : Word), ownEdge s c → noFires s → dueCmd s c = none →
    triggerOn s s.nets c = false → (s.chm c).schedArmed = true → (s.chm c).schedWait = 0 → schedMoves s c = true →
    tabGet 0 (s.chm c).sched (s.regF (chmReg c 0x04) 25 6) = w → bit w 31 = true →
    Completes (.scheduleEntryStart c) s fun t =>
      (t.chm c).entry = s.regF (chmReg c 0x04) 25 6 ∧ (t.chm c).remain = fld w 0 22 ∧ (t.chm c).nextEntry = fld w 22 6 ∧
      (t.chm c).schedRun = true ∧ (t.chm c).schedArmed = false ∧ (t.chm c).sel = fld w 28 2 ∧
      OnlyChanges edgeParts s t) ∧
  (∀ (s : State) (c : ChamberId) (w : Word), ownEdge s c → noFires s → dueCmd s c = none → (s.chm c).schedArmed = false →
    (s.chm c).schedRun = true → (s.chm c).remain = 0 → schedMoves s c = true →
    tabGet 0 (s.chm c).sched (s.chm c).nextEntry = w → bit w 31 = false → Completes (.dwellEnd c) s fun t =>
      (t.chm c).schedRun = false ∧ (t.chm c).entry = (s.chm c).nextEntry ∧ (t.chm c).sel = (s.chm c).sel ∧
      t.regB (chmReg c 0x04) 31 = false ∧ Raised s t 0x0306 [c, (s.chm c).nextEntry, 1] ∧ OnlyChanges edgeParts s t)) ∧
  ((∀ (s : State) (who : Requester) (g : GroupId), s.twn.role = 0 → s.regB (grpReg g 0) 31 = true → (s.grp g).fire = none →
    Completes (.groupFireSwitch who g) s (fun t =>
      t.grp g = { s.grp g with fire := some (1, none), fireWait := cmdDelay s } ∧ OnlyChanges [.fab] s t) ∧
    Completes (.groupFireHold who g) s (fun t =>
      t.grp g = { s.grp g with fire := some (2, none), fireWait := cmdDelay s } ∧ OnlyChanges [.fab] s t) ∧
    Completes (.groupFireRelease who g) s (fun t =>
      t.grp g = { s.grp g with fire := some (3, none), fireWait := cmdDelay s } ∧ OnlyChanges [.fab] s t)) ∧
  (∀ (s : State) (who : Requester) (g : GroupId), s.twn.role = 0 → s.regB (grpReg g 0) 31 = false →
    exec (.groupFireSwitch who g) s = .next s) ∧
  (∀ (s : State) (c : ChamberId) (h : GroupId), triggerOn s s.nets c = true → edgeCan s c = true → s.twn.role = 0 →
    trigGroups s c = [h.val] → (s.chm c).swclkUse = s.regF (grpReg h 0) 0 5 →
    Completes (.fabricTrigger c) s fun t => (t.grp h).trigNew = true ∧ OnlyChanges edgeParts s t) ∧
  (∀ (s : State) (c : ChamberId) (h : GroupId), triggerOn s s.nets c = true → edgeCan s c = true → s.twn.role = 0 →
    trigGroups s c = [h.val] → (s.chm c).swclkUse ≠ s.regF (grpReg h 0) 0 5 →
    Completes (.fabricTrigger c) s fun t => Raised s t 0x0308 [h, c, 1] ∧ OnlyChanges edgeParts s t) ∧
  (∀ (s : State) (g : GroupId), clocksRun s = true → s.fab.released = true → s.twn.role = 0 → (s.grp g).trig = true →
    s.regB (grpReg g 0) 31 = true → s.regB (grpReg g 0) 29 = true →
    (s.chm (s.regF (grpReg g 0) 16 9)).swclkUse = s.regF (grpReg g 0) 0 5 → Completes (.groupTriggerFire g) s fun t =>
      (t.grp g).trig = (s.grp g).trigNew ∧ (t.grp g).fire = none ∧ (t.grp g).lastop = 1 ∧ OnlyChanges edgeParts s t) ∧
  (∀ (s : State) (g : GroupId) (op : Nat), clocksRun s = true → s.fab.released = true → s.twn.role = 0 →
    (s.grp g).fire = some (op, none) → (s.grp g).fireWait = 0 → (s.grp g).trig = false →
    (∀ c ∈ groupMembers s g, (skipReason s g op c).isSome = true) → Completes (.groupFireEffect g) s fun t =>
      (t.grp g).fire = none ∧ (t.grp g).lastop = op ∧ (t.grp g).skipped = (groupMembers s g).length ∧
      (∀ c ∈ groupMembers s g, ∀ why, skipReason s g op c = some why → Raised s t 0x0308 [g, c, why]) ∧
      OnlyChanges edgeParts s t) ∧
  (∀ (s : State) (g : GroupId) (c : ChamberId) (op : Nat), ownEdge s c → (s.grp g).fire = some (op, none) →
    (s.grp g).fireWait = 0 → (∀ h, (s.grp h).trig = false ∧ (h ≠ g.val → (s.grp h).fire = none)) →
    s.regB (chmReg c 0x0C) g = true → skipReason s g op c = none →
    (op = 2 → s.chmState c = 1 → Completes (.groupFireEffect g) s fun t =>
      t.chmState c = 4 ∧ (t.chm c).hsrc = 2 ∧ (t.grp g).fire = none ∧ (t.grp g).lastop = 2 ∧
      Raised s t 0x0304 [c, 2] ∧ OnlyChanges edgeParts s t) ∧
    (op = 1 → s.chmState c = 1 → Completes (.groupFireEffect g) s fun t =>
      (t.chm c).sel = s.regF (chmReg c 0x10) (2 * g) 2 ∧ (t.grp g).fire = none ∧ (t.grp g).lastop = 1 ∧
      OnlyChanges edgeParts s t) ∧
    (op = 3 → s.chmState c = 4 → (s.chm c).hsrc ≠ 3 → Completes (.groupFireEffect g) s fun t =>
      (t.chm c).hsrc = 0 ∧ (t.chm c).sel = (s.chm c).pend.getD (s.chm c).sel ∧
      Raised s t 0x0305 [c, (s.chm c).pend.getD (s.chm c).sel] ∧ OnlyChanges edgeParts s t)))

/-- While the management path carries them, each of the six library commands puts exactly its request at the end of the
host FIFO; when 256 wait the request is discarded with 0x0407. While the path is down a command changes nothing (log
93). A read of LIB_SINFO0 answers, captures LIB_SINFO1 and steps LIB_SIDX when INC is set. (05_library.md, Requests
and classes, 05_library.md, Registers) -/
def Obligations.LibraryRequestsQueueUp : Prop :=
  (∀ (s : State) (who : Requester) (prio notify : Bool) (tag : BitVec 16), s.twn.role = 0 →
  (managementUp s = false → ∀ slot : BitVec 12, exec (.libDrop who slot notify prio tag) s = .next s) ∧
  (managementUp s = true → s.fenced 2 = false → s.lib.fifo.length < 256 →
  (∀ (slot : BitVec 12) (c : ChamberId) (k : StratumId) (sp re fo : Bool),
    Completes (.libRefill who slot c k sp re fo notify prio tag) s (requestQueued s
      { op := 1, chamber := c, stratum := k, slot := slot.toNat, spillFirst := sp, restore := re, force := fo,
        notify := notify, tag := tag.toNat, cls := if prio then 2 else 3 })) ∧
  (∀ (c : ChamberId) (k : StratumId) (fo : Bool), Completes (.libSpill who c k fo notify prio tag) s (requestQueued s
      { op := 2, chamber := c, stratum := k, slot := 0, force := fo, notify := notify, tag := tag.toNat,
        cls := if prio then 2 else 3 })) ∧
  (∀ (slot : BitVec 12) (c : ChamberId) (k : StratumId), Completes (.libRestore who slot c k notify prio tag) s (requestQueued s
      { op := 3, chamber := c, stratum := k, slot := slot.toNat, notify := notify, tag := tag.toNat,
        cls := if prio then 2 else 3 })) ∧
  (∀ (c : ChamberId) (k : StratumId), Completes (.libEvict who c k notify prio tag) s (requestQueued s
      { op := 4, chamber := c, stratum := k, slot := 0, notify := notify, tag := tag.toNat,
        cls := if prio then 2 else 3 })) ∧
  (∀ slot : BitVec 12, Completes (.libDrop who slot notify prio tag) s (requestQueued s
      { op := 5, chamber := 0, stratum := 0, slot := slot.toNat, notify := notify, tag := tag.toNat,
        cls := if prio then 2 else 3 })) ∧
  (∀ slot : BitVec 12, Completes (.libShclr who slot notify prio tag) s (requestQueued s
      { op := 6, chamber := 0, stratum := 0, slot := slot.toNat, notify := notify, tag := tag.toNat,
        cls := if prio then 2 else 3 })))) ∧
  (∀ (s : State) (who : Requester) (slot : BitVec 12) (notify prio : Bool) (tag : BitVec 16), s.twn.role = 0 →
  managementUp s = true → s.fenced 2 = false → 256 ≤ s.lib.fifo.length → Completes (.libDrop who slot notify prio tag) s fun t =>
    t.lib = s.lib ∧ Raised s t 0x0407 [tag.toNat] ∧ OnlyChanges (.staged :: events) s t) ∧
  (∀ (s : State) (who : Requester), s.fenced 2 = false → managementUp s = true → Completes (.sinfo0Read who) s fun t =>
    t.out = s.out ++ [.reply who 0x6_0024 (readLive (Requester.code who) s 0x6_0024) 0] ∧
    findHalf t.captures (Requester.code who) 0x6_0028 = some (slotInfo s).2 ∧
    (s.regB 0x6_0020 31 = true → t.regF 0x6_0020 0 12 = (s.regF 0x6_0020 0 12 + 1) % 3072) ∧
    (∀ o, o ≠ 0x6_0020 → t.reg o = s.reg o) ∧ OnlyChanges [.regs, .captures, .out] s t)

/-- A free stream takes the next request; one that Table Library-3 refuses ends with 0x0403 and its reason; SHCLR and
EVICT take their effect at their end; a completed refill leaves the stratum loaded with flip-flops at INIT, not
quarantined, and raises 0x0402 when asked; a VACANT or QUARANTINED chamber whose selected stratum is refilled enters
RUN at its next edge. (05_library.md, Refill, 05_library.md, Rows and completion, 05_library.md, Spill and restore) -/
def Obligations.RefillEngineRunsRequests : Prop :=
  (∀ (s u : State) (k : Nat) (r q : LibReq) (n : List (Fin 80)) (f : Option (Fin 80)) (g : Bool) (why : Nat),
    s.freeStream = some k → s.cfg.stage ≠ 7 → nextRequest s = some (r, u) →
    { r with targets := reqTargets u r, was := if r.op = 1 then targetsWere u r else [] } = q →
    refusal (u.modLib fun l => { l with streams := tabSet none l.streams k (some q) }) q = some why → r.desc = none → r.kind = 0 →
    (why ≠ 8 ∨ r.cls ≠ 1) → Completes (.requestStart n f g) s fun t =>
      t.stream k = none ∧ t.lib.done = s.lib.done.add 1 ∧
      Raised s t 0x0403 [r.tag, r.op, r.chamber, r.stratum, r.slot, why] ∧ OnlyChanges (.lib :: events) s t) ∧
  (∀ (s : State) (k : Nat) (r : LibReq) (rest : List LibReq) (n : List (Fin 80)) (f : Option (Fin 80)) (g : Bool),
    s.freeStream = some k → s.cfg.stage ≠ 7 → s.pstate < 2 → s.fenced 2 = false → s.lib.device = [] → s.lib.devhold = false →
    s.lib.loader = [] → s.fab.released = true → s.lib.fifo = r :: rest → r.op = 6 → r.kind = 0 → r.slot < 0xC00 →
    (s.slot r.slot).st ≠ 4 → (r.cls = 2 ∨ ∀ x ∈ rest, x.cls ≠ 2) → Completes (.requestStart n f g) s fun t =>
      t.stream k = some { r with targets := reqTargets s r, was := [] } ∧ t.lib.fifo = rest ∧ OnlyChanges [.lib] s t) ∧
  (∀ (s : State) (k : StreamId) (r : LibReq), s.stream k = some r → r.op = 6 → r.kind = 0 → r.desc = none → r.notify = true →
    s.cfg.stage ≠ 7 → Completes (.requestEnd k) s fun t =>
      t.stream k = none ∧ t.lib.done = s.lib.done.add 1 ∧ t.slot r.slot = { s.slot r.slot with shadow := 0, shv := false, owner := 0 } ∧
      Raised s t 0x0402 [r.tag, 6, r.chamber, r.stratum, r.slot] ∧ OnlyChanges (.lib :: events) s t) ∧
  (∀ (s : State) (k : StreamId) (r : LibReq), s.stream k = some r → r.op = 4 → r.kind = 0 → r.desc = none → r.notify = false →
    reqTargets s r = [r.chamber] → s.cfg.stage ≠ 7 → Completes (.requestEnd k) s fun t =>
      t.stream k = none ∧ (t.strat r.chamber r.stratum).loaded = false ∧
      (∀ c q, c ≠ r.chamber ∨ q ≠ r.stratum → t.strat c q = s.strat c q) ∧ OnlyChanges [.lib, .fab] s t) ∧
  (∀ (s : State) (k : StreamId) (r : LibReq), s.stream k = some r → r.op = 1 → r.kind = 0 → r.desc = none → s.paired = false →
    r.restore = false → reqTargets s r = [r.chamber] → (s.chm r.chamber).released = true → s.cfg.stage ≠ 7 →
    (s.col (colOf r.chamber)).lock ≠ .comparing → s.chmState r.chamber ≠ 2 →
    s.chmState r.chamber ≠ 3 → Completes (.refillComplete k) s fun t =>
      t.stream k = none ∧ (t.strat r.chamber r.stratum).loaded = true ∧ (t.strat r.chamber r.stratum).quar = false ∧
      (t.strat r.chamber r.stratum).words = (s.slot r.slot).image ∧
      (t.strat r.chamber r.stratum).ffs = initBits (s.slot r.slot).image ∧
      (r.notify = true → Raised s t 0x0402 [r.tag, 1, r.chamber, r.stratum, r.slot]) ∧
      OnlyChanges (.lib :: .fab :: events) s t) ∧
  (∀ (s : State) (k : StreamId) (r : LibReq) (st : Nat), s.stream k = some r → r.op = 1 → r.kind = 0 → r.desc = none →
    s.paired = false → reqTargets s r = [r.chamber] → s.cfg.stage ≠ 7 → s.lys.exiting = false →
    (s.col (colOf r.chamber)).lock ≠ .comparing →
    (st = 2 ∨ st = 3) → s.chmState r.chamber = st → (s.chm r.chamber).sel = r.stratum → Completes (.refillComplete k) s fun t =>
      (t.strat r.chamber r.stratum).loaded = true ∧ (t.chm r.chamber).entering = st ∧ t.chmState r.chamber = st ∧
      OnlyChanges (.lib :: .fab :: events) s t)

/-- A mismatch in COMPARING has both selected strata quarantined at their edges, starts the diagnosis with 0x0633 and
holds device requests; a fault of the comparator or of a digest's path silences the column with 0x0634; the diagnosis
gives its verdict with 0x0634; a degraded continuation completes with 0x0635 on the good chamber. Entry clears both
chambers and makes the selected stratum pending in the partner with 0x0631; exit raises 0x0632. (06_tier_lockstep.md,
Reaction, 06_tier_lockstep.md, Degraded continuation, 06_tier_lockstep.md, Entering and leaving lockstep) -/
def Obligations.LockstepDetectsAndReacts : Prop :=
  (∀ (s : State) (col : ColumnId) (cls : BitVec 3) (a b : Word), (s.col col).lock = .comparing → s.twn.role = 0 →
    Completes (.lockstepMismatch col cls a b none) s fun t =>
      (t.col col).lock = .diagnosing ∧ (t.col col).diagStratum = (s.chm col).sel ∧ t.lib.devhold = true ∧
      (t.chm col).quarDue = (s.chm col).quarDue ++ [((s.chm col).sel, 3)] ∧
      (t.chm (col + 256)).quarDue = (s.chm (col + 256)).quarDue ++ [((s.chm col).sel, 3)] ∧
      Raised s t 0x0633 [col, cls.toNat, s.now, (s.chm col).sel, a.toNat, b.toNat] ∧
      OnlyChanges (.fab :: .lib :: events) s t) ∧
  (∀ (s : State) (col : ColumnId) (cls : BitVec 3) (a b : Word) (fault : PathFault), (s.col col).lock = .comparing →
    s.twn.role = 0 → Completes (.lockstepMismatch col cls a b (some fault)) s fun t =>
      (t.col col).lock = .silent ∧ Raised s t 0x0634 [col, (s.chm col).sel, 4, 1] ∧
      (fault ≠ .digestParity → t.seed = s.seed) ∧
      OnlyChanges (.fab :: .lib :: .seed :: events) s t) ∧
  (∀ (s : State) (col : ColumnId) (v : Nat), (s.col col).lock = .diagnosing → (s.col col).reactAt ≠ 1 →
    v = (if badRows s col (s.col col).diagStratum ≠ [] then
        (if badRows s (col + 256) (s.col col).diagStratum ≠ [] then 3 else 0)
      else if badRows s (col + 256) (s.col col).diagStratum ≠ [] then 1 else 2) → Completes (.diagnosisVerdict col) s fun t =>
      (t.col col).lock = .silent ∧ Raised s t 0x0634 [col, (s.col col).diagStratum, v, 1] ∧
      t.integ.resPos = s.integ.resPos - s.integ.resPos % 80 ∧
      OnlyChanges (.fab :: .lib :: .integ :: .seed :: .que :: events) s t) ∧
  (∀ (s : State) (col : ColumnId) (k : Nat), (s.col col).contStep = 4 → (s.col col).resumeState = .degradedA →
    (s.col col).diagStratum = k → Completes (.degradedComplete col) s fun t =>
      (t.col col).lock = .degradedA ∧ (t.col col).contStep = 0 ∧ (t.strat col k).loaded = true ∧
      (t.strat col k).quar = false ∧ (t.strat col k).words = (s.strat col k).words ∧ Raised s t 0x0635 [col, 0, k, 0] ∧
      OnlyChanges (.fab :: .lib :: events) s t) ∧
  (∀ (s : State) (col : ColumnId), (s.col col).staged = some true → stageReady s col = true → Completes (.lockstepEntry col) s fun t =>
      (t.col col).lock = .comparing ∧ (t.col col).staged = none ∧ (t.chm col).shared = 0 ∧ (t.chm (col + 256)).shared = 0 ∧
      (∀ k, (t.strat col k).loaded = false ∧ (t.strat col k).ffs = 0 ∧ (t.strat (col + 256) k).loaded = false) ∧
      (t.chm (col + 256)).pend = some (s.chm col).sel ∧ Raised s t 0x0631 [col, s.now] ∧ OnlyChanges (.fab :: events) s t) ∧
  (∀ (s : State) (col : ColumnId), (s.col col).staged = some false → stageReady s col = true → Completes (.lockstepExit col) s fun t =>
      (t.col col).lock = .off ∧ (t.col col).staged = none ∧ Raised s t 0x0632 [col, lockCode (s.col col).lock] ∧
      OnlyChanges (.fab :: events) s t)

/-- A request of a chamber in RUN with a Grotto port joins its bank's queue, aborts at a closed fence, and waits outside
while the bank's queue is full. A bank's write replaces a line and its poison, a read gives the stored words with
their poison; a response goes to the chamber while its stratum is active and is parked otherwise. No byte of Grotto
changes but those the access writes. (07_grotto.md, The column port, 07_grotto.md, Protection, 04_strata.md, Grotto
port, 01_stack.md, Die-boundary fences) -/
def Obligations.ColumnPortAndBanks : Prop :=
  (∀ (s : State) (c : ChamberId) (l : BitVec 21) (be : BitVec 64) (d : BitVec 512) (p : BitVec 8),
  s.chmState c = 1 → gportOf (s.chm c).selWords = true → (pinActsFor s c).isSome = true → s.inReset 3 = false →
  (memFenced s 2 = true ∨ s.fenced (tierOf c) = true → Completes (.grottoRead c l) s fun t =>
    t.out = s.out ++ [.portAbort c (s.chm c).sel] ∧ OnlyChanges [.out] s t) ∧
  (memFenced s 2 = false → s.fenced (tierOf c) = false → (s.bank (bankOf l.toNat)).queue.length < 4 →
    ((s.chm c).reads.countP fun r => r.stratum == (s.chm c).sel) + ((s.chm c).strat (s.chm c).sel).parked.length < 16 →
    Completes (.grottoRead c l) s fun t =>
      (t.bank (bankOf l.toNat)).queue = (s.bank (bankOf l.toNat)).queue ++ [
          { chamber := c, stratum := (s.chm c).sel, op := 0,
            line := l.toNat, be := 0, data := 0, poison := 0, mesh := decide (colOf c ≠ lineGroup l.toNat) }] ∧
      (t.chm c).reads = (s.chm c).reads ++ [{ stratum := (s.chm c).sel, line := l.toNat }] ∧
      (∀ a, grottoByte t a = grottoByte s a) ∧ OnlyChanges [.grt, .fab] s t) ∧
  (memFenced s 2 = false → s.fenced (tierOf c) = false → (s.bank (bankOf l.toNat)).queue.length < 4 → heldWrites s c < 16 →
    Completes (.grottoWrite c l be d p) s (fun t =>
      (t.bank (bankOf l.toNat)).queue = (s.bank (bankOf l.toNat)).queue ++ [
          { chamber := c, stratum := (s.chm c).sel, op := 1,
            line := l.toNat, be := be, data := d, poison := p, mesh := decide (colOf c ≠ lineGroup l.toNat) }] ∧
      (∀ a, grottoByte t a = grottoByte s a) ∧ OnlyChanges [.grt] s t) ∧
    Completes (.grottoBitset c l be d) s (fun t =>
      (t.bank (bankOf l.toNat)).queue = (s.bank (bankOf l.toNat)).queue ++ [
          { chamber := c, stratum := (s.chm c).sel, op := 2,
            line := l.toNat, be := be, data := d, poison := 0, mesh := decide (colOf c ≠ lineGroup l.toNat) }] ∧
      (∀ a, grottoByte t a = grottoByte s a) ∧ OnlyChanges [.grt] s t) ∧
    Completes (.grottoBitclr c l be d) s (fun t =>
      (t.bank (bankOf l.toNat)).queue = (s.bank (bankOf l.toNat)).queue ++ [
          { chamber := c, stratum := (s.chm c).sel, op := 3,
            line := l.toNat, be := be, data := d, poison := 0, mesh := decide (colOf c ≠ lineGroup l.toNat) }] ∧
      (∀ a, grottoByte t a = grottoByte s a) ∧ OnlyChanges [.grt] s t)) ∧
  ((s.bank (bankOf l.toNat)).queue.length = 4 → memFenced s 2 = false → s.fenced (tierOf c) = false → exec (.grottoWrite c l be d p) s = .next s)) ∧
  ((∀ (s : State) (b : BankId) (a : BankAcc), (s.bank b).queue = [a] → a.op = 1 → a.be = BitVec.allOnes 64 → s.inReset 3 = false → s.grt.filling = false →
    s.bankState (bankOf a.line) ≠ 2 → (s.bank b).state ≠ 3 → s.regB 0x7_0020 31 = false → Completes (.bankAccess b 0) s fun t =>
      (∀ x, x / 64 = a.line → grottoByte t x = a.data.extractLsb' (8 * (x % 64)) 8) ∧
      (∀ x, x / 64 ≠ a.line → grottoByte t x = grottoByte s x) ∧
      (∀ i < 8, wordPoison t (8 * a.line + i) = bit a.poison i ∧ wordErr t (8 * a.line + i) = 0) ∧
      (t.bank b).queue = [] ∧ OnlyChanges [.grt] s t) ∧
  (∀ (s : State) (b : BankId) (a : BankAcc), (s.bank b).queue = [a] → a.op = 0 → a.gone = false → s.inReset 3 = false → s.grt.filling = false →
    s.bankState (bankOf a.line) ≠ 2 → (s.bank b).state ≠ 3 → (∀ i < 8, wordErr s (8 * a.line + i) = 0) →
    (s.chm a.chamber).reads = [⟨a.stratum, a.line, none, false⟩] → Completes (.bankAccess b 0) s fun t =>
      (t.chm a.chamber).reads = [⟨a.stratum, a.line, some ⟨a.stratum, lineData ((List.range 8).map fun i => wordData s (8 * a.line + i)),
        ofBits 8 ((List.range 8).filter fun i => wordPoison s (8 * a.line + i))⟩, false⟩] ∧
      (∀ x, grottoByte t x = grottoByte s x) ∧ (t.bank b).queue = [] ∧ OnlyChanges [.grt, .fab] s t) ∧
  (∀ (s : State) (c : ChamberId) (r : PortResp) (line k : Nat) (rest : List PortRead), (s.col (colOf c)).lock = .off →
    (s.chm c).reads = ⟨k, line, some r, true⟩ :: rest → s.chmState c = 1 → (s.chm c).sel = k → (s.strat c k).parked = [] →
    Completes (.portResponseArrive c) s fun t =>
      t.out = s.out ++ [.portData c r] ∧ t.chm c = { s.chm c with reads := rest } ∧ OnlyChanges [.fab, .out] s t) ∧
  (∀ (s : State) (c : ChamberId) (r : PortResp) (line k : Nat) (rest : List PortRead), (s.col (colOf c)).lock = .off →
    (s.chm c).reads = ⟨k, line, some r, true⟩ :: rest → (s.chm c).sel ≠ k → Completes (.portResponseArrive c) s fun t =>
      ((t.chm c).strat k).parked = ((s.chm c).strat k).parked ++ [r] ∧ (t.chm c).reads = rest ∧ OnlyChanges [.fab] s t))

/-- On a SOLO device with nothing waiting or wrong in Grotto, a BAR2 write at offset g stores its enabled bytes, at
0x0800_0000 + g it sets bits and at 0x1000_0000 + g it clears bits; every other byte reads as before. A read at any of
the three gives the plain bytes. (R278) -/
def Obligations.HostWindowActsOnGrotto : Prop :=
  (∀ s : State, s.twn.role = 0 → quietGrotto s →
  (∀ (off g : Nat) (be : List Bool) (data : List Byte), off < 0x1800_0000 → off % 0x0800_0000 = g → be.length = data.length →
    g + data.length ≤ 0x0800_0000 → Completes (.bar2Write off be data []) s fun t =>
      (∀ i < data.length, be.getD i false = true → grottoByte t (g + i) =
        (if off / 0x0800_0000 = 0 then data.getD i 0
         else if off / 0x0800_0000 = 1 then grottoByte s (g + i) ||| data.getD i 0
         else grottoByte s (g + i) &&& ~~~ data.getD i 0)) ∧
      (∀ i < data.length, be.getD i false = false → grottoByte t (g + i) = grottoByte s (g + i)) ∧
      (∀ a, a < g ∨ g + data.length ≤ a → grottoByte t a = grottoByte s a) ∧ OnlyChanges [.grt] s t) ∧
  (∀ off len : Nat, off < 0x1800_0000 → off % 0x0800_0000 + len ≤ 0x0800_0000 → Completes (.bar2Read off len []) s fun t =>
      t.out = s.out ++ [.bar2 ((List.range len).map fun i => grottoByte s (off % 0x0800_0000 + i)) false 0] ∧
      (∀ a, grottoByte t a = grottoByte s a) ∧ OnlyChanges [.grt, .out] s t)) ∧
  (∀ (s : State) (off len : Nat) (bad : List Nat), s.twn.role = 0 → off < 0x1800_0000 → grottoTagFree s = false →
    Completes (.bar2Read off len bad) s fun t =>
      t.grt = { s.grt with barWait := s.grt.barWait ++ [{ read := true, off := off, len := len, bad := bad }] } ∧
      OnlyChanges [.grt] s t)

/-- A corrected rewrite clears the wrong bits of its word; a scrub slot opens, its read advances the line, a starved
scrubber is told with 0x0705; a log entry at 16 becomes a soft repair with 0x0707, or 0x0708 without a spare; repaired
lines are rewritten; the port clock changes when the column is quiet. None of them changes a data byte. (07_grotto.md,
Scrubbing, 07_grotto.md, Repair, 07_grotto.md, The column port) -/
def Obligations.ScrubbingAndRepair : Prop :=
  ((∀ (s : State) (b : BankId) (r : Rewrite) (rest : List Rewrite), (s.bank b).rewrites = r :: rest → (s.bank b).queue = [] →
    Completes (.correctedRewrite b) s fun t =>
      wordErr t r.word = 0 ∧ wordPoison t r.word = r.poison ∧ wordData t r.word = r.data ∧
      (∀ a, a / 8 ≠ r.word → grottoByte t a = grottoByte s a) ∧ OnlyChanges [.grt] s t) ∧
  (∀ (s : State) (b : BankId) (n : Nat), scrubOn s = true → (s.bank b).state ≠ 2 → (s.bank b).lapRead = false →
    Completes (.scrubSlotOpen b n) s fun t =>
    t.bank b = { s.bank b with slotOpen := true, slots := (s.bank b).slots + 1 } ∧ (∀ i, i ≠ b.val → t.bank i = s.bank i) ∧
    (∀ a, grottoByte t a = grottoByte s a) ∧ OnlyChanges [.grt] s t) ∧
  (∀ (s : State) (b : BankId) (n : Nat), scrubOn s = true → (s.bank b).slotOpen = true → (s.bank b).queue = [] →
    (s.bank b).state ≤ 1 → (s.bank b).scrubLine < 1023 → s.grt.errs = [] → Completes (.scrubRead b n 0) s fun t =>
      t.bank b = { s.bank b with slotOpen := false, scrubLine := (s.bank b).scrubLine + 1, lap := n } ∧
      (∀ a, grottoByte t a = grottoByte s a) ∧ OnlyChanges [.grt] s t) ∧
  (∀ (s : State) (b : BankId), scrubOn s = true → (s.bank b).state ≠ 2 → (s.bank b).starved = false →
    Completes (.scrubStarvation b) s fun t =>
      (t.bank b).starved = true ∧ t.grt.starved = true ∧ Raised s t 0x0705 [b / 8, b % 8, (s.bank b).scrubLine] ∧
      (∀ a, grottoByte t a = grottoByte s a) ∧ OnlyChanges (.grt :: events) s t) ∧
  (∀ (s : State) (col : ColumnId), s.chmState col ≠ 1 → s.chmState (col + 256) ≠ 1 → (s.chm col).reads = [] →
    (s.chm (col + 256)).reads = [] → heldWrites s col = 0 → heldWrites s (col + 256) = 0 → Completes (.pclkChange col) s fun t =>
      (t.col col).pclkUse = s.regF (grpModeReg col) 24 5 ∧ (∀ n, n ≠ col.val → t.col n = s.col n) ∧ OnlyChanges [.fab] s t)) ∧
  ((∀ (s : State) (b : BankId) (col n : Nat), (s.bank b).log = [(col, n)] → 16 ≤ n → (s.bank b).noRepair = [] → s.lys.restarting = false →
    fuseUsedAt s b (col / 256) + softUsed (s.bank b) (col / 256) < 2 → Completes (.softRepair b) s fun t =>
      (t.bank b).repairs = (s.bank b).repairs ++ [(col / 256, col % 256, fuseUsedAt s b (col / 256) + softUsed (s.bank b) (col / 256))] ∧
      (t.bank b).log = [] ∧ (∀ a, grottoByte t a = grottoByte s a) ∧
      Raised s t 0x0707 [b / 8, b % 8, col / 256, col % 256, 1 - (fuseUsedAt s b (col / 256) + softUsed (s.bank b) (col / 256))] ∧
      OnlyChanges (.grt :: events) s t) ∧
  (∀ (s : State) (b : BankId) (col n : Nat), (s.bank b).log = [(col, n)] → 16 ≤ n → (s.bank b).noRepair = [] → s.lys.restarting = false →
    2 ≤ fuseUsedAt s b (col / 256) + softUsed (s.bank b) (col / 256) → Completes (.softRepair b) s fun t =>
      t.bank b = { s.bank b with noRepair := [col] } ∧ Raised s t 0x0708 [b / 8, b % 8, col / 256, col % 256] ∧
      OnlyChanges (.grt :: events) s t) ∧
  (∀ (s : State) (b : BankId) (l : Nat) (rest : List Nat), (s.bank b).toRewrite = l :: rest → (s.bank b).queue = [] →
    bankOf l = b.val → (s.bank b).rewrites = [] → (∀ i < 8, popcount (wordErr s (8 * l + i)) ≤ 1) →
    Completes (.repairRewrite b 0) s fun t =>
      (t.bank b).toRewrite = rest ∧ (∀ i < 8, wordErr t (8 * l + i) = 0) ∧ (∀ a, grottoByte t a = grottoByte s a) ∧
      OnlyChanges [.grt] s t))

/-- GRT_GRPn is stored and its mode changes act, but for the modes under the compatibility model; a bank goes drowsy,
powers off and loses exactly its own bytes, and wakes after its fill. RMODEL's change resets the modes and segments
with 0x070B; a segment write sets the modes of its groups under the compatibility model and is ignored under the
native one. (07_grotto.md, Retention, 07_grotto.md, Native model, 07_grotto.md, Compatibility model) -/
def Obligations.BankModesAndPower : Prop :=
  (∀ (s : State) (who : Requester) (g : ColumnId) (val : Word), s.twn.role = 0 → s.regB 0x7_0004 30 = false → offDrained s →
    Completes (.bankModeWrite who g val) s fun t =>
      t.regF (grpModeReg g) 0 16 = fld val 0 16 ∧ t.regF (grpModeReg g) 24 5 = fld val 24 5 ∧
      (∀ o, o ≠ grpModeReg g → t.reg o = s.reg o) ∧
      (∀ b < 8, fld val (2 * b) 2 = 3 → bankMode s (8 * g + b) ≠ 3 → (s.bank (8 * g + b)).state ≠ 2 →
        t.bank (8 * g + b) = { s.bank (8 * g + b) with goingOff := true }) ∧ OnlyChanges [.regs, .grt] s t) ∧
  (∀ (s : State) (who : Requester) (g : ColumnId) (val : Word), s.twn.role = 0 → s.regB 0x7_0004 30 = true →
    Completes (.bankModeWrite who g val) s fun t =>
      t.regF (grpModeReg g) 0 16 = s.regF (grpModeReg g) 0 16 ∧ t.regF (grpModeReg g) 24 5 = fld val 24 5 ∧
      (∀ o, o ≠ grpModeReg g → t.reg o = s.reg o) ∧ OnlyChanges [.regs] s t) ∧
  (∀ (s : State) (b : BankId), bankMode s b = 1 → (s.bank b).state = 0 → (s.bank b).queue = [] → Completes (.bankAutoDrowsy b) s fun t =>
    t.bank b = { s.bank b with state := 1 } ∧ (∀ a, grottoByte t a = grottoByte s a) ∧ OnlyChanges [.grt] s t) ∧
  (∀ (s : State) (b : BankId) (bad : List Nat), (s.bank b).goingOff = true → (s.bank b).state ≠ 3 → (s.bank b).queue = [] →
    Completes (.bankPowerOff b bad) s fun t =>
      (t.bank b).state = (if bankMode s b = 3 then 2 else 3) ∧ (t.bank b).goingOff = false ∧ (∀ a, inBank b a = true → grottoByte t a = 0) ∧
      (∀ a, inBank b a = false → grottoByte t a = grottoByte s a) ∧ OnlyChanges [.grt] s t) ∧
  (∀ (s : State) (b : BankId), (s.bank b).state = 3 → Completes (.bankFillDone b) s fun t =>
    t.bank b = { s.bank b with state := if bankMode s b = 2 then 1 else 0 } ∧ (∀ a, grottoByte t a = grottoByte s a) ∧
    OnlyChanges [.grt] s t) ∧
  (∀ (s : State) (who : Requester) (val : Word), s.twn.role = 0 → s.regB 0x7_0004 30 = false → bit val 30 = true → offDrained s →
    Completes (.rmodelWrite who val) s fun t =>
      t.reg 0x7_0004 = val &&& 0xC000_0000 ∧ (∀ n < 256, t.regF (grpModeReg n) 0 16 = 0) ∧ (∀ k < 4, t.reg (0x7_2000 + 4 * k) = 0) ∧
      Raised s t 0x070B [1] ∧ OnlyChanges (.regs :: .grt :: events) s t) ∧
  (∀ (s : State) (who : Requester) (val : Word), s.twn.role = 0 → s.regB 0x7_0004 30 = true → bit val 30 = false →
    Completes (.rmodelWrite who val) s fun t =>
      t.reg 0x7_0004 = val &&& 0xC000_0000 ∧ (∀ k < 4, t.reg (0x7_2000 + 4 * k) = 0) ∧
      (∀ n < 256, t.reg (grpModeReg n) = s.reg (grpModeReg n)) ∧ Raised s t 0x070B [0] ∧ OnlyChanges (.regs :: events) s t) ∧
  (∀ (s : State) (who : Requester) (k : Fin 4) (val : Word), s.twn.role = 0 → s.regB 0x7_0004 30 = true → offDrained s →
    (∀ j < 16, fld val (2 * j) 2 ≠ 3) → Completes (.v2segWrite who k val) s fun t =>
      t.reg (0x7_2000 + 4 * k) = val ∧
      (∀ j < 16, ∀ i < 4, t.regF (grpModeReg (64 * k + 4 * j + i)) 0 16 = segModes (fld val (2 * j) 2)) ∧
      OnlyChanges [.regs, .grt] s t) ∧
  (∀ (s : State) (who : Requester) (k : Fin 4) (val : Word), s.twn.role = 0 → s.regB 0x7_0004 30 = false →
    exec (.v2segWrite who k val) s = .next s)

/-- A kick reads the doorbell record, a write elsewhere in the kick page is refused with RANGE_WRITE; a valid record
updates SQ_PI and CQ_CI, an invalid one puts the queue into ERROR with 0x0809. A fetch reads what the ring holds; the
descriptors that arrive enter the queue in order and the shadow is written; a host read error ends its descriptor with
HOST_ERROR and 0x0807. (08_queues.md, Observing the doorbell, 08_queues.md, Doorbell record, 08_queues.md, Fetching
and the books of the rings) -/
def Obligations.DoorbellsAndFetches : Prop :=
  (∀ (s : State) (q : QueueId), s.twn.role = 0 → s.masters = true → (s.qu q).bypass = true →
  (∀ who : Requester, (s.qu q).st ≠ 0 → s.regB (queReg q 0) 30 = true → (s.qu q).dbSt = 0 → hostTagFree s = true →
    Completes (.kick who q 0) s fun t =>
      t.out = s.out ++ [.hostRead 1 q (s.qu q).setup.dba.toNat 8] ∧ t.qu q = { s.qu q with dbSt := 2, dbTag := false } ∧
      (∀ p, p ≠ q.val → t.qu p = s.qu p) ∧ OnlyChanges [.que, .out] s t) ∧
  (∀ (who : Requester) (o : BitVec 12), o ≠ 0 → Completes (.kick who q o) s fun t =>
    Raised s t 0x0801 [kickPage q + o.toNat, Requester.code who, 4] ∧ OnlyChanges events s t) ∧
  ((s.qu q).st ≠ 0 → s.regF (queReg q 0) 0 10 ≠ 0 → (s.qu q).dbSt ≠ 0 → Completes (.doorbellPoll q) s fun t =>
    t.qu q = { s.qu q with dbAgain := true } ∧ (∀ p, p ≠ q.val → t.qu p = s.qu p) ∧ OnlyChanges [.que] s t) ∧
  ((∀ p ∈ s.que, p.2.dbSt ≠ 1) → s.pin.dbgOp = none →
    (∀ rec : BitVec 64, (s.qu q).dbSt = 2 → (s.qu q).dbAgain = false → badDoorbell (s.qu q) rec = false → (s.qu q).park = none →
      Completes (.doorbellReadDone q rec) s fun t =>
        t.qu q = { s.qu q with sqPi := fld rec 0 16 + (if bit rec 16 then (s.qu q).sqN else 0),
                               cqCi := fld rec 32 16 + (if bit rec 48 then (s.qu q).cqN else 0),
                               rseen := bit rec 17, rseenSet := true, dbSt := 0 } ∧
        t.xlt = { s.xlt with invReads := s.xlt.invReads.filter fun r => r != ⟨q, 1, 0, 0⟩ } ∧
        (∀ p, p ≠ q.val → t.qu p = s.qu p) ∧ OnlyChanges [.que, .xlt] s t) ∧
    (∀ rec : BitVec 64, (s.qu q).dbSt = 2 → (s.qu q).dbAgain = false → badDoorbell (s.qu q) rec = true → (s.qu q).st = 1 →
      Completes (.doorbellReadDone q rec) s fun t =>
        (t.qu q).st = 5 ∧ Raised s t 0x0809 [q, rec.toNat] ∧ OnlyChanges (.que :: .xlt :: events) s t))) ∧
  (∀ (s : State) (q : QueueId), s.twn.role = 0 → s.masters = true → (s.qu q).bypass = true →
  (∀ n : Nat, (s.qu q).st = 1 ∨ (s.qu q).st = 2 → (s.qu q).fetching = 0 → fetchCount s.pci.maxRead (s.qu q) = n → 0 < n → hostTagFree s = true →
    Completes (.descriptorFetch q false) s fun t =>
      t.out = s.out ++ [.hostRead 2 q (s.qu q).fetchVa (32 * n)] ∧
      t.qu q = { s.qu q with fetching := n, fetchTag := false } ∧ OnlyChanges [.que, .out] s t) ∧
  ((∀ p ∈ s.que, p.2.dbSt ≠ 1) → s.pin.dbgOp = none →
    (∀ descs : List (BitVec 256), descs ≠ [] → descs.length ≤ (s.qu q).fetching → (s.qu q).st = 1 →
      Completes (.fetchDataArrive q descs) s fun t =>
        (t.qu q).context = (s.qu q).context ++ (withPos descs).map (fun p =>
          { raw := p.2, id := (s.qu q).nextId + p.1, arrival := s.now }) ∧
        (t.qu q).sqCi = ((s.qu q).sqCi + descs.length) % (2 * (s.qu q).sqN) ∧
        (t.qu q).fetching = (s.qu q).fetching - descs.length ∧
        t.out = s.out ++ [.hostWrite 2 q (s.qu q).setup.sha.toNat (leBytes 8 (shadowValue (t.qu q)))] ∧
        OnlyChanges [.que, .xlt, .out] s t)) ∧
  (∀ (cid : BitVec 16) (kind : HostErr) (d : Desc), (∀ p ∈ s.lib.slots, p.2.loadBy = none) → (s.qu q).context = [d] →
    d.cid = cid.toNat → d.started = true → d.ended = none → d.reads ≠ [] → (kind = .timeout → s.pci.ctoOff = false) →
    Completes (.hostReadError q (.data cid) kind) s fun t =>
      descEnded t q d.raw 0x08 (restartOf s q d) ∧
      Raised s t 0x0807 [q, cid.toNat, match kind with | .ur => 1 | .ca => 2 | .poisoned => 3 | .timeout => 4] ∧
      OnlyChanges (.que :: events) s t))

/-- On a bypass queue without encryption, a transfer within one granule ends OK with RESULT the bytes moved: FILL stores
the repeated pattern, COPY the host's bytes, STREAM_OUT a beat's bytes, all at exactly the destination; COPY from
Grotto writes its bytes to the host; STREAM_IN puts the host's bytes into the endpoint as one beat with LAST. Memory
elsewhere is unchanged. (08_queues.md, Data opcodes, 08_queues.md, Execution order) -/
def Obligations.TransfersMoveTheirBytes : Prop :=
  ∀ (s : State) (q : QueueId) (w : BitVec 256) (i a : Nat) (env : DescEnv), readyFor s q w i a → quietGrotto s →
  (s.qu q).bypass = true → (s.qu q).enc = false → env.tlbBad = [] → env.addrErr = [] →
  fld w 192 64 = 0 → contested s q = false →
  (∀ m ∈ s.net.remotes, m.queue ≠ q.val) →
  (fld w 0 8 = 4 → bit w 11 = true → fld w 128 64 < 2 ^ 56 → fld w 128 64 % 64 + fld w 32 32 ≤ 64 → Completes (.descFill q env) s fun t =>
    descEnded t q w 0 (fld w 32 32) ∧ (t.qu q).bytes = (s.qu q).bytes.add (fld w 32 32) ∧
    storedAt s t (fld w 128 27) ((List.range (fld w 32 32)).map fun j =>
      BitVec.ofNat 8 (fld w 64 64 >>> (8 * ((fld w 128 27 + j) % 8)))) ∧ OnlyChanges [.que, .arb, .grt] s t) ∧
  (fld w 0 8 = 1 → bit w 10 = false → bit w 11 = true → fld w 128 64 < 2 ^ 56 → fld w 64 64 % 64 + fld w 32 32 ≤ 64 →
    hostTagFree s = true → 64 ≤ s.pci.maxRead → fld w 32 32 ≤ env.hostData.length →
    Completes (.descCopy q env) s fun t =>
      descEnded t q w 0 (fld w 32 32) ∧ t.out = s.out ++ [.hostRead 0 q (fld w 64 64) (fld w 32 32)] ∧
      storedAt s t (fld w 128 27) ((List.range (fld w 32 32)).map fun j => env.hostData.getD j 0) ∧
      OnlyChanges [.que, .arb, .grt, .out] s t) ∧
  (fld w 0 8 = 1 → bit w 10 = true → bit w 11 = false → fld w 64 64 < 2 ^ 56 → fld w 128 64 % 64 + fld w 32 32 ≤ 64 →
    64 ≤ s.pci.maxPayload → Completes (.descCopy q env) s fun t =>
      descEnded t q w 0 (fld w 32 32) ∧
      t.out = s.out ++ [.dataWrite q (fld w 128 64) s.pci.relaxed
        ((List.range (fld w 32 32)).map fun j => grottoByte s (fld w 64 27 + j))] ∧
      (∀ o, grottoByte t o = grottoByte s o) ∧ OnlyChanges [.que, .arb, .grt, .out] s t) ∧
  (∀ e, fld w 0 8 = 2 → bit w 10 = false → bit w 13 = true → fld w 64 64 % 64 + fld w 32 32 ≤ 64 →
    hostTagFree s = true → 64 ≤ s.pci.maxRead → fld w 32 32 ≤ env.hostData.length → (s.col (colOf (e / 2))).lock = .off →
    fld (s.qu q).setup.ep 0 10 = e → epOpen s e = true → (tabGet ({} : Route) s.net.streams e).mid = 0 →
    (tabGet ({} : Route) s.net.streams e).landing = [] → s.pin.ports = [] → Completes (.descStreamIn q env) s fun t =>
      descEnded t q w 0 (fld w 32 32) ∧
      t.out = s.out ++ [.hostRead 0 q (fld w 64 64) (fld w 32 32),
        .beatIn e (mkBeat ((List.range (fld w 32 32)).map fun j => (env.hostData.getD j 0, false)) true)] ∧
      OnlyChanges [.que, .arb, .net, .out] s t) ∧
  (∀ e b, fld w 0 8 = 3 → bit w 11 = true → fld w 128 64 < 2 ^ 56 → fld w 128 64 % 64 + fld w 32 32 ≤ 64 →
    fld (s.qu q).setup.ep 0 10 = e → epOpen s e = true → env.beats = [b] → beatOk b = true → b.last = true →
    fld w 32 32 = b.bytes.toNat + 1 → Completes (.descStreamOut q env) s fun t =>
      descEnded t q w 0 (fld w 32 32) ∧
      storedAt s t (fld w 128 27) ((leBytes 64 b.data.toNat).take (fld w 32 32)) ∧ OnlyChanges [.que, .arb, .grt] s t)

/-- A library request, a SWITCH and a group fire pass their request on with the descriptor running; a fire of a disabled
group ends with SWITCH_REFUSED 4; NOP ends at once; FENCE ends once TBASE has reached AUX. (08_queues.md, Descriptors,
08_queues.md, Execution order) -/
def Obligations.RequestsPassFromQueues : Prop :=
  ∀ (s : State) (q : QueueId) (w : BitVec 256) (i a : Nat), readyFor s q w i a → granted s q = true →
  (∀ sub, fld w 0 4 = 5 → fld w 4 4 = sub → 1 ≤ sub → s.lib.fifo.length < 256 → s.fenced 2 = false →
    Completes (.descLibraryRequest q) s fun t =>
    t.lib = { s.lib with fifo := s.lib.fifo ++ [(
      { op := sub, chamber := fld w 203 9, stratum := fld w 201 2, slot := fld w 212 12, restore := bit w 224,
        spillFirst := bit w 225, force := bit w 226, notify := bit w 227, tag := fld w 16 16,
        cls := if s.regF (queReg q 0) 28 2 = 3 then 2 else 3, desc := some (q.val, i) } : LibReq)] } ∧
    descRuns t q w i a ∧ OnlyChanges [.lib, .que, .arb] s t) ∧
  (fld w 0 8 = 6 → (s.chm (s.gov (fld w 208 9))).cmd = none → Completes (.descSwitch q) s fun t =>
    (t.chm (s.gov (fld w 208 9))).cmd = some ⟨fld w 194 2, fld w 192 2, bit w 12, some (q.val, i), cmdDelay s⟩ ∧
    descRuns t q w i a ∧ OnlyChanges [.fab, .que, .arb] s t) ∧
  (∀ op, fld w 0 8 = 22 → s.regB (grpReg (fld w 208 4) 0) 31 = true → (s.grp (fld w 208 4)).fire = none → fld w 194 2 = op →
    Completes (.descGroupFire q) s fun t =>
      (t.grp (fld w 208 4)).fire = some (op, some (q.val, i)) ∧ (t.grp (fld w 208 4)).fireWait = cmdDelay s ∧ descRuns t q w i a ∧ OnlyChanges [.fab, .que, .arb] s t) ∧
  (fld w 0 8 = 22 → s.regB (grpReg (fld w 208 4) 0) 31 = false → Completes (.descGroupFire q) s fun t =>
      descEnded t q w 0x0C 4 ∧ OnlyChanges [.que, .arb] s t) ∧
  (fld w 0 8 = 8 → Completes (.descNop q) s fun t => descEnded t q w 0 0 ∧ OnlyChanges [.que, .arb] s t) ∧
  (fld w 0 8 = 7 → fld w 192 64 ≤ s.now → Completes (.descFence q) s fun t => descEnded t q w 0 0 ∧ OnlyChanges [.que, .arb] s t) ∧
  (fld w 0 8 = 7 → s.now < fld w 192 64 → Completes (.descFence q) s fun t => descRuns t q w i a ∧ OnlyChanges [.que, .arb] s t)

/-- The oldest ended descriptor's completion is written at CQ_PI, which advances with its phase and sequence; coalesced
interrupts are sent after CTIME. Enabling takes the set-up and starts RUNNING or is refused with 0x0802; disabling
drains; a drained queue is DISABLED with 0x080B; an owner that is gone detaches its queue with 0x0805. (08_queues.md,
Completions, 08_queues.md, Binding and ownership) -/
def Obligations.CompletionsAndQueueStates : Prop :=
  (∀ (s : State) (q : QueueId), s.twn.role = 0 → s.masters = true →
  (∀ (d : Desc) (st res : Nat), (s.qu q).context = [d] → d.ended = some (st, res) → (s.qu q).bypass = true → (s.qu q).st = 1 →
    s.regB (queReg q 0x34) 31 = false → s.regF (queReg q 0x38) 0 20 = 0 → (s.qu q).retries = [] →
    d.reads = [] → writesOpen s q d.id = false →
    Completes (.completionWrite q) s fun t =>
      t.out = s.out ++ [.hostWrite 1 q (ringBase (s.qu q).setup.cqb + 16 * ((s.qu q).cqPi % (s.qu q).cqN))
        (completionBytes s (s.qu q) d st res false)] ∧
      (t.qu q).context = [] ∧ (t.qu q).cqPi = ((s.qu q).cqPi + 1) % (2 * (s.qu q).cqN) ∧
      (t.qu q).seq = ((s.qu q).seq + 1) % 65536 ∧ (t.qu q).done = (s.qu q).done.add 1 ∧ OnlyChanges [.que, .out] s t) ∧
  (s.regB (queReg q 0x34) 31 = true → s.regF (queReg q 0x34) 10 10 ≠ 0 → 0 < (s.qu q).irqCount →
    s.pci.msixOn = true → s.masked (s.regF (queReg q 0x34) 0 9) = false →
    Completes (.irqCoalesceTimeout q) s fun t =>
      t.out = s.out ++ [.msix (s.regF (queReg q 0x34) 0 9) (s.msixEntry (s.regF (queReg q 0x34) 0 9)).addr
        (s.msixEntry (s.regF (queReg q 0x34) 0 9)).data] ∧ t.qu q = { s.qu q with irqCount := 0 } ∧
      OnlyChanges [.que, .out] s t)) ∧
  (∀ (s : State) (q : QueueId), s.twn.role = 0 → s.masters = true →
  (∀ (who : Requester) (val : Word), (s.qu q).st = 0 → bit val 30 = true → s.regB (queReg q 0x30) 31 = false →
    s.regB (queReg q 0x2C) 31 = true → s.regB (queReg q 0x2C) 30 = false → s.regB (queReg q 0x28) 31 = false →
    Completes (.queueEnable who q val) s fun t =>
      (t.qu q).st = 1 ∧ (t.qu q).setup = setupOf s q ∧ (t.qu q).sqCi = 0 ∧ (t.qu q).cqPi = 0 ∧ (t.qu q).seq = 0 ∧
      t.reg (queReg q 0) = (s.reg (queReg q 0) &&& 0x07FF_FC00) ||| ((val ||| 0x8000_0000) &&& 0xF800_03FF) ∧
      (∀ o, o ≠ queReg q 0 → t.reg o = s.reg o) ∧ OnlyChanges [.que, .regs, .out, .pci] s t) ∧
  (∀ (who : Requester) (val : Word), (s.qu q).st = 0 → bit val 30 = false → fld val 0 10 = 0 →
    Completes (.queueEnable who q val) s fun t =>
      (t.qu q).st = 0 ∧ (t.qu q).cfgerr = 1 ∧ Raised s t 0x0802 [q, 1] ∧ OnlyChanges (.que :: .regs :: events) s t) ∧
  (∀ (who : Requester) (val : Word), (s.qu q).st = 1 → (s.qu q).bypass = true → (s.qu q).context = [] →
    (∀ p ∈ s.lib.slots, p.2.loadBy = none) → Completes (.queueDisable who q val) s fun t =>
      (t.qu q).st = 6 ∧ t.regB (queReg q 0) 31 = false ∧ (∀ o, o ≠ queReg q 0 → t.reg o = s.reg o) ∧
      OnlyChanges [.que, .regs, .out, .pci] s t) ∧
  ((s.qu q).st = 6 → (s.qu q).context = [] → (s.qu q).fetching = 0 → (s.qu q).transit = 0 → (s.qu q).retries = [] → (s.qu q).bypass = true →
    Completes (.drainEnd q) s fun t =>
      (t.qu q).st = 0 ∧ Raised s t 0x080B [q, (s.qu q).flushed] ∧
      t.xlt = { s.xlt with walks := s.xlt.walks.filter (fun w => w.queue != q.val || w.access == 6),
                           later := s.xlt.later.filter fun w => w.queue != q.val } ∧
      OnlyChanges (.que :: .xlt :: events) s t) ∧
  ((s.qu q).st = 1 → (s.qu q).ownen = true → (s.qu q).ownerSeen = true → persPresent s (s.qu q).owner = false →
    (s.qu q).bypass = true → (∀ p ∈ s.lib.slots, p.2.loadBy = none) → Completes (.ownerChange q) s fun t =>
      (t.qu q).st = 4 ∧ Raised s t 0x0805 [q, (s.qu q).owner, toEnd (s.qu q) 0x0D] ∧ OnlyChanges (.que :: events) s t))

/-- An access that misses starts one walk, which reads the root entry and then one table after another. A walk that ends
in a leaf fills the TLB for its page, one that does not parks the waiting queue with 0x0902. An invalidation of
everything, of an address space or of a range drops exactly those entries; a seventeenth is refused with 0x0907;
completion counts DONE, and not before the reads and writes under it have ended. (09_translation.md, TLB and walker,
09_translation.md, Invalidation, 09_translation.md, Faults) -/
def Obligations.WalksAndInvalidations : Prop :=
  (∀ (s : State) (asid : Fin 256) (vpn : BitVec 36), s.twn.role = 0 → s.masters = true → s.pin.dbgOp = none → (∀ p ∈ s.que, p.2.dbSt ≠ 1) →
  (∀ (es : List (BitVec 64)) (size ppn : Nat) (r wr : Bool) (q : Nat), walkEntries (4096 * vpn.toNat) 4 es = .inr (size, ppn, r, wr) →
    s.xlt.walks = [{ asid := asid, vpn := vpn.toNat, queue := q, access := 0, cid := 0xFFFF, va := 4096 * vpn.toNat }] →
    (asid.val, vpn.toNat) ∈ s.xlt.walking → Completes (.walkComplete asid vpn es false) s fun t =>
      t.xlt.walks = [] ∧ (asid.val, vpn.toNat) ∉ t.xlt.walking ∧ tlbFind t asid (4096 * vpn.toNat) =
        some { asid := asid, size := size, vpn := 4096 * vpn.toNat / 2 ^ size, ppn := ppn, r := r, w := wr } ∧
      t.out = s.out ++ ((tableReads (4096 * vpn.toNat) 4 (rootOf s asid) es).drop 1).map (fun a => .hostRead 3 q a 8) ∧
      OnlyChanges [.xlt, .out] s t) ∧
  (∀ (es : List (BitVec 64)) (k l : Nat) (q : QueueId), walkEntries (4096 * vpn.toNat) 4 es = .inl (k, l) →
    s.xlt.walks = [{ asid := asid, vpn := vpn.toNat, queue := q, access := 1, cid := 0xFFFF, va := 4096 * vpn.toNat }] →
    (asid.val, vpn.toNat) ∈ s.xlt.walking → (s.qu q).st = 1 → (s.qu q).context = [] → recordWaits s q = false →
    Completes (.walkComplete asid vpn es false) s fun t =>
      (t.qu q).st = 3 ∧ (t.qu q).park = some ⟨1, 0xFFFF⟩ ∧ Raised s t 0x0902 [q, k, 1, 0xFFFF, 0] ∧
      OnlyChanges (.xlt :: .que :: events) s t) ∧
  (∀ (q : QueueId) (n va : Nat), (s.qu q).st = 1 → (s.qu q).bypass = false → (s.qu q).fetching = 0 →
    fetchCount s.pci.maxRead (s.qu q) = n → 0 < n → (s.qu q).fetchVa = va → va + 32 * n ≤ 2 ^ 48 →
    s.regB (asReg (s.qu q).asid) 0 = true → tlbFind s (s.qu q).asid va = none → s.xlt.walks = [] → s.xlt.walking = [] →
    s.xlt.filling = [] → hostReads s < tagCap s 1 → Completes (.descriptorFetch q false) s fun t =>
      t.xlt = { s.xlt with miss := s.xlt.miss.add 1, walking := [((s.qu q).asid, va / 4096)],
                           walks := [{ asid := (s.qu q).asid, vpn := va / 4096, queue := q, access := 1, cid := 0xFFFF, va := va }] } ∧
      t.out = s.out ++ [.hostRead 3 q (rootOf s (s.qu q).asid + 8 * (va / 4096 / 2 ^ 27 % 512)) 8] ∧
      OnlyChanges [.xlt, .out] s t)) ∧
  ((∀ (s : State) (who : Requester), s.twn.role = 0 → s.xlt.inv = [] →
    Completes (.invAll who) s (fun t => t.xlt.tlb = [] ∧ t.xlt.inv.length = 1 ∧ OnlyChanges [.xlt, .out] s t) ∧
    (∀ asid : Fin 256, Completes (.invAsid who asid) s fun t =>
      t.xlt.tlb = s.xlt.tlb.filter (fun e => e.asid != asid.val) ∧ t.xlt.inv.length = 1 ∧ OnlyChanges [.xlt, .out] s t) ∧
    (∀ (asid : Fin 256) (n : BitVec 16) (va : Nat), (s.reg 0x9_0020).toNat + s.regF 0x9_0024 0 16 * 2 ^ 32 = va →
      Completes (.invRange who asid n) s fun t =>
        (∀ e, e ∈ t.xlt.tlb ↔ e ∈ s.xlt.tlb ∧ ¬ (e.asid = asid.val ∧ e.vpn * 2 ^ e.size < va + (n.toNat + 1) * 4096 ∧
          va < (e.vpn + 1) * 2 ^ e.size)) ∧ t.xlt.inv.length = 1 ∧ OnlyChanges [.xlt, .out] s t)) ∧
  (∀ (s : State) (who : Requester) (asid : Fin 256), s.twn.role = 0 → 16 ≤ s.xlt.inv.length → Completes (.invAsid who asid) s fun t =>
    Raised s t 0x0907 [asid, 2] ∧ OnlyChanges events s t) ∧
  (∀ (s : State) (v : Inval), s.twn.role = 0 → s.xlt.inv = [v] → invReadsOver s = true → (∀ p ∈ s.que, p.2.retries = []) →
    Completes .invalidationComplete s fun t =>
    t.xlt = { s.xlt with inv := [], invReads := [], invWrites := [], invDone := (s.xlt.invDone + 1) % 65536 } ∧ OnlyChanges [.xlt, .out, .pci] s t) ∧
  (∀ s : State, invReadsOver s = false → Completes .invalidationComplete s fun t => OnlyChanges [] s t))

/-- A waiting fault record is written at FR_PI, which advances; the consumer record is read again with a host tag, or
waits for one; enabling the ring resets its indices; a ring write is tried again with 0x0906 told once; ABANDON ends
the faulting descriptor with XLT_ABORTED and resumes the queue with 0x0905 and 0x0904; a read of XLT_TAGUSE0 captures
its second half. (09_translation.md, The fault ring, 09_translation.md, Resuming and abandoning, 09_translation.md,
The transaction-tag pool) -/
def Obligations.FaultRingTakesRecords : Prop :=
  ∀ s : State, s.twn.role = 0 → s.masters = true →
  (∀ (r : FaultRec) (rest : List FaultRec), s.xlt.waiting = r :: rest → s.regB 0x9_0004 31 = true → s.regB 0x9_0004 30 = false →
    frFull s = false → s.xlt.frErr = false → (∀ w ∈ s.xlt.later, w.queue ≠ r.queue) → Completes (.faultRecordWrite false) s fun t =>
      t.out = s.out ++ [.hostWrite 3 r.queue (ringBase (frBase s &&& 0xFFFF_FFFF_FFFF_FE00) + 32 * (s.xlt.frPi % frN s)) (faultBytes s r)] ∧
      t.xlt = { s.xlt with waiting := rest, frPi := (s.xlt.frPi + 1) % (2 * frN s), fseq := (s.xlt.fseq + 1) % 2 ^ 32 } ∧
      OnlyChanges [.xlt, .out] s t) ∧
  (∀ v : BitVec 64, s.xlt.waiting ≠ [] → hostTagFree s = true → Completes (.faultConsumerReread (some v)) s fun t =>
      t.xlt = { s.xlt with fcTag := false, frErr := false,
                           frCi := fld v 32 16 % frN s + (if bit v 48 then frN s else 0) } ∧
      t.out = s.out ++ [.hostRead 4 0 (fcAddr s) 8] ∧ OnlyChanges [.xlt, .out] s t) ∧
  (∀ rec : Option (BitVec 64), s.xlt.waiting ≠ [] → hostTagFree s = false → Completes (.faultConsumerReread rec) s fun t =>
      t.xlt = { s.xlt with fcTag := true } ∧ OnlyChanges [.xlt] s t) ∧
  (∀ (who : Requester) (val : Word), s.regB 0x9_0004 31 = false → Completes (.faultRingEnable who val) s fun t =>
      t.reg 0x9_0004 = (s.reg 0x9_0004 &&& 0x3FFF_FE00) ||| ((val ||| 0x8000_0000) &&& 0xC000_01FF) ∧
      (∀ o, o ≠ 0x9_0004 → t.reg o = s.reg o) ∧
      t.xlt = { s.xlt with frPi := 0, fseq := 0, frCi := 0, frErr := false } ∧ OnlyChanges [.regs, .xlt] s t) ∧
  (∀ q : QueueId, (s.qu q).retries = [5] → (s.qu q).retryTold = false → (s.qu q).bypass = true → Completes (.ringWriteRetry q) s fun t =>
      Raised s t 0x0906 [q, 5] ∧ (t.qu q).retries = [] ∧
      .hostWrite 2 q (s.qu q).setup.sha.toNat (leBytes 8 (shadowValue (s.qu q))) ∈ t.out ∧ OnlyChanges (.que :: events) s t) ∧
  (∀ (who : Requester) (q : QueueId) (p : Park) (d : Desc), (s.qu q).st = 3 → (s.qu q).ownerPark = false → (s.qu q).park = some p →
    p.access = 2 ∨ p.access = 3 → (s.qu q).context = [d] → d.id = p.cid → d.opc ≠ 5 → d.ended = none → (s.qu q).bypass = true →
    (s.qu q).detached = false → Completes (.abandon who q) s fun t =>
      descEnded t q d.raw 0x12 (restartOf s q d) ∧ (t.qu q).st = 1 ∧ Raised s t 0x0905 [q, d.cid, restartOf s q d] ∧ Raised s t 0x0904 [q, 1] ∧
      OnlyChanges (.que :: events) s t) ∧
  (∀ who : Requester, Completes (.taguse0Read who) s fun t =>
      t.out = s.out ++ [.reply who 0x9_0040 (readLive (Requester.code who) s 0x9_0040) 0] ∧
      findHalf t.captures (Requester.code who) 0x9_0044 = some (tagUse s).2 ∧ OnlyChanges [.captures, .out] s t)

/-- A session starts in either direction with the key derived from both nonces, counter 0, and new counter values for
unacknowledged records; a record goes out under the next counter value with one TAG flit and takes its flits from the
waiting ones; a key error at sending fails the key and ends the session with 0x0A05 and 0x0A08. (10_crypto.md, Link
records, 14_network.md, Records) -/
def Obligations.SessionsAndRecords : Prop :=
  (∀ (s : State) (b : BundleId) (tx : Bool) (own peer : BitVec 128) (ss : Session), s.sess b (!tx) = ss → ss.own = some own →
    ss.peer = some peer → ss.enabled = true → ss.running = false → (s.bun b).st = 6 → s.inReset 5 = false →
    (s.key ss.index).dbl = false → linkKeyOk s ss.index = true → (s.bun b).link.waiting = [] →
    tx = true ∨ (s.bun b).link.record = [] → Completes (.sessionEstablish b tx) s fun t =>
      t.sess b (!tx) = { ss with running := true, fails := 0, own := none, peer := none,
                                 counter := if tx then ((s.bun b).link.retry.filter fun f => fTy f == 0xA).length else 0,
                                 key := sessionKey (s.key ss.index).key (if tx then own else peer) (if tx then peer else own) } ∧
      tabGet 0 t.cry.started b = (tabGet 0 s.cry.started b + 1) % 65536 ∧
      (t.bun b).link.retry = (if tx then recount (s.bun b).link.retry else (s.bun b).link.retry) ∧ OnlyChanges [.cry, .gvl] s t) ∧
  (∀ (s : State) (b : BundleId) (aes : Bool), (s.sess b false).running = true → s.wireOpen b = true → (nextRecord s b).isEmpty = false →
    s.standby b = false → (s.key (s.sess b false).index).st ≠ 3 → s.inReset 5 = false → s.regB (0xA_0200 + 0x10 * b) 31 = true →
    s.regF (0xA_0200 + 0x10 * b) 8 6 = (s.sess b false).index → Completes (.recordSend b aes true) s fun t =>
      (t.sess b false).running = false ∧ (t.key (s.sess b false).index).st = 3 ∧ (t.key (s.sess b false).index).key = [] ∧
      Raised s t 0x0A05 [(s.sess b false).index] ∧ Raised s t 0x0A08 [b, 1, 1] ∧ OnlyChanges (.cry :: events) s t) ∧
  (∀ (s : State) (b : BundleId), (s.sess b false).running = true → s.wireOpen b = true → (nextRecord s b).isEmpty = false →
    s.standby b = false → (s.sess b false).counter ≠ 2 ^ 64 - 1 → (s.key (s.sess b false).index).dbl = false →
    s.cry.gcmBad = false → Completes (.recordSend b false false) s fun t =>
      (t.sess b false).counter = (s.sess b false).counter + 1 ∧
      (t.bun b).link.waiting =
        leaveWaiting (fVc ((nextRecord s b).headD [])) (nextRecord s b).length (s.bun b).link.waiting ∧
      (t.bun b).link.nextSeq = ((s.bun b).link.nextSeq + (nextRecord s b).length + 1) % 4096 ∧
      (t.bun b).link.retry.length = (s.bun b).link.retry.length + (nextRecord s b).length + 1 ∧
      (s.twn.role ≠ 1 → t.out = s.out ++ (wireFlits (s.sess b false).key (s.bun b).link.ackVal []
        ((t.bun b).link.retry.drop (s.bun b).link.retry.length)).map (Out.flit b)) ∧
      OnlyChanges [.cry, .gvl, .out] s t)

/-- A row read advances both lanes; a row whose signature differs from the golden one raises 0x0602 and marks the stratum;
a lap overrun is told with 0x0607; a frame rewrite copies exactly the failed rows from the slot, and its reread ends
it with 0x0603 or quarantines with 0x0604. (12_integrity.md, The scan, 12_integrity.md, Reaction to a failed row,
12_integrity.md, Frame rewrite) -/
def Obligations.IntegrityLanesScanAndRewrite : Prop :=
  (∀ s : State, lanesRun s = true → s.integ.resPos ≠ 0 → s.integ.resPos < 163839 → s.integ.libPos < 245759 →
    (s.strat (s.integ.resPos / 320) (s.integ.resPos / 80 % 4)).loaded = false →
    (s.strat (s.integ.resPos / 320) (s.integ.resPos / 80 % 4)).failMask = [] →
    (s.slot (s.integ.libPos / 80)).st ≠ 2 → s.integ.slotFail = [] →
    Completes (.scanRowRead [] [] 0 0 true) s fun t =>
      t.integ.resPos = s.integ.resPos + 1 ∧ t.integ.libPos = s.integ.libPos + 1 ∧ t.integ.count602 = s.integ.count602 ∧
      OnlyChanges [.integ] s t) ∧
  (∀ (s : State) (g : Fin 3) (c k row : Nat), lanesRun s = true → s.paired = false → s.twn.checking = false → s.integ.resPos = 320 * c + 80 * k + row → c < 512 → k < 4 →
    1 ≤ row → row < 79 → s.integ.dropStratum = false → s.integ.libPos < 245759 → s.integ.libPos % 80 ≠ 79 →
    (s.slot (s.integ.libPos / 80)).st ≠ 2 → s.integ.slotFail = [] → (s.strat c k).loaded = true → (s.strat c k).refilling = false →
    (s.strat c k).unchecked = false → s.fab.retired.contains (s.physOf (colOf c)) = false → (s.strat c k).failMask = [] →
    (s.strat c k).liveLap = none → (s.strat c k).quar = false → (s.col (colOf c)).lock = .off →
    rowSig (s.strat c k).words row ≠ (s.slot (s.strat c k).slot).golden.getD row 0 → (s.slot (s.strat c k).slot).goldBad = false →
    Completes (.scanRowRead [] [] 0 g true) s fun t =>
      Raised s t 0x0602 [c, k, (s.strat c k).slot, row, b2n (s.isActive c k), 1] ∧ (t.strat c k).failMask = [row] ∧
      t.integ.count602 = s.integ.count602 + 1 ∧ OnlyChanges (.integ :: .fab :: events) s t) ∧
  (∀ (s : State) (n : Nat) (i : BitVec 16), lanesRun s = true → s.integ.overrun = false → Completes (.residentLapOverrun n i) s fun t =>
    t.integ = { s.integ with overrun := true, resLap := n } ∧ Raised s t 0x0607 [n, i.toNat] ∧ OnlyChanges (.integ :: events) s t) ∧
  (∀ (s : State) (r : LibReq) (k : Nat), s.freeStream = some k → s.lib.device = [r] → r.op = 7 → targetFree s r = true → s.inReset 2 = false →
    s.inReset (tierOf r.chamber) = false → s.fenced 2 = false → s.fenced (tierOf r.chamber) = false → r.kind = 0 → r.targets = [] →
    (s.strat r.chamber r.stratum).rewriting = true → (s.slot r.slot).st = 2 → (s.slot r.slot).goldBad = false →
    s.pstate < 2 → (s.col (colOf r.chamber)).lock = .off → s.isActive r.chamber r.stratum = false →
    (∀ row ∈ r.rows, rowSig (s.slot r.slot).image row = (s.slot r.slot).golden.getD row 0) → Completes (.frameRewriteStart none) s fun t =>
      t.stream k = some { r with targets := [r.chamber] } ∧ t.lib.device = [] ∧
      (t.strat r.chamber r.stratum).words = copyRows (s.strat r.chamber r.stratum).words (s.slot r.slot).image r.rows ∧
      (t.strat r.chamber r.stratum).ffs = (s.strat r.chamber r.stratum).ffs ∧ OnlyChanges [.lib, .fab] s t) ∧
  (∀ (s : State) (c : ChamberId) (st : StratumId) (k : Nat) (r : LibReq), s.busyStreams = [(k, r)] → r.op = 7 → r.chamber = c.val →
    r.stratum = st.val → r.desc = none → r.kind = 0 → s.stream k = some r → (s.strat c st).wasActive = false →
    (s.slot (s.strat c st).slot).goldBad = false →
    (∀ row ∈ r.rows, rowSig (s.strat c st).words row = (s.slot (s.strat c st).slot).golden.getD row 0) →
    Completes (.frameRewriteReread c st true) s fun t =>
      t.stream k = none ∧ (t.strat c st).failMask = [] ∧ (t.strat c st).rewriting = false ∧
      Raised s t 0x0603 [c, st, r.rows.length, 0, 0] ∧ OnlyChanges (.integ :: .fab :: .lib :: events) s t) ∧
  (∀ (s : State) (c : ChamberId) (st : StratumId) (k : Nat) (r : LibReq), s.busyStreams = [(k, r)] → r.op = 7 → r.chamber = c.val →
    r.stratum = st.val → r.desc = none → r.kind = 0 → s.stream k = some r → (s.col (colOf c)).lock = .off → (s.strat c st).quar = false →
    (s.slot (s.strat c st).slot).goldBad = false → Completes (.frameRewriteReread c st false) s fun t =>
      t.stream k = none ∧ (t.strat c st).quar = true ∧ Raised s t 0x0604 [c, st, 1] ∧
      OnlyChanges (.integ :: .fab :: .lib :: events) s t)

/-- EN = 1 starts training with a clear link, EN = 0 turns the bundle OFF from any state, with 0x0B03 from UP; RETRAIN,
SLEEP and test entry and exit move the bundle as Table Lanes-4 says; a bit injection and a counter clear act on the
test only. (13_lanes.md, Bundle states, 13_lanes.md, Test, 13_lanes.md, Low-power states) -/
def Obligations.BundleControlRegister : Prop :=
  ∀ (s : State) (who : Requester) (b : BundleId), s.twn.role = 0 → s.twinBundle b = false →
  (∀ val : Word, fld val 26 5 = 0 → s.regB (gvlReg b 0) 31 = false → s.regB (gvlReg b 0) 28 = false →
    Completes (.bundleEnable who b val) s fun t =>
      (t.bun b).st = 1 ∧ (t.bun b).attempts = 0 ∧ (t.bun b).link = (s.bun b).link.clear ∧ t.regB (gvlReg b 0) 31 = true ∧
      (∀ o, o ≠ gvlReg b 0 → t.reg o = s.reg o) ∧ OnlyChanges [.regs, .gvl] s t) ∧
  (∀ val : Word, fld val 26 2 ≤ 2 → (s.bun b).st = 6 → Completes (.bundleDisable who b val) s fun t =>
      (t.bun b).st = 0 ∧ (t.bun b).link.st = 0 ∧ t.regB (gvlReg b 0) 31 = false ∧ Raised s t 0x0B03 [b, 7] ∧
      (∀ o, o ≠ gvlReg b 0 → t.reg o = s.reg o) ∧ OnlyChanges (.regs :: .gvl :: .cry :: events) s t) ∧
  (∀ val : Word, fld val 26 2 ≤ 2 → (s.bun b).st ≠ 6 → Completes (.bundleDisable who b val) s fun t =>
      (t.bun b).st = 0 ∧ t.regB (gvlReg b 0) 31 = false ∧ (∀ o, o ≠ gvlReg b 0 → t.reg o = s.reg o) ∧
      OnlyChanges [.regs, .gvl] s t) ∧
  (s.regB (gvlReg b 0) 31 = true → s.regF (gvlReg b 0) 26 2 ≤ 2 →
    ((s.bun b).st = 8 → Completes (.bundleRetrain who b) s fun t => (t.bun b).st = 1 ∧ OnlyChanges [.gvl] s t) ∧
    ((s.bun b).st = 6 → (s.bun b).link.pair = false → Completes (.bundleRetrain who b) s fun t =>
      (t.bun b).st = 1 ∧ (t.bun b).link.st = 0 ∧ Raised s t 0x0B03 [b, 7] ∧ OnlyChanges (.gvl :: .cry :: events) s t) ∧
    ((s.bun b).st = 6 → s.regB (gvlReg b 0) 30 = false → s.regB (gvlReg b 0) 29 = false →
      Completes (.sleepRequest who b) s fun t =>
        t.out = s.out ++ [.block b 0x78 4] ∧ t.bun b = { s.bun b with sleepAsk := true } ∧ t.regB (gvlReg b 0) 29 = true ∧
        OnlyChanges [.regs, .gvl, .out] s t) ∧
    (∀ val : Word, fld val 26 5 = 0 → bit val 31 = true → s.regB (gvlReg b 0) 28 = false → (s.bun b).st ≠ 6 →
      Completes (.testEnter who b val) s fun t =>
        (t.bun b).st = 9 ∧ (∀ k, ((t.bun b).lane k).bits = {} ∧ ((t.bun b).lane k).err = {}) ∧ t.regB (gvlReg b 0) 28 = true ∧
        OnlyChanges [.regs, .gvl] s t) ∧
    (∀ val : Word, fld val 26 2 = 0 → fld val 29 3 = 4 → s.regB (gvlReg b 0) 28 = true → (s.bun b).st = 9 →
      Completes (.testExit who b val) s fun t =>
        (t.bun b).st = 1 ∧ (t.bun b).link = (s.bun b).link.clear ∧ t.regB (gvlReg b 0) 28 = false ∧ OnlyChanges [.regs, .gvl] s t)) ∧
  (s.regF (gvlReg b 0x20) 29 3 ≤ 4 → s.regB (gvlReg b 0x20) 28 = false → s.regB (gvlReg b 0x20) 19 = false →
    ((s.bun b).st = 9 → Completes (.bitInject who b) s fun t =>
      t.out = s.out ++ [.block b 0x100 (s.regF (gvlReg b 0x20) 20 8)] ∧ OnlyChanges [.out] s t) ∧
    Completes (.testCounterClear who b) s fun t =>
      (∀ k, ((t.bun b).lane k).bits = {} ∧ ((t.bun b).lane k).err = {} ∧ ((t.bun b).lane k).bip = {}) ∧
      (t.bun b).st = (s.bun b).st ∧ OnlyChanges [.gvl] s t)

/-- Training that succeeds brings the bundle UP with its partner's map and 0x0B02; a timeout takes it to BACKOFF and
counts the attempt with 0x0B04; backoff ends in training; a lost bundle trains again with 0x0B03 and ends its
sessions. (13_lanes.md, Training, 13_lanes.md, Bundle states) -/
def Obligations.TrainingLeadsToUp : Prop :=
  ∀ (s : State) (b : BundleId), s.twinBundle b = false →
  (∀ (pb : Fin 8) (map : BitVec 24) (inv : BitVec 8) (us : BitVec 16), (s.bun b).training = true → (s.bun b).woken = false →
    s.regB (gvlReg b 0) 29 = false → s.pstate < 3 → fld (s.reg (0xA_0200 + 0x10 * b)) 30 2 = 0 →
    Completes (.trainingUp b pb map inv us) s fun t =>
      (t.bun b).st = 6 ∧ (t.bun b).link.st = 1 ∧ (t.bun b).partner = mkBit 31 true ||| mkFld 24 3 pb ||| mkFld 0 24 map.toNat ∧
      (t.bun b).pinv = inv ∧ (t.bun b).attempts = 0 ∧ (t.sess b false).enabled = false ∧ (t.sess b true).enabled = false ∧
      Raised s t 0x0B02 [b, pb, map.toNat, us.toNat] ∧ OnlyChanges (.gvl :: .cry :: events) s t) ∧
  (∀ phase : Fin 6, (s.bun b).training = true → (s.bun b).timeouts < 8 → Completes (.trainingTimeout b phase none) s fun t =>
      t.bun b = { s.bun b with st := 8, attempts := min 127 ((s.bun b).attempts + 1), timeouts := (s.bun b).timeouts + 1 } ∧
      Raised s t 0x0B04 [b, phase, min 127 ((s.bun b).attempts + 1)] ∧ OnlyChanges (.gvl :: events) s t) ∧
  ((s.bun b).st = 8 → Completes (.backoffEnd b) s (fun t => (t.bun b).st = 1 ∧ OnlyChanges [.gvl] s t) ∧
    Completes (.backoffClockDetect b) s (fun t => (t.bun b).st = 1 ∧ OnlyChanges [.gvl] s t)) ∧
  (∀ c : DownCause, (s.bun b).st = 6 → (s.bun b).link.pair = false → Completes (.bundleDown b c) s fun t =>
      (t.bun b).st = 1 ∧ (t.bun b).link.st = 0 ∧ (t.bun b).link.retry = (s.bun b).link.retry ∧
      (∀ rx, (s.sess b rx).enabled = true → (t.sess b rx).running = false ∧ (t.sess b rx).own = none ∧ (t.sess b rx).peer = none) ∧
      Raised s t 0x0B03 [b, match c with | .clock => 1 | .block => 2 | .deskew => 3 | .ts1 => 4] ∧
      OnlyChanges (.gvl :: .cry :: events) s t)

/-- A good window takes its taps, a low margin restores last-good taps with 0x0B05; last-good taps are taken after a good
millisecond; a retrain burst ends with 0x0B06, after a failed second one the bundle goes down; markers carry the
sequence and the parity, a misplaced one takes the bundle down with DESKEW. (13_lanes.md, Equalisation and adaptation,
13_lanes.md, Line code) -/
def Obligations.LanesAdapt : Prop :=
  ∀ (s : State) (b : BundleId), (s.bun b).st = 6 →
  (∀ (k : LaneId) (n : Nat) (m : BitVec 6) (taps : BitVec 30), (s.bun b).rxIdle = false → ((s.bun b).lane k).frozen = false →
    adaptDens s b ≤ n → adaptLow s b ≤ m.toNat → Completes (.adaptWindowEnd b k n m 0 taps) s fun t =>
      (t.bun b).lane k = { (s.bun b).lane k with density := n, margin := m.toNat, okWin := ((s.bun b).lane k).okWin + 1, lowDens := 0,
                                                 taps := taps, guard := 0, guarding := false,
                                                 badMs := ((s.bun b).lane k).badMs || decide (m.toNat < adaptGood s b) } ∧
      (∀ j, j ≠ k.val → (t.bun b).lane j = (s.bun b).lane j) ∧ OnlyChanges [.gvl] s t) ∧
  (∀ (k : LaneId) (n : Nat) (m : BitVec 6) (taps : BitVec 30), (s.bun b).rxIdle = false → ((s.bun b).lane k).frozen = false →
    adaptDens s b ≤ n → m.toNat < adaptLow s b → ((s.bun b).lane k).guarding = false →
    Completes (.adaptWindowEnd b k n m 0 taps) s fun t =>
      ((t.bun b).lane k).taps = ((s.bun b).lane k).good.getD 0x20000000#30 ∧ ((t.bun b).lane k).guarding = true ∧
      Raised s t 0x0B05 [b, k, m.toNat] ∧ OnlyChanges (.gvl :: events) s t) ∧
  (Completes (.lastGoodUpdate b) s fun t =>
    (∀ k < 8, (t.bun b).lane k = { (s.bun b).lane k with
        good := if ((s.bun b).lane k).badMs then ((s.bun b).lane k).good else some ((s.bun b).lane k).taps, badMs := false }) ∧
    OnlyChanges [.gvl] s t) ∧
  (∀ mask : BitVec 8, (s.bun b).txIdle = false → (s.bun b).rxIdle = false → Completes (.retrainReceive b mask) s fun t =>
    t.out = s.out ++ [.block b 0x1E 256] ∧ OnlyChanges [.out] s t) ∧
  (∀ ms : List (BitVec 6), 0 < (s.bun b).burst → (∀ k ∈ bitsOf (s.bun b).burstMask, adaptLow s b ≤ (ms.getD k 0).toNat) →
    Completes (.retrainBurstEnd b ms) s fun t =>
      (t.bun b).burst = 0 ∧ (t.bun b).burstMask = 0 ∧ Raised s t 0x0B06 [b, (s.bun b).burstMask.toNat, 1] ∧
      OnlyChanges (.gvl :: events) s t) ∧
  (∀ (ms : List (BitVec 6)) (k : Nat), 2 ≤ (s.bun b).burst → k ∈ bitsOf (s.bun b).burstMask → (ms.getD k 0).toNat < adaptLow s b →
    s.twinBundle b = false → (s.bun b).link.pair = false → Completes (.retrainBurstEnd b ms) s fun t =>
      (t.bun b).st = 1 ∧ Raised s t 0x0B06 [b, (s.bun b).burstMask.toNat, 3] ∧ Raised s t 0x0B03 [b, 5] ∧
      OnlyChanges (.gvl :: .cry :: events) s t) ∧
  (∀ bip : List Byte, Completes (.markerSend b bip) s fun t =>
    t.out = s.out ++ [.block b 0x4B ((s.bun b).txSeq + 256 * (if (s.bun b).firstMark then 0 else ofLeBytes (fitBytes 8 bip)))] ∧
    t.bun b = { s.bun b with txSeq := ((s.bun b).txSeq + 1) % 256, firstMark := false } ∧ OnlyChanges [.gvl, .out] s t) ∧
  (∀ (k : LaneId) (pb l : Fin 8) (n bip own : Byte) (prev : Nat), fld (s.bun b).partner 24 3 = pb.val → fld (s.bun b).partner (3 * k) 3 = l.val →
    ((s.bun b).lane k).seq = some prev → (s.bun b).rxIdle = false → Completes (.markerReceive b k pb l n bip own) s fun t =>
      (t.bun b).lane k = { (s.bun b).lane k with seq := some n.toNat,
                                                 bip := ((s.bun b).lane k).bip.addNarrow (popcount (bip ^^^ own)) } ∧
      OnlyChanges [.gvl] s t) ∧
  (∀ (k : LaneId) (pb l : Fin 8) (n bip own : Byte), fld (s.bun b).partner 24 3 ≠ pb.val → s.twinBundle b = false →
    (s.bun b).link.pair = false → Completes (.markerReceive b k pb l n bip own) s fun t =>
      (t.bun b).st = 1 ∧ Raised s t 0x0B03 [b, 3] ∧ OnlyChanges (.gvl :: .cry :: events) s t)

/-- Electrical idle is entered and left with its blocks; SLEEP is agreed with 0x0B09, or its missing answer takes the
bundle down; a beacon wakes; the checker counts bits and errors while in sync and a saturated counter raises 0x0B0B.
(13_lanes.md, Low-power states, 13_lanes.md, Test) -/
def Obligations.LanesSleepAndTest : Prop :=
  ∀ (s : State) (b : BundleId), s.twinBundle b = false →
  ((s.bun b).st = 6 → (s.bun b).txIdle = false → s.regF (gvlReg b 0x0C) 0 16 ≠ 0 → Completes (.eidleEnter b) s fun t =>
    t.out = s.out ++ [.block b 0x66 4] ∧ t.bun b = { s.bun b with txIdle := true } ∧ OnlyChanges [.gvl, .out] s t) ∧
  ((s.bun b).st = 6 → Completes (.eidleReceive b) s fun t =>
    t.bun b = { s.bun b with rxIdle := true } ∧ OnlyChanges [.gvl] s t) ∧
  ((s.bun b).st = 6 → (s.bun b).txIdle = true → (s.bun b).link.waiting = [] → Completes (.eidleExit b) s fun t =>
    t.out = s.out ++ [.block b 0x1E 32] ∧ (t.bun b).txIdle = false ∧ (t.bun b).firstMark = true ∧ OnlyChanges [.gvl, .out] s t) ∧
  ((s.bun b).st = 6 → Completes (.sleepReceive b) s fun t =>
    (t.bun b).st = 7 ∧ (t.bun b).link.st = 0 ∧ .block b 0x79 4 ∈ t.out ∧ Raised s t 0x0B09 [b, 1] ∧
    OnlyChanges (.gvl :: .cry :: events) s t) ∧
  ((s.bun b).st = 6 → (s.bun b).sleepAsk = true → Completes (.sleepAckReceive b) s fun t =>
    (t.bun b).st = 7 ∧ (t.bun b).sleepAsk = false ∧ Raised s t 0x0B09 [b, 1] ∧ OnlyChanges (.gvl :: .cry :: events) s t) ∧
  ((s.bun b).st = 6 → (s.bun b).sleepAsk = true → (s.bun b).link.pair = false → Completes (.sleepAckTimeout b) s fun t =>
    (t.bun b).st = 1 ∧ Raised s t 0x0B03 [b, 6] ∧ OnlyChanges (.gvl :: .cry :: events) s t) ∧
  ((s.bun b).st = 7 → s.regB (gvlReg b 0) 29 = false → s.pstate < 3 →
    Completes (.beaconSend b) s (fun t => t.out = s.out ++ [.beacon b] ∧ t.bun b = { s.bun b with st := 1, woken := true } ∧
      OnlyChanges [.gvl, .out] s t) ∧
    Completes (.beaconDetect b) s (fun t => t.bun b = { s.bun b with st := 1, woken := true } ∧ OnlyChanges [.gvl] s t)) ∧
  (∀ (k : LaneId) (on : Bool) (n e : Nat), (s.bun b).st = 9 → ((s.bun b).lane k).sync = false →
    Completes (.checkerSyncChange b k on n e) s fun t =>
      (t.bun b).lane k = { (s.bun b).lane k with sync := on } ∧ OnlyChanges [.gvl] s t) ∧
  (∀ (k : LaneId) (on : Bool) (n e : Nat), (s.bun b).st = 9 → ((s.bun b).lane k).sync = true →
    ((s.bun b).lane k).bits.n + n < 2 ^ 48 → ((s.bun b).lane k).err.n + e < 2 ^ 48 → Completes (.checkerSyncChange b k on n e) s fun t =>
      ((t.bun b).lane k).bits.n = ((s.bun b).lane k).bits.n + n ∧ ((t.bun b).lane k).err.n = ((s.bun b).lane k).err.n + e ∧
      ((t.bun b).lane k).sync = on ∧ OnlyChanges [.gvl] s t) ∧
  (∀ k : LaneId, (s.bun b).st = 9 → ((s.bun b).lane k).sync = true → ((s.bun b).lane k).bits.ovf = false →
    Completes (.testCounterSaturated b k false) s fun t =>
      ((t.bun b).lane k).bits = { n := 2 ^ 48 - 1, ovf := true } ∧ ((t.bun b).lane k).err = ((s.bun b).lane k).err ∧
      Raised s t 0x0B0B [b, k, 1] ∧ OnlyChanges (.gvl :: events) s t)

/-- A flit with a bad CRC is only counted; the next flit in order is accepted into its VC's buffer and advances the
expected number; one out of order makes the receiver send a NAK once. A NAK or a replay timeout resends the retry
buffer from the right flit; after eight in a row 0x0B0D is raised. INIT is sent again, a fresh INIT clears the link
store with 0x0B0E, freed credits are reported. (14_network.md, Sequence, acknowledgement and replay, 14_network.md,
Virtual channels and credits, 14_network.md, Flits) -/
def Obligations.LinkLayerDelivers : Prop :=
  ∀ (s : State) (b : BundleId), s.twinBundle b = false → s.paired = false → (s.bun b).st = 6 →
  (∀ p ∈ s.que, ∀ d ∈ p.2.context, d.remq = []) →
  (∀ (f : FlitBytes) (tag : TagResult), (s.bun b).rxIdle = false → fCrcOk f = false → Completes (.flitReceive b f tag) s fun t =>
      t.bun b = { s.bun b with link := { (s.bun b).link with crc := (s.bun b).link.crc.add 1 } } ∧ OnlyChanges [.gvl] s t) ∧
  (∀ (f : FlitBytes) (tag : TagResult) (own : Nat), (s.bun b).rxIdle = false → fCrcOk f = true → (s.bun b).link.st = 2 →
    (s.bun b).link.waiting = [] → (s.sess b true).running = false → (s.sess b true).enabled = false → fTy f = 6 → fVc f = 1 → fPos f = 0 → fAck f = none →
    s.net.addr = some own → fDst f = own →
    tabGet [] (s.bun b).link.firstHalf 1 = [] →
    (fSeq f = (s.bun b).link.expect → Completes (.flitReceive b f tag) s fun t =>
      (t.bun b).link.expect = ((s.bun b).link.expect + 1) % 4096 ∧ (t.bun b).link.nakSent = false ∧
      tabGet [] (t.bun b).link.held 1 = tabGet [] (s.bun b).link.held 1 ++ [f] ∧
      (∀ v, v ≠ 1 → tabGet [] (t.bun b).link.held v = tabGet [] (s.bun b).link.held v) ∧
      (t.bun b).link.retry = (s.bun b).link.retry ∧ OnlyChanges [.gvl] s t) ∧
    ((s.bun b).link.nakSent = false → 128 < ((s.bun b).link.expect + 4096 - fSeq f) % 4096 →
      Completes (.flitReceive b f tag) s fun t =>
        t.out = s.out ++ [.lctl b (fitBytes 52 (lctlPay s b 1 (s.bun b).link.ackVal))] ∧ (t.bun b).link.nakSent = true ∧
        (t.bun b).link.expect = (s.bun b).link.expect ∧ (∀ v, tabGet [] (t.bun b).link.held v = tabGet [] (s.bun b).link.held v) ∧
        OnlyChanges [.gvl, .out] s t)) ∧
  (∀ f : FlitBytes, (s.bun b).link.st = 2 → (s.bun b).txIdle = false → (s.bun b).link.waiting = [] → (s.bun b).link.retry = [f] →
    (s.sess b false).enabled = false → (s.sess b false).running = false → s.twn.role = 0 →
    ((s.bun b).link.resends < 8 →
      Completes (.nakReceive b (BitVec.ofNat 12 (fSeq f))) s (fun t =>
        t.out = s.out ++ [.flit b (stampFlit (fSeq f) (s.bun b).link.ackVal f)] ∧ (t.bun b).link.retry = [f] ∧
        (t.bun b).link.resends = (s.bun b).link.resends + 1 ∧ OnlyChanges [.gvl, .out] s t) ∧
      Completes (.replayTimeout b) s fun t =>
        t.out = s.out ++ [.flit b (stampFlit (fSeq f) (s.bun b).link.ackVal f)] ∧ (t.bun b).link.retry = [f] ∧
        (t.bun b).link.resends = (s.bun b).link.resends + 1 ∧ OnlyChanges [.gvl, .out] s t) ∧
    (8 ≤ (s.bun b).link.resends → Completes (.replayTimeout b) s fun t =>
      Raised s t 0x0B0D [b, fSeq f] ∧ (t.bun b).link.retry = [f] ∧ (t.bun b).link.resends = 0)) ∧
  ((s.bun b).link.st = 1 → Completes (.initResend b) s fun t =>
    t.out = s.out ++ [.lctl b (fitBytes 52 (lctlPay s b (2 + 4 * b2n (s.bun b).link.fresh) (s.bun b).link.ackVal))] ∧
    t.bun b = { s.bun b with link := { (s.bun b).link with reported := (s.bun b).link.freed } } ∧ OnlyChanges [.gvl, .out] s t) ∧
  (∀ (n : BitVec 12) (freed : List (BitVec 12)) (uid : BitVec 64) (active : Bool), (s.bun b).link.st = 1 →
    (s.bun b).link.retry = [] → (s.bun b).link.waiting = [] → (∀ v, tabGet [] (s.bun b).link.held v = []) →
    Completes (.initReceive b n freed uid true false active) s fun t =>
      (t.bun b).link.st = 2 ∧ (t.bun b).link.partner = some uid ∧ (t.bun b).link.expect = 0 ∧ (t.bun b).link.nextSeq = 0 ∧
      (t.bun b).link.fresh = false ∧ Raised s t 0x0B0E [b, 1, 0, 0, 0, 0] ∧ OnlyChanges (.gvl :: events) s t) ∧
  ((s.bun b).link.st = 2 → (s.bun b).link.freed ≠ (s.bun b).link.reported → Completes (.lctlCreditSend b) s fun t =>
    t.out = s.out ++ [.lctl b (fitBytes 52 (lctlPay s b 0 0))] ∧
    t.bun b = { s.bun b with link := { (s.bun b).link with reported := (s.bun b).link.freed } } ∧ OnlyChanges [.gvl, .out] s t)

/-- A manager's census asks every connected bundle; a worker collects, adopts the best parent or reports itself too deep
with 0x0B10, reports its subtree and takes its address with 0x0B11; an unfinished census ends with 0x0B10; a manager's
census that ends lets its loader go on. A peer announces itself, keeps and forwards newer NODEINFO only, and settles
on its proposed address with 0x0B11. (14_network.md, Hierarchy, 14_network.md, Peer) -/
def Obligations.CensusAndDiscovery : Prop :=
  (∀ s : State,
  (∀ b : BundleId, s.netMode = 1 → s.net.settled = false → s.twinBundle b = false → (s.bun b).link.st = 2 →
    Completes (.censusStart b) s fun t =>
      t.net.census = true ∧
      t.net.children = s.net.children ++ (((List.range 8).filter fun x =>
        !s.twinBundle x && (s.bun x).link.st == 2 && !(s.net.children.any fun c => c.bundle == x)).map fun x => { bundle := x }) ∧
      OnlyChanges [.net, .gvl, .out] s t) ∧
  (s.netMode = 2 →
    (∀ (b : BundleId) (d : Fin 4) (uid : BitVec 64), s.twinBundle b = false → s.linkHolds b = false → s.net.settled = false →
      (s.net.parent = none → Completes (.censusReceive b d uid) s fun t =>
        t.net = { s.net with heard := s.net.heard ++ [(b.val, d.val, uid)], census := true } ∧ OnlyChanges [.net, .gvl] s t) ∧
      (s.net.parent ≠ none → Completes (.censusReceive b d uid) s fun t => t.net = s.net ∧ OnlyChanges [.gvl, .out] s t)) ∧
    (∀ (b d : Nat) (uid : BitVec 64), s.net.parent = none → s.net.heard = [(b, d, uid)] →
      (d ≤ 2 → Completes .censusCollectEnd s fun t =>
        t.net.parent = some b ∧ t.net.depth = d + 1 ∧ t.net.heard = [] ∧ (t.bun b).link.adopted = true ∧
        OnlyChanges [.net, .gvl, .out] s t) ∧
      (2 < d → Completes .censusCollectEnd s fun t =>
        t.net.parent = none ∧ t.net.census = false ∧ t.net.heard = [] ∧ Raised s t 0x0B10 [s.cfg.uid.toNat, 1] ∧
        OnlyChanges (.net :: .gvl :: events) s t)) ∧
    (∀ (b : BundleId) (p size depth : Nat), s.linkHolds b = false → s.net.parent = some p → s.net.census = true →
      s.net.children = [{ bundle := b, adopted := true }] → Completes (.reportReceive b size depth) s fun t =>
        t.net = { s.net with children := [{ bundle := b, adopted := true, size := some size, depth := depth }], census := false } ∧
        OnlyChanges [.net, .gvl, .out] s t) ∧
    (s.net.census = true → Completes .censusTimeout s fun t =>
      t.net = { s.net with census := false } ∧ Raised s t 0x0B10 [s.cfg.uid.toNat, 2] ∧ OnlyChanges (.net :: events) s t) ∧
    (∀ (b : BundleId) (base parent : Fin 64), s.linkHolds b = false → s.net.parent = some b.val → s.net.addr = none → s.net.children = [] →
      Completes (.assignReceive b base parent) s fun t =>
        t.net = { s.net with addr := some base, range := base, nodes := 1, settled := true, census := false } ∧
        Raised s t 0x0B11 [2, base, base] ∧ OnlyChanges (.net :: .gvl :: events) s t)) ∧
  (∀ (b : BundleId) (size depth : Nat), s.linkHolds b = false → s.netMode = 1 → s.net.census = true → s.cfg.stage ≠ 2 → s.net.children = [{ bundle := b, adopted := true }] →
    1 ≤ size → Completes (.reportReceive b size depth) s fun t =>
      t.net.addr = some 0 ∧ t.net.range = min 63 size ∧ t.net.nodes = min 63 size + 1 ∧
      t.net.children = [{ bundle := b, adopted := true, size := some size, depth := depth, base := 1 }] ∧
      Raised s t 0x0B11 [1, 0, min 63 size] ∧ OnlyChanges (.net :: .gvl :: events) s t) ∧
  (s.netMode = 1 → s.net.census = true → s.net.settled = false → s.net.children = [] → s.cfg.listen = false → s.cfg.stage = 2 →
    s.cfg.picked = [] → s.regB 0xF_0004 30 = false → s.cfg.flashA = none → s.cfg.flashB = none → Completes .censusTimeout s fun t =>
      t.net.addr = some 0 ∧ t.net.settled = true ∧ t.cfg.stage = 0xD)) ∧
  (∀ s : State, s.netMode = 3 →
  (Completes .discoveryStart s fun t =>
    t.net = { s.net with settled := false, seq := s.net.seq + 1,
                         database := putInfo { ownInfo s with seq := s.net.seq + 1 } s.net.database } ∧
    OnlyChanges [.net, .gvl, .out] s t) ∧
  (∀ (b : BundleId) (info : NodeInfo), s.linkHolds b = false → info.uid ≠ s.cfg.uid →
    ((s.net.database.find? fun j => j.uid == info.uid) = none → Completes (.nodeinfoReceive b info) s fun t =>
      t.net = { s.net with database := putInfo info s.net.database, settled := false } ∧ OnlyChanges [.net, .gvl, .out] s t) ∧
    (∀ j, (s.net.database.find? fun j => j.uid == info.uid) = some j → info.seq ≤ j.seq → Completes (.nodeinfoReceive b info) s fun t =>
      t.net = s.net ∧ OnlyChanges [.gvl] s t)) ∧
  (∀ i : NodeInfo, s.net.settled = false → s.net.database = [i] → i.uid = s.cfg.uid → i.addr = none → i.links = [] →
    s.net.addr = none → Completes .discoverySettle s fun t =>
      t.net.addr = some i.proposed.val ∧ t.net.nodes = 1 ∧ t.net.routes = [] ∧ t.net.settled = true ∧
      Raised s t 0x0B11 [3, i.proposed, (ownInfo s).proposed] ∧ OnlyChanges (.net :: .gvl :: events) s t))

/-- With RGEN = 1 a remote READ is answered with the line as stored, and WRITE, BITSET and BITCLR change exactly the
enabled bytes of the line; with RGEN = 0 the request is answered REFUSED and changes nothing. An answer frees its tag
and completes the descriptor, a failed one or a timeout ends it with REMOTE_ERROR, an unknown one is discarded.
(14_network.md, Remote Grotto, 08_queues.md, Completions) -/
def Obligations.RemoteRequestsAndAnswers : Prop :=
  (∀ (s : State) (b : BundleId) (src : Fin 64) (rid : BitVec 16) (line : BitVec 21) (o : Nat),
  nextHop s src = some o → s.wireOpen o = false → s.linkHolds b = false →
  (s.regB 0xB_8004 31 = true → quietGrotto s →
    (Completes (.remoteRead b src rid line []) s fun t =>
      (t.bun o).link.waiting = (s.bun o).link.waiting ++ mkMsg 6 1 src s.ownAddr true
        (leBytes 2 rid.toNat ++ leBytes 1 0 ++ leBytes 1 0 ++ (List.range 64).map fun i => grottoByte s (64 * line.toNat + i)) ∧
      (∀ a, grottoByte t a = grottoByte s a) ∧ OnlyChanges [.grt, .gvl] s t) ∧
    (∀ (be : BitVec 64) (data : BitVec 512),
      (Completes (.remoteWrite b src rid line be data 0 []) s fun t =>
        (∀ i < 64, grottoByte t (64 * line.toNat + i) =
          if be.getLsbD i then data.extractLsb' (8 * i) 8 else grottoByte s (64 * line.toNat + i)) ∧
        (∀ a, a / 64 ≠ line.toNat → grottoByte t a = grottoByte s a) ∧
        (t.bun o).link.waiting = (s.bun o).link.waiting ++ mkMsg 6 1 src s.ownAddr false
          (leBytes 2 rid.toNat ++ leBytes 1 0 ++ leBytes 1 0) ∧ OnlyChanges [.grt, .gvl] s t) ∧
      (Completes (.remoteBitset b src rid line be data []) s fun t =>
        (∀ i < 64, grottoByte t (64 * line.toNat + i) = grottoByte s (64 * line.toNat + i) |||
          (if be.getLsbD i then data.extractLsb' (8 * i) 8 else 0)) ∧
        (∀ a, a / 64 ≠ line.toNat → grottoByte t a = grottoByte s a) ∧ OnlyChanges [.grt, .gvl] s t) ∧
      (Completes (.remoteBitclr b src rid line be data []) s fun t =>
        (∀ i < 64, grottoByte t (64 * line.toNat + i) = grottoByte s (64 * line.toNat + i) &&&
          ~~~ (if be.getLsbD i then data.extractLsb' (8 * i) 8 else 0)) ∧
        (∀ a, a / 64 ≠ line.toNat → grottoByte t a = grottoByte s a) ∧ OnlyChanges [.grt, .gvl] s t))) ∧
  (s.regB 0xB_8004 31 = false → ∀ (be : BitVec 64) (data : BitVec 512) (p : BitVec 8) (bad : List Nat),
    Completes (.remoteWrite b src rid line be data p bad) s fun t =>
      (t.bun o).link.waiting = (s.bun o).link.waiting ++ mkMsg 6 1 src s.ownAddr false
        (leBytes 2 rid.toNat ++ leBytes 1 2 ++ leBytes 1 0) ∧ OnlyChanges [.gvl] s t)) ∧
  (∀ (s : State) (m : Remote) (q : QueueId) (x : Queue) (d : Desc), s.net.remotes = [m] → m.queue = q.val → s.que = [(q.val, x)] →
  x.context = [d] → d.id = m.cid → d.started = true → d.ended = none → d.stopped = false → d.remq = [] → x.st = 1 → x.dbSt ≠ 1 → s.pin.dbgOp = none → s.grt.barWait = [] →
  s.xlt.walks = [] → (∀ b, s.linkHolds b = false) →
  (∀ (poison : BitVec 8) (data : BitVec 512), m.rid < 65536 → m.read = false → d.opc = 1 → totalBytes d ≤ d.off → d.poison = none → d.dstg = true →
    d.srcg = false → Completes (.rspReceive (BitVec.ofNat 16 m.rid) 0 poison data) s fun t =>
      t.net.remotes = [] ∧ (∃ d', (t.qu q).context = [d'] ∧ d'.ended = some (0, d.off)) ∧ OnlyChanges [.net, .que, .gvl] s t) ∧
  (∀ (status : Byte) (poison : BitVec 8) (data : BitVec 512), m.rid < 65536 → status ≠ 0 →
    Completes (.rspReceive (BitVec.ofNat 16 m.rid) status poison data) s fun t =>
      t.net.remotes = [] ∧ (∃ d', (t.qu q).context = [d'] ∧ d'.ended = some (0x10, restartOf { s with net := { s.net with remotes := [] } } q d)) ∧
      OnlyChanges [.net, .que, .gvl] s t) ∧
  (m.rid < 65536 → Completes (.remoteTimeout (BitVec.ofNat 16 m.rid)) s fun t =>
      t.net.remotes = [] ∧ tabGet 0 t.net.timeouts m.node = tabGet 0 s.net.timeouts m.node + 1 ∧
      (∃ d', (t.qu q).context = [d'] ∧ d'.ended = some (0x10, restartOf { s with net := { s.net with remotes := [] } } q d)) ∧
      OnlyChanges [.net, .que] s t) ∧
  (∀ (rid : BitVec 16) (status : Byte) (poison : BitVec 8) (data : BitVec 512), m.rid ≠ rid.toNat →
    Completes (.rspReceive rid status poison data) s fun t => t.net = s.net ∧ t.que = s.que ∧ OnlyChanges [.gvl] s t))

/-- A route write sets the route of its endpoint with 32 credits when it becomes valid; a beat that matches waits in the
landing buffer, one that matches none is discarded with 0x0B13; credits return to exactly the route they belong to, at
most 32; a sent beat takes a credit and goes to its node, or is discarded with 0x0B13 without a way. (14_network.md,
Stream messages) -/
def Obligations.StreamRoutesCarryBeats : Prop :=
  ∀ s : State,
  (∀ (who : Requester) (val : Word), s.twn.role = 0 → Completes (.streamRouteWrite who val) s fun t =>
    t.route (s.regF 0xB_8028 0 10) = { s.route (s.regF 0xB_8028 0 10) with
      v := bit val 31, dir := bit val 30, node := fld val 16 6, rep := fld val 0 10,
      cred := if bit val 31 && !(s.route (s.regF 0xB_8028 0 10)).v then 32 else (s.route (s.regF 0xB_8028 0 10)).cred } ∧
    (∀ e, e ≠ s.regF 0xB_8028 0 10 → t.route e = s.route e) ∧ OnlyChanges [.net] s t) ∧
  (∀ (src : Fin 64) (e : BitVec 10) (beat : Beat), (s.route e.toNat).v = true → (s.route e.toNat).dir = false →
    (s.route e.toNat).node = src.val → (s.route e.toNat).landing.length < 32 → epOwned s e.toNat = false →
    (∀ b, s.linkHolds b = false) →
    Completes (.beatReceive src e beat) s fun t =>
      t.route e.toNat = { s.route e.toNat with landing := (s.route e.toNat).landing ++ [beat] } ∧
      (∀ i, i ≠ e.toNat → t.route i = s.route i) ∧ OnlyChanges [.net, .gvl] s t) ∧
  (∀ (src : Fin 64) (e : BitVec 10) (beat : Beat), (s.route e.toNat).v = false → (∀ b, s.linkHolds b = false) → Completes (.beatReceive src e beat) s fun t =>
      Raised s t 0x0B13 [src, e.toNat, 2] ∧ t.net = s.net ∧ OnlyChanges (.gvl :: events) s t) ∧
  (∀ (src : Fin 64) (e : BitVec 10) (n : Byte), tabWf {} s.net.streams = true → (∀ b, s.linkHolds b = false) → Completes (.bcreditReceive src e n) s fun t =>
      (∀ i, t.route i = { s.route i with cred :=
        (if (s.route i).v = true ∧ (s.route i).dir = true ∧ (s.route i).node = src.val ∧ (s.route i).rep = e.toNat
         then min 32 ((s.route i).cred + n.toNat) else (s.route i).cred) }) ∧ OnlyChanges [.net, .gvl] s t) ∧
  (∀ (e : BitVec 10) (beat : Beat), (s.route e.toNat).v = true → (s.route e.toNat).dir = true → 0 < (s.route e.toNat).cred →
    epOwned s e.toNat = true →
    (∀ b, nextHop s (s.route e.toNat).node = some b → s.wireOpen b = false → Completes (.streamRouteBeatSend e beat) s fun t =>
      t.route e.toNat = { s.route e.toNat with cred := (s.route e.toNat).cred - 1 } ∧
      (t.bun b).link.waiting = (s.bun b).link.waiting ++
        mkMsg 7 0 (s.route e.toNat).node s.ownAddr true (beatPay (s.route e.toNat).rep beat) ∧ OnlyChanges [.net, .gvl] s t) ∧
    (nextHop s (s.route e.toNat).node = none → Completes (.streamRouteBeatSend e beat) s fun t =>
      t.net = s.net ∧ Raised s t 0x0B13 [(s.route e.toNat).node, (s.route e.toNat).rep, 1] ∧ OnlyChanges events s t))

/-- A HELLO that passes every check is kept for the barrier; one that fails takes the would-be lead to ALONE and the other
to SILENT with 0x0C0C. Without HELLO the line is watched and arbitration decides. At the barrier the lead and the
shadow enter PAIRED, the shadow takes the lead's TBASE, the fabric is released and 0x0C02 raised. (15_twin.md,
Synchronisation) -/
def Obligations.PairSynchronises : Prop :=
  ∀ s : State, s.twinStart = true → syncing s = true →
  (∀ h : Hello, s.twn.sync = none → h.alone = false →
    (helloRefusal s h = none → Completes (.helloReceive h) s fun t =>
      t.twn = { s.twn with puid := h.uid, heard := some h, sync := some h, lead := wouldLead s h } ∧ OnlyChanges [.twn] s t) ∧
    (∀ r, helloRefusal s h = some r →
      (wouldLead s h = true → Completes (.helloReceive h) s fun t =>
        t.twn.role = 0 ∧ t.twn.pstate = 3 ∧ t.twn.puid = h.uid ∧ t.cfg.stage = 0xB ∧ t.fab.released = true ∧ Raised s t 0x0C0C [r]) ∧
      (wouldLead s h = false → Completes (.helloReceive h) s fun t =>
        t.twn.role = 0 ∧ t.twn.pstate = 4 ∧ t.twn.fscause = 0xB ∧ t.twn.failDrive = none ∧ t.cfg.stage = 0xB ∧
        Raised s t 0x0C0C [r] ∧ Raised s t 0x0C03 [0xB, s.twn.role, s.now]))) ∧
  (s.twn.heard = none →
    (Completes (.syncTimeout false) s fun t =>
      t.twn = { s.twn with leadLow := true, leadin := true } ∧ OnlyChanges [.twn] s t) ∧
    (Completes (.syncTimeout true) s fun t =>
      t.twn.pstate = 4 ∧ t.twn.fscause = 0xB ∧ t.cfg.stage = 0xB ∧ Raised s t 0x0C0C [1]) ∧
    (Completes (.arbitrationEnd true) s fun t =>
      t.twn.role = 0 ∧ t.twn.pstate = 3 ∧ t.twn.leadLow = true ∧ t.cfg.stage = 0xB ∧ Raised s t 0x0C0C [1]) ∧
    (Completes (.arbitrationEnd false) s fun t =>
      t.twn.role = 0 ∧ t.twn.pstate = 4 ∧ t.twn.fscause = 0xB ∧ t.twn.leadLow = false ∧ Raised s t 0x0C0C [1])) ∧
  (∀ h : Hello, s.twn.sync = some h →
    (s.twn.lead = true → Completes .syncBarrier s fun t =>
      t.twn.role = 1 ∧ t.twn.pstate = 2 ∧ t.now = s.now ∧ t.twn.failDrive = some false ∧ t.twn.delay = delayInEffect s ∧
      t.twn.pins = s.reg 0xC_000C ∧ t.fab.released = true ∧ t.cfg.stage = 0xB ∧ Raised s t 0x0C02 [1, h.uid.toNat, s.now]) ∧
    (s.twn.lead = false → Completes .syncBarrier s fun t =>
      t.twn.role = 2 ∧ t.twn.pstate = 2 ∧ t.now = h.barrier ∧ t.twn.failDrive = none ∧ t.twn.hbRun = true ∧
      t.twn.pins = s.reg 0xC_000C ∧ t.fab.released = true ∧ t.cfg.stage = 0xB ∧
      (⟨0x0C02, [2, h.uid.toNat, h.barrier], h.barrier⟩ : Event) ∈ t.ev.raised))

/-- A shadow that sees PAIR_FAIL high takes over with 0x0C04, writes the records it holds and uses its own samples of a
replicated bank where no sample of the lead came; one that loses its partner while PAIR_FAIL is low fails silent with
PARTNER_LOST; a lead that hears FAILSILENT or no heartbeat goes on ALONE with 0x0C09; one whose PAIR_FAIL reads high
fails silent with every non-twin bundle off. REJOIN and AUTOREJ put an ALONE device in P0 that holds no HELLO into
REJOIN with 0x0C0A; the barrier holds it when what is left takes no longer than TWN_REJ.BARLIM; the end makes the
survivor a PAIRED LEAD and the rejoiner a PAIRED SHADOW; abandoning leaves the survivor ALONE; REJOIN outside ALONE is
refused as reserved with 0x0C01, and elsewhere the others change nothing. (15_twin.md, Takeover, 15_twin.md, Failing
silent, 15_twin.md, Partner loss, 15_twin.md, Deterministic delivery, 15_twin.md, Rejoin) -/
def Obligations.PartnerLossAndTakeover : Prop :=
  (∀ s : State, s.twinStart = true →
  (s.twn.role = 2 → Completes .takeover s (fun t =>
      t.twn.role = 0 ∧ t.twn.pstate = 3 ∧ t.twn.failin = true ∧ t.twn.leadLow = true ∧ t.twn.held = [] ∧ t.twn.progress = [] ∧
      Raised s t 0x0C04 [s.now, s.twn.puid.toNat]) ∧
    (∀ (x : Queue) (r : CommitRec) (q : Nat), s.que = [(q, x)] → x.st ≠ 0 → s.twn.held = [r] → r.kind = 2 → r.queue = q →
      Completes .takeover s fun t => .hostWrite 2 q r.addr r.bytes ∈ t.out) ∧
    (∀ (k : Fin 16) (v : BitVec 48), s.que = [] → s.twn.own = [(k.val, v.toNat)] → Completes .takeover s fun t =>
      t.twn.own = [] ∧ (∀ j < 48, t.pin.ball.getLsbD (48 * k + j) = v.getLsbD j) ∧
      (∀ i, i / 48 ≠ k.val → t.pin.ball.getLsbD i = s.pin.ball.getLsbD i)) ∧
    (s.twn.pstate = 2 → s.twn.failin = false → Completes .aloneReceive s fun t =>
      t.twn.role = 0 ∧ t.twn.pstate = 4 ∧ t.twn.fscause = 8 ∧ t.twn.failDrive = none ∧ t.twn.leadLow = false ∧ t.twn.hbRun = false ∧
      Raised s t 0x0C03 [8, 2, s.now] ∧ OnlyChanges (.twn :: .gvl :: .cry :: events) s t) ∧
    (s.twn.pstate = 2 → Completes .failsilentReceive s fun t => t.twn = { s.twn with leadin := true } ∧ OnlyChanges [.twn] s t)) ∧
  (s.twn.role = 1 → s.twn.pstate = 2 →
    (Completes .sidebandFault s fun t =>
      t.twn.role = 0 ∧ t.twn.pstate = 4 ∧ t.twn.fscause = 9 ∧ t.twn.failin = true ∧ t.twn.failDrive = none ∧
      (∀ b, s.twinBundle b = false → b < 8 → (t.bun b).st = 0) ∧ Raised s t 0x0C03 [9, 1, s.now] ∧
      OnlyChanges (.twn :: .gvl :: .cry :: events) s t) ∧
    (Completes .failsilentReceive s fun t =>
      t.twn.role = 0 ∧ t.twn.pstate = 3 ∧ t.twn.failDrive = none ∧ t.twn.leadLow = true ∧ t.twn.held = [] ∧
      Raised s t 0x0C09 [1] ∧ OnlyChanges (.twn :: events) s t) ∧
    (Completes .heartbeatTimeout s fun t =>
      t.twn.role = 0 ∧ t.twn.pstate = 3 ∧ t.twn.hbok = false ∧ Raised s t 0x0C09 [2] ∧ OnlyChanges (.twn :: events) s t)) ∧
  (s.twn.pstate = 5 → s.twn.heldAtBarrier = false → Completes .failsilentReceive s fun t =>
    t.twn.role = 0 ∧ t.twn.pstate = 3 ∧ t.twn.phase = 0 ∧ Raised s t 0x0C0B [s.twn.phase, s.twn.barrierHold, 1] ∧
    OnlyChanges (.twn :: events) s t)) ∧
  (∀ s : State, s.twinStart = true →
  (∀ who : Requester, s.twn.role = 0 →
    (s.twn.pstate = 3 → s.pstate = 0 → s.twn.heard = none → Completes (.rejoin who) s fun t =>
      t.twn.pstate = 5 ∧ t.twn.role = 0 ∧ t.twn.phase = 2 ∧ Raised s t 0x0C0A [s.twn.puid.toNat, t.twn.lines]) ∧
    (s.twn.pstate ≠ 3 → Completes (.rejoin who) s fun t =>
      t.twn = s.twn ∧ Raised s t 0x0C01 [0xC_0010, Requester.code who, 2] ∧ OnlyChanges events s t)) ∧
  (∀ (uid : BitVec 64) (lines : BitVec 22),
    (s.regB 0xC_0004 30 = true → s.twn.pstate = 3 → s.pstate = 0 → s.twn.heard = none → Completes (.rejoinAuto uid lines) s fun t =>
      t.twn.pstate = 5 ∧ t.twn.role = 0 ∧ t.twn.phase = 2 ∧ Raised s t 0x0C0A [uid.toNat, t.twn.lines]) ∧
    (s.regB 0xC_0004 30 = false → Completes (.rejoinAuto uid lines) s fun t => t = s)) ∧
  (∀ n : Nat, s.twn.pstate = 5 →
    (n ≤ max 1 (s.regF 0xC_0014 0 16) → Completes (.rejoinBarrier n) s fun t =>
      t.twn.phase = 4 ∧ t.twn.heldAtBarrier = true ∧ t.twn.barrierHold = n) ∧
    (max 1 (s.regF 0xC_0014 0 16) < n → Completes (.rejoinBarrier n) s fun t => t = s)) ∧
  (∀ n tb : Nat, s.twn.pstate = 5 →
    (s.twn.phase = 4 → Completes (.rejoinEnd n tb) s fun t =>
      t.twn.role = 1 ∧ t.twn.pstate = 2 ∧ t.twn.phase = 0 ∧ t.twn.heldAtBarrier = false ∧ Raised s t 0x0C0B [4, n, 0])) ∧
  (∀ n tb : Nat, s.twn.pstate ≠ 5 → twinReady s = true ∨ syncing s = true → Completes (.rejoinEnd n tb) s fun t =>
    t.twn.role = 2 ∧ t.twn.pstate = 2 ∧ t.lys.tbase = tb) ∧
  (∀ n : Nat,
    (s.twn.pstate = 5 → Completes (.rejoinAbandon n) s fun t =>
      t.twn.role = 0 ∧ t.twn.pstate = 3 ∧ t.twn.phase = 0 ∧ t.twn.heldAtBarrier = false ∧ Raised s t 0x0C0B [s.twn.phase, n, 1]) ∧
    (s.twn.pstate ≠ 5 → Completes (.rejoinAbandon n) s fun t => t = s)))

/-- The shadow keeps a commit record and a progress record that equal its own and counts a mismatch with 0x0C06 otherwise,
as for pins, mirrored flits and Grotto's CRC; the policy decides what follows. The acknowledged record is written by
the lead, or the message that it stands for is sent. A late item fails the shadow silent with 0x0C08; an item in time
takes effect. (15_twin.md, Comparison and diagnosis, 15_twin.md, Host queues, 15_twin.md, Deterministic delivery) -/
def Obligations.PairComparesAndCommits : Prop :=
  ∀ s : State, s.twinStart = true → s.twn.pstate = 2 →
  (s.twn.role = 2 →
    (∀ (q : QueueId) (bytes own : List Byte),
      (bytes = own → Completes (.commitRecord q bytes own) s fun t =>
        t.twn = { s.twn with held := s.twn.held ++ [⟨fb bytes 0, q, ofLeBytes ((bytes.drop 2).take 8), bytes.drop 10⟩] } ∧
        OnlyChanges [.twn, .out] s t) ∧
      (bytes ≠ own → Completes (.commitRecord q bytes own) s fun t =>
        t.twn.mism = s.twn.mism.add 1 ∧ Raised s t 0x0C06 [2, s.now])) ∧
    (∀ (q : QueueId) (cid : BitVec 16) (o own : Word),
      (o = own → Completes (.progressRecord q cid o own) s fun t =>
        t.twn = { s.twn with progress := tabSet 0 s.twn.progress (65536 * q + cid.toNat) o.toNat } ∧ OnlyChanges [.twn] s t) ∧
      (o ≠ own → Completes (.progressRecord q cid o own) s fun t =>
        t.twn.mism = s.twn.mism.add 1 ∧ Raised s t 0x0C06 [2, s.now])) ∧
    (∀ pin : Fin 768, bit s.twn.pins (pin / 48) = true → Completes (.pinCompareMismatch pin) s fun t =>
        t.twn.mism = s.twn.mism.add 1 ∧ Raised s t 0x0C06 [1, s.now]) ∧
    (∀ (b : BundleId) (f own : FlitBytes), s.twinBundle b = false →
      (f = own → Completes (.mirroredOutboundFlit b f own) s fun t => OnlyChanges [] s t) ∧
      (f ≠ own → Completes (.mirroredOutboundFlit b f own) s fun t =>
        t.twn.mism = s.twn.mism.add 1 ∧ Raised s t 0x0C06 [3, s.now])) ∧
    (∀ own partner : Word,
      (own = partner → Completes (.grottoCrcExchange own partner) s fun t => OnlyChanges [] s t) ∧
      (own ≠ partner →
        (s.regF 0xC_0004 28 2 = 0 → Completes (.grottoCrcExchange own partner) s fun t =>
          t.twn.mism = s.twn.mism.add 1 ∧ t.twn.pstate = 4 ∧ t.twn.fscause = 7 ∧ Raised s t 0x0C06 [4, s.now] ∧
          Raised s t 0x0C07 [0, 2] ∧ Raised s t 0x0C03 [7, 2, s.now]) ∧
        (s.regF 0xC_0004 28 2 = 1 → Completes (.grottoCrcExchange own partner) s fun t =>
          t.twn = { s.twn with mism := s.twn.mism.add 1, checking := true } ∧ Raised s t 0x0C06 [4, s.now] ∧
          OnlyChanges (.twn :: .integ :: events) s t))) ∧
    (s.twn.checking = true → Completes .selfcheckLapEnd s fun t =>
      t.twn.pstate = 4 ∧ t.twn.fscause = 7 ∧ t.twn.checking = false ∧ Raised s t 0x0C07 [1, 2] ∧ Raised s t 0x0C03 [7, 2, s.now]) ∧
    (∀ (d : Fin 40) (n : Nat) (item : StampedItem), Completes (.stampedDelivery d n true item) s fun t =>
      t.twn.pstate = 4 ∧ t.twn.fscause = 6 ∧ Raised s t 0x0C08 [d, n] ∧ OnlyChanges (.twn :: .gvl :: .cry :: events) s t)) ∧
  (∀ (q : QueueId) (r : CommitRec), s.twn.role = 1 → s.twn.held = [r] → r.queue = q.val →
    (r.kind ≠ 4 → Completes (.commitRecordAck q) s fun t =>
      t.out = s.out ++ [.hostWrite r.kind q r.addr r.bytes] ∧ t.twn = { s.twn with held := [] } ∧ OnlyChanges [.twn, .out] s t) ∧
    (r.kind = 4 → Completes (.commitRecordAck q) s fun t =>
      t.twn = { s.twn with held := [] } ∧ OnlyChanges [.twn, .out, .pci] s t)) ∧
  (∀ (d : Fin 40) (n : Nat) (k : Fin 16) (v : BitVec 48), s.paired = true →
    Completes (.stampedDelivery d n false (.input k v)) s fun t =>
      t.twn = { s.twn with stamped := n, own := tabDel s.twn.own k } ∧ (∀ j < 48, t.pin.ball.getLsbD (48 * k + j) = v.getLsbD j) ∧
      (∀ i, i / 48 ≠ k.val → t.pin.ball.getLsbD i = s.pin.ball.getLsbD i) ∧ OnlyChanges [.twn, .pin] s t)

/-- REJOIN or AUTOREJ starts a rejoin of an ALONE device in P0 with 0x0C0A when the checks of Table Twin-4 pass on the
HELLO it holds, or raises 0x0C0C; the barrier holds every chamber in RUN with the source Command; the end releases
them, makes the survivor LEAD and the rejoiner SHADOW with the survivor's TBASE and 0x0C0B; an abandoned one leaves
the survivor ALONE with 0x0C0B and releases a survivor held at its barrier. The number of lines to send is free where
no command gives it (log 30). (15_twin.md, Rejoin) -/
def Obligations.RejoinRestoresThePair : Prop :=
  ∀ s : State, s.twinStart = true →
  (s.twn.pstate = 3 → s.twn.role = 0 → s.pstate = 0 →
    (∀ who : Requester, (∀ h, s.twn.heard = some h → helloRefusal s h = none) → Completes (.rejoin who) s fun t =>
      t.twn.pstate = 5 ∧ t.twn.role = 0 ∧ t.twn.phase = 2 ∧ Raised s t 0x0C0A [s.twn.puid.toNat, t.twn.lines] ∧
      (s.twn.maxLine = true → t.twn.lines = 2 ^ 21) ∧ OnlyChanges (.twn :: .seed :: events) s t) ∧
    (∀ (who : Requester) (h : Hello) (r : Nat), s.twn.heard = some h → helloRefusal s h = some r →
      Completes (.rejoin who) s fun t => t.twn = s.twn ∧ Raised s t 0x0C0C [r] ∧ OnlyChanges (.seed :: events) s t) ∧
    (s.regB 0xC_0004 30 = true → ∀ (uid : BitVec 64) (lines : BitVec 22),
      ((∀ h, s.twn.heard = some h → helloRefusal s h = none) → Completes (.rejoinAuto uid lines) s fun t =>
        t.twn = { s.twn with pstate := 5, role := 0, phase := 2, lines := if s.twn.maxLine then 2 ^ 21 else lines.toNat } ∧
        Raised s t 0x0C0A [uid.toNat, t.twn.lines] ∧ OnlyChanges (.twn :: events) s t) ∧
      (∀ (h : Hello) (r : Nat), s.twn.heard = some h → helloRefusal s h = some r → Completes (.rejoinAuto uid lines) s fun t =>
        t.twn = s.twn ∧ Raised s t 0x0C0C [r] ∧ OnlyChanges events s t))) ∧
  (s.twn.pstate = 5 → s.twn.role = 0 →
    (∀ n : Nat, n ≤ max 1 (s.regF 0xC_0014 0 16) → s.pstate = 0 → s.fab.released = true → noFires s → (∀ c, (s.chm c).cmd = none) →
      (∀ c, (s.col c).lock = .off) → Completes (.rejoinBarrier n) s fun t =>
        t.twn.phase = 4 ∧ t.twn.heldAtBarrier = true ∧ t.twn.barrierHold = n ∧ t.twn.pstate = 5 ∧
        ∀ c, s.chmState c = 1 → t.chmState c = 4 ∧ (t.chm c).hsrc = 1) ∧
    (∀ n tb : Nat, s.twn.phase = 4 → s.twn.heldAtBarrier = true → Completes (.rejoinEnd n tb) s fun t =>
      t.twn.role = 1 ∧ t.twn.pstate = 2 ∧ t.twn.phase = 0 ∧ t.twn.heldAtBarrier = false ∧ t.twn.failDrive = some false ∧
      t.now = s.now ∧ Raised s t 0x0C0B [4, n, 0] ∧
      (∀ c, s.chmState c = 4 → (s.chm c).hsrc = 1 → (t.chm c).hsrc = 0 ∧ (t.chm c).sel = (s.chm c).pend.getD (s.chm c).sel ∧
        Raised s t 0x0305 [c, (t.chm c).sel]) ∧ OnlyChanges (.twn :: .fab :: .pin :: events) s t) ∧
    (∀ n : Nat, s.twn.heldAtBarrier = false → Completes (.rejoinAbandon n) s fun t =>
      t.twn = { s.twn with role := 0, pstate := 3, phase := 0, lines := 0 } ∧ Raised s t 0x0C0B [s.twn.phase, n, 1] ∧
      OnlyChanges (.twn :: events) s t) ∧
    (∀ n : Nat, s.twn.heldAtBarrier = true → Completes (.rejoinAbandon n) s fun t =>
      t.twn = { s.twn with role := 0, pstate := 3, phase := 0, lines := 0, heldAtBarrier := false } ∧
      Raised s t 0x0C0B [s.twn.phase, n, 1] ∧
      (∀ c, s.chmState c = 4 → (s.chm c).hsrc = 1 → (t.chm c).hsrc = 0 ∧ (t.chm c).sel = (s.chm c).pend.getD (s.chm c).sel ∧
        Raised s t 0x0305 [c, (t.chm c).sel]) ∧ OnlyChanges (.twn :: .fab :: .pin :: events) s t)) ∧
  (∀ n tb : Nat, s.twn.pstate ≠ 5 → twinReady s = true ∨ syncing s = true → Completes (.rejoinEnd n tb) s fun t =>
    t.twn.role = 2 ∧ t.twn.pstate = 2 ∧ t.now = tb ∧ t.fab.released = true ∧ t.cfg.stage = 0xB ∧ t.twn.hbRun = true ∧
    t.twn.pins = s.reg 0xC_000C ∧ (∀ c, (t.chm c).hsrc = 0) ∧ (⟨0x0C0B, [4, n, 0], tb⟩ : Event) ∈ t.ev.raised)

/-- An event's leaf counts it and it joins the event queue, or is lost when 64 wait or, as INFO, when 56 do; a leaf whose
check fails restarts at zero with 0x0E09. An event taken merges into an identical last record or opens a new one at
HEAD; a FAULT triggers the ring and is logged; with no post records the ring freezes with 0x0E02; a frozen ring takes
nothing. (17_echo.md, Events into records, 17_echo.md, The pre-trigger ring, 17_echo.md, The first-fault log,
17_echo.md, The counter tree) -/
def Obligations.EventsAreCountedAndRecorded : Prop :=
  ∀ (s : State) (e : Event) (rest : List Event),
  (s.ev.raised = e :: rest → hasLeaf e.code = true →
    (s.ev.queue.length < 56 → Completes (.eventEnqueue false) s fun t =>
      t.ev.queue = s.ev.queue ++ [e] ∧ t.ev.raised = rest ∧ (t.leaf e.code).count = (s.leaf e.code).count.add 1 ∧
      (∀ c, c ≠ e.code → t.leaf c = s.leaf c) ∧ t.ev.lost = s.ev.lost ∧ OnlyChanges [.ev] s t) ∧
    (56 ≤ s.ev.queue.length → s.ev.queue.length < 64 →
      (isFault e.code e.fields = true → Completes (.eventEnqueue false) s fun t =>
        t.ev.queue = s.ev.queue ++ [e] ∧ t.ev.lost = s.ev.lost ∧ OnlyChanges [.ev] s t) ∧
      (isFault e.code e.fields = false → Completes (.eventEnqueue false) s fun t =>
        t.ev.queue = s.ev.queue ∧ t.ev.lost = s.ev.lost.add 1 ∧ t.ev.lostRing = true ∧
        (t.leaf e.code).count = (s.leaf e.code).count.add 1 ∧ OnlyChanges [.ev] s t)) ∧
    (64 ≤ s.ev.queue.length → Completes (.eventEnqueue false) s fun t =>
      t.ev.queue = s.ev.queue ∧ t.ev.lost = s.ev.lost.add 1 ∧ OnlyChanges [.ev] s t) ∧
    (s.ev.queue.length < 56 → Completes (.eventEnqueue true) s fun t =>
      t.ev.queue = s.ev.queue ++ [e] ∧ (t.leaf e.code).count = ({} : Ctr).add 1 ∧ (t.leaf e.code).lost = true ∧
      Raised s t 0x0E09 [e.code, min 255 ((s.leaf e.code).episodes + 1)] ∧ OnlyChanges events s t)) ∧
  (s.ev.queue = e :: rest →
    (∀ k, isFault e.code e.fields = false → s.ev.ringState = 0 → s.ev.last = some k → identical e (tabGet {} s.ev.ring k) = true →
      (tabGet ({} : Record) s.ev.ring k).rep < 65535 → Completes .eventTake s fun t =>
        tabGet {} t.ev.ring k = { tabGet ({} : Record) s.ev.ring k with rep := (tabGet ({} : Record) s.ev.ring k).rep + 1, tlast := e.tbase } ∧
        t.ev.head = s.ev.head ∧ t.ev.queue = rest ∧ t.ev.seq = (s.ev.seq + 1) % 2 ^ 32 ∧ t.ev.log = s.ev.log ∧ OnlyChanges [.ev] s t) ∧
    (isFault e.code e.fields = false → s.ev.ringState = 0 → s.ev.last = none → Completes .eventTake s fun t =>
      tabGet {} t.ev.ring s.ev.head = openRecord e s.ev.seq false s.ev.lostRing false ∧ t.ev.head = (s.ev.head + 1) % 4096 ∧
      t.ev.last = some s.ev.head ∧ t.ev.ringState = 0 ∧ t.ev.lostRing = false ∧ t.ev.queue = rest ∧ t.ev.log = s.ev.log ∧
      (∀ k, k ≠ s.ev.head → tabGet {} t.ev.ring k = tabGet {} s.ev.ring k) ∧ OnlyChanges [.ev] s t) ∧
    (isFault e.code e.fields = true → s.ev.ringState = 0 → s.ev.last = none → s.ev.log = [] → s.regF 0xD_0000 12 12 ≠ 0 →
      Completes .eventTake s fun t =>
        tabGet {} t.ev.ring s.ev.head = { openRecord e s.ev.seq true s.ev.lostRing false with trigger := true } ∧
        t.ev.ringState = 1 ∧ t.ev.trigIdx = s.ev.head ∧ t.ev.postLeft = s.regF 0xD_0000 12 12 ∧
        t.ev.log = [openRecord e s.ev.seq true s.ev.lostLog false] ∧ t.ev.queue = rest ∧ OnlyChanges events s t) ∧
    (isFault e.code e.fields = true → s.ev.ringState = 0 → s.ev.last = none → s.ev.log = [] → s.regF 0xD_0000 12 12 = 0 →
      s.regB 0xD_0000 30 = false → Completes .eventTake s fun t =>
        t.ev.ringState = 2 ∧ t.ev.trigIdx = s.ev.head ∧ Raised s t 0x0E02 [s.ev.head, e.code] ∧ OnlyChanges events s t) ∧
    (isFault e.code e.fields = false → s.ev.ringState = 2 → Completes .eventTake s fun t =>
      t.ev = { s.ev with queue := rest, seq := (s.ev.seq + 1) % 2 ^ 32 } ∧ OnlyChanges [.ev] s t))

/-- REARM returns a FROZEN ring to ARMED with HEAD unchanged and has no effect in ARMED and POST; CLEARLOG empties the log
and clears FULL and DROPPED; either, written while a commit that carries the ring or the log is in progress, takes
effect when that commit ends. (R670, R672) -/
def Obligations.RearmAndClearlog : Prop :=
  ∀ (s : State) (who : Requester),
  (s.ev.commit.writing = false ∨ s.ev.commit.carriesRing = false →
    (s.ev.ringState = 2 → Completes (.echRearm who) s fun t => t.ev = { s.ev with ringState := 0 } ∧ OnlyChanges [.ev] s t)) ∧
  (s.ev.ringState ≠ 2 → Completes (.echRearm who) s fun t => OnlyChanges [] s t) ∧
  (s.ev.commit.writing = true → s.ev.commit.carriesRing = true → s.ev.ringState = 2 → Completes (.echRearm who) s fun t =>
    t.ev = { s.ev with commit := { s.ev.commit with rearmLater := true } } ∧ OnlyChanges [.ev] s t) ∧
  (s.ev.commit.writing = false ∨ s.ev.commit.carriesLog = false → Completes (.echClearlog who) s fun t =>
    t.ev = { s.ev with log := [], logFull := false, dropped := 0 } ∧ OnlyChanges [.ev] s t) ∧
  (s.ev.commit.writing = true → s.ev.commit.carriesLog = true → Completes (.echClearlog who) s fun t =>
    t.ev = { s.ev with commit := { s.ev.commit with clearLater := true } } ∧ OnlyChanges [.ev] s t) ∧
  (s.ev.commit.writing = true → Completes (.echoCommitEnd none) s fun t =>
    (s.ev.commit.rearmLater = true → s.ev.ringState = 2 → t.ev.ringState = 0 ∧ t.ev.head = s.ev.head) ∧
    (s.ev.commit.clearLater = true → t.ev.log = [] ∧ t.ev.logFull = false ∧ t.ev.dropped = 0) ∧
    OnlyChanges (.cfg :: .fab :: .grt :: events) s t)

/-- COMMIT makes a commit pending or ends it with NOFLASH; it starts in free sectors and occupies the flash, or ends with
NOSPACE; its end records DONE, the sequence and the repairs carried with 0x0E05; a sector that fails is retired with
0x0E07. A read of ECH_RDATA0 captures the record, one of ECH_CVAL_LO the counter's other half. (17_echo.md, Commits to
flash, 17_echo.md, Reading records) -/
def Obligations.CommitsToFlash : Prop :=
  ∀ (s : State) (who : Requester), s.twn.role = 0 →
  (commitsFlash s = true → s.ev.commit.pending = false → Completes (.echCommit who) s fun t =>
    t.ev = { s.ev with commit := { s.ev.commit with pending := true, repairOnly := false, auto := false } } ∧ OnlyChanges [.ev] s t) ∧
  (commitsFlash s = false → Completes (.echCommit who) s fun t =>
    t.ev.commit = { s.ev.commit with lastRes := 2 } ∧ Raised s t 0x0E06 [2] ∧ OnlyChanges events s t) ∧
  (commitMayStart s = true → s.ev.sectors ≠ [] → (∀ x ∈ s.ev.sectors, x.retired = false ∧ x.erases < 100000) →
    s.ev.ringState ≠ 2 → (repairEntries s).length ≤ 8192 →
    (ceilDiv (commitLength s s.ev.commit.repairOnly false) 65504 ≤ (freeSectors s).length → Completes .echoCommitStart s fun t =>
      t.ev.commit.writing = true ∧ t.ev.commit.pending = false ∧
      t.ev.commit.sectors = (freeSectors s).take (ceilDiv (commitLength s s.ev.commit.repairOnly false) 65504) ∧
      t.ev.commit.carriesLog = !s.ev.commit.repairOnly ∧ t.ev.commit.carriesRing = false ∧
      t.cfg.flashOps = s.cfg.flashOps + 1 ∧ OnlyChanges [.ev, .cfg, .out] s t) ∧
    ((freeSectors s).length < ceilDiv (commitLength s s.ev.commit.repairOnly false) 65504 → Completes .echoCommitStart s fun t =>
      t.ev.commit = { s.ev.commit with pending := false, stopped := false, lastRes := 3 } ∧ Raised s t 0x0E06 [3] ∧
      OnlyChanges events s t)) ∧
  (s.ev.commit.writing = true →
    (s.ev.commit.rearmLater = false → s.ev.commit.clearLater = false → Completes (.echoCommitEnd none) s fun t =>
      t.ev.commit.writing = false ∧ t.ev.commit.lastRes = 1 ∧ t.ev.commit.done = (s.ev.commit.done + 1) % 65536 ∧
      t.ev.cseq = (s.ev.cseq + 1) % 2 ^ 32 ∧ t.ev.usedSectors = s.ev.commit.sectors ∧
      t.fab.unrecorded = s.fab.unrecorded.filter (fun p => !s.ev.commit.cols.contains p) ∧
      Raised s t 0x0E05 [(s.ev.cseq + 1) % 2 ^ 32, s.ev.commit.sectors.length, b2n s.ev.commit.onlyRepair] ∧
      OnlyChanges (.cfg :: .fab :: .grt :: events) s t) ∧
    (∀ i : BitVec 12, i.toNat ∈ s.ev.commit.sectors → i.toNat < s.ev.sectors.length → Completes (.echoCommitEnd (some i)) s fun t =>
      (t.ev.sectors.getD i.toNat {}).retired = true ∧ Raised s t 0x0E07 [i.toNat, (s.ev.sectors.getD i.toNat {}).erases, 2] ∧
      OnlyChanges (.cfg :: events) s t)) ∧
  ((recordAt s).code ≠ 0 → Completes (.rdata0Read who) s fun t =>
    tabGet [] t.ev.capture (Requester.code who) =
      ((List.range 16).map fun k => ofLeBytes (((recordBytes (recordAt s)).drop (4 * k)).take 4)) ∧
    t.out = s.out ++ [.reply who 0xD_0040 (BitVec.ofNat 32 (ofLeBytes ((recordBytes (recordAt s)).take 4))) 0] ∧
    OnlyChanges [.ev, .out] s t) ∧
  (Completes (.cvalLoRead who) s fun t =>
    t.out = s.out ++ [.reply who 0xD_0038 (counterShown s).1 0] ∧
    findHalf t.captures (Requester.code who) 0xD_003C = some (counterShown s).2 ∧ OnlyChanges [.captures, .out] s t)

/-- A read frame with a wrong CRC is answered CRC and does nothing; a right one answers the register; an address above the
space is answered RANGE. A write frame to a block that has no power is answered UNPOWERED; otherwise it has exactly
the effect of that register write of the supervisor, answered OK or REFUSED; a write to a queue's register of its own
that no rule refuses stores its RW bits. (16_lysata.md, Supervisor SPI) -/
def Obligations.SpiFramesAccessRegisters : Prop :=
  ∀ (s : State) (m : List Byte), 16 ≤ m.length →
  (fb m 0 = 0x0B →
    (spiCrc (m.take 5) ≠ fb m 5 → Completes (.spiReadFrame m) s fun t =>
      t.out = s.out ++ [.spi ([1, 0, 0, 0, 0] ++ leBytes 1 (spiCrc [1, 0, 0, 0, 0]))] ∧ OnlyChanges [.out] s t) ∧
    (spiCrc (m.take 5) = fb m 5 → ∀ a, ofBeBytes ((m.drop 1).take 4) = 4 * a → a < 0x4000 → s.pstate ≤ 2 →
      Completes (.spiReadFrame m) s fun t =>
      t.out = s.out ++ [.spi (([0] : List Byte) ++ beBytes (devRead (4 * a)) ++ leBytes 1 (spiCrc (([0] : List Byte) ++ beBytes (devRead (4 * a)))))] ∧
      OnlyChanges [.out] s t) ∧
    (spiCrc (m.take 5) = fb m 5 → 0x20_0000 ≤ ofBeBytes ((m.drop 1).take 4) → Completes (.spiReadFrame m) s fun t =>
      t.out = s.out ++ [.spi ([3, 0, 0, 0, 0] ++ leBytes 1 (spiCrc [3, 0, 0, 0, 0]))] ∧ OnlyChanges [.out] s t)) ∧
  (fb m 0 = 0x02 → spiCrc (m.take 9) = fb m 9 → ∀ a, ofBeBytes ((m.drop 1).take 4) = 4 * a → a < 0x8_0000 →
    (2 < s.pstate → alwaysOn (4 * a) = false → Completes (.spiWriteFrame m) s fun t =>
      t.out = s.out ++ [.spi ([5, 0, 0, 0, 0] ++ leBytes 1 (spiCrc [5, 0, 0, 0, 0]))] ∧ OnlyChanges [.out] s t) ∧
    (∀ u, blockPowered s (4 * a) = true →
      exec (.registerWrite .supervisor (4 * a) 0xF (BitVec.ofNat 32 (ofBeBytes ((m.drop 5).take 4)))) s = .next u →
      (refusals u ≤ refusals s → Completes (.spiWriteFrame m) s fun t =>
        t = u.send (.spi ([0, 0, 0, 0, 0] ++ leBytes 1 (spiCrc [0, 0, 0, 0, 0])))) ∧
      (refusals s < refusals u → Completes (.spiWriteFrame m) s fun t =>
        t = u.send (.spi ([4, 0, 0, 0, 0] ++ leBytes 1 (spiCrc [4, 0, 0, 0, 0])))))) ∧
  (fb m 0 = 0x02 → spiCrc (m.take 9) = fb m 9 → ∀ (off : Nat) (val : Word), ofBeBytes ((m.drop 1).take 4) = off → off % 4 = 0 →
    ofBeBytes ((m.drop 5).take 4) = val.toNat → 0x8_0000 ≤ off → off < 0x9_0000 → off % 0x100 ≠ 0 → (regDesc off).pair = 0 →
    s.twn.role = 0 → s.pstate ≤ 2 → writeRefusal s 2 off 0 val = none → Completes (.spiWriteFrame m) s fun t =>
      t.reg off = (s.reg off &&& ~~~(regDesc off).rw) ||| (val &&& (regDesc off).rw) ∧ (∀ o, o ≠ off → t.reg o = s.reg o) ∧
      t.out = s.out ++ [.spi ([0, 0, 0, 0, 0] ++ leBytes 1 (spiCrc [0, 0, 0, 0, 0]))] ∧ OnlyChanges [.regs, .out] s t)

/-- With the debug-lock fuse blown, register writes and reads outside DEV and ECH answer LOCKED. Otherwise NOP, register
reads and writes, buffer reads and Grotto accesses do what they name and answer OK or REFUSED; a write to a queue's
register of its own that no rule refuses stores its RW bits; Grotto answers REFUSED while JTAG may not access it. A
host read is BUSY until its data arrive, which fill the debug buffer, decrypted when the key allows. (17_echo.md,
Debug access port, 18_combinations.md, Debug access, 10_crypto.md, Debug masters) -/
def Obligations.DebugPortOperates : Prop :=
  (∀ s : State, s.pin.dbgOp = none → s.pin.dbgGrt = false →
  (s.cfg.debugLock = true → (∀ (off : Nat) (val : Word), Completes (.dbgRegwr off val) s fun t =>
      t.pin = { s.pin with dbgGrt := false, dbgIssued := 0, dbgTag := false, dbgStatus := 4, dbgData := 0 } ∧ OnlyChanges [.pin] s t) ∧
    ∀ off : Nat, 0x1_0000 ≤ off → off < 0xD_0000 → Completes (.dbgRegrd off) s fun t =>
      t.pin = { s.pin with dbgGrt := false, dbgIssued := 0, dbgTag := false, dbgStatus := 4, dbgData := 0 } ∧ OnlyChanges [.pin] s t) ∧
  (s.cfg.debugLock = false → s.pstate ≤ 2 → s.twn.role = 0 →
    (Completes .dbgNop s fun t =>
      t.pin = { s.pin with dbgGrt := false, dbgIssued := 0, dbgTag := false, dbgStatus := 0, dbgData := 0 } ∧ OnlyChanges [.pin] s t) ∧
    (∀ off : Nat, off < 0x1_0000 → Completes (.dbgRegrd off) s fun t =>
      t.pin = { s.pin with dbgGrt := false, dbgIssued := 0, dbgTag := false, dbgStatus := 0, dbgData := devRead off } ∧ OnlyChanges [.pin] s t) ∧
    (∀ (off : Nat) (val : Word) (u : State), off < 0x20_0000 → exec (.registerWrite .jtag off 0xF val) s = .next u →
      (refusals u ≤ refusals s → Completes (.dbgRegwr off val) s fun t => t = dbgFinish 0 0 u) ∧
      (refusals s < refusals u → Completes (.dbgRegwr off val) s fun t => t = dbgFinish 2 0 u)) ∧
    (∀ (off : Nat) (val : Word), 0x8_0000 ≤ off → off < 0x9_0000 → off % 0x100 ≠ 0 → (regDesc off).pair = 0 →
      writeRefusal s 3 off 0 val = none → Completes (.dbgRegwr off val) s fun t =>
        t.reg off = (s.reg off &&& ~~~(regDesc off).rw) ||| (val &&& (regDesc off).rw) ∧ (∀ o, o ≠ off → t.reg o = s.reg o) ∧
        t.pin = { s.pin with dbgGrt := false, dbgIssued := 0, dbgTag := false, dbgStatus := 0, dbgData := 0 } ∧ OnlyChanges [.regs, .pin] s t) ∧
    (∀ (q : QueueId) (a : BitVec 64) (n : Nat) (dun : BitVec 64), 1 ≤ n → n ≤ s.pci.maxRead → a.toNat % 4096 + n ≤ 4096 →
      (s.qu q).bypass = true → s.masters = true → hostTagFree s = true → Completes (.dbgHostrd q a n dun) s fun t =>
        t.out = s.out ++ [.hostRead 5 q a.toNat n] ∧ t.pin.dbgStatus = 1 ∧ t.pin.dbgOp = some (q.val, a.toNat, n, dun.toNat) ∧
        t.pin.dbgIssued = 1 ∧ OnlyChanges [.pin, .out] s t) ∧
    (∀ a : Nat, Completes (.dbgBufrd a) s fun t =>
      t.pin = { s.pin with dbgGrt := false, dbgIssued := 0, dbgTag := false, dbgStatus := 0,
                           dbgData := BitVec.ofNat 32 (ofLeBytes (fitBytes 4 (s.pin.dbgBuf.drop (a - a % 4)))) } ∧
      OnlyChanges [.pin] s t) ∧
    (∀ off : Nat, s.regB 0xA_0004 0 = false → ∀ (val : Word) (bad : List Nat),
      (Completes (.dbgGrtrd off bad) s fun t => t.pin.dbgStatus = 2 ∧ t.pin.dbgData = 0 ∧ OnlyChanges [.pin, .cry] s t) ∧
      (Completes (.dbgGrtwr off val bad) s fun t => t.pin.dbgStatus = 2 ∧ OnlyChanges [.pin, .cry] s t)) ∧
    (∀ w : Nat, w < 0x0200_0000 → s.regB 0xA_0004 0 = true → quietGrotto s →
      (Completes (.dbgGrtrd (4 * w) []) s fun t =>
        t.pin.dbgStatus = 0 ∧ t.pin.dbgData = BitVec.ofNat 32 (ofLeBytes ((List.range 4).map fun i => grottoByte s (4 * w + i))) ∧
        (∀ a, grottoByte t a = grottoByte s a) ∧ OnlyChanges [.pin, .grt] s t) ∧
      (∀ val : Word, Completes (.dbgGrtwr (4 * w) val []) s fun t =>
        t.pin.dbgStatus = 0 ∧ storedAt s t (4 * w) (leBytes 4 val.toNat) ∧ OnlyChanges [.pin, .grt] s t)))) ∧
  (∀ (s : State) (q : Nat) (a n dun : Nat), s.pin.dbgOp = some (q, a, n, dun) → s.pin.dbgIssued ≠ 0 →
  (Completes (.dbgHostrdDone none) s fun t =>
    t.pin = { s.pin with dbgOp := none, dbgGrt := false, dbgIssued := 0, dbgTag := false, dbgStatus := 3, dbgData := 0 } ∧ OnlyChanges [.pin] s t) ∧
  (∀ bytes : List Byte, (s.qu q).enc = false → Completes (.dbgHostrdDone (some bytes)) s fun t =>
    t.pin = { s.pin with dbgOp := none, dbgGrt := false, dbgIssued := 0, dbgTag := false, dbgStatus := 0, dbgData := 0,
                         dbgBuf := fitBytes 4096 (fitBytes n bytes ++ s.pin.dbgBuf.drop n) } ∧ OnlyChanges [.pin] s t) ∧
  (∀ bytes : List Byte, (s.qu q).enc = true → bit (rightsOf s (s.qu q).keyIdx) 3 = true →
    (s.key (s.qu q).keyIdx).dbl = false → n % (s.qu q).sector = 0 →
    (s.cry.xtsBad = false → Completes (.dbgHostrdDone (some bytes)) s fun t =>
      t.pin.dbgStatus = 0 ∧ t.pin.dbgBuf = fitBytes 4096
        (((withPos (chunks (s.qu q).sector (n / (s.qu q).sector) (fitBytes n bytes))).flatMap fun (i, b) =>
            xts (s.key (s.qu q).keyIdx).key false (dun + i) b) ++ s.pin.dbgBuf.drop n) ∧
      OnlyChanges [.pin] s t) ∧
    (s.cry.xtsBad = true → Completes (.dbgHostrdDone (some bytes)) s fun t =>
      t.pin.dbgStatus = 3 ∧ t.pin.dbgBuf = s.pin.dbgBuf ∧ t.cry.xtsBad = false ∧ t.lys.devfault = true ∧
      Raised s t 0x0A06 [1, q])) ∧
  (∀ bytes : List Byte, (s.qu q).enc = true → (s.key (s.qu q).keyIdx).dbl = false →
    bit (rightsOf s (s.qu q).keyIdx) 3 = false → Completes (.dbgHostrdDone (some bytes)) s fun t =>
      t.pin.dbgStatus = 0 ∧ t.pin.dbgBuf = fitBytes 4096 (fitBytes n bytes ++ s.pin.dbgBuf.drop n) ∧ OnlyChanges [.pin] s t))

/-- SET, CLR and TGL change the named USER outputs, or are refused once their group is locked. The three keys of PIN_LOCK
in turn lock the groups with 0x0E11 and turn the Lantern off with LOFF. A level accepted at an input role is seen, and
raises 0x0D12 for an edge that EDGE selects, once a tick. (19_pins.md, Service pins, 19_pins.md, The lock sequence) -/
def Obligations.ServicePinsAndLocks : Prop :=
  ∀ (s : State) (who : Requester),
  (∀ val : Word, bit s.pin.locked 1 = false →
    (Completes (.svcSet who val) s fun t => t.pin.user = s.pin.user ||| BitVec.ofNat 4 (fld val 12 4) ∧
      t.pin = { s.pin with user := t.pin.user, seqs := t.pin.seqs } ∧ OnlyChanges [.pin] s t) ∧
    (Completes (.svcClr who val) s fun t => t.pin.user = s.pin.user &&& ~~~ BitVec.ofNat 4 (fld val 12 4) ∧
      t.pin = { s.pin with user := t.pin.user, seqs := t.pin.seqs } ∧ OnlyChanges [.pin] s t) ∧
    (Completes (.svcTgl who val) s fun t => t.pin.user = s.pin.user ^^^ BitVec.ofNat 4 (fld val 12 4) ∧
      t.pin = { s.pin with user := t.pin.user, seqs := t.pin.seqs } ∧ OnlyChanges [.pin] s t)) ∧
  (∀ val : Word, bit s.pin.locked 1 = true → fld val 12 4 ≠ 0 → Completes (.svcTgl who val) s fun t =>
      t.pin.user = s.pin.user ∧ Raised s t 0x0E01 [0xE_002C, Requester.code who, 2] ∧ OnlyChanges (.pin :: events) s t) ∧
  (∀ mask : BitVec 5,
    ((tabGet {} s.pin.seqs (Requester.code who)).count = 0 → Completes (.pinLock who 0xC5 mask) s fun t =>
      tabGet {} t.pin.seqs (Requester.code who) = ⟨1, mask⟩ ∧ t.pin.locked = s.pin.locked ∧ OnlyChanges [.pin] s t) ∧
    (tabGet {} s.pin.seqs (Requester.code who) = ⟨1, mask⟩ → Completes (.pinLock who 0x3A mask) s fun t =>
      tabGet {} t.pin.seqs (Requester.code who) = ⟨2, mask⟩ ∧ t.pin.locked = s.pin.locked ∧ OnlyChanges [.pin] s t) ∧
    (tabGet {} s.pin.seqs (Requester.code who) = ⟨2, mask⟩ → Completes (.pinLock who 0xC5 mask) s fun t =>
      t.pin.locked = s.pin.locked ||| mask ∧ Raised s t 0x0E11 [Requester.code who, mask.toNat] ∧
      (bit (s.pin.locked ||| mask) 4 = true → t.regB 0xE_0010 31 = false) ∧ (∀ o, o ≠ 0xE_0010 → t.reg o = s.reg o) ∧
      OnlyChanges (.regs :: .pin :: events) s t)) ∧
  (∀ (k : Fin 16) (v : Bool), bit s.pin.svc k ≠ v →
    ((if v then s.regF (svcReg k) 28 2 % 2 = 1 else 2 ≤ s.regF (svcReg k) 28 2) → svcOutput s k = false → svcAnalogue s k = false →
      bit s.pin.edgeTold k = false → Completes (.svcInputAccept k v) s fun t =>
        bit t.pin.svc k = v ∧ (∀ i, i ≠ k.val → bit t.pin.svc i = bit s.pin.svc i) ∧ bit t.pin.edgeTold k = true ∧
        Raised s t 0x0D12 [k, b2n v] ∧ OnlyChanges (.pin :: events) s t) ∧
    (s.regF (svcReg k) 28 2 = 0 → Completes (.svcInputAccept k v) s fun t =>
      bit t.pin.svc k = v ∧ (∀ i, i ≠ k.val → bit t.pin.svc i = bit s.pin.svc i) ∧ OnlyChanges [.pin] s t))

/-- A mismatch episode opens and ends with 0x0E0D; a port reports ULPS and deskew; a burst becomes beats in the port's
buffer, one with a start-of-transmission error closes damaged with 0x0E0F, one that meets a full buffer is discarded
whole and counted; the lead of a pair sends the burst and changes nothing else. (19_pins.md, One input from two pins,
19_pins.md, MIPI D-PHY receivers) -/
def Obligations.DualInputsAndDphyPorts : Prop :=
  ∀ s : State,
  (∀ (i : Fin 768) (d : Bool), s.regB (ioReg i) 12 = true → s.regF (ioReg i) 10 2 ≠ 0 → bit s.pin.episode i ≠ d →
    Completes (.dualInputMismatch i d) s fun t =>
      bit t.pin.episode i = d ∧ (∀ j, j ≠ i.val → bit t.pin.episode j = bit s.pin.episode j) ∧
      Raised s t 0x0E0D [i, s.regF (ioReg i) 0 6, if d then 1 else 2] ∧ OnlyChanges (.pin :: events) s t) ∧
  (∀ p : Fin 32, portOn s p = true →
    (∀ b : Bool, Completes (.ulpsEntryExit p b) s fun t =>
      t.port p = { s.port p with ulps := b } ∧ (∀ i, i ≠ p.val → t.port i = s.port i) ∧ OnlyChanges [.pin] s t) ∧
    (∀ ok : Bool, 150 < s.regF (dphyReg p) 18 9 → Completes (.dphyDeskewCalibration p ok) s fun t =>
      t.port p = { s.port p with skewOk := ok } ∧ (∀ i, i ≠ p.val → t.port i = s.port i) ∧ OnlyChanges [.pin] s t) ∧
    (s.fab.released = true → s.twn.role = 1 → s.twinUp = true → ∀ b : List Byte, Completes (.dphyBurst p ⟨[b], false⟩) s fun t =>
      t.out = s.out ++ [.twin 27 (leBytes 1 p ++ leBytes 1 0 ++ (leBytes 4 b.length ++ b))] ∧ OnlyChanges [.out] s t) ∧
    (s.fab.released = true → s.paired = false → epOwned s (s.regF (dphyReg p) 0 10) = false →
      (∀ (b : List Byte) (sot : Bool), b ≠ [] → b.length ≤ 64 → (s.port p).buffer = [] →
        (sot = false → Completes (.dphyBurst p ⟨[b], sot⟩) s fun t =>
          t.port p = { s.port p with buffer := [mkBeat (b.map fun x => (x, false)) true] } ∧ OnlyChanges [.pin] s t) ∧
        (sot = true → Completes (.dphyBurst p ⟨[b], sot⟩) s fun t =>
          t.port p = { s.port p with
            buffer := [{ mkBeat (b.map fun x => (x, false)) true with last := false }, closingBeat], damaged := true } ∧
          Raised s t 0x0E0F [p, 2, 1] ∧ OnlyChanges (.pin :: events) s t)) ∧
      (∀ burst : BurstEnv, (s.port p).buffer.length = 128 → Completes (.dphyBurst p burst) s fun t =>
        t.port p = { s.port p with fullTick := min 65535 ((s.port p).fullTick + 1) } ∧ OnlyChanges [.pin] s t)))

/-- EXTEST, its pulse and train forms, HIGHZ and CLAMP take the pins with 0x0E0E and select boundary scan or bypass; when
barred they act as BYPASS and take nothing. SAMPLE/PRELOAD captures balls and output registers; IDCODE, DBGAP, BYPASS
and Test-Logic-Reset select their registers. (19_pins.md, JTAG) -/
def Obligations.JtagInstructions : Prop :=
  ∀ s : State,
  (scanBarred s = false →
    (Completes .jtagExtest s fun t => t.pin = { s.pin with jtagIr := 0, scanHolds := true } ∧ jtagRegister t = 0 ∧
      Raised s t 0x0E0E [0] ∧ OnlyChanges (.pin :: events) s t) ∧
    (Completes .jtagExtestPulse s fun t => t.pin = { s.pin with jtagIr := 5, scanHolds := true } ∧ jtagRegister t = 0 ∧
      Raised s t 0x0E0E [5] ∧ OnlyChanges (.pin :: events) s t) ∧
    (Completes .jtagExtestTrain s fun t => t.pin = { s.pin with jtagIr := 6, scanHolds := true } ∧ jtagRegister t = 0 ∧
      Raised s t 0x0E0E [6] ∧ OnlyChanges (.pin :: events) s t) ∧
    (Completes .jtagHighz s fun t => t.pin = { s.pin with jtagIr := 3, scanHolds := true } ∧ jtagRegister t = 2 ∧
      (∀ i, driverDisabled t i = true) ∧ Raised s t 0x0E0E [3] ∧ OnlyChanges (.pin :: events) s t) ∧
    (Completes .jtagClamp s fun t => t.pin = { s.pin with jtagIr := 4, scanHolds := true } ∧ jtagRegister t = 2 ∧
      Raised s t 0x0E0E [4] ∧ OnlyChanges (.pin :: events) s t)) ∧
  (scanBarred s = true →
    (Completes .jtagExtest s fun t => t.pin = { s.pin with jtagIr := 0 } ∧ jtagRegister t = 2 ∧ OnlyChanges [.pin] s t) ∧
    (Completes .jtagHighz s fun t => t.pin = { s.pin with jtagIr := 3 } ∧ jtagRegister t = 2 ∧ OnlyChanges [.pin] s t)) ∧
  (Completes .jtagSamplePreload s fun t => t.pin = { s.pin with jtagIr := 1, scan := t.pin.scan } ∧ jtagRegister t = 0 ∧
    (∀ i < 768, t.pin.scan.getLsbD (3 * i) = s.pin.ball.getLsbD i ∧ t.pin.scan.getLsbD (3 * i + 1) = s.pin.outv.getLsbD i) ∧
    OnlyChanges [.pin, .seed] s t) ∧
  (Completes .jtagIdcode s fun t => t.pin = { s.pin with jtagIr := 2 } ∧ jtagRegister t = 1 ∧ OnlyChanges [.pin] s t) ∧
  (Completes .jtagDbgap s fun t => t.pin = { s.pin with jtagIr := 0x10 } ∧ jtagRegister t = 3 ∧ OnlyChanges [.pin] s t) ∧
  (Completes .jtagBypass s fun t => t.pin = { s.pin with jtagIr := 0xFF } ∧ jtagRegister t = 2 ∧ OnlyChanges [.pin] s t) ∧
  (Completes .jtagTestLogicReset s fun t =>
    t.pin = { s.pin with jtagIr := 2, scanHolds := false } ∧ jtagRegister t = 1 ∧ OnlyChanges [.pin] s t)

/-- On a bypass queue without encryption, a container of one image that passes every check of Table Loading-11 ends
LOAD_IMAGE with OK and RESULT LEN, whatever the pages it takes; its slot is READY with the image, its flags and
personality, and every other slot is as before. A container that is rejected as a whole ends it with IMAGE_REJECTED,
0x0503 and CFG_LASTREJ. (11_loading.md, Loads from the host, 05_library.md, Slots, 08_queues.md, Execution order) -/
def Obligations.ImagesLoadFromQueues : Prop :=
  ∀ (s : State) (q : QueueId) (w : BitVec 256) (i a : Nat) (c : Container) (env : DescEnv), readyFor s q w i a →
  granted s q = true → contested s q = false → fld w 0 8 = 5 → env.tlbBad = [] → (s.qu q).bypass = true → (s.qu q).enc = false →
  s.netMode = 0 → s.fenced 2 = false → loadPathDown s = false → hostTagFree s = true → 64 ≤ s.pci.maxRead →
  fld w 32 32 ≤ env.hostData.length →
  (∀ p ∈ s.lib.slots, p.2.loadBy = none) →
  (∀ (x : ContSection) (im : ChamberImage), hostReject s (q, i) (fld w 32 32) (fld w 192 64) c = none → c.sections = [x] →
    x.body = .chimage im → dataStart c ≤ x.offset → 0 < x.slen → x.offset + x.slen ≤ fld w 32 32 →
    Completes (.descLoadImage q c env) s fun t =>
      descEnded t q w 0 (fld w 32 32) ∧ (t.slot (fld w 192 64 + x.arg)).st = 2 ∧
      (t.slot (fld w 192 64 + x.arg)).image = im.words ∧ (t.slot (fld w 192 64 + x.arg)).rel = im.rel ∧
      (t.slot (fld w 192 64 + x.arg)).pers = im.pers.toNat ∧ (t.slot (fld w 192 64 + x.arg)).loadBy = none ∧
      (∀ k, k ≠ fld w 192 64 + x.arg → (s.lib.slots.countP fun p => p.1 == k) ≤ 1 → t.slot k = s.slot k) ∧ OnlyChanges [.que, .arb, .lib, .out] s t) ∧
  (∀ why : Nat, hostReject s (q, i) (fld w 32 32) (fld w 192 64) c = some (why, 0xFFFF) →
    Completes (.descLoadImage q c env) s fun t =>
      descEnded t q w 0x0B (why + 65536 * 0xFFFF) ∧ Raised s t 0x0503 [c.kind.toNat, 3, c.imageid.toNat, why, 0xFFFF] ∧
      t.cfg = { s.cfg with lastrej := mkFld 24 8 why ||| mkFld 22 2 3 ||| mkFld 20 2 c.kind.toNat ||| mkFld 0 16 0xFFFF } ∧
      OnlyChanges (.que :: .arb :: .cfg :: events) s t)
end

