-- ==== Sys2Proof/Laws/Bits.lean ====
section
/-! SUPPORT. Laws of register fields: reading a field of a word put together from fields. -/

namespace Sys2Proof.Machine

/-- A field of the union of two words. -/
theorem fld_or {w : Nat} (a b : BitVec w) (lo len : Nat) : fld (a ||| b) lo len = fld a lo len ||| fld b lo len := by
  unfold fld
  rw [BitVec.toNat_or, Nat.shiftRight_or_distrib, Nat.or_mod_two_pow]

/-- The bits of a field put into a word. -/
theorem toNat_mkFld (lo len v : Nat) (h : lo + len ≤ 32) : (mkFld lo len v).toNat = (v % 2 ^ len) <<< lo := by
  unfold mkFld
  rw [BitVec.toNat_ofNat, Nat.mod_eq_of_lt]
  rw [Nat.shiftLeft_eq]
  calc v % 2 ^ len * 2 ^ lo < 2 ^ len * 2 ^ lo := by
        exact Nat.mul_lt_mul_of_pos_right (Nat.mod_lt _ (Nat.two_pow_pos len)) (Nat.two_pow_pos lo)
    _ = 2 ^ (len + lo) := (Nat.pow_add 2 len lo).symm
    _ ≤ 2 ^ 32 := Nat.pow_le_pow_right (by decide) (by omega)

/-- A field read back. -/
theorem fld_mkFld_same (lo len v : Nat) (h : lo + len ≤ 32) : fld (mkFld lo len v) lo len = v % 2 ^ len := by
  unfold fld
  rw [toNat_mkFld lo len v h, Nat.shiftLeft_shiftRight, Nat.mod_mod]

/-- A field below the one that was put in. -/
theorem fld_mkFld_below (lo len v lo' len' : Nat) (h : lo + len ≤ 32) (hb : lo' + len' ≤ lo) :
    fld (mkFld lo len v) lo' len' = 0 := by
  unfold fld
  rw [toNat_mkFld lo len v h]
  apply Nat.eq_of_testBit_eq
  intro i
  simp only [Nat.testBit_mod_two_pow, Nat.testBit_shiftRight, Nat.testBit_shiftLeft, Nat.zero_testBit]
  by_cases hi : i < len'
  · simp [show ¬ (lo ≤ lo' + i) by omega]
  · simp [hi]

/-- A field above the one that was put in. -/
theorem fld_mkFld_above (lo len v lo' len' : Nat) (h : lo + len ≤ 32) (hb : lo + len ≤ lo') :
    fld (mkFld lo len v) lo' len' = 0 := by
  unfold fld
  rw [toNat_mkFld lo len v h]
  apply Nat.eq_of_testBit_eq
  intro i
  simp only [Nat.testBit_mod_two_pow, Nat.testBit_shiftRight, Nat.testBit_shiftLeft, Nat.zero_testBit]
  by_cases hi : i < len'
  · simp [show ¬ (lo' + i - lo < len) by omega]
  · simp [hi]

/-- A bit as a field of length 1. -/
theorem mkBit_eq (i : Nat) (b : Bool) : mkBit i b = mkFld i 1 (b2n b) := by
  cases b <;> simp [mkBit, mkFld, b2n]

/-- A bit of the union of two words. -/
theorem bit_or {w : Nat} (a b : BitVec w) (i : Nat) : bit (a ||| b) i = (bit a i || bit b i) := by
  simp [bit]

/-- A bit is the field of length 1 there. -/
theorem bit_eq_fld (v : Word) (i : Nat) : bit v i = (fld v i 1 == 1) := by
  unfold bit fld
  rw [BitVec.getLsbD, Nat.testBit]
  simp

end Sys2Proof.Machine
end

