-- ==== Sys2Proof/Laws/State.lean ====
section
/-! SUPPORT. Laws of the updates of State: what each named update leaves in each field, so that no proof unfolds a record
update. -/

namespace Sys2Proof.Machine

@[simp] theorem State.modEv_pending (s : State) (f : Echo → Echo) : (s.modEv f).pending = s.pending := rfl
@[simp] theorem State.modEv_regs (s : State) (f : Echo → Echo) : (s.modEv f).regs = s.regs := rfl
@[simp] theorem State.modEv_captures (s : State) (f : Echo → Echo) : (s.modEv f).captures = s.captures := rfl
@[simp] theorem State.modEv_staged (s : State) (f : Echo → Echo) : (s.modEv f).staged = s.staged := rfl
@[simp] theorem State.modEv_ev (s : State) (f : Echo → Echo) : (s.modEv f).ev = f s.ev := rfl
@[simp] theorem State.modEv_rst (s : State) (f : Echo → Echo) : (s.modEv f).rst = s.rst := rfl
@[simp] theorem State.modEv_fab (s : State) (f : Echo → Echo) : (s.modEv f).fab = s.fab := rfl
@[simp] theorem State.modEv_lib (s : State) (f : Echo → Echo) : (s.modEv f).lib = s.lib := rfl
@[simp] theorem State.modEv_integ (s : State) (f : Echo → Echo) : (s.modEv f).integ = s.integ := rfl
@[simp] theorem State.modEv_grt (s : State) (f : Echo → Echo) : (s.modEv f).grt = s.grt := rfl
@[simp] theorem State.modEv_que (s : State) (f : Echo → Echo) : (s.modEv f).que = s.que := rfl
@[simp] theorem State.modEv_arb (s : State) (f : Echo → Echo) : (s.modEv f).arb = s.arb := rfl
@[simp] theorem State.modEv_pci (s : State) (f : Echo → Echo) : (s.modEv f).pci = s.pci := rfl
@[simp] theorem State.modEv_xlt (s : State) (f : Echo → Echo) : (s.modEv f).xlt = s.xlt := rfl
@[simp] theorem State.modEv_cry (s : State) (f : Echo → Echo) : (s.modEv f).cry = s.cry := rfl
@[simp] theorem State.modEv_cfg (s : State) (f : Echo → Echo) : (s.modEv f).cfg = s.cfg := rfl
@[simp] theorem State.modEv_gvl (s : State) (f : Echo → Echo) : (s.modEv f).gvl = s.gvl := rfl
@[simp] theorem State.modEv_net (s : State) (f : Echo → Echo) : (s.modEv f).net = s.net := rfl
@[simp] theorem State.modEv_twn (s : State) (f : Echo → Echo) : (s.modEv f).twn = s.twn := rfl
@[simp] theorem State.modEv_lys (s : State) (f : Echo → Echo) : (s.modEv f).lys = s.lys := rfl
@[simp] theorem State.modEv_pin (s : State) (f : Echo → Echo) : (s.modEv f).pin = s.pin := rfl
@[simp] theorem State.modEv_seed (s : State) (f : Echo → Echo) : (s.modEv f).seed = s.seed := rfl
@[simp] theorem State.modEv_out (s : State) (f : Echo → Echo) : (s.modEv f).out = s.out := rfl

@[simp] theorem State.modRst_pending (s : State) (f : Resets → Resets) : (s.modRst f).pending = s.pending := rfl
@[simp] theorem State.modRst_regs (s : State) (f : Resets → Resets) : (s.modRst f).regs = s.regs := rfl
@[simp] theorem State.modRst_captures (s : State) (f : Resets → Resets) : (s.modRst f).captures = s.captures := rfl
@[simp] theorem State.modRst_staged (s : State) (f : Resets → Resets) : (s.modRst f).staged = s.staged := rfl
@[simp] theorem State.modRst_ev (s : State) (f : Resets → Resets) : (s.modRst f).ev = s.ev := rfl
@[simp] theorem State.modRst_rst (s : State) (f : Resets → Resets) : (s.modRst f).rst = f s.rst := rfl
@[simp] theorem State.modRst_fab (s : State) (f : Resets → Resets) : (s.modRst f).fab = s.fab := rfl
@[simp] theorem State.modRst_lib (s : State) (f : Resets → Resets) : (s.modRst f).lib = s.lib := rfl
@[simp] theorem State.modRst_integ (s : State) (f : Resets → Resets) : (s.modRst f).integ = s.integ := rfl
@[simp] theorem State.modRst_grt (s : State) (f : Resets → Resets) : (s.modRst f).grt = s.grt := rfl
@[simp] theorem State.modRst_que (s : State) (f : Resets → Resets) : (s.modRst f).que = s.que := rfl
@[simp] theorem State.modRst_arb (s : State) (f : Resets → Resets) : (s.modRst f).arb = s.arb := rfl
@[simp] theorem State.modRst_pci (s : State) (f : Resets → Resets) : (s.modRst f).pci = s.pci := rfl
@[simp] theorem State.modRst_xlt (s : State) (f : Resets → Resets) : (s.modRst f).xlt = s.xlt := rfl
@[simp] theorem State.modRst_cry (s : State) (f : Resets → Resets) : (s.modRst f).cry = s.cry := rfl
@[simp] theorem State.modRst_cfg (s : State) (f : Resets → Resets) : (s.modRst f).cfg = s.cfg := rfl
@[simp] theorem State.modRst_gvl (s : State) (f : Resets → Resets) : (s.modRst f).gvl = s.gvl := rfl
@[simp] theorem State.modRst_net (s : State) (f : Resets → Resets) : (s.modRst f).net = s.net := rfl
@[simp] theorem State.modRst_twn (s : State) (f : Resets → Resets) : (s.modRst f).twn = s.twn := rfl
@[simp] theorem State.modRst_lys (s : State) (f : Resets → Resets) : (s.modRst f).lys = s.lys := rfl
@[simp] theorem State.modRst_pin (s : State) (f : Resets → Resets) : (s.modRst f).pin = s.pin := rfl
@[simp] theorem State.modRst_seed (s : State) (f : Resets → Resets) : (s.modRst f).seed = s.seed := rfl
@[simp] theorem State.modRst_out (s : State) (f : Resets → Resets) : (s.modRst f).out = s.out := rfl

@[simp] theorem State.modFab_pending (s : State) (f : Fabric → Fabric) : (s.modFab f).pending = s.pending := rfl
@[simp] theorem State.modFab_regs (s : State) (f : Fabric → Fabric) : (s.modFab f).regs = s.regs := rfl
@[simp] theorem State.modFab_captures (s : State) (f : Fabric → Fabric) : (s.modFab f).captures = s.captures := rfl
@[simp] theorem State.modFab_staged (s : State) (f : Fabric → Fabric) : (s.modFab f).staged = s.staged := rfl
@[simp] theorem State.modFab_ev (s : State) (f : Fabric → Fabric) : (s.modFab f).ev = s.ev := rfl
@[simp] theorem State.modFab_rst (s : State) (f : Fabric → Fabric) : (s.modFab f).rst = s.rst := rfl
@[simp] theorem State.modFab_fab (s : State) (f : Fabric → Fabric) : (s.modFab f).fab = f s.fab := rfl
@[simp] theorem State.modFab_lib (s : State) (f : Fabric → Fabric) : (s.modFab f).lib = s.lib := rfl
@[simp] theorem State.modFab_integ (s : State) (f : Fabric → Fabric) : (s.modFab f).integ = s.integ := rfl
@[simp] theorem State.modFab_grt (s : State) (f : Fabric → Fabric) : (s.modFab f).grt = s.grt := rfl
@[simp] theorem State.modFab_que (s : State) (f : Fabric → Fabric) : (s.modFab f).que = s.que := rfl
@[simp] theorem State.modFab_arb (s : State) (f : Fabric → Fabric) : (s.modFab f).arb = s.arb := rfl
@[simp] theorem State.modFab_pci (s : State) (f : Fabric → Fabric) : (s.modFab f).pci = s.pci := rfl
@[simp] theorem State.modFab_xlt (s : State) (f : Fabric → Fabric) : (s.modFab f).xlt = s.xlt := rfl
@[simp] theorem State.modFab_cry (s : State) (f : Fabric → Fabric) : (s.modFab f).cry = s.cry := rfl
@[simp] theorem State.modFab_cfg (s : State) (f : Fabric → Fabric) : (s.modFab f).cfg = s.cfg := rfl
@[simp] theorem State.modFab_gvl (s : State) (f : Fabric → Fabric) : (s.modFab f).gvl = s.gvl := rfl
@[simp] theorem State.modFab_net (s : State) (f : Fabric → Fabric) : (s.modFab f).net = s.net := rfl
@[simp] theorem State.modFab_twn (s : State) (f : Fabric → Fabric) : (s.modFab f).twn = s.twn := rfl
@[simp] theorem State.modFab_lys (s : State) (f : Fabric → Fabric) : (s.modFab f).lys = s.lys := rfl
@[simp] theorem State.modFab_pin (s : State) (f : Fabric → Fabric) : (s.modFab f).pin = s.pin := rfl
@[simp] theorem State.modFab_seed (s : State) (f : Fabric → Fabric) : (s.modFab f).seed = s.seed := rfl
@[simp] theorem State.modFab_out (s : State) (f : Fabric → Fabric) : (s.modFab f).out = s.out := rfl

@[simp] theorem State.modLib_pending (s : State) (f : Lib → Lib) : (s.modLib f).pending = s.pending := rfl
@[simp] theorem State.modLib_regs (s : State) (f : Lib → Lib) : (s.modLib f).regs = s.regs := rfl
@[simp] theorem State.modLib_captures (s : State) (f : Lib → Lib) : (s.modLib f).captures = s.captures := rfl
@[simp] theorem State.modLib_staged (s : State) (f : Lib → Lib) : (s.modLib f).staged = s.staged := rfl
@[simp] theorem State.modLib_ev (s : State) (f : Lib → Lib) : (s.modLib f).ev = s.ev := rfl
@[simp] theorem State.modLib_rst (s : State) (f : Lib → Lib) : (s.modLib f).rst = s.rst := rfl
@[simp] theorem State.modLib_fab (s : State) (f : Lib → Lib) : (s.modLib f).fab = s.fab := rfl
@[simp] theorem State.modLib_lib (s : State) (f : Lib → Lib) : (s.modLib f).lib = f s.lib := rfl
@[simp] theorem State.modLib_integ (s : State) (f : Lib → Lib) : (s.modLib f).integ = s.integ := rfl
@[simp] theorem State.modLib_grt (s : State) (f : Lib → Lib) : (s.modLib f).grt = s.grt := rfl
@[simp] theorem State.modLib_que (s : State) (f : Lib → Lib) : (s.modLib f).que = s.que := rfl
@[simp] theorem State.modLib_arb (s : State) (f : Lib → Lib) : (s.modLib f).arb = s.arb := rfl
@[simp] theorem State.modLib_pci (s : State) (f : Lib → Lib) : (s.modLib f).pci = s.pci := rfl
@[simp] theorem State.modLib_xlt (s : State) (f : Lib → Lib) : (s.modLib f).xlt = s.xlt := rfl
@[simp] theorem State.modLib_cry (s : State) (f : Lib → Lib) : (s.modLib f).cry = s.cry := rfl
@[simp] theorem State.modLib_cfg (s : State) (f : Lib → Lib) : (s.modLib f).cfg = s.cfg := rfl
@[simp] theorem State.modLib_gvl (s : State) (f : Lib → Lib) : (s.modLib f).gvl = s.gvl := rfl
@[simp] theorem State.modLib_net (s : State) (f : Lib → Lib) : (s.modLib f).net = s.net := rfl
@[simp] theorem State.modLib_twn (s : State) (f : Lib → Lib) : (s.modLib f).twn = s.twn := rfl
@[simp] theorem State.modLib_lys (s : State) (f : Lib → Lib) : (s.modLib f).lys = s.lys := rfl
@[simp] theorem State.modLib_pin (s : State) (f : Lib → Lib) : (s.modLib f).pin = s.pin := rfl
@[simp] theorem State.modLib_seed (s : State) (f : Lib → Lib) : (s.modLib f).seed = s.seed := rfl
@[simp] theorem State.modLib_out (s : State) (f : Lib → Lib) : (s.modLib f).out = s.out := rfl

@[simp] theorem State.modInteg_pending (s : State) (f : Integ → Integ) : (s.modInteg f).pending = s.pending := rfl
@[simp] theorem State.modInteg_regs (s : State) (f : Integ → Integ) : (s.modInteg f).regs = s.regs := rfl
@[simp] theorem State.modInteg_captures (s : State) (f : Integ → Integ) : (s.modInteg f).captures = s.captures := rfl
@[simp] theorem State.modInteg_staged (s : State) (f : Integ → Integ) : (s.modInteg f).staged = s.staged := rfl
@[simp] theorem State.modInteg_ev (s : State) (f : Integ → Integ) : (s.modInteg f).ev = s.ev := rfl
@[simp] theorem State.modInteg_rst (s : State) (f : Integ → Integ) : (s.modInteg f).rst = s.rst := rfl
@[simp] theorem State.modInteg_fab (s : State) (f : Integ → Integ) : (s.modInteg f).fab = s.fab := rfl
@[simp] theorem State.modInteg_lib (s : State) (f : Integ → Integ) : (s.modInteg f).lib = s.lib := rfl
@[simp] theorem State.modInteg_integ (s : State) (f : Integ → Integ) : (s.modInteg f).integ = f s.integ := rfl
@[simp] theorem State.modInteg_grt (s : State) (f : Integ → Integ) : (s.modInteg f).grt = s.grt := rfl
@[simp] theorem State.modInteg_que (s : State) (f : Integ → Integ) : (s.modInteg f).que = s.que := rfl
@[simp] theorem State.modInteg_arb (s : State) (f : Integ → Integ) : (s.modInteg f).arb = s.arb := rfl
@[simp] theorem State.modInteg_pci (s : State) (f : Integ → Integ) : (s.modInteg f).pci = s.pci := rfl
@[simp] theorem State.modInteg_xlt (s : State) (f : Integ → Integ) : (s.modInteg f).xlt = s.xlt := rfl
@[simp] theorem State.modInteg_cry (s : State) (f : Integ → Integ) : (s.modInteg f).cry = s.cry := rfl
@[simp] theorem State.modInteg_cfg (s : State) (f : Integ → Integ) : (s.modInteg f).cfg = s.cfg := rfl
@[simp] theorem State.modInteg_gvl (s : State) (f : Integ → Integ) : (s.modInteg f).gvl = s.gvl := rfl
@[simp] theorem State.modInteg_net (s : State) (f : Integ → Integ) : (s.modInteg f).net = s.net := rfl
@[simp] theorem State.modInteg_twn (s : State) (f : Integ → Integ) : (s.modInteg f).twn = s.twn := rfl
@[simp] theorem State.modInteg_lys (s : State) (f : Integ → Integ) : (s.modInteg f).lys = s.lys := rfl
@[simp] theorem State.modInteg_pin (s : State) (f : Integ → Integ) : (s.modInteg f).pin = s.pin := rfl
@[simp] theorem State.modInteg_seed (s : State) (f : Integ → Integ) : (s.modInteg f).seed = s.seed := rfl
@[simp] theorem State.modInteg_out (s : State) (f : Integ → Integ) : (s.modInteg f).out = s.out := rfl

@[simp] theorem State.modGrt_pending (s : State) (f : Grotto → Grotto) : (s.modGrt f).pending = s.pending := rfl
@[simp] theorem State.modGrt_regs (s : State) (f : Grotto → Grotto) : (s.modGrt f).regs = s.regs := rfl
@[simp] theorem State.modGrt_captures (s : State) (f : Grotto → Grotto) : (s.modGrt f).captures = s.captures := rfl
@[simp] theorem State.modGrt_staged (s : State) (f : Grotto → Grotto) : (s.modGrt f).staged = s.staged := rfl
@[simp] theorem State.modGrt_ev (s : State) (f : Grotto → Grotto) : (s.modGrt f).ev = s.ev := rfl
@[simp] theorem State.modGrt_rst (s : State) (f : Grotto → Grotto) : (s.modGrt f).rst = s.rst := rfl
@[simp] theorem State.modGrt_fab (s : State) (f : Grotto → Grotto) : (s.modGrt f).fab = s.fab := rfl
@[simp] theorem State.modGrt_lib (s : State) (f : Grotto → Grotto) : (s.modGrt f).lib = s.lib := rfl
@[simp] theorem State.modGrt_integ (s : State) (f : Grotto → Grotto) : (s.modGrt f).integ = s.integ := rfl
@[simp] theorem State.modGrt_grt (s : State) (f : Grotto → Grotto) : (s.modGrt f).grt = f s.grt := rfl
@[simp] theorem State.modGrt_que (s : State) (f : Grotto → Grotto) : (s.modGrt f).que = s.que := rfl
@[simp] theorem State.modGrt_arb (s : State) (f : Grotto → Grotto) : (s.modGrt f).arb = s.arb := rfl
@[simp] theorem State.modGrt_pci (s : State) (f : Grotto → Grotto) : (s.modGrt f).pci = s.pci := rfl
@[simp] theorem State.modGrt_xlt (s : State) (f : Grotto → Grotto) : (s.modGrt f).xlt = s.xlt := rfl
@[simp] theorem State.modGrt_cry (s : State) (f : Grotto → Grotto) : (s.modGrt f).cry = s.cry := rfl
@[simp] theorem State.modGrt_cfg (s : State) (f : Grotto → Grotto) : (s.modGrt f).cfg = s.cfg := rfl
@[simp] theorem State.modGrt_gvl (s : State) (f : Grotto → Grotto) : (s.modGrt f).gvl = s.gvl := rfl
@[simp] theorem State.modGrt_net (s : State) (f : Grotto → Grotto) : (s.modGrt f).net = s.net := rfl
@[simp] theorem State.modGrt_twn (s : State) (f : Grotto → Grotto) : (s.modGrt f).twn = s.twn := rfl
@[simp] theorem State.modGrt_lys (s : State) (f : Grotto → Grotto) : (s.modGrt f).lys = s.lys := rfl
@[simp] theorem State.modGrt_pin (s : State) (f : Grotto → Grotto) : (s.modGrt f).pin = s.pin := rfl
@[simp] theorem State.modGrt_seed (s : State) (f : Grotto → Grotto) : (s.modGrt f).seed = s.seed := rfl
@[simp] theorem State.modGrt_out (s : State) (f : Grotto → Grotto) : (s.modGrt f).out = s.out := rfl

@[simp] theorem State.modXlt_pending (s : State) (f : Xlt → Xlt) : (s.modXlt f).pending = s.pending := rfl
@[simp] theorem State.modXlt_regs (s : State) (f : Xlt → Xlt) : (s.modXlt f).regs = s.regs := rfl
@[simp] theorem State.modXlt_captures (s : State) (f : Xlt → Xlt) : (s.modXlt f).captures = s.captures := rfl
@[simp] theorem State.modXlt_staged (s : State) (f : Xlt → Xlt) : (s.modXlt f).staged = s.staged := rfl
@[simp] theorem State.modXlt_ev (s : State) (f : Xlt → Xlt) : (s.modXlt f).ev = s.ev := rfl
@[simp] theorem State.modXlt_rst (s : State) (f : Xlt → Xlt) : (s.modXlt f).rst = s.rst := rfl
@[simp] theorem State.modXlt_fab (s : State) (f : Xlt → Xlt) : (s.modXlt f).fab = s.fab := rfl
@[simp] theorem State.modXlt_lib (s : State) (f : Xlt → Xlt) : (s.modXlt f).lib = s.lib := rfl
@[simp] theorem State.modXlt_integ (s : State) (f : Xlt → Xlt) : (s.modXlt f).integ = s.integ := rfl
@[simp] theorem State.modXlt_grt (s : State) (f : Xlt → Xlt) : (s.modXlt f).grt = s.grt := rfl
@[simp] theorem State.modXlt_que (s : State) (f : Xlt → Xlt) : (s.modXlt f).que = s.que := rfl
@[simp] theorem State.modXlt_arb (s : State) (f : Xlt → Xlt) : (s.modXlt f).arb = s.arb := rfl
@[simp] theorem State.modXlt_pci (s : State) (f : Xlt → Xlt) : (s.modXlt f).pci = s.pci := rfl
@[simp] theorem State.modXlt_xlt (s : State) (f : Xlt → Xlt) : (s.modXlt f).xlt = f s.xlt := rfl
@[simp] theorem State.modXlt_cry (s : State) (f : Xlt → Xlt) : (s.modXlt f).cry = s.cry := rfl
@[simp] theorem State.modXlt_cfg (s : State) (f : Xlt → Xlt) : (s.modXlt f).cfg = s.cfg := rfl
@[simp] theorem State.modXlt_gvl (s : State) (f : Xlt → Xlt) : (s.modXlt f).gvl = s.gvl := rfl
@[simp] theorem State.modXlt_net (s : State) (f : Xlt → Xlt) : (s.modXlt f).net = s.net := rfl
@[simp] theorem State.modXlt_twn (s : State) (f : Xlt → Xlt) : (s.modXlt f).twn = s.twn := rfl
@[simp] theorem State.modXlt_lys (s : State) (f : Xlt → Xlt) : (s.modXlt f).lys = s.lys := rfl
@[simp] theorem State.modXlt_pin (s : State) (f : Xlt → Xlt) : (s.modXlt f).pin = s.pin := rfl
@[simp] theorem State.modXlt_seed (s : State) (f : Xlt → Xlt) : (s.modXlt f).seed = s.seed := rfl
@[simp] theorem State.modXlt_out (s : State) (f : Xlt → Xlt) : (s.modXlt f).out = s.out := rfl

@[simp] theorem State.modCry_pending (s : State) (f : Cry → Cry) : (s.modCry f).pending = s.pending := rfl
@[simp] theorem State.modCry_regs (s : State) (f : Cry → Cry) : (s.modCry f).regs = s.regs := rfl
@[simp] theorem State.modCry_captures (s : State) (f : Cry → Cry) : (s.modCry f).captures = s.captures := rfl
@[simp] theorem State.modCry_staged (s : State) (f : Cry → Cry) : (s.modCry f).staged = s.staged := rfl
@[simp] theorem State.modCry_ev (s : State) (f : Cry → Cry) : (s.modCry f).ev = s.ev := rfl
@[simp] theorem State.modCry_rst (s : State) (f : Cry → Cry) : (s.modCry f).rst = s.rst := rfl
@[simp] theorem State.modCry_fab (s : State) (f : Cry → Cry) : (s.modCry f).fab = s.fab := rfl
@[simp] theorem State.modCry_lib (s : State) (f : Cry → Cry) : (s.modCry f).lib = s.lib := rfl
@[simp] theorem State.modCry_integ (s : State) (f : Cry → Cry) : (s.modCry f).integ = s.integ := rfl
@[simp] theorem State.modCry_grt (s : State) (f : Cry → Cry) : (s.modCry f).grt = s.grt := rfl
@[simp] theorem State.modCry_que (s : State) (f : Cry → Cry) : (s.modCry f).que = s.que := rfl
@[simp] theorem State.modCry_arb (s : State) (f : Cry → Cry) : (s.modCry f).arb = s.arb := rfl
@[simp] theorem State.modCry_pci (s : State) (f : Cry → Cry) : (s.modCry f).pci = s.pci := rfl
@[simp] theorem State.modCry_xlt (s : State) (f : Cry → Cry) : (s.modCry f).xlt = s.xlt := rfl
@[simp] theorem State.modCry_cry (s : State) (f : Cry → Cry) : (s.modCry f).cry = f s.cry := rfl
@[simp] theorem State.modCry_cfg (s : State) (f : Cry → Cry) : (s.modCry f).cfg = s.cfg := rfl
@[simp] theorem State.modCry_gvl (s : State) (f : Cry → Cry) : (s.modCry f).gvl = s.gvl := rfl
@[simp] theorem State.modCry_net (s : State) (f : Cry → Cry) : (s.modCry f).net = s.net := rfl
@[simp] theorem State.modCry_twn (s : State) (f : Cry → Cry) : (s.modCry f).twn = s.twn := rfl
@[simp] theorem State.modCry_lys (s : State) (f : Cry → Cry) : (s.modCry f).lys = s.lys := rfl
@[simp] theorem State.modCry_pin (s : State) (f : Cry → Cry) : (s.modCry f).pin = s.pin := rfl
@[simp] theorem State.modCry_seed (s : State) (f : Cry → Cry) : (s.modCry f).seed = s.seed := rfl
@[simp] theorem State.modCry_out (s : State) (f : Cry → Cry) : (s.modCry f).out = s.out := rfl

@[simp] theorem State.modCfg_pending (s : State) (f : Cfg → Cfg) : (s.modCfg f).pending = s.pending := rfl
@[simp] theorem State.modCfg_regs (s : State) (f : Cfg → Cfg) : (s.modCfg f).regs = s.regs := rfl
@[simp] theorem State.modCfg_captures (s : State) (f : Cfg → Cfg) : (s.modCfg f).captures = s.captures := rfl
@[simp] theorem State.modCfg_staged (s : State) (f : Cfg → Cfg) : (s.modCfg f).staged = s.staged := rfl
@[simp] theorem State.modCfg_ev (s : State) (f : Cfg → Cfg) : (s.modCfg f).ev = s.ev := rfl
@[simp] theorem State.modCfg_rst (s : State) (f : Cfg → Cfg) : (s.modCfg f).rst = s.rst := rfl
@[simp] theorem State.modCfg_fab (s : State) (f : Cfg → Cfg) : (s.modCfg f).fab = s.fab := rfl
@[simp] theorem State.modCfg_lib (s : State) (f : Cfg → Cfg) : (s.modCfg f).lib = s.lib := rfl
@[simp] theorem State.modCfg_integ (s : State) (f : Cfg → Cfg) : (s.modCfg f).integ = s.integ := rfl
@[simp] theorem State.modCfg_grt (s : State) (f : Cfg → Cfg) : (s.modCfg f).grt = s.grt := rfl
@[simp] theorem State.modCfg_que (s : State) (f : Cfg → Cfg) : (s.modCfg f).que = s.que := rfl
@[simp] theorem State.modCfg_arb (s : State) (f : Cfg → Cfg) : (s.modCfg f).arb = s.arb := rfl
@[simp] theorem State.modCfg_pci (s : State) (f : Cfg → Cfg) : (s.modCfg f).pci = s.pci := rfl
@[simp] theorem State.modCfg_xlt (s : State) (f : Cfg → Cfg) : (s.modCfg f).xlt = s.xlt := rfl
@[simp] theorem State.modCfg_cry (s : State) (f : Cfg → Cfg) : (s.modCfg f).cry = s.cry := rfl
@[simp] theorem State.modCfg_cfg (s : State) (f : Cfg → Cfg) : (s.modCfg f).cfg = f s.cfg := rfl
@[simp] theorem State.modCfg_gvl (s : State) (f : Cfg → Cfg) : (s.modCfg f).gvl = s.gvl := rfl
@[simp] theorem State.modCfg_net (s : State) (f : Cfg → Cfg) : (s.modCfg f).net = s.net := rfl
@[simp] theorem State.modCfg_twn (s : State) (f : Cfg → Cfg) : (s.modCfg f).twn = s.twn := rfl
@[simp] theorem State.modCfg_lys (s : State) (f : Cfg → Cfg) : (s.modCfg f).lys = s.lys := rfl
@[simp] theorem State.modCfg_pin (s : State) (f : Cfg → Cfg) : (s.modCfg f).pin = s.pin := rfl
@[simp] theorem State.modCfg_seed (s : State) (f : Cfg → Cfg) : (s.modCfg f).seed = s.seed := rfl
@[simp] theorem State.modCfg_out (s : State) (f : Cfg → Cfg) : (s.modCfg f).out = s.out := rfl

@[simp] theorem State.modNet_pending (s : State) (f : Net → Net) : (s.modNet f).pending = s.pending := rfl
@[simp] theorem State.modNet_regs (s : State) (f : Net → Net) : (s.modNet f).regs = s.regs := rfl
@[simp] theorem State.modNet_captures (s : State) (f : Net → Net) : (s.modNet f).captures = s.captures := rfl
@[simp] theorem State.modNet_staged (s : State) (f : Net → Net) : (s.modNet f).staged = s.staged := rfl
@[simp] theorem State.modNet_ev (s : State) (f : Net → Net) : (s.modNet f).ev = s.ev := rfl
@[simp] theorem State.modNet_rst (s : State) (f : Net → Net) : (s.modNet f).rst = s.rst := rfl
@[simp] theorem State.modNet_fab (s : State) (f : Net → Net) : (s.modNet f).fab = s.fab := rfl
@[simp] theorem State.modNet_lib (s : State) (f : Net → Net) : (s.modNet f).lib = s.lib := rfl
@[simp] theorem State.modNet_integ (s : State) (f : Net → Net) : (s.modNet f).integ = s.integ := rfl
@[simp] theorem State.modNet_grt (s : State) (f : Net → Net) : (s.modNet f).grt = s.grt := rfl
@[simp] theorem State.modNet_que (s : State) (f : Net → Net) : (s.modNet f).que = s.que := rfl
@[simp] theorem State.modNet_arb (s : State) (f : Net → Net) : (s.modNet f).arb = s.arb := rfl
@[simp] theorem State.modNet_pci (s : State) (f : Net → Net) : (s.modNet f).pci = s.pci := rfl
@[simp] theorem State.modNet_xlt (s : State) (f : Net → Net) : (s.modNet f).xlt = s.xlt := rfl
@[simp] theorem State.modNet_cry (s : State) (f : Net → Net) : (s.modNet f).cry = s.cry := rfl
@[simp] theorem State.modNet_cfg (s : State) (f : Net → Net) : (s.modNet f).cfg = s.cfg := rfl
@[simp] theorem State.modNet_gvl (s : State) (f : Net → Net) : (s.modNet f).gvl = s.gvl := rfl
@[simp] theorem State.modNet_net (s : State) (f : Net → Net) : (s.modNet f).net = f s.net := rfl
@[simp] theorem State.modNet_twn (s : State) (f : Net → Net) : (s.modNet f).twn = s.twn := rfl
@[simp] theorem State.modNet_lys (s : State) (f : Net → Net) : (s.modNet f).lys = s.lys := rfl
@[simp] theorem State.modNet_pin (s : State) (f : Net → Net) : (s.modNet f).pin = s.pin := rfl
@[simp] theorem State.modNet_seed (s : State) (f : Net → Net) : (s.modNet f).seed = s.seed := rfl
@[simp] theorem State.modNet_out (s : State) (f : Net → Net) : (s.modNet f).out = s.out := rfl

@[simp] theorem State.modTwn_pending (s : State) (f : Twin → Twin) : (s.modTwn f).pending = s.pending := rfl
@[simp] theorem State.modTwn_regs (s : State) (f : Twin → Twin) : (s.modTwn f).regs = s.regs := rfl
@[simp] theorem State.modTwn_captures (s : State) (f : Twin → Twin) : (s.modTwn f).captures = s.captures := rfl
@[simp] theorem State.modTwn_staged (s : State) (f : Twin → Twin) : (s.modTwn f).staged = s.staged := rfl
@[simp] theorem State.modTwn_ev (s : State) (f : Twin → Twin) : (s.modTwn f).ev = s.ev := rfl
@[simp] theorem State.modTwn_rst (s : State) (f : Twin → Twin) : (s.modTwn f).rst = s.rst := rfl
@[simp] theorem State.modTwn_fab (s : State) (f : Twin → Twin) : (s.modTwn f).fab = s.fab := rfl
@[simp] theorem State.modTwn_lib (s : State) (f : Twin → Twin) : (s.modTwn f).lib = s.lib := rfl
@[simp] theorem State.modTwn_integ (s : State) (f : Twin → Twin) : (s.modTwn f).integ = s.integ := rfl
@[simp] theorem State.modTwn_grt (s : State) (f : Twin → Twin) : (s.modTwn f).grt = s.grt := rfl
@[simp] theorem State.modTwn_que (s : State) (f : Twin → Twin) : (s.modTwn f).que = s.que := rfl
@[simp] theorem State.modTwn_arb (s : State) (f : Twin → Twin) : (s.modTwn f).arb = s.arb := rfl
@[simp] theorem State.modTwn_pci (s : State) (f : Twin → Twin) : (s.modTwn f).pci = s.pci := rfl
@[simp] theorem State.modTwn_xlt (s : State) (f : Twin → Twin) : (s.modTwn f).xlt = s.xlt := rfl
@[simp] theorem State.modTwn_cry (s : State) (f : Twin → Twin) : (s.modTwn f).cry = s.cry := rfl
@[simp] theorem State.modTwn_cfg (s : State) (f : Twin → Twin) : (s.modTwn f).cfg = s.cfg := rfl
@[simp] theorem State.modTwn_gvl (s : State) (f : Twin → Twin) : (s.modTwn f).gvl = s.gvl := rfl
@[simp] theorem State.modTwn_net (s : State) (f : Twin → Twin) : (s.modTwn f).net = s.net := rfl
@[simp] theorem State.modTwn_twn (s : State) (f : Twin → Twin) : (s.modTwn f).twn = f s.twn := rfl
@[simp] theorem State.modTwn_lys (s : State) (f : Twin → Twin) : (s.modTwn f).lys = s.lys := rfl
@[simp] theorem State.modTwn_pin (s : State) (f : Twin → Twin) : (s.modTwn f).pin = s.pin := rfl
@[simp] theorem State.modTwn_seed (s : State) (f : Twin → Twin) : (s.modTwn f).seed = s.seed := rfl
@[simp] theorem State.modTwn_out (s : State) (f : Twin → Twin) : (s.modTwn f).out = s.out := rfl

@[simp] theorem State.modLys_pending (s : State) (f : Lys → Lys) : (s.modLys f).pending = s.pending := rfl
@[simp] theorem State.modLys_regs (s : State) (f : Lys → Lys) : (s.modLys f).regs = s.regs := rfl
@[simp] theorem State.modLys_captures (s : State) (f : Lys → Lys) : (s.modLys f).captures = s.captures := rfl
@[simp] theorem State.modLys_staged (s : State) (f : Lys → Lys) : (s.modLys f).staged = s.staged := rfl
@[simp] theorem State.modLys_ev (s : State) (f : Lys → Lys) : (s.modLys f).ev = s.ev := rfl
@[simp] theorem State.modLys_rst (s : State) (f : Lys → Lys) : (s.modLys f).rst = s.rst := rfl
@[simp] theorem State.modLys_fab (s : State) (f : Lys → Lys) : (s.modLys f).fab = s.fab := rfl
@[simp] theorem State.modLys_lib (s : State) (f : Lys → Lys) : (s.modLys f).lib = s.lib := rfl
@[simp] theorem State.modLys_integ (s : State) (f : Lys → Lys) : (s.modLys f).integ = s.integ := rfl
@[simp] theorem State.modLys_grt (s : State) (f : Lys → Lys) : (s.modLys f).grt = s.grt := rfl
@[simp] theorem State.modLys_que (s : State) (f : Lys → Lys) : (s.modLys f).que = s.que := rfl
@[simp] theorem State.modLys_arb (s : State) (f : Lys → Lys) : (s.modLys f).arb = s.arb := rfl
@[simp] theorem State.modLys_pci (s : State) (f : Lys → Lys) : (s.modLys f).pci = s.pci := rfl
@[simp] theorem State.modLys_xlt (s : State) (f : Lys → Lys) : (s.modLys f).xlt = s.xlt := rfl
@[simp] theorem State.modLys_cry (s : State) (f : Lys → Lys) : (s.modLys f).cry = s.cry := rfl
@[simp] theorem State.modLys_cfg (s : State) (f : Lys → Lys) : (s.modLys f).cfg = s.cfg := rfl
@[simp] theorem State.modLys_gvl (s : State) (f : Lys → Lys) : (s.modLys f).gvl = s.gvl := rfl
@[simp] theorem State.modLys_net (s : State) (f : Lys → Lys) : (s.modLys f).net = s.net := rfl
@[simp] theorem State.modLys_twn (s : State) (f : Lys → Lys) : (s.modLys f).twn = s.twn := rfl
@[simp] theorem State.modLys_lys (s : State) (f : Lys → Lys) : (s.modLys f).lys = f s.lys := rfl
@[simp] theorem State.modLys_pin (s : State) (f : Lys → Lys) : (s.modLys f).pin = s.pin := rfl
@[simp] theorem State.modLys_seed (s : State) (f : Lys → Lys) : (s.modLys f).seed = s.seed := rfl
@[simp] theorem State.modLys_out (s : State) (f : Lys → Lys) : (s.modLys f).out = s.out := rfl

@[simp] theorem State.modPin_pending (s : State) (f : Pins → Pins) : (s.modPin f).pending = s.pending := rfl
@[simp] theorem State.modPin_regs (s : State) (f : Pins → Pins) : (s.modPin f).regs = s.regs := rfl
@[simp] theorem State.modPin_captures (s : State) (f : Pins → Pins) : (s.modPin f).captures = s.captures := rfl
@[simp] theorem State.modPin_staged (s : State) (f : Pins → Pins) : (s.modPin f).staged = s.staged := rfl
@[simp] theorem State.modPin_ev (s : State) (f : Pins → Pins) : (s.modPin f).ev = s.ev := rfl
@[simp] theorem State.modPin_rst (s : State) (f : Pins → Pins) : (s.modPin f).rst = s.rst := rfl
@[simp] theorem State.modPin_fab (s : State) (f : Pins → Pins) : (s.modPin f).fab = s.fab := rfl
@[simp] theorem State.modPin_lib (s : State) (f : Pins → Pins) : (s.modPin f).lib = s.lib := rfl
@[simp] theorem State.modPin_integ (s : State) (f : Pins → Pins) : (s.modPin f).integ = s.integ := rfl
@[simp] theorem State.modPin_grt (s : State) (f : Pins → Pins) : (s.modPin f).grt = s.grt := rfl
@[simp] theorem State.modPin_que (s : State) (f : Pins → Pins) : (s.modPin f).que = s.que := rfl
@[simp] theorem State.modPin_arb (s : State) (f : Pins → Pins) : (s.modPin f).arb = s.arb := rfl
@[simp] theorem State.modPin_pci (s : State) (f : Pins → Pins) : (s.modPin f).pci = s.pci := rfl
@[simp] theorem State.modPin_xlt (s : State) (f : Pins → Pins) : (s.modPin f).xlt = s.xlt := rfl
@[simp] theorem State.modPin_cry (s : State) (f : Pins → Pins) : (s.modPin f).cry = s.cry := rfl
@[simp] theorem State.modPin_cfg (s : State) (f : Pins → Pins) : (s.modPin f).cfg = s.cfg := rfl
@[simp] theorem State.modPin_gvl (s : State) (f : Pins → Pins) : (s.modPin f).gvl = s.gvl := rfl
@[simp] theorem State.modPin_net (s : State) (f : Pins → Pins) : (s.modPin f).net = s.net := rfl
@[simp] theorem State.modPin_twn (s : State) (f : Pins → Pins) : (s.modPin f).twn = s.twn := rfl
@[simp] theorem State.modPin_lys (s : State) (f : Pins → Pins) : (s.modPin f).lys = s.lys := rfl
@[simp] theorem State.modPin_pin (s : State) (f : Pins → Pins) : (s.modPin f).pin = f s.pin := rfl
@[simp] theorem State.modPin_seed (s : State) (f : Pins → Pins) : (s.modPin f).seed = s.seed := rfl
@[simp] theorem State.modPin_out (s : State) (f : Pins → Pins) : (s.modPin f).out = s.out := rfl

@[simp] theorem State.modPci_pending (s : State) (f : Pcie → Pcie) : (s.modPci f).pending = s.pending := rfl
@[simp] theorem State.modPci_regs (s : State) (f : Pcie → Pcie) : (s.modPci f).regs = s.regs := rfl
@[simp] theorem State.modPci_captures (s : State) (f : Pcie → Pcie) : (s.modPci f).captures = s.captures := rfl
@[simp] theorem State.modPci_staged (s : State) (f : Pcie → Pcie) : (s.modPci f).staged = s.staged := rfl
@[simp] theorem State.modPci_ev (s : State) (f : Pcie → Pcie) : (s.modPci f).ev = s.ev := rfl
@[simp] theorem State.modPci_rst (s : State) (f : Pcie → Pcie) : (s.modPci f).rst = s.rst := rfl
@[simp] theorem State.modPci_fab (s : State) (f : Pcie → Pcie) : (s.modPci f).fab = s.fab := rfl
@[simp] theorem State.modPci_lib (s : State) (f : Pcie → Pcie) : (s.modPci f).lib = s.lib := rfl
@[simp] theorem State.modPci_integ (s : State) (f : Pcie → Pcie) : (s.modPci f).integ = s.integ := rfl
@[simp] theorem State.modPci_grt (s : State) (f : Pcie → Pcie) : (s.modPci f).grt = s.grt := rfl
@[simp] theorem State.modPci_que (s : State) (f : Pcie → Pcie) : (s.modPci f).que = s.que := rfl
@[simp] theorem State.modPci_arb (s : State) (f : Pcie → Pcie) : (s.modPci f).arb = s.arb := rfl
@[simp] theorem State.modPci_pci (s : State) (f : Pcie → Pcie) : (s.modPci f).pci = f s.pci := rfl
@[simp] theorem State.modPci_xlt (s : State) (f : Pcie → Pcie) : (s.modPci f).xlt = s.xlt := rfl
@[simp] theorem State.modPci_cry (s : State) (f : Pcie → Pcie) : (s.modPci f).cry = s.cry := rfl
@[simp] theorem State.modPci_cfg (s : State) (f : Pcie → Pcie) : (s.modPci f).cfg = s.cfg := rfl
@[simp] theorem State.modPci_gvl (s : State) (f : Pcie → Pcie) : (s.modPci f).gvl = s.gvl := rfl
@[simp] theorem State.modPci_net (s : State) (f : Pcie → Pcie) : (s.modPci f).net = s.net := rfl
@[simp] theorem State.modPci_twn (s : State) (f : Pcie → Pcie) : (s.modPci f).twn = s.twn := rfl
@[simp] theorem State.modPci_lys (s : State) (f : Pcie → Pcie) : (s.modPci f).lys = s.lys := rfl
@[simp] theorem State.modPci_pin (s : State) (f : Pcie → Pcie) : (s.modPci f).pin = s.pin := rfl
@[simp] theorem State.modPci_seed (s : State) (f : Pcie → Pcie) : (s.modPci f).seed = s.seed := rfl
@[simp] theorem State.modPci_out (s : State) (f : Pcie → Pcie) : (s.modPci f).out = s.out := rfl

@[simp] theorem State.modChm_pending (s : State) (c : Nat) (f : Chamber → Chamber) : (s.modChm c f).pending = s.pending := rfl
@[simp] theorem State.modChm_regs (s : State) (c : Nat) (f : Chamber → Chamber) : (s.modChm c f).regs = s.regs := rfl
@[simp] theorem State.modChm_captures (s : State) (c : Nat) (f : Chamber → Chamber) : (s.modChm c f).captures = s.captures := rfl
@[simp] theorem State.modChm_staged (s : State) (c : Nat) (f : Chamber → Chamber) : (s.modChm c f).staged = s.staged := rfl
@[simp] theorem State.modChm_ev (s : State) (c : Nat) (f : Chamber → Chamber) : (s.modChm c f).ev = s.ev := rfl
@[simp] theorem State.modChm_rst (s : State) (c : Nat) (f : Chamber → Chamber) : (s.modChm c f).rst = s.rst := rfl
@[simp] theorem State.modChm_lib (s : State) (c : Nat) (f : Chamber → Chamber) : (s.modChm c f).lib = s.lib := rfl
@[simp] theorem State.modChm_integ (s : State) (c : Nat) (f : Chamber → Chamber) : (s.modChm c f).integ = s.integ := rfl
@[simp] theorem State.modChm_grt (s : State) (c : Nat) (f : Chamber → Chamber) : (s.modChm c f).grt = s.grt := rfl
@[simp] theorem State.modChm_que (s : State) (c : Nat) (f : Chamber → Chamber) : (s.modChm c f).que = s.que := rfl
@[simp] theorem State.modChm_arb (s : State) (c : Nat) (f : Chamber → Chamber) : (s.modChm c f).arb = s.arb := rfl
@[simp] theorem State.modChm_pci (s : State) (c : Nat) (f : Chamber → Chamber) : (s.modChm c f).pci = s.pci := rfl
@[simp] theorem State.modChm_xlt (s : State) (c : Nat) (f : Chamber → Chamber) : (s.modChm c f).xlt = s.xlt := rfl
@[simp] theorem State.modChm_cry (s : State) (c : Nat) (f : Chamber → Chamber) : (s.modChm c f).cry = s.cry := rfl
@[simp] theorem State.modChm_cfg (s : State) (c : Nat) (f : Chamber → Chamber) : (s.modChm c f).cfg = s.cfg := rfl
@[simp] theorem State.modChm_gvl (s : State) (c : Nat) (f : Chamber → Chamber) : (s.modChm c f).gvl = s.gvl := rfl
@[simp] theorem State.modChm_net (s : State) (c : Nat) (f : Chamber → Chamber) : (s.modChm c f).net = s.net := rfl
@[simp] theorem State.modChm_twn (s : State) (c : Nat) (f : Chamber → Chamber) : (s.modChm c f).twn = s.twn := rfl
@[simp] theorem State.modChm_lys (s : State) (c : Nat) (f : Chamber → Chamber) : (s.modChm c f).lys = s.lys := rfl
@[simp] theorem State.modChm_pin (s : State) (c : Nat) (f : Chamber → Chamber) : (s.modChm c f).pin = s.pin := rfl
@[simp] theorem State.modChm_seed (s : State) (c : Nat) (f : Chamber → Chamber) : (s.modChm c f).seed = s.seed := rfl
@[simp] theorem State.modChm_out (s : State) (c : Nat) (f : Chamber → Chamber) : (s.modChm c f).out = s.out := rfl

@[simp] theorem State.modStrat_pending (s : State) (c k : Nat) (f : Stratum → Stratum) : (s.modStrat c k f).pending = s.pending := rfl
@[simp] theorem State.modStrat_regs (s : State) (c k : Nat) (f : Stratum → Stratum) : (s.modStrat c k f).regs = s.regs := rfl
@[simp] theorem State.modStrat_captures (s : State) (c k : Nat) (f : Stratum → Stratum) : (s.modStrat c k f).captures = s.captures := rfl
@[simp] theorem State.modStrat_staged (s : State) (c k : Nat) (f : Stratum → Stratum) : (s.modStrat c k f).staged = s.staged := rfl
@[simp] theorem State.modStrat_ev (s : State) (c k : Nat) (f : Stratum → Stratum) : (s.modStrat c k f).ev = s.ev := rfl
@[simp] theorem State.modStrat_rst (s : State) (c k : Nat) (f : Stratum → Stratum) : (s.modStrat c k f).rst = s.rst := rfl
@[simp] theorem State.modStrat_lib (s : State) (c k : Nat) (f : Stratum → Stratum) : (s.modStrat c k f).lib = s.lib := rfl
@[simp] theorem State.modStrat_integ (s : State) (c k : Nat) (f : Stratum → Stratum) : (s.modStrat c k f).integ = s.integ := rfl
@[simp] theorem State.modStrat_grt (s : State) (c k : Nat) (f : Stratum → Stratum) : (s.modStrat c k f).grt = s.grt := rfl
@[simp] theorem State.modStrat_que (s : State) (c k : Nat) (f : Stratum → Stratum) : (s.modStrat c k f).que = s.que := rfl
@[simp] theorem State.modStrat_arb (s : State) (c k : Nat) (f : Stratum → Stratum) : (s.modStrat c k f).arb = s.arb := rfl
@[simp] theorem State.modStrat_pci (s : State) (c k : Nat) (f : Stratum → Stratum) : (s.modStrat c k f).pci = s.pci := rfl
@[simp] theorem State.modStrat_xlt (s : State) (c k : Nat) (f : Stratum → Stratum) : (s.modStrat c k f).xlt = s.xlt := rfl
@[simp] theorem State.modStrat_cry (s : State) (c k : Nat) (f : Stratum → Stratum) : (s.modStrat c k f).cry = s.cry := rfl
@[simp] theorem State.modStrat_cfg (s : State) (c k : Nat) (f : Stratum → Stratum) : (s.modStrat c k f).cfg = s.cfg := rfl
@[simp] theorem State.modStrat_gvl (s : State) (c k : Nat) (f : Stratum → Stratum) : (s.modStrat c k f).gvl = s.gvl := rfl
@[simp] theorem State.modStrat_net (s : State) (c k : Nat) (f : Stratum → Stratum) : (s.modStrat c k f).net = s.net := rfl
@[simp] theorem State.modStrat_twn (s : State) (c k : Nat) (f : Stratum → Stratum) : (s.modStrat c k f).twn = s.twn := rfl
@[simp] theorem State.modStrat_lys (s : State) (c k : Nat) (f : Stratum → Stratum) : (s.modStrat c k f).lys = s.lys := rfl
@[simp] theorem State.modStrat_pin (s : State) (c k : Nat) (f : Stratum → Stratum) : (s.modStrat c k f).pin = s.pin := rfl
@[simp] theorem State.modStrat_seed (s : State) (c k : Nat) (f : Stratum → Stratum) : (s.modStrat c k f).seed = s.seed := rfl
@[simp] theorem State.modStrat_out (s : State) (c k : Nat) (f : Stratum → Stratum) : (s.modStrat c k f).out = s.out := rfl

@[simp] theorem State.modCol_pending (s : State) (n : Nat) (f : Column → Column) : (s.modCol n f).pending = s.pending := rfl
@[simp] theorem State.modCol_regs (s : State) (n : Nat) (f : Column → Column) : (s.modCol n f).regs = s.regs := rfl
@[simp] theorem State.modCol_captures (s : State) (n : Nat) (f : Column → Column) : (s.modCol n f).captures = s.captures := rfl
@[simp] theorem State.modCol_staged (s : State) (n : Nat) (f : Column → Column) : (s.modCol n f).staged = s.staged := rfl
@[simp] theorem State.modCol_ev (s : State) (n : Nat) (f : Column → Column) : (s.modCol n f).ev = s.ev := rfl
@[simp] theorem State.modCol_rst (s : State) (n : Nat) (f : Column → Column) : (s.modCol n f).rst = s.rst := rfl
@[simp] theorem State.modCol_lib (s : State) (n : Nat) (f : Column → Column) : (s.modCol n f).lib = s.lib := rfl
@[simp] theorem State.modCol_integ (s : State) (n : Nat) (f : Column → Column) : (s.modCol n f).integ = s.integ := rfl
@[simp] theorem State.modCol_grt (s : State) (n : Nat) (f : Column → Column) : (s.modCol n f).grt = s.grt := rfl
@[simp] theorem State.modCol_que (s : State) (n : Nat) (f : Column → Column) : (s.modCol n f).que = s.que := rfl
@[simp] theorem State.modCol_arb (s : State) (n : Nat) (f : Column → Column) : (s.modCol n f).arb = s.arb := rfl
@[simp] theorem State.modCol_pci (s : State) (n : Nat) (f : Column → Column) : (s.modCol n f).pci = s.pci := rfl
@[simp] theorem State.modCol_xlt (s : State) (n : Nat) (f : Column → Column) : (s.modCol n f).xlt = s.xlt := rfl
@[simp] theorem State.modCol_cry (s : State) (n : Nat) (f : Column → Column) : (s.modCol n f).cry = s.cry := rfl
@[simp] theorem State.modCol_cfg (s : State) (n : Nat) (f : Column → Column) : (s.modCol n f).cfg = s.cfg := rfl
@[simp] theorem State.modCol_gvl (s : State) (n : Nat) (f : Column → Column) : (s.modCol n f).gvl = s.gvl := rfl
@[simp] theorem State.modCol_net (s : State) (n : Nat) (f : Column → Column) : (s.modCol n f).net = s.net := rfl
@[simp] theorem State.modCol_twn (s : State) (n : Nat) (f : Column → Column) : (s.modCol n f).twn = s.twn := rfl
@[simp] theorem State.modCol_lys (s : State) (n : Nat) (f : Column → Column) : (s.modCol n f).lys = s.lys := rfl
@[simp] theorem State.modCol_pin (s : State) (n : Nat) (f : Column → Column) : (s.modCol n f).pin = s.pin := rfl
@[simp] theorem State.modCol_seed (s : State) (n : Nat) (f : Column → Column) : (s.modCol n f).seed = s.seed := rfl
@[simp] theorem State.modCol_out (s : State) (n : Nat) (f : Column → Column) : (s.modCol n f).out = s.out := rfl

@[simp] theorem State.modGrp_pending (s : State) (g : Nat) (f : SwGroup → SwGroup) : (s.modGrp g f).pending = s.pending := rfl
@[simp] theorem State.modGrp_regs (s : State) (g : Nat) (f : SwGroup → SwGroup) : (s.modGrp g f).regs = s.regs := rfl
@[simp] theorem State.modGrp_captures (s : State) (g : Nat) (f : SwGroup → SwGroup) : (s.modGrp g f).captures = s.captures := rfl
@[simp] theorem State.modGrp_staged (s : State) (g : Nat) (f : SwGroup → SwGroup) : (s.modGrp g f).staged = s.staged := rfl
@[simp] theorem State.modGrp_ev (s : State) (g : Nat) (f : SwGroup → SwGroup) : (s.modGrp g f).ev = s.ev := rfl
@[simp] theorem State.modGrp_rst (s : State) (g : Nat) (f : SwGroup → SwGroup) : (s.modGrp g f).rst = s.rst := rfl
@[simp] theorem State.modGrp_lib (s : State) (g : Nat) (f : SwGroup → SwGroup) : (s.modGrp g f).lib = s.lib := rfl
@[simp] theorem State.modGrp_integ (s : State) (g : Nat) (f : SwGroup → SwGroup) : (s.modGrp g f).integ = s.integ := rfl
@[simp] theorem State.modGrp_grt (s : State) (g : Nat) (f : SwGroup → SwGroup) : (s.modGrp g f).grt = s.grt := rfl
@[simp] theorem State.modGrp_que (s : State) (g : Nat) (f : SwGroup → SwGroup) : (s.modGrp g f).que = s.que := rfl
@[simp] theorem State.modGrp_arb (s : State) (g : Nat) (f : SwGroup → SwGroup) : (s.modGrp g f).arb = s.arb := rfl
@[simp] theorem State.modGrp_pci (s : State) (g : Nat) (f : SwGroup → SwGroup) : (s.modGrp g f).pci = s.pci := rfl
@[simp] theorem State.modGrp_xlt (s : State) (g : Nat) (f : SwGroup → SwGroup) : (s.modGrp g f).xlt = s.xlt := rfl
@[simp] theorem State.modGrp_cry (s : State) (g : Nat) (f : SwGroup → SwGroup) : (s.modGrp g f).cry = s.cry := rfl
@[simp] theorem State.modGrp_cfg (s : State) (g : Nat) (f : SwGroup → SwGroup) : (s.modGrp g f).cfg = s.cfg := rfl
@[simp] theorem State.modGrp_gvl (s : State) (g : Nat) (f : SwGroup → SwGroup) : (s.modGrp g f).gvl = s.gvl := rfl
@[simp] theorem State.modGrp_net (s : State) (g : Nat) (f : SwGroup → SwGroup) : (s.modGrp g f).net = s.net := rfl
@[simp] theorem State.modGrp_twn (s : State) (g : Nat) (f : SwGroup → SwGroup) : (s.modGrp g f).twn = s.twn := rfl
@[simp] theorem State.modGrp_lys (s : State) (g : Nat) (f : SwGroup → SwGroup) : (s.modGrp g f).lys = s.lys := rfl
@[simp] theorem State.modGrp_pin (s : State) (g : Nat) (f : SwGroup → SwGroup) : (s.modGrp g f).pin = s.pin := rfl
@[simp] theorem State.modGrp_seed (s : State) (g : Nat) (f : SwGroup → SwGroup) : (s.modGrp g f).seed = s.seed := rfl
@[simp] theorem State.modGrp_out (s : State) (g : Nat) (f : SwGroup → SwGroup) : (s.modGrp g f).out = s.out := rfl

@[simp] theorem State.modSlot_pending (s : State) (i : Nat) (f : Slot → Slot) : (s.modSlot i f).pending = s.pending := rfl
@[simp] theorem State.modSlot_regs (s : State) (i : Nat) (f : Slot → Slot) : (s.modSlot i f).regs = s.regs := rfl
@[simp] theorem State.modSlot_captures (s : State) (i : Nat) (f : Slot → Slot) : (s.modSlot i f).captures = s.captures := rfl
@[simp] theorem State.modSlot_staged (s : State) (i : Nat) (f : Slot → Slot) : (s.modSlot i f).staged = s.staged := rfl
@[simp] theorem State.modSlot_ev (s : State) (i : Nat) (f : Slot → Slot) : (s.modSlot i f).ev = s.ev := rfl
@[simp] theorem State.modSlot_rst (s : State) (i : Nat) (f : Slot → Slot) : (s.modSlot i f).rst = s.rst := rfl
@[simp] theorem State.modSlot_fab (s : State) (i : Nat) (f : Slot → Slot) : (s.modSlot i f).fab = s.fab := rfl
@[simp] theorem State.modSlot_integ (s : State) (i : Nat) (f : Slot → Slot) : (s.modSlot i f).integ = s.integ := rfl
@[simp] theorem State.modSlot_grt (s : State) (i : Nat) (f : Slot → Slot) : (s.modSlot i f).grt = s.grt := rfl
@[simp] theorem State.modSlot_que (s : State) (i : Nat) (f : Slot → Slot) : (s.modSlot i f).que = s.que := rfl
@[simp] theorem State.modSlot_arb (s : State) (i : Nat) (f : Slot → Slot) : (s.modSlot i f).arb = s.arb := rfl
@[simp] theorem State.modSlot_pci (s : State) (i : Nat) (f : Slot → Slot) : (s.modSlot i f).pci = s.pci := rfl
@[simp] theorem State.modSlot_xlt (s : State) (i : Nat) (f : Slot → Slot) : (s.modSlot i f).xlt = s.xlt := rfl
@[simp] theorem State.modSlot_cry (s : State) (i : Nat) (f : Slot → Slot) : (s.modSlot i f).cry = s.cry := rfl
@[simp] theorem State.modSlot_cfg (s : State) (i : Nat) (f : Slot → Slot) : (s.modSlot i f).cfg = s.cfg := rfl
@[simp] theorem State.modSlot_gvl (s : State) (i : Nat) (f : Slot → Slot) : (s.modSlot i f).gvl = s.gvl := rfl
@[simp] theorem State.modSlot_net (s : State) (i : Nat) (f : Slot → Slot) : (s.modSlot i f).net = s.net := rfl
@[simp] theorem State.modSlot_twn (s : State) (i : Nat) (f : Slot → Slot) : (s.modSlot i f).twn = s.twn := rfl
@[simp] theorem State.modSlot_lys (s : State) (i : Nat) (f : Slot → Slot) : (s.modSlot i f).lys = s.lys := rfl
@[simp] theorem State.modSlot_pin (s : State) (i : Nat) (f : Slot → Slot) : (s.modSlot i f).pin = s.pin := rfl
@[simp] theorem State.modSlot_seed (s : State) (i : Nat) (f : Slot → Slot) : (s.modSlot i f).seed = s.seed := rfl
@[simp] theorem State.modSlot_out (s : State) (i : Nat) (f : Slot → Slot) : (s.modSlot i f).out = s.out := rfl

@[simp] theorem State.modBank_pending (s : State) (i : Nat) (f : Bank → Bank) : (s.modBank i f).pending = s.pending := rfl
@[simp] theorem State.modBank_regs (s : State) (i : Nat) (f : Bank → Bank) : (s.modBank i f).regs = s.regs := rfl
@[simp] theorem State.modBank_captures (s : State) (i : Nat) (f : Bank → Bank) : (s.modBank i f).captures = s.captures := rfl
@[simp] theorem State.modBank_staged (s : State) (i : Nat) (f : Bank → Bank) : (s.modBank i f).staged = s.staged := rfl
@[simp] theorem State.modBank_ev (s : State) (i : Nat) (f : Bank → Bank) : (s.modBank i f).ev = s.ev := rfl
@[simp] theorem State.modBank_rst (s : State) (i : Nat) (f : Bank → Bank) : (s.modBank i f).rst = s.rst := rfl
@[simp] theorem State.modBank_fab (s : State) (i : Nat) (f : Bank → Bank) : (s.modBank i f).fab = s.fab := rfl
@[simp] theorem State.modBank_lib (s : State) (i : Nat) (f : Bank → Bank) : (s.modBank i f).lib = s.lib := rfl
@[simp] theorem State.modBank_integ (s : State) (i : Nat) (f : Bank → Bank) : (s.modBank i f).integ = s.integ := rfl
@[simp] theorem State.modBank_que (s : State) (i : Nat) (f : Bank → Bank) : (s.modBank i f).que = s.que := rfl
@[simp] theorem State.modBank_arb (s : State) (i : Nat) (f : Bank → Bank) : (s.modBank i f).arb = s.arb := rfl
@[simp] theorem State.modBank_pci (s : State) (i : Nat) (f : Bank → Bank) : (s.modBank i f).pci = s.pci := rfl
@[simp] theorem State.modBank_xlt (s : State) (i : Nat) (f : Bank → Bank) : (s.modBank i f).xlt = s.xlt := rfl
@[simp] theorem State.modBank_cry (s : State) (i : Nat) (f : Bank → Bank) : (s.modBank i f).cry = s.cry := rfl
@[simp] theorem State.modBank_cfg (s : State) (i : Nat) (f : Bank → Bank) : (s.modBank i f).cfg = s.cfg := rfl
@[simp] theorem State.modBank_gvl (s : State) (i : Nat) (f : Bank → Bank) : (s.modBank i f).gvl = s.gvl := rfl
@[simp] theorem State.modBank_net (s : State) (i : Nat) (f : Bank → Bank) : (s.modBank i f).net = s.net := rfl
@[simp] theorem State.modBank_twn (s : State) (i : Nat) (f : Bank → Bank) : (s.modBank i f).twn = s.twn := rfl
@[simp] theorem State.modBank_lys (s : State) (i : Nat) (f : Bank → Bank) : (s.modBank i f).lys = s.lys := rfl
@[simp] theorem State.modBank_pin (s : State) (i : Nat) (f : Bank → Bank) : (s.modBank i f).pin = s.pin := rfl
@[simp] theorem State.modBank_seed (s : State) (i : Nat) (f : Bank → Bank) : (s.modBank i f).seed = s.seed := rfl
@[simp] theorem State.modBank_out (s : State) (i : Nat) (f : Bank → Bank) : (s.modBank i f).out = s.out := rfl

@[simp] theorem State.modQu_pending (s : State) (q : Nat) (f : Queue → Queue) : (s.modQu q f).pending = s.pending := rfl
@[simp] theorem State.modQu_regs (s : State) (q : Nat) (f : Queue → Queue) : (s.modQu q f).regs = s.regs := rfl
@[simp] theorem State.modQu_captures (s : State) (q : Nat) (f : Queue → Queue) : (s.modQu q f).captures = s.captures := rfl
@[simp] theorem State.modQu_staged (s : State) (q : Nat) (f : Queue → Queue) : (s.modQu q f).staged = s.staged := rfl
@[simp] theorem State.modQu_ev (s : State) (q : Nat) (f : Queue → Queue) : (s.modQu q f).ev = s.ev := rfl
@[simp] theorem State.modQu_rst (s : State) (q : Nat) (f : Queue → Queue) : (s.modQu q f).rst = s.rst := rfl
@[simp] theorem State.modQu_fab (s : State) (q : Nat) (f : Queue → Queue) : (s.modQu q f).fab = s.fab := rfl
@[simp] theorem State.modQu_lib (s : State) (q : Nat) (f : Queue → Queue) : (s.modQu q f).lib = s.lib := rfl
@[simp] theorem State.modQu_integ (s : State) (q : Nat) (f : Queue → Queue) : (s.modQu q f).integ = s.integ := rfl
@[simp] theorem State.modQu_grt (s : State) (q : Nat) (f : Queue → Queue) : (s.modQu q f).grt = s.grt := rfl
@[simp] theorem State.modQu_arb (s : State) (q : Nat) (f : Queue → Queue) : (s.modQu q f).arb = s.arb := rfl
@[simp] theorem State.modQu_pci (s : State) (q : Nat) (f : Queue → Queue) : (s.modQu q f).pci = s.pci := rfl
@[simp] theorem State.modQu_xlt (s : State) (q : Nat) (f : Queue → Queue) : (s.modQu q f).xlt = s.xlt := rfl
@[simp] theorem State.modQu_cry (s : State) (q : Nat) (f : Queue → Queue) : (s.modQu q f).cry = s.cry := rfl
@[simp] theorem State.modQu_cfg (s : State) (q : Nat) (f : Queue → Queue) : (s.modQu q f).cfg = s.cfg := rfl
@[simp] theorem State.modQu_gvl (s : State) (q : Nat) (f : Queue → Queue) : (s.modQu q f).gvl = s.gvl := rfl
@[simp] theorem State.modQu_net (s : State) (q : Nat) (f : Queue → Queue) : (s.modQu q f).net = s.net := rfl
@[simp] theorem State.modQu_twn (s : State) (q : Nat) (f : Queue → Queue) : (s.modQu q f).twn = s.twn := rfl
@[simp] theorem State.modQu_lys (s : State) (q : Nat) (f : Queue → Queue) : (s.modQu q f).lys = s.lys := rfl
@[simp] theorem State.modQu_pin (s : State) (q : Nat) (f : Queue → Queue) : (s.modQu q f).pin = s.pin := rfl
@[simp] theorem State.modQu_seed (s : State) (q : Nat) (f : Queue → Queue) : (s.modQu q f).seed = s.seed := rfl
@[simp] theorem State.modQu_out (s : State) (q : Nat) (f : Queue → Queue) : (s.modQu q f).out = s.out := rfl

@[simp] theorem State.modBun_pending (s : State) (b : Nat) (f : Bundle → Bundle) : (s.modBun b f).pending = s.pending := rfl
@[simp] theorem State.modBun_regs (s : State) (b : Nat) (f : Bundle → Bundle) : (s.modBun b f).regs = s.regs := rfl
@[simp] theorem State.modBun_captures (s : State) (b : Nat) (f : Bundle → Bundle) : (s.modBun b f).captures = s.captures := rfl
@[simp] theorem State.modBun_staged (s : State) (b : Nat) (f : Bundle → Bundle) : (s.modBun b f).staged = s.staged := rfl
@[simp] theorem State.modBun_ev (s : State) (b : Nat) (f : Bundle → Bundle) : (s.modBun b f).ev = s.ev := rfl
@[simp] theorem State.modBun_rst (s : State) (b : Nat) (f : Bundle → Bundle) : (s.modBun b f).rst = s.rst := rfl
@[simp] theorem State.modBun_fab (s : State) (b : Nat) (f : Bundle → Bundle) : (s.modBun b f).fab = s.fab := rfl
@[simp] theorem State.modBun_lib (s : State) (b : Nat) (f : Bundle → Bundle) : (s.modBun b f).lib = s.lib := rfl
@[simp] theorem State.modBun_integ (s : State) (b : Nat) (f : Bundle → Bundle) : (s.modBun b f).integ = s.integ := rfl
@[simp] theorem State.modBun_grt (s : State) (b : Nat) (f : Bundle → Bundle) : (s.modBun b f).grt = s.grt := rfl
@[simp] theorem State.modBun_que (s : State) (b : Nat) (f : Bundle → Bundle) : (s.modBun b f).que = s.que := rfl
@[simp] theorem State.modBun_arb (s : State) (b : Nat) (f : Bundle → Bundle) : (s.modBun b f).arb = s.arb := rfl
@[simp] theorem State.modBun_pci (s : State) (b : Nat) (f : Bundle → Bundle) : (s.modBun b f).pci = s.pci := rfl
@[simp] theorem State.modBun_xlt (s : State) (b : Nat) (f : Bundle → Bundle) : (s.modBun b f).xlt = s.xlt := rfl
@[simp] theorem State.modBun_cry (s : State) (b : Nat) (f : Bundle → Bundle) : (s.modBun b f).cry = s.cry := rfl
@[simp] theorem State.modBun_cfg (s : State) (b : Nat) (f : Bundle → Bundle) : (s.modBun b f).cfg = s.cfg := rfl
@[simp] theorem State.modBun_net (s : State) (b : Nat) (f : Bundle → Bundle) : (s.modBun b f).net = s.net := rfl
@[simp] theorem State.modBun_twn (s : State) (b : Nat) (f : Bundle → Bundle) : (s.modBun b f).twn = s.twn := rfl
@[simp] theorem State.modBun_lys (s : State) (b : Nat) (f : Bundle → Bundle) : (s.modBun b f).lys = s.lys := rfl
@[simp] theorem State.modBun_pin (s : State) (b : Nat) (f : Bundle → Bundle) : (s.modBun b f).pin = s.pin := rfl
@[simp] theorem State.modBun_seed (s : State) (b : Nat) (f : Bundle → Bundle) : (s.modBun b f).seed = s.seed := rfl
@[simp] theorem State.modBun_out (s : State) (b : Nat) (f : Bundle → Bundle) : (s.modBun b f).out = s.out := rfl

@[simp] theorem State.modLink_pending (s : State) (b : Nat) (f : Link → Link) : (s.modLink b f).pending = s.pending := rfl
@[simp] theorem State.modLink_regs (s : State) (b : Nat) (f : Link → Link) : (s.modLink b f).regs = s.regs := rfl
@[simp] theorem State.modLink_captures (s : State) (b : Nat) (f : Link → Link) : (s.modLink b f).captures = s.captures := rfl
@[simp] theorem State.modLink_staged (s : State) (b : Nat) (f : Link → Link) : (s.modLink b f).staged = s.staged := rfl
@[simp] theorem State.modLink_ev (s : State) (b : Nat) (f : Link → Link) : (s.modLink b f).ev = s.ev := rfl
@[simp] theorem State.modLink_rst (s : State) (b : Nat) (f : Link → Link) : (s.modLink b f).rst = s.rst := rfl
@[simp] theorem State.modLink_fab (s : State) (b : Nat) (f : Link → Link) : (s.modLink b f).fab = s.fab := rfl
@[simp] theorem State.modLink_lib (s : State) (b : Nat) (f : Link → Link) : (s.modLink b f).lib = s.lib := rfl
@[simp] theorem State.modLink_integ (s : State) (b : Nat) (f : Link → Link) : (s.modLink b f).integ = s.integ := rfl
@[simp] theorem State.modLink_grt (s : State) (b : Nat) (f : Link → Link) : (s.modLink b f).grt = s.grt := rfl
@[simp] theorem State.modLink_que (s : State) (b : Nat) (f : Link → Link) : (s.modLink b f).que = s.que := rfl
@[simp] theorem State.modLink_arb (s : State) (b : Nat) (f : Link → Link) : (s.modLink b f).arb = s.arb := rfl
@[simp] theorem State.modLink_pci (s : State) (b : Nat) (f : Link → Link) : (s.modLink b f).pci = s.pci := rfl
@[simp] theorem State.modLink_xlt (s : State) (b : Nat) (f : Link → Link) : (s.modLink b f).xlt = s.xlt := rfl
@[simp] theorem State.modLink_cry (s : State) (b : Nat) (f : Link → Link) : (s.modLink b f).cry = s.cry := rfl
@[simp] theorem State.modLink_cfg (s : State) (b : Nat) (f : Link → Link) : (s.modLink b f).cfg = s.cfg := rfl
@[simp] theorem State.modLink_net (s : State) (b : Nat) (f : Link → Link) : (s.modLink b f).net = s.net := rfl
@[simp] theorem State.modLink_twn (s : State) (b : Nat) (f : Link → Link) : (s.modLink b f).twn = s.twn := rfl
@[simp] theorem State.modLink_lys (s : State) (b : Nat) (f : Link → Link) : (s.modLink b f).lys = s.lys := rfl
@[simp] theorem State.modLink_pin (s : State) (b : Nat) (f : Link → Link) : (s.modLink b f).pin = s.pin := rfl
@[simp] theorem State.modLink_seed (s : State) (b : Nat) (f : Link → Link) : (s.modLink b f).seed = s.seed := rfl
@[simp] theorem State.modLink_out (s : State) (b : Nat) (f : Link → Link) : (s.modLink b f).out = s.out := rfl

@[simp] theorem State.modLane_pending (s : State) (b k : Nat) (f : Lane → Lane) : (s.modLane b k f).pending = s.pending := rfl
@[simp] theorem State.modLane_regs (s : State) (b k : Nat) (f : Lane → Lane) : (s.modLane b k f).regs = s.regs := rfl
@[simp] theorem State.modLane_captures (s : State) (b k : Nat) (f : Lane → Lane) : (s.modLane b k f).captures = s.captures := rfl
@[simp] theorem State.modLane_staged (s : State) (b k : Nat) (f : Lane → Lane) : (s.modLane b k f).staged = s.staged := rfl
@[simp] theorem State.modLane_ev (s : State) (b k : Nat) (f : Lane → Lane) : (s.modLane b k f).ev = s.ev := rfl
@[simp] theorem State.modLane_rst (s : State) (b k : Nat) (f : Lane → Lane) : (s.modLane b k f).rst = s.rst := rfl
@[simp] theorem State.modLane_fab (s : State) (b k : Nat) (f : Lane → Lane) : (s.modLane b k f).fab = s.fab := rfl
@[simp] theorem State.modLane_lib (s : State) (b k : Nat) (f : Lane → Lane) : (s.modLane b k f).lib = s.lib := rfl
@[simp] theorem State.modLane_integ (s : State) (b k : Nat) (f : Lane → Lane) : (s.modLane b k f).integ = s.integ := rfl
@[simp] theorem State.modLane_grt (s : State) (b k : Nat) (f : Lane → Lane) : (s.modLane b k f).grt = s.grt := rfl
@[simp] theorem State.modLane_que (s : State) (b k : Nat) (f : Lane → Lane) : (s.modLane b k f).que = s.que := rfl
@[simp] theorem State.modLane_arb (s : State) (b k : Nat) (f : Lane → Lane) : (s.modLane b k f).arb = s.arb := rfl
@[simp] theorem State.modLane_pci (s : State) (b k : Nat) (f : Lane → Lane) : (s.modLane b k f).pci = s.pci := rfl
@[simp] theorem State.modLane_xlt (s : State) (b k : Nat) (f : Lane → Lane) : (s.modLane b k f).xlt = s.xlt := rfl
@[simp] theorem State.modLane_cry (s : State) (b k : Nat) (f : Lane → Lane) : (s.modLane b k f).cry = s.cry := rfl
@[simp] theorem State.modLane_cfg (s : State) (b k : Nat) (f : Lane → Lane) : (s.modLane b k f).cfg = s.cfg := rfl
@[simp] theorem State.modLane_net (s : State) (b k : Nat) (f : Lane → Lane) : (s.modLane b k f).net = s.net := rfl
@[simp] theorem State.modLane_twn (s : State) (b k : Nat) (f : Lane → Lane) : (s.modLane b k f).twn = s.twn := rfl
@[simp] theorem State.modLane_lys (s : State) (b k : Nat) (f : Lane → Lane) : (s.modLane b k f).lys = s.lys := rfl
@[simp] theorem State.modLane_pin (s : State) (b k : Nat) (f : Lane → Lane) : (s.modLane b k f).pin = s.pin := rfl
@[simp] theorem State.modLane_seed (s : State) (b k : Nat) (f : Lane → Lane) : (s.modLane b k f).seed = s.seed := rfl
@[simp] theorem State.modLane_out (s : State) (b k : Nat) (f : Lane → Lane) : (s.modLane b k f).out = s.out := rfl

@[simp] theorem State.modKey_pending (s : State) (k : Nat) (f : KeyEntry → KeyEntry) : (s.modKey k f).pending = s.pending := rfl
@[simp] theorem State.modKey_regs (s : State) (k : Nat) (f : KeyEntry → KeyEntry) : (s.modKey k f).regs = s.regs := rfl
@[simp] theorem State.modKey_captures (s : State) (k : Nat) (f : KeyEntry → KeyEntry) : (s.modKey k f).captures = s.captures := rfl
@[simp] theorem State.modKey_staged (s : State) (k : Nat) (f : KeyEntry → KeyEntry) : (s.modKey k f).staged = s.staged := rfl
@[simp] theorem State.modKey_ev (s : State) (k : Nat) (f : KeyEntry → KeyEntry) : (s.modKey k f).ev = s.ev := rfl
@[simp] theorem State.modKey_rst (s : State) (k : Nat) (f : KeyEntry → KeyEntry) : (s.modKey k f).rst = s.rst := rfl
@[simp] theorem State.modKey_fab (s : State) (k : Nat) (f : KeyEntry → KeyEntry) : (s.modKey k f).fab = s.fab := rfl
@[simp] theorem State.modKey_lib (s : State) (k : Nat) (f : KeyEntry → KeyEntry) : (s.modKey k f).lib = s.lib := rfl
@[simp] theorem State.modKey_integ (s : State) (k : Nat) (f : KeyEntry → KeyEntry) : (s.modKey k f).integ = s.integ := rfl
@[simp] theorem State.modKey_grt (s : State) (k : Nat) (f : KeyEntry → KeyEntry) : (s.modKey k f).grt = s.grt := rfl
@[simp] theorem State.modKey_que (s : State) (k : Nat) (f : KeyEntry → KeyEntry) : (s.modKey k f).que = s.que := rfl
@[simp] theorem State.modKey_arb (s : State) (k : Nat) (f : KeyEntry → KeyEntry) : (s.modKey k f).arb = s.arb := rfl
@[simp] theorem State.modKey_pci (s : State) (k : Nat) (f : KeyEntry → KeyEntry) : (s.modKey k f).pci = s.pci := rfl
@[simp] theorem State.modKey_xlt (s : State) (k : Nat) (f : KeyEntry → KeyEntry) : (s.modKey k f).xlt = s.xlt := rfl
@[simp] theorem State.modKey_cfg (s : State) (k : Nat) (f : KeyEntry → KeyEntry) : (s.modKey k f).cfg = s.cfg := rfl
@[simp] theorem State.modKey_gvl (s : State) (k : Nat) (f : KeyEntry → KeyEntry) : (s.modKey k f).gvl = s.gvl := rfl
@[simp] theorem State.modKey_net (s : State) (k : Nat) (f : KeyEntry → KeyEntry) : (s.modKey k f).net = s.net := rfl
@[simp] theorem State.modKey_twn (s : State) (k : Nat) (f : KeyEntry → KeyEntry) : (s.modKey k f).twn = s.twn := rfl
@[simp] theorem State.modKey_lys (s : State) (k : Nat) (f : KeyEntry → KeyEntry) : (s.modKey k f).lys = s.lys := rfl
@[simp] theorem State.modKey_pin (s : State) (k : Nat) (f : KeyEntry → KeyEntry) : (s.modKey k f).pin = s.pin := rfl
@[simp] theorem State.modKey_seed (s : State) (k : Nat) (f : KeyEntry → KeyEntry) : (s.modKey k f).seed = s.seed := rfl
@[simp] theorem State.modKey_out (s : State) (k : Nat) (f : KeyEntry → KeyEntry) : (s.modKey k f).out = s.out := rfl

@[simp] theorem State.setReg_pending (s : State) (off : Nat) (v : Word) : (s.setReg off v).pending = s.pending := rfl
@[simp] theorem State.setReg_captures (s : State) (off : Nat) (v : Word) : (s.setReg off v).captures = s.captures := rfl
@[simp] theorem State.setReg_staged (s : State) (off : Nat) (v : Word) : (s.setReg off v).staged = s.staged := rfl
@[simp] theorem State.setReg_ev (s : State) (off : Nat) (v : Word) : (s.setReg off v).ev = s.ev := rfl
@[simp] theorem State.setReg_rst (s : State) (off : Nat) (v : Word) : (s.setReg off v).rst = s.rst := rfl
@[simp] theorem State.setReg_fab (s : State) (off : Nat) (v : Word) : (s.setReg off v).fab = s.fab := rfl
@[simp] theorem State.setReg_lib (s : State) (off : Nat) (v : Word) : (s.setReg off v).lib = s.lib := rfl
@[simp] theorem State.setReg_integ (s : State) (off : Nat) (v : Word) : (s.setReg off v).integ = s.integ := rfl
@[simp] theorem State.setReg_grt (s : State) (off : Nat) (v : Word) : (s.setReg off v).grt = s.grt := rfl
@[simp] theorem State.setReg_que (s : State) (off : Nat) (v : Word) : (s.setReg off v).que = s.que := rfl
@[simp] theorem State.setReg_arb (s : State) (off : Nat) (v : Word) : (s.setReg off v).arb = s.arb := rfl
@[simp] theorem State.setReg_pci (s : State) (off : Nat) (v : Word) : (s.setReg off v).pci = s.pci := rfl
@[simp] theorem State.setReg_xlt (s : State) (off : Nat) (v : Word) : (s.setReg off v).xlt = s.xlt := rfl
@[simp] theorem State.setReg_cry (s : State) (off : Nat) (v : Word) : (s.setReg off v).cry = s.cry := rfl
@[simp] theorem State.setReg_cfg (s : State) (off : Nat) (v : Word) : (s.setReg off v).cfg = s.cfg := rfl
@[simp] theorem State.setReg_gvl (s : State) (off : Nat) (v : Word) : (s.setReg off v).gvl = s.gvl := rfl
@[simp] theorem State.setReg_net (s : State) (off : Nat) (v : Word) : (s.setReg off v).net = s.net := rfl
@[simp] theorem State.setReg_twn (s : State) (off : Nat) (v : Word) : (s.setReg off v).twn = s.twn := rfl
@[simp] theorem State.setReg_lys (s : State) (off : Nat) (v : Word) : (s.setReg off v).lys = s.lys := rfl
@[simp] theorem State.setReg_pin (s : State) (off : Nat) (v : Word) : (s.setReg off v).pin = s.pin := rfl
@[simp] theorem State.setReg_seed (s : State) (off : Nat) (v : Word) : (s.setReg off v).seed = s.seed := rfl
@[simp] theorem State.setReg_out (s : State) (off : Nat) (v : Word) : (s.setReg off v).out = s.out := rfl

@[simp] theorem State.setRegF_pending (s : State) (off lo len v : Nat) : (s.setRegF off lo len v).pending = s.pending := rfl
@[simp] theorem State.setRegF_captures (s : State) (off lo len v : Nat) : (s.setRegF off lo len v).captures = s.captures := rfl
@[simp] theorem State.setRegF_staged (s : State) (off lo len v : Nat) : (s.setRegF off lo len v).staged = s.staged := rfl
@[simp] theorem State.setRegF_ev (s : State) (off lo len v : Nat) : (s.setRegF off lo len v).ev = s.ev := rfl
@[simp] theorem State.setRegF_rst (s : State) (off lo len v : Nat) : (s.setRegF off lo len v).rst = s.rst := rfl
@[simp] theorem State.setRegF_fab (s : State) (off lo len v : Nat) : (s.setRegF off lo len v).fab = s.fab := rfl
@[simp] theorem State.setRegF_lib (s : State) (off lo len v : Nat) : (s.setRegF off lo len v).lib = s.lib := rfl
@[simp] theorem State.setRegF_integ (s : State) (off lo len v : Nat) : (s.setRegF off lo len v).integ = s.integ := rfl
@[simp] theorem State.setRegF_grt (s : State) (off lo len v : Nat) : (s.setRegF off lo len v).grt = s.grt := rfl
@[simp] theorem State.setRegF_que (s : State) (off lo len v : Nat) : (s.setRegF off lo len v).que = s.que := rfl
@[simp] theorem State.setRegF_arb (s : State) (off lo len v : Nat) : (s.setRegF off lo len v).arb = s.arb := rfl
@[simp] theorem State.setRegF_pci (s : State) (off lo len v : Nat) : (s.setRegF off lo len v).pci = s.pci := rfl
@[simp] theorem State.setRegF_xlt (s : State) (off lo len v : Nat) : (s.setRegF off lo len v).xlt = s.xlt := rfl
@[simp] theorem State.setRegF_cry (s : State) (off lo len v : Nat) : (s.setRegF off lo len v).cry = s.cry := rfl
@[simp] theorem State.setRegF_cfg (s : State) (off lo len v : Nat) : (s.setRegF off lo len v).cfg = s.cfg := rfl
@[simp] theorem State.setRegF_gvl (s : State) (off lo len v : Nat) : (s.setRegF off lo len v).gvl = s.gvl := rfl
@[simp] theorem State.setRegF_net (s : State) (off lo len v : Nat) : (s.setRegF off lo len v).net = s.net := rfl
@[simp] theorem State.setRegF_twn (s : State) (off lo len v : Nat) : (s.setRegF off lo len v).twn = s.twn := rfl
@[simp] theorem State.setRegF_lys (s : State) (off lo len v : Nat) : (s.setRegF off lo len v).lys = s.lys := rfl
@[simp] theorem State.setRegF_pin (s : State) (off lo len v : Nat) : (s.setRegF off lo len v).pin = s.pin := rfl
@[simp] theorem State.setRegF_seed (s : State) (off lo len v : Nat) : (s.setRegF off lo len v).seed = s.seed := rfl
@[simp] theorem State.setRegF_out (s : State) (off lo len v : Nat) : (s.setRegF off lo len v).out = s.out := rfl

@[simp] theorem State.send_pending (s : State) (x : Out) : (s.send x).pending = s.pending := rfl
@[simp] theorem State.send_regs (s : State) (x : Out) : (s.send x).regs = s.regs := rfl
@[simp] theorem State.send_captures (s : State) (x : Out) : (s.send x).captures = s.captures := rfl
@[simp] theorem State.send_staged (s : State) (x : Out) : (s.send x).staged = s.staged := rfl
@[simp] theorem State.send_ev (s : State) (x : Out) : (s.send x).ev = s.ev := rfl
@[simp] theorem State.send_rst (s : State) (x : Out) : (s.send x).rst = s.rst := rfl
@[simp] theorem State.send_fab (s : State) (x : Out) : (s.send x).fab = s.fab := rfl
@[simp] theorem State.send_lib (s : State) (x : Out) : (s.send x).lib = s.lib := rfl
@[simp] theorem State.send_integ (s : State) (x : Out) : (s.send x).integ = s.integ := rfl
@[simp] theorem State.send_grt (s : State) (x : Out) : (s.send x).grt = s.grt := rfl
@[simp] theorem State.send_que (s : State) (x : Out) : (s.send x).que = s.que := rfl
@[simp] theorem State.send_arb (s : State) (x : Out) : (s.send x).arb = s.arb := rfl
@[simp] theorem State.send_pci (s : State) (x : Out) : (s.send x).pci = s.pci := rfl
@[simp] theorem State.send_xlt (s : State) (x : Out) : (s.send x).xlt = s.xlt := rfl
@[simp] theorem State.send_cry (s : State) (x : Out) : (s.send x).cry = s.cry := rfl
@[simp] theorem State.send_cfg (s : State) (x : Out) : (s.send x).cfg = s.cfg := rfl
@[simp] theorem State.send_gvl (s : State) (x : Out) : (s.send x).gvl = s.gvl := rfl
@[simp] theorem State.send_net (s : State) (x : Out) : (s.send x).net = s.net := rfl
@[simp] theorem State.send_twn (s : State) (x : Out) : (s.send x).twn = s.twn := rfl
@[simp] theorem State.send_lys (s : State) (x : Out) : (s.send x).lys = s.lys := rfl
@[simp] theorem State.send_pin (s : State) (x : Out) : (s.send x).pin = s.pin := rfl
@[simp] theorem State.send_seed (s : State) (x : Out) : (s.send x).seed = s.seed := rfl

@[simp] theorem State.fresh_pending (s : State)  : (s.fresh).pending = s.pending := rfl
@[simp] theorem State.fresh_regs (s : State)  : (s.fresh).regs = s.regs := rfl
@[simp] theorem State.fresh_captures (s : State)  : (s.fresh).captures = s.captures := rfl
@[simp] theorem State.fresh_staged (s : State)  : (s.fresh).staged = s.staged := rfl
@[simp] theorem State.fresh_ev (s : State)  : (s.fresh).ev = s.ev := rfl
@[simp] theorem State.fresh_rst (s : State)  : (s.fresh).rst = s.rst := rfl
@[simp] theorem State.fresh_fab (s : State)  : (s.fresh).fab = s.fab := rfl
@[simp] theorem State.fresh_lib (s : State)  : (s.fresh).lib = s.lib := rfl
@[simp] theorem State.fresh_integ (s : State)  : (s.fresh).integ = s.integ := rfl
@[simp] theorem State.fresh_grt (s : State)  : (s.fresh).grt = s.grt := rfl
@[simp] theorem State.fresh_que (s : State)  : (s.fresh).que = s.que := rfl
@[simp] theorem State.fresh_arb (s : State)  : (s.fresh).arb = s.arb := rfl
@[simp] theorem State.fresh_pci (s : State)  : (s.fresh).pci = s.pci := rfl
@[simp] theorem State.fresh_xlt (s : State)  : (s.fresh).xlt = s.xlt := rfl
@[simp] theorem State.fresh_cry (s : State)  : (s.fresh).cry = s.cry := rfl
@[simp] theorem State.fresh_cfg (s : State)  : (s.fresh).cfg = s.cfg := rfl
@[simp] theorem State.fresh_gvl (s : State)  : (s.fresh).gvl = s.gvl := rfl
@[simp] theorem State.fresh_net (s : State)  : (s.fresh).net = s.net := rfl
@[simp] theorem State.fresh_twn (s : State)  : (s.fresh).twn = s.twn := rfl
@[simp] theorem State.fresh_lys (s : State)  : (s.fresh).lys = s.lys := rfl
@[simp] theorem State.fresh_pin (s : State)  : (s.fresh).pin = s.pin := rfl
@[simp] theorem State.fresh_out (s : State)  : (s.fresh).out = s.out := rfl

@[simp] theorem State.send_out (s : State) (x : Out) : (s.send x).out = s.out ++ [x] := rfl
@[simp] theorem State.fresh_seed (s : State) : s.fresh.seed = s.seed + 1 := rfl
@[simp] theorem State.when_true (s : State) (f : State → State) : s.when true f = f s := rfl
@[simp] theorem State.when_false (s : State) (f : State → State) : s.when false f = s := rfl

end Sys2Proof.Machine
end

