-- ==== Sys2Proof/Laws/Tab.lean ====
section
/-! SUPPORT. Laws of sparse tables: a read after a write, and that a write keeps the canonical form. -/

namespace Sys2Proof.Machine

/-- Keys strictly rising: every key of the table is above the one before it. -/
theorem tabWf_cons {α : Type} [DecidableEq α] (d : α) (k : Nat) (v : α) (t : List (Nat × α)) :
    tabWf d ((k, v) :: t) = true ↔ v ≠ d ∧ (∀ p ∈ t, k < p.1) ∧ tabWf d t = true := by
  induction t generalizing k v with
  | nil => simp [tabWf]
  | cons p t ih =>
    obtain ⟨k', v'⟩ := p
    simp only [tabWf, Bool.and_eq_true, decide_eq_true_eq, List.mem_cons, forall_eq_or_imp]
    constructor
    · rintro ⟨⟨h1, h2⟩, h3⟩
      exact ⟨h1, ⟨h2, fun p hp => Nat.lt_trans h2 (((ih k' v').1 h3).2.1 p hp)⟩, h3⟩
    · rintro ⟨h1, ⟨h2, _⟩, h3⟩
      exact ⟨⟨h1, h2⟩, h3⟩

/-- An unlisted key reads as the default. -/
theorem tabGet_of_notMem {α : Type} (d : α) (t : List (Nat × α)) (k : Nat) (h : ∀ p ∈ t, p.1 ≠ k) : tabGet d t k = d := by
  induction t with
  | nil => rfl
  | cons p t ih =>
    obtain ⟨k', v⟩ := p
    have h1 := h (k', v) (by simp)
    simp only [tabGet]
    rw [if_neg (fun e => h1 e.symm)]
    exact ih fun p hp => h p (by simp [hp])

/-- A read of a key that was just removed. -/
@[simp] theorem tabGet_tabDel_same {α : Type} (d : α) (t : List (Nat × α)) (k : Nat) : tabGet d (tabDel t k) k = d :=
  tabGet_of_notMem d _ k fun p hp => by
    simp only [tabDel, List.mem_filter, bne_iff_ne] at hp
    exact hp.2

/-- Removing a key leaves every other key alone. -/
theorem tabGet_tabDel_other {α : Type} (d : α) (t : List (Nat × α)) (k j : Nat) (h : j ≠ k) :
    tabGet d (tabDel t k) j = tabGet d t j := by
  induction t with
  | nil => rfl
  | cons p t ih =>
    obtain ⟨k', v⟩ := p
    unfold tabDel at ih ⊢
    by_cases hk : k' = k
    · subst hk
      simp only [List.filter_cons, bne_self_eq_false, Bool.false_eq_true, if_false, tabGet, if_neg h]
      exact ih
    · simp only [List.filter_cons, bne_iff_ne, ne_eq, hk, not_false_eq_true, if_true, tabGet]
      rw [ih]

/-- A read of a key that was just inserted into a table without it. -/
theorem tabGet_tabIns_same {α : Type} (d : α) (t : List (Nat × α)) (k : Nat) (v : α) (h : ∀ p ∈ t, p.1 ≠ k) :
    tabGet d (tabIns k v t) k = v := by
  induction t with
  | nil => simp [tabIns, tabGet]
  | cons p t ih =>
    obtain ⟨k', v'⟩ := p
    have h1 := h (k', v') (by simp)
    simp only [tabIns]
    split
    · simp [tabGet]
    · simp only [tabGet]
      rw [if_neg (fun e => h1 e.symm)]
      exact ih fun p hp => h p (by simp [hp])

/-- Inserting a key leaves every other key alone. -/
theorem tabGet_tabIns_other {α : Type} (d : α) (t : List (Nat × α)) (k j : Nat) (v : α) (h : j ≠ k) :
    tabGet d (tabIns k v t) j = tabGet d t j := by
  induction t with
  | nil => simp [tabIns, tabGet, h]
  | cons p t ih =>
    obtain ⟨k', v'⟩ := p
    simp only [tabIns]
    split
    · simp [tabGet, h]
    · simp only [tabGet]
      rw [ih]

/-- A read after a write to the same key gives the value written. -/
@[simp] theorem tabGet_tabSet_same {α : Type} [DecidableEq α] (d : α) (t : List (Nat × α)) (k : Nat) (v : α) :
    tabGet d (tabSet d t k v) k = v := by
  unfold tabSet
  split
  · next h => rw [tabGet_tabDel_same, h]
  · exact tabGet_tabIns_same d _ k v fun p hp => by
      simp only [tabDel, List.mem_filter, bne_iff_ne] at hp
      exact hp.2

/-- A write leaves every other key alone. -/
theorem tabGet_tabSet_other {α : Type} [DecidableEq α] (d : α) (t : List (Nat × α)) (k j : Nat) (v : α) (h : j ≠ k) :
    tabGet d (tabSet d t k v) j = tabGet d t j := by
  unfold tabSet
  split
  · exact tabGet_tabDel_other d t k j h
  · rw [tabGet_tabIns_other d _ k j v h, tabGet_tabDel_other d t k j h]

/-- A write leaves every other key alone, whatever each key's own default is. -/
theorem tabGet_tabSet_otherDefault {α : Type} [DecidableEq α] (d d' : α) (t : List (Nat × α)) (k j : Nat) (v : α)
    (h : j ≠ k) : tabGet d' (tabSet d t k v) j = tabGet d' t j := by
  unfold tabSet
  split
  · exact tabGet_tabDel_other d' t k j h
  · rw [tabGet_tabIns_other d' _ k j v h, tabGet_tabDel_other d' t k j h]

/-- A read after a write, at any key. -/
theorem tabGet_tabSet {α : Type} [DecidableEq α] (d : α) (t : List (Nat × α)) (k j : Nat) (v : α) :
    tabGet d (tabSet d t k v) j = if j = k then v else tabGet d t j := by
  split
  · next h => subst h; simp
  · next h => exact tabGet_tabSet_other d t k j v h

@[simp] theorem tabGet_tabMod_same {α : Type} [DecidableEq α] (d : α) (t : List (Nat × α)) (k : Nat) (f : α → α) :
    tabGet d (tabMod d t k f) k = f (tabGet d t k) := by simp [tabMod]

/-- A change at one key leaves every other key as it was. -/
theorem tabGet_tabMod_other {α : Type} [DecidableEq α] (d : α) (t : List (Nat × α)) (k j : Nat) (f : α → α) (h : j ≠ k) :
    tabGet d (tabMod d t k f) j = tabGet d t j := by simp [tabMod, tabGet_tabSet_other d t k j _ h]

/-- Removing a key keeps the canonical form. -/
theorem tabWf_tabDel {α : Type} [DecidableEq α] (d : α) (t : List (Nat × α)) (k : Nat) (h : tabWf d t = true) :
    tabWf d (tabDel t k) = true := by
  induction t with
  | nil => exact h
  | cons p t ih =>
    obtain ⟨k', v⟩ := p
    rw [tabWf_cons] at h
    obtain ⟨h1, h2, h3⟩ := h
    unfold tabDel at ih ⊢
    simp only [List.filter_cons]
    split
    · rw [tabWf_cons]
      exact ⟨h1, fun p hp => h2 p (List.mem_filter.1 hp).1, ih h3⟩
    · exact ih h3

/-- Inserting a new key keeps the canonical form. -/
theorem tabWf_tabIns {α : Type} [DecidableEq α] (d : α) (t : List (Nat × α)) (k : Nat) (v : α) (hv : v ≠ d)
    (hk : ∀ p ∈ t, p.1 ≠ k) (h : tabWf d t = true) : tabWf d (tabIns k v t) = true := by
  induction t with
  | nil => simp [tabIns, tabWf, hv]
  | cons p t ih =>
    obtain ⟨k', v'⟩ := p
    have h' := h
    rw [tabWf_cons] at h
    obtain ⟨h1, h2, h3⟩ := h
    have hne := hk (k', v') (by simp)
    simp only [tabIns]
    split
    · next hlt =>
      rw [tabWf_cons]
      refine ⟨hv, fun p hp => ?_, h'⟩
      rcases List.mem_cons.1 hp with rfl | hp
      · exact hlt
      · exact Nat.lt_trans hlt (h2 p hp)
    · next hlt =>
      rw [tabWf_cons]
      have hlt' : k' < k := by
        have : k' ≠ k := hne
        omega
      refine ⟨h1, fun p hp => ?_, ih (fun p hp => hk p (by simp [hp])) h3⟩
      have hm : p = (k, v) ∨ p ∈ t := by
        clear ih h' h2 h3 hk
        induction t with
        | nil => simpa [tabIns] using hp
        | cons q t ih2 =>
          obtain ⟨k2, v2⟩ := q
          simp only [tabIns] at hp
          split at hp
          · simpa using hp
          · rcases List.mem_cons.1 hp with rfl | hp
            · simp
            · rcases ih2 hp with h | h
              · exact Or.inl h
              · exact Or.inr (by simp [h])
      rcases hm with rfl | hm
      · exact hlt'
      · exact h2 p hm

/-- A write keeps the canonical form. -/
theorem tabWf_tabSet {α : Type} [DecidableEq α] (d : α) (t : List (Nat × α)) (k : Nat) (v : α) (h : tabWf d t = true) :
    tabWf d (tabSet d t k v) = true := by
  unfold tabSet
  split
  · exact tabWf_tabDel d t k h
  · next hv =>
    refine tabWf_tabIns d _ k v hv (fun p hp => ?_) (tabWf_tabDel d t k h)
    simp only [tabDel, List.mem_filter, bne_iff_ne] at hp
    exact hp.2

/-- A change of one value keeps the canonical form. -/
theorem tabWf_tabMod {α : Type} [DecidableEq α] (d : α) (t : List (Nat × α)) (k : Nat) (f : α → α) (h : tabWf d t = true) :
    tabWf d (tabMod d t k f) = true := tabWf_tabSet d t k _ h

/-- A write of consecutive values keeps the canonical form. -/
theorem tabWf_tabPuts {α : Type} [DecidableEq α] (d : α) (t : List (Nat × α)) (k : Nat) (l : List α)
    (h : tabWf d t = true) : tabWf d (tabPuts d t k l) = true := by
  induction l generalizing t k with
  | nil => exact h
  | cons v l ih => exact ih _ _ (tabWf_tabSet d t k v h)

end Sys2Proof.Machine
end

