-- ==== Sys2Proof/Laws/Ops.lean ====
section
/-! SUPPORT. What the shared operations of Machine/Ops.lean do: raising an event, registers by field. -/

namespace Sys2Proof.Machine

/-- An inserted event is there. -/
theorem mem_evInsert (e x : Event) (l : List Event) : x ∈ evInsert e l ↔ x = e ∨ x ∈ l := by
  induction l with
  | nil => simp [evInsert]
  | cons y l ih =>
    simp only [evInsert]
    split
    · simp
    · simp only [List.mem_cons, ih]
      tauto

/-- An MSI-X message goes out on the link or stays pending in the table. -/
theorem sendMsix_eq (vec : Nat) (s : State) :
    sendMsix vec s = { s with pci := (sendMsix vec s).pci, out := (sendMsix vec s).out } := by
  unfold sendMsix
  split
  · rfl
  · split <;> rfl

/-- Lysata's vector does no more. -/
theorem sendLysVector_eq (code : Nat) (s : State) :
    sendLysVector code s = { s with pci := (sendLysVector code s).pci, out := (sendLysVector code s).out } := by
  unfold sendLysVector State.when
  split
  · exact sendMsix_eq _ s
  · rfl

/-- Raising an event changes Echo's raised events, the links and the MSI-X pending bits at most. -/
theorem raise_eq (code : Nat) (fields : List Nat) (s : State) :
    raise code fields s =
      { s with ev := (raise code fields s).ev, pci := (raise code fields s).pci, out := (raise code fields s).out } := by
  unfold raise
  rw [sendLysVector_eq]
  rfl

/-- The raised events after a raise. -/
@[simp] theorem raise_ev (code : Nat) (fields : List Nat) (s : State) :
    (raise code fields s).ev = { s.ev with raised := evInsert ⟨code, fields, s.now⟩ s.ev.raised } := by
  unfold raise
  rw [sendLysVector_eq]
  rfl

/-- What stands raised after a raise. -/
@[simp] theorem mem_raise (code : Nat) (fields : List Nat) (s : State) (e : Event) :
    e ∈ (raise code fields s).ev.raised ↔ e = ⟨code, fields, s.now⟩ ∨ e ∈ s.ev.raised := by
  simp [mem_evInsert]

@[simp] theorem raise_pending (code : Nat) (fields : List Nat) (s : State) : (raise code fields s).pending = s.pending := by
  rw [raise_eq]
@[simp] theorem raise_regs (code : Nat) (fields : List Nat) (s : State) : (raise code fields s).regs = s.regs := by
  rw [raise_eq]
@[simp] theorem raise_captures (code : Nat) (fields : List Nat) (s : State) : (raise code fields s).captures = s.captures := by
  rw [raise_eq]
@[simp] theorem raise_staged (code : Nat) (fields : List Nat) (s : State) : (raise code fields s).staged = s.staged := by
  rw [raise_eq]
@[simp] theorem raise_rst (code : Nat) (fields : List Nat) (s : State) : (raise code fields s).rst = s.rst := by
  rw [raise_eq]
@[simp] theorem raise_fab (code : Nat) (fields : List Nat) (s : State) : (raise code fields s).fab = s.fab := by
  rw [raise_eq]
@[simp] theorem raise_lib (code : Nat) (fields : List Nat) (s : State) : (raise code fields s).lib = s.lib := by
  rw [raise_eq]
@[simp] theorem raise_integ (code : Nat) (fields : List Nat) (s : State) : (raise code fields s).integ = s.integ := by
  rw [raise_eq]
@[simp] theorem raise_grt (code : Nat) (fields : List Nat) (s : State) : (raise code fields s).grt = s.grt := by
  rw [raise_eq]
@[simp] theorem raise_que (code : Nat) (fields : List Nat) (s : State) : (raise code fields s).que = s.que := by
  rw [raise_eq]
@[simp] theorem raise_arb (code : Nat) (fields : List Nat) (s : State) : (raise code fields s).arb = s.arb := by
  rw [raise_eq]
@[simp] theorem raise_xlt (code : Nat) (fields : List Nat) (s : State) : (raise code fields s).xlt = s.xlt := by
  rw [raise_eq]
@[simp] theorem raise_cry (code : Nat) (fields : List Nat) (s : State) : (raise code fields s).cry = s.cry := by
  rw [raise_eq]
@[simp] theorem raise_cfg (code : Nat) (fields : List Nat) (s : State) : (raise code fields s).cfg = s.cfg := by
  rw [raise_eq]
@[simp] theorem raise_gvl (code : Nat) (fields : List Nat) (s : State) : (raise code fields s).gvl = s.gvl := by
  rw [raise_eq]
@[simp] theorem raise_net (code : Nat) (fields : List Nat) (s : State) : (raise code fields s).net = s.net := by
  rw [raise_eq]
@[simp] theorem raise_twn (code : Nat) (fields : List Nat) (s : State) : (raise code fields s).twn = s.twn := by
  rw [raise_eq]
@[simp] theorem raise_lys (code : Nat) (fields : List Nat) (s : State) : (raise code fields s).lys = s.lys := by
  rw [raise_eq]
@[simp] theorem raise_pin (code : Nat) (fields : List Nat) (s : State) : (raise code fields s).pin = s.pin := by
  rw [raise_eq]
@[simp] theorem raise_seed (code : Nat) (fields : List Nat) (s : State) : (raise code fields s).seed = s.seed := by
  rw [raise_eq]
@[simp] theorem raise_now (code : Nat) (fields : List Nat) (s : State) : (raise code fields s).now = s.now := by
  simp [State.now]

/-- The stored bits of a register after a write of it. -/
@[simp] theorem setReg_reg_same (s : State) (off : Nat) (v : Word) : (s.setReg off v).reg off = v := by
  simp [State.reg, State.setReg]

/-- Applying an operation to each element keeps what every application keeps. -/
theorem forEach_keeps {α : Type} (P : State → Prop) (l : List α) (f : α → State → State)
    (hf : ∀ a s, P s → P (f a s)) (s : State) (h : P s) : P (forEach l f s) := by
  unfold forEach
  induction l generalizing s with
  | nil => exact h
  | cons a l ih => exact ih _ (hf a s h)

end Sys2Proof.Machine
end

