-- ==== Sys2Proof/Laws/Registers.lean ====
section
/-! SUPPORT. What a write of one register does once its checks have passed: the refusals and the twin pair's rule are
said here once. -/

namespace Sys2Proof.Machine

/-- Outside the LIB block no closed fence aborts a register access (R39). -/
theorem accessStopped_out (s : State) (off : Nat) (h : off < 0x6_0000 ∨ 0x7_0000 ≤ off) : accessStopped s off = false := by
  unfold accessStopped fenceAborts managementStopped
  rcases h with h | h
  · rw [decide_eq_false (by omega)]; rfl
  · rw [decide_eq_false (p := off < 0x7_0000) (by omega)]; simp

/-- A whole write of a register of its own, outside a pair's blocks or at a SOLO device, that no rule refuses. -/
theorem writeReg_plain (who : Requester) (off : Nat) (v : Word) (s : State)
    (hpair : pairBlock off = false ∨ s.twn.role = 0) (hp1 : (regDesc off).pair ≠ 1) (hp2 : (regDesc off).pair ≠ 2)
    (hr : writeRefusal s (Requester.code who) off 0 v = none) (hf : off < 0x6_0000 ∨ 0x7_0000 ≤ off := by omega) :
    writeReg who off 0xF v s = performWrite who off 0 v (pinSequence who off s) := by
  have h1 : ¬ (s.twn.role = 2 ∧ pairBlock off = true) := by
    rintro ⟨a, b⟩
    rcases hpair with h | h <;> simp_all
  have h2 : ¬ (s.twn.role = 1 ∧ pairBlock off = true) := by
    rintro ⟨a, b⟩
    rcases hpair with h | h <;> simp_all
  unfold writeReg write32 writeWhole
  rw [accessStopped_out s off hf, if_neg (by decide), if_neg h1, if_neg (fun h => h.1 rfl), if_neg h2]
  simp only [if_neg hp1, if_neg hp2, hr]

/-- A write that a rule refuses raises the refused-write event of its owner and does nothing else (R8, R9). -/
theorem writeReg_refused (who : Requester) (off : Nat) (v : Word) (s : State) (reason : Nat)
    (hpair : pairBlock off = false ∨ s.twn.role = 0) (hp1 : (regDesc off).pair ≠ 1) (hp2 : (regDesc off).pair ≠ 2)
    (hr : writeRefusal s (Requester.code who) off 0 v = some reason)
    (hf : off < 0x6_0000 ∨ 0x7_0000 ≤ off := by omega) :
    writeReg who off 0xF v s = raiseRefused (eventOwner off) off who reason (pinSequence who off s) := by
  have h1 : ¬ (s.twn.role = 2 ∧ pairBlock off = true) := by
    rintro ⟨a, b⟩
    rcases hpair with h | h <;> simp_all
  have h2 : ¬ (s.twn.role = 1 ∧ pairBlock off = true) := by
    rintro ⟨a, b⟩
    rcases hpair with h | h <;> simp_all
  unfold writeReg write32 writeWhole
  rw [accessStopped_out s off hf, if_neg (by decide), if_neg h1, if_neg (fun h => h.1 rfl), if_neg h2]
  simp only [if_neg hp1, if_neg hp2, hr]

/-- Outside the PIN block a write leaves the lock sequences alone. -/
theorem pinSequence_other (who : Requester) (off : Nat) (s : State) (h : off < 0xE_0000 ∨ 0xF_0000 ≤ off) :
    pinSequence who off s = s := by
  unfold pinSequence
  rw [if_neg]
  omega

/-- A register without RWL bits refuses nothing for them. -/
theorem changesRwl_none (s : State) (who off : Nat) (v : Word) (h : (regDesc off).rwl = 0) : changesRwl s who off v = false := by
  simp [changesRwl, h]

/-- A register of its own with no enumerated fields, no RWL bits and no rule against the value refuses nothing. -/
theorem writeRefusal_none (s : State) (who off : Nat) (v : Word) (he : badEnum (regDesc off) v = false)
    (hp2 : (regDesc off).pair ≠ 2) (hl : (regDesc off).rwl = 0) (hb : badByRule s off 0 v = false) :
    writeRefusal s who off 0 v = none := by
  have hb' : badByRule s off 0#32 v = false := hb
  unfold writeRefusal badFields
  simp [he, hp2, hb', changesRwl_none s who off v hl]

end Sys2Proof.Machine
end

