-- ==== Sys2Proof/Laws/Safe.lean ====
section
/-! SUPPORT. What a detected device fault and an event in the way of another do to the state. -/

namespace Sys2Proof.Machine

/-- A device fault at a device that is no twin, under the fault action REPORT (R631, Table Lysata-1). -/
theorem deviceFault_report (code : Nat) (s : State) (h : s.twinStart = false) (ha : s.regF 0x1_0004 30 2 = 0) :
    deviceFault code s = raise 0x0D0C [code, 0] (s.modLys fun l => { l with devfault := true }) := by
  simp [deviceFault, h, ha]

/-- The twin link is closed: nothing is sent on it. -/
theorem sendTwin_closed (kind : Nat) (bytes : List Byte) (s : State) (h : s.twinUp = false) : sendTwin kind bytes s = s := by
  simp [sendTwin, h]

/-- Writing a register leaves every other one alone. -/
theorem setReg_reg_other (s : State) (off o : Nat) (v : Word) (h : o ≠ off) : (s.setReg off v).reg o = s.reg o := by
  simp [State.reg, State.setReg, tabGet_tabSet_otherDefault _ _ _ _ _ _ h]

end Sys2Proof.Machine
end

