-- ==== Sys2Proof/Laws/Commands.lean ====
section
/-! SUPPORT. What each command that is a write of one register amounts to at a SOLO device: the operation of its chapter.
The statements about these commands then speak of that operation alone. -/

namespace Sys2Proof.Machine

/-- A register of its own without RWL bits, outside the PIN block, to which no rule objects. -/
theorem writeReg_op (who : Requester) (off : Nat) (v : Word) (s : State) (d : RegDesc) (hd : regDesc off = d)
    (hp : d.pair = 0) (hl : d.rwl = 0) (he : badEnum d v = false) (hb : badByRule s off 0 v = false)
    (ho : off < 0xE_0000 ∨ 0xF_0000 ≤ off) (hpair : pairBlock off = false ∨ s.twn.role = 0)
    (hf : off < 0x6_0000 ∨ 0x7_0000 ≤ off := by omega) :
    writeReg who off 0xF v s = performWrite who off 0 v s := by
  subst hd
  rw [writeReg_plain who off v s hpair (by omega) (by omega) (writeRefusal_none s _ off v he (by omega) hl hb) hf,
    pinSequence_other who off s ho]

/- ### Layouts -/

/-- The layout of a chamber's registers. -/
theorem regDesc_chm (c o : Nat) (hc : c < 512) (ho : o < 256) : regDesc (chmReg c o) = chmDesc c o := by
  have h : chmReg c o = 0x4_0000 + c * 256 + o := rfl
  have h1 : (chmReg c o - 0x4_0000) / 0x100 = c := by omega
  have h2 : chmReg c o % 0x100 = o := by omega
  unfold regDesc
  iterate 3 rw [if_neg (by omega)]
  rw [if_pos (by omega), h1, h2]

/-- The layout of a queue's registers. -/
theorem regDesc_que (q o : Nat) (hq : q < 256) (ho : o < 256) : regDesc (queReg q o) = queDesc o := by
  have h : queReg q o = 0x8_0000 + q * 256 + o := rfl
  have h2 : queReg q o % 0x100 = o := by omega
  unfold regDesc
  iterate 6 rw [if_neg (by omega)]
  rw [if_pos (by omega), h2]

/-- The layout of a bundle's registers. -/
theorem regDesc_gvl (b o : Nat) (hb : b < 8) (ho : o < 0x200) : regDesc (gvlReg b o) = laneDesc o := by
  have h : gvlReg b o = 0xB_0000 + b * 4096 + o := rfl
  have h2 : gvlReg b o % 0x1000 = o := by omega
  unfold regDesc
  iterate 9 rw [if_neg (by omega)]
  rw [if_pos (by omega), h2, if_pos ho]

/-- The layout of the switch groups' FIRE registers. -/
theorem regDesc_fire (g : Nat) (hg : g < 16) : regDesc (grpReg g 4) = {} := by
  have h : grpReg g 4 = 0x2_0100 + g * 16 + 4 := rfl
  unfold regDesc
  iterate 2 rw [if_neg (by omega)]
  rw [if_pos (by omega)]
  unfold fabDesc
  iterate 2 rw [if_neg (by omega)]

/-- The layout of the bank mode registers. -/
theorem regDesc_grp (n : Nat) (hn : n < 256) : regDesc (grpModeReg n) = { rw := 0x1F00_FFFF } := by
  have h : grpModeReg n = 0x7_1000 + 4 * n := rfl
  unfold regDesc
  iterate 5 rw [if_neg (by omega)]
  rw [if_pos (by omega)]
  unfold grtDesc
  rw [if_pos (by omega)]

/-- The layout of the segment mode registers. -/
theorem regDesc_seg (k : Nat) (hk : k < 4) : regDesc (0x7_2000 + 4 * k) = { rw := 0xFFFF_FFFF } := by
  unfold regDesc
  iterate 5 rw [if_neg (by omega)]
  rw [if_pos (by omega)]
  unfold grtDesc
  rw [if_neg (by omega), if_pos (by omega)]

/-- No register stands in a kick page. -/
theorem regDesc_kick (q o : Nat) : regDesc (kickPage q + o) = {} := by
  have h : kickPage q = 0x10_0000 + q * 4096 := rfl
  unfold regDesc
  iterate 15 rw [if_neg (by omega)]

/- ### Lysata -/

/-- LYS_PWR with a TARGET that exists (R8). -/
theorem writeReg_pwr (who : Requester) (v : Word) (s : State) (h : fld v 29 3 ≤ 5) :
    writeReg who 0x1_0008 0xF v s = pwrWritten (storeReg 0x1_0008 v s) :=
  writeReg_op who 0x1_0008 v s { rw := 0xE000_0000, enums := [(29, 3, 0, 5)] } rfl rfl rfl
    (by simp [badEnum]; omega) rfl (.inl (by decide)) (.inl rfl)

/-- LYS_RST. -/
theorem writeReg_rst (who : Requester) (v : Word) (s : State) : writeReg who 0x1_0018 0xF v s = requestResets v s :=
  writeReg_op who 0x1_0018 v s {} rfl rfl rfl rfl rfl (.inl (by decide)) (.inl rfl)

/-- LYS_TP_OPEN with OPEN = 1. -/
theorem writeReg_tpOpen (who : Requester) (s : State) : writeReg who 0x1_0100 0xF (mkBit 31 true) s = ticketOpen who s :=
  writeReg_op who 0x1_0100 (mkBit 31 true) s {} rfl rfl rfl rfl rfl (.inl (by decide)) (.inl rfl)

/-- LYS_TP_SVAL. -/
theorem writeReg_tpSval (who : Requester) (v : Word) (s : State) : writeReg who 0x1_010C 0xF v s = ticketStage who v s :=
  writeReg_op who 0x1_010C v s {} rfl rfl rfl rfl rfl (.inl (by decide)) (.inl rfl)

/-- LYS_MB_CMD. -/
theorem writeReg_mbCmd (who : Requester) (v : Word) (s : State) :
    writeReg who 0x1_0200 0xF v s = mailboxCommand who (fld v 24 8) (fld v 0 24) s :=
  writeReg_op who 0x1_0200 v s {} rfl rfl rfl rfl rfl (.inl (by decide)) (.inl rfl)

/- ### Fabric and chambers -/

/-- CHM_CMD with an operation that exists (R8, R158). -/
theorem writeReg_chmCmd (who : Requester) (c : Nat) (hc : c < 512) (v : Word) (s : State) (h0 : fld v 30 2 ≠ 0)
    (hr : s.twn.role = 0) :
    writeReg who (chmReg c 0x08) 0xF v s = acceptCmd c (fld v 30 2) (fld v 0 2) (bit v 2) none s := by
  have h : chmReg c 8 = 0x4_0000 + c * 256 + 8 := rfl
  have hd := regDesc_chm c 8 hc (by decide)
  have h2 : chmReg c 8 % 0x100 = 8 := by omega
  rw [writeReg_op who (chmReg c 8) v s {} (by rw [hd]; rfl) rfl rfl rfl ?_ (.inl (by omega)) (.inr hr)]
  · unfold performWrite
    simp only [show ¬ (regDesc (chmReg c 8)).pair = 2 by rw [hd]; show ¬ (0 : Nat) = 2; decide, if_false]
    iterate 3 rw [if_neg (by omega)]
    rw [if_pos (by omega)]
    unfold chmWrite
    simp only [h2, show chmOf (chmReg c 8) = c by unfold chmOf; omega]
  · unfold badByRule
    iterate 2 rw [if_neg (by omega)]
    rw [if_pos (by omega)]
    simp [h0]

/-- CHM_CTRL. -/
theorem writeReg_chmCtrl (who : Requester) (c : Nat) (hc : c < 512) (v : Word) (s : State) (hr : s.twn.role = 0) :
    writeReg who (chmReg c 0x04) 0xF v s = chmCtrlWrite c v s := by
  have h : chmReg c 4 = 0x4_0000 + c * 256 + 4 := rfl
  have hd := regDesc_chm c 4 hc (by decide)
  have h2 : chmReg c 4 % 0x100 = 4 := by omega
  rw [writeReg_op who (chmReg c 4) v s { rw := 0xFE00_001F } (by rw [hd]; rfl) rfl rfl rfl ?_ (.inl (by omega)) (.inr hr)]
  · unfold performWrite
    simp only [show ¬ (regDesc (chmReg c 4)).pair = 2 by rw [hd]; show ¬ (0 : Nat) = 2; decide, if_false]
    iterate 3 rw [if_neg (by omega)]
    rw [if_pos (by omega)]
    unfold chmWrite
    simp only [h2, show chmOf (chmReg c 4) = c by unfold chmOf; omega]
  · unfold badByRule
    iterate 2 rw [if_neg (by omega)]
    rw [if_pos (by omega)]
    simp [inChm, inGrp, h2]
    omega

/-- CHM_SDATA. -/
theorem writeReg_sdata (who : Requester) (c : Nat) (hc : c < 512) (v : Word) (s : State) (hr : s.twn.role = 0) :
    writeReg who (chmReg c 0x18) 0xF v s = autoInc (chmReg c 0x14) 6 64
      (s.modChm c fun x => { x with sched := tabSet 0 x.sched (s.regF (chmReg c 0x14) 0 6) v }) := by
  have h : chmReg c 0x18 = 0x4_0000 + c * 256 + 0x18 := rfl
  have hd := regDesc_chm c 0x18 hc (by decide)
  have h2 : chmReg c 0x18 % 0x100 = 0x18 := by omega
  rw [writeReg_op who (chmReg c 0x18) v s {} (by rw [hd]; rfl) rfl rfl rfl ?_ (.inl (by omega)) (.inr hr)]
  · unfold performWrite
    simp only [show ¬ (regDesc (chmReg c 0x18)).pair = 2 by rw [hd]; show ¬ (0 : Nat) = 2; decide, if_false]
    iterate 3 rw [if_neg (by omega)]
    rw [if_pos (by omega)]
    unfold chmWrite
    simp only [h2, show chmOf (chmReg c 0x18) = c by unfold chmOf; omega]
  · unfold badByRule
    iterate 2 rw [if_neg (by omega)]
    rw [if_pos (by omega)]
    simp [inChm, inGrp, h2]
    omega

/-- FAB_GRPg_FIRE with an operation that exists (R8, R162). -/
theorem writeReg_fire (who : Requester) (g : Nat) (hg : g < 16) (v : Word) (s : State) (h0 : fld v 30 2 ≠ 0)
    (hr : s.twn.role = 0) :
    writeReg who (grpReg g 0x04) 0xF v s = acceptFire g (fld v 30 2) none s := by
  have h : grpReg g 4 = 0x2_0100 + g * 16 + 4 := rfl
  have hd := regDesc_fire g hg
  rw [writeReg_op who (grpReg g 4) v s {} hd rfl rfl rfl ?_ (.inl (by omega)) (.inr hr)]
  · unfold performWrite
    simp only [show ¬ (regDesc (grpReg g 4)).pair = 2 by rw [hd]; decide, if_false]
    iterate 2 rw [if_neg (by omega)]
    rw [if_pos (by omega)]
    unfold fabWrite
    rw [if_pos (by simp [inGrp]; omega), show (grpReg g 4 - 0x2_0100) / 0x10 = g by omega]
  · unfold badByRule
    iterate 2 rw [if_neg (by omega)]
    rw [if_pos (by omega)]
    simp [h0]

/- ### Grotto -/

/-- GRT_GRPn. -/
theorem writeReg_grp (who : Requester) (n : Nat) (hn : n < 256) (v : Word) (s : State) (hr : s.twn.role = 0) :
    writeReg who (grpModeReg n) 0xF v s = grtGrpWrite n v s := by
  have h : grpModeReg n = 0x7_1000 + 4 * n := rfl
  have hd := regDesc_grp n hn
  rw [writeReg_op who (grpModeReg n) v s { rw := 0x1F00_FFFF } hd rfl rfl rfl ?_ (.inl (by omega)) (.inr hr)]
  · unfold performWrite
    simp only [show ¬ (regDesc (grpModeReg n)).pair = 2 by rw [hd]; decide, if_false]
    iterate 5 rw [if_neg (by omega)]
    rw [if_pos (by omega)]
    unfold grtWrite
    simp only []
    rw [if_pos (by omega), show (grpModeReg n - 0x7_0000 - 0x1000) / 4 = n by omega]
  · unfold badByRule
    iterate 4 rw [if_neg (by omega)]
    rw [if_pos (by omega)]
    unfold badGrt
    iterate 2 rw [if_neg (by omega)]

/-- GRT_CTRL. -/
theorem writeReg_grtCtrl (who : Requester) (v : Word) (s : State) (hr : s.twn.role = 0) :
    writeReg who 0x7_0004 0xF v s = grtCtrlWrite v s :=
  writeReg_op who 0x7_0004 v s { rw := 0xC000_0000, reset := 0x8000_0000 } rfl rfl rfl rfl rfl (.inl (by decide)) (.inr hr)

/-- GRT_V2SEGk without an undefined mode. -/
theorem writeReg_seg (who : Requester) (k : Nat) (hk : k < 4) (v : Word) (s : State) (hr : s.twn.role = 0)
    (hv : ((List.range 16).any fun j => fld v (2 * j) 2 == 3) = false) :
    writeReg who (0x7_2000 + 4 * k) 0xF v s = grtSegWrite k v s := by
  have hd := regDesc_seg k hk
  rw [writeReg_op who (0x7_2000 + 4 * k) v s { rw := 0xFFFF_FFFF } hd rfl rfl rfl ?_ (.inl (by omega)) (.inr hr)]
  · unfold performWrite
    simp only [show ¬ (regDesc (0x7_2000 + 4 * k)).pair = 2 by rw [hd]; decide, if_false]
    iterate 5 rw [if_neg (by omega)]
    rw [if_pos (by omega)]
    unfold grtWrite
    simp only []
    rw [if_neg (by omega), if_pos (by omega), show (0x7_2000 + 4 * k - 0x7_0000 - 0x2000) / 4 = k by omega]
  · unfold badByRule
    iterate 4 rw [if_neg (by omega)]
    rw [if_pos (by omega)]
    unfold badGrt
    rw [if_neg (by omega), if_pos (by omega), hv]
    simp

/- ### Queues and translation -/

/-- A kick page. -/
theorem writeReg_kick (who : Requester) (q : Nat) (hq : q < 256) (o : Nat) (ho : o < 4096) (v : Word) (s : State)
    (hr : s.twn.role = 0) : writeReg who (kickPage q + o) 0xF v s = kickWrite who q o s := by
  have h : kickPage q = 0x10_0000 + q * 4096 := rfl
  have hd := regDesc_kick q o
  rw [writeReg_op who (kickPage q + o) v s {} hd rfl rfl rfl ?_ (.inr (by omega)) (.inr hr)]
  · unfold performWrite
    simp only [show ¬ (regDesc (kickPage q + o)).pair = 2 by rw [hd]; decide, if_false]
    iterate 14 rw [if_neg (by omega)]
    rw [show (kickPage q + o - 0x10_0000) / 0x1000 = q by omega,
      show (kickPage q + o) % 0x1000 = o by omega]
  · unfold badByRule
    iterate 11 rw [if_neg (by omega)]

/-- QUE_CTRL. -/
theorem writeReg_queCtrl (who : Requester) (q : Nat) (hq : q < 256) (v : Word) (s : State) (hr : s.twn.role = 0) :
    writeReg who (queReg q 0) 0xF v s = queCtrlWritten q v (storeReg (queReg q 0) v s) := by
  have h : queReg q 0 = 0x8_0000 + q * 256 + 0 := rfl
  have hd := regDesc_que q 0 hq (by decide)
  rw [writeReg_op who (queReg q 0) v s { rw := 0xF800_03FF } (by rw [hd]; rfl) rfl rfl rfl ?_ (.inl (by omega)) (.inr hr)]
  · unfold performWrite
    simp only [show ¬ (regDesc (queReg q 0)).pair = 2 by rw [hd]; decide, if_false]
    iterate 6 rw [if_neg (by omega)]
    rw [if_pos (by omega), if_pos (by omega), show queOf (queReg q 0) = q by unfold queOf; omega]
  · unfold badByRule
    iterate 5 rw [if_neg (by omega)]
    rw [if_pos (by omega)]

/-- XLT_INV_CMD with a scope. -/
theorem writeReg_inv (who : Requester) (v : Word) (s : State) (h0 : fld v 30 2 ≠ 0) (hr : s.twn.role = 0) :
    writeReg who 0x9_0028 0xF v s = invCommand (fld v 30 2) (fld v 16 8) (fld v 0 16) s :=
  writeReg_op who 0x9_0028 v s {} rfl rfl rfl rfl (by show (fld v 30 2 == 0) = false; simp [h0]) (.inl (by decide)) (.inr hr)

/-- XLT_FCTRL. -/
theorem writeReg_fctrl (who : Requester) (v : Word) (s : State) (hr : s.twn.role = 0) :
    writeReg who 0x9_0004 0xF v s = fctrlWritten (s.reg 0x9_0004) v (storeReg 0x9_0004 v s) :=
  writeReg_op who 0x9_0004 v s { rw := 0xC000_01FF } rfl rfl rfl rfl rfl (.inl (by decide)) (.inr hr)

/-- XLT_QACT on a queue that has something to abandon (R390). -/
theorem writeReg_qact (who : Requester) (v : Word) (s : State) (hb : badXlt s 0x9_0058 v = false) (hr : s.twn.role = 0) :
    writeReg who 0x9_0058 0xF v s = abandonQueue (fld v 0 8) s :=
  writeReg_op who 0x9_0058 v s {} rfl rfl rfl rfl hb (.inl (by decide)) (.inr hr)

/- ### Bundles -/

/-- GVL_Bb_CTRL with an equaliser mode that exists. -/
theorem writeReg_gvlCtrl (who : Requester) (b : Nat) (hb : b < 8) (v : Word) (s : State) (hv : fld v 26 2 ≤ 2)
    (hr : s.twn.role = 0) :
    writeReg who (gvlReg b 0) 0xF v s = ctrlWritten b (s.reg (gvlReg b 0)) v (storeReg (gvlReg b 0) v s) := by
  have h : gvlReg b 0 = 0xB_0000 + b * 4096 + 0 := rfl
  have hd := regDesc_gvl b 0 hb (by decide)
  have h2 : gvlReg b 0 % 0x1000 = 0 := by omega
  rw [writeReg_op who (gvlReg b 0) v s { rw := 0xBC00_0000, enums := [(26, 2, 0, 2)] } (by rw [hd]; rfl) rfl rfl
    (by simp [badEnum]; omega) ?_ (.inl (by omega)) (.inr hr)]
  · unfold performWrite
    simp only [show ¬ (regDesc (gvlReg b 0)).pair = 2 by rw [hd]; decide, if_false]
    iterate 9 rw [if_neg (by omega)]
    rw [if_pos (by omega)]
    unfold gvlWrite
    rw [if_pos (by omega)]
    simp only [h2, show (gvlReg b 0 - 0xB_0000) / 0x1000 = b by omega]
  · unfold badByRule
    iterate 7 rw [if_neg (by omega)]
    rw [if_pos (by omega)]

/-- GVL_Bb_TEST with a pattern that exists. -/
theorem writeReg_gvlTest (who : Requester) (b : Nat) (hb : b < 8) (v : Word) (s : State) (hv : fld v 29 3 ≤ 4)
    (hr : s.twn.role = 0) :
    writeReg who (gvlReg b 0x20) 0xF v s = testWritten b v (storeReg (gvlReg b 0x20) v s) := by
  have h : gvlReg b 0x20 = 0xB_0000 + b * 4096 + 0x20 := rfl
  have hd := regDesc_gvl b 0x20 hb (by decide)
  have h2 : gvlReg b 0x20 % 0x1000 = 0x20 := by omega
  rw [writeReg_op who (gvlReg b 0x20) v s { rw := 0xEFF0_0000, reset := 0x8000_0000, enums := [(29, 3, 0, 4)] }
    (by rw [hd]; rfl) rfl rfl (by simp [badEnum]; omega) ?_ (.inl (by omega)) (.inr hr)]
  · unfold performWrite
    simp only [show ¬ (regDesc (gvlReg b 0x20)).pair = 2 by rw [hd]; decide, if_false]
    iterate 9 rw [if_neg (by omega)]
    rw [if_pos (by omega)]
    unfold gvlWrite
    rw [if_pos (by omega)]
    simp only [h2, show (gvlReg b 0x20 - 0xB_0000) / 0x1000 = b by omega]
  · unfold badByRule
    iterate 7 rw [if_neg (by omega)]
    rw [if_pos (by omega)]

/-- GVL_NET_SRDATA. -/
theorem writeReg_srdata (who : Requester) (v : Word) (s : State) (hr : s.twn.role = 0) :
    writeReg who 0xB_802C 0xF v s = srdataWritten v s :=
  writeReg_op who 0xB_802C v s {} rfl rfl rfl rfl rfl (.inl (by decide)) (.inr hr)

/- ### Brynerek, Echo, pins -/

/-- TWN_CMD REJOIN at a device that is ALONE (R621). -/
theorem writeReg_rejoin (who : Requester) (s : State) (h : s.twn.pstate = 3) :
    writeReg who 0xC_0010 0xF (mkFld 30 2 1) s = rejoinCommand s :=
  writeReg_op who 0xC_0010 (mkFld 30 2 1) s {} rfl rfl rfl rfl
    (by show (!(fld (mkFld 30 2 1) 30 2 == 1 && s.twn.pstate == 3)) = false; rw [h]; rfl) (.inl (by decide)) (.inl rfl)

/-- ECH_CMD with an operation. -/
theorem writeReg_ech (who : Requester) (v : Word) (s : State) (h0 : fld v 30 2 ≠ 0) :
    writeReg who 0xD_0004 0xF v s = echWrite 0xD_0004 v s :=
  writeReg_op who 0xD_0004 v s {} rfl rfl rfl rfl (by show (0xD_0004 == 0xD_0004 && fld v 30 2 == 0) = false; simp [h0]) (.inl (by decide))
    (.inl rfl)

/-- PIN_LOCK. -/
theorem writeReg_pinLock (who : Requester) (v : Word) (s : State) :
    writeReg who 0xE_0004 0xF v s = lockWrite who (BitVec.ofNat 8 (fld v 24 8)) (BitVec.ofNat 5 (fld v 0 5)) s := by
  rw [writeReg_plain who 0xE_0004 v s (.inl rfl) (by decide) (by decide)
    (writeRefusal_none s _ 0xE_0004 v rfl (by decide) rfl ?_)]
  · rfl
  · show badPin s 0xE_0004 v = false
    unfold badPin
    have h : lockMaskOf 0xE_0004 = 0 := rfl
    simp [h]

/-- PIN_SVC_SET, PIN_SVC_CLR and PIN_SVC_TGL while the USER pins' group is not locked (R737, R750). -/
theorem writeReg_svcSet (who : Requester) (v : Word) (s : State) (h : bit s.pin.locked 1 = false) :
    writeReg who 0xE_0024 0xF v s =
      (breakLock who s).modPin fun p => { p with user := p.user ||| BitVec.ofNat 4 (fld v 12 4) } := by
  rw [writeReg_plain who 0xE_0024 v s (.inl rfl) (by decide) (by decide)
    (writeRefusal_none s _ 0xE_0024 v rfl (by decide) rfl ?_)]
  · rfl
  · show badPin s 0xE_0024 v = false
    unfold badPin
    have hm : lockMaskOf 0xE_0024 = 0b00010 := rfl
    have hz : (2#5 &&& s.pin.locked) = 0#5 := by
      revert h
      generalize s.pin.locked = l
      revert l
      decide
    simp [hm, hz]

/-- PIN_SVC_CLR while the USER group is not locked. -/
theorem writeReg_svcClr (who : Requester) (v : Word) (s : State) (h : bit s.pin.locked 1 = false) :
    writeReg who 0xE_0028 0xF v s =
      (breakLock who s).modPin fun p => { p with user := p.user &&& ~~~BitVec.ofNat 4 (fld v 12 4) } := by
  rw [writeReg_plain who 0xE_0028 v s (.inl rfl) (by decide) (by decide)
    (writeRefusal_none s _ 0xE_0028 v rfl (by decide) rfl ?_)]
  · rfl
  · show badPin s 0xE_0028 v = false
    unfold badPin
    have hm : lockMaskOf 0xE_0028 = 0b00010 := rfl
    have hz : (2#5 &&& s.pin.locked) = 0#5 := by
      revert h
      generalize s.pin.locked = l
      revert l
      decide
    simp [hm, hz]

/-- PIN_SVC_TGL while the USER group is not locked. -/
theorem writeReg_svcTgl (who : Requester) (v : Word) (s : State) (h : bit s.pin.locked 1 = false) :
    writeReg who 0xE_002C 0xF v s =
      (breakLock who s).modPin fun p => { p with user := p.user ^^^ BitVec.ofNat 4 (fld v 12 4) } := by
  rw [writeReg_plain who 0xE_002C v s (.inl rfl) (by decide) (by decide)
    (writeRefusal_none s _ 0xE_002C v rfl (by decide) rfl ?_)]
  · rfl
  · show badPin s 0xE_002C v = false
    unfold badPin
    have hm : lockMaskOf 0xE_002C = 0b00010 := rfl
    have hz : (2#5 &&& s.pin.locked) = 0#5 := by
      revert h
      generalize s.pin.locked = l
      revert l
      decide
    simp [hm, hz]

/- ### Pairs -/

/-- The staged half of a pair is found where it was just put. -/
theorem findHalf_stageHalf (s : State) (w off : Nat) (v : Word) : findHalf (stageHalf w off v s).staged w off = some v := by
  simp [stageHalf, findHalf]

/-- Dropping a half twice is dropping it once. -/
theorem dropHalf_cons (l : List Half) (w off : Nat) (v : Word) :
    dropHalf (⟨w, off, v⟩ :: dropHalf l w off) w off = dropHalf l w off := by
  simp [dropHalf]

/-- The state in which a pair's write takes effect: its staged half is used up (R6). -/
def stagedUsed (who : Requester) (off : Nat) (s : State) : State :=
  { s with staged := dropHalf s.staged (Requester.code who) off }

/-- A _LO write and then a _HI write of one pair act together on the state without the staged half (R5, R6). -/
theorem writeReg_pair (who : Requester) (off : Nat) (lo v : Word) (s : State) (h1 : (regDesc off).pair = 1)
    (h2 : (regDesc (off + 4)).pair = 2) (hs : stages off = true)
    (hpair : (pairBlock off = false ∧ pairBlock (off + 4) = false) ∨ s.twn.role = 0)
    (hf : accessStopped s off = false) (hf4 : accessStopped s (off + 4) = false) :
    writeReg who (off + 4) 0xF v (writeReg who off 0xF lo s) =
      writeWhole who (off + 4) (off + 4) lo v (stagedUsed who off s) := by
  have e1 : writeReg who off 0xF lo s = stageHalf (Requester.code who) off lo s := by
    unfold writeReg write32
    rw [hf, if_neg (by decide), if_neg (by rintro ⟨a, b⟩; rcases hpair with ⟨h, _⟩ | h <;> simp_all),
      if_neg (fun h => h.1 rfl), if_neg (by rintro ⟨a, b⟩; rcases hpair with ⟨h, _⟩ | h <;> simp_all)]
    simp only [h1, hs, if_true]
  rw [e1]
  have hr : (stageHalf (Requester.code who) off lo s).twn = s.twn := rfl
  have hg : accessStopped (stageHalf (Requester.code who) off lo s) (off + 4) = false := hf4
  unfold writeReg write32
  rw [hg, hr, if_neg (by decide), if_neg (by rintro ⟨a, b⟩; rcases hpair with ⟨_, h⟩ | h <;> simp_all),
    if_neg (fun h => h.1 rfl), if_neg (by rintro ⟨a, b⟩; rcases hpair with ⟨_, h⟩ | h <;> simp_all)]
  have e2 : loHalf (Requester.code who) (off + 4) (stageHalf (Requester.code who) off lo s) =
      (lo, stagedUsed who off s) := by
    unfold loHalf
    rw [Nat.add_sub_cancel, findHalf_stageHalf]
    simp only [stageHalf, stagedUsed, dropHalf_cons]
  rw [if_neg (by omega), if_pos h2, e2]

/-- Both halves of LIB_RQ with an operation that exists (Table Library-11). -/
theorem writeReg_lib (who : Requester) (lo v : Word) (s : State) (h1 : 1 ≤ fld lo 0 4) (h6 : fld lo 0 4 ≤ 6)
    (hr : s.twn.role = 0) (hc : s.fenced 2 = false)
    (hm : managementDown s 3 = false ∧ managementDown s 2 = false) :
    writeReg who 0x6_0014 0xF v (writeReg who 0x6_0010 0xF lo s) =
      libAccept (libRequest lo v) (storeReg 0x6_0010 lo (stagedUsed who 0x6_0010 s)) := by
  have hf : ∀ o, accessStopped s o = false := fun o => by simp [accessStopped, fenceAborts, managementStopped, hc, hm]
  rw [writeReg_pair who 0x6_0010 lo v s rfl rfl rfl (.inr hr) (hf _) (hf _)]
  have e : writeRefusal (stagedUsed who 0x6_0010 s) (Requester.code who) 0x6_0014 lo v = none := by
    have hb : badByRule (stagedUsed who 0x6_0010 s) 0x6_0014 lo v = false := by
      show (0x6_0014 == 0x6_0014 && !(decide (1 ≤ fld lo 0 4) && decide (fld lo 0 4 ≤ 6))) = false
      simp [h1, h6]
    have hf : badFields (stagedUsed who 0x6_0010 s) 0x6_0014 lo v = false := rfl
    unfold writeRefusal
    rw [hb, hf, changesRwl_none _ _ _ _ rfl]
    simp [changesRwl_none _ _ 0x6_0010 _ rfl]
  unfold writeWhole
  rw [e]
  rfl

/-- Both halves of LYS_TP_COMMIT: COMMIT (R652). -/
theorem writeReg_tpCommit (who : Requester) (lo v : Word) (s : State) (h : fld v 30 2 = 1) :
    writeReg who 0x1_0124 0xF v (writeReg who 0x1_0120 0xF lo s) =
      ticketCommit who lo (fld v 0 16) (storeReg 0x1_0120 lo (stagedUsed who 0x1_0120 s)) := by
  rw [writeReg_pair who 0x1_0120 lo v s rfl rfl rfl (.inl ⟨rfl, rfl⟩) rfl rfl]
  have e : writeRefusal (stagedUsed who 0x1_0120 s) (Requester.code who) 0x1_0124 lo v = none := by
    have hb : badByRule (stagedUsed who 0x1_0120 s) 0x1_0124 lo v = false := by
      show (!(fld v 30 2 == 1 || fld v 30 2 == 2)) = false
      simp [h]
    have hf : badFields (stagedUsed who 0x1_0120 s) 0x1_0124 lo v = false := rfl
    unfold writeRefusal
    rw [hb, hf, changesRwl_none _ _ _ _ rfl]
    simp [changesRwl_none _ _ 0x1_0120 _ rfl]
  unfold writeWhole
  rw [e]
  show (if fld v 30 2 = 1 then _ else _) = _
  rw [if_pos h]
  rfl

/-- Storing into a register that holds no bits changes no register. -/
theorem storeReg_none (off : Nat) (v : Word) (s : State) (h : (regDesc off).rw = 0) (o : Nat) :
    (storeReg off v s).reg o = s.reg o := by
  unfold storeReg storedAfter
  rw [h]
  by_cases ho : o = off
  · subst ho
    rw [setReg_reg_same]
    show (s.reg o &&& BitVec.allOnes 32) ||| (v &&& 0#32) = s.reg o
    rw [BitVec.and_allOnes, BitVec.and_zero, BitVec.or_zero]
  · exact setReg_reg_other s off o _ ho

/-- LYS_TP_COMMIT's high half alone, with ABORT (R653): the ticket operation on a state that differs in staged halves. -/
theorem writeReg_tpAbort (who : Requester) (v : Word) (s : State) (h : fld v 30 2 = 2) :
    ∃ lo l, writeReg who 0x1_0124 0xF v s = ticketAbort who (fld v 0 16) (storeReg 0x1_0120 lo { s with staged := l }) := by
  have e : ∃ lo l, loHalf (Requester.code who) 0x1_0124 s = (lo, { s with staged := l }) := by
    unfold loHalf
    split
    · exact ⟨_, _, rfl⟩
    · exact ⟨_, s.staged, rfl⟩
  obtain ⟨lo, l, e⟩ := e
  refine ⟨lo, l, ?_⟩
  have er : writeRefusal { s with staged := l } (Requester.code who) 0x1_0124 lo v = none := by
    have hb : badByRule { s with staged := l } 0x1_0124 lo v = false := by
      show (!(fld v 30 2 == 1 || fld v 30 2 == 2)) = false
      simp [h]
    have hf : badFields { s with staged := l } 0x1_0124 lo v = false := rfl
    unfold writeRefusal
    rw [hb, hf, changesRwl_none _ _ _ _ rfl]
    simp [changesRwl_none _ _ 0x1_0120 _ rfl]
  unfold writeReg write32
  rw [show accessStopped s 0x1_0124 = false from rfl, if_neg (by decide),
    if_neg (by rintro ⟨_, b⟩; exact absurd b (by decide)), if_neg (fun h => h.1 rfl),
    if_neg (by rintro ⟨_, b⟩; exact absurd b (by decide)), if_neg (by decide), if_pos (by decide), e]
  simp only []
  unfold writeWhole
  rw [er]
  show (if fld v 30 2 = 1 then _ else _) = _
  rw [if_neg (by omega)]
  rfl

end Sys2Proof.Machine
end

