-- ==== Sys2Proof/WellFormed.lean ====
section
/-! DEFINITION. Which commands are well-formed: the bounds of their operands that their types do not carry already.
Register offsets are aligned and lie in BAR0's 2 MiB (R2, R15); lists have the lengths the rules give. -/

namespace Sys2Proof

/-- A register offset: aligned to 4 bytes, inside BAR0 (R2, R15). -/
def regOff (off : Nat) : Bool := decide (off % 4 = 0) && decide (off < 0x20_0000)

/-- The offset of a register access: inside BAR0, or inside BAR4's 64 KiB laid after it (log 95). -/
def accOff (off : Nat) : Bool := decide (off % 4 = 0) && decide (off < 0x21_0000)

/-- Sizes that the function's capabilities allow (Table Queues-1): powers of two from 128 bytes on. -/
def PcieProg.wellFormed (p : PcieProg) : Bool :=
  [128, 256, 512].contains p.maxPayload && [128, 256, 512, 1024, 2048, 4096].contains p.maxRead

/-- The offset of a _LO register: a multiple of 8 (R2). -/
def loOff (off : Nat) : Bool := decide (off % 8 = 0) && decide (off < 0x20_0000)

/-- The offset of a _HI register: the offset after a _LO register (R2). -/
def hiOff (off : Nat) : Bool := decide (off % 8 = 4) && decide (off < 0x20_0000)

/-- The operands of a command are inside the bounds of its rules. -/
def Instr.wellFormed : Instr → Bool
  | .registerWrite _ off _ _ => accOff off
  | .loWriteStage _ off _ => loOff off
  | .hiWriteCommit _ off _ => hiOff off
  | .loReadCapture _ off => loOff off
  | .pairAccess64 off _ => loOff off
  | .splitAccess64 off _ _ => loOff off
  | .rcRead _ off => accOff off
  | .bar2ReservedAccess _ off => decide (0x1800_0000 ≤ off) && decide (off < 0x2000_0000)
  | .linkStateChange _ _ _ _ _ prog => prog.wellFormed
  | .tick env => decide (env.sensors.length = 56) && decide (env.rails.length = 7) && decide (env.diePower.length = 5) && decide (env.vdet.length = 16) && decide (env.analogue.length = 16)
  | .powerOn board => decide (board.vdet.length = 16)
  | .flashBurstCapture _ addr bytes => decide (addr + bytes.length ≤ 0x1_0000_0000)
  | .bar2Write off be data _ => decide (be.length = data.length) && decide (off + data.length ≤ 0x1800_0000)
  | .bar2Read off len _ => decide (off + len ≤ 0x1800_0000)
  | .fetchDataArrive _ descs => decide (descs.length ≤ 32)
  | .walkComplete _ _ entries _ => decide (entries.length ≤ 4)
  | .adaptWindowEnd _ _ density _ _ _ => decide (density ≤ 100)
  | .retrainBurstEnd _ margins => decide (margins.length = 8)
  | .markerSend _ bip => decide (bip.length = 8)
  | .flitReceive _ bytes _ => decide (bytes.length = 64)
  | .spiReadFrame mosi => decide (mosi.length ≤ 16)
  | .spiWriteFrame mosi => decide (mosi.length ≤ 16)
  | .dbgRegrd off => regOff off
  | .dbgRegwr off _ => regOff off
  | .dbgBufrd addr => decide (addr < 4096)
  | .dbgGrtrd off _ => decide (off % 4 = 0) && decide (off < 0x0800_0000)
  | .dbgGrtwr off _ _ => decide (off % 4 = 0) && decide (off < 0x0800_0000)
  | .mirroredOutboundFlit _ bytes own => decide (bytes.length = 64) && decide (own.length = 64)
  | .romRetry _ _ | .listenerIdle _ | .cfgDoneRise _ | .donewaitExpire _ | .domainResetRequest _ _
  | .domainResetStart | .fenceBoundMissed _ _ | .fenceAbortNewRequest _ _ _ | .domainResetRelease _
  | .fenceReopen _ | .hostReset _ | .keyTableLoadDone | .railLoss _ | .railWaitTimeout _ | .shaftContention _
  | .shaftParityFailure _ _ | .bondSweepDone _ _ _ | .memberFailed _ _ _ _ _ | .spareShiftApply _ _ _
  | .relocationDecision _ | .relocationRelease _ | .chmCmdSwitch _ _ _ _ | .chmCmdHold _ _ | .chmCmdRelease _ _
  | .switchEdge _ | .holdTakeEffect _ | .releaseTakeEffect _ | .scheduleEnable _ _ _ | .scheduleEntryStart _
  | .dwellEnd _ | .scheduleStopWrite _ _ _ | .scheduleEntryWrite _ _ _ | .fabricTrigger _
  | .groupFireSwitch _ _ | .groupFireHold _ _ | .groupFireRelease _ _ | .groupTriggerFire _
  | .groupFireEffect _ | .portResponseArrive _ | .fenceRegisterParity _ | .libRefill _ _ _ _ _ _ _ _ _ _
  | .libSpill _ _ _ _ _ _ _ | .libRestore _ _ _ _ _ _ _ | .libEvict _ _ _ _ _ _ | .libDrop _ _ _ _ _
  | .libShclr _ _ _ _ _ | .requestStart _ _ _ | .refillComplete _ | .requestEnd _ | .sinfo0Read _
  | .lockstepMismatch _ _ _ _ _ | .diagnosisVerdict _ | .degradedComplete _ | .lockstepEntry _
  | .lockstepExit _ | .grottoRead _ _ | .grottoWrite _ _ _ _ _ | .grottoBitset _ _ _ _ | .grottoBitclr _ _ _ _
  | .bankAccess _ _ | .correctedRewrite _ | .scrubSlotOpen _ _ | .scrubRead _ _ _ | .scrubStarvation _
  | .grottoFillDone _ | .pclkChange _ | .softRepair _ | .repairRewrite _ _ | .bankModeWrite _ _ _
  | .bankAutoDrowsy _ | .bankPowerOff _ _ | .bankFillDone _ | .rmodelWrite _ _ | .v2segWrite _ _ _
  | .kick _ _ _ | .doorbellPoll _ | .doorbellReadDone _ _ | .descriptorFetch _ _ | .hostReadError _ _ _
  | .descCopy _ _ | .descStreamIn _ _ | .descStreamOut _ _ | .descFill _ _ | .descLoadImage _ _ _
  | .descLibraryRequest _ | .descSwitch _ | .descGroupFire _ | .descFence _ | .descNop _ | .completionWrite _
  | .irqCoalesceTimeout _ | .queueEnable _ _ _ | .queueDisable _ _ _ | .drainEnd _ | .ownerChange _ | .invAll _
  | .invAsid _ _ | .invRange _ _ _ | .invalidationComplete | .faultRecordWrite _ | .faultConsumerReread _
  | .faultRingEnable _ _ | .ringWriteRetry _ | .abandon _ _ | .taguse0Read _ | .sessionEstablish _ _
  | .recordSend _ _ _ | .scanRowRead _ _ _ _ _ | .residentLapOverrun _ _ | .frameRewriteStart _
  | .frameRewriteReread _ _ _ | .bundleEnable _ _ _ | .bundleDisable _ _ _ | .bundleRetrain _ _
  | .sleepRequest _ _ | .testEnter _ _ _ | .testExit _ _ _ | .bitInject _ _ | .testCounterClear _ _
  | .trainingUp _ _ _ _ _ | .trainingTimeout _ _ _ | .backoffEnd _ | .backoffClockDetect _ | .bundleDown _ _
  | .lastGoodUpdate _ | .retrainReceive _ _ | .markerReceive _ _ _ _ _ _ _ | .eidleEnter _ | .eidleReceive _
  | .eidleExit _ | .sleepReceive _ | .sleepAckReceive _ | .sleepAckTimeout _ | .beaconSend _ | .beaconDetect _
  | .nakReceive _ _ | .replayTimeout _ | .initResend _ | .initReceive _ _ _ _ _ _ _ | .lctlCreditSend _
  | .censusStart _ | .censusReceive _ _ _ | .censusCollectEnd | .reportReceive _ _ _ | .censusTimeout
  | .assignReceive _ _ _ | .discoveryStart | .nodeinfoReceive _ _ | .discoverySettle | .remoteRead _ _ _ _ _
  | .remoteWrite _ _ _ _ _ _ _ _ | .remoteBitset _ _ _ _ _ _ _ | .remoteBitclr _ _ _ _ _ _ _
  | .rspReceive _ _ _ _ | .bcreditReceive _ _ _ | .remoteTimeout _ | .beatReceive _ _ _ | .cfgbReceive _ _ _ _
  | .streamRouteWrite _ _ | .helloReceive _ | .syncTimeout _ | .arbitrationEnd _ | .syncBarrier
  | .stampedDelivery _ _ _ _ | .takeover | .sidebandFault | .commitRecord _ _ _ | .commitRecordAck _
  | .progressRecord _ _ _ _ | .selfcheckLapEnd | .failsilentReceive | .heartbeatTimeout | .rejoin _
  | .rejoinAuto _ _ | .rejoinBarrier _ | .rejoinEnd _ _ | .rejoinAbandon _ | .xtalSwitch | .xtalFail
  | .mgmtCoreFault _ | .mgmtCoreRestartDone | .supplyMonitorTrip _ _ | .refclkMonitorTrip | .pllLockLoss _
  | .gclkChangeEffect _ | .fpllMultEffect _ | .pwrTargetWrite _ _ | .ladderEntry _ | .wake _
  | .ladderTimerExpire | .ladderExitDone | .tpOpen _ | .tpSvalWrite _ _ | .tpCommit _ _ _ | .tpAbort _ _
  | .ticketStagingExpire | .ticketArmedExpire | .commitApply _ | .mbColmap _ _ | .mbSpares _ _
  | .mbIntegrity _ _ | .mbTelemetry _ _ | .mailboxReply _ | .eventEnqueue _ | .eventTake | .echRearm _
  | .echClearlog _ | .echCommit _ | .echoCommitStart | .echoCommitEnd _ | .rdata0Read _ | .cvalLoRead _
  | .dbgNop | .dbgHostrd _ _ _ _ | .dbgHostrdDone _ | .jtagExtest | .jtagSamplePreload | .jtagIdcode
  | .jtagHighz | .jtagClamp | .jtagExtestPulse | .jtagExtestTrain | .jtagDbgap | .jtagBypass
  | .jtagTestLogicReset | .pinLock _ _ _ | .dualInputMismatch _ _ | .dphyBurst _ _ | .svcInputAccept _ _
  | .svcSet _ _ | .svcClr _ _ | .svcTgl _ _ | .smbusBlockRead _ | .smbusReadWord _ | .smbusAlertResponse
  | .fundamentalResetDeasserted | .refclkAppearingOrDisappearing _ | .coreRailInSteadyRange _
  | .checkerSyncChange _ _ _ _ _ | .testCounterSaturated _ _ _ | .aloneReceive | .pinCompareMismatch _
  | .grottoCrcExchange _ _ | .aerErrorLogged _ | .ulpsEntryExit _ _ | .dphyDeskewCalibration _ _
  | .streamRouteBeatSend _ _
    => true

end Sys2Proof
end

