-- ==== Sys2Proof/Tests/Slice0.lean ====
section
/-! SUPPORT. Tests of the model's own. The theorems witness_<statement>_<n> show, for clause n of each obligation that has
hypotheses, a concrete state and operands that meet all of them; WellFormed's smoke tests show an ill-formed term for
each of its checks; the test_ theorems compare single steps with worked values of the manual. -/

namespace Sys2Proof.Tests

open Sys2Proof.Machine

set_option Elab.async false
set_option maxRecDepth 10000

/-- What holds of the default and of every listed entry holds of every entry. -/
theorem tab_all {α : Type} {P : Nat → α → Prop} (d : α) : ∀ t : List (Nat × α), (∀ k, P k d) → (∀ p ∈ t, P p.1 p.2) →
    ∀ k, P k (tabGet d t k)
  | [], h, _, k => h k
  | (k', v) :: t, h, ht, k => by
    unfold tabGet
    split
    · next e => exact e ▸ ht (k', v) (.head _)
    · exact tab_all d t h (fun p hp => ht p (.tail _ hp)) k

/-- The state after reset. -/
def r0 : State := State.reset
/-- A device that runs: loaded, fabric and chambers released, host port up, in P0. -/
def up : State := { State.reset with
  cfg := { stage := 0xB, perst := true, hostUp := true }, fab := { released := true },
  lys := { refclk := true, refOk := true, xtalRun := true } }
def noEnv : TickEnv :=
  { sensors := [], rails := [], diePower := [], power := 0, vdet := [], analogue := [], balls := 5, badLeaves := [],
    badEpisodes := [], badNodes := [], vppGood := true, heldXts := 0, heldGcm := 0, fwdLoad := 0 }
def flash0 : Flash := { answers := false, dir := [], copy := [], contents := [], echo := none }
def board : Board :=
  { mode := 0, listen := false, pull := 0x0003, flashA := flash0, flashB := flash0, railsLate := [], vdet := [],
    refclk := true, vppGood := true,
    fuses := { svn := 200, programmed := 1, revoked := 0, uid := 9, debugLock := false, redundantUsed := [],
               shaftInRepair := [], retiredCols := [] } }
/-- A loaded stratum with these words. -/
def live (ws : ImageWords) : Stratum := { loaded := true, slot := 7, words := ws }
/-- Chamber 3 of a running device runs stratum 0; stratum 1 is loaded too. -/
def runs : State := up.modChm 3 fun ch => { ch with released := true, strata := [(0, live []), (1, live [])] }
/-- As `runs`, held by command. -/
def held : State := runs.modChm 3 fun ch => { ch with hsrc := 1 }
/-- Both chambers of column 3 run strata that drive the same shaft. -/
def shaftWord : BitVec 80 := BitVec.ofNat 80 (1 <<< 39)
def both : State := (up.modChm 3 fun ch => { ch with released := true, strata := [(0, live [(0, shaftWord)])] }).modChm 259 fun ch =>
  { ch with released := true, strata := [(0, live [(0, shaftWord)])] }
/-- Set-up of a bypass queue with rings of 16 entries, QUE_EP `ep`. -/
def setup0 (ep : Word) : QueueSetup :=
  { sqb := 0x1004, cqb := 0x2004, dba := 0x3000, sha := 0x4000, bind := 0, prot := 0x80000000, ep := ep }
/-- Queue 3 of a running device, whose key table entry 0 has every right, is in this state. -/
def queued (x : Queue) : State := (up.modKey 0 fun k => { k with rights := 0xF }).modQu 3 fun _ => x
def q0 : Queue := { enabled := true, setup := setup0 0 }
/-- A descriptor: OPCODE and SUB, FLAGS, LEN, SRC, DST, AUX. -/
def dword (op flags len src dst aux : Nat) : BitVec 256 :=
  BitVec.ofNat 256 (op + flags * 2 ^ 8 + 9 * 2 ^ 16 + len * 2 ^ 32 + src * 2 ^ 64 + dst * 2 ^ 128 + aux * 2 ^ 192)
/-- Queue 3 holds this descriptor as number 4, arrived at 0. -/
def withDesc (w : BitVec 256) (ep : Word) : State :=
  queued { q0 with setup := setup0 ep, context := [{ raw := w, id := 4, arrival := 0 }] }
def noHost : DescEnv := { hostData := [1, 2, 3, 4, 5], beats := [], aesFault := none, keyError := false, tlbBad := [], addrErr := [] }
/-- A container with this head, one member's worth of nothing behind it, whose signatures pass. -/
def contOf (head : List Byte) (parts : List SectionData) (present : Nat) : Container :=
  { head, sigEnd := [0, 0, 0], parts, present, keyMatch := true, edOk := true, mlOk := true }
def badCont : Container := contOf [] [] 0
/-- Bundle b of a running device is UP with an ACTIVE link. -/
def bunUp (b : Nat) : State := up.modBun b fun x => { x with st := 6, link := { st := 2 } }
/-- A flit as received: sequence number, no ACK, its CRC. -/
def sentFlit (seq : Nat) (f : FlitBytes) : FlitBytes :=
  let head := f.take 4 ++ leBytes 2 seq ++ [0, 0] ++ fPay f
  head ++ leBytes 4 (crc32 head).toNat
/-- The next state of an outcome. -/
def nextOf : Host.Outcome State Fault Refusal → State
  | .next t => t
  | _ => State.reset

theorem witness_StepRunsTheFrontCommand_0 :
    ∃ (s : State) (c : Instr) (rest : List Instr), s.pending = c :: rest :=
  ⟨{ r0 with pending := [.xtalFail, .xtalSwitch] }, .xtalFail, [.xtalSwitch], by decide +kernel⟩
theorem witness_StepRunsTheFrontCommand_1 :
    ∃ (s : State), s.pending = [] :=
  ⟨r0, by decide +kernel⟩
theorem witness_StepKeepsGrottoCanonical_0 :
    ∃ (s : State) (t : State), step s = .next t ∧ Memory.wf s = true :=
  ⟨r0, idle r0, rfl, by decide +kernel⟩
theorem witness_StepKeepsRegistersCanonical_0 :
    ∃ (s : State) (t : State), step s = .next t ∧ regsWf s = true :=
  ⟨r0, idle r0, rfl, by decide +kernel⟩
theorem witness_TimePasses_0 :
    ∃ (s : State), s.pending = [] ∧ s.lys.refclk = true ∧ tbPpm s = 0 :=
  ⟨up, by decide +kernel⟩
theorem witness_TimePasses_1 :
    ∃ (s : State), s.pending = [] ∧ s.lys.refclk = false ∧ tbPpm s = 0 ∧ s.lys.frac < 1000000 :=
  ⟨r0, by decide +kernel⟩
def wPpm : State := (up.setReg 0x1_0028 5).modLys fun l => { l with adj := 9999990 }
theorem witness_TimePasses_2 :
    ∃ (s : State) (p : Int), s.pending = [] ∧ s.lys.refclk = true ∧ tbPpm s = p ∧ 0 < p ∧
    10000000 ≤ s.lys.adj + 10 * p.natAbs :=
  ⟨wPpm, 5, by decide +kernel⟩
theorem witness_TimePasses_3 :
    ∃ (s : State), s.paired = false ∧ s.lys.restarting = true :=
  ⟨up.modLys fun l => { l with restarting := true }, by decide +kernel⟩
def wHot : State := (up.modXlt fun x => { x with peTick := 3 }).modEv fun e => { e with lostTick := 2 }
theorem witness_TimePasses_4 :
    ∃ (s : State) (env : TickEnv), s.paired = false ∧ s.lys.restarting = false ∧ env.sensors.foldl max (-128) < 127 ∧
    telemetryDown s 0 = false :=
  ⟨wHot, { noEnv with sensors := [50, 120], heldXts := 5, heldGcm := 77 }, by decide +kernel⟩
theorem witness_RegisterWriteStoresOrIsRefused_0 :
    ∃ (s : State) (who : Requester) (off : Nat) (val : Word), ((0x8_0000 ≤ off ∧ off < 0x9_0000 ∧
    off % 0x100 ≠ 0) ∨ (0xC_0000 ≤ off ∧ off < 0xD_0000 ∧ off ≠ 0xC_0010)) ∧ s.twn.role = 0 ∧ (regDesc off).pair = 0 ∧
    writeRefusal s (Requester.code who) off 0 val = none :=
  ⟨up, .host, queReg 3 0x30, 0xFFFFFFFF, by decide +kernel⟩
theorem witness_RegisterWriteStoresOrIsRefused_1 :
    ∃ (s : State) (who : Requester) (off : Nat) (val : Word) (reason : _), ((0x8_0000 ≤ off ∧ off < 0x9_0000 ∧
    off % 0x100 ≠ 0) ∨ (0xC_0000 ≤ off ∧ off < 0xD_0000 ∧ off ≠ 0xC_0010)) ∧ s.twn.role = 0 ∧ (regDesc off).pair = 0 ∧
    writeRefusal s (Requester.code who) off 0 val = some reason :=
  ⟨up, .host, queReg 3 0x2C, 0xFFFFFFFF, 3, by decide +kernel⟩
theorem witness_RegisterWriteStoresOrIsRefused_2 :
    ∃ (s : State) (off : Nat) (be : BitVec 4), ((0x8_0000 ≤ off ∧ off < 0x9_0000 ∧ off % 0x100 ≠ 0) ∨ (0xC_0000 ≤ off ∧
    off < 0xD_0000 ∧ off ≠ 0xC_0010)) ∧ s.twn.role = 0 ∧ (regDesc off).pair = 0 ∧ be ≠ 0xF :=
  ⟨up, queReg 3 0x30, 0x7, by decide +kernel⟩
theorem witness_RegisterWriteStoresOrIsRefused_3 :
    ∃ (s : State) (q : Fin 256) (val : Word), s.twn.role = 0 ∧ (s.reg (queReg q 0x2C) ^^^ val) &&& 0xE000_003F ≠ 0 :=
  ⟨up, 255, 1, by decide +kernel⟩
theorem witness_RegisterWriteStoresOrIsRefused_4 :
    ∃ (s : State) (q : Fin 256) (val : Word), s.twn.role = 0 ∧ (s.reg (queReg q 0x2C) ^^^ val) &&& 0xE000_003F = 0 :=
  ⟨up, 0, up.reg (queReg 0 0x2C), by decide +kernel⟩
def wStaged : State := { up with staged := [⟨1, queReg 3 0x08, 0x1000000C⟩] }
theorem witness_RegisterPairsAreWhole_0 :
    ∃ (s : State), s.twn.role = 0 :=
  ⟨up, by decide +kernel⟩
theorem witness_RegisterPairsAreWhole_1 :
    ∃ (s : State) (who : Requester) (q : Fin 256) (lo : Word), s.twn.role = 0 ∧
    findHalf s.staged (Requester.code who) (queReg q 0x08) = some lo ∧ 4 ≤ fld lo 0 5 ∧ fld lo 0 5 ≤ 16 :=
  ⟨wStaged, .host, 3, 0x1000000C, by decide +kernel⟩
theorem witness_RegisterPairsAreWhole_3 :
    ∃ (s : State) (off : _), s.twn.role = 0 ∧ (regDesc off).pair = 0 ∧ isSdata off = false ∧ off ≠ 0x6_0024 ∧
    off ≠ 0x6_0028 ∧ off ≠ 0x9_0040 ∧ off ≠ 0x9_0044 ∧ off ≠ 0xD_0040 ∧ off < 0x20_0000 ∧ accessStopped s off = false :=
  ⟨up, 0x1_0008, by decide +kernel⟩
theorem witness_RegisterPairsAreWhole_4 :
    ∃ (s : State) (v : BitVec 64), s.twn.role = 0 ∧ 4 ≤ fld v 0 5 ∧ fld v 0 5 ≤ 16 :=
  ⟨wStaged, 0x7777_7777_8888_8890, by decide +kernel⟩
theorem witness_RegisterPairsAreWhole_5 :
    ∃ (s : State), s.twn.role = 0 :=
  ⟨wStaged, by decide +kernel⟩
theorem witness_RegisterPairsAreWhole_9 :
    ∃ (s : State) (be : BitVec 8), s.twn.role = 0 ∧ be ≠ 0xFF :=
  ⟨wStaged, 0x0F, by decide +kernel⟩
theorem witness_ReservedBar2Range_2 :
    ∃ (off : Nat), 0x1800_0000 ≤ off :=
  ⟨0x1800_0000, by decide +kernel⟩
theorem witness_MonitorsAndDeviceFaults_0 :
    ∃ (s : State), s.lys.xtalRun = true :=
  ⟨up, by decide +kernel⟩
theorem witness_MonitorsAndDeviceFaults_1 :
    ∃ (s : State), s.regB 0x1_0004 29 = true ∧ s.lys.restarting = false :=
  ⟨(up.setRegF 0x1_0004 29 1 1).modLys fun l => { l with xtalRun := false }, by decide +kernel⟩
theorem witness_MonitorsAndDeviceFaults_3 :
    ∃ (s : State) (n : Fin 32), clockUsed s n = false ∧ s.lys.restarting = false :=
  ⟨up.setReg (gclkReg 5) 0x80000003, 5, by decide +kernel⟩
def wMult : State := (up.setReg 0x1_0044 0x50).modLys fun l => { l with gclk := (List.range 32).map fun n => (n, 0) }
theorem witness_MonitorsAndDeviceFaults_4 :
    ∃ (s : State) (p : Fin 2), (∀ n < 32, fld (s.gclkOf n) 28 2 = p.val → bit (s.gclkOf n) 31 = false) ∧
    s.lys.restarting = false ∧ s.regF (0x1_0040 + 4 * p) 0 7 ≠ s.fpllOf p :=
  ⟨wMult, 1, by decide +kernel⟩
theorem witness_MonitorsAndDeviceFaults_5 :
    ∃ (s : State), s.twinStart = false ∧ s.regF 0x1_0004 30 2 = 0 ∧ s.pstate ≠ 5 :=
  ⟨up, by decide +kernel⟩
theorem witness_MonitorsAndDeviceFaults_6 :
    ∃ (s : State), s.twinStart = false ∧ s.regF 0x1_0004 30 2 = 0 ∧ s.pstate < 3 :=
  ⟨up, by decide +kernel⟩
theorem witness_MonitorsAndDeviceFaults_7 :
    ∃ (s : State), s.twinStart = false ∧ s.regF 0x1_0004 30 2 = 0 :=
  ⟨up, by decide +kernel⟩
theorem witness_MonitorsAndDeviceFaults_8 :
    ∃ (s : State), s.twinStart = false ∧ s.regF 0x1_0004 30 2 = 0 ∧ s.lys.ticket.st = 0 :=
  ⟨up, by decide +kernel⟩
def wTp : State := (up.setReg 0x1_0108 (BitVec.ofNat 32 (queReg 3 0x2C))).modLys fun l => { l with ticket := { st := 1, num := 9, sup := true, digest := 77 } }
def wArm : State := wTp.modLys fun l => { l with ticket := { l.ticket with st := 2, supc := true } }
theorem witness_TicketNeedsBothParties_0 :
    ∃ (s : State) (who : Requester) (p : Nat), partyOf who = some p ∧ s.lys.ticket.st = 0 :=
  ⟨up, .host, 0, by decide +kernel⟩
theorem witness_TicketNeedsBothParties_1 :
    ∃ (s : State) (who : Requester) (p : Nat) (val : Word), partyOf who = some p ∧
    stageRefusal s who (s.reg 0x1_0108).toNat val = none ∧ s.twn.role ≠ 2 :=
  ⟨wTp, .supervisor, 1, 5, by decide +kernel⟩
theorem witness_TicketNeedsBothParties_2 :
    ∃ (s : State) (who : Requester) (p : Nat) (val : Word), partyOf who = some p ∧
    stageRefusal s who (s.reg 0x1_0108).toNat val = some 6 :=
  ⟨up, .host, 0, 5, by decide +kernel⟩
theorem witness_TicketNeedsBothParties_3 :
    ∃ (s : State) (who : Requester) (p : Nat) (t0 : Nat), partyOf who = some p ∧ s.lys.ticket.st = t0 ∧
    (t0 = 1 ∨ t0 = 2) ∧ s.lys.ticket.num < 65536 ∧ s.lys.ticket.committed p = false :=
  ⟨wArm, .host, 0, 2, by decide +kernel⟩
theorem witness_TicketNeedsBothParties_4 :
    ∃ (s : State) (who : Requester) (p : Nat) (digest : Word), partyOf who = some p ∧ digest ≠ s.lys.ticket.digest ∧
    (s.lys.ticket.st = 1 ∨ s.lys.ticket.st = 2) ∧ s.lys.ticket.num < 65536 ∧ s.lys.ticket.committed p = false :=
  ⟨wArm, .host, 0, 5, by decide +kernel⟩
theorem witness_TicketNeedsBothParties_5 :
    ∃ (s : State) (who : Requester) (p : Nat), partyOf who = some p ∧ (s.lys.ticket.st = 1 ∨ s.lys.ticket.st = 2) ∧
    s.lys.ticket.num < 65536 :=
  ⟨wArm, .host, 0, by decide +kernel⟩
theorem witness_TicketNeedsBothParties_6 :
    ∃ (s : State) (who : Requester) (p : Nat), partyOf who = some p ∧ s.lys.ticket.st = 1 :=
  ⟨wTp, .host, 0, by decide +kernel⟩
theorem witness_TicketNeedsBothParties_7 :
    ∃ (s : State) (who : Requester) (p : Nat), partyOf who = some p ∧ s.lys.ticket.st = 2 :=
  ⟨wArm, .host, 0, by decide +kernel⟩
theorem witness_AbortOfAnotherTicket_0 :
    ∃ (s : State) (who : Requester) (p : Nat) (n : BitVec 16), partyOf who = some p ∧ n.toNat ≠ s.lys.ticket.num ∧
    (s.lys.ticket.st = 1 ∨ s.lys.ticket.st = 2) :=
  ⟨wArm, .host, 0, 8, by decide +kernel⟩
theorem witness_AbortOfAnotherTicket_1 :
    ∃ (s : State) (who : Requester) (p : Nat) (n : BitVec 16), partyOf who = some p ∧ n.toNat ≠ s.lys.ticket.num ∧
    (s.lys.ticket.st = 0 ∨ s.lys.ticket.st = 3) :=
  ⟨up, .host, 0, 8, by decide +kernel⟩
def wApply : State := up.modLys fun l => { l with ticket := { st := 3, num := 9, digest := 77, entries := [(queReg 3 0x2C, 0xE0000001)] } }
theorem witness_CommitAppliesProtectedField_0 :
    ∃ (s : State) (q : Fin 256) (val : Word), s.lys.ticket.st = 3 ∧ s.lys.restarting = false ∧ s.twn.role = 0 ∧
    s.lys.ticket.entries = [(queReg q 0x2C, val)] :=
  ⟨wApply, 3, 0xE0000001, by decide +kernel⟩
def wP2 : State := up.modLys fun l => { l with pstate := 2 }
theorem witness_PowerLadderMoves_0 :
    ∃ (s : State) (val : Word), fld val 29 3 ≤ 5 ∧ s.pstate ≤ fld val 29 3 ∧ s.paired = false :=
  ⟨wP2, 0xA0000000, by decide +kernel⟩
theorem witness_PowerLadderMoves_1 :
    ∃ (val : Word), 5 < fld val 29 3 :=
  ⟨0xC0000000, by decide +kernel⟩
theorem witness_PowerLadderMoves_2 :
    ∃ (s : State) (partner : Fin 6), s.pstate = 0 ∧ effectiveTarget s partner = 1 ∧ s.lys.exiting = false ∧
    s.lys.restarting = false ∧ s.paired = false ∧ s.twn.pstate ≠ 5 :=
  ⟨(up.setReg 0x1_0008 0x20000000).modLys fun l => { l with pend := true }, 0, by decide +kernel⟩
def twinned (role : Nat) : State := ((bunUp 0).modCfg fun c => { c with mode := 4, uid := 55 }).modTwn fun t => { t with role := role, pstate := 2, puid := 77, pins := 3 }
theorem witness_PowerLadderMoves_3 :
    ∃ (s : State) (partner : Fin 6), s.pstate = 0 ∧ effectiveTarget s partner = 1 ∧ s.lys.exiting = false ∧
    s.lys.restarting = false ∧ s.twn.role = 1 ∧ s.twinUp = true :=
  ⟨((twinned 1).setReg 0x1_0008 0x20000000).modLys fun l => { l with pend := true }, 1, by decide +kernel⟩
theorem witness_PowerLadderMoves_4 :
    ∃ (s : State) (partner : Fin 6), s.pstate = 0 ∧ effectiveTarget s partner = 1 ∧ s.lys.exiting = false ∧
    s.lys.restarting = false ∧ s.twn.role = 2 :=
  ⟨((twinned 2).setReg 0x1_0008 0x20000000).modLys fun l => { l with pend := true }, 1, by decide +kernel⟩
theorem witness_PowerLadderMoves_5 :
    ∃ (s : State) (b : Fin 7), 1 ≤ s.pstate ∧ s.pstate ≤ 3 ∧ s.lys.exiting = false ∧ b.val ≠ 3 ∧ b.val ≠ 6 ∧
    s.regB 0x1_000C b = true ∧ s.paired = false :=
  ⟨wP2.setReg 0x1_000C 0x20, 5, by decide +kernel⟩
theorem witness_PowerLadderMoves_6 :
    ∃ (s : State) (b : Fin 7), 1 ≤ s.pstate ∧ s.pstate ≤ 3 ∧ s.lys.exiting = false ∧ b.val ≠ 3 ∧ b.val ≠ 6 ∧
    s.regB 0x1_000C b = true ∧ s.paired = true ∧ s.twinUp = true :=
  ⟨((twinned 2).setReg 0x1_000C 0x20).modLys fun l => { l with pstate := 2 }, 5, by decide +kernel⟩
theorem witness_PowerLadderMoves_7 :
    ∃ (s : State), s.paired = true ∧ s.lys.exiting = false ∧ 1 ≤ s.pstate ∧ s.pstate ≤ 3 :=
  ⟨(twinned 2).modLys fun l => { l with pstate := 2 }, by decide +kernel⟩
theorem witness_PowerLadderMoves_8 :
    ∃ (s : State), s.paired = true ∧ s.lys.exiting = false ∧ s.pstate = 0 ∧ s.twn.pstate ≠ 5 :=
  ⟨twinned 1, by decide +kernel⟩
theorem witness_PowerLadderMoves_9 :
    ∃ (s : State), 1 ≤ s.pstate ∧ s.pstate ≤ 3 ∧ s.lys.exiting = false ∧ s.lys.timer = some 0 ∧
    s.regB 0x1_000C 0 = true ∧ s.paired = false :=
  ⟨(wP2.setReg 0x1_000C 1).modLys fun l => { l with timer := some 0 }, by decide +kernel⟩
theorem witness_PowerLadderMoves_10 :
    ∃ (s : State), s.pstate = 1 ∧ s.lys.exiting = true ∧ s.lys.exitFrom = 1 ∧ s.lys.exitTo = 0 ∧
    (∀ b < 8, s.regB (gvlReg b 0) 31 = false) :=
  ⟨up.modLys fun l => { l with pstate := 1, exiting := true, exitFrom := 1, exitTo := 0 }, by decide +kernel⟩
theorem witness_MailboxAndSmbus_0 :
    ∃ (s : State) (who : Requester), (partyOf who).isSome = true ∧ s.lys.restarting = false ∧
    (tabGet ({} : Mailbox) s.lys.boxes (Requester.code who)).busy = false :=
  ⟨up, .host, by decide +kernel⟩
def wBox : State := up.modLys fun l => { l with boxes := [(2, { busy := true, code := 4 })] }
theorem witness_MailboxAndSmbus_4 :
    ∃ (s : State) (who : Requester) (b : Mailbox), s.lys.restarting = false ∧
    tabGet {} s.lys.boxes (Requester.code who) = b ∧ b.busy = true :=
  ⟨wBox, .supervisor, { busy := true, code := 4 }, by decide +kernel⟩
theorem witness_MailboxAndSmbus_11 :
    ∃ (c : Byte), c ≠ 0x10 :=
  ⟨0x11, by decide +kernel⟩
theorem witness_MailboxAndSmbus_12 :
    ∃ (s : State), svcDrive s 3 = some false :=
  ⟨up.modLys fun l => { l with devfault := true }, by decide +kernel⟩
theorem witness_DomainResetsAndFences_0 :
    ∃ (s : State), s.pstate < 2 :=
  ⟨up, by decide +kernel⟩
theorem witness_DomainResetsAndFences_1 :
    ∃ (s : State) (mask : Word), 2 ≤ s.pstate ∧ mask &&& 0xFF1F ≠ 0 :=
  ⟨wP2, 0x118, by decide +kernel⟩
theorem witness_DomainResetsAndFences_2 :
    ∃ (s : State), s.twn.role = 0 ∧ s.rst.requested ≠ 0 ∧ s.lys.restarting = true :=
  ⟨(up.modRst fun r => { r with requested := 0x18 }).modLys fun l => { l with restarting := true }, by decide +kernel⟩
theorem witness_DomainResetsAndFences_3 :
    ∃ (s : State), s.twn.role = 0 ∧ s.rst.requested ≠ 0 ∧ s.lys.restarting = false :=
  ⟨up.modRst fun r => { r with requested := 0x18 }, by decide +kernel⟩
theorem witness_DomainResetsAndFences_4 :
    ∃ (s : State), s.twn.role = 0 ∧ s.rst.requested = 0x10 ∧ s.rst.inReset = 0 ∧ s.lys.restarting = false :=
  ⟨up.modRst fun r => { r with requested := 0x10 }, by decide +kernel⟩
theorem witness_DomainResetsAndFences_5 :
    ∃ (s : State), s.rst.inReset = 0x10 :=
  ⟨up.modRst fun r => { r with inReset := 0x10 }, by decide +kernel⟩
def wFence : State := up.modRst fun r => { r with closedFor := [(2, 8)] }
theorem witness_DomainResetsAndFences_6 :
    ∃ (s : State) (b : Fin 4) (m : Nat), tabGet 0 s.rst.closedFor b = m ∧ 0 < m ∧ m < 65536 ∧
    BitVec.ofNat 16 m &&& s.rst.inReset = 0 :=
  ⟨wFence, 2, 8, by decide +kernel⟩
theorem witness_DomainResetsAndFences_7 :
    ∃ (s : State) (b : Fin 4) (m : Nat), tabGet 0 s.rst.closedFor b = m ∧ 0 < m ∧ m < 65536 ∧
    BitVec.ofNat 16 m &&& s.rst.inReset ≠ 0 :=
  ⟨wFence.modRst fun r => { r with inReset := 8 }, 2, 8, by decide +kernel⟩
theorem witness_DomainResetsAndFences_8 :
    ∃ (s : State) (b : Fin 4) (m : Nat), tabGet 0 s.rst.closedFor b = m ∧ 0 < m ∧ m < 65536 :=
  ⟨wFence, 2, 8, by decide +kernel⟩
theorem witness_DomainResetsAndFences_9 :
    ∃ (s : State) (b : Fin 4) (m : Nat), tabGet 0 s.rst.closedFor b = m ∧ 0 < m ∧ m < 65536 ∧ s.twinStart = false ∧
    s.regF 0x1_0004 30 2 = 0 :=
  ⟨wFence, 2, 8, by decide +kernel⟩
theorem witness_HostResetAndLinkEvents_0 :
    ∃ (s : State), s.inReset 5 = false ∧ tabGet 0 s.rst.closedFor 3 = 0 :=
  ⟨up.setReg (queReg 3 0x30) 5, by decide +kernel⟩
theorem witness_HostResetAndLinkEvents_1 :
    ∃ (s : State), s.cfg.keyLoad = false ∧ s.cfg.hostUp = false ∧ 4 ≤ s.cfg.stage ∧ s.cfg.stage ≠ 13 ∧ s.pstate ≠ 5 ∧
    (∀ b < 8, s.bunUp b = false) :=
  ⟨up.modCfg fun c => { c with hostUp := false, perst := false }, by decide +kernel⟩
theorem witness_HostResetAndLinkEvents_2 :
    ∃ (s : State), s.cfg.keyLoad = true :=
  ⟨up.modCfg fun c => { c with keyLoad := true, perst := false }, by decide +kernel⟩
def wProg : PcieProg :=
  { bar0 := 0, bar2 := 0, bar4 := 0, maxPayload := 256, maxRead := 4096, relaxed := false, msixOn := true, msixMask := false,
    ecrcGen := false, ecrcCheck := false, ctoRange := 0, ctoOff := false, aspmL1 := false, ltr := false }
theorem witness_HostResetAndLinkEvents_6 :
    ∃ (s : State), s.pci.pba = [] :=
  ⟨up, by decide +kernel⟩
theorem witness_StartUpAndFabricRelease_0 :
    ∃ (b : Board), (b.mode.toNat % 4 ≠ 1 ∨ b.listen = true) ∧ b.mode.toNat % 4 ≠ 2 ∧ b.flashA.answers = false ∧
    b.flashB.answers = false :=
  ⟨board, by decide +kernel⟩
theorem witness_StartUpAndFabricRelease_1 :
    ∃ (b : Board), b.mode.toNat % 4 = 1 ∧ b.listen = false :=
  ⟨{ board with mode := 1 }, by decide +kernel⟩
def wRom : State := r0.modCfg fun c => { c with stage := 0xD }
theorem witness_StartUpAndFabricRelease_2 :
    ∃ (s : State) (a : Flash) (b : Flash), s.cfg.stage = 0xD ∧
    (s.netMode ≠ 1 ∨ s.net.settled = true ∨ s.cfg.listen = true) ∧ s.netMode ≠ 2 ∧ s.regB 0xF_0004 30 = false ∧
    a.answers = false ∧ b.answers = false :=
  ⟨wRom, flash0, flash0, by decide +kernel⟩
def wRails : State := r0.modCfg fun c => { c with stage := 3, railsLate := [2, 4] }
def flashN : Flash := { answers := true, dir := [], copy := [1, 2], contents := [], echo := none }
theorem witness_StartUpAndFabricRelease_3 :
    ∃ (s : State) (a : Flash) (b : Flash), s.cfg.stage = 0xD ∧ (s.netMode ≠ 1 ∨ s.net.settled = true) ∧ s.netMode ≠ 2 ∧
    s.cfg.listen = false ∧ s.regB 0xF_0004 30 = false ∧ a.answers = true ∧ a.directory = false ∧ b.answers = true ∧
    b.directory = false :=
  ⟨wRom, flashN, flashN, by decide +kernel⟩
theorem witness_StartUpAndFabricRelease_4 :
    ∃ (s : State) (r : Fin 7) (o : Nat), s.cfg.stage = 3 ∧ o ∈ s.cfg.railsLate ∧ o ≠ r.val :=
  ⟨wRails, 2, 4, by decide +kernel⟩
theorem witness_StartUpAndFabricRelease_5 :
    ∃ (s : State) (r : Fin 7), s.cfg.stage = 3 ∧ s.cfg.railsLate.contains r.val = true :=
  ⟨wRails, 4, by decide +kernel⟩
def wStep8 : State := r0.modCfg fun c => { c with stage := 8, donewait := 5 }
theorem witness_StartUpAndFabricRelease_6 :
    ∃ (s : State), s.cfg.stage = 8 ∧ s.twinStart = false :=
  ⟨wStep8, by decide +kernel⟩
theorem witness_StartUpAndFabricRelease_7 :
    ∃ (s : State), s.cfg.stage ≠ 8 :=
  ⟨up, by decide +kernel⟩
def wLeave : State := (runs.modChm 3 fun ch => { ch with cmd := some ⟨1, 1, true, none, 0⟩ }).modFab fun f => { f with leaving := [9, 300] }
theorem witness_StartUpAndFabricRelease_8 :
    ∃ (s : State) (c : ChamberId) (x : ChamberId) (v : Nat) (d : Bool), edgeCan s c = true ∧
    (s.col (colOf c)).lock = .off ∧ (s.chm c).cmd = some ⟨1, v, d, none, 0⟩ ∧ x.val ∈ s.fab.leaving ∧
    s.regF (chmReg (s.gov x) 0x04) 0 5 = (s.chm c).swclkUse :=
  ⟨wLeave, 3, 300, 1, true, by decide +kernel⟩
theorem witness_StartUpAndFabricRelease_9 :
    ∃ (s : State) (n : Nat), s.cfg.stage = 8 ∧ s.cfg.donewait = n ∧ 0 < n ∧ s.twinStart = false :=
  ⟨wStep8, 5, by decide +kernel⟩
theorem witness_StartUpAndFabricRelease_10 :
    ∃ (s : State), s.cfg.stage = 8 ∧ s.cfg.donewait = 0 ∧ s.cfg.doneTold = false :=
  ⟨wStep8.modCfg fun c => { c with donewait := 0 }, by decide +kernel⟩
def wListen : State := r0.modCfg fun c => { c with stage := 4, listen := true }
theorem witness_ListenersAndKeyLoad_0 :
    ∃ (s : State), s.cfg.listen = true ∧ s.netMode ≠ 2 ∧ s.cfg.stage = 4 :=
  ⟨wListen, by decide +kernel⟩
theorem witness_ListenersAndKeyLoad_1 :
    ∃ (s : State), s.cfg.listen = false :=
  ⟨up, by decide +kernel⟩
theorem witness_ListenersAndKeyLoad_2 :
    ∃ (s : State), s.cfg.listen = true ∧ s.netMode ≠ 2 ∧ s.cfg.stage < 7 ∧ s.cfg.idleTold = false :=
  ⟨wListen, by decide +kernel⟩
theorem witness_ListenersAndKeyLoad_3 :
    ∃ (s : State), (∀ c, s.linkHolds c = false) ∧ s.netMode = 2 ∧ s.cfg.stage = 4 :=
  ⟨r0.modCfg fun c => { c with stage := 4, mode := 2 }, fun _ => rfl, by decide +kernel⟩
def wKeys : State := (up.modCfg fun c => { c with keyLoad := true, perst := false }).modCry fun c => { c with rightsSet := true }
theorem witness_ListenersAndKeyLoad_4 :
    ∃ (s : State), s.cfg.keyLoad = true ∧ s.cfg.perst = false ∧ 4 ≤ s.cfg.stage ∧ s.cfg.stage ≠ 13 ∧
    s.cry.rightsSet = true :=
  ⟨wKeys, by decide +kernel⟩
theorem witness_ListenersAndKeyLoad_5 :
    ∃ (s : State), s.cfg.keyLoad = true ∧ s.cfg.perst = false ∧ 4 ≤ s.cfg.stage ∧ s.cfg.stage ≠ 13 ∧ s.cry.record = [] :=
  ⟨wKeys, by decide +kernel⟩
theorem witness_ListenersAndKeyLoad_6 :
    ∃ (s : State), s.grt.filling = true ∧ s.cfg.stage ≠ 4 :=
  ⟨up.modGrt fun g => { g with filling := true }, by decide +kernel⟩
theorem witness_ContentionBondsAndRelocation_0 :
    ∃ (s : State) (col : ColumnId) (cl : Nat), (List.range 256).find? (fun x => fld (contended s col) (16 * x) 16 != 0) = some cl ∧
    (s.col col).lock = .off ∧ s.isActive col (s.chm col).sel = true ∧
    s.isActive (col + 256) (s.chm (col + 256)).sel = true ∧
    (∀ q ∈ (s.chm col).quarDue ++ (s.chm (col + 256)).quarDue, q.2 ≠ 1) :=
  ⟨both, 3, 0, by decide +kernel⟩
theorem witness_ContentionBondsAndRelocation_1 :
    ∃ (s : State) (p : PhysId) (g : Fin 128), (s.bond (bondKey 0 p g)).free 2 ≠ 0 ∧
    (s.bond (bondKey 0 p g)).sweeping = false ∧ s.twinStart = false ∧ s.regF 0x1_0004 30 2 = 0 :=
  ⟨both, 3, 7, by decide +kernel⟩
def wSweep : State := both.modBond (bondKey 0 3 7) fun b => { b with sweeping := true }
theorem witness_ContentionBondsAndRelocation_2 :
    ∃ (s : State) (p : PhysId) (g : Fin 128) (failed : List (Fin 34)) (a : BondGroup), (s.bond (bondKey 0 p g)).sweeping = true ∧
    failed.foldl (fun x m => x.fail 32 m) { s.bond (bondKey 0 p g) with sweeping := false } = a ∧
    a.failed + a.failedSpares ≤ 2 :=
  ⟨wSweep, 3, 7, [5, 33], { failed := 1, failedSpares := 1, members := [5, 33] }, by decide +kernel⟩
theorem witness_ContentionBondsAndRelocation_3 :
    ∃ (s : State) (p : PhysId) (g : Fin 128) (failed : List (Fin 34)) (a : BondGroup), (s.bond (bondKey 0 p g)).sweeping = true ∧
    failed.foldl (fun x m => x.fail 32 m) { s.bond (bondKey 0 p g) with sweeping := false } = a ∧
    2 < a.failed + a.failedSpares ∧ s.fab.retired.contains p.val = false ∧ s.paired = false :=
  ⟨wSweep, 3, 7, [5, 6, 33], { failed := 2, failedSpares := 1, members := [5, 6, 33] }, by decide +kernel⟩
theorem witness_ContentionBondsAndRelocation_4 :
    ∃ (s : State) (b : Fin 4) (p : PhysId) (g : Fin 256) (m : Fin 68) (n : Nat) (k : Nat) (a : BondGroup), bondKey (layerOf b) p g = k ∧
    (s.bond k).fail (signalsOf (layerOf b)) m = a ∧ 4 ≤ tabGet 0 (s.bond k).errs m + n ∧
    g.val < groupsOf (layerOf b) p ∧ m.val < signalsOf (layerOf b) + sparesOf (layerOf b) ∧
    a.failed + a.failedSpares ≤ sparesOf (layerOf b) :=
  ⟨up, 1, 3, 7, 63, 4, bondKey (layerOf 1) 3 7, { failed := 1, members := [63] }, by decide +kernel⟩
theorem witness_ContentionBondsAndRelocation_5 :
    ∃ (s : State) (b : Fin 4) (p : PhysId) (g : Fin 256) (m : Fin 68) (n : Nat), tabGet 0 (s.bond (bondKey (layerOf b) p g)).errs m + n < 4 :=
  ⟨up, 1, 3, 7, 63, 3, by decide +kernel⟩
theorem witness_ContentionBondsAndRelocation_6 :
    ∃ (s : State) (b : Fin 4) (p : PhysId) (g : Fin 256) (x : BondGroup), s.bond (bondKey (layerOf b) p g) = x ∧
    x.pending = true :=
  ⟨up.modBond (bondKey (layerOf 1) 3 7) fun b => { b with pending := true }, 1, 3, 7, { pending := true }, by decide +kernel⟩
theorem witness_ContentionBondsAndRelocation_7 :
    ∃ (s : State) (col : ColumnId), s.twn.role = 0 ∧ s.fab.retired.contains (s.physOf col) = true ∧
    s.fab.stranded.contains (s.physOf col) = false ∧ relocating s = false ∧ s.lys.restarting = false ∧
    relocBusy s col = false ∧ (∀ x ∈ s.fab.columns, x.2.shadows = [] ∧ x.2.contStep = 0) :=
  ⟨both.modFab fun f => { f with retired := [3] }, 3, by decide +kernel⟩
def wReloc : State := ((both.modCol 3 fun x => { x with pcol := some 0x100, relocStep := 6 }).modChm 3 fun ch => { ch with reloc := true, pend := some 2 }).modChm 259 fun ch => { ch with reloc := true }
theorem witness_ContentionBondsAndRelocation_8 :
    ∃ (s : State) (col : ColumnId) (sp : Nat), (s.chm col).reloc = true ∧ (s.col col).relocStep = 6 ∧
    (s.col col).pcol = some sp ∧ s.fab.retired.contains sp = false ∧ s.paired = false :=
  ⟨wReloc, 3, 0x100, by decide +kernel⟩
theorem witness_ChamberCommandsWait_0 :
    ∃ (s : State) (c : ChamberId), s.twn.role = 0 ∧ (s.chm (s.gov c)).cmd = none :=
  ⟨runs, 3, by decide +kernel⟩
theorem witness_ChamberCommandsWait_3 :
    ∃ (s : State) (c : ChamberId) (old : ChmCmd), s.twn.role = 0 ∧ (s.chm (s.gov c)).cmd = some old ∧ old.desc = none :=
  ⟨runs.modChm 3 fun ch => { ch with cmd := some ⟨2, 0, false, none, 0⟩ }, 3, ⟨2, 0, false, none, 0⟩, by decide +kernel⟩
def wSwitch : State := runs.modChm 3 fun ch => { ch with cmd := some ⟨1, 1, true, none, 0⟩ }
theorem witness_SwitchTakesEffectAtItsEdge_0 :
    ∃ (s : State) (c : ChamberId) (v : Nat) (d : Bool), noFires s ∧ (s.chm c).cmd = some ⟨1, v, d, none, 0⟩ ∧
    ownEdge s c ∧ (s.chm c).schedArmed = false ∧ s.chmState c = 1 ∧ v ≠ (s.chm c).sel ∧ (s.strat c v).loaded = true :=
  ⟨wSwitch, 3, 1, true, fun _ => ⟨rfl, rfl⟩, by unfold ownEdge; decide +kernel⟩
theorem witness_SwitchTakesEffectAtItsEdge_1 :
    ∃ (s : State) (c : ChamberId) (v : Nat) (d : Bool), noFires s ∧ (s.chm c).cmd = some ⟨1, v, d, none, 0⟩ ∧
    ownEdge s c ∧ s.chmState c = 1 ∧ v ≠ (s.chm c).sel ∧ (s.strat c v).loaded = false :=
  ⟨runs.modChm 3 fun ch => { ch with cmd := some ⟨1, 2, true, none, 0⟩ }, 3, 2, true, fun _ => ⟨rfl, rfl⟩, by unfold ownEdge; decide +kernel⟩
theorem witness_SwitchTakesEffectAtItsEdge_2 :
    ∃ (s : State) (c : ChamberId) (v : Nat) (d : Bool), noFires s ∧ (s.chm c).cmd = some ⟨1, v, d, none, 0⟩ ∧
    ownEdge s c ∧ s.chmState c = 4 :=
  ⟨wSwitch.modChm 3 fun ch => { ch with hsrc := 1 }, 3, 1, true, fun _ => ⟨rfl, rfl⟩, by unfold ownEdge; decide +kernel⟩
theorem witness_SwitchTakesEffectAtItsEdge_3 :
    ∃ (s : State) (c : ChamberId) (v : Nat) (d : Bool) (k : Nat) (cause : Nat), (s.chm c).cmd = some ⟨1, v, d, none, 0⟩ ∧
    edgeCan s c = true ∧ (s.col (colOf c)).lock = .off ∧ s.twn.role = 0 ∧ (s.chm c).holdDue = 0 ∧
    (s.chm c).entering = 0 ∧ (s.chm c).quarDue = [(k, cause)] ∧ (s.chm c).sel = k ∧ (s.strat c k).quar = false :=
  ⟨wSwitch.modChm 3 fun ch => { ch with quarDue := [(0, 2)] }, 3, 1, true, 0, 2, by decide +kernel⟩
theorem witness_HoldAndReleaseTakeEffect_0 :
    ∃ (s : State) (c : ChamberId), noFires s ∧ ownEdge s c ∧ (s.chm c).cmd = some ⟨2, 0, false, none, 0⟩ ∧
    s.chmState c = 1 :=
  ⟨runs.modChm 3 fun ch => { ch with cmd := some ⟨2, 0, false, none, 0⟩ }, 3, fun _ => ⟨rfl, rfl⟩, by unfold ownEdge; decide +kernel⟩
def wRelease : State := held.modChm 3 fun ch => { ch with cmd := some ⟨3, 0, false, none, 0⟩, pend := some 1 }
theorem witness_HoldAndReleaseTakeEffect_1 :
    ∃ (s : State) (c : ChamberId), noFires s ∧ ownEdge s c ∧ (s.chm c).cmd = some ⟨3, 0, false, none, 0⟩ ∧
    s.chmState c = 4 ∧ (s.chm c).hsrc ≠ 3 :=
  ⟨wRelease, 3, fun _ => ⟨rfl, rfl⟩, by unfold ownEdge; decide +kernel⟩
def wRepair : State := (wRelease.modChm 3 fun ch => { ch with hsrc := 3 }).modStrat 3 1 fun st => { st with needRefill := true }
theorem witness_HoldAndReleaseTakeEffect_2 :
    ∃ (s : State) (c : ChamberId) (k : Nat), noFires s ∧ ownEdge s c ∧ (s.chm c).cmd = some ⟨3, 0, false, none, 0⟩ ∧
    s.chmState c = 4 ∧ (s.chm c).hsrc = 3 ∧ k < 4 ∧ ((s.chm c).strat k).needRefill = true :=
  ⟨wRepair, 3, 1, fun _ => ⟨rfl, rfl⟩, by unfold ownEdge; decide +kernel⟩
theorem witness_SchedulesAndGroups_0 :
    ∃ (s : State) (c : ChamberId), s.twn.role = 0 ∧ s.gov c = c ∧ s.regB (chmReg c 0x04) 31 = false :=
  ⟨runs, 3, by decide +kernel⟩
def wSched : State := runs.modChm 3 fun ch => { ch with schedRun := true, entry := 5, nextEntry := 6, sched := [(0, 0xA0400005)] }
theorem witness_SchedulesAndGroups_1 :
    ∃ (s : State) (c : ChamberId), s.twn.role = 0 ∧ s.gov c = c ∧ (s.chm c).schedRun = true :=
  ⟨wSched.setReg (chmReg 3 0x04) 0x80000000, 3, by decide +kernel⟩
theorem witness_SchedulesAndGroups_2 :
    ∃ (s : State), s.twn.role = 0 :=
  ⟨runs.setReg (chmReg 3 0x14) 0x8000003F, by decide +kernel⟩
theorem witness_SchedulesAndGroups_3 :
    ∃ (s : State) (c : ChamberId) (w : Word), noFires s ∧ ownEdge s c ∧ dueCmd s c = none ∧
    triggerOn s s.nets c = false ∧ (s.chm c).schedArmed = true ∧ (s.chm c).schedWait = 0 ∧ schedMoves s c = true ∧
    tabGet 0 (s.chm c).sched (s.regF (chmReg c 0x04) 25 6) = w ∧ bit w 31 = true :=
  ⟨wSched.modChm 3 fun ch => { ch with schedRun := false, schedArmed := true }, 3, 0xA0400005, fun _ => ⟨rfl, rfl⟩, by unfold ownEdge; decide +kernel⟩
theorem witness_SchedulesAndGroups_4 :
    ∃ (s : State) (c : ChamberId) (w : Word), noFires s ∧ ownEdge s c ∧ dueCmd s c = none ∧
    (s.chm c).schedArmed = false ∧ (s.chm c).schedRun = true ∧ (s.chm c).remain = 0 ∧ schedMoves s c = true ∧
    tabGet 0 (s.chm c).sched (s.chm c).nextEntry = w ∧ bit w 31 = false :=
  ⟨wSched, 3, 0, fun _ => ⟨rfl, rfl⟩, by unfold ownEdge; decide +kernel⟩
def wGroup : State := runs.setReg (grpReg 2 0) 0xA0030000
theorem witness_SchedulesAndGroups_5 :
    ∃ (s : State) (g : GroupId), s.twn.role = 0 ∧ s.regB (grpReg g 0) 31 = true ∧ (s.grp g).fire = none :=
  ⟨wGroup, 2, by decide +kernel⟩
theorem witness_SchedulesAndGroups_8 :
    ∃ (s : State) (g : GroupId), s.twn.role = 0 ∧ s.regB (grpReg g 0) 31 = false :=
  ⟨runs, 2, by decide +kernel⟩
def wTrig : State := wGroup.modStrat 3 0 fun st => { st with words := [(0, 0xFFFF), (1054, BitVec.ofNat 80 (1 <<< 78))] }
theorem witness_SchedulesAndGroups_9 :
    ∃ (s : State) (c : ChamberId) (h : GroupId), triggerOn s s.nets c = true ∧ edgeCan s c = true ∧ s.twn.role = 0 ∧
    trigGroups s c = [h.val] ∧ (s.chm c).swclkUse = s.regF (grpReg h 0) 0 5 :=
  ⟨wTrig, 3, 2, by decide +kernel⟩
theorem witness_SchedulesAndGroups_10 :
    ∃ (s : State) (c : ChamberId) (h : GroupId), triggerOn s s.nets c = true ∧ edgeCan s c = true ∧ s.twn.role = 0 ∧
    trigGroups s c = [h.val] ∧ (s.chm c).swclkUse ≠ s.regF (grpReg h 0) 0 5 :=
  ⟨wTrig.modChm 3 fun ch => { ch with swclkUse := 4 }, 3, 2, by decide +kernel⟩
theorem witness_SchedulesAndGroups_11 :
    ∃ (s : State) (g : GroupId), clocksRun s = true ∧ s.fab.released = true ∧ s.twn.role = 0 ∧ (s.grp g).trig = true ∧
    s.regB (grpReg g 0) 31 = true ∧ s.regB (grpReg g 0) 29 = true ∧
    (s.chm (s.regF (grpReg g 0) 16 9)).swclkUse = s.regF (grpReg g 0) 0 5 :=
  ⟨wGroup.modGrp 2 fun x => { x with trig := true }, 2, by decide +kernel⟩
def wFire : State := (wGroup.setReg (chmReg 3 0x0C) 4).modGrp 2 fun x => { x with fire := some (1, none) }
theorem witness_SchedulesAndGroups_12 :
    ∃ (s : State) (g : GroupId) (op : Nat), clocksRun s = true ∧ s.fab.released = true ∧ s.twn.role = 0 ∧
    (s.grp g).fire = some (op, none) ∧ (s.grp g).fireWait = 0 ∧ (s.grp g).trig = false ∧
    (∀ c ∈ groupMembers s g, (skipReason s g op c).isSome = true) :=
  ⟨wFire.modChm 3 fun ch => { ch with swclkUse := 4 }, 2, 1, by decide +kernel⟩
theorem witness_SchedulesAndGroups_13 :
    ∃ (s : State) (g : GroupId) (c : ChamberId) (op : Nat), (∀ h, (s.grp h).trig = false ∧
    (h ≠ g.val → (s.grp h).fire = none)) ∧ ownEdge s c ∧ (s.grp g).fire = some (op, none) ∧ (s.grp g).fireWait = 0 ∧
    s.regB (chmReg c 0x0C) g = true ∧ skipReason s g op c = none ∧ op = 2 ∧ s.chmState c = 1 :=
  ⟨wFire.modGrp 2 fun x => { x with fire := some (2, none) }, 2, 3, 2, by exact tab_all (P := fun k (x : SwGroup) => x.trig = false ∧ (k ≠ 2 → x.fire = none)) {} _ (fun _ => ⟨rfl, fun _ => rfl⟩) (by decide +kernel), by unfold ownEdge; decide +kernel⟩
theorem witness_SchedulesAndGroups_14 :
    ∃ (s : State) (g : GroupId) (c : ChamberId) (op : Nat), (∀ h, (s.grp h).trig = false ∧
    (h ≠ g.val → (s.grp h).fire = none)) ∧ ownEdge s c ∧ (s.grp g).fire = some (op, none) ∧ (s.grp g).fireWait = 0 ∧
    s.regB (chmReg c 0x0C) g = true ∧ skipReason s g op c = none ∧ op = 1 ∧ s.chmState c = 1 :=
  ⟨wFire.setReg (chmReg 3 0x10) 0x10, 2, 3, 1, by exact tab_all (P := fun k (x : SwGroup) => x.trig = false ∧ (k ≠ 2 → x.fire = none)) {} _ (fun _ => ⟨rfl, fun _ => rfl⟩) (by decide +kernel), by unfold ownEdge; decide +kernel⟩
theorem witness_SchedulesAndGroups_15 :
    ∃ (s : State) (g : GroupId) (c : ChamberId) (op : Nat), (∀ h, (s.grp h).trig = false ∧
    (h ≠ g.val → (s.grp h).fire = none)) ∧ ownEdge s c ∧ (s.grp g).fire = some (op, none) ∧ (s.grp g).fireWait = 0 ∧
    s.regB (chmReg c 0x0C) g = true ∧ skipReason s g op c = none ∧ op = 3 ∧ s.chmState c = 4 ∧ (s.chm c).hsrc ≠ 3 :=
  ⟨((wFire.modGrp 2 fun x => { x with fire := some (3, none) }).modChm 3 fun ch => { ch with hsrc := 1, pend := some 1 }), 2, 3, 3, by exact tab_all (P := fun k (x : SwGroup) => x.trig = false ∧ (k ≠ 2 → x.fire = none)) {} _ (fun _ => ⟨rfl, fun _ => rfl⟩) (by decide +kernel), by unfold ownEdge; decide +kernel⟩
def wDown : State := up.modFab fun f => { f with bonds := tabSet {} f.bonds (bondKey 2 264 9) { lost := true } }
theorem witness_LibraryRequestsQueueUp_0 :
    ∃ (s : State), s.twn.role = 0 ∧ managementUp s = false :=
  ⟨wDown, by decide +kernel⟩
theorem witness_LibraryRequestsQueueUp_1 :
    ∃ (s : State), s.twn.role = 0 ∧ managementUp s = true ∧ s.fenced 2 = false ∧ s.lib.fifo.length < 256 :=
  ⟨up, by decide +kernel⟩
def req (op cls : Nat) : LibReq := { op := op, chamber := 3, stratum := 1, slot := 7, notify := true, tag := 9, cls := cls }
def wFull : State := up.modLib fun l => { l with fifo := List.replicate 256 (req 6 3) }
theorem witness_LibraryRequestsQueueUp_7 :
    ∃ (s : State), s.twn.role = 0 ∧ managementUp s = true ∧ s.fenced 2 = false ∧ 256 ≤ s.lib.fifo.length :=
  ⟨wFull, by decide +kernel⟩
theorem witness_LibraryRequestsQueueUp_8 :
    ∃ (s : State), s.fenced 2 = false ∧ managementUp s = true :=
  ⟨up.setReg 0x6_0020 0x80000BFF, by decide +kernel⟩
def wReq : State := up.modLib fun l => { l with fifo := [req 1 3] }
def wReqNext : State := up
theorem witness_RefillEngineRunsRequests_0 :
    ∃ (s : State) (u : State) (k : Nat) (r : LibReq) (q : LibReq) (why : Nat), s.freeStream = some k ∧ s.cfg.stage ≠ 7 ∧
    nextRequest s = some (r, u) ∧
    { r with targets := reqTargets u r, was := if r.op = 1 then targetsWere u r else [] } = q ∧
    refusal (u.modLib fun l => { l with streams := tabSet none l.streams k (some q) }) q = some why ∧ r.desc = none ∧
    r.kind = 0 ∧ (why ≠ 8 ∨ r.cls ≠ 1) :=
  ⟨wReq, wReqNext, 0, req 1 3, { req 1 3 with targets := [3], was := targetsWere up (req 1 3) }, 1, by decide +kernel⟩
theorem witness_RefillEngineRunsRequests_1 :
    ∃ (s : State) (k : Nat) (r : LibReq) (rest : List LibReq), s.freeStream = some k ∧ s.cfg.stage ≠ 7 ∧ s.pstate < 2 ∧
    s.fenced 2 = false ∧ s.lib.device = [] ∧ s.lib.devhold = false ∧ s.lib.loader = [] ∧ s.fab.released = true ∧
    s.lib.fifo = r :: rest ∧ r.op = 6 ∧ r.kind = 0 ∧ r.slot < 0xC00 ∧ (s.slot r.slot).st ≠ 4 ∧
    (r.cls = 2 ∨ ∀ x ∈ rest, x.cls ≠ 2) :=
  ⟨up.modLib fun l => { l with fifo := [req 6 2, req 1 2] }, 0, req 6 2, [req 1 2], by decide +kernel⟩
def stream5 (op : Nat) (notify : Bool) : State :=
  runs.modLib fun l => { l with streams := [(5, some { req op 3 with notify := notify })] }
theorem witness_RefillEngineRunsRequests_2 :
    ∃ (s : State) (k : StreamId) (r : LibReq), s.stream k = some r ∧ r.op = 6 ∧ r.kind = 0 ∧ r.desc = none ∧
    r.notify = true ∧ s.cfg.stage ≠ 7 :=
  ⟨stream5 6 true, 5, req 6 3, by decide +kernel⟩
theorem witness_RefillEngineRunsRequests_3 :
    ∃ (s : State) (k : StreamId) (r : LibReq), s.stream k = some r ∧ r.op = 4 ∧ r.kind = 0 ∧ r.desc = none ∧
    r.notify = false ∧ reqTargets s r = [r.chamber] ∧ s.cfg.stage ≠ 7 :=
  ⟨stream5 4 false, 5, { req 4 3 with notify := false }, by decide +kernel⟩
theorem witness_RefillEngineRunsRequests_4 :
    ∃ (s : State) (k : StreamId) (r : LibReq), s.stream k = some r ∧ r.op = 1 ∧ r.kind = 0 ∧ r.desc = none ∧
    s.paired = false ∧ r.restore = false ∧ reqTargets s r = [r.chamber] ∧ (s.chm r.chamber).released = true ∧
    s.cfg.stage ≠ 7 ∧ (s.col (colOf r.chamber)).lock ≠ .comparing ∧ s.chmState r.chamber ≠ 2 ∧ s.chmState r.chamber ≠ 3 :=
  ⟨stream5 1 true, 5, req 1 3, by decide +kernel⟩
def wVacant : State := (stream5 1 true).modChm 3 fun ch => { ch with sel := 1, strata := [(0, live [])] }
theorem witness_RefillEngineRunsRequests_5 :
    ∃ (s : State) (k : StreamId) (r : LibReq) (st : Nat), s.stream k = some r ∧ r.op = 1 ∧ r.kind = 0 ∧ r.desc = none ∧
    s.paired = false ∧ reqTargets s r = [r.chamber] ∧ s.cfg.stage ≠ 7 ∧ s.lys.exiting = false ∧
    (s.col (colOf r.chamber)).lock ≠ .comparing ∧ (st = 2 ∨ st = 3) ∧ s.chmState r.chamber = st ∧
    (s.chm r.chamber).sel = r.stratum :=
  ⟨wVacant, 5, req 1 3, 2, by decide +kernel⟩
theorem witness_RefillEngineRunsRequests_5' :
    ∃ (s : State) (k : StreamId) (r : LibReq) (st : Nat), s.stream k = some r ∧ r.op = 1 ∧ r.kind = 0 ∧ r.desc = none ∧
    s.paired = false ∧ reqTargets s r = [r.chamber] ∧ s.cfg.stage ≠ 7 ∧ s.lys.exiting = false ∧
    (s.col (colOf r.chamber)).lock ≠ .comparing ∧ (st = 2 ∨ st = 3) ∧ s.chmState r.chamber = st ∧
    (s.chm r.chamber).sel = r.stratum :=
  ⟨wVacant.modChm 3 fun ch => { ch with strata := [(0, live []), (1, { live [] with quar := true })] }, 5, req 1 3, 3, by decide +kernel⟩
def locked (st : LockState) : State := both.modCol 3 fun x => { x with lock := st }
theorem witness_LockstepDetectsAndReacts_0 :
    ∃ (s : State) (col : ColumnId), (s.col col).lock = .comparing ∧ s.twn.role = 0 :=
  ⟨locked .comparing, 3, by decide +kernel⟩
theorem witness_LockstepDetectsAndReacts_2 :
    ∃ (s : State) (col : ColumnId) (v : Nat), (s.col col).lock = .diagnosing ∧ (s.col col).reactAt ≠ 1 ∧
    v = (if badRows s col (s.col col).diagStratum ≠ [] then (if badRows s (col + 256) (s.col col).diagStratum ≠ [] then 3 else 0) else if badRows s (col + 256) (s.col col).diagStratum ≠ [] then 1 else 2) :=
  ⟨locked .diagnosing, 3, 3, by decide +kernel⟩
def wDegraded : State := (locked .silent).modCol 3 fun x => { x with resumeState := .degradedA, contStep := 4 }
theorem witness_LockstepDetectsAndReacts_3 :
    ∃ (s : State) (col : ColumnId) (k : Nat), (s.col col).contStep = 4 ∧ (s.col col).resumeState = .degradedA ∧
    (s.col col).diagStratum = k :=
  ⟨wDegraded, 3, 0, by decide +kernel⟩
def wStage : State := ((both.modChm 3 fun ch => { ch with hsrc := 1 }).modChm 259 fun ch => { ch with hsrc := 2 }).modCol 3 fun x =>
  { x with staged := some true, lock := .staged }
theorem witness_LockstepDetectsAndReacts_4 :
    ∃ (s : State) (col : ColumnId), (s.col col).staged = some true ∧ stageReady s col = true :=
  ⟨wStage, 3, by decide +kernel⟩
theorem witness_LockstepDetectsAndReacts_5 :
    ∃ (s : State) (col : ColumnId), (s.col col).staged = some false ∧ stageReady s col = true :=
  ⟨wStage.modCol 3 fun x => { x with staged := some false, lock := .staged }, 3, by decide +kernel⟩
/-- Chamber 3 runs a stratum that uses its Grotto port. -/
def ported : State := runs.modStrat 3 0 fun st => { st with words := [(1070, BitVec.ofNat 80 (1 <<< 76))] }
theorem witness_ColumnPortAndBanks_0 :
    ∃ (s : State) (c : ChamberId), s.chmState c = 1 ∧ gportOf (s.chm c).selWords = true ∧
    (pinActsFor s c).isSome = true ∧ s.inReset 3 = false ∧ (memFenced s 2 = true ∨ s.fenced (tierOf c) = true) :=
  ⟨ported.modRst fun r => { r with closedFor := [(2, 8)] }, 3, by decide +kernel⟩
theorem witness_ColumnPortAndBanks_1 :
    ∃ (s : State) (c : ChamberId) (l : BitVec 21), s.chmState c = 1 ∧ gportOf (s.chm c).selWords = true ∧
    (pinActsFor s c).isSome = true ∧ s.inReset 3 = false ∧ memFenced s 2 = false ∧ s.fenced (tierOf c) = false ∧
    (s.bank (bankOf l.toNat)).queue.length < 4 ∧
    ((s.chm c).reads.countP fun r => r.stratum == (s.chm c).sel) + ((s.chm c).strat (s.chm c).sel).parked.length < 16 :=
  ⟨ported, 3, 5, by decide +kernel⟩
theorem witness_ColumnPortAndBanks_2 :
    ∃ (s : State) (c : ChamberId) (l : BitVec 21), s.chmState c = 1 ∧ gportOf (s.chm c).selWords = true ∧
    (pinActsFor s c).isSome = true ∧ s.inReset 3 = false ∧ memFenced s 2 = false ∧ s.fenced (tierOf c) = false ∧
    (s.bank (bankOf l.toNat)).queue.length < 4 ∧ heldWrites s c < 16 :=
  ⟨ported, 3, 5, by decide +kernel⟩
def bacc (op : Nat) : BankAcc :=
  { chamber := 3, stratum := 0, op := op, line := 5, be := BitVec.allOnes 64, data := 0x123456, poison := 2, mesh := false }
theorem witness_ColumnPortAndBanks_5 :
    ∃ (s : State) (c : ChamberId) (l : BitVec 21), s.chmState c = 1 ∧ gportOf (s.chm c).selWords = true ∧
    (pinActsFor s c).isSome = true ∧ s.inReset 3 = false ∧ (s.bank (bankOf l.toNat)).queue.length = 4 ∧
    memFenced s 2 = false ∧ s.fenced (tierOf c) = false :=
  ⟨ported.modBank (bankOf 5) fun x => { x with queue := List.replicate 4 (bacc 1) }, 3, 5, by decide +kernel⟩
def wBank : State := ported.modBank 9 fun x => { x with queue := [bacc 1] }
theorem witness_ColumnPortAndBanks_6 :
    ∃ (s : State) (b : BankId) (a : BankAcc), (s.bank b).queue = [a] ∧ a.op = 1 ∧ a.be = BitVec.allOnes 64 ∧
    s.inReset 3 = false ∧ s.grt.filling = false ∧ s.bankState (bankOf a.line) ≠ 2 ∧ (s.bank b).state ≠ 3 ∧
    s.regB 0x7_0020 31 = false :=
  ⟨wBank, 9, bacc 1, by decide +kernel⟩
def wBankRd : State := ((ported.modBank 9 fun x => { x with queue := [bacc 0] }).modChm 3 fun ch => { ch with reads := [⟨0, 5, none, false⟩] }).modGrt fun g =>
  { g with mem := [(321, 7)], poison := [41] }
theorem witness_ColumnPortAndBanks_7 :
    ∃ (s : State) (b : BankId) (a : BankAcc), (s.bank b).queue = [a] ∧ a.op = 0 ∧ a.gone = false ∧ s.inReset 3 = false ∧
    s.grt.filling = false ∧ s.bankState (bankOf a.line) ≠ 2 ∧ (s.bank b).state ≠ 3 ∧
    (∀ i < 8, wordErr s (8 * a.line + i) = 0) ∧ (s.chm a.chamber).reads = [⟨a.stratum, a.line, none, false⟩] :=
  ⟨wBankRd, 9, bacc 0, by decide +kernel⟩
def wResp : State := ported.modChm 3 fun ch => { ch with reads := [⟨0, 5, some ⟨0, 77, 1⟩, true⟩, ⟨1, 6, none, false⟩] }
theorem witness_ColumnPortAndBanks_8 :
    ∃ (s : State) (c : ChamberId) (r : PortResp) (line : Nat) (k : Nat) (rest : List PortRead), (s.col (colOf c)).lock = .off ∧
    (s.chm c).reads = ⟨k, line, some r, true⟩ :: rest ∧ s.chmState c = 1 ∧ (s.chm c).sel = k ∧ (s.strat c k).parked = [] :=
  ⟨wResp, 3, ⟨0, 77, 1⟩, 5, 0, [⟨1, 6, none, false⟩], by decide +kernel⟩
theorem witness_ColumnPortAndBanks_9 :
    ∃ (s : State) (c : ChamberId) (r : PortResp) (line : Nat) (k : Nat) (rest : List PortRead), (s.col (colOf c)).lock = .off ∧
    (s.chm c).reads = ⟨k, line, some r, true⟩ :: rest ∧ (s.chm c).sel ≠ k :=
  ⟨wResp.modChm 3 fun ch => { ch with sel := 1 }, 3, ⟨0, 77, 1⟩, 5, 0, [⟨1, 6, none, false⟩], by decide +kernel⟩
def wMem : State := up.modGrt fun g => { g with mem := [(100, 0x0F), (101, 0x77), (103, 0x80)] }
theorem witness_HostWindowActsOnGrotto_0 :
    ∃ (s : State) (off : Nat) (g : Nat) (be : List Bool) (data : List Byte), quietGrotto s ∧ s.twn.role = 0 ∧
    off < 0x1800_0000 ∧ off % 0x0800_0000 = g ∧ be.length = data.length ∧ g + data.length ≤ 0x0800_0000 :=
  ⟨wMem, 0x0800_0000 + 100, 100, [true, false, true], [0x30, 0xFF, 0xFF], ⟨by decide +kernel, by decide +kernel, by decide +kernel, rfl, fun _ => ⟨rfl, rfl⟩, rfl, rfl, by decide +kernel⟩, by decide +kernel⟩
theorem witness_HostWindowActsOnGrotto_0' :
    ∃ (s : State) (off : Nat) (g : Nat) (be : List Bool) (data : List Byte), quietGrotto s ∧ s.twn.role = 0 ∧
    off < 0x1800_0000 ∧ off % 0x0800_0000 = g ∧ be.length = data.length ∧ g + data.length ≤ 0x0800_0000 :=
  ⟨wMem, 100, 100, [true, false, true], [0x30, 0xFF, 0xFF], ⟨by decide +kernel, by decide +kernel, by decide +kernel, rfl, fun _ => ⟨rfl, rfl⟩, rfl, rfl, by decide +kernel⟩, by decide +kernel⟩
theorem witness_HostWindowActsOnGrotto_0'' :
    ∃ (s : State) (off : Nat) (g : Nat) (be : List Bool) (data : List Byte), quietGrotto s ∧ s.twn.role = 0 ∧
    off < 0x1800_0000 ∧ off % 0x0800_0000 = g ∧ be.length = data.length ∧ g + data.length ≤ 0x0800_0000 :=
  ⟨wMem, 0x1000_0000 + 100, 100, [true, true, true], [0x3, 0xFF, 0xFF], ⟨by decide +kernel, by decide +kernel, by decide +kernel, rfl, fun _ => ⟨rfl, rfl⟩, rfl, rfl, by decide +kernel⟩, by decide +kernel⟩
theorem witness_HostWindowActsOnGrotto_0''' :
    ∃ (s : State) (off : Nat) (g : Nat) (be : List Bool) (data : List Byte), quietGrotto s ∧ s.twn.role = 0 ∧
    off < 0x1800_0000 ∧ off % 0x0800_0000 = g ∧ be.length = data.length ∧ g + data.length ≤ 0x0800_0000 :=
  ⟨wMem, 0x0800_0000 - 2, 0x0800_0000 - 2, [true, true], [0x3, 0xFF], ⟨by decide +kernel, by decide +kernel, by decide +kernel, rfl, fun _ => ⟨rfl, rfl⟩, rfl, rfl, by decide +kernel⟩, by decide +kernel⟩
theorem witness_HostWindowActsOnGrotto_1 :
    ∃ (s : State) (off : Nat) (len : Nat), quietGrotto s ∧ s.twn.role = 0 ∧ off < 0x1800_0000 ∧
    off % 0x0800_0000 + len ≤ 0x0800_0000 :=
  ⟨wMem, 0x1000_0000 + 99, 5, ⟨by decide +kernel, by decide +kernel, by decide +kernel, rfl, fun _ => ⟨rfl, rfl⟩, rfl, rfl, by decide +kernel⟩, by decide +kernel⟩
theorem witness_HostWindowActsOnGrotto_2 :
    ∃ (s : State) (off : Nat), s.twn.role = 0 ∧ off < 0x1800_0000 ∧ grottoTagFree s = false :=
  ⟨wMem.setReg 0x9_0034 0, 0x1000_0000 + 99, by decide +kernel⟩
def wErr : State := (up.modGrt fun g => { g with errs := [(40, 5)], mem := [(321, 7)] }).modBank (bankOf 5) fun x => { x with rewrites := [⟨40, 0, false⟩] }
theorem witness_ScrubbingAndRepair_0 :
    ∃ (s : State) (b : BankId) (r : Rewrite) (rest : List Rewrite), (s.bank b).rewrites = r :: rest ∧
    (s.bank b).queue = [] :=
  ⟨wErr, 5, ⟨40, 0, false⟩, [], by decide +kernel⟩
def wScrub : State := (up.modGrt fun g => { g with fillDone := true }).modBank 5 fun x => { x with slotOpen := true, scrubLine := 8 }
theorem witness_ScrubbingAndRepair_1 :
    ∃ (s : State) (b : BankId), scrubOn s = true ∧ (s.bank b).state ≠ 2 ∧ (s.bank b).lapRead = false :=
  ⟨wScrub.modBank 5 fun x => { x with slotOpen := false }, 5, by decide +kernel⟩
theorem witness_ScrubbingAndRepair_2 :
    ∃ (s : State) (b : BankId), scrubOn s = true ∧ (s.bank b).slotOpen = true ∧ (s.bank b).queue = [] ∧
    (s.bank b).state ≤ 1 ∧ (s.bank b).scrubLine < 1023 ∧ s.grt.errs = [] :=
  ⟨wScrub, 5, by decide +kernel⟩
theorem witness_ScrubbingAndRepair_3 :
    ∃ (s : State) (b : BankId), scrubOn s = true ∧ (s.bank b).state ≠ 2 ∧ (s.bank b).starved = false :=
  ⟨wScrub, 5, by decide +kernel⟩
theorem witness_ScrubbingAndRepair_4 :
    ∃ (s : State) (col : ColumnId), s.chmState col ≠ 1 ∧ s.chmState (col + 256) ≠ 1 ∧ (s.chm col).reads = [] ∧
    (s.chm (col + 256)).reads = [] ∧ heldWrites s col = 0 ∧ heldWrites s (col + 256) = 0 :=
  ⟨up.setRegF (grpModeReg 3) 24 5 9, 3, by decide +kernel⟩
theorem witness_ScrubbingAndRepair_5 :
    ∃ (s : State) (b : BankId) (col : Nat) (n : Nat), (s.bank b).log = [(col, n)] ∧ 16 ≤ n ∧ (s.bank b).noRepair = [] ∧
    s.lys.restarting = false ∧ fuseUsedAt s b (col / 256) + softUsed (s.bank b) (col / 256) < 2 :=
  ⟨up.modBank 5 fun x => { x with log := [(770, 16)] }, 5, 770, 16, by decide +kernel⟩
theorem witness_ScrubbingAndRepair_6 :
    ∃ (s : State) (b : BankId) (col : Nat) (n : Nat), (s.bank b).log = [(col, n)] ∧ 16 ≤ n ∧ (s.bank b).noRepair = [] ∧
    s.lys.restarting = false ∧ 2 ≤ fuseUsedAt s b (col / 256) + softUsed (s.bank b) (col / 256) :=
  ⟨up.modBank 5 fun x => { x with log := [(770, 16)], repairs := [(3, 8, 0), (3, 9, 1)] }, 5, 770, 16, by decide +kernel⟩
theorem witness_ScrubbingAndRepair_7 :
    ∃ (s : State) (b : BankId) (l : Nat) (rest : List Nat), (s.bank b).toRewrite = l :: rest ∧ (s.bank b).queue = [] ∧
    bankOf l = b.val ∧ (s.bank b).rewrites = [] ∧ (∀ i < 8, popcount (wordErr s (8 * l + i)) ≤ 1) :=
  ⟨(up.modGrt fun g => { g with errs := [(40, 4)], mem := [(321, 7)] }).modBank 5 fun x => { x with toRewrite := [5, 6] }, 5, 5, [6], by decide +kernel⟩
theorem witness_BankModesAndPower_0 :
    ∃ (s : State), offDrained s ∧ s.twn.role = 0 ∧ s.regB 0x7_0004 30 = false :=
  ⟨up, fun _ _ => rfl, by decide +kernel⟩
def wV2 : State := up.setReg 0x7_0004 0x40000000
theorem witness_BankModesAndPower_1 :
    ∃ (s : State), s.twn.role = 0 ∧ s.regB 0x7_0004 30 = true :=
  ⟨wV2, by decide +kernel⟩
theorem witness_BankModesAndPower_2 :
    ∃ (s : State) (b : BankId), bankMode s b = 1 ∧ (s.bank b).state = 0 ∧ (s.bank b).queue = [] :=
  ⟨up.setReg (grpModeReg 3) 4, 25, by decide +kernel⟩
theorem witness_BankModesAndPower_3 :
    ∃ (s : State) (b : BankId), (s.bank b).goingOff = true ∧ (s.bank b).state ≠ 3 ∧ (s.bank b).queue = [] :=
  ⟨(up.modBank 5 fun x => { x with goingOff := true }).modGrt fun g => { g with mem := [(321, 7), (70000, 8)] }, 5, by decide +kernel⟩
theorem witness_BankModesAndPower_4 :
    ∃ (s : State) (b : BankId), (s.bank b).state = 3 :=
  ⟨up.modBank 5 fun x => { x with state := 3 }, 5, by decide +kernel⟩
theorem witness_BankModesAndPower_5 :
    ∃ (s : State) (val : Word), offDrained s ∧ s.twn.role = 0 ∧ s.regB 0x7_0004 30 = false ∧ bit val 30 = true :=
  ⟨up.setReg (grpModeReg 3) 0x0500_0004, 0xC0000000, fun _ _ => rfl, by decide +kernel⟩
theorem witness_BankModesAndPower_6 :
    ∃ (s : State) (val : Word), s.twn.role = 0 ∧ s.regB 0x7_0004 30 = true ∧ bit val 30 = false :=
  ⟨wV2.setReg 0x7_2000 5, 0x80000000, by decide +kernel⟩
theorem witness_BankModesAndPower_7 :
    ∃ (s : State) (val : Word), offDrained s ∧ s.twn.role = 0 ∧ s.regB 0x7_0004 30 = true ∧
    (∀ j < 16, fld val (2 * j) 2 ≠ 3) :=
  ⟨wV2, 0x00000006, fun _ _ => rfl, by decide +kernel⟩
theorem witness_BankModesAndPower_8 :
    ∃ (s : State), s.twn.role = 0 ∧ s.regB 0x7_0004 30 = false :=
  ⟨up, by decide +kernel⟩
theorem witness_DoorbellsAndFetches_0 :
    ∃ (s : State) (q : QueueId), s.twn.role = 0 ∧ s.masters = true ∧ (s.qu q).bypass = true ∧ (s.qu q).st ≠ 0 ∧
    s.regB (queReg q 0) 30 = true ∧ (s.qu q).dbSt = 0 ∧ hostTagFree s = true :=
  ⟨(queued q0).setReg (queReg 3 0) 0x40000000, 3, by decide +kernel⟩
theorem witness_DoorbellsAndFetches_1 :
    ∃ (s : State) (q : QueueId) (o : BitVec 12), s.twn.role = 0 ∧ s.masters = true ∧ (s.qu q).bypass = true ∧ o ≠ 0 :=
  ⟨queued q0, 3, 4, by decide +kernel⟩
theorem witness_DoorbellsAndFetches_2 :
    ∃ (s : State) (q : QueueId), s.twn.role = 0 ∧ s.masters = true ∧ (s.qu q).bypass = true ∧ (s.qu q).st ≠ 0 ∧
    s.regF (queReg q 0) 0 10 ≠ 0 ∧ (s.qu q).dbSt ≠ 0 :=
  ⟨(queued { q0 with dbSt := 2 }).setReg (queReg 3 0) 5, 3, by decide +kernel⟩
theorem witness_DoorbellsAndFetches_3 :
    ∃ (s : State) (q : QueueId) (rec : BitVec 64), s.twn.role = 0 ∧ s.masters = true ∧ (s.qu q).bypass = true ∧
    (∀ p ∈ s.que, p.2.dbSt ≠ 1) ∧ s.pin.dbgOp = none ∧ (s.qu q).dbSt = 2 ∧ (s.qu q).dbAgain = false ∧
    badDoorbell (s.qu q) rec = false ∧ (s.qu q).park = none :=
  ⟨queued { q0 with dbSt := 2 }, 3, 0x0000_0000_0002_0003, by decide +kernel⟩
theorem witness_DoorbellsAndFetches_4 :
    ∃ (s : State) (q : QueueId) (rec : BitVec 64), s.twn.role = 0 ∧ s.masters = true ∧ (s.qu q).bypass = true ∧
    (∀ p ∈ s.que, p.2.dbSt ≠ 1) ∧ s.pin.dbgOp = none ∧ (s.qu q).dbSt = 2 ∧ (s.qu q).dbAgain = false ∧
    badDoorbell (s.qu q) rec = true ∧ (s.qu q).st = 1 :=
  ⟨queued { q0 with dbSt := 2 }, 3, 0x0000_0000_0000_0010, by decide +kernel⟩
theorem witness_DoorbellsAndFetches_5 :
    ∃ (s : State) (q : QueueId) (n : Nat), s.twn.role = 0 ∧ s.masters = true ∧ (s.qu q).bypass = true ∧
    ((s.qu q).st = 1 ∨ (s.qu q).st = 2) ∧ (s.qu q).fetching = 0 ∧ fetchCount s.pci.maxRead (s.qu q) = n ∧ 0 < n ∧
    hostTagFree s = true :=
  ⟨queued { q0 with sqPi := 3 }, 3, 3, by decide +kernel⟩
theorem witness_DoorbellsAndFetches_6 :
    ∃ (s : State) (q : QueueId) (descs : List (BitVec 256)), s.twn.role = 0 ∧ s.masters = true ∧
    (s.qu q).bypass = true ∧ (∀ p ∈ s.que, p.2.dbSt ≠ 1) ∧ s.pin.dbgOp = none ∧ descs ≠ [] ∧
    descs.length ≤ (s.qu q).fetching ∧ (s.qu q).st = 1 :=
  ⟨queued { q0 with fetching := 3 }, 3, [dword 8 0 0 0 0 0, dword 7 0 0 0 0 9], by decide +kernel⟩
def wCopy : BitVec 256 := dword 1 8 5 0x5000 0x40 0
def wDescErr : State := queued { q0 with context := [{ raw := wCopy, id := 4, started := true, reads := [(0, 4)] }] }
theorem witness_DoorbellsAndFetches_7 :
    ∃ (s : State) (q : QueueId) (cid : BitVec 16) (kind : HostErr) (d : Desc), s.twn.role = 0 ∧ s.masters = true ∧
    (s.qu q).bypass = true ∧ (∀ p ∈ s.lib.slots, p.2.loadBy = none) ∧ (s.qu q).context = [d] ∧ d.cid = cid.toNat ∧
    d.started = true ∧ d.ended = none ∧ d.reads ≠ [] ∧ (kind = .timeout → s.pci.ctoOff = false) :=
  ⟨wDescErr, 3, 9, .poisoned, { raw := wCopy, id := 4, started := true, reads := [(0, 4)] }, by decide +kernel⟩
def wFill : BitVec 256 := dword 4 8 5 0x1122334455667788 0x43 0
theorem witness_TransfersMoveTheirBytes_0 :
    ∃ (s : State) (q : QueueId) (w : BitVec 256) (i : Nat) (a : Nat) (env : DescEnv), quietGrotto s ∧
    readyFor s q w i a ∧ (s.qu q).bypass = true ∧ (s.qu q).enc = false ∧ env.tlbBad = [] ∧ env.addrErr = [] ∧
    fld w 192 64 = 0 ∧ contested s q = false ∧ (∀ m ∈ s.net.remotes, m.queue ≠ q.val) ∧ fld w 0 8 = 4 ∧
    bit w 11 = true ∧ fld w 128 64 < 2 ^ 56 ∧ fld w 128 64 % 64 + fld w 32 32 ≤ 64 :=
  ⟨withDesc wFill 0, 3, wFill, 4, 0, noHost, ⟨by decide +kernel, by decide +kernel, by decide +kernel, rfl, fun _ => ⟨rfl, rfl⟩, rfl, rfl, by decide +kernel⟩, by unfold readyFor; decide +kernel⟩
theorem witness_TransfersMoveTheirBytes_1 :
    ∃ (s : State) (q : QueueId) (w : BitVec 256) (i : Nat) (a : Nat) (env : DescEnv), quietGrotto s ∧
    readyFor s q w i a ∧ (s.qu q).bypass = true ∧ (s.qu q).enc = false ∧ env.tlbBad = [] ∧ env.addrErr = [] ∧
    fld w 192 64 = 0 ∧ contested s q = false ∧ (∀ m ∈ s.net.remotes, m.queue ≠ q.val) ∧ fld w 0 8 = 1 ∧
    bit w 10 = false ∧ bit w 11 = true ∧ fld w 128 64 < 2 ^ 56 ∧ fld w 64 64 % 64 + fld w 32 32 ≤ 64 ∧
    hostTagFree s = true ∧ 64 ≤ s.pci.maxRead ∧ fld w 32 32 ≤ env.hostData.length :=
  ⟨withDesc wCopy 0, 3, wCopy, 4, 0, noHost, ⟨by decide +kernel, by decide +kernel, by decide +kernel, rfl, fun _ => ⟨rfl, rfl⟩, rfl, rfl, by decide +kernel⟩, by unfold readyFor; decide +kernel⟩
def wOutCopy : BitVec 256 := dword 1 4 5 0x40 0x5000 0
theorem witness_TransfersMoveTheirBytes_2 :
    ∃ (s : State) (q : QueueId) (w : BitVec 256) (i : Nat) (a : Nat) (env : DescEnv), quietGrotto s ∧
    readyFor s q w i a ∧ (s.qu q).bypass = true ∧ (s.qu q).enc = false ∧ env.tlbBad = [] ∧ env.addrErr = [] ∧
    fld w 192 64 = 0 ∧ contested s q = false ∧ (∀ m ∈ s.net.remotes, m.queue ≠ q.val) ∧ fld w 0 8 = 1 ∧
    bit w 10 = true ∧ bit w 11 = false ∧ fld w 64 64 < 2 ^ 56 ∧ fld w 128 64 % 64 + fld w 32 32 ≤ 64 ∧
    64 ≤ s.pci.maxPayload :=
  ⟨(withDesc wOutCopy 0).modGrt fun g => { g with mem := [(64, 7), (66, 9)] }, 3, wOutCopy, 4, 0, noHost, ⟨by decide +kernel, by decide +kernel, by decide +kernel, rfl, fun _ => ⟨rfl, rfl⟩, rfl, rfl, by decide +kernel⟩, by unfold readyFor; decide +kernel⟩
def wIn : BitVec 256 := dword 2 0x20 5 0x5000 0 0
def epState (w : BitVec 256) (ep : Word) : State := (withDesc w ep).modChm 0 fun ch =>
  { ch with released := true, strata := [(0, live [(1070, BitVec.ofNat 80 (1 <<< 77)), (1070 + 1, 0)])] }
theorem witness_TransfersMoveTheirBytes_3 :
    ∃ (s : State) (q : QueueId) (w : BitVec 256) (i : Nat) (a : Nat) (env : DescEnv) (e : _), quietGrotto s ∧
    readyFor s q w i a ∧ (s.qu q).bypass = true ∧ (s.qu q).enc = false ∧ env.tlbBad = [] ∧ env.addrErr = [] ∧
    fld w 192 64 = 0 ∧ contested s q = false ∧ (∀ m ∈ s.net.remotes, m.queue ≠ q.val) ∧ fld w 0 8 = 2 ∧
    bit w 10 = false ∧ bit w 13 = true ∧ fld w 64 64 % 64 + fld w 32 32 ≤ 64 ∧ hostTagFree s = true ∧
    64 ≤ s.pci.maxRead ∧ fld w 32 32 ≤ env.hostData.length ∧ (s.col (colOf (e / 2))).lock = .off ∧
    fld (s.qu q).setup.ep 0 10 = e ∧ epOpen s e = true ∧ (tabGet ({} : Route) s.net.streams e).mid = 0 ∧
    (tabGet ({} : Route) s.net.streams e).landing = [] ∧ s.pin.ports = [] :=
  ⟨epState wIn 0x80000000, 3, wIn, 4, 0, noHost, 0, ⟨by decide +kernel, by decide +kernel, by decide +kernel, rfl, fun _ => ⟨rfl, rfl⟩, rfl, rfl, by decide +kernel⟩, by unfold readyFor; decide +kernel⟩
def wOut : BitVec 256 := dword 3 8 5 0 0x40 0
def beat5 : Beat := { data := 0x0504030201, bytes := 4, last := true, psn := false, par := beatParity 0x0504030201 }
theorem witness_TransfersMoveTheirBytes_4 :
    ∃ (s : State) (q : QueueId) (w : BitVec 256) (i : Nat) (a : Nat) (env : DescEnv) (e : _) (b : _), quietGrotto s ∧
    readyFor s q w i a ∧ (s.qu q).bypass = true ∧ (s.qu q).enc = false ∧ env.tlbBad = [] ∧ env.addrErr = [] ∧
    fld w 192 64 = 0 ∧ contested s q = false ∧ (∀ m ∈ s.net.remotes, m.queue ≠ q.val) ∧ fld w 0 8 = 3 ∧
    bit w 11 = true ∧ fld w 128 64 < 2 ^ 56 ∧ fld w 128 64 % 64 + fld w 32 32 ≤ 64 ∧ fld (s.qu q).setup.ep 0 10 = e ∧
    epOpen s e = true ∧ env.beats = [b] ∧ beatOk b = true ∧ b.last = true ∧ fld w 32 32 = b.bytes.toNat + 1 :=
  ⟨epState wOut 0xC0000000, 3, wOut, 4, 0, { noHost with beats := [beat5] }, 0, beat5, ⟨by decide +kernel, by decide +kernel, by decide +kernel, rfl, fun _ => ⟨rfl, rfl⟩, rfl, rfl, by decide +kernel⟩, by unfold readyFor; decide +kernel⟩
def wLib : BitVec 256 := dword 0x15 0 0 0 0 (7 <<< 20 + 3 <<< 11 + 1 <<< 9)
theorem witness_RequestsPassFromQueues_0 :
    ∃ (s : State) (q : QueueId) (w : BitVec 256) (i : Nat) (a : Nat) (sub : _), readyFor s q w i a ∧
    granted s q = true ∧ fld w 0 4 = 5 ∧ fld w 4 4 = sub ∧ 1 ≤ sub ∧ s.lib.fifo.length < 256 ∧ s.fenced 2 = false :=
  ⟨withDesc wLib 0, 3, wLib, 4, 0, 1, by unfold readyFor; decide +kernel⟩
def wSw : BitVec 256 := dword 6 0x10 0 0 0 (3 <<< 16 + 6)
theorem witness_RequestsPassFromQueues_1 :
    ∃ (s : State) (q : QueueId) (w : BitVec 256) (i : Nat) (a : Nat), readyFor s q w i a ∧ granted s q = true ∧
    fld w 0 8 = 6 ∧ (s.chm (s.gov (fld w 208 9))).cmd = none :=
  ⟨withDesc wSw 0, 3, wSw, 4, 0, by unfold readyFor; decide +kernel⟩
def wGf : BitVec 256 := dword 22 0 0 0 0 (2 <<< 16 + 4)
theorem witness_RequestsPassFromQueues_2 :
    ∃ (s : State) (q : QueueId) (w : BitVec 256) (i : Nat) (a : Nat) (op : _), readyFor s q w i a ∧ granted s q = true ∧
    fld w 0 8 = 22 ∧ s.regB (grpReg (fld w 208 4) 0) 31 = true ∧ (s.grp (fld w 208 4)).fire = none ∧ fld w 194 2 = op :=
  ⟨(withDesc wGf 0).setReg (grpReg 2 0) 0x80000000, 3, wGf, 4, 0, 1, by unfold readyFor; decide +kernel⟩
theorem witness_RequestsPassFromQueues_3 :
    ∃ (s : State) (q : QueueId) (w : BitVec 256) (i : Nat) (a : Nat), readyFor s q w i a ∧ granted s q = true ∧
    fld w 0 8 = 22 ∧ s.regB (grpReg (fld w 208 4) 0) 31 = false :=
  ⟨withDesc wGf 0, 3, wGf, 4, 0, by unfold readyFor; decide +kernel⟩
def wNop : BitVec 256 := dword 8 0 0 0 0 0
theorem witness_RequestsPassFromQueues_4 :
    ∃ (s : State) (q : QueueId) (w : BitVec 256) (i : Nat) (a : Nat), readyFor s q w i a ∧ granted s q = true ∧
    fld w 0 8 = 8 :=
  ⟨withDesc wNop 0, 3, wNop, 4, 0, by unfold readyFor; decide +kernel⟩
def wFen (n : Nat) : BitVec 256 := dword 7 0 0 0 0 n
theorem witness_RequestsPassFromQueues_5 :
    ∃ (s : State) (q : QueueId) (w : BitVec 256) (i : Nat) (a : Nat), readyFor s q w i a ∧ granted s q = true ∧
    fld w 0 8 = 7 ∧ fld w 192 64 ≤ s.now :=
  ⟨withDesc (wFen 0) 0, 3, wFen 0, 4, 0, by unfold readyFor; decide +kernel⟩
theorem witness_RequestsPassFromQueues_6 :
    ∃ (s : State) (q : QueueId) (w : BitVec 256) (i : Nat) (a : Nat), readyFor s q w i a ∧ granted s q = true ∧
    fld w 0 8 = 7 ∧ s.now < fld w 192 64 :=
  ⟨withDesc (wFen 9) 0, 3, wFen 9, 4, 0, by unfold readyFor; decide +kernel⟩
def wLoad : BitVec 256 := dword 5 0 5648 0x5000 0 7
/-- A header of Table Loading-5 for one section and a length, with its HCRC. -/
def headOf (len : Nat) : List Byte :=
  let h := leBytes 4 0x42415053 ++ leBytes 2 1 ++ [2, 0] ++ leBytes 4 (devRead 0).toNat ++ leBytes 1 (fld (devRead 4) 8 8) ++ [0, 0, 0]
    ++ leBytes 4 77 ++ leBytes 4 1 ++ leBytes 4 len ++ leBytes 2 1 ++ leBytes 2 0 ++ List.replicate 92 0
  h ++ leBytes 4 (crc32 h).toNat
/-- The entry of a critical, compressed CHIMAGE section (Table Loading-6). -/
def goodEntry : List Byte :=
  leBytes 2 0x10 ++ leBytes 2 3 ++ leBytes 4 2 ++ leBytes 4 5584 ++ leBytes 4 64 ++ leBytes 4 20512 ++ List.replicate 76 0
/-- SLOT 2, REL and no HOME, then an image of unprogrammed cells (Table Loading-9). -/
def goodPlain : List Byte := [2, 0, 0, 0, 1, 0, 0xFF, 0xFF] ++ List.replicate 20504 0
def goodCont : Container := contOf (headOf 5648 ++ goodEntry) [{ digestOk := true, plain := some goodPlain }] 5648
def goodImage : ChamberImage := { slot := 2, pers := 0, rel := true, lsi := false, home := 0xFFFF, words := [] }
def goodSect : ContSection :=
  { offset := 5584, slen := 64, arg := 2, critical := true, deflate := true, digestOk := true, decompressOk := true,
    sizeOk := true, zeroOk := true, body := .chimage goodImage }
def wLoads : State := (withDesc wLoad 0).modCfg fun c => { c with programmed := 1 }
def envOf (n : Nat) : DescEnv := { noHost with hostData := List.replicate n 0 }
theorem witness_ImagesLoadFromQueues_0 :
    ∃ (s : State) (q : QueueId) (w : BitVec 256) (i : Nat) (a : Nat) (c : Container) (env : DescEnv) (x : ContSection) (im : ChamberImage), readyFor s q w i a ∧
    granted s q = true ∧ contested s q = false ∧ fld w 0 8 = 5 ∧ env.tlbBad = [] ∧ (s.qu q).bypass = true ∧
    (s.qu q).enc = false ∧ s.netMode = 0 ∧ s.fenced 2 = false ∧ loadPathDown s = false ∧ hostTagFree s = true ∧
    64 ≤ s.pci.maxRead ∧ fld w 32 32 ≤ env.hostData.length ∧ (∀ p ∈ s.lib.slots, p.2.loadBy = none) ∧
    hostReject s (q, i) (fld w 32 32) (fld w 192 64) c = none ∧ c.sections = [x] ∧ x.body = .chimage im ∧
    dataStart c ≤ x.offset ∧ 0 < x.slen ∧ x.offset + x.slen ≤ fld w 32 32 :=
  ⟨wLoads, 3, wLoad, 4, 0, goodCont, envOf 5648, goodSect, goodImage, by unfold readyFor; decide +kernel⟩
def wShort : BitVec 256 := dword 5 0 512 0x5000 0 0
theorem witness_ImagesLoadFromQueues_1 :
    ∃ (s : State) (q : QueueId) (w : BitVec 256) (i : Nat) (a : Nat) (c : Container) (env : DescEnv) (why : Nat), readyFor s q w i a ∧
    granted s q = true ∧ contested s q = false ∧ fld w 0 8 = 5 ∧ env.tlbBad = [] ∧ (s.qu q).bypass = true ∧
    (s.qu q).enc = false ∧ s.netMode = 0 ∧ s.fenced 2 = false ∧ loadPathDown s = false ∧ hostTagFree s = true ∧
    64 ≤ s.pci.maxRead ∧ fld w 32 32 ≤ env.hostData.length ∧ (∀ p ∈ s.lib.slots, p.2.loadBy = none) ∧
    hostReject s (q, i) (fld w 32 32) (fld w 192 64) c = some (why, 0xFFFF) :=
  ⟨withDesc wShort 0, 3, wShort, 4, 0, badCont, envOf 512, 2, by unfold readyFor; decide +kernel⟩
def ended : Desc := { raw := wNop, id := 4, started := true, ended := some (0, 0) }
theorem witness_CompletionsAndQueueStates_0 :
    ∃ (s : State) (q : QueueId) (d : Desc) (st : Nat) (res : Nat), s.twn.role = 0 ∧ s.masters = true ∧
    (s.qu q).context = [d] ∧ d.ended = some (st, res) ∧ (s.qu q).bypass = true ∧ (s.qu q).st = 1 ∧
    s.regB (queReg q 0x34) 31 = false ∧ s.regF (queReg q 0x38) 0 20 = 0 ∧ (s.qu q).retries = [] ∧ d.reads = [] ∧
    writesOpen s q d.id = false :=
  ⟨queued { q0 with context := [ended] }, 3, ended, 0, 0, by decide +kernel⟩
theorem witness_CompletionsAndQueueStates_1 :
    ∃ (s : State) (q : QueueId), s.twn.role = 0 ∧ s.masters = true ∧ s.regB (queReg q 0x34) 31 = true ∧
    s.regF (queReg q 0x34) 10 10 ≠ 0 ∧ 0 < (s.qu q).irqCount ∧ s.pci.msixOn = true ∧
    s.masked (s.regF (queReg q 0x34) 0 9) = false :=
  ⟨(queued { q0 with irqCount := 2 }).setReg (queReg 3 0x34) 0x80000C05 |>.modPci fun p => { p with msixOn := true, table := [(5, { mask := false })] }, 3, by decide +kernel⟩
def wEn : State := ((queued {}).setReg (queReg 3 0x08) 0x1004).setReg (queReg 3 0x2C) 0x80000000
theorem witness_CompletionsAndQueueStates_2 :
    ∃ (s : State) (q : QueueId) (val : Word), s.twn.role = 0 ∧ s.masters = true ∧ (s.qu q).st = 0 ∧ bit val 30 = true ∧
    s.regB (queReg q 0x30) 31 = false ∧ s.regB (queReg q 0x2C) 31 = true ∧ s.regB (queReg q 0x2C) 30 = false ∧
    s.regB (queReg q 0x28) 31 = false :=
  ⟨wEn, 3, 0x40000000, by decide +kernel⟩
theorem witness_CompletionsAndQueueStates_3 :
    ∃ (s : State) (q : QueueId) (val : Word), s.twn.role = 0 ∧ s.masters = true ∧ (s.qu q).st = 0 ∧ bit val 30 = false ∧
    fld val 0 10 = 0 :=
  ⟨wEn, 3, 0, by decide +kernel⟩
theorem witness_CompletionsAndQueueStates_4 :
    ∃ (s : State) (q : QueueId), s.twn.role = 0 ∧ s.masters = true ∧ (s.qu q).st = 1 ∧ (s.qu q).bypass = true ∧
    (s.qu q).context = [] ∧ (∀ p ∈ s.lib.slots, p.2.loadBy = none) :=
  ⟨(queued q0).setReg (queReg 3 0) 0xC0000000, 3, by decide +kernel⟩
theorem witness_CompletionsAndQueueStates_5 :
    ∃ (s : State) (q : QueueId), s.twn.role = 0 ∧ s.masters = true ∧ (s.qu q).st = 6 ∧ (s.qu q).context = [] ∧
    (s.qu q).fetching = 0 ∧ (s.qu q).transit = 0 ∧ (s.qu q).retries = [] ∧ (s.qu q).bypass = true :=
  ⟨queued { q0 with draining := true, flushed := 2 }, 3, by decide +kernel⟩
def wOwned : State := queued { q0 with ownerSeen := true, setup := { setup0 0 with bind := 0x80000005 } }
theorem witness_CompletionsAndQueueStates_6 :
    ∃ (s : State) (q : QueueId), s.twn.role = 0 ∧ s.masters = true ∧ (s.qu q).st = 1 ∧ (s.qu q).ownen = true ∧
    (s.qu q).ownerSeen = true ∧ persPresent s (s.qu q).owner = false ∧ (s.qu q).bypass = true ∧
    (∀ p ∈ s.lib.slots, p.2.loadBy = none) :=
  ⟨wOwned, 3, by decide +kernel⟩
def walk (acc : Nat) : Walk := { asid := 2, vpn := 5, queue := 3, access := acc, cid := 0xFFFF, va := 4096 * 5 }
theorem witness_WalksAndInvalidations_0 :
    ∃ (s : State) (asid : Fin 256) (vpn : BitVec 36) (es : List (BitVec 64)) (size : Nat) (ppn : Nat) (r : Bool) (wr : Bool) (q : Nat), s.twn.role = 0 ∧
    s.masters = true ∧ s.pin.dbgOp = none ∧ (∀ p ∈ s.que, p.2.dbSt ≠ 1) ∧
    walkEntries (4096 * vpn.toNat) 4 es = .inr (size, ppn, r, wr) ∧
    s.xlt.walks = [{ asid := asid, vpn := vpn.toNat, queue := q, access := 0, cid := 0xFFFF, va := 4096 * vpn.toNat }] ∧
    (asid.val, vpn.toNat) ∈ s.xlt.walking :=
  ⟨(queued q0).modXlt fun x => { x with walks := [walk 0], walking := [(2, 5)] }, 2, 5, [0x1001, 0x2001, 0x3001, 0x9007], 12, 9, true, true, 3, by decide +kernel⟩
theorem witness_WalksAndInvalidations_1 :
    ∃ (s : State) (asid : Fin 256) (vpn : BitVec 36) (es : List (BitVec 64)) (k : Nat) (l : Nat) (q : QueueId), s.twn.role = 0 ∧
    s.masters = true ∧ s.pin.dbgOp = none ∧ (∀ p ∈ s.que, p.2.dbSt ≠ 1) ∧
    walkEntries (4096 * vpn.toNat) 4 es = .inl (k, l) ∧
    s.xlt.walks = [{ asid := asid, vpn := vpn.toNat, queue := q, access := 1, cid := 0xFFFF, va := 4096 * vpn.toNat }] ∧
    (asid.val, vpn.toNat) ∈ s.xlt.walking ∧ (s.qu q).st = 1 ∧ (s.qu q).context = [] ∧ recordWaits s q = false :=
  ⟨(queued q0).modXlt fun x => { x with walks := [walk 1], walking := [(2, 5)] }, 2, 5, [0x1000], 1, 4, 3, by decide +kernel⟩
def wMiss : State := (queued { q0 with setup := { setup0 0 with prot := 0 }, sqPi := 3 }).setReg (asReg 0) 0x7000001
theorem witness_WalksAndInvalidations_2 :
    ∃ (s : State) (q : QueueId) (n : Nat) (va : Nat), s.twn.role = 0 ∧ s.masters = true ∧ s.pin.dbgOp = none ∧
    (∀ p ∈ s.que, p.2.dbSt ≠ 1) ∧ (s.qu q).st = 1 ∧ (s.qu q).bypass = false ∧ (s.qu q).fetching = 0 ∧
    fetchCount s.pci.maxRead (s.qu q) = n ∧ 0 < n ∧ (s.qu q).fetchVa = va ∧ va + 32 * n ≤ 2 ^ 48 ∧
    s.regB (asReg (s.qu q).asid) 0 = true ∧ tlbFind s (s.qu q).asid va = none ∧ s.xlt.walks = [] ∧ s.xlt.walking = [] ∧
    s.xlt.filling = [] ∧ hostReads s < tagCap s 1 :=
  ⟨wMiss, 3, 3, 0x1000, by decide +kernel⟩
def entry (asid vpn : Nat) : TlbEntry := { asid, size := 12, vpn, ppn := 9, r := true, w := true }
def tlb3 : State := (up.modXlt fun x => { x with tlb := [entry 2 5, entry 2 6, entry 3 5] }).setReg 0x9_0020 0x5000
theorem witness_WalksAndInvalidations_3 :
    ∃ (s : State), s.twn.role = 0 ∧ s.xlt.inv = [] :=
  ⟨tlb3, by decide +kernel⟩
theorem witness_WalksAndInvalidations_5 :
    ∃ (s : State) (va : Nat), s.twn.role = 0 ∧ s.xlt.inv = [] ∧
    (s.reg 0x9_0020).toNat + s.regF 0x9_0024 0 16 * 2 ^ 32 = va :=
  ⟨tlb3, 0x5000, by decide +kernel⟩
def inv1 : Inval := { scope := 1, asid := 0, va := 0, npages := 0 }
theorem witness_WalksAndInvalidations_6 :
    ∃ (s : State), s.twn.role = 0 ∧ 16 ≤ s.xlt.inv.length :=
  ⟨tlb3.modXlt fun x => { x with inv := List.replicate 16 inv1 }, by decide +kernel⟩
theorem witness_WalksAndInvalidations_7 :
    ∃ (s : State) (v : Inval), s.twn.role = 0 ∧ s.xlt.inv = [v] ∧ invReadsOver s = true ∧
    (∀ p ∈ s.que, p.2.retries = []) :=
  ⟨tlb3.modXlt fun x => { x with inv := [inv1] }, inv1, by decide +kernel⟩
theorem witness_WalksAndInvalidations_8 :
    ∃ (s : State), invReadsOver s = false :=
  ⟨(queued { q0 with dbSt := 2 }).modXlt fun x => { x with inv := [inv1], invReads := [⟨3, 1, 0, 0⟩] }, by decide +kernel⟩
def frec : FaultRec := { queue := 3, kind := 1, access := 2, enc := false, more := false, ended := false, cid := 9, level := 4, asid := 2, va := 0x5000, restart := 0, tbase := 0 }
def wFault : State := ((queued q0).modXlt fun x => { x with waiting := [frec] }).setReg 0x9_0004 0x80000000
theorem witness_FaultRingTakesRecords_0 :
    ∃ (s : State) (r : FaultRec) (rest : List FaultRec), s.twn.role = 0 ∧ s.masters = true ∧ s.xlt.waiting = r :: rest ∧
    s.regB 0x9_0004 31 = true ∧ s.regB 0x9_0004 30 = false ∧ frFull s = false ∧ s.xlt.frErr = false ∧
    (∀ w ∈ s.xlt.later, w.queue ≠ r.queue) :=
  ⟨wFault, frec, [], by decide +kernel⟩
theorem witness_FaultRingTakesRecords_1 :
    ∃ (s : State), s.twn.role = 0 ∧ s.masters = true ∧ s.xlt.waiting ≠ [] ∧ hostTagFree s = true :=
  ⟨wFault, by decide +kernel⟩
theorem witness_FaultRingTakesRecords_2 :
    ∃ (s : State), s.twn.role = 0 ∧ s.masters = true ∧ s.xlt.waiting ≠ [] ∧ hostTagFree s = false :=
  ⟨wFault.setReg 0x9_0030 0x1000, by decide +kernel⟩
theorem witness_FaultRingTakesRecords_3 :
    ∃ (s : State), s.twn.role = 0 ∧ s.masters = true ∧ s.regB 0x9_0004 31 = false :=
  ⟨queued q0, by decide +kernel⟩
theorem witness_FaultRingTakesRecords_4 :
    ∃ (s : State) (q : QueueId), s.twn.role = 0 ∧ s.masters = true ∧ (s.qu q).retries = [5] ∧
    (s.qu q).retryTold = false ∧ (s.qu q).bypass = true :=
  ⟨queued { q0 with retries := [5] }, 3, by decide +kernel⟩
def wParked : State := queued { q0 with park := some ⟨2, 4⟩, context := [{ raw := wCopy, id := 4, started := true, stopped := true }] }
theorem witness_FaultRingTakesRecords_5 :
    ∃ (s : State) (q : QueueId) (p : Park) (d : Desc), s.twn.role = 0 ∧ s.masters = true ∧ (s.qu q).st = 3 ∧
    (s.qu q).ownerPark = false ∧ (s.qu q).park = some p ∧ (p.access = 2 ∨ p.access = 3) ∧ (s.qu q).context = [d] ∧
    d.id = p.cid ∧ d.opc ≠ 5 ∧ d.ended = none ∧ (s.qu q).bypass = true ∧ (s.qu q).detached = false :=
  ⟨wParked, 3, ⟨2, 4⟩, { raw := wCopy, id := 4, started := true, stopped := true }, by decide +kernel⟩
theorem witness_FaultRingTakesRecords_6 :
    ∃ (s : State), s.twn.role = 0 ∧ s.masters = true :=
  ⟨queued q0, by decide +kernel⟩
def keyed (b : Nat) : State := (bunUp b).modKey 5 fun k => { k with st := 2, rights := 0xF, key := [1, 2] }
def wSess : State := (keyed 1).modSess 1 true fun x => { x with enabled := true, index := 5, own := some 7, peer := some 8 }
theorem witness_SessionsAndRecords_0 :
    ∃ (s : State) (b : BundleId) (tx : Bool) (own : BitVec 128) (peer : BitVec 128) (ss : Session), s.sess b (!tx) = ss ∧
    ss.own = some own ∧ ss.peer = some peer ∧ ss.enabled = true ∧ ss.running = false ∧ (s.bun b).st = 6 ∧
    s.inReset 5 = false ∧ (s.key ss.index).dbl = false ∧ linkKeyOk s ss.index = true ∧ (s.bun b).link.waiting = [] ∧
    (tx = true ∨ (s.bun b).link.record = []) :=
  ⟨wSess, 1, false, 7, 8, { enabled := true, index := 5, own := some 7, peer := some 8 }, by decide +kernel⟩
def wSessTx : State := ((keyed 1).modSess 1 false fun x => { x with enabled := true, index := 5, own := some 7, peer := some 8, fails := 2 }).modLink 1 fun l =>
  { l with retry := [mkFlit 0 1 0 2 1 0 [7], mkFlit 0xA 1 0 0 0 0 [9]] }
theorem witness_SessionsAndRecords_0' :
    ∃ (s : State) (b : BundleId) (tx : Bool) (own : BitVec 128) (peer : BitVec 128) (ss : Session), s.sess b (!tx) = ss ∧
    ss.own = some own ∧ ss.peer = some peer ∧ ss.enabled = true ∧ ss.running = false ∧ (s.bun b).st = 6 ∧
    s.inReset 5 = false ∧ (s.key ss.index).dbl = false ∧ linkKeyOk s ss.index = true ∧ (s.bun b).link.waiting = [] ∧
    (tx = true ∨ (s.bun b).link.record = []) :=
  ⟨wSessTx, 1, true, 7, 8, { enabled := true, index := 5, own := some 7, peer := some 8, fails := 2 }, by decide +kernel⟩
def wRec : State := ((keyed 1).modSess 1 false fun x => { x with enabled := true, index := 5, running := true }).modLink 1 fun l =>
  { l with waiting := [mkFlit 0 1 0 2 1 0 [7], mkFlit 0 1 0 2 1 0 [8], mkFlit 0 2 0 2 1 0 [9]] }
theorem witness_SessionsAndRecords_1 :
    ∃ (s : State) (b : BundleId), (s.sess b false).running = true ∧ s.wireOpen b = true ∧
    (nextRecord s b).isEmpty = false ∧ s.standby b = false ∧ (s.key (s.sess b false).index).st ≠ 3 ∧
    s.inReset 5 = false ∧ s.regB (0xA_0200 + 0x10 * b) 31 = true ∧
    s.regF (0xA_0200 + 0x10 * b) 8 6 = (s.sess b false).index :=
  ⟨wRec.setReg 0xA_0210 0x80000500, 1, by decide +kernel⟩
theorem witness_SessionsAndRecords_2 :
    ∃ (s : State) (b : BundleId), (s.sess b false).running = true ∧ s.wireOpen b = true ∧
    (nextRecord s b).isEmpty = false ∧ s.standby b = false ∧ (s.sess b false).counter ≠ 2 ^ 64 - 1 ∧
    (s.key (s.sess b false).index).dbl = false ∧ s.cry.gcmBad = false :=
  ⟨wRec, 1, by decide +kernel⟩
def scanning : State := (runs.modInteg fun i => { i with running := true, resPos := 5, libPos := 9 })
theorem witness_IntegrityLanesScanAndRewrite_0 :
    ∃ (s : State), lanesRun s = true ∧ s.integ.resPos ≠ 0 ∧ s.integ.resPos < 163839 ∧ s.integ.libPos < 245759 ∧
    (s.strat (s.integ.resPos / 320) (s.integ.resPos / 80 % 4)).loaded = false ∧
    (s.strat (s.integ.resPos / 320) (s.integ.resPos / 80 % 4)).failMask = [] ∧ (s.slot (s.integ.libPos / 80)).st ≠ 2 ∧
    s.integ.slotFail = [] :=
  ⟨scanning, by decide +kernel⟩
theorem witness_IntegrityLanesScanAndRewrite_1 :
    ∃ (s : State) (c : Nat) (k : Nat) (row : Nat), lanesRun s = true ∧ s.paired = false ∧ s.twn.checking = false ∧
    s.integ.resPos = 320 * c + 80 * k + row ∧ c < 512 ∧ k < 4 ∧ 1 ≤ row ∧ row < 79 ∧ s.integ.dropStratum = false ∧
    s.integ.libPos < 245759 ∧ s.integ.libPos % 80 ≠ 79 ∧ (s.slot (s.integ.libPos / 80)).st ≠ 2 ∧ s.integ.slotFail = [] ∧
    (s.strat c k).loaded = true ∧ (s.strat c k).refilling = false ∧ (s.strat c k).unchecked = false ∧
    s.fab.retired.contains (s.physOf (colOf c)) = false ∧ (s.strat c k).failMask = [] ∧ (s.strat c k).liveLap = none ∧
    (s.strat c k).quar = false ∧ (s.col (colOf c)).lock = .off ∧
    rowSig (s.strat c k).words row ≠ (s.slot (s.strat c k).slot).golden.getD row 0 ∧
    (s.slot (s.strat c k).slot).goldBad = false :=
  ⟨scanning.modInteg fun i => { i with resPos := 965 }, 3, 0, 5, by decide +kernel⟩
theorem witness_IntegrityLanesScanAndRewrite_2 :
    ∃ (s : State), lanesRun s = true ∧ s.integ.overrun = false :=
  ⟨scanning, by decide +kernel⟩
def img : ImageWords := [(0, 0xF0)]
def rw : LibReq := { op := 7, chamber := 3, stratum := 1, slot := 7, cls := 1, rows := [0, 5] }
def wRw : State := (scanning.modLib fun l => { l with device := [rw] }).modSlot 7 fun x => { x with image := img, golden := (goldenOf img).1, st := 2 }
theorem witness_IntegrityLanesScanAndRewrite_3 :
    ∃ (s : State) (r : LibReq) (k : Nat), s.freeStream = some k ∧ s.lib.device = [r] ∧ r.op = 7 ∧
    targetFree s r = true ∧ s.inReset 2 = false ∧ s.inReset (tierOf r.chamber) = false ∧ s.fenced 2 = false ∧
    s.fenced (tierOf r.chamber) = false ∧ r.kind = 0 ∧ r.targets = [] ∧ (s.strat r.chamber r.stratum).rewriting = true ∧
    (s.slot r.slot).st = 2 ∧ (s.slot r.slot).goldBad = false ∧ s.pstate < 2 ∧ (s.col (colOf r.chamber)).lock = .off ∧
    s.isActive r.chamber r.stratum = false ∧
    (∀ row ∈ r.rows, rowSig (s.slot r.slot).image row = (s.slot r.slot).golden.getD row 0) :=
  ⟨wRw.modStrat 3 1 fun st => { st with rewriting := true }, rw, 0, by decide +kernel⟩
def wReread : State := ((wRw.modLib fun l => { l with device := [], streams := [(2, some rw)] }).modStrat 3 1 fun st => { st with words := img, failMask := [0, 5], rewriting := true })
theorem witness_IntegrityLanesScanAndRewrite_4 :
    ∃ (s : State) (c : ChamberId) (st : StratumId) (k : Nat) (r : LibReq), s.busyStreams = [(k, r)] ∧ r.op = 7 ∧
    r.chamber = c.val ∧ r.stratum = st.val ∧ r.desc = none ∧ r.kind = 0 ∧ s.stream k = some r ∧
    (s.strat c st).wasActive = false ∧ (s.slot (s.strat c st).slot).goldBad = false ∧
    (∀ row ∈ r.rows, rowSig (s.strat c st).words row = (s.slot (s.strat c st).slot).golden.getD row 0) :=
  ⟨wReread, 3, 1, 2, rw, by decide +kernel⟩
theorem witness_IntegrityLanesScanAndRewrite_5 :
    ∃ (s : State) (c : ChamberId) (st : StratumId) (k : Nat) (r : LibReq), s.busyStreams = [(k, r)] ∧ r.op = 7 ∧
    r.chamber = c.val ∧ r.stratum = st.val ∧ r.desc = none ∧ r.kind = 0 ∧ s.stream k = some r ∧
    (s.col (colOf c)).lock = .off ∧ (s.strat c st).quar = false ∧ (s.slot (s.strat c st).slot).goldBad = false :=
  ⟨wReread, 3, 1, 2, rw, by decide +kernel⟩
def bun (st : Nat) : State := up.modBun 2 fun x => { x with st := st, link := { st := 2, retry := [mkFlit 0 1 0 2 1 0 [7]] } }
def en (s : State) (v : Word) : State := s.setReg (gvlReg 2 0) v
theorem witness_BundleControlRegister_0 :
    ∃ (s : State) (b : BundleId) (val : Word), s.twn.role = 0 ∧ s.twinBundle b = false ∧ fld val 26 5 = 0 ∧
    s.regB (gvlReg b 0) 31 = false ∧ s.regB (gvlReg b 0) 28 = false :=
  ⟨bun 0, 2, 0x03FFFFFF, by decide +kernel⟩
theorem witness_BundleControlRegister_1 :
    ∃ (s : State) (b : BundleId) (val : Word), s.twn.role = 0 ∧ s.twinBundle b = false ∧ fld val 26 2 ≤ 2 ∧
    (s.bun b).st = 6 :=
  ⟨en (bun 6) 0x80000000, 2, 0, by decide +kernel⟩
theorem witness_BundleControlRegister_2 :
    ∃ (s : State) (b : BundleId) (val : Word), s.twn.role = 0 ∧ s.twinBundle b = false ∧ fld val 26 2 ≤ 2 ∧
    (s.bun b).st ≠ 6 :=
  ⟨en (bun 3) 0x80000000, 2, 0, by decide +kernel⟩
theorem witness_BundleControlRegister_3 :
    ∃ (s : State) (b : BundleId), s.twn.role = 0 ∧ s.twinBundle b = false ∧ s.regB (gvlReg b 0) 31 = true ∧
    s.regF (gvlReg b 0) 26 2 ≤ 2 ∧ (s.bun b).st = 8 :=
  ⟨en (bun 8) 0x80000000, 2, by decide +kernel⟩
theorem witness_BundleControlRegister_4 :
    ∃ (s : State) (b : BundleId), s.twn.role = 0 ∧ s.twinBundle b = false ∧ s.regB (gvlReg b 0) 31 = true ∧
    s.regF (gvlReg b 0) 26 2 ≤ 2 ∧ (s.bun b).st = 6 ∧ (s.bun b).link.pair = false :=
  ⟨en (bun 6) 0x80000000, 2, by decide +kernel⟩
theorem witness_BundleControlRegister_5 :
    ∃ (s : State) (b : BundleId), s.twn.role = 0 ∧ s.twinBundle b = false ∧ s.regB (gvlReg b 0) 31 = true ∧
    s.regF (gvlReg b 0) 26 2 ≤ 2 ∧ (s.bun b).st = 6 ∧ s.regB (gvlReg b 0) 30 = false ∧ s.regB (gvlReg b 0) 29 = false :=
  ⟨en (bun 6) 0x80000000, 2, by decide +kernel⟩
theorem witness_BundleControlRegister_6 :
    ∃ (s : State) (b : BundleId) (val : Word), s.twn.role = 0 ∧ s.twinBundle b = false ∧ s.regB (gvlReg b 0) 31 = true ∧
    s.regF (gvlReg b 0) 26 2 ≤ 2 ∧ fld val 26 5 = 0 ∧ bit val 31 = true ∧ s.regB (gvlReg b 0) 28 = false ∧
    (s.bun b).st ≠ 6 :=
  ⟨en (bun 3) 0x80000000, 2, 0x80000000, by decide +kernel⟩
theorem witness_BundleControlRegister_7 :
    ∃ (s : State) (b : BundleId) (val : Word), s.twn.role = 0 ∧ s.twinBundle b = false ∧ s.regB (gvlReg b 0) 31 = true ∧
    s.regF (gvlReg b 0) 26 2 ≤ 2 ∧ fld val 26 2 = 0 ∧ fld val 29 3 = 4 ∧ s.regB (gvlReg b 0) 28 = true ∧
    (s.bun b).st = 9 :=
  ⟨en (bun 9) 0x90000000, 2, 0x80000000, by decide +kernel⟩
theorem witness_BundleControlRegister_8 :
    ∃ (s : State) (b : BundleId), s.twn.role = 0 ∧ s.twinBundle b = false ∧ s.regF (gvlReg b 0x20) 29 3 ≤ 4 ∧
    s.regB (gvlReg b 0x20) 28 = false ∧ s.regB (gvlReg b 0x20) 19 = false ∧ (s.bun b).st = 9 :=
  ⟨(en (bun 9) 0x90000000).setReg (gvlReg 2 0x20) 0x01700000, 2, by decide +kernel⟩
theorem witness_BundleControlRegister_9 :
    ∃ (s : State) (b : BundleId), s.twn.role = 0 ∧ s.twinBundle b = false ∧ s.regF (gvlReg b 0x20) 29 3 ≤ 4 ∧
    s.regB (gvlReg b 0x20) 28 = false ∧ s.regB (gvlReg b 0x20) 19 = false :=
  ⟨(en (bun 9) 0x90000000).modLane 2 3 fun l => { l with bits := ⟨5, true⟩ }, 2, by decide +kernel⟩
theorem witness_TrainingLeadsToUp_0 :
    ∃ (s : State) (b : BundleId), s.twinBundle b = false ∧ (s.bun b).training = true ∧ (s.bun b).woken = false ∧
    s.regB (gvlReg b 0) 29 = false ∧ s.pstate < 3 ∧ fld (s.reg (0xA_0200 + 0x10 * b)) 30 2 = 0 :=
  ⟨bun 3, 2, by decide +kernel⟩
theorem witness_TrainingLeadsToUp_1 :
    ∃ (s : State) (b : BundleId), s.twinBundle b = false ∧ (s.bun b).training = true ∧ (s.bun b).timeouts < 8 :=
  ⟨bun 3, 2, by decide +kernel⟩
theorem witness_TrainingLeadsToUp_2 :
    ∃ (s : State) (b : BundleId), s.twinBundle b = false ∧ (s.bun b).st = 8 :=
  ⟨bun 8, 2, by decide +kernel⟩
theorem witness_TrainingLeadsToUp_4 :
    ∃ (s : State) (b : BundleId), s.twinBundle b = false ∧ (s.bun b).st = 6 ∧ (s.bun b).link.pair = false :=
  ⟨bun 6, 2, by decide +kernel⟩
theorem witness_LanesAdapt_0 :
    ∃ (s : State) (b : BundleId) (k : LaneId) (n : Nat) (m : BitVec 6), (s.bun b).st = 6 ∧ (s.bun b).rxIdle = false ∧
    ((s.bun b).lane k).frozen = false ∧ adaptDens s b ≤ n ∧ adaptLow s b ≤ m.toNat :=
  ⟨bun 6, 2, 3, 90, 40, by decide +kernel⟩
def wLow : State := (bun 6).setReg (gvlReg 2 0x10) 0x00200000
theorem witness_LanesAdapt_1 :
    ∃ (s : State) (b : BundleId) (k : LaneId) (n : Nat) (m : BitVec 6), (s.bun b).st = 6 ∧ (s.bun b).rxIdle = false ∧
    ((s.bun b).lane k).frozen = false ∧ adaptDens s b ≤ n ∧ m.toNat < adaptLow s b ∧ ((s.bun b).lane k).guarding = false :=
  ⟨wLow, 2, 3, 90, 3, by decide +kernel⟩
theorem witness_LanesAdapt_2 :
    ∃ (s : State) (b : BundleId), (s.bun b).st = 6 :=
  ⟨(bun 6).modLane 2 3 fun l => { l with badMs := true }, 2, by decide +kernel⟩
theorem witness_LanesAdapt_3 :
    ∃ (s : State) (b : BundleId), (s.bun b).st = 6 ∧ (s.bun b).txIdle = false ∧ (s.bun b).rxIdle = false :=
  ⟨bun 6, 2, by decide +kernel⟩
def wBurst : State := wLow.modBun 2 fun x => { x with burst := 2, burstMask := 2 }
theorem witness_LanesAdapt_4 :
    ∃ (s : State) (b : BundleId) (ms : List (BitVec 6)), (s.bun b).st = 6 ∧ 0 < (s.bun b).burst ∧
    (∀ k ∈ bitsOf (s.bun b).burstMask, adaptLow s b ≤ (ms.getD k 0).toNat) :=
  ⟨wBurst, 2, [0, 40], by decide +kernel⟩
theorem witness_LanesAdapt_5 :
    ∃ (s : State) (b : BundleId) (ms : List (BitVec 6)) (k : Nat), (s.bun b).st = 6 ∧ 2 ≤ (s.bun b).burst ∧
    k ∈ bitsOf (s.bun b).burstMask ∧ (ms.getD k 0).toNat < adaptLow s b ∧ s.twinBundle b = false ∧
    (s.bun b).link.pair = false :=
  ⟨wBurst, 2, [0, 3], 1, by decide +kernel⟩
theorem witness_LanesAdapt_6 :
    ∃ (s : State) (b : BundleId), (s.bun b).st = 6 :=
  ⟨bun 6, 2, by decide +kernel⟩
theorem witness_LanesAdapt_7 :
    ∃ (s : State) (b : BundleId) (k : LaneId) (pb : Fin 8) (l : Fin 8) (prev : Nat), (s.bun b).st = 6 ∧
    fld (s.bun b).partner 24 3 = pb.val ∧ fld (s.bun b).partner (3 * k) 3 = l.val ∧ ((s.bun b).lane k).seq = some prev ∧
    (s.bun b).rxIdle = false :=
  ⟨((bun 6).modBun 2 fun x => { x with partner := 0x85000400 }).modLane 2 3 fun l => { l with seq := some 9 }, 2, 3, 5, 2, 9, by decide +kernel⟩
theorem witness_LanesAdapt_8 :
    ∃ (s : State) (b : BundleId) (pb : Fin 8), (s.bun b).st = 6 ∧ fld (s.bun b).partner 24 3 ≠ pb.val ∧
    s.twinBundle b = false ∧ (s.bun b).link.pair = false :=
  ⟨bun 6, 2, 5, by decide +kernel⟩
theorem witness_LanesSleepAndTest_0 :
    ∃ (s : State) (b : BundleId), s.twinBundle b = false ∧ (s.bun b).st = 6 ∧ (s.bun b).txIdle = false ∧
    s.regF (gvlReg b 0x0C) 0 16 ≠ 0 :=
  ⟨(bun 6).setReg (gvlReg 2 0x0C) 7, 2, by decide +kernel⟩
theorem witness_LanesSleepAndTest_1 :
    ∃ (s : State) (b : BundleId), s.twinBundle b = false ∧ (s.bun b).st = 6 :=
  ⟨bun 6, 2, by decide +kernel⟩
theorem witness_LanesSleepAndTest_2 :
    ∃ (s : State) (b : BundleId), s.twinBundle b = false ∧ (s.bun b).st = 6 ∧ (s.bun b).txIdle = true ∧
    (s.bun b).link.waiting = [] :=
  ⟨(bun 6).modBun 2 fun x => { x with txIdle := true }, 2, by decide +kernel⟩
theorem witness_LanesSleepAndTest_4 :
    ∃ (s : State) (b : BundleId), s.twinBundle b = false ∧ (s.bun b).st = 6 ∧ (s.bun b).sleepAsk = true :=
  ⟨(bun 6).modBun 2 fun x => { x with sleepAsk := true }, 2, by decide +kernel⟩
theorem witness_LanesSleepAndTest_5 :
    ∃ (s : State) (b : BundleId), s.twinBundle b = false ∧ (s.bun b).st = 6 ∧ (s.bun b).sleepAsk = true ∧
    (s.bun b).link.pair = false :=
  ⟨(bun 6).modBun 2 fun x => { x with sleepAsk := true }, 2, by decide +kernel⟩
theorem witness_LanesSleepAndTest_6 :
    ∃ (s : State) (b : BundleId), s.twinBundle b = false ∧ (s.bun b).st = 7 ∧ s.regB (gvlReg b 0) 29 = false ∧
    s.pstate < 3 :=
  ⟨bun 7, 2, by decide +kernel⟩
theorem witness_LanesSleepAndTest_8 :
    ∃ (s : State) (b : BundleId) (k : LaneId), s.twinBundle b = false ∧ (s.bun b).st = 9 ∧
    ((s.bun b).lane k).sync = false :=
  ⟨bun 9, 2, 3, by decide +kernel⟩
def wSync : State := (bun 9).modLane 2 3 fun l => { l with sync := true, bits := ⟨9, false⟩ }
theorem witness_LanesSleepAndTest_9 :
    ∃ (s : State) (b : BundleId) (k : LaneId) (n : Nat) (e : Nat), s.twinBundle b = false ∧ (s.bun b).st = 9 ∧
    ((s.bun b).lane k).sync = true ∧ ((s.bun b).lane k).bits.n + n < 2 ^ 48 ∧ ((s.bun b).lane k).err.n + e < 2 ^ 48 :=
  ⟨wSync, 2, 3, 7, 1, by decide +kernel⟩
theorem witness_LanesSleepAndTest_10 :
    ∃ (s : State) (b : BundleId) (k : LaneId), s.twinBundle b = false ∧ (s.bun b).st = 9 ∧
    ((s.bun b).lane k).sync = true ∧ ((s.bun b).lane k).bits.ovf = false :=
  ⟨wSync, 2, 3, by decide +kernel⟩
theorem witness_LinkLayerDelivers_0 :
    ∃ (s : State) (b : BundleId) (f : FlitBytes), s.twinBundle b = false ∧ s.paired = false ∧ (s.bun b).st = 6 ∧
    (∀ p ∈ s.que, ∀ d ∈ p.2.context, d.remq = []) ∧ (s.bun b).rxIdle = false ∧ fCrcOk f = false :=
  ⟨bun 6, 2, [1, 2], by decide +kernel⟩
def remFlit (seq : Nat) : FlitBytes := sentFlit seq (mkFlit 6 1 0 4 9 0 [7])
def wNode : State := (bun 6).modNet fun n => { n with addr := some 4 }
theorem witness_LinkLayerDelivers_1 :
    ∃ (s : State) (b : BundleId) (f : FlitBytes) (own : Nat), s.twinBundle b = false ∧ s.paired = false ∧
    (s.bun b).st = 6 ∧ (∀ p ∈ s.que, ∀ d ∈ p.2.context, d.remq = []) ∧ (s.bun b).rxIdle = false ∧ fCrcOk f = true ∧
    (s.bun b).link.st = 2 ∧ (s.bun b).link.waiting = [] ∧ (s.sess b true).running = false ∧
    (s.sess b true).enabled = false ∧ fTy f = 6 ∧ fVc f = 1 ∧ fPos f = 0 ∧ fAck f = none ∧ s.net.addr = some own ∧
    fDst f = own ∧ tabGet [] (s.bun b).link.firstHalf 1 = [] ∧ fSeq f = (s.bun b).link.expect :=
  ⟨wNode, 2, remFlit 0, 4, by decide +kernel⟩
theorem witness_LinkLayerDelivers_2 :
    ∃ (s : State) (b : BundleId) (f : FlitBytes) (own : Nat), s.twinBundle b = false ∧ s.paired = false ∧
    (s.bun b).st = 6 ∧ (∀ p ∈ s.que, ∀ d ∈ p.2.context, d.remq = []) ∧ (s.bun b).rxIdle = false ∧ fCrcOk f = true ∧
    (s.bun b).link.st = 2 ∧ (s.bun b).link.waiting = [] ∧ (s.sess b true).running = false ∧
    (s.sess b true).enabled = false ∧ fTy f = 6 ∧ fVc f = 1 ∧ fPos f = 0 ∧ fAck f = none ∧ s.net.addr = some own ∧
    fDst f = own ∧ tabGet [] (s.bun b).link.firstHalf 1 = [] ∧ (s.bun b).link.nakSent = false ∧
    128 < ((s.bun b).link.expect + 4096 - fSeq f) % 4096 :=
  ⟨wNode, 2, remFlit 3, 4, by decide +kernel⟩
def fl0 : FlitBytes := mkFlit 0 1 0 2 1 0 [7]
theorem witness_LinkLayerDelivers_3 :
    ∃ (s : State) (b : BundleId) (f : FlitBytes), s.twinBundle b = false ∧ s.paired = false ∧ (s.bun b).st = 6 ∧
    (∀ p ∈ s.que, ∀ d ∈ p.2.context, d.remq = []) ∧ (s.bun b).link.st = 2 ∧ (s.bun b).txIdle = false ∧
    (s.bun b).link.waiting = [] ∧ (s.bun b).link.retry = [f] ∧ (s.sess b false).enabled = false ∧
    (s.sess b false).running = false ∧ s.twn.role = 0 ∧ (s.bun b).link.resends < 8 :=
  ⟨bun 6, 2, fl0, by decide +kernel⟩
theorem witness_LinkLayerDelivers_5 :
    ∃ (s : State) (b : BundleId) (f : FlitBytes), s.twinBundle b = false ∧ s.paired = false ∧ (s.bun b).st = 6 ∧
    (∀ p ∈ s.que, ∀ d ∈ p.2.context, d.remq = []) ∧ (s.bun b).link.st = 2 ∧ (s.bun b).txIdle = false ∧
    (s.bun b).link.waiting = [] ∧ (s.bun b).link.retry = [f] ∧ (s.sess b false).enabled = false ∧
    (s.sess b false).running = false ∧ s.twn.role = 0 ∧ 8 ≤ (s.bun b).link.resends :=
  ⟨(bun 6).modLink 2 fun l => { l with resends := 8 }, 2, fl0, by decide +kernel⟩
theorem witness_LinkLayerDelivers_6 :
    ∃ (s : State) (b : BundleId), s.twinBundle b = false ∧ s.paired = false ∧ (s.bun b).st = 6 ∧
    (∀ p ∈ s.que, ∀ d ∈ p.2.context, d.remq = []) ∧ (s.bun b).link.st = 1 :=
  ⟨(bun 6).modLink 2 fun l => { l with st := 1 }, 2, by decide +kernel⟩
theorem witness_LinkLayerDelivers_7 :
    ∃ (s : State) (b : BundleId), (∀ v, tabGet [] (s.bun b).link.held v = []) ∧ s.twinBundle b = false ∧
    s.paired = false ∧ (s.bun b).st = 6 ∧ (∀ p ∈ s.que, ∀ d ∈ p.2.context, d.remq = []) ∧ (s.bun b).link.st = 1 ∧
    (s.bun b).link.retry = [] ∧ (s.bun b).link.waiting = [] :=
  ⟨(bunUp 2).modLink 2 fun l => { l with st := 1 }, 2, fun _ => rfl, by decide +kernel⟩
theorem witness_LinkLayerDelivers_8 :
    ∃ (s : State) (b : BundleId), s.twinBundle b = false ∧ s.paired = false ∧ (s.bun b).st = 6 ∧
    (∀ p ∈ s.que, ∀ d ∈ p.2.context, d.remq = []) ∧ (s.bun b).link.st = 2 ∧
    (s.bun b).link.freed ≠ (s.bun b).link.reported :=
  ⟨(bun 6).modLink 2 fun l => { l with freed := [(1, 3)] }, 2, by decide +kernel⟩
def mgr : State := (bunUp 2).modCfg fun c => { c with mode := 1 }
def wrk : State := (bunUp 2).modCfg fun c => { c with mode := 2, uid := 55 }
theorem witness_CensusAndDiscovery_0 :
    ∃ (s : State) (b : BundleId), s.netMode = 1 ∧ s.net.settled = false ∧ s.twinBundle b = false ∧ (s.bun b).link.st = 2 :=
  ⟨mgr, 2, by decide +kernel⟩
theorem witness_CensusAndDiscovery_1 :
    ∃ (s : State) (b : BundleId), s.netMode = 2 ∧ s.twinBundle b = false ∧ s.linkHolds b = false ∧
    s.net.settled = false ∧ s.net.parent = none :=
  ⟨wrk, 2, by decide +kernel⟩
theorem witness_CensusAndDiscovery_2 :
    ∃ (s : State) (b : BundleId), s.netMode = 2 ∧ s.twinBundle b = false ∧ s.linkHolds b = false ∧
    s.net.settled = false ∧ s.net.parent ≠ none :=
  ⟨wrk.modNet fun n => { n with parent := some 5 }, 2, by decide +kernel⟩
def wHeard (d : Nat) : State := wrk.modNet fun n => { n with census := true, heard := [(2, d, 77)] }
theorem witness_CensusAndDiscovery_3 :
    ∃ (s : State) (b : Nat) (d : Nat) (uid : BitVec 64), s.netMode = 2 ∧ s.net.parent = none ∧
    s.net.heard = [(b, d, uid)] ∧ d ≤ 2 :=
  ⟨wHeard 2, 2, 2, 77, by decide +kernel⟩
theorem witness_CensusAndDiscovery_4 :
    ∃ (s : State) (b : Nat) (d : Nat) (uid : BitVec 64), s.netMode = 2 ∧ s.net.parent = none ∧
    s.net.heard = [(b, d, uid)] ∧ 2 < d :=
  ⟨wHeard 3, 2, 3, 77, by decide +kernel⟩
theorem witness_CensusAndDiscovery_5 :
    ∃ (s : State) (b : BundleId) (p : Nat), s.netMode = 2 ∧ s.linkHolds b = false ∧ s.net.parent = some p ∧
    s.net.census = true ∧ s.net.children = [{ bundle := b, adopted := true }] :=
  ⟨wrk.modNet fun n => { n with parent := some 5, census := true, children := [{ bundle := 2, adopted := true }] }, 2, 5, by decide +kernel⟩
theorem witness_CensusAndDiscovery_6 :
    ∃ (s : State), s.netMode = 2 ∧ s.net.census = true :=
  ⟨wHeard 3, by decide +kernel⟩
theorem witness_CensusAndDiscovery_7 :
    ∃ (s : State) (b : BundleId), s.netMode = 2 ∧ s.linkHolds b = false ∧ s.net.parent = some b.val ∧
    s.net.addr = none ∧ s.net.children = [] :=
  ⟨wrk.modNet fun n => { n with parent := some 2 }, 2, by decide +kernel⟩
theorem witness_CensusAndDiscovery_8 :
    ∃ (s : State) (b : BundleId) (size : Nat), s.linkHolds b = false ∧ s.netMode = 1 ∧ s.net.census = true ∧
    s.cfg.stage ≠ 2 ∧ s.net.children = [{ bundle := b, adopted := true }] ∧ 1 ≤ size :=
  ⟨mgr.modNet fun n => { n with census := true, children := [{ bundle := 2, adopted := true }] }, 2, 3, by decide +kernel⟩
theorem witness_CensusAndDiscovery_9 :
    ∃ (s : State), s.netMode = 1 ∧ s.net.census = true ∧ s.net.settled = false ∧ s.net.children = [] ∧
    s.cfg.listen = false ∧ s.cfg.stage = 2 ∧ s.cfg.picked = [] ∧ s.regB 0xF_0004 30 = false ∧ s.cfg.flashA = none ∧
    s.cfg.flashB = none :=
  ⟨{ State.reset with cfg := { mode := 1, stage := 2 }, net := { census := true } }, by decide +kernel⟩
def peer : State := (bunUp 2).modCfg fun c => { c with mode := 3, uid := 55 }
theorem witness_CensusAndDiscovery_10 :
    ∃ (s : State), s.netMode = 3 :=
  ⟨peer, by decide +kernel⟩
def info (uid : BitVec 64) (seq : Nat) : NodeInfo := { uid := uid, addr := none, proposed := 9, seq := seq, links := [] }
theorem witness_CensusAndDiscovery_11 :
    ∃ (s : State) (b : BundleId) (info : NodeInfo), s.netMode = 3 ∧ s.linkHolds b = false ∧ info.uid ≠ s.cfg.uid ∧
    (s.net.database.find? fun j => j.uid == info.uid) = none :=
  ⟨peer, 2, info 77 3, by decide +kernel⟩
theorem witness_CensusAndDiscovery_12 :
    ∃ (s : State) (b : BundleId) (info : NodeInfo) (j : _), s.netMode = 3 ∧ s.linkHolds b = false ∧
    info.uid ≠ s.cfg.uid ∧ (s.net.database.find? fun j => j.uid == info.uid) = some j ∧ info.seq ≤ j.seq :=
  ⟨peer.modNet fun n => { n with database := [info 77 4] }, 2, info 77 4, info 77 4, by decide +kernel⟩
theorem witness_CensusAndDiscovery_13 :
    ∃ (s : State) (i : NodeInfo), s.netMode = 3 ∧ s.net.settled = false ∧ s.net.database = [i] ∧ i.uid = s.cfg.uid ∧
    i.addr = none ∧ i.links = [] ∧ s.net.addr = none :=
  ⟨peer.modNet fun n => { n with database := [info 55 4] }, info 55 4, by decide +kernel⟩
def wRemote (rgen : Nat) : State := ((wrk.modNet fun n => { n with addr := some 4, parent := some 2 }).modGrt fun g => { g with mem := [(321, 7)] }).setRegF 0xB_8004 31 1 rgen
def away (s : State) : State := s.modBun 2 fun x => { x with txIdle := true }
theorem witness_RemoteRequestsAndAnswers_0 :
    ∃ (s : State) (b : BundleId) (src : Fin 64) (o : Nat), quietGrotto s ∧ nextHop s src = some o ∧
    s.wireOpen o = false ∧ s.linkHolds b = false ∧ s.regB 0xB_8004 31 = true :=
  ⟨away (wRemote 1), 2, 9, 2, ⟨by decide +kernel, by decide +kernel, by decide +kernel, rfl, fun _ => ⟨rfl, rfl⟩, rfl, rfl, by decide +kernel⟩, by decide +kernel⟩
theorem witness_RemoteRequestsAndAnswers_4 :
    ∃ (s : State) (b : BundleId) (src : Fin 64) (o : Nat), nextHop s src = some o ∧ s.wireOpen o = false ∧
    s.linkHolds b = false ∧ s.regB 0xB_8004 31 = false :=
  ⟨away (wRemote 0), 2, 9, 2, by decide +kernel⟩
def rem1 : Remote := { rid := 0x1234, queue := 3, cid := 4, node := 9, read := false, line := 5 }
def dRem : Desc := { raw := dword 1 8 5 0x5000 0x40 0, id := 4, started := true, off := 5 }
def wRsp : State := (queued { q0 with context := [dRem] }).modNet fun n => { n with remotes := [rem1] }
theorem witness_RemoteRequestsAndAnswers_5 :
    ∃ (s : State) (m : Remote) (q : QueueId) (x : Queue) (d : Desc), (∀ b, s.linkHolds b = false) ∧
    s.net.remotes = [m] ∧ m.queue = q.val ∧ s.que = [(q.val, x)] ∧ x.context = [d] ∧ d.id = m.cid ∧ d.started = true ∧
    d.ended = none ∧ d.stopped = false ∧ d.remq = [] ∧ x.st = 1 ∧ x.dbSt ≠ 1 ∧ s.pin.dbgOp = none ∧ s.grt.barWait = [] ∧
    s.xlt.walks = [] ∧ m.rid < 65536 ∧ m.read = false ∧ d.opc = 1 ∧ totalBytes d ≤ d.off ∧ d.poison = none ∧
    d.dstg = true ∧ d.srcg = false :=
  ⟨wRsp, rem1, 3, { q0 with context := [dRem] }, dRem, fun _ => rfl, by decide +kernel⟩
theorem witness_RemoteRequestsAndAnswers_6 :
    ∃ (s : State) (m : Remote) (q : QueueId) (x : Queue) (d : Desc) (status : Byte), (∀ b, s.linkHolds b = false) ∧
    s.net.remotes = [m] ∧ m.queue = q.val ∧ s.que = [(q.val, x)] ∧ x.context = [d] ∧ d.id = m.cid ∧ d.started = true ∧
    d.ended = none ∧ d.stopped = false ∧ d.remq = [] ∧ x.st = 1 ∧ x.dbSt ≠ 1 ∧ s.pin.dbgOp = none ∧ s.grt.barWait = [] ∧
    s.xlt.walks = [] ∧ m.rid < 65536 ∧ status ≠ 0 :=
  ⟨wRsp, rem1, 3, { q0 with context := [dRem] }, dRem, 2, fun _ => rfl, by decide +kernel⟩
theorem witness_RemoteRequestsAndAnswers_7 :
    ∃ (s : State) (m : Remote) (q : QueueId) (x : Queue) (d : Desc), (∀ b, s.linkHolds b = false) ∧
    s.net.remotes = [m] ∧ m.queue = q.val ∧ s.que = [(q.val, x)] ∧ x.context = [d] ∧ d.id = m.cid ∧ d.started = true ∧
    d.ended = none ∧ d.stopped = false ∧ d.remq = [] ∧ x.st = 1 ∧ x.dbSt ≠ 1 ∧ s.pin.dbgOp = none ∧ s.grt.barWait = [] ∧
    s.xlt.walks = [] ∧ m.rid < 65536 :=
  ⟨wRsp, rem1, 3, { q0 with context := [dRem] }, dRem, fun _ => rfl, by decide +kernel⟩
theorem witness_RemoteRequestsAndAnswers_8 :
    ∃ (s : State) (m : Remote) (q : QueueId) (x : Queue) (d : Desc) (rid : BitVec 16), (∀ b, s.linkHolds b = false) ∧
    s.net.remotes = [m] ∧ m.queue = q.val ∧ s.que = [(q.val, x)] ∧ x.context = [d] ∧ d.id = m.cid ∧ d.started = true ∧
    d.ended = none ∧ d.stopped = false ∧ d.remq = [] ∧ x.st = 1 ∧ x.dbSt ≠ 1 ∧ s.pin.dbgOp = none ∧ s.grt.barWait = [] ∧
    s.xlt.walks = [] ∧ m.rid ≠ rid.toNat :=
  ⟨wRsp, rem1, 3, { q0 with context := [dRem] }, dRem, 0x1235, fun _ => rfl, by decide +kernel⟩
def wRoute (dir : Bool) : State := up.modNet fun n => { n with streams := [(5, { v := true, dir := dir, node := 9, rep := 6, cred := 7 })] }
def beat1 : Beat := { data := 0x0504030201, bytes := 4, last := true, psn := false, par := 0 }
theorem witness_StreamRoutesCarryBeats_0 :
    ∃ (s : State), s.twn.role = 0 :=
  ⟨up.setReg 0xB_8028 5, by decide +kernel⟩
theorem witness_StreamRoutesCarryBeats_1 :
    ∃ (s : State) (src : Fin 64) (e : BitVec 10), (∀ b, s.linkHolds b = false) ∧ (s.route e.toNat).v = true ∧
    (s.route e.toNat).dir = false ∧ (s.route e.toNat).node = src.val ∧ (s.route e.toNat).landing.length < 32 ∧
    epOwned s e.toNat = false :=
  ⟨wRoute false, 9, 5, fun _ => rfl, by decide +kernel⟩
theorem witness_StreamRoutesCarryBeats_2 :
    ∃ (s : State) (e : BitVec 10), (∀ b, s.linkHolds b = false) ∧ (s.route e.toNat).v = false :=
  ⟨up, 5, fun _ => rfl, by decide +kernel⟩
theorem witness_StreamRoutesCarryBeats_3 :
    ∃ (s : State), (∀ b, s.linkHolds b = false) ∧ tabWf {} s.net.streams = true :=
  ⟨wRoute true, fun _ => rfl, by decide +kernel⟩
def wSendRoute : State := (((wRoute true).modCfg fun c => { c with mode := 2 }).modNet fun n => { n with streams := [(0, { v := true, dir := true, node := 9, rep := 6, cred := 7 })], addr := some 4, parent := some 2 }).modChm 0 fun ch =>
  { ch with released := true, strata := [(0, live [(1070, BitVec.ofNat 80 (1 <<< 77))])] }
theorem witness_StreamRoutesCarryBeats_4 :
    ∃ (s : State) (e : BitVec 10) (b : _), (s.route e.toNat).v = true ∧ (s.route e.toNat).dir = true ∧
    0 < (s.route e.toNat).cred ∧ epOwned s e.toNat = true ∧ nextHop s (s.route e.toNat).node = some b ∧
    s.wireOpen b = false :=
  ⟨wSendRoute, 0, 2, by decide +kernel⟩
theorem witness_StreamRoutesCarryBeats_5 :
    ∃ (s : State) (e : BitVec 10), (s.route e.toNat).v = true ∧ (s.route e.toNat).dir = true ∧
    0 < (s.route e.toNat).cred ∧ epOwned s e.toNat = true ∧ nextHop s (s.route e.toNat).node = none :=
  ⟨wSendRoute.modNet fun n => { n with parent := none }, 0, by decide +kernel⟩
def twn9 : State := ((r0.modCfg fun c => { c with mode := 4, stage := 9, uid := 55 }).modTwn fun t => { t with pstate := 1 }).modBun 0 fun x =>
  { x with st := 6, partner := 0x80000000 }
def hello (rev : Word) : Hello :=
  { rev := rev, running := [], keys := keysShown twn9, mode := 4, uid := 77, prefer := prefersLead twn9, delay := BitVec.ofNat 10 (twn9.regF 0xC_0008 0 10),
    pins := twn9.reg 0xC_000C, clockOk := true, load := 5, pbundleOk := true, alone := false, barrier := 4000 }
theorem witness_PairSynchronises_0 :
    ∃ (s : State) (h : Hello), s.twinStart = true ∧ syncing s = true ∧ s.twn.sync = none ∧ h.alone = false ∧
    helloRefusal s h = none :=
  ⟨twn9, hello (devRead 4), by decide +kernel⟩
theorem witness_PairSynchronises_1 :
    ∃ (s : State) (h : Hello) (r : _), s.twinStart = true ∧ syncing s = true ∧ s.twn.sync = none ∧ h.alone = false ∧
    helloRefusal s h = some r ∧ wouldLead s h = true :=
  ⟨twn9, hello 0, 2, by decide +kernel⟩
def twn9b : State := twn9.modCfg fun c => { c with uid := 99 }
theorem witness_PairSynchronises_2 :
    ∃ (s : State) (h : Hello) (r : _), s.twinStart = true ∧ syncing s = true ∧ s.twn.sync = none ∧ h.alone = false ∧
    helloRefusal s h = some r ∧ wouldLead s h = false :=
  ⟨twn9b, hello 0, 2, by decide +kernel⟩
theorem witness_PairSynchronises_3 :
    ∃ (s : State), s.twinStart = true ∧ syncing s = true ∧ s.twn.heard = none :=
  ⟨twn9, by decide +kernel⟩
theorem witness_PairSynchronises_7 :
    ∃ (s : State) (h : Hello), s.twinStart = true ∧ syncing s = true ∧ s.twn.sync = some h ∧ s.twn.lead = true :=
  ⟨twn9.modTwn fun t => { t with sync := some (hello (devRead 4)), lead := true }, hello (devRead 4), by decide +kernel⟩
theorem witness_PairSynchronises_8 :
    ∃ (s : State) (h : Hello), s.twinStart = true ∧ syncing s = true ∧ s.twn.sync = some h ∧ s.twn.lead = false :=
  ⟨twn9.modTwn fun t => { t with sync := some (hello (devRead 4)) }, hello (devRead 4), by decide +kernel⟩
def pairUp (role : Nat) : State := ((bunUp 2).modCfg fun c => { c with mode := 4, uid := 55 }).modTwn fun t => { t with role := role, pstate := 2, puid := 77, pins := 3 }
theorem witness_PartnerLossAndTakeover_0 :
    ∃ (s : State), s.twinStart = true ∧ s.twn.role = 2 :=
  ⟨pairUp 2, by decide +kernel⟩
def wHeld : State := ({ pairUp 2 with que := [(3, q0)] }).modTwn fun t => { t with held := [⟨2, 3, 0x4000, [1, 2]⟩] }
theorem witness_PartnerLossAndTakeover_1 :
    ∃ (s : State) (x : Queue) (r : CommitRec) (q : Nat), s.twinStart = true ∧ s.twn.role = 2 ∧ s.que = [(q, x)] ∧
    x.st ≠ 0 ∧ s.twn.held = [r] ∧ r.kind = 2 ∧ r.queue = q :=
  ⟨wHeld, q0, ⟨2, 3, 0x4000, [1, 2]⟩, 3, by decide +kernel⟩
theorem witness_PartnerLossAndTakeover_2 :
    ∃ (s : State) (k : Fin 16) (v : BitVec 48), s.twinStart = true ∧ s.twn.role = 2 ∧ s.que = [] ∧
    s.twn.own = [(k.val, v.toNat)] :=
  ⟨(pairUp 2).modTwn fun t => { t with own := [(5, 0x800000000001)] }, 5, 0x800000000001, by decide +kernel⟩
theorem witness_PartnerLossAndTakeover_3 :
    ∃ (s : State), s.twinStart = true ∧ s.twn.role = 2 ∧ s.twn.pstate = 2 ∧ s.twn.failin = false :=
  ⟨pairUp 2, by decide +kernel⟩
theorem witness_PartnerLossAndTakeover_4 :
    ∃ (s : State), s.twinStart = true ∧ s.twn.role = 2 ∧ s.twn.pstate = 2 :=
  ⟨pairUp 2, by decide +kernel⟩
theorem witness_PartnerLossAndTakeover_5 :
    ∃ (s : State), s.twinStart = true ∧ s.twn.role = 1 ∧ s.twn.pstate = 2 :=
  ⟨pairUp 1, by decide +kernel⟩
def rejoining : State := (pairUp 0).modTwn fun t => { t with pstate := 5, phase := 4, lines := 9, barrierHold := 3 }
theorem witness_PartnerLossAndTakeover_8 :
    ∃ (s : State), s.twinStart = true ∧ s.twn.pstate = 5 ∧ s.twn.heldAtBarrier = false :=
  ⟨rejoining, by decide +kernel⟩
def wAlone : State := ((pairUp 2).modTwn fun t => { t with role := 0, pstate := 3, heard := none }).setRegF 0xC_0004 30 1 1
theorem witness_PartnerLossAndTakeover_9 :
    ∃ (s : State), s.twinStart = true ∧ s.twn.role = 0 ∧ s.twn.pstate = 3 ∧ s.pstate = 0 ∧ s.twn.heard = none :=
  ⟨wAlone, by decide +kernel⟩
theorem witness_PartnerLossAndTakeover_10 :
    ∃ (s : State), s.twinStart = true ∧ s.twn.role = 0 ∧ s.twn.pstate ≠ 3 :=
  ⟨rejoining, by decide +kernel⟩
theorem witness_PartnerLossAndTakeover_11 :
    ∃ (s : State), s.twinStart = true ∧ s.regB 0xC_0004 30 = true ∧ s.twn.pstate = 3 ∧ s.pstate = 0 ∧ s.twn.heard = none :=
  ⟨wAlone, by decide +kernel⟩
theorem witness_PartnerLossAndTakeover_12 :
    ∃ (s : State), s.twinStart = true ∧ s.regB 0xC_0004 30 = false :=
  ⟨wAlone.setRegF 0xC_0004 30 1 0, by decide +kernel⟩
theorem witness_PartnerLossAndTakeover_13 :
    ∃ (s : State) (n : Nat), s.twinStart = true ∧ s.twn.pstate = 5 ∧ n ≤ max 1 (s.regF 0xC_0014 0 16) :=
  ⟨rejoining, 50, by decide +kernel⟩
theorem witness_PartnerLossAndTakeover_14 :
    ∃ (s : State) (n : Nat), s.twinStart = true ∧ s.twn.pstate = 5 ∧ max 1 (s.regF 0xC_0014 0 16) < n :=
  ⟨rejoining, 51, by decide +kernel⟩
theorem witness_PartnerLossAndTakeover_15 :
    ∃ (s : State), s.twinStart = true ∧ s.twn.pstate = 5 ∧ s.twn.phase = 4 :=
  ⟨rejoining.modTwn fun t => { t with phase := 4, heldAtBarrier := true }, by decide +kernel⟩
theorem witness_PartnerLossAndTakeover_16 :
    ∃ (s : State), s.twinStart = true ∧ s.twn.pstate ≠ 5 ∧ (twinReady s = true ∨ syncing s = true) :=
  ⟨(pairUp 2).modTwn fun t => { t with role := 0, pstate := 4, fscause := 2 }, by decide +kernel⟩
theorem witness_PartnerLossAndTakeover_17 :
    ∃ (s : State), s.twinStart = true ∧ s.twn.pstate = 5 :=
  ⟨rejoining, by decide +kernel⟩
theorem witness_PartnerLossAndTakeover_18 :
    ∃ (s : State), s.twinStart = true ∧ s.twn.pstate ≠ 5 :=
  ⟨wAlone, by decide +kernel⟩
theorem witness_PairComparesAndCommits_0 :
    ∃ (s : State) (bytes : List Byte) (own : List Byte), s.twinStart = true ∧ s.twn.pstate = 2 ∧ s.twn.role = 2 ∧
    bytes = own :=
  ⟨pairUp 2, [1, 0, 3, 4], [1, 0, 3, 4], by decide +kernel⟩
theorem witness_PairComparesAndCommits_1 :
    ∃ (s : State) (bytes : List Byte) (own : List Byte), s.twinStart = true ∧ s.twn.pstate = 2 ∧ s.twn.role = 2 ∧
    bytes ≠ own :=
  ⟨pairUp 2, [1, 0, 3, 4], [1, 0, 3, 5], by decide +kernel⟩
theorem witness_PairComparesAndCommits_2 :
    ∃ (s : State) (o : Word) (own : Word), s.twinStart = true ∧ s.twn.pstate = 2 ∧ s.twn.role = 2 ∧ o = own :=
  ⟨pairUp 2, 4, 4, by decide +kernel⟩
theorem witness_PairComparesAndCommits_3 :
    ∃ (s : State) (o : Word) (own : Word), s.twinStart = true ∧ s.twn.pstate = 2 ∧ s.twn.role = 2 ∧ o ≠ own :=
  ⟨pairUp 2, 4, 5, by decide +kernel⟩
theorem witness_PairComparesAndCommits_4 :
    ∃ (s : State) (pin : Fin 768), s.twinStart = true ∧ s.twn.pstate = 2 ∧ s.twn.role = 2 ∧
    bit s.twn.pins (pin / 48) = true :=
  ⟨pairUp 2, 95, by decide +kernel⟩
theorem witness_PairComparesAndCommits_5 :
    ∃ (s : State) (b : BundleId) (f : FlitBytes) (own : FlitBytes), s.twinStart = true ∧ s.twn.pstate = 2 ∧
    s.twn.role = 2 ∧ s.twinBundle b = false ∧ f = own :=
  ⟨pairUp 2, 2, [1], [1], by decide +kernel⟩
theorem witness_PairComparesAndCommits_6 :
    ∃ (s : State) (b : BundleId) (f : FlitBytes) (own : FlitBytes), s.twinStart = true ∧ s.twn.pstate = 2 ∧
    s.twn.role = 2 ∧ s.twinBundle b = false ∧ f ≠ own :=
  ⟨pairUp 2, 2, [1], [2], by decide +kernel⟩
theorem witness_PairComparesAndCommits_7 :
    ∃ (s : State) (own : Word) (partner : Word), s.twinStart = true ∧ s.twn.pstate = 2 ∧ s.twn.role = 2 ∧ own = partner :=
  ⟨pairUp 2, 5, 5, by decide +kernel⟩
theorem witness_PairComparesAndCommits_8 :
    ∃ (s : State) (own : Word) (partner : Word), s.twinStart = true ∧ s.twn.pstate = 2 ∧ s.twn.role = 2 ∧
    own ≠ partner ∧ s.regF 0xC_0004 28 2 = 0 :=
  ⟨(pairUp 2).setRegF 0xC_0004 28 2 0, 5, 6, by decide +kernel⟩
theorem witness_PairComparesAndCommits_9 :
    ∃ (s : State) (own : Word) (partner : Word), s.twinStart = true ∧ s.twn.pstate = 2 ∧ s.twn.role = 2 ∧
    own ≠ partner ∧ s.regF 0xC_0004 28 2 = 1 :=
  ⟨(pairUp 2).setRegF 0xC_0004 28 2 1, 5, 6, by decide +kernel⟩
theorem witness_PairComparesAndCommits_10 :
    ∃ (s : State), s.twinStart = true ∧ s.twn.pstate = 2 ∧ s.twn.role = 2 ∧ s.twn.checking = true :=
  ⟨(pairUp 2).modTwn fun t => { t with checking := true }, by decide +kernel⟩
theorem witness_PairComparesAndCommits_11 :
    ∃ (s : State), s.twinStart = true ∧ s.twn.pstate = 2 ∧ s.twn.role = 2 :=
  ⟨pairUp 2, by decide +kernel⟩
theorem witness_PairComparesAndCommits_12 :
    ∃ (s : State) (q : QueueId) (r : CommitRec), s.twinStart = true ∧ s.twn.pstate = 2 ∧ s.twn.role = 1 ∧
    s.twn.held = [r] ∧ r.queue = q.val ∧ r.kind ≠ 4 :=
  ⟨(pairUp 1).modTwn fun t => { t with held := [⟨2, 3, 0x4000, [1, 2]⟩] }, 3, ⟨2, 3, 0x4000, [1, 2]⟩, by decide +kernel⟩
theorem witness_PairComparesAndCommits_13 :
    ∃ (s : State) (q : QueueId) (r : CommitRec), s.twinStart = true ∧ s.twn.pstate = 2 ∧ s.twn.role = 1 ∧
    s.twn.held = [r] ∧ r.queue = q.val ∧ r.kind = 4 :=
  ⟨(pairUp 1).modTwn fun t => { t with held := [⟨4, 3, 5, []⟩] }, 3, ⟨4, 3, 5, []⟩, by decide +kernel⟩
theorem witness_PairComparesAndCommits_14 :
    ∃ (s : State), s.twinStart = true ∧ s.twn.pstate = 2 ∧ s.paired = true :=
  ⟨pairUp 1, by decide +kernel⟩
def alone : State := (pairUp 0).modTwn fun t => { t with pstate := 3 }
theorem witness_RejoinRestoresThePair_0 :
    ∃ (s : State), (∀ h, s.twn.heard = some h → helloRefusal s h = none) ∧ s.twinStart = true ∧ s.twn.pstate = 3 ∧
    s.twn.role = 0 ∧ s.pstate = 0 :=
  ⟨alone, (by intro _ e; cases e), by decide +kernel⟩
theorem witness_RejoinRestoresThePair_1 :
    ∃ (s : State) (h : Hello) (r : Nat), s.twinStart = true ∧ s.twn.pstate = 3 ∧ s.twn.role = 0 ∧ s.pstate = 0 ∧
    s.twn.heard = some h ∧ helloRefusal s h = some r :=
  ⟨alone.modTwn fun t => { t with heard := some (hello 0) }, hello 0, 2, by decide +kernel⟩
theorem witness_RejoinRestoresThePair_2 :
    ∃ (s : State), (∀ h, s.twn.heard = some h → helloRefusal s h = none) ∧ s.twinStart = true ∧ s.twn.pstate = 3 ∧
    s.twn.role = 0 ∧ s.pstate = 0 ∧ s.regB 0xC_0004 30 = true :=
  ⟨alone.setRegF 0xC_0004 30 1 1, (by intro _ e; cases e), by decide +kernel⟩
theorem witness_RejoinRestoresThePair_3 :
    ∃ (s : State) (h : Hello) (r : Nat), s.twinStart = true ∧ s.twn.pstate = 3 ∧ s.twn.role = 0 ∧ s.pstate = 0 ∧
    s.regB 0xC_0004 30 = true ∧ s.twn.heard = some h ∧ helloRefusal s h = some r :=
  ⟨(alone.setRegF 0xC_0004 30 1 1).modTwn fun t => { t with heard := some (hello 0) }, hello 0, 2, by decide +kernel⟩
def rejRuns : State := (runs.modCfg fun c => { c with mode := 4 }).modTwn fun t => { t with pstate := 5, lines := 9 }
theorem witness_RejoinRestoresThePair_4 :
    ∃ (s : State) (n : Nat), noFires s ∧ (∀ c, (s.chm c).cmd = none) ∧ (∀ c, (s.col c).lock = .off) ∧
    s.twinStart = true ∧ s.twn.pstate = 5 ∧ s.twn.role = 0 ∧ n ≤ max 1 (s.regF 0xC_0014 0 16) ∧ s.pstate = 0 ∧
    s.fab.released = true :=
  ⟨rejRuns, 1, fun _ => ⟨rfl, rfl⟩, by exact tab_all (P := fun _ (x : Chamber) => x.cmd = none) {} _ (fun _ => rfl) (by decide +kernel), by exact tab_all (P := fun _ (x : Column) => x.lock = .off) {} _ (fun _ => rfl) (by decide +kernel), by decide +kernel⟩
theorem witness_RejoinRestoresThePair_5 :
    ∃ (s : State), s.twinStart = true ∧ s.twn.pstate = 5 ∧ s.twn.role = 0 ∧ s.twn.phase = 4 ∧ s.twn.heldAtBarrier = true :=
  ⟨rejoining.modTwn fun t => { t with heldAtBarrier := true }, by decide +kernel⟩
theorem witness_RejoinRestoresThePair_6 :
    ∃ (s : State), s.twinStart = true ∧ s.twn.pstate = 5 ∧ s.twn.role = 0 ∧ s.twn.heldAtBarrier = false :=
  ⟨rejoining, by decide +kernel⟩
theorem witness_RejoinRestoresThePair_7 :
    ∃ (s : State), s.twinStart = true ∧ s.twn.pstate = 5 ∧ s.twn.role = 0 ∧ s.twn.heldAtBarrier = true :=
  ⟨rejoining.modTwn fun t => { t with heldAtBarrier := true }, by decide +kernel⟩
theorem witness_RejoinRestoresThePair_8 :
    ∃ (s : State), s.twinStart = true ∧ s.twn.pstate ≠ 5 ∧ (twinReady s = true ∨ syncing s = true) :=
  ⟨(pairUp 0).modTwn fun t => { t with pstate := 4, fscause := 1 }, by decide +kernel⟩
def ev1 : Event := ⟨0x0304, [3, 1], 900⟩
def wEv (n : Nat) : State := up.modEv fun x => { x with raised := [ev1], queue := List.replicate n ev1 }
theorem witness_EventsAreCountedAndRecorded_0 :
    ∃ (s : State) (e : Event) (rest : List Event), s.ev.raised = e :: rest ∧ hasLeaf e.code = true ∧
    s.ev.queue.length < 56 :=
  ⟨wEv 55, ev1, [], by decide +kernel⟩
def evF : Event := ⟨0x0D0B, [0], 900⟩
theorem witness_EventsAreCountedAndRecorded_1 :
    ∃ (s : State) (e : Event) (rest : List Event), s.ev.raised = e :: rest ∧ hasLeaf e.code = true ∧
    56 ≤ s.ev.queue.length ∧ s.ev.queue.length < 64 ∧ isFault e.code e.fields = true :=
  ⟨up.modEv fun x => { x with raised := [evF], queue := List.replicate 63 ev1 }, evF, [], by decide +kernel⟩
theorem witness_EventsAreCountedAndRecorded_2 :
    ∃ (s : State) (e : Event) (rest : List Event), s.ev.raised = e :: rest ∧ hasLeaf e.code = true ∧
    56 ≤ s.ev.queue.length ∧ s.ev.queue.length < 64 ∧ isFault e.code e.fields = false :=
  ⟨wEv 56, ev1, [], by decide +kernel⟩
theorem witness_EventsAreCountedAndRecorded_3 :
    ∃ (s : State) (e : Event) (rest : List Event), s.ev.raised = e :: rest ∧ hasLeaf e.code = true ∧
    64 ≤ s.ev.queue.length :=
  ⟨wEv 64, ev1, [], by decide +kernel⟩
theorem witness_EventsAreCountedAndRecorded_4 :
    ∃ (s : State) (e : Event) (rest : List Event), s.ev.raised = e :: rest ∧ hasLeaf e.code = true ∧
    s.ev.queue.length < 56 :=
  ⟨wEv 3, ev1, [], by decide +kernel⟩
def wTake (e : Event) : State := up.modEv fun x => { x with queue := [e], head := 7 }
theorem witness_EventsAreCountedAndRecorded_5 :
    ∃ (s : State) (e : Event) (rest : List Event) (k : _), s.ev.queue = e :: rest ∧ isFault e.code e.fields = false ∧
    s.ev.ringState = 0 ∧ s.ev.last = some k ∧ identical e (tabGet {} s.ev.ring k) = true ∧
    (tabGet ({} : Record) s.ev.ring k).rep < 65535 :=
  ⟨(wTake ev1).modEv fun x => { x with last := some 6, ring := [(6, openRecord ev1 3 false false false)] }, ev1, [], 6, by decide +kernel⟩
theorem witness_EventsAreCountedAndRecorded_6 :
    ∃ (s : State) (e : Event) (rest : List Event), s.ev.queue = e :: rest ∧ isFault e.code e.fields = false ∧
    s.ev.ringState = 0 ∧ s.ev.last = none :=
  ⟨wTake ev1, ev1, [], by decide +kernel⟩
theorem witness_EventsAreCountedAndRecorded_7 :
    ∃ (s : State) (e : Event) (rest : List Event), s.ev.queue = e :: rest ∧ isFault e.code e.fields = true ∧
    s.ev.ringState = 0 ∧ s.ev.last = none ∧ s.ev.log = [] ∧ s.regF 0xD_0000 12 12 ≠ 0 :=
  ⟨(wTake evF).setRegF 0xD_0000 12 12 5, evF, [], by decide +kernel⟩
theorem witness_EventsAreCountedAndRecorded_8 :
    ∃ (s : State) (e : Event) (rest : List Event), s.ev.queue = e :: rest ∧ isFault e.code e.fields = true ∧
    s.ev.ringState = 0 ∧ s.ev.last = none ∧ s.ev.log = [] ∧ s.regF 0xD_0000 12 12 = 0 ∧ s.regB 0xD_0000 30 = false :=
  ⟨((wTake evF).setRegF 0xD_0000 12 12 0).setRegF 0xD_0000 30 1 0, evF, [], by decide +kernel⟩
theorem witness_EventsAreCountedAndRecorded_9 :
    ∃ (s : State) (e : Event) (rest : List Event), s.ev.queue = e :: rest ∧ isFault e.code e.fields = false ∧
    s.ev.ringState = 2 :=
  ⟨(wTake ev1).modEv fun x => { x with ringState := 2 }, ev1, [], by decide +kernel⟩
def frozen : State := up.modEv fun x => { x with ringState := 2, head := 7, log := [openRecord evF 3 true false false], logFull := true, dropped := 4 }
def writing : State := frozen.modEv fun x => { x with sectors := List.replicate 4 {}, commit := { writing := true, carriesRing := true, carriesLog := true, rearmLater := true, clearLater := true, sectors := [1, 2] } }
theorem witness_RearmAndClearlog_0 :
    ∃ (s : State), (s.ev.commit.writing = false ∨ s.ev.commit.carriesRing = false) ∧ s.ev.ringState = 2 :=
  ⟨frozen, by decide +kernel⟩
theorem witness_RearmAndClearlog_1 :
    ∃ (s : State), s.ev.ringState ≠ 2 :=
  ⟨up, by decide +kernel⟩
theorem witness_RearmAndClearlog_2 :
    ∃ (s : State), s.ev.commit.writing = true ∧ s.ev.commit.carriesRing = true ∧ s.ev.ringState = 2 :=
  ⟨writing, by decide +kernel⟩
theorem witness_RearmAndClearlog_3 :
    ∃ (s : State), (s.ev.commit.writing = false ∨ s.ev.commit.carriesLog = false) :=
  ⟨frozen, by decide +kernel⟩
theorem witness_RearmAndClearlog_4 :
    ∃ (s : State), s.ev.commit.writing = true ∧ s.ev.commit.carriesLog = true :=
  ⟨writing, by decide +kernel⟩
theorem witness_RearmAndClearlog_5 :
    ∃ (s : State), s.ev.commit.writing = true :=
  ⟨writing, by decide +kernel⟩
def region : State := up.modEv fun x => { x with hasRegion := true, sectors := List.replicate 4 {}, log := [openRecord evF 3 true false false] }
theorem witness_CommitsToFlash_0 :
    ∃ (s : State), s.twn.role = 0 ∧ commitsFlash s = true ∧ s.ev.commit.pending = false :=
  ⟨region, by decide +kernel⟩
theorem witness_CommitsToFlash_1 :
    ∃ (s : State), s.twn.role = 0 ∧ commitsFlash s = false :=
  ⟨up, by decide +kernel⟩
def wPend : State := region.modEv fun x => { x with commit := { pending := true } }
theorem witness_CommitsToFlash_2 :
    ∃ (s : State), s.twn.role = 0 ∧ commitMayStart s = true ∧ s.ev.sectors ≠ [] ∧
    (∀ x ∈ s.ev.sectors, x.retired = false ∧ x.erases < 100000) ∧ s.ev.ringState ≠ 2 ∧ (repairEntries s).length ≤ 8192 ∧
    ceilDiv (commitLength s s.ev.commit.repairOnly false) 65504 ≤ (freeSectors s).length :=
  ⟨wPend, by decide +kernel⟩
theorem witness_CommitsToFlash_3 :
    ∃ (s : State), s.twn.role = 0 ∧ commitMayStart s = true ∧ s.ev.sectors ≠ [] ∧
    (∀ x ∈ s.ev.sectors, x.retired = false ∧ x.erases < 100000) ∧ s.ev.ringState ≠ 2 ∧ (repairEntries s).length ≤ 8192 ∧
    (freeSectors s).length < ceilDiv (commitLength s s.ev.commit.repairOnly false) 65504 :=
  ⟨wPend.modEv fun x => { x with usedSectors := [0, 1, 2, 3] }, by decide +kernel⟩
def wCommit : State := writing.modEv fun x => { x with commit := { x.commit with rearmLater := false, clearLater := false, cols := [3] } }
theorem witness_CommitsToFlash_4 :
    ∃ (s : State), s.twn.role = 0 ∧ s.ev.commit.writing = true ∧ s.ev.commit.rearmLater = false ∧
    s.ev.commit.clearLater = false :=
  ⟨wCommit.modFab fun f => { f with unrecorded := [3, 5] }, by decide +kernel⟩
theorem witness_CommitsToFlash_5 :
    ∃ (s : State) (i : BitVec 12), s.twn.role = 0 ∧ s.ev.commit.writing = true ∧ i.toNat ∈ s.ev.commit.sectors ∧
    i.toNat < s.ev.sectors.length :=
  ⟨wCommit, 2, by decide +kernel⟩
theorem witness_CommitsToFlash_6 :
    ∃ (s : State), s.twn.role = 0 ∧ (recordAt s).code ≠ 0 :=
  ⟨region.modEv fun x => { x with ring := [(0, openRecord ev1 3 false false false)] }, by decide +kernel⟩
theorem witness_CommitsToFlash_7 :
    ∃ (s : State), s.twn.role = 0 :=
  ⟨region, by decide +kernel⟩
def rdFrame (a : List Byte) (bad : Nat) : List Byte := ([0x0B] ++ a) ++ leBytes 1 (spiCrc ([0x0B] ++ a) ^^^ bad) ++ List.replicate 11 0
theorem witness_SpiFramesAccessRegisters_0 :
    ∃ (m : List Byte), 16 ≤ m.length ∧ fb m 0 = 0x0B ∧ spiCrc (m.take 5) ≠ fb m 5 :=
  ⟨rdFrame [0, 1, 0, 0] 1, by decide +kernel⟩
theorem witness_SpiFramesAccessRegisters_1 :
    ∃ (s : State) (m : List Byte) (a : _), 16 ≤ m.length ∧ fb m 0 = 0x0B ∧ spiCrc (m.take 5) = fb m 5 ∧
    ofBeBytes ((m.drop 1).take 4) = 4 * a ∧ a < 0x4000 ∧ s.pstate ≤ 2 :=
  ⟨up, rdFrame [0, 0, 0, 4] 0, 1, by decide +kernel⟩
theorem witness_SpiFramesAccessRegisters_2 :
    ∃ (m : List Byte), 16 ≤ m.length ∧ fb m 0 = 0x0B ∧ spiCrc (m.take 5) = fb m 5 ∧
    0x20_0000 ≤ ofBeBytes ((m.drop 1).take 4) :=
  ⟨rdFrame [0, 0x20, 0, 0] 0, by decide +kernel⟩
def wrFrame (a v : List Byte) : List Byte := ([0x02] ++ a ++ v) ++ leBytes 1 (spiCrc ([0x02] ++ a ++ v)) ++ List.replicate 7 0
theorem witness_SpiFramesAccessRegisters_3 :
    ∃ (s : State) (m : List Byte) (a : _), 16 ≤ m.length ∧ fb m 0 = 0x02 ∧ spiCrc (m.take 9) = fb m 9 ∧
    ofBeBytes ((m.drop 1).take 4) = 4 * a ∧ a < 0x8_0000 ∧ 2 < s.pstate ∧ alwaysOn (4 * a) = false :=
  ⟨up.modLys fun l => { l with pstate := 3 }, wrFrame [0, 8, 0, 0x30] [0, 0, 0, 5], 0x2000C, by decide +kernel⟩
theorem witness_SpiFramesAccessRegisters_4 :
    ∃ (s : State) (m : List Byte) (a : _) (u : _), exec (.registerWrite .supervisor (4 * a) 0xF (BitVec.ofNat 32 (ofBeBytes ((m.drop 5).take 4)))) s = .next u ∧
    16 ≤ m.length ∧ fb m 0 = 0x02 ∧ spiCrc (m.take 9) = fb m 9 ∧ ofBeBytes ((m.drop 1).take 4) = 4 * a ∧ a < 0x8_0000 ∧
    blockPowered s (4 * a) = true ∧ refusals u ≤ refusals s :=
  ⟨up, wrFrame [0, 8, 0, 0x30] [0, 0, 0, 5], 0x2000C, nextOf (exec (.registerWrite .supervisor (4 * 0x2000C) 0xF 5) up), rfl, by decide +kernel⟩
theorem witness_SpiFramesAccessRegisters_5 :
    ∃ (s : State) (m : List Byte) (a : _) (u : _), exec (.registerWrite .supervisor (4 * a) 0xF (BitVec.ofNat 32 (ofBeBytes ((m.drop 5).take 4)))) s = .next u ∧
    16 ≤ m.length ∧ fb m 0 = 0x02 ∧ spiCrc (m.take 9) = fb m 9 ∧ ofBeBytes ((m.drop 1).take 4) = 4 * a ∧ a < 0x8_0000 ∧
    blockPowered s (4 * a) = true ∧ refusals s < refusals u :=
  ⟨up, wrFrame [0, 8, 0, 0x2C] [0, 0, 0, 5], 0x2000B, nextOf (exec (.registerWrite .supervisor (4 * 0x2000B) 0xF 5) up), rfl, by decide +kernel⟩
theorem witness_SpiFramesAccessRegisters_6 :
    ∃ (s : State) (m : List Byte) (off : Nat) (val : Word), 16 ≤ m.length ∧ fb m 0 = 0x02 ∧ spiCrc (m.take 9) = fb m 9 ∧
    ofBeBytes ((m.drop 1).take 4) = off ∧ off % 4 = 0 ∧ ofBeBytes ((m.drop 5).take 4) = val.toNat ∧ 0x8_0000 ≤ off ∧
    off < 0x9_0000 ∧ off % 0x100 ≠ 0 ∧ (regDesc off).pair = 0 ∧ s.twn.role = 0 ∧ s.pstate ≤ 2 ∧
    writeRefusal s 2 off 0 val = none :=
  ⟨up, wrFrame [0, 8, 0, 0x30] [0, 0, 0, 5], 0x80030, 5, by decide +kernel⟩
def dlock : State := up.modCfg fun c => { c with debugLock := true }
theorem witness_DebugPortOperates_0 :
    ∃ (s : State), s.pin.dbgOp = none ∧ s.pin.dbgGrt = false ∧ s.cfg.debugLock = true :=
  ⟨dlock, by decide +kernel⟩
theorem witness_DebugPortOperates_1 :
    ∃ (s : State) (off : Nat), s.pin.dbgOp = none ∧ s.pin.dbgGrt = false ∧ s.cfg.debugLock = true ∧ 0x1_0000 ≤ off ∧
    off < 0xD_0000 :=
  ⟨dlock, 0x1_0008, by decide +kernel⟩
theorem witness_DebugPortOperates_2 :
    ∃ (s : State), s.pin.dbgOp = none ∧ s.pin.dbgGrt = false ∧ s.cfg.debugLock = false ∧ s.pstate ≤ 2 ∧ s.twn.role = 0 :=
  ⟨queued q0, by decide +kernel⟩
theorem witness_DebugPortOperates_3 :
    ∃ (s : State) (off : Nat), s.pin.dbgOp = none ∧ s.pin.dbgGrt = false ∧ s.cfg.debugLock = false ∧ s.pstate ≤ 2 ∧
    s.twn.role = 0 ∧ off < 0x1_0000 :=
  ⟨queued q0, 4, by decide +kernel⟩
theorem witness_DebugPortOperates_4 :
    ∃ (s : State) (off : Nat) (val : Word) (u : State), exec (.registerWrite .jtag off 0xF val) s = .next u ∧
    s.pin.dbgOp = none ∧ s.pin.dbgGrt = false ∧ s.cfg.debugLock = false ∧ s.pstate ≤ 2 ∧ s.twn.role = 0 ∧
    off < 0x20_0000 ∧ refusals u ≤ refusals s :=
  ⟨up, queReg 0 0x30, 5, nextOf (exec (.registerWrite .jtag (queReg 0 0x30) 0xF 5) up), rfl, by decide +kernel⟩
theorem witness_DebugPortOperates_5 :
    ∃ (s : State) (off : Nat) (val : Word) (u : State), exec (.registerWrite .jtag off 0xF val) s = .next u ∧
    s.pin.dbgOp = none ∧ s.pin.dbgGrt = false ∧ s.cfg.debugLock = false ∧ s.pstate ≤ 2 ∧ s.twn.role = 0 ∧
    off < 0x20_0000 ∧ refusals s < refusals u :=
  ⟨up, queReg 0 0x2C, 5, nextOf (exec (.registerWrite .jtag (queReg 0 0x2C) 0xF 5) up), rfl, by decide +kernel⟩
theorem witness_DebugPortOperates_6 :
    ∃ (s : State) (off : Nat) (val : Word), s.pin.dbgOp = none ∧ s.pin.dbgGrt = false ∧ s.cfg.debugLock = false ∧
    s.pstate ≤ 2 ∧ s.twn.role = 0 ∧ 0x8_0000 ≤ off ∧ off < 0x9_0000 ∧ off % 0x100 ≠ 0 ∧ (regDesc off).pair = 0 ∧
    writeRefusal s 3 off 0 val = none :=
  ⟨up, queReg 0 0x30, 5, by decide +kernel⟩
theorem witness_DebugPortOperates_7 :
    ∃ (s : State) (q : QueueId) (a : BitVec 64) (n : Nat), s.pin.dbgOp = none ∧ s.pin.dbgGrt = false ∧
    s.cfg.debugLock = false ∧ s.pstate ≤ 2 ∧ s.twn.role = 0 ∧ 1 ≤ n ∧ n ≤ s.pci.maxRead ∧ a.toNat % 4096 + n ≤ 4096 ∧
    (s.qu q).bypass = true ∧ s.masters = true ∧ hostTagFree s = true :=
  ⟨queued q0, 3, 0x5000, 512, by decide +kernel⟩
theorem witness_DebugPortOperates_8 :
    ∃ (s : State), s.pin.dbgOp = none ∧ s.pin.dbgGrt = false ∧ s.cfg.debugLock = false ∧ s.pstate ≤ 2 ∧ s.twn.role = 0 :=
  ⟨(queued q0).modPin fun p => { p with dbgBuf := [1, 2, 3, 4, 5, 6, 7, 8] }, by decide +kernel⟩
theorem witness_DebugPortOperates_9 :
    ∃ (s : State), s.pin.dbgOp = none ∧ s.pin.dbgGrt = false ∧ s.cfg.debugLock = false ∧ s.pstate ≤ 2 ∧ s.twn.role = 0 ∧
    s.regB 0xA_0004 0 = false :=
  ⟨(queued q0).setRegF 0xA_0004 0 1 0, by decide +kernel⟩
def wGrt : State := ((queued q0).setRegF 0xA_0004 0 1 1).modGrt fun g => { g with mem := [(321, 7)] }
theorem witness_DebugPortOperates_11 :
    ∃ (s : State) (w : Nat), quietGrotto s ∧ s.pin.dbgOp = none ∧ s.pin.dbgGrt = false ∧ s.cfg.debugLock = false ∧
    s.pstate ≤ 2 ∧ s.twn.role = 0 ∧ w < 0x0200_0000 ∧ s.regB 0xA_0004 0 = true :=
  ⟨wGrt, 80, ⟨by decide +kernel, by decide +kernel, by decide +kernel, rfl, fun _ => ⟨rfl, rfl⟩, rfl, rfl, by decide +kernel⟩, by decide +kernel⟩
def wHostrd (enc : Bool) : State := (queued { q0 with setup := { setup0 0 with prot := if enc then 0xC0000000 else 0x80000000 } }).modPin fun p =>
  { p with dbgOp := some (3, 0x5000, 512, 7), dbgIssued := 1, dbgStatus := 1 }
theorem witness_DebugPortOperates_13 :
    ∃ (s : State) (q : Nat) (a : Nat) (n : Nat) (dun : Nat), s.pin.dbgOp = some (q, a, n, dun) ∧ s.pin.dbgIssued ≠ 0 :=
  ⟨wHostrd false, 3, 0x5000, 512, 7, by decide +kernel⟩
theorem witness_DebugPortOperates_14 :
    ∃ (s : State) (q : Nat) (a : Nat) (n : Nat) (dun : Nat), s.pin.dbgOp = some (q, a, n, dun) ∧ s.pin.dbgIssued ≠ 0 ∧
    (s.qu q).enc = false :=
  ⟨wHostrd false, 3, 0x5000, 512, 7, by decide +kernel⟩
def wSecret : State := (wHostrd true).modKey 0 fun k => { k with rights := 0xF, st := 1, key := (List.range 64).map fun i => BitVec.ofNat 8 i }
theorem witness_DebugPortOperates_15 :
    ∃ (s : State) (q : Nat) (a : Nat) (n : Nat) (dun : Nat), s.pin.dbgOp = some (q, a, n, dun) ∧ s.pin.dbgIssued ≠ 0 ∧
    (s.qu q).enc = true ∧ bit (rightsOf s (s.qu q).keyIdx) 3 = true ∧ (s.key (s.qu q).keyIdx).dbl = false ∧
    n % (s.qu q).sector = 0 ∧ s.cry.xtsBad = false :=
  ⟨wSecret, 3, 0x5000, 512, 7, by decide +kernel⟩
theorem witness_DebugPortOperates_16 :
    ∃ (s : State) (q : Nat) (a : Nat) (n : Nat) (dun : Nat), s.pin.dbgOp = some (q, a, n, dun) ∧ s.pin.dbgIssued ≠ 0 ∧
    (s.qu q).enc = true ∧ bit (rightsOf s (s.qu q).keyIdx) 3 = true ∧ (s.key (s.qu q).keyIdx).dbl = false ∧
    n % (s.qu q).sector = 0 ∧ s.cry.xtsBad = true :=
  ⟨wSecret.modCry fun c => { c with xtsBad := true }, 3, 0x5000, 512, 7, by decide +kernel⟩
theorem witness_DebugPortOperates_17 :
    ∃ (s : State) (q : Nat) (a : Nat) (n : Nat) (dun : Nat), s.pin.dbgOp = some (q, a, n, dun) ∧ s.pin.dbgIssued ≠ 0 ∧
    (s.qu q).enc = true ∧ (s.key (s.qu q).keyIdx).dbl = false ∧ bit (rightsOf s (s.qu q).keyIdx) 3 = false :=
  ⟨wSecret.modKey 0 fun k => { k with rights := 7 }, 3, 0x5000, 512, 7, by decide +kernel⟩
def svcs : State := up.modPin fun p => { p with user := 5 }
theorem witness_ServicePinsAndLocks_0 :
    ∃ (s : State), bit s.pin.locked 1 = false :=
  ⟨svcs, by decide +kernel⟩
theorem witness_ServicePinsAndLocks_3 :
    ∃ (s : State) (val : Word), bit s.pin.locked 1 = true ∧ fld val 12 4 ≠ 0 :=
  ⟨svcs.modPin fun p => { p with locked := 2 }, 0x3000, by decide +kernel⟩
theorem witness_ServicePinsAndLocks_4 :
    ∃ (s : State) (who : Requester), (tabGet {} s.pin.seqs (Requester.code who)).count = 0 :=
  ⟨svcs, .host, by decide +kernel⟩
theorem witness_ServicePinsAndLocks_5 :
    ∃ (s : State) (who : Requester) (mask : BitVec 5), tabGet {} s.pin.seqs (Requester.code who) = ⟨1, mask⟩ :=
  ⟨svcs.modPin fun p => { p with seqs := [(1, ⟨1, 0x12⟩)] }, .host, 0x12, by decide +kernel⟩
theorem witness_ServicePinsAndLocks_6 :
    ∃ (s : State) (who : Requester) (mask : BitVec 5), tabGet {} s.pin.seqs (Requester.code who) = ⟨2, mask⟩ :=
  ⟨(svcs.modPin fun p => { p with seqs := [(1, ⟨2, 0x12⟩)] }).setReg 0xE_0010 0x80000000, .host, 0x12, by decide +kernel⟩
theorem witness_ServicePinsAndLocks_7 :
    ∃ (s : State) (k : Fin 16) (v : Bool), bit s.pin.svc k ≠ v ∧
    if v then s.regF (svcReg k) 28 2 % 2 = 1 else 2 ≤ s.regF (svcReg k) 28 2 ∧ svcOutput s k = false ∧
    svcAnalogue s k = false ∧ bit s.pin.edgeTold k = false :=
  ⟨svcs.setReg (svcReg 7) 0x10000000, 7, true, by decide +kernel⟩
theorem witness_ServicePinsAndLocks_8 :
    ∃ (s : State) (k : Fin 16) (v : Bool), bit s.pin.svc k ≠ v ∧ s.regF (svcReg k) 28 2 = 0 :=
  ⟨svcs, 7, true, by decide +kernel⟩
theorem witness_DualInputsAndDphyPorts_0 :
    ∃ (s : State) (i : Fin 768) (d : Bool), s.regB (ioReg i) 12 = true ∧ s.regF (ioReg i) 10 2 ≠ 0 ∧
    bit s.pin.episode i ≠ d :=
  ⟨up.setReg (ioReg 9) 0x1403, 9, true, by decide +kernel⟩
def dphy : State := (up.setReg (dphyReg 5) 0x87FC0003).setRegF (bankReg 1) 26 1 1
theorem witness_DualInputsAndDphyPorts_1 :
    ∃ (s : State) (p : Fin 32), portOn s p = true :=
  ⟨dphy, 5, by decide +kernel⟩
theorem witness_DualInputsAndDphyPorts_2 :
    ∃ (s : State) (p : Fin 32), portOn s p = true ∧ 150 < s.regF (dphyReg p) 18 9 :=
  ⟨dphy, 5, by decide +kernel⟩
def dphyLead : State := (dphy.modBun 0 fun x => { x with st := 6, link := { st := 2 } }).modTwn fun t => { t with role := 1, pstate := 2 }
theorem witness_DualInputsAndDphyPorts_3 :
    ∃ (s : State) (p : Fin 32), portOn s p = true ∧ s.fab.released = true ∧ s.twn.role = 1 ∧ s.twinUp = true :=
  ⟨dphyLead, 5, by decide +kernel⟩
theorem witness_DualInputsAndDphyPorts_4 :
    ∃ (s : State) (p : Fin 32) (b : List Byte) (sot : Bool), portOn s p = true ∧ s.fab.released = true ∧
    s.paired = false ∧ epOwned s (s.regF (dphyReg p) 0 10) = false ∧ b ≠ [] ∧ b.length ≤ 64 ∧ (s.port p).buffer = [] ∧
    sot = false :=
  ⟨dphy, 5, [1, 2, 3], false, by decide +kernel⟩
theorem witness_DualInputsAndDphyPorts_5 :
    ∃ (s : State) (p : Fin 32) (b : List Byte) (sot : Bool), portOn s p = true ∧ s.fab.released = true ∧
    s.paired = false ∧ epOwned s (s.regF (dphyReg p) 0 10) = false ∧ b ≠ [] ∧ b.length ≤ 64 ∧ (s.port p).buffer = [] ∧
    sot = true :=
  ⟨dphy, 5, [1, 2, 3], true, by decide +kernel⟩
theorem witness_DualInputsAndDphyPorts_6 :
    ∃ (s : State) (p : Fin 32), portOn s p = true ∧ s.fab.released = true ∧ s.paired = false ∧
    epOwned s (s.regF (dphyReg p) 0 10) = false ∧ (s.port p).buffer.length = 128 :=
  ⟨dphy.modPort 5 fun x => { x with buffer := List.replicate 128 closingBeat }, 5, by decide +kernel⟩
theorem witness_JtagInstructions_0 :
    ∃ (s : State), scanBarred s = false :=
  ⟨up, by decide +kernel⟩
theorem witness_JtagInstructions_5 :
    ∃ (s : State), scanBarred s = true :=
  ⟨dlock, by decide +kernel⟩


/-! WellFormed: for each check, a command that breaks it. -/

def env1 : TickEnv :=
  { noEnv with sensors := List.replicate 56 0, rails := List.replicate 7 0, diePower := List.replicate 5 0,
               vdet := List.replicate 16 0, analogue := List.replicate 16 0 }
def board1 : Board := { board with vdet := List.replicate 16 0 }

theorem test_wf_accepts : Instr.wellFormed (.registerWrite .host 0x1F_FFFC 0xF 1) = true ∧
    Instr.wellFormed (.hiWriteCommit .host 0xE_0004 0) = true ∧ Instr.wellFormed (.tick env1) = true ∧
    Instr.wellFormed (.powerOn board1) = true ∧ Instr.wellFormed (.bar2Write 0x17FF_FFFE [true, false] [1, 2] []) = true := by decide
theorem test_wf_registerWrite_aligned : Instr.wellFormed (.registerWrite .host 0x2 0xF 0) = false := by decide
theorem test_wf_registerWrite_in_bars : Instr.wellFormed (.registerWrite .host 0x21_0000 0xF 0) = false := by decide
theorem test_wf_rcRead : Instr.wellFormed (.rcRead .host 0x1) = false := by decide
theorem test_wf_dbgRegrd : Instr.wellFormed (.dbgRegrd 0x20_0000) = false := by decide
theorem test_wf_dbgRegwr : Instr.wellFormed (.dbgRegwr 0x3 0) = false := by decide
theorem test_wf_loWriteStage : Instr.wellFormed (.loWriteStage .host 0x4 0) = false := by decide
theorem test_wf_loReadCapture : Instr.wellFormed (.loReadCapture .host 0x20_0000) = false := by decide
theorem test_wf_pairAccess64 : Instr.wellFormed (.pairAccess64 0xC none) = false := by decide
theorem test_wf_splitAccess64 : Instr.wellFormed (.splitAccess64 0x4 (some 0) 0xFF) = false := by decide
theorem test_wf_hiWriteCommit : Instr.wellFormed (.hiWriteCommit .host 0x8 0) = false := by decide
theorem test_wf_bar2Reserved_below : Instr.wellFormed (.bar2ReservedAccess true 0x17FF_FFFF) = false := by decide
theorem test_wf_bar2Reserved_above : Instr.wellFormed (.bar2ReservedAccess false 0x2000_0000) = false := by decide
theorem test_wf_tick_sensors : Instr.wellFormed (.tick { env1 with sensors := [] }) = false := by decide
theorem test_wf_tick_rails : Instr.wellFormed (.tick { env1 with rails := [] }) = false := by decide
theorem test_wf_tick_diePower : Instr.wellFormed (.tick { env1 with diePower := [] }) = false := by decide
theorem test_wf_tick_vdet : Instr.wellFormed (.tick { env1 with vdet := [] }) = false := by decide
theorem test_wf_tick_analogue : Instr.wellFormed (.tick { env1 with analogue := [] }) = false := by decide
theorem test_wf_powerOn : Instr.wellFormed (.powerOn { board1 with vdet := [] }) = false := by decide
theorem test_wf_flashBurstCapture : Instr.wellFormed (.flashBurstCapture false 0xFFFF_FFFF [1, 2]) = false := by decide
theorem test_wf_bar2Write_enables : Instr.wellFormed (.bar2Write 0 [true] [1, 2] []) = false := by decide
theorem test_wf_bar2Write_end : Instr.wellFormed (.bar2Write 0x17FF_FFFF [true, true] [1, 2] []) = false := by decide
theorem test_wf_bar2Read : Instr.wellFormed (.bar2Read 0x17FF_FFFC 8 []) = false := by decide
theorem test_wf_fetchDataArrive : Instr.wellFormed (.fetchDataArrive 0 (List.replicate 33 0)) = false := by decide
theorem test_wf_walkComplete : Instr.wellFormed (.walkComplete 0 0 [1, 1, 1, 1, 1] false) = false := by decide
theorem test_wf_adaptWindowEnd : Instr.wellFormed (.adaptWindowEnd 0 0 101 0 0 0) = false := by decide
theorem test_wf_retrainBurstEnd : Instr.wellFormed (.retrainBurstEnd 0 [0, 0]) = false := by decide
theorem test_wf_markerSend : Instr.wellFormed (.markerSend 0 [0]) = false := by decide
theorem test_wf_flitReceive : Instr.wellFormed (.flitReceive 0 [0] .good) = false := by decide
theorem test_wf_mirrored_partner : Instr.wellFormed (.mirroredOutboundFlit 0 [] (List.replicate 64 0)) = false := by decide
theorem test_wf_mirrored_own : Instr.wellFormed (.mirroredOutboundFlit 0 (List.replicate 64 0) []) = false := by decide
theorem test_wf_spiReadFrame : Instr.wellFormed (.spiReadFrame (List.replicate 17 0)) = false := by decide
theorem test_wf_spiWriteFrame : Instr.wellFormed (.spiWriteFrame (List.replicate 17 0)) = false := by decide
theorem test_wf_dbgBufrd : Instr.wellFormed (.dbgBufrd 4096) = false := by decide
theorem test_wf_dbgGrtrd_aligned : Instr.wellFormed (.dbgGrtrd 0x6 []) = false := by decide
theorem test_wf_dbgGrtrd_end : Instr.wellFormed (.dbgGrtrd 0x0800_0000 []) = false := by decide
theorem test_wf_dbgGrtwr_aligned : Instr.wellFormed (.dbgGrtwr 0x1 0 []) = false := by decide
theorem test_wf_dbgGrtwr_end : Instr.wellFormed (.dbgGrtwr 0x0800_0004 0 []) = false := by decide
def prog1 : PcieProg :=
  { bar0 := 0, bar2 := 0, bar4 := 0, maxPayload := 256, maxRead := 512, relaxed := true, msixOn := true, msixMask := false,
    ecrcGen := false, ecrcCheck := false, ctoRange := 0, ctoOff := false, aspmL1 := false, ltr := false }
theorem test_wf_linkStateChange_payload :
    Instr.wellFormed (.linkStateChange 4 16 0 .down false { prog1 with maxPayload := 1024 }) = false := by decide
theorem test_wf_linkStateChange_read :
    Instr.wellFormed (.linkStateChange 4 16 0 .down false { prog1 with maxRead := 64 }) = false := by decide
theorem test_no_word_spells_a_command : decodeTableWord 64 0x1234 = none := rfl

/-! Worked values of the manual. -/

/-- 00_scope.md: chamber B 0x25 has its registers at 0x0005_2500, queue 200 its kick page at 0x001C_8000. -/
theorem test_register_addresses : chmReg 0x125 0 = 0x0005_2500 ∧ kickPage 200 = 0x001C_8000 := by decide
/-- 00_scope.md: the check value of CRC-32C over the ASCII digits 1 to 9. -/
theorem test_crc32c_check_value : crc32c [0x31, 0x32, 0x33, 0x34, 0x35, 0x36, 0x37, 0x38, 0x39] = 0xE306_9283 := by
  decide +kernel
/-- 07_grotto.md: offset 0x0123_4568 lies in group 0x24, line 0x1A2, bank 5. -/
theorem test_grotto_offset :
    lineGroup (0x0123_4568 / 64) = 0x24 ∧ lineOf (0x0123_4568 / 64) = 0x1A2 ∧ lineBank (0x0123_4568 / 64) = 5 ∧
      0x0123_4568 % 64 / 8 = 5 := by decide
/-- 19_pins.md: pin 463 belongs to columns 152 (slot 7), 153 (slot 4) and 154 (slot 1); PIN_IO463 lies at 0x000E_173C. -/
theorem test_pin_columns : ioReg 463 = 0x000E_173C ∧ pinOf 152 7 = 463 ∧ pinOf 153 4 = 463 ∧ pinOf 154 1 = 463 ∧
    (List.range 256).filter (reachesPin · 463) = [152, 153, 154] := by decide +kernel
/-- 19_pins.md: 0xA641_0000 gives pin 463 OWNEN = 1, tier A, column 0x99. -/
theorem test_pin_owner : (up.setReg (ioReg 463) 0xA641_0000).regF (ioReg 463) 31 1 = 1 ∧
    (up.setReg (ioReg 463) 0xA641_0000).regF (ioReg 463) 22 8 = 0x99 := by decide +kernel

/-- Chamber 3 runs these words and nothing else runs. -/
def wired (c : Nat) (ws : ImageWords) : State :=
  up.modChm c fun ch => { ch with released := true, strata := [(0, live ws)] }
/-- A cell word from its fields: LUT, IN0, IN1, IN2, IN3, CARRY, CSL. -/
def cellWord (lut in0 in1 in2 in3 carry csl : Nat) : BitVec 80 :=
  BitVec.ofNat 80 (lut + in0 * 2 ^ 16 + in1 * 2 ^ 22 + in2 * 2 ^ 42 + in3 * 2 ^ 48 + carry * 2 ^ 54 + csl * 2 ^ 76)
/-- 02_cells.md: an adder bit is LUT 0x0806 with CARRY = ARITH; input code 0 is constant 0 and 1 is constant 1. -/
theorem test_adder_bit : ∀ a b c : Bool,
    cellOut (wired 3 [(1, cellWord 0x0806 (b2n a) (b2n b) 0 0 1 0)]) { co := b2n c <<< 6144 } 3 1 =
      (xor a (xor b c), (a && b) || (c && (a || b))) := by decide +kernel
/-- 02_cells.md: the header flag in product-term mode; v0, v1, v2 are given as constants on I0 to I11. -/
def headerFlag (v0 v1 v2 : Nat) : Bool :=
  let x (v i : Nat) : Nat := b2n (v.testBit i)
  let w (i lut v j csl : Nat) : Nat × BitVec 80 := (i, cellWord lut (x v j) (x v (j + 1)) 0 0 0 csl)
  let terms : BitVec 80 := BitVec.ofNat 80 (0x05 * 2 ^ 44 + 0x12 * 2 ^ 52)
  (cellOut (wired 3 [(0, (w 0 0x0020 v0 0 1).2 ||| terms), w 1 0x0400 v0 2 0, w 2 0x000F v1 0 0, w 3 0 v1 2 0,
    w 4 0x8000 v2 0 0, w 5 0 v2 2 0]) {} 3 0).1
theorem test_header_flag : headerFlag 5 3 0 = true ∧ headerFlag 5 4 0xF = false ∧ headerFlag 0xA 9 0xF = true ∧
    headerFlag 0xA 0 0xE = false ∧ headerFlag 4 0 0xF = false := by decide +kernel
/-- 03_routing.md: cluster (3, 5) sends a0 on with L16 = 0x1E; cluster (13, 5) reads it through IN1 = 0x38. -/
theorem test_length_16_route : ∀ x : Bool,
    l16Drive (wired 0x40 [(8 * 83 + 4, cellWord 0 0 0 0 0 0 8), (8 * 83 + 5, cellWord 0 0 0 0 0 0 7)])
        { w1 := b2n x <<< (2048 * 0x40 + 8 * 82) } 0x40 83 = x ∧
      inVal (wired 0x40 [(8 * 93, cellWord 0 0 0x38 0 0 0 0)]) { wl := b2n x <<< (256 * 0x40 + 83) } 0x40 (8 * 93) 1 = x := by
  decide +kernel
/-- 03_routing.md: the pass-throughs of the length-4 route, DRV4 = 0x0C at (6, 5) and 0x0D at (10, 5). -/
theorem test_length_4_route : ∀ x : Bool,
    wireDrive (wired 0x40 [(8 * 86 + 4, BitVec.ofNat 80 (0x0C * 2 ^ 56))]) { w4 := b2n x <<< (2048 * 0x40 + 8 * 82) } 0x40
        (8 * 86 + 4) true = x ∧
      wireDrive (wired 0x40 [(8 * 90 + 4, BitVec.ofNat 80 (0x0D * 2 ^ 56))])
        { w4 := b2n x <<< (2048 * 0x40 + 8 * 86 + 4) } 0x40 (8 * 90 + 4) true = x := by decide +kernel

/-- 14_network.md: M has Wa (three nodes) on bundle 2 and Wb (two nodes) on bundle 3. -/
def managerM : State := { up with
  net := { children := [
    { bundle := 2, base := 1, size := some 3, adopted := true }, { bundle := 3, base := 4, size := some 2, adopted := true }] } }
theorem test_preorder_addresses : (giveBases 1 managerM.net.children).map (·.base) = [1, 4] ∧
    nextHop managerM 5 = some 3 ∧ nextHop managerM 2 = some 2 := by decide +kernel

/-- 11_loading.md: a container of this KIND, IMAGEID and VERSION whose MANIFEST, stored as it stands, lists these. -/
def member (kind : Byte) (image ver : Word) (l : List (BitVec 8 × BitVec 32 × BitVec 32)) : Container :=
  let body := leBytes 2 l.length ++ [0, 0] ++ l.flatMap fun m => m.1 :: [0, 0, 0] ++ leBytes 4 m.2.1.toNat ++ leBytes 4 m.2.2.toNat
  let head := leBytes 4 0x42415053 ++ leBytes 2 1 ++ [kind, 0] ++ leBytes 4 (devRead 0).toNat ++
    leBytes 1 (fld (devRead 4) 8 8) ++ [2, 0xF, 0] ++ leBytes 4 image.toNat ++ leBytes 4 ver.toNat ++
    leBytes 4 (5584 + body.length) ++ leBytes 2 1 ++ leBytes 2 0 ++ List.replicate 92 0
  let entry := leBytes 2 1 ++ leBytes 2 2 ++ leBytes 4 0 ++ leBytes 4 5584 ++ leBytes 4 body.length ++ leBytes 4 body.length ++
    List.replicate 76 0
  contOf (head ++ leBytes 4 (crc32 head).toNat ++ entry) [{ digestOk := true, plain := some body }] 0x1_0000
/-- A flash whose directory points to these containers, one each 64 KiB, FCLK 50. -/
def flashOf (l : List Container) : Flash :=
  let put := (withPos l).map fun p => (0x1_0000 * (p.1 + 1), p.2)
  let list := put.flatMap fun p => p.2.kind :: [0, 0, 0] ++ leBytes 4 p.1 ++ leBytes 4 0x1_0000 ++ leBytes 4 0
  let head := leBytes 4 0x52445053 ++ leBytes 2 1 ++ leBytes 2 l.length ++ [50, 8] ++ List.replicate 18 0
  let dir := head ++ leBytes 4 (crc32 (head ++ list)).toNat ++ list
  { answers := true, dir, copy := dir, contents := put, echo := none }
def fw (v : Word) : BitVec 8 × BitVec 32 × BitVec 32 := (1, 0x101, v)
def pe (v : Word) : BitVec 8 × BitVec 32 × BitVec 32 := (2, 0x201, v)
def ky (v : Word) : BitVec 8 × BitVec 32 × BitVec 32 := (3, 0x301, v)
def oldSet : Flash := flashOf [member 1 0x101 7 [pe 7, ky 3], member 2 0x201 7 [fw 7, ky 3], member 3 0x301 3 [fw 7, pe 7]]
def newPair : List Container := [member 1 0x101 8 [pe 8, ky 3, ky 4], member 2 0x201 8 [fw 8, ky 3, ky 4]]
/-- A start that finds these on flash B beside the version-7 set on flash A. -/
def update (l : List Container) : State :=
  let cfg : Cfg := { svn := 2, programmed := 1, flashA := some oldSet, flashB := some (flashOf l) }
  { State.reset with cfg := cfg }
def chosenVersions (s : State) : Option (List Word) :=
  (pickSet s false).map fun x => [x.1.2.container.version, x.2.1.2.container.version, x.2.2.2.container.version]
/-- 11_loading.md: without a KEYS container that names them the version-8 members are not chosen; with it they are. -/
theorem test_set_of_version_7 : chosenVersions (update newPair) = some [7, 7, 3] := by decide +kernel
theorem test_set_of_version_8 :
    chosenVersions (update (newPair ++ [member 3 0x301 4 [fw 8, pe 8]])) = some [8, 8, 4] := by decide +kernel
/-- 17_echo.md: 294,992 bytes fill five sectors of 65,504. -/
theorem test_commit_sectors : ceilDiv 294992 65504 = 5 := by decide

/-! The functions of external standards, by those standards' own examples. -/

/-- FIPS 197, C.3: AES-256 of 00112233445566778899AABBCCDDEEFF under key 00 01 … 1F, and back. -/
def fipsKey : List Byte := (List.range 32).map (BitVec.ofNat 8)
def fipsPlain : List Byte := (List.range 16).map fun i => BitVec.ofNat 8 (0x11 * i)
theorem test_aes256 : aesEncrypt (roundKeys fipsKey) fipsPlain = bigBytes 16 0x8ea2b7ca516745bfeafc49904b496089 ∧
    aesDecrypt (roundKeys fipsKey) (bigBytes 16 0x8ea2b7ca516745bfeafc49904b496089) = fipsPlain := by decide +kernel
/-- IEEE 1619, vector 10: the first two blocks of XTS-AES-256 with data unit number 0xFF. -/
def xtsKey : List Byte :=
  bigBytes 32 0x2718281828459045235360287471352662497757247093699959574966967627 ++
  bigBytes 32 0x3141592653589793238462643383279502884197169399375105820974944592
theorem test_xts : xts xtsKey true 0xFF fipsKey =
      bigBytes 32 0x1c3b3a102f770386e4836c99e370cf9bea00803f5e482357a4ae12d414a3e63b ∧
    xts xtsKey false 0xFF (bigBytes 32 0x1c3b3a102f770386e4836c99e370cf9bea00803f5e482357a4ae12d414a3e63b) = fipsKey := by
  decide +kernel
/-- The GCM specification, test case 14: a zero block under a zero key and IV. -/
theorem test_gcm : gcmCrypt (List.replicate 32 0) 0 (List.replicate 16 0) = bigBytes 16 0xcea7403d4d606b6e074ec5d3baf39d18 ∧
    gcmTag (List.replicate 32 0) 0 [] (bigBytes 16 0xcea7403d4d606b6e074ec5d3baf39d18) =
      bigBytes 16 0xd0d1c8a799996bf0265b98b5d48ab919 := by decide +kernel
/-- SP 800-38B: AES-256-CMAC of the empty message. -/
theorem test_cmac : cmac (bigBytes 32 0x603deb1015ca71be2b73aef0857d77811f352c073b6108d72d9810a30914dff4) [] =
    bigBytes 16 0x028962f61b7bf89efc6b551f4667d983 := by decide +kernel

end Sys2Proof.Tests
end

/-! Frames: how a frame composes, and what raising an event and sending on a link leave alone. -/

namespace Sys2Proof

open Sys2Proof.Machine

/-- A part that two changes in a row leave alone is left alone. -/
theorem Part.same_trans {p : Part} {s t u : State} (hst : p.same s t) (htu : p.same t u) : p.same s u := by
  cases p with
  | regs => exact fun o => (htu o).trans (hst o)
  | _ => exact htu.trans hst

theorem OnlyChanges.trans {l : List Part} {s t u : State} (hst : OnlyChanges l s t) (htu : OnlyChanges l t u) :
    OnlyChanges l s u :=
  fun p hp => Part.same_trans (hst p hp) (htu p hp)

/-- Where Grotto is left alone, so is each of its bytes. -/
theorem OnlyChanges.grottoByte_eq {l : List Part} {s t : State} (h : OnlyChanges l s t) (hl : Part.grt ∉ l) (a : Nat) :
    grottoByte t a = grottoByte s a := by
  have hgrt : t.grt = s.grt := h .grt hl
  simp [grottoByte, hgrt]

theorem onlyChanges_raise {l : List Part} (code : Nat) (fields : List Nat) (s : State) (hl : events ⊆ l) :
    OnlyChanges l s (raise code fields s) := by
  intro p hp
  cases p with
  | ev | out | pci => exact absurd (hl (by decide)) hp
  | regs => exact fun o => by simp [State.reg]
  | _ => simp [Part.same]

theorem onlyChanges_send {l : List Part} (x : Out) (s : State) (hl : Part.out ∈ l) : OnlyChanges l s (s.send x) := by
  intro p hp
  cases p with
  | out => exact absurd hl hp
  | regs => exact fun _ => rfl
  | _ => rfl

theorem raised_raise (code : Nat) (fields : List Nat) (s : State) : Raised s (raise code fields s) code fields :=
  (mem_raise code fields s _).2 (.inl rfl)

/-- IRQEN's vector goes with the events of subsystem 13 only (Table Lysata-14). -/
theorem raise_out_of_not_lysata {code : Nat} (fields : List Nat) (s : State) (h : code / 256 ≠ 0x0D) :
    (raise code fields s).out = s.out := by
  simp [raise, sendLysVector, State.when, h]

end Sys2Proof

/-! The reserved BAR2 range (R21): what an access there does, and the commands that are such an access. -/

namespace Sys2Proof

open Sys2Proof.Machine

theorem bar2Reserved_write (off len : Nat) (s : State) :
    bar2Reserved true off len s = raise 0x0701 [off, 1, 4] s := rfl

theorem bar2Reserved_read (off len : Nat) (s : State) :
    bar2Reserved false off len s = (raise 0x0701 [off, 1, 5] s).send (.bar2 (List.replicate len 0) false 0) := rfl

theorem exec_bar2ReservedAccess (write : Bool) (off : Nat) (s : State) :
    exec (.bar2ReservedAccess write off) s = .next (bar2Reserved write off 4 s) := rfl

/-- The fourth window and all above it are the reserved range. -/
theorem three_le_bar2Window {off : Nat} (h : 0x1800_0000 ≤ off) : 3 ≤ bar2Window off := by
  unfold bar2Window
  omega

/-- A BAR2 write in the reserved range is a reserved write, whatever the device's role. -/
theorem exec_bar2Write_reserved {off : Nat} (h : 0x1800_0000 ≤ off) (be : List Bool) (data : List Byte) (bad : List Nat)
    (s : State) : exec (.bar2Write off be data bad) s = .next (bar2Reserved true off data.length s) :=
  if_pos (three_le_bar2Window h)

/-- A BAR2 read in the reserved range is a reserved read, whatever the device's role. -/
theorem exec_bar2Read_reserved {off : Nat} (h : 0x1800_0000 ≤ off) (len : Nat) (bad : List Nat) (s : State) :
    exec (.bar2Read off len bad) s = .next (bar2Reserved false off len s) :=
  if_pos (three_le_bar2Window h)

/-- A reserved write raises 0x0701 with RANGE_WRITE and does nothing else. -/
theorem completes_of_reserved_write {i : Instr} {s : State} {off len : Nat}
    (h : exec i s = .next (bar2Reserved true off len s)) :
    Completes i s fun t => Raised s t 0x0701 [off, 1, 4] ∧ OnlyChanges events s t := by
  refine ⟨_, h, ?_⟩
  rw [bar2Reserved_write]
  exact ⟨raised_raise _ _ s, onlyChanges_raise _ _ s (List.Subset.refl _)⟩

/-- A reserved read raises 0x0701 with RANGE_READ, completes with zeros and does nothing else. -/
theorem completes_of_reserved_read {i : Instr} {s : State} {off len : Nat}
    (h : exec i s = .next (bar2Reserved false off len s)) :
    Completes i s fun t =>
      Raised s t 0x0701 [off, 1, 5] ∧ t.out = s.out ++ [.bar2 (List.replicate len 0) false 0] ∧ OnlyChanges events s t := by
  refine ⟨_, h, ?_⟩
  rw [bar2Reserved_read]
  refine ⟨raised_raise _ _ s, ?_, ?_⟩
  · rw [State.send_out, raise_out_of_not_lysata _ s (by decide)]
  · exact (onlyChanges_raise _ _ s (List.Subset.refl _)).trans (onlyChanges_send _ _ (by decide))

/-- Settles O9: each of the four commands is `bar2Reserved`, which raises the event and, for a read, answers zeros. -/
theorem reservedBar2Range : Obligations.ReservedBar2Range := by
  unfold Obligations.ReservedBar2Range
  intro s off
  refine ⟨completes_of_reserved_write (exec_bar2ReservedAccess true off s),
    completes_of_reserved_read (exec_bar2ReservedAccess false off s), fun be data bad hoff => ?_,
    fun n bad hoff => completes_of_reserved_read (exec_bar2Read_reserved hoff n bad s)⟩
  obtain ⟨t, hexec, hraised, hframe⟩ := completes_of_reserved_write (exec_bar2Write_reserved hoff be data bad s)
  exact ⟨t, hexec, hraised, hframe.grottoByte_eq (by decide), hframe⟩

end Sys2Proof

/-! Bytes of a word, as Grotto's operations take them apart and put them together. -/

namespace Sys2Proof

open Sys2Proof.Machine

/-- Byte i of a bit vector. -/
def byteOf {w : Nat} (d : BitVec w) (i : Nat) : Byte := d.extractLsb' (8 * i) 8

theorem bit_putBit_true {w : Nat} (v : BitVec w) (i j : Nat) (hj : j < w) :
    bit (putBit v i true) j = (bit v j || decide (j = i)) := by
  simp only [bit, putBit, if_true, BitVec.getLsbD_or, BitVec.getLsbD_ofNat, Nat.one_shiftLeft, Nat.testBit_two_pow]
  simp [hj, eq_comm]

/-- Below the width, the ones of `ofBits` stand at the listed positions. -/
theorem bit_ofBits {w : Nat} (l : List Nat) (j : Nat) (hj : j < w) : bit (ofBits w l) j = decide (j ∈ l) := by
  have hfold : ∀ v : BitVec w, bit (l.foldl (fun v i => putBit v i true) v) j = (bit v j || decide (j ∈ l)) := by
    induction l with
    | nil => simp
    | cons i l ih =>
      intro v
      rw [List.foldl_cons, ih, bit_putBit_true v i j hj]
      simp [Bool.or_assoc]
  simpa [bit, ofBits] using hfold 0

@[simp] theorem length_leBytes (n v : Nat) : (leBytes n v).length = n := by simp [leBytes]

/-- Taking the bytes of a bit vector. -/
theorem getD_leBytes_toNat {w n i : Nat} (d : BitVec w) (hi : i < n) : (leBytes n d.toNat).getD i 0 = byteOf d i := by
  simp [leBytes, byteOf, hi, BitVec.extractLsb']

/-- A number put together from bytes has them as its digits. -/
theorem ofNat_ofLeBytes_shiftRight (l : List Byte) (i : Nat) : BitVec.ofNat 8 (ofLeBytes l >>> (8 * i)) = l.getD i 0 := by
  induction l generalizing i with
  | nil => simp [ofLeBytes]
  | cons b l ih =>
    have hb : b.toNat < 256 := b.isLt
    cases i with
    | zero =>
      apply BitVec.eq_of_toNat_eq
      simpa [ofLeBytes] using hb
    | succ i =>
      have hdrop : ofLeBytes (b :: l) >>> (8 * (i + 1)) = ofLeBytes l >>> (8 * i) := by
        rw [Nat.mul_succ, Nat.add_comm, Nat.shiftRight_add]
        congr 1
        rw [ofLeBytes, Nat.shiftRight_eq_div_pow]
        omega
      rw [hdrop, ih, List.getD_cons_succ]

/-- Byte i of a bit vector put together from bytes. -/
theorem byteOf_ofLeBytes {w i : Nat} (l : List Byte) (hi : 8 * i + 8 ≤ w) :
    byteOf (BitVec.ofNat w (ofLeBytes l)) i = l.getD i 0 := by
  rw [← ofNat_ofLeBytes_shiftRight]
  ext j hj
  rw [byteOf, BitVec.getElem_extractLsb', BitVec.getLsbD_ofNat, ← BitVec.getLsbD_eq_getElem, BitVec.getLsbD_ofNat,
    Nat.testBit_shiftRight]
  simp [hj, show 8 * i + j < w by omega]

/-- Bytes put together and taken apart again. -/
theorem leBytes_toNat_ofLeBytes {n : Nat} (l : List Byte) (hl : l.length = n) :
    leBytes n (BitVec.ofNat (8 * n) (ofLeBytes l)).toNat = l := by
  apply List.ext_getElem (by simp [hl])
  intro i hi hi'
  rw [← List.getD_eq_getElem _ 0 hi, ← List.getD_eq_getElem _ 0 hi', getD_leBytes_toNat _ (by omega),
    byteOf_ofLeBytes l (by omega)]

/-- Byte j of word i of a line. -/
theorem byteOf_wordAt (d : BitVec 512) (i j : Nat) (hj : j < 8) : byteOf (wordAt d i) j = byteOf d (8 * i + j) := by
  ext k hk
  simp only [byteOf, wordAt, BitVec.getElem_extractLsb', BitVec.getLsbD_extractLsb']
  simp [show 8 * j + k < 64 by omega, show 64 * i + (8 * j + k) = 8 * (8 * i + j) + k by omega]

/-- What an operation of Table Grotto-3 makes of one enabled byte (1 WRITE, 2 BITSET, 3 BITCLR). -/
def byteOp (op : Nat) (old new : Byte) : Byte :=
  match op with
  | 1 => new
  | 2 => old ||| new
  | _ => old &&& ~~~new

/-- The mask of the enabled bytes, as `mergeData` builds it. -/
theorem byteOf_mask (be : BitVec 8) (j : Nat) (hj : j < 8) :
    byteOf (BitVec.ofNat 64 (ofLeBytes ((List.range 8).map fun i => if bit be i then (255 : Byte) else 0))) j =
      if bit be j then 255 else 0 := by
  rw [byteOf_ofLeBytes _ (by omega)]
  simp [hj]

theorem byteOf_or {w : Nat} (a b : BitVec w) (i : Nat) : byteOf (a ||| b) i = byteOf a i ||| byteOf b i :=
  BitVec.extractLsb'_or

theorem byteOf_and {w : Nat} (a b : BitVec w) (i : Nat) : byteOf (a &&& b) i = byteOf a i &&& byteOf b i :=
  BitVec.extractLsb'_and

theorem byteOf_not {w : Nat} (a : BitVec w) (i : Nat) (hi : 8 * i + 8 ≤ w) : byteOf (~~~a) i = ~~~byteOf a i := by
  ext j hj
  simp [byteOf, show 8 * i + j < w by omega]

/-- A merge acts byte by byte: on an enabled byte by the operation, on any other not at all. -/
theorem byteOf_mergeData (op : Nat) (old new : BitVec 64) (be : BitVec 8) (j : Nat) (hj : j < 8) :
    byteOf (mergeData op old new be) j = if bit be j then byteOp op (byteOf old j) (byteOf new j) else byteOf old j := by
  have hm := byteOf_mask be j hj
  have hlt : 8 * j + 8 ≤ 64 := by omega
  unfold mergeData byteOp
  simp only []
  generalize BitVec.ofNat 64 _ = m at hm ⊢
  have hones : ∀ x : Byte, x &&& 255#8 = x := fun _ => BitVec.and_allOnes
  cases hbit : bit be j with
  | false => split <;> simp [byteOf_or, byteOf_and, byteOf_not _ j hlt, hm, hbit, hones]
  | true => split <;> simp [byteOf_or, byteOf_and, byteOf_not _ j hlt, hm, hbit, hones]

end Sys2Proof

/-! Grotto with nothing waiting or wrong in it: what its operations do to the bytes there. -/

namespace Sys2Proof

open Sys2Proof.Machine

@[simp] theorem State.modBank_reg (s : State) (i : Nat) (f : Bank → Bank) (o : Nat) : (s.modBank i f).reg o = s.reg o := rfl

theorem State.modBank_bank (s : State) (i j : Nat) (f : Bank → Bank) :
    (s.modBank i f).bank j = if j = i then f (s.bank i) else s.bank j :=
  tabGet_tabSet _ _ _ _ _

theorem onlyChanges_modGrt (s : State) (f : Grotto → Grotto) : OnlyChanges [.grt] s (s.modGrt f) := by
  intro p hp
  cases p with
  | grt => exact absurd (by decide) hp
  | regs => exact fun _ => rfl
  | _ => rfl

/-- A read after consecutive writes. -/
theorem tabGet_tabPuts {α : Type} [DecidableEq α] (d : α) (t : List (Nat × α)) (k j : Nat) (l : List α) :
    tabGet d (tabPuts d t k l) j = if k ≤ j ∧ j < k + l.length then l.getD (j - k) d else tabGet d t j := by
  induction l generalizing t k with
  | nil => simp [tabPuts, show ¬ (k ≤ j ∧ j < k) by omega]
  | cons v l ih =>
    rw [tabPuts, ih, tabGet_tabSet, List.length_cons]
    rcases Nat.lt_trichotomy j k with hjk | rfl | hjk
    · rw [if_neg (by omega), if_neg (by omega), if_neg (by omega)]
    · rw [if_neg (by omega), if_pos rfl, if_pos (by omega), Nat.sub_self, List.getD_cons_zero]
    · rw [show j - k = (j - (k + 1)) + 1 by omega, List.getD_cons_succ, if_neg (show j ≠ k by omega)]
      exact if_congr (by omega) rfl rfl

/-- Banks are awake or drowsy with empty queues, no stored bit is wrong, no word is poisoned, no injection is armed: what
an access meets in a quiet Grotto, and leaves there. -/
structure Calm (s : State) : Prop where
  queue : ∀ b, (s.bank b).queue = []
  state : ∀ b, (s.bank b).state ≤ 1
  errs : s.grt.errs = []
  poison : s.grt.poison = []
  unarmed : s.regB 0x7_0020 31 = false

theorem quietGrotto.calm {s : State} (h : quietGrotto s) : Calm s := by
  obtain ⟨-, -, -, -, hbank, herrs, hpoison, hinj⟩ := h
  exact ⟨fun b => (hbank b).1, fun b => by simp [(hbank b).2], herrs, hpoison, hinj⟩

theorem Calm.modBank {s : State} (h : Calm s) (i : Nat) (f : Bank → Bank) (hq : (f (s.bank i)).queue = [])
    (hst : (f (s.bank i)).state ≤ 1) : Calm (s.modBank i f) where
  queue b := by
    rw [State.modBank_bank]
    split
    · exact hq
    · exact h.queue b
  state b := by
    rw [State.modBank_bank]
    split
    · exact hst
    · exact h.state b
  errs := h.errs
  poison := h.poison
  unarmed := h.unarmed

theorem Calm.putWord {s : State} (h : Calm s) (w : Nat) (d : BitVec 64) : Calm (putWord w d false s) where
  queue := h.queue
  state := h.state
  errs := by simp [Machine.putWord, State.modGrt, h.errs, tabDel]
  poison := by simp [Machine.putWord, State.modGrt, h.poison, setDel]
  unarmed := h.unarmed

/-- What becomes of a byte for which an operation brings a new one, or none. -/
def patch (op : Nat) (new : Option Byte) (old : Byte) : Byte := new.elim old (byteOp op old)

/-- From s to t an operation has brought the byte p a to each offset a for which there is one, and changed nothing else but
Grotto's bookkeeping. -/
structure Patched (op : Nat) (p : Nat → Option Byte) (s t : State) : Prop where
  calm : Calm t
  frame : OnlyChanges [.grt] s t
  byte : ∀ a, grottoByte t a = patch op (p a) (grottoByte s a)

theorem Patched.refl {s : State} (op : Nat) (h : Calm s) : Patched op (fun _ => none) s s :=
  ⟨h, onlyChanges_modGrt s id, fun _ => rfl⟩

theorem Patched.of_eq {op : Nat} {p q : Nat → Option Byte} {s t : State} (h : Patched op p s t) (hpq : ∀ a, p a = q a) :
    Patched op q s t :=
  funext hpq ▸ h

theorem Patched.modBank {op : Nat} {p : Nat → Option Byte} {s t : State} (h : Patched op p s t) (i : Nat) (f : Bank → Bank)
    (hq : (f (t.bank i)).queue = []) (hst : (f (t.bank i)).state ≤ 1) : Patched op p s (t.modBank i f) :=
  ⟨h.calm.modBank i f hq hst, h.frame.trans (onlyChanges_modGrt t _), h.byte⟩

theorem Patched.untouched_trans {op : Nat} {s t u : State} (hst : Patched op (fun _ => none) s t)
    (htu : Patched op (fun _ => none) t u) : Patched op (fun _ => none) s u :=
  ⟨htu.calm, hst.frame.trans htu.frame, fun a => (htu.byte a).trans (hst.byte a)⟩

/-- Operations on the consecutive blocks into which `key` cuts the offsets, one after the other. -/
theorem Patched.forEach_blocks {op : Nat} {p : Nat → Option Byte} {s : State} (key : Nat → Nat) (base n : Nat)
    (f : Nat → State → State) (hs : Calm s)
    (hf : ∀ i < n, ∀ t, Calm t → Patched op (fun a => if key a = base + i then p a else none) t (f i t)) :
    Patched op (fun a => if base ≤ key a ∧ key a < base + n then p a else none) s (forEach (List.range n) f s) := by
  induction n with
  | zero => simpa [forEach, show ∀ a, ¬ (base ≤ key a ∧ key a < base) by omega] using Patched.refl op hs
  | succ n ih =>
    have hn := ih fun i hi => hf i (by omega)
    have hlast := hf n (by omega) _ hn.calm
    have hstep : forEach (List.range (n + 1)) f s = f n (forEach (List.range n) f s) := by
      simp [forEach, List.range_succ]
    rw [hstep]
    refine ⟨hlast.calm, hn.frame.trans hlast.frame, fun a => ?_⟩
    rw [hlast.byte, hn.byte]
    by_cases ha : key a = base + n
    · rw [if_pos ha, if_neg (by omega), if_pos (by omega)]
      rfl
    · rw [if_neg ha, if_congr (Q := base ≤ key a ∧ key a < base + (n + 1)) (by omega) rfl rfl]
      rfl

/-! One word. -/

theorem grottoByte_putWord (s : State) (w : Nat) (d : BitVec 64) (p : Bool) (a : Nat) :
    grottoByte (putWord w d p s) a = if a / 8 = w then byteOf d (a % 8) else grottoByte s a := by
  have hget := tabGet_tabPuts 0 s.grt.mem (8 * w) a (leBytes 8 d.toNat)
  rw [length_leBytes] at hget
  refine hget.trans ?_
  by_cases hw : a / 8 = w
  · rw [if_pos (by omega), if_pos hw, getD_leBytes_toNat d (by omega), show a - 8 * w = a % 8 by omega]
  · rw [if_neg (by omega), if_neg hw]
    rfl

/-- The bytes of a stored word. -/
theorem leBytes_wordData (s : State) (w : Nat) :
    leBytes 8 (wordData s w).toNat = (List.range 8).map fun j => grottoByte s (8 * w + j) :=
  leBytes_toNat_ofLeBytes _ (by simp [tabRange])

theorem byteOf_wordData (s : State) (w j : Nat) (hj : j < 8) : byteOf (wordData s w) j = grottoByte s (8 * w + j) := by
  rw [← getD_leBytes_toNat _ hj, leBytes_wordData]
  simp [hj]

theorem readWord_calm {s : State} (h : Calm s) (src w : Nat) : readWord src w false s = ((wordData s w, false, false), s) := by
  have herr : wordErr s w = 0 := by simp [wordErr, h.errs, tabGet]
  have hpoison : wordPoison s w = false := by simp [wordPoison, h.poison]
  have hcount : popcount 0#80 = 0 := by decide
  have hcheck : checkWord s w = (0, wordData s w, false) := by simp [checkWord, herr, hpoison, hcount]
  simp [readWord, hcheck]

/-- With no injection armed, a store puts the word and drops its rewrites. -/
theorem storeWord_calm {s : State} (h : Calm s) (w : Nat) (d : BitVec 64) :
    Patched 1 (fun a => if a / 8 = w then some (byteOf d (a % 8)) else none) s (storeWord w d false s) := by
  have harm : bit (s.reg 0x7_0020) 31 = false := h.unarmed
  have hput : Patched 1 (fun a => if a / 8 = w then some (byteOf d (a % 8)) else none) s (putWord w d false s) := by
    refine ⟨h.putWord w d, onlyChanges_modGrt s _, fun a => ?_⟩
    rw [grottoByte_putWord]
    split <;> rfl
  have hreg : (putWord w d false s).reg 0x7_0020 = s.reg 0x7_0020 := rfl
  simp only [storeWord, State.modBank_reg, hreg, harm, Bool.false_eq_true, false_and, if_false]
  exact hput.modBank _ _ (hput.calm.queue _) (hput.calm.state _)

/-- An operation on a word changes its enabled bytes (R261, R262, R277). -/
theorem writeWord_calm {s : State} (h : Calm s) (op w : Nat) (be : BitVec 8) (d : BitVec 64) :
    Patched op (fun a => if a / 8 = w ∧ bit be (a % 8) = true then some (byteOf d (a % 8)) else none) s
      (writeWord op w be d false false s) := by
  unfold writeWord
  split
  case isTrue hnone =>
    subst hnone
    simpa [bit] using Patched.refl op h
  split
  case isTrue hwhole =>
    obtain ⟨rfl, rfl⟩ := hwhole
    have hall : ∀ j < 8, bit 255#8 j = true := by decide
    simpa [hall _ (Nat.mod_lt _ (by decide : 0 < 8))] using storeWord_calm h w d
  case isFalse =>
    have hstore := storeWord_calm h w (mergeData op (wordData s w) d be)
    simp only [readWord_calm h, Bool.or_self, Bool.false_eq_true, if_false, ite_self]
    refine ⟨hstore.calm, hstore.frame, fun a => ?_⟩
    rw [hstore.byte]
    by_cases hw : a / 8 = w
    · have ha : 8 * w + a % 8 = a := by omega
      rw [if_pos hw]
      simp only [patch, Option.elim, byteOp, byteOf_mergeData op _ d be _ (Nat.mod_lt a (by decide : 0 < 8)),
        byteOf_wordData s w _ (Nat.mod_lt a (by decide : 0 < 8)), ha, hw, true_and]
      split <;> rfl
    · simp [hw]
      rfl

end Sys2Proof

/-! One line. -/

namespace Sys2Proof

open Sys2Proof.Machine

/-- An access to a calm bank meets no OFF bank. -/
theorem Calm.bankState_ne_off {s : State} (h : Calm s) (i : Nat) : s.bankState i ≠ 2 := by
  have hst := h.state i
  unfold State.bankState
  simp only []
  split <;> omega

theorem restState_le_one (s : State) (i : Nat) : restState s i ≤ 1 := by
  unfold restState
  split <;> decide

/-- Where each step of a fold appends its part and keeps an invariant of the state, so does the fold. -/
theorem foldl_range_collect {β : Type} (R : State → Prop) (g : Nat → List β)
    (f : List β × State → Nat → List β × State) (n : Nat) (s : State) (hs : R s)
    (hf : ∀ acc, R acc.2 → ∀ i < n, (f acc i).1 = acc.1 ++ g i ∧ R (f acc i).2) :
    ((List.range n).foldl f ([], s)).1 = (List.range n).flatMap g ∧ R ((List.range n).foldl f ([], s)).2 := by
  induction n with
  | zero => exact ⟨rfl, hs⟩
  | succ n ih =>
    obtain ⟨hlist, hstate⟩ := ih fun acc hacc i hi => hf acc hacc i (by omega)
    obtain ⟨hlist', hstate'⟩ := hf _ hstate n (by omega)
    rw [List.range_succ, List.foldl_append, List.flatMap_append]
    exact ⟨by simpa [hlist] using hlist', hstate'⟩

/-- A fold that appends one value per step and leaves the state alone. -/
theorem foldl_range_append {β : Type} (g : Nat → β) (f : List β × State → Nat → List β × State) (n : Nat) (s : State)
    (hf : ∀ l i, f (l, s) i = (l ++ [g i], s)) : (List.range n).foldl f ([], s) = ((List.range n).map g, s) := by
  induction n with
  | zero => rfl
  | succ n ih => simp [List.range_succ, ih, hf]

/-- Consecutive blocks of m make one range. -/
theorem flatMap_range_blocks {β : Type} (m n : Nat) (h : Nat → β) :
    ((List.range n).flatMap fun i => (List.range m).map fun j => h (m * i + j)) = (List.range (m * n)).map h := by
  induction n with
  | zero => simp
  | succ n ih => simp [List.range_succ, ih, Nat.mul_succ, List.range_add]

theorem withPos_map_range {α : Type} (g : Nat → α) (n : Nat) :
    withPos ((List.range n).map g) = (List.range n).map fun i => (i, g i) := by
  simpa [withPos] using List.zip_map' (f := id) (g := g) (l := List.range n)

/-- The bytes of a line as Grotto holds them. -/
def lineBytes (s : State) (l : Nat) : List Byte := (List.range 64).map fun j => grottoByte s (64 * l + j)

theorem flatMap_leBytes_wordData (s : State) (l : Nat) :
    (((List.range 8).map fun i => wordData s (8 * l + i)).flatMap fun w => leBytes 8 w.toNat) = lineBytes s l := by
  have hblocks := flatMap_range_blocks 8 8 fun j => grottoByte s (64 * l + j)
  rw [lineBytes, ← hblocks]
  simp only [List.flatMap_map, leBytes_wordData]
  simp only [show ∀ i j, 8 * (8 * l + i) + j = 64 * l + (8 * i + j) by omega]

/-- A READ of a line gives the bytes there, none poisoned, and changes nothing (R262). -/
theorem accessLine_calm_read {s : State} (h : Calm s) (l src : Nat) :
    accessLine 0 l 0 0 0 0 src s = ((BitVec.ofNat 512 (ofLeBytes (lineBytes s l)), 0, false), s) := by
  unfold accessLine
  rw [if_neg (h.bankState_ne_off _), if_pos rfl]
  have hzero : ∀ i, bit (0 : BitVec 8) i = false := by simp [bit]
  rw [foldl_range_append fun i => (wordData s (8 * l + i), false)]
  · simp [withPos_map_range, lineData, ← flatMap_leBytes_wordData, ofBits, Function.comp_def]
  · intro ws i
    simp only [hzero, readWord_calm h]

/-- An operation on a line changes its enabled bytes (R261, R262). -/
theorem accessLine_calm_write {s : State} (h : Calm s) (op l : Nat) (hop : op ≠ 0) (be : BitVec 64) (data : BitVec 512)
    (src : Nat) :
    Patched op (fun a => if a / 64 = l ∧ bit be (a % 64) = true then some (byteOf data (a % 64)) else none) s
      (accessLine op l be data 0 0 src s).2 := by
  unfold accessLine
  rw [if_neg (h.bankState_ne_off _), if_neg hop]
  have hzero : ∀ i, bit (0 : BitVec 8) i = false := by simp [bit]
  simp only [hzero]
  refine Patched.of_eq (Patched.forEach_blocks
    (p := fun a => if bit be (a % 64) = true then some (byteOf data (a % 64)) else none) (· / 8) (8 * l) 8 _ h
    fun i hi t ht => Patched.of_eq (writeWord_calm ht op (8 * l + i) _ _) fun a => ?word) fun a => ?line
  case word =>
    rw [← ite_and]
    by_cases ha : a / 8 = 8 * l + i
    · have hmod : 8 * i + a % 8 = a % 64 := by omega
      have hbit : bit (be.extractLsb' (8 * i) 8) (a % 8) = bit be (a % 64) := by
        simp [bit, Nat.mod_lt, hmod]
      rw [hbit, byteOf_wordAt _ _ _ (Nat.mod_lt a (by decide)), hmod]
    · simp [ha]
  case line =>
    rw [← ite_and]
    exact if_congr (and_congr_left fun _ => by omega) rfl rfl

/-- The side port's access of a line in a calm Grotto: nothing was ahead of it, and its bank may rest again after it. -/
theorem sideAccess_calm {s : State} (h : Calm s) {op l : Nat} {be : BitVec 64} {data : BitVec 512} {p : Nat → Option Byte}
    (hline : Patched op p s (accessLine op l be data 0 0 2 s).2) :
    (sideAccess op l be data 0 [] s).1 = (accessLine op l be data 0 0 2 s).1 ∧
      Patched op p s (sideAccess op l be data 0 [] s).2 := by
  have hawake := h.state (bankOf l)
  have hfill : endBankFill (bankOf l) s = s := if_neg (by omega)
  have hahead : serveAhead [] (bankOf l) s = s := by simp [serveAhead, h.queue, forEach]
  have hmask : addrMask [] l = 0 := by simp [addrMask, ofBits]
  simp only [sideAccess, hfill, hahead, hmask]
  refine ⟨trivial, hline.modBank _ _ (hline.calm.queue _) ?_⟩
  have hstate := hline.calm.state (bankOf l)
  have hrest := restState_le_one (accessLine op l be data 0 0 2 s).2 (bankOf l)
  rw [if_neg (by omega), if_pos (hline.calm.queue _)]
  exact hrest

/-- A read through the side port delivers the line, with no word poisoned. -/
theorem sideRead_calm {s : State} (h : Calm s) (receiver l : Nat) (cover : BitVec 8) :
    (sideRead receiver l cover [] s).1 = (BitVec.ofNat 512 (ofLeBytes (lineBytes s l)), 0) ∧
      Patched 0 (fun _ => none) s (sideRead receiver l cover [] s).2 := by
  have hread := accessLine_calm_read h l 2
  obtain ⟨hans, hside⟩ := sideAccess_calm h (l := l) (op := 0) (be := 0) (data := 0) (p := fun _ => none)
    (by rw [hread]; exact Patched.refl 0 h)
  rw [hread] at hans
  have hcount : ∀ t, countPoison (1000 * receiver) (0 &&& cover) t = t := by simp [countPoison]
  simp only [sideRead, hans, hcount, Bool.false_eq_true, if_false]
  exact ⟨trivial, hside⟩

/-! A transfer of several lines. -/

/-- The byte that a transfer from an offset on brings to offset a. -/
def transferByte (off : Nat) (bytes : List (Option Byte)) (a : Nat) : Option Byte :=
  if a < off then none else bytes.getD (a - off) none

theorem transferByte_outside {off a : Nat} (bytes : List (Option Byte)) (ha : a < off ∨ off + bytes.length ≤ a) :
    transferByte off bytes a = none := by
  unfold transferByte
  split
  · rfl
  · exact List.getD_eq_default _ _ (by omega)

/-- The side port writes into a line the bytes that a transfer brings there. -/
theorem sideAccess_calm_bytes {s : State} (h : Calm s) (op l : Nat) (hop : op ≠ 0) (p : Nat → Option Byte) :
    Patched op (fun a => if a / 64 = l then p a else none) s
      (sideAccess op l (ofBits 64 ((List.range 64).filter fun j => (p (64 * l + j)).isSome))
        (BitVec.ofNat 512 (ofLeBytes ((List.range 64).map fun j => (p (64 * l + j)).getD 0))) 0 [] s).2 := by
  refine Patched.of_eq (sideAccess_calm h (accessLine_calm_write h op l hop _ _ 2)).2 fun a => ?_
  by_cases ha : a / 64 = l
  · have hj : a % 64 < 64 := Nat.mod_lt a (by decide)
    have hja : 64 * l + a % 64 = a := by omega
    rw [bit_ofBits _ _ hj, byteOf_ofLeBytes _ (by omega)]
    cases hp : p a <;> simp [ha, hj, hja, hp]
  · simp [ha]

/-- A write of bytes, each there or not, through the side port (R262, R278). -/
theorem sideWrite_calm {s : State} (h : Calm s) (op off : Nat) (hop : op ≠ 0) (bytes : List (Option Byte))
    (hend : off + bytes.length ≤ 0x0800_0000) :
    Patched op (transferByte off bytes) s (sideWrite op off bytes (fun _ => false) [] s) := by
  unfold sideWrite
  have hbyte : ∀ a, (if a < off then none else bytes.getD (a - off) none) = transferByte off bytes a := fun _ => rfl
  simp only [hbyte]
  by_cases hbytes : bytes = []
  · rw [if_pos hbytes]
    exact Patched.of_eq (Patched.refl op h) fun a => by simp [hbytes, transferByte]
  have hlen : 0 < bytes.length := List.length_pos_iff.2 hbytes
  have hpoison : ofBits 8 ((List.range 8).filter fun _ => false) = 0 := by simp [ofBits]
  rw [if_neg hbytes]
  refine Patched.of_eq (Patched.forEach_blocks (p := transferByte off bytes) (· / 64) (off / 64) _ _ h
    fun i hi t ht => ?line) fun a => ?covered
  case line =>
    rw [Nat.mod_eq_of_lt (show off / 64 + i < 2 ^ 21 by omega), hpoison]
    exact sideAccess_calm_bytes ht op _ hop (transferByte off bytes)
  case covered =>
    split
    · rfl
    · exact (transferByte_outside bytes (by omega)).symm

/-- A read through the side port delivers the bytes there, none poisoned (R276, R278). -/
theorem sideBytes_calm {s : State} (h : Calm s) (receiver start off n : Nat) (hend : off + n ≤ 0x0800_0000) :
    (sideBytes receiver start off n [] s).1 = (List.range n).map (fun i => (grottoByte s (off + i), false)) ∧
      Patched 0 (fun _ => none) s (sideBytes receiver start off n [] s).2 := by
  unfold sideBytes
  by_cases hn : n = 0
  · simpa [hn] using Patched.refl 0 h
  rw [if_neg hn]
  simp only []
  refine And.imp (fun hlist => ?cut) id (foldl_range_collect (Patched 0 (fun _ => none) s)
    (fun i => (List.range 64).map fun j => (grottoByte s (64 * (off / 64) + (64 * i + j)), false)) _ _ s
    (Patched.refl 0 h) fun acc hacc i hi => ?line)
  case cut =>
    rw [hlist, flatMap_range_blocks 64 _ fun k => (grottoByte s (64 * (off / 64) + k), false)]
    refine List.ext_getElem (by simp; omega) fun i hi hi' => ?_
    have hat : 64 * (off / 64) + (off - 64 * (off / 64) + i) = off + i := by omega
    simp [hat]
  case line =>
    rw [Nat.mod_eq_of_lt (show off / 64 + i < 2 ^ 21 by omega)]
    obtain ⟨hans, hside⟩ := sideRead_calm hacc.calm receiver (off / 64 + i) (newWords start off (off + n) (off / 64 + i))
    refine ⟨?_, hacc.untouched_trans hside⟩
    have hlen : (lineBytes acc.2 (off / 64 + i)).length = 64 := by simp [lineBytes]
    have hsame : ∀ j, grottoByte acc.2 (64 * (off / 64 + i) + j) =
        grottoByte s (64 * (off / 64) + (64 * i + j)) := fun j => by
      rw [hacc.byte, show 64 * (off / 64 + i) + j = 64 * (off / 64) + (64 * i + j) by omega]
      rfl
    simp only [hans, leBytes_toNat_ofLeBytes _ hlen]
    simp [lineBytes, withPos_map_range, bit, hsame]

end Sys2Proof

/-! Host accesses of Grotto through the three windows of BAR2 (R278). -/

namespace Sys2Proof

open Sys2Proof.Machine

theorem OnlyChanges.mono {l l' : List Part} {s t : State} (h : OnlyChanges l s t) (hl : l ⊆ l') : OnlyChanges l' s t :=
  fun p hp => h p fun hmem => hp (hl hmem)

theorem exec_bar2Write_solo {s : State} {off : Nat} (hoff : off < 0x1800_0000) (hrole : s.twn.role = 0) (be : List Bool)
    (data : List Byte) (bad : List Nat) :
    exec (.bar2Write off be data bad) s =
      .next (bar2Take { read := false, off := off, len := 0, be := be, data := data, bad := bad } s) := by
  have hwindow : ¬ 3 ≤ bar2Window off := by
    unfold bar2Window
    omega
  show execBar2Write off be data bad s = _
  simp [execBar2Write, hwindow, hrole, done]

theorem exec_bar2Read_solo {s : State} {off : Nat} (hoff : off < 0x1800_0000) (hrole : s.twn.role = 0) (len : Nat)
    (bad : List Nat) :
    exec (.bar2Read off len bad) s = .next (bar2Take { read := true, off := off, len := len, bad := bad } s) := by
  have hwindow : ¬ 3 ≤ bar2Window off := by
    unfold bar2Window
    omega
  show execBar2Read off len bad s = _
  simp [execBar2Read, hwindow, hrole, done]

/-- A quiet Grotto makes an access at once. -/
theorem quietGrotto.bar2Take_eq {s : State} (h : quietGrotto s) (a : BarAcc) : bar2Take a s = bar2Make a s := by
  obtain ⟨-, -, htag, hwait, -⟩ := h
  simp [bar2Take, htag, hwait]

theorem quietGrotto.sideAborts_eq {s : State} (h : quietGrotto s) : sideAborts s = false := h.1

theorem quietGrotto.sideStopped_eq {s : State} (h : quietGrotto s) (off n : Nat) : sideStopped s off n = false := by
  obtain ⟨-, hlinks, -⟩ := h
  simp [sideStopped, hlinks]

/-- The bytes that a host write brings: its enabled ones. -/
theorem transferByte_enabled (g a : Nat) (be : List Bool) (data : List Byte) (hlen : be.length = data.length) :
    transferByte g ((data.zip be).map fun x => if x.2 then some x.1 else none) a =
      if g ≤ a ∧ be.getD (a - g) false = true then some (data.getD (a - g) 0) else none := by
  unfold transferByte
  by_cases ha : a < g
  · rw [if_pos ha, if_neg (by omega)]
  rw [if_neg ha]
  by_cases hin : a - g < data.length
  · have hin' : a - g < be.length := by omega
    simp [hin, hin', show g ≤ a by omega]
  · have hin' : ¬ a - g < be.length := by omega
    simp [hin, hin']

/-- A host write through window w performs operation 1 + w of Table Grotto-3 on its enabled bytes (R278). -/
theorem bar2Perform_quiet {s : State} (h : quietGrotto s) (off : Nat) (be : List Bool) (data : List Byte)
    (hlen : be.length = data.length) (hend : off % 0x0800_0000 + data.length ≤ 0x0800_0000) :
    Patched (1 + bar2Window off)
      (fun a => if off % 0x0800_0000 ≤ a ∧ be.getD (a - off % 0x0800_0000) false = true then
        some (data.getD (a - off % 0x0800_0000) 0) else none) s (bar2Perform off be data [] s) := by
  unfold bar2Perform
  rw [if_neg (by simp [h.sideAborts_eq, h.sideStopped_eq])]
  refine Patched.of_eq (sideWrite_calm h.calm _ _ (by omega) _ ?_) fun a => transferByte_enabled _ a be data hlen
  simpa [hlen] using hend

/-- A host read through any window completes with the plain bytes, none poisoned (R276, R278). -/
theorem bar2Complete_quiet {s : State} (h : quietGrotto s) (off len : Nat)
    (hend : off % 0x0800_0000 + len ≤ 0x0800_0000) :
    ∃ t, Patched 0 (fun _ => none) s t ∧ bar2Complete off len [] s =
      t.send (.bar2 ((List.range len).map fun i => grottoByte s (off % 0x0800_0000 + i)) false 0) := by
  obtain ⟨hbytes, hstate⟩ := sideBytes_calm h.calm 3 (off % 0x0800_0000) _ len hend
  refine ⟨_, hstate, ?_⟩
  unfold bar2Complete
  rw [if_neg (by simp [h.sideStopped_eq])]
  have hclean : ((List.range len).any fun _ => false) = false := by simp
  simp [bar2Fetch, h.sideAborts_eq, hbytes, Function.comp_def, hclean]

/-- Writing, setting and clearing bits, by the window. -/
theorem byteOp_bar2Window {off : Nat} (hoff : off < 0x1800_0000) (old new : Byte) :
    byteOp (1 + bar2Window off) old new =
      if off / 0x0800_0000 = 0 then new else if off / 0x0800_0000 = 1 then old ||| new else old &&& ~~~new := by
  unfold bar2Window
  have hwindow : off / 0x0800_0000 = 0 ∨ off / 0x0800_0000 = 1 ∨ off / 0x0800_0000 = 2 := by omega
  rcases hwindow with hw | hw | hw <;> simp [hw, byteOp]

theorem completes_bar2Write_quiet {s : State} (hrole : s.twn.role = 0) (h : quietGrotto s) (off : Nat) (be : List Bool)
    (data : List Byte) (hoff : off < 0x1800_0000) (hlen : be.length = data.length)
    (hend : off % 0x0800_0000 + data.length ≤ 0x0800_0000) :
    Completes (.bar2Write off be data []) s fun t =>
      (∀ i < data.length, be.getD i false = true → grottoByte t (off % 0x0800_0000 + i) =
        byteOp (1 + bar2Window off) (grottoByte s (off % 0x0800_0000 + i)) (data.getD i 0)) ∧
      (∀ i < data.length, be.getD i false = false →
        grottoByte t (off % 0x0800_0000 + i) = grottoByte s (off % 0x0800_0000 + i)) ∧
      (∀ a, a < off % 0x0800_0000 ∨ off % 0x0800_0000 + data.length ≤ a → grottoByte t a = grottoByte s a) ∧
      OnlyChanges [.grt] s t := by
  have hwrite := bar2Perform_quiet h off be data hlen hend
  refine ⟨bar2Perform off be data [] s, ?_, fun i hi hbe => ?_, fun i hi hbe => ?_, fun a ha => ?_, hwrite.frame⟩
  · rw [exec_bar2Write_solo hoff hrole, h.bar2Take_eq]
    rfl
  · rw [hwrite.byte, if_pos ⟨by omega, by rwa [Nat.add_sub_cancel_left]⟩, Nat.add_sub_cancel_left]
    rfl
  · rw [hwrite.byte, Nat.add_sub_cancel_left, hbe, if_neg (by simp)]
    rfl
  · have hnone : ¬ (off % 0x0800_0000 ≤ a ∧ be.getD (a - off % 0x0800_0000) false = true) := by
      rintro ⟨hle, hbe⟩
      rw [List.getD_eq_default _ _ (by omega)] at hbe
      cases hbe
    rw [hwrite.byte, if_neg hnone]
    rfl

theorem completes_bar2Read_quiet {s : State} (hrole : s.twn.role = 0) (h : quietGrotto s) (off len : Nat)
    (hoff : off < 0x1800_0000) (hend : off % 0x0800_0000 + len ≤ 0x0800_0000) :
    Completes (.bar2Read off len []) s fun t =>
      t.out = s.out ++ [.bar2 ((List.range len).map fun i => grottoByte s (off % 0x0800_0000 + i)) false 0] ∧
      (∀ a, grottoByte t a = grottoByte s a) ∧ OnlyChanges [.grt, .out] s t := by
  obtain ⟨t, hread, hcomplete⟩ := bar2Complete_quiet h off len hend
  have hmake : bar2Make { read := true, off := off, len := len, bad := [] } s = bar2Complete off len [] s := by
    simp [bar2Make, hrole]
  refine ⟨bar2Complete off len [] s, by rw [exec_bar2Read_solo hoff hrole, h.bar2Take_eq, hmake], ?_⟩
  rw [hcomplete]
  exact ⟨by rw [State.send_out, hread.frame .out (by decide)], hread.byte,
    (hread.frame.mono (by simp)).trans (onlyChanges_send _ t (by simp))⟩

/-- An access for which no Grotto tag is free waits (R392, R395). -/
theorem bar2Take_waits {s : State} (htag : grottoTagFree s = false) (a : BarAcc) :
    bar2Take a s = s.modGrt fun g => { g with barWait := g.barWait ++ [a] } := by
  simp [bar2Take, htag]

/-- Settles O29: a host access is a transfer of the side port line by line and word by word, whose blocks patch exactly the
enabled bytes, and a calm Grotto stays calm from one block to the next. -/
theorem hostWindowActsOnGrotto : Obligations.HostWindowActsOnGrotto := by
  unfold Obligations.HostWindowActsOnGrotto
  refine ⟨fun s hrole hquiet => ⟨?write, fun off len => completes_bar2Read_quiet hrole hquiet off len⟩, ?waits⟩
  case write =>
    rintro off _ be data hoff rfl hlen hend
    obtain ⟨t, hexec, henabled, hdisabled, houtside, hframe⟩ :=
      completes_bar2Write_quiet hrole hquiet off be data hoff hlen hend
    exact ⟨t, hexec, fun i hi hbe => (henabled i hi hbe).trans (byteOp_bar2Window hoff _ _), hdisabled, houtside, hframe⟩
  case waits =>
    intro s off len bad hrole hoff htag
    refine ⟨_, exec_bar2Read_solo hoff hrole len bad, ?_⟩
    rw [bar2Take_waits htag]
    exact ⟨rfl, onlyChanges_modGrt s _⟩

end Sys2Proof

/-! An ABORT that names another ticket (R653). -/

namespace Sys2Proof

open Sys2Proof.Machine

theorem onlyChanges_staged (s : State) (l : List Half) : OnlyChanges [.staged] s { s with staged := l } := by
  intro p hp
  cases p with
  | staged => exact absurd (by decide) hp
  | regs => exact fun _ => rfl
  | _ => rfl

theorem onlyChanges_storeReg_none {off : Nat} (h : (regDesc off).rw = 0) (v : Word) (s : State) :
    OnlyChanges [] s (storeReg off v s) := by
  intro p _
  cases p with
  | regs => exact storeReg_none off v s h
  | _ => rfl

/-- LYS_TP_COMMIT with ABORT is the ticket operation, on a state that differs in staged halves alone (R6, R653). -/
theorem exec_tpAbort (who : Requester) (n : BitVec 16) (s : State) :
    ∃ u, OnlyChanges [.staged] s u ∧ exec (.tpAbort who n) s = .next (ticketAbort who n.toNat u) := by
  have hop : fld (mkFld 30 2 2 ||| mkFld 0 16 n.toNat) 30 2 = 2 := by
    rw [fld_or, fld_mkFld_same 30 2 2 (by decide), fld_mkFld_above 0 16 _ 30 2 (by decide) (by decide)]
    rfl
  have hticket : fld (mkFld 30 2 2 ||| mkFld 0 16 n.toNat) 0 16 = n.toNat := by
    rw [fld_or, fld_mkFld_below 30 2 2 0 16 (by decide) (by decide), fld_mkFld_same 0 16 _ (by decide), Nat.zero_or,
      Nat.mod_eq_of_lt n.isLt]
  obtain ⟨lo, l, hwrite⟩ := writeReg_tpAbort who _ s hop
  rw [hticket] at hwrite
  have hstore : OnlyChanges [] { s with staged := l } (storeReg 0x1_0120 lo { s with staged := l }) :=
    onlyChanges_storeReg_none rfl lo _
  exact ⟨_, (onlyChanges_staged s l).trans (hstore.mono (List.nil_subset _)), congrArg Host.Outcome.next hwrite⟩

theorem ticketAbort_otherTicket {s : State} {who : Requester} {p n : Nat} (hp : partyOf who = some p)
    (hn : n ≠ s.lys.ticket.num) (hst : s.lys.ticket.st = 1 ∨ s.lys.ticket.st = 2) :
    ticketAbort who n s = ticketEvent p 2 s := by
  have hopen : ¬ (s.lys.ticket.st = 0 ∨ s.lys.ticket.st = 3) := by omega
  simp [ticketAbort, hp, hopen, hn]

/-- No ABORT acts in IDLE and APPLYING (Table Lysata-8). -/
theorem ticketAbort_idle_or_applying {s : State} (hst : s.lys.ticket.st = 0 ∨ s.lys.ticket.st = 3) (who : Requester)
    (n : Nat) : ticketAbort who n s = s := by
  unfold ticketAbort
  split
  · rfl
  · exact if_pos hst

/-- Settles O12: the write leaves Lysata to the ticket operation, which raises the event in STAGING and ARMED and does
nothing in IDLE and APPLYING. -/
theorem abortOfAnotherTicket : Obligations.AbortOfAnotherTicket := by
  unfold Obligations.AbortOfAnotherTicket
  intro s who p n hp hn
  obtain ⟨u, hstaged, hexec⟩ := exec_tpAbort who n s
  have hlys : u.lys = s.lys := hstaged .lys (by decide)
  rw [← hlys] at hn ⊢
  constructor
  case left =>
    intro hst
    rw [ticketAbort_otherTicket hp hn hst] at hexec
    refine ⟨_, hexec, raise_lys _ _ u, ?_, (hstaged.mono (by simp)).trans (onlyChanges_raise _ _ u (by simp))⟩
    have hraised := raised_raise 0x0D10 [u.lys.ticket.num, p, 2] u
    rwa [Raised, show u.now = s.now from congrArg Lys.tbase hlys] at hraised
  case right =>
    intro hst
    rw [ticketAbort_idle_or_applying hst] at hexec
    exact ⟨u, hexec, hstaged⟩

end Sys2Proof

/-! The ring's REARM and the log's CLEARLOG (R670, R672). -/

namespace Sys2Proof

open Sys2Proof.Machine

theorem OnlyChanges.refl (l : List Part) (s : State) : OnlyChanges l s s := by
  intro p _
  cases p with
  | regs => exact fun _ => rfl
  | _ => rfl

theorem onlyChanges_modEv (s : State) (f : Echo → Echo) : OnlyChanges [.ev] s (s.modEv f) := by
  intro p hp
  cases p with
  | ev => exact absurd (by decide) hp
  | regs => exact fun _ => rfl
  | _ => rfl

theorem onlyChanges_modFab (s : State) (f : Fabric → Fabric) : OnlyChanges [.fab] s (s.modFab f) := by
  intro p hp
  cases p with
  | fab => exact absurd (by decide) hp
  | regs => exact fun _ => rfl
  | _ => rfl

theorem onlyChanges_modCfg (s : State) (f : Cfg → Cfg) : OnlyChanges [.cfg] s (s.modCfg f) := by
  intro p hp
  cases p with
  | cfg => exact absurd (by decide) hp
  | regs => exact fun _ => rfl
  | _ => rfl

theorem exec_echRearm (who : Requester) (s : State) : exec (.echRearm who) s = .next (rearm s) :=
  congrArg Host.Outcome.next (writeReg_ech who _ s (by decide))

theorem exec_echClearlog (who : Requester) (s : State) : exec (.echClearlog who) s = .next (clearLog s) :=
  congrArg Host.Outcome.next (writeReg_ech who _ s (by decide))

/-! One equation per case of each operation. -/

/-- ARMED and POST. -/
theorem rearm_of_not_frozen {s : State} (h : s.ev.ringState ≠ 2) : rearm s = s := if_pos h

theorem rearm_frozen {s : State} (hfree : s.ev.commit.writing = false ∨ s.ev.commit.carriesRing = false)
    (h : s.ev.ringState = 2) : rearm s = s.modEv fun e => { e with ringState := 0 } := by
  rcases hfree with hw | hr <;> simp [rearm, *]

theorem rearm_frozen_carried {s : State} (hw : s.ev.commit.writing = true) (hr : s.ev.commit.carriesRing = true)
    (h : s.ev.ringState = 2) :
    rearm s = s.modEv fun e => { e with commit := { e.commit with rearmLater := true } } := by
  simp [rearm, h, hw, hr]

theorem clearLog_free {s : State} (hfree : s.ev.commit.writing = false ∨ s.ev.commit.carriesLog = false) :
    clearLog s = s.modEv fun e => { e with log := [], logFull := false, dropped := 0 } := by
  rcases hfree with hw | hl <;> simp [clearLog, *]

theorem clearLog_carried {s : State} (hw : s.ev.commit.writing = true) (hl : s.ev.commit.carriesLog = true) :
    clearLog s = s.modEv fun e => { e with commit := { e.commit with clearLater := true } } := by
  simp [clearLog, hw, hl]

theorem onlyChanges_rearm (s : State) : OnlyChanges [.ev] s (rearm s) := by
  unfold rearm
  split
  · exact OnlyChanges.refl _ s
  split <;> exact onlyChanges_modEv s _

theorem onlyChanges_clearLog (s : State) : OnlyChanges [.ev] s (clearLog s) := by
  unfold clearLog
  split <;> exact onlyChanges_modEv s _

@[simp] theorem rearm_writing (s : State) : (rearm s).ev.commit.writing = s.ev.commit.writing := by
  unfold rearm
  split
  · rfl
  split <;> rfl

@[simp] theorem clearLog_ringState (s : State) : (clearLog s).ev.ringState = s.ev.ringState := by
  unfold clearLog
  split <;> rfl

@[simp] theorem clearLog_head (s : State) : (clearLog s).ev.head = s.ev.head := by
  unfold clearLog
  split <;> rfl

/-! The end of a commit, which brings what has waited for it. -/

theorem onlyChanges_when {l : List Part} {f : State → State} {s : State} (h : OnlyChanges l s (f s)) (b : Bool) :
    OnlyChanges l s (s.when b f) := by
  cases b with
  | false => exact OnlyChanges.refl l s
  | true => exact h

/-- A commit that is over is written no more; then comes the REARM that waits, and then the CLEARLOG. -/
theorem commitOver_eq (s : State) :
    ∃ u, OnlyChanges [.cfg, .ev] s u ∧ u.ev = { s.ev with commit := u.ev.commit } ∧ u.ev.commit.writing = false ∧
      commitOver s = (u.when s.ev.commit.rearmLater rearm).when s.ev.commit.clearLater clearLog :=
  ⟨_, ((onlyChanges_modCfg s _).mono (by simp)).trans ((onlyChanges_modEv _ _).mono (by simp)), rfl, rfl, rfl⟩

theorem onlyChanges_commitOver (s : State) : OnlyChanges [.cfg, .ev] s (commitOver s) := by
  obtain ⟨u, hclosed, -, -, hover⟩ := commitOver_eq s
  rw [hover]
  exact (hclosed.trans (onlyChanges_when ((onlyChanges_rearm u).mono (by simp)) _)).trans
    (onlyChanges_when ((onlyChanges_clearLog _).mono (by simp)) _)

theorem commitOver_rearms {s : State} (hlater : s.ev.commit.rearmLater = true) (hfrozen : s.ev.ringState = 2) :
    (commitOver s).ev.ringState = 0 ∧ (commitOver s).ev.head = s.ev.head := by
  obtain ⟨u, -, hev, hw, hover⟩ := commitOver_eq s
  have hring : u.ev.ringState = 2 := by rw [hev]; exact hfrozen
  have hhead : u.ev.head = s.ev.head := by rw [hev]
  rw [hover, hlater, State.when_true, rearm_frozen (.inl hw) hring]
  cases s.ev.commit.clearLater <;> simp [hhead]

theorem commitOver_clears {s : State} (hlater : s.ev.commit.clearLater = true) :
    (commitOver s).ev.log = [] ∧ (commitOver s).ev.logFull = false ∧ (commitOver s).ev.dropped = 0 := by
  obtain ⟨u, -, -, hw, hover⟩ := commitOver_eq s
  have hfree : (u.when s.ev.commit.rearmLater rearm).ev.commit.writing = false := by
    cases s.ev.commit.rearmLater <;> simp [hw]
  rw [hover, hlater, State.when_true, clearLog_free (.inl hfree)]
  exact ⟨rfl, rfl, rfl⟩

/-- A commit whose flash operations have ended is over, once its result and what it carried are recorded (R687). -/
theorem exec_echoCommitEnd_none {s : State} (hw : s.ev.commit.writing = true) :
    ∃ u, OnlyChanges (.fab :: .grt :: events) s u ∧ u.ev.ringState = s.ev.ringState ∧ u.ev.head = s.ev.head ∧
      u.ev.commit.rearmLater = s.ev.commit.rearmLater ∧ u.ev.commit.clearLater = s.ev.commit.clearLater ∧
      exec (.echoCommitEnd none) s = .next (commitOver u) := by
  refine ⟨_, ?frame, ?_, ?_, ?_, ?_, if_neg (by simp [hw])⟩
  case frame =>
    exact ((((onlyChanges_modEv s _).mono (by simp [events])).trans ((onlyChanges_modFab _ _).mono (by simp))).trans
      ((onlyChanges_modGrt _ _).mono (by simp))).trans (onlyChanges_raise _ _ _ (by simp))
  all_goals simp

/-- Settles O53: each command is its operation of the ring or the log, and the end of a commit performs the one that waits
once the commit is no longer being written. -/
theorem rearmAndClearlog : Obligations.RearmAndClearlog := by
  unfold Obligations.RearmAndClearlog
  intro s who
  refine ⟨fun hfree hfrozen => ⟨_, exec_echRearm who s, ?rearm⟩, fun hlive => ⟨_, exec_echRearm who s, ?noEffect⟩,
    fun hw hring hfrozen => ⟨_, exec_echRearm who s, ?rearmLater⟩, fun hfree => ⟨_, exec_echClearlog who s, ?clear⟩,
    fun hw hlog => ⟨_, exec_echClearlog who s, ?clearLater⟩, fun hw => ?commitEnd⟩
  case rearm => exact ⟨by rw [rearm_frozen hfree hfrozen, State.modEv_ev], onlyChanges_rearm s⟩
  case noEffect =>
    rw [rearm_of_not_frozen hlive]
    exact OnlyChanges.refl _ s
  case rearmLater => exact ⟨by rw [rearm_frozen_carried hw hring hfrozen, State.modEv_ev], onlyChanges_rearm s⟩
  case clear => exact ⟨by rw [clearLog_free hfree, State.modEv_ev], onlyChanges_clearLog s⟩
  case clearLater => exact ⟨by rw [clearLog_carried hw hlog, State.modEv_ev], onlyChanges_clearLog s⟩
  case commitEnd =>
    obtain ⟨u, hframe, hring, hhead, hrearm, hclear, hexec⟩ := exec_echoCommitEnd_none hw
    rw [← hring, ← hhead, ← hrearm, ← hclear]
    exact ⟨_, hexec, commitOver_rearms, commitOver_clears,
      (hframe.mono (by simp)).trans ((onlyChanges_commitOver u).mono (by simp [events]))⟩

end Sys2Proof

/-! The proofs of this part are elaborated one after another: each elaboration thread reserves a stack of its own, and together
the stacks would not fit under the check's limit on memory. -/

section OneThread

set_option Elab.async false

/-! What a command may touch at all: the queue of commands is left alone, and the canonical forms of Grotto and of the
registers are kept. Each function of the model has one lemma that says which parts it touches. -/

namespace Sys2Proof

open Sys2Proof.Machine

/-- Every part of the state but the queue of commands. -/
def hardware : List Part :=
  [.regs, .captures, .staged, .rst, .fab, .lib, .integ, .grt, .que, .arb, .xlt, .cry, .cfg, .gvl, .net, .twn, .lys, .pin,
    .seed, .ev, .out, .pci]

/-- From s to t only parts of the list have changed, and the canonical forms of Grotto and of the registers are kept. -/
structure Sound (l : List Part) (s t : State) : Prop where
  frame : OnlyChanges l s t
  grotto : Memory.wf s = true → Memory.wf t = true
  regs : regsWf s = true → regsWf t = true

/-- Moreover no time has passed, what stood raised stands raised still, what was sent stays sent, and a device that is in
no pair has not entered one. -/
structure Within (l : List Part) (s t : State) : Prop extends Sound l s t where
  now : t.now = s.now
  raised : ∀ e ∈ s.ev.raised, e ∈ t.ev.raised
  sent : ∀ x ∈ s.out, x ∈ t.out
  unpaired : s.paired = false → t.paired = false

theorem Sound.refl {l : List Part} {s : State} : Sound l s s := ⟨OnlyChanges.refl l s, id, id⟩

theorem Sound.trans {l : List Part} {s t u : State} (h : Sound l s t) (h' : Sound l t u) : Sound l s u :=
  ⟨h.frame.trans h'.frame, h'.grotto ∘ h.grotto, h'.regs ∘ h.regs⟩

theorem Sound.mono {l l' : List Part} {s t : State} (h : Sound l' s t)
    (hl : (l'.all fun p => l.contains p) = true := by rfl) : Sound l s t :=
  ⟨h.frame.mono fun p hp => by simpa using List.all_eq_true.1 hl p hp, h.grotto, h.regs⟩

namespace Within

variable {l l' : List Part} {s t u : State}

theorem refl : Within l s s := ⟨.refl, rfl, fun _ => id, fun _ => id, id⟩

theorem trans (h : Within l s t) (h' : Within l t u) : Within l s u :=
  ⟨h.toSound.trans h'.toSound, h'.now.trans h.now, fun e he => h'.raised e (h.raised e he),
    fun x hx => h'.sent x (h.sent x hx), h'.unpaired ∘ h.unpaired⟩

theorem mono (h : Within l' s t) (hl : (l'.all fun p => l.contains p) = true := by rfl) : Within l s t :=
  ⟨h.toSound.mono hl, h.now, h.raised, h.sent, h.unpaired⟩

theorem step (h : Within l s t) (h' : Within l' t u) (hl : (l'.all fun p => l.contains p) = true := by rfl) :
    Within l s u :=
  h.trans (h'.mono hl)

theorem ite {c : Prop} [Decidable c] (h : Within l s t) (h' : Within l s u) : Within l s (if c then t else u) := by
  split
  · exact h
  · exact h'

theorem when {c : Bool} {f : State → State} (h : Within l s (f s)) : Within l s (s.when c f) :=
  ite h refl

theorem foldl {α : Type} {f : State → α → State} (h : ∀ u a, Within l u (f u a)) (xs : List α) :
    Within l s (xs.foldl f s) := by
  induction xs generalizing s with
  | nil => exact refl
  | cons a xs ih => exact (h s a).trans ih

theorem forEach {α : Type} {xs : List α} {f : α → State → State} (h : ∀ a u, Within l u (f a u)) :
    Within l s (forEach xs f s) :=
  foldl (fun u a => h a u) xs

theorem of_eq_snd {α : Type} {p : α × State} {a : α} (h : Within l s p.2) (e : p = (a, t)) : Within l s t := by
  rwa [e] at h

theorem of_eq_fst {α : Type} {p : State × α} {a : α} (h : Within l s p.1) (e : p = (t, a)) : Within l s t := by
  rwa [e] at h

theorem of_eq_thd {α β : Type} {p : α × β × State} {a : α} {b : β} (h : Within l s p.2.2) (e : p = (a, b, t)) :
    Within l s t := by
  rwa [e] at h

theorem foldl_fst {α β : Type} {f : State × β → α → State × β} {b : β} (h : ∀ acc a, Within l acc.1 (f acc a).1)
    (xs : List α) : Within l s (xs.foldl f (s, b)).1 := by
  have hfold : ∀ acc : State × β, Within l acc.1 (xs.foldl f acc).1 := by
    induction xs with
    | nil => exact fun _ => refl
    | cons a xs ih => exact fun acc => (h acc a).trans (ih (f acc a))
  exact hfold (s, b)

theorem foldl_snd {α β : Type} {f : β × State → α → β × State} {b : β} (h : ∀ acc a, Within l acc.2 (f acc a).2)
    (xs : List α) : Within l s (xs.foldl f (b, s)).2 := by
  have hfold : ∀ acc : β × State, Within l acc.2 (xs.foldl f acc).2 := by
    induction xs with
    | nil => exact fun _ => refl
    | cons a xs ih => exact fun acc => (h acc a).trans (ih (f acc a))
  exact hfold (b, s)

theorem pair_fst {α : Type} {a : α} (h : Within l s t) : Within l s (t, a).1 := h

theorem pair_snd {α : Type} {a : α} (h : Within l s t) : Within l s (a, t).2 := h

theorem ite_fst {α : Type} {c : Prop} [Decidable c] {p q : State × α} (h : Within l s p.1) (h' : Within l s q.1) :
    Within l s (if c then p else q).1 := by
  split
  · exact h
  · exact h'

theorem ite_snd {α : Type} {c : Prop} [Decidable c] {p q : α × State} (h : Within l s p.2) (h' : Within l s q.2) :
    Within l s (if c then p else q).2 := by
  split
  · exact h
  · exact h'

theorem sound (h : Within l s t) : Sound l s t := h.toSound

/-- A change of parts that hold neither Grotto's bytes nor registers, events, TBASE, the role or what was sent. -/
theorem of_frame (h : OnlyChanges l s t) (hg : t.grt = s.grt := by rfl) (hr : t.regs = s.regs := by rfl)
    (hn : t.now = s.now := by rfl) (he : t.ev.raised = s.ev.raised := by rfl) (ho : t.out = s.out := by rfl)
    (hp : t.twn.role = s.twn.role := by rfl) : Within l s t :=
  ⟨⟨h, fun hs => by rwa [Memory.wf, hg], fun hs => by rwa [regsWf, hr]⟩, hn, fun _ h => he ▸ h, fun _ h => ho ▸ h,
    fun hs => by rwa [State.paired, hp]⟩

end Within
end Sys2Proof

namespace Sys2Proof

open Sys2Proof.Machine

/-! The named changes of one part of the state. -/

/-- A change of one part other than the registers and Grotto. -/
theorem Within.of_part {p : Part} {s t : State} (h : ∀ q, q ≠ p → q.same s t) (hg : t.grt = s.grt := by rfl)
    (hr : t.regs = s.regs := by rfl) (hn : t.now = s.now := by rfl) (he : t.ev.raised = s.ev.raised := by rfl)
    (ho : t.out = s.out := by rfl) (hp : t.twn.role = s.twn.role := by rfl) : Within [p] s t :=
  .of_frame (fun q hq => h q (by simpa using hq)) hg hr hn he ho hp

theorem State.modEv_within_of {f : Echo → Echo} {s : State} (hf : ∀ e ∈ s.ev.raised, e ∈ (f s.ev).raised) :
    Within [.ev] s (s.modEv f) :=
  ⟨⟨onlyChanges_modEv s f, id, id⟩, rfl, hf, fun _ => id, id⟩

/-- A change of Echo's books. -/
theorem State.modEv_within {f : Echo → Echo} {s : State} (hf : ∀ e, (f e).raised = e.raised := by exact fun _ => rfl) :
    Within [.ev] s (s.modEv f) :=
  State.modEv_within_of fun _ h => hf s.ev ▸ h

theorem State.modRst_within {f : Resets → Resets} {s : State} : Within [.rst] s (s.modRst f) :=
  .of_part fun q h => by cases q with | rst => exact absurd rfl h | regs => exact fun _ => rfl | _ => rfl

theorem State.modFab_within {f : Fabric → Fabric} {s : State} : Within [.fab] s (s.modFab f) :=
  .of_part fun q h => by cases q with | fab => exact absurd rfl h | regs => exact fun _ => rfl | _ => rfl

theorem State.modLib_within {f : Lib → Lib} {s : State} : Within [.lib] s (s.modLib f) :=
  .of_part fun q h => by cases q with | lib => exact absurd rfl h | regs => exact fun _ => rfl | _ => rfl

theorem State.modInteg_within {f : Integ → Integ} {s : State} : Within [.integ] s (s.modInteg f) :=
  .of_part fun q h => by cases q with | integ => exact absurd rfl h | regs => exact fun _ => rfl | _ => rfl

theorem State.modXlt_within {f : Xlt → Xlt} {s : State} : Within [.xlt] s (s.modXlt f) :=
  .of_part fun q h => by cases q with | xlt => exact absurd rfl h | regs => exact fun _ => rfl | _ => rfl

theorem State.modCry_within {f : Cry → Cry} {s : State} : Within [.cry] s (s.modCry f) :=
  .of_part fun q h => by cases q with | cry => exact absurd rfl h | regs => exact fun _ => rfl | _ => rfl

theorem State.modCfg_within {f : Cfg → Cfg} {s : State} : Within [.cfg] s (s.modCfg f) :=
  .of_part fun q h => by cases q with | cfg => exact absurd rfl h | regs => exact fun _ => rfl | _ => rfl

theorem State.modNet_within {f : Net → Net} {s : State} : Within [.net] s (s.modNet f) :=
  .of_part fun q h => by cases q with | net => exact absurd rfl h | regs => exact fun _ => rfl | _ => rfl

theorem State.modTwn_sound {f : Twin → Twin} {s : State} : Sound [.twn] s (s.modTwn f) :=
  ⟨fun p hp => by cases p with | twn => exact absurd (by decide) hp | regs => exact fun _ => rfl | _ => rfl, id, id⟩

theorem State.modTwn_within_of {f : Twin → Twin} {s : State} (hf : s.paired = false → (s.modTwn f).paired = false) :
    Within [.twn] s (s.modTwn f) :=
  ⟨State.modTwn_sound, rfl, fun _ => id, fun _ => id, hf⟩

theorem State.modTwn_within {f : Twin → Twin} {s : State} (hf : ∀ t, (f t).role = t.role := by exact fun _ => rfl) :
    Within [.twn] s (s.modTwn f) :=
  State.modTwn_within_of fun h => by rwa [State.paired, State.modTwn_twn, hf]

theorem State.modLys_within {f : Lys → Lys} {s : State} (hf : ∀ l, (f l).tbase = l.tbase := by exact fun _ => rfl) :
    Within [.lys] s (s.modLys f) :=
  .of_part (fun q h => by cases q with | lys => exact absurd rfl h | regs => exact fun _ => rfl | _ => rfl) rfl rfl
    (hf s.lys)

theorem State.modPci_within {f : Pcie → Pcie} {s : State} : Within [.pci] s (s.modPci f) :=
  .of_part fun q h => by cases q with | pci => exact absurd rfl h | regs => exact fun _ => rfl | _ => rfl

theorem State.modPin_within {f : Pins → Pins} {s : State} : Within [.pin] s (s.modPin f) :=
  .of_part fun q h => by cases q with | pin => exact absurd rfl h | regs => exact fun _ => rfl | _ => rfl

theorem State.modQu_within {q : Nat} {f : Queue → Queue} {s : State} : Within [.que] s (s.modQu q f) :=
  .of_part fun q h => by cases q with | que => exact absurd rfl h | regs => exact fun _ => rfl | _ => rfl

theorem State.modBun_within {b : Nat} {f : Bundle → Bundle} {s : State} : Within [.gvl] s (s.modBun b f) :=
  .of_part fun q h => by cases q with | gvl => exact absurd rfl h | regs => exact fun _ => rfl | _ => rfl

theorem State.send_within {x : Out} {s : State} : Within [.out] s (s.send x) :=
  ⟨⟨onlyChanges_send x s (by decide), id, id⟩, rfl, fun _ => id, fun _ h => List.mem_append_left _ h, id⟩

theorem State.fresh_within {s : State} : Within [.seed] s s.fresh :=
  .of_part fun q h => by cases q with | seed => exact absurd rfl h | regs => exact fun _ => rfl | _ => rfl

theorem captures_within {l : List Half} {s : State} : Within [.captures] s { s with captures := l } :=
  .of_part fun q h => by cases q with | captures => exact absurd rfl h | regs => exact fun _ => rfl | _ => rfl

theorem staged_within {l : List Half} {s : State} : Within [.staged] s { s with staged := l } :=
  .of_part fun q h => by cases q with | staged => exact absurd rfl h | regs => exact fun _ => rfl | _ => rfl

theorem que_within {l : List (Nat × Queue)} {s : State} : Within [.que] s { s with que := l } :=
  .of_part fun q h => by cases q with | que => exact absurd rfl h | regs => exact fun _ => rfl | _ => rfl

theorem arb_within {l : List (Nat × Nat)} {s : State} : Within [.arb] s { s with arb := l } :=
  .of_part fun q h => by cases q with | arb => exact absurd rfl h | regs => exact fun _ => rfl | _ => rfl

theorem xlt_within {x : Xlt} {s : State} : Within [.xlt] s { s with xlt := x } :=
  .of_part fun q h => by cases q with | xlt => exact absurd rfl h | regs => exact fun _ => rfl | _ => rfl

theorem pci_within {x : Pcie} {s : State} : Within [.pci] s { s with pci := x } :=
  .of_part fun q h => by cases q with | pci => exact absurd rfl h | regs => exact fun _ => rfl | _ => rfl

theorem seed_within {n : Nat} {s : State} : Within [.seed] s { s with seed := n } :=
  .of_part fun q h => by cases q with | seed => exact absurd rfl h | regs => exact fun _ => rfl | _ => rfl

theorem State.modLys_sound {f : Lys → Lys} {s : State} : Sound [.lys] s (s.modLys f) :=
  ⟨fun p hp => by cases p with | lys => exact absurd (by decide) hp | regs => exact fun _ => rfl | _ => rfl, id, id⟩

theorem State.modEv_sound {f : Echo → Echo} {s : State} : Sound [.ev] s (s.modEv f) := ⟨onlyChanges_modEv s f, id, id⟩

/-! Grotto and the registers. -/

/-- A change of Grotto that keeps its canonical form. -/
theorem State.modGrt_within_of {f : Grotto → Grotto} {s : State}
    (hf : Memory.wf s = true → Memory.wf (s.modGrt f) = true) : Within [.grt] s (s.modGrt f) :=
  ⟨⟨onlyChanges_modGrt s f, hf, id⟩, rfl, fun _ => id, fun _ => id, id⟩

/-- A change of Grotto's books alone. -/
theorem State.modGrt_within {f : Grotto → Grotto} {s : State} (hm : ∀ g, (f g).mem = g.mem := by exact fun _ => rfl)
    (hp : ∀ g, (f g).poison = g.poison := by exact fun _ => rfl)
    (he : ∀ g, (f g).errs = g.errs := by exact fun _ => rfl) : Within [.grt] s (s.modGrt f) :=
  State.modGrt_within_of fun h => by simpa only [Memory.wf, State.modGrt_grt, hm, hp, he] using h

theorem State.modBank_within {i : Nat} {f : Bank → Bank} {s : State} : Within [.grt] s (s.modBank i f) :=
  State.modGrt_within

theorem memory_wf_iff {s : State} : Memory.wf s = true ↔
    tabWf 0 s.grt.mem = true ∧ s.grt.poison.Pairwise (· < ·) ∧ tabWf 0 s.grt.errs = true := by
  simp [Memory.wf, and_assoc]

theorem onlyChanges_regs {s : State} {l : List (Nat × Word)} : OnlyChanges [.regs] s { s with regs := l } := by
  intro p hp
  cases p with
  | regs => exact absurd (by decide) hp
  | _ => rfl

theorem regsWf_iff {s : State} :
    regsWf s = true ↔ (s.regs.map (·.1)).Pairwise (· < ·) ∧ ∀ p ∈ s.regs, p.2 ≠ regReset p.1 := by
  simp [regsWf]

/-- A table without some of its entries is canonical still. -/
theorem tabWf_filter {α : Type} [DecidableEq α] {d : α} {t : List (Nat × α)} (p : Nat × α → Bool) (h : tabWf d t = true) :
    tabWf d (t.filter p) = true := by
  induction t with
  | nil => exact h
  | cons x t ih =>
    obtain ⟨hx, hlt, ht⟩ := (tabWf_cons d x.1 x.2 t).1 h
    rw [List.filter_cons]
    split
    · exact (tabWf_cons d x.1 x.2 _).2 ⟨hx, fun q hq => hlt q (List.mem_filter.1 hq).1, ih ht⟩
    · exact ih ht

theorem pairwise_setAdd {k : Nat} {l : List Nat} (h : l.Pairwise (· < ·)) : (setAdd k l).Pairwise (· < ·) := by
  have hmem : ∀ l : List Nat, ∀ x ∈ setAdd k l, x = k ∨ x ∈ l := by
    intro l
    induction l with
    | nil => simp [setAdd]
    | cons y l ih =>
      intro x hx
      rw [setAdd] at hx
      split_ifs at hx
      · simpa using hx
      · exact .inr hx
      · rcases List.mem_cons.1 hx with rfl | hx
        · simp
        · exact (ih x hx).imp_right (List.mem_cons_of_mem y)
  induction l with
  | nil => simp [setAdd]
  | cons y l ih =>
    obtain ⟨hy, hl⟩ := List.pairwise_cons.1 h
    rw [setAdd]
    split_ifs with hlt heq
    · exact List.pairwise_cons.2 ⟨fun x hx => (List.mem_cons.1 hx).elim (· ▸ hlt) fun hx => hlt.trans (hy x hx), h⟩
    · exact h
    · refine List.pairwise_cons.2 ⟨fun x hx => ?_, ih hl⟩
      rcases hmem l x hx with rfl | hx
      · omega
      · exact hy x hx

theorem mem_of_mem_tabIns {α : Type} {k : Nat} {v : α} {t : List (Nat × α)} {p : Nat × α} (h : p ∈ tabIns k v t) :
    p = (k, v) ∨ p ∈ t := by
  induction t with
  | nil => simpa [tabIns] using h
  | cons q t ih =>
    rw [tabIns] at h
    split at h
    · simpa using h
    · rcases List.mem_cons.1 h with rfl | h
      · simp
      · exact (ih h).imp_right (List.mem_cons_of_mem q)

theorem keys_pairwise_tabIns {α : Type} {k : Nat} {v : α} {t : List (Nat × α)} (hk : ∀ p ∈ t, p.1 ≠ k)
    (h : (t.map (·.1)).Pairwise (· < ·)) : ((tabIns k v t).map (·.1)).Pairwise (· < ·) := by
  induction t with
  | nil => simp [tabIns]
  | cons q t ih =>
    obtain ⟨hq, ht⟩ := List.pairwise_cons.1 h
    have hne := hk q (by simp)
    rw [tabIns]
    split
    · next hlt =>
      refine List.pairwise_cons.2 ⟨fun x hx => ?_, h⟩
      rcases List.mem_cons.1 hx with rfl | hx
      · exact hlt
      · exact Nat.lt_trans hlt (hq x hx)
    · next hlt =>
      refine List.pairwise_cons.2 ⟨fun x hx => ?_, ih (fun p hp => hk p (by simp [hp])) ht⟩
      obtain ⟨p, hp, rfl⟩ := List.mem_map.1 hx
      rcases mem_of_mem_tabIns hp with rfl | hp
      · exact Nat.lt_of_le_of_ne (Nat.not_lt.1 hlt) hne
      · exact hq _ (List.mem_map_of_mem hp)

/-- Storing a register's bits keeps the registers canonical: at its reset value it is unlisted. -/
theorem State.setReg_within {off : Nat} {v : Word} {s : State} : Within [.regs] s (s.setReg off v) := by
  refine ⟨⟨onlyChanges_regs, id, fun h => ?_⟩, rfl, fun _ => id, fun _ => id, id⟩
  obtain ⟨hkeys, hvals⟩ := regsWf_iff.1 h
  have hdel : ∀ p ∈ tabDel s.regs off, p.1 ≠ off := fun p hp => by simpa using (List.mem_filter.1 hp).2
  have hdelKeys : ((tabDel s.regs off).map (·.1)).Pairwise (· < ·) := hkeys.sublist (List.filter_sublist.map _)
  have hdelVals : ∀ p ∈ tabDel s.regs off, p.2 ≠ regReset p.1 := fun p hp => hvals p (List.mem_filter.1 hp).1
  refine regsWf_iff.2 ?_
  simp only [State.setReg, tabSet]
  split
  · exact ⟨hdelKeys, hdelVals⟩
  · next hv =>
    refine ⟨keys_pairwise_tabIns hdel hdelKeys, fun p hp => ?_⟩
    rcases mem_of_mem_tabIns hp with rfl | hp
    · exact hv
    · exact hdelVals p hp

/-- Registers put back to their reset values are unlisted. -/
theorem regs_filter_within {s : State} {p : Nat × Word → Bool} : Within [.regs] s { s with regs := s.regs.filter p } := by
  refine ⟨⟨onlyChanges_regs, id, fun h => ?_⟩, rfl, fun _ => id, fun _ => id, id⟩
  obtain ⟨hkeys, hvals⟩ := regsWf_iff.1 h
  exact regsWf_iff.2 ⟨hkeys.sublist (List.filter_sublist.map _), fun q hq => hvals q (List.mem_filter.1 hq).1⟩

theorem putWord_within {w : Nat} {d : BitVec 64} {p : Bool} {s : State} : Within [.grt] s (putWord w d p s) := by
  refine State.modGrt_within_of fun h => ?_
  obtain ⟨hm, hp, he⟩ := memory_wf_iff.1 h
  refine memory_wf_iff.2 ⟨tabWf_tabPuts 0 _ _ _ hm, ?_, tabWf_tabDel 0 _ _ he⟩
  change (if p = true then setAdd w s.grt.poison else setDel w s.grt.poison).Pairwise (· < ·)
  split
  · exact pairwise_setAdd hp
  · exact hp.filter _

/-- Grotto without some of its bytes, poison marks and wrong bits. -/
theorem State.modGrt_filter_within {f : Grotto → Grotto} {s : State} {p : Nat × Byte → Bool} {q : Nat → Bool}
    {r : Nat × BitVec 80 → Bool} (hm : (f s.grt).mem = s.grt.mem.filter p := by rfl)
    (hp : (f s.grt).poison = s.grt.poison.filter q := by rfl) (he : (f s.grt).errs = s.grt.errs.filter r := by rfl) :
    Within [.grt] s (s.modGrt f) := by
  refine State.modGrt_within_of fun h => ?_
  obtain ⟨hmem, hpoison, herrs⟩ := memory_wf_iff.1 h
  rw [memory_wf_iff, State.modGrt_grt, hm, hp, he]
  exact ⟨tabWf_filter p hmem, hpoison.filter q, tabWf_filter r herrs⟩

/-- Grotto lost or about to be filled. -/
theorem State.modGrt_empty_within {f : Grotto → Grotto} {s : State} (hm : (f s.grt).mem = [] := by rfl)
    (hp : (f s.grt).poison = [] := by rfl) (he : (f s.grt).errs = [] := by rfl) : Within [.grt] s (s.modGrt f) := by
  refine State.modGrt_within_of fun _ => ?_
  rw [memory_wf_iff, State.modGrt_grt, hm, hp, he]
  exact ⟨rfl, .nil, rfl⟩

/-- A change of the wrong bits that keeps their table canonical. -/
theorem State.modGrt_errs_within {f : Grotto → Grotto} {s : State}
    (he : tabWf 0 s.grt.errs = true → tabWf 0 (f s.grt).errs = true) (hm : (f s.grt).mem = s.grt.mem := by rfl)
    (hp : (f s.grt).poison = s.grt.poison := by rfl) : Within [.grt] s (s.modGrt f) := by
  refine State.modGrt_within_of fun h => ?_
  obtain ⟨hmem, hpoison, herrs⟩ := memory_wf_iff.1 h
  rw [memory_wf_iff, State.modGrt_grt, hm, hp]
  exact ⟨hmem, hpoison, he herrs⟩

end Sys2Proof

namespace Sys2Proof

open Sys2Proof.Machine

/-- The machine goes on, with its queue of commands as it was and the canonical forms kept. -/
def Goes (s : State) (o : Host.Outcome State Fault Refusal) : Prop := ∃ t, o = .next t ∧ Sound hardware s t

namespace Goes

variable {s t : State} {o o' : Host.Outcome State Fault Refusal}

theorem sound (h : Sound hardware s t) : Goes s (.next t) := ⟨t, rfl, h⟩

theorem done (h : Within hardware s t) : Goes s (done t) := sound h.toSound

theorem ite {c : Prop} [Decidable c] (h : Goes s o) (h' : Goes s o') : Goes s (if c then o else o') := by
  split
  · exact h
  · exact h'

end Goes

/-! Raised events along a run. -/

theorem Raised.within {l : List Part} {s t u : State} {c : Nat} {fs : List Nat} (h : Raised s t c fs) (hw : Within l t u) :
    Raised s u c fs := hw.raised _ h

theorem Raised.before {l : List Part} {s t u : State} {c : Nat} {fs : List Nat} (h : Raised t u c fs) (hw : Within l s t) :
    Raised s u c fs := by
  rwa [Raised, ← hw.now]

theorem raised_unless {p : Prop} [Decidable p] {c : Nat} {fs : List Nat} {s : State} (h : ¬ p) :
    Raised s (if p then s else raise c fs s) c fs := by
  rw [if_neg h]
  exact raised_raise c fs s

theorem raised_when {p : Prop} [Decidable p] {c : Nat} {fs : List Nat} {s : State} (h : p) :
    Raised s (if p then raise c fs s else s) c fs := by
  rw [if_pos h]
  exact raised_raise c fs s

/-- What one element's turn raises stands raised at the end. -/
theorem raised_forEach {α : Type} {l : List Part} {f : α → State → State} {xs : List α} {a : α} {c : Nat} {fs : List Nat}
    (h : ∀ a u, Within l u (f a u)) (ha : a ∈ xs) (hf : ∀ u, Raised u (f a u) c fs) (s : State) :
    Raised s (forEach xs f s) c fs := by
  induction xs generalizing s with
  | nil => cases ha
  | cons b xs ih =>
    rcases List.mem_cons.1 ha with rfl | ha
    · exact (hf s).within (.forEach h)
    · exact (ih ha (f b s)).before (h b s)

end Sys2Proof

/-! What each function of the model may touch, in the order of the model: Within for a function that answers a state
(or a pair with one), Goes for the meaning of a command. -/

namespace Sys2Proof

-- so many small proofs at once would take more threads than there are
set_option Elab.async false

open Sys2Proof.Machine

theorem State.modChm_within {s : State} {c : ℕ} {f : Chamber → Chamber} :
    Within [.fab] s (s.modChm c f) := by
  unfold State.modChm
  exact State.modFab_within.mono

theorem State.modStrat_within {s : State} {c : ℕ} {k : ℕ} {f : Stratum → Stratum} :
    Within [.fab] s (s.modStrat c k f) := by
  unfold State.modStrat
  exact State.modChm_within.mono

theorem State.modCol_within {s : State} {n : ℕ} {f : Column → Column} :
    Within [.fab] s (s.modCol n f) := by
  unfold State.modCol
  exact State.modFab_within.mono

theorem State.modGrp_within {s : State} {g : ℕ} {f : SwGroup → SwGroup} :
    Within [.fab] s (s.modGrp g f) := by
  unfold State.modGrp
  exact State.modFab_within.mono

theorem State.modSlot_within {s : State} {i : ℕ} {f : Slot → Slot} :
    Within [.lib] s (s.modSlot i f) := by
  unfold State.modSlot
  exact State.modLib_within.mono

theorem State.modLink_within {s : State} {b : ℕ} {f : Link → Link} :
    Within [.gvl] s (s.modLink b f) := by
  unfold State.modLink
  exact State.modBun_within.mono

theorem State.modLane_within {s : State} {b : ℕ} {k : ℕ} {f : Lane → Lane} :
    Within [.gvl] s (s.modLane b k f) := by
  unfold State.modLane
  exact State.modBun_within.mono

theorem State.modKey_within {s : State} {k : ℕ} {f : KeyEntry → KeyEntry} :
    Within [.cry] s (s.modKey k f) := by
  unfold State.modKey
  exact State.modCry_within.mono

theorem State.setRegF_within {s : State} {off : ℕ} {lo : ℕ} {len : ℕ} {v : ℕ} :
    Within [.regs] s (s.setRegF off lo len v) := by
  unfold State.setRegF
  exact State.setReg_within.mono

theorem sendMsix_within {vec : ℕ} {s : State} :
    Within [.out, .pci] s (sendMsix vec s) := by
  unfold sendMsix
  exact .ite .refl (.ite State.modPci_within.mono State.send_within.mono)

theorem releasePending_within {s : State} :
    Within [.out, .pci] s (releasePending s) := by
  unfold releasePending
  exact .forEach (fun _ _ => State.modPci_within.mono.step sendMsix_within)

theorem sendLysVector_within {code : ℕ} {s : State} :
    Within [.out, .pci] s (sendLysVector code s) := by
  unfold sendLysVector
  exact .when sendMsix_within.mono

theorem raise_within {code : Nat} {fields : List Nat} {s : State} : Within events s (raise code fields s) := by
  unfold raise
  exact (State.modEv_within_of fun _ h => (mem_evInsert _ _ _).2 (.inr h)).mono.step sendLysVector_within

theorem raiseRefused_within {sub : ℕ} {off : ℕ} {who : Requester} {reason : ℕ} {s : State} :
    Within events s (raiseRefused sub off who reason s) := by
  unfold raiseRefused
  exact raise_within.mono

theorem State.modSess_within {s : State} {b : ℕ} {rx : Bool} {f : Session → Session} :
    Within [.cry] s (s.modSess b rx f) := by
  unfold State.modSess
  exact State.modCry_within.mono

theorem sendLctl_within {b : ℕ} {kind : ℕ} {seq : ℕ} {s : State} :
    Within [.gvl, .out] s (sendLctl b kind seq s) := by
  unfold sendLctl
  exact State.send_within.mono.step State.modLink_within

theorem sendInit_within {b : ℕ} {s : State} :
    Within [.gvl, .out] s (sendInit b s) := by
  unfold sendInit
  exact sendLctl_within.mono

theorem sendWire_within {b : ℕ} {flits : List (List Byte)} {s : State} :
    Within [.out] s (sendWire b flits s) := by
  unfold sendWire
  exact .forEach (fun _ _ => (Within.when State.send_within.mono).step State.send_within)

theorem bufferFlit_within {b : ℕ} {f : List Byte} {s : State} :
    Within [.gvl] s (bufferFlit b f s) := by
  unfold bufferFlit
  exact State.modLink_within.mono

theorem pumpGo_within {b : Nat} {flits : List (List Byte)} {blocked : List Nat} {kept : List (List Byte)} {s : State} :
    Within [.gvl, .out] s (pumpGo b flits blocked kept s) := by
  induction flits generalizing blocked kept s with
  | nil =>
    rw [pumpGo]
    exact State.modLink_within.mono
  | cons f flits ih =>
    rw [pumpGo]
    exact .ite (bufferFlit_within.mono.step sendWire_within |>.trans ih) ih

theorem pump_within {b : ℕ} {s : State} :
    Within [.gvl, .out] s (pump b s) := by
  unfold pump
  exact pumpGo_within.mono

theorem enqueue_within {b : ℕ} {flits : List (List Byte)} {s : State} :
    Within [.gvl, .out] s (enqueue b flits s) := by
  unfold enqueue
  exact State.modLink_within.mono.step pump_within

theorem sendMgmt_within {b : ℕ} {kind : ℕ} {args : List (ℕ × ℕ)} {s : State} :
    Within [.gvl, .out] s (sendMgmt b kind args s) := by
  unfold sendMgmt
  exact enqueue_within.mono

theorem takeAck_within {b : ℕ} {ack : Option ℕ} {s : State} :
    Within [.gvl] s (takeAck b ack s) := by
  unfold takeAck
  dsimp only
  split
  · exact .refl
  · exact .ite .refl State.modLink_within.mono

theorem takeFreed_within {b : ℕ} {freed : List ℕ} {s : State} :
    Within [.gvl] s (takeFreed b freed s) := by
  unfold takeFreed
  exact State.modLink_within.mono

theorem freeCredits_within {b : ℕ} {vc : ℕ} {n : ℕ} {s : State} :
    Within [.gvl] s (freeCredits b vc n s) := by
  unfold freeCredits
  exact State.modLink_within.mono

theorem takeMsg_within {b : ℕ} {vc : ℕ} {p : List Byte → Bool} {s : State} :
    Within [.gvl] s (takeMsg b vc p s) := by
  unfold takeMsg
  split
  · exact .refl
  · exact State.modLink_within.mono.step freeCredits_within

theorem takeAnyMsg_within {vc : ℕ} {p : List Byte → Bool} {s : State} :
    Within [.gvl] s (takeAnyMsg vc p s) := by
  unfold takeAnyMsg
  split
  · exact takeMsg_within.mono
  · exact .refl

theorem useKey_within {k : ℕ} {s : State} :
    Within (.cry :: events) s (useKey k s) := by
  unfold useKey
  exact .ite (State.modKey_within.mono.step raise_within) .refl

theorem spoilKey_within {k : ℕ} {s : State} :
    Within [.cry] s (spoilKey k s) := by
  unfold spoilKey
  exact State.modKey_within.mono

theorem startSession_within {b : ℕ} {rx : Bool} {s : State} :
    Within (.cry :: .gvl :: .seed :: events) s (startSession b rx s) := by
  unfold startSession
  exact State.modSess_within.mono.trans (.ite .refl (useKey_within.mono.trans (.ite (State.modSess_within.mono.step State.fresh_within |>.step sendMgmt_within) raise_within.mono)))

theorem endSessions_within {b : ℕ} {s : State} :
    Within [.cry] s (endSessions b s) := by
  unfold endSessions
  exact .forEach (fun _ _ => .ite State.modSess_within.mono .refl)

theorem dropRecord_within {b : ℕ} {s : State} :
    Within [.gvl] s (dropRecord b s) := by
  unfold dropRecord
  exact State.modLink_within.mono

theorem laneReset_within {b : ℕ} {s : State} :
    Within [.gvl] s (laneReset b s) := by
  unfold laneReset
  exact State.modBun_within.mono

theorem linkDown_within {b : ℕ} {s : State} :
    Within [.cry, .gvl] s (linkDown b s) := by
  unfold linkDown
  exact State.modLink_within.mono.step endSessions_within |>.step dropRecord_within

theorem bundleOff_within {b : ℕ} {s : State} :
    Within (.cry :: .gvl :: events) s (bundleOff b s) := by
  unfold bundleOff
  exact (Within.ite (linkDown_within.mono.step raise_within) .refl).step laneReset_within |>.step State.modBun_within

theorem settleKeepers_within {v : Nets} {s : State} :
    Within [.fab] s (settleKeepers v s) := by
  unfold settleKeepers
  exact .forEach (fun _ _ => State.modCol_within.mono)

theorem watchShafts_within {s : State} :
    Within [.fab] s (watchShafts s) := by
  unfold watchShafts
  exact .forEach (fun _ _ => .ite .refl State.modCol_within.mono)

theorem holdTurn_within {c : ℕ} {mask : BitVec 8} {s : State} :
    Within [.fab, .pin] s (holdTurn c mask s) := by
  unfold holdTurn
  exact State.modPin_within.mono.step State.modChm_within

theorem loadPin_within {c : ℕ} {i : ℕ} {s : State} :
    Within (.pin :: .seed :: events) s (loadPin c i s) := by
  unfold loadPin
  exact State.fresh_within.mono.step State.modPin_within |>.trans (.ite (State.modPin_within.mono.step raise_within) .refl)

theorem pinEdge_within {c : ℕ} {s : State} :
    Within (.fab :: .pin :: .seed :: events) s (pinEdge c s) := by
  unfold pinEdge
  dsimp only
  refine .trans ?_ (.ite .refl State.modChm_within.mono)
  split
  · split
    · exact .refl
    · exact .forEach (fun _ _ => .ite loadPin_within.mono .refl)
  · exact .refl

theorem endDesc_within {q : ℕ} {id : ℕ} {status : ℕ} {result : ℕ} {s : State} :
    Within [.que] s (endDesc q id status result s) := by
  unfold endDesc
  exact State.modQu_within.mono

theorem endIssuer_within {d : Option (ℕ × ℕ)} {status : ℕ} {result : ℕ} {s : State} :
    Within [.que] s (endIssuer d status result s) := by
  unfold endIssuer
  split
  · exact .refl
  · exact endDesc_within.mono

theorem leaveRun_within {b : State} {v : Nets} {c : ℕ} {s : State} :
    Within [.fab] s (leaveRun b v c s) := by
  unfold leaveRun
  exact .ite State.modChm_within.mono .refl

theorem deliverParked_within {c : ℕ} {s : State} :
    Within [.fab, .out] s (deliverParked c s) := by
  unfold deliverParked
  split
  · split
    · exact .refl
    · exact State.modStrat_within.mono.step State.send_within
  · exact .refl

theorem discardParked_within {c : ℕ} {k : ℕ} {s : State} :
    Within (.fab :: events) s (discardParked c k s) := by
  unfold discardParked
  exact .ite .refl (State.modStrat_within.mono.step raise_within)

theorem latchFence_within {c : ℕ} {k : ℕ} {s : State} :
    Within [.fab] s (latchFence c k s) := by
  unfold latchFence
  exact State.modChm_within.mono

theorem enterRun_within {c : ℕ} {s : State} :
    Within [.fab, .pin] s (enterRun c s) := by
  unfold enterRun
  exact .ite holdTurn_within.mono .refl

theorem edgeCounts_within {c : ℕ} {s : State} :
    Within (.fab :: .pin :: .seed :: events) s (edgeCounts c s) := by
  unfold edgeCounts
  exact (Within.ite pinEdge_within.mono .refl).trans (.ite State.modCol_within.mono .refl)

theorem stopSchedule_within {g : ℕ} {reason : ℕ} {s : State} :
    Within (.regs :: .fab :: events) s (stopSchedule g reason s) := by
  unfold stopSchedule
  exact .ite (State.modChm_within.mono.step State.setRegF_within |>.step raise_within) .refl

theorem switchTo_within {b : State} {v : Nets} {c : ℕ} {k : ℕ} {t : Bool} {rank : ℕ} {s : State} :
    Within (.fab :: .pin :: events) s (switchTo b v c k t rank s) := by
  unfold switchTo
  exact .ite .refl ((Within.ite .refl leaveRun_within.mono).step State.modChm_within |>.trans (.ite (latchFence_within.mono.trans (.ite .refl holdTurn_within.mono) |>.trans (.ite raise_within.mono .refl)) raise_within.mono))

theorem quarantineOne_within {b : State} {v : Nets} {c : ℕ} {k : ℕ} {cause : ℕ} {s : State} :
    Within (.fab :: events) s (quarantineOne b v c k cause s) := by
  unfold quarantineOne
  exact .ite .refl ((Within.ite leaveRun_within.mono .refl).step State.modStrat_within |>.step raise_within)

theorem quarantine_within {c : ℕ} {k : ℕ} {cause : ℕ} {s : State} :
    Within (.fab :: events) s (quarantine c k cause s) := by
  unfold quarantine
  exact settleKeepers_within.mono.trans (.ite (quarantineOne_within.mono.step quarantineOne_within) quarantineOne_within.mono) |>.step watchShafts_within

theorem quarantineAtEdge_within {c : ℕ} {k : ℕ} {cause : ℕ} {s : State} :
    Within [.fab] s (quarantineAtEdge c k cause s) := by
  unfold quarantineAtEdge
  exact State.modChm_within.mono

theorem holdChamber_within {b : State} {v : Nets} {c : ℕ} {hsrc : ℕ} {s : State} :
    Within (.fab :: events) s (holdChamber b v c hsrc s) := by
  unfold holdChamber
  exact .ite .refl (.ite .refl (leaveRun_within.mono.step State.modChm_within |>.step raise_within))

theorem markRefills_within {c : ℕ} {s : State} :
    Within [.fab] s (markRefills c s) := by
  unfold markRefills
  exact State.modChm_within.mono

theorem releaseChamber_within {c : ℕ} {rank : ℕ} {s : State} :
    Within (.fab :: .pin :: events) s (releaseChamber c rank s) := by
  unfold releaseChamber
  exact .ite .refl (.ite raise_within.mono (State.modChm_within.mono.trans (.ite (.ite latchFence_within.mono raise_within.mono) .refl) |>.step raise_within |>.trans (.ite State.modCol_within.mono .refl) |>.step enterRun_within))

theorem acceptCmd_within {c : ℕ} {op : ℕ} {stratum : ℕ} {t : Bool} {desc : Option (ℕ × ℕ)} {s : State} :
    Within (.fab :: .que :: events) s (acceptCmd c op stratum t desc s) := by
  unfold acceptCmd
  dsimp only
  refine .step ?_ State.modChm_within
  split
  · exact .refl
  · exact raise_within.mono.step endIssuer_within

theorem clearCmd_within {g : ℕ} {d : ChmCmd} {s : State} :
    Within [.fab, .que] s (clearCmd g d s) := by
  unfold clearCmd
  exact State.modChm_within.mono.step endIssuer_within

theorem entryCurrent_within {b : State} {v : Nets} {g : ℕ} {e : ℕ} {s : State} :
    Within (.regs :: .fab :: .pin :: events) s (entryCurrent b v g e s) := by
  unfold entryCurrent
  exact State.modChm_within.mono.trans (.ite stopSchedule_within.mono (State.modChm_within.mono.trans (.forEach (fun _ _ => switchTo_within.mono))))

theorem acceptFire_within {g : ℕ} {op : ℕ} {desc : Option (ℕ × ℕ)} {s : State} :
    Within [.fab, .que] s (acceptFire g op desc s) := by
  unfold acceptFire
  dsimp only
  split
  · refine .step ?_ State.modGrp_within
    split
    · exact endIssuer_within.mono
    · exact .refl
  · exact endIssuer_within.mono

theorem holdAll_within {s : State} :
    Within [.fab] s (holdAll s) := by
  unfold holdAll
  exact .forEach (fun _ _ => State.modChm_within.mono)

theorem setPair_sound {role pst : Nat} {s : State} : Sound [.twn, .out, .pci] s (setPair role pst s) := by
  unfold setPair
  exact State.modTwn_sound.mono.trans (Within.sound (.ite sendMsix_within.mono .refl))

/-- A pair is left; only the two barriers enter one. -/
theorem setPair_within {pst : Nat} {s : State} : Within [.twn, .out, .pci] s (setPair 0 pst s) := by
  unfold setPair
  exact (State.modTwn_within_of fun _ => rfl).mono.trans (.ite sendMsix_within.mono .refl)

theorem bundlesOff_within {s : State} :
    Within (.cry :: .gvl :: events) s (bundlesOff s) := by
  unfold bundlesOff
  exact .forEach (fun _ _ => .ite .refl bundleOff_within.mono)

theorem sendTwin_within {kind : ℕ} {bytes : List Byte} {s : State} :
    Within [.out] s (sendTwin kind bytes s) := by
  unfold sendTwin
  exact .when State.send_within.mono

theorem failSilent_within {cause : ℕ} {s : State} :
    Within (.cry :: .gvl :: .twn :: events) s (failSilent cause s) := by
  unfold failSilent
  exact .ite .refl (sendTwin_within.mono.trans (.when State.send_within.mono) |>.step (State.modTwn_within) |>.step setPair_within |>.step bundlesOff_within |>.step raise_within)

theorem deviceFault_within {code : ℕ} {s : State} :
    Within (.fab :: .cry :: .gvl :: .twn :: .lys :: events) s (deviceFault code s) := by
  unfold deviceFault
  dsimp only
  split
  · exact (State.modLys_within).mono.step raise_within |>.step holdAll_within
  · exact (State.modLys_within).mono.step raise_within |>.step State.modLys_within |>.step bundlesOff_within
  · exact (State.modLys_within).mono.step raise_within |>.step failSilent_within
  · exact (State.modLys_within).mono.step raise_within

theorem sendHeld_within {p : CommitRec → Bool} {s : State} :
    Within [.twn, .out, .pci] s (sendHeld p s) := by
  unfold sendHeld
  exact (Within.forEach (fun _ _ => .ite sendMsix_within.mono State.send_within.mono)).step (State.modTwn_within)

theorem goAlone_within {cause : ℕ} {s : State} :
    Within (.twn :: events) s (goAlone cause s) := by
  unfold goAlone
  exact sendTwin_within.mono.step sendHeld_within |>.step (State.modTwn_within) |>.step setPair_within |>.step raise_within

theorem releaseBarrier_within {s : State} :
    Within (.fab :: .twn :: .pin :: events) s (releaseBarrier s) := by
  unfold releaseBarrier
  exact .ite ((State.modTwn_within).mono.trans (.forEach (fun _ _ => .ite releaseChamber_within.mono .refl))) .refl

theorem abandonRejoin_within {micros : ℕ} {s : State} :
    Within (.fab :: .twn :: .pin :: events) s (abandonRejoin micros s) := by
  unfold abandonRejoin
  exact .ite .refl (releaseBarrier_within.mono.step State.modTwn_within |>.step setPair_within |>.step raise_within)

theorem partnerLost_within {cause : ℕ} {s : State} :
    Within (.fab :: .cry :: .gvl :: .twn :: .pin :: events) s (partnerLost cause s) := by
  unfold partnerLost
  exact .ite goAlone_within.mono (.ite failSilent_within.mono (.ite .refl abandonRejoin_within.mono))

theorem restoreBits_within {c : ℕ} {k : ℕ} {v : BitVec 2048} {s : State} :
    Within [.fab] s (restoreBits c k v s) := by
  unfold restoreBits
  exact State.modChm_within.mono

theorem rewords_within {c : ℕ} {k : ℕ} {f : ImageWords → ImageWords} {s : State} :
    Within [.fab] s (rewords c k f s) := by
  unfold rewords
  exact .ite (settleKeepers_within.mono.step State.modStrat_within |>.step watchShafts_within) State.modStrat_within.mono

theorem libAccept_within {r : LibReq} {s : State} :
    Within (.lib :: .que :: events) s (libAccept r s) := by
  unfold libAccept
  exact .ite endIssuer_within.mono (.ite (raise_within.mono.step endIssuer_within) State.modLib_within.mono)

theorem libDevice_within {r : LibReq} {s : State} :
    Within [.lib] s (libDevice r s) := by
  unfold libDevice
  exact State.modLib_within.mono

theorem settleHold_within {s : State} :
    Within [.lib] s (settleHold s) := by
  unfold settleHold
  exact State.modLib_within.mono

theorem vacate_within {c : ℕ} {k : ℕ} {s : State} :
    Within (.fab :: events) s (vacate c k s) := by
  unfold vacate
  exact State.modStrat_within.mono.step raise_within

theorem relocStep3_within {n : ℕ} {s : State} :
    Within (.fab :: .lib :: events) s (relocStep3 n s) := by
  unfold relocStep3
  dsimp only
  split
  · exact State.modCol_within.mono.step State.modFab_within |>.trans (.forEach (fun _ _ => .ite .refl (.ite libDevice_within.mono (State.modCol_within.mono.step vacate_within))))
  · exact (Within.forEach (fun _ _ => vacate_within.mono)).step State.modFab_within |>.step State.modCol_within |>.step raise_within

theorem relocNext_within {n : ℕ} {s : State} :
    Within (.fab :: .lib :: events) s (relocNext n s) := by
  unfold relocNext
  exact .ite .refl ((Within.ite relocStep3_within.mono .refl).trans (.ite (State.modCol_within.mono.trans (.ite .refl (.forEach (fun _ _ => libDevice_within.mono)))) .refl) |>.trans (.ite State.modCol_within.mono .refl) |>.step settleHold_within)

theorem freeStreamOf_within {k : ℕ} {r : LibReq} {status : ℕ} {result : ℕ} {s : State} :
    Within [.lib, .que] s (freeStreamOf k r status result s) := by
  unfold freeStreamOf
  exact State.modLib_within.mono.step endIssuer_within

theorem contFails_within {n : ℕ} {s : State} :
    Within (.fab :: .lib :: events) s (contFails n s) := by
  unfold contFails
  exact State.modStrat_within.mono.step State.modCol_within |>.step settleHold_within |>.step raise_within

theorem afterDevice_within {r : LibReq} {ok : Bool} {s : State} :
    Within (.fab :: .lib :: events) s (afterDevice r ok s) := by
  unfold afterDevice
  dsimp only
  split
  · exact (Within.ite (.ite State.modCol_within.mono .refl) (.ite State.modCol_within.mono .refl)).step relocNext_within
  · exact .ite contFails_within.mono (State.modCol_within.mono.trans (.ite libDevice_within.mono (.ite libDevice_within.mono .refl)))
  · exact .refl

theorem endStream_within {k : ℕ} {ok : Bool} {status : ℕ} {result : ℕ} {s : State} :
    Within (.fab :: .lib :: .que :: events) s (endStream k ok status result s) := by
  unfold endStream
  split
  · exact .refl
  · exact freeStreamOf_within.mono.step afterDevice_within

theorem notifyDone_within {r : LibReq} {s : State} :
    Within events s (notifyDone r s) := by
  unfold notifyDone
  exact .ite raise_within.mono .refl

theorem landRows_within {r : LibReq} {rows : ℕ} {s : State} :
    Within [.fab] s (landRows r rows s) := by
  unfold landRows
  exact .ite .refl (.forEach (fun _ _ => State.modStrat_within.mono))

theorem abortRefill_within {k : ℕ} {cause : ℕ} {rows : ℕ} {s : State} :
    Within (.fab :: .lib :: .que :: .seed :: events) s (abortRefill k cause rows s) := by
  unfold abortRefill
  dsimp only
  split
  · exact .refl
  · exact landRows_within.mono.trans (.forEach (fun _ _ => State.modStrat_within.mono)) |>.step raise_within |>.trans (.ite endStream_within.mono (State.fresh_within.mono.step endStream_within))

theorem abortFromSlot_within {i : ℕ} {s : State} :
    Within (.fab :: .lib :: .que :: .seed :: events) s (abortFromSlot i s) := by
  unfold abortFromSlot
  exact .forEach (fun _ _ => .ite (State.fresh_within.mono.step abortRefill_within) .refl)

theorem toSump_within {i : ℕ} {cause : ℕ} {s : State} :
    Within (.fab :: .lib :: .que :: .seed :: events) s (toSump i cause s) := by
  unfold toSump
  exact .ite .refl (.ite (State.modSlot_within.mono.step raise_within |>.step abortFromSlot_within) (State.modSlot_within.mono.step raise_within |>.step abortFromSlot_within))

theorem loseGolden_within {i : ℕ} {s : State} :
    Within (.fab :: .lib :: .que :: .seed :: events) s (loseGolden i s) := by
  unfold loseGolden
  exact State.modSlot_within.mono.step toSump_within |>.trans (.forEach (fun _ _ => State.modStrat_within.mono)) |>.step raise_within

theorem useGolden_within {i : ℕ} {s : State} :
    Within (.fab :: .lib :: .que :: .seed :: events) s (useGolden i s) := by
  unfold useGolden
  exact .ite loseGolden_within.mono .refl

theorem dropRewrites_within {p : LibReq → Bool} {s : State} :
    Within [.lib] s (dropRewrites p s) := by
  unfold dropRewrites
  exact State.modLib_within.mono

theorem degradeSetup_within {n : ℕ} {good : ℕ} {s : State} :
    Within (.fab :: .lib :: events) s (degradeSetup n good s) := by
  unfold degradeSetup
  exact .ite .refl (.ite (State.modCol_within.mono.step libDevice_within) contFails_within.mono)

theorem lockReact_within {n : ℕ} {verdict : ℕ} {s : State} :
    Within (.fab :: .lib :: events) s (lockReact n verdict s) := by
  unfold lockReact
  exact State.modCol_within.mono.trans (.ite (State.modCol_within.mono.step degradeSetup_within |>.step settleHold_within) settleHold_within.mono)

theorem lockDetect_within {n : ℕ} {mask : ℕ} {digA : Word} {digB : Word} {s : State} :
    Within (.fab :: .lib :: .cry :: .gvl :: .twn :: events) s (lockDetect n mask digA digB s) := by
  unfold lockDetect
  exact raise_within.mono.step State.modCol_within |>.step State.modLib_within |>.step quarantineAtEdge_within |>.step quarantineAtEdge_within |>.trans (.ite failSilent_within.mono .refl)

theorem lockVerdict_within {n : ℕ} {verdict : ℕ} {source : ℕ} {s : State} :
    Within (.fab :: .lib :: events) s (lockVerdict n verdict source s) := by
  unfold lockVerdict
  exact raise_within.mono.step lockReact_within

theorem lockNoDiag_within {n : ℕ} {mask : ℕ} {verdict : ℕ} {source : ℕ} {s : State} :
    Within (.fab :: .lib :: .cry :: .gvl :: .twn :: events) s (lockNoDiag n mask verdict source s) := by
  unfold lockNoDiag
  exact .ite (lockDetect_within.mono.step lockVerdict_within) .refl

theorem checkSlot_within {i : ℕ} {s : State} :
    Within (.fab :: .lib :: .integ :: .que :: .seed :: events) s (checkSlot i s) := by
  unfold checkSlot
  exact .ite .refl (State.modInteg_within.mono.step toSump_within |>.step raise_within)

theorem execDiagnosisVerdict_goes {col : ColumnId} {s : State} :
    Goes s (execDiagnosisVerdict col s) := by
  unfold execDiagnosisVerdict
  exact .ite (.done (.ite (State.modInteg_within.mono.step useGolden_within |>.step useGolden_within |>.step lockVerdict_within |>.step checkSlot_within) (State.modInteg_within.mono.step useGolden_within |>.step useGolden_within |>.step lockVerdict_within))) (.done .refl)

theorem execDegradedComplete_goes {col : ColumnId} {s : State} :
    Goes s (execDegradedComplete col s) := by
  unfold execDegradedComplete
  exact .ite (.done (.ite (State.modStrat_within.mono.step State.modCol_within |>.step settleHold_within |>.step raise_within |>.step State.modChm_within) (State.modStrat_within.mono.step State.modCol_within |>.step settleHold_within |>.step raise_within))) (.done .refl)

theorem execLockstepEntry_goes {col : ColumnId} {s : State} :
    Goes s (execLockstepEntry col s) := by
  unfold execLockstepEntry
  exact .ite (.done ((Within.forEach (fun _ _ => (Within.forEach (fun _ _ => discardParked_within.mono)).step State.modChm_within)).step State.modCol_within |>.step raise_within)) (.done .refl)

theorem execLockstepExit_goes {col : ColumnId} {s : State} :
    Goes s (execLockstepExit col s) := by
  unfold execLockstepExit
  exact .ite (.done (State.modCol_within.mono.step raise_within)) (.done .refl)

theorem spill_within {r : LibReq} {s : State} :
    Within (.fab :: .lib :: .cry :: .gvl :: .twn :: events) s (spill r s) := by
  unfold spill
  exact .ite State.modCol_within.mono ((Within.ite raise_within.mono .refl).step State.modSlot_within |>.trans (.ite lockNoDiag_within.mono .refl))

theorem dropLane_within {c : ℕ} {k : ℕ} {s : State} :
    Within [.integ] s (dropLane c k s) := by
  unfold dropLane
  exact .ite State.modInteg_within.mono .refl

theorem refillRows_within {k : ℕ} {r : LibReq} {hardFail : Option ℕ} {s : State} :
    Within (.fab :: .lib :: .integ :: .que :: .seed :: events) s (refillRows k r hardFail s) := by
  unfold refillRows
  dsimp only
  split
  · exact (Within.ite (.ite .refl dropRewrites_within.mono) ((Within.ite .refl dropRewrites_within.mono).trans (.forEach (fun _ _ => (Within.ite .refl discardParked_within.mono).step dropLane_within |>.step State.modStrat_within |>.step State.modChm_within)))).step abortRefill_within |>.step toSump_within
  · exact (Within.ite (.ite .refl dropRewrites_within.mono) ((Within.ite .refl dropRewrites_within.mono).trans (.forEach (fun _ _ => (Within.ite .refl discardParked_within.mono).step dropLane_within |>.step State.modStrat_within |>.step State.modChm_within)))).step State.modLib_within

theorem boundStays_within {r : LibReq} {s : State} :
    Within (.fab :: events) s (boundStays r s) := by
  unfold boundStays
  exact .forEach (fun _ _ => State.modCol_within.mono.step raise_within)

/-- Taking the next request out of its queue changes the library's books alone. -/
theorem nextRequest_within {r : LibReq} {s t : State} (h : nextRequest s = some (r, t)) : Within [.lib] s t := by
  have hmod : ∀ {f : Lib → Lib} {r' : LibReq}, some (r', s.modLib f) = some (r, t) → Within [.lib] s t := by
    intro f r' h
    obtain ⟨-, rfl⟩ := Prod.mk.inj (Option.some.inj h)
    exact State.modLib_within
  unfold nextRequest at h
  dsimp only at h
  split at h
  · cases h
  split at h
  · exact hmod h
  split at h
  · cases h
  split at h
  · exact hmod h
  split at h
  · cases h
  split at h
  · exact hmod h
  split at h
  · exact hmod h
  · cases h

theorem startRequest_within {hardFail : Option Nat} {goldenLost : Bool} {s : State} :
    Within (.fab :: .lib :: .integ :: .que :: .cry :: .gvl :: .twn :: .seed :: events) s
      (startRequest hardFail goldenLost s) := by
  unfold startRequest
  split
  · next h =>
    have htake := nextRequest_within h
    dsimp only
    split
    · exact htake.mono.trans (.ite (State.modLib_within.mono.step raise_within |>.step endStream_within)
        (State.modLib_within.mono.trans ((Within.ite spill_within.mono .refl).trans
          (.ite (.ite (refillRows_within.mono.step loseGolden_within) refillRows_within.mono) .refl))))
    · exact htake.mono.step State.modLib_within |>.step raise_within
        |>.trans ((Within.ite boundStays_within.mono .refl).step endStream_within)
  · exact .refl

theorem loadStratum_within {c : ℕ} {r : LibReq} {s : State} :
    Within [.fab] s (loadStratum c r s) := by
  unfold loadStratum
  exact State.modStrat_within.mono.trans (.ite restoreBits_within.mono .refl) |>.step State.modStrat_within |>.trans (.ite State.modChm_within.mono .refl)

theorem refillDone_within {k : ℕ} {s : State} :
    Within (.fab :: .lib :: .que :: events) s (refillDone k s) := by
  unfold refillDone
  dsimp only
  split
  · exact .ite (landRows_within.mono.trans (.ite (.forEach (fun _ _ => loadStratum_within.mono)) (.ite State.modStrat_within.mono .refl)) |>.trans (.ite (quarantine_within.mono.step raise_within) .refl) |>.step notifyDone_within |>.step endStream_within) .refl
  · exact .refl

theorem unload_within {c : ℕ} {k : ℕ} {s : State} :
    Within [.fab] s (unload c k s) := by
  unfold unload
  exact (Within.ite (settleKeepers_within.mono.step leaveRun_within) .refl).step State.modStrat_within |>.step State.modChm_within |>.step watchShafts_within

theorem requestOver_within {k : ℕ} {s : State} :
    Within (.fab :: .lib :: .que :: events) s (requestOver k s) := by
  unfold requestOver
  dsimp only
  split
  · exact .refl
  · split
    · exact .refl
    · refine .trans ?_ (notifyDone_within.mono.step endStream_within)
      split
      · exact .ite (.forEach (fun _ _ => restoreBits_within.mono)) (.ite restoreBits_within.mono .refl)
      · exact .forEach (fun _ _ => unload_within.mono)
      · exact State.modSlot_within.mono
      · exact State.modSlot_within.mono
      · exact .refl

theorem residentReact_within {c : ℕ} {k : ℕ} {s : State} :
    Within (.fab :: .lib :: .cry :: .gvl :: .twn :: events) s (residentReact c k s).1 := by
  unfold residentReact
  exact .ite_fst .refl (.ite_fst lockNoDiag_within.mono (.ite_fst (.pair_fst (quarantine_within.mono.step raise_within)) (.ite_fst .refl (.ite_fst failSilent_within.mono .refl))))

theorem placeRewrite_within {c : ℕ} {k : ℕ} {s : State} :
    Within [.fab, .lib] s (placeRewrite c k s) := by
  unfold placeRewrite
  exact dropRewrites_within.mono.step State.modStrat_within |>.step libDevice_within

theorem residentRow_within {upset : List (Fin 2048)} {golden : ℕ} {s : State} :
    Within (.fab :: .lib :: .integ :: .que :: .cry :: .gvl :: .twn :: .seed :: events) s (residentRow upset golden s) := by
  unfold residentRow
  exact (Within.ite State.modInteg_within.mono .refl).trans (.ite ((Within.ite .refl rewords_within.mono).trans (.ite (State.modInteg_within.mono.step loseGolden_within) (.ite .refl (.ite State.modStrat_within.mono (State.modInteg_within.mono.step raise_within |>.trans (.ite (raise_within.mono.step failSilent_within) .refl) |>.trans (.ite (residentReact_within.mono.step State.modStrat_within) (residentReact_within.mono.step State.modInteg_within))))))) .refl) |>.trans (.ite placeRewrite_within.mono .refl)

theorem libraryRow_within {upset : List (Fin 2048)} {golden : ℕ} {s : State} :
    Within (.fab :: .lib :: .integ :: .que :: .seed :: events) s (libraryRow upset golden s) := by
  unfold libraryRow
  exact (Within.ite State.modInteg_within.mono .refl).trans (.ite ((Within.ite .refl State.modSlot_within.mono).trans (.ite loseGolden_within.mono (.ite .refl (State.modInteg_within.mono.step toSump_within)))) .refl) |>.trans (.ite (State.modInteg_within.mono.step raise_within) .refl)

theorem execScanRowRead_goes {resUpset : List (Fin 2048)} {libUpset : List (Fin 2048)} {resGolden : Fin 3} {libGolden : Fin 3} {selfTestOk : Bool} {s : State} :
    Goes s (execScanRowRead resUpset libUpset resGolden libGolden selfTestOk s) := by
  unfold execScanRowRead
  exact .ite (.done .refl) (.done ((Within.ite (raise_within.mono.step deviceFault_within) .refl).step residentRow_within |>.step libraryRow_within |>.step State.modInteg_within))

theorem execResidentLapOverrun_goes {micros : ℕ} {interruptions : BitVec 16} {s : State} :
    Goes s (execResidentLapOverrun micros interruptions s) := by
  unfold execResidentLapOverrun
  exact .ite (.done (State.modInteg_within.mono.step raise_within)) (.done .refl)

theorem suspectState_within {before : ImageWords} {c : ℕ} {k : ℕ} {s : State} :
    Within [.fab, .seed] s (suspectState before c k s) := by
  unfold suspectState
  exact State.fresh_within.mono.step State.fresh_within |>.step State.modChm_within

theorem rewriteFails_within {k : ℕ} {c : ℕ} {st : ℕ} {cause : ℕ} {s : State} :
    Within (.fab :: .lib :: .que :: .cry :: .gvl :: .twn :: events) s (rewriteFails k c st cause s) := by
  unfold rewriteFails
  exact State.modStrat_within.mono.trans (.ite lockNoDiag_within.mono quarantine_within.mono) |>.step raise_within |>.step endStream_within

theorem execFrameRewriteStart_goes {hardFail : Option (Fin 80)} {s : State} :
    Goes s (execFrameRewriteStart hardFail s) := by
  unfold execFrameRewriteStart
  dsimp only
  split
  · exact .ite (.done (State.modLib_within.mono.step useGolden_within |>.step toSump_within |>.step rewriteFails_within)) (.done (State.modLib_within.mono.step useGolden_within |>.trans (.forEach (fun _ _ => rewords_within.mono.step State.modStrat_within |>.trans (.ite suspectState_within.mono .refl))) |>.step State.modLib_within))
  · exact .done .refl

theorem execFrameRewriteReread_goes {c : ChamberId} {stratum : StratumId} {rereadOk : Bool} {s : State} :
    Goes s (execFrameRewriteReread c stratum rereadOk s) := by
  unfold execFrameRewriteReread
  dsimp only
  split
  · exact .done .refl
  · exact .ite (.done (State.modInteg_within.mono.step useGolden_within |>.step State.modStrat_within |>.step raise_within |>.step endStream_within)) (.done (State.modInteg_within.mono.step useGolden_within |>.step rewriteFails_within))

theorem releaseOne_within {c : ℕ} {s : State} :
    Within (.fab :: events) s (releaseOne c s) := by
  unfold releaseOne
  exact State.modChm_within.mono.trans (.ite .refl raise_within.mono)

theorem releaseFabric_within {micros : ℕ} {s : State} :
    Within (.fab :: .integ :: .cfg :: .pin :: events) s (releaseFabric micros s) := by
  unfold releaseFabric
  exact State.modFab_within.mono.step State.modPin_within |>.step State.modInteg_within |>.step State.modCfg_within |>.step raise_within

theorem loadAtEdges_within {b : State} {v : Nets} {clks : List ℕ} {c : ℕ} {s : State} :
    Within [.fab] s (loadAtEdges b v clks c s) := by
  unfold loadAtEdges
  exact .ite .refl (.forEach (fun _ _ => State.modChm_within.mono))

theorem compareDigests_within {b : State} {v : Nets} {n : ℕ} {s : State} :
    Within (.fab :: .lib :: .cry :: .gvl :: .twn :: events) s (compareDigests b v n s) := by
  unfold compareDigests
  dsimp only
  split
  · exact .refl
  · split
    · exact State.modCol_within.mono.trans (.ite .refl lockDetect_within.mono)
    · exact State.modCol_within.mono

theorem afterSwitch_within {b : State} {c : ℕ} {s : State} :
    Within (.cry :: .gvl :: .twn :: events) s (afterSwitch b c s) := by
  unfold afterSwitch
  exact .ite failSilent_within.mono .refl

theorem deviceActs_within {b : State} {v : Nets} {c : ℕ} {s : State} :
    Within (.fab :: events) s (deviceActs b v c s) := by
  unfold deviceActs
  exact (Within.ite .refl (State.modChm_within.mono.step latchFence_within)).trans (.ite .refl (State.modChm_within.mono.step holdChamber_within |>.trans (.ite markRefills_within.mono .refl))) |>.step State.modChm_within |>.trans (.forEach (fun _ _ => quarantineOne_within.mono.trans (.ite State.modCol_within.mono .refl)))

theorem haltSchedule_within {g : ℕ} {reason : ℕ} {due : Option ℕ} {s : State} :
    Within (.regs :: .fab :: events) s (haltSchedule g reason due s) := by
  unfold haltSchedule
  split
  · split
    · exact .refl
    · exact State.modChm_within.mono.step State.setRegF_within |>.step raise_within
  · exact stopSchedule_within.mono

theorem applySwitch_within {b : State} {v : Nets} {c : ℕ} {k : ℕ} {t : Bool} {rank : ℕ} {s : State} :
    Within (.fab :: .pin :: events) s (applySwitch b v c k t rank s) := by
  unfold applySwitch
  exact .forEach (fun _ _ => .ite State.modChm_within.mono switchTo_within.mono)

theorem applyOp_within {b : State} {v : Nets} {c : ℕ} {op : ℕ} {k : ℕ} {t : Bool} {rank : ℕ} {s : State} :
    Within (.fab :: .pin :: events) s (applyOp b v c op k t rank s) := by
  unfold applyOp
  split
  · exact applySwitch_within.mono
  · exact .forEach (fun _ _ => holdChamber_within.mono)
  · exact .forEach (fun _ _ => releaseChamber_within.mono)
  · exact .refl

theorem chamberActs_within {b : State} {v : Nets} {due : List Nat} {c : Nat} {s : State} :
    Within (.regs :: .fab :: .que :: .pin :: events) s (chamberActs b v due c s) := by
  have hdrop : ∀ (d : ChmCmd) (k : Nat) (w : State), Within (.regs :: .fab :: .que :: .pin :: events) w
      (endIssuer d.desc 0x0C k (raise 0x030A [c, k] (w.modChm c fun x => { x with cmd := none }))) :=
    fun _ _ _ => State.modChm_within.mono.step raise_within |>.step endIssuer_within
  have hhalt : ∀ (p : Prop) [Decidable p] (k : Nat) (e : Option Nat) (w : State),
      Within (.regs :: .fab :: .que :: .pin :: events) w (if p then haltSchedule c k e w else w) :=
    fun _ _ _ _ _ => .ite haltSchedule_within.mono .refl
  unfold chamberActs
  lift_lets
  intro ch ws fired entry t cmd
  have ht : Within (.regs :: .fab :: .que :: .pin :: events) s t := .ite State.modChm_within.mono .refl
  clear_value t cmd entry
  split
  next waiting u hu =>
  refine .trans (t := u) (ht.trans ?_) ?_
  · split at hu
    · split at hu
      all_goals
        obtain ⟨-, rfl⟩ := hu
      · exact hdrop _ _ _
      · exact .refl
    · obtain ⟨-, rfl⟩ := hu
      exact .refl
  · cases groupTakes b due c with
    | some g =>
      refine .trans ?_ ((hhalt _ _ _ _).step applyOp_within)
      cases waiting with
      | some d => exact hdrop _ _ _
      | none => exact .refl
    | none =>
      cases waiting with
      | some d => exact (hhalt _ _ _ _).step applyOp_within |>.step clearCmd_within
      | none =>
        refine .ite ((hhalt _ _ _ _).trans (.forEach fun _ _ => switchTo_within.mono)) ?_
        cases entry with
        | some e => exact entryCurrent_within.mono
        | none => exact .refl

theorem countWaits_within {b : State} {c : ℕ} {s : State} :
    Within [.fab] s (countWaits b c s) := by
  unfold countWaits
  exact .ite .refl State.modChm_within.mono

theorem edgeEnds_within {b : State} {c : ℕ} {s : State} :
    Within (.fab :: .cry :: .gvl :: .twn :: .pin :: events) s (edgeEnds b c s) := by
  unfold edgeEnds
  exact (Within.ite enterRun_within.mono .refl).step afterSwitch_within |>.step deliverParked_within

theorem trigFires_within {clks : List ℕ} {s : State} :
    Within (.fab :: .que :: events) s (trigFires clks s) := by
  unfold trigFires
  dsimp only
  refine .forEach (fun _ _ => ?_)
  split
  · exact .refl
  · split
    · refine .step ?_ State.modGrp_within
      split
      · exact endIssuer_within.mono
      · exact .refl
    · exact raise_within.mono

theorem groupsEnd_within {b : State} {due : List ℕ} {s : State} :
    Within (.fab :: .que :: events) s (groupsEnd b due s) := by
  unfold groupsEnd
  dsimp only
  refine .forEach (fun _ _ => ?_)
  split
  · exact .refl
  · exact (Within.forEach (fun _ _ => raise_within.mono)).step State.modGrp_within |>.trans (.ite endIssuer_within.mono endIssuer_within.mono)

theorem groupCounts_within {b : State} {v : Nets} {clks : List ℕ} {s : State} :
    Within (.fab :: events) s (groupCounts b v clks s) := by
  unfold groupCounts
  exact (Within.forEach (fun _ _ => State.modGrp_within.mono)).trans (.forEach (fun _ _ => .ite (.forEach (fun _ _ => .ite State.modGrp_within.mono raise_within.mono)) .refl))

theorem leaveUnreleased_within {b : State} {clks : List ℕ} {s : State} :
    Within (.fab :: events) s (leaveUnreleased b clks s) := by
  unfold leaveUnreleased
  exact .ite .refl ((Within.forEach (fun _ _ => releaseOne_within.mono)).step State.modFab_within)

theorem clockEdges_within {clks : List ℕ} {s : State} :
    Within (.regs :: .fab :: .lib :: .que :: .cry :: .gvl :: .twn :: .pin :: .seed :: events) s (clockEdges clks s) := by
  unfold clockEdges
  exact trigFires_within.mono.step settleKeepers_within |>.trans (.forEach (fun _ _ => loadAtEdges_within.mono)) |>.trans (.forEach (fun _ _ => edgeCounts_within.mono)) |>.trans (.forEach (fun _ _ => compareDigests_within.mono)) |>.trans (.forEach (fun _ _ => deviceActs_within.mono)) |>.trans (.forEach (fun _ _ => countWaits_within.mono)) |>.trans (.forEach (fun _ _ => chamberActs_within.mono)) |>.step groupsEnd_within |>.step groupCounts_within |>.trans (.forEach (fun _ _ => edgeEnds_within.mono)) |>.step leaveUnreleased_within |>.step watchShafts_within |>.step State.fresh_within

theorem bringEdge_within {g : ℕ} {s : State} :
    Within (.regs :: .fab :: .lib :: .que :: .cry :: .gvl :: .twn :: .pin :: .seed :: events) s (bringEdge g s) := by
  unfold bringEdge
  exact State.modFab_within.mono.step clockEdges_within

theorem holdChambers_within {cs : List ℕ} {hsrc : ℕ} {s : State} :
    Within (.regs :: .fab :: .lib :: .que :: .cry :: .gvl :: .twn :: .pin :: .seed :: events) s (holdChambers cs hsrc s) := by
  unfold holdChambers
  exact .ite ((Within.forEach (fun _ _ => State.modChm_within.mono)).trans (.forEach (fun _ _ => .ite .refl bringEdge_within.mono)) |>.trans (.forEach (fun _ _ => State.modChm_within.mono))) (settleKeepers_within.mono.trans (.forEach (fun _ _ => holdChamber_within.mono)) |>.step watchShafts_within)

theorem clockInputRises_within {k : ℕ} {s : State} :
    Within (.regs :: .fab :: .lib :: .que :: .cry :: .gvl :: .twn :: .pin :: .seed :: events) s (clockInputRises k s) := by
  unfold clockInputRises
  exact State.modFab_within.mono.trans (.ite .refl clockEdges_within.mono)

theorem State.modBond_within {s : State} {k : ℕ} {f : BondGroup → BondGroup} :
    Within [.fab] s (s.modBond k f) := by
  unfold State.modBond
  exact State.modFab_within.mono

theorem countError_within {layer : ℕ} {col : ℕ} {group : ℕ} {member : ℕ} {s : State} :
    Within [.fab] s (countError layer col group member s) := by
  unfold countError
  exact State.modBond_within.mono

theorem countSomeError_within {layers : List ℕ} {col : ℕ} {s : State} :
    Within [.fab, .seed] s (countSomeError layers col s) := by
  unfold countSomeError
  exact State.fresh_within.mono.step State.fresh_within |>.step State.fresh_within |>.step countError_within

theorem clearErrors_within {s : State} :
    Within [.fab] s (clearErrors s) := by
  unfold clearErrors
  exact State.modFab_within.mono

theorem retireColumn_within {p : ℕ} {group : ℕ} {s : State} :
    Within (.fab :: .cry :: .gvl :: .twn :: events) s (retireColumn p group s) := by
  unfold retireColumn
  exact .ite .refl (State.modFab_within.mono.step raise_within |>.trans (.ite failSilent_within.mono .refl))

theorem repairHold_within {c : ℕ} {s : State} :
    Within [.fab] s (repairHold c s) := by
  unfold repairHold
  exact .ite .refl State.modChm_within.mono

theorem execShaftParityFailure_goes {pcol : PhysId} {group : Fin 128} {s : State} :
    Goes s (execShaftParityFailure pcol group s) := by
  unfold execShaftParityFailure
  dsimp only
  split
  · exact .done .refl
  · split
    · exact .done (raise_within.mono.step deviceFault_within |>.step State.modBond_within)
    · exact .done (raise_within.mono.step deviceFault_within |>.step State.modBond_within |>.step repairHold_within |>.step repairHold_within)

theorem parityLost_within {pcol : ℕ} {group : ℕ} {s : State} :
    Within (.fab :: events) s (parityLost pcol group s) := by
  unfold parityLost
  exact .ite (State.modBond_within.mono.step raise_within) .refl

theorem execBondSweepDone_goes {pcol : PhysId} {group : Fin 128} {failed : List (Fin 34)} {s : State} :
    Goes s (execBondSweepDone pcol group failed s) := by
  unfold execBondSweepDone
  exact .ite (.done .refl) (.ite (.done (State.modBond_within.mono.step retireColumn_within)) (.done (State.modBond_within.mono.step raise_within |>.step parityLost_within)))

theorem execMemberFailed_goes {boundary : Fin 4} {pcol : Option PhysId} {group : Fin 256} {member : Fin 68} {errors : ℕ} {s : State} :
    Goes s (execMemberFailed boundary pcol group member errors s) := by
  unfold execMemberFailed
  exact .ite (.done .refl) (.ite (.done (State.modBond_within.mono.step raise_within)) (.ite (.done (State.modBond_within.mono.step raise_within |>.step retireColumn_within)) (.done ((Within.ite (State.modBond_within.mono.step raise_within |>.step State.modBond_within |>.step raise_within) (State.modBond_within.mono.step raise_within |>.step State.modBond_within)).step deviceFault_within))))

theorem execSpareShiftApply_goes {boundary : Fin 4} {pcol : Option PhysId} {group : Fin 256} {s : State} :
    Goes s (execSpareShiftApply boundary pcol group s) := by
  unfold execSpareShiftApply
  exact .done (.ite State.modBond_within.mono .refl)

theorem applyShifts_within {boundary : ℕ} {s : State} :
    Within [.fab] s (applyShifts boundary s) := by
  unfold applyShifts
  exact State.modFab_within.mono

theorem holdForMove_within {n : ℕ} {s : State} :
    Within (.regs :: .fab :: .lib :: .que :: .cry :: .gvl :: .twn :: .pin :: .seed :: events) s (holdForMove n s) := by
  unfold holdForMove
  exact dropRewrites_within.mono.step holdChambers_within |>.trans (.forEach (fun _ _ => State.modChm_within.mono))

theorem execRelocationDecision_goes {col : ColumnId} {s : State} :
    Goes s (execRelocationDecision col s) := by
  unfold execRelocationDecision
  exact .ite (.done .refl) (.done ((Within.ite (holdForMove_within.mono.step State.modCol_within |>.trans (.forEach (fun _ _ => libDevice_within.mono))) (holdForMove_within.mono.step State.modCol_within)).step relocNext_within |>.step settleHold_within))

theorem relocateStratum_within {n : ℕ} {c : ℕ} {k : ℕ} {s : State} :
    Within [.fab] s (relocateStratum n c k s) := by
  unfold relocateStratum
  exact .ite State.modStrat_within.mono (State.modStrat_within.mono.trans (.ite .refl State.modChm_within.mono))

theorem moveEnds_within {c : ℕ} {s : State} :
    Within (.fab :: .pin :: events) s (moveEnds c s) := by
  unfold moveEnds
  exact State.modChm_within.mono.trans (.ite (.ite latchFence_within.mono .refl) raise_within.mono) |>.step raise_within |>.step enterRun_within |>.step deliverParked_within

theorem execRelocationRelease_goes {col : ColumnId} {s : State} :
    Goes s (execRelocationRelease col s) := by
  unfold execRelocationRelease
  dsimp only
  split
  · exact .done .refl
  · refine .done ?_
    refine .step ?_ settleHold_within
    refine .trans ?_ (.forEach (fun _ _ => degradeSetup_within.mono))
    split
    · exact (Within.ite ((Within.ite (.forEach (fun _ _ => State.modChm_within.mono)) .refl).trans (.forEach (fun _ _ => relocateStratum_within.mono))) (.ite (.forEach (fun _ _ => State.modChm_within.mono)) .refl)).trans (.forEach (fun _ _ => moveEnds_within.mono)) |>.step watchShafts_within |>.step State.modCol_within |>.step raise_within
    · exact (Within.ite ((Within.ite (.forEach (fun _ _ => State.modChm_within.mono)) .refl).trans (.forEach (fun _ _ => relocateStratum_within.mono))) (.ite (.forEach (fun _ _ => State.modChm_within.mono)) .refl)).trans (.forEach (fun _ _ => moveEnds_within.mono)) |>.step watchShafts_within |>.step State.modCol_within

theorem execLockstepMismatch_goes {col : ColumnId} {classes : BitVec 3} {digA : Word} {digB : Word} {path : Option PathFault} {s : State} :
    Goes s (execLockstepMismatch col classes digA digB path s) := by
  unfold execLockstepMismatch
  dsimp only
  split
  · split
    · exact .done lockDetect_within.mono
    · exact .done (.ite (lockDetect_within.mono.step lockVerdict_within |>.step countSomeError_within) (lockDetect_within.mono.step lockVerdict_within))
  · exact .done .refl

theorem twinFell_within {b : ℕ} {s : State} :
    Within (.fab :: .cry :: .gvl :: .twn :: .pin :: events) s (twinFell b s) := by
  unfold twinFell
  exact .ite .refl (.ite partnerLost_within.mono (.ite raise_within.mono .refl))

theorem enterDetect_within {b : ℕ} {s : State} :
    Within [.gvl] s (enterDetect b s) := by
  unfold enterDetect
  exact laneReset_within.mono.step State.modBun_within

theorem moveStore_within {b : ℕ} {c : ℕ} {s : State} :
    Within [.gvl, .out] s (moveStore b c s) := by
  unfold moveStore
  exact State.modLink_within.mono.step State.modLink_within |>.step sendInit_within

theorem leaveUp_within {b : ℕ} {cause : ℕ} {s : State} :
    Within (.fab :: .cry :: .gvl :: .twn :: .pin :: events) s (leaveUp b cause s) := by
  unfold leaveUp
  dsimp only
  split
  · refine .step ?_ twinFell_within
    split
    · exact raise_within.mono.step linkDown_within |>.step enterDetect_within |>.step moveStore_within
    · exact raise_within.mono.step linkDown_within |>.step enterDetect_within
  · exact .refl

theorem askSleep_within {b : ℕ} {s : State} :
    Within [.gvl, .out] s (askSleep b s) := by
  unfold askSleep
  exact .ite (State.send_within.mono.step State.modBun_within) .refl

theorem enterSleep_within {b : ℕ} {s : State} :
    Within (.fab :: .cry :: .gvl :: .twn :: .pin :: events) s (enterSleep b s) := by
  unfold enterSleep
  exact linkDown_within.mono.step State.modBun_within |>.step raise_within |>.step twinFell_within

theorem leaveIdle_within {b : ℕ} {s : State} :
    Within [.gvl, .out] s (leaveIdle b s) := by
  unfold leaveIdle
  exact .ite (State.send_within.mono.step State.modBun_within |>.step pump_within) .refl

theorem enterIdle_within {b : ℕ} {s : State} :
    Within [.gvl, .out] s (enterIdle b s) := by
  unfold enterIdle
  exact .ite (State.send_within.mono.step State.modBun_within) .refl

theorem rxWake_within {b : ℕ} {s : State} :
    Within [.gvl] s (rxWake b s) := by
  unfold rxWake
  exact .ite State.modBun_within.mono .refl

theorem sendRetrain_within {b : ℕ} {mask : BitVec 8} {burst : ℕ} {s : State} :
    Within [.gvl, .out] s (sendRetrain b mask burst s) := by
  unfold sendRetrain
  exact leaveIdle_within.mono.step State.send_within |>.step State.modBun_within

theorem retrain_within {b : ℕ} {s : State} :
    Within (.fab :: .cry :: .gvl :: .twn :: .pin :: events) s (retrain b s) := by
  unfold retrain
  exact .ite leaveUp_within.mono (.ite enterDetect_within.mono .refl)

theorem enterTest_within {b : ℕ} {s : State} :
    Within (.fab :: .cry :: .gvl :: .twn :: .pin :: events) s (enterTest b s) := by
  unfold enterTest
  exact (Within.ite (linkDown_within.mono.step raise_within) .refl).step State.modBun_within |>.trans (.ite twinFell_within.mono .refl)

theorem ctrlWritten_within {b : ℕ} {old : Word} {new : Word} {s : State} :
    Within (.fab :: .cry :: .gvl :: .twn :: .pin :: events) s (ctrlWritten b old new s) := by
  unfold ctrlWritten
  exact .ite (bundleOff_within.mono.trans (.ite twinFell_within.mono .refl)) ((Within.ite (State.modLink_within.mono.step State.modBun_within |>.step enterDetect_within) .refl).trans (.ite enterTest_within.mono (.ite (State.modLink_within.mono.step enterDetect_within) .refl)) |>.trans (.ite retrain_within.mono .refl) |>.trans (.ite askSleep_within.mono .refl))

theorem testWritten_within {b : ℕ} {val : Word} {s : State} :
    Within [.gvl, .out] s (testWritten b val s) := by
  unfold testWritten
  exact (Within.ite State.send_within.mono .refl).trans (.ite State.modBun_within.mono .refl)

theorem execTrainingUp_goes {b : BundleId} {pbundle : Fin 8} {lanemap : BitVec 24} {inverted : BitVec 8} {micros : BitVec 16} {s : State} :
    Goes s (execTrainingUp b pbundle lanemap inverted micros s) := by
  unfold execTrainingUp
  exact .ite (.done (.ite ((Within.ite (State.modBun_within.mono.step raise_within |>.step raise_within) (State.modBun_within.mono.step raise_within)).step State.modLink_within |>.step sendInit_within |>.step startSession_within |>.step startSession_within |>.step askSleep_within) ((Within.ite (State.modBun_within.mono.step raise_within |>.step raise_within) (State.modBun_within.mono.step raise_within)).step State.modLink_within |>.step sendInit_within |>.step startSession_within |>.step startSession_within))) (.done .refl)

theorem execTrainingTimeout_goes {b : BundleId} {phase : Fin 6} {skew : Option (BitVec 8)} {s : State} :
    Goes s (execTrainingTimeout b phase skew s) := by
  have hskew : ∀ (u v : State), Within hardware u v → Within hardware u
      (match skew with
       | some k => if phase.val = 4 ∧ 8 < k.toNat then raise 0x0B08 [b, k.toNat] v else v
       | none => v) := by
    intro u v h
    split
    · exact .ite (h.step raise_within) h
    · exact h
  have htold : ∀ (p : Prop) [Decidable p] (e : Nat) (ps : List Nat) (u : State),
      Within hardware u (if p then raise e ps u else u) := fun _ _ _ _ _ => .ite raise_within.mono .refl
  unfold execTrainingTimeout
  exact .ite (.done ((hskew _ _ State.modBun_within.mono).trans (htold _ _ _ _) |>.trans (htold _ _ _ _))) (.done .refl)

theorem execBackoffEnd_goes {b : BundleId} {s : State} :
    Goes s (execBackoffEnd b s) := by
  unfold execBackoffEnd
  exact .done (.ite enterDetect_within.mono .refl)

theorem execBackoffClockDetect_goes {b : BundleId} {s : State} :
    Goes s (execBackoffClockDetect b s) := by
  unfold execBackoffClockDetect
  exact .done (.ite enterDetect_within.mono .refl)

theorem execBundleDown_goes {b : BundleId} {cause : DownCause} {s : State} :
    Goes s (execBundleDown b cause s) := by
  unfold execBundleDown
  exact .done leaveUp_within.mono

theorem execAdaptWindowEnd_goes {b : BundleId} {k : LaneId} {density : ℕ} {margin : BitVec 6} {badHeaders : ℕ} {taps : BitVec 30} {s : State} :
    Goes s (execAdaptWindowEnd b k density margin badHeaders taps s) := by
  unfold execAdaptWindowEnd
  exact .ite (.done (.ite ((Within.ite ((Within.ite (State.modLane_within.mono.step raise_within) State.modLane_within.mono).step raise_within) (.ite (State.modLane_within.mono.step raise_within) State.modLane_within.mono)).step sendRetrain_within) (.ite ((Within.ite (State.modLane_within.mono.step raise_within) State.modLane_within.mono).step raise_within) (.ite (State.modLane_within.mono.step raise_within) State.modLane_within.mono)))) (.done .refl)

theorem execLastGoodUpdate_goes {b : BundleId} {s : State} :
    Goes s (execLastGoodUpdate b s) := by
  unfold execLastGoodUpdate
  exact .done (.ite (.forEach (fun _ _ => State.modLane_within.mono)) .refl)

theorem execRetrainReceive_goes {b : BundleId} {_mask : BitVec 8} {s : State} :
    Goes s (execRetrainReceive b _mask s) := by
  unfold execRetrainReceive
  exact .done (.ite (rxWake_within.mono.step leaveIdle_within |>.step State.send_within) .refl)

theorem execRetrainBurstEnd_goes {b : BundleId} {margins : List (BitVec 6)} {s : State} :
    Goes s (execRetrainBurstEnd b margins s) := by
  unfold execRetrainBurstEnd
  exact .ite (.done (.ite ((Within.forEach (fun _ _ => State.modLane_within.mono)).step raise_within |>.step State.modBun_within) (.ite ((Within.forEach (fun _ _ => State.modLane_within.mono)).step raise_within |>.step sendRetrain_within) ((Within.forEach (fun _ _ => State.modLane_within.mono)).step raise_within |>.step leaveUp_within)))) (.done .refl)

theorem execMarkerSend_goes {b : BundleId} {bip : List Byte} {s : State} :
    Goes s (execMarkerSend b bip s) := by
  unfold execMarkerSend
  exact .ite (.done (State.send_within.mono.step State.modBun_within)) (.done .refl)

theorem execMarkerReceive_goes {b : BundleId} {k : LaneId} {bundle : Fin 8} {lane : Fin 8} {seq : Byte} {bip : Byte} {own : Byte} {s : State} :
    Goes s (execMarkerReceive b k bundle lane seq bip own s) := by
  unfold execMarkerReceive
  exact .ite (.ite (.done (rxWake_within.mono.step leaveUp_within)) (.done (rxWake_within.mono.step State.modLane_within))) (.done .refl)

theorem execEidleEnter_goes {b : BundleId} {s : State} :
    Goes s (execEidleEnter b s) := by
  unfold execEidleEnter
  exact .done (.ite enterIdle_within.mono .refl)

theorem execEidleReceive_goes {b : BundleId} {s : State} :
    Goes s (execEidleReceive b s) := by
  unfold execEidleReceive
  exact .done (.ite State.modBun_within.mono .refl)

theorem execEidleExit_goes {b : BundleId} {s : State} :
    Goes s (execEidleExit b s) := by
  unfold execEidleExit
  exact .done (.ite leaveIdle_within.mono .refl)

theorem execSleepReceive_goes {b : BundleId} {s : State} :
    Goes s (execSleepReceive b s) := by
  unfold execSleepReceive
  exact .done (.ite (State.send_within.mono.step enterSleep_within) .refl)

theorem execSleepAckReceive_goes {b : BundleId} {s : State} :
    Goes s (execSleepAckReceive b s) := by
  unfold execSleepAckReceive
  exact .done (.ite enterSleep_within.mono .refl)

theorem execSleepAckTimeout_goes {b : BundleId} {s : State} :
    Goes s (execSleepAckTimeout b s) := by
  unfold execSleepAckTimeout
  exact .done (.ite leaveUp_within.mono .refl)

theorem execBeaconSend_goes {b : BundleId} {s : State} :
    Goes s (execBeaconSend b s) := by
  unfold execBeaconSend
  exact .done (.ite (State.send_within.mono.step State.modBun_within) .refl)

theorem execBeaconDetect_goes {b : BundleId} {s : State} :
    Goes s (execBeaconDetect b s) := by
  unfold execBeaconDetect
  exact .done (.ite State.modBun_within.mono .refl)

theorem execCheckerSyncChange_goes {b : BundleId} {k : LaneId} {inSync : Bool} {bits : ℕ} {errs : ℕ} {s : State} :
    Goes s (execCheckerSyncChange b k inSync bits errs s) := by
  unfold execCheckerSyncChange
  exact .ite (.done (.ite ((Within.ite (State.modLane_within.mono.step raise_within) State.modLane_within.mono).step raise_within) (.ite (State.modLane_within.mono.step raise_within) State.modLane_within.mono))) (.done .refl)

theorem execTestCounterSaturated_goes {b : BundleId} {k : LaneId} {err : Bool} {s : State} :
    Goes s (execTestCounterSaturated b k err s) := by
  unfold execTestCounterSaturated
  exact .ite (.done (State.modLane_within.mono.step raise_within)) (.done .refl)

theorem sendTo_within {dst : ℕ} {flits : List (List Byte)} {s : State} :
    Within [.gvl, .out] s (sendTo dst flits s) := by
  unfold sendTo
  split
  · exact enqueue_within.mono
  · exact .refl

theorem sendRsp_within {dst : ℕ} {rid : ℕ} {status : ℕ} {poison : BitVec 8} {data : Option (BitVec 512)} {s : State} :
    Within [.gvl, .out] s (sendRsp dst rid status poison data s) := by
  unfold sendRsp
  exact sendTo_within.mono

theorem routeDiscard_within {m : List (List Byte)} {s : State} :
    Within (.gvl :: events) s (routeDiscard m s) := by
  unfold routeDiscard
  exact .ite sendRsp_within.mono (.ite raise_within.mono .refl)

theorem takeAddress_within {addr : ℕ} {s : State} :
    Within (.gvl :: .net :: events) s (takeAddress addr s) := by
  unfold takeAddress
  exact State.modNet_within.mono.step raise_within |>.trans (.forEach (fun _ _ => .ite sendMgmt_within.mono raise_within.mono))

theorem censusMoves_within {s : State} :
    Within (.gvl :: .net :: events) s (censusMoves s) := by
  unfold censusMoves
  dsimp only
  split
  · split
    · exact takeAddress_within.mono
    · split
      · exact State.modNet_within.mono.step sendMgmt_within
      · exact .refl
  · exact .refl

theorem askChildren_within {depth : ℕ} {except_ : Option ℕ} {s : State} :
    Within [.gvl, .net, .out] s (askChildren depth except_ s) := by
  unfold askChildren
  exact .forEach (fun _ _ => State.modNet_within.mono.step sendMgmt_within)

theorem takeAdopt_within {b : ℕ} {yes : Bool} {s : State} :
    Within (.gvl :: .net :: events) s (takeAdopt b yes s) := by
  unfold takeAdopt
  exact State.modNet_within.mono.step State.modLink_within |>.step censusMoves_within

theorem takeNonce_within {b : ℕ} {dir : ℕ} {nonce : BitVec 128} {s : State} :
    Within (.cry :: .gvl :: .seed :: events) s (takeNonce b dir nonce s) := by
  unfold takeNonce
  exact .ite .refl ((Within.ite (State.modSess_within.mono.step raise_within |>.step startSession_within) .refl).step State.modSess_within)

theorem deliverMsg_within {b : ℕ} {m : List (List Byte)} {s : State} :
    Within (.gvl :: .net :: events) s (deliverMsg b m s) := by
  unfold deliverMsg
  dsimp only
  split
  · exact .ite (takeAdopt_within.mono.step takeMsg_within) (.ite .refl takeMsg_within.mono)
  · split
    · exact .ite takeMsg_within.mono .refl
    · split
      · exact .refl
      · split
        · exact routeDiscard_within.mono.step takeMsg_within
        · split
          · exact routeDiscard_within.mono.step takeMsg_within
          · exact takeMsg_within.mono.step enqueue_within

theorem placeFlit_within {b : ℕ} {f : List Byte} {s : State} :
    Within (.gvl :: .net :: events) s (placeFlit b f s) := by
  unfold placeFlit
  exact .ite (State.modLink_within.mono.step freeCredits_within |>.step raise_within) (State.modLink_within.mono.trans (.ite .refl deliverMsg_within.mono))

theorem acceptFlit_within {b : ℕ} {f : List Byte} {s : State} :
    Within (.gvl :: .net :: events) s (acceptFlit b f s) := by
  unfold acceptFlit
  exact .ite (.ite sendTwin_within.mono .refl) placeFlit_within.mono

theorem sendNak_within {b : ℕ} {s : State} :
    Within [.gvl, .out] s (sendNak b s) := by
  unfold sendNak
  exact .ite .refl (State.modLink_within.mono.step sendLctl_within)

theorem restartSession_within {b : ℕ} {rx : Bool} {reason : ℕ} {s : State} :
    Within (.cry :: .gvl :: .seed :: events) s (restartSession b rx reason s) := by
  unfold restartSession
  exact State.modSess_within.mono.step raise_within |>.step startSession_within

theorem sessionKeyFails_within {b : ℕ} {rx : Bool} {s : State} :
    Within (.cry :: .gvl :: .seed :: events) s (sessionKeyFails b rx s) := by
  unfold sessionKeyFails
  exact spoilKey_within.mono.step useKey_within |>.step startSession_within

theorem gcmFault_within {b : ℕ} {s : State} :
    Within (.fab :: .cry :: .gvl :: .twn :: .lys :: events) s (gcmFault b s) := by
  unfold gcmFault
  exact State.modCry_within.mono.step raise_within |>.step deviceFault_within

theorem closeRecord_within {b : ℕ} {tagFlit : List Byte} {engine : TagResult} {s : State} :
    Within (.fab :: .cry :: .gvl :: .net :: .twn :: .lys :: .seed :: events) s (closeRecord b tagFlit engine s) := by
  unfold closeRecord
  exact .ite (dropRecord_within.mono.step State.modLink_within |>.step sendNak_within |>.step restartSession_within) (.ite (dropRecord_within.mono.step State.modLink_within |>.step sendNak_within |>.step sessionKeyFails_within) (.ite (gcmFault_within.mono.step dropRecord_within |>.step State.modLink_within |>.step sendNak_within) (.ite (State.modLink_within.mono.step State.modSess_within |>.trans (.forEach (fun _ _ => acceptFlit_within.mono))) (State.modCry_within.mono.step State.modSess_within |>.step raise_within |>.step dropRecord_within |>.step State.modLink_within |>.step sendNak_within |>.trans (.ite restartSession_within.mono .refl)))))

theorem sendSealed_within {b : ℕ} {flits : List (List Byte)} {s : State} :
    Within (.fab :: .cry :: .gvl :: .twn :: .lys :: events) s (sendSealed b flits s) := by
  unfold sendSealed
  exact .ite (gcmFault_within.mono.trans (.ite sendWire_within.mono .refl)) sendWire_within.mono

theorem resendFrom_within {b : ℕ} {seq : ℕ} {s : State} :
    Within (.fab :: .cry :: .gvl :: .twn :: .lys :: events) s (resendFrom b seq s) := by
  unfold resendFrom
  exact State.modLink_within.mono.trans (.ite sendSealed_within.mono .refl)

theorem resendOr_within {b : ℕ} {seq : ℕ} {s : State} :
    Within (.fab :: .cry :: .gvl :: .twn :: .lys :: .pin :: events) s (resendOr b seq s) := by
  unfold resendOr
  exact .ite .refl (.ite (State.modLink_within.mono.step raise_within |>.step retrain_within) resendFrom_within.mono)

theorem takeNak_within {b : ℕ} {seq : ℕ} {s : State} :
    Within (.fab :: .cry :: .gvl :: .twn :: .lys :: .pin :: events) s (takeNak b seq s) := by
  unfold takeNak
  exact takeAck_within.mono.step resendOr_within |>.step pump_within

theorem takeInit_within {b : ℕ} {expected : ℕ} {freed : List ℕ} {uid : BitVec 64} {fresh : Bool} {pair : Bool} {active : Bool} {s : State} :
    Within (.fab :: .cry :: .gvl :: .twn :: .lys :: events) s (takeInit b expected freed uid fresh pair active s) := by
  unfold takeInit
  exact .ite .refl (.ite sendInit_within.mono (State.modLink_within.mono.trans (.ite (takeFreed_within.mono.step takeAck_within |>.step raise_within |>.trans (.ite .refl resendFrom_within.mono) |>.step pump_within) (raise_within.mono.step State.modLink_within |>.step pump_within))))

theorem takeLctl_within {b : ℕ} {f : List Byte} {s : State} :
    Within (.fab :: .cry :: .gvl :: .twn :: .lys :: .pin :: events) s (takeLctl b f s) := by
  unfold takeLctl
  exact .ite takeInit_within.mono (takeAck_within.mono.step takeFreed_within |>.trans (.ite takeNak_within.mono pump_within.mono))

theorem takeFlit_within {b : BundleId} {bytes : FlitBytes} {tag : TagResult} {s : State} :
    Within (.fab :: .cry :: .gvl :: .net :: .twn :: .lys :: .pin :: .seed :: events) s (takeFlit b bytes tag s) := by
  unfold takeFlit
  exact .ite .refl (rxWake_within.mono.trans (.ite State.modLink_within.mono (.ite takeLctl_within.mono (.ite .refl (takeAck_within.mono.trans (.ite takeNonce_within.mono .refl) |>.trans (.ite (.ite closeRecord_within.mono (.ite State.modLink_within.mono (State.modLink_within.mono.step acceptFlit_within))) (.ite .refl sendNak_within.mono)) |>.step pump_within)))))

theorem execNakReceive_goes {b : BundleId} {seq : BitVec 12} {s : State} :
    Goes s (execNakReceive b seq s) := by
  unfold execNakReceive
  exact .done (.ite takeNak_within.mono .refl)

theorem execReplayTimeout_goes {b : BundleId} {s : State} :
    Goes s (execReplayTimeout b s) := by
  unfold execReplayTimeout
  exact .done (.ite resendOr_within.mono .refl)

theorem execInitResend_goes {b : BundleId} {s : State} :
    Goes s (execInitResend b s) := by
  unfold execInitResend
  exact .done (.ite sendInit_within.mono .refl)

theorem execInitReceive_goes {b : BundleId} {expected : BitVec 12} {freed : List (BitVec 12)} {uid : BitVec 64} {fresh : Bool} {pair : Bool} {active : Bool} {s : State} :
    Goes s (execInitReceive b expected freed uid fresh pair active s) := by
  unfold execInitReceive
  exact .done takeInit_within.mono

theorem execLctlCreditSend_goes {b : BundleId} {s : State} :
    Goes s (execLctlCreditSend b s) := by
  unfold execLctlCreditSend
  exact .done (.ite sendLctl_within.mono .refl)

theorem execCensusStart_goes {b : BundleId} {s : State} :
    Goes s (execCensusStart b s) := by
  unfold execCensusStart
  exact .done (.ite (State.modNet_within.mono.step askChildren_within) .refl)

theorem execCensusReceive_goes {b : BundleId} {depth : Fin 4} {uid : BitVec 64} {s : State} :
    Goes s (execCensusReceive b depth uid s) := by
  unfold execCensusReceive
  exact .ite (.done .refl) (.done (.ite (.ite (takeMsg_within.mono.step State.modNet_within) (takeMsg_within.mono.step sendMgmt_within)) takeMsg_within.mono))

theorem execCensusCollectEnd_goes {s : State} :
    Goes s (execCensusCollectEnd s) := by
  unfold execCensusCollectEnd
  dsimp only
  split
  · exact .done .refl
  · split
    · exact .done (State.modNet_within.mono.trans (.forEach (fun _ _ => sendMgmt_within.mono)) |>.step State.modNet_within |>.step raise_within)
    · exact .done (State.modNet_within.mono.step State.modNet_within |>.step State.modLink_within |>.trans (.forEach (fun _ _ => sendMgmt_within.mono)) |>.step askChildren_within |>.step censusMoves_within)

theorem takeReport_within {b : BundleId} {size : ℕ} {depth : ℕ} {s : State} :
    Within (.gvl :: .net :: events) s (takeReport b size depth s) := by
  unfold takeReport
  exact .ite .refl (takeMsg_within.mono.step State.modNet_within |>.step censusMoves_within)

theorem censusEnds_within {s : State} :
    Within (.gvl :: .net :: events) s (censusEnds s) := by
  unfold censusEnds
  exact .ite .refl (.ite ((Within.forEach (fun _ _ => raise_within.mono)).step State.modNet_within |>.step takeAddress_within) (State.modNet_within.mono.step raise_within))

theorem execAssignReceive_goes {b : BundleId} {base : Fin 64} {_parent : Fin 64} {s : State} :
    Goes s (execAssignReceive b base _parent s) := by
  unfold execAssignReceive
  exact .ite (.done .refl) (.done (.ite (takeMsg_within.mono.step takeAddress_within) takeMsg_within.mono))

theorem flood_within {i : NodeInfo} {except_ : Option ℕ} {s : State} :
    Within [.gvl, .out] s (flood i except_ s) := by
  unfold flood
  exact .forEach (fun _ _ => sendMgmt_within.mono)

theorem announce_within {s : State} :
    Within [.gvl, .net, .out] s (announce s) := by
  unfold announce
  exact State.modNet_within.mono.step State.modNet_within |>.step flood_within

theorem execDiscoveryStart_goes {s : State} :
    Goes s (execDiscoveryStart s) := by
  unfold execDiscoveryStart
  exact .done (.ite (State.modNet_within.mono.step announce_within) .refl)

theorem execNodeinfoReceive_goes {b : BundleId} {info : NodeInfo} {s : State} :
    Goes s (execNodeinfoReceive b info s) := by
  unfold execNodeinfoReceive
  exact .ite (.done .refl) (.done (.ite (takeMsg_within.mono.step State.modNet_within |>.step flood_within) takeMsg_within.mono))

theorem execDiscoverySettle_goes {s : State} :
    Goes s (execDiscoverySettle s) := by
  unfold execDiscoverySettle
  exact .ite (.done .refl) (.done (.ite ((Within.ite (State.modNet_within.mono.step raise_within) State.modNet_within.mono).trans (.forEach (fun _ _ => .ite raise_within.mono .refl)) |>.step announce_within) ((Within.ite (State.modNet_within.mono.step raise_within) State.modNet_within.mono).trans (.forEach (fun _ _ => .ite raise_within.mono .refl)))))

theorem execSessionEstablish_goes {b : BundleId} {transmit : Bool} {s : State} :
    Goes s (execSessionEstablish b transmit s) := by
  unfold execSessionEstablish
  dsimp only
  split
  · exact .ite (.ite (.done (useKey_within.mono.step startSession_within)) (.done ((Within.ite (useKey_within.mono.step State.modSess_within |>.step State.modCry_within |>.step State.modLink_within) (.ite (useKey_within.mono.step State.modSess_within |>.step State.modCry_within) (useKey_within.mono.step State.modSess_within |>.step State.modCry_within |>.step dropRecord_within |>.step State.modLink_within |>.step sendNak_within))).step pump_within))) (.done .refl)
  · exact .done .refl

theorem execRecordSend_goes {b : BundleId} {aesFault : Bool} {keyError : Bool} {s : State} :
    Goes s (execRecordSend b aesFault keyError s) := by
  unfold execRecordSend
  exact .ite (.done .refl) (.ite (.done sessionKeyFails_within.mono) (.ite (.done restartSession_within.mono) (.done (State.modLink_within.mono.trans (.forEach (fun _ _ => bufferFlit_within.mono)) |>.step State.modSess_within |>.step State.modCry_within |>.step sendSealed_within))))

theorem logColumn_within {bank : ℕ} {col : ℕ} {s : State} :
    Within [.grt] s (logColumn bank col s) := by
  unfold logColumn
  exact State.modBank_within.mono

theorem logWord_within {w : ℕ} {s : State} :
    Within [.grt] s (logWord w s) := by
  unfold logWord
  exact .forEach (fun _ _ => logColumn_within.mono)

theorem queueRewrite_within {w : ℕ} {data : BitVec 64} {poison : Bool} {s : State} :
    Within [.grt] s (queueRewrite w data poison s) := by
  unfold queueRewrite
  exact State.modBank_within.mono

theorem readWord_within {src w : Nat} {bad : Bool} {s : State} :
    Within (.grt :: events) s (readWord src w bad s).2 := by
  unfold readWord
  refine .ite_snd (.pair_snd ((State.modGrt_within).mono.step raise_within)) ?_
  dsimp only
  split
  · exact .refl
  · exact .pair_snd ((State.modGrt_within).mono.step logWord_within |>.step queueRewrite_within)
  · exact .pair_snd ((State.modGrt_within).mono.step raise_within |>.step logWord_within |>.step queueRewrite_within)
  · exact .pair_snd ((State.modGrt_within).mono.step raise_within |>.step queueRewrite_within)

theorem performRewrite_within {r : Rewrite} {s : State} :
    Within [.grt] s (performRewrite r s) := by
  unfold performRewrite
  exact putWord_within.mono.step State.modBank_within

theorem rewriteNow_within {w : ℕ} {s : State} :
    Within [.grt] s (rewriteNow w s) := by
  unfold rewriteNow
  split
  · exact performRewrite_within.mono
  · exact .refl

theorem storeWord_within {w : Nat} {d : BitVec 64} {p : Bool} {s : State} :
    Within [.regs, .grt] s (storeWord w d p s) := by
  unfold storeWord
  exact putWord_within.mono.step State.modBank_within |>.trans
    (.ite (State.setReg_within.mono.step (State.modGrt_errs_within fun h => tabWf_tabSet 0 _ _ _ h)) .refl)

theorem writeWord_within {op : ℕ} {w : ℕ} {be : BitVec 8} {d : BitVec 64} {p : Bool} {bad : Bool} {s : State} :
    Within (.regs :: .grt :: events) s (writeWord op w be d p bad s) := by
  unfold writeWord
  exact .ite .refl (.ite storeWord_within.mono (.ite readWord_within.mono (readWord_within.mono.step storeWord_within)))

theorem countOff_within {bank : ℕ} {s : State} :
    Within [.grt] s (countOff bank s) := by
  unfold countOff
  exact (State.modGrt_within).mono

theorem accessLine_within {op l : Nat} {be : BitVec 64} {data : BitVec 512} {poison addrErr : BitVec 8} {src : Nat}
    {s : State} : Within (.regs :: .grt :: events) s (accessLine op l be data poison addrErr src s).2 := by
  have hread : Within (.regs :: .grt :: events) s ((List.range 8).foldl (fun (acc : List (BitVec 64 × Bool) × State) i =>
      let ((d, p, _), s') := readWord src (8 * l + i) (bit addrErr i) acc.2
      (acc.1 ++ [(d, p)], s')) ([], s)).2 := by
    refine Within.foldl_snd (fun _ _ => ?_) _
    exact readWord_within.mono
  unfold accessLine
  exact .ite_snd countOff_within.mono (.ite_snd hread (.pair_snd (.forEach fun _ _ => writeWord_within.mono)))

theorem clearBank_within {i : Nat} {s : State} : Within [.grt] s (clearBank i s) := by
  unfold clearBank
  exact (State.modGrt_filter_within).mono.step State.modBank_within

theorem endBankFill_within {i : ℕ} {s : State} :
    Within [.grt] s (endBankFill i s) := by
  unfold endBankFill
  exact .ite State.modBank_within.mono .refl

theorem answerRead_within {a : BankAcc} {data : BitVec 512} {poison : BitVec 8} {off : Bool} {s : State} :
    Within [.fab] s (answerRead a data poison off s) := by
  unfold answerRead
  exact State.modChm_within.mono

theorem performNext_within {i : ℕ} {addrErr : BitVec 8} {s : State} :
    Within (.regs :: .fab :: .grt :: events) s (performNext i addrErr s) := by
  unfold performNext
  dsimp only
  split
  · exact .refl
  · exact State.modBank_within.mono.trans (.ite (accessLine_within.mono.step answerRead_within) accessLine_within.mono) |>.step State.modBank_within

theorem performWith_within {bad : List ℕ} {i : ℕ} {s : State} :
    Within (.regs :: .fab :: .grt :: events) s (performWith bad i s) := by
  unfold performWith
  split
  · exact .refl
  · exact performNext_within.mono

theorem drainBank_within {bad : List ℕ} {i : ℕ} {s : State} :
    Within (.regs :: .fab :: .grt :: events) s (drainBank bad i s) := by
  unfold drainBank
  exact .forEach (fun _ _ => performWith_within.mono)

theorem setBankMode_within {i : ℕ} {m : ℕ} {s : State} :
    Within (.regs :: .fab :: .grt :: events) s (setBankMode i m s) := by
  unfold setBankMode
  exact .ite (.ite .refl State.modBank_within.mono) (.ite (drainBank_within.mono.step State.modBank_within |>.step clearBank_within) (.ite .refl State.modBank_within.mono))

theorem serveAhead_within {bad : List ℕ} {i : ℕ} {s : State} :
    Within (.regs :: .fab :: .grt :: events) s (serveAhead bad i s) := by
  unfold serveAhead
  exact .forEach (fun _ _ => .ite .refl performWith_within.mono)

theorem sideAccess_within {op : ℕ} {l : ℕ} {be : BitVec 64} {data : BitVec 512} {poison : BitVec 8} {bad : List ℕ} {s : State} :
    Within (.regs :: .fab :: .grt :: events) s (sideAccess op l be data poison bad s).2 := by
  unfold sideAccess
  exact .pair_snd (endBankFill_within.mono.step serveAhead_within |>.step accessLine_within |>.step State.modBank_within)

theorem countPoison_within {receiver : ℕ} {p : BitVec 8} {s : State} :
    Within [.grt] s (countPoison receiver p s) := by
  unfold countPoison
  exact .ite .refl (State.modGrt_within).mono

theorem sideRead_within {receiver : ℕ} {l : ℕ} {cover : BitVec 8} {bad : List ℕ} {s : State} :
    Within (.regs :: .fab :: .grt :: events) s (sideRead receiver l cover bad s).2 := by
  unfold sideRead
  exact .pair_snd (.ite sideAccess_within.mono (sideAccess_within.mono.step countPoison_within))

theorem sideWrite_within {op : ℕ} {off : ℕ} {bytes : List (Option Byte)} {poison : ℕ → Bool} {bad : List ℕ} {s : State} :
    Within (.regs :: .fab :: .grt :: events) s (sideWrite op off bytes poison bad s) := by
  unfold sideWrite
  exact .ite .refl (.forEach (fun _ _ => sideAccess_within.mono))

theorem sideBytes_within {receiver start off n : Nat} {bad : List Nat} {s : State} :
    Within (.regs :: .fab :: .grt :: events) s (sideBytes receiver start off n bad s).2 := by
  unfold sideBytes
  refine .ite_snd .refl ?_
  refine Within.foldl_snd (fun _ _ => ?_) _
  exact sideRead_within.mono

theorem portRequest_within {c : ℕ} {op : ℕ} {l : ℕ} {be : BitVec 64} {data : BitVec 512} {poison : BitVec 8} {s : State} :
    Within [.fab, .grt, .out] s (portRequest c op l be data poison s) := by
  unfold portRequest
  exact .ite .refl (.ite State.send_within.mono (.ite .refl (.ite .refl (.ite .refl (State.modBank_within.mono.trans (.ite State.modChm_within.mono .refl))))))

theorem execGrottoRead_goes {c : ChamberId} {line : BitVec 21} {s : State} :
    Goes s (execGrottoRead c line s) := by
  unfold execGrottoRead
  exact .done portRequest_within.mono

theorem execGrottoWrite_goes {c : ChamberId} {line : BitVec 21} {be : BitVec 64} {data : BitVec 512} {poison : BitVec 8} {s : State} :
    Goes s (execGrottoWrite c line be data poison s) := by
  unfold execGrottoWrite
  exact .done portRequest_within.mono

theorem execGrottoBitset_goes {c : ChamberId} {line : BitVec 21} {be : BitVec 64} {data : BitVec 512} {s : State} :
    Goes s (execGrottoBitset c line be data s) := by
  unfold execGrottoBitset
  exact .done portRequest_within.mono

theorem execGrottoBitclr_goes {c : ChamberId} {line : BitVec 21} {be : BitVec 64} {data : BitVec 512} {s : State} :
    Goes s (execGrottoBitclr c line be data s) := by
  unfold execGrottoBitclr
  exact .done portRequest_within.mono

theorem execBankAccess_goes {bank : BankId} {addrErr : BitVec 8} {s : State} :
    Goes s (execBankAccess bank addrErr s) := by
  unfold execBankAccess
  exact .done (.ite .refl performNext_within.mono)

theorem execPortResponseArrive_goes {c : ChamberId} {s : State} :
    Goes s (execPortResponseArrive c s) := by
  unfold execPortResponseArrive
  dsimp only
  split
  · exact .done ((Within.ite State.modChm_within.mono (State.modChm_within.mono.step countPoison_within)).trans (.forEach (fun _ _ => .ite State.send_within.mono State.modStrat_within.mono)))
  · exact .done .refl

theorem execCorrectedRewrite_goes {bank : BankId} {s : State} :
    Goes s (execCorrectedRewrite bank s) := by
  unfold execCorrectedRewrite
  split
  · exact .done performRewrite_within.mono
  · exact .done .refl

theorem endDeviceLap_within {s : State} :
    Within [.grt] s (endDeviceLap s) := by
  unfold endDeviceLap
  exact .ite ((State.modGrt_within).mono.trans (.forEach (fun _ _ => State.modBank_within.mono))) .refl

theorem endBankLap_within {bank : ℕ} {micros : ℕ} {slots : ℕ} {s : State} :
    Within [.grt] s (endBankLap bank micros slots s) := by
  unfold endBankLap
  exact State.modBank_within.mono.step endDeviceLap_within

theorem execScrubSlotOpen_goes {bank : BankId} {micros : ℕ} {s : State} :
    Goes s (execScrubSlotOpen bank micros s) := by
  unfold execScrubSlotOpen
  exact .ite (.done ((Within.ite endBankLap_within.mono .refl).step State.modBank_within)) (.done .refl)

theorem execScrubRead_goes {bank : BankId} {micros : ℕ} {addrErr : BitVec 8} {s : State} :
    Goes s (execScrubRead bank micros addrErr s) := by
  unfold execScrubRead
  exact .ite (.ite (.done ((Within.forEach (fun _ _ => readWord_within.mono)).step State.modBank_within)) (.ite (.done ((Within.forEach (fun _ _ => readWord_within.mono)).step State.modBank_within |>.step endBankLap_within)) (.done ((Within.forEach (fun _ _ => readWord_within.mono)).step State.modBank_within |>.step State.modBank_within)))) (.done .refl)

theorem execScrubStarvation_goes {bank : BankId} {s : State} : Goes s (execScrubStarvation bank s) := by
  have hstarved : Within [.grt] s
      (s.modGrt fun g => if g.starved then g else { g with starved := true, starvAt := bank }) :=
    State.modGrt_within (fun g => by split <;> rfl) (fun g => by split <;> rfl) (fun g => by split <;> rfl)
  unfold execScrubStarvation
  exact .ite (.done (hstarved.mono.step State.modBank_within |>.step raise_within)) (.done .refl)

theorem takeModes_within {s : State} :
    Within [.grt] s (takeModes s) := by
  unfold takeModes
  exact (Within.forEach (fun _ _ => .forEach (fun _ _ => State.modBank_within.mono))).step endDeviceLap_within

theorem endFill_within {cause : ℕ} {micros : ℕ} {s : State} :
    Within (.grt :: events) s (endFill cause micros s) := by
  unfold endFill
  exact (State.modGrt_within).mono.step takeModes_within |>.step raise_within

theorem execPclkChange_goes {col : ColumnId} {s : State} :
    Goes s (execPclkChange col s) := by
  unfold execPclkChange
  exact .done (.ite State.modCol_within.mono .refl)

theorem execSoftRepair_goes {bank : BankId} {s : State} : Goes s (execSoftRepair bank s) := by
  have hbooks : ∀ (u : State) (l : List (Nat × Nat × Nat × Nat)) (cells : List (Nat × Nat)),
      Within hardware u (u.modGrt fun g => { g with
        unrecorded := g.unrecorded ++ l,
        errs := cells.foldl (fun t (l, p) => tabMod 0 t (8 * l + p / 80) fun e => putBit e (p % 80) true) g.errs }) :=
    fun u _ _ => (State.modGrt_errs_within fun h =>
      List.foldlRecOn (motive := fun t => tabWf 0 t = true) _ _ h fun _ ht _ _ => tabWf_tabMod 0 _ _ _ ht).mono
  unfold execSoftRepair
  dsimp only
  split
  · exact .done .refl
  · exact .ite (.done (State.modBank_within.mono.trans (hbooks _ _ _) |>.step raise_within))
      (.done (State.modBank_within.mono.step raise_within))

theorem execRepairRewrite_goes {bank : BankId} {addrErr : BitVec 8} {s : State} :
    Goes s (execRepairRewrite bank addrErr s) := by
  unfold execRepairRewrite
  dsimp only
  split
  · exact .done (State.modBank_within.mono.trans (.forEach (fun _ _ => .ite readWord_within.mono (readWord_within.mono.step rewriteNow_within))))
  · exact .done .refl

theorem execBankAutoDrowsy_goes {bank : BankId} {s : State} :
    Goes s (execBankAutoDrowsy bank s) := by
  unfold execBankAutoDrowsy
  exact .done (.ite State.modBank_within.mono .refl)

theorem execBankPowerOff_goes {bank : BankId} {addrErr : List ℕ} {s : State} :
    Goes s (execBankPowerOff bank addrErr s) := by
  unfold execBankPowerOff
  exact .done (.ite (drainBank_within.mono.step clearBank_within |>.trans (.ite (State.modBank_within.mono.step endDeviceLap_within) State.modBank_within.mono)) .refl)

theorem execBankFillDone_goes {bank : BankId} {s : State} :
    Goes s (execBankFillDone bank s) := by
  unfold execBankFillDone
  exact .done endBankFill_within.mono

theorem setModes_within {n : ℕ} {modes : ℕ} {s : State} :
    Within (.regs :: .fab :: .grt :: events) s (setModes n modes s) := by
  unfold setModes
  exact State.setRegF_within.mono.trans (.forEach (fun _ _ => .ite .refl setBankMode_within.mono))

theorem grtGrpWrite_within {n : ℕ} {val : Word} {s : State} :
    Within (.regs :: .fab :: .grt :: events) s (grtGrpWrite n val s) := by
  unfold grtGrpWrite
  exact State.setRegF_within.mono.trans (.ite .refl setModes_within.mono)

theorem grtCtrlWrite_within {val : Word} {s : State} :
    Within (.regs :: .fab :: .grt :: events) s (grtCtrlWrite val s) := by
  unfold grtCtrlWrite
  exact State.setReg_within.mono.trans (.ite .refl ((Within.forEach (fun _ _ => State.setReg_within.mono)).trans (.ite (.forEach (fun _ _ => setModes_within.mono)) .refl) |>.step raise_within))

theorem grtSegWrite_within {k : ℕ} {val : Word} {s : State} :
    Within (.regs :: .fab :: .grt :: events) s (grtSegWrite k val s) := by
  unfold grtSegWrite
  exact .ite .refl (State.setReg_within.mono.trans (.forEach (fun _ _ => .forEach (fun _ _ => setModes_within.mono))))

theorem memReset_within {s : State} :
    Within [.grt] s (memReset s) := by
  unfold memReset
  exact (State.modGrt_within).mono

theorem modDesc_within {q : ℕ} {id : ℕ} {f : Desc → Desc} {s : State} :
    Within [.que] s (modDesc q id f s) := by
  unfold modDesc
  exact State.modQu_within.mono

theorem orphanReads_within {q : ℕ} {p : Desc → Bool} {s : State} :
    Within [.que, .xlt] s (orphanReads q p s) := by
  unfold orphanReads
  exact .ite .refl (State.modXlt_within.mono.step State.modQu_within)

theorem ringWrite_within {kind : ℕ} {q : ℕ} {addr : ℕ} {bytes : List Byte} {s : State} :
    Within [.twn, .out] s (ringWrite kind q addr bytes s) := by
  unfold ringWrite
  exact .ite (sendTwin_within.mono.step State.modTwn_within) (.when State.send_within.mono)

theorem sendVector_within {q : ℕ} {vec : ℕ} {s : State} :
    Within [.twn, .out, .pci] s (sendVector q vec s) := by
  unfold sendVector
  exact .ite (State.modTwn_within).mono sendMsix_within.mono

theorem dropBad_within {e : TlbEntry} {s : State} :
    Within [.xlt] s (dropBad e s) := by
  unfold dropBad
  exact State.modXlt_within.mono

theorem translate_within {q va n : Nat} {wr : Bool} {s : State} :
    Within [.xlt] s (Machine.translate q va n wr s).2 := by
  unfold Machine.translate
  refine .ite_snd .refl (.ite_snd .refl (.ite_snd .refl ?_))
  split
  · exact .refl
  · refine .ite_snd dropBad_within (.ite_snd ?_ (.ite_snd ?_ ?_)) <;> exact .pair_snd State.modXlt_within

theorem startWalks_within {s : State} :
    Within [.xlt, .out] s (startWalks s) := by
  unfold startWalks
  exact .ite .refl (.forEach (fun _ _ => .ite .refl ((Within.when State.send_within.mono).step State.modXlt_within)))

theorem translateFor_within {access q cid va n : Nat} {wr : Bool} {s : State} :
    Within [.xlt, .out] s (translateFor access q cid va n wr s).2 := by
  unfold translateFor
  split
  · next h =>
    exact .pair_snd ((Within.of_eq_snd translate_within.mono h).trans
      (.ite .refl (State.modXlt_within.mono.step startWalks_within)))
  · exact translate_within.mono

theorem tlbParity_within {asid : ℕ} {va : ℕ} {s : State} :
    Within [.xlt] s (tlbParity asid va s) := by
  unfold tlbParity
  split
  · exact .refl
  · exact State.modXlt_within.mono

theorem tlbFill_within {e : TlbEntry} {s : State} :
    Within [.xlt] s (tlbFill e s) := by
  unfold tlbFill
  exact State.modXlt_within.mono

theorem faultLater_within {q : ℕ} {access : ℕ} {cid : ℕ} {va : ℕ} {s : State} :
    Within [.xlt] s (faultLater q access cid va s) := by
  unfold faultLater
  exact State.modXlt_within.mono

theorem countFault_within {s : State} :
    Within [.xlt] s (countFault s) := by
  unfold countFault
  exact State.modXlt_within.mono

theorem recordFault_within {q : ℕ} {kind : ℕ} {access : ℕ} {cid16 : ℕ} {level : ℕ} {va : ℕ} {off : ℕ} {more : Bool} {ended : Bool} {s : State} :
    Within (.xlt :: events) s (recordFault q kind access cid16 level va off more ended s) := by
  unfold recordFault
  exact State.modXlt_within.mono.step raise_within

theorem stopWhere_within {q : ℕ} {p : Desc → Bool} {s : State} :
    Within [.que, .xlt, .net] s (stopWhere q p s) := by
  unfold stopWhere
  exact orphanReads_within.mono.trans (.ite State.modNet_within.mono .refl) |>.step State.modQu_within

theorem stopDescs_within {q : ℕ} {s : State} :
    Within [.que, .xlt, .net] s (stopDescs q s) := by
  unfold stopDescs
  exact stopWhere_within.mono

theorem stateVector_within {q : ℕ} {s : State} :
    Within [.que, .twn, .out, .pci] s (stateVector q s) := by
  unfold stateVector
  exact .when (State.modQu_within.mono.step sendVector_within)

theorem addRetry_within {q : ℕ} {access : ℕ} {s : State} :
    Within [.que] s (addRetry q access s) := by
  unfold addRetry
  exact State.modQu_within.mono

/-- A fault's effect and, in a pair, the lead's stamp. -/
theorem stampFault_within {l : List Part} {q access id kind level va : Nat} {now : State → State} {s : State}
    (h : Within l s (now s)) (hl : ([.xlt, .out].all fun p => l.contains p) = true := by rfl) :
    Within l s (stampFault q access id kind level va now s) := by
  have hstamp : ∀ {t u : State}, Within [.xlt, .out] t u → Within l t u := fun h => h.mono hl
  unfold stampFault
  exact .ite h (.ite (hstamp (sendTwin_within.mono.step State.modXlt_within)) .refl)

theorem shadowFaultNow_within {q : ℕ} {kind : ℕ} {level : ℕ} {s : State} :
    Within (.que :: .xlt :: .net :: .twn :: events) s (shadowFaultNow q kind level s) := by
  unfold shadowFaultNow
  exact countFault_within.mono.trans (.ite faultLater_within.mono (.ite (stopDescs_within.mono.step State.modQu_within |>.step recordFault_within |>.step stateVector_within) ((Within.ite .refl recordFault_within.mono).step addRetry_within)))

theorem shadowFault_within {q : ℕ} {kind : ℕ} {level : ℕ} {s : State} :
    Within (.que :: .xlt :: .net :: .twn :: events) s (shadowFault q kind level s) := by
  unfold shadowFault
  exact (stampFault_within shadowFaultNow_within.mono)

theorem writeShadow_within {q : ℕ} {s : State} :
    Within (.que :: .xlt :: .net :: .twn :: events) s (writeShadow q s) := by
  unfold writeShadow
  dsimp only
  split
  · next h => exact (Within.of_eq_snd (translateFor_within.mono) h).trans (.ite State.modQu_within.mono .refl) |>.step ringWrite_within
  · next h => exact .of_eq_snd (translateFor_within.mono) h
  · next h => exact (Within.of_eq_snd (translateFor_within.mono) h).step shadowFault_within

theorem endAll_within {q : ℕ} {status : ℕ} {s : State} :
    Within [.que] s (endAll q status s) := by
  unfold endAll
  exact State.modQu_within.mono

theorem dropLoad_within {q : ℕ} {id : ℕ} {cid : ℕ} {s : State} :
    Within (.lib :: events) s (dropLoad q id cid s) := by
  unfold dropLoad
  exact (Within.forEach (fun _ _ => State.modSlot_within.mono)).trans (.ite .refl raise_within.mono)

theorem sweepLoads_within {q : ℕ} {s : State} :
    Within (.lib :: events) s (sweepLoads q s) := by
  unfold sweepLoads
  dsimp only
  refine .forEach (fun _ _ => ?_)
  split
  · exact dropLoad_within.mono
  · split
    · exact .refl
    · exact .ite .refl dropLoad_within.mono

theorem changeState_within {q : ℕ} {f : Queue → Queue} {s : State} :
    Within (.lib :: .que :: .xlt :: .net :: .twn :: events) s (changeState q f s) := by
  unfold changeState
  dsimp only
  split
  · exact State.modQu_within.mono
  · refine .trans ?_ (writeShadow_within.mono.step stateVector_within)
    split
    · exact State.modQu_within.mono.step endAll_within |>.step raise_within |>.step sweepLoads_within
    · exact State.modQu_within.mono.step endAll_within |>.step State.modQu_within |>.step sweepLoads_within
    · exact State.modQu_within.mono.step raise_within
    · exact State.modQu_within.mono

theorem takeFaultNow_within {q access cid kind level va : Nat} {s : State} :
    Within (.lib :: .que :: .xlt :: .net :: .twn :: events) s (takeFaultNow q access cid kind level va s) := by
  have hdb : Within (.lib :: .que :: .xlt :: .net :: .twn :: events) s
      (if access = 0 then (countFault s).modQu q fun x => { x with dbSt := 0 } else countFault s) :=
    .ite (countFault_within.mono.step State.modQu_within) countFault_within.mono
  have hend : ∀ (st off : Nat) (u : State), Within (.lib :: .que :: .xlt :: .net :: .twn :: events) u
      (match st with
       | 4 => sweepLoads q (endDesc q cid 0x0D off u)
       | 6 => sweepLoads q ((endDesc q cid 0x0E off u).modQu q fun y => { y with flushed := y.flushed + 1 })
       | _ => stopWhere q (fun d => d.id == cid) u) := by
    intro st off u
    split
    · exact endDesc_within.mono.step sweepLoads_within
    · exact endDesc_within.mono.step State.modQu_within |>.step sweepLoads_within
    · exact stopWhere_within.mono
  unfold takeFaultNow
  refine .ite countFault_within.mono (.ite (countFault_within.mono.step faultLater_within) (hdb.trans ?_))
  exact .ite (stopDescs_within.mono.step recordFault_within |>.step changeState_within)
    (.trans (Within.ite recordFault_within.mono .refl) (.ite addRetry_within.mono (.ite (hend _ _ _) .refl)))

theorem takeFault_within {q : ℕ} {access : ℕ} {cid : ℕ} {kind : ℕ} {level : ℕ} {va : ℕ} {s : State} :
    Within (.lib :: .que :: .xlt :: .net :: .twn :: events) s (takeFault q access cid kind level va s) := by
  unfold takeFault
  exact (stampFault_within takeFaultNow_within.mono)

theorem readOver_within {r : HostRead} {s : State} :
    Within [.xlt] s (readOver r s) := by
  unfold readOver
  exact State.modXlt_within.mono

theorem dropEntries_within {v : Inval} {s : State} :
    Within [.xlt, .out] s (dropEntries v s) := by
  unfold dropEntries
  exact State.modXlt_within.mono.step startWalks_within

theorem runInval_within {v : Inval} {s : State} :
    Within [.xlt, .out] s (runInval v s) := by
  unfold runInval
  exact State.modXlt_within.mono.step dropEntries_within

theorem invCommand_within {scope : ℕ} {asid : ℕ} {npages : ℕ} {s : State} :
    Within (.xlt :: events) s (invCommand scope asid npages s) := by
  unfold invCommand
  exact .ite raise_within.mono (State.modXlt_within.mono.trans (.ite runInval_within.mono .refl))

theorem rootChanged_within {asid : ℕ} {s : State} :
    Within (.xlt :: events) s (rootChanged asid s) := by
  unfold rootChanged
  exact dropEntries_within.mono.step raise_within

theorem xltVector_within {q : ℕ} {s : State} :
    Within [.twn, .out, .pci] s (xltVector q s) := by
  unfold xltVector
  exact .when sendVector_within.mono

theorem execFaultConsumerReread_goes {rec : Option (BitVec 64)} {s : State} :
    Goes s (execFaultConsumerReread rec s) := by
  unfold execFaultConsumerReread
  dsimp only
  split
  · exact .done .refl
  · split
    · exact .done State.modXlt_within.mono
    · split
      · exact .done ((Within.when State.send_within.mono).step State.modXlt_within |>.step State.modXlt_within)
      · exact .done ((Within.when State.send_within.mono).step State.modXlt_within |>.step State.modXlt_within)

theorem fctrlWritten_within {old : Word} {new : Word} {s : State} :
    Within [.xlt] s (fctrlWritten old new s) := by
  unfold fctrlWritten
  exact .ite State.modXlt_within.mono .refl

theorem dbgFinish_within {st : ℕ} {data : Word} {s : State} :
    Within [.pin] s (dbgFinish st data s) := by
  unfold dbgFinish
  exact State.modPin_within.mono

theorem dbgIssue_within {s : State} : Within [.xlt, .pin, .out] s (dbgIssue s) := by
  unfold dbgIssue
  split
  · exact .refl
  · refine .ite .refl ?_
    split
    next h =>
    refine .trans (.of_eq_snd (.foldl_snd (fun _ _ => ?_) _) h) (.ite (countFault_within.mono.step dbgFinish_within)
      (.ite .refl (.ite State.modPin_within.mono (.trans (Within.forEach (l := [.xlt, .pin, .out]) fun _ _ => ?_)
      State.modPin_within.mono))))
    · exact translateFor_within.mono
    · exact .when State.send_within.mono

theorem tryDoorbell_within {q : ℕ} {s : State} :
    Within (.lib :: .que :: .xlt :: .net :: .twn :: events) s (tryDoorbell q s) := by
  unfold tryDoorbell
  dsimp only
  split
  · exact .refl
  · split
    · next h => exact (Within.of_eq_snd (translateFor_within.mono) h).trans (.ite ((Within.when State.send_within.mono).step State.modQu_within) State.modQu_within.mono)
    · next h => exact .of_eq_snd (translateFor_within.mono) h
    · next h => exact (Within.of_eq_snd (translateFor_within.mono) h).step takeFault_within

theorem askDoorbell_within {q : ℕ} {s : State} :
    Within (.lib :: .que :: .xlt :: .net :: .twn :: events) s (askDoorbell q s) := by
  unfold askDoorbell
  exact .ite .refl (.ite State.modQu_within.mono (State.modQu_within.mono.step tryDoorbell_within))

theorem serveReads_within {s : State} :
    Within (.lib :: .que :: .xlt :: .net :: .twn :: .pin :: events) s (serveReads s) := by
  unfold serveReads
  exact (Within.forEach (fun _ _ => tryDoorbell_within.mono)).step dbgIssue_within

theorem kickWrite_within {who : Requester} {q : ℕ} {off : ℕ} {s : State} :
    Within (.lib :: .que :: .xlt :: .net :: .twn :: events) s (kickWrite who q off s) := by
  unfold kickWrite
  exact .ite raiseRefused_within.mono (.ite askDoorbell_within.mono .refl)

theorem execDoorbellPoll_goes {q : QueueId} {s : State} :
    Goes s (execDoorbellPoll q s) := by
  unfold execDoorbellPoll
  exact .done (.ite askDoorbell_within.mono .refl)

theorem resumeQueue_within {q : ℕ} {s : State} :
    Within (.lib :: .que :: .xlt :: .net :: .twn :: events) s (resumeQueue q s) := by
  unfold resumeQueue
  exact raise_within.mono.step changeState_within

theorem takeDoorbell_within {q : ℕ} {rec : BitVec 64} {s : State} :
    Within (.lib :: .que :: .xlt :: .net :: .twn :: events) s (takeDoorbell q rec s) := by
  unfold takeDoorbell
  dsimp only
  split
  · exact raise_within.mono.step changeState_within
  · split
    · exact .ite (State.modQu_within.mono.step resumeQueue_within) State.modQu_within.mono
    · exact State.modQu_within.mono

theorem doorbellOver_within {q : ℕ} {s : State} :
    Within (.lib :: .que :: .xlt :: .net :: .twn :: .pin :: events) s (doorbellOver q s) := by
  unfold doorbellOver
  exact State.modQu_within.mono.step readOver_within |>.trans (.ite askDoorbell_within.mono .refl) |>.step serveReads_within

theorem execDoorbellReadDone_goes {q : QueueId} {rec : BitVec 64} {s : State} :
    Goes s (execDoorbellReadDone q rec s) := by
  unfold execDoorbellReadDone
  exact .ite (.done .refl) (.done ((Within.ite (State.modQu_within.mono.step sendTwin_within) (State.modQu_within.mono.step takeDoorbell_within)).step doorbellOver_within))

theorem tryFetch_within {q : ℕ} {s : State} :
    Within (.lib :: .que :: .xlt :: .net :: .twn :: events) s (tryFetch q s) := by
  unfold tryFetch
  dsimp only
  split
  · split
    · next h => exact (Within.of_eq_snd (translateFor_within.mono) h).trans (.ite ((Within.when State.send_within.mono).step State.modQu_within) State.modQu_within.mono)
    · next h => exact .of_eq_snd (translateFor_within.mono) h
    · next h => exact (Within.of_eq_snd (translateFor_within.mono) h).step takeFault_within
  · exact .refl

theorem execDescriptorFetch_goes {q : QueueId} {tlbBad : Bool} {s : State} :
    Goes s (execDescriptorFetch q tlbBad s) := by
  unfold execDescriptorFetch
  exact .done ((Within.ite tlbParity_within.mono .refl).step tryFetch_within)

theorem sweepQueue_within {q : ℕ} {s : State} :
    Within [.que] s (sweepQueue q s) := by
  unfold sweepQueue
  dsimp only
  split
  · exact endAll_within.mono
  · exact endAll_within.mono.step State.modQu_within
  · exact .refl

theorem takeDescs_within {q : ℕ} {descs : List (BitVec 256)} {s : State} :
    Within (.que :: .xlt :: .net :: .twn :: events) s (takeDescs q descs s) := by
  unfold takeDescs
  exact State.modQu_within.mono.step writeShadow_within |>.step sweepQueue_within

theorem execFetchDataArrive_goes {q : QueueId} {descs : List (BitVec 256)} {s : State} :
    Goes s (execFetchDataArrive q descs s) := by
  unfold execFetchDataArrive
  exact .ite (.done .refl) (.done ((Within.ite ((Within.ite (State.modQu_within.mono.step readOver_within) State.modQu_within.mono).step State.modQu_within |>.step sendTwin_within) ((Within.ite (State.modQu_within.mono.step readOver_within) State.modQu_within.mono).step takeDescs_within)).step serveReads_within))

theorem servedNow_within {q : ℕ} {s : State} :
    Within [.arb] s (servedNow q s) := by
  unfold servedNow
  exact arb_within.mono

theorem refuseStart_within {q : ℕ} {d : Desc} {status : ℕ} {s : State} :
    Within [.que] s (refuseStart q d status s) := by
  unfold refuseStart
  exact endDesc_within.mono.step State.modQu_within

theorem startNext_within {q : ℕ} {opcs : ℕ → ℕ → Bool} {s : State} :
    Within (.que :: .arb :: .cry :: events) s (startNext q opcs s).1 := by
  unfold startNext
  dsimp only
  split
  · exact .refl
  · split
    · exact .refl
    · split
      · exact .pair_fst ((Within.ite (servedNow_within.mono.step modDesc_within |>.step useKey_within) (servedNow_within.mono.step modDesc_within)).step refuseStart_within)
      · exact .pair_fst (.ite (servedNow_within.mono.step modDesc_within |>.step useKey_within) (servedNow_within.mono.step modDesc_within))

theorem takeTurn_within {q : ℕ} {id : ℕ} {s : State} :
    Within [.que, .arb] s (takeTurn q id s).1 := by
  unfold takeTurn
  exact .ite_fst servedNow_within.mono modDesc_within.mono

theorem goOn_within {q opc : Nat} {s : State} :
    Within (.que :: .arb :: .cry :: events) s (goOn q opc s).1 := by
  unfold goOn
  split
  · exact .ite_fst servedNow_within.mono .refl
  · split
    · next h => exact (Within.of_eq_fst startNext_within.mono h).step takeTurn_within
    · exact startNext_within.mono

theorem putBeats_within {e : ℕ} {k : ℕ} {beats : List Beat} {s : State} :
    Within [.net, .out] s (putBeats e k beats s) := by
  unfold putBeats
  exact (Within.forEach (fun _ _ => .forEach (fun _ _ => State.send_within.mono))).step State.modNet_within

theorem drainPort_within {p : ℕ} {s : State} :
    Within [.net, .pin, .out] s (drainPort p s) := by
  unfold drainPort
  exact .ite .refl (putBeats_within.mono.step State.modPin_within)

theorem drainLanding_within {e : ℕ} {s : State} :
    Within [.gvl, .net, .out] s (drainLanding e s) := by
  unfold drainLanding
  exact .ite .refl (putBeats_within.mono.step State.modNet_within |>.step sendRsp_within)

theorem drainInputs_within {e : ℕ} {s : State} :
    Within [.gvl, .net, .pin, .out] s (drainInputs e s) := by
  unfold drainInputs
  exact (Within.forEach (fun _ _ => drainPort_within.mono)).step drainLanding_within

set_option maxRecDepth 20000 in
theorem issueRemotes_succ {q id node fuel : Nat} {s : State} :
    issueRemotes q id node (fuel + 1) s =
      match (s.qu q).desc id with
      | none => s
      | some d =>
        match d.remq with
        | [] => s
        | r :: rest =>
          if !gavalTagFree s || ((nextHop s node).any fun b => !reqCredit s b (1 + b2n r.write)) then s
          else if (nextHop s node).isNone then endDesc q id 0x10 (restartOf s q d) s
          else
            match (List.range 4096).find? fun t => !(s.net.remotes.any fun m => m.rid % 4096 == t) with
            | none => s
            | some tag =>
              let rid := tag + 4096 * (tabGet 0 s.net.gens tag)
              let s := s.modNet fun n =>
                { n with gens := tabMod 0 n.gens tag (fun g => (g + 1) % 16),
                         remotes := n.remotes ++ [{ rid := rid, queue := q, cid := id, node := node, read := !r.write, line := r.line }] }
              let head := leBytes 2 rid ++ leBytes 4 (64 * r.line)
              let pay := if r.write then head ++ leBytes 8 r.be.toNat ++ leBytes 1 r.poison.toNat ++ [0] ++ leBytes 64 r.data.toNat
                else head
              let s := sendTo node (mkMsg (if r.write then 3 else 2) 0 node s.ownAddr r.write pay) s
              issueRemotes q id node fuel (modDesc q id (fun d => { d with remq := rest }) s) :=
  rfl

theorem issueRemotes_within {q id node fuel : Nat} {s : State} :
    Within [.que, .gvl, .net, .out] s (issueRemotes q id node fuel s) := by
  induction fuel generalizing s with
  | zero => exact .refl
  | succ fuel ih =>
    rw [issueRemotes_succ]
    split
    · exact .refl
    · split
      · exact .refl
      · refine .ite .refl (.ite endDesc_within.mono ?_)
        split
        · exact .refl
        · exact State.modNet_within.mono.step sendTo_within |>.step modDesc_within |>.trans ih

theorem issueTurn_within {q : ℕ} {id : ℕ} {node : ℕ} {s : State} :
    Within [.que, .gvl, .net, .out] s (issueTurn q id node s) := by
  unfold issueTurn
  dsimp only
  split
  · exact .ite (issueRemotes_within.mono.step modDesc_within) issueRemotes_within.mono
  · exact issueRemotes_within.mono

theorem translateParts_within {q id access : Nat} {wr : Bool} {va n : Nat} {s : State} :
    Within [.xlt, .out] s (translateParts q id access wr va n s).2.2 := by
  have hfold : ∀ {α : Type} {f : α × Option (Nat × Nat × Nat) × State → Nat × Nat → α × Option (Nat × Nat × Nat) × State}
      (_ : ∀ acc p, Within [.xlt, .out] acc.2.2 (f acc p).2.2) (parts : List (Nat × Nat)) acc,
      Within [.xlt, .out] acc.2.2 (parts.foldl f acc).2.2 := by
    intro α f hf parts
    induction parts with
    | nil => exact fun _ => .refl
    | cons p parts ih => exact fun acc => (hf acc p).trans (ih (f acc p))
  refine hfold (fun acc p => ?_) _ (some [], none, s)
  split
  · exact .refl
  · split
    all_goals next h => exact .of_eq_snd translateFor_within h

theorem granuleSource_within {q : ℕ} {id : ℕ} {o : ℕ} {n : ℕ} {bad : List ℕ} {s : State} :
    Within (.regs :: .fab :: .grt :: .que :: events) s (granuleSource q id o n bad s).2 := by
  unfold granuleSource
  dsimp only
  split
  · exact .refl
  · split
    · exact .refl
    · exact .refl
    · exact .ite_snd modDesc_within.mono (.ite_snd .refl sideBytes_within.mono)

theorem notePoison_within {q : ℕ} {id : ℕ} {o : ℕ} {bytes : List (Byte × Bool)} {s : State} :
    Within (.que :: events) s (notePoison q id o bytes s) := by
  unfold notePoison
  dsimp only
  split
  · exact .refl
  · split
    · exact .refl
    · exact .ite .refl (modDesc_within.mono.trans (.ite .refl (State.modQu_within.mono.step raise_within)))

theorem granuleSink_within {q id o : Nat} {parts : List (Nat × Nat)} {bytes : List (Byte × Bool)} {bad : List Nat}
    {s : State} : Within (.regs :: .fab :: .grt :: .que :: events) s (granuleSink q id o parts bytes bad s) := by
  unfold granuleSink
  dsimp only
  split
  · exact .refl
  · refine .ite ?_ (.ite modDesc_within.mono (.ite modDesc_within.mono sideWrite_within.mono))
    exact notePoison_within.mono.trans ((Within.when sendTwin_within.mono).trans
      (.foldl_snd (fun _ _ => .pair_snd (.when State.send_within.mono)) _))

theorem emitBeats_within {q : ℕ} {id : ℕ} {x2 : ℕ} {s : State} :
    Within [.que, .gvl, .net, .pin, .out] s (emitBeats q id x2 s) := by
  induction x2 generalizing s with
  | zero =>
    rw [emitBeats]
    exact .refl
  | succ n ih =>
    rw [emitBeats]
    dsimp only
    split
    · exact .refl
    · exact (Within.ite drainInputs_within.mono .refl).trans (.ite .refl (putBeats_within.mono.step modDesc_within |>.step State.modQu_within |>.trans ih))

theorem overlapFree_within {d : Desc} {s : State} :
    Within (.regs :: .fab :: .grt :: .seed :: events) s (overlapFree d s) := by
  unfold overlapFree
  exact .ite (State.fresh_within.mono.step sideWrite_within) .refl

theorem finishDesc_within {q : ℕ} {id : ℕ} {s : State} :
    Within (.regs :: .fab :: .grt :: .que :: .seed :: events) s (finishDesc q id s) := by
  unfold finishDesc
  dsimp only
  split
  · exact .refl
  · split
    · exact .refl
    · split
      · exact overlapFree_within.mono.step endDesc_within |>.step raise_within |>.step countSomeError_within
      · split
        · exact overlapFree_within.mono.step endDesc_within
        · split
          · exact overlapFree_within.mono.step endDesc_within
          · exact overlapFree_within.mono.step endDesc_within

theorem issueReads_within {q id o : Nat} {parts : List (Nat × Nat)} {s : State} :
    Within [.que, .out] s (issueReads q id o parts s) := by
  unfold issueReads
  refine .foldl_snd (fun acc _ => ?_) _
  obtain ⟨pos, s⟩ := acc
  dsimp only
  split
  · exact .refl
  · exact .ite .refl (.ite modDesc_within.mono ((Within.when State.send_within.mono).step modDesc_within))

theorem takeHost_within {q : ℕ} {id : ℕ} {host : List Byte} {s : State} :
    Within [.que, .out] s (takeHost q id host s) := by
  unfold takeHost
  dsimp only
  split
  · exact .refl
  · exact modDesc_within.mono.trans (.ite .refl (.ite sendTwin_within.mono modDesc_within.mono))

theorem hostReady_within {q : ℕ} {id : ℕ} {o : ℕ} {n : ℕ} {parts : List (ℕ × ℕ)} {env : Option DescEnv} {s : State} :
    Within [.que, .out] s (hostReady q id o n parts env s).2 := by
  unfold hostReady
  dsimp only
  split
  · exact .ite issueReads_within.mono (issueReads_within.mono.step takeHost_within)
  · exact issueReads_within.mono

theorem runGranules_within {q id : Nat} {env : Option DescEnv} {used fuel : Nat} {s : State} :
    Within hardware s (runGranules q id env used fuel s) := by
  induction fuel generalizing used s with
  | zero => exact .refl
  | succ fuel ih =>
    rw [runGranules]
    refine .trans (t := emitBeats q id 65 s) emitBeats_within.mono ?_
    generalize emitBeats q id 65 s = s
    split
    · exact .refl
    · refine .ite .refl (.ite (.ite .refl finishDesc_within.mono) (.ite modDesc_within.mono (.ite .refl (.ite .refl ?_))))
      lift_lets
      intro va acc
      split
      next p parts fault u hp =>
      have hparts : Within hardware s u := by
        split at hp
        · exact .of_eq_thd translateParts_within.mono hp
        · obtain ⟨-, -, rfl⟩ := hp
          exact .refl
      refine hparts.trans ?_
      obtain _ | parts := parts
      · obtain _ | ⟨k, lev, at_⟩ := fault
        · exact .refl
        · exact takeFault_within.mono
      · refine .trans (Within.ite useKey_within.mono .refl) (.ite endDesc_within.mono (.ite ?_ ?_))
        · exact State.modCry_within.mono.step endDesc_within |>.step raise_within |>.step deviceFault_within
        · refine .trans (Within.ite_snd hostReady_within.mono .refl) (.ite .refl (.ite endDesc_within.mono (.ite .refl 
            (.ite modDesc_within.mono ?_))))
          exact granuleSource_within.mono.step granuleSink_within
            |>.trans (.ite .refl (modDesc_within.mono.step State.modQu_within)) |>.trans ih

theorem runDesc_within {q : ℕ} {id : ℕ} {env : Option DescEnv} {s : State} :
    Within hardware s (runDesc q id env s) := by
  unfold runDesc
  dsimp only
  split
  · exact modDesc_within.mono
  · split
    · exact modDesc_within.mono
    · split
      · exact modDesc_within.mono.step modDesc_within |>.step issueTurn_within
      · split
        · exact modDesc_within.mono.step issueTurn_within
        · split
          · exact .ite ((Within.ite (modDesc_within.mono.step runGranules_within |>.step issueTurn_within) (modDesc_within.mono.step runGranules_within)).step finishDesc_within) (.ite (modDesc_within.mono.step runGranules_within |>.step issueTurn_within) (modDesc_within.mono.step runGranules_within))
          · exact .ite (modDesc_within.mono.step runGranules_within |>.step issueTurn_within) (modDesc_within.mono.step runGranules_within)

theorem runTurn_within {q : ℕ} {id : ℕ} {s : State} :
    Within hardware s (runTurn q id s) := by
  unfold runTurn
  exact .ite (servedNow_within.mono.step runDesc_within) modDesc_within.mono

theorem takeStamped_within {q : ℕ} {cid : ℕ} {off : ℕ} {bytes : List Byte} {s : State} :
    Within hardware s (takeStamped q cid off bytes s) := by
  unfold takeStamped
  dsimp only
  split
  · exact .refl
  · exact modDesc_within.mono.trans (.ite .refl runTurn_within.mono)

theorem takeUpsets_within {q : ℕ} {env : DescEnv} {s : State} :
    Within [.xlt, .cry] s (takeUpsets q env s) := by
  unfold takeUpsets
  exact (Within.forEach (fun _ _ => tlbParity_within.mono)).trans (.ite spoilKey_within.mono .refl)

/-- A data command: what it does before the descriptor runs, and the run. -/
theorem dataCommand_within {q opc : Nat} {env : DescEnv} {pre : Nat → State → State} {s : State}
    (hpre : ∀ id u, Within hardware u (pre id u)) : Within hardware s (dataCommand q opc env pre s) := by
  unfold dataCommand
  split
  · next h =>
    refine .trans (takeUpsets_within.mono.trans (.of_eq_fst goOn_within.mono h)) (.ite endDesc_within.mono ?_)
    exact modDesc_within.mono.trans (hpre _ _) |>.step runDesc_within
  · next h => exact takeUpsets_within.mono.trans (.of_eq_fst goOn_within.mono h)

theorem execDescCopy_goes {q : QueueId} {env : DescEnv} {s : State} :
    Goes s (execDescCopy q env s) := by
  unfold execDescCopy
  exact .done ((dataCommand_within fun _ _ => .refl))

theorem execDescFill_goes {q : QueueId} {env : DescEnv} {s : State} :
    Goes s (execDescFill q env s) := by
  unfold execDescFill
  exact .done ((dataCommand_within fun _ _ => .refl))

theorem execDescStreamIn_goes {q : QueueId} {env : DescEnv} {s : State} :
    Goes s (execDescStreamIn q env s) := by
  unfold execDescStreamIn
  exact .done ((dataCommand_within fun _ _ => drainInputs_within.mono))

theorem execDescStreamOut_goes {q : QueueId} {env : DescEnv} {s : State} :
    Goes s (execDescStreamOut q env s) := by
  unfold execDescStreamOut
  exact .done ((dataCommand_within fun _ _ => .ite modDesc_within.mono .refl))

theorem execDescLibraryRequest_goes {q : QueueId} {s : State} : Goes s (execDescLibraryRequest q s) := by
  unfold execDescLibraryRequest
  split
  · next h => exact .done (.of_eq_fst startNext_within.mono h)
  · next h =>
    have hs := Within.of_eq_fst (l := hardware) startNext_within.mono h
    split
    · exact .done hs
    · exact .done (hs.step libAccept_within)

theorem execDescSwitch_goes {q : QueueId} {s : State} : Goes s (execDescSwitch q s) := by
  unfold execDescSwitch
  split
  · next h => exact .done (.of_eq_fst startNext_within.mono h)
  · next h =>
    have hs := Within.of_eq_fst (l := hardware) startNext_within.mono h
    split
    · exact .done hs
    · exact .done (hs.step acceptCmd_within)

theorem execDescGroupFire_goes {q : QueueId} {s : State} : Goes s (execDescGroupFire q s) := by
  unfold execDescGroupFire
  split
  · next h => exact .done (.of_eq_fst startNext_within.mono h)
  · next h =>
    have hs := Within.of_eq_fst (l := hardware) startNext_within.mono h
    split
    · exact .done hs
    · exact .done (hs.step acceptFire_within)

theorem settleFence_within {q : ℕ} {s : State} :
    Within [.que] s (settleFence q s) := by
  unfold settleFence
  split
  · exact .ite endDesc_within.mono .refl
  · exact .refl

theorem execDescFence_goes {q : QueueId} {s : State} :
    Goes s (execDescFence q s) := by
  unfold execDescFence
  exact .done (startNext_within.mono.step settleFence_within)

theorem execDescNop_goes {q : QueueId} {s : State} : Goes s (execDescNop q s) := by
  unfold execDescNop
  split
  · next h => exact .done (.step (.of_eq_fst startNext_within.mono h) endDesc_within)
  · next h => exact .done (.of_eq_fst startNext_within.mono h)

theorem execHostReadError_goes {q : QueueId} {target : ReadTarget} {kind : HostErr} {s : State} :
    Goes s (execHostReadError q target kind s) := by
  unfold execHostReadError
  dsimp only
  split
  · exact .done .refl
  · split
    · exact .ite (.done (raise_within.mono.step changeState_within |>.step doorbellOver_within)) (.done .refl)
    · exact .ite (.done (State.modQu_within.mono.step readOver_within |>.step raise_within |>.step changeState_within |>.step serveReads_within)) (.done .refl)
    · split
      · exact .done (raise_within.mono.step endDesc_within |>.step sweepLoads_within)
      · exact .done State.modXlt_within.mono

theorem countIrq_within {q : ℕ} {irq : Bool} {s : State} :
    Within [.que, .twn, .out, .pci] s (countIrq q irq s) := by
  unfold countIrq
  exact .ite (State.modQu_within.mono.step sendVector_within) State.modQu_within.mono

theorem completeFront_within {q : ℕ} {s : State} :
    Within (.lib :: .que :: .xlt :: .net :: .twn :: events) s (completeFront q s) := by
  unfold completeFront
  dsimp only
  split
  · exact settleFence_within.mono
  · split
    · exact settleFence_within.mono
    · split
      · exact settleFence_within.mono
      · split
        · next h => exact .of_eq_snd (settleFence_within.mono.step translateFor_within) h
        · next h => exact (Within.of_eq_snd (settleFence_within.mono.step translateFor_within) h).step takeFault_within
        · next h => exact (Within.of_eq_snd (settleFence_within.mono.step translateFor_within) h).step orphanReads_within |>.step ringWrite_within |>.step State.modQu_within |>.step countIrq_within

theorem execCompletionWrite_goes {q : QueueId} {s : State} :
    Goes s (execCompletionWrite q s) := by
  unfold execCompletionWrite
  exact .done (.ite .refl completeFront_within.mono)

theorem execIrqCoalesceTimeout_goes {q : QueueId} {s : State} :
    Goes s (execIrqCoalesceTimeout q s) := by
  unfold execIrqCoalesceTimeout
  exact .done (.ite (State.modQu_within.mono.step sendVector_within) .refl)

theorem enableQueue_within {q : ℕ} {s : State} :
    Within (.regs :: .lib :: .que :: .xlt :: .net :: .twn :: events) s (enableQueue q s) := by
  unfold enableQueue
  exact .ite (State.modQu_within.mono.step State.setRegF_within |>.step raise_within) (.ite .refl (.ite (State.modQu_within.mono.step raise_within) changeState_within.mono))

theorem disableQueue_within {q : ℕ} {s : State} :
    Within (.lib :: .que :: .xlt :: .net :: .twn :: events) s (disableQueue q s) := by
  unfold disableQueue
  exact .ite .refl changeState_within.mono

theorem queCtrlWritten_within {q : ℕ} {new : Word} {s : State} :
    Within (.regs :: .lib :: .que :: .xlt :: .net :: .twn :: events) s (queCtrlWritten q new s) := by
  unfold queCtrlWritten
  exact (Within.ite enableQueue_within.mono disableQueue_within.mono).trans (.ite changeState_within.mono .refl)

theorem seeOwner_within {q : ℕ} {s : State} :
    Within (.lib :: .que :: .xlt :: .net :: .twn :: events) s (seeOwner q s) := by
  unfold seeOwner
  exact .ite .refl changeState_within.mono

theorem execOwnerChange_goes {q : QueueId} {s : State} :
    Goes s (execOwnerChange q s) := by
  unfold execOwnerChange
  exact .done seeOwner_within.mono

theorem execDrainEnd_goes {q : QueueId} {s : State} :
    Goes s (execDrainEnd q s) := by
  unfold execDrainEnd
  exact .ite (.done (State.modQu_within.mono.step State.modXlt_within |>.step writeShadow_within |>.step stateVector_within |>.step State.modQu_within |>.step raise_within)) (.done .refl)

theorem driveAccess_within {w : Walk} {s : State} :
    Within hardware s (driveAccess w s) := by
  unfold driveAccess
  split
  · exact tryDoorbell_within.mono
  · exact tryFetch_within.mono
  · exact completeFront_within.mono
  · exact writeShadow_within.mono
  · exact dbgIssue_within.mono
  · exact .ite .refl runTurn_within.mono

theorem madeAgain_within {q : ℕ} {s : State} :
    Within hardware s (madeAgain q s) := by
  unfold madeAgain
  exact State.modXlt_within.mono.trans (.forEach (fun _ _ => driveAccess_within.mono))

theorem execFaultRecordWrite_goes {error : Bool} {s : State} :
    Goes s (execFaultRecordWrite error s) := by
  unfold execFaultRecordWrite
  dsimp only
  split
  · exact .done .refl
  · exact .ite (.done .refl) (.ite (.done State.modXlt_within.mono) (.done (ringWrite_within.mono.step State.modXlt_within |>.step xltVector_within |>.step madeAgain_within)))

theorem walkFault_within {w : Walk} {kind : ℕ} {level : ℕ} {s : State} :
    Within (.lib :: .que :: .xlt :: .net :: .twn :: .pin :: events) s (walkFault w kind level s) := by
  unfold walkFault
  split
  · exact shadowFault_within.mono
  · exact countFault_within.mono.step dbgFinish_within
  · exact takeFault_within.mono

theorem fillArrives_within {asid : ℕ} {vpn : ℕ} {size : ℕ} {ppn : ℕ} {r : Bool} {w : Bool} {s : State} :
    Within hardware s (fillArrives asid vpn size ppn r w s) := by
  unfold fillArrives
  exact State.modXlt_within.mono.step tlbFill_within |>.trans (.forEach (fun _ _ => driveAccess_within.mono)) |>.step serveReads_within

theorem execWalkComplete_goes {asid : Fin 256} {vpn : BitVec 36} {entries : List (BitVec 64)} {error : Bool} {s : State} :
    Goes s (execWalkComplete asid vpn entries error s) := by
  unfold execWalkComplete
  dsimp only
  split
  · exact .done .refl
  · split
    · exact .done ((Within.forEach (fun _ _ => .when State.send_within.mono)).step State.modXlt_within |>.step State.modXlt_within |>.trans (.forEach (fun _ _ => walkFault_within.mono)) |>.step serveReads_within |>.step startWalks_within)
    · exact .done ((Within.ite ((Within.forEach (fun _ _ => .when State.send_within.mono)).step State.modXlt_within |>.step sendTwin_within |>.step State.modXlt_within) ((Within.forEach (fun _ _ => .when State.send_within.mono)).step State.modXlt_within |>.step fillArrives_within)).step startWalks_within)

theorem retryWrite_within {q : ℕ} {s : State} :
    Within (.lib :: .que :: .xlt :: .net :: .twn :: events) s (retryWrite q s) := by
  unfold retryWrite
  dsimp only
  split
  · exact .refl
  · exact (Within.ite .refl (State.modQu_within.mono.step raise_within)).trans (.ite writeShadow_within.mono .refl) |>.trans (.ite completeFront_within.mono .refl)

theorem execRingWriteRetry_goes {q : QueueId} {s : State} :
    Goes s (execRingWriteRetry q s) := by
  unfold execRingWriteRetry
  exact .done retryWrite_within.mono

theorem invalidationOver_within {s : State} :
    Within (.lib :: .que :: .xlt :: .net :: .twn :: events) s (invalidationOver s) := by
  unfold invalidationOver
  dsimp only
  split
  · exact .refl
  · refine .trans ?_ (.forEach (fun _ _ => retryWrite_within.mono))
    split
    · exact State.modXlt_within.mono.step xltVector_within
    · exact State.modXlt_within.mono.step xltVector_within |>.step runInval_within

theorem execInvalidationComplete_goes {s : State} :
    Goes s (execInvalidationComplete s) := by
  unfold execInvalidationComplete
  exact .done (.ite .refl (.ite sendTwin_within.mono invalidationOver_within.mono))

theorem bar2Perform_within {off : ℕ} {be : List Bool} {data : List Byte} {bad : List ℕ} {s : State} :
    Within (.regs :: .fab :: .grt :: events) s (bar2Perform off be data bad s) := by
  unfold bar2Perform
  exact .ite .refl sideWrite_within.mono

theorem bar2Fetch_within {off : ℕ} {len : ℕ} {bad : List ℕ} {s : State} :
    Within (.regs :: .fab :: .grt :: events) s (bar2Fetch off len bad s).1 := by
  unfold bar2Fetch
  exact .ite_fst .refl sideBytes_within.mono

theorem bar2Complete_within {off : ℕ} {len : ℕ} {bad : List ℕ} {s : State} :
    Within (.regs :: .fab :: .grt :: events) s (bar2Complete off len bad s) := by
  unfold bar2Complete
  split
  · exact .refl
  · split
    · next h => exact (Within.of_eq_fst (bar2Fetch_within.mono) h).step State.send_within
    · next h => exact (Within.of_eq_fst (bar2Fetch_within.mono) h).step State.send_within

theorem bar2Make_within {a : BarAcc} {s : State} :
    Within (.regs :: .fab :: .grt :: events) s (bar2Make a s) := by
  unfold bar2Make
  exact .ite bar2Perform_within.mono (.ite bar2Fetch_within.mono bar2Complete_within.mono)

theorem bar2Take_within {a : BarAcc} {s : State} :
    Within (.regs :: .fab :: .grt :: events) s (bar2Take a s) := by
  unfold bar2Take
  exact .ite bar2Make_within.mono (State.modGrt_within).mono

theorem serveBar2_within {s : State} :
    Within (.regs :: .fab :: .grt :: events) s (serveBar2 s) := by
  unfold serveBar2
  exact .ite ((State.modGrt_within).mono.trans (.forEach (fun _ _ => bar2Make_within.mono))) .refl

theorem remoteAnswer_within {m : Remote} {ok : Bool} {poison : BitVec 8} {data : BitVec 512} {s : State} :
    Within hardware s (remoteAnswer m ok poison data s) := by
  unfold remoteAnswer
  dsimp only
  split
  · exact .refl
  · exact .ite .refl (.ite endDesc_within.mono ((Within.ite modDesc_within.mono .refl).trans (.ite .refl (.ite runTurn_within.mono (.ite .refl (.ite runTurn_within.mono (.ite finishDesc_within.mono .refl)))))))

theorem serveRemotes_within {s : State} :
    Within [.que, .arb, .gvl, .net, .out] s (serveRemotes s) := by
  unfold serveRemotes
  exact .forEach (fun _ _ => .ite (.ite (servedNow_within.mono.step issueTurn_within) modDesc_within.mono) .refl)

theorem serveTags_within {s : State} :
    Within hardware s (serveTags s) := by
  unfold serveTags
  exact serveRemotes_within.mono.step serveReads_within |>.step serveBar2_within |>.step startWalks_within

theorem execRspReceive_goes {rid : BitVec 16} {status : Byte} {poison : BitVec 8} {data : BitVec 512} {s : State} :
    Goes s (execRspReceive rid status poison data s) := by
  unfold execRspReceive
  dsimp only
  split
  · exact .done .refl
  · split
    · exact .done takeAnyMsg_within.mono
    · exact .done (takeAnyMsg_within.mono.step State.modNet_within |>.step remoteAnswer_within |>.step serveTags_within)

theorem execRemoteTimeout_goes {rid : BitVec 16} {s : State} :
    Goes s (execRemoteTimeout rid s) := by
  unfold execRemoteTimeout
  dsimp only
  split
  · exact .done .refl
  · exact .done (State.modNet_within.mono.step remoteAnswer_within |>.step serveTags_within)

theorem takeReq_within {b : ℕ} {ty : ℕ} {src : ℕ} {rid : ℕ} {s : State} :
    Within [.gvl] s (takeReq b ty src rid s) := by
  unfold takeReq
  exact takeMsg_within.mono

theorem serveRemote_within {b ty src rid line : Nat} {be : BitVec 64} {data : BitVec 512} {poison : BitVec 8}
    {bad : List Nat} {s : State} :
    Within (.regs :: .fab :: .grt :: .gvl :: events) s (serveRemote b ty src rid line be data poison bad s) := by
  unfold serveRemote
  refine .ite .refl (.trans takeReq_within.mono (.ite sendRsp_within.mono (.ite sendRsp_within.mono (.ite ?_ ?_))))
  · split
    next h => exact .step (.of_eq_snd sideRead_within.mono h) sendRsp_within
  · exact sideAccess_within.mono.step sendRsp_within

theorem execRemoteRead_goes {b : BundleId} {src : Fin 64} {rid : BitVec 16} {line : BitVec 21} {addrErr : List ℕ} {s : State} :
    Goes s (execRemoteRead b src rid line addrErr s) := by
  unfold execRemoteRead
  exact .done serveRemote_within.mono

theorem execRemoteWrite_goes {b : BundleId} {src : Fin 64} {rid : BitVec 16} {line : BitVec 21} {be : BitVec 64} {data : BitVec 512} {poison : BitVec 8} {addrErr : List ℕ} {s : State} :
    Goes s (execRemoteWrite b src rid line be data poison addrErr s) := by
  unfold execRemoteWrite
  exact .done serveRemote_within.mono

theorem execRemoteBitset_goes {b : BundleId} {src : Fin 64} {rid : BitVec 16} {line : BitVec 21} {be : BitVec 64} {data : BitVec 512} {addrErr : List ℕ} {s : State} :
    Goes s (execRemoteBitset b src rid line be data addrErr s) := by
  unfold execRemoteBitset
  exact .done serveRemote_within.mono

theorem execRemoteBitclr_goes {b : BundleId} {src : Fin 64} {rid : BitVec 16} {line : BitVec 21} {be : BitVec 64} {data : BitVec 512} {addrErr : List ℕ} {s : State} :
    Goes s (execRemoteBitclr b src rid line be data addrErr s) := by
  unfold execRemoteBitclr
  exact .done serveRemote_within.mono

theorem State.modRoute_within {s : State} {e : ℕ} {f : Route → Route} :
    Within [.net] s (s.modRoute e f) := by
  unfold State.modRoute
  exact State.modNet_within.mono

theorem execBcreditReceive_goes {src : Fin 64} {endpoint : BitVec 10} {beats : Byte} {s : State} :
    Goes s (execBcreditReceive src endpoint beats s) := by
  unfold execBcreditReceive
  exact .ite (.done .refl) (.done (takeAnyMsg_within.mono.step State.modNet_within))

theorem execBeatReceive_goes {src : Fin 64} {endpoint : BitVec 10} {beat : Beat} {s : State} :
    Goes s (execBeatReceive src endpoint beat s) := by
  unfold execBeatReceive
  exact .ite (.done .refl) (.ite (.done (takeAnyMsg_within.mono.step State.modRoute_within |>.step drainInputs_within)) (.done (takeAnyMsg_within.mono.step sendRsp_within |>.step raise_within)))

theorem execStreamRouteBeatSend_goes {endpoint : BitVec 10} {beat : Beat} {s : State} :
    Goes s (execStreamRouteBeatSend endpoint beat s) := by
  unfold execStreamRouteBeatSend
  dsimp only
  split
  · refine .done ?_
    split
    · exact State.modRoute_within.mono.step enqueue_within
    · exact raise_within.mono
  · exact .done .refl

theorem srdataWritten_within {val : Word} {s : State} :
    Within [.net] s (srdataWritten val s) := by
  unfold srdataWritten
  exact State.modRoute_within.mono

theorem leafLost_within {code : ℕ} {s : State} :
    Within events s (leafLost code s) := by
  unfold leafLost
  exact (State.modEv_within).mono.step raise_within

theorem episodeLost_within {code : ℕ} {s : State} :
    Within [.ev] s (episodeLost code s) := by
  unfold episodeLost
  exact (State.modEv_within).mono

theorem sumNodes_within {s : State} :
    Within [.ev] s (sumNodes s) := by
  unfold sumNodes
  exact (State.modEv_within).mono

theorem enqueueEvent_within {leafBad : Bool} {e : Event} {s : State} :
    Within events s (enqueueEvent leafBad e s) := by
  unfold enqueueEvent
  exact (Within.ite leafLost_within.mono .refl).trans (.ite (State.modEv_within).mono .refl) |>.trans (.ite (State.modEv_within).mono (State.modEv_within).mono)

theorem execEventEnqueue_goes {leafBad : Bool} {s : State} : Goes s (execEventEnqueue leafBad s) := by
  unfold execEventEnqueue
  split
  · exact .done .refl
  · exact .sound (State.modEv_sound.mono.trans enqueueEvent_within.mono.sound)

theorem commitFails_within {result : ℕ} {s : State} :
    Within events s (commitFails result s) := by
  unfold commitFails
  exact (State.modEv_within).mono.step raise_within

theorem requestCommit_within {repairOnly : Bool} {auto : Bool} {s : State} :
    Within events s (requestCommit repairOnly auto s) := by
  unfold requestCommit
  exact .ite commitFails_within.mono (State.modEv_within).mono

theorem echoVector_within {s : State} :
    Within [.out, .pci] s (echoVector s) := by
  unfold echoVector
  exact .when sendMsix_within.mono

theorem freezeRing_within {s : State} :
    Within events s (freezeRing s) := by
  unfold freezeRing
  exact (State.modEv_within).mono.step raise_within |>.step echoVector_within |>.trans (.ite requestCommit_within.mono .refl)

theorem ringTake_within {e : Event} {seq : Nat} {s : State} : Within events s (ringTake e seq s).1 := by
  unfold ringTake
  exact .ite_fst .refl (.ite_fst (.pair_fst (State.modEv_within).mono)
    (.pair_fst ((State.modEv_within).mono.trans (.ite freezeRing_within.mono .refl))))

theorem logTake_within {e : Event} {seq : Nat} {s : State} : Within events s (logTake e seq s).1 := by
  unfold logTake
  refine .ite_fst (.pair_fst (State.modEv_within).mono) (.ite_fst (.pair_fst (State.modEv_within).mono) (.ite_fst ?_ ?_))
  · exact .pair_fst ((State.modEv_within).mono.step State.modEv_within |>.step raise_within)
  · exact .pair_fst (State.modEv_within).mono

theorem execEventTake_goes {s : State} :
    Goes s (execEventTake s) := by
  unfold execEventTake
  dsimp only
  split
  · exact .done .refl
  · exact .done (.ite ((Within.ite_fst ((State.modEv_within).mono.step ringTake_within |>.step logTake_within) (.pair_fst ((State.modEv_within).mono.step ringTake_within))).step echoVector_within) (.ite_fst ((State.modEv_within).mono.step ringTake_within |>.step logTake_within) (.pair_fst ((State.modEv_within).mono.step ringTake_within))))

theorem rearm_within {s : State} :
    Within [.ev] s (rearm s) := by
  unfold rearm
  exact .ite .refl (.ite (State.modEv_within).mono (State.modEv_within).mono)

theorem clearLog_within {s : State} :
    Within [.ev] s (clearLog s) := by
  unfold clearLog
  exact .ite (State.modEv_within).mono (State.modEv_within).mono

theorem captureRecord_within {who : ℕ} {s : State} :
    Within [.ev] s (captureRecord who s) := by
  unfold captureRecord
  exact (State.modEv_within).mono

theorem retireSector_within {i : ℕ} {cause : ℕ} {s : State} :
    Within events s (retireSector i cause s) := by
  unfold retireSector
  exact (State.modEv_within).mono.step State.send_within |>.step raise_within

theorem retireWorn_within {s : State} :
    Within events s (retireWorn s) := by
  unfold retireWorn
  exact .forEach (fun _ _ => .ite retireSector_within.mono .refl)

theorem dropCommit_within {result : ℕ} {s : State} :
    Within events s (dropCommit result s) := by
  unfold dropCommit
  exact (State.modEv_within).mono.step commitFails_within

theorem tellExhausted_within {s : State} :
    Within events s (tellExhausted s) := by
  unfold tellExhausted
  exact .ite .refl ((State.modEv_within).mono.step raise_within)

theorem execEchoCommitStart_goes {s : State} :
    Goes s (execEchoCommitStart s) := by
  unfold execEchoCommitStart
  exact .ite (.done .refl) (.ite (.done (retireWorn_within.mono.step tellExhausted_within |>.step dropCommit_within)) (.ite (.done (retireWorn_within.mono.step dropCommit_within)) (.done ((Within.ite retireWorn_within.mono (retireWorn_within.mono.step raise_within)).trans (.forEach (fun _ _ => (State.modEv_within).mono.step State.send_within |>.step State.send_within)) |>.step State.modCfg_within |>.step State.modEv_within))))

theorem commitOver_within {s : State} :
    Within [.cfg, .ev] s (commitOver s) := by
  unfold commitOver
  exact State.modCfg_within.mono.step State.modEv_within |>.trans (.ite rearm_within.mono .refl) |>.trans (.ite clearLog_within.mono .refl)

theorem stopCommit_within {s : State} :
    Within (.cfg :: events) s (stopCommit s) := by
  unfold stopCommit
  exact .ite .refl (commitOver_within.mono.step commitFails_within |>.step (State.modEv_within))

theorem execEchoCommitEnd_goes {failed : Option (BitVec 12)} {s : State} :
    Goes s (execEchoCommitEnd failed s) := by
  unfold execEchoCommitEnd
  dsimp only
  split
  · exact .done .refl
  · split
    · split
      · exact .done .refl
      · split
        · exact .done (retireSector_within.mono.step State.send_within |>.step State.send_within |>.step State.modEv_within)
        · exact .ite (.done (retireSector_within.mono.step commitOver_within |>.step commitFails_within)) (.done (retireSector_within.mono.step commitOver_within |>.step tellExhausted_within |>.step commitFails_within))
    · exact .done ((State.modEv_within).mono.step State.modFab_within |>.step State.modGrt_within |>.step raise_within |>.step commitOver_within)

theorem tickCommit_within {s : State} :
    Within events s (tickCommit s) := by
  unfold tickCommit
  exact .ite requestCommit_within.mono .refl

theorem State.modPort_within {s : State} {p : ℕ} {f : Dphy → Dphy} :
    Within [.pin] s (s.modPort p f) := by
  unfold State.modPort
  exact State.modPin_within.mono

theorem bufferBeats_within {p : ℕ} {x1 : List Beat} {s : State} :
    Within [.net, .pin, .out] s (bufferBeats p x1 s).1 := by
  induction x1 generalizing s with
  | nil =>
    rw [bufferBeats]
    exact .refl
  | cons x xs ih =>
    rw [bufferBeats]
    exact .ite_fst drainPort_within.mono (drainPort_within.mono.step State.modPort_within |>.trans ih)

theorem closeBurst_within {p : ℕ} {cause : ℕ} {s : State} :
    Within (.net :: .pin :: events) s (closeBurst p cause s) := by
  unfold closeBurst
  exact State.modPort_within.mono.step raise_within |>.step drainPort_within

theorem takeBurst_within {p : ℕ} {burst : BurstEnv} {s : State} :
    Within (.net :: .pin :: events) s (takeBurst p burst s) := by
  unfold takeBurst
  exact drainPort_within.mono.trans (.ite .refl (.ite State.modPort_within.mono (.ite (bufferBeats_within.mono.step closeBurst_within) (.ite (bufferBeats_within.mono.step closeBurst_within) (bufferBeats_within.mono.step drainPort_within)))))

theorem execDphyBurst_goes {port : Fin 32} {burst : BurstEnv} {s : State} :
    Goes s (execDphyBurst port burst s) := by
  unfold execDphyBurst
  exact .ite (.done takeBurst_within.mono) (.ite (.done sendTwin_within.mono) (.done .refl))

theorem execUlpsEntryExit_goes {port : Fin 32} {inUlps : Bool} {s : State} :
    Goes s (execUlpsEntryExit port inUlps s) := by
  unfold execUlpsEntryExit
  exact .done (.ite State.modPort_within.mono .refl)

theorem execDphyDeskewCalibration_goes {port : Fin 32} {ok : Bool} {s : State} :
    Goes s (execDphyDeskewCalibration port ok s) := by
  unfold execDphyDeskewCalibration
  exact .done (.ite State.modPort_within.mono .refl)

theorem execDualInputMismatch_goes {pin : Fin 768} {disagree : Bool} {s : State} :
    Goes s (execDualInputMismatch pin disagree s) := by
  unfold execDualInputMismatch
  exact .ite (.done (State.modPin_within.mono.step raise_within)) (.done .refl)

theorem execSvcInputAccept_goes {pin : Fin 16} {level : Bool} {s : State} :
    Goes s (execSvcInputAccept pin level s) := by
  unfold execSvcInputAccept
  exact .ite (.done .refl) (.ite (.done (State.modPin_within.mono.step State.modPin_within |>.step raise_within)) (.done State.modPin_within.mono))

theorem lockGroups_within {who : Requester} {mask : BitVec 5} {s : State} :
    Within (.regs :: .pin :: events) s (lockGroups who mask s) := by
  unfold lockGroups
  exact State.modPin_within.mono.trans (.ite State.setRegF_within.mono .refl) |>.step raise_within

theorem lockWrite_within {who : Requester} {key : Byte} {mask : BitVec 5} {s : State} :
    Within (.regs :: .pin :: events) s (lockWrite who key mask s) := by
  unfold lockWrite
  exact .ite State.modPin_within.mono (.ite State.modPin_within.mono (.ite (State.modPin_within.mono.step lockGroups_within) State.modPin_within.mono))

theorem breakLock_within {who : Requester} {s : State} :
    Within [.pin] s (breakLock who s) := by
  unfold breakLock
  exact State.modPin_within.mono

theorem loadIr_within {code : ℕ} {s : State} :
    Within [.pin] s (loadIr code s) := by
  unfold loadIr
  exact State.modPin_within.mono

theorem captureScan_within {s : State} :
    Within [.pin, .seed] s (captureScan s) := by
  unfold captureScan
  exact State.fresh_within.mono.step State.modPin_within

theorem takePins_within {code : ℕ} {s : State} :
    Within (.pin :: events) s (takePins code s) := by
  unfold takePins
  exact .ite loadIr_within.mono (State.modPin_within.mono.step loadIr_within |>.step raise_within)

theorem execJtagExtest_goes {s : State} :
    Goes s (execJtagExtest s) := by
  unfold execJtagExtest
  exact .done takePins_within.mono

theorem execJtagExtestPulse_goes {s : State} :
    Goes s (execJtagExtestPulse s) := by
  unfold execJtagExtestPulse
  exact .done takePins_within.mono

theorem execJtagExtestTrain_goes {s : State} :
    Goes s (execJtagExtestTrain s) := by
  unfold execJtagExtestTrain
  exact .done takePins_within.mono

theorem execJtagHighz_goes {s : State} :
    Goes s (execJtagHighz s) := by
  unfold execJtagHighz
  exact .done takePins_within.mono

theorem execJtagClamp_goes {s : State} :
    Goes s (execJtagClamp s) := by
  unfold execJtagClamp
  exact .done takePins_within.mono

theorem execJtagSamplePreload_goes {s : State} :
    Goes s (execJtagSamplePreload s) := by
  unfold execJtagSamplePreload
  exact .done (loadIr_within.mono.step captureScan_within)

theorem execJtagIdcode_goes {s : State} :
    Goes s (execJtagIdcode s) := by
  unfold execJtagIdcode
  exact .done loadIr_within.mono

theorem execJtagDbgap_goes {s : State} :
    Goes s (execJtagDbgap s) := by
  unfold execJtagDbgap
  exact .done loadIr_within.mono

theorem execJtagBypass_goes {s : State} :
    Goes s (execJtagBypass s) := by
  unfold execJtagBypass
  exact .done loadIr_within.mono

theorem execJtagTestLogicReset_goes {s : State} :
    Goes s (execJtagTestLogicReset s) := by
  unfold execJtagTestLogicReset
  exact .done (State.modPin_within.mono.step loadIr_within)

theorem execGclkChangeEffect_goes {n : Fin 32} {s : State} :
    Goes s (execGclkChangeEffect n s) := by
  unfold execGclkChangeEffect
  exact .ite (.done .refl) (.done (State.modLys_within).mono)

theorem execFpllMultEffect_goes {p : Fin 2} {s : State} :
    Goes s (execFpllMultEffect p s) := by
  unfold execFpllMultEffect
  exact .ite (.done (State.modLys_within).mono) (.done .refl)

theorem execXtalSwitch_goes {s : State} :
    Goes s (execXtalSwitch s) := by
  unfold execXtalSwitch
  exact .done (.ite (State.modLys_within).mono .refl)

theorem execXtalFail_goes {s : State} :
    Goes s (execXtalFail s) := by
  unfold execXtalFail
  exact .done (.ite ((State.modLys_within).mono.step raise_within) .refl)

theorem execRefclkAppearingOrDisappearing_goes {present : Bool} {s : State} :
    Goes s (execRefclkAppearingOrDisappearing present s) := by
  unfold execRefclkAppearingOrDisappearing
  exact .done (State.modLys_within).mono

theorem execRefclkMonitorTrip_goes {s : State} :
    Goes s (execRefclkMonitorTrip s) := by
  unfold execRefclkMonitorTrip
  exact .ite (.done .refl) (.done ((State.modLys_within).mono.step raise_within |>.step deviceFault_within))

theorem execPllLockLoss_goes {pll : Fin 7} {s : State} :
    Goes s (execPllLockLoss pll s) := by
  unfold execPllLockLoss
  exact .ite (.done .refl) (.done ((Within.ite (State.modLys_within).mono .refl).step raise_within |>.step deviceFault_within))

theorem execSupplyMonitorTrip_goes {rail : Fin 7} {high : Bool} {s : State} :
    Goes s (execSupplyMonitorTrip rail high s) := by
  unfold execSupplyMonitorTrip
  exact .done (raise_within.mono.step deviceFault_within)

theorem State.modTicket_within {s : State} {f : Ticket → Ticket} :
    Within [.lys] s (s.modTicket f) := by
  unfold State.modTicket
  exact (State.modLys_within).mono

theorem ticketEvent_within {party : ℕ} {reason : ℕ} {s : State} :
    Within events s (ticketEvent party reason s) := by
  unfold ticketEvent
  exact raise_within.mono

theorem ticketOpen_within {who : Requester} {s : State} :
    Within (.lys :: events) s (ticketOpen who s) := by
  unfold ticketOpen
  dsimp only
  split
  · exact .refl
  · exact .ite ticketEvent_within.mono ((State.modTicket_within).mono.step (State.modTicket_within) |>.step raise_within)

theorem ticketStage_within {who : Requester} {val : Word} {s : State} :
    Within (.lys :: events) s (ticketStage who val s) := by
  unfold ticketStage
  dsimp only
  split
  · exact raiseRefused_within.mono
  · exact .ite ticketEvent_within.mono ((State.modTicket_within).mono.step (State.modTicket_within))

theorem ticketCommit_within {who : Requester} {digest : Word} {num : ℕ} {s : State} :
    Within (.lys :: events) s (ticketCommit who digest num s) := by
  unfold ticketCommit
  dsimp only
  split
  · exact .refl
  · exact .ite .refl (.ite ticketEvent_within.mono (.ite ticketEvent_within.mono (.ite ((State.modTicket_within).mono.step ticketEvent_within) (State.modTicket_within).mono)))

theorem ticketAbort_within {who : Requester} {num : ℕ} {s : State} :
    Within (.lys :: events) s (ticketAbort who num s) := by
  unfold ticketAbort
  dsimp only
  split
  · exact .refl
  · exact .ite .refl (.ite ticketEvent_within.mono ((State.modTicket_within).mono.step ticketEvent_within))

theorem ticketExpire_within {s : State} :
    Within (.lys :: events) s (ticketExpire s) := by
  unfold ticketExpire
  exact (State.modTicket_within).mono.step ticketEvent_within

theorem execTicketStagingExpire_goes {s : State} :
    Goes s (execTicketStagingExpire s) := by
  unfold execTicketStagingExpire
  exact .done (.ite ticketExpire_within.mono .refl)

theorem execTicketArmedExpire_goes {s : State} :
    Goes s (execTicketArmedExpire s) := by
  unfold execTicketArmedExpire
  exact .done (.ite ticketExpire_within.mono .refl)

theorem execMgmtCoreFault_goes {watchdog : Bool} {s : State} :
    Goes s (execMgmtCoreFault watchdog s) := by
  unfold execMgmtCoreFault
  exact .done ((Within.ite ((State.modLys_within).mono.step raise_within |>.step ticketExpire_within) ((State.modLys_within).mono.step raise_within)).step deviceFault_within)

theorem execMgmtCoreRestartDone_goes {s : State} :
    Goes s (execMgmtCoreRestartDone s) := by
  unfold execMgmtCoreRestartDone
  exact .done (State.modLys_within).mono

theorem enterState_within {t : ℕ} {cause : ℕ} {s : State} :
    Within (.fab :: .twn :: .lys :: .pin :: events) s (enterState t cause s) := by
  unfold enterState
  exact (State.modLys_within).mono.step raise_within |>.trans (.ite abandonRejoin_within.mono .refl)

theorem placeExitRefills_within {s : State} :
    Within [.lib] s (placeExitRefills s) := by
  unfold placeExitRefills
  exact .forEach (fun _ _ => .ite .refl (.forEach (fun _ _ => State.modLib_within.mono)))

theorem startExit_within {dst : ℕ} {cause : ℕ} {s : State} :
    Within [.lib, .grt, .lys] s (startExit dst cause s) := by
  unfold startExit
  exact .ite .refl ((State.modLys_within).mono.trans (.ite (State.modGrt_within).mono .refl) |>.trans (.ite placeExitRefills_within.mono .refl))

theorem askExit_within {dst : ℕ} {cause : ℕ} {s : State} :
    Within [.lib, .grt, .lys, .out] s (askExit dst cause s) := by
  unfold askExit
  exact .ite sendTwin_within.mono startExit_within.mono

theorem wakeUp_within {b : ℕ} {s : State} :
    Within (.regs :: .lib :: .grt :: .lys :: events) s (wakeUp b s) := by
  unfold wakeUp
  exact .ite .refl ((State.modLys_within).mono.step raise_within |>.step State.setRegF_within |>.trans (.ite .refl askExit_within.mono))

theorem execWake_goes {source : Fin 7} {s : State} :
    Goes s (execWake source s) := by
  unfold execWake
  exact .done wakeUp_within.mono

theorem execLadderTimerExpire_goes {s : State} :
    Goes s (execLadderTimerExpire s) := by
  unfold execLadderTimerExpire
  exact .done (.ite ((State.modLys_within).mono.step wakeUp_within) .refl)

theorem pwrWritten_within {s : State} :
    Within [.lib, .grt, .lys, .out] s (pwrWritten s) := by
  unfold pwrWritten
  exact .ite askExit_within.mono (State.modLys_within).mono

theorem tickSummaries_within {s : State} :
    Within (.grt :: .que :: .xlt :: .cry :: .net :: .twn :: .pin :: events) s (tickSummaries s) := by
  unfold tickSummaries
  exact (Within.forEach (fun _ _ => raise_within.mono)).trans (.forEach (fun _ _ => raise_within.mono)) |>.trans (.forEach (fun _ _ => .ite .refl raise_within.mono)) |>.trans (.forEach (fun _ _ => .ite .refl raise_within.mono)) |>.trans (.ite .refl raise_within.mono) |>.trans (.ite raise_within.mono .refl) |>.trans (.ite raise_within.mono .refl) |>.trans (.ite raise_within.mono .refl) |>.trans (.ite .refl raise_within.mono) |>.trans (.forEach (fun _ _ => .ite .refl raise_within.mono)) |>.trans (.forEach (fun _ _ => raise_within.mono)) |>.trans (.forEach (fun _ _ => raise_within.mono)) |>.trans (.forEach (fun _ _ => raise_within.mono)) |>.trans (.forEach (fun _ _ => raise_within.mono)) |>.trans (.ite .refl raise_within.mono) |>.trans (.forEach (fun _ _ => .ite .refl raise_within.mono)) |>.step que_within |>.step (State.modGrt_within) |>.step State.modXlt_within |>.step State.modCry_within |>.step State.modNet_within |>.step (State.modTwn_within) |>.step State.modEv_within |>.step State.modPin_within

theorem tickLoads_within {env : TickEnv} {s : State} :
    Within [.cry, .twn] s (tickLoads env s) := by
  unfold tickLoads
  exact State.modCry_within.mono.step State.modTwn_within

theorem tickUpsets_within {env : TickEnv} {s : State} :
    Within [.lib, .xlt, .cry] s (tickUpsets env s) := by
  unfold tickUpsets
  exact (Within.forEach (fun _ _ => tlbParity_within.mono)).trans (.forEach (fun _ _ => spoilKey_within.mono)) |>.trans (.forEach (fun _ _ => State.modKey_within.mono)) |>.trans (.forEach (fun _ _ => State.modSlot_within.mono)) |>.step State.modCry_within |>.step State.modXlt_within

theorem setBank_within {k : ℕ} {level : BitVec 48} {s : State} :
    Within (.regs :: .fab :: .lib :: .que :: .cry :: .gvl :: .twn :: .pin :: .seed :: events) s (setBank k level s) := by
  unfold setBank
  exact State.modPin_within.mono.trans (.ite clockInputRises_within.mono .refl)

theorem tickInputs_within {balls : BitVec 768} {s : State} :
    Within (.regs :: .fab :: .lib :: .que :: .cry :: .gvl :: .twn :: .pin :: .seed :: events) s (tickInputs balls s) := by
  unfold tickInputs
  exact .forEach (fun _ _ => .ite (.ite sendTwin_within.mono (State.modTwn_within).mono) setBank_within.mono)

theorem tickPins_within {env : TickEnv} {s : State} :
    Within (.pin :: events) s (tickPins env s) := by
  unfold tickPins
  exact (Within.forEach (fun _ _ => State.modPin_within.mono.trans (.ite .refl (State.modPin_within.mono.trans (.ite .refl raise_within.mono))))).trans (.forEach (fun _ _ => .ite State.modPin_within.mono .refl))

theorem takeReadings_within {env : TickEnv} {s : State} :
    Within [.lys] s (takeReadings env s) := by
  unfold takeReadings
  exact (State.modLys_within).mono

theorem thermalCheck_within {oldTj : ℤ} {s : State} :
    Within (.fab :: .cry :: .gvl :: .twn :: .lys :: .pin :: events) s (thermalCheck oldTj s) := by
  unfold thermalCheck
  exact (Within.ite ((State.modLys_within).mono.step raise_within) (.ite ((State.modLys_within).mono.step raise_within) .refl)).trans (.ite ((State.modLys_within).mono.step raise_within) (.ite ((State.modLys_within).mono.step raise_within) .refl)) |>.trans (.ite ((Within.ite enterState_within.mono .refl).step raise_within |>.step deviceFault_within) .refl)

theorem capCheck_within {s : State} :
    Within (.lys :: events) s (capCheck s) := by
  unfold capCheck
  exact (Within.ite ((State.modLys_within).mono.step raise_within) .refl).step (State.modLys_within)

theorem applyStretch_within {level : ℕ} {s : State} :
    Within (.lys :: events) s (applyStretch level s) := by
  unfold applyStretch
  exact (Within.ite (.ite .refl raise_within.mono) (.ite (.ite .refl raise_within.mono) ((Within.ite .refl raise_within.mono).step raise_within))).step (State.modLys_within)

theorem stretchClocks_within {s : State} :
    Within (.lys :: events) s (stretchClocks s) := by
  unfold stretchClocks
  exact .ite (.ite sendTwin_within.mono .refl) applyStretch_within.mono

theorem tickRejoin_within {s : State} :
    Within [.twn] s (tickRejoin s) := by
  unfold tickRejoin
  exact .ite (State.modTwn_within).mono .refl

theorem tickLadder_within {s : State} :
    Within (.lys :: events) s (tickLadder s) := by
  unfold tickLadder
  dsimp only
  split
  · exact (State.modLys_within).mono
  · split
    · exact (State.modLys_within).mono
    · exact (Within.ite raise_within.mono .refl).step (State.modLys_within)

theorem tickTree_within {bad : List (Fin 15)} {s : State} :
    Within events s (tickTree bad s) := by
  unfold tickTree
  exact sumNodes_within.mono.trans (.forEach (fun _ _ => raise_within.mono)) |>.trans (.forEach (fun _ _ => (State.modEv_within).mono))

theorem execTick_goes {env : TickEnv} {s : State} :
    Goes s (execTick env s) := by
  unfold execTick
  exact .ite (.done ((State.modLys_within).mono.step tickLoads_within |>.step tickSummaries_within |>.step clearErrors_within |>.step tickUpsets_within |>.trans (.forEach (fun _ _ => .ite leafLost_within.mono .refl)) |>.trans (.forEach (fun _ _ => .ite episodeLost_within.mono .refl)) |>.step tickInputs_within |>.step tickPins_within |>.step State.modCfg_within)) (.done ((State.modLys_within).mono.step tickLoads_within |>.step tickSummaries_within |>.step clearErrors_within |>.step tickUpsets_within |>.trans (.forEach (fun _ _ => .ite leafLost_within.mono .refl)) |>.trans (.forEach (fun _ _ => .ite episodeLost_within.mono .refl)) |>.step tickInputs_within |>.step tickPins_within |>.step State.modCfg_within |>.step takeReadings_within |>.step thermalCheck_within |>.step capCheck_within |>.step stretchClocks_within |>.step tickTree_within |>.step tickLadder_within |>.step tickRejoin_within |>.step tickCommit_within))

theorem mailboxCommand_within {who : Requester} {code : ℕ} {arg : ℕ} {s : State} :
    Within [.lys] s (mailboxCommand who code arg s) := by
  unfold mailboxCommand
  exact .ite .refl (State.modLys_within).mono

theorem execMailboxReply_goes {who : Requester} {s : State} :
    Goes s (execMailboxReply who s) := by
  unfold execMailboxReply
  exact .ite (.done .refl) (.done (State.modLys_within).mono)

theorem execSmbusBlockRead_goes {command : Byte} {s : State} :
    Goes s (execSmbusBlockRead command s) := by
  unfold execSmbusBlockRead
  exact .ite (.done State.send_within.mono) (.done State.send_within.mono)

theorem execSmbusReadWord_goes {command : Byte} {s : State} :
    Goes s (execSmbusReadWord command s) := by
  unfold execSmbusReadWord
  exact .ite (.done State.send_within.mono) (.done State.send_within.mono)

theorem execSmbusAlertResponse_goes {s : State} :
    Goes s (execSmbusAlertResponse s) := by
  unfold execSmbusAlertResponse
  exact .ite (.done State.send_within.mono) (.done State.send_within.mono)

theorem holdCapture_within {who : ℕ} {off : ℕ} {v : Word} {s : State} :
    Within [.captures] s (holdCapture who off v s) := by
  unfold holdCapture
  exact captures_within.mono

theorem useCapture_within {who : ℕ} {off : ℕ} {s : State} :
    Within [.captures] s (useCapture who off s).2 := by
  unfold useCapture
  split
  · exact captures_within.mono
  · exact .refl

theorem autoInc_within {off : ℕ} {len : ℕ} {n : ℕ} {s : State} :
    Within [.regs] s (autoInc off len n s) := by
  unfold autoInc
  exact .ite State.setRegF_within.mono .refl

theorem readReg_within {who : ℕ} {off : ℕ} {s : State} :
    Within [.regs, .captures, .ev] s (readReg who off s).2 := by
  unfold readReg
  exact .ite_snd holdCapture_within.mono (.ite_snd useCapture_within.mono (.ite_snd (.pair_snd (holdCapture_within.mono.step autoInc_within)) (.ite_snd holdCapture_within.mono (.ite_snd useCapture_within.mono (.ite_snd autoInc_within.mono (.ite_snd captureRecord_within.mono .refl))))))

theorem takeTwinSetup_within {s : State} :
    Within [.twn] s (takeTwinSetup s) := by
  unfold takeTwinSetup
  exact (State.modTwn_within).mono

theorem beginSync_within {s : State} :
    Within [.cfg, .twn, .out, .pci] s (beginSync s) := by
  unfold beginSync
  exact (State.modTwn_within).mono.step State.modCfg_within |>.trans (.ite .refl setPair_within.mono) |>.step sendTwin_within

theorem goOnAlone_within {s : State} :
    Within (.fab :: .integ :: .cfg :: .twn :: .pin :: events) s (goOnAlone s) := by
  unfold goOnAlone
  exact (State.modTwn_within).mono.step setPair_within |>.step raise_within |>.step releaseFabric_within

theorem goOnSilent_within {s : State} :
    Within (.fab :: .integ :: .cry :: .cfg :: .gvl :: .twn :: .pin :: events) s (goOnSilent s) := by
  unfold goOnSilent
  exact failSilent_within.mono.step releaseFabric_within

theorem rejoinStart_within {h : Option Hello} {uid : ℕ} {lines : ℕ} {s : State} :
    Within (.twn :: events) s (rejoinStart h uid lines s) := by
  unfold rejoinStart
  dsimp only
  split
  · exact .refl
  · split
    · exact raise_within.mono
    · exact (State.modTwn_within).mono.step setPair_within |>.step raise_within

theorem linesLogged_within {s : State} :
    Within [.seed] s (linesLogged s).2 := by
  unfold linesLogged
  exact State.fresh_within.mono

theorem rejoinCommand_within {s : State} :
    Within (.twn :: .seed :: events) s (rejoinCommand s) := by
  unfold rejoinCommand
  exact linesLogged_within.mono.step rejoinStart_within

theorem execHelloReceive_goes {hello : Hello} {s : State} :
    Goes s (execHelloReceive hello s) := by
  unfold execHelloReceive
  dsimp only
  split
  · exact .done .refl
  · split
    · exact .done ((State.modTwn_within).mono.step linesLogged_within |>.step rejoinStart_within)
    · split
      · exact .done (State.modTwn_within).mono
      · split
        · exact .done ((State.modTwn_within).mono.step State.modTwn_within)
        · exact .done (.ite ((State.modTwn_within).mono.step raise_within |>.step goOnAlone_within) ((State.modTwn_within).mono.step raise_within |>.step goOnSilent_within))

theorem execSyncTimeout_goes {lineLow : Bool} {s : State} :
    Goes s (execSyncTimeout lineLow s) := by
  unfold execSyncTimeout
  exact .ite (.done .refl) (.ite (.done ((State.modTwn_within).mono.step raise_within |>.step goOnSilent_within)) (.done (State.modTwn_within).mono))

theorem execArbitrationEnd_goes {won : Bool} {s : State} :
    Goes s (execArbitrationEnd won s) := by
  unfold execArbitrationEnd
  exact .ite (.done .refl) (.done (.ite ((State.modTwn_within).mono.step raise_within |>.step goOnAlone_within) ((State.modTwn_within).mono.step raise_within |>.step goOnSilent_within)))

theorem execSyncBarrier_goes {s : State} : Goes s (execSyncBarrier s) := by
  unfold execSyncBarrier
  split
  · exact .done .refl
  · next h _ =>
    have htime : Sound hardware s (if s.twn.lead then s else s.modLys fun l => { l with tbase := h.barrier }) := by
      split
      · exact .refl
      · exact State.modLys_sound.mono
    have hpair : ∀ (r : Nat) (u : State), Sound hardware u (setPair r 2 u) := fun _ _ => setPair_sound.mono
    exact .ite (.done .refl) (.sound (htime.trans (Within.sound (takeTwinSetup_within.mono.step State.modFab_within
      |>.step State.modTwn_within) |>.trans (hpair _ _) |>.trans (Within.sound (raise_within.mono.step releaseFabric_within)))))

theorem takeQueue_within {q : ℕ} {s : State} :
    Within (.lib :: .que :: .xlt :: .net :: .twn :: events) s (takeQueue q s) := by
  unfold takeQueue
  exact (Within.forEach (fun _ _ => State.send_within.mono)).step State.modQu_within |>.step State.modQu_within |>.step askDoorbell_within

theorem execTakeover_goes {s : State} :
    Goes s (execTakeover s) := by
  unfold execTakeover
  exact .ite (.done .refl) (.done ((State.modTwn_within).mono.step setPair_within |>.step raise_within |>.trans (.forEach (fun _ _ => takeQueue_within.mono)) |>.trans (.forEach (fun _ _ => setBank_within.mono)) |>.step State.modTwn_within))

theorem execSidebandFault_goes {s : State} :
    Goes s (execSidebandFault s) := by
  unfold execSidebandFault
  exact .done (.ite ((State.modTwn_within).mono.step failSilent_within) .refl)

theorem diagnosed_within {policy : ℕ} {who : ℕ} {s : State} :
    Within (.cry :: .gvl :: .twn :: events) s (diagnosed policy who s) := by
  unfold diagnosed
  exact raise_within.mono.step failSilent_within

theorem mismatch_within {cls : ℕ} {s : State} :
    Within (.integ :: .cry :: .gvl :: .twn :: events) s (mismatch cls s) := by
  unfold mismatch
  dsimp only
  split
  · exact (State.modTwn_within).mono.step raise_within |>.step diagnosed_within
  · exact (State.modTwn_within).mono.step raise_within |>.step State.modTwn_within |>.step State.modInteg_within
  · exact (State.modTwn_within).mono.step raise_within |>.step diagnosed_within

theorem execCommitRecord_goes {q : QueueId} {bytes : List Byte} {own : List Byte} {s : State} :
    Goes s (execCommitRecord q bytes own s) := by
  unfold execCommitRecord
  exact .ite (.done .refl) (.done (.ite ((State.modTwn_within).mono.step sendTwin_within) ((State.modTwn_within).mono.step sendTwin_within |>.step mismatch_within)))

theorem execCommitRecordAck_goes {q : QueueId} {s : State} :
    Goes s (execCommitRecordAck q s) := by
  unfold execCommitRecordAck
  exact .ite (.done .refl) (.done sendHeld_within.mono)

theorem execProgressRecord_goes {q : QueueId} {cid : BitVec 16} {offset : Word} {own : Word} {s : State} :
    Goes s (execProgressRecord q cid offset own s) := by
  unfold execProgressRecord
  exact .ite (.done .refl) (.done (.ite (State.modTwn_within).mono ((State.modTwn_within).mono.step mismatch_within)))

theorem execSelfcheckLapEnd_goes {s : State} :
    Goes s (execSelfcheckLapEnd s) := by
  unfold execSelfcheckLapEnd
  exact .ite (.done .refl) (.done (.ite ((State.modTwn_within).mono.step diagnosed_within) (State.modTwn_within).mono))

theorem execFailsilentReceive_goes {s : State} :
    Goes s (execFailsilentReceive s) := by
  unfold execFailsilentReceive
  exact .done (.ite abandonRejoin_within.mono (.ite goAlone_within.mono (.ite (State.modTwn_within).mono .refl)))

theorem execHeartbeatTimeout_goes {s : State} :
    Goes s (execHeartbeatTimeout s) := by
  unfold execHeartbeatTimeout
  exact .done (.ite ((State.modTwn_within).mono.step goAlone_within) .refl)

theorem execAloneReceive_goes {s : State} :
    Goes s (execAloneReceive s) := by
  unfold execAloneReceive
  exact .done (.ite failSilent_within.mono .refl)

theorem execPinCompareMismatch_goes {pin : Fin 768} {s : State} :
    Goes s (execPinCompareMismatch pin s) := by
  unfold execPinCompareMismatch
  exact .done (.ite mismatch_within.mono .refl)

theorem execMirroredOutboundFlit_goes {b : BundleId} {bytes : FlitBytes} {own : FlitBytes} {s : State} :
    Goes s (execMirroredOutboundFlit b bytes own s) := by
  unfold execMirroredOutboundFlit
  exact .done (.ite mismatch_within.mono .refl)

theorem execGrottoCrcExchange_goes {own : Word} {partner : Word} {s : State} :
    Goes s (execGrottoCrcExchange own partner s) := by
  unfold execGrottoCrcExchange
  exact .done (.ite mismatch_within.mono .refl)

theorem execRejoinAuto_goes {uid : BitVec 64} {lines : BitVec 22} {s : State} :
    Goes s (execRejoinAuto uid lines s) := by
  unfold execRejoinAuto
  exact .done (.ite rejoinStart_within.mono .refl)

theorem execRejoinBarrier_goes {micros : ℕ} {s : State} :
    Goes s (execRejoinBarrier micros s) := by
  unfold execRejoinBarrier
  exact .ite (.done .refl) (.done (holdChambers_within.mono.trans (.forEach (fun _ _ => .forEach (fun _ _ => .ite sendTwin_within.mono .refl))) |>.step State.modTwn_within))

theorem takeState_within {c : ℕ} {s : State} :
    Within [.fab, .seed] s (takeState c s) := by
  unfold takeState
  exact State.modChm_within.mono.step seed_within

theorem execRejoinEnd_goes {micros tbase : Nat} {s : State} : Goes s (execRejoinEnd micros tbase s) := by
  unfold execRejoinEnd
  have htaken : Within hardware s (takeTwinSetup (forEach (s.fab.chambers.map (·.1)) takeState s)) :=
    (Within.forEach fun _ _ => takeState_within.mono).step takeTwinSetup_within
  have htime : ∀ u : State, Sound hardware u (u.modLys fun l => { l with tbase := tbase }) :=
    fun _ => State.modLys_sound.mono
  have hpair : ∀ (r : Nat) (u : State), Sound hardware u (setPair r 2 u) := fun _ _ => setPair_sound.mono
  refine .ite (.sound ?_) (.ite (.sound ?_) (.done .refl))
  · exact Within.sound (releaseBarrier_within.mono.step takeTwinSetup_within |>.step State.modTwn_within)
      |>.trans (hpair _ _) |>.trans raise_within.mono.sound
  · exact htaken.sound.trans ((htime _).trans (Within.sound (State.modFab_within.mono.step State.modTwn_within
      |>.step State.modCfg_within) |>.trans (hpair _ _) |>.trans raise_within.mono.sound))

theorem execRejoinAbandon_goes {micros : ℕ} {s : State} :
    Goes s (execRejoinAbandon micros s) := by
  unfold execRejoinAbandon
  exact .done abandonRejoin_within.mono

theorem storeReg_within {off : ℕ} {v : Word} {s : State} :
    Within [.regs] s (storeReg off v s) := by
  unfold storeReg
  exact State.setReg_within.mono

theorem requestResets_within {mask : Word} {s : State} :
    Within (.rst :: events) s (requestResets mask s) := by
  unfold requestResets
  exact .ite .refl (.ite raise_within.mono State.modRst_within.mono)

theorem abandonQueue_within {q : ℕ} {s : State} :
    Within (.lib :: .que :: .xlt :: .net :: .twn :: events) s (abandonQueue q s) := by
  unfold abandonQueue
  dsimp only
  split
  · exact .refl
  · split
    · exact resumeQueue_within.mono
    · exact (Within.ite dropLoad_within.mono .refl).step endDesc_within |>.step raise_within |>.step resumeQueue_within

theorem lysWrite_within {who : Requester} {off : ℕ} {lo : Word} {v : Word} {s : State} :
    Within (.regs :: .rst :: .lib :: .grt :: .lys :: events) s (lysWrite who off lo v s) := by
  unfold lysWrite
  split
  · exact .ite (State.modLys_within).mono .refl
  · exact storeReg_within.mono.step pwrWritten_within
  · exact (State.modLys_within).mono
  · exact requestResets_within.mono
  · exact .ite ticketOpen_within.mono .refl
  · exact ticketStage_within.mono
  · exact .ite ticketCommit_within.mono ticketAbort_within.mono
  · exact mailboxCommand_within.mono
  · exact storeReg_within.mono

theorem fabWrite_within {off : ℕ} {v : Word} {s : State} :
    Within [.regs, .fab, .que] s (fabWrite off v s) := by
  unfold fabWrite
  exact .ite acceptFire_within.mono storeReg_within.mono

theorem chmCtrlWrite_within {c : ℕ} {v : Word} {s : State} :
    Within (.regs :: .fab :: events) s (chmCtrlWrite c v s) := by
  unfold chmCtrlWrite
  exact .ite storeReg_within.mono (.ite (storeReg_within.mono.trans (.ite .refl State.modChm_within.mono)) (stopSchedule_within.mono.step State.modChm_within |>.step storeReg_within))

theorem chmWrite_within {off : ℕ} {v : Word} {s : State} :
    Within (.regs :: .fab :: .que :: events) s (chmWrite off v s) := by
  unfold chmWrite
  dsimp only
  split
  · exact chmCtrlWrite_within.mono
  · exact acceptCmd_within.mono
  · exact State.modChm_within.mono.step autoInc_within
  · exact storeReg_within.mono

theorem grtWrite_within {off : ℕ} {v : Word} {s : State} :
    Within (.regs :: .fab :: .grt :: events) s (grtWrite off v s) := by
  unfold grtWrite
  exact .ite grtGrpWrite_within.mono (.ite grtSegWrite_within.mono (.ite (.ite (State.modGrt_within).mono .refl) (.ite grtCtrlWrite_within.mono storeReg_within.mono)))

theorem xltWrite_within {off : Nat} {v : Word} {s : State} : Within hardware s (xltWrite off v s) := by
  unfold xltWrite
  split
  · exact storeReg_within.mono.step fctrlWritten_within
  · exact invCommand_within.mono
  · exact storeReg_within.mono.step serveTags_within
  · exact storeReg_within.mono.step serveTags_within
  · exact storeReg_within.mono.step serveTags_within
  · exact abandonQueue_within.mono
  · exact storeReg_within.mono

theorem gvlWrite_within {off : ℕ} {v : Word} {s : State} :
    Within (.regs :: .fab :: .cry :: .gvl :: .net :: .twn :: .pin :: events) s (gvlWrite off v s) := by
  unfold gvlWrite
  dsimp only
  split
  · split
    · exact storeReg_within.mono.step ctrlWritten_within
    · exact storeReg_within.mono.step testWritten_within
    · exact storeReg_within.mono
  · exact .ite srdataWritten_within.mono (.ite (storeReg_within.mono.trans (.ite announce_within.mono .refl)) storeReg_within.mono)

theorem echWrite_within {off : ℕ} {v : Word} {s : State} :
    Within (.regs :: events) s (echWrite off v s) := by
  unfold echWrite
  split
  · split
    · exact rearm_within.mono
    · exact clearLog_within.mono
    · exact requestCommit_within.mono
  · exact storeReg_within.mono

theorem svcWrite_within {off : ℕ} {v : Word} {s : State} :
    Within [.regs, .pin] s (svcWrite off v s) := by
  unfold svcWrite
  exact storeReg_within.mono.trans (.ite State.modPin_within.mono .refl)

theorem pinWrite_within {who : Requester} {off : ℕ} {v : Word} {s : State} :
    Within (.regs :: .pin :: events) s (pinWrite who off v s) := by
  unfold pinWrite
  exact .ite lockWrite_within.mono (.ite State.modPin_within.mono (.ite State.modPin_within.mono (.ite State.modPin_within.mono (.ite storeReg_within.mono (.ite svcWrite_within.mono (.ite (.ite State.modPort_within.mono .refl) (.ite .refl storeReg_within.mono)))))))

theorem performWrite_within {who : Requester} {off : ℕ} {lo : Word} {v : Word} {s : State} :
    Within hardware s (performWrite who off lo v s) := by
  unfold performWrite
  exact (Within.ite storeReg_within.mono .refl).trans (.ite .refl (.ite lysWrite_within.mono (.ite fabWrite_within.mono (.ite chmWrite_within.mono (.ite (.ite libAccept_within.mono storeReg_within.mono) (.ite grtWrite_within.mono (.ite (.ite (storeReg_within.mono.step queCtrlWritten_within) storeReg_within.mono) (.ite xltWrite_within.mono (.ite storeReg_within.mono (.ite gvlWrite_within.mono (.ite (.ite rejoinCommand_within.mono storeReg_within.mono) (.ite echWrite_within.mono (.ite pinWrite_within.mono (.ite storeReg_within.mono kickWrite_within.mono))))))))))))))

theorem pinSequence_within {who : Requester} {off : ℕ} {s : State} :
    Within [.pin] s (pinSequence who off s) := by
  unfold pinSequence
  exact .ite breakLock_within.mono .refl

theorem writeWhole_within {who : Requester} {off : ℕ} {at_ : ℕ} {lo : Word} {v : Word} {s : State} :
    Within hardware s (writeWhole who off at_ lo v s) := by
  unfold writeWhole
  split
  · exact pinSequence_within.mono.step raiseRefused_within
  · exact pinSequence_within.mono.step performWrite_within

theorem stageHalf_within {who : ℕ} {off : ℕ} {v : Word} {s : State} :
    Within [.staged] s (stageHalf who off v s) := by
  unfold stageHalf
  exact staged_within.mono

theorem loHalf_within {who : ℕ} {off : ℕ} {s : State} :
    Within [.staged] s (loHalf who off s).2 := by
  unfold loHalf
  split
  · exact staged_within.mono
  · exact .refl

theorem write32_within {who : Requester} {off : ℕ} {v : Word} {s : State} :
    Within hardware s (write32 who off v s) := by
  unfold write32
  exact .ite (.ite stageHalf_within.mono .refl) (.ite (loHalf_within.mono.step writeWhole_within) writeWhole_within.mono)

theorem discardWrite_within {who : ℕ} {off : ℕ} {s : State} :
    Within [.twn] s (discardWrite who off s) := by
  unfold discardWrite
  exact (State.modTwn_within).mono

theorem writeReg_within {who : Requester} {off : ℕ} {be : BitVec 4} {v : Word} {s : State} :
    Within hardware s (writeReg who off be v s) := by
  unfold writeReg
  exact .ite .refl (.ite discardWrite_within.mono (.ite (pinSequence_within.mono.step raiseRefused_within) (.ite sendTwin_within.mono write32_within.mono)))

theorem writeBoth_within {off : ℕ} {v : BitVec 64} {s : State} :
    Within hardware s (writeBoth off v s) := by
  unfold writeBoth
  exact .ite writeWhole_within.mono .refl

theorem halves_within {c l : List Half} {s : State} :
    Within [.captures, .staged] s { s with captures := c, staged := l } :=
  (captures_within (l := c)).mono.step (staged_within (l := l))

theorem partialPair_within {off : Nat} {s : State} :
    Within (.captures :: .staged :: .twn :: .pin :: events) s (partialPair off s) := by
  unfold partialPair
  exact halves_within.mono.trans (.ite discardWrite_within.mono (pinSequence_within.mono.step raiseRefused_within))

theorem writePair_within {off : Nat} {v : BitVec 64} {s : State} : Within hardware s (writePair off v s) := by
  unfold writePair
  exact .ite .refl (halves_within.mono.trans
    (.ite discardWrite_within.mono (.ite sendTwin_within.mono writeBoth_within.mono)))

theorem reply_within {who : Requester} {off : ℕ} {v : Word} {s : State} :
    Within [.out] s (reply who off v s) := by
  unfold reply
  exact State.send_within.mono

theorem read32_within {who : Requester} {off : ℕ} {s : State} :
    Within [.regs, .captures, .ev, .out] s (read32 who off s) := by
  unfold read32
  exact .ite (.when State.send_within.mono) (readReg_within.mono.step reply_within)

theorem abortRequest_within {k : ℕ} {s : State} :
    Within (.fab :: .lib :: .que :: .seed :: events) s (abortRequest k s) := by
  unfold abortRequest
  dsimp only
  split
  · exact .refl
  · exact .ite (State.fresh_within.mono.step abortRefill_within) (.ite (State.modLib_within.mono.step raise_within |>.step endStream_within) (raise_within.mono.step endStream_within))

theorem abortReads_within {c : ℕ} {s : State} :
    Within [.fab, .out] s (abortReads c s) := by
  unfold abortReads
  exact .ite .refl (State.modChm_within.mono.trans (.forEach (fun _ _ => State.send_within.mono)))

theorem abortPorts_within {t : ℕ} {s : State} :
    Within [.fab, .out] s (abortPorts t s) := by
  unfold abortPorts
  exact (Within.forEach (fun _ _ => abortReads_within.mono)).trans (.forEach (fun _ _ => State.send_within.mono))

theorem endCut_within {l : List (ℕ × ℕ)} {s : State} :
    Within (.lib :: .que :: events) s (endCut l s) := by
  unfold endCut
  refine .forEach (fun _ _ => ?_)
  refine .step ?_ sweepLoads_within
  split
  · exact endDesc_within.mono
  · exact .refl

theorem abortTransfers_within {mask : BitVec 16} {s : State} :
    Within (.fab :: .lib :: .que :: .seed :: events) s (abortTransfers mask s) := by
  unfold abortTransfers
  exact (Within.ite .refl endCut_within.mono).trans (.ite .refl (.forEach (fun _ _ => endCut_within.mono))) |>.trans (.ite (.forEach (fun _ _ => abortRequest_within.mono)) (.forEach (fun _ _ => .forEach (fun _ _ => abortRequest_within.mono)))) |>.trans (.ite (.forEach (fun _ _ => abortPorts_within.mono)) .refl)

theorem closeFences_within {mask : BitVec 16} {s : State} :
    Within (.rst :: .fab :: .lib :: .que :: .seed :: events) s (closeFences mask s) := by
  unfold closeFences
  exact abortTransfers_within.mono.trans (.forEach (fun _ _ => applyShifts_within.mono.step raise_within)) |>.step State.modRst_within

theorem dropHalves_within {lo hi : Nat} {s : State} : Within [.captures, .staged] s (dropHalves lo hi s) :=
  halves_within

theorem tierEnterOne_within {b : State} {v : Nets} {c : ℕ} {s : State} :
    Within (.fab :: .que :: events) s (tierEnterOne b v c s) := by
  unfold tierEnterOne
  dsimp only
  refine .step ?_ State.modChm_within
  split
  · exact leaveRun_within.mono.trans (.forEach (fun _ _ => discardParked_within.mono)) |>.step endIssuer_within
  · exact leaveRun_within.mono.trans (.forEach (fun _ _ => discardParked_within.mono))

theorem disownReads_within {ts : List ℕ} {s : State} :
    Within [.grt] s (disownReads ts s) := by
  unfold disownReads
  exact (State.modGrt_within).mono

theorem tiersEnter_within {ts : List ℕ} {s : State} :
    Within (.fab :: .lib :: .grt :: .que :: .cry :: .gvl :: .twn :: events) s (tiersEnter ts s) := by
  unfold tiersEnter
  exact (Within.forEach (fun _ _ => .forEach (fun _ _ => lockNoDiag_within.mono))).step settleKeepers_within |>.trans (.forEach (fun _ _ => .forEach (fun _ _ => tierEnterOne_within.mono))) |>.step disownReads_within

theorem cfgEnter_within {s : State} :
    Within (.regs :: .captures :: .staged :: .fab :: .lib :: .integ :: .que :: .cfg :: events) s (cfgEnter s) := by
  unfold cfgEnter
  exact State.modLib_within.mono.trans (.forEach (fun _ _ => endIssuer_within.mono)) |>.trans (.ite .refl raise_within.mono) |>.step State.modLib_within |>.step State.modInteg_within |>.step State.modCfg_within |>.step State.modFab_within |>.trans (.forEach (fun _ _ => afterDevice_within.mono)) |>.step State.setReg_within |>.step dropHalves_within

theorem fioEnter_within {s : State} :
    Within [.pin] s (fioEnter s) := by
  unfold fioEnter
  exact State.modPin_within.mono

theorem laneEnter_within {b : ℕ} {s : State} :
    Within (.fab :: .cry :: .gvl :: .twn :: .pin :: events) s (laneEnter b s) := by
  unfold laneEnter
  exact .ite leaveUp_within.mono (.ite laneReset_within.mono enterDetect_within.mono)

theorem disownDescs_within {s : State} :
    Within [.fab, .lib] s (disownDescs s) := by
  unfold disownDescs
  exact State.modLib_within.mono.step State.modFab_within

theorem hostEnter_within {s : State} : Within [.regs, .captures, .staged, .fab, .lib, .grt, .que, .arb, .pci, .xlt, .cry, .cfg, .net, .twn, .pin]
    s (hostEnter s) := by
  have hset : ∀ {que : List (Nat × Queue)} {x : Xlt} {p : Pcie},
      Within [.regs, .captures, .staged, .fab, .lib, .grt, .que, .arb, .pci, .xlt, .cry, .cfg, .net, .twn, .pin]
        s { s with regs := hostRegs s.regs, que := que, arb := [], xlt := x, pci := p } :=
    fun {q x p} => regs_filter_within.mono.step (que_within (l := q)) |>.step (arb_within (l := []))
      |>.step (xlt_within (x := x)) |>.step (pci_within (x := p))
  unfold hostEnter
  exact hset.step disownDescs_within |>.step dropHalves_within |>.step dropHalves_within |>.step dropHalves_within
    |>.step State.modNet_within |>.step (State.modGrt_within) |>.step State.modTwn_within |>.step State.modCry_within
    |>.trans (.ite dbgFinish_within.mono .refl) |>.step State.modCfg_within

theorem startResets_within {mask : BitVec 16} {s : State} :
    Within hardware s (startResets mask s) := by
  unfold startResets
  exact closeFences_within.mono.trans (.ite .refl tiersEnter_within.mono) |>.step State.modRst_within |>.trans (.ite .refl watchShafts_within.mono) |>.trans (.ite cfgEnter_within.mono .refl) |>.trans (.ite memReset_within.mono .refl) |>.trans (.ite fioEnter_within.mono .refl) |>.trans (.ite hostEnter_within.mono .refl) |>.trans (.forEach (fun _ _ => laneEnter_within.mono))

theorem startHostReset_within {s : State} :
    Within hardware s (startHostReset s) := by
  unfold startHostReset
  exact .ite State.modCfg_within.mono startResets_within.mono

theorem tierLeaveOne_within {c : ℕ} {s : State} :
    Within (.regs :: .fab :: events) s (tierLeaveOne c s) := by
  unfold tierLeaveOne
  exact .ite .refl ((Within.ite stopSchedule_within.mono .refl).step State.setRegF_within |>.step State.modChm_within |>.step raise_within)

theorem cfgLeave_within {s : State} :
    Within [.integ] s (cfgLeave s) := by
  unfold cfgLeave
  exact State.modInteg_within.mono

theorem memLeave_within {s : State} :
    Within [.fab, .grt] s (memLeave s) := by
  unfold memLeave
  exact (Within.forEach (fun _ _ => .ite .refl State.modCol_within.mono)).trans (.forEach (fun _ _ => .ite State.modBank_within.mono .refl))

theorem releaseDomains_within {mask : BitVec 16} {s : State} :
    Within (.regs :: .rst :: .fab :: .integ :: .grt :: events) s (releaseDomains mask s) := by
  unfold releaseDomains
  exact State.modRst_within.mono.trans (.forEach (fun _ _ => .forEach (fun _ _ => tierLeaveOne_within.mono))) |>.trans (.ite memLeave_within.mono .refl) |>.trans (.ite cfgLeave_within.mono .refl)

theorem reopenFence_within {b : ℕ} {s : State} :
    Within (.rst :: events) s (reopenFence b s) := by
  unfold reopenFence
  exact .ite .refl (State.modRst_within.mono.step raise_within)

theorem tryHostRelease_within {s : State} :
    Within (.rst :: .cry :: .cfg :: .gvl :: .seed :: events) s (tryHostRelease s) := by
  unfold tryHostRelease
  exact .ite .refl (State.modCfg_within.mono.step State.modRst_within |>.trans (.forEach (fun _ _ => .ite (startSession_within.mono.step startSession_within) .refl)))

theorem execDomainResetRequest_goes {who : Requester} {mask : Word} {s : State} :
    Goes s (execDomainResetRequest who mask s) := by
  unfold execDomainResetRequest
  exact .done writeReg_within.mono

theorem execDomainResetStart_goes {s : State} :
    Goes s (execDomainResetStart s) := by
  unfold execDomainResetStart
  exact .ite (.done .refl) (.ite (.done ((Within.ite State.modRst_within.mono (State.modRst_within.mono.step sendTwin_within)).step startResets_within)) (.ite (.done (State.modRst_within.mono.step startResets_within)) (.done (State.modRst_within.mono.step startResets_within))))

theorem execFenceBoundMissed_goes {boundary : Fin 4} {open_ : BitVec 16} {s : State} :
    Goes s (execFenceBoundMissed boundary open_ s) := by
  unfold execFenceBoundMissed
  exact .ite (.done .refl) (.done (raise_within.mono.step deviceFault_within))

theorem execFenceAbortNewRequest_goes {boundary : Fin 4} {chamber : ChamberId} {stratum : StratumId} {s : State} :
    Goes s (execFenceAbortNewRequest boundary chamber stratum s) := by
  unfold execFenceAbortNewRequest
  exact .ite (.done .refl) (.done State.send_within.mono)

theorem execDomainResetRelease_goes {micros : BitVec 8} {s : State} :
    Goes s (execDomainResetRelease micros s) := by
  unfold execDomainResetRelease
  exact .ite (.done .refl) (.done (releaseDomains_within.mono.step raise_within))

theorem execFenceReopen_goes {boundary : Fin 4} {s : State} :
    Goes s (execFenceReopen boundary s) := by
  unfold execFenceReopen
  exact .done reopenFence_within.mono

theorem execHostReset_goes {source : HostResetSource} {s : State} :
    Goes s (execHostReset source s) := by
  unfold execHostReset
  exact .done ((Within.ite State.modCfg_within.mono .refl).step startHostReset_within)

theorem execFundamentalResetDeasserted_goes {s : State} :
    Goes s (execFundamentalResetDeasserted s) := by
  unfold execFundamentalResetDeasserted
  exact .done (State.modCfg_within.mono.step tryHostRelease_within)

theorem execRailLoss_goes {_rail : Fin 7} {s : State} :
    Goes s (execRailLoss _rail s) := by
  unfold execRailLoss
  exact .done (State.modLys_within).mono

theorem storeSafe_within {n : ℕ} {v : Word} {s : State} :
    Within [.regs] s (storeSafe n v s) := by
  unfold storeSafe
  exact State.setReg_within.mono

theorem applyRecord_within {r : ℕ × Word} {s : State} :
    Within hardware s (applyRecord r s) := by
  unfold applyRecord
  exact .ite (.ite (storeSafe_within.mono.step State.modCol_within) .refl) performWrite_within.mono

theorem stageImage_within {i : ℕ} {by_ : Option (ℕ × ℕ)} {im : ChamberImage} {s : State} :
    Within [.lib] s (stageImage i by_ im s) := by
  unfold stageImage
  exact State.modSlot_within.mono

theorem recordReject_within {source : ℕ} {c : Container} {reason : ℕ} {sect : ℕ} {s : State} :
    Within (.cfg :: events) s (recordReject source c reason sect s) := by
  unfold recordReject
  exact State.modCfg_within.mono.step raise_within

theorem beginSlot_within {i : ℕ} {who : ℕ × ℕ} {s : State} :
    Within [.lib] s (beginSlot i who s) := by
  unfold beginSlot
  exact State.modSlot_within.mono

theorem emptySlot_within {i : ℕ} {s : State} :
    Within [.lib] s (emptySlot i s) := by
  unfold emptySlot
  exact State.modSlot_within.mono

theorem stageUpTo_within {who : Nat × Nat} {host : Bool} {base lo hi stop : Nat} {c : Container} {s : State} :
    Within [.lib] s (stageUpTo who host base lo hi stop c s).1 := by
  unfold stageUpTo
  refine .foldl_fst (fun acc _ => ?_) _
  obtain ⟨s, bad⟩ := acc
  dsimp only
  split
  · exact .ite_fst .refl (.ite_fst .refl (.ite_fst beginSlot_within.mono
      (.ite_fst (.pair_fst (beginSlot_within.mono.step emptySlot_within)) stageImage_within.mono)))
  · exact .refl

theorem freeLoad_within {who : ℕ × ℕ} {s : State} :
    Within [.lib] s (freeLoad who s) := by
  unfold freeLoad
  exact State.modLib_within.mono

theorem rejectLoad_within {q : ℕ} {id : ℕ} {d : Desc} {c : Container} {f : ℕ × ℕ} {s : State} :
    Within (.lib :: .que :: .cfg :: events) s (rejectLoad q id d c f s) := by
  unfold rejectLoad
  exact endDesc_within.mono.step recordReject_within |>.step dropLoad_within

theorem readImage_within {q id : Nat} {c : Container} {fail : Option (Nat × Nat)} {env : DescEnv} {used fuel : Nat}
    {s : State} : Within hardware s (readImage q id c fail env used fuel s) := by
  induction fuel generalizing used s with
  | zero => exact .refl
  | succ fuel ih =>
    rw [readImage]
    split
    · exact .refl
    · refine .ite .refl (.ite (endDesc_within.mono.step freeLoad_within) (.ite (endDesc_within.mono.step sweepLoads_within)
        (.ite .refl (.ite modDesc_within.mono ?_))))
      lift_lets
      intro hi n
      split
      · next h => exact (Within.of_eq_thd translateParts_within.mono h).step takeFault_within
      · next h => exact .of_eq_thd translateParts_within.mono h
      · next h =>
        refine .trans (.of_eq_thd translateParts_within.mono h) ?_
        split
        next hh =>
        refine .trans (.of_eq_snd hostReady_within.mono hh) (.ite .refl ?_)
        split
        next hs =>
        refine .trans (.of_eq_fst (.ite_fst (modDesc_within.mono.step State.modQu_within |>.step stageUpTo_within)
          (.pair_fst (modDesc_within.mono.step State.modQu_within))) hs) ?_
        split
        · exact rejectLoad_within.mono
        · exact .ite rejectLoad_within.mono ih
        · exact ih

theorem rejectBcast_within {base : ℕ} {c : Container} {f : ℕ × ℕ} {s : State} :
    Within (.lib :: .cfg :: events) s (rejectBcast base c f s) := by
  unfold rejectBcast
  exact dropLoad_within.mono.step State.modCfg_within |>.step recordReject_within |>.step raise_within

theorem broadcastLoad_within {base : ℕ} {hi : ℕ} {c : Container} {s : State} :
    Within (.lib :: .cfg :: events) s (broadcastLoad base hi c s) := by
  unfold broadcastLoad
  dsimp only
  split
  · exact .refl
  · split
    · exact State.modCfg_within.mono.step stageUpTo_within |>.step rejectBcast_within
    · exact .ite (State.modCfg_within.mono.step stageUpTo_within |>.step rejectBcast_within) (State.modCfg_within.mono.step stageUpTo_within)
    · exact .ite (State.modCfg_within.mono.step stageUpTo_within) (State.modCfg_within.mono.step stageUpTo_within |>.step freeLoad_within |>.step State.modCfg_within |>.step raise_within)

theorem loadImage_within {q : Nat} {c : Container} {env : DescEnv} {s : State} :
    Within hardware s (loadImage q c env s) := by
  have hrun : ∀ (id : Nat) (u : State), Within hardware u
      (match (u.qu q).desc id with
       | none => u
       | some d =>
         let fail := if dataStart c ≤ d.off then (sectionsFail u c true) else hostReject u (q, id) d.len d.aux c
         readImage q id c fail env 0 (granuleFuel d)
           (modDesc q id (fun d => { d with yielded := false, wantTag := false }) u)) := by
    intro id u
    split
    · exact .refl
    · exact modDesc_within.mono.trans readImage_within
  unfold loadImage
  refine .trans (t := takeUpsets q env s) takeUpsets_within.mono ?_
  dsimp only
  split
  · next h => exact .of_eq_fst goOn_within.mono h
  · next h => exact .trans (.of_eq_fst goOn_within.mono h) (.trans (Within.ite State.send_within.mono .refl) (hrun _ _))

theorem execDescLoadImage_goes {q : QueueId} {image : Container} {env : DescEnv} {s : State} :
    Goes s (execDescLoadImage q image env s) := by
  unfold execDescLoadImage
  exact .done loadImage_within.mono

theorem applyOverride_within {x : Chosen} {s : State} :
    Within (.cfg :: events) s (applyOverride x s).2 := by
  unfold applyOverride
  refine .ite_snd .refl ?_
  split
  · exact .pair_snd (State.modCfg_within.mono.step raise_within)
  · exact .pair_snd raise_within.mono

theorem takeSet_within {x : Chosen} {factory : Bool} {s : State} :
    Within (.cfg :: events) s (takeSet x factory s) := by
  unfold takeSet
  exact State.modCfg_within.mono.trans (.ite raise_within.mono .refl) |>.step applyOverride_within |>.step State.modCfg_within |>.step raise_within

theorem readBurst_within {b : Bool} {addr : ℕ} {n : ℕ} {s : State} :
    Within [.out] s (readBurst b addr n s) := by
  unfold readBurst
  exact .when State.send_within.mono

theorem readDirectories_within {s : State} : Within [.out] s (readDirectories s) := by
  refine .forEach fun a _ => ?_
  obtain ⟨b, _ | f⟩ := a
  · exact .refl
  · exact .when (readBurst_within.mono.trans (.when readBurst_within.mono))

theorem broadcastRead_within {e : Bool × FlashEntry} {n : ℕ} {s : State} :
    Within [.out] s (broadcastRead e n s) := by
  unfold broadcastRead
  exact readBurst_within.mono.trans (.when State.send_within.mono)

theorem broadcastMember_within {e : Bool × FlashEntry} {s : State} :
    Within [.out] s (broadcastMember e s) := by
  unfold broadcastMember
  exact broadcastRead_within.mono

theorem takeEntries_within {l : List (List Byte)} {t : List (Nat × KeyEntry)} {seen : List Nat} {ok bad : Nat} {s : State} :
    Within events s (takeEntries l t seen ok bad s).2.2.2.2 := by
  induction l generalizing t seen ok bad s with
  | nil => exact .refl
  | cons e l ih =>
    rw [takeEntries]
    split
    · exact raise_within.mono.trans ih
    · exact ih

theorem loadKeys_within {s : State} :
    Within (.cry :: .cfg :: events) s (loadKeys s) := by
  unfold loadKeys
  exact takeEntries_within.mono.step State.modCry_within |>.step State.modCfg_within |>.step raise_within

theorem mapColumns_within {s : State} :
    Within [.fab] s (mapColumns s) := by
  unfold mapColumns
  dsimp only
  refine (State.modFab_within.mono).trans (.forEach (fun _ _ => ?_))
  split
  · exact State.modCol_within.mono.step State.modFab_within
  · exact State.modCol_within.mono

theorem freshFabric_within {s : State} : Within [.regs, .captures, .staged, .fab] s (freshFabric s) := by
  unfold freshFabric
  exact regs_filter_within.mono.step dropHalves_within |>.step State.modFab_within |>.step mapColumns_within

theorem resetAll_within {s : State} :
    Within hardware s (resetAll s) := by
  unfold resetAll
  exact (Within.ite (startResets_within.mono.step startHostReset_within) startResets_within.mono).step releaseDomains_within |>.step State.modRst_within |>.step State.modLib_within |>.step State.modInteg_within |>.step freshFabric_within |>.step memLeave_within

theorem backToSelect_within {s : State} :
    Within [.cfg] s (backToSelect s) := by
  unfold backToSelect
  exact State.modCfg_within.mono

theorem rejectMember_within {e : Bool × FlashEntry} {reason : ℕ} {sect : ℕ} {s : State} :
    Within hardware s (rejectMember e reason sect s) := by
  unfold rejectMember
  exact broadcastRead_within.mono.step recordReject_within |>.step State.modCfg_within |>.step dropLoad_within |>.step resetAll_within |>.step backToSelect_within

theorem setFlashClk_within {b : Bool} {mhz : ℕ} {dummy : List Byte} {s : State} :
    Within [.cfg, .out] s (setFlashClk b mhz dummy s) := by
  unfold setFlashClk
  exact State.send_within.mono.step State.modCfg_within

theorem initFlash_within {b : Bool} {f : Flash} {s : State} :
    Within (.cfg :: events) s (initFlash b f s) := by
  unfold initFlash
  exact (Within.ite .refl (State.send_within.mono.step State.send_within)).trans (.ite raise_within.mono (.ite .refl (.ite (State.send_within.mono.step setFlashClk_within) (State.send_within.mono.step setFlashClk_within))))

theorem discoverFlash_within {s : State} :
    Within (.cfg :: events) s (discoverFlash s) := by
  unfold discoverFlash
  split
  · exact .refl
  · refine (State.modCfg_within.mono).trans (.forEach (fun _ _ => ?_))
    split
    · exact initFlash_within.mono
    · exact .refl

theorem setFclk_within {s : State} :
    Within [.cfg, .out] s (setFclk s) := by
  unfold setFclk
  split
  · exact .refl
  · refine .forEach (fun _ _ => ?_)
    split
    · exact .ite setFlashClk_within.mono .refl
    · exact .refl

theorem stepSelect_within {s : State} :
    Within (.cfg :: events) s (stepSelect s) := by
  unfold stepSelect
  dsimp only
  split
  · exact .refl
  · split
    · exact readDirectories_within.mono.step takeSet_within
    · split
      · exact readDirectories_within.mono.step takeSet_within
      · split
        · exact readDirectories_within.mono.step State.modCfg_within
        · exact readDirectories_within.mono.step State.modCfg_within

theorem stepFirmware_within {s : State} :
    Within hardware s (stepFirmware s) := by
  unfold stepFirmware
  split
  · exact .refl
  · split
    · exact .refl
    · split
      · exact rejectMember_within.mono
      · exact State.modCfg_within.mono.step broadcastMember_within

theorem applyRecorded_within {s : State} :
    Within [.fab, .grt, .ev] s (applyRecorded s) := by
  unfold applyRecorded
  dsimp only
  split
  · exact .refl
  · split
    · exact (State.modGrt_within).mono.step mapColumns_within
    · exact .ite ((State.modGrt_within).mono.step mapColumns_within) ((State.modGrt_within).mono.step State.modEv_within |>.step State.modFab_within |>.step (State.modGrt_within) |>.trans (.forEach (fun _ _ => State.modBank_within.mono)) |>.step mapColumns_within)

theorem trainBundles_within {s : State} :
    Within [.gvl] s (trainBundles s) := by
  unfold trainBundles
  exact .forEach (fun _ _ => .ite enterDetect_within.mono .refl)

theorem blowWeak_within {s : State} :
    Within [.cfg] s (blowWeak s) := by
  unfold blowWeak
  exact .ite State.modCfg_within.mono .refl

theorem finishStep3_within {record : List (List Byte)} {next : ℕ} {s : State} :
    Within (.rst :: .fab :: .grt :: .cry :: .cfg :: .gvl :: .lys :: .seed :: events) s (finishStep3 record next s) := by
  unfold finishStep3
  exact setFclk_within.mono.step blowWeak_within |>.step (State.modLys_within) |>.step applyRecorded_within |>.step State.modCry_within |>.step loadKeys_within |>.step State.modCfg_within |>.step tryHostRelease_within |>.trans (.ite .refl trainBundles_within.mono)

theorem startFill_within {s : State} : Within [.lib, .grt] s (startFill s) := by
  unfold startFill
  exact (State.modGrt_empty_within).mono.step State.modLib_within

theorem stepThree_within {s : State} :
    Within hardware s (stepThree s) := by
  unfold stepThree
  split
  · exact .refl
  · split
    · exact finishStep3_within.mono.step State.modCfg_within |>.step raise_within
    · split
      · exact .refl
      · split
        · exact rejectMember_within.mono
        · exact finishStep3_within.mono.step broadcastMember_within |>.step startFill_within

theorem stepFive_within {s : State} :
    Within hardware s (stepFive s) := by
  unfold stepFive
  split
  · exact .refl
  · split
    · exact .refl
    · split
      · exact rejectMember_within.mono
      · exact State.modCfg_within.mono

theorem endStepSix_within {p : Bool × FlashEntry} {s : State} :
    Within hardware s (endStepSix p s) := by
  unfold endStepSix
  exact freeLoad_within.mono.step broadcastMember_within |>.trans (.forEach (fun _ _ => applyRecord_within.mono)) |>.step State.modLib_within |>.step State.modCfg_within

theorem stepSix_within {s : State} :
    Within hardware s (stepSix s) := by
  unfold stepSix
  dsimp only
  split
  · exact .refl
  · split
    · exact .refl
    · split
      · exact stageUpTo_within.mono
      · split
        · exact stageUpTo_within.mono.step rejectMember_within
        · exact stageUpTo_within.mono.step endStepSix_within

theorem settleLoad_within {s : State} :
    Within [.cfg] s (settleLoad s) := by
  unfold settleLoad
  exact .ite State.modCfg_within.mono .refl

theorem loadRounds_within {x0 : ℕ} {s : State} :
    Within hardware s (loadRounds x0 s) := by
  induction x0 generalizing s with
  | zero =>
    rw [loadRounds]
    exact .refl
  | succ n ih =>
    rw [loadRounds]
    exact stepSelect_within.mono.step stepFirmware_within |>.step stepThree_within |>.step stepFive_within |>.step stepSix_within |>.step settleLoad_within |>.trans ih

theorem loadGo_within {s : State} :
    Within hardware s (loadGo s) := by
  unfold loadGo
  exact loadRounds_within.mono

theorem afterStep8_within {micros : ℕ} {s : State} :
    Within (.fab :: .integ :: .cfg :: .twn :: .pin :: events) s (afterStep8 micros s) := by
  unfold afterStep8
  exact .ite beginSync_within.mono releaseFabric_within.mono

theorem reload_within {s : State} :
    Within hardware s (reload s) := by
  unfold reload
  exact failSilent_within.mono.step stopCommit_within |>.step (State.modLys_within) |>.step resetAll_within |>.step (State.modTwn_within) |>.step backToSelect_within |>.step State.modCfg_within |>.step discoverFlash_within |>.step loadGo_within

/-- A state that starts afresh, its queue of commands as before. -/
theorem reset_sound {s : State} {n : Nat} {l : List Out} :
    Sound hardware s { State.reset with pending := s.pending, seed := n, out := l } := by
  refine ⟨fun p hp => ?_, fun _ => rfl, fun _ => rfl⟩
  cases p with
  | pending => rfl
  | _ => exact absurd (by decide) hp

theorem aonRelease_sound {board : Board} {s : State} : Sound hardware s (aonRelease board s) := by
  have htrain : ∀ u : State, Within hardware u (if u.netMode = 1 ∨ u.netMode = 2 then trainBundles u else u) :=
    fun _ => .ite trainBundles_within.mono .refl
  unfold aonRelease
  exact reset_sound.trans (Within.sound (State.modPci_within.mono.step State.modCfg_within |>.step (State.modGrt_within)
    |>.step State.modFab_within |>.trans (.forEach fun _ _ => parityLost_within.mono) |>.step State.modLys_within
    |>.step State.modRst_within |>.step State.modPin_within |>.trans (.forEach fun _ _ => State.setRegF_within.mono)
    |>.trans (.forEach fun _ _ => State.setRegF_within.mono) |>.trans (htrain _)))

theorem execPowerOn_goes {board : Board} {s : State} : Goes s (execPowerOn board s) :=
  .sound (aonRelease_sound.trans (Within.sound (discoverFlash_within.mono.step loadGo_within)))

theorem goOnAfterCensus_within {before : State} {after : State} :
    Within hardware after (goOnAfterCensus before after) := by
  unfold goOnAfterCensus
  exact .ite (discoverFlash_within.mono.step loadGo_within) .refl

theorem execFlitReceive_goes {b : BundleId} {bytes : FlitBytes} {tag : TagResult} {s : State} :
    Goes s (execFlitReceive b bytes tag s) := by
  unfold execFlitReceive
  exact .done (takeFlit_within.mono.step serveRemotes_within |>.step goOnAfterCensus_within)

theorem execReportReceive_goes {b : BundleId} {size : ℕ} {depth : ℕ} {s : State} :
    Goes s (execReportReceive b size depth s) := by
  unfold execReportReceive
  exact .done (takeReport_within.mono.step goOnAfterCensus_within)

theorem execCensusTimeout_goes {s : State} :
    Goes s (execCensusTimeout s) := by
  unfold execCensusTimeout
  exact .done (censusEnds_within.mono.step goOnAfterCensus_within)

theorem execRomRetry_goes {flashA : Flash} {flashB : Flash} {s : State} :
    Goes s (execRomRetry flashA flashB s) := by
  unfold execRomRetry
  exact .ite (.done (State.modCfg_within.mono.step backToSelect_within |>.step discoverFlash_within |>.step loadGo_within)) (.done .refl)

theorem hear_within {b : Bool} {addr : ℕ} {bytes : List Byte} {s : State} :
    Within hardware s (hear b addr bytes s) := by
  unfold hear
  exact .ite (State.modCfg_within.mono.step loadGo_within) .refl

theorem execFlashBurstCapture_goes {flashB : Bool} {addr : ℕ} {bytes : List Byte} {s : State} :
    Goes s (execFlashBurstCapture flashB addr bytes s) := by
  unfold execFlashBurstCapture
  exact .done (.ite hear_within.mono .refl)

theorem execListenerIdle_goes {addr : ℕ} {s : State} :
    Goes s (execListenerIdle addr s) := by
  unfold execListenerIdle
  exact .ite (.done (State.modCfg_within.mono.step raise_within)) (.done .refl)

theorem execCfgbReceive_goes {flashB : Bool} {addr : ℕ} {bytes : List Byte} {load : Option (Fin 3072 × ℕ × Container)} {s : State} :
    Goes s (execCfgbReceive flashB addr bytes load s) := by
  unfold execCfgbReceive
  dsimp only
  split
  · exact .done .refl
  · split
    · exact .done (.ite ((Within.forEach (fun _ _ => enqueue_within.mono)).step hear_within |>.step takeAnyMsg_within |>.step broadcastLoad_within) ((Within.forEach (fun _ _ => enqueue_within.mono)).step hear_within |>.step takeAnyMsg_within))
    · exact .done ((Within.forEach (fun _ _ => enqueue_within.mono)).step hear_within |>.step takeAnyMsg_within)

theorem execCfgDoneRise_goes {micros : ℕ} {s : State} :
    Goes s (execCfgDoneRise micros s) := by
  unfold execCfgDoneRise
  exact .done (.ite (State.modCfg_within.mono.step afterStep8_within) State.modCfg_within.mono)

theorem execDonewaitExpire_goes {micros : ℕ} {s : State} :
    Goes s (execDonewaitExpire micros s) := by
  unfold execDonewaitExpire
  exact .ite (.done .refl) (.ite (.ite (.done .refl) (.done (State.modCfg_within.mono.step raise_within))) (.done (raise_within.mono.step afterStep8_within)))

theorem execKeyTableLoadDone_goes {s : State} :
    Goes s (execKeyTableLoadDone s) := by
  unfold execKeyTableLoadDone
  exact .done (.ite (loadKeys_within.mono.step tryHostRelease_within) .refl)

theorem execGrottoFillDone_goes {micros : BitVec 32} {s : State} :
    Goes s (execGrottoFillDone micros s) := by
  unfold execGrottoFillDone
  exact .ite (.done .refl) (.ite (.done (endFill_within.mono.step State.modCfg_within |>.step loadGo_within)) (.done endFill_within.mono))

theorem execCoreRailInSteadyRange_goes {rail : Fin 7} {s : State} :
    Goes s (execCoreRailInSteadyRange rail s) := by
  unfold execCoreRailInSteadyRange
  exact .done (State.modCfg_within.mono.step loadGo_within)

theorem execRailWaitTimeout_goes {rail : Fin 7} {s : State} :
    Goes s (execRailWaitTimeout rail s) := by
  unfold execRailWaitTimeout
  exact .done (.ite raise_within.mono .refl)

theorem execRequestStart_goes {_retries : List (Fin 80)} {hardFail : Option (Fin 80)} {goldenLost : Bool} {s : State} :
    Goes s (execRequestStart _retries hardFail goldenLost s) := by
  unfold execRequestStart
  exact .done (startRequest_within.mono.step settleLoad_within)

theorem execRefillComplete_goes {stream : StreamId} {s : State} :
    Goes s (execRefillComplete stream s) := by
  unfold execRefillComplete
  exact .done (.ite (.ite sendTwin_within.mono .refl) (refillDone_within.mono.step settleLoad_within))

theorem execRequestEnd_goes {stream : StreamId} {s : State} :
    Goes s (execRequestEnd stream s) := by
  unfold execRequestEnd
  exact .done (requestOver_within.mono.step settleLoad_within)

theorem loseChamber_within {c : ℕ} {s : State} :
    Within [.fab, .seed] s (loseChamber c s) := by
  unfold loseChamber
  exact State.modChm_within.mono.step State.fresh_within

theorem loseChambers_within {s : State} :
    Within [.fab, .lib, .seed] s (loseChambers s) := by
  unfold loseChambers
  exact dropRewrites_within.mono.step settleKeepers_within |>.trans (.forEach (fun _ _ => leaveRun_within.mono.step loseChamber_within)) |>.step watchShafts_within

theorem loseGrotto_within {s : State} : Within [.grt] s (loseGrotto s) := by
  unfold loseGrotto
  exact State.modGrt_empty_within

theorem ladderBundles_within {t : ℕ} {s : State} :
    Within (.cry :: .gvl :: events) s (ladderBundles t s) := by
  unfold ladderBundles
  exact .ite (.forEach (fun _ _ => enterIdle_within.mono)) (.ite (.forEach (fun _ _ => askSleep_within.mono)) (.ite (.forEach (fun _ _ => bundleOff_within.mono)) .refl))

theorem hostDown_within {s : State} :
    Within hardware s (hostDown s) := by
  unfold hostDown
  exact (State.modLys_within).mono.step startHostReset_within

theorem enterLadder_within {t : ℕ} {s : State} :
    Within hardware s (enterLadder t s) := by
  unfold enterLadder
  exact enterState_within.mono.step ladderBundles_within |>.trans (.ite stopCommit_within.mono .refl) |>.trans (.ite loseChambers_within.mono .refl) |>.trans (.ite (loseGrotto_within.mono.step hostDown_within) .refl)

theorem execLadderEntry_goes {partner : Fin 6} {s : State} :
    Goes s (execLadderEntry partner s) := by
  unfold execLadderEntry
  exact .ite (.done .refl) (.ite (.done sendTwin_within.mono) (.ite (.done .refl) (.done enterLadder_within.mono)))

theorem stampedLadder_within {exits : Bool} {t : ℕ} {cause : ℕ} {s : State} :
    Within hardware s (stampedLadder exits t cause s) := by
  unfold stampedLadder
  exact .ite .refl (.ite (.ite startExit_within.mono .refl) (.ite enterLadder_within.mono .refl))

theorem holdAfterSleep_within {s : State} :
    Within (.regs :: .fab :: events) s (holdAfterSleep s) := by
  unfold holdAfterSleep
  exact .forEach (fun _ _ => tierLeaveOne_within.mono.step State.modChm_within)

theorem wakeBundles_within {s : State} :
    Within [.gvl] s (wakeBundles s) := by
  unfold wakeBundles
  exact .forEach (fun _ _ => .ite enterDetect_within.mono .refl)

theorem execLadderExitDone_goes {s : State} :
    Goes s (execLadderExitDone s) := by
  unfold execLadderExitDone
  exact .ite (.done .refl) (.done (.ite ((Within.ite ((Within.ite ((Within.ite ((Within.ite ((State.modLys_within).mono.step enterState_within |>.step holdAfterSleep_within) ((State.modLys_within).mono.step enterState_within)).step cfgLeave_within |>.trans (.forEach (fun _ _ => leaveIdle_within.mono))) (.ite ((State.modLys_within).mono.step enterState_within |>.step holdAfterSleep_within) ((State.modLys_within).mono.step enterState_within))).step wakeBundles_within) (.ite ((Within.ite ((State.modLys_within).mono.step enterState_within |>.step holdAfterSleep_within) ((State.modLys_within).mono.step enterState_within)).step cfgLeave_within |>.trans (.forEach (fun _ _ => leaveIdle_within.mono))) (.ite ((State.modLys_within).mono.step enterState_within |>.step holdAfterSleep_within) ((State.modLys_within).mono.step enterState_within)))).step tryHostRelease_within) (.ite ((Within.ite ((Within.ite ((State.modLys_within).mono.step enterState_within |>.step holdAfterSleep_within) ((State.modLys_within).mono.step enterState_within)).step cfgLeave_within |>.trans (.forEach (fun _ _ => leaveIdle_within.mono))) (.ite ((State.modLys_within).mono.step enterState_within |>.step holdAfterSleep_within) ((State.modLys_within).mono.step enterState_within))).step wakeBundles_within) (.ite ((Within.ite ((State.modLys_within).mono.step enterState_within |>.step holdAfterSleep_within) ((State.modLys_within).mono.step enterState_within)).step cfgLeave_within |>.trans (.forEach (fun _ _ => leaveIdle_within.mono))) (.ite ((State.modLys_within).mono.step enterState_within |>.step holdAfterSleep_within) ((State.modLys_within).mono.step enterState_within))))).step askExit_within) (.ite ((Within.ite ((Within.ite ((Within.ite ((State.modLys_within).mono.step enterState_within |>.step holdAfterSleep_within) ((State.modLys_within).mono.step enterState_within)).step cfgLeave_within |>.trans (.forEach (fun _ _ => leaveIdle_within.mono))) (.ite ((State.modLys_within).mono.step enterState_within |>.step holdAfterSleep_within) ((State.modLys_within).mono.step enterState_within))).step wakeBundles_within) (.ite ((Within.ite ((State.modLys_within).mono.step enterState_within |>.step holdAfterSleep_within) ((State.modLys_within).mono.step enterState_within)).step cfgLeave_within |>.trans (.forEach (fun _ _ => leaveIdle_within.mono))) (.ite ((State.modLys_within).mono.step enterState_within |>.step holdAfterSleep_within) ((State.modLys_within).mono.step enterState_within)))).step tryHostRelease_within) (.ite ((Within.ite ((Within.ite ((State.modLys_within).mono.step enterState_within |>.step holdAfterSleep_within) ((State.modLys_within).mono.step enterState_within)).step cfgLeave_within |>.trans (.forEach (fun _ _ => leaveIdle_within.mono))) (.ite ((State.modLys_within).mono.step enterState_within |>.step holdAfterSleep_within) ((State.modLys_within).mono.step enterState_within))).step wakeBundles_within) (.ite ((Within.ite ((State.modLys_within).mono.step enterState_within |>.step holdAfterSleep_within) ((State.modLys_within).mono.step enterState_within)).step cfgLeave_within |>.trans (.forEach (fun _ _ => leaveIdle_within.mono))) (.ite ((State.modLys_within).mono.step enterState_within |>.step holdAfterSleep_within) ((State.modLys_within).mono.step enterState_within)))))))

theorem execPwrTargetWrite_goes {who : Requester} {val : Word} {s : State} :
    Goes s (execPwrTargetWrite who val s) := by
  unfold execPwrTargetWrite
  exact .done writeReg_within.mono

theorem storeRwl_within {off : ℕ} {val : Word} {s : State} :
    Within [.regs] s (storeRwl off val s) := by
  unfold storeRwl
  exact State.setReg_within.mono

theorem commitSafe_within {n : ℕ} {val : Word} {s : State} :
    Within (.regs :: .fab :: events) s (commitSafe n val s) := by
  unfold commitSafe
  exact storeSafe_within.mono.trans (.ite .refl raise_within.mono) |>.step State.modCol_within

theorem blow_within {cut : Option Nat} {n : Nat} {s : State} : Within [.cfg, .seed] s (blow cut n s).2 := by
  unfold blow
  split
  · exact .refl
  · exact .ite_snd .refl (.pair_snd (State.fresh_within.mono.step State.modCfg_within))

theorem commitRevoke_within {cut : Option ℕ} {k : BitVec 4} {s : State} :
    Within (.cfg :: .seed :: events) s (commitRevoke cut k s) := by
  unfold commitRevoke
  exact .ite .refl (.ite raise_within.mono (blow_within.mono.step State.modCfg_within))

theorem commitFlrel_within {b : Bool} {s : State} :
    Within hardware s (commitFlrel b s) := by
  unfold commitFlrel
  exact State.setRegF_within.mono.trans (.ite stopCommit_within.mono (.ite (discoverFlash_within.mono.step loadGo_within) .refl))

theorem commitSvn_within {cut : Option ℕ} {target : ℕ} {s : State} :
    Within (.cfg :: .seed :: events) s (commitSvn cut target s) := by
  unfold commitSvn
  dsimp only
  split
  · exact raise_within.mono
  · split
    · exact raise_within.mono
    · split
      · exact blow_within.mono.step State.modCfg_within |>.step raise_within
      · exact .ite (blow_within.mono.step State.modCfg_within |>.step raise_within) (blow_within.mono.step State.modCfg_within)

theorem commitRoot_within {asid : ℕ} {lo : Word} {hi : Word} {s : State} :
    Within (.regs :: .xlt :: events) s (commitRoot asid lo hi s) := by
  unfold commitRoot
  exact .ite .refl (storeRwl_within.mono.step storeRwl_within |>.step rootChanged_within)

theorem applyCommitted_within {cut : Option ℕ} {who : Requester} {off : ℕ} {val : Word} {s : State} :
    Within hardware s (applyCommitted cut who off val s) := by
  unfold applyCommitted
  exact .ite .refl (.ite stageHalf_within.mono (.ite (loHalf_within.mono.step commitRoot_within) (.ite commitSafe_within.mono (.ite State.modKey_within.mono (.ite (storeRwl_within.mono.trans (.ite failSilent_within.mono .refl)) (.ite (commitRevoke_within.mono.step commitFlrel_within |>.trans (.ite reload_within.mono .refl)) (.ite (storeRwl_within.mono.step commitSvn_within) storeRwl_within.mono)))))))

theorem applyEntry_within {cut : Option ℕ} {who : Requester} {e : ℕ × Word} {s : State} :
    Within hardware s (applyEntry cut who e s) := by
  unfold applyEntry
  exact .ite sendTwin_within.mono (.ite ticketEvent_within.mono applyCommitted_within.mono)

theorem execCommitApply_goes {cut : Option ℕ} {s : State} :
    Goes s (execCommitApply cut s) := by
  unfold execCommitApply
  exact .ite (.done .refl) (.done ((Within.forEach (fun _ _ => applyEntry_within.mono)).step State.modTicket_within |>.step raise_within))

theorem bar4Write_within {who : Requester} {o : ℕ} {be : BitVec 4} {val : Word} {s : State} :
    Within [.out, .pci] s (bar4Write who o be val s) := by
  unfold bar4Write
  exact .ite .refl (State.modPci_within.mono.step releasePending_within)

theorem bar4Read_within {who : Requester} {o : ℕ} {s : State} :
    Within [.out] s (bar4Read who o s) := by
  unfold bar4Read
  exact .when State.send_within.mono

theorem execRegisterWrite_goes {who : Requester} {off : ℕ} {be : BitVec 4} {val : Word} {s : State} :
    Goes s (execRegisterWrite who off be val s) := by
  unfold execRegisterWrite
  exact .done (.ite bar4Write_within.mono writeReg_within.mono)

theorem execLoWriteStage_goes {who : Requester} {off : ℕ} {val : Word} {s : State} :
    Goes s (execLoWriteStage who off val s) := by
  unfold execLoWriteStage
  exact .done writeReg_within.mono

theorem execHiWriteCommit_goes {who : Requester} {off : ℕ} {val : Word} {s : State} :
    Goes s (execHiWriteCommit who off val s) := by
  unfold execHiWriteCommit
  exact .done writeReg_within.mono

theorem execLoReadCapture_goes {who : Requester} {off : ℕ} {s : State} :
    Goes s (execLoReadCapture who off s) := by
  unfold execLoReadCapture
  exact .done read32_within.mono

theorem execRcRead_goes {who : Requester} {off : ℕ} {s : State} :
    Goes s (execRcRead who off s) := by
  unfold execRcRead
  exact .done (.ite bar4Read_within.mono read32_within.mono)

theorem readPair_within {off : Nat} {s : State} : Within [.captures, .staged, .out] s (readPair off s) := by
  unfold readPair
  exact .ite (.when (State.send_within.mono.step State.send_within))
    (halves_within.mono.step reply_within |>.step reply_within)

theorem splitHalf_within {off : ℕ} {v : Option Word} {be : BitVec 4} {s : State} :
    Within hardware s (splitHalf off v be s) := by
  unfold splitHalf
  split
  · exact writeReg_within.mono
  · exact read32_within.mono

theorem splitAccess_within {off : ℕ} {write : Option (BitVec 64)} {be : BitVec 8} {s : State} :
    Within hardware s (splitAccess off write be s) := by
  unfold splitAccess
  exact splitHalf_within.mono.step splitHalf_within

theorem execPairAccess64_goes {off : ℕ} {write : Option (BitVec 64)} {s : State} :
    Goes s (execPairAccess64 off write s) := by
  unfold execPairAccess64
  split
  · exact .done splitAccess_within.mono
  · split
    · exact .done writePair_within.mono
    · exact .done readPair_within.mono

theorem execSplitAccess64_goes {off : ℕ} {write : Option (BitVec 64)} {be : BitVec 8} {s : State} :
    Goes s (execSplitAccess64 off write be s) := by
  unfold execSplitAccess64
  split
  · refine .done ?_
    split
    · exact .ite writePair_within.mono partialPair_within.mono
    · exact readPair_within.mono
  · exact .done splitAccess_within.mono

theorem execChmCmdSwitch_goes {who : Requester} {c : ChamberId} {stratum : StratumId} {t : Bool} {s : State} :
    Goes s (execChmCmdSwitch who c stratum t s) := by
  unfold execChmCmdSwitch
  exact .done writeReg_within.mono

theorem execChmCmdHold_goes {who : Requester} {c : ChamberId} {s : State} :
    Goes s (execChmCmdHold who c s) := by
  unfold execChmCmdHold
  exact .done writeReg_within.mono

theorem execChmCmdRelease_goes {who : Requester} {c : ChamberId} {s : State} :
    Goes s (execChmCmdRelease who c s) := by
  unfold execChmCmdRelease
  exact .done writeReg_within.mono

theorem execScheduleEnable_goes {who : Requester} {c : ChamberId} {val : Word} {s : State} :
    Goes s (execScheduleEnable who c val s) := by
  unfold execScheduleEnable
  exact .done writeReg_within.mono

theorem execScheduleStopWrite_goes {who : Requester} {c : ChamberId} {val : Word} {s : State} :
    Goes s (execScheduleStopWrite who c val s) := by
  unfold execScheduleStopWrite
  exact .done writeReg_within.mono

theorem execScheduleEntryWrite_goes {who : Requester} {c : ChamberId} {val : Word} {s : State} :
    Goes s (execScheduleEntryWrite who c val s) := by
  unfold execScheduleEntryWrite
  exact .done writeReg_within.mono

theorem execGroupFireSwitch_goes {who : Requester} {g : GroupId} {s : State} :
    Goes s (execGroupFireSwitch who g s) := by
  unfold execGroupFireSwitch
  exact .done writeReg_within.mono

theorem execGroupFireHold_goes {who : Requester} {g : GroupId} {s : State} :
    Goes s (execGroupFireHold who g s) := by
  unfold execGroupFireHold
  exact .done writeReg_within.mono

theorem execGroupFireRelease_goes {who : Requester} {g : GroupId} {s : State} :
    Goes s (execGroupFireRelease who g s) := by
  unfold execGroupFireRelease
  exact .done writeReg_within.mono

theorem libWrite_within {who : Requester} {op : ℕ} {slot : ℕ} {c : ℕ} {stratum : ℕ} {spillFirst : Bool} {restore : Bool} {force : Bool} {notify : Bool} {prio : Bool} {tag : ℕ} {s : State} :
    Within hardware s (libWrite who op slot c stratum spillFirst restore force notify prio tag s) := by
  unfold libWrite
  exact writeReg_within.mono.step writeReg_within

theorem execLibRefill_goes {who : Requester} {slot : BitVec 12} {c : ChamberId} {stratum : StratumId} {spillFirst : Bool} {restore : Bool} {force : Bool} {notify : Bool} {prio : Bool} {tag : BitVec 16} {s : State} :
    Goes s (execLibRefill who slot c stratum spillFirst restore force notify prio tag s) := by
  unfold execLibRefill
  exact .done libWrite_within.mono

theorem execLibSpill_goes {who : Requester} {c : ChamberId} {stratum : StratumId} {force : Bool} {notify : Bool} {prio : Bool} {tag : BitVec 16} {s : State} :
    Goes s (execLibSpill who c stratum force notify prio tag s) := by
  unfold execLibSpill
  exact .done libWrite_within.mono

theorem execLibRestore_goes {who : Requester} {slot : BitVec 12} {c : ChamberId} {stratum : StratumId} {notify : Bool} {prio : Bool} {tag : BitVec 16} {s : State} :
    Goes s (execLibRestore who slot c stratum notify prio tag s) := by
  unfold execLibRestore
  exact .done libWrite_within.mono

theorem execLibEvict_goes {who : Requester} {c : ChamberId} {stratum : StratumId} {notify : Bool} {prio : Bool} {tag : BitVec 16} {s : State} :
    Goes s (execLibEvict who c stratum notify prio tag s) := by
  unfold execLibEvict
  exact .done libWrite_within.mono

theorem execLibDrop_goes {who : Requester} {slot : BitVec 12} {notify : Bool} {prio : Bool} {tag : BitVec 16} {s : State} :
    Goes s (execLibDrop who slot notify prio tag s) := by
  unfold execLibDrop
  exact .done libWrite_within.mono

theorem execLibShclr_goes {who : Requester} {slot : BitVec 12} {notify : Bool} {prio : Bool} {tag : BitVec 16} {s : State} :
    Goes s (execLibShclr who slot notify prio tag s) := by
  unfold execLibShclr
  exact .done libWrite_within.mono

theorem execSinfo0Read_goes {who : Requester} {s : State} :
    Goes s (execSinfo0Read who s) := by
  unfold execSinfo0Read
  exact .done read32_within.mono

theorem execBankModeWrite_goes {who : Requester} {group : ColumnId} {val : Word} {s : State} :
    Goes s (execBankModeWrite who group val s) := by
  unfold execBankModeWrite
  exact .done writeReg_within.mono

theorem execRmodelWrite_goes {who : Requester} {val : Word} {s : State} :
    Goes s (execRmodelWrite who val s) := by
  unfold execRmodelWrite
  exact .done writeReg_within.mono

theorem execV2segWrite_goes {who : Requester} {k : Fin 4} {val : Word} {s : State} :
    Goes s (execV2segWrite who k val s) := by
  unfold execV2segWrite
  exact .done writeReg_within.mono

theorem execKick_goes {who : Requester} {q : QueueId} {off : BitVec 12} {s : State} :
    Goes s (execKick who q off s) := by
  unfold execKick
  exact .done writeReg_within.mono

theorem execQueueEnable_goes {who : Requester} {q : QueueId} {val : Word} {s : State} :
    Goes s (execQueueEnable who q val s) := by
  unfold execQueueEnable
  exact .done writeReg_within.mono

theorem execQueueDisable_goes {who : Requester} {q : QueueId} {val : Word} {s : State} :
    Goes s (execQueueDisable who q val s) := by
  unfold execQueueDisable
  exact .done writeReg_within.mono

theorem execInvAll_goes {who : Requester} {s : State} :
    Goes s (execInvAll who s) := by
  unfold execInvAll
  exact .done writeReg_within.mono

theorem execInvAsid_goes {who : Requester} {asid : Fin 256} {s : State} :
    Goes s (execInvAsid who asid s) := by
  unfold execInvAsid
  exact .done writeReg_within.mono

theorem execInvRange_goes {who : Requester} {asid : Fin 256} {npages : BitVec 16} {s : State} :
    Goes s (execInvRange who asid npages s) := by
  unfold execInvRange
  exact .done writeReg_within.mono

theorem execFaultRingEnable_goes {who : Requester} {val : Word} {s : State} :
    Goes s (execFaultRingEnable who val s) := by
  unfold execFaultRingEnable
  exact .done writeReg_within.mono

theorem execAbandon_goes {who : Requester} {q : QueueId} {s : State} :
    Goes s (execAbandon who q s) := by
  unfold execAbandon
  exact .done writeReg_within.mono

theorem execTaguse0Read_goes {who : Requester} {s : State} :
    Goes s (execTaguse0Read who s) := by
  unfold execTaguse0Read
  exact .done read32_within.mono

theorem execBundleEnable_goes {who : Requester} {b : BundleId} {val : Word} {s : State} :
    Goes s (execBundleEnable who b val s) := by
  unfold execBundleEnable
  exact .done writeReg_within.mono

theorem execBundleDisable_goes {who : Requester} {b : BundleId} {val : Word} {s : State} :
    Goes s (execBundleDisable who b val s) := by
  unfold execBundleDisable
  exact .done writeReg_within.mono

theorem execBundleRetrain_goes {who : Requester} {b : BundleId} {s : State} :
    Goes s (execBundleRetrain who b s) := by
  unfold execBundleRetrain
  exact .done writeReg_within.mono

theorem execSleepRequest_goes {who : Requester} {b : BundleId} {s : State} :
    Goes s (execSleepRequest who b s) := by
  unfold execSleepRequest
  exact .done writeReg_within.mono

theorem execTestEnter_goes {who : Requester} {b : BundleId} {val : Word} {s : State} :
    Goes s (execTestEnter who b val s) := by
  unfold execTestEnter
  exact .done writeReg_within.mono

theorem execTestExit_goes {who : Requester} {b : BundleId} {val : Word} {s : State} :
    Goes s (execTestExit who b val s) := by
  unfold execTestExit
  exact .done writeReg_within.mono

theorem execBitInject_goes {who : Requester} {b : BundleId} {s : State} :
    Goes s (execBitInject who b s) := by
  unfold execBitInject
  exact .done writeReg_within.mono

theorem execTestCounterClear_goes {who : Requester} {b : BundleId} {s : State} :
    Goes s (execTestCounterClear who b s) := by
  unfold execTestCounterClear
  exact .done writeReg_within.mono

theorem execStreamRouteWrite_goes {who : Requester} {val : Word} {s : State} :
    Goes s (execStreamRouteWrite who val s) := by
  unfold execStreamRouteWrite
  exact .done writeReg_within.mono

theorem execRejoin_goes {who : Requester} {s : State} :
    Goes s (execRejoin who s) := by
  unfold execRejoin
  exact .done writeReg_within.mono

theorem execTpOpen_goes {who : Requester} {s : State} :
    Goes s (execTpOpen who s) := by
  unfold execTpOpen
  exact .done writeReg_within.mono

theorem execTpSvalWrite_goes {who : Requester} {val : Word} {s : State} :
    Goes s (execTpSvalWrite who val s) := by
  unfold execTpSvalWrite
  exact .done writeReg_within.mono

theorem execTpCommit_goes {who : Requester} {digest : Word} {ticket : BitVec 16} {s : State} :
    Goes s (execTpCommit who digest ticket s) := by
  unfold execTpCommit
  exact .done (writeReg_within.mono.step writeReg_within)

theorem execTpAbort_goes {who : Requester} {ticket : BitVec 16} {s : State} :
    Goes s (execTpAbort who ticket s) := by
  unfold execTpAbort
  exact .done writeReg_within.mono

theorem execMbColmap_goes {who : Requester} {arg : BitVec 24} {s : State} :
    Goes s (execMbColmap who arg s) := by
  unfold execMbColmap
  exact .done writeReg_within.mono

theorem execMbSpares_goes {who : Requester} {arg : BitVec 24} {s : State} :
    Goes s (execMbSpares who arg s) := by
  unfold execMbSpares
  exact .done writeReg_within.mono

theorem execMbIntegrity_goes {who : Requester} {arg : BitVec 24} {s : State} :
    Goes s (execMbIntegrity who arg s) := by
  unfold execMbIntegrity
  exact .done writeReg_within.mono

theorem execMbTelemetry_goes {who : Requester} {arg : BitVec 24} {s : State} :
    Goes s (execMbTelemetry who arg s) := by
  unfold execMbTelemetry
  exact .done writeReg_within.mono

theorem execEchRearm_goes {who : Requester} {s : State} :
    Goes s (execEchRearm who s) := by
  unfold execEchRearm
  exact .done writeReg_within.mono

theorem execEchClearlog_goes {who : Requester} {s : State} :
    Goes s (execEchClearlog who s) := by
  unfold execEchClearlog
  exact .done writeReg_within.mono

theorem execEchCommit_goes {who : Requester} {s : State} :
    Goes s (execEchCommit who s) := by
  unfold execEchCommit
  exact .done writeReg_within.mono

theorem execRdata0Read_goes {who : Requester} {s : State} :
    Goes s (execRdata0Read who s) := by
  unfold execRdata0Read
  exact .done read32_within.mono

theorem execCvalLoRead_goes {who : Requester} {s : State} :
    Goes s (execCvalLoRead who s) := by
  unfold execCvalLoRead
  exact .done read32_within.mono

theorem execPinLock_goes {who : Requester} {key : Byte} {mask : BitVec 5} {s : State} :
    Goes s (execPinLock who key mask s) := by
  unfold execPinLock
  exact .done writeReg_within.mono

theorem execSvcSet_goes {who : Requester} {val : Word} {s : State} :
    Goes s (execSvcSet who val s) := by
  unfold execSvcSet
  exact .done writeReg_within.mono

theorem execSvcClr_goes {who : Requester} {val : Word} {s : State} :
    Goes s (execSvcClr who val s) := by
  unfold execSvcClr
  exact .done writeReg_within.mono

theorem execSvcTgl_goes {who : Requester} {val : Word} {s : State} :
    Goes s (execSvcTgl who val s) := by
  unfold execSvcTgl
  exact .done writeReg_within.mono

theorem bar2Reserved_within {write : Bool} {off : ℕ} {len : ℕ} {s : State} :
    Within events s (bar2Reserved write off len s) := by
  unfold bar2Reserved
  exact raiseRefused_within.mono.trans (.ite .refl State.send_within.mono)

theorem execBar2ReservedAccess_goes {write : Bool} {off : ℕ} {s : State} :
    Goes s (execBar2ReservedAccess write off s) := by
  unfold execBar2ReservedAccess
  exact .done bar2Reserved_within.mono

theorem execBar2Write_goes {off : ℕ} {be : List Bool} {data : List Byte} {addrErr : List ℕ} {s : State} :
    Goes s (execBar2Write off be data addrErr s) := by
  unfold execBar2Write
  exact .ite (.done bar2Reserved_within.mono) (.ite (.done discardWrite_within.mono) (.ite (.done sendTwin_within.mono) (.done bar2Take_within.mono)))

theorem execBar2Read_goes {off : ℕ} {len : ℕ} {addrErr : List ℕ} {s : State} :
    Goes s (execBar2Read off len addrErr s) := by
  unfold execBar2Read
  exact .ite (.done bar2Reserved_within.mono) (.ite (.done (discardWrite_within.mono.step State.send_within)) (.ite (.done sendTwin_within.mono) (.done bar2Take_within.mono)))

theorem spiReply_within {len : ℕ} {st : ℕ} {data : Word} {s : State} :
    Within [.out] s (spiReply len st data s) := by
  unfold spiReply
  exact .ite .refl State.send_within.mono

theorem spiAccess_within {write : Bool} {addr : ℕ} {val : Word} {s : State} :
    Within hardware s (spiAccess write addr val s).2 := by
  unfold spiAccess
  exact .ite_snd .refl (.ite_snd .refl (.ite_snd writeReg_within.mono readReg_within.mono))

theorem spiFrame_within {mosi : List Byte} {s : State} :
    Within hardware s (spiFrame mosi s) := by
  unfold spiFrame
  exact .ite (.ite .refl (.ite spiReply_within.mono (spiAccess_within.mono.step spiReply_within))) (.ite (.ite .refl (.ite spiReply_within.mono (spiAccess_within.mono.step spiReply_within))) spiReply_within.mono)

theorem execSpiReadFrame_goes {mosi : List Byte} {s : State} :
    Goes s (execSpiReadFrame mosi s) := by
  unfold execSpiReadFrame
  exact .done spiFrame_within.mono

theorem execSpiWriteFrame_goes {mosi : List Byte} {s : State} :
    Goes s (execSpiWriteFrame mosi s) := by
  unfold execSpiWriteFrame
  exact .done spiFrame_within.mono

/-- An operation of the debug port, unless one runs or the port is locked. -/
theorem dbgStart_within {l : List Part} {exempt : Bool} {f : State → State} {s : State} (h : Within l s (f s))
    (hl : ([.pin].all fun p => l.contains p) = true := by rfl) : Within l s (dbgStart exempt f s) := by
  unfold dbgStart
  exact .ite .refl (.ite (dbgFinish_within.mono hl) h)

theorem dbgShadow_within {off : ℕ} {s : State} :
    Within [.twn, .pin] s (dbgShadow off s) := by
  unfold dbgShadow
  exact discardWrite_within.mono.step dbgFinish_within

theorem execDbgNop_goes {s : State} :
    Goes s (execDbgNop s) := by
  unfold execDbgNop
  exact .done ((dbgStart_within dbgFinish_within.mono))

theorem execDbgRegrd_goes {off : ℕ} {s : State} :
    Goes s (execDbgRegrd off s) := by
  unfold execDbgRegrd
  exact .done ((dbgStart_within (.ite dbgFinish_within.mono (readReg_within.mono.step dbgFinish_within))))

theorem execDbgRegwr_goes {off : ℕ} {val : Word} {s : State} :
    Goes s (execDbgRegwr off val s) := by
  unfold execDbgRegwr
  exact .done ((dbgStart_within (.ite dbgFinish_within.mono (.ite dbgShadow_within.mono (writeReg_within.mono.step dbgFinish_within)))))

theorem execDbgHostrd_goes {q : QueueId} {addr : BitVec 64} {len : ℕ} {dun : BitVec 64} {s : State} :
    Goes s (execDbgHostrd q addr len dun s) := by
  unfold execDbgHostrd
  exact .done ((dbgStart_within (.ite dbgFinish_within.mono (.ite dbgShadow_within.mono (.ite dbgFinish_within.mono (State.modPin_within.mono.step dbgIssue_within))))))

theorem countDebug_within {target : ℕ} {s : State} :
    Within [.cry] s (countDebug target s) := by
  unfold countDebug
  exact State.modCry_within.mono

theorem execDbgHostrdDone_goes {data : Option (List Byte)} {s : State} :
    Goes s (execDbgHostrdDone data s) := by
  unfold execDbgHostrdDone
  dsimp only
  split
  · exact .done .refl
  · split
    · exact .done .refl
    · split
      · exact .done dbgFinish_within.mono
      · exact .ite (.done ((Within.ite useKey_within.mono .refl).step State.modCry_within |>.step dbgFinish_within |>.step raise_within |>.step deviceFault_within)) (.done ((Within.ite ((Within.ite useKey_within.mono .refl).step countDebug_within) (.ite useKey_within.mono .refl)).step State.modPin_within |>.step dbgFinish_within))

theorem execDbgBufrd_goes {addr : ℕ} {s : State} :
    Goes s (execDbgBufrd addr s) := by
  unfold execDbgBufrd
  exact .done ((dbgStart_within dbgFinish_within.mono))

theorem dbgGrotto_within {g : ℕ} {bad : List ℕ} {s : State} :
    Within (.regs :: .fab :: .grt :: .pin :: events) s (dbgGrotto g bad s) := by
  unfold dbgGrotto
  exact .ite (.ite .refl dbgFinish_within.mono) (.ite sideAccess_within.mono (.ite (sideAccess_within.mono.step dbgFinish_within) (sideAccess_within.mono.step dbgFinish_within)))

theorem execDbgGrtrd_goes {off : ℕ} {addrErr : List ℕ} {s : State} :
    Goes s (execDbgGrtrd off addrErr s) := by
  unfold execDbgGrtrd
  exact .done ((dbgStart_within (.ite dbgFinish_within.mono (.ite dbgShadow_within.mono (.ite (countDebug_within.mono.step dbgFinish_within) (.ite (State.modPin_within.mono.step sendTwin_within) dbgGrotto_within.mono))))))

theorem execDbgGrtwr_goes {off : ℕ} {val : Word} {addrErr : List ℕ} {s : State} :
    Goes s (execDbgGrtwr off val addrErr s) := by
  unfold execDbgGrtwr
  exact .done ((dbgStart_within (.ite dbgFinish_within.mono (.ite dbgShadow_within.mono (.ite (countDebug_within.mono.step dbgFinish_within) (.ite (sendTwin_within.mono.step dbgFinish_within) (.ite dbgFinish_within.mono (bar2Perform_within.mono.step dbgFinish_within))))))))

theorem inject_within {item : StampedItem} {s : State} :
    Within hardware s (inject item s) := by
  unfold inject
  dsimp only
  split
  · exact write32_within.mono
  · exact writeBoth_within.mono
  · exact applyCommitted_within.mono
  · exact bar2Take_within.mono
  · exact bar2Take_within.mono
  · exact dbgGrotto_within.mono
  · exact takeStamped_within.mono
  · exact refillDone_within.mono.step requestOver_within |>.step settleLoad_within
  · exact fillArrives_within.mono
  · exact State.modXlt_within.mono.trans (.ite shadowFaultNow_within.mono takeFaultNow_within.mono)
  · exact invalidationOver_within.mono
  · exact takeDoorbell_within.mono
  · exact takeDescs_within.mono
  · exact placeFlit_within.mono
  · exact (State.modTwn_within).mono.step setBank_within
  · exact startResets_within.mono
  · exact applyStretch_within.mono
  · exact stampedLadder_within.mono
  · exact takeBurst_within.mono

theorem execStampedDelivery_goes {domain : Fin 40} {cycle : ℕ} {late : Bool} {item : StampedItem} {s : State} :
    Goes s (execStampedDelivery domain cycle late item s) := by
  unfold execStampedDelivery
  exact .ite (.done .refl) (.ite (.done (raise_within.mono.step failSilent_within)) (.done ((State.modTwn_within).mono.step inject_within)))

theorem takeProg_within {p : PcieProg} {s : State} :
    Within [.out, .pci] s (takeProg p s) := by
  unfold takeProg
  exact State.modPci_within.mono.step releasePending_within

theorem execLinkStateChange_goes {speed : BitVec 8} {width : BitVec 8} {ltssm : BitVec 8} {power : LinkPower} {d3hot : Bool} {prog : PcieProg} {s : State} :
    Goes s (execLinkStateChange speed width ltssm power d3hot prog s) := by
  unfold execLinkStateChange
  exact .done (takeProg_within.mono.step State.modLys_within |>.step raise_within)

theorem execAerErrorLogged_goes {type : BitVec 8} {s : State} :
    Goes s (execAerErrorLogged type s) := by
  unfold execAerErrorLogged
  exact .done (State.modPci_within.mono.step raise_within)

theorem bringChamberEdge_within {g : ℕ} {s : State} :
    Within (.regs :: .fab :: .lib :: .que :: .cry :: .gvl :: .twn :: .pin :: .seed :: events) s (bringChamberEdge g s) := by
  unfold bringChamberEdge
  exact bringEdge_within.mono

theorem commandEdge_within {op : ℕ} {c : ChamberId} {s : State} :
    Within (.regs :: .fab :: .lib :: .que :: .cry :: .gvl :: .twn :: .pin :: .seed :: events) s (commandEdge op c s) := by
  unfold commandEdge
  dsimp only
  split
  · exact .ite bringChamberEdge_within.mono .refl
  · exact .refl

theorem execSwitchEdge_goes {c : ChamberId} {s : State} :
    Goes s (execSwitchEdge c s) := by
  unfold execSwitchEdge
  exact .done commandEdge_within.mono

theorem execHoldTakeEffect_goes {c : ChamberId} {s : State} :
    Goes s (execHoldTakeEffect c s) := by
  unfold execHoldTakeEffect
  exact .done commandEdge_within.mono

theorem execReleaseTakeEffect_goes {c : ChamberId} {s : State} :
    Goes s (execReleaseTakeEffect c s) := by
  unfold execReleaseTakeEffect
  exact .done commandEdge_within.mono

theorem execScheduleEntryStart_goes {c : ChamberId} {s : State} :
    Goes s (execScheduleEntryStart c s) := by
  unfold execScheduleEntryStart
  exact .done (.ite bringChamberEdge_within.mono .refl)

theorem execDwellEnd_goes {c : ChamberId} {s : State} :
    Goes s (execDwellEnd c s) := by
  unfold execDwellEnd
  exact .done (.ite bringChamberEdge_within.mono .refl)

theorem execFabricTrigger_goes {c : ChamberId} {s : State} :
    Goes s (execFabricTrigger c s) := by
  unfold execFabricTrigger
  exact .done (.ite bringEdge_within.mono .refl)

theorem execGroupTriggerFire_goes {g : GroupId} {s : State} :
    Goes s (execGroupTriggerFire g s) := by
  unfold execGroupTriggerFire
  exact .done (.ite bringEdge_within.mono .refl)

theorem execGroupFireEffect_goes {g : GroupId} {s : State} :
    Goes s (execGroupFireEffect g s) := by
  unfold execGroupFireEffect
  exact .done (.ite bringEdge_within.mono .refl)

theorem execFenceRegisterParity_goes {c : ChamberId} {s : State} :
    Goes s (execFenceRegisterParity c s) := by
  unfold execFenceRegisterParity
  exact .done (State.modChm_within.mono.step raise_within)

theorem execShaftContention_goes {col : ColumnId} {s : State} :
    Goes s (execShaftContention col s) := by
  unfold execShaftContention
  dsimp only
  split
  · exact .done .refl
  · split
    · exact .done .refl
    · refine .done ?_
      split
      · refine .step ?_ lockNoDiag_within
        refine (raise_within.mono.trans (.forEach (fun _ _ => .ite quarantineAtEdge_within.mono .refl)) |>.step watchShafts_within |>.step State.modInteg_within |>.trans (.forEach (fun _ _ => useGolden_within.mono))).trans (.forEach (fun _ _ => ?_))
        split
        · exact .refl
        · exact State.modInteg_within.mono.step raise_within
      · refine (raise_within.mono.trans (.forEach (fun _ _ => .ite quarantineAtEdge_within.mono .refl)) |>.step watchShafts_within |>.step State.modInteg_within |>.trans (.forEach (fun _ _ => useGolden_within.mono))).trans (.forEach (fun _ _ => ?_))
        split
        · exact .refl
        · exact State.modInteg_within.mono.step raise_within

theorem passTime_sound {s : State} : Sound [.lys] s (passTime s) := by
  unfold passTime
  exact State.modLys_sound

theorem passClocks_within {clks : List ℕ} {s : State} :
    Within (.regs :: .fab :: .lib :: .que :: .cry :: .gvl :: .twn :: .pin :: .seed :: events) s (passClocks clks s) := by
  unfold passClocks
  exact State.modFab_within.mono.trans (.ite .refl clockEdges_within.mono)

theorem passEdges_within {s : State} :
    Within (.regs :: .fab :: .lib :: .que :: .cry :: .gvl :: .twn :: .pin :: .seed :: events) s (passEdges s) := by
  unfold passEdges
  exact .ite .refl (State.modFab_within.mono.trans (.forEach (fun _ _ => passClocks_within.mono)))

theorem passBeats_within {s : State} :
    Within [.gvl, .net, .pin, .out] s (passBeats s) := by
  unfold passBeats
  exact .ite .refl (.forEach (fun _ _ => drainInputs_within.mono))

theorem idle_sound {s : State} : Sound hardware s (idle s) := by
  unfold idle
  exact passTime_sound.mono.trans (Within.sound (passEdges_within.mono.step passBeats_within))

theorem stagedUsed_within {who : Requester} {off : ℕ} {s : State} :
    Within [.staged] s (stagedUsed who off s) := by
  unfold stagedUsed
  exact staged_within.mono

end Sys2Proof

/-! Every step: totality, the queue of commands and the canonical forms. -/

namespace Sys2Proof

open Sys2Proof.Machine

/-- Every command goes on and leaves the queue alone. -/
theorem exec_goes (i : Instr) (s : State) : Goes s (exec i s) := by
  cases i with
  | registerWrite => exact execRegisterWrite_goes
  | loWriteStage => exact execLoWriteStage_goes
  | hiWriteCommit => exact execHiWriteCommit_goes
  | loReadCapture => exact execLoReadCapture_goes
  | pairAccess64 => exact execPairAccess64_goes
  | splitAccess64 => exact execSplitAccess64_goes
  | rcRead => exact execRcRead_goes
  | bar2ReservedAccess => exact execBar2ReservedAccess_goes
  | linkStateChange => exact execLinkStateChange_goes
  | tick => exact execTick_goes
  | powerOn => exact execPowerOn_goes
  | romRetry => exact execRomRetry_goes
  | flashBurstCapture => exact execFlashBurstCapture_goes
  | listenerIdle => exact execListenerIdle_goes
  | cfgDoneRise => exact execCfgDoneRise_goes
  | donewaitExpire => exact execDonewaitExpire_goes
  | domainResetRequest => exact execDomainResetRequest_goes
  | domainResetStart => exact execDomainResetStart_goes
  | fenceBoundMissed => exact execFenceBoundMissed_goes
  | fenceAbortNewRequest => exact execFenceAbortNewRequest_goes
  | domainResetRelease => exact execDomainResetRelease_goes
  | fenceReopen => exact execFenceReopen_goes
  | hostReset => exact execHostReset_goes
  | keyTableLoadDone => exact execKeyTableLoadDone_goes
  | railLoss rail => exact execRailLoss_goes (_rail := rail)
  | railWaitTimeout => exact execRailWaitTimeout_goes
  | shaftContention => exact execShaftContention_goes
  | shaftParityFailure => exact execShaftParityFailure_goes
  | bondSweepDone => exact execBondSweepDone_goes
  | memberFailed => exact execMemberFailed_goes
  | spareShiftApply => exact execSpareShiftApply_goes
  | relocationDecision => exact execRelocationDecision_goes
  | relocationRelease => exact execRelocationRelease_goes
  | chmCmdSwitch => exact execChmCmdSwitch_goes
  | chmCmdHold => exact execChmCmdHold_goes
  | chmCmdRelease => exact execChmCmdRelease_goes
  | switchEdge => exact execSwitchEdge_goes
  | holdTakeEffect => exact execHoldTakeEffect_goes
  | releaseTakeEffect => exact execReleaseTakeEffect_goes
  | scheduleEnable => exact execScheduleEnable_goes
  | scheduleEntryStart => exact execScheduleEntryStart_goes
  | dwellEnd => exact execDwellEnd_goes
  | scheduleStopWrite => exact execScheduleStopWrite_goes
  | scheduleEntryWrite => exact execScheduleEntryWrite_goes
  | fabricTrigger => exact execFabricTrigger_goes
  | groupFireSwitch => exact execGroupFireSwitch_goes
  | groupFireHold => exact execGroupFireHold_goes
  | groupFireRelease => exact execGroupFireRelease_goes
  | groupTriggerFire => exact execGroupTriggerFire_goes
  | groupFireEffect => exact execGroupFireEffect_goes
  | portResponseArrive => exact execPortResponseArrive_goes
  | fenceRegisterParity => exact execFenceRegisterParity_goes
  | libRefill => exact execLibRefill_goes
  | libSpill => exact execLibSpill_goes
  | libRestore => exact execLibRestore_goes
  | libEvict => exact execLibEvict_goes
  | libDrop => exact execLibDrop_goes
  | libShclr => exact execLibShclr_goes
  | requestStart retries => exact execRequestStart_goes (_retries := retries)
  | refillComplete => exact execRefillComplete_goes
  | requestEnd => exact execRequestEnd_goes
  | sinfo0Read => exact execSinfo0Read_goes
  | lockstepMismatch => exact execLockstepMismatch_goes
  | diagnosisVerdict => exact execDiagnosisVerdict_goes
  | degradedComplete => exact execDegradedComplete_goes
  | lockstepEntry => exact execLockstepEntry_goes
  | lockstepExit => exact execLockstepExit_goes
  | grottoRead => exact execGrottoRead_goes
  | grottoWrite => exact execGrottoWrite_goes
  | grottoBitset => exact execGrottoBitset_goes
  | grottoBitclr => exact execGrottoBitclr_goes
  | bar2Write => exact execBar2Write_goes
  | bar2Read => exact execBar2Read_goes
  | bankAccess => exact execBankAccess_goes
  | correctedRewrite => exact execCorrectedRewrite_goes
  | scrubSlotOpen => exact execScrubSlotOpen_goes
  | scrubRead => exact execScrubRead_goes
  | scrubStarvation => exact execScrubStarvation_goes
  | grottoFillDone => exact execGrottoFillDone_goes
  | pclkChange => exact execPclkChange_goes
  | softRepair => exact execSoftRepair_goes
  | repairRewrite => exact execRepairRewrite_goes
  | bankModeWrite => exact execBankModeWrite_goes
  | bankAutoDrowsy => exact execBankAutoDrowsy_goes
  | bankPowerOff => exact execBankPowerOff_goes
  | bankFillDone => exact execBankFillDone_goes
  | rmodelWrite => exact execRmodelWrite_goes
  | v2segWrite => exact execV2segWrite_goes
  | kick => exact execKick_goes
  | doorbellPoll => exact execDoorbellPoll_goes
  | doorbellReadDone => exact execDoorbellReadDone_goes
  | descriptorFetch => exact execDescriptorFetch_goes
  | fetchDataArrive => exact execFetchDataArrive_goes
  | hostReadError => exact execHostReadError_goes
  | descCopy => exact execDescCopy_goes
  | descStreamIn => exact execDescStreamIn_goes
  | descStreamOut => exact execDescStreamOut_goes
  | descFill => exact execDescFill_goes
  | descLoadImage => exact execDescLoadImage_goes
  | descLibraryRequest => exact execDescLibraryRequest_goes
  | descSwitch => exact execDescSwitch_goes
  | descGroupFire => exact execDescGroupFire_goes
  | descFence => exact execDescFence_goes
  | descNop => exact execDescNop_goes
  | completionWrite => exact execCompletionWrite_goes
  | irqCoalesceTimeout => exact execIrqCoalesceTimeout_goes
  | queueEnable => exact execQueueEnable_goes
  | queueDisable => exact execQueueDisable_goes
  | drainEnd => exact execDrainEnd_goes
  | ownerChange => exact execOwnerChange_goes
  | walkComplete => exact execWalkComplete_goes
  | invAll => exact execInvAll_goes
  | invAsid => exact execInvAsid_goes
  | invRange => exact execInvRange_goes
  | invalidationComplete => exact execInvalidationComplete_goes
  | faultRecordWrite => exact execFaultRecordWrite_goes
  | faultConsumerReread => exact execFaultConsumerReread_goes
  | faultRingEnable => exact execFaultRingEnable_goes
  | ringWriteRetry => exact execRingWriteRetry_goes
  | abandon => exact execAbandon_goes
  | taguse0Read => exact execTaguse0Read_goes
  | sessionEstablish => exact execSessionEstablish_goes
  | recordSend => exact execRecordSend_goes
  | scanRowRead => exact execScanRowRead_goes
  | residentLapOverrun => exact execResidentLapOverrun_goes
  | frameRewriteStart => exact execFrameRewriteStart_goes
  | frameRewriteReread => exact execFrameRewriteReread_goes
  | bundleEnable => exact execBundleEnable_goes
  | bundleDisable => exact execBundleDisable_goes
  | bundleRetrain => exact execBundleRetrain_goes
  | sleepRequest => exact execSleepRequest_goes
  | testEnter => exact execTestEnter_goes
  | testExit => exact execTestExit_goes
  | bitInject => exact execBitInject_goes
  | testCounterClear => exact execTestCounterClear_goes
  | trainingUp => exact execTrainingUp_goes
  | trainingTimeout => exact execTrainingTimeout_goes
  | backoffEnd => exact execBackoffEnd_goes
  | backoffClockDetect => exact execBackoffClockDetect_goes
  | bundleDown => exact execBundleDown_goes
  | adaptWindowEnd => exact execAdaptWindowEnd_goes
  | lastGoodUpdate => exact execLastGoodUpdate_goes
  | retrainReceive b mask => exact execRetrainReceive_goes (_mask := mask)
  | retrainBurstEnd => exact execRetrainBurstEnd_goes
  | markerSend => exact execMarkerSend_goes
  | markerReceive => exact execMarkerReceive_goes
  | eidleEnter => exact execEidleEnter_goes
  | eidleReceive => exact execEidleReceive_goes
  | eidleExit => exact execEidleExit_goes
  | sleepReceive => exact execSleepReceive_goes
  | sleepAckReceive => exact execSleepAckReceive_goes
  | sleepAckTimeout => exact execSleepAckTimeout_goes
  | beaconSend => exact execBeaconSend_goes
  | beaconDetect => exact execBeaconDetect_goes
  | flitReceive => exact execFlitReceive_goes
  | nakReceive => exact execNakReceive_goes
  | replayTimeout => exact execReplayTimeout_goes
  | initResend => exact execInitResend_goes
  | initReceive => exact execInitReceive_goes
  | lctlCreditSend => exact execLctlCreditSend_goes
  | censusStart => exact execCensusStart_goes
  | censusReceive => exact execCensusReceive_goes
  | censusCollectEnd => exact execCensusCollectEnd_goes
  | reportReceive => exact execReportReceive_goes
  | censusTimeout => exact execCensusTimeout_goes
  | assignReceive b base parent => exact execAssignReceive_goes (_parent := parent)
  | discoveryStart => exact execDiscoveryStart_goes
  | nodeinfoReceive => exact execNodeinfoReceive_goes
  | discoverySettle => exact execDiscoverySettle_goes
  | remoteRead => exact execRemoteRead_goes
  | remoteWrite => exact execRemoteWrite_goes
  | remoteBitset => exact execRemoteBitset_goes
  | remoteBitclr => exact execRemoteBitclr_goes
  | rspReceive => exact execRspReceive_goes
  | bcreditReceive => exact execBcreditReceive_goes
  | remoteTimeout => exact execRemoteTimeout_goes
  | beatReceive => exact execBeatReceive_goes
  | cfgbReceive => exact execCfgbReceive_goes
  | streamRouteWrite => exact execStreamRouteWrite_goes
  | helloReceive => exact execHelloReceive_goes
  | syncTimeout => exact execSyncTimeout_goes
  | arbitrationEnd => exact execArbitrationEnd_goes
  | syncBarrier => exact execSyncBarrier_goes
  | stampedDelivery => exact execStampedDelivery_goes
  | takeover => exact execTakeover_goes
  | sidebandFault => exact execSidebandFault_goes
  | commitRecord => exact execCommitRecord_goes
  | commitRecordAck => exact execCommitRecordAck_goes
  | progressRecord => exact execProgressRecord_goes
  | selfcheckLapEnd => exact execSelfcheckLapEnd_goes
  | failsilentReceive => exact execFailsilentReceive_goes
  | heartbeatTimeout => exact execHeartbeatTimeout_goes
  | rejoin => exact execRejoin_goes
  | rejoinAuto => exact execRejoinAuto_goes
  | rejoinBarrier => exact execRejoinBarrier_goes
  | rejoinEnd => exact execRejoinEnd_goes
  | rejoinAbandon => exact execRejoinAbandon_goes
  | xtalSwitch => exact execXtalSwitch_goes
  | xtalFail => exact execXtalFail_goes
  | mgmtCoreFault => exact execMgmtCoreFault_goes
  | mgmtCoreRestartDone => exact execMgmtCoreRestartDone_goes
  | supplyMonitorTrip => exact execSupplyMonitorTrip_goes
  | refclkMonitorTrip => exact execRefclkMonitorTrip_goes
  | pllLockLoss => exact execPllLockLoss_goes
  | gclkChangeEffect => exact execGclkChangeEffect_goes
  | fpllMultEffect => exact execFpllMultEffect_goes
  | pwrTargetWrite => exact execPwrTargetWrite_goes
  | ladderEntry => exact execLadderEntry_goes
  | wake => exact execWake_goes
  | ladderTimerExpire => exact execLadderTimerExpire_goes
  | ladderExitDone => exact execLadderExitDone_goes
  | tpOpen => exact execTpOpen_goes
  | tpSvalWrite => exact execTpSvalWrite_goes
  | tpCommit => exact execTpCommit_goes
  | tpAbort => exact execTpAbort_goes
  | ticketStagingExpire => exact execTicketStagingExpire_goes
  | ticketArmedExpire => exact execTicketArmedExpire_goes
  | commitApply => exact execCommitApply_goes
  | spiReadFrame => exact execSpiReadFrame_goes
  | spiWriteFrame => exact execSpiWriteFrame_goes
  | mbColmap => exact execMbColmap_goes
  | mbSpares => exact execMbSpares_goes
  | mbIntegrity => exact execMbIntegrity_goes
  | mbTelemetry => exact execMbTelemetry_goes
  | mailboxReply => exact execMailboxReply_goes
  | eventEnqueue => exact execEventEnqueue_goes
  | eventTake => exact execEventTake_goes
  | echRearm => exact execEchRearm_goes
  | echClearlog => exact execEchClearlog_goes
  | echCommit => exact execEchCommit_goes
  | echoCommitStart => exact execEchoCommitStart_goes
  | echoCommitEnd => exact execEchoCommitEnd_goes
  | rdata0Read => exact execRdata0Read_goes
  | cvalLoRead => exact execCvalLoRead_goes
  | dbgNop => exact execDbgNop_goes
  | dbgRegrd => exact execDbgRegrd_goes
  | dbgRegwr => exact execDbgRegwr_goes
  | dbgHostrd => exact execDbgHostrd_goes
  | dbgHostrdDone => exact execDbgHostrdDone_goes
  | dbgBufrd => exact execDbgBufrd_goes
  | dbgGrtrd => exact execDbgGrtrd_goes
  | dbgGrtwr => exact execDbgGrtwr_goes
  | jtagExtest => exact execJtagExtest_goes
  | jtagSamplePreload => exact execJtagSamplePreload_goes
  | jtagIdcode => exact execJtagIdcode_goes
  | jtagHighz => exact execJtagHighz_goes
  | jtagClamp => exact execJtagClamp_goes
  | jtagExtestPulse => exact execJtagExtestPulse_goes
  | jtagExtestTrain => exact execJtagExtestTrain_goes
  | jtagDbgap => exact execJtagDbgap_goes
  | jtagBypass => exact execJtagBypass_goes
  | jtagTestLogicReset => exact execJtagTestLogicReset_goes
  | pinLock => exact execPinLock_goes
  | dualInputMismatch => exact execDualInputMismatch_goes
  | dphyBurst => exact execDphyBurst_goes
  | svcInputAccept => exact execSvcInputAccept_goes
  | svcSet => exact execSvcSet_goes
  | svcClr => exact execSvcClr_goes
  | svcTgl => exact execSvcTgl_goes
  | smbusBlockRead => exact execSmbusBlockRead_goes
  | smbusReadWord => exact execSmbusReadWord_goes
  | smbusAlertResponse => exact execSmbusAlertResponse_goes
  | fundamentalResetDeasserted => exact execFundamentalResetDeasserted_goes
  | refclkAppearingOrDisappearing => exact execRefclkAppearingOrDisappearing_goes
  | coreRailInSteadyRange => exact execCoreRailInSteadyRange_goes
  | checkerSyncChange => exact execCheckerSyncChange_goes
  | testCounterSaturated => exact execTestCounterSaturated_goes
  | aloneReceive => exact execAloneReceive_goes
  | pinCompareMismatch => exact execPinCompareMismatch_goes
  | grottoCrcExchange => exact execGrottoCrcExchange_goes
  | mirroredOutboundFlit => exact execMirroredOutboundFlit_goes
  | aerErrorLogged => exact execAerErrorLogged_goes
  | ulpsEntryExit => exact execUlpsEntryExit_goes
  | dphyDeskewCalibration => exact execDphyDeskewCalibration_goes
  | streamRouteBeatSend => exact execStreamRouteBeatSend_goes

theorem step_nil {s : State} (h : s.pending = []) : step s = .next (idle s) := by
  rw [step, h]

theorem step_cons {s : State} {c : Instr} {rest : List Instr} (h : s.pending = c :: rest) :
    step s = exec c { s with pending := rest } := by
  rw [step, h]

/-- Every step goes on, takes the front of the queue and keeps the canonical forms. -/
theorem step_goes (s : State) : ∃ t, step s = .next t ∧ queueMovedOn s t ∧
    (Memory.wf s = true → Memory.wf t = true) ∧ (regsWf s = true → regsWf t = true) := by
  cases h : s.pending with
  | nil =>
    have hidle : Sound hardware s (idle s) := idle_sound
    have hqueue : (idle s).pending = s.pending := hidle.frame .pending (by decide)
    exact ⟨idle s, step_nil h, by rw [queueMovedOn, hqueue, h]; rfl, hidle.grotto, hidle.regs⟩
  | cons c rest =>
    obtain ⟨t, ht, hwithin⟩ := exec_goes c { s with pending := rest }
    have hqueue : t.pending = rest := hwithin.frame .pending (by decide)
    exact ⟨t, (step_cons h).trans ht, by rw [queueMovedOn, hqueue, h]; rfl, hwithin.grotto, hwithin.regs⟩

theorem run_succ {M : Host.Core} {n : Nat} {s t : M.State} (h : M.step s = .next t) :
    Host.Core.run M (n + 1) s = Host.Core.run M n t := by
  rw [Host.Core.run, h]

/-- No run stops, for no step does. -/
theorem neverStops (s : State) : NeverStops s := by
  intro n
  induction n generalizing s with
  | zero => exact ⟨s, rfl⟩
  | succ n ih =>
    obtain ⟨t, ht, -⟩ := step_goes s
    obtain ⟨u, hu⟩ := ih t
    exact ⟨u, (run_succ ht).trans hu⟩

/-- Settles O2: no command stops, and none touches the queue of commands. -/
theorem everyStepTakesTheFrontAndGoesOn : Obligations.EveryStepTakesTheFrontAndGoesOn := by
  unfold Obligations.EveryStepTakesTheFrontAndGoesOn
  intro s
  obtain ⟨t, ht, hqueue, -⟩ := step_goes s
  exact ⟨⟨t, ht, hqueue⟩, neverStops s⟩

/-- Settles O3: every function of the model keeps the canonical form of Grotto. -/
theorem stepKeepsGrottoCanonical : Obligations.StepKeepsGrottoCanonical := by
  unfold Obligations.StepKeepsGrottoCanonical
  intro s t hs ht
  obtain ⟨u, hu, -, hgrotto, -⟩ := step_goes s
  cases ht.symm.trans hu
  exact hgrotto hs

/-- Settles O4: every function of the model keeps the canonical form of the registers. -/
theorem stepKeepsRegistersCanonical : Obligations.StepKeepsRegistersCanonical := by
  unfold Obligations.StepKeepsRegistersCanonical
  intro s t hs ht
  obtain ⟨u, hu, -, -, hregs⟩ := step_goes s
  cases ht.symm.trans hu
  exact hregs hs

/-- Settles O1. -/
theorem stepRunsTheFrontCommand : Obligations.StepRunsTheFrontCommand := by
  unfold Obligations.StepRunsTheFrontCommand
  exact ⟨fun _ _ _ h => step_cons h, fun _ h => step_nil h⟩

theorem chmState_unreleased {s : State} {c : Nat} (h : (s.chm c).released = false) : s.chmState c = 0 := by
  rw [State.chmState, h]
  rfl

/-- Settles O5, by evaluating the reset state. -/
theorem resetState : Obligations.ResetState := by
  unfold Obligations.ResetState
  refine ⟨⟨rfl, fun _ => rfl, rfl, rfl, rfl, rfl, rfl, fun _ => rfl, fun _ => rfl, fun _ => rfl, fun c => ?_, fun _ => rfl,
    fun _ => rfl, rfl, rfl, rfl, rfl⟩, rfl, rfl⟩
  exact chmState_unreleased rfl

end Sys2Proof

/-! A tick whose books are not canonical (R106, R645). -/

namespace Sys2Proof

open Sys2Proof.Machine

/-- A running device with old readings whose table of pillar groups lists the telemetry group of each boundary twice: whole
at first, and lost behind it. -/
def telemetryTwice : State :=
  { State.reset with
    fab := { bonds := [bondKey 1 264 0, bondKey 2 264 8, bondKey 3 264 96].flatMap fun k => [(k, {}), (k, { lost := true })] }
    lys := { sensors := [100] } }

/-- The tick's inputs: one sensor at 50 degrees. -/
def oneSensor : TickEnv :=
  { sensors := [50], rails := [], diePower := [], power := 0, vdet := [], analogue := [], balls := 0, badLeaves := [],
    badEpisodes := [], badNodes := [], vppGood := true, heldXts := 0, heldGcm := 0, fwdLoad := 0 }

/-- What a command leaves, as far as `f` sees it. -/
def observed {α : Type} (f : State → α) (i : Instr) (s : State) : Option α :=
  match exec i s with
  | .next t => some (f t)
  | _ => none

theorem observed_of_next {α : Type} (f : State → α) {i : Instr} {s t : State} (h : exec i s = .next t) :
    observed f i s = some (f t) := by
  rw [observed, h]

theorem telemetryTwice_tj : observed (fun t => t.lys.tj) (.tick oneSensor) telemetryTwice = some 100 := by decide +kernel

/-- Refutes O6: clearing the error counts of the tick (R106) lists each group once, at its last listed value, so a state
whose table lists a telemetry group twice loses its telemetry path in the tick and keeps its old readings. -/
theorem not_timePasses : ¬ Obligations.TimePasses := by
  unfold Obligations.TimePasses
  intro h
  obtain ⟨-, hreadings⟩ := h.2 telemetryTwice oneSensor rfl
  obtain ⟨t, ht, -, htj, -⟩ := hreadings rfl (by decide) (by decide +kernel)
  have hold : some t.lys.tj = some 100 := (observed_of_next _ ht).symm.trans telemetryTwice_tj
  rw [htj] at hold
  exact absurd hold (by decide)

end Sys2Proof

/-! Register writes: what is stored, what is refused (R4, R7 to R9). -/

namespace Sys2Proof

open Sys2Proof.Machine

theorem storeReg_reg_same (off : Nat) (v : Word) (s : State) :
    (storeReg off v s).reg off = (s.reg off &&& ~~~(regDesc off).rw) ||| (v &&& (regDesc off).rw) :=
  setReg_reg_same _ _ _

theorem storeReg_reg_other {off o : Nat} (h : o ≠ off) (v : Word) (s : State) : (storeReg off v s).reg o = s.reg o :=
  setReg_reg_other _ _ _ _ h

theorem exec_registerWrite {off : Nat} (h : off < 0x20_0000) (who : Requester) (be : BitVec 4) (v : Word) (s : State) :
    exec (.registerWrite who off be v) s = .next (writeReg who off be v s) :=
  congrArg Host.Outcome.next (if_neg (Nat.not_le.2 h))

/-- Partial byte enables (R4): the write is refused and does nothing. -/
theorem writeReg_partial (who : Requester) {off : Nat} {be : BitVec 4} (hbe : be ≠ 0xF) (v : Word) {s : State}
    (hrole : s.twn.role = 0) (hkick : isKick off = false) (hpin : off < 0xE_0000 ∨ 0xF_0000 ≤ off)
    (hf : accessStopped s off = false) :
    writeReg who off be v s = raiseRefused (eventOwner off) off who 1 s := by
  have hpair : ∀ r, r ≠ 0 → ¬ (s.twn.role = r ∧ pairBlock off = true) := fun r hr h => hr (h.1.symm.trans hrole)
  unfold writeReg
  rw [hf, if_neg (by decide), if_neg (hpair 2 (by decide)), if_pos ⟨hbe, by rw [hkick]; rfl⟩,
    pinSequence_other who off s hpin]

/-- What a refused write raises, and what it touches. -/
theorem raiseRefused_spec (sub off : Nat) (who : Requester) (reason : Nat) (s : State) :
    Raised s (raiseRefused sub off who reason s) (sub * 256 + 1) [off, Requester.code who, reason] ∧
      OnlyChanges events s (raiseRefused sub off who reason s) :=
  ⟨raised_raise _ _ s, raiseRefused_within.frame⟩

/-- A register of the QUE block but QUE_CTRL, or of the TWN block but TWN_CMD. -/
def storesOnly (off : Nat) : Prop :=
  (0x8_0000 ≤ off ∧ off < 0x9_0000 ∧ off % 0x100 ≠ 0) ∨ (0xC_0000 ≤ off ∧ off < 0xD_0000 ∧ off ≠ 0xC_0010)

theorem performWrite_storesOnly {off : Nat} (h : storesOnly off) (hp : (regDesc off).pair = 0) (who : Requester) (v : Word)
    (s : State) : performWrite who off 0 v s = storeReg off v s := by
  have hpair : ¬ (regDesc off).pair = 2 := by omega
  unfold storesOnly at h
  unfold performWrite
  simp only [if_neg hpair]
  rcases h with ⟨hlo, hhi, hctrl⟩ | ⟨hlo, hhi, hcmd⟩
  · iterate 6 rw [if_neg (by omega)]
    rw [if_pos hhi, if_neg hctrl]
  · iterate 10 rw [if_neg (by omega)]
    rw [if_pos hhi, if_neg hcmd]

theorem readLive_que {q o : Nat} (hq : q < 256) (ho : o < 256) (who : Nat) (s : State) :
    readLive who s (queReg q o) = queRead s q o := by
  have h : queReg q o = 0x8_0000 + q * 256 + o := rfl
  unfold readLive
  iterate 6 rw [if_neg (by omega)]
  rw [if_pos (by omega), show (queReg q o - 0x8_0000) / 0x100 = q by omega, show queReg q o % 0x100 = o by omega]

/-- Bits that are written as they are stay as they are. -/
theorem merge_eq_self {w : Nat} {x v m : BitVec w} (h : (x ^^^ v) &&& m = 0) : (x &&& ~~~m) ||| (v &&& m) = x := by
  refine BitVec.eq_of_getLsbD_eq fun i hi => ?_
  have hbit : ((x ^^^ v) &&& m).getLsbD i = false := by
    rw [h]
    exact BitVec.getLsbD_zero
  simp only [BitVec.getLsbD_and, BitVec.getLsbD_xor] at hbit
  simp only [BitVec.getLsbD_or, BitVec.getLsbD_and, BitVec.getLsbD_not, hi, decide_true, Bool.true_and]
  revert hbit
  cases x.getLsbD i <;> cases v.getLsbD i <;> cases m.getLsbD i <;> decide

theorem regDesc_prot (q : Fin 256) : regDesc (queReg q 0x2C) = { rw := 0xE000_003F, rwl := 0xE000_003F } :=
  regDesc_que q 0x2C q.isLt (by decide)

/-- QUE_PROT refuses a change of its RWL bits, and nothing else. -/
theorem writeRefusal_prot (q : Fin 256) (who : Nat) (v : Word) (s : State) :
    writeRefusal s who (queReg q 0x2C) 0 v =
      if (s.reg (queReg q 0x2C) ^^^ v) &&& 0xE000_003F ≠ 0 then some 3 else none := by
  have hq : queReg q 0x2C = 0x8_0000 + q.val * 256 + 0x2C := rfl
  have hrule : badByRule s (queReg q 0x2C) 0 v = false := by
    unfold badByRule
    iterate 5 rw [if_neg (by omega)]
    rw [if_pos (by omega)]
  have hfields : badFields s (queReg q 0x2C) 0 v = false := by
    unfold badFields
    rw [if_neg (by omega), regDesc_prot]
    rfl
  have hlive : readLive who s (queReg q 0x2C) = s.reg (queReg q 0x2C) := readLive_que q.isLt (by decide) who s
  have hrule' : badByRule s (queReg q 0x2C) 0#32 v = false := hrule
  have hfields' : badFields s (queReg q 0x2C) 0#32 v = false := hfields
  simp [writeRefusal, hrule', hfields', changesRwl, hlive, regDesc_prot]

/-- Settles O7: a write that no rule refuses is `storeReg`, and a refused one is `raiseRefused`. -/
theorem registerWriteStoresOrIsRefused : Obligations.RegisterWriteStoresOrIsRefused := by
  unfold Obligations.RegisterWriteStoresOrIsRefused
  refine ⟨fun s who off val hoff hrole hp => ?_, fun s who q val hrole => ?_⟩
  · have hexec := fun be => exec_registerWrite (by omega : off < 0x20_0000) who be val s
    have hpin := pinSequence_other who off s (by omega)
    refine ⟨fun hok => ?_, fun reason hno => ?_, fun be hbe => ?_⟩
    · have hwrite : writeReg who off 0xF val s = storeReg off val s := by
        rw [writeReg_plain who off val s (.inr hrole) (by omega) (by omega) hok (by omega), hpin,
          performWrite_storesOnly hoff hp]
      exact ⟨_, (hexec 0xF).trans (congrArg _ hwrite), storeReg_reg_same off val s, fun o ho => storeReg_reg_other ho val s,
        storeReg_within.frame⟩
    · have hwrite := writeReg_refused who off val s reason (.inr hrole) (by omega) (by omega) hno (by omega)
      rw [hpin] at hwrite
      exact ⟨_, (hexec 0xF).trans (congrArg _ hwrite), raiseRefused_spec _ _ _ _ s⟩
    · have hkick : isKick off = false := by simp [isKick]; omega
      have hwrite := writeReg_partial who hbe val hrole hkick (by omega) (accessStopped_out s off (by omega))
      exact ⟨_, (hexec be).trans (congrArg _ hwrite), raiseRefused_spec _ _ _ _ s⟩
  · have hq : queReg q 0x2C = 0x8_0000 + q.val * 256 + 0x2C := rfl
    have hexec := exec_registerWrite (by omega : queReg q 0x2C < 0x20_0000) who 0xF val s
    have hpin := pinSequence_other who (queReg q 0x2C) s (by omega)
    have hpair : (regDesc (queReg q 0x2C)).pair = 0 := congrArg RegDesc.pair (regDesc_prot q)
    have howner : eventOwner (queReg q 0x2C) = 8 := by
      unfold eventOwner
      iterate 4 rw [if_neg (by omega)]
      rw [if_pos (by omega)]
    have hrefusal := writeRefusal_prot q (Requester.code who) val s
    refine ⟨fun hne => ?_, fun heq => ?_⟩
    · have hwrite := writeReg_refused who (queReg q 0x2C) val s 3 (.inr hrole) (by omega) (by omega)
        (hrefusal.trans (if_pos hne)) (by omega)
      rw [hpin, howner] at hwrite
      exact ⟨_, hexec.trans (congrArg _ hwrite), raiseRefused_spec _ _ _ _ s⟩
    · have hwrite := writeReg_plain who (queReg q 0x2C) val s (.inr hrole) (by omega) (by omega)
        (hrefusal.trans (if_neg (not_not.2 heq))) (by omega)
      rw [hpin, performWrite_storesOnly (.inl (by omega)) hpair] at hwrite
      refine ⟨_, hexec.trans (congrArg _ hwrite), fun p hp => ?_⟩
      cases p with
      | regs =>
        intro o
        by_cases ho : o = queReg q 0x2C
        · subst ho
          rw [storeReg_reg_same, regDesc_prot]
          exact merge_eq_self heq
        · exact storeReg_reg_other ho val s
      | _ => rfl

end Sys2Proof

/-! Register pairs and 64-bit accesses (R4 to R6, R770). -/

namespace Sys2Proof

open Sys2Proof.Machine

theorem queReg_eq (q o : Nat) : queReg q o = 0x8_0000 + q * 256 + o := rfl

theorem badByRule_que {q : Fin 256} {o : Nat} (ho : o < 256) (lo v : Word) (s : State) :
    badByRule s (queReg q o) lo v = false := by
  have hq := queReg_eq q o
  unfold badByRule
  iterate 5 rw [if_neg (by omega)]
  rw [if_pos (by omega)]

theorem eventOwner_que (q : Fin 256) {o : Nat} (ho : o < 256) : eventOwner (queReg q o) = 8 := by
  have hq := queReg_eq q o
  unfold eventOwner
  iterate 4 rw [if_neg (by omega)]
  rw [if_pos (by omega)]

/-- A register of a queue of its own, but QUE_CTRL, without RWL bits and enumerated fields. -/
theorem writeReg_queStore (who : Requester) (q : Fin 256) {o : Nat} (ho : 0 < o ∧ o < 256) {d : RegDesc}
    (hd : queDesc o = d) (hp : d.pair = 0) (hl : d.rwl = 0) (he : badEnum d = fun _ => false) (v : Word) {s : State}
    (hrole : s.twn.role = 0) : writeReg who (queReg q o) 0xF v s = storeReg (queReg q o) v s := by
  have hq := queReg_eq q o
  have hdesc : regDesc (queReg q o) = d := (regDesc_que q o q.isLt ho.2).trans hd
  rw [writeReg_op who (queReg q o) v s d hdesc hp hl (congrFun he v) (badByRule_que ho.2 _ _ s) (by omega) (.inr hrole)
    (by omega)]
  exact performWrite_storesOnly (.inl (by omega)) (hdesc.symm ▸ hp) who v s

theorem accessStopped_que (q : Fin 256) {o : Nat} (ho : o < 256) (s : State) : accessStopped s (queReg q o) = false :=
  accessStopped_out s _ (by have := queReg_eq q o; omega)

/-! The QUE_SQB pair. -/

theorem regDesc_sqbLo (q : Fin 256) :
    regDesc (queReg q 0x08) = { rw := 0xFFFF_FF1F, reset := 0x04, pair := 1, enums := [(0, 5, 4, 16)] } :=
  regDesc_que q 0x08 q.isLt (by decide)

theorem regDesc_sqbHi (q : Fin 256) : regDesc (queReg q 0x0C) = { rw := 0xFFFF_FFFF, pair := 2 } :=
  regDesc_que q 0x0C q.isLt (by decide)

theorem queReg_add_four (q : Fin 256) : queReg q 0x08 + 4 = queReg q 0x0C := rfl

theorem isPair_sqb (q : Fin 256) : isPair (queReg q 0x08) = true := by
  rw [isPair, regDesc_sqbLo]
  rfl

theorem stages_sqb (q : Fin 256) : stages (queReg q 0x08) = true := by
  rw [stages, regDesc_sqbLo]
  rfl

/-- Both halves of QUE_SQB stored. -/
def sqbStored (q : Nat) (lo hi : Word) (s : State) : State := storeReg (queReg q 0x0C) hi (storeReg (queReg q 0x08) lo s)

theorem sqbStored_spec (q : Fin 256) (lo hi : Word) (s : State) :
    (sqbStored q lo hi s).reg (queReg q 0x08) = (s.reg (queReg q 0x08) &&& 0xE0) ||| (lo &&& 0xFFFF_FF1F) ∧
    (sqbStored q lo hi s).reg (queReg q 0x0C) = hi ∧ OnlyChanges [.regs] s (sqbStored q lo hi s) := by
  have hne : queReg q 0x08 ≠ queReg q 0x0C := by simp [queReg]
  refine ⟨?_, ?_, (storeReg_within.trans storeReg_within).frame⟩
  · rw [sqbStored, storeReg_reg_other hne, storeReg_reg_same, regDesc_sqbLo]
    rfl
  · rw [sqbStored, storeReg_reg_same, regDesc_sqbHi]
    show _ ||| (hi &&& BitVec.allOnes 32) = hi
    rw [BitVec.and_allOnes, show ~~~(0xFFFF_FFFF : Word) = 0 from rfl]
    simp

/-- Both halves of QUE_SQB written with a ring size that exists (Table Queues-4). -/
theorem writeWhole_sqb (who : Requester) (q : Fin 256) (at_ : Nat) {lo : Word} (hi : Word) (s : State)
    (hmin : 4 ≤ fld lo 0 5) (hmax : fld lo 0 5 ≤ 16) :
    writeWhole who (queReg q 0x0C) at_ lo hi s = sqbStored q lo hi s := by
  have hq := queReg_eq q 0x0C
  have hlo : queReg q 0x0C - 4 = queReg q 0x08 := rfl
  have henum : badEnum { rw := 0xFFFF_FF1F, reset := 0x04, pair := 1, enums := [(0, 5, 4, 16)] } lo = false := by
    simp [badEnum, hmin, hmax]
  have hfields : badFields s (queReg q 0x0C) lo hi = false := by
    unfold badFields
    rw [if_neg (by omega), hlo, regDesc_sqbHi, regDesc_sqbLo, henum]
    rfl
  have hok : writeRefusal s (Requester.code who) (queReg q 0x0C) lo hi = none := by
    simp [writeRefusal, hfields, badByRule_que, changesRwl, regDesc_sqbHi, regDesc_sqbLo, hlo]
  unfold writeWhole
  rw [hok]
  simp only
  rw [pinSequence_other who _ s (by omega)]
  unfold performWrite
  simp only [regDesc_sqbHi, if_true]
  iterate 6 rw [if_neg (by omega)]
  rw [if_pos (by omega), if_neg (by omega)]
  rfl

theorem findHalf_dropHalf (l : List Half) (who off : Nat) : findHalf (dropHalf l who off) who off = none := by
  have h : (dropHalf l who off).find? (fun h => h.who == who && h.off == off) = none := by
    rw [dropHalf, List.find?_filter, List.find?_eq_none]
    simp only [beq_iff_eq, Bool.not_eq_true', decide_eq_true_eq, Bool.and_eq_true, Bool.and_eq_false_iff]
    rintro x - ⟨hne, hwho, hoff⟩
    simp [hwho, hoff] at hne
  rw [findHalf, h]
  rfl

theorem findHalf_cons (l : List Half) (who off : Nat) (v : Word) : findHalf (⟨who, off, v⟩ :: l) who off = some v := by
  simp [findHalf]

/-- The _LO write of the pair is staged (R5). -/
theorem writeReg_sqbLo (who : Requester) (q : Fin 256) (lo : Word) {s : State} (hrole : s.twn.role = 0) :
    writeReg who (queReg q 0x08) 0xF lo s = stageHalf (Requester.code who) (queReg q 0x08) lo s := by
  unfold writeReg write32
  rw [accessStopped_que q (by decide), if_neg (by decide), if_neg (fun h => by simp [hrole] at h),
    if_neg (fun h => h.1 rfl), if_neg (fun h => by simp [hrole] at h)]
  simp only [regDesc_sqbLo, stages_sqb, if_true]

/-- The _HI write takes both halves together (R5, R6). -/
theorem writeReg_sqbHi (who : Requester) (q : Fin 256) {lo : Word} (hi : Word) {s : State} (hrole : s.twn.role = 0)
    (hstaged : findHalf s.staged (Requester.code who) (queReg q 0x08) = some lo) (hmin : 4 ≤ fld lo 0 5)
    (hmax : fld lo 0 5 ≤ 16) :
    writeReg who (queReg q 0x0C) 0xF hi s = sqbStored q lo hi (stagedUsed who (queReg q 0x08) s) := by
  have hhalf : loHalf (Requester.code who) (queReg q 0x0C) s = (lo, stagedUsed who (queReg q 0x08) s) := by
    unfold loHalf
    rw [show queReg q 0x0C - 4 = queReg q 0x08 from rfl, hstaged]
    rfl
  rw [← writeWhole_sqb who q _ hi _ hmin hmax]
  unfold writeReg write32
  rw [accessStopped_que q (by decide), if_neg (by decide), if_neg (fun h => by simp [hrole] at h),
    if_neg (fun h => h.1 rfl), if_neg (fun h => by simp [hrole] at h)]
  simp only [regDesc_sqbHi, if_true, hhalf]
  rfl

/-- What a whole access to the pair does first: the host's capture and staged half are discarded (R6). -/
def halvesDiscarded (q : Nat) (s : State) : State :=
  stagedUsed .host (queReg q 0x08) { s with captures := dropHalf s.captures 1 (queReg q 0x0C) }

theorem halvesDiscarded_within {q : Nat} {s : State} : Within [.staged, .captures] s (halvesDiscarded q s) :=
  captures_within.mono.step (t := { s with captures := dropHalf s.captures 1 (queReg q 0x0C) }) staged_within

theorem halvesDiscarded_spec (q : Nat) (s : State) :
    findHalf (halvesDiscarded q s).staged 1 (queReg q 0x08) = none ∧
      findHalf (halvesDiscarded q s).captures 1 (queReg q 0x0C) = none :=
  ⟨findHalf_dropHalf _ _ _, findHalf_dropHalf _ _ _⟩

theorem writePair_sqb (q : Fin 256) (v : BitVec 64) {s : State} (hrole : s.twn.role = 0) (hmin : 4 ≤ fld v 0 5)
    (hmax : fld v 0 5 ≤ 16) :
    writePair (queReg q 0x08) v s = sqbStored q (v.setWidth 32) ((v >>> 32).setWidth 32) (halvesDiscarded q s) := by
  have hfld : fld (v.setWidth 32) 0 5 = fld v 0 5 := by simp [fld]
  rw [← writeWhole_sqb .host q (queReg q 0x08) _ _ (hfld ▸ hmin) (hfld ▸ hmax)]
  unfold writePair writeBoth
  rw [accessStopped_que q (by decide), if_neg (by decide)]
  simp only [hrole, stages_sqb, if_true]
  rfl

theorem readPair_sqb (q : Fin 256) (s : State) :
    readPair (queReg q 0x08) s =
      reply .host (queReg q 0x0C) (readLive 1 s (queReg q 0x0C))
        (reply .host (queReg q 0x08) (readLive 1 s (queReg q 0x08)) (halvesDiscarded q s)) := by
  have hlive : ∀ o < 256, readLive 1 (halvesDiscarded q s) (queReg q o) = readLive 1 s (queReg q o) := fun o ho => by
    rw [readLive_que q.isLt ho, readLive_que q.isLt ho]
    rfl
  rw [← hlive 0x0C (by decide), ← hlive 0x08 (by decide)]
  unfold readPair
  rw [accessStopped_que q (by decide), if_neg (by decide)]
  rfl

theorem partialPair_sqb (q : Fin 256) {s : State} (hrole : s.twn.role = 0) :
    partialPair (queReg q 0x08) s = raiseRefused 8 (queReg q 0x08) .host 1 (halvesDiscarded q s) := by
  have hq := queReg_eq q 0x08
  rw [partialPair, eventOwner_que q (by decide)]
  simp only [hrole, pinSequence_other _ (queReg q 0x08) _ (by omega)]
  rfl

/-- A register of no pair is read without an effect. -/
theorem read32_plain (who : Requester) {off : Nat} {s : State} (hp : (regDesc off).pair = 0) (hsdata : isSdata off = false)
    (hlib : off ≠ 0x6_0024 ∧ off ≠ 0x6_0028) (hxlt : off ≠ 0x9_0040 ∧ off ≠ 0x9_0044) (hech : off ≠ 0xD_0040)
    (hf : accessStopped s off = false) :
    read32 who off s = reply who off (readLive (Requester.code who) s off) s := by
  have hread : readReg (Requester.code who) off s = (readLive (Requester.code who) s off, s) := by
    simp [readReg, hp, hsdata, hlib, hxlt, hech]
  unfold read32
  rw [hf, if_neg (by decide), hread]

theorem read32_sqbLo (who : Requester) (q : Fin 256) (s : State) :
    read32 who (queReg q 0x08) s = reply who (queReg q 0x08) (readLive (Requester.code who) s (queReg q 0x08))
      (holdCapture (Requester.code who) (queReg q 0x0C) (readLive (Requester.code who) s (queReg q 0x0C)) s) := by
  unfold read32 readReg
  rw [accessStopped_que q (by decide), if_neg (by decide), regDesc_sqbLo]
  rfl


/-! Two registers of a queue that are no pair (R770). -/

theorem regDesc_ctl (q : Fin 256) :
    regDesc (queReg q 0x30) = { rw := 0xC000_03FF } ∧ regDesc (queReg q 0x34) = { rw := 0x8FFF_FDFF, reset := 0x0010_0000 } :=
  ⟨regDesc_que q 0x30 q.isLt (by decide), regDesc_que q 0x34 q.isLt (by decide)⟩

theorem ctl_ne (q : Nat) : queReg q 0x30 ≠ queReg q 0x34 := by simp [queReg]

theorem isPair_ctl (q : Fin 256) : isPair (queReg q 0x30) = false := by
  rw [isPair, (regDesc_ctl q).1]
  rfl

theorem writeReg_ctl (who : Requester) (q : Fin 256) (v : Word) {s : State} (hrole : s.twn.role = 0) :
    writeReg who (queReg q 0x30) 0xF v s = storeReg (queReg q 0x30) v s ∧
      writeReg who (queReg q 0x34) 0xF v s = storeReg (queReg q 0x34) v s :=
  ⟨writeReg_queStore who q (by decide) rfl rfl rfl rfl v hrole, writeReg_queStore who q (by decide) rfl rfl rfl rfl v hrole⟩

theorem storeReg_ctl (q : Fin 256) (v : Word) (s : State) :
    (storeReg (queReg q 0x30) v s).reg (queReg q 0x30) = (s.reg (queReg q 0x30) &&& 0x3FFF_FC00) ||| (v &&& 0xC000_03FF) ∧
      (storeReg (queReg q 0x34) v s).reg (queReg q 0x34) =
        (s.reg (queReg q 0x34) &&& 0x7000_0200) ||| (v &&& 0x8FFF_FDFF) := by
  obtain ⟨h0, h4⟩ := regDesc_ctl q
  rw [storeReg_reg_same, storeReg_reg_same, h0, h4]
  exact ⟨rfl, rfl⟩

theorem read32_que (who : Requester) (q : Fin 256) {o : Nat} (ho : o < 256) {d : RegDesc} (hd : queDesc o = d)
    (hp : d.pair = 0) (s : State) : read32 who (queReg q o) s = reply who (queReg q o) (readLive (Requester.code who) s (queReg q o)) s := by
  have hq := queReg_eq q o
  have hdesc : regDesc (queReg q o) = d := (regDesc_que q o q.isLt ho).trans hd
  exact read32_plain who (hdesc.symm ▸ hp) (by simp [isSdata]; omega) (by omega) (by omega) (by omega)
    (accessStopped_que q ho s)


/-- The two accesses of a 64-bit write whose enables cover its high half. -/
theorem splitAccess_ctl (q : Fin 256) (v : BitVec 64) (be : BitVec 8) (s : State) :
    exec (.splitAccess64 (queReg q 0x30) (some v) be) s =
      .next (writeReg .host (queReg q 0x34) (BitVec.ofNat 4 (fld be 4 4)) ((v >>> 32).setWidth 32)
        (writeReg .host (queReg q 0x30) (be.setWidth 4) (v.setWidth 32) s)) :=
  if_neg (by simp [isPair_ctl])

theorem splitAccess_sqb_partial (q : Fin 256) (v : BitVec 64) {be : BitVec 8} (hbe : be ≠ 0xFF) (s : State) :
    exec (.splitAccess64 (queReg q 0x08) (some v) be) s = .next (partialPair (queReg q 0x08) s) :=
  (if_pos (isPair_sqb q)).trans (congrArg Host.Outcome.next (if_neg hbe))

/-- Settles O8: the writes of the pair are `sqbStored`, its reads are `readPair_sqb`, and the registers that are no pair
take two 32-bit accesses. -/
theorem registerPairsAreWhole : Obligations.RegisterPairsAreWhole := by
  unfold Obligations.RegisterPairsAreWhole
  refine ⟨fun s who q lo hi hrole => ⟨?_, fun hstaged hmin hmax => ?_, ?_, ?_⟩, fun s q hrole => ⟨?_, ?_, ?_, ?_, ?_, ?_⟩⟩
  · exact ⟨_, congrArg Host.Outcome.next (writeReg_sqbLo who q lo hrole), findHalf_cons _ _ _ _, staged_within.frame⟩
  · obtain ⟨hlo, hhi, hframe⟩ := sqbStored_spec q lo hi (stagedUsed who (queReg q 0x08) s)
    refine ⟨_, congrArg Host.Outcome.next (writeReg_sqbHi who q hi hrole hstaged hmin hmax), hlo, hhi, ?_, ?_⟩
    · rw [hframe .staged (by decide)]
      exact findHalf_dropHalf _ _ _
    · exact (staged_within.mono.step (storeReg_within.trans storeReg_within)).frame
  · exact ⟨_, congrArg Host.Outcome.next (read32_sqbLo who q s), rfl, findHalf_cons _ _ _ _,
      (captures_within.mono.step State.send_within).frame⟩
  · intro off hp hsdata h1 h2 h3 h4 h5 hoff hf
    have hexec : exec (.rcRead who off) s = .next (read32 who off s) :=
      congrArg Host.Outcome.next (if_neg (Nat.not_le.2 hoff))
    exact ⟨_, hexec.trans (congrArg _ (read32_plain who hp hsdata ⟨h1, h2⟩ ⟨h3, h4⟩ h5 hf)), rfl, State.send_within.frame⟩
  · intro v hmin hmax
    have hexec : exec (.pairAccess64 (queReg q 0x08) (some v)) s = .next (writePair (queReg q 0x08) v s) :=
      if_neg (by simp [isPair_sqb])
    obtain ⟨hlo, hhi, hframe⟩ := sqbStored_spec q (v.setWidth 32) ((v >>> 32).setWidth 32) (halvesDiscarded q s)
    obtain ⟨hstaged, hcaptures⟩ := halvesDiscarded_spec q s
    refine ⟨_, hexec.trans (congrArg _ (writePair_sqb q v hrole hmin hmax)), hlo, hhi, ?_, ?_, ?_⟩
    · rwa [hframe .staged (by decide)]
    · rwa [hframe .captures (by decide)]
    · exact (halvesDiscarded_within.mono.step (storeReg_within.trans storeReg_within)).frame
  · have hexec : exec (.pairAccess64 (queReg q 0x08) none) s = .next (readPair (queReg q 0x08) s) :=
      if_neg (by simp [isPair_sqb])
    exact ⟨_, hexec.trans (congrArg _ (readPair_sqb q s)), by simp [reply, State.send, halvesDiscarded, stagedUsed],
      (halvesDiscarded_within.mono.step (State.send_within.trans State.send_within)).frame⟩
  · intro v
    have hstep := splitAccess_ctl q v 0xFF s
    rw [show (0xFF : BitVec 8).setWidth 4 = 0xF from rfl, show BitVec.ofNat 4 (fld (0xFF : BitVec 8) 4 4) = 0xF from rfl,
      (writeReg_ctl .host q _ hrole).1, (writeReg_ctl .host q _ (by rwa [storeReg_within.frame .twn (by decide)])).2] at hstep
    obtain ⟨hlo, -⟩ := storeReg_ctl q (v.setWidth 32) s
    obtain ⟨-, hhi⟩ := storeReg_ctl q ((v >>> 32).setWidth 32) (storeReg (queReg q 0x30) (v.setWidth 32) s)
    rw [storeReg_reg_other (ctl_ne q).symm] at hhi
    exact ⟨_, hstep, (storeReg_reg_other (ctl_ne q) _ _).trans hlo, hhi, (storeReg_within.trans storeReg_within).frame⟩
  · intro v
    have hstep := splitAccess_ctl q v 0xF7 s
    have hq := queReg_eq q 0x30
    obtain ⟨hraised, hframe⟩ := raiseRefused_spec 8 (queReg q 0x30) .host 1 s
    rw [show (0xF7 : BitVec 8).setWidth 4 = 0x7 from rfl, show BitVec.ofNat 4 (fld (0xF7 : BitVec 8) 4 4) = 0xF from rfl,
      writeReg_partial .host (by decide) _ hrole (by simp [isKick]; omega) (by omega) (accessStopped_que q (by decide) s),
      eventOwner_que q (by decide), (writeReg_ctl .host q _ (by rwa [hframe .twn (by decide)])).2] at hstep
    have hregs := hframe .regs (by decide)
    refine ⟨_, hstep, (storeReg_reg_other (ctl_ne q) _ _).trans (hregs _), hraised.within storeReg_within, ?_,
      (raiseRefused_within.mono.step storeReg_within).frame⟩
    rw [(storeReg_ctl q _ _).2, hregs]
    rfl
  · have hexec : exec (.splitAccess64 (queReg q 0x30) none 0xFF) s =
        .next (read32 .host (queReg q 0x34) (read32 .host (queReg q 0x30) s)) := if_neg (by simp [isPair_ctl])
    have hlive : ∀ v, readLive (Requester.code .host) (reply .host (queReg q 0x30) v s) (queReg q 0x34) =
        readLive (Requester.code .host) s (queReg q 0x34) := fun v => by
      rw [readLive_que q.isLt (by decide), readLive_que q.isLt (by decide)]
      rfl
    rw [read32_que .host q (by decide) rfl rfl, read32_que .host q (by decide) rfl rfl] at hexec
    refine ⟨_, hexec, ?_, (State.send_within.trans State.send_within).frame⟩
    rw [hlive]
    simp [reply, State.send, Requester.code]
  · intro v be hbe
    have hstep := splitAccess_sqb_partial q v hbe s
    rw [partialPair_sqb q hrole] at hstep
    obtain ⟨hraised, hframe⟩ := raiseRefused_spec 8 (queReg q 0x08) .host 1 (halvesDiscarded q s)
    obtain ⟨hstaged, hcaptures⟩ := halvesDiscarded_spec q s
    refine ⟨_, hstep, hraised.before halvesDiscarded_within, ?_, ?_, (halvesDiscarded_within.mono.step raiseRefused_within).frame⟩
    · rwa [hframe .staged (by decide)]
    · rwa [hframe .captures (by decide)]

end Sys2Proof

/-! Clock switches, monitors and the device faults they detect (R623 to R635). -/

namespace Sys2Proof

open Sys2Proof.Machine

/-- A detected device fault whose action is REPORT: DEVFAULT is set and 0x0D0C raised. -/
def faultReported (code : Nat) (s : State) : State := raise 0x0D0C [code, 0] (s.modLys fun l => { l with devfault := true })

theorem faultReported_within {code : Nat} {s : State} : Within (.lys :: events) s (faultReported code s) :=
  (State.modLys_within).mono.step raise_within

theorem faultReported_spec (code : Nat) (s : State) :
    (faultReported code s).lys = { s.lys with devfault := true } ∧ Raised s (faultReported code s) 0x0D0C [code, 0] :=
  ⟨raise_lys _ _ _, raised_raise _ _ _⟩

/-- With the fault action REPORT, an event of a monitor is raised and the fault reported. -/
theorem deviceFault_raise {s : State} (htwin : s.twinStart = false) (hact : s.regF 0x1_0004 30 2 = 0) (code : Nat)
    (fields : List Nat) : deviceFault code (raise code fields s) = faultReported code (raise code fields s) := by
  refine deviceFault_report code _ ?_ ?_
  · rw [← htwin]
    simp [State.twinStart]
  · rw [← hact]
    simp [State.regF, State.reg]

/-- What a monitor leaves that detects a fault on a state whose fault action is REPORT. -/
theorem deviceFault_raise_spec {s : State} (htwin : s.twinStart = false) (hact : s.regF 0x1_0004 30 2 = 0) (code : Nat)
    (fields : List Nat) :
    (deviceFault code (raise code fields s)).lys = { s.lys with devfault := true } ∧
      Raised s (deviceFault code (raise code fields s)) code fields ∧
      Raised s (deviceFault code (raise code fields s)) 0x0D0C [code, 0] ∧
      Within (.lys :: events) s (deviceFault code (raise code fields s)) := by
  rw [deviceFault_raise htwin hact]
  obtain ⟨hlys, hraised⟩ := faultReported_spec code (raise code fields s)
  exact ⟨by rw [hlys, raise_lys], (raised_raise code fields s).within faultReported_within,
    hraised.before raise_within, raise_within.mono.step faultReported_within⟩

/-- Settles O10: a monitor's row is one change of Lysata's state, followed by `deviceFault` where a fault is detected. -/
theorem monitorsAndDeviceFaults : Obligations.MonitorsAndDeviceFaults := by
  unfold Obligations.MonitorsAndDeviceFaults
  refine ⟨⟨fun s hrun => ?_, fun s hreg hcores => ?_, fun s p => ?_, fun s n hused hcores => ?_, fun s p hoff hcores hne => ?_⟩,
    fun s htwin hact => ⟨fun hp => ?_, fun hp p => ?_, fun r high => ?_, fun hticket w => ?_, ?_⟩⟩
  · have hexec : exec .xtalFail s = .next (raise 0x0D0B [0x01] (s.modLys fun l => { l with xtalRun := false })) :=
      congrArg Host.Outcome.next (if_pos hrun)
    exact ⟨_, hexec, raise_lys _ _ _, raised_raise _ _ _, ((State.modLys_within).mono.step raise_within).frame⟩
  · exact ⟨_, congrArg Host.Outcome.next (if_pos ⟨hreg, by rw [hcores]; rfl⟩), rfl, (State.modLys_within).frame⟩
  · exact ⟨_, rfl, rfl, (State.modLys_within).frame⟩
  · have hexec : exec (.gclkChangeEffect n) s =
        .next (s.modLys fun l => { l with gclk := tabSet (gclkReset n) l.gclk n (s.reg (gclkReg n) &&& gclkMask) }) :=
      if_neg (by simp [hused, hcores])
    exact ⟨_, hexec, tabGet_tabSet_same _ _ _ _, fun m hm => tabGet_tabSet_otherDefault _ _ _ _ _ _ hm,
      (State.modLys_within).frame⟩
  · have hexec : exec (.fpllMultEffect p) s = .next (s.modLys fun l => { l with
        fpll := tabSet (fpllReset p) l.fpll p (s.regF (0x1_0040 + 4 * p) 0 7), locked := tabSet false l.locked p false }) := by
      refine if_pos ⟨?_, by rw [hcores]; rfl, hne⟩
      rw [List.all_eq_true]
      intro n hn
      by_cases hclk : fld (s.gclkOf n) 28 2 = p.val
      · simp [hoff n (List.mem_range.1 hn) hclk]
      · simp [hclk]
    exact ⟨_, hexec, tabGet_tabSet_same _ _ _ _, by simp, (State.modLys_within).frame⟩
  · obtain ⟨hlys, hraised, hfault, hw⟩ :=
      deviceFault_raise_spec (s := s.modLys fun l => { l with refOk := false }) htwin hact 0x0D0B [0x00]
    exact ⟨_, if_neg hp, hlys, hraised, hfault, ((State.modLys_within).mono.step hw).frame⟩
  · by_cases hfpll : p.val < 2
    · obtain ⟨hlys, hraised, hfault, hw⟩ := deviceFault_raise_spec
        (s := s.modLys fun l => { l with locked := tabSet false l.locked p false }) htwin hact 0x0D0B [0x10 + p]
      have hexec : exec (.pllLockLoss p) s = .next (deviceFault 0x0D0B (raise 0x0D0B [0x10 + p]
          (s.modLys fun l => { l with locked := tabSet false l.locked p false }))) := by
        refine (if_neg (by omega)).trans ?_
        simp only [if_pos hfpll]
        rfl
      refine ⟨_, hexec, by rw [hlys], fun _ => ?_, hraised, hfault, ((State.modLys_within).mono.step hw).frame⟩
      simp [hlys]
    · obtain ⟨hlys, hraised, hfault, hw⟩ := deviceFault_raise_spec htwin hact 0x0D0B [0x10 + p]
      have hexec : exec (.pllLockLoss p) s = .next (deviceFault 0x0D0B (raise 0x0D0B [0x10 + p] s)) := by
        refine (if_neg (by omega)).trans ?_
        simp only [if_neg hfpll]
        rfl
      exact ⟨_, hexec, by rw [hlys], fun h => absurd h hfpll, hraised, hfault, hw.frame⟩
  · obtain ⟨hlys, hraised, hfault, hw⟩ := deviceFault_raise_spec htwin hact 0x0D0A [r, if high then 2 else 1]
    exact ⟨_, rfl, hlys, hraised, hfault, hw.frame⟩
  · obtain ⟨hlys, hraised, hfault, hw⟩ := deviceFault_raise_spec
      (s := s.modLys fun l => { l with restarting := true, coresOk := false }) htwin hact 0x0D0D [if w then 2 else 1]
    have hexec : exec (.mgmtCoreFault w) s = .next (deviceFault 0x0D0D (raise 0x0D0D [if w then 2 else 1]
        (s.modLys fun l => { l with restarting := true, coresOk := false }))) := by
      refine congrArg (fun t => Host.Outcome.next (deviceFault 0x0D0D t)) (if_neg ?_)
      simp [hticket]
    exact ⟨_, hexec, hlys, hraised, hfault, ((State.modLys_within).mono.step hw).frame⟩
  · exact ⟨_, rfl, rfl, (State.modLys_within).frame⟩

end Sys2Proof

/-! Two-party protection changes: tickets (R649 to R655). -/

namespace Sys2Proof

open Sys2Proof.Machine

theorem State.modTicket_lys (s : State) (f : Ticket → Ticket) :
    (s.modTicket f).lys = { s.lys with ticket := f s.lys.ticket } := rfl

/-- An event of a ticket that has just ended. -/
theorem ticketEnded_spec (party reason : Nat) (s : State) :
    (ticketEvent party reason (s.modTicket fun t => { t with st := 0 })).lys.ticket = { s.lys.ticket with st := 0 } ∧
      Raised s (ticketEvent party reason (s.modTicket fun t => { t with st := 0 })) 0x0D10
        [s.lys.ticket.num, party, reason] ∧
      Within (.lys :: events) s (ticketEvent party reason (s.modTicket fun t => { t with st := 0 })) :=
  ⟨by rw [ticketEvent, raise_lys, State.modTicket_lys], raised_raise _ _ _, State.modTicket_within.mono.step ticketEvent_within⟩

theorem exec_tpOpen (who : Requester) (s : State) : exec (.tpOpen who) s = .next (ticketOpen who s) :=
  congrArg Host.Outcome.next (writeReg_tpOpen who s)

theorem exec_tpSvalWrite (who : Requester) (v : Word) (s : State) :
    exec (.tpSvalWrite who v) s = .next (ticketStage who v s) := congrArg Host.Outcome.next (writeReg_tpSval who v s)

/-- COMMIT is the ticket operation on a state that differs in staged halves alone. -/
theorem exec_tpCommit (who : Requester) (digest : Word) (n : BitVec 16) (s : State) :
    ∃ u, Within [.staged] s u ∧ exec (.tpCommit who digest n) s = .next (ticketCommit who digest n.toNat u) := by
  have hop : fld (mkFld 30 2 1 ||| mkFld 0 16 n.toNat) 30 2 = 1 := by
    rw [fld_or, fld_mkFld_same 30 2 1 (by decide), fld_mkFld_above 0 16 _ 30 2 (by decide) (by decide)]
    rfl
  have hticket : fld (mkFld 30 2 1 ||| mkFld 0 16 n.toNat) 0 16 = n.toNat := by
    rw [fld_or, fld_mkFld_below 30 2 1 0 16 (by decide) (by decide), fld_mkFld_same 0 16 _ (by decide), Nat.zero_or,
      Nat.mod_eq_of_lt n.isLt]
  have hwrite := writeReg_tpCommit who digest _ s hop
  rw [hticket] at hwrite
  have hstore : Within [.regs] (stagedUsed who 0x1_0120 s) (storeReg 0x1_0120 digest (stagedUsed who 0x1_0120 s)) :=
    storeReg_within
  have hnone : OnlyChanges [] (stagedUsed who 0x1_0120 s) (storeReg 0x1_0120 digest (stagedUsed who 0x1_0120 s)) :=
    onlyChanges_storeReg_none rfl digest _
  refine ⟨_, ?_, congrArg Host.Outcome.next hwrite⟩
  exact staged_within.trans ⟨⟨hnone.mono (List.nil_subset _), hstore.grotto, hstore.regs⟩, hstore.now, hstore.raised,
    hstore.sent, hstore.unpaired⟩

theorem ofNat16_toNat {n : Nat} (h : n < 65536) : (BitVec.ofNat 16 n).toNat = n := Nat.mod_eq_of_lt h

/-- A COMMIT of the current ticket by a party that has not committed (Table Lysata-8). -/
theorem ticketCommit_current {s : State} {who : Requester} {p : Nat} (hp : partyOf who = some p)
    (hst : s.lys.ticket.st = 1 ∨ s.lys.ticket.st = 2) (hc : s.lys.ticket.committed p = false) (digest : Word) :
    ticketCommit who digest s.lys.ticket.num s =
      if digest ≠ s.lys.ticket.digest then ticketEvent p 3 (s.modTicket fun t => { t with st := 0 })
      else s.modTicket fun t => { t.mark p with st := if t.st = 1 then 2 else 3 } := by
  have h3 : s.lys.ticket.st ≠ 3 := by omega
  have h0 : s.lys.ticket.st ≠ 0 := by omega
  simp [ticketCommit, hp, h3, h0, hc]

theorem ticketAbort_current {s : State} {who : Requester} {p : Nat} (hp : partyOf who = some p)
    (hst : s.lys.ticket.st = 1 ∨ s.lys.ticket.st = 2) :
    ticketAbort who s.lys.ticket.num s = ticketEvent p 5 (s.modTicket fun t => { t with st := 0 }) := by
  have hopen : ¬ (s.lys.ticket.st = 0 ∨ s.lys.ticket.st = 3) := by omega
  simp [ticketAbort, hp, hopen]

theorem ticketOpen_idle {s : State} {who : Requester} {p : Nat} (hp : partyOf who = some p) (hst : s.lys.ticket.st = 0) :
    (ticketOpen who s).lys.ticket.st = 1 ∧
      (ticketOpen who s).lys.ticket.num = (if s.lys.ticket.num = 65535 then 1 else s.lys.ticket.num + 1) ∧
      (ticketOpen who s).lys.ticket.entries = [] ∧ (ticketOpen who s).lys.ticket.sup = (p == 1) ∧
      Raised s (ticketOpen who s) 0x0D0E [if s.lys.ticket.num = 65535 then 1 else s.lys.ticket.num + 1, p] := by
  unfold ticketOpen
  simp only [hp]
  rw [if_neg (not_not.2 hst), raise_lys]
  exact ⟨rfl, rfl, rfl, rfl, (raised_raise _ _ _).before (State.modTicket_within.trans State.modTicket_within)⟩

/-- Settles O11: each ticket command is its ticket operation, which is one of the rows of Table Lysata-8. -/
theorem ticketNeedsBothParties : Obligations.TicketNeedsBothParties := by
  unfold Obligations.TicketNeedsBothParties
  refine ⟨fun s who p hp => ⟨fun hst => ?_, fun val hok hrole => ?_, fun val hno => ?_⟩,
    fun s who p hp => ⟨fun t0 ht0 hst hnum hc => ?_, fun digest hd hst hnum hc => ?_, fun hst hnum => ?_, fun hst => ?_,
      fun hst => ?_⟩⟩
  · obtain ⟨hst', hnum, hentries, hsup, hraised⟩ := ticketOpen_idle hp hst
    exact ⟨_, exec_tpOpen who s, hst', hnum, hentries, hsup, hnum ▸ hraised, ticketOpen_within.frame⟩
  · have hstage : ticketStage who val s =
        (s.modTicket fun t => { t with entries := t.entries ++ [((s.reg 0x1_0108).toNat, val)] }).modTicket
          fun t => { t with digest := digestOf t } := by
      simp [ticketStage, hok, hrole]
    exact ⟨_, (exec_tpSvalWrite who val s).trans (congrArg _ hstage), rfl, rfl, rfl,
      (State.modTicket_within.trans State.modTicket_within).frame⟩
  · have hstage : ticketStage who val s = raiseRefused 0x0D 0x1_010C who 6 s := by simp [ticketStage, hno]
    exact ⟨_, (exec_tpSvalWrite who val s).trans (congrArg _ hstage), raiseRefused_spec _ _ _ _ s⟩
  · obtain ⟨u, hstaged, hexec⟩ := exec_tpCommit who s.lys.ticket.digest (BitVec.ofNat 16 s.lys.ticket.num) s
    have hlys : u.lys = s.lys := hstaged.frame .lys (by decide)
    rw [ofNat16_toNat hnum] at hexec
    rw [← hlys] at ht0 hc hexec ⊢
    rw [ticketCommit_current hp (ht0.symm ▸ hst) hc, if_neg (not_not.2 rfl)] at hexec
    refine ⟨_, hexec, ?_, (hstaged.mono.step State.modTicket_within).frame⟩
    rw [State.modTicket_lys]
    rcases hst with rfl | rfl <;> simp [ht0]
  · obtain ⟨u, hstaged, hexec⟩ := exec_tpCommit who digest (BitVec.ofNat 16 s.lys.ticket.num) s
    have hlys : u.lys = s.lys := hstaged.frame .lys (by decide)
    rw [ofNat16_toNat hnum] at hexec
    rw [← hlys] at hst hc hd hexec ⊢
    rw [ticketCommit_current hp hst hc, if_pos hd] at hexec
    obtain ⟨hticket, hraised, hw⟩ := ticketEnded_spec p 3 u
    exact ⟨_, hexec, hticket, hraised.before hstaged, (hstaged.mono.step hw).frame⟩
  · obtain ⟨u, hstaged, hexec⟩ := exec_tpAbort who (BitVec.ofNat 16 s.lys.ticket.num) s
    have hlys : u.lys = s.lys := hstaged .lys (by decide)
    rw [ofNat16_toNat hnum] at hexec
    rw [← hlys] at hst hexec ⊢
    rw [ticketAbort_current hp hst] at hexec
    obtain ⟨hticket, hraised, hw⟩ := ticketEnded_spec p 5 u
    refine ⟨_, hexec, hticket, ?_, (hstaged.mono (by simp)).trans (hw.mono.frame)⟩
    rwa [Raised, show u.now = s.now from congrArg Lys.tbase hlys] at hraised
  · obtain ⟨hticket, hraised, hw⟩ := ticketEnded_spec 0xFF 6 s
    exact ⟨_, congrArg Host.Outcome.next (if_pos hst), hticket, hraised, hw.frame⟩
  · obtain ⟨hticket, hraised, hw⟩ := ticketEnded_spec 0xFF 6 s
    exact ⟨_, congrArg Host.Outcome.next (if_pos hst), hticket, hraised, hw.frame⟩

def protApplied (q : Nat) (val : Word) (s : State) : State :=
  s.setReg (queReg q 0x2C) ((s.reg (queReg q 0x2C) &&& 0x1FFF_FFC0) ||| (val &&& 0xE000_003F))

/-- A committed QUE_PROT takes its RWL bits from the entry. -/
theorem applyEntry_prot (cut : Option Nat) (who : Requester) (q : Fin 256) (val : Word) {s : State} (hrole : s.twn.role = 0) :
    applyEntry cut who (queReg q 0x2C, val) s =
      protApplied q val s := by
  have hq := queReg_eq q 0x2C
  have hsafe : isSafe (queReg q 0x2C) = false := by simp [isSafe, inChm]; omega
  unfold applyEntry applyCommitted
  simp only [hrole, regDesc_prot, hsafe]
  iterate 2 rw [if_neg (by simp)]
  iterate 4 rw [if_neg (by decide)]
  iterate 4 rw [if_neg (by omega)]
  rw [storeRwl, regDesc_prot]
  rfl

/-- Settles O13: the one entry is `applyEntry_prot`, and the end of the ticket touches no register. -/
theorem commitAppliesProtectedField : Obligations.CommitAppliesProtectedField := by
  unfold Obligations.CommitAppliesProtectedField
  intro s q val cut hst hcores hrole hentries
  have hne : ¬ (s.lys.ticket.st ≠ 3 ∨ s.lys.restarting = true) := by simp [hst, hcores]
  have hexec : exec (.commitApply cut) s = .next (raise 0x0D0F [s.lys.ticket.num, s.lys.ticket.digest.toNat, 1]
      ((protApplied q val s).modTicket fun x => { x with st := 0 })) := by
    refine (if_neg hne).trans ?_
    rw [hentries]
    exact congrArg (fun t => Host.Outcome.next (raise 0x0D0F _ (State.modTicket t _))) (applyEntry_prot cut _ q val hrole)
  have hend : Within (.lys :: events) (protApplied q val s) (raise 0x0D0F
      [s.lys.ticket.num, s.lys.ticket.digest.toNat, 1] ((protApplied q val s).modTicket fun x => { x with st := 0 })) :=
    State.modTicket_within.mono.step raise_within
  have hregs := hend.frame .regs (by decide)
  refine ⟨_, hexec, (hregs _).trans (setReg_reg_same _ _ _), fun o ho => (hregs o).trans (setReg_reg_other _ _ _ _ ho), ?_,
    (raised_raise _ _ _).before (State.setReg_within.mono.step State.modTicket_within (l := [.regs, .lys])),
    ((State.setReg_within).mono.step hend).frame⟩
  rw [raise_lys]
  rfl

end Sys2Proof

/-! Fields of registers, and loops that change nothing. -/

namespace Sys2Proof

open Sys2Proof.Machine

/-- Two words that agree on the bits of a field agree on the field. -/
theorem fld_congr {w w' : Nat} {x : BitVec w} {y : BitVec w'} {lo len : Nat}
    (h : ∀ i < len, x.getLsbD (lo + i) = y.getLsbD (lo + i)) : fld x lo len = fld y lo len := by
  refine Nat.eq_of_testBit_eq fun i => ?_
  simp only [fld, Nat.testBit_mod_two_pow, Nat.testBit_shiftRight]
  by_cases hi : i < len
  · exact congrArg (_ && ·) (h i hi)
  · simp [hi]

theorem getLsbD_fieldMask (lo len i : Nat) (hi : i < 32) :
    (BitVec.ofNat 32 ((2 ^ len - 1) <<< lo)).getLsbD i = (decide (lo ≤ i) && decide (i - lo < len)) := by
  rw [BitVec.getLsbD_ofNat, Nat.testBit_shiftLeft, Nat.testBit_two_pow_sub_one]
  simp [hi]

/-- Bits of a word with one field replaced. -/
theorem getLsbD_setFld (x : Word) (lo len v i : Nat) (hi : i < 32) :
    (setFld x lo len v).getLsbD i = if lo ≤ i ∧ i - lo < len then v.testBit (i - lo) else x.getLsbD i := by
  unfold setFld
  simp only [BitVec.getLsbD_or, BitVec.getLsbD_and, BitVec.getLsbD_not, getLsbD_fieldMask lo len i hi, BitVec.getLsbD_ofNat,
    Nat.testBit_shiftLeft, Nat.testBit_mod_two_pow, hi]
  by_cases hlo : lo ≤ i <;> by_cases hlen : i - lo < len <;> simp [hlo, hlen]

/-- A replaced field read back. -/
theorem fld_setFld_same (x : Word) {lo len : Nat} (v : Nat) (h : lo + len ≤ 32) :
    fld (setFld x lo len v) lo len = v % 2 ^ len := by
  refine Nat.eq_of_testBit_eq fun i => ?_
  simp only [fld, Nat.testBit_mod_two_pow, Nat.testBit_shiftRight]
  by_cases hi : i < len
  · have hbit := getLsbD_setFld x lo len v (lo + i) (by omega)
    rw [Nat.add_sub_cancel_left, if_pos ⟨Nat.le_add_right _ _, hi⟩] at hbit
    exact congrArg (_ && ·) hbit
  · simp [hi]

/-- Replacing a field leaves a field apart from it as it was. -/
theorem fld_setFld_other (x : Word) {lo len lo' len' : Nat} (v : Nat) (h : lo' + len' ≤ 32)
    (hne : lo' + len' ≤ lo ∨ lo + len ≤ lo') : fld (setFld x lo len v) lo' len' = fld x lo' len' := by
  refine fld_congr fun i hi => ?_
  rw [getLsbD_setFld x lo len v (lo' + i) (by omega), if_neg (by omega)]

theorem setRegF_reg (s : State) (off lo len v : Nat) : (s.setRegF off lo len v).reg off = setFld (s.reg off) lo len v :=
  setReg_reg_same _ _ _

theorem setRegF_regF {lo len : Nat} (s : State) (off v : Nat) (h : lo + len ≤ 32) :
    (s.setRegF off lo len v).regF off lo len = v % 2 ^ len := by
  rw [State.regF, setRegF_reg, fld_setFld_same _ _ h]

theorem setRegF_reg_other {o off : Nat} (h : o ≠ off) (s : State) (lo len v : Nat) :
    (s.setRegF off lo len v).reg o = s.reg o := setReg_reg_other _ _ _ _ h

theorem forEach_nil {α : Type} (f : α → State → State) (s : State) : forEach [] f s = s := rfl

theorem forEach_cons {α : Type} (a : α) (l : List α) (f : α → State → State) (s : State) :
    forEach (a :: l) f s = forEach l f (f a s) := rfl

/-- A loop none of whose turns changes the state. -/
theorem forEach_eq_self {α : Type} {l : List α} {f : α → State → State} {s : State} (h : ∀ a ∈ l, f a s = s) :
    forEach l f s = s := by
  induction l with
  | nil => rfl
  | cons a l ih =>
    rw [forEach_cons, h a (by simp)]
    exact ih fun b hb => h b (by simp [hb])

end Sys2Proof

/-! The power ladder (R639 to R645). -/

namespace Sys2Proof

open Sys2Proof.Machine

theorem fld_pwrStored (x v : Word) : fld ((x &&& ~~~(0xE000_0000 : Word)) ||| (v &&& 0xE000_0000)) 29 3 = fld v 29 3 := by
  refine fld_congr fun i hi => ?_
  simp only [BitVec.getLsbD_or, BitVec.getLsbD_and, BitVec.getLsbD_not]
  interval_cases i <;> simp

/-- LYS_PWR stored. -/
theorem pwrTarget_storeReg (v : Word) (s : State) : pwrTarget (storeReg 0x1_0008 v s) = fld v 29 3 := by
  rw [pwrTarget, State.regF, storeReg_reg_same]
  exact fld_pwrStored _ _

theorem pwrWritten_entry {s : State} (hpaired : s.paired = false) (hle : s.pstate ≤ pwrTarget s) :
    pwrWritten s = s.modLys fun l => { l with pend := decide (l.pstate < pwrTarget s), waited := 0 } := by
  simp [pwrWritten, hpaired, Nat.not_lt.2 hle]

theorem writeReg_pwr_refused (who : Requester) {v : Word} (h : 5 < fld v 29 3) (s : State) :
    writeReg who 0x1_0008 0xF v s = raiseRefused 0x0D 0x1_0008 who 2 s := by
  have hbad : badFields s 0x1_0008 0 v = true := by
    have hdesc : regDesc 0x1_0008 = { rw := 0xE000_0000, enums := [(29, 3, 0, 5)] } := rfl
    simp [badFields, hdesc, badEnum, h]
  have hrefusal : writeRefusal s (Requester.code who) 0x1_0008 0 v = some 2 := by
    rw [writeRefusal, hbad]
    rfl
  rw [writeReg_refused who 0x1_0008 v s 2 (.inl (by decide)) (by decide) (by decide) hrefusal,
    pinSequence_other who _ s (by decide)]
  rfl

theorem ladderUnmet_one (s : State) : ladderUnmet s 1 = [] := by simp [ladderUnmet]

/-- The row of an entry into P1 is open. -/
theorem exec_ladderEntry_one {s : State} {partner : Fin 6} (hp : s.pstate = 0) (ht : effectiveTarget s partner = 1)
    (hexit : s.lys.exiting = false) (hcores : s.lys.restarting = false) :
    exec (.ladderEntry partner) s =
      if s.twn.role = 1 then .next (sendTwin 26 (leBytes 1 0 ++ leBytes 1 1 ++ leBytes 1 1) s)
      else if s.twn.role = 2 then .next s else .next (enterLadder 1 s) := by
  have hopen : ¬ (effectiveTarget s partner ≤ s.pstate ∨ s.lys.exiting = true ∨ s.lys.restarting = true ∨
      ladderUnmet s (effectiveTarget s partner) ≠ []) := by
    rw [ht, ladderUnmet_one]
    simp [hp, hexit, hcores]
  refine (if_neg hopen).trans ?_
  rw [ht]
  rfl

/-- The state changes of Lysata when a power state is entered. -/
def stateEntered (t : Nat) (s : State) : State :=
  s.modLys fun l => { l with
    pstate := t, pend := false, waited := 0,
    timer := if t = 0 ∨ (s.reg 0x1_0014).toNat = 0 then none else some (s.reg 0x1_0014).toNat }

theorem stateEntered_within {t : Nat} {s : State} : Within [.lys] s (stateEntered t s) := State.modLys_within

theorem enterState_calm {s : State} (h : s.pstate ≠ 0 ∨ s.twn.pstate ≠ 5) (t cause : Nat) :
    enterState t cause s = raise 0x0D02 [s.pstate, t, cause] (stateEntered t s) := by
  have hrejoin : ∀ m, s.pstate = 0 →
      abandonRejoin m (raise 0x0D02 [s.pstate, t, cause] (stateEntered t s)) =
        raise 0x0D02 [s.pstate, t, cause] (stateEntered t s) := fun m h0 => by
    have htwin : s.twn.pstate ≠ 5 := h.resolve_left (not_not.2 h0)
    exact if_pos (by rwa [raise_twn])
  by_cases h0 : s.pstate = 0
  · exact (if_pos h0).trans (hrejoin _ h0)
  · exact if_neg h0

theorem enterLadder_one {s : State} (h : s.twn.pstate ≠ 5) :
    enterLadder 1 s = raise 0x0D02 [s.pstate, 1, 1] (stateEntered 1 s) := by
  rw [← enterState_calm (.inr h)]
  rfl

theorem enterLadder_one_spec {s : State} (h : s.twn.pstate ≠ 5) :
    (enterLadder 1 s).pstate = 1 ∧ (enterLadder 1 s).lys.pend = false ∧ Raised s (enterLadder 1 s) 0x0D02 [s.pstate, 1, 1] ∧
      Within (.lys :: events) s (enterLadder 1 s) := by
  rw [enterLadder_one h, State.pstate, raise_lys]
  exact ⟨rfl, rfl, (raised_raise _ _ _).before stateEntered_within, stateEntered_within.mono.step raise_within⟩

/-! Exits. -/

/-- An exit from P1, P2 or P3 starts. -/
def exitStarted (dst cause : Nat) (s : State) : State :=
  s.modLys fun l => { l with
    exiting := true, exitFrom := s.pstate, exitTo := dst, exitCause := cause, timer := none, pend := false }

theorem exitStarted_within {dst cause : Nat} {s : State} : Within [.lys] s (exitStarted dst cause s) := State.modLys_within

theorem startExit_shallow {s : State} (h1 : 1 ≤ s.pstate) (h3 : s.pstate ≤ 3) (hexit : s.lys.exiting = false)
    (dst cause : Nat) : startExit dst cause s = exitStarted dst cause s := by
  have hgo : ¬ (s.pstate = 0 ∨ s.lys.exiting = true) := by simp [hexit]; omega
  refine (if_neg hgo).trans ?_
  simp only [if_neg (by omega : ¬ s.pstate = 5)]
  exact if_neg (by omega)

/-- The wake status, the event and the target of a wake. -/
def woken (b : Nat) (s : State) : State :=
  (raise 0x0D04 [b] (s.modLys fun l => { l with wakest := putBit l.wakest b true })).setRegF 0x1_0008 29 3 0

theorem woken_within {b : Nat} {s : State} : Within (.regs :: .lys :: events) s (woken b s) :=
  (State.modLys_within).mono.step raise_within |>.step State.setReg_within

theorem woken_spec (b : Fin 7) (s : State) :
    (woken b s).lys = { s.lys with wakest := putBit s.lys.wakest b true } ∧ (woken b s).regF 0x1_0008 29 3 = 0 ∧
      Raised s (woken b s) 0x0D04 [b] ∧ bit (woken b s).lys.wakest b = true := by
  have hlys : (woken b s).lys = { s.lys with wakest := putBit s.lys.wakest b true } := raise_lys _ _ _
  refine ⟨hlys, setRegF_regF _ _ _ (by decide), ?_, ?_⟩
  · exact ((raised_raise 0x0D04 [b.val] _).before (l := [.lys]) State.modLys_within).within (l := [.regs]) State.setReg_within
  · rw [hlys]
    simp [bit_putBit_true _ _ _ b.isLt]

theorem wakeUp_enabled {s : State} {b : Nat} (h1 : 1 ≤ s.pstate) (h3 : b ≠ 3) (h6 : b ≠ 6)
    (hen : s.regB 0x1_000C b = true) (hexit : s.lys.exiting = false) :
    wakeUp b s = askExit 0 (0x10 + b) (woken b s) := by
  have hp : s.pstate ≠ 0 := by omega
  have hstill : (woken b s).lys.exiting = false := by
    rw [woken, State.setRegF, State.setReg_lys, raise_lys]
    exact hexit
  have hgo : ¬ ((!(b == 6 || s.regB 0x1_000C b) || ((b == 3 && !(decide (1 ≤ s.pstate) && decide (s.pstate ≤ 2))) ||
      (b == 6 && !(decide (3 ≤ s.pstate) && decide (s.pstate ≤ 4)))) || s.pstate == 0) = true) := by
    simp [hen, h3, h6, hp]
  refine (if_neg hgo).trans (if_neg ?_)
  change ¬ ((woken b s).lys.exiting = true)
  simp [hstill]

theorem wakeUp_alone {s : State} {b : Nat} (h1 : 1 ≤ s.pstate) (hp3 : s.pstate ≤ 3) (h3 : b ≠ 3) (h6 : b ≠ 6)
    (hen : s.regB 0x1_000C b = true) (hexit : s.lys.exiting = false) (hpaired : s.paired = false) :
    wakeUp b s = exitStarted 0 (0x10 + b) (woken b s) := by
  have hlys : (woken b s).lys = { s.lys with wakest := putBit s.lys.wakest b true } := raise_lys _ _ _
  have hpstate : (woken b s).pstate = s.pstate := (congrArg Lys.pstate hlys).trans rfl
  rw [wakeUp_enabled h1 h3 h6 hen hexit]
  refine (if_neg (by simp [woken_within.unpaired hpaired])).trans
    (startExit_shallow (by omega) (by omega) ?_ 0 (0x10 + b))
  rw [hlys]
  exact hexit

theorem stampedLadder_exit {s : State} (h1 : 1 ≤ s.pstate) (h3 : s.pstate ≤ 3) (hexit : s.lys.exiting = false)
    (cause : Nat) : stampedLadder true 0 cause s = exitStarted 0 cause s :=
  (if_neg (by simp [hexit])).trans ((if_pos rfl).trans ((if_pos (by omega)).trans (startExit_shallow h1 h3 hexit 0 cause)))

theorem exec_stampedDelivery_ladder {s : State} (hpaired : s.paired = true) (d : Fin 40) (n : Nat) (exits : Bool)
    (dst : Fin 6) (c : BitVec 8) :
    exec (.stampedDelivery d n false (.ladder exits dst c)) s =
      .next (stampedLadder exits dst c.toNat (s.modTwn fun t => { t with stamped := n })) :=
  (if_neg (by simp [hpaired])).trans (if_neg (by simp))

theorem wakeBundles_none {s : State} (h : ∀ b < 8, s.regB (gvlReg b 0) 31 = false) : wakeBundles s = s :=
  forEach_eq_self fun b hb => if_neg (by simp [h b (List.mem_range.1 hb)])

/-- An exit from P1 to P0 ends with no lane to wake. -/
theorem exec_ladderExitDone_shallow {s : State} (hp : s.pstate = 1) (hexit : s.lys.exiting = true)
    (hfrom : s.lys.exitFrom = 1) (hto : s.lys.exitTo = 0) (hlanes : ∀ b < 8, s.regB (gvlReg b 0) 31 = false) :
    exec .ladderExitDone s = .next (raise 0x0D02 [1, 0, s.lys.exitCause]
      (stateEntered 0 (s.modLys fun l => { l with exiting := false }))) := by
  have hgo : ¬ ((!s.lys.exiting || exitWaits s) = true) := by simp [hexit, exitWaits, hfrom]
  have henter := enterState_calm (s := s.modLys fun l => { l with exiting := false }) (.inl (by simp [State.pstate] at hp; simp [State.pstate, hp])) 0 s.lys.exitCause
  refine (if_neg hgo).trans ?_
  have hwake : wakeBundles (raise 0x0D02 [1, 0, s.lys.exitCause]
      (stateEntered 0 (s.modLys fun l => { l with exiting := false }))) = _ :=
    wakeBundles_none fun b hb => by
      rw [State.regB, State.reg, raise_regs]
      exact hlanes b hb
  have hp' : (s.modLys fun l => { l with exiting := false }).pstate = 1 := hp
  simp only [hfrom, hto, henter, hp', hwake, if_neg (by decide : ¬ (4 ≤ 1 ∧ 0 ≤ 3)), if_neg (by decide : ¬ (2 ≤ 1 ∧ 0 ≤ 1)),
    if_true, if_neg (by decide : ¬ 1 = 5), Nat.not_lt_zero, if_false]
  rfl

/-- Settles O14: each row of the ladder is an entry (`enterLadder_one_spec`), a wake (`wakeUp_enabled`) or an exit
(`startExit_shallow`), and in a pair what is sent and what is delivered. -/
theorem powerLadderMoves : Obligations.PowerLadderMoves := by
  unfold Obligations.PowerLadderMoves
  refine ⟨fun s who val hval hle hpaired => ?_, fun s who val hval => ?_, fun s partner hp ht hexit hcores => ⟨?_, ?_, ?_⟩,
    fun s b h1 hp3 hexit h3 h6 hen => ⟨fun hpaired => ?_, fun hpaired hup => ?_⟩,
    fun s d n c hpaired hexit => ⟨fun h1 hp3 => ?_, fun hp hcalm => ?_⟩, fun s h1 hp3 hexit htimer hen hpaired => ?_,
    fun s hp hexit hfrom hto hlanes => ?_⟩
  · have hwrite := writeReg_pwr who val s hval
    have htarget := pwrTarget_storeReg val s
    rw [pwrWritten_entry (s := storeReg 0x1_0008 val s) hpaired (by rw [htarget]; exact hle), htarget] at hwrite
    exact ⟨_, congrArg Host.Outcome.next hwrite, htarget, rfl, (storeReg_within.mono.step State.modLys_within).frame⟩
  · exact ⟨_, congrArg Host.Outcome.next (writeReg_pwr_refused who hval s), raiseRefused_spec _ _ _ _ s⟩
  · intro hpaired hcalm
    have hrole : s.twn.role ≠ 1 ∧ s.twn.role ≠ 2 := by simpa [State.paired] using hpaired
    have hexec := exec_ladderEntry_one hp ht hexit hcores
    rw [if_neg hrole.1, if_neg hrole.2] at hexec
    obtain ⟨hp', hpend, hraised, hw⟩ := enterLadder_one_spec hcalm
    exact ⟨_, hexec, hp', hpend, hp ▸ hraised, hw.frame⟩
  · intro hrole hup
    have hexec := exec_ladderEntry_one hp ht hexit hcores
    rw [if_pos hrole, sendTwin, hup] at hexec
    exact ⟨_, hexec, rfl, hp, State.send_within.frame⟩
  · intro hrole
    have hexec := exec_ladderEntry_one hp ht hexit hcores
    rwa [if_neg (by omega), if_pos hrole] at hexec
  · obtain ⟨hlys, htarget, hraised, hbit⟩ := woken_spec b s
    exact ⟨_, congrArg Host.Outcome.next (wakeUp_alone h1 hp3 h3 h6 hen hexit hpaired), rfl, rfl, rfl, hbit, htarget,
      (congrArg Lys.pstate hlys).trans rfl, hraised.within exitStarted_within,
      (woken_within.mono.step exitStarted_within).frame⟩
  · obtain ⟨hlys, htarget, hraised, hbit⟩ := woken_spec b s
    have hup' : (woken b s).twinUp = true := by
      have hgvl : (woken b s).gvl = s.gvl := woken_within.frame .gvl (by decide)
      rw [← hup]
      simp [State.twinUp, State.bunUp, State.bun, hgvl]
    have hpaired' : (woken b s).paired = true := by
      rw [State.paired, woken_within.frame .twn (by decide)]
      exact hpaired
    have hask : wakeUp b s = (woken b s).send (.twin 26 [1, 0, BitVec.ofNat 8 (0x10 + b)]) := by
      rw [wakeUp_enabled h1 h3 h6 hen hexit]
      refine (if_pos hpaired').trans ?_
      rw [sendTwin, hup']
      rfl
    refine ⟨_, congrArg Host.Outcome.next hask, by simp, (congrArg Lys.exiting hlys).trans hexit, hbit, htarget,
      (congrArg Lys.pstate hlys).trans rfl, hraised.within State.send_within, (woken_within.mono.step State.send_within).frame⟩
  · have hlater := stampedLadder_exit (s := s.modTwn fun t => { t with stamped := n }) h1 hp3 hexit c.toNat
    exact ⟨_, (exec_stampedDelivery_ladder hpaired d n true 0 c).trans (congrArg _ hlater), rfl, rfl, rfl, rfl,
      ((State.modTwn_within).mono.step exitStarted_within).frame⟩
  · obtain ⟨hp', hpend, hraised, hw⟩ := enterLadder_one_spec (s := s.modTwn fun t => { t with stamped := n }) hcalm
    have hlater : stampedLadder false 1 (1 : BitVec 8).toNat (s.modTwn fun t => { t with stamped := n }) =
        enterLadder 1 (s.modTwn fun t => { t with stamped := n }) := by
      have hlt : (s.modTwn fun t => { t with stamped := n }).pstate < 1 := by
        show s.pstate < 1
        omega
      exact (if_neg (by simp [hexit])).trans ((if_neg (by decide)).trans (if_pos hlt))
    have hfrom : (s.modTwn fun t => { t with stamped := n }).pstate = 0 := hp
    rw [hfrom] at hraised
    exact ⟨_, (exec_stampedDelivery_ladder hpaired d n false 1 1).trans (congrArg _ hlater), hp', hraised,
      ((State.modTwn_within).mono.step hw).frame⟩
  · have hexec : exec .ladderTimerExpire s = .next (wakeUp 0 (s.modLys fun l => { l with timer := none })) :=
      congrArg Host.Outcome.next (if_pos htimer)
    rw [wakeUp_alone (s := s.modLys fun l => { l with timer := none }) h1 hp3 (by decide) (by decide) hen hexit hpaired] at hexec
    obtain ⟨hlys, -, hraised, hbit⟩ := woken_spec 0 (s.modLys fun l => { l with timer := none })
    exact ⟨_, hexec, rfl, rfl, rfl, hbit, hraised.within exitStarted_within,
      ((State.modLys_within).mono.step woken_within |>.step exitStarted_within).frame⟩
  · have hexec := exec_ladderExitDone_shallow hp hexit hfrom hto hlanes
    refine ⟨_, hexec, ?_, ?_, ?_, ((State.modLys_within).mono.step stateEntered_within |>.step raise_within).frame⟩
    · rw [State.pstate, raise_lys]
      rfl
    · rw [raise_lys]
      rfl
    · exact (raised_raise _ _ _).before ((State.modLys_within).trans stateEntered_within)

end Sys2Proof

/-! The mailbox and SMBus (R657, R658, R746). -/

namespace Sys2Proof

open Sys2Proof.Machine

/-- The word of a mailbox command gives back its code and argument. -/
theorem fld_mbWord {code : Nat} (hc : code < 256) (arg : BitVec 24) :
    fld (mkFld 24 8 code ||| mkFld 0 24 arg.toNat) 24 8 = code ∧
      fld (mkFld 24 8 code ||| mkFld 0 24 arg.toNat) 0 24 = arg.toNat := by
  rw [fld_or, fld_or, fld_mkFld_same 24 8 _ (by decide), fld_mkFld_above 0 24 _ 24 8 (by decide) (by decide),
    fld_mkFld_below 24 8 _ 0 24 (by decide) (by decide), fld_mkFld_same 0 24 _ (by decide), Nat.or_zero, Nat.zero_or,
    Nat.mod_eq_of_lt (by omega : code < 2 ^ 8), Nat.mod_eq_of_lt arg.isLt]
  exact ⟨rfl, rfl⟩

/-- A command at a free mailbox (R658). -/
theorem completes_mailboxCommand {i : Instr} {s : State} {who : Requester} {arg : BitVec 24} {code : Nat} (hc : code < 256)
    (hexec : exec i s = .next (writeReg who 0x1_0200 0xF (mkFld 24 8 code ||| mkFld 0 24 arg.toNat) s))
    (hparty : (partyOf who).isSome = true) (hcores : s.lys.restarting = false)
    (hfree : (tabGet ({} : Mailbox) s.lys.boxes (Requester.code who)).busy = false) :
    Completes i s fun t => (tabGet {} t.lys.boxes (Requester.code who)).busy = true ∧
      (tabGet {} t.lys.boxes (Requester.code who)).code = code ∧
      (tabGet {} t.lys.boxes (Requester.code who)).arg = arg.toNat ∧ OnlyChanges [.lys] s t := by
  obtain ⟨hcode, harg⟩ := fld_mbWord hc arg
  have hgo : ¬ ((tabGet ({} : Mailbox) s.lys.boxes (Requester.code who)).busy = true ∨ s.lys.restarting = true ∨
      partyOf who = none) := by
    simp [hfree, hcores, Option.isSome_iff_ne_none.1 hparty]
  rw [writeReg_mbCmd, hcode, harg, mailboxCommand, if_neg hgo] at hexec
  refine ⟨_, hexec, ?_, ?_, ?_, (State.modLys_within).frame⟩ <;>
    rw [State.modLys_lys, tabGet_tabSet_same]

theorem telemetry_length (s : State) : (telemetry s).length = 27 := by simp [telemetry]

/-- Settles O15: the mailbox holds what `mailboxCommand` and `mailboxAnswer` give, and SMBus sends one answer. -/
theorem mailboxAndSmbus : Obligations.MailboxAndSmbus := by
  unfold Obligations.MailboxAndSmbus
  refine ⟨fun s who arg hparty hcores hfree => ⟨?_, ?_, ?_, ?_⟩, fun s who b hcores hbox hbusy => ?_, fun s => ?_, fun s => ?_,
    fun s => ?_, fun s c hc => ?_, fun s hlow => ?_⟩
  · exact completes_mailboxCommand (code := 1) (by decide) rfl hparty hcores hfree
  · exact completes_mailboxCommand (code := 2) (by decide) rfl hparty hcores hfree
  · exact completes_mailboxCommand (code := 3) (by decide) rfl hparty hcores hfree
  · exact completes_mailboxCommand (code := 4) (by decide) rfl hparty hcores hfree
  · subst hbox
    refine ⟨_, if_neg (by simp [hbusy, hcores]), ?_, (State.modLys_within).frame⟩
    rw [State.modLys_lys, tabGet_tabSet_same]
    rfl
  · exact ⟨rfl, telemetry_length s, rfl, rfl⟩
  · exact ⟨_, rfl, rfl, State.send_within.frame⟩
  · exact ⟨_, rfl, rfl, State.send_within.frame⟩
  · exact ⟨_, if_neg hc, rfl, State.send_within.frame⟩
  · exact ⟨_, if_pos hlow, rfl, State.send_within.frame⟩

end Sys2Proof

/-! Domain resets and the fences of the die boundaries (R36 to R44, R637, R638). -/

namespace Sys2Proof

open Sys2Proof.Machine

/-- A word masked to the domains, cut to 16 bits, has the same value. -/
theorem toNat_domainMask (mask : Word) : ((mask &&& 0xFF1F).setWidth 16 : BitVec 16).toNat = (mask &&& 0xFF1F).toNat := by
  have hlt : (mask &&& 0xFF1F).toNat < 2 ^ 16 :=
    Nat.lt_of_le_of_lt (by rw [BitVec.toNat_and]; exact Nat.and_le_right) (by decide : (0xFF1F : Word).toNat < 2 ^ 16)
  rw [BitVec.toNat_setWidth, Nat.mod_eq_of_lt hlt]

theorem exec_domainResetRequest (who : Requester) (mask : Word) (s : State) :
    exec (.domainResetRequest who mask) s = .next (requestResets mask s) :=
  congrArg Host.Outcome.next (writeReg_rst who mask s)

/-- Requested domains, with those in reset left out, joined with what was requested. -/
theorem or_and_not_self {w : Nat} (r x y : BitVec w) : r ||| (x &&& ~~~y &&& ~~~r) = r ||| (x &&& ~~~y) := by
  ext i hi
  simp only [BitVec.getElem_or, BitVec.getElem_and, BitVec.getElem_not]
  cases r[i] <;> simp

/-- In P0 and P1 the domains not in reset are requested (R637). -/
theorem requestResets_shallow {s : State} (hp : s.pstate < 2) (mask : Word) :
    (requestResets mask s).rst =
      { s.rst with requested := s.rst.requested ||| (((mask &&& 0xFF1F).setWidth 16) &&& ~~~s.rst.inReset) } ∧
      OnlyChanges [.rst] s (requestResets mask s) := by
  unfold requestResets
  by_cases hnone : ((mask &&& 0xFF1F).setWidth 16 : BitVec 16) = 0
  · rw [if_pos hnone, hnone]
    exact ⟨by simp, OnlyChanges.refl _ _⟩
  · rw [if_neg hnone, if_neg (by omega), State.modRst_rst]
    exact ⟨by simp only [or_and_not_self], State.modRst_within.frame⟩

theorem requestResets_deep {s : State} (hp : 2 ≤ s.pstate) {mask : Word} (hmask : mask &&& 0xFF1F ≠ 0) :
    requestResets mask s = raise 0x0D03 [(mask &&& 0xFF1F).toNat, 0x0B] s := by
  have hwant : ((mask &&& 0xFF1F).setWidth 16 : BitVec 16) ≠ 0 := fun h => by
    have hzero := congrArg BitVec.toNat h
    rw [toNat_domainMask] at hzero
    exact hmask (BitVec.eq_of_toNat_eq hzero)
  unfold requestResets
  rw [if_neg hwant, if_pos hp, toNat_domainMask]

/-! The start of domain resets. -/

theorem closeFences_rst (mask : BitVec 16) (s : State) :
    ∃ closed, (closeFences mask s).rst = { s.rst with closedFor := closed } := by
  have hkeep : ∀ {t : State} (l : List (Nat × Nat)),
      Within (.fab :: .lib :: .que :: .seed :: events) t
        (forEach l (fun (b, n) s => raise 0x0202 [b, (sideMask mask b).toNat, n] (applyShifts b s)) t) :=
    fun l => .forEach (fun _ _ => applyShifts_within.mono.step raise_within)
  have hrst := fun l => ((abortTransfers_within (mask := mask) (s := s)).trans (hkeep l)).frame .rst (by decide)
  unfold closeFences
  rw [State.modRst_rst, hrst]
  exact ⟨_, rfl⟩

/-- The effects on the domains that enter reset, once their reset is on the books. -/
def domainsEntered (mask : BitVec 16) (s : State) : State :=
  let s := if mask &&& 3 = 0 then s else watchShafts s
  let s := if bit mask 2 then cfgEnter s else s
  let s := if bit mask 3 then memReset s else s
  let s := if bit mask 4 then fioEnter s else s
  let s := if bit mask 5 then hostEnter s else s
  forEach ((List.range 8).filter fun b => bit mask (8 + b)) laneEnter s

/-- Every part but the books of the resets and Lysata. -/
def entering : List Part :=
  [.regs, .captures, .staged, .fab, .lib, .integ, .grt, .que, .arb, .xlt, .cry, .cfg, .gvl, .net, .twn, .pin] ++ events

theorem domainsEntered_within {mask : BitVec 16} {s : State} : Within entering s (domainsEntered mask s) := by
  unfold domainsEntered
  exact (Within.ite .refl watchShafts_within.mono).trans (.ite cfgEnter_within.mono .refl) |>.trans
    (.ite memReset_within.mono .refl) |>.trans (.ite fioEnter_within.mono .refl) |>.trans
    (.ite hostEnter_within.mono .refl) |>.trans (.forEach (fun _ _ => laneEnter_within.mono))

/-- What a start of resets leaves on the books, and that Lysata is not touched. -/
theorem startResets_books (mask : BitVec 16) (s : State) :
    (startResets mask s).rst.requested = s.rst.requested ∧
      (startResets mask s).rst.inReset = s.rst.inReset ||| (mask &&& ~~~s.rst.inReset) ∧
      (startResets mask s).lys = s.lys := by
  set m := mask &&& ~~~s.rst.inReset with hm
  obtain ⟨closed, hclosed⟩ := closeFences_rst m s
  set u := (if m &&& 3 = 0 then closeFences m s
    else tiersEnter ((List.range 2).filter (bit m ·)) (closeFences m s)) with hu
  have hurst : u.rst = { s.rst with closedFor := closed } := by
    rw [hu, ← hclosed]
    exact (Within.ite .refl tiersEnter_within.mono : Within entering _ _).frame .rst (by decide)
  have hulys : u.lys = s.lys :=
    ((closeFences_within.mono.trans (.ite .refl tiersEnter_within.mono) :
      Within (.rst :: .seed :: entering) s u)).frame .lys (by decide)
  have hstart : startResets mask s =
      domainsEntered m (u.modRst fun r => { r with inReset := r.inReset ||| m, released := r.released &&& ~~~m }) := rfl
  have hin : Within entering _ (startResets mask s) := hstart ▸ domainsEntered_within
  have hrst := hin.frame .rst (by decide)
  refine ⟨?_, ?_, (hin.frame .lys (by decide)).trans hulys⟩
  · rw [hrst, State.modRst_rst, hurst]
  · rw [hrst, State.modRst_rst, hurst]

/-! The FIO domain alone. -/

/-- A table rewritten key by key reads with the property that every value written has, and the values that were not
rewritten. -/
theorem tabGet_foldl_tabSet {α β : Type} [DecidableEq α] {P : α → Prop} (d : α) (f : Nat × β → α) (hf : ∀ p, P (f p))
    (l : List (Nat × β)) (t : List (Nat × α)) (ht : ∀ k, (∀ p ∈ l, p.1 ≠ k) → P (tabGet d t k)) (k : Nat) :
    P (tabGet d (l.foldl (fun t p => tabSet d t p.1 (f p)) t) k) := by
  induction l generalizing t with
  | nil => exact ht k (by simp)
  | cons p l ih =>
    refine ih _ fun k hk => ?_
    rw [tabGet_tabSet]
    split
    · exact hf p
    · next hne => exact ht k fun q hq => (List.mem_cons.1 hq).elim (fun e => e ▸ fun h => hne h.symm) (hk q)

/-- Rewriting every entry of a table. -/
theorem tabGet_rewritten {α : Type} [DecidableEq α] {P : α → Prop} (d : α) (f : Nat × α → α) (hf : ∀ p, P (f p)) (hd : P d)
    (t : List (Nat × α)) (k : Nat) : P (tabGet d (t.foldl (fun u p => tabSet d u p.1 (f p)) t) k) :=
  tabGet_foldl_tabSet d f hf t t (fun k hk => by rwa [tabGet_of_notMem d t k hk]) k

theorem closedFor_unchanged (t : List (Nat × Nat)) (l : List Nat) (k : Nat) :
    tabGet 0 (l.foldl (fun t b => tabMod 0 t b (fun m => m ||| 0)) t) k = tabGet 0 t k := by
  induction l generalizing t with
  | nil => rfl
  | cons b l ih =>
    rw [List.foldl_cons, ih]
    by_cases hb : k = b
    · subst hb
      simp
    · exact tabGet_tabMod_other 0 t b k _ hb

theorem or_and_not_right {w : Nat} (x y : BitVec w) : x ||| (y &&& ~~~x) = x ||| y := by
  ext i hi
  simp only [BitVec.getElem_or, BitVec.getElem_and, BitVec.getElem_not]
  cases x[i] <;> simp

theorem exec_domainResetStart_solo {s : State} (hrole : s.twn.role = 0) (hreq : s.rst.requested ≠ 0)
    (hcores : s.lys.restarting = false) :
    exec .domainResetStart s = .next (startResets s.rst.requested (s.modRst fun r => { r with requested := 0 })) := by
  have hgo : ¬ (s.rst.requested = 0 ∨ s.lys.restarting = true) := not_or.2 ⟨hreq, by simp [hcores]⟩
  have hlead : ¬ (s.modRst fun r => { r with requested := 0 }).twn.role = 1 := by simp [hrole]
  have hshadow : ¬ (s.modRst fun r => { r with requested := 0 }).twn.role = 2 := by simp [hrole]
  exact (if_neg hgo).trans ((if_neg hlead).trans (if_neg hshadow))

theorem abortTransfers_fio (s : State) : abortTransfers 0x10 s = s := rfl

theorem closeFences_fio (s : State) : ∃ closed, (∀ b, tabGet 0 closed b = tabGet 0 s.rst.closedFor b) ∧
    closeFences 0x10 s = s.modRst fun r => { r with closedFor := closed } :=
  ⟨_, fun b => closedFor_unchanged s.rst.closedFor (List.range 4) b, by rfl⟩

theorem startResets_fio {s : State} (hin : s.rst.inReset = 0) :
    ∃ closed, (∀ b, tabGet 0 closed b = tabGet 0 s.rst.closedFor b) ∧
      startResets 0x10 s = fioEnter ((s.modRst fun r => { r with closedFor := closed }).modRst fun r =>
        { r with inReset := r.inReset ||| 0x10, released := r.released &&& 0xFFEF }) := by
  obtain ⟨closed, hclosed, hfences⟩ := closeFences_fio s
  refine ⟨closed, hclosed, ?_⟩
  have hmask : (0x10 : BitVec 16) &&& ~~~s.rst.inReset = 0x10 := by rw [hin]; decide
  unfold startResets
  simp only [hmask]
  rw [hfences]
  rfl

theorem releaseDomains_fio (s : State) :
    releaseDomains 0x10 s =
      s.modRst fun r => { r with inReset := r.inReset &&& 0xFFEF, released := r.released ||| 0x10 } := rfl

theorem closersOf_pos {s : State} {b : Nat} {m : Nat} (hm : tabGet 0 s.rst.closedFor b = m) (hpos : 0 < m)
    (hlt : m < 65536) : closersOf s b ≠ 0 ∧ (closersOf s b).toNat = m := by
  have hnat : (closersOf s b).toNat = m := by rw [closersOf, hm]; exact Nat.mod_eq_of_lt hlt
  refine ⟨fun h => ?_, hnat⟩
  rw [h] at hnat
  exact absurd hnat (by simpa using Nat.ne_of_lt hpos)

/-- Settles O16: a start is `startResets`, whose effect on the books is `startResets_books`; for FIO alone it is the books
and `fioEnter`. -/
theorem domainResetsAndFences : Obligations.DomainResetsAndFences := by
  unfold Obligations.DomainResetsAndFences
  refine ⟨⟨fun s who mask hp => ?_, fun s who mask hp hmask => ?_, fun s hrole hreq hcores => ?_,
    fun s hrole hreq hcores => ?_, fun s hrole hreq hin hcores => ?_, fun s micros hin => ?_⟩,
    fun s b m hm hpos hlt => ⟨fun hopen => ?_, fun hshut => ?_, fun c k => ?_, fun n htwin hact => ?_⟩⟩
  · exact ⟨_, exec_domainResetRequest who mask s, requestResets_shallow hp mask⟩
  · exact ⟨_, (exec_domainResetRequest who mask s).trans (congrArg _ (requestResets_deep hp hmask)), raised_raise _ _ s,
      raise_within.frame⟩
  · exact if_pos (.inr hcores)
  · have hexec := exec_domainResetStart_solo hrole hreq hcores
    obtain ⟨hreq', hin', hlys⟩ := startResets_books s.rst.requested (s.modRst fun r => { r with requested := 0 })
    exact ⟨_, hexec, hreq', hin'.trans (or_and_not_right _ _), hlys⟩
  · have hexec := exec_domainResetStart_solo hrole (by rw [hreq]; decide) hcores
    rw [hreq] at hexec
    obtain ⟨closed, hclosed, hstart⟩ := startResets_fio (s := s.modRst fun r => { r with requested := 0 }) hin
    rw [hstart] at hexec
    exact ⟨_, hexec, rfl, (congrArg (· ||| 0x10) hin).trans (by decide), rfl, hclosed, rfl, rfl,
      tabGet_rewritten (P := fun x : Dphy => x.buffer = []) {} (fun p => { p.2 with buffer := [] }) (fun _ => rfl) rfl
        s.pin.ports,
      (State.modRst_within.mono.step State.modRst_within |>.step State.modRst_within |>.step fioEnter_within).frame⟩
  · have hexec : exec (.domainResetRelease micros) s = .next (raise 0x0D11 [0x10, micros.toNat] (releaseDomains 0x10 s)) := by
      have hm : s.rst.inReset &&& ~~~0x20 = 0x10 := by rw [hin]; decide
      refine (if_neg ?_).trans ?_ <;> rw [hm]
      · decide
      · rfl
    refine ⟨_, hexec, ?_, (raised_raise _ _ _).before releaseDomains_within, ?_⟩
    · rw [raise_rst, releaseDomains_fio, State.modRst_rst, hin]
      rfl
    · rw [releaseDomains_fio]
      exact (State.modRst_within.mono.step raise_within).frame
  · obtain ⟨hne, hnat⟩ := closersOf_pos hm hpos hlt
    have hexec : exec (.fenceReopen b) s = .next (raise 0x0203 [b, m]
        (s.modRst fun r => { r with closedFor := tabSet 0 r.closedFor b 0 })) := by
      refine congrArg Host.Outcome.next ((if_neg ?_).trans ?_)
      · exact not_or.2 ⟨hne, not_not.2 (by rw [closersOf, hm]; exact hopen)⟩
      · rw [hnat]
    refine ⟨_, hexec, ?_, fun x hx => ?_, (raised_raise _ _ _).before State.modRst_within,
      (State.modRst_within.mono.step raise_within).frame⟩
    · rw [raise_rst, State.modRst_rst, tabGet_tabSet_same]
    · rw [raise_rst, State.modRst_rst, tabGet_tabSet_other _ _ _ _ _ hx]
  · exact congrArg Host.Outcome.next (if_pos (.inr (by rw [closersOf, hm]; exact hshut)))
  · obtain ⟨hne, -⟩ := closersOf_pos hm hpos hlt
    exact ⟨_, if_neg hne, rfl, State.send_within.frame⟩
  · obtain ⟨hne, hnat⟩ := closersOf_pos hm hpos hlt
    obtain ⟨hlys, hraised, hfault, hw⟩ := deviceFault_raise_spec htwin hact 0x0204 [b, m, n.toNat]
    have hexec : exec (.fenceBoundMissed b n) s = .next (deviceFault 0x0204 (raise 0x0204 [b, m, n.toNat] s)) := by
      refine (if_neg hne).trans ?_
      rw [hnat]
      rfl
    exact ⟨_, hexec, hlys, hraised, hfault, hw.frame⟩

end Sys2Proof

/-! The reset of the HOST domain and the host link (R346 to R351, R632). -/

namespace Sys2Proof

open Sys2Proof.Machine

theorem raise_pci_of_not_lysata {code : Nat} (fields : List Nat) (s : State) (h : code / 256 ≠ 0x0D) :
    (raise code fields s).pci = s.pci := by
  simp [raise, sendLysVector, State.when, h]

/-! Filtered tables. -/

/-- A table without the entries at some keys reads as its default there and as before elsewhere. -/
theorem tabGet_filter_key {α : Type} (d : α) (p : Nat → Bool) (t : List (Nat × α)) (k : Nat) :
    tabGet d (t.filter fun e => p e.1) k = if p k then tabGet d t k else d := by
  induction t with
  | nil => simp [tabGet]
  | cons e t ih =>
    rw [List.filter_cons]
    by_cases he : p e.1 = true
    · rw [if_pos he, tabGet, tabGet, ih]
      by_cases hk : k = e.1
      · rw [if_pos hk, if_pos hk, hk, if_pos he]
      · rw [if_neg hk, if_neg hk]
    · rw [if_neg he, ih, tabGet]
      by_cases hk : k = e.1
      · rw [hk, if_neg he, if_neg he]
      · rw [if_neg hk]

theorem tabGet_hostRegs (l : List (Nat × Word)) (o : Nat) :
    tabGet (regReset o) (hostRegs l) o =
      if (0x8_0000 ≤ o ∧ o < 0x9_1000) ∨ o = 0xA_0004 then regReset o else tabGet (regReset o) l o := by
  rw [hostRegs, tabGet_filter_key (regReset o) fun o => !((decide (0x8_0000 ≤ o) && decide (o < 0x9_1000)) || o == 0xA_0004)]
  by_cases hin : (0x8_0000 ≤ o ∧ o < 0x9_1000) ∨ o = 0xA_0004
  · rw [if_pos hin, if_neg (by simp; omega)]
  · rw [if_neg hin, if_pos (by simp; omega)]

/-! MSI-X messages that were held back. -/

/-- A change of the pending bits alone, beside what is sent. -/
theorem sendMsix_pci (v : Nat) (s : State) : ∃ l, (sendMsix v s).pci = { s.pci with pba := l } := by
  unfold sendMsix
  split
  · exact ⟨s.pci.pba, rfl⟩
  · split
    · exact ⟨_, rfl⟩
    · exact ⟨s.pci.pba, rfl⟩

theorem releasePending_pci (s : State) : ∃ l, (releasePending s).pci = { s.pci with pba := l } := by
  refine forEach_keeps (fun t => ∃ l, t.pci = { s.pci with pba := l }) _ _ (fun v t => ?_) s ⟨s.pci.pba, rfl⟩
  rintro ⟨l, hl⟩
  obtain ⟨l', hl'⟩ := sendMsix_pci v (t.modPci fun p => { p with pba := setDel v p.pba })
  exact ⟨l', by rw [hl', State.modPci_pci, hl]⟩

theorem releasePending_none {s : State} (h : s.pci.pba = []) : releasePending s = s := by
  rw [releasePending, h]
  rfl

/-! The HOST domain enters reset. -/

theorem closeFences_host {s : State} (hshut : tabGet 0 s.rst.closedFor 3 = 0) :
    ∃ closed, closeFences 0x20 s =
      (raise 0x0202 [3, 0x20, 0] (applyShifts 3 s)).modRst fun r => { r with closedFor := closed } := by
  have hnewly : ((List.range 4).filter fun b => sideMask 0x20 b != 0 && tabGet 0 s.rst.closedFor b == 0) = [3] := by
    show List.filter _ [0, 1, 2, 3] = [3]
    simp [sideMask, sidesOf, hshut]
  have hcount : abortCount s 0x20 3 = 0 := rfl
  have habort : abortTransfers 0x20 s = s := rfl
  unfold closeFences
  simp only [hnewly, List.map_cons, List.map_nil, hcount, habort]
  exact ⟨_, rfl⟩

/-- What entering the HOST reset leaves, by parts. -/
theorem hostEnter_spec (s : State) :
    (hostEnter s).cfg = { s.cfg with hostUp := false, keyLoad := true } ∧
      (∀ o, (hostEnter s).reg o = if (0x8_0000 ≤ o ∧ o < 0x9_1000) ∨ o = 0xA_0004 then regReset o else s.reg o) ∧
      (hostEnter s).que = s.que.foldl (fun t p => tabSet ({} : Queue) t p.1 p.2.kept) [] ∧ (hostEnter s).arb = [] ∧
      (hostEnter s).xlt = { peTick := s.xlt.peTick } ∧ (hostEnter s).pci = { subsystem := s.pci.subsystem } ∧
      (hostEnter s).twn.held = [] ∧ (hostEnter s).cry.loaded = false ∧
      (hostEnter s).cry.sessions = s.cry.sessions.foldl (fun t p => tabSet ({} : Session) t p.1
        { enabled := p.2.enabled, index := p.2.index, heard := p.2.heard }) s.cry.sessions ∧
      (hostEnter s).cry.keys = s.cry.keys.foldl (fun t p => tabSet ({} : KeyEntry) t p.1
        { p.2 with st := 0, kcv := 0, key := [], dbl := false }) s.cry.keys := by
  unfold hostEnter
  dsimp only
  split <;> exact ⟨rfl, fun o => tabGet_hostRegs s.regs o, rfl, rfl, rfl, rfl, rfl, rfl, rfl, rfl⟩


/-- The books and the registers from which the HOST domain's parts enter reset. -/
theorem startResets_host {s : State} (hin : s.inReset 5 = false) (hshut : tabGet 0 s.rst.closedFor 3 = 0) :
    ∃ u, startResets 0x20 s = hostEnter u ∧ bit u.rst.inReset 5 = true ∧ Raised s u 0x0202 [3, 0x20, 0] ∧
      Within [.rst, .fab, .ev, .pci, .out] s u ∧ u.pci = s.pci := by
  obtain ⟨closed, hclosed⟩ := closeFences_host hshut
  have hmask : (0x20 : BitVec 16) &&& ~~~s.rst.inReset = 0x20 := by
    refine BitVec.eq_of_getLsbD_eq fun i hi => ?_
    have h5 : s.rst.inReset.getLsbD 5 = false := hin
    rw [BitVec.getLsbD_and, BitVec.getLsbD_not]
    interval_cases i <;> simp [BitVec.getLsbD_eq_getElem] at h5 ⊢
    exact h5
  refine ⟨(closeFences 0x20 s).modRst fun r => { r with inReset := r.inReset ||| 0x20, released := r.released &&& ~~~0x20 },
    ?_, ?_, ?_, ?_, ?_⟩
  · unfold startResets
    simp only [hmask]
    rfl
  · rw [State.modRst_rst, bit_or]
    exact Bool.or_true _
  · rw [hclosed]
    exact ((raised_raise 0x0202 [3, 0x20, 0] _).before applyShifts_within).within (l := [.rst])
      (State.modRst_within.trans State.modRst_within)
  · rw [hclosed]
    exact applyShifts_within.mono.step raise_within |>.step State.modRst_within |>.step State.modRst_within
  · rw [State.modRst_pci, hclosed, State.modRst_pci, raise_pci_of_not_lysata _ _ (by decide)]
    rfl

/-- What a configuration write of the host leaves in the link's books, but the pending bits. -/
theorem takeProg_spec (p : PcieProg) (s : State) :
    ∃ l, (takeProg p s).pci = { s.pci with
      bar0 := p.bar0, bar2 := p.bar2, bar4 := p.bar4,
      maxPayload := if [128, 256, 512].contains p.maxPayload then p.maxPayload else s.pci.maxPayload,
      maxRead := if [128, 256, 512, 1024, 2048, 4096].contains p.maxRead then p.maxRead else s.pci.maxRead,
      relaxed := p.relaxed, msixOn := p.msixOn, msixMask := p.msixMask, ecrcGen := p.ecrcGen, ecrcCheck := p.ecrcCheck,
      ctoRange := p.ctoRange, ctoOff := p.ctoOff, aspmL1 := p.aspmL1, ltr := p.ltr, pba := l } :=
  releasePending_pci _

theorem mergeBytes_all (old new : Word) : mergeBytes old new 0xF = new := by
  have hm : BitVec.ofNat 32 (ofLeBytes ((List.range 4).map fun i => if bit (0xF : BitVec 4) i then (255 : Byte) else 0)) =
      BitVec.allOnes 32 := by decide
  unfold mergeBytes
  rw [hm]
  dsimp only
  rw [BitVec.and_allOnes, BitVec.not_allOnes]
  simp

/-- A write of the data word of an MSI-X table entry in BAR4. -/
theorem exec_msixData (v : Fin 512) (val : Word) (s : State) :
    exec (.registerWrite .host (0x20_0008 + 16 * v) 0xF val) s =
      .next (releasePending (s.modPci fun p => { p with table := tabMod {} p.table v fun e => e.put 2 val })) := by
  have hv := v.isLt
  have hoff : 0x20_0008 + 16 * v.val - bar4At - (0x20_0008 + 16 * v.val - bar4At) % 4 = 8 + 16 * v.val := by
    unfold bar4At
    omega
  have hin : ¬ (Requester.host ≠ .host ∨ 0x2000 ≤ 0x20_0008 + 16 * v.val - bar4At) := by
    unfold bar4At
    simp
    omega
  refine congrArg Host.Outcome.next ((if_pos (by unfold bar4At; omega)).trans ((if_neg hin).trans ?_))
  simp only [hoff, mergeBytes_all]
  rw [show (8 + 16 * v.val) / 16 = v.val by omega, show (8 + 16 * v.val) / 4 % 4 = 2 by omega]

theorem exec_msixData_read (v : Fin 512) (s : State) :
    exec (.rcRead .host (0x20_0008 + 16 * v)) s = .next (s.send (.bar4 (s.msixEntry v).data)) := by
  have hv := v.isLt
  have hoff : 0x20_0008 + 16 * v.val - bar4At - (0x20_0008 + 16 * v.val - bar4At) % 4 = 8 + 16 * v.val := by
    unfold bar4At
    omega
  have hword : bar4Word s (8 + 16 * v.val) = (s.msixEntry v).data := by
    unfold bar4Word
    rw [if_pos (by omega), show (8 + 16 * v.val) / 16 = v.val by omega, show (8 + 16 * v.val) / 4 % 4 = 2 by omega]
    rfl
  refine congrArg Host.Outcome.next ((if_pos (by unfold bar4At; omega)).trans ?_)
  change s.send (.bar4 (bar4Word s (0x20_0008 + 16 * v.val - bar4At - (0x20_0008 + 16 * v.val - bar4At) % 4))) = _
  rw [hoff, hword]

/-- Settles O17: a host reset is `startResets_host` followed by `hostEnter_spec`, and the host link's rows change its
books and Lysata's. -/
theorem hostResetAndLinkEvents : Obligations.HostResetAndLinkEvents := by
  unfold Obligations.HostResetAndLinkEvents
  refine ⟨⟨fun s src hin hshut => ?_, fun s hkey hup hstage h13 hp hlanes => ?_, fun s hkey => ?_, fun s r => ?_⟩,
    fun s speed width ltssm power d3 prog => ?_, fun s type => ?_, fun s v val hpba => ⟨?_, ?_⟩⟩
  · obtain ⟨s0, hs0⟩ : ∃ s0, (if src = .fundamental then s.modCfg fun c => { c with perst := false } else s) = s0 := ⟨_, rfl⟩
    have hstart : Within [.cfg] s s0 := hs0 ▸ .ite State.modCfg_within .refl
    have hin0 : s0.inReset 5 = false := by rw [State.inReset, hstart.frame .rst (by decide)]; exact hin
    have hshut0 : tabGet 0 s0.rst.closedFor 3 = 0 := by rw [hstart.frame .rst (by decide)]; exact hshut
    obtain ⟨u, hu, hreset, hraised, hw, hpci⟩ := startResets_host hin0 hshut0
    have hexec : exec (.hostReset src) s = .next (hostEnter u) :=
      congrArg Host.Outcome.next ((congrArg startHostReset hs0).trans ((if_neg (by simp [hin0])).trans hu))
    obtain ⟨hcfg, hreg, hque, harb, hxlt, hpci', hheld, hloaded, hsess, hkeys⟩ := hostEnter_spec u
    have hall : Within [.rst, .fab, .ev, .pci, .out, .cfg] s u := hstart.mono.step hw
    have hperst : u.cfg.perst = s0.cfg.perst := congrArg Cfg.perst (hw.frame .cfg (by decide))
    refine ⟨_, hexec, ?_, by rw [hcfg], by rw [hcfg], ?_, fun q => ?_, harb, ?_, hheld, fun b rx => ?_, ?_, hloaded, fun k => ?_,
      fun o ho ho' => ?_, ?_, fun o ho ho' => ?_, ?_⟩
    · rw [State.inReset, hostEnter_within.frame .rst (by decide)]
      exact hreset
    · rw [hcfg, hperst, ← hs0]
      by_cases hf : src = .fundamental <;> simp [hf]
    · rw [State.qu, hque]
      exact tabGet_foldl_tabSet (P := fun x : Queue => x.st = 0 ∧ x.context = [] ∧ x.setup = {} ∧ x.sqCi = 0 ∧ x.cqPi = 0)
        {} _ (fun _ => ⟨rfl, rfl, rfl, rfl, rfl⟩) u.que [] (fun _ _ => ⟨rfl, rfl, rfl, rfl, rfl⟩) q
    · rw [hxlt, hall.frame .xlt (by decide)]
    · rw [State.sess, hsess]
      exact tabGet_rewritten (P := fun x : Session => x.running = false ∧ x.counter = 0 ∧ x.own = none ∧ x.peer = none)
        {} _ (fun _ => ⟨rfl, rfl, rfl, rfl⟩) ⟨rfl, rfl, rfl, rfl⟩ _ _
    · rw [hpci', hpci, hstart.frame .pci (by decide)]
    · rw [State.key, hkeys]
      exact tabGet_rewritten (P := fun x : KeyEntry => x.st = 0) {} _ (fun _ => rfl) rfl _ _
    · rw [hreg, if_pos (.inl ⟨ho, ho'⟩)]
    · rw [hreg, if_pos (.inr rfl)]
    · rw [hreg, if_neg (by omega)]
      exact hall.frame .regs (by decide) o
    · exact (hraised.before hstart).within hostEnter_within
  · have hopen : ¬ ((s.cfg.keyLoad || !true || s.pstate == 5 || s.cfg.hostUp || s.cfg.stage < 4 || s.cfg.stage == 13) = true) := by
      simp [hkey, hup, hp, h13, hstage]
    have hlane : ∀ u : State, u.gvl = s.gvl → forEach (List.range 8)
        (fun b s => if s.bunUp b then startSession b true (startSession b false s) else s) u = u := fun u hu =>
      forEach_eq_self fun b hb => if_neg (by
        have := hlanes b (List.mem_range.1 hb)
        simpa [State.bunUp, State.bun, hu] using this)
    refine ⟨_, congrArg Host.Outcome.next ((if_neg hopen).trans (hlane _ rfl)), rfl, ?_, ?_⟩
    · show (s.rst.inReset &&& ~~~0x20).getLsbD 5 = false
      rw [BitVec.getLsbD_and]
      exact Bool.and_false _
    · exact (State.modCfg_within.mono.step State.modCfg_within |>.step State.modRst_within).frame
  · exact ⟨_, congrArg Host.Outcome.next (if_pos (by simp [hkey])), rfl, State.modCfg_within.frame⟩
  · exact ⟨_, rfl, rfl, (State.modLys_within).frame⟩
  · obtain ⟨l, hpci⟩ := takeProg_spec prog s
    have hlys : (takeProg prog s).lys = s.lys := takeProg_within.frame .lys (by decide)
    obtain ⟨t, ht⟩ : ∃ t, raise 0x080A [speed.toNat, width.toNat, ltssm.toNat] ((takeProg prog s).modLys fun l =>
        { l with link := power, d3hot := d3, linkInfo := speed.toNat + 256 * width.toNat + 65536 * ltssm.toNat }) = t := ⟨_, rfl⟩
    have htlys : t.lys.link = power ∧ t.lys.d3hot = d3 := by
      rw [← ht, raise_lys]
      exact ⟨rfl, rfl⟩
    have htpci : t.pci = (takeProg prog s).pci := by
      rw [← ht, raise_pci_of_not_lysata _ _ (by decide)]
      rfl
    have hw : Within (.lys :: events) s t :=
      ht ▸ (takeProg_within.mono.step State.modLys_within |>.step raise_within)
    have hraised : Raised s t 0x080A [speed.toNat, width.toNat, ltssm.toNat] :=
      ht ▸ (raised_raise _ _ _).before (takeProg_within.mono.step (l := .lys :: events) State.modLys_within)
    refine ⟨t, congrArg Host.Outcome.next ht, htlys.1, htlys.2, hraised, ?_, ?_, ?_, ?_, fun hmax => ?_, hw.frame⟩ <;>
      rw [htpci, hpci]
    exact if_pos (by simpa using hmax)
  · refine ⟨_, rfl, (raised_raise _ _ _).before State.modPci_within, ?_, (State.modPci_within.mono.step raise_within).frame⟩
    rw [raise_pci_of_not_lysata _ _ (by decide)]
    rfl
  · have hwritten := exec_msixData v val s
    rw [releasePending_none (by exact hpba)] at hwritten
    refine ⟨_, hwritten, ?_, fun k hk => ?_, State.modPci_within.frame⟩
    · rw [State.msixEntry, State.modPci_pci, tabGet_tabMod_same]
      rfl
    · rw [State.msixEntry, State.modPci_pci, tabGet_tabMod_other _ _ _ _ _ hk]
      rfl
  · exact ⟨_, exec_msixData_read v s, rfl, State.send_within.frame⟩

end Sys2Proof

/-! A power-on whose fuse shadow counts more fuses than there are (R456, R761). -/

namespace Sys2Proof

open Sys2Proof.Machine

/-- The reset state with an SVN of the fuses above the 128 that there are. -/
def svnOverrun : State := State.reset.modCfg fun c => { c with fuses := { c.fuses with svn := 200 } }

/-- A flash that does not answer. -/
def noFlash : Flash := { answers := false, dir := [], copy := [], contents := [], echo := none }

/-- A board with two such flashes and no blown fuse. -/
def bareBoard : Board :=
  { mode := 0, listen := false, pull := 0, flashA := noFlash, flashB := noFlash, railsLate := [], vdet := [], refclk := true,
    vppGood := true, fuses := {} }

theorem svnOverrun_svn : observed (fun t => t.cfg.svn) (.powerOn bareBoard) svnOverrun = some 128 := by decide +kernel

/-- Refutes O18: a power-on takes at most 128 fuses for the SVN, also from a fuse shadow that holds more. -/
theorem not_startUpAndFabricRelease : ¬ Obligations.StartUpAndFabricRelease := by
  unfold Obligations.StartUpAndFabricRelease
  rintro ⟨⟨hpower, -⟩, -⟩
  obtain ⟨t, ht, -, -, -, hsvn, -⟩ := hpower svnOverrun bareBoard (by decide) (by decide) rfl rfl
  have hafter : some t.cfg.svn = some 128 := (observed_of_next _ ht).symm.trans svnOverrun_svn
  rw [hsvn] at hafter
  exact absurd hafter (by decide)

end Sys2Proof

/-! Listeners and workers, the key table load and the Grotto fill (R280, R404, R465 to R478). -/

namespace Sys2Proof

open Sys2Proof.Machine

/-! In step 4 the loader waits for the fill. -/

theorem loadRounds_stepFour {s : State} (h : s.cfg.stage = 4) (n : Nat) : loadRounds n s = s := by
  have hselect : stepSelect s = s := if_pos (.inl (by omega))
  have hfirmware : stepFirmware s = s := by
    unfold stepFirmware
    split
    · rfl
    · exact if_pos (.inl (by omega))
  have hthree : stepThree s = s := if_pos (.inl (by omega))
  have hfive : stepFive s = s := by
    unfold stepFive
    split
    · rfl
    · exact if_pos (.inl (by omega))
  have hsix : stepSix s = s := by
    unfold stepSix
    split
    · rfl
    · exact if_pos (.inl (by omega))
  have hsettle : settleLoad s = s := if_neg fun hs => by omega
  induction n with
  | zero => rfl
  | succ n ih => rw [loadRounds, hselect, hfirmware, hthree, hfive, hsix, hsettle, ih]

theorem hear_stepFour {s : State} (h : s.cfg.stage = 4) (b : Bool) (a : Nat) (bytes : List Byte) :
    hear b a bytes s =
      s.modCfg fun c => { c with heard := c.heard ++ [(flashAddr b a, bytes)], idleTold := false } :=
  (if_pos (show s.cfg.stage < 7 by omega)).trans (loadRounds_stepFour (s := s.modCfg fun c =>
    { c with heard := c.heard ++ [(flashAddr b a, bytes)], idleTold := false }) h _)

/-- No message is held where no link is. -/
theorem msgHeld_none {s : State} (h : ∀ c, s.linkHolds c = false) (vc : Nat) (p : List Byte → Bool) :
    s.msgHeld vc p = false := by
  unfold State.msgHeld
  split
  · exact h _
  · rfl

/-! The key table. -/

theorem tryHostRelease_none {s : State} (h : s.cfg.perst = false) : tryHostRelease s = s := if_pos (by simp [h])

/-- A table written key by key from a range reads as written there, and as its default beyond. -/
theorem tabGet_foldl_range {α : Type} [DecidableEq α] (d : α) (f : Nat → α) (n k : Nat) :
    tabGet d ((List.range n).foldl (fun t k => tabSet d t k (f k)) []) k = if k < n then f k else d := by
  induction n with
  | zero => rfl
  | succ n ih =>
    rw [List.range_succ, List.foldl_append, List.foldl_cons, List.foldl_nil, tabGet_tabSet, ih]
    by_cases hk : k = n
    · rw [if_pos hk, if_pos (by omega), hk]
    · rw [if_neg hk]
      exact if_congr (by omega) rfl rfl

/-- What a table load leaves of the keys: the rights that were set before, else the record's. -/
theorem loadKeys_spec (s : State) :
    (loadKeys s).cry.loaded = true ∧ (loadKeys s).cry.record = s.cry.record ∧ (loadKeys s).cfg = { s.cfg with keyLoad := false } ∧
      (s.cry.rightsSet = true → ∀ k < 64, ((loadKeys s).key k).rights = (s.key k).rights) := by
  have hw := takeEntries_within (l := s.cry.record) (t := []) (seen := []) (ok := 0) (bad := 0) (s := s)
  unfold loadKeys
  obtain ⟨⟨t, seen, ok, bad, u⟩, hu⟩ : ∃ r, takeEntries s.cry.record [] [] 0 0 s = r := ⟨_, rfl⟩
  rw [hu] at hw ⊢
  have hcry : u.cry = s.cry := hw.frame .cry (by decide)
  have hcfg : u.cfg = s.cfg := hw.frame .cfg (by decide)
  simp only [raise_cry, raise_cfg, State.modCfg_cry, State.modCry_cry, State.modCfg_cfg, State.modCry_cfg, State.key, hcry, hcfg]
  refine ⟨trivial, trivial, trivial, fun hset k hk => ?_⟩
  rw [tabGet_foldl_range, if_pos hk]
  simp [hset]

theorem loadKeys_empty {s : State} (h : s.cry.record = []) :
    (∀ k, ((loadKeys s).key k).st = 0 ∧ ((loadKeys s).key k).kcv = 0) ∧ Raised s (loadKeys s) 0x0A02 [0, 0] := by
  unfold loadKeys
  rw [h, takeEntries]
  refine ⟨fun k => ?_, (raised_raise _ _ _).before (State.modCry_within.mono.step (l := [.cry, .cfg]) State.modCfg_within)⟩
  simp only [State.key, raise_cry, State.modCfg_cry, State.modCry_cry]
  rw [tabGet_foldl_range]
  split
  · split <;> exact ⟨rfl, rfl⟩
  · exact ⟨rfl, rfl⟩

/-! The end of a Grotto fill. -/

/-- What one turn of a loop brings about, and no turn undoes, holds at its end. -/
theorem forEach_establishes {α : Type} {P Q : State → Prop} {f : α → State → State} {l : List α} {a : α} (ha : a ∈ l)
    (hP : ∀ b s, P s → P (f b s)) (hQ : ∀ b s, P s → Q s → Q (f b s)) (hset : ∀ s, P s → Q (f a s)) {s : State} (h : P s) :
    Q (forEach l f s) := by
  induction l generalizing s with
  | nil => exact absurd ha (by simp)
  | cons b l ih =>
    rw [forEach_cons]
    rcases List.mem_cons.1 ha with rfl | ha
    · exact (forEach_keeps (fun s => P s ∧ Q s) l f (fun b s h => ⟨hP b s h.1, hQ b s h.1 h.2⟩) _ ⟨hP a s h, hset s h⟩).2
    · exact ih ha (hP b s h)

/-- The mode that a bank takes. -/
def modeTaken (s : State) (i : Nat) (x : Bank) : Prop :=
  x.goingOff = false ∧ x.state = if bankMode s i = 3 then 2 else restState s i

theorem endDeviceLap_modeTaken {s : State} (u : State) {i : Nat} (h : modeTaken u i (s.bank i)) :
    modeTaken u i ((endDeviceLap s).bank i) := by
  unfold endDeviceLap
  dsimp only
  split
  · refine forEach_keeps (fun t => modeTaken u i (t.bank i)) _ _ (fun j t ht => ?_) _ h
    rw [State.modBank_bank]
    split
    · next hij => exact hij ▸ ht
    · exact ht
  · exact h

/-- One bank takes its mode. -/
def bankModed (i : Nat) (s : State) : State :=
  s.modBank i fun x => { x with goingOff := false, state := if bankMode s i = 3 then 2 else restState s i }

theorem bankModed_same {s t : State} (h : t.regs = s.regs) (i : Nat) : modeTaken s i ((bankModed i t).bank i) := by
  rw [bankModed, State.modBank_bank, if_pos rfl]
  refine ⟨rfl, ?_⟩
  simp only [bankMode, restState, State.regF, State.reg, h]
  rfl

theorem bankModed_keeps {s t : State} (h : t.regs = s.regs) (i j : Nat) (hi : modeTaken s i (t.bank i)) :
    modeTaken s i ((bankModed j t).bank i) := by
  by_cases hij : i = j
  · exact hij ▸ bankModed_same h i
  · rwa [bankModed, State.modBank_bank, if_neg hij]

/-- The banks of a group take their modes. -/
def groupModed (n : Nat) (s : State) : State := forEach (List.range 8) (fun b s => bankModed (8 * n + b) s) s

theorem takeModes_eq (s : State) :
    takeModes s = endDeviceLap (forEach ((List.range 256).filter fun n => s.regF (grpModeReg n) 0 16 != 0) groupModed s) := rfl

/-- The end of a fill takes the modes of every group with a mode set. -/
theorem takeModes_modeTaken {s : State} {n b : Nat} (hn : n < 256) (hb : b < 8) (hmode : s.regF (grpModeReg n) 0 16 ≠ 0) :
    modeTaken s (8 * n + b) ((takeModes s).bank (8 * n + b)) := by
  have hmem : n ∈ (List.range 256).filter fun n => s.regF (grpModeReg n) 0 16 != 0 := by simp [hn, hmode]
  have hregs : ∀ m (t : State), t.regs = s.regs → (groupModed m t).regs = s.regs := fun m t ht =>
    forEach_keeps (fun t => t.regs = s.regs) _ (fun b s => bankModed (8 * m + b) s) (fun _ _ h => h) _ ht
  have hkeep : ∀ m (t : State), t.regs = s.regs → modeTaken s (8 * n + b) (t.bank (8 * n + b)) →
      modeTaken s (8 * n + b) ((groupModed m t).bank (8 * n + b)) := fun m t ht hq =>
    (forEach_keeps (fun t => t.regs = s.regs ∧ modeTaken s (8 * n + b) (t.bank (8 * n + b))) _
      (fun b s => bankModed (8 * m + b) s) (fun c u h => ⟨h.1, bankModed_keeps h.1 _ _ h.2⟩) t ⟨ht, hq⟩).2
  have hset : ∀ t : State, t.regs = s.regs → modeTaken s (8 * n + b) ((groupModed n t).bank (8 * n + b)) := fun t ht =>
    forEach_establishes (P := fun t => t.regs = s.regs) (Q := fun t => modeTaken s (8 * n + b) (t.bank (8 * n + b)))
      (f := fun b s => bankModed (8 * n + b) s) (List.mem_range.2 hb) (fun _ _ h => h)
      (fun c u h hq => bankModed_keeps h _ _ hq) (fun u h => bankModed_same h _) ht
  rw [takeModes_eq]
  exact endDeviceLap_modeTaken s (forEach_establishes (P := fun t => t.regs = s.regs)
    (Q := fun t => modeTaken s (8 * n + b) (t.bank (8 * n + b))) hmem hregs hkeep hset rfl)

/-- The bytes of Grotto and the books of its fill. -/
def fillKept (s t : State) : Prop :=
  t.grt.mem = s.grt.mem ∧ t.grt.filling = s.grt.filling ∧ t.grt.fillDone = s.grt.fillDone

theorem takeModes_fillKept (s : State) : fillKept s (takeModes s) := by
  have hgroups : fillKept s (forEach ((List.range 256).filter fun n => s.regF (grpModeReg n) 0 16 != 0) groupModed s) :=
    forEach_keeps (fillKept s) _ _
      (fun n t ht => forEach_keeps (fillKept s) _ (fun b s => bankModed (8 * n + b) s) (fun _ _ h => h) t ht) s ⟨rfl, rfl, rfl⟩
  rw [takeModes_eq]
  unfold endDeviceLap
  dsimp only
  split
  · exact forEach_keeps (fillKept s) _ (fun i s => s.modBank i fun b => { b with lapped := false, lastLap := 0 })
      (fun _ _ h => h) _ hgroups
  · exact hgroups

/-- Settles O19: in step 4 what is heard is kept and the loader waits, the key table load is `loadKeys_spec`, and a fill's
end takes the banks' modes. -/
theorem listenersAndKeyLoad : Obligations.ListenersAndKeyLoad := by
  unfold Obligations.ListenersAndKeyLoad
  refine ⟨⟨fun s b a bytes hlisten hmode hstage => ?_, fun s b a bytes hlisten => ?_, fun s a hlisten hmode hstage htold => ?_,
    fun s b a bytes hmode hstage hlinks => ?_⟩, fun s hkey hperst hstage h13 hrights => ?_,
    fun s hkey hperst hstage h13 hrecord => ?_, fun s micros hfill hstage => ?_⟩
  · exact ⟨_, congrArg Host.Outcome.next ((if_pos ⟨hlisten, hmode⟩).trans (hear_stepFour hstage b a bytes)), rfl,
      State.modCfg_within.frame⟩
  · exact congrArg Host.Outcome.next (if_neg (by simp [hlisten]))
  · have hexec : exec (.listenerIdle a) s =
        .next (raise 0x0508 [1, a] (s.modCfg fun c => { c with idleTold := true })) := by
      refine (if_pos ⟨by simp [passive, hlisten], hstage, by simp [htold]⟩).trans ?_
      rw [if_neg hmode]
      rfl
    exact ⟨_, hexec, raise_cfg _ _ _, (raised_raise _ _ _).before State.modCfg_within,
      (State.modCfg_within.mono.step raise_within).frame⟩
  · obtain ⟨u, hu⟩ : ∃ u, (forEach (s.net.children.filter (·.adopted)) (fun c s => enqueue c.bundle (mkMsg 8 2 0 s.ownAddr false
        (fitBytes 52 (leBytes 1 (b2n b) ++ leBytes 1 bytes.length ++ leBytes 4 a ++ bytes))) s) s) = u := ⟨_, rfl⟩
    have hw : Within [.gvl, .out] s u := hu ▸ .forEach fun _ _ => enqueue_within
    have hcfg : u.cfg = s.cfg := hw.frame .cfg (by decide)
    have hexec : exec (.cfgbReceive b a bytes none) s = .next (takeAnyMsg 2 (fun f => isTy 8 f && (fPay f).take 6 ==
        (leBytes 1 (b2n b) ++ leBytes 1 bytes.length ++ leBytes 4 a ++ bytes).take 6)
        (u.modCfg fun c => { c with heard := c.heard ++ [(flashAddr b a, bytes)], idleTold := false })) := by
      rw [← hear_stepFour (by rw [hcfg]; exact hstage), ← hu]
      exact if_neg (by simp [hmode, msgHeld_none hlinks])
    refine ⟨_, hexec, ?_, (hw.mono.step State.modCfg_within |>.step takeAnyMsg_within).frame⟩
    rw [takeAnyMsg_within.frame .cfg (by decide), State.modCfg_cfg, hcfg]
  · obtain ⟨hloaded, hrec, hcfg, hkeys⟩ := loadKeys_spec s
    have hexec : exec .keyTableLoadDone s = .next (loadKeys s) :=
      congrArg Host.Outcome.next ((if_pos ⟨hkey, hstage, h13⟩).trans (tryHostRelease_none (by rw [hcfg]; exact hperst)))
    exact ⟨_, hexec, hcfg, hloaded, hrec, hkeys hrights, loadKeys_within.mono.frame⟩
  · obtain ⟨-, -, hcfg, -⟩ := loadKeys_spec s
    have hexec : exec .keyTableLoadDone s = .next (loadKeys s) :=
      congrArg Host.Outcome.next ((if_pos ⟨hkey, hstage, h13⟩).trans (tryHostRelease_none (by rw [hcfg]; exact hperst)))
    obtain ⟨hkeys, hraised⟩ := loadKeys_empty hrecord
    exact ⟨_, hexec, hkeys, hraised, loadKeys_within.mono.frame⟩
  · have hexec : exec (.grottoFillDone micros) s = .next (endFill 2 micros.toNat s) :=
      (if_neg (by simp [hfill])).trans (if_neg hstage)
    obtain ⟨hmem, hfilling, hdone⟩ := takeModes_fillKept (s.modGrt fun g => { g with filling := false, fillDone := true })
    have hbank : ∀ i, (endFill 2 micros.toNat s).bank i =
        (takeModes (s.modGrt fun g => { g with filling := false, fillDone := true })).bank i := fun i => by
      rw [State.bank, State.bank, endFill, raise_grt]
    refine ⟨_, hexec, ?_, ?_, fun a => ?_, fun n hn b hb hmode => ?_,
      (raised_raise _ _ _).before ((State.modGrt_within).trans takeModes_within), endFill_within.frame⟩
    · rw [endFill, raise_grt, hfilling]
      rfl
    · rw [endFill, raise_grt, hdone]
      rfl
    · rw [grottoByte, endFill, raise_grt, hmem]
      rfl
    · rw [hbank]
      exact takeModes_modeTaken (s := s.modGrt fun g => { g with filling := false, fillDone := true }) hn hb hmode

end Sys2Proof

/-! A contention that meets a broken golden record (R92, R207, R488). -/

namespace Sys2Proof

open Sys2Proof.Machine

/-- A stratum that drives one shaft. -/
def shaftDriver : Stratum := { loaded := true, slot := 0, words := [(0, BitVec.ofNat 80 (1 <<< 39))] }

/-- Both chambers of column 3 drive the same shaft from slot 0, whose golden record has an error, while a stream refills
chamber 9 from that slot. -/
def goldenMet : State :=
  { State.reset with
    cfg := { stage := 0xB }
    fab := { released := true, chambers := [(3, { released := true, strata := [(0, shaftDriver)] }),
                                            (259, { released := true, strata := [(0, shaftDriver)] })] }
    lib := { slots := [(0, { st := 2, goldBad := true })]
             streams := [(0, some { op := 1, chamber := 9, stratum := 1, slot := 0, cls := 0, kind := 1 })] } }

/-- The column of the contention. -/
def contentionColumn : ColumnId := 3

theorem goldenMet_seed :
    observed (fun t => t.seed) (.shaftContention contentionColumn) goldenMet ≠ some goldenMet.seed := by decide +kernel

/-- Refutes O20: a golden record that the contention finds broken sends its slot to the sump, which aborts the refill from
it at a row that is the device's own choice, so that more than the fabric, the scan and the library changes. -/
theorem not_contentionBondsAndRelocation : ¬ Obligations.ContentionBondsAndRelocation := by
  unfold Obligations.ContentionBondsAndRelocation
  rintro ⟨hcontention, -⟩
  obtain ⟨t, ht, -, -, -, -, hframe⟩ := hcontention goldenMet contentionColumn 0 (by decide +kernel) (by decide +kernel)
    (by decide +kernel) (by decide +kernel) (by decide +kernel)
  have hseed : t.seed = goldenMet.seed := hframe .seed (by decide)
  exact goldenMet_seed ((observed_of_next _ ht).trans (congrArg some hseed))

end Sys2Proof

/-! The commands of a chamber that wait for its edge (Table Strata-4). -/

namespace Sys2Proof

open Sys2Proof.Machine

@[simp] theorem chm_modChm_same (s : State) (c : Nat) (f : Chamber → Chamber) : (s.modChm c f).chm c = f (s.chm c) := by
  simp [State.modChm, State.chm]

theorem chm_modChm_other (s : State) (c : Nat) (f : Chamber → Chamber) {x : Nat} (h : x ≠ c) :
    (s.modChm c f).chm x = s.chm x := by
  simp [State.modChm, State.chm, tabGet_tabMod_other, h]

/-- What waits at chamber `g` once a command of a register has been accepted. -/
def withCommand (s : State) (op k : Nat) (t : Bool) (x : Chamber) : Chamber :=
  { x with cmd := some ⟨op, k, t, none, cmdDelay s⟩ }

theorem acceptCmd_free {s : State} {c : Nat} (op k : Nat) (t : Bool) (hfree : (s.chm (s.gov c)).cmd = none) :
    acceptCmd c op k t none s = s.modChm (s.gov c) (withCommand s op k t) := by
  simp only [acceptCmd, hfree]
  rfl

/-- A command that replaces a waiting one of a register tells it (R160). -/
theorem acceptCmd_waiting {s : State} {c : Nat} (op k : Nat) (t : Bool) {old : ChmCmd}
    (hold : (s.chm (s.gov c)).cmd = some old) (hdesc : old.desc = none) :
    acceptCmd c op k t none s = (raise 0x030A [c, 1] s).modChm (s.gov c) (withCommand s op k t) := by
  have hdelay : cmdDelay (raise 0x030A [c, 1] s) = cmdDelay s := by
    simp only [cmdDelay, State.regF, State.reg, raise_regs]
  simp only [acceptCmd, hold, hdesc, endIssuer, hdelay]
  rfl

/-- A command written to a chamber that waits for none. -/
theorem acceptCmd_free_spec {s : State} {c : Nat} (op k : Nat) (t : Bool) (hfree : (s.chm (s.gov c)).cmd = none) :
    (acceptCmd c op k t none s).chm (s.gov c) = { s.chm (s.gov c) with cmd := some ⟨op, k, t, none, cmdDelay s⟩ } ∧
      (∀ x, x ≠ s.gov c → (acceptCmd c op k t none s).chm x = s.chm x) ∧
      OnlyChanges [.fab] s (acceptCmd c op k t none s) := by
  rw [acceptCmd_free op k t hfree]
  exact ⟨chm_modChm_same .., fun x hx => chm_modChm_other _ _ _ hx, State.modChm_within.frame⟩

/-- The fields of a CHM_CMD that switches. -/
theorem switchWord_fields (k : StratumId) (d : Bool) :
    fld (mkFld 30 2 1 ||| mkBit 2 d ||| mkFld 0 2 k) 30 2 = 1 ∧ fld (mkFld 30 2 1 ||| mkBit 2 d ||| mkFld 0 2 k) 0 2 = k ∧
      bit (mkFld 30 2 1 ||| mkBit 2 d ||| mkFld 0 2 k) 2 = d := by
  revert k d
  decide

theorem exec_chmCmdSwitch {s : State} (who : Requester) (c : ChamberId) (k : StratumId) (d : Bool) (hrole : s.twn.role = 0) :
    exec (.chmCmdSwitch who c k d) s = .next (acceptCmd c 1 k d none s) := by
  obtain ⟨hop, hk, hd⟩ := switchWord_fields k d
  refine congrArg Host.Outcome.next ((writeReg_chmCmd who c c.isLt _ s (by rw [hop]; decide) hrole).trans ?_)
  rw [hop, hk, hd]

theorem exec_chmCmdHold {s : State} (who : Requester) (c : ChamberId) (hrole : s.twn.role = 0) :
    exec (.chmCmdHold who c) s = .next (acceptCmd c 2 0 false none s) :=
  congrArg Host.Outcome.next (writeReg_chmCmd who c c.isLt _ s (by decide) hrole)

theorem exec_chmCmdRelease {s : State} (who : Requester) (c : ChamberId) (hrole : s.twn.role = 0) :
    exec (.chmCmdRelease who c) s = .next (acceptCmd c 3 0 false none s) :=
  congrArg Host.Outcome.next (writeReg_chmCmd who c c.isLt _ s (by decide) hrole)

/-- Settles O21, by what the acceptance of a command does at a chamber that waits for none and at one that waits. -/
theorem chamberCommandsWait : Obligations.ChamberCommandsWait := by
  unfold Obligations.ChamberCommandsWait
  intro s who c hrole
  refine ⟨fun k d hfree => ⟨_, exec_chmCmdSwitch who c k d hrole, acceptCmd_free_spec 1 k d hfree⟩,
    fun hfree => ⟨_, exec_chmCmdHold who c hrole, acceptCmd_free_spec 2 0 false hfree⟩,
    fun hfree => ⟨_, exec_chmCmdRelease who c hrole, acceptCmd_free_spec 3 0 false hfree⟩,
    fun k d old hold hdesc => ⟨_, exec_chmCmdSwitch who c k d hrole, ?_⟩⟩
  rw [acceptCmd_waiting 1 k d hold hdesc]
  have hraise : Within (.fab :: events) s (raise 0x030A [c, 1] s) := raise_within.mono
  exact ⟨congrArg Chamber.cmd (chm_modChm_same ..), (raised_raise _ _ s).within State.modChm_within,
    (hraise.step State.modChm_within).frame⟩

end Sys2Proof

/-! What one chamber sees of an edge of the global clocks (Table Strata-5): what loads, counts and acts elsewhere leaves
alone, and what may move of it. -/

namespace Sys2Proof

open Sys2Proof.Machine

/-- The entries of a table that has been changed at one key. -/
theorem mem_tabMod {α : Type} [DecidableEq α] {d : α} {t : List (Nat × α)} {k : Nat} {f : α → α} {p : Nat × α}
    (h : p ∈ tabMod d t k f) : p ∈ t ∧ p.1 ≠ k ∨ p = (k, f (tabGet d t k)) := by
  have hdel : p ∈ tabDel t k → p ∈ t ∧ p.1 ≠ k := fun h => by simpa [tabDel] using h
  unfold tabMod tabSet at h
  split at h
  · exact .inl (hdel h)
  · exact (mem_of_mem_tabIns h).symm.imp_left hdel

/-- What a stratum keeps at an edge that only loads. -/
def stratumKept (x : Stratum) : Stratum := { x with ffs := 0, parked := [] }

/-- What a chamber keeps at an edge at which nothing takes effect on it. -/
def chamberKept (x : Chamber) : Chamber :=
  { x with strata := [], shared := 0, portHold := 0, turn := 0, schedWait := 0, cmd := none }

/-- What a chamber keeps whatever a command, a group or a schedule does to it. -/
def chamberFixed (x : Chamber) : Chamber :=
  { released := x.released, reloc := x.reloc, sched := x.sched, quarDue := x.quarDue, holdDue := x.holdDue,
    reads := x.reads, selAtReset := x.selAtReset, loadedAt := x.loadedAt }

/-- Every entry of `z` for a stratum comes from one of `y`, or from what `y` shows of the stratum. -/
def Listed (y z : Chamber) : Prop :=
  ∀ p ∈ z.strata, stratumKept p.2 = stratumKept (y.strat p.1) ∨ ∃ q ∈ y.strata, q.1 = p.1 ∧ stratumKept q.2 = stratumKept p.2

theorem Listed.of_eq {y z : Chamber} (h : z.strata = y.strata) : Listed y z :=
  fun p hp => .inr ⟨p, h ▸ hp, rfl, rfl⟩

theorem Listed.trans {y z w : Chamber} (h : Listed y z) (hstrat : ∀ k, stratumKept (z.strat k) = stratumKept (y.strat k))
    (h' : Listed z w) : Listed y w := fun p hp => by
  rcases h' p hp with hp | ⟨q, hq, hkey, hkept⟩
  · exact .inl (hp.trans (hstrat p.1))
  · refine (h q hq).imp (fun h => ?_) fun ⟨r, hr, hrk, hrkept⟩ => ⟨r, hr, hrk.trans hkey, hrkept.trans hkept⟩
    rw [← hkept, h, hkey]

theorem Listed.modStrat (y : Chamber) (k : Nat) {f : Stratum → Stratum} (hf : ∀ x, stratumKept (f x) = stratumKept x) :
    Listed y (y.modStrat k f) := fun p hp => by
  rcases mem_tabMod hp with ⟨hp, -⟩ | hp
  · exact .inr ⟨p, hp, rfl, rfl⟩
  · rw [hp]
    exact .inl (hf _)

/-- From `s` to `t` a part of an edge has happened, as chamber `c` sees it; unless `moved`, nothing has taken effect on
the chamber itself. -/
structure Seen (c : Nat) (moved : Prop) (s t : State) : Prop extends Within edgeParts s t where
  strata : ∀ k, stratumKept ((t.chm c).strat k) = stratumKept ((s.chm c).strat k)
  listed : Listed (s.chm c) (t.chm c)
  fixed : chamberFixed (t.chm c) = chamberFixed (s.chm c)
  entering : (s.chm c).entering = 0 → (t.chm c).entering = 0
  lock : (t.col (colOf c)).lock = (s.col (colOf c)).lock
  ctrl : ∀ lo len, lo + len ≤ 31 → t.regF (chmReg c 0x04) lo len = s.regF (chmReg c 0x04) lo len
  other : ∀ o, o ≠ 0x04 → o < 256 → t.reg (chmReg c o) = s.reg (chmReg c o)
  kept : ¬moved → chamberKept (t.chm c) = chamberKept (s.chm c)
  enabled : ¬moved → t.reg (chmReg c 0x04) = s.reg (chmReg c 0x04)
  idle : ¬moved → (s.chm c).cmd = none → (t.chm c).cmd = none

namespace Seen

variable {c : Nat} {m m' : Prop} {s t u : State} {l : List Part}

theorem refl : Seen c m s s where
  toWithin := .refl
  strata _ := rfl
  listed := .of_eq rfl
  fixed := rfl
  entering := id
  lock := rfl
  ctrl _ _ _ := rfl
  other _ _ _ := rfl
  kept _ := rfl
  enabled _ := rfl
  idle _ := id

theorem trans (h : Seen c m s t) (h' : Seen c m t u) : Seen c m s u where
  toWithin := h.toWithin.trans h'.toWithin
  strata k := (h'.strata k).trans (h.strata k)
  listed := h.listed.trans h.strata h'.listed
  fixed := h'.fixed.trans h.fixed
  entering := h'.entering ∘ h.entering
  lock := h'.lock.trans h.lock
  ctrl lo len hl := (h'.ctrl lo len hl).trans (h.ctrl lo len hl)
  other o ho hl := (h'.other o ho hl).trans (h.other o ho hl)
  kept hm := (h'.kept hm).trans (h.kept hm)
  enabled hm := (h'.enabled hm).trans (h.enabled hm)
  idle hm := h'.idle hm ∘ h.idle hm

theorem weaken (h : Seen c m s t) (hm : m → m') : Seen c m' s t where
  toWithin := h.toWithin
  strata := h.strata
  listed := h.listed
  fixed := h.fixed
  entering := h.entering
  lock := h.lock
  ctrl := h.ctrl
  other := h.other
  kept hn := h.kept (hn ∘ hm)
  enabled hn := h.enabled (hn ∘ hm)
  idle hn := h.idle (hn ∘ hm)

theorem any (h : Seen c False s t) : Seen c m s t := h.weaken False.elim

theorem ite {p : Prop} [Decidable p] {a b : State} (ha : p → Seen c m s a) (hb : ¬p → Seen c m s b) :
    Seen c m s (if p then a else b) := by
  split
  · exact ha ‹_›
  · exact hb ‹_›

theorem forEach {α : Type} {xs : List α} {f : α → State → State} (h : ∀ x ∈ xs, ∀ w, Seen c m s w → Seen c m w (f x w)) :
    Seen c m s (forEach xs f s) := by
  have key : ∀ (ys : List α), (∀ y ∈ ys, y ∈ xs) → ∀ w, Seen c m s w → Seen c m s (Machine.forEach ys f w) := by
    intro ys
    induction ys with
    | nil => exact fun _ w hw => hw
    | cons y ys ih =>
      exact fun hys w hw => ih (fun z hz => hys z (by simp [hz])) _ (hw.trans (h y (hys y (by simp)) w hw))
  exact key xs (fun _ => id) s refl

/-- What neither the fabric nor a register sees. -/
theorem elsewhere (h : Within l s t)
    (hl : (l.all fun p => edgeParts.contains p && p != .fab && p != .regs) = true := by rfl) : Seen c m s t := by
  simp only [List.all_eq_true, Bool.and_eq_true, bne_iff_ne] at hl
  have hnot : ∀ p : Part, (p = .fab ∨ p = .regs) → p ∉ l := fun p hp hmem => by
    obtain ⟨⟨-, hfab⟩, hregs⟩ := hl p hmem
    rcases hp with rfl | rfl
    · exact hfab rfl
    · exact hregs rfl
  have hfab : t.fab = s.fab := h.frame .fab (hnot _ (.inl rfl))
  have hw : Within edgeParts s t := h.mono (List.all_eq_true.2 fun p hp => (hl p hp).1.1)
  have hchm : t.chm c = s.chm c := by rw [State.chm, hfab, State.chm]
  have hcol : t.col (colOf c) = s.col (colOf c) := by rw [State.col, hfab, State.col]
  have hreg : ∀ o, t.reg o = s.reg o := h.frame .regs (hnot _ (.inr rfl))
  exact ⟨hw, fun k => by rw [hchm], .of_eq (by rw [hchm]), by rw [hchm], by rw [hchm]; exact id, by rw [hcol],
    fun lo len _ => by rw [State.regF, hreg, State.regF], fun o _ _ => hreg _, fun _ => by rw [hchm], fun _ => hreg _,
    fun _ => by rw [hchm]; exact id⟩

/-- A part of the fabric that shows in no chamber and in no column's lockstep state. -/
theorem fabric (h : Within [.fab] s t) (hchm : t.chm c = s.chm c)
    (hlock : (t.col (colOf c)).lock = (s.col (colOf c)).lock) : Seen c m s t := by
  have hreg : ∀ o, t.reg o = s.reg o := h.frame .regs (by decide)
  exact ⟨h.mono, fun k => by rw [hchm], .of_eq (by rw [hchm]), by rw [hchm], by rw [hchm]; exact id, hlock,
    fun lo len _ => by rw [State.regF, hreg, State.regF], fun o _ _ => hreg _, fun _ => by rw [hchm], fun _ => hreg _,
    fun _ => by rw [hchm]; exact id⟩

theorem modCol {n : Nat} {f : Column → Column}
    (hf : n = colOf c → ∀ x, (f x).lock = x.lock := by exact fun _ _ => rfl) : Seen c m s (s.modCol n f) := by
  refine .fabric State.modCol_within rfl ?_
  by_cases hn : n = colOf c
  · subst hn
    simp [State.modCol, State.col, hf rfl]
  · simp [State.modCol, State.col, tabGet_tabMod_other, Ne.symm hn]

theorem modGrp {g : Nat} {f : SwGroup → SwGroup} : Seen c m s (s.modGrp g f) := .fabric State.modGrp_within rfl rfl

/-- Another chamber. -/
theorem modChm_other {x : Nat} {f : Chamber → Chamber} (hx : x ≠ c) : Seen c m s (s.modChm x f) :=
  .fabric State.modChm_within (chm_modChm_other _ _ _ (Ne.symm hx)) rfl

/-- A chamber of which something moves. -/
theorem modChm {x : Nat} {f : Chamber → Chamber} (hm : x = c → m)
    (hfix : ∀ y, chamberFixed (f y) = chamberFixed y := by exact fun _ => rfl)
    (hstrata : ∀ y, (f y).strata = y.strata := by exact fun _ => rfl)
    (hent : ∀ y, y.entering = 0 → (f y).entering = 0 := by exact fun _ => id) : Seen c m s (s.modChm x f) := by
  by_cases hx : x = c
  · subst hx
    refine ⟨State.modChm_within.mono, fun k => ?_, .of_eq ?_, ?_, ?_, rfl, fun _ _ _ => rfl, fun _ _ _ => rfl,
      fun hn => absurd (hm rfl) hn, fun _ => rfl, fun hn => absurd (hm rfl) hn⟩
    all_goals rw [chm_modChm_same]
    · rw [Chamber.strat, hstrata, Chamber.strat]
    · exact hstrata _
    · exact hfix _
    · exact hent _
  · exact modChm_other hx

/-- A chamber of which only loads happen. -/
theorem modChm_kept {x : Nat} {f : Chamber → Chamber}
    (hkept : ∀ y, chamberKept (f y) = chamberKept y := by exact fun _ => rfl)
    (hstrata : ∀ y k, stratumKept ((f y).strat k) = stratumKept (y.strat k) := by exact fun _ _ => rfl)
    (hlisted : ∀ y, Listed y (f y) := by exact fun _ => Listed.of_eq rfl)
    (hidle : ∀ y, y.cmd = none → (f y).cmd = none := by exact fun _ => id) : Seen c m s (s.modChm x f) := by
  by_cases hx : x = c
  · subst hx
    have hfix : ∀ y, chamberFixed (f y) = chamberFixed y := fun y => (congrArg chamberFixed (hkept y) :)
    refine ⟨State.modChm_within.mono, fun k => ?_, ?_, ?_, ?_, rfl, fun _ _ _ => rfl, fun _ _ _ => rfl, fun _ => ?_,
      fun _ => rfl, fun _ => ?_⟩
    all_goals rw [chm_modChm_same]
    · exact hstrata _ k
    · exact hlisted _
    · exact hfix _
    · exact fun h => (congrArg Chamber.entering (hkept _) :).trans h
    · exact hkept _
    · exact hidle _
  · exact modChm_other hx

theorem modStrat {x k : Nat} {f : Stratum → Stratum}
    (hf : ∀ y, stratumKept (f y) = stratumKept y := by exact fun _ => rfl) :
    Seen c m s (s.modStrat x k f) := by
  refine .modChm_kept (hstrata := fun y j => ?_) (hlisted := fun y => .modStrat y k hf)
  by_cases hj : j = k
  · subst hj
    simp [Chamber.modStrat, Chamber.strat, hf]
  · simp [Chamber.modStrat, Chamber.strat, tabGet_tabMod_other, hj]

theorem chmReg_ne {x o o' : Nat} (hx : x ≠ c) (ho : o < 256) (ho' : o' < 256) : chmReg c o' ≠ chmReg x o := by
  unfold chmReg
  omega

/-- The SCHED bit of a chamber's control register. -/
theorem schedBit {x v : Nat} (hm : x = c → m) : Seen c m s (s.setRegF (chmReg x 0x04) 31 1 v) where
  toWithin := State.setRegF_within.mono
  strata _ := rfl
  listed := .of_eq rfl
  fixed := rfl
  entering := id
  lock := rfl
  ctrl lo len hl := by
    by_cases hx : x = c
    · subst hx
      rw [State.regF, setRegF_reg, fld_setFld_other _ _ (by omega) (by omega), State.regF]
    · rw [State.regF, setRegF_reg_other (chmReg_ne hx (by decide) (by decide)), State.regF]
  other o ho hl := setRegF_reg_other (by unfold chmReg; omega) _ _ _ _
  kept _ := rfl
  enabled hn := setRegF_reg_other (chmReg_ne (hn ∘ hm) (by decide) (by decide)) _ _ _ _
  idle _ := id

/-- The state that a chamber shows, once nothing has taken effect on it. -/
theorem chmState (h : Seen c False s t) : t.chmState c = s.chmState c := by
  have hkept := h.kept id
  have hrst : t.rst = s.rst := h.frame .rst (by decide)
  have hsel : (t.chm c).sel = (s.chm c).sel := (congrArg Chamber.sel hkept :)
  have hrel : (t.chm c).released = (s.chm c).released := (congrArg Chamber.released hkept :)
  have hreloc : (t.chm c).reloc = (s.chm c).reloc := (congrArg Chamber.reloc hkept :)
  have hhsrc : (t.chm c).hsrc = (s.chm c).hsrc := (congrArg Chamber.hsrc hkept :)
  have hent : (t.chm c).entering = (s.chm c).entering := (congrArg Chamber.entering hkept :)
  have hquar : ((t.chm c).strat (s.chm c).sel).quar = ((s.chm c).strat (s.chm c).sel).quar :=
    (congrArg Stratum.quar (h.strata (s.chm c).sel) :)
  have hload : ((t.chm c).strat (s.chm c).sel).loaded = ((s.chm c).strat (s.chm c).sel).loaded :=
    (congrArg Stratum.loaded (h.strata (s.chm c).sel) :)
  unfold State.chmState State.inReset
  dsimp only
  rw [hsel, hrel, hreloc, hhsrc, hent, hquar, hload, hrst]

end Seen

end Sys2Proof

/-! What each part of an edge is to a chamber (Table Strata-5, Table Strata-6). -/

namespace Sys2Proof

open Sys2Proof.Machine

variable {c : Nat} {m : Prop} {s b : State} {v : Nets}

theorem raise_seen {code : Nat} {fields : List Nat} : Seen c m s (raise code fields s) := .elsewhere raise_within

theorem endIssuer_seen {d : Option (Nat × Nat)} {status result : Nat} : Seen c m s (endIssuer d status result s) :=
  .elsewhere endIssuer_within

theorem leaveRun_seen {x : Nat} : Seen c m s (leaveRun b v x s) := by
  unfold leaveRun
  exact .ite (fun _ => .modChm_kept) fun _ => .refl

theorem holdTurn_seen {x : Nat} {mask : BitVec 8} : Seen c m s (holdTurn x mask s) := by
  unfold holdTurn
  exact (Seen.elsewhere State.modPin_within).trans (.modChm_kept)

theorem enterRun_seen {x : Nat} : Seen c m s (enterRun x s) := by
  unfold enterRun
  exact .ite (fun _ => holdTurn_seen) fun _ => .refl

theorem latchFence_seen {x k : Nat} : Seen c (x = c) s (latchFence x k s) := by
  unfold latchFence
  exact .modChm id

theorem switchTo_seen {x k : Nat} {t : Bool} {rank : Nat} : Seen c (x = c) s (switchTo b v x k t rank s) := by
  unfold switchTo
  refine .ite (fun _ => .refl) fun _ => ?_
  refine ((Seen.ite (fun _ => .refl) fun _ => leaveRun_seen).trans
    (.modChm id (hent := fun _ _ => rfl))).trans (.ite (fun _ => ?_) fun _ => raise_seen)
  exact (latchFence_seen.trans (.ite (fun _ => .refl) fun _ => holdTurn_seen)).trans
    (.ite (fun _ => raise_seen) fun _ => .refl)

theorem holdChamber_seen {x hsrc : Nat} : Seen c (x = c) s (holdChamber b v x hsrc s) := by
  unfold holdChamber
  refine .ite (fun _ => .refl) fun _ => .ite (fun _ => .refl) fun _ => ?_
  exact (leaveRun_seen.trans (.modChm id)).trans raise_seen

theorem releaseChamber_seen {x rank : Nat} : Seen c (x = c) s (releaseChamber x rank s) := by
  unfold releaseChamber
  refine .ite (fun _ => .refl) fun _ => .ite (fun _ => raise_seen) fun _ => ?_
  have hpend : ∀ (w : State) (p q : Prop) [Decidable p] [Decidable q] (k : Nat),
      Seen c (x = c) w (if p then if q then latchFence x k w else raise 0x0302 [x, k, rank] w else w) :=
    fun w p q _ _ k => .ite (fun _ => .ite (fun _ => latchFence_seen) fun _ => raise_seen) fun _ => .refl
  have hcol : ∀ (w : State) (p : Prop) [Decidable p] (n : Nat),
      Seen c (x = c) w (if p then w.modCol n fun y => { y with slice := 0, digests := [] } else w) :=
    fun w p _ n => .ite (fun _ => .modCol) fun _ => .refl
  exact (((Seen.modChm id).trans (hpend _ _ _ _)).trans raise_seen).trans ((hcol _ _ _).trans enterRun_seen)

theorem stopSchedule_seen {x reason : Nat} : Seen c (x = c) s (stopSchedule x reason s) := by
  unfold stopSchedule
  refine .ite (fun _ => ?_) fun _ => .refl
  exact ((Seen.modChm id).trans (.schedBit id)).trans raise_seen

theorem haltSchedule_seen {x reason : Nat} {due : Option Nat} : Seen c (x = c) s (haltSchedule x reason due s) := by
  unfold haltSchedule
  refine .ite (fun _ => ?_) fun _ => stopSchedule_seen
  cases due with
  | none => exact .refl
  | some e => exact ((Seen.modChm id).trans (.schedBit id)).trans raise_seen

theorem clearCmd_seen {x : Nat} {d : ChmCmd} : Seen c (x = c) s (clearCmd x d s) := by
  unfold clearCmd
  exact (Seen.modChm id).trans endIssuer_seen

/-- Outside lockstep a chamber takes part in no other chamber's actions. -/
theorem acting_own {x g : Nat} (hlock : (s.col (colOf c)).lock = .off) (hx : x ∈ s.acting g) (hc : x = c) : g = c := by
  subst hc
  have hcol : ∀ n, x = colOf n ∨ x = colOf n + 256 → colOf x = colOf n := by
    unfold colOf
    omega
  unfold State.acting at hx
  split at hx
  · exact (List.mem_singleton.1 hx).symm
  · exact (List.mem_singleton.1 hx).symm
  · rename_i h
    rw [hcol g (.inl (by simpa using hx)), h] at hlock
    cases hlock
  · rename_i h
    rw [hcol g (.inr (by simpa using hx)), h] at hlock
    cases hlock
  · rename_i h _ _ _
    rw [hcol g (by simpa using hx)] at hlock
    exact absurd hlock h

theorem acting_off (hlock : (s.col (colOf c)).lock = .off) : s.acting c = [c] := by
  unfold State.acting
  rw [hlock]

theorem lead_off (hlock : (s.col (colOf c)).lock = .off) : s.lead c = c := by
  rw [State.lead, acting_off hlock]
  rfl

theorem gov_off (hlock : (s.col (colOf c)).lock = .off) : s.gov c = c := by
  unfold State.gov
  rw [hlock]

theorem entryCurrent_seen {g e : Nat} (hlock : (s.col (colOf c)).lock = .off) :
    Seen c (g = c) s (entryCurrent b v g e s) := by
  unfold entryCurrent
  have h1 : Seen c (g = c) s (s.modChm g fun x => { x with schedArmed := false, schedRun := true, entry := e }) :=
    .modChm id
  refine h1.trans (.ite (fun _ => stopSchedule_seen) fun _ => ?_)
  refine (Seen.modChm id).trans (.forEach fun x hx w _ => ?_)
  exact switchTo_seen.weaken fun hc => acting_own (s := _) hlock hx hc

theorem applyOp_seen {g op k rank : Nat} {t : Bool} (hlock : (b.col (colOf c)).lock = .off) :
    Seen c (g = c) s (applyOp b v g op k t rank s) := by
  unfold applyOp
  split
  · refine .forEach fun x hx w _ => ?_
    have hown : x = c → g = c := acting_own hlock hx
    exact .ite (fun _ => .modChm hown) fun _ => switchTo_seen.weaken hown
  · exact .forEach fun x hx w _ => holdChamber_seen.weaken (acting_own hlock hx)
  · exact .forEach fun x hx w _ => releaseChamber_seen.weaken (acting_own hlock hx)
  · exact .refl

theorem chamberActs_seen {due : List Nat} {g : Nat} (hb : (b.col (colOf c)).lock = .off)
    (hs : (s.col (colOf c)).lock = .off) : Seen c (g = c) s (chamberActs b v due g s) := by
  have hdrop : ∀ (d : ChmCmd) (k : Nat) (w : State),
      Seen c (g = c) w (endIssuer d.desc 0x0C k (raise 0x030A [g, k] (w.modChm g fun x => { x with cmd := none }))) :=
    fun _ _ _ => ((Seen.modChm id).trans raise_seen).trans endIssuer_seen
  have hhalt : ∀ (p : Prop) [Decidable p] (k : Nat) (e : Option Nat) (w : State),
      Seen c (g = c) w (if p then haltSchedule g k e w else w) :=
    fun _ _ _ _ _ => .ite (fun _ => haltSchedule_seen) fun _ => .refl
  unfold chamberActs
  lift_lets
  intro ch ws fired entry t cmd
  have ht : Seen c (g = c) s t := .ite (fun _ => .modChm id) fun _ => .refl
  clear_value t cmd entry
  split
  next waiting u hu =>
  have hu : Seen c (g = c) t u := by
    split at hu
    · split at hu
      all_goals
        obtain ⟨-, rfl⟩ := hu
      · exact hdrop _ _ _
      · exact .refl
    · obtain ⟨-, rfl⟩ := hu
      exact .refl
  have hsu : Seen c (g = c) s u := ht.trans hu
  refine hsu.trans ?_
  cases groupTakes b due g with
  | some g =>
    refine .trans ?_ ((hhalt _ _ _ _).trans (applyOp_seen hb))
    cases waiting with
    | some d => exact hdrop _ _ _
    | none => exact .refl
  | none =>
    cases waiting with
    | some d => exact ((hhalt _ _ _ _).trans (applyOp_seen hb)).trans clearCmd_seen
    | none =>
      refine .ite (fun _ => (hhalt _ _ _ _).trans (.forEach fun x hx w _ => switchTo_seen.weaken (acting_own hb hx))) fun _ => ?_
      cases entry with
      | some e => exact entryCurrent_seen (hsu.lock.trans hs)
      | none => exact .refl

/- ### What only loads or counts -/

theorem settleKeepers_seen : Seen c m s (settleKeepers v s) := by
  unfold settleKeepers
  exact .forEach fun _ _ _ _ => .modCol

theorem watchShafts_seen : Seen c m s (watchShafts s) := by
  unfold watchShafts
  exact .forEach fun _ _ _ _ => .ite (fun _ => .refl) fun _ => .modCol

/-- From `y` to `z` only flip-flops have changed. -/
def LoadsOnly (y z : Chamber) : Prop :=
  chamberKept z = chamberKept y ∧ z.cmd = y.cmd ∧ (∀ k, stratumKept (z.strat k) = stratumKept (y.strat k)) ∧
    Listed y z

theorem LoadsOnly.foldl {α : Type} {f : Chamber → α → Chamber} (h : ∀ y a, LoadsOnly y (f y a)) (l : List α) (y : Chamber) :
    LoadsOnly y (l.foldl f y) := by
  induction l generalizing y with
  | nil => exact ⟨rfl, rfl, fun _ => rfl, .of_eq rfl⟩
  | cons a l ih =>
    obtain ⟨hkept, hcmd, hstrat, hlisted⟩ := h y a
    obtain ⟨hkept', hcmd', hstrat', hlisted'⟩ := ih (f y a)
    exact ⟨hkept'.trans hkept, hcmd'.trans hcmd, fun k => (hstrat' k).trans (hstrat k), hlisted.trans hstrat hlisted'⟩

theorem loadsOnly_modStrat (y : Chamber) (k : Nat) {f : Stratum → Stratum} (hf : ∀ x, stratumKept (f x) = stratumKept x) :
    LoadsOnly y (y.modStrat k f) := by
  refine ⟨rfl, rfl, fun j => ?_, .modStrat y k hf⟩
  by_cases hj : j = k
  · subst hj
    simp [Chamber.modStrat, Chamber.strat, hf]
  · simp [Chamber.modStrat, Chamber.strat, tabGet_tabMod_other, hj]

theorem loadFfs_loadsOnly (w : State) (x g : Nat) (y : Chamber) : LoadsOnly y (loadFfs w v x g y) := by
  unfold loadFfs
  refine .foldl (fun y p => ?_) _ y
  cases h : ffLoad w v x g p.1 with
  | none => simp only [h]; exact ⟨rfl, rfl, fun _ => rfl, .of_eq rfl⟩
  | some l =>
    simp only [h]
    split
    · exact ⟨rfl, rfl, fun _ => rfl, .of_eq rfl⟩
    · exact loadsOnly_modStrat y y.sel fun _ => rfl

theorem loadAtEdges_seen {clks : List Nat} {x : Nat} : Seen c m s (loadAtEdges b v clks x s) := by
  unfold loadAtEdges
  refine .ite (fun _ => .refl) fun _ => .forEach fun g _ w _ => .modChm_kept (fun y => ?_) (fun y => ?_) (fun y => ?_) fun y hy => ?_
  all_goals obtain ⟨hkept, hcmd, hstrat, hlisted⟩ := loadFfs_loadsOnly (v := v) b x g y
  · exact hkept
  · exact hstrat
  · exact hlisted
  · exact hcmd.trans hy

theorem pinEdge_seen {x : Nat} : Seen c m s (pinEdge x s) := by
  have hload : ∀ w, Seen c m w (if (w.chm x).turn = 0 then w else w.modChm x fun ch => { ch with turn := 0 }) :=
    fun w => .ite (fun _ => .refl) fun _ => .modChm_kept
  unfold pinEdge
  refine .trans ?_ (.ite (fun _ => .refl) fun _ => .modChm_kept)
  refine .ite (fun _ => ?_) fun _ => .refl
  split
  · exact .refl
  · exact .forEach fun _ _ _ _ => .ite (fun _ => .elsewhere loadPin_within) fun _ => .refl

theorem edgeCounts_seen {x : Nat} : Seen c m s (edgeCounts x s) := by
  unfold edgeCounts
  exact (Seen.ite (fun _ => pinEdge_seen) fun _ => .refl).trans (.ite (fun _ => .modCol) fun _ => .refl)

/-- The comparator of another column, in a device that is in no pair. -/
theorem compareDigests_seen {n : Nat} (hlock : (b.col (colOf c)).lock = .off) (hn : n < 256) (hpaired : s.paired = false) :
    Seen c m s (compareDigests b v n s) := by
  unfold compareDigests
  refine .ite (fun _ => .refl) fun hcomp => ?_
  have hne : n ≠ colOf c := by
    rintro rfl
    exact hcomp (by rw [hlock]; decide)
  have hc : n ≠ c ∧ n + 256 ≠ c := by
    unfold colOf at hne
    omega
  have hdetect : ∀ (w : State) (x y : Word), w.paired = false → Seen c m w (lockDetect n 4 x y w) := fun w x y hw => by
    unfold lockDetect
    dsimp only
    have hpair : ∀ u : State, u.twn = w.twn → u.paired ≠ true := fun u hu => by
      rw [State.paired, hu]
      exact Bool.eq_false_iff.1 hw
    refine .ite (fun h => absurd h (hpair _ (raise_twn _ _ w))) fun _ => ?_
    exact ((Seen.trans raise_seen (.modCol fun h => absurd h hne)).trans (.elsewhere State.modLib_within)).trans
      ((Seen.modChm_other hc.1).trans (.modChm_other hc.2))
  split
  · exact (Seen.modCol).trans (.ite (fun _ => .refl) fun _ => hdetect _ _ _ hpaired)
  · exact .modCol

/- ### What acts -/

/-- The device acts on another chamber, or finds nothing due on this one. -/
theorem deviceActs_seen {x : Nat}
    (hown : x = c → (b.chm c).entering = 0 ∧ (b.chm c).holdDue = 0 ∧ (b.chm c).quarDue = []) :
    Seen c m s (deviceActs b v x s) := by
  by_cases hx : x = c
  · subst hx
    obtain ⟨hent, hhold, hquar⟩ := hown rfl
    unfold deviceActs
    simp only [hent, hhold, hquar]
    exact .trans (t := s) .refl (.modChm_kept (f := fun y => { y with quarDue := y.quarDue.drop 0 }))
  · have hquar : ∀ (w : State) (k j : Nat), Seen c m w (quarantineOne b v x k j w) := fun w k j => by
      unfold quarantineOne
      refine .ite (fun _ => .refl) fun _ => ?_
      exact ((Seen.ite (fun _ => leaveRun_seen) fun _ => .refl).trans (.modChm_other hx)).trans raise_seen
    have hhold : ∀ (w : State) (k : Nat), Seen c m w (holdChamber b v x k w) := fun w k =>
      holdChamber_seen.weaken fun h => absurd h hx
    have hlatch : ∀ (w : State) (k : Nat), Seen c m w (latchFence x k w) := fun w k => latchFence_seen.weaken fun h => absurd h hx
    have hmark : ∀ (w : State) (p : Prop) [Decidable p], Seen c m w (if p then markRefills x w else w) := fun w p _ =>
      .ite (fun _ => .modChm_other hx) fun _ => .refl
    unfold deviceActs
    exact (((Seen.ite (fun _ => .refl) fun _ => (Seen.modChm_other hx).trans (hlatch _ _)).trans
      (.ite (fun _ => .refl) fun _ => ((Seen.modChm_other hx).trans (hhold _ _)).trans (hmark _ _))).trans
      (.modChm_other hx)).trans (.forEach fun q _ w _ => (hquar _ _ _).trans (.ite (fun _ => .modCol) fun _ => .refl))

theorem countWaits_seen {g : Nat} : Seen c m s (countWaits b g s) := by
  unfold countWaits
  refine .ite (fun _ => .refl) fun _ => .modChm_kept (hidle := fun y hy => ?_)
  simp [hy]

theorem groupsEnd_seen {due : List Nat} : Seen c m s (groupsEnd b due s) := by
  unfold groupsEnd
  refine .forEach fun g _ w _ => ?_
  split
  · exact .refl
  · exact ((Seen.forEach fun _ _ _ _ => raise_seen).trans .modGrp).trans (.ite (fun _ => endIssuer_seen) fun _ => endIssuer_seen)

theorem groupCounts_seen {clks : List Nat} : Seen c m s (groupCounts b v clks s) := by
  unfold groupCounts
  refine (Seen.forEach fun _ _ _ _ => .modGrp).trans (.forEach fun _ _ _ _ => .ite (fun _ => ?_) fun _ => .refl)
  exact .forEach fun _ _ _ _ => .ite (fun _ => .modGrp) fun _ => raise_seen

theorem deliverParked_seen {x : Nat} : Seen c m s (deliverParked x s) := by
  unfold deliverParked
  refine .ite (fun _ => ?_) fun _ => .refl
  split
  · exact .refl
  · exact (Seen.modStrat).trans (.elsewhere State.send_within)

/-- A device in no pair fails no rewrite of a stratum that a switch makes active (R497). -/
theorem afterSwitch_alone {x : Nat} (hpaired : s.paired = false) : afterSwitch b x s = s := by
  unfold afterSwitch
  exact if_neg (by simp [hpaired])

theorem edgeEnds_seen {x : Nat} (hpaired : s.paired = false) : Seen c m s (edgeEnds b x s) := by
  have hrun : Seen c m s (if (b.chm x).entering ≠ 0 ∧ (s.chm x).sel = (b.chm x).sel then enterRun x s else s) :=
    .ite (fun _ => enterRun_seen) fun _ => .refl
  unfold edgeEnds
  dsimp only
  rw [afterSwitch_alone (hrun.unpaired hpaired)]
  exact hrun.trans deliverParked_seen

theorem releaseOne_seen {x : Nat} (hx : x ≠ c) : Seen c m s (releaseOne x s) := by
  unfold releaseOne
  exact (Seen.modChm_other hx).trans (.ite (fun _ => .refl) fun _ => raise_seen)

theorem leaveUnreleased_seen {clks : List Nat} (hleave : c ∉ b.fab.leaving) : Seen c m s (leaveUnreleased b clks s) := by
  unfold leaveUnreleased
  refine .ite (fun _ => .refl) fun _ => .trans (.forEach fun x hx w _ => releaseOne_seen ?_) (.fabric State.modFab_within rfl rfl)
  rintro rfl
  exact hleave (List.mem_filter.1 hx).1

end Sys2Proof

/-! An edge that a command brings, for the chamber that it is about. -/

namespace Sys2Proof

open Sys2Proof.Machine

/- ### The cycle that ends -/

theorem trigFires_seen {c : Nat} {m : Prop} {clks : List Nat} {s : State} : Seen c m s (trigFires clks s) := by
  unfold trigFires
  refine .forEach fun g _ w _ => ?_
  dsimp only
  have hfree : Seen c m w (match (w.grp g).fire with
      | some (_, d) => endIssuer d 0x0C 1 w
      | none => w) := by
    split
    · exact endIssuer_seen
    · exact .refl
  exact .ite (fun _ => .refl) fun _ => .ite (fun _ => hfree.trans .modGrp) fun _ => raise_seen

/-- What an edge of clock `g` that a command brings starts from. -/
def edgeStart (g : Nat) (s : State) : State :=
  trigFires (coincident s g)
    (s.modFab fun f => { f with early := ((coincident s g).filter (clockRuns s)).foldl (fun t n => tabMod 0 t n (· + 1)) f.early })

theorem edgeStart_seen {c : Nat} {m : Prop} {g : Nat} {s : State} : Seen c m s (edgeStart g s) :=
  (Seen.fabric State.modFab_within rfl rfl).trans trigFires_seen

theorem trigFires_fab (clks : List Nat) (s : State) : ∃ gs, (trigFires clks s).fab = { s.fab with groups := gs } := by
  refine forEach_keeps (fun w => ∃ gs, w.fab = { s.fab with groups := gs }) _ _ (fun g w => ?_) s ⟨s.fab.groups, rfl⟩
  rintro ⟨gs, hgs⟩
  dsimp only
  have hend : ∀ (d : Option (Nat × Nat)) (a r : Nat), (endIssuer d a r w).fab = w.fab := fun d a r =>
    (endIssuer_within (s := w)).frame .fab (by decide)
  split
  · exact ⟨gs, hgs⟩
  · split
    · split
      · exact ⟨_, by rw [State.modGrp, State.modFab_fab, hend, hgs]⟩
      · exact ⟨_, by rw [State.modGrp, State.modFab_fab, hgs]⟩
    · exact ⟨gs, by rw [raise_fab, hgs]⟩

theorem edgeStart_fab (g : Nat) (s : State) : ∃ gs es, (edgeStart g s).fab = { s.fab with groups := gs, early := es } := by
  obtain ⟨gs, hgs⟩ := trigFires_fab (coincident s g)
    (s.modFab fun f => { f with early := ((coincident s g).filter (clockRuns s)).foldl (fun t n => tabMod 0 t n (· + 1)) f.early })
  exact ⟨gs, _, hgs⟩

theorem edgeStart_chambers (g : Nat) (s : State) : (edgeStart g s).fab.chambers = s.fab.chambers := by
  obtain ⟨gs, es, h⟩ := edgeStart_fab g s
  rw [h]

theorem edgeStart_leaving (g : Nat) (s : State) : (edgeStart g s).fab.leaving = s.fab.leaving := by
  obtain ⟨gs, es, h⟩ := edgeStart_fab g s
  rw [h]

theorem edgeStart_chm (g : Nat) (s : State) (x : Nat) : (edgeStart g s).chm x = s.chm x := by
  rw [State.chm, edgeStart_chambers, State.chm]

theorem edgeStart_col (g : Nat) (s : State) (n : Nat) : (edgeStart g s).col n = s.col n := by
  obtain ⟨gs, es, h⟩ := edgeStart_fab g s
  rw [State.col, h, State.col]

theorem edgeStart_within (g : Nat) (s : State) : Within (.fab :: .que :: events) s (edgeStart g s) :=
  State.modFab_within.mono.trans trigFires_within

theorem edgeStart_reg (g : Nat) (s : State) (o : Nat) : (edgeStart g s).reg o = s.reg o :=
  (edgeStart_within g s).frame .regs (by decide) o

/-- The edge itself, up to the operations of chambers. -/
def edgeLoads (clks : List Nat) (b : State) : State :=
  let t := settleKeepers b.nets b
  let t := forEach (b.fab.chambers.map (·.1)) (loadAtEdges b b.nets clks) t
  let t := forEach (chambersOn b clks) edgeCounts t
  let t := forEach ((chambersOn b clks).filter (· < 256)) (compareDigests b b.nets) t
  let t := forEach (chambersOn b clks) (deviceActs b b.nets) t
  forEach (governorsOn b clks) (countWaits b) t

/-- What follows the operations of chambers at an edge. -/
def edgeCloses (clks : List Nat) (b t : State) : State :=
  let t := groupsEnd b (dueGroups b clks) t
  let t := groupCounts b b.nets clks t
  let t := forEach (chambersOn b clks) (edgeEnds b) t
  (watchShafts (leaveUnreleased b clks t)).fresh

theorem bringEdge_eq (g : Nat) (s : State) : bringEdge g s = edgeCloses (coincident s g) (edgeStart g s)
    (forEach (governorsOn (edgeStart g s) (coincident s g))
      (chamberActs (edgeStart g s) (edgeStart g s).nets (dueGroups (edgeStart g s) (coincident s g)))
      (edgeLoads (coincident s g) (edgeStart g s))) := rfl

/-- A chamber outside lockstep, in a device that is in no pair, for which the device has nothing due. -/
structure Own (b : State) (c : Nat) : Prop where
  paired : b.paired = false
  lock : (b.col (colOf c)).lock = .off
  entering : (b.chm c).entering = 0
  holdDue : (b.chm c).holdDue = 0
  quarDue : (b.chm c).quarDue = []
  leaving : c ∉ b.fab.leaving

section
variable {b t : State} {c : Nat} {clks : List Nat}

theorem edgeLoads_seen (h : Own b c) : Seen c False b (edgeLoads clks b) := by
  obtain ⟨hpaired, hlock, hent, hhold, hquar, -⟩ := h
  have hcount : Seen c False b (forEach (chambersOn b clks) edgeCounts
      (forEach (b.fab.chambers.map (·.1)) (loadAtEdges b b.nets clks) (settleKeepers b.nets b))) :=
    (settleKeepers_seen.trans (.forEach fun _ _ _ _ => loadAtEdges_seen)).trans (.forEach fun _ _ _ _ => edgeCounts_seen)
  refine ((hcount.trans (.forEach fun n hn w hw => compareDigests_seen hlock ?_ ?_)).trans
    (.forEach fun x _ w _ => deviceActs_seen fun _ => ⟨hent, hhold, hquar⟩)).trans (.forEach fun _ _ _ _ => countWaits_seen)
  · simpa using (List.mem_filter.1 hn).2
  · exact hw.unpaired (hcount.unpaired hpaired)

theorem edgeCloses_seen (hpaired : t.paired = false) (hleave : c ∉ b.fab.leaving) : Seen c False t (edgeCloses clks b t) := by
  have hgroups : Seen c False t (groupCounts b b.nets clks (groupsEnd b (dueGroups b clks) t)) :=
    groupsEnd_seen.trans groupCounts_seen
  exact ((hgroups.trans (.forEach fun x _ w hw => edgeEnds_seen (hw.unpaired (hgroups.unpaired hpaired)))).trans
    (leaveUnreleased_seen hleave)).trans (watchShafts_seen.trans (.elsewhere State.fresh_within))

/-- What the operations at an edge make of a chamber that is to act there stays, when neither what happens elsewhere nor a
second entry of the chamber undoes it. -/
theorem governs_establishes {P : State → Prop} {v : Nets} {due l : List Nat} (h : Own b c)
    (hstays : ∀ t u, Seen c False t u → P t → P u)
    (hacts : ∀ t, Seen c False b t → P (chamberActs b v due c t))
    (hagain : ∀ t, Seen c True b t → P t → P (chamberActs b v due c t)) (hseen : Seen c True b t)
    (ht : Seen c False b t ∧ c ∈ l ∨ P t) :
    P (forEach l (chamberActs b v due) t) ∧ Seen c True b (forEach l (chamberActs b v due) t) := by
  induction l generalizing t with
  | nil => exact ⟨ht.resolve_left (fun h => by simpa using h.2), hseen⟩
  | cons g l ih =>
    have hact : Seen c (g = c) t (chamberActs b v due g t) := chamberActs_seen h.lock (hseen.lock.trans h.lock)
    refine ih (hseen.trans (hact.weaken fun _ => trivial)) ?_
    by_cases hg : g = c
    · subst hg
      exact .inr (ht.elim (fun ht => hacts t ht.1) (hagain t hseen))
    · have hstill : Seen c False t (chamberActs b v due g t) := hact.weaken hg
      refine ht.imp (fun ⟨ht, hmem⟩ => ⟨ht.trans hstill, ?_⟩) (hstays _ _ hstill)
      exact (List.mem_cons.1 hmem).resolve_left (Ne.symm hg)

end

/-- What an edge makes of a chamber that is to act there. -/
theorem bringEdge_establishes {P : State → Prop} {s b : State} {c g : Nat} (hb : edgeStart g s = b) (h : Own b c)
    (hin : c ∈ governorsOn b (coincident s g)) (hstays : ∀ t u, Seen c False t u → P t → P u)
    (hacts : ∀ t, Seen c False b t → P (chamberActs b b.nets (dueGroups b (coincident s g)) c t))
    (hagain : ∀ t, Seen c True b t → P t → P (chamberActs b b.nets (dueGroups b (coincident s g)) c t)) :
    P (bringEdge g s) ∧ Seen c True s (bringEdge g s) := by
  have hloads : Seen c False b (edgeLoads (coincident s g) b) := edgeLoads_seen h
  obtain ⟨hP, hseen⟩ := governs_establishes (l := governorsOn b (coincident s g)) h hstays hacts hagain hloads.any (.inl ⟨hloads, hin⟩)
  rw [bringEdge_eq, hb]
  have hcloses := edgeCloses_seen (clks := coincident s g) (hseen.unpaired h.paired) h.leaving
  have hstart : Seen c True s b := hb ▸ edgeStart_seen
  exact ⟨hstays _ _ hcloses hP, (hstart.trans hseen).trans hcloses.any⟩

/-- A chamber that is told of some state is listed with it. -/
theorem mem_of_tabGet {α : Type} {d : α} {t : List (Nat × α)} {k : Nat} (h : tabGet d t k ≠ d) : (k, tabGet d t k) ∈ t := by
  induction t with
  | nil => exact absurd rfl h
  | cons p t ih =>
    unfold tabGet at h ⊢
    split at h
    · next e => simp [e]
    · next e => simpa [e] using .inr (ih h)

theorem mem_coincident (s : State) (g : Nat) : g ∈ coincident s g := by
  simp only [coincident, List.mem_filter, List.mem_range, beq_self_eq_true, Bool.true_or, and_true]
  omega

/-- A released chamber outside lockstep acts at the edges of its own switch clock. -/
theorem mem_governorsOn {s b : State} {c g : Nat} (hlock : (b.col (colOf c)).lock = .off) (hrel : (b.chm c).released = true)
    (hclk : (b.chm c).swclkUse = g) : c ∈ governorsOn b (coincident s g) := by
  have hmem : (c, b.chm c) ∈ b.fab.chambers := mem_of_tabGet fun h => by
    rw [State.chm, h] at hrel
    cases hrel
  refine List.mem_filterMap.2 ⟨_, hmem, ?_⟩
  simp [hrel, gov_off hlock, lead_off hlock, hclk, mem_coincident]

end Sys2Proof

/-! What a switch, a hold, a release and a schedule do to the chamber itself (04_strata.md). -/

namespace Sys2Proof

open Sys2Proof.Machine

@[simp] theorem raise_chm (code : Nat) (fields : List Nat) (s : State) (c : Nat) : (raise code fields s).chm c = s.chm c := by
  rw [State.chm, raise_fab, State.chm]

theorem endIssuer_chm (d : Option (Nat × Nat)) (a r : Nat) (s : State) (c : Nat) : (endIssuer d a r s).chm c = s.chm c := by
  have h : (endIssuer d a r s).fab = s.fab := endIssuer_within.frame .fab (by decide)
  rw [State.chm, h, State.chm]

section
variable {b s : State} {v : Nets} {c : Nat}

theorem leaveRun_chm : ∃ h, (leaveRun b v c s).chm c = { s.chm c with portHold := h } := by
  unfold leaveRun
  split
  · exact ⟨_, chm_modChm_same _ _ _⟩
  · exact ⟨(s.chm c).portHold, rfl⟩

theorem holdTurn_chm (mask : BitVec 8) : (holdTurn c mask s).chm c = { s.chm c with turn := mask } := by
  unfold holdTurn
  exact chm_modChm_same _ _ _

theorem enterRun_chm : ∃ n, (enterRun c s).chm c = { s.chm c with turn := n } := by
  unfold enterRun
  split
  · exact ⟨_, holdTurn_chm _⟩
  · exact ⟨(s.chm c).turn, rfl⟩

/-- A chamber that has switched to stratum `k` at time `now`, before it turns its pins around. -/
def switched (x : Chamber) (k now : Nat) : Chamber :=
  { x with sel := k, swcnt := x.swcnt.add 1, lastsw := now, entering := 0
           fence := if (x.strat k).loaded then fenceOf (x.strat k).words else x.fence
           fenceBad := if (x.strat k).loaded then false else x.fenceBad }

theorem switchTo_same {k : Nat} (t : Bool) (rank : Nat) (h : k = (s.chm c).sel) : switchTo b v c k t rank s = s := if_pos h

theorem leftRun_chm (q : Prop) [Decidable q] :
    (if q then s else leaveRun b v c s).now = s.now ∧
      ∃ p, (if q then s else leaveRun b v c s).chm c = { s.chm c with portHold := p } := by
  split
  · exact ⟨rfl, _, rfl⟩
  · exact ⟨leaveRun_within.now, leaveRun_chm⟩

theorem turned_chm (q : Prop) [Decidable q] (mask : BitVec 8) :
    ∃ n, (if q then s else holdTurn c mask s).chm c = { s.chm c with turn := n } := by
  split
  · exact ⟨(s.chm c).turn, rfl⟩
  · exact ⟨mask, holdTurn_chm mask⟩

theorem told_chm (q : Prop) [Decidable q] (code : Nat) (fields : List Nat) :
    (if q then raise code fields s else s).chm c = s.chm c := by
  split
  · exact raise_chm _ _ _ _
  · rfl

/-- R136, R137. -/
theorem switchTo_chm {k : Nat} (t : Bool) (rank : Nat) (h : k ≠ (s.chm c).sel) :
    ∃ p n, (switchTo b v c k t rank s).chm c = { switched (s.chm c) k s.now with portHold := p, turn := n } := by
  unfold switchTo
  rw [if_neg h]
  dsimp only
  obtain ⟨hnow, p, hp⟩ := leftRun_chm (b := b) (s := s) (v := v) (c := c) (((s.strat c k).loaded && !(s.strat c k).quar) = true)
  generalize (if ((s.strat c k).loaded && !(s.strat c k).quar) = true then s else leaveRun b v c s) = u at hnow hp ⊢
  have hst : (s.chm c).strat k = s.strat c k := rfl
  split
  next hload =>
    refine ⟨p, ?_⟩
    obtain ⟨n, hn⟩ := turned_chm (c := c) (s := latchFence c k (u.modChm c fun x =>
      { x with sel := k, swcnt := x.swcnt.add 1, lastsw := u.now, entering := 0 })) (turnSlots s c (s.chm c).sel k = 0)
      (turnSlots s c (s.chm c).sel k)
    refine ⟨n, ?_⟩
    rw [told_chm, hn, latchFence, chm_modChm_same, chm_modChm_same, hp, hnow]
    simp only [switched, hst, hload, if_true]
    rfl
  next hload =>
    refine ⟨p, (s.chm c).turn, ?_⟩
    rw [raise_chm, chm_modChm_same, hp, hnow]
    simp only [switched, hst, hload]
    rfl

/-- A switch into a stratum that is not loaded is told (R137). -/
theorem switchTo_raised {k : Nat} (t : Bool) (rank : Nat) (h : k ≠ (s.chm c).sel) (hload : (s.strat c k).loaded = false) :
    Raised s (switchTo b v c k t rank s) 0x0302 [c, k, rank] := by
  unfold switchTo
  rw [if_neg h]
  dsimp only
  rw [if_neg (by simp [hload])]
  refine (raised_raise _ _ _).before (l := [.fab]) ?_
  exact (Within.ite .refl leaveRun_within).step State.modChm_within

/-- R167. -/
theorem holdChamber_spec {hsrc : Nat} (hstate : s.chmState c = 1) :
    (∃ p, (holdChamber b v c hsrc s).chm c = { s.chm c with portHold := p, hsrc := hsrc }) ∧
      Raised s (holdChamber b v c hsrc s) 0x0304 [c, hsrc] := by
  unfold holdChamber
  simp only [hstate]
  refine ⟨?_, (raised_raise _ _ _).before (leaveRun_within.step State.modChm_within)⟩
  obtain ⟨p, hp⟩ := leaveRun_chm (b := b) (v := v) (c := c) (s := s)
  exact ⟨p, by simp [hp]⟩

theorem holdChamber_held {hsrc : Nat} (hstate : s.chmState c = 4) (hsrc12 : hsrc = 1 ∨ hsrc = 2) :
    holdChamber b v c hsrc s = s := by
  unfold holdChamber
  simp [hstate, hsrc12]

/-- The fence register latches a pending stratum that is loaded, or its absence is told (R137, R175). -/
theorem pendFence_chm (q : Prop) [Decidable q] (k rank : Nat) :
    Within (.fab :: events) s (if q then if (s.strat c k).loaded = true then latchFence c k s else raise 0x0302 [c, k, rank] s else s) ∧
      ∃ f g, (if q then if (s.strat c k).loaded = true then latchFence c k s else raise 0x0302 [c, k, rank] s else s).chm c =
        { s.chm c with fence := f, fenceBad := g } := by
  split
  · split
    · exact ⟨latchFence_within.mono, _, _, chm_modChm_same _ _ _⟩
    · exact ⟨raise_within.mono, _, _, raise_chm _ _ _ _⟩
  · exact ⟨.refl, _, _, rfl⟩

theorem freshSlice_chm :
    Within [.fab] s (if c < 256 then s.modCol (colOf c) fun x => { x with slice := 0, digests := [] } else s) ∧
      (if c < 256 then s.modCol (colOf c) fun x => { x with slice := 0, digests := [] } else s).chm c = s.chm c := by
  split
  · exact ⟨State.modCol_within, rfl⟩
  · exact ⟨.refl, rfl⟩

/-- R169, R170. -/
theorem releaseChamber_frees {rank : Nat} (hstate : s.chmState c = 4) (hrefilled : ¬((s.chm c).hsrc = 3 ∧ notRefilled (s.chm c) ≠ [])) :
    ((releaseChamber c rank s).chm c).hsrc = 0 ∧ ((releaseChamber c rank s).chm c).pend = none ∧
      ((releaseChamber c rank s).chm c).cmd = (s.chm c).cmd ∧
      ((releaseChamber c rank s).chm c).sel = (s.chm c).pend.getD (s.chm c).sel ∧
      ((releaseChamber c rank s).chm c).swclkUse = s.regF (chmReg (s.gov c) 0x04) 0 5 ∧
      Raised s (releaseChamber c rank s) 0x0305 [c, (s.chm c).pend.getD (s.chm c).sel] := by
  unfold releaseChamber
  rw [if_neg (by simp [hstate]), if_neg hrefilled]
  dsimp only
  generalize hsel : (s.chm c).pend.getD (s.chm c).sel = sel
  generalize hu : s.modChm c _ = u
  have hchm : u.chm c = { s.chm c with hsrc := 0, pend := none, sel := sel, swclkUse := s.regF (chmReg (s.gov c) 0x04) 0 5 } := by
    rw [← hu]
    exact chm_modChm_same _ _ _
  have huw : Within [.fab] s u := hu ▸ State.modChm_within
  obtain ⟨hwithin, f, g, hw⟩ := pendFence_chm (c := c) (s := u) ((s.chm c).pend.isSome = true) sel rank
  generalize (if (s.chm c).pend.isSome = true then _ else u) = w at hwithin hw ⊢
  obtain ⟨hcolw, hcol⟩ := freshSlice_chm (c := c) (s := raise 0x0305 [c, sel] w)
  generalize (if c < 256 then _ else raise 0x0305 [c, sel] w) = y at hcolw hcol ⊢
  obtain ⟨n, hn⟩ := enterRun_chm (c := c) (s := y)
  have hfinal : (enterRun c y).chm c = { s.chm c with
      hsrc := 0, pend := none, sel := sel, swclkUse := s.regF (chmReg (s.gov c) 0x04) 0 5, fence := f, fenceBad := g, turn := n } := by
    rw [hn, hcol, raise_chm, hw, hchm]
  rw [hfinal]
  have hraised : Raised w (raise 0x0305 [c, sel] w) 0x0305 [c, sel] := raised_raise _ _ _
  exact ⟨rfl, rfl, rfl, rfl, rfl, (hraised.before (huw.mono.trans hwithin)).within (hcolw.mono.trans (l := [.fab, .pin]) enterRun_within)⟩

/-- R169, R170, outside lockstep. -/
theorem releaseChamber_spec {rank : Nat} (hstate : s.chmState c = 4) (hrefilled : ¬((s.chm c).hsrc = 3 ∧ notRefilled (s.chm c) ≠ []))
    (hlock : (s.col (colOf c)).lock = .off) :
    ((releaseChamber c rank s).chm c).hsrc = 0 ∧ ((releaseChamber c rank s).chm c).pend = none ∧
      ((releaseChamber c rank s).chm c).cmd = (s.chm c).cmd ∧
      ((releaseChamber c rank s).chm c).sel = (s.chm c).pend.getD (s.chm c).sel ∧
      ((releaseChamber c rank s).chm c).swclkUse = s.regF (chmReg c 0x04) 0 5 ∧
      Raised s (releaseChamber c rank s) 0x0305 [c, (s.chm c).pend.getD (s.chm c).sel] := by
  have hfrees := releaseChamber_frees (rank := rank) hstate hrefilled
  rwa [gov_off hlock] at hfrees

theorem releaseChamber_kept {rank : Nat} (hstate : s.chmState c ≠ 4) : releaseChamber c rank s = s := if_pos hstate

/-- R170: a repair hold that still has strata to refill. -/
theorem releaseChamber_unrefilled {rank : Nat} (hstate : s.chmState c = 4) (h : (s.chm c).hsrc = 3 ∧ notRefilled (s.chm c) ≠ []) :
    releaseChamber c rank s = raise 0x030B [c, (ofBits 4 (notRefilled (s.chm c))).toNat] s := by
  unfold releaseChamber
  rw [if_neg (by simp [hstate]), if_pos h]

/-- A chamber whose schedule has stopped. -/
theorem stopSchedule_chm (reason : Nat) : (stopSchedule c reason s).chm c = { s.chm c with schedRun := false } := by
  unfold stopSchedule
  dsimp only
  split
  · rw [raise_chm]
    exact chm_modChm_same _ _ _
  next h =>
    have h : (s.chm c).schedRun = false := by simpa using h
    rw [← h]

/-- A schedule that a higher source stops leaves everything else of the chamber. -/
theorem haltSchedule_chm (reason : Nat) (due : Option Nat) :
    ∃ a r, (haltSchedule c reason due s).chm c = { s.chm c with schedArmed := a, schedRun := r } := by
  unfold haltSchedule
  split
  · cases due with
    | none => exact ⟨_, _, rfl⟩
    | some e => exact ⟨false, (s.chm c).schedRun, by rw [raise_chm]; exact chm_modChm_same _ _ _⟩
  · exact ⟨(s.chm c).schedArmed, false, stopSchedule_chm reason⟩

theorem haltSchedule_running (reason : Nat) (due : Option Nat) (h : (s.chm c).schedArmed = false) :
    (haltSchedule c reason due s).chm c = { s.chm c with schedRun := false } := by
  unfold haltSchedule
  rw [if_neg (by simp [h])]
  exact stopSchedule_chm reason

theorem clearCmd_chm (d : ChmCmd) : (clearCmd c d s).chm c = { s.chm c with cmd := none } := by
  unfold clearCmd
  rw [endIssuer_chm, chm_modChm_same]

end

end Sys2Proof

/-! A command at the edge of its chamber (04_strata.md, The switch edge, Holding and releasing). -/

namespace Sys2Proof

open Sys2Proof.Machine

section
variable {s t b : State} {v : Nets} {c g : Nat} {due : List Nat}

theorem chmState_congr (hrst : t.rst = s.rst) (hrel : (t.chm c).released = (s.chm c).released)
    (hreloc : (t.chm c).reloc = (s.chm c).reloc) (hhsrc : (t.chm c).hsrc = (s.chm c).hsrc)
    (hent : (t.chm c).entering = (s.chm c).entering) (hsel : (t.chm c).sel = (s.chm c).sel)
    (hstrata : (t.chm c).strata = (s.chm c).strata) : t.chmState c = s.chmState c := by
  unfold State.chmState State.inReset Chamber.strat
  dsimp only
  rw [hsel, hrel, hreloc, hhsrc, hent, hstrata, hrst]

theorem edgeStart_chmState (x : Nat) : (edgeStart g s).chmState x = s.chmState x := by
  have hchm := edgeStart_chm g s x
  refine chmState_congr ((edgeStart_within g s).frame .rst (by decide)) ?_ ?_ ?_ ?_ ?_ ?_
  all_goals rw [hchm]

theorem edgeStart_dueCmd (x : Nat) : dueCmd (edgeStart g s) x = dueCmd s x := by
  rw [dueCmd, edgeStart_chm, dueCmd]

theorem edgeStart_own (h : ownEdge s c) : Own (edgeStart g s) c := by
  obtain ⟨-, hlock, hrole, hhold, hquar, hent, hleave⟩ := h
  refine ⟨(edgeStart_within g s).unpaired (by simp [State.paired, hrole]), ?_, ?_, ?_, ?_, ?_⟩
  · rw [edgeStart_col, hlock]
  · rw [edgeStart_chm, hent]
  · rw [edgeStart_chm, hhold]
  · rw [edgeStart_chm, hquar]
  · rw [edgeStart_leaving]
    simpa using hleave

/-- No group acts at an edge before which none waits and none is triggered. -/
theorem edgeStart_noFires (h : noFires s) (clks : List Nat) : dueGroups (edgeStart g s) clks = [] := by
  obtain ⟨w, hw⟩ : ∃ w, s.modFab (fun f =>
      { f with early := ((coincident s g).filter (clockRuns s)).foldl (fun t n => tabMod 0 t n (· + 1)) f.early }) = w := ⟨_, rfl⟩
  have hgrp : ∀ x, w.grp x = s.grp x := fun x => by rw [← hw]; rfl
  have hstart : edgeStart g s = w := by
    rw [edgeStart, hw]
    exact forEach_eq_self fun x _ => by simp [hgrp, (h x).2]
  rw [hstart]
  exact List.filter_eq_nil_iff.2 fun x _ => by simp [hgrp, (h x).1]

theorem edgeCan_spec (h : edgeCan s c = true) : (s.chm c).released = true ∧ s.chmState c ≠ 6 := by
  simp only [edgeCan, Bool.and_eq_true, bne_iff_ne] at h
  exact ⟨h.1.2, h.2⟩

/-- The edge of a command that is due. -/
theorem commandEdge_due {c : ChamberId} {d : ChmCmd} (hlock : (s.col (colOf c)).lock = .off) (hdue : dueCmd s c = some d)
    (hcan : edgeCan s c = true) : commandEdge d.op c s = bringEdge (s.chm c).swclkUse s := by
  unfold commandEdge bringChamberEdge
  simp only [gov_off hlock, lead_off hlock, hdue, hcan, and_self, if_true]

/-- What a command or a group finds at its edge: at most the schedule has been stopped and a command discarded. -/
structure Unscheduled (c : Nat) (t u : State) : Prop extends Seen c True t u where
  chm : ∃ a r m q, u.chm c = { t.chm c with schedArmed := a, schedRun := r, remain := m, cmd := q }

theorem Unscheduled.chmState (h : Unscheduled c s t) : t.chmState c = s.chmState c := by
  obtain ⟨a, r, m, q, hchm⟩ := h.chm
  refine chmState_congr (h.frame .rst (by decide)) ?_ ?_ ?_ ?_ ?_ ?_
  all_goals rw [hchm]

theorem remainCounts (p : Prop) [Decidable p] :
    Unscheduled c t (if p then t.modChm c fun x => { x with remain := x.remain - 1 } else t) ∧
      ((if p then t.modChm c fun x => { x with remain := x.remain - 1 } else t).chm c).schedArmed = (t.chm c).schedArmed := by
  split
  · exact ⟨⟨.modChm fun _ => trivial, _, _, _, _, chm_modChm_same _ _ _⟩, by rw [chm_modChm_same]⟩
  · exact ⟨⟨.refl, _, _, _, _, rfl⟩, rfl⟩

theorem Unscheduled.trans {u : State} (h : Unscheduled c s t) (h' : Unscheduled c t u) : Unscheduled c s u := by
  obtain ⟨a, r, m, q, hchm⟩ := h.chm
  obtain ⟨a', r', m', q', hchm'⟩ := h'.chm
  exact ⟨h.toSeen.trans h'.toSeen, a', r', m', q', by rw [hchm', hchm]⟩

theorem haltSchedule_unscheduled (p : Prop) [Decidable p] (reason : Nat) (e : Option Nat) :
    Unscheduled c t (if p then haltSchedule c reason e t else t) := by
  split
  · obtain ⟨a, r, h⟩ := haltSchedule_chm (s := t) (c := c) reason e
    exact ⟨haltSchedule_seen.weaken fun _ => trivial, a, r, _, _, h⟩
  · exact ⟨.refl, _, _, _, _, rfl⟩

/-- The schedule of a chamber at an edge at which a command or a group acts on it. -/
theorem schedule_unscheduled (p q : Prop) [Decidable p] [Decidable q] (reason : Nat) (e : Option Nat) :
    ∃ u, u = (if q then haltSchedule c reason e (if p then t.modChm c fun x => { x with remain := x.remain - 1 } else t)
        else if p then t.modChm c fun x => { x with remain := x.remain - 1 } else t) ∧
      Unscheduled c t u ∧ (q → (t.chm c).schedArmed = false → (u.chm c).schedArmed = false ∧ (u.chm c).schedRun = false) := by
  obtain ⟨hun, harm⟩ := remainCounts (c := c) (t := t) p
  refine ⟨_, rfl, hun.trans (haltSchedule_unscheduled q reason e), fun hq hoff => ?_⟩
  rw [if_pos hq, haltSchedule_running _ _ (harm.trans hoff)]
  exact ⟨harm.trans hoff, rfl⟩

/-- A command that is due acts, when no group does. -/
theorem chamberActs_command {d : ChmCmd} (hlock : (b.col (colOf c)).lock = .off) (hstate : b.chmState c ≠ 6)
    (hdue : dueCmd b c = some d) (hover : overruled b d.op c = false) (hgroup : groupTakes b due c = none) :
    ∃ u, chamberActs b v due c t = clearCmd c d (applyOp b v c d.op d.stratum d.t 3 u) ∧ Unscheduled c t u ∧
      (d.op = 1 → d.stratum ≠ (b.chm c).sel → (t.chm c).schedArmed = false →
        (u.chm c).schedArmed = false ∧ (u.chm c).schedRun = false) := by
  unfold chamberActs
  extract_lets ch ws fired entry w cmd
  obtain ⟨u, hu, hun, hstop⟩ := schedule_unscheduled (c := c) (t := t) ((ch.schedRun && schedMoves b c) = true)
    (stopsSchedule b c d.op d.stratum entry = true) 2 entry
  refine ⟨u, ?_, hun, fun hop hne => hstop ?_⟩
  · have hcmd : cmd = some d := (if_neg (by rw [lead_off hlock]; exact hstate)).trans hdue
    rw [hgroup, hcmd]
    simp only [hover]
    exact congrArg (fun u => clearCmd c d (applyOp b v c d.op d.stratum d.t 3 u)) hu.symm
  · simp only [stopsSchedule, hop, lead_off hlock]
    simp [hne]

theorem overruled_none (h : Own b c) (op : Nat) : overruled b op c = false := by
  simp [overruled, acting_off h.lock, deviceDue, h.holdDue, h.quarDue]

theorem applyOp_switch {k rank : Nat} {tt : Bool} (hlock : (b.col (colOf c)).lock = .off) (h4 : b.chmState c ≠ 4) (h5 : b.chmState c ≠ 5) :
    applyOp b v c 1 k tt rank s = switchTo b v c k tt rank s := by
  simp [applyOp, applySwitch, acting_off hlock, forEach_cons, forEach_nil, h4, h5]

theorem applyOp_pends {k rank : Nat} {tt : Bool} (hlock : (b.col (colOf c)).lock = .off) (h4 : b.chmState c = 4) :
    applyOp b v c 1 k tt rank s = s.modChm c fun ch => { ch with pend := some k } := by
  simp [applyOp, applySwitch, acting_off hlock, forEach_cons, forEach_nil, h4]

theorem applyOp_hold {k rank : Nat} {tt : Bool} (hlock : (b.col (colOf c)).lock = .off) :
    applyOp b v c 2 k tt rank s = holdChamber b v c (if rank = 2 then 2 else 1) s := by
  simp [applyOp, acting_off hlock, forEach_cons, forEach_nil]

theorem applyOp_release {k rank : Nat} {tt : Bool} (hlock : (b.col (colOf c)).lock = .off) :
    applyOp b v c 3 k tt rank s = releaseChamber c rank s := by
  simp [applyOp, acting_off hlock, forEach_cons, forEach_nil]

end

/-- A command that is due and does operation `op` takes effect at the edge of its chamber. -/
theorem command_establishes {P : State → Prop} {s : State} {c : ChamberId} {d : ChmCmd} (how : ownEdge s c) (hfires : noFires s)
    (hcmd : (s.chm c).cmd = some d) (hwait : d.wait = 0)
    (hstays : ∀ t u, Seen c False t u → P t → P u)
    (hacts : ∀ b v t u, (∀ x, b.chmState x = s.chmState x) → Own b c → Seen c False s t → Unscheduled c t u →
      (d.op = 1 → d.stratum ≠ (s.chm c).sel → (t.chm c).schedArmed = false → (u.chm c).schedArmed = false ∧ (u.chm c).schedRun = false) →
      P (clearCmd c d (applyOp b v c d.op d.stratum d.t 3 u)))
    (hagain : ∀ b v t u, (∀ x, b.chmState x = s.chmState x) → Own b c → Seen c True s t → P t → Unscheduled c t u →
      (d.op = 1 → d.stratum ≠ (s.chm c).sel → (t.chm c).schedArmed = false → (u.chm c).schedArmed = false ∧ (u.chm c).schedRun = false) →
      P (clearCmd c d (applyOp b v c d.op d.stratum d.t 3 u))) :
    P (commandEdge d.op c s) ∧ Seen c True s (commandEdge d.op c s) := by
  have hlock := how.2.1
  obtain ⟨hrel, hstate⟩ := edgeCan_spec how.1
  have hdue : dueCmd s c = some d := by simp [dueCmd, hcmd, hwait]
  rw [commandEdge_due hlock hdue how.1]
  obtain ⟨b, hb⟩ : ∃ b, edgeStart (s.chm c).swclkUse s = b := ⟨_, rfl⟩
  have hchm : ∀ x, b.chm x = s.chm x := fun x => hb ▸ edgeStart_chm _ _ x
  have hst : ∀ x, b.chmState x = s.chmState x := fun x => hb ▸ edgeStart_chmState x
  have hown : Own b c := hb ▸ edgeStart_own how
  have hnone : dueGroups b (coincident s (s.chm c).swclkUse) = [] := hb ▸ edgeStart_noFires hfires _
  have hsb : Seen c False s b := hb ▸ edgeStart_seen
  have hcommand : ∀ t, ∃ u, chamberActs b b.nets [] c t = clearCmd c d (applyOp b b.nets c d.op d.stratum d.t 3 u) ∧
      Unscheduled c t u ∧ (d.op = 1 → d.stratum ≠ (s.chm c).sel → (t.chm c).schedArmed = false →
        (u.chm c).schedArmed = false ∧ (u.chm c).schedRun = false) := fun t => by
    have h := chamberActs_command (v := b.nets) (t := t) (due := []) hown.lock (by rw [hst]; exact hstate)
      (by rw [← hb, edgeStart_dueCmd, hdue]) (overruled_none hown d.op) rfl
    rwa [hchm] at h
  refine bringEdge_establishes hb hown (mem_governorsOn hown.lock (by rw [hchm, hrel]) (by rw [hchm])) hstays ?_ ?_
  · intro t ht
    rw [hnone]
    obtain ⟨u, hu, hun, hsched⟩ := hcommand t
    rw [hu]
    exact hacts b b.nets t u hst hown (hsb.trans ht) hun hsched
  · intro t ht hP
    rw [hnone]
    obtain ⟨u, hu, hun, hsched⟩ := hcommand t
    rw [hu]
    exact hagain b b.nets t u hst hown (hsb.any.trans ht) hP hun hsched

end Sys2Proof

/-! SWITCH at its edge (R134, R136, R137, R168, R175), and a quarantine that waited for one (R98, R166). -/

namespace Sys2Proof

open Sys2Proof.Machine

namespace Seen

variable {c : Nat} {s t : State}

theorem sel (h : Seen c False s t) : (t.chm c).sel = (s.chm c).sel := (congrArg Chamber.sel (h.kept id) :)
theorem pend (h : Seen c False s t) : (t.chm c).pend = (s.chm c).pend := (congrArg Chamber.pend (h.kept id) :)
theorem hsrc (h : Seen c False s t) : (t.chm c).hsrc = (s.chm c).hsrc := (congrArg Chamber.hsrc (h.kept id) :)
theorem swclkUse (h : Seen c False s t) : (t.chm c).swclkUse = (s.chm c).swclkUse := (congrArg Chamber.swclkUse (h.kept id) :)
theorem schedArmed (h : Seen c False s t) : (t.chm c).schedArmed = (s.chm c).schedArmed := (congrArg Chamber.schedArmed (h.kept id) :)
theorem schedRun (h : Seen c False s t) : (t.chm c).schedRun = (s.chm c).schedRun := (congrArg Chamber.schedRun (h.kept id) :)
theorem entry (h : Seen c False s t) : (t.chm c).entry = (s.chm c).entry := (congrArg Chamber.entry (h.kept id) :)
theorem remain (h : Seen c False s t) : (t.chm c).remain = (s.chm c).remain := (congrArg Chamber.remain (h.kept id) :)
theorem nextEntry (h : Seen c False s t) : (t.chm c).nextEntry = (s.chm c).nextEntry := (congrArg Chamber.nextEntry (h.kept id) :)
theorem swcnt (h : Seen c False s t) : (t.chm c).swcnt = (s.chm c).swcnt := (congrArg Chamber.swcnt (h.kept id) :)
theorem lastsw (h : Seen c False s t) : (t.chm c).lastsw = (s.chm c).lastsw := (congrArg Chamber.lastsw (h.kept id) :)
theorem fence (h : Seen c False s t) : (t.chm c).fence = (s.chm c).fence := (congrArg Chamber.fence (h.kept id) :)

theorem loaded {m : Prop} (h : Seen c m s t) (k : Nat) : ((t.chm c).strat k).loaded = ((s.chm c).strat k).loaded :=
  (congrArg Stratum.loaded (h.strata k) :)
theorem words {m : Prop} (h : Seen c m s t) (k : Nat) : ((t.chm c).strat k).words = ((s.chm c).strat k).words :=
  (congrArg Stratum.words (h.strata k) :)
theorem quar {m : Prop} (h : Seen c m s t) (k : Nat) : ((t.chm c).strat k).quar = ((s.chm c).strat k).quar :=
  (congrArg Stratum.quar (h.strata k) :)
theorem needRefill {m : Prop} (h : Seen c m s t) (k : Nat) : ((t.chm c).strat k).needRefill = ((s.chm c).strat k).needRefill :=
  (congrArg Stratum.needRefill (h.strata k) :)

end Seen

/-- Chamber `c` has switched into the loaded stratum `k` since `s`. -/
structure SwitchedInto (s : State) (c k : Nat) (t : State) : Prop where
  sel : (t.chm c).sel = k
  cmd : (t.chm c).cmd = none
  swcnt : (t.chm c).swcnt = (s.chm c).swcnt.add 1
  lastsw : (t.chm c).lastsw = s.now
  fence : (t.chm c).fence = fenceOf (s.strat c k).words
  schedRun : (t.chm c).schedRun = false
  schedArmed : (t.chm c).schedArmed = false

theorem switchedInto_stays {s t u : State} {c k : Nat} (h : Seen c False t u) (hP : SwitchedInto s c k t) : SwitchedInto s c k u :=
  ⟨h.sel.trans hP.sel, h.idle id hP.cmd, h.swcnt.trans hP.swcnt, h.lastsw.trans hP.lastsw, h.fence.trans hP.fence,
    h.schedRun.trans hP.schedRun, h.schedArmed.trans hP.schedArmed⟩

theorem switch_loaded {s : State} {c : ChamberId} {v : Nat} {d : Bool} (hcmd : (s.chm c).cmd = some ⟨1, v, d, none, 0⟩)
    (how : ownEdge s c) (hfires : noFires s) (harm : (s.chm c).schedArmed = false) (hrun : s.chmState c = 1)
    (hne : v ≠ (s.chm c).sel) (hload : (s.strat c v).loaded = true) :
    SwitchedInto s c v (commandEdge 1 c s) ∧ Seen c True s (commandEdge 1 c s) := by
  refine command_establishes (d := ⟨1, v, d, none, 0⟩) how hfires hcmd rfl (fun t u => switchedInto_stays) ?_ ?_
  · intro b w t u hst hown hseen hun hsched
    obtain ⟨hua, hur⟩ := hsched rfl hne (hseen.schedArmed.trans harm)
    obtain ⟨a, r, m, q, hu⟩ := hun.chm
    have hsel : (u.chm c).sel = (s.chm c).sel := by rw [hu]; exact hseen.sel
    rw [applyOp_switch hown.lock (by rw [hst, hrun]; decide) (by rw [hst, hrun]; decide)]
    obtain ⟨p, n, hchm⟩ := switchTo_chm (b := b) (v := w) (s := u) (c := c) (k := v) d 3 (by rw [hsel]; exact hne)
    have hl : ((u.chm c).strat v).loaded = true := (hun.loaded v).trans ((hseen.loaded v).trans hload)
    have hw : ((u.chm c).strat v).words = (s.strat c v).words := (hun.words v).trans (hseen.words v)
    constructor
    all_goals rw [clearCmd_chm, hchm]
    · rfl
    · rw [hu]
      exact congrArg (fun n => Ctr.add n 1) hseen.swcnt
    · exact hun.now.trans hseen.now
    · simp only [switched, hl, if_true, hw]
    · exact hur
    · exact hua
  · intro b w t u hst hown hseen hP hun hsched
    obtain ⟨hua, hur⟩ := hsched rfl hne hP.schedArmed
    obtain ⟨a, r, m, q, hu⟩ := hun.chm
    have hsel : (u.chm c).sel = v := by rw [hu]; exact hP.sel
    rw [applyOp_switch hown.lock (by rw [hst, hrun]; decide) (by rw [hst, hrun]; decide), switchTo_same d 3 hsel.symm]
    constructor
    all_goals rw [clearCmd_chm]
    · exact hsel
    · rw [hu]
      exact hP.swcnt
    · rw [hu]
      exact hP.lastsw
    · rw [hu]
      exact hP.fence
    · exact hur
    · exact hua

/-- Chamber `c` has switched into stratum `k`, which is not loaded. -/
structure SwitchedVacant (s : State) (c k : Nat) (t : State) : Prop where
  sel : (t.chm c).sel = k
  cmd : (t.chm c).cmd = none
  fence : (t.chm c).fence = (s.chm c).fence
  told : Raised s t 0x0302 [c, k, 3]

theorem switchedVacant_stays {s t u : State} {c k : Nat} (h : Seen c False t u) (hP : SwitchedVacant s c k t) :
    SwitchedVacant s c k u :=
  ⟨h.sel.trans hP.sel, h.idle id hP.cmd, h.fence.trans hP.fence, hP.told.within h.toWithin⟩

theorem switch_vacant {s : State} {c : ChamberId} {v : Nat} {d : Bool} (hcmd : (s.chm c).cmd = some ⟨1, v, d, none, 0⟩)
    (how : ownEdge s c) (hfires : noFires s) (hrun : s.chmState c = 1) (hne : v ≠ (s.chm c).sel)
    (hload : (s.strat c v).loaded = false) :
    SwitchedVacant s c v (commandEdge 1 c s) ∧ Seen c True s (commandEdge 1 c s) := by
  refine command_establishes (d := ⟨1, v, d, none, 0⟩) how hfires hcmd rfl (fun t u => switchedVacant_stays) ?_ ?_
  · intro b w t u hst hown hseen hun _
    obtain ⟨a, r, m, q, hu⟩ := hun.chm
    have hsel : v ≠ (u.chm c).sel := by rw [hu]; exact fun h => hne (h.trans hseen.sel)
    rw [applyOp_switch hown.lock (by rw [hst, hrun]; decide) (by rw [hst, hrun]; decide)]
    obtain ⟨p, n, hchm⟩ := switchTo_chm (b := b) (v := w) (s := u) (c := c) (k := v) d 3 hsel
    have hl : ((u.chm c).strat v).loaded = false := (hun.loaded v).trans ((hseen.loaded v).trans hload)
    have htold := (switchTo_raised (b := b) (v := w) d 3 hsel hl).before (hseen.toWithin.trans hun.toWithin)
    refine ⟨?_, ?_, ?_, htold.within clearCmd_within⟩
    all_goals rw [clearCmd_chm, hchm]
    · rfl
    · simp only [switched, hl]
      rw [hu]
      exact hseen.fence
  · intro b w t u hst hown hseen hP hun _
    obtain ⟨a, r, m, q, hu⟩ := hun.chm
    have hsel : (u.chm c).sel = v := by rw [hu]; exact hP.sel
    rw [applyOp_switch hown.lock (by rw [hst, hrun]; decide) (by rw [hst, hrun]; decide), switchTo_same d 3 hsel.symm]
    refine ⟨?_, ?_, ?_, (hP.told.within hun.toWithin).within clearCmd_within⟩
    all_goals rw [clearCmd_chm]
    · exact hsel
    · rw [hu]
      exact hP.fence

/-- A held chamber `c` has taken stratum `k` as its pending one. -/
structure Pends (s : State) (c k : Nat) (t : State) : Prop where
  sel : (t.chm c).sel = (s.chm c).sel
  pend : (t.chm c).pend = some k
  cmd : (t.chm c).cmd = none
  hsrc : (t.chm c).hsrc = (s.chm c).hsrc

theorem pends_stays {s t u : State} {c k : Nat} (h : Seen c False t u) (hP : Pends s c k t) : Pends s c k u :=
  ⟨h.sel.trans hP.sel, h.pend.trans hP.pend, h.idle id hP.cmd, h.hsrc.trans hP.hsrc⟩

theorem switch_held {s : State} {c : ChamberId} {v : Nat} {d : Bool} (hcmd : (s.chm c).cmd = some ⟨1, v, d, none, 0⟩)
    (how : ownEdge s c) (hfires : noFires s) (hheld : s.chmState c = 4) :
    Pends s c v (commandEdge 1 c s) ∧ Seen c True s (commandEdge 1 c s) := by
  have hacts : ∀ {b w t u}, (∀ x, b.chmState x = s.chmState x) → Own b c → (t.chm c).sel = (s.chm c).sel →
      (t.chm c).hsrc = (s.chm c).hsrc → Unscheduled c t u → Pends s c v (clearCmd c ⟨1, v, d, none, 0⟩ (applyOp b w c 1 v d 3 u)) := by
    intro b w t u hst hown hsel hhsrc hun
    obtain ⟨a, r, m, q, hu⟩ := hun.chm
    rw [applyOp_pends hown.lock (by rw [hst, hheld])]
    constructor
    all_goals rw [clearCmd_chm, chm_modChm_same, hu]
    · exact hsel
    · exact hhsrc
  refine command_establishes (d := ⟨1, v, d, none, 0⟩) how hfires hcmd rfl (fun t u => pends_stays) ?_ ?_
  · intro b w t u hst hown hseen hun _
    exact hacts hst hown hseen.sel hseen.hsrc hun
  · intro b w t u hst hown hseen hP hun _
    exact hacts hst hown hP.sel hP.hsrc hun

end Sys2Proof

/-! A quarantine that waited for the edge of its chamber (R98, R166), and the switch edge as a whole. -/

namespace Sys2Proof

open Sys2Proof.Machine

/-- A loop in a device that is in no pair. -/
theorem Within.forEach_alone {α : Type} {l : List Part} {xs : List α} {f : α → State → State} {s : State}
    (hpaired : s.paired = false) (h : ∀ a w, w.paired = false → Within l w (f a w)) : Within l s (Machine.forEach xs f s) := by
  induction xs generalizing s with
  | nil => exact .refl
  | cons a xs ih => exact (h a s hpaired).trans (ih ((h a s hpaired).unpaired hpaired))

theorem lockDetect_alone {n mask : Nat} {a b : Word} {s : State} (hpaired : s.paired = false) :
    Within (.fab :: .lib :: events) s (lockDetect n mask a b s) := by
  have hpair : ∀ u : State, u.twn = s.twn → u.paired ≠ true := fun u hu => by
    rw [State.paired, hu]
    exact Bool.eq_false_iff.1 hpaired
  unfold lockDetect
  dsimp only
  split
  next h => exact absurd h (hpair _ (raise_twn _ _ s))
  exact raise_within.mono.step State.modCol_within |>.step State.modLib_within |>.step quarantineAtEdge_within |>.step
    quarantineAtEdge_within

theorem compareDigests_alone {b s : State} {v : Nets} {n : Nat} (hpaired : s.paired = false) :
    Within (.fab :: .lib :: events) s (compareDigests b v n s) := by
  unfold compareDigests
  refine .ite .refl ?_
  split
  · exact State.modCol_within.mono.trans (.ite .refl (lockDetect_alone hpaired))
  · exact State.modCol_within.mono

theorem edgeEnds_alone {b s : State} {c : Nat} (hpaired : s.paired = false) :
    Within (.fab :: .pin :: events) s (edgeEnds b c s) := by
  have hrun : Within (.fab :: .pin :: events) s
      (if (b.chm c).entering ≠ 0 ∧ (s.chm c).sel = (b.chm c).sel then enterRun c s else s) := .ite enterRun_within.mono .refl
  unfold edgeEnds
  dsimp only
  rw [afterSwitch_alone (hrun.unpaired hpaired)]
  exact hrun.step deliverParked_within

/-- An edge changes what happens at edges only, in a device that is in no pair. -/
theorem bringEdge_alone {s : State} {g : Nat} (hpaired : s.paired = false) : Within edgeParts s (bringEdge g s) := by
  rw [bringEdge_eq]
  obtain ⟨b, hb⟩ : ∃ b, edgeStart g s = b := ⟨_, rfl⟩
  rw [hb]
  have hstart : Within edgeParts s b := hb ▸ (edgeStart_within g s).mono
  have hcount : Within edgeParts s (forEach (chambersOn b (coincident s g)) edgeCounts
      (forEach (b.fab.chambers.map (·.1)) (loadAtEdges b b.nets (coincident s g)) (settleKeepers b.nets b))) :=
    (hstart.step settleKeepers_within).trans (.forEach fun _ _ => loadAtEdges_within.mono)
      |>.trans (.forEach fun _ _ => edgeCounts_within.mono)
  have hacted : Within edgeParts s (groupCounts b b.nets (coincident s g) (groupsEnd b (dueGroups b (coincident s g))
      (forEach (governorsOn b (coincident s g)) (chamberActs b b.nets (dueGroups b (coincident s g)))
        (edgeLoads (coincident s g) b)))) :=
    hcount.trans (.forEach_alone (hcount.unpaired hpaired) fun _ _ h => (compareDigests_alone h).mono)
      |>.trans (.forEach fun _ _ => deviceActs_within.mono) |>.trans (.forEach fun _ _ => countWaits_within.mono)
      |>.trans (.forEach fun _ _ => chamberActs_within.mono) |>.step groupsEnd_within |>.step groupCounts_within
  exact hacted.trans (.forEach_alone (hacted.unpaired hpaired) fun _ _ h => (edgeEnds_alone h).mono)
    |>.step leaveUnreleased_within |>.step watchShafts_within |>.step State.fresh_within

section
variable {b s t : State} {c : Nat} {v : Nets}

/-- Stratum `k` of chamber `c` stands quarantined since `s`, and nothing of it waits. -/
structure QuarantineDone (s : State) (c k cause : Nat) (t : State) : Prop where
  quar : (t.strat c k).quar = true
  listed : ∀ p ∈ (t.chm c).strata, p.1 = k → p.2.quar = true
  quarDue : (t.chm c).quarDue = []
  told : Raised s t 0x0303 [c, k, cause]
  lock : (t.col (colOf c)).lock = .off
  paired : t.paired = false

theorem quarantineDone_stays {u : State} {k cause : Nat} {m : Prop} (hP : QuarantineDone s c k cause t) (h : Seen c m t u) :
    QuarantineDone s c k cause u := by
  refine ⟨(h.quar k).trans hP.quar, fun p hp hk => ?_, (congrArg Chamber.quarDue h.fixed :).trans hP.quarDue,
    hP.told.within h.toWithin, h.lock.trans hP.lock, h.unpaired hP.paired⟩
  rcases h.listed p hp with hkept | ⟨q, hq, hqk, hkept⟩
  · have hquar : p.2.quar = ((t.chm c).strat p.1).quar := (congrArg Stratum.quar hkept :)
    rw [hquar, hk]
    exact hP.quar
  · have hquar : q.2.quar = p.2.quar := (congrArg Stratum.quar hkept :)
    rw [← hquar]
    exact hP.listed q hq (hqk.trans hk)

/-- What a part of an edge does to a chamber whose quarantine is done, and to every other. -/
theorem QuarantineDone.forEach {k cause : Nat} {f : Nat → State → State} {l : List Nat} (hP : QuarantineDone s c k cause t)
    (h : ∀ x ∈ l, ∀ w, QuarantineDone s c k cause w → QuarantineDone s c k cause (f x w)) :
    QuarantineDone s c k cause (Machine.forEach l f t) := by
  induction l generalizing t with
  | nil => exact hP
  | cons x l ih => exact ih (h x (by simp) t hP) fun y hy => h y (by simp [hy])

/-- The stratum in effect is quarantined. -/
theorem quarantineOne_done {k cause : Nat} (hst : Within edgeParts s t) (hquar : (t.strat c k).quar = false)
    (hdue : (t.chm c).quarDue = []) (hlock : (t.col (colOf c)).lock = .off) (hpaired : t.paired = false) :
    QuarantineDone s c k cause (quarantineOne b v c k cause t) := by
  obtain ⟨w, hw⟩ : ∃ w, (if (t.chm c).sel = k then leaveRun b v c t else t) = w := ⟨_, rfl⟩
  have hchm : ∃ p, w.chm c = { t.chm c with portHold := p } := by
    rw [← hw]
    split
    · exact leaveRun_chm
    · exact ⟨_, rfl⟩
  have htw : Within [.fab] t w := hw ▸ .ite leaveRun_within .refl
  have hcol : (w.col (colOf c)).lock = .off := by
    have hseen : Seen c False t w := hw ▸ .ite (fun _ => leaveRun_seen) fun _ => .refl
    exact hseen.lock.trans hlock
  obtain ⟨p, hp⟩ := hchm
  have heq : quarantineOne b v c k cause t = raise 0x0303 [c, k, cause] (w.modStrat c k fun st => { st with quar := true }) := by
    unfold quarantineOne
    rw [if_neg (by simp [hquar]), ← hw]
  rw [heq]
  refine ⟨?_, fun q hq hk => ?_, ?_, ?_, hcol, ?_⟩
  · rw [State.strat, raise_chm, State.modStrat, chm_modChm_same, Chamber.modStrat, Chamber.strat]
    simp
  · rw [raise_chm, State.modStrat, chm_modChm_same] at hq
    replace hq : q ∈ tabMod {} (w.chm c).strata k fun st => { st with quar := true } := hq
    rcases mem_tabMod hq with ⟨-, hne⟩ | rfl
    · exact absurd hk hne
    · rfl
  · rw [raise_chm, State.modStrat, chm_modChm_same, hp]
    exact hdue
  · exact (raised_raise _ _ _).before (hst.trans (htw.mono.step State.modStrat_within))
  · exact (htw.trans State.modStrat_within |>.mono.step (l := .fab :: events) raise_within).unpaired hpaired

/-- The chamber's device acts on its one waiting quarantine. -/
theorem deviceActs_quarantines {k cause : Nat} (hst : Within edgeParts s t) (hent : (b.chm c).entering = 0)
    (hhold : (b.chm c).holdDue = 0) (hdue : (b.chm c).quarDue = [(k, cause)]) (hsel : (b.chm c).sel = k)
    (hstate : (t.chm c).quarDue = [(k, cause)] ∧ (t.strat c k).quar = false ∧ (t.col (colOf c)).lock = .off ∧ t.paired = false ∨
      QuarantineDone s c k cause t) :
    QuarantineDone s c k cause (deviceActs b v c t) := by
  obtain ⟨u, hu⟩ : ∃ u, t.modChm c (fun x => { x with quarDue := x.quarDue.drop 1 }) = u := ⟨_, rfl⟩
  have heq : deviceActs b v c t =
      if cause = 3 then (quarantineOne b v c k cause u).modCol (colOf c) fun x => { x with diagStratum := k }
      else quarantineOne b v c k cause u := by
    unfold deviceActs
    simp only [hent, hhold, hdue, hsel, forEach_cons, forEach_nil, ← hu]
    rfl
  have hchm : u.chm c = { t.chm c with quarDue := (t.chm c).quarDue.drop 1 } := hu ▸ chm_modChm_same _ _ _
  have hsu : Within edgeParts s u := hst.trans (hu ▸ State.modChm_within.mono)
  have hdone : QuarantineDone s c k cause (quarantineOne b v c k cause u) := by
    rcases hstate with ⟨hwait, hquar, hlock, hpaired⟩ | hP
    · refine quarantineOne_done hsu ?_ ?_ (hu ▸ hlock) (hu ▸ hpaired)
      · rw [State.strat, hchm]
        exact hquar
      · rw [hchm, hwait]
        rfl
    · have hPu : QuarantineDone s c k cause u := by
        refine ⟨?_, ?_, ?_, hP.told.within (hu ▸ State.modChm_within), hu ▸ hP.lock, hu ▸ hP.paired⟩
        · rw [State.strat, hchm]
          exact hP.quar
        · rw [hchm]
          exact hP.listed
        · rw [hchm, hP.quarDue]
          rfl
      rwa [quarantineOne, if_pos hPu.quar]
  rw [heq]
  split
  · exact quarantineDone_stays (m := False) hdone .modCol
  · exact hdone

/-- What holds of one key's entries holds of them when every entry has been rewritten. -/
theorem rewritten_key {α : Type} [DecidableEq α] {P : α → Prop} (d : α) (f : Nat × α → α) (k : Nat) (l t : List (Nat × α))
    (hl : ∀ p ∈ l, p.1 = k → P (f p)) (ht : ∀ p ∈ t, p.1 = k → P p.2) (hget : P (tabGet d t k)) :
    (∀ p ∈ l.foldl (fun u p => tabSet d u p.1 (f p)) t, p.1 = k → P p.2) ∧
      P (tabGet d (l.foldl (fun u p => tabSet d u p.1 (f p)) t) k) := by
  induction l generalizing t with
  | nil => exact ⟨ht, hget⟩
  | cons q l ih =>
    refine ih _ (fun p hp => hl p (by simp [hp])) (fun p hp hk => ?_) ?_
    · have hp : p ∈ tabMod d t q.1 fun _ => f q := hp
      rcases mem_tabMod hp with ⟨hp, -⟩ | rfl
      · exact ht p hp hk
      · exact hl q (by simp) hk
    · rw [tabGet_tabSet]
      split
      next hk => exact hl q (by simp) hk.symm
      · exact hget

/-- A chamber that leaves UNRELEASED keeps its quarantine. -/
theorem releaseOne_quarantineDone {k cause : Nat} (hP : QuarantineDone s c k cause t) (x : Nat) :
    QuarantineDone s c k cause (releaseOne x t) := by
  by_cases hx : x = c
  · subst hx
    obtain ⟨hlisted, hget⟩ := rewritten_key (P := fun y => y.quar = true) ({} : Stratum)
      (fun p => { p.2 with ffs := if p.2.loaded then initBits p.2.words else 0 }) k (t.chm x).strata (t.chm x).strata
      hP.listed hP.listed hP.quar
    have hstrata : ((releaseOne x t).chm x).strata = (t.chm x).strata.foldl (fun u p => tabSet ({} : Stratum) u p.1
        { p.2 with ffs := if p.2.loaded then initBits p.2.words else 0 }) (t.chm x).strata ∧
        ((releaseOne x t).chm x).quarDue = (t.chm x).quarDue ∧ (releaseOne x t).fab.columns = t.fab.columns := by
      unfold releaseOne
      dsimp only
      split
      · exact ⟨by rw [chm_modChm_same], by rw [chm_modChm_same], rfl⟩
      · exact ⟨by rw [raise_chm, chm_modChm_same], by rw [raise_chm, chm_modChm_same], by rw [raise_fab]; rfl⟩
    obtain ⟨hstrata, hdue, hcols⟩ := hstrata
    refine ⟨?_, ?_, hdue.trans hP.quarDue, hP.told.within releaseOne_within, ?_, releaseOne_within.unpaired hP.paired⟩
    · rw [State.strat, Chamber.strat, hstrata]
      exact hget
    · rw [hstrata]
      exact hlisted
    · rw [State.col, hcols]
      exact hP.lock
  · exact quarantineDone_stays (m := False) hP (releaseOne_seen hx)

theorem leaveUnreleased_quarantineDone {k cause : Nat} {clks : List Nat} (hP : QuarantineDone s c k cause t) :
    QuarantineDone s c k cause (leaveUnreleased b clks t) := by
  unfold leaveUnreleased
  dsimp only
  split
  · exact hP
  · exact quarantineDone_stays (m := False) (hP.forEach fun x _ w hP => releaseOne_quarantineDone hP x)
      (.fabric State.modFab_within rfl rfl)

end

/-- What an edge makes of a quarantine that waited for it. -/
theorem bringEdge_quarantines {s : State} {c k cause : Nat} (hcan : edgeCan s c = true) (hlock : (s.col (colOf c)).lock = .off)
    (hrole : s.twn.role = 0) (hhold : (s.chm c).holdDue = 0) (hent : (s.chm c).entering = 0)
    (hdue : (s.chm c).quarDue = [(k, cause)]) (hsel : (s.chm c).sel = k) (hquar : (s.strat c k).quar = false) :
    QuarantineDone s c k cause (bringEdge (s.chm c).swclkUse s) := by
  obtain ⟨clks, hclks⟩ : ∃ clks, coincident s (s.chm c).swclkUse = clks := ⟨_, rfl⟩
  obtain ⟨b, hb⟩ : ∃ b, edgeStart (s.chm c).swclkUse s = b := ⟨_, rfl⟩
  rw [bringEdge_eq, hb, hclks]
  have hchm : b.chm c = s.chm c := hb ▸ edgeStart_chm _ _ c
  have hsb : Seen c False s b := hb ▸ edgeStart_seen
  have hblock : (b.col (colOf c)).lock = .off := hsb.lock.trans hlock
  have hpaired : b.paired = false := hsb.unpaired (by simp [State.paired, hrole])
  obtain ⟨t, ht⟩ : ∃ t, forEach ((chambersOn b clks).filter (· < 256)) (compareDigests b b.nets)
      (forEach (chambersOn b clks) edgeCounts (forEach (b.fab.chambers.map (·.1)) (loadAtEdges b b.nets clks)
        (settleKeepers b.nets b))) = t := ⟨_, rfl⟩
  have hcount : Seen c False b (forEach (chambersOn b clks) edgeCounts
      (forEach (b.fab.chambers.map (·.1)) (loadAtEdges b b.nets clks) (settleKeepers b.nets b))) :=
    (settleKeepers_seen.trans (.forEach fun _ _ _ _ => loadAtEdges_seen)).trans (.forEach fun _ _ _ _ => edgeCounts_seen)
  have hbt : Seen c False b t := by
    rw [← ht]
    refine hcount.trans (.forEach fun n hn w hw => compareDigests_seen hblock ?_ (hw.unpaired (hcount.unpaired hpaired)))
    simpa using (List.mem_filter.1 hn).2
  have hon : c ∈ chambersOn b clks := by
    obtain ⟨hrel, -⟩ := edgeCan_spec hcan
    have hmem : (c, b.chm c) ∈ b.fab.chambers := mem_of_tabGet fun h => by
      rw [← hchm, State.chm, h] at hrel
      cases hrel
    refine List.mem_filterMap.2 ⟨_, hmem, ?_⟩
    simp [hchm, hrel, ← hclks, mem_coincident]
  have hacts : QuarantineDone s c k cause (forEach (chambersOn b clks) (deviceActs b b.nets) t) := by
    have hstep : ∀ w, Seen c False b w ∨ QuarantineDone s c k cause w → Within edgeParts s w →
        QuarantineDone s c k cause (deviceActs b b.nets c w) := fun w hw hsw =>
      deviceActs_quarantines hsw (hchm ▸ hent) (hchm ▸ hhold) (hchm ▸ hdue) (hchm ▸ hsel)
        (hw.imp_left fun (hw : Seen c False b w) => ⟨(congrArg Chamber.quarDue hw.fixed :).trans (hchm ▸ hdue),
          (hw.quar k).trans (by rw [hchm]; exact hquar), hw.lock.trans hblock, hw.unpaired hpaired⟩)
    have key : ∀ (l : List Nat) (w : State), (Seen c False b w ∧ c ∈ l) ∨ QuarantineDone s c k cause w → Within edgeParts s w →
        QuarantineDone s c k cause (forEach l (deviceActs b b.nets) w) := by
      intro l
      induction l with
      | nil => exact fun w hw _ => hw.resolve_left fun h => by simpa using h.2
      | cons x l ih =>
        intro w hw hsw
        refine ih _ ?_ (hsw.trans deviceActs_within.mono)
        by_cases hx : x = c
        · subst hx
          exact .inr (hstep w (hw.imp_left And.left) hsw)
        · have hstill : Seen c False w (deviceActs b b.nets x w) := deviceActs_seen fun h => absurd h hx
          refine hw.imp (fun ⟨hbw, hmem⟩ => ⟨hbw.trans hstill, ?_⟩) fun hP => quarantineDone_stays hP hstill
          exact (List.mem_cons.1 hmem).resolve_left (Ne.symm hx)
    exact key _ t (.inl ⟨hbt, hon⟩) (hsb.toWithin.trans hbt.toWithin)
  have hcommands : QuarantineDone s c k cause (forEach (governorsOn b clks) (chamberActs b b.nets (dueGroups b clks))
      (edgeLoads clks b)) := by
    have hloads : edgeLoads clks b = forEach (governorsOn b clks) (countWaits b)
        (forEach (chambersOn b clks) (deviceActs b b.nets) t) := by
      rw [← ht]
      rfl
    rw [hloads]
    refine .forEach (.forEach hacts fun x _ w hP => quarantineDone_stays (m := False) hP countWaits_seen) fun x _ w hP => ?_
    exact quarantineDone_stays hP (chamberActs_seen hblock hP.lock)
  have hgroups := quarantineDone_stays (m := False) hcommands (groupsEnd_seen (b := b) (due := dueGroups b clks))
  have hcounts := quarantineDone_stays (m := False) hgroups (groupCounts_seen (b := b) (v := b.nets) (clks := clks))
  have hends := QuarantineDone.forEach (l := chambersOn b clks) (f := edgeEnds b) hcounts fun x _ w hP =>
    quarantineDone_stays (m := False) hP (edgeEnds_seen hP.paired)
  have hleaves := leaveUnreleased_quarantineDone (clks := clks) (b := b) hends
  exact quarantineDone_stays (m := False) hleaves (watchShafts_seen.trans (.elsewhere State.fresh_within))

/-- Settles O22: what a chamber sees of its edge is the command that is due, whatever else happens there. -/
theorem switchTakesEffectAtItsEdge : Obligations.SwitchTakesEffectAtItsEdge := by
  unfold Obligations.SwitchTakesEffectAtItsEdge
  intro s c v d hcmd
  refine ⟨fun how hfires harm hrun hne hload => ?_, fun how hfires hrun hne hload => ?_, fun how hfires hheld => ?_,
    fun k cause hcan hlock hrole hhold hent hdue hsel hquar => ?_⟩
  · obtain ⟨hP, hseen⟩ := switch_loaded hcmd how hfires harm hrun hne hload
    exact ⟨_, rfl, hP.sel, hP.cmd, hP.swcnt, hP.lastsw, hP.fence, hP.schedRun, hseen.frame⟩
  · obtain ⟨hP, hseen⟩ := switch_vacant hcmd how hfires hrun hne hload
    exact ⟨_, rfl, hP.sel, hP.cmd, hP.fence, hP.told, hseen.frame⟩
  · obtain ⟨hP, hseen⟩ := switch_held hcmd how hfires hheld
    exact ⟨_, rfl, hP.sel, hP.pend, hP.cmd, hP.hsrc, hseen.frame⟩
  · have hduecmd : dueCmd s c = some ⟨1, v, d, none, 0⟩ := by simp [dueCmd, hcmd]
    have hedge : commandEdge 1 c s = bringEdge (s.chm c).swclkUse s := commandEdge_due hlock hduecmd hcan
    have hP := bringEdge_quarantines hcan hlock hrole hhold hent hdue hsel hquar
    refine ⟨_, congrArg Host.Outcome.next hedge, hP.quar, hP.quarDue, hP.told, ?_⟩
    exact (bringEdge_alone (by simp [State.paired, hrole])).frame

end Sys2Proof

/-! HOLD and RELEASE at their edge (R167 to R170), and the fence register's parity (R178). -/

namespace Sys2Proof

open Sys2Proof.Machine

section
variable {s t u : State} {c : Nat}

/-- A chamber that runs and is then held. -/
theorem chmState_held (hrun : s.chmState c = 1) (hrst : t.rst = s.rst) (hrel : (t.chm c).released = (s.chm c).released)
    (hreloc : (t.chm c).reloc = (s.chm c).reloc) (hhsrc : (t.chm c).hsrc ≠ 0) : t.chmState c = 4 := by
  unfold State.chmState State.inReset at hrun ⊢
  dsimp only at hrun ⊢
  rw [hrel, hreloc, hrst]
  split at hrun
  · cases hrun
  next h1 =>
    rw [if_neg h1]
    split at hrun
    · cases hrun
    next h2 =>
      rw [if_neg h2]
      split at hrun
      · cases hrun
      next h3 => rw [if_neg h3, if_pos hhsrc]

theorem chmState_ne_held (hhsrc : (s.chm c).hsrc = 0) (hent : (s.chm c).entering = 0) : s.chmState c ≠ 4 := by
  unfold State.chmState
  simp only [hhsrc, hent, ne_eq, not_true, if_false]
  split_ifs <;> decide

theorem clearCmd_chmState (d : ChmCmd) : (clearCmd c d s).chmState c = s.chmState c := by
  have hchm := clearCmd_chm (s := s) (c := c) d
  refine chmState_congr ((clearCmd_within (s := s)).frame .rst (by decide)) ?_ ?_ ?_ ?_ ?_ ?_
  all_goals rw [hchm]

/-- Chamber `c` has been held by a command since `s`. -/
structure HeldByCommand (s : State) (c : Nat) (t : State) : Prop where
  state : t.chmState c = 4
  hsrc : (t.chm c).hsrc = 1
  cmd : (t.chm c).cmd = none
  sel : (t.chm c).sel = (s.chm c).sel
  told : Raised s t 0x0304 [c, 1]

theorem heldByCommand_stays (h : Seen c False t u) (hP : HeldByCommand s c t) : HeldByCommand s c u :=
  ⟨h.chmState.trans hP.state, h.hsrc.trans hP.hsrc, h.idle id hP.cmd, h.sel.trans hP.sel, hP.told.within h.toWithin⟩

/-- Chamber `c` has been released since `s`. -/
structure Released (s : State) (c : Nat) (t : State) : Prop where
  hsrc : (t.chm c).hsrc = 0
  pend : (t.chm c).pend = none
  cmd : (t.chm c).cmd = none
  sel : (t.chm c).sel = (s.chm c).pend.getD (s.chm c).sel
  swclkUse : (t.chm c).swclkUse = s.regF (chmReg c 0x04) 0 5
  told : Raised s t 0x0305 [c, (s.chm c).pend.getD (s.chm c).sel]

theorem released_stays (h : Seen c False t u) (hP : Released s c t) : Released s c u :=
  ⟨h.hsrc.trans hP.hsrc, h.pend.trans hP.pend, h.idle id hP.cmd, h.sel.trans hP.sel, h.swclkUse.trans hP.swclkUse,
    hP.told.within h.toWithin⟩

/-- Chamber `c` stays held for repair, with strata still to refill. -/
structure StillHeld (s : State) (c : Nat) (t : State) : Prop where
  state : t.chmState c = 4
  hsrc : (t.chm c).hsrc = 3
  cmd : (t.chm c).cmd = none
  told : Raised s t 0x030B [c, (ofBits 4 (notRefilled (s.chm c))).toNat]

theorem stillHeld_stays (h : Seen c False t u) (hP : StillHeld s c t) : StillHeld s c u :=
  ⟨h.chmState.trans hP.state, h.hsrc.trans hP.hsrc, h.idle id hP.cmd, hP.told.within h.toWithin⟩

theorem notRefilled_seen {m : Prop} (h : Seen c m s t) : notRefilled (t.chm c) = notRefilled (s.chm c) := by
  simp only [notRefilled, h.needRefill]

end

theorem hold_effect {s : State} {c : ChamberId} (how : ownEdge s c) (hfires : noFires s)
    (hcmd : (s.chm c).cmd = some ⟨2, 0, false, none, 0⟩) (hrun : s.chmState c = 1) :
    HeldByCommand s c (commandEdge 2 c s) ∧ Seen c True s (commandEdge 2 c s) := by
  refine command_establishes (d := ⟨2, 0, false, none, 0⟩) how hfires hcmd rfl (fun t u => heldByCommand_stays) ?_ ?_
  · intro b w t u hst hown hseen hun _
    obtain ⟨a, r, m, q, hu⟩ := hun.chm
    have hstate : u.chmState c = 1 := hun.chmState.trans (hseen.chmState.trans hrun)
    rw [applyOp_hold hown.lock]
    obtain ⟨⟨p, hchm⟩, htold⟩ := holdChamber_spec (b := b) (v := w) (hsrc := 1) hstate
    have hrst := (holdChamber_within (b := b) (v := w) (c := c) (hsrc := 1) (s := u)).frame .rst (by decide)
    refine ⟨?_, ?_, ?_, ?_, (htold.before (hseen.toWithin.trans hun.toWithin)).within clearCmd_within⟩
    · rw [clearCmd_chmState]
      refine chmState_held hstate hrst ?_ ?_ ?_
      all_goals rw [if_neg (by decide), hchm]
      exact Nat.one_ne_zero
    all_goals rw [clearCmd_chm, if_neg (by decide), hchm]
    rw [hu]
    exact hseen.sel
  · intro b w t u hst hown hseen hP hun _
    obtain ⟨a, r, m, q, hu⟩ := hun.chm
    have hstate : u.chmState c = 4 := hun.chmState.trans hP.state
    rw [applyOp_hold hown.lock, if_neg (by decide), holdChamber_held hstate (.inl rfl)]
    refine ⟨(clearCmd_chmState _).trans hstate, ?_, ?_, ?_, (hP.told.within hun.toWithin).within clearCmd_within⟩
    all_goals rw [clearCmd_chm, hu]
    · exact hP.hsrc
    · exact hP.sel

theorem release_effect {s : State} {c : ChamberId} (how : ownEdge s c) (hfires : noFires s)
    (hcmd : (s.chm c).cmd = some ⟨3, 0, false, none, 0⟩) (hheld : s.chmState c = 4) (hsrc : (s.chm c).hsrc ≠ 3) :
    Released s c (commandEdge 3 c s) ∧ Seen c True s (commandEdge 3 c s) := by
  have hent := how.2.2.2.2.2.1
  refine command_establishes (d := ⟨3, 0, false, none, 0⟩) how hfires hcmd rfl (fun t u => released_stays) ?_ ?_
  · intro b w t u hst hown hseen hun _
    obtain ⟨a, r, m, q, hu⟩ := hun.chm
    have hsrc' : (u.chm c).hsrc ≠ 3 := by rw [hu]; exact fun h => hsrc (hseen.hsrc.symm.trans h)
    have hsu : Seen c True s u := hseen.any.trans hun.toSeen
    obtain ⟨h1, h2, -, h4, h5, htold⟩ := releaseChamber_spec (rank := 3) (hun.chmState.trans (hseen.chmState.trans hheld))
      (fun h => hsrc' h.1) (hsu.lock.trans how.2.1)
    have hsel : (u.chm c).pend.getD (u.chm c).sel = (s.chm c).pend.getD (s.chm c).sel := by
      rw [hu]
      exact congrArg₂ Option.getD hseen.pend hseen.sel
    rw [hsel] at h4 htold
    rw [applyOp_release hown.lock]
    refine ⟨?_, ?_, ?_, ?_, ?_, (htold.before hsu.toWithin).within clearCmd_within⟩
    all_goals rw [clearCmd_chm]
    · exact h1
    · exact h2
    · exact h4
    · exact h5.trans (hsu.ctrl 0 5 (by decide))
  · intro b w t u hst hown hseen hP hun _
    obtain ⟨a, r, m, q, hu⟩ := hun.chm
    have hstate : u.chmState c ≠ 4 := chmState_ne_held (by rw [hu]; exact hP.hsrc) (hun.entering (hseen.entering hent))
    rw [applyOp_release hown.lock, releaseChamber_kept hstate]
    refine ⟨?_, ?_, ?_, ?_, ?_, (hP.told.within hun.toWithin).within clearCmd_within⟩
    all_goals rw [clearCmd_chm, hu]
    · exact hP.hsrc
    · exact hP.pend
    · exact hP.sel
    · exact hP.swclkUse

theorem release_unrefilled {s : State} {c : ChamberId} {k : Nat} (how : ownEdge s c) (hfires : noFires s)
    (hcmd : (s.chm c).cmd = some ⟨3, 0, false, none, 0⟩) (hheld : s.chmState c = 4) (hsrc : (s.chm c).hsrc = 3)
    (hk : k < 4) (hneed : ((s.chm c).strat k).needRefill = true) :
    StillHeld s c (commandEdge 3 c s) ∧ Seen c True s (commandEdge 3 c s) := by
  have hnot : notRefilled (s.chm c) ≠ [] :=
    List.ne_nil_of_mem (List.mem_filter.2 ⟨List.mem_range.2 hk, hneed⟩)
  have hacts : ∀ {b w t u}, Own b c → Seen c True s t → t.chmState c = 4 → (t.chm c).hsrc = 3 → Unscheduled c t u →
      StillHeld s c (clearCmd c ⟨3, 0, false, none, 0⟩ (applyOp b w c 3 0 false 3 u)) := by
    intro b w t u hown hseen hstate h3 hun
    obtain ⟨a, r, m, q, hu⟩ := hun.chm
    have hsu : Seen c True s u := hseen.trans hun.toSeen
    have hstate : u.chmState c = 4 := hun.chmState.trans hstate
    have hrefill := notRefilled_seen hsu
    have hsrc : (u.chm c).hsrc = 3 := by rw [hu]; exact h3
    rw [applyOp_release hown.lock, releaseChamber_unrefilled hstate ⟨hsrc, by rw [hrefill]; exact hnot⟩, hrefill]
    have hraise : (raise 0x030B [c, (ofBits 4 (notRefilled (s.chm c))).toNat] u).chmState c = u.chmState c := by
      refine chmState_congr (raise_rst _ _ u) ?_ ?_ ?_ ?_ ?_ ?_
      all_goals rw [raise_chm]
    refine ⟨(clearCmd_chmState _).trans (hraise.trans hstate), ?_, ?_,
      ((raised_raise _ _ _).before hsu.toWithin).within clearCmd_within⟩
    all_goals rw [clearCmd_chm, raise_chm]
    exact hsrc
  refine command_establishes (d := ⟨3, 0, false, none, 0⟩) how hfires hcmd rfl (fun t u => stillHeld_stays) ?_ ?_
  · intro b w t u hst hown hseen hun _
    exact hacts hown hseen.any (hseen.chmState.trans hheld) (hseen.hsrc.trans hsrc) hun
  · intro b w t u hst hown hseen hP hun _
    exact hacts hown hseen hP.state hP.hsrc hun

/-- Settles O23, by what HOLD and RELEASE do at the edge and what the event of a parity failure leaves. -/
theorem holdAndReleaseTakeEffect : Obligations.HoldAndReleaseTakeEffect := by
  unfold Obligations.HoldAndReleaseTakeEffect
  refine ⟨fun s c how hfires hcmd hrun => ?_, fun s c how hfires hcmd hheld hsrc => ?_,
    fun s c k how hfires hcmd hheld hsrc hk hneed => ?_, fun s c => ?_⟩
  · obtain ⟨hP, hseen⟩ := hold_effect how hfires hcmd hrun
    exact ⟨_, rfl, hP.state, hP.hsrc, hP.cmd, hP.sel, hP.told, hseen.frame⟩
  · obtain ⟨hP, hseen⟩ := release_effect how hfires hcmd hheld hsrc
    exact ⟨_, rfl, hP.hsrc, hP.pend, hP.cmd, hP.sel, hP.swclkUse, hP.told, hseen.frame⟩
  · obtain ⟨hP, hseen⟩ := release_unrefilled how hfires hcmd hheld hsrc hk hneed
    exact ⟨_, rfl, hP.hsrc, hP.cmd, hP.told, hseen.frame⟩
  · refine ⟨_, rfl, ?_, fun x hx => ?_, (raised_raise _ _ _).before (l := [.fab]) State.modChm_within, ?_⟩
    · rw [raise_chm, chm_modChm_same]
    · rw [raise_chm, chm_modChm_other _ _ _ hx]
    · have hmark : Within (.fab :: events) s (s.modChm c fun ch => { ch with fenceBad := true }) := State.modChm_within.mono
      exact (hmark.step raise_within).frame

end Sys2Proof

/-! Writes of the schedule and of the groups (R150, R160 to R162). -/

namespace Sys2Proof

open Sys2Proof.Machine

section
variable {s : State} {c : ChamberId}

theorem chmCtrl_desc (c : ChamberId) : (regDesc (chmReg c 0x04)).rw = 0xFE00_001F := by
  rw [regDesc_chm c 0x04 c.isLt (by decide)]
  rfl

theorem cmdDelay_congr {t : State} (h : t.reg 0x2_0004 = s.reg 0x2_0004) : cmdDelay t = cmdDelay s := by
  rw [cmdDelay, State.regF, h, cmdDelay, State.regF]

theorem bit_enable (val : Word) : bit (val ||| mkBit 31 true) 31 = true := by
  simp [bit, mkBit]

theorem bit_disable (val : Word) : bit (val &&& ~~~mkBit 31 true) 31 = false := by
  simp [bit, mkBit]

/-- SCHED from 0 to 1 (R150). -/
theorem chmCtrlWrite_enable (val : Word) (hgov : s.gov c = c) (hoff : s.regB (chmReg c 0x04) 31 = false) :
    chmCtrlWrite c (val ||| mkBit 31 true) s =
      (storeReg (chmReg c 0x04) (val ||| mkBit 31 true) s).modChm c fun x => { x with schedArmed := true, schedWait := cmdDelay s } := by
  have hdelay : cmdDelay (storeReg (chmReg c 0x04) (val ||| mkBit 31 true) s) = cmdDelay s :=
    cmdDelay_congr (storeReg_reg_other (by unfold chmReg; omega) _ _)
  unfold chmCtrlWrite
  simp only [hgov, bit_enable, hoff, hdelay, ne_eq, not_true_eq_false, Bool.false_eq_true, ↓reduceIte]

/-- SCHED = 0 (R160). -/
theorem chmCtrlWrite_disable (val : Word) (hgov : s.gov c = c) :
    chmCtrlWrite c (val &&& ~~~mkBit 31 true) s = storeReg (chmReg c 0x04) (val &&& ~~~mkBit 31 true)
      ((stopSchedule c 4 s).modChm c fun x => { x with schedArmed := false }) := by
  unfold chmCtrlWrite
  simp only [hgov, bit_disable, ne_eq, not_true_eq_false, Bool.false_eq_true, ↓reduceIte]

theorem stopSchedule_told {reason : Nat} (h : (s.chm c).schedRun = true) :
    Raised s (stopSchedule c reason s) 0x0306 [c, (s.chm c).entry, reason] := by
  unfold stopSchedule
  dsimp only
  rw [if_pos h]
  exact (raised_raise _ _ _).before (l := .regs :: .fab :: events) (State.modChm_within.mono.step State.setRegF_within)

end

theorem scheduleEnable_spec (s : State) (who : Requester) (c : ChamberId) (val : Word) (hrole : s.twn.role = 0) (hgov : s.gov c = c)
    (hoff : s.regB (chmReg c 0x04) 31 = false) : Completes (.scheduleEnable who c val) s fun t =>
      t.reg (chmReg c 0x04) = (s.reg (chmReg c 0x04) &&& 0x01FF_FFE0) ||| ((val ||| 0x8000_0000) &&& 0xFE00_001F) ∧
      t.chm c = { s.chm c with schedArmed := true, schedWait := cmdDelay s } ∧
      (∀ o, o ≠ chmReg c 0x04 → t.reg o = s.reg o) ∧ OnlyChanges [.regs, .fab] s t := by
  refine ⟨_, congrArg Host.Outcome.next ((writeReg_chmCtrl who c c.isLt _ s hrole).trans (chmCtrlWrite_enable val hgov hoff)),
    ?_, chm_modChm_same _ _ _, fun o ho => storeReg_reg_other ho _ _, ?_⟩
  · refine (storeReg_reg_same _ _ s).trans ?_
    rw [chmCtrl_desc]
    rfl
  · have hstore : Within [.regs, .fab] s (storeReg (chmReg c 0x04) (val ||| mkBit 31 true) s) := storeReg_within.mono
    exact (hstore.step State.modChm_within).frame

theorem scheduleStop_spec (s : State) (who : Requester) (c : ChamberId) (val : Word) (hrole : s.twn.role = 0) (hgov : s.gov c = c)
    (hrun : (s.chm c).schedRun = true) : Completes (.scheduleStopWrite who c val) s fun t =>
      t.regB (chmReg c 0x04) 31 = false ∧ (t.chm c).schedRun = false ∧ (t.chm c).schedArmed = false ∧
      Raised s t 0x0306 [c, (s.chm c).entry, 4] ∧ OnlyChanges (.regs :: .fab :: events) s t := by
  refine ⟨_, congrArg Host.Outcome.next ((writeReg_chmCtrl who c c.isLt _ s hrole).trans (chmCtrlWrite_disable val hgov)), ?_⟩
  obtain ⟨u, hu⟩ : ∃ u, (stopSchedule c 4 s).modChm c (fun x => { x with schedArmed := false }) = u := ⟨_, rfl⟩
  have hchm : u.chm c = { s.chm c with schedRun := false, schedArmed := false } := by
    rw [← hu, chm_modChm_same, stopSchedule_chm]
  have htold : Raised s u 0x0306 [c, (s.chm c).entry, 4] := hu ▸ (stopSchedule_told hrun).within State.modChm_within
  have hsu : Within (.regs :: .fab :: events) s u := hu ▸ stopSchedule_within.step State.modChm_within
  rw [hu]
  refine ⟨?_, ?_, ?_, htold.within storeReg_within, (hsu.step storeReg_within).frame⟩
  · rw [State.regB, storeReg_reg_same, chmCtrl_desc]
    simp [bit, mkBit]
  · exact congrArg Chamber.schedRun hchm
  · exact congrArg Chamber.schedArmed hchm

/-- A register that counts on when its INC bit is set. -/
theorem autoInc_spec {off len n : Nat} (s : State) (hlen : len ≤ 31) (hn : n ≤ 2 ^ len) (hpos : 0 < n) :
    Within [.regs] s (autoInc off len n s) ∧ (∀ o, o ≠ off → (autoInc off len n s).reg o = s.reg o) ∧
      (s.regB off 31 = true → (autoInc off len n s).regF off 0 len = (s.regF off 0 len + 1) % n) ∧
      (s.regB off 31 = false → (autoInc off len n s).reg off = s.reg off) := by
  unfold autoInc
  split
  next h =>
    refine ⟨State.setRegF_within, fun o ho => setRegF_reg_other ho _ _ _ _, fun _ => ?_, fun h' => absurd h (by simp [h'])⟩
    rw [setRegF_regF _ _ _ (by omega)]
    exact Nat.mod_eq_of_lt (lt_of_lt_of_le (Nat.mod_lt _ hpos) hn)
  next h => exact ⟨.refl, fun _ _ => rfl, fun h' => absurd h' h, fun _ => rfl⟩

theorem scheduleEntry_spec (s : State) (who : Requester) (c : ChamberId) (val : Word) (hrole : s.twn.role = 0) :
    Completes (.scheduleEntryWrite who c val) s fun t =>
      tabGet 0 (t.chm c).sched (s.regF (chmReg c 0x14) 0 6) = val ∧
      (∀ e, e ≠ s.regF (chmReg c 0x14) 0 6 → tabGet 0 (t.chm c).sched e = tabGet 0 (s.chm c).sched e) ∧
      (s.regB (chmReg c 0x14) 31 = true → t.regF (chmReg c 0x14) 0 6 = (s.regF (chmReg c 0x14) 0 6 + 1) % 64) ∧
      (s.regB (chmReg c 0x14) 31 = false → t.reg (chmReg c 0x14) = s.reg (chmReg c 0x14)) ∧
      OnlyChanges [.regs, .fab] s t := by
  refine ⟨_, congrArg Host.Outcome.next (writeReg_sdata who c c.isLt val s hrole), ?_⟩
  obtain ⟨u, hu⟩ : ∃ u, s.modChm c (fun x => { x with sched := tabSet 0 x.sched (s.regF (chmReg c 0x14) 0 6) val }) = u := ⟨_, rfl⟩
  have hchm : (u.chm c).sched = tabSet 0 (s.chm c).sched (s.regF (chmReg c 0x14) 0 6) val := by
    rw [← hu, chm_modChm_same]
  have hreg : ∀ o, u.reg o = s.reg o := fun o => by rw [← hu]; rfl
  obtain ⟨hw, hother, hinc, hstay⟩ := autoInc_spec (off := chmReg c 0x14) (len := 6) (n := 64) u (by decide) (by decide) (by decide)
  have hfab : (autoInc (chmReg c 0x14) 6 64 u).fab = u.fab := hw.frame .fab (by decide)
  have hsched : ((autoInc (chmReg c 0x14) 6 64 u).chm c).sched = (u.chm c).sched := by rw [State.chm, hfab, State.chm]
  have hregF : u.regF (chmReg c 0x14) 0 6 = s.regF (chmReg c 0x14) 0 6 := by rw [State.regF, hreg, State.regF]
  have hregB : u.regB (chmReg c 0x14) 31 = s.regB (chmReg c 0x14) 31 := by rw [State.regB, hreg, State.regB]
  have hsu : Within [.regs, .fab] s u := hu ▸ State.modChm_within.mono
  rw [hu]
  refine ⟨?_, fun e he => ?_, fun h => ?_, fun h => ?_, (hsu.step hw).frame⟩
  · rw [hsched, hchm, tabGet_tabSet_same]
  · rw [hsched, hchm, tabGet_tabSet_other _ _ _ _ _ he]
  · rw [hinc (hregB.trans h), hregF]
  · rw [hstay (hregB.trans h), hreg]

/-- FIRE in an enabled group that waits for none. -/
theorem acceptFire_enabled {s : State} {g op : Nat} (hen : s.regB (grpReg g 0) 31 = true) (hfree : (s.grp g).fire = none) :
    (acceptFire g op none s).grp g = { s.grp g with fire := some (op, none), fireWait := cmdDelay s } ∧
      OnlyChanges [.fab] s (acceptFire g op none s) := by
  unfold acceptFire
  rw [if_pos hen, hfree]
  refine ⟨?_, State.modGrp_within.frame⟩
  simp [State.modGrp, State.grp]

theorem acceptFire_disabled {s : State} {g op : Nat} (hen : s.regB (grpReg g 0) 31 = false) : acceptFire g op none s = s := by
  unfold acceptFire
  rw [if_neg (by simp [hen])]
  rfl

theorem groupFires_spec (s : State) (who : Requester) (g : GroupId) (hrole : s.twn.role = 0) (hen : s.regB (grpReg g 0) 31 = true)
    (hfree : (s.grp g).fire = none) :
    Completes (.groupFireSwitch who g) s (fun t =>
      t.grp g = { s.grp g with fire := some (1, none), fireWait := cmdDelay s } ∧ OnlyChanges [.fab] s t) ∧
    Completes (.groupFireHold who g) s (fun t =>
      t.grp g = { s.grp g with fire := some (2, none), fireWait := cmdDelay s } ∧ OnlyChanges [.fab] s t) ∧
    Completes (.groupFireRelease who g) s (fun t =>
      t.grp g = { s.grp g with fire := some (3, none), fireWait := cmdDelay s } ∧ OnlyChanges [.fab] s t) :=
  ⟨⟨_, congrArg Host.Outcome.next (writeReg_fire who g g.isLt _ s (by decide) hrole), acceptFire_enabled hen hfree⟩,
    ⟨_, congrArg Host.Outcome.next (writeReg_fire who g g.isLt _ s (by decide) hrole), acceptFire_enabled hen hfree⟩,
    ⟨_, congrArg Host.Outcome.next (writeReg_fire who g g.isLt _ s (by decide) hrole), acceptFire_enabled hen hfree⟩⟩

theorem exec_groupFireSwitch_disabled (s : State) (who : Requester) (g : GroupId) (hrole : s.twn.role = 0)
    (hen : s.regB (grpReg g 0) 31 = false) : exec (.groupFireSwitch who g) s = .next s :=
  congrArg Host.Outcome.next ((writeReg_fire who g g.isLt _ s (by decide) hrole).trans (acceptFire_disabled hen))

end Sys2Proof

/-! The nets of the fabric follow from its chambers, its columns, the resets and the free levels alone (R47 to R92). -/

namespace Sys2Proof

open Sys2Proof.Machine

/-- Two states with the same fabric, as its nets see it. -/
structure SameFabric (s t : State) : Prop where
  chambers : t.fab.chambers = s.fab.chambers
  columns : t.fab.columns = s.fab.columns
  rst : t.rst = s.rst
  seed : t.seed = s.seed

namespace SameFabric

variable {s t : State}

theorem chm (h : SameFabric s t) : t.chm = s.chm := by
  funext c
  rw [State.chm, h.chambers, State.chm]

theorem col (h : SameFabric s t) : t.col = s.col := by
  funext n
  rw [State.col, h.columns, State.col]

theorem chmState (h : SameFabric s t) : t.chmState = s.chmState := by
  funext c
  refine chmState_congr h.rst ?_ ?_ ?_ ?_ ?_ ?_
  all_goals rw [h.chm]

theorem neighbour (h : SameFabric s t) : t.neighbour = s.neighbour := by
  funext c d
  simp only [State.neighbour, State.atHome, h.col]
  rfl

theorem portShows (h : SameFabric s t) : t.portShows = s.portShows := by
  funext c port
  simp only [State.portShows, h.chm, h.chmState]

theorem arriving (h : SameFabric s t) : Machine.arriving t = Machine.arriving s := by
  funext v c cl a
  simp only [Machine.arriving, arriveFrom, h.neighbour, h.portShows]

theorem selectVal (h : SameFabric s t) : Machine.selectVal t = Machine.selectVal s := by
  funext v shaft c cl code off
  simp only [Machine.selectVal, h.chm, h.arriving]

theorem shaftOn (h : SameFabric s t) : Machine.shaftOn t = Machine.shaftOn s := by
  funext c cl n
  simp only [Machine.shaftOn, h.chm, h.chmState]

theorem shaftDrives (h : SameFabric s t) : Machine.shaftDrives t = Machine.shaftDrives s := by
  funext v c cl n
  simp only [Machine.shaftDrives, h.chm]

theorem shaftLevel (h : SameFabric s t) (v : Nets) (col cl : Nat) (fuel : Nat) :
    Machine.shaftLevel t v col cl fuel = Machine.shaftLevel s v col cl fuel := by
  induction fuel with
  | zero =>
    funext n
    simp only [Machine.shaftLevel, h.col]
  | succ fuel ih =>
    funext n
    simp only [Machine.shaftLevel, h.col, h.chm, h.selectVal, h.shaftDrives, h.shaftOn, ih]

theorem inVal (h : SameFabric s t) : Machine.inVal t = Machine.inVal s := by
  funext v c i j
  simp only [Machine.inVal, shaftsAt, h.chm, h.selectVal, h.shaftLevel]

theorem muxSel (h : SameFabric s t) : Machine.muxSel t = Machine.muxSel s := by
  funext v c i
  simp only [Machine.muxSel, shaftsAt, h.chm, h.selectVal, h.shaftLevel]

theorem mux32 (h : SameFabric s t) : Machine.mux32 t = Machine.mux32 s := by
  funext v c cl
  simp only [Machine.mux32, h.inVal, h.muxSel]

theorem muxF (h : SameFabric s t) : Machine.muxF t = Machine.muxF s := by
  funext v c cl
  simp only [Machine.muxF, h.chm, h.muxSel, h.mux32]

theorem ptF (h : SameFabric s t) : Machine.ptF t = Machine.ptF s := by
  funext v c i
  simp only [Machine.ptF, ptTerm, quadFn, h.chm, h.inVal]

theorem cellOut (h : SameFabric s t) : Machine.cellOut t = Machine.cellOut s := by
  funext v c i
  simp only [Machine.cellOut, carryIn, h.chm, h.inVal, h.ptF, h.muxF]

theorem wireDrive (h : SameFabric s t) : Machine.wireDrive t = Machine.wireDrive s := by
  funext v c i four
  simp only [Machine.wireDrive, h.chm, h.arriving]

theorem l16Drive (h : SameFabric s t) : Machine.l16Drive t = Machine.l16Drive s := by
  funext v c cl
  simp only [Machine.l16Drive, h.chm, h.arriving]

theorem netRounds (h : SameFabric s t) (live : List (Nat × List Nat)) (n : Nat) (v : Nets) :
    Machine.netRounds t live n v = Machine.netRounds s live n v := by
  have hround : netRound t = netRound s := by
    funext live v
    simp only [netRound, h.cellOut, h.wireDrive, h.l16Drive]
  induction n generalizing v with
  | zero => rfl
  | succ n ih => rw [Machine.netRounds, hround, ih, Machine.netRounds]

theorem nets (h : SameFabric s t) : t.nets = s.nets := by
  have hlive : t.liveChambers = s.liveChambers := by
    simp only [State.liveChambers, h.chambers, h.chmState]
  simp only [State.nets, hlive, h.netRounds, h.seed]

theorem triggerOn (h : SameFabric s t) (c : Nat) : Machine.triggerOn t t.nets c = Machine.triggerOn s s.nets c := by
  simp only [Machine.triggerOn, h.chm, h.chmState, h.nets]

end SameFabric

theorem edgeStart_sameFabric (g : Nat) (s : State) : SameFabric s (edgeStart g s) := by
  obtain ⟨gs, es, h⟩ := edgeStart_fab g s
  exact ⟨by rw [h], by rw [h], (edgeStart_within g s).frame .rst (by decide), (edgeStart_within g s).frame .seed (by decide)⟩

end Sys2Proof

/-! The schedule at an edge of its chamber (R150 to R153). -/

namespace Sys2Proof

open Sys2Proof.Machine

section
variable {s t u b : State} {v : Nets} {c : Nat} {due : List Nat}

/-- With no command and no group, what the schedule makes due at an edge acts, on a trigger too while it runs. -/
theorem chamberActs_entry {e : Nat} (hlock : (b.col (colOf c)).lock = .off) (hdue : dueCmd b c = none)
    (hgroup : groupTakes b due c = none) (hfired : triggerOn b v c = false ∨ (b.chm c).schedRun = true)
    (hentry : entryDue b c = some e) :
    ∃ u, chamberActs b v due c t = entryCurrent b v c e u ∧ Unscheduled c t u := by
  obtain ⟨hun, -⟩ := remainCounts (c := c) (t := t) (((b.chm c).schedRun && schedMoves b c) = true)
  refine ⟨_, ?_, hun⟩
  unfold chamberActs
  simp only [hdue, hgroup, hentry, lead_off hlock, ite_self, Option.getD_some]
  rcases hfired with h | h
  · simp [h]
  · simp [h]

/-- The entry that has become current. -/
structure EntryCurrent (c e : Nat) (w : Word) (t : State) : Prop where
  entry : (t.chm c).entry = e
  remain : (t.chm c).remain = fld w 0 22
  nextEntry : (t.chm c).nextEntry = fld w 22 6
  schedRun : (t.chm c).schedRun = true
  schedArmed : (t.chm c).schedArmed = false
  sel : (t.chm c).sel = fld w 28 2

theorem entryCurrent_stays {e : Nat} {w : Word} (h : Seen c False t u) (hP : EntryCurrent c e w t) : EntryCurrent c e w u :=
  ⟨h.entry.trans hP.entry, h.remain.trans hP.remain, h.nextEntry.trans hP.nextEntry, h.schedRun.trans hP.schedRun,
    h.schedArmed.trans hP.schedArmed, h.sel.trans hP.sel⟩

/-- R150 to R152: an entry that is valid. -/
theorem entryCurrent_valid {e : Nat} {w : Word} (hlock : (u.col (colOf c)).lock = .off) (hentry : schedEntry u c e = w)
    (hvalid : bit w 31 = true) : EntryCurrent c e w (entryCurrent b v c e u) := by
  unfold entryCurrent
  dsimp only
  rw [hentry, if_neg (by simp [hvalid])]
  generalize h1 : u.modChm c (fun x => { x with schedArmed := false, schedRun := true, entry := e }) = u1
  generalize h2 : u1.modChm c (fun x => { x with remain := fld w 0 22, nextEntry := fld w 22 6 }) = u2
  have hchm : u2.chm c = { u.chm c with
      schedArmed := false, schedRun := true, entry := e, remain := fld w 0 22, nextEntry := fld w 22 6 } := by
    rw [← h2, chm_modChm_same, ← h1, chm_modChm_same]
  have hcol : (u2.col (colOf c)).lock = .off := by
    rw [← h2, ← h1]
    exact hlock
  rw [acting_off hcol, forEach_cons, forEach_nil]
  by_cases hsel : fld w 28 2 = (u2.chm c).sel
  · rw [switchTo_same _ _ hsel]
    refine ⟨?_, ?_, ?_, ?_, ?_, hsel.symm⟩
    all_goals rw [hchm]
  · obtain ⟨p, n, hsw⟩ := switchTo_chm (b := b) (v := v) (bit w 30) 5 hsel
    constructor
    all_goals rw [hsw]
    any_goals simp only [switched, hchm]

/-- The schedule that has stopped at an entry that is not valid. -/
structure EntryInvalid (s : State) (c e : Nat) (t : State) : Prop where
  schedRun : (t.chm c).schedRun = false
  entry : (t.chm c).entry = e
  sel : (t.chm c).sel = (s.chm c).sel
  enabled : t.regB (chmReg c 0x04) 31 = false
  told : Raised s t 0x0306 [c, e, 1]

theorem entryInvalid_stays {e : Nat} (h : Seen c False t u) (hP : EntryInvalid s c e t) : EntryInvalid s c e u := by
  refine ⟨h.schedRun.trans hP.schedRun, h.entry.trans hP.entry, h.sel.trans hP.sel, ?_, hP.told.within h.toWithin⟩
  rw [State.regB, h.enabled id]
  exact hP.enabled

/-- R153: an entry that is not valid stops the schedule. -/
theorem entryCurrent_invalid {e : Nat} {w : Word} (hentry : schedEntry u c e = w) (hvalid : bit w 31 = false)
    (hsu : Within edgeParts s u) (hsel : (u.chm c).sel = (s.chm c).sel) : EntryInvalid s c e (entryCurrent b v c e u) := by
  unfold entryCurrent
  dsimp only
  rw [hentry, if_pos (by simp [hvalid])]
  generalize h1 : u.modChm c (fun x => { x with schedArmed := false, schedRun := true, entry := e }) = u1
  have hchm : u1.chm c = { u.chm c with schedArmed := false, schedRun := true, entry := e } := by
    rw [← h1, chm_modChm_same]
  have hu1 : Within edgeParts s u1 := hsu.trans (h1 ▸ State.modChm_within.mono)
  have heq : stopSchedule c 1 u1 =
      raise 0x0306 [c, e, 1] ((u1.modChm c fun x => { x with schedRun := false }).setRegF (chmReg c 0x04) 31 1 0) := by
    unfold stopSchedule
    simp only [hchm, if_true]
  have hraised : Raised s (stopSchedule c 1 u1) 0x0306 [c, e, 1] := by
    rw [heq]
    exact (raised_raise _ _ _).before (hu1.trans (State.modChm_within.mono.trans State.setRegF_within.mono))
  refine ⟨?_, ?_, ?_, ?_, hraised⟩
  · rw [stopSchedule_chm]
  · rw [stopSchedule_chm, hchm]
  · rw [stopSchedule_chm, hchm]
    exact hsel
  · have hreg : (stopSchedule c 1 u1).reg (chmReg c 0x04) = setFld (u1.reg (chmReg c 0x04)) 31 1 0 := by
      rw [heq]
      exact (raise_within.frame .regs (by decide) _).trans (setRegF_reg _ _ _ _ _)
    rw [State.regB, hreg, bit, getLsbD_setFld _ _ _ _ _ (by decide)]
    simp

end

/-- What the schedule of a chamber makes due takes effect at its edge. -/
theorem schedule_establishes {P : State → Prop} {s : State} {c e : Nat} (how : ownEdge s c) (hfires : noFires s)
    (hcmd : dueCmd s c = none) (hentry : entryDue s c = some e)
    (htrig : triggerOn s s.nets c = false ∨ (s.chm c).schedRun = true) (hstays : ∀ t u, Seen c False t u → P t → P u)
    (hacts : ∀ b v t u, Own b c → (u.col (colOf c)).lock = .off → Seen c True s t → Seen c False s t ∨ P t → Unscheduled c t u →
      P (entryCurrent b v c e u)) :
    P (bringEdge (s.chm c).swclkUse s) ∧ Seen c True s (bringEdge (s.chm c).swclkUse s) := by
  obtain ⟨hrel, -⟩ := edgeCan_spec how.1
  obtain ⟨b, hb⟩ : ∃ b, edgeStart (s.chm c).swclkUse s = b := ⟨_, rfl⟩
  have hchm : ∀ x, b.chm x = s.chm x := fun x => hb ▸ edgeStart_chm _ _ x
  have hown : Own b c := hb ▸ edgeStart_own how
  have hnone : dueGroups b (coincident s (s.chm c).swclkUse) = [] := hb ▸ edgeStart_noFires hfires _
  have hsb : Seen c False s b := hb ▸ edgeStart_seen
  have hsame : SameFabric s b := hb ▸ edgeStart_sameFabric _ s
  have hbentry : entryDue b c = some e := by
    rw [← hentry]
    have hregF : b.regF (chmReg c 0x04) 25 6 = s.regF (chmReg c 0x04) 25 6 := by
      rw [State.regF, ← hb, edgeStart_reg, State.regF]
    have hmoves : schedMoves b c = schedMoves s c := by
      rw [schedMoves, lead_off hown.lock, hsame.chmState, schedMoves, lead_off how.2.1]
    rw [entryDue, hmoves, hchm, hregF, entryDue]
  have hmain : ∀ t, Seen c True b t → Seen c False s t ∨ P t → P (chamberActs b b.nets [] c t) := fun t ht hor => by
    obtain ⟨u, hu, hun⟩ := chamberActs_entry (v := b.nets) (t := t) (due := []) hown.lock (by rw [← hb, edgeStart_dueCmd, hcmd]) rfl
      (htrig.imp (fun h => (hsame.triggerOn c).trans h) fun h => by rw [hchm]; exact h) hbentry
    rw [hu]
    exact hacts b b.nets t u hown (hun.lock.trans (ht.lock.trans hown.lock)) (hsb.any.trans ht) hor hun
  refine bringEdge_establishes hb hown (mem_governorsOn hown.lock (by rw [hchm, hrel]) (by rw [hchm])) hstays ?_ ?_
  · intro t ht
    rw [hnone]
    exact hmain t ht.any (.inl (hsb.trans ht))
  · intro t ht hP
    rw [hnone]
    exact hmain t ht (.inr hP)

theorem schedEntry_seen {s t : State} {c e : Nat} {m : Prop} (h : Seen c m s t) : schedEntry t c e = schedEntry s c e :=
  congrArg (fun l => tabGet (0 : Word) l e) (congrArg Chamber.sched h.fixed :)

theorem scheduleStart_spec (s : State) (c : ChamberId) (w : Word) (how : ownEdge s c) (hfires : noFires s) (hcmd : dueCmd s c = none)
    (htrig : triggerOn s s.nets c = false) (harm : (s.chm c).schedArmed = true) (hwait : (s.chm c).schedWait = 0)
    (hmoves : schedMoves s c = true) (hentry : tabGet 0 (s.chm c).sched (s.regF (chmReg c 0x04) 25 6) = w) (hvalid : bit w 31 = true) :
    Completes (.scheduleEntryStart c) s fun t =>
      (t.chm c).entry = s.regF (chmReg c 0x04) 25 6 ∧ (t.chm c).remain = fld w 0 22 ∧ (t.chm c).nextEntry = fld w 22 6 ∧
      (t.chm c).schedRun = true ∧ (t.chm c).schedArmed = false ∧ (t.chm c).sel = fld w 28 2 ∧
      OnlyChanges edgeParts s t := by
  have hdue : entryDue s c = some (s.regF (chmReg c 0x04) 25 6) := by
    simp [entryDue, hmoves, harm, hwait]
  have hlock := how.2.1
  obtain ⟨hP, hseen⟩ := schedule_establishes (P := EntryCurrent c (s.regF (chmReg c 0x04) 25 6) w) how hfires hcmd hdue (.inl htrig)
    (fun t u => entryCurrent_stays) fun b v t u hown hu ht _ hun =>
      entryCurrent_valid hu ((schedEntry_seen hun.toSeen).trans ((schedEntry_seen ht).trans hentry)) hvalid
  refine ⟨_, congrArg Host.Outcome.next ?_, hP.entry, hP.remain, hP.nextEntry, hP.schedRun, hP.schedArmed, hP.sel, hseen.frame⟩
  simp only [gov_off hlock, lead_off hlock, harm, hdue, how.1, bringChamberEdge, Option.isSome_some, Bool.and_self, if_true]

theorem dwellEnd_spec (s : State) (c : ChamberId) (w : Word) (how : ownEdge s c) (hfires : noFires s) (hcmd : dueCmd s c = none)
    (harm : (s.chm c).schedArmed = false) (hrun : (s.chm c).schedRun = true) (hremain : (s.chm c).remain = 0)
    (hmoves : schedMoves s c = true) (hentry : tabGet 0 (s.chm c).sched (s.chm c).nextEntry = w) (hvalid : bit w 31 = false) :
    Completes (.dwellEnd c) s fun t =>
      (t.chm c).schedRun = false ∧ (t.chm c).entry = (s.chm c).nextEntry ∧ (t.chm c).sel = (s.chm c).sel ∧
      t.regB (chmReg c 0x04) 31 = false ∧ Raised s t 0x0306 [c, (s.chm c).nextEntry, 1] ∧ OnlyChanges edgeParts s t := by
  have hdue : entryDue s c = some (s.chm c).nextEntry := by
    simp [entryDue, hmoves, harm, hrun, hremain]
  have hlock := how.2.1
  obtain ⟨hP, hseen⟩ := schedule_establishes (P := EntryInvalid s c (s.chm c).nextEntry) how hfires hcmd hdue (.inr hrun)
    (fun t u => entryInvalid_stays) fun b v t u hown hu ht hor hun => by
      obtain ⟨a, r, m, q, hchm⟩ := hun.chm
      have hsel : (t.chm c).sel = (s.chm c).sel := hor.elim (fun h => h.sel) fun h => h.sel
      exact entryCurrent_invalid ((schedEntry_seen hun.toSeen).trans ((schedEntry_seen ht).trans hentry)) hvalid
        (ht.toWithin.trans hun.toWithin) (by rw [hchm]; exact hsel)
  refine ⟨_, congrArg Host.Outcome.next ?_, hP.schedRun, hP.entry, hP.sel, hP.enabled, hP.told, hseen.frame⟩
  simp only [gov_off hlock, lead_off hlock, harm, hdue, how.1, bringChamberEdge, Option.isSome_some, Bool.not_false, Bool.and_self, if_true]

end Sys2Proof

/-! Switch groups at an edge of their clock (R157, R160 to R167). -/

namespace Sys2Proof

open Sys2Proof.Machine

/-- What a chamber does at its edge is a chain of a few operations: a relation that each of them keeps, it keeps. -/
theorem chamberActs_of {R : State → State → Prop} {s b : State} {v : Nets} {c : Nat} {due : List Nat} (hrefl : ∀ w, R w w)
    (htrans : ∀ {w x y}, R w x → R x y → R w y) (hcount : ∀ w : State, R w (w.modChm c fun x => { x with remain := x.remain - 1 }))
    (hnone : ∀ w : State, R w (w.modChm c fun x => { x with cmd := none })) (hraise : ∀ w code fields, R w (raise code fields w))
    (hend : ∀ w d n r, R w (endIssuer d n r w)) (hhalt : ∀ w n e, R w (haltSchedule c n e w))
    (hop : ∀ w op k tt rank, ((∃ g, groupTakes b due c = some g ∧ op = ((b.grp g).fire.map (·.1)).getD 0) ∨
      ∃ d, dueCmd b c = some d) → R w (applyOp b v c op k tt rank w)) (hentry : ∀ w e, R w (entryCurrent b v c e w))
    (hclear : ∀ w d, R w (clearCmd c d w)) (hswitch : ∀ w x k tt, R w (switchTo b v x k tt 4 w)) : R s (chamberActs b v due c s) := by
  have hdrop : ∀ (d : ChmCmd) (k : Nat) (w : State), R w
      (endIssuer d.desc 0x0C k (raise 0x030A [c, k] (w.modChm c fun x => { x with cmd := none }))) :=
    fun _ _ _ => htrans (hnone _) (htrans (hraise _ _ _) (hend _ _ _ _))
  have hstop : ∀ (p : Prop) [Decidable p] (k : Nat) (e : Option Nat) (w : State),
      R w (if p then haltSchedule c k e w else w) := fun p _ k e w => by
    split
    · exact hhalt w k e
    · exact hrefl w
  have hall : ∀ (xs : List Nat) (k : Nat) (tt : Bool) (w : State), R w (forEach xs (fun x s => switchTo b v x k tt 4 s) w) :=
    fun xs k tt w => forEach_keeps (fun u => R w u) xs _ (fun x u hu => htrans hu (hswitch u x k tt)) w (hrefl w)
  unfold chamberActs
  lift_lets
  intro ch ws fired entry t cmd
  have ht : R s t := by
    unfold t
    split
    · exact hcount _
    · exact hrefl _
  have hcmd : ∀ d, cmd = some d → dueCmd b c = some d := fun d hd => by
    unfold cmd at hd
    split at hd
    · exact absurd hd (by simp)
    · exact hd
  clear_value t cmd entry
  split
  next waiting u hu =>
  have hwaiting : ∀ d, waiting = some d → dueCmd b c = some d := fun d hd => by
    subst hd
    split at hu
    · split at hu
      · exact absurd hu (by simp)
      · obtain ⟨h, -⟩ := Prod.mk.inj hu
        exact hcmd d h
    · exact absurd hu (by simp)
  refine htrans (x := u) (htrans ht ?_) ?_
  · split at hu
    · split at hu
      all_goals
        obtain ⟨-, rfl⟩ := hu
      · exact hdrop _ _ _
      · exact hrefl _
    · obtain ⟨-, rfl⟩ := hu
      exact hrefl _
  · cases hg : groupTakes b due c with
    | some g =>
      refine htrans ?_ (htrans (hstop _ _ _ _) (hop _ _ _ _ _ (.inl ⟨g, hg, rfl⟩)))
      cases waiting with
      | some d => exact hdrop _ _ _
      | none => exact hrefl _
    | none =>
      cases waiting with
      | some d => exact htrans (htrans (hstop _ _ _ _) (hop _ _ _ _ _ (.inr ⟨d, hwaiting d rfl⟩))) (hclear _ _)
      | none =>
        dsimp only
        split
        · exact htrans (hstop _ _ _ _) (hall _ _ _ _)
        · cases entry with
          | some e => exact hentry _ _
          | none => exact hrefl _

/-- No switch group has moved from `s` to `t`. -/
def SameGroups (s t : State) : Prop := t.fab.groups = s.fab.groups

namespace SameGroups

variable {s t u b : State} {v : Nets} {c k : Nat} {l : List Part}

theorem refl : SameGroups s s := rfl

theorem trans (h : SameGroups s t) (h' : SameGroups t u) : SameGroups s u := Eq.trans h' h

theorem ite {p : Prop} [Decidable p] (h : SameGroups s t) (h' : SameGroups s u) : SameGroups s (if p then t else u) := by
  split
  · exact h
  · exact h'

theorem forEach {α : Type} {xs : List α} {f : α → State → State} (h : ∀ a w, SameGroups w (f a w)) :
    SameGroups s (Machine.forEach xs f s) :=
  forEach_keeps (fun w => SameGroups s w) xs f (fun a w hw => hw.trans (h a w)) s refl

/-- What leaves the fabric alone leaves its groups alone. -/
theorem elsewhere (h : Within l s t) (hl : (l.all fun p => p != .fab) = true := by rfl) : SameGroups s t := by
  have hfab : t.fab = s.fab := h.frame .fab fun hmem => by simpa using List.all_eq_true.1 hl _ hmem
  exact congrArg Fabric.groups hfab

theorem grp (h : SameGroups s t) (g : Nat) : t.grp g = s.grp g := by
  rw [State.grp, h, State.grp]

theorem raise {code : Nat} {fields : List Nat} : SameGroups s (Machine.raise code fields s) := elsewhere raise_within

theorem endIssuer {d : Option (Nat × Nat)} {a r : Nat} : SameGroups s (Machine.endIssuer d a r s) := elsewhere endIssuer_within

theorem modChm {f : Chamber → Chamber} : SameGroups s (s.modChm c f) := rfl

theorem modCol {f : Column → Column} : SameGroups s (s.modCol c f) := rfl

theorem holdTurn {mask : BitVec 8} : SameGroups s (Machine.holdTurn c mask s) := rfl

theorem leaveRun : SameGroups s (Machine.leaveRun b v c s) := by
  unfold Machine.leaveRun
  exact .ite modChm refl

theorem enterRun : SameGroups s (Machine.enterRun c s) := by
  unfold Machine.enterRun
  exact .ite holdTurn refl

theorem switchTo {tt : Bool} {rank : Nat} : SameGroups s (Machine.switchTo b v c k tt rank s) := by
  unfold Machine.switchTo
  refine .ite refl ?_
  exact (ite refl leaveRun).trans (modChm.trans (.ite
    (trans (t := latchFence c k _) modChm ((ite refl holdTurn).trans (.ite raise refl))) raise))

theorem holdChamber {hsrc : Nat} : SameGroups s (Machine.holdChamber b v c hsrc s) := by
  unfold Machine.holdChamber
  exact .ite refl (.ite refl (leaveRun.trans (modChm.trans raise)))

theorem releaseChamber {rank : Nat} : SameGroups s (Machine.releaseChamber c rank s) := by
  unfold Machine.releaseChamber
  exact .ite refl (.ite raise (modChm.trans ((ite (.ite modChm raise) refl).trans (raise.trans ((ite modCol refl).trans enterRun)))))

theorem stopSchedule {reason : Nat} : SameGroups s (Machine.stopSchedule c reason s) := by
  unfold Machine.stopSchedule
  exact .ite (modChm.trans ((elsewhere State.setRegF_within).trans raise)) refl

theorem haltSchedule {reason : Nat} {due : Option Nat} : SameGroups s (Machine.haltSchedule c reason due s) := by
  unfold Machine.haltSchedule
  split
  · split
    · exact refl
    · exact modChm.trans ((elsewhere State.setRegF_within).trans raise)
  · exact stopSchedule

theorem applyOp {op rank : Nat} {tt : Bool} : SameGroups s (Machine.applyOp b v c op k tt rank s) := by
  unfold Machine.applyOp
  split
  · exact .forEach fun _ _ => .ite modChm switchTo
  · exact .forEach fun _ _ => holdChamber
  · exact .forEach fun _ _ => releaseChamber
  · exact refl

theorem entryCurrent {e : Nat} : SameGroups s (Machine.entryCurrent b v c e s) := by
  unfold Machine.entryCurrent
  exact modChm.trans (.ite stopSchedule (modChm.trans (.forEach fun _ _ => switchTo)))

theorem clearCmd {d : ChmCmd} : SameGroups s (Machine.clearCmd c d s) := by
  unfold Machine.clearCmd
  exact modChm.trans endIssuer

theorem chamberActs {due : List Nat} : SameGroups s (Machine.chamberActs b v due c s) :=
  chamberActs_of (fun _ => refl) trans (fun _ => modChm) (fun _ => modChm) (fun _ _ _ => raise) (fun _ _ _ _ => endIssuer) (fun _ _ _ => haltSchedule)
    (fun _ _ _ _ _ _ => applyOp) (fun _ _ => entryCurrent) (fun _ _ => clearCmd) (fun _ _ _ _ => switchTo)

theorem compareDigests : SameGroups s (Machine.compareDigests b v c s) := by
  have hdetect : ∀ (w : State) (x y : Word), SameGroups w (lockDetect c 4 x y w) := fun w x y => by
    unfold lockDetect
    exact raise.trans (modCol.trans ((elsewhere State.modLib_within).trans (modChm.trans (modChm.trans
      (.ite (elsewhere failSilent_within) refl)))))
  unfold Machine.compareDigests
  refine .ite refl ?_
  split
  · exact modCol.trans (.ite refl (hdetect _ _ _))
  · exact modCol

theorem deviceActs : SameGroups s (Machine.deviceActs b v c s) := by
  have hquar : ∀ (w : State) (k j : Nat), SameGroups w (quarantineOne b v c k j w) := fun w k j => by
    unfold quarantineOne
    exact .ite refl ((ite leaveRun refl).trans (trans (t := State.modStrat _ _ _ _) modChm raise))
  unfold Machine.deviceActs
  exact (ite refl (modChm.trans modChm)).trans ((ite refl (modChm.trans (holdChamber.trans (.ite modChm refl)))).trans
    (modChm.trans (.forEach fun _ _ => (hquar _ _ _).trans (.ite modCol refl))))

theorem edgeLoads {clks : List Nat} : SameGroups b (Sys2Proof.edgeLoads clks b) := by
  have hpin : ∀ (x : Nat) (w : State), SameGroups w (edgeCounts x w) := fun x w => by
    unfold edgeCounts pinEdge
    refine trans (ite ?_ refl) (.ite modCol refl)
    refine trans (ite ?_ refl) (.ite refl modChm)
    split
    · exact refl
    · exact .forEach fun _ _ => .ite (elsewhere loadPin_within) refl
  unfold Sys2Proof.edgeLoads
  refine trans (t := settleKeepers b.nets b) (.forEach fun _ _ => modCol) ?_
  refine trans (.forEach fun x w => ?_) (trans (.forEach hpin) (trans (.forEach fun _ _ => compareDigests)
    (trans (.forEach fun _ _ => deviceActs) (.forEach fun x w => ?_))))
  · unfold loadAtEdges
    exact .ite refl (.forEach fun _ _ => modChm)
  · unfold countWaits
    exact .ite refl modChm

theorem edgeEnds : SameGroups s (Machine.edgeEnds b c s) := by
  have hparked : ∀ w, SameGroups w (deliverParked c w) := fun w => by
    unfold deliverParked
    refine .ite ?_ refl
    split
    · exact refl
    · exact trans (t := State.modStrat _ _ _ _) modChm (elsewhere State.send_within)
  unfold Machine.edgeEnds afterSwitch
  exact (ite enterRun refl).trans ((ite (elsewhere failSilent_within) refl).trans (hparked _))

/-- What an edge does after its counts of groups. -/
theorem edgeLeaves {clks xs : List Nat} :
    SameGroups t (watchShafts (leaveUnreleased b clks (Machine.forEach xs (Machine.edgeEnds b) t))).fresh := by
  have hone : ∀ (x : Nat) (w : State), SameGroups w (releaseOne x w) := fun x w => by
    unfold releaseOne
    exact modChm.trans (.ite refl raise)
  have hleave : ∀ w, SameGroups w (leaveUnreleased b clks w) := fun w => by
    unfold leaveUnreleased
    exact .ite refl (trans (.forEach hone) rfl)
  have hwatch : ∀ w, SameGroups w (watchShafts w) := fun w => by
    unfold watchShafts
    exact .forEach fun _ _ => .ite refl modCol
  exact (forEach fun _ _ => edgeEnds).trans ((hleave _).trans ((hwatch _).trans rfl))

end SameGroups

end Sys2Proof

/-! What an edge does to the groups that take effect there. -/

namespace Sys2Proof

open Sys2Proof.Machine

@[simp] theorem grp_modGrp_same (s : State) (g : Nat) (f : SwGroup → SwGroup) : (s.modGrp g f).grp g = f (s.grp g) := by
  simp [State.modGrp, State.grp]

theorem grp_modGrp_other (s : State) (g : Nat) (f : SwGroup → SwGroup) {x : Nat} (h : x ≠ g) :
    (s.modGrp g f).grp x = s.grp x := by
  simp [State.modGrp, State.grp, tabGet_tabMod_other, h]

/-- The members that group `g` skips, with the reasons. -/
def skipsOf (b : State) (due : List Nat) (g op : Nat) : List (Nat × Nat) :=
  (groupMembers b g).filterMap fun c => (whySkipped b due g op c).map fun w => (c, w)

/-- The end of one group that took effect. -/
def groupEnded (b : State) (due : List Nat) (g : Nat) (s : State) : State :=
  match (b.grp g).fire with
  | none => s
  | some (op, desc) =>
    let n := (skipsOf b due g op).length
    let s := (forEach (skipsOf b due g op) (fun p s => raise 0x0308 [g, p.1, p.2] s) s).modGrp g fun x =>
      { x with fire := none, lastop := op, skipped := n }
    if op = 1 ∨ n = 0 then endIssuer desc 0 n s else endIssuer desc 0x0C 3 s

section
variable {b s t : State} {due clks : List Nat} {g : Nat}

theorem groupsEnd_eq : groupsEnd b due s = forEach due (groupEnded b due) s := rfl

theorem groupEnded_within : Within (.fab :: .que :: events) s (groupEnded b due g s) := by
  unfold groupEnded
  split
  · exact .refl
  · exact (Within.forEach fun _ _ => raise_within.mono).step State.modGrp_within |>.trans (.ite endIssuer_within.mono endIssuer_within.mono)

theorem groupEnded_grp {op : Nat} {d : Option (Nat × Nat)} (hfire : (b.grp g).fire = some (op, d)) (x : Nat) :
    (groupEnded b due g s).grp x = if x = g then
      { s.grp g with fire := none, lastop := op, skipped := (skipsOf b due g op).length } else s.grp x := by
  have hraise : SameGroups s (forEach (skipsOf b due g op) (fun p s => raise 0x0308 [g, p.1, p.2] s) s) :=
    .forEach fun _ _ => .raise
  have hend : ∀ (w : State) (p : Prop) [Decidable p] (n : Nat),
      (if p then endIssuer d 0 n w else endIssuer d 0x0C 3 w).grp x = w.grp x := fun w p _ n =>
    SameGroups.grp (.ite .endIssuer .endIssuer) x
  unfold groupEnded
  rw [hfire]
  dsimp only
  rw [hend]
  split
  next h => rw [h, grp_modGrp_same, hraise.grp]
  next h => rw [grp_modGrp_other _ _ _ h, hraise.grp]

theorem groupEnded_idle (hfire : (b.grp g).fire = none) : groupEnded b due g s = s := by
  unfold groupEnded
  rw [hfire]

/-- A group whose fire has taken effect. -/
structure GroupDone (op n : Nat) (x : SwGroup) : Prop where
  fire : x.fire = none
  lastop : x.lastop = op
  skipped : x.skipped = n

/-- A group that takes effect ends, and what it counts of its source's trigger stays. -/
theorem groupsEnd_grp {op : Nat} {d : Option (Nat × Nat)} {y : Bool} (hmem : g ∈ due) (hfire : (b.grp g).fire = some (op, d))
    (hnew : (t.grp g).trigNew = y) :
    GroupDone op (skipsOf b due g op).length ((groupsEnd b due t).grp g) ∧ ((groupsEnd b due t).grp g).trigNew = y := by
  have hstep : ∀ (x : Nat) (w : State), ((groupEnded b due x w).grp g).trigNew = (w.grp g).trigNew := fun x w => by
    rcases hx : (b.grp x).fire with _ | ⟨o, d'⟩
    · rw [groupEnded_idle hx]
    · rw [groupEnded_grp hx]
      split
      next h => rw [h]
      · rfl
  have hset : ∀ w : State, GroupDone op (skipsOf b due g op).length ((groupEnded b due g w).grp g) := fun w => by
    rw [groupEnded_grp hfire, if_pos rfl]
    generalize (skipsOf b due g op).length = n
    exact ⟨rfl, rfl, rfl⟩
  rw [groupsEnd_eq]
  refine ⟨forEach_establishes (P := fun _ => True) (Q := fun w => GroupDone op (skipsOf b due g op).length (w.grp g)) hmem (fun _ _ _ => trivial) (fun x w _ hw => ?_) (fun w _ => hset w) trivial, ?_⟩
  · by_cases hx : g = x
    · exact hx ▸ hset w
    · rcases hfx : (b.grp x).fire with _ | ⟨o, d'⟩
      · rwa [groupEnded_idle hfx]
      · rwa [groupEnded_grp hfx, if_neg hx]
  · exact forEach_keeps (fun w => (w.grp g).trigNew = y) _ _ (fun x w hw => (hstep x w).trans hw) _ hnew

/-- Every member that a group skips is told (R164). -/
theorem groupsEnd_raised {op : Nat} {d : Option (Nat × Nat)} {p : Nat × Nat} (hmem : g ∈ due) (hfire : (b.grp g).fire = some (op, d))
    (hp : p ∈ skipsOf b due g op) : Raised t (groupsEnd b due t) 0x0308 [g, p.1, p.2] := by
  rw [groupsEnd_eq]
  refine forEach_establishes (P := fun w => w.now = t.now) (Q := fun w => Raised t w 0x0308 [g, p.1, p.2]) hmem
    (fun x w hw => groupEnded_within.now.trans hw) (fun x w _ hw => hw.within groupEnded_within) (fun w hw => ?_) rfl
  have hskips : Raised t (forEach (skipsOf b due g op) (fun p s => raise 0x0308 [g, p.1, p.2] s) w) 0x0308 [g, p.1, p.2] := by
    refine forEach_establishes (P := fun w => w.now = t.now) (Q := fun w => Raised t w 0x0308 [g, p.1, p.2]) hp
      (fun q w hw => raise_within.now.trans hw)
      (fun q w _ hw => hw.within raise_within) (fun w hw => ?_) hw
    have hraise := raised_raise 0x0308 [g, p.1, p.2] w
    unfold Raised at hraise ⊢
    rwa [hw] at hraise
  unfold groupEnded
  rw [hfire]
  exact (hskips.within State.modGrp_within).within (l := [.que]) (.ite endIssuer_within endIssuer_within)

/- ### The counts of groups -/

/-- A group's counts at an edge of its clock. -/
def groupCounted (x : SwGroup) : SwGroup := { x with trig := x.trigNew, trigNew := false, fireWait := x.fireWait - 1 }

/-- The triggers of chamber `c` at an edge. -/
def triggersGroups (b : State) (v : Nets) (clks : List Nat) (c : Nat) (s : State) : State :=
  if clks.contains (b.chm c).swclkUse && triggerOn b v c then
    forEach (trigGroups b c) (fun g s =>
      if (b.chm c).swclkUse = b.regF (grpReg g 0) 0 5 then s.modGrp g fun x => { x with trigNew := true }
      else raise 0x0308 [g, c, 1] s) s
  else s

theorem groupCounts_eq {v : Nets} : groupCounts b v clks s =
    forEach (b.fab.chambers.map (·.1)) (triggersGroups b v clks)
      (forEach (groupsOn b clks) (fun g s => s.modGrp g groupCounted) s) := rfl

theorem triggersGroups_keeps {v : Nets} {c : Nat} {P : SwGroup → Prop} (hP : ∀ x, P x → P { x with trigNew := true })
    (h : P (s.grp g)) : P ((triggersGroups b v clks c s).grp g) := by
  unfold triggersGroups
  split
  · refine forEach_keeps (fun w => P (w.grp g)) _ _ (fun x w hw => ?_) s h
    split
    · by_cases hx : g = x
      · subst hx
        rw [grp_modGrp_same]
        exact hP _ hw
      · rwa [grp_modGrp_other _ _ _ hx]
    · rwa [SameGroups.grp .raise]
  · exact h

theorem groupCounts_done {v : Nets} {op n : Nat} (h : GroupDone op n (s.grp g)) : GroupDone op n ((groupCounts b v clks s).grp g) := by
  rw [groupCounts_eq]
  refine forEach_keeps (fun w => GroupDone op n (w.grp g)) _ _
    (fun c w hw => triggersGroups_keeps (fun x hx => ⟨hx.fire, hx.lastop, hx.skipped⟩) hw) _ ?_
  refine forEach_keeps (fun w => GroupDone op n (w.grp g)) _ _ (fun x w hw => ?_) s h
  by_cases hx : g = x
  · subst hx
    rw [grp_modGrp_same]
    exact ⟨hw.fire, hw.lastop, hw.skipped⟩
  · rwa [grp_modGrp_other _ _ _ hx]

theorem groupCounts_trig {v : Nets} {y : Bool} (hmem : g ∈ groupsOn b clks) (h : (s.grp g).trigNew = y) :
    ((groupCounts b v clks s).grp g).trig = y := by
  rw [groupCounts_eq]
  refine forEach_keeps (fun w => (w.grp g).trig = y) _ _ (fun c w hw => triggersGroups_keeps (P := fun x => x.trig = y) (fun _ => id) hw) _ ?_
  have hnodup : (groupsOn b clks).Nodup := List.nodup_range.filter _
  have hother : ∀ (l : List Nat), g ∉ l → ∀ w, (forEach l (fun g s => s.modGrp g groupCounted) w).grp g = w.grp g := by
    intro l
    induction l with
    | nil => exact fun _ _ => rfl
    | cons x l ih =>
      intro hl w
      rw [forEach_cons, ih (fun h => hl (by simp [h])), grp_modGrp_other _ _ _ (fun h => hl (by simp [h]))]
  obtain ⟨l, r, hsplit⟩ := List.append_of_mem hmem
  rw [hsplit] at hnodup ⊢
  have hl : g ∉ l := fun h => (List.nodup_append.1 hnodup).2.2 g h g (by simp) rfl
  have hr : g ∉ r := (List.nodup_cons.1 (List.nodup_append.1 hnodup).2.1).1
  rw [forEach, List.foldl_append, List.foldl_cons]
  show ((forEach r (fun g s => s.modGrp g groupCounted) ((forEach l (fun g s => s.modGrp g groupCounted) s).modGrp g groupCounted)).grp g).trig = y
  rw [hother r hr, grp_modGrp_same, hother l hl]
  exact h

theorem triggersGroups_within {v : Nets} {c : Nat} : Within (.fab :: events) s (triggersGroups b v clks c s) := by
  unfold triggersGroups
  exact .ite (.forEach fun _ _ => .ite State.modGrp_within.mono raise_within.mono) .refl

/-- A trigger on the group's own clock arms it (R157). -/
theorem groupCounts_triggered {v : Nets} {c : Nat} (hc : (c, b.chm c) ∈ b.fab.chambers) (hclk : clks.contains (b.chm c).swclkUse = true)
    (hon : triggerOn b v c = true) (hgroups : trigGroups b c = [g]) (hsame : (b.chm c).swclkUse = b.regF (grpReg g 0) 0 5) :
    ((groupCounts b v clks s).grp g).trigNew = true := by
  rw [groupCounts_eq]
  refine forEach_establishes (P := fun _ => True) (Q := fun w => (w.grp g).trigNew = true) (List.mem_map.2 ⟨_, hc, rfl⟩)
    (fun _ _ _ => trivial) (fun x w _ hw => triggersGroups_keeps (P := fun x => x.trigNew = true) (fun _ _ => rfl) hw)
    (fun w _ => ?_) trivial
  unfold triggersGroups
  rw [if_pos (by rw [hclk, hon]; rfl), hgroups, forEach_cons, forEach_nil, if_pos hsame, grp_modGrp_same]

/-- A trigger on another clock is skipped (R163, R164). -/
theorem groupCounts_skipped {v : Nets} {c : Nat} (hc : (c, b.chm c) ∈ b.fab.chambers) (hclk : clks.contains (b.chm c).swclkUse = true)
    (hon : triggerOn b v c = true) (hgroups : trigGroups b c = [g]) (hother : (b.chm c).swclkUse ≠ b.regF (grpReg g 0) 0 5) :
    Raised s (groupCounts b v clks s) 0x0308 [g, c, 1] := by
  rw [groupCounts_eq]
  refine forEach_establishes (P := fun w => w.now = s.now) (Q := fun w => Raised s w 0x0308 [g, c, 1]) (List.mem_map.2 ⟨_, hc, rfl⟩)
    (fun x w hw => triggersGroups_within.now.trans hw) (fun x w _ hw => hw.within triggersGroups_within) (fun w hw => ?_) ?_
  · unfold triggersGroups
    rw [if_pos (by rw [hclk, hon]; rfl), hgroups, forEach_cons, forEach_nil, if_neg hother]
    have hraise := raised_raise 0x0308 [g, c, 1] w
    unfold Raised at hraise ⊢
    rwa [hw] at hraise
  · exact forEach_keeps (fun w => w.now = s.now) _ _ (fun x w hw => State.modGrp_within.now.trans hw) s rfl

end

end Sys2Proof

/-! Groups and their triggers at an edge that a command brings, and the whole of schedules and groups. -/

namespace Sys2Proof

open Sys2Proof.Machine

section
variable {s t b : State} {g : Nat} {clks : List Nat}

/-- The trigger of one group at the second edge of its clock (R157, R163). -/
def trigFired (g : Nat) (s : State) : State :=
  let r := s.reg (grpReg g 0)
  let c := fld r 16 9
  if !(s.grp g).trig || !bit r 31 || !bit r 29 then s
  else if (s.chm c).swclkUse = fld r 0 5 then
    let s := match (s.grp g).fire with
      | some (_, d) => endIssuer d 0x0C 1 s
      | none => s
    s.modGrp g fun x => { x with fire := some (1, none), fireWait := 0 }
  else raise 0x0308 [g, c, 1] s

theorem trigFires_eq (clks : List Nat) (s : State) : trigFires clks s = forEach (groupsOn s clks) trigFired s := rfl

/-- What replaces a waiting fire ends its descriptor, and nothing of the groups. -/
theorem fireReplaced_grp (w : State) : SameGroups w (match (w.grp g).fire with
    | some (_, d) => endIssuer d 0x0C 1 w
    | none => w) := by
  split
  · exact .endIssuer
  · exact .refl

theorem trigFired_other {x : Nat} (h : x ≠ g) (w : State) : (trigFired g w).grp x = w.grp x := by
  unfold trigFired
  dsimp only
  split
  · rfl
  · split
    · exact (grp_modGrp_other _ _ _ h).trans ((fireReplaced_grp w).grp x)
    · exact SameGroups.raise.grp x

theorem trigFired_idle (h : (s.grp g).trig = false) : trigFired g s = s := by
  unfold trigFired
  exact if_pos (by simp [h])

theorem trigFired_seen {c : Nat} {m : Prop} : Seen c m s (trigFired g s) := by
  have hreplaced : ∀ w : State, Seen c m w (match (w.grp g).fire with
      | some (_, d) => endIssuer d 0x0C 1 w
      | none => w) := fun w => by
    split
    · exact endIssuer_seen
    · exact .refl
  unfold trigFired
  exact .ite (fun _ => .refl) fun _ => .ite (fun _ => (hreplaced _).trans .modGrp) fun _ => raise_seen

theorem trigFired_fires (htrig : (s.grp g).trig = true) (hen : s.regB (grpReg g 0) 31 = true) (hsrc : s.regB (grpReg g 0) 29 = true)
    (hclk : (s.chm (s.regF (grpReg g 0) 16 9)).swclkUse = s.regF (grpReg g 0) 0 5) :
    (trigFired g s).grp g = { s.grp g with fire := some (1, none), fireWait := 0 } := by
  unfold trigFired
  dsimp only
  have hclk' : (s.chm (fld (s.reg (grpReg g 0)) 16 9)).swclkUse = fld (s.reg (grpReg g 0)) 0 5 := hclk
  rw [if_neg (by simpa [htrig] using ⟨hen, hsrc⟩), if_pos hclk', grp_modGrp_same, (fireReplaced_grp s).grp]

theorem trigFires_calm (h : (s.grp g).trig = false) : (trigFires clks s).grp g = s.grp g := by
  rw [trigFires_eq]
  refine forEach_keeps (fun w => w.grp g = s.grp g) _ _ (fun x w hw => ?_) s rfl
  by_cases hx : g = x
  · subst hx
    rwa [trigFired_idle (by rw [hw]; exact h)]
  · exact (trigFired_other hx w).trans hw

theorem edgeStart_grp {k : Nat} (h : (s.grp g).trig = false) : (edgeStart k s).grp g = s.grp g :=
  trigFires_calm (s := s.modFab fun f => { f with
    early := ((coincident s k).filter (clockRuns s)).foldl (fun t n => tabMod 0 t n (· + 1)) f.early }) h

theorem edgeStart_fires {k : Nat} (hk : k = s.regF (grpReg g 0) 0 5) (hg : g < 16) (htrig : (s.grp g).trig = true)
    (hen : s.regB (grpReg g 0) 31 = true) (hsrc : s.regB (grpReg g 0) 29 = true)
    (hclk : (s.chm (s.regF (grpReg g 0) 16 9)).swclkUse = s.regF (grpReg g 0) 0 5) :
    (edgeStart k s).grp g = { s.grp g with fire := some (1, none), fireWait := 0 } := by
  obtain ⟨w, hw⟩ : ∃ w, s.modFab (fun f => { f with
    early := ((coincident s k).filter (clockRuns s)).foldl (fun t n => tabMod 0 t n (· + 1)) f.early }) = w := ⟨_, rfl⟩
  have hgrp : w.grp g = s.grp g := by rw [← hw]; rfl
  have hreg : ∀ o, w.reg o = s.reg o := fun o => by rw [← hw]; rfl
  have hchm : ∀ c, w.chm c = s.chm c := fun c => by rw [← hw]; rfl
  rw [edgeStart, hw, trigFires_eq]
  refine forEach_establishes (a := g)
    (P := fun x => (x.grp g).trig = true ∧ { x.grp g with fire := some (1, none), fireWait := 0 } =
      { s.grp g with fire := some (1, none), fireWait := 0 } ∧ (∀ o, x.reg o = s.reg o) ∧ ∀ c, (x.chm c).swclkUse = (s.chm c).swclkUse)
    (Q := fun x => x.grp g = { s.grp g with fire := some (1, none), fireWait := 0 }) ?_ ?_ ?_ ?_
    ⟨by rw [hgrp]; exact htrig, by rw [hgrp], hreg, fun c => by rw [hchm]⟩
  · refine List.mem_filter.2 ⟨List.mem_range.2 hg, ?_⟩
    rw [State.regF, hreg, ← State.regF, ← hk]
    simpa using mem_coincident s k
  · rintro x y ⟨hon, hsame, hr, hc⟩
    have hregs : ∀ o, (trigFired x y).reg o = s.reg o := fun o => by
      have hwithin : Within (.fab :: .que :: events) y (trigFired x y) := by
        unfold trigFired
        refine .ite .refl (.ite (.step ?_ State.modGrp_within) raise_within.mono)
        split
        · exact endIssuer_within.mono
        · exact .refl
      exact (hwithin.frame .regs (by decide) o).trans (hr o)
    refine ⟨?_, ?_, hregs, fun c => (trigFired_seen (c := c) (m := False)).swclkUse.trans (hc c)⟩
    all_goals
      by_cases hx : g = x
      · subst hx
        rw [trigFired_fires hon (by rw [State.regB, hr]; exact hen) (by rw [State.regB, hr]; exact hsrc)
          (by rw [hc, State.regF, State.regF, hr]; exact hclk)]
        assumption
      · rw [trigFired_other hx]
        assumption
  · rintro x y ⟨hon, -, hr, hc⟩ hy
    by_cases hx : g = x
    · subst hx
      rw [trigFired_fires hon (by rw [State.regB, hr]; exact hen) (by rw [State.regB, hr]; exact hsrc)
        (by rw [hc, State.regF, State.regF, hr]; exact hclk), hy]
    · rwa [trigFired_other hx]
  · rintro y ⟨hon, hsame, hr, hc⟩
    rwa [trigFired_fires hon (by rw [State.regB, hr]; exact hen) (by rw [State.regB, hr]; exact hsrc)
      (by rw [hc, State.regF, State.regF, hr]; exact hclk)]

theorem edgeStart_regF (k o lo len : Nat) : (edgeStart k s).regF o lo len = s.regF o lo len := by
  rw [State.regF, edgeStart_reg, State.regF]

theorem mem_dueGroups {k : Nat} (hk : k = s.regF (grpReg g 0) 0 5) (hg : g < 16)
    (hfire : ((edgeStart k s).grp g).fire.isSome = true) (hwait : ((edgeStart k s).grp g).fireWait = 0) :
    g ∈ dueGroups (edgeStart k s) (coincident s k) := by
  refine List.mem_filter.2 ⟨List.mem_filter.2 ⟨List.mem_range.2 hg, ?_⟩, by simp [hfire, hwait]⟩
  rw [edgeStart_regF, ← hk]
  simpa using mem_coincident s k

theorem edgeCloses_groups : SameGroups (groupCounts b b.nets clks (groupsEnd b (dueGroups b clks) t)) (edgeCloses clks b t) :=
  SameGroups.edgeLeaves

theorem edgeCloses_within : Within (.fab :: .cry :: .gvl :: .twn :: .pin :: .seed :: events)
    (groupCounts b b.nets clks (groupsEnd b (dueGroups b clks) t)) (edgeCloses clks b t) :=
  (Within.forEach fun _ _ => edgeEnds_within.mono).step leaveUnreleased_within |>.step watchShafts_within |>.step State.fresh_within

/-- What an edge does before its groups end. -/
theorem edgeActs_within {due : List Nat} {k : Nat} {l : List Nat} :
    Within (.regs :: .fab :: .lib :: .que :: .cry :: .gvl :: .twn :: .pin :: .seed :: events) s
      (forEach l (chamberActs (edgeStart k s) (edgeStart k s).nets due) (edgeLoads clks (edgeStart k s))) := by
  have hloads : ∀ b, Within (.regs :: .fab :: .lib :: .que :: .cry :: .gvl :: .twn :: .pin :: .seed :: events) b (edgeLoads clks b) :=
    fun b => (settleKeepers_within.mono.trans (.forEach fun _ _ => loadAtEdges_within.mono))
      |>.trans (.forEach fun _ _ => edgeCounts_within.mono) |>.trans (.forEach fun _ _ => compareDigests_within.mono)
      |>.trans (.forEach fun _ _ => deviceActs_within.mono) |>.trans (.forEach fun _ _ => countWaits_within.mono)
  exact ((edgeStart_within k s).mono.trans (hloads _)).trans (.forEach fun _ _ => chamberActs_within.mono)

theorem groupsEnded_within {due : List Nat} {k : Nat} {l : List Nat} :
    Within (.regs :: .fab :: .lib :: .que :: .cry :: .gvl :: .twn :: .pin :: .seed :: events) s
      (groupsEnd (edgeStart k s) due (forEach l (chamberActs (edgeStart k s) (edgeStart k s).nets due) (edgeLoads clks (edgeStart k s)))) :=
  edgeActs_within.trans groupsEnd_within.mono

/-- No group has moved before the groups of an edge end. -/
theorem edgeActs_groups {due : List Nat} {v : Nets} {l : List Nat} :
    SameGroups b (forEach l (chamberActs b v due) (edgeLoads clks b)) :=
  SameGroups.edgeLoads.trans (.forEach fun _ _ => .chamberActs)

/-- A chamber that is released is listed. -/
theorem mem_chambers (b : State) {c : Nat} (hrel : (b.chm c).released = true) : (c, b.chm c) ∈ b.fab.chambers :=
  mem_of_tabGet fun h => by
    rw [State.chm, h] at hrel
    cases hrel

end

/- ### Triggers -/

section
variable {s : State} {c : ChamberId} {h : GroupId}

theorem execFabricTrigger_on (hon : triggerOn s s.nets c = true) (hcan : edgeCan s c = true) :
    exec (.fabricTrigger c) s = .next (bringEdge (s.chm c).swclkUse s) := by
  refine congrArg Host.Outcome.next ?_
  rw [hon, hcan]
  rfl

theorem trigGroups_edgeStart (k : Nat) : trigGroups (edgeStart k s) c = trigGroups s c := by
  simp only [trigGroups, edgeStart_reg]

theorem fabricTrigger_arms (hon : triggerOn s s.nets c = true) (hcan : edgeCan s c = true) (hrole : s.twn.role = 0)
    (hgroups : trigGroups s c = [h.val]) (hsame : (s.chm c).swclkUse = s.regF (grpReg h 0) 0 5) :
    Completes (.fabricTrigger c) s fun t => (t.grp h).trigNew = true ∧ OnlyChanges edgeParts s t := by
  obtain ⟨hrel, -⟩ := edgeCan_spec hcan
  refine ⟨_, execFabricTrigger_on hon hcan, ?_, (bringEdge_alone (by simp [State.paired, hrole])).frame⟩
  have hchm := edgeStart_chm (s.chm c).swclkUse s c
  rw [bringEdge_eq, edgeCloses_groups.grp]
  exact groupCounts_triggered (mem_chambers _ (by rw [hchm, hrel])) (by rw [hchm]; simpa using mem_coincident s _)
    (((edgeStart_sameFabric _ s).triggerOn c).trans hon) ((trigGroups_edgeStart _).trans hgroups)
    (by rw [hchm, edgeStart_regF]; exact hsame)

theorem fabricTrigger_skips (hon : triggerOn s s.nets c = true) (hcan : edgeCan s c = true) (hrole : s.twn.role = 0)
    (hgroups : trigGroups s c = [h.val]) (hother : (s.chm c).swclkUse ≠ s.regF (grpReg h 0) 0 5) :
    Completes (.fabricTrigger c) s fun t => Raised s t 0x0308 [h, c, 1] ∧ OnlyChanges edgeParts s t := by
  obtain ⟨hrel, -⟩ := edgeCan_spec hcan
  refine ⟨_, execFabricTrigger_on hon hcan, ?_, (bringEdge_alone (by simp [State.paired, hrole])).frame⟩
  have hchm := edgeStart_chm (s.chm c).swclkUse s c
  rw [bringEdge_eq]
  refine Raised.within (Raised.before (groupCounts_skipped (mem_chambers _ (by rw [hchm, hrel]))
    (by rw [hchm]; simpa using mem_coincident s _) (((edgeStart_sameFabric _ s).triggerOn c).trans hon)
    ((trigGroups_edgeStart _).trans hgroups) (by rw [hchm, edgeStart_regF]; exact hother)) groupsEnded_within) edgeCloses_within

end

/- ### Fires -/

/-- A group that takes effect at an edge. -/
theorem bringEdge_groupDone {s b : State} {k g op : Nat} {d : Option (Nat × Nat)} (hb : edgeStart k s = b)
    (hdue : g ∈ dueGroups b (coincident s k)) (hfire : (b.grp g).fire = some (op, d)) :
    GroupDone op (skipsOf b (dueGroups b (coincident s k)) g op).length ((bringEdge k s).grp g) ∧
      ((bringEdge k s).grp g).trig = (b.grp g).trigNew := by
  rw [bringEdge_eq, edgeCloses_groups.grp, hb]
  obtain ⟨w, hw⟩ : ∃ w, forEach (governorsOn b (coincident s k)) (chamberActs b b.nets (dueGroups b (coincident s k)))
      (edgeLoads (coincident s k) b) = w := ⟨_, rfl⟩
  have hgrp : w.grp g = b.grp g := by
    rw [← hw]
    exact edgeActs_groups.grp g
  rw [hw]
  obtain ⟨hdone, hnew⟩ := groupsEnd_grp (t := w) (y := (b.grp g).trigNew) hdue hfire (by rw [hgrp])
  exact ⟨groupCounts_done hdone, groupCounts_trig (List.mem_filter.1 hdue).1 hnew⟩

/-- What a group skips at its edge is told. -/
theorem bringEdge_skips {s b : State} {k g op : Nat} {d : Option (Nat × Nat)} {p : Nat × Nat} (hb : edgeStart k s = b)
    (hdue : g ∈ dueGroups b (coincident s k)) (hfire : (b.grp g).fire = some (op, d))
    (hp : p ∈ skipsOf b (dueGroups b (coincident s k)) g op) : Raised s (bringEdge k s) 0x0308 [g, p.1, p.2] := by
  subst hb
  rw [bringEdge_eq]
  exact (((groupsEnd_raised hdue hfire hp).before edgeActs_within).within groupCounts_within).within edgeCloses_within

section
variable {s : State} {g : GroupId}

theorem groupTriggerFire_spec (hrun : clocksRun s = true) (hrel : s.fab.released = true) (hrole : s.twn.role = 0)
    (htrig : (s.grp g).trig = true) (hen : s.regB (grpReg g 0) 31 = true) (hsrc : s.regB (grpReg g 0) 29 = true)
    (hclk : (s.chm (s.regF (grpReg g 0) 16 9)).swclkUse = s.regF (grpReg g 0) 0 5) :
    Completes (.groupTriggerFire g) s fun t =>
      (t.grp g).trig = (s.grp g).trigNew ∧ (t.grp g).fire = none ∧ (t.grp g).lastop = 1 ∧ OnlyChanges edgeParts s t := by
  have hexec : exec (.groupTriggerFire g) s = .next (bringEdge (s.regF (grpReg g 0) 0 5) s) := by
    refine congrArg Host.Outcome.next ?_
    rw [htrig, hrun, hrel]
    rfl
  have hb := edgeStart_fires (k := s.regF (grpReg g 0) 0 5) rfl g.isLt htrig hen hsrc hclk
  have hfire : ((edgeStart (s.regF (grpReg g 0) 0 5) s).grp g).fire = some (1, none) := by rw [hb]
  obtain ⟨hdone, htrignew⟩ := bringEdge_groupDone rfl (mem_dueGroups rfl g.isLt (by rw [hfire]; rfl) (by rw [hb])) hfire
  exact ⟨_, hexec, htrignew.trans (by rw [hb]), hdone.fire, hdone.lastop, (bringEdge_alone (by simp [State.paired, hrole])).frame⟩

theorem execGroupFire (hrun : clocksRun s = true) (hrel : s.fab.released = true) {op : Nat} {d : Option (Nat × Nat)}
    (hfire : (s.grp g).fire = some (op, d)) (hwait : (s.grp g).fireWait = 0) :
    exec (.groupFireEffect g) s = .next (bringEdge (s.regF (grpReg g 0) 0 5) s) := by
  refine congrArg Host.Outcome.next ?_
  rw [hfire, hwait, hrun, hrel]
  rfl

theorem overruled_edgeStart (k op c : Nat) : overruled (edgeStart k s) op c = overruled s op c := by
  have hsame := edgeStart_sameFabric k s
  have hdue : deviceDue (edgeStart k s) = deviceDue s := by
    funext x
    rw [deviceDue, hsame.chm, deviceDue]
  rw [overruled, State.acting, hsame.col, hdue, overruled, State.acting]

theorem skipReason_edgeStart (k g op c : Nat) : skipReason (edgeStart k s) g op c = skipReason s g op c := by
  have hsame := edgeStart_sameFabric k s
  have hlead : (edgeStart k s).lead c = s.lead c := by
    rw [State.lead, State.acting, hsame.col, State.lead, State.acting]
  unfold skipReason
  simp only [hlead, hsame.chmState, hsame.chm, edgeStart_regF, overruled_edgeStart]

theorem groupMembers_edgeStart (k g : Nat) : groupMembers (edgeStart k s) g = groupMembers s g := by
  have hsame := edgeStart_sameFabric k s
  simp only [groupMembers, State.gov, hsame.col, State.regB, edgeStart_reg]

/-- A group that skips every member. -/
theorem groupFire_skipsAll {op : Nat} (hrun : clocksRun s = true) (hrel : s.fab.released = true) (hrole : s.twn.role = 0)
    (hfire : (s.grp g).fire = some (op, none)) (hwait : (s.grp g).fireWait = 0) (htrig : (s.grp g).trig = false)
    (hskip : ∀ c ∈ groupMembers s g, (skipReason s g op c).isSome = true) : Completes (.groupFireEffect g) s fun t =>
      (t.grp g).fire = none ∧ (t.grp g).lastop = op ∧ (t.grp g).skipped = (groupMembers s g).length ∧
      (∀ c ∈ groupMembers s g, ∀ why, skipReason s g op c = some why → Raised s t 0x0308 [g, c, why]) ∧
      OnlyChanges edgeParts s t := by
  obtain ⟨k, hk⟩ : ∃ k, s.regF (grpReg g 0) 0 5 = k := ⟨_, rfl⟩
  have hgrp : (edgeStart k s).grp g = s.grp g := edgeStart_grp htrig
  have hdue := mem_dueGroups hk.symm g.isLt (by rw [hgrp, hfire]; rfl) (by rw [hgrp, hwait])
  have hbfire : ((edgeStart k s).grp g).fire = some (op, none) := by rw [hgrp, hfire]
  have hwhy : ∀ c w, skipReason s g op c = some w →
      whySkipped (edgeStart k s) (dueGroups (edgeStart k s) (coincident s k)) g op c = some w := fun c w h => by
    unfold whySkipped
    rw [skipReason_edgeStart, h]
  obtain ⟨hdone, -⟩ := bringEdge_groupDone rfl hdue hbfire
  refine ⟨_, hk ▸ execGroupFire hrun hrel hfire hwait, hdone.fire, hdone.lastop, hdone.skipped.trans ?_, fun c hc why h => ?_,
    (bringEdge_alone (by simp [State.paired, hrole])).frame⟩
  · rw [skipsOf, groupMembers_edgeStart]
    refine List.filterMap_length_eq_length.2 fun c hc => ?_
    obtain ⟨w, hw⟩ := Option.isSome_iff_exists.1 (hskip c hc)
    rw [hwhy c w hw]
    rfl
  · refine bringEdge_skips (p := (c, why)) rfl hdue hbfire (List.mem_filterMap.2 ⟨c, ?_, ?_⟩)
    · rwa [groupMembers_edgeStart]
    · rw [hwhy c why h]
      rfl

end

end Sys2Proof

/-! A group that takes effect on a member (R161, R164, R167 to R170). -/

namespace Sys2Proof

open Sys2Proof.Machine

section
variable {s t b : State} {v : Nets} {c g : Nat} {due : List Nat}

/-- A group that takes effect on a chamber acts there, in place of a command that is due. -/
theorem chamberActs_group {op : Nat} {d : Option (Nat × Nat)} (hgroup : groupTakes b due c = some g)
    (hfire : (b.grp g).fire = some (op, d)) :
    ∃ u, chamberActs b v due c t = applyOp b v c op (b.regF (chmReg c 0x10) (2 * g) 2) (b.regB (grpReg g 0) 30) 2 u ∧
      Unscheduled c t u := by
  have hdrop : ∀ (x : ChmCmd) (k : Nat) (w : State),
      Unscheduled c w (endIssuer x.desc 0x0C k (raise 0x030A [c, k] (w.modChm c fun x => { x with cmd := none }))) := fun x k w =>
    ⟨((Seen.modChm fun _ => trivial).trans raise_seen).trans endIssuer_seen, _, _, _, _,
      (endIssuer_chm _ _ _ _ _).trans ((raise_chm _ _ _ _).trans (chm_modChm_same _ _ _))⟩
  have hself : ∀ w : State, Unscheduled c w w := fun w => ⟨.refl, _, _, _, _, rfl⟩
  unfold chamberActs
  lift_lets
  intro ch ws fired entry w cmd
  have hw : Unscheduled c t w := (remainCounts (c := c) (t := t) ((ch.schedRun && schedMoves b c) = true)).1
  clear_value w cmd entry
  split
  next waiting u hu =>
  have hwu : Unscheduled c w u := by
    split at hu
    · split at hu
      all_goals
        obtain ⟨-, rfl⟩ := hu
      · exact hdrop _ _ _
      · exact hself _
    · obtain ⟨-, rfl⟩ := hu
      exact hself _
  rw [hgroup]
  simp only [hfire, Option.map_some, Option.getD_some]
  cases waiting with
  | some x => exact ⟨_, rfl, ((hw.trans hwu).trans (hdrop x 2 u)).trans (haltSchedule_unscheduled _ _ _)⟩
  | none => exact ⟨_, rfl, (hw.trans hwu).trans (haltSchedule_unscheduled _ _ _)⟩

end

/-- The one group that fires takes effect on a member that it does not skip. -/
theorem group_establishes {P : State → Prop} {s : State} {c : ChamberId} {g : GroupId} {op : Nat} (how : ownEdge s c)
    (hfire : (s.grp g).fire = some (op, none)) (hwait : (s.grp g).fireWait = 0)
    (halone : ∀ h, (s.grp h).trig = false ∧ (h ≠ g.val → (s.grp h).fire = none))
    (hmember : s.regB (chmReg c 0x0C) g = true) (hskip : skipReason s g op c = none)
    (hstays : ∀ t u, Seen c False t u → P t → P u)
    (hacts : ∀ b v t u, (∀ x, b.chmState x = s.chmState x) → Own b c → Seen c True s t → Seen c False s t ∨ P t → Unscheduled c t u →
      P (applyOp b v c op (s.regF (chmReg c 0x10) (2 * g) 2) (b.regB (grpReg g 0) 30) 2 u)) :
    ∃ t, exec (.groupFireEffect g) s = .next t ∧ P t ∧ (t.grp g).fire = none ∧ (t.grp g).lastop = op ∧ OnlyChanges edgeParts s t := by
  have hlock := how.2.1
  obtain ⟨hrel, -⟩ := edgeCan_spec how.1
  have hrun : clocksRun s = true ∧ s.fab.released = true := by
    have hcan := how.1
    simp only [edgeCan, Bool.and_eq_true] at hcan
    exact hcan.1.1
  have hclk : (s.chm c).swclkUse = s.regF (grpReg g 0) 0 5 := by
    by_contra hne
    simp [skipReason, lead_off hlock, hne] at hskip
  obtain ⟨k, hk⟩ : ∃ k, s.regF (grpReg g 0) 0 5 = k := ⟨_, rfl⟩
  obtain ⟨b, hb⟩ : ∃ b, edgeStart k s = b := ⟨_, rfl⟩
  have hgrp : ∀ h, b.grp h = s.grp h := fun h => hb ▸ edgeStart_grp (halone h).1
  have hbfire : (b.grp g).fire = some (op, none) := (hgrp g).symm ▸ hfire
  have hdue : (g : Nat) ∈ dueGroups b (coincident s k) :=
    hb ▸ mem_dueGroups hk.symm g.isLt (by rw [hb, hbfire]; rfl) (by rw [hb, hgrp, hwait])
  have hown : Own b c := hb ▸ edgeStart_own how
  have hchm : b.chm c = s.chm c := hb ▸ edgeStart_chm _ _ _
  have hsb : Seen c False s b := hb ▸ edgeStart_seen
  have hst : ∀ x, b.chmState x = s.chmState x := fun x => hb ▸ edgeStart_chmState x
  have htakes : groupTakes b (dueGroups b (coincident s k)) c = some g.val := by
    have hp : (b.regB (chmReg c 0x0C) g && (match (b.grp g).fire with
        | some (op, _) => (skipReason b g op c).isNone
        | none => false)) = true := by
      have hskipb : skipReason b g op c = none := hb ▸ (skipReason_edgeStart k g op c).trans hskip
      rw [hbfire, show b.regB (chmReg c 0x0C) g = true from hb ▸ (congrArg (fun r => bit r g) (edgeStart_reg k s _)).trans hmember]
      simp [hskipb]
    unfold groupTakes
    rcases hfind : List.find? _ (dueGroups b (coincident s k)) with _ | x
    · exact absurd hp (List.find?_eq_none.1 hfind g hdue)
    · have hx : (b.grp x).fire.isSome = true := by
        have h := (List.mem_filter.1 (List.mem_of_find?_eq_some hfind)).2
        exact (Bool.and_eq_true_iff.1 h).1
      by_contra hne
      rw [hgrp, (halone x).2 fun h => hne (by rw [h])] at hx
      cases hx
  have hk10 : b.regF (chmReg c 0x10) (2 * g) 2 = s.regF (chmReg c 0x10) (2 * g) 2 := hb ▸ edgeStart_regF _ _ _ _
  have hmain : ∀ t, Seen c True b t → Seen c False s t ∨ P t →
      P (chamberActs b b.nets (dueGroups b (coincident s k)) c t) := fun t ht hor => by
    obtain ⟨u, hu, hun⟩ := chamberActs_group (v := b.nets) (t := t) htakes hbfire
    rw [hu, hk10]
    exact hacts b b.nets t u hst hown (hsb.any.trans ht) hor hun
  obtain ⟨hP, -⟩ := bringEdge_establishes hb hown (mem_governorsOn hown.lock (by rw [hchm, hrel]) (by rw [hchm, hclk, hk])) hstays
    (fun t ht => hmain t ht.any (.inl (hsb.trans ht))) (fun t ht hP => hmain t ht (.inr hP))
  obtain ⟨hdone, -⟩ := bringEdge_groupDone hb hdue hbfire
  exact ⟨_, hk ▸ execGroupFire hrun.1 hrun.2 hfire hwait, hP, hdone.fire, hdone.lastop,
    (bringEdge_alone (by simp [State.paired, how.2.2.1])).frame⟩

/-- Chamber `c` has been held by a group since `s`. -/
structure HeldByGroup (s : State) (c : Nat) (t : State) : Prop where
  state : t.chmState c = 4
  hsrc : (t.chm c).hsrc = 2
  told : Raised s t 0x0304 [c, 2]

/-- Chamber `c` has been released by a group since `s`. -/
structure ReleasedByGroup (s : State) (c : Nat) (t : State) : Prop where
  hsrc : (t.chm c).hsrc = 0
  sel : (t.chm c).sel = (s.chm c).pend.getD (s.chm c).sel
  told : Raised s t 0x0305 [c, (s.chm c).pend.getD (s.chm c).sel]

section
variable {s : State} {c : ChamberId} {g : GroupId}

theorem groupHold_spec (how : ownEdge s c) (hfire : (s.grp g).fire = some (2, none)) (hwait : (s.grp g).fireWait = 0)
    (halone : ∀ h, (s.grp h).trig = false ∧ (h ≠ g.val → (s.grp h).fire = none)) (hmember : s.regB (chmReg c 0x0C) g = true)
    (hskip : skipReason s g 2 c = none) (hrun : s.chmState c = 1) : Completes (.groupFireEffect g) s fun t =>
      t.chmState c = 4 ∧ (t.chm c).hsrc = 2 ∧ (t.grp g).fire = none ∧ (t.grp g).lastop = 2 ∧
      Raised s t 0x0304 [c, 2] ∧ OnlyChanges edgeParts s t := by
  obtain ⟨t, ht, hP, hdone, hlast, hframe⟩ := group_establishes (P := HeldByGroup s c) how hfire hwait halone hmember hskip
    (fun t u h hP => ⟨h.chmState.trans hP.state, h.hsrc.trans hP.hsrc, hP.told.within h.toWithin⟩) fun b v t u hst hown hseen hor hun => by
      rw [applyOp_hold hown.lock, if_pos rfl]
      rcases hor with hfirst | hP
      · have hstate : u.chmState c = 1 := hun.chmState.trans (hfirst.chmState.trans hrun)
        obtain ⟨⟨p, hchm⟩, htold⟩ := holdChamber_spec (b := b) (v := v) (hsrc := 2) hstate
        refine ⟨chmState_held hstate (holdChamber_within.frame .rst (by decide)) ?_ ?_ ?_, ?_, htold.before (hseen.toWithin.trans hun.toWithin)⟩
        all_goals rw [hchm]
        exact two_ne_zero
      · have hstate : u.chmState c = 4 := hun.chmState.trans hP.state
        obtain ⟨a, r, m, q, hu⟩ := hun.chm
        rw [holdChamber_held hstate (.inr rfl)]
        exact ⟨hstate, by rw [hu]; exact hP.hsrc, hP.told.within hun.toWithin⟩
  exact ⟨t, ht, hP.state, hP.hsrc, hdone, hlast, hP.told, hframe⟩

theorem groupSwitch_spec (how : ownEdge s c) (hfire : (s.grp g).fire = some (1, none)) (hwait : (s.grp g).fireWait = 0)
    (halone : ∀ h, (s.grp h).trig = false ∧ (h ≠ g.val → (s.grp h).fire = none)) (hmember : s.regB (chmReg c 0x0C) g = true)
    (hskip : skipReason s g 1 c = none) (hrun : s.chmState c = 1) : Completes (.groupFireEffect g) s fun t =>
      (t.chm c).sel = s.regF (chmReg c 0x10) (2 * g) 2 ∧ (t.grp g).fire = none ∧ (t.grp g).lastop = 1 ∧
      OnlyChanges edgeParts s t := by
  obtain ⟨t, ht, hP, hdone, hlast, hframe⟩ := group_establishes (P := fun t => (t.chm c).sel = s.regF (chmReg c 0x10) (2 * g) 2)
    how hfire hwait halone hmember hskip (fun t u h hP => h.sel.trans hP) fun b v t u hst hown _ _ _ => by
      rw [applyOp_switch hown.lock (by rw [hst, hrun]; decide) (by rw [hst, hrun]; decide)]
      by_cases hsel : s.regF (chmReg c 0x10) (2 * g) 2 = (u.chm c).sel
      · rw [switchTo_same _ _ hsel]
        exact hsel.symm
      · obtain ⟨p, n, hchm⟩ := switchTo_chm (b := b) (v := v) (b.regB (grpReg g 0) 30) 2 hsel
        rw [hchm]
        rfl
  exact ⟨t, ht, hP, hdone, hlast, hframe⟩

theorem groupRelease_spec (how : ownEdge s c) (hfire : (s.grp g).fire = some (3, none)) (hwait : (s.grp g).fireWait = 0)
    (halone : ∀ h, (s.grp h).trig = false ∧ (h ≠ g.val → (s.grp h).fire = none)) (hmember : s.regB (chmReg c 0x0C) g = true)
    (hskip : skipReason s g 3 c = none) (hheld : s.chmState c = 4) (hsrc : (s.chm c).hsrc ≠ 3) :
    Completes (.groupFireEffect g) s fun t =>
      (t.chm c).hsrc = 0 ∧ (t.chm c).sel = (s.chm c).pend.getD (s.chm c).sel ∧
      Raised s t 0x0305 [c, (s.chm c).pend.getD (s.chm c).sel] ∧ OnlyChanges edgeParts s t := by
  have hent := how.2.2.2.2.2.1
  obtain ⟨t, ht, hP, -, -, hframe⟩ := group_establishes (P := ReleasedByGroup s c) how hfire hwait halone hmember hskip
    (fun t u h hP => ⟨h.hsrc.trans hP.hsrc, h.sel.trans hP.sel, hP.told.within h.toWithin⟩) fun b v t u hst hown hseen hor hun => by
      rw [applyOp_release hown.lock]
      obtain ⟨a, r, m, q, hu⟩ := hun.chm
      have hsu : Seen c True s u := hseen.trans hun.toSeen
      rcases hor with hfirst | hP
      · have hsrc' : (u.chm c).hsrc ≠ 3 := by rw [hu]; exact fun h => hsrc (hfirst.hsrc.symm.trans h)
        have hsel : (u.chm c).pend.getD (u.chm c).sel = (s.chm c).pend.getD (s.chm c).sel := by
          rw [hu]
          exact congrArg₂ Option.getD hfirst.pend hfirst.sel
        obtain ⟨h1, -, -, h4, -, htold⟩ := releaseChamber_spec (rank := 2) (hun.chmState.trans (hfirst.chmState.trans hheld))
          (fun h => hsrc' h.1) (hsu.lock.trans how.2.1)
        rw [hsel] at h4 htold
        exact ⟨h1, h4, htold.before hsu.toWithin⟩
      · have hstate : u.chmState c ≠ 4 := chmState_ne_held (by rw [hu]; exact hP.hsrc) (hun.entering (hseen.entering hent))
        rw [releaseChamber_kept hstate]
        exact ⟨by rw [hu]; exact hP.hsrc, by rw [hu]; exact hP.sel, hP.told.within hun.toWithin⟩
  exact ⟨t, ht, hP.hsrc, hP.sel, hP.told, hframe⟩

end

/-- Settles O24, by what writes, schedules and groups do at the edges that they name. -/
theorem schedulesAndGroups : Obligations.SchedulesAndGroups := by
  unfold Obligations.SchedulesAndGroups
  refine ⟨⟨scheduleEnable_spec, scheduleStop_spec, scheduleEntry_spec, scheduleStart_spec, dwellEnd_spec⟩,
    groupFires_spec, exec_groupFireSwitch_disabled,
    fun s c h => fabricTrigger_arms, fun s c h => fabricTrigger_skips, fun s g => groupTriggerFire_spec, fun s g op => groupFire_skipsAll,
    fun s g c op how hfire hwait halone hmember hskip => ⟨?_, ?_, ?_⟩⟩
  · rintro rfl
    exact groupHold_spec how hfire hwait halone hmember hskip
  · rintro rfl
    exact groupSwitch_spec how hfire hwait halone hmember hskip
  · rintro rfl
    exact groupRelease_spec how hfire hwait halone hmember hskip

end Sys2Proof

/-! LIB_RQ and LIB_SINFO (R196, Tables Library-11 to Library-13). -/

namespace Sys2Proof

open Sys2Proof.Machine

/-- LIB_RQ_LO. -/
def libLo (op slot c k : Nat) : Word := mkFld 20 12 slot ||| mkFld 11 9 c ||| mkFld 9 2 k ||| mkFld 0 4 op
/-- LIB_RQ_HI. -/
def libHi (spillFirst restore force notify prio : Bool) (tag : Nat) : Word :=
  mkFld 16 16 tag ||| mkBit 4 prio ||| mkBit 3 notify ||| mkBit 2 force ||| mkBit 1 spillFirst ||| mkBit 0 restore

theorem libLo_fields (op slot c k : Nat) : fld (libLo op slot c k) 0 4 = op % 16 ∧ fld (libLo op slot c k) 9 2 = k % 4 ∧
    fld (libLo op slot c k) 11 9 = c % 512 ∧ fld (libLo op slot c k) 20 12 = slot % 4096 := by
  refine ⟨?_, ?_, ?_, ?_⟩
  all_goals simp only [libLo, fld_or]
  · rw [fld_mkFld_below 20 12 _ _ _ (by decide) (by decide), fld_mkFld_below 11 9 _ _ _ (by decide) (by decide),
      fld_mkFld_below 9 2 _ _ _ (by decide) (by decide), fld_mkFld_same _ _ _ (by decide)]
    simp
  · rw [fld_mkFld_below 20 12 _ _ _ (by decide) (by decide), fld_mkFld_below 11 9 _ _ _ (by decide) (by decide),
      fld_mkFld_same _ _ _ (by decide), fld_mkFld_above 0 4 _ _ _ (by decide) (by decide)]
    simp
  · rw [fld_mkFld_below 20 12 _ _ _ (by decide) (by decide), fld_mkFld_same _ _ _ (by decide),
      fld_mkFld_above 9 2 _ _ _ (by decide) (by decide), fld_mkFld_above 0 4 _ _ _ (by decide) (by decide)]
    simp
  · rw [fld_mkFld_same _ _ _ (by decide), fld_mkFld_above 11 9 _ _ _ (by decide) (by decide),
      fld_mkFld_above 9 2 _ _ _ (by decide) (by decide), fld_mkFld_above 0 4 _ _ _ (by decide) (by decide)]
    simp

theorem libHi_tag (sp re fo no pr : Bool) (tag : Nat) : fld (libHi sp re fo no pr tag) 16 16 = tag % 65536 := by
  simp only [libHi, fld_or, mkBit_eq]
  rw [fld_mkFld_same _ _ _ (by decide), fld_mkFld_above 4 1 _ _ _ (by decide) (by decide),
    fld_mkFld_above 3 1 _ _ _ (by decide) (by decide), fld_mkFld_above 2 1 _ _ _ (by decide) (by decide),
    fld_mkFld_above 1 1 _ _ _ (by decide) (by decide), fld_mkFld_above 0 1 _ _ _ (by decide) (by decide)]
  simp

theorem libHi_bits (sp re fo no pr : Bool) (tag : Nat) : bit (libHi sp re fo no pr tag) 0 = re ∧ bit (libHi sp re fo no pr tag) 1 = sp ∧
    bit (libHi sp re fo no pr tag) 2 = fo ∧ bit (libHi sp re fo no pr tag) 3 = no ∧ bit (libHi sp re fo no pr tag) 4 = pr := by
  have htag : ∀ i, i < 16 → bit (mkFld 16 16 tag) i = false := fun i hi => by
    rw [bit_eq_fld, fld_mkFld_below _ _ _ _ _ (by decide) (by omega)]
    rfl
  refine ⟨?_, ?_, ?_, ?_, ?_⟩
  all_goals
    simp only [libHi, bit_or]
    rw [htag _ (by decide)]
    revert sp re fo no pr
    decide

/-- The request that LIB_RQ names. -/
theorem libRequest_eq {op slot c k tag : Nat} (hop : op < 16) (hslot : slot < 4096) (hc : c < 512) (hk : k < 4) (htag : tag < 65536)
    (sp re fo no pr : Bool) : libRequest (libLo op slot c k) (libHi sp re fo no pr tag) =
      { op, chamber := c, stratum := k, slot, spillFirst := sp, restore := re, force := fo, notify := no, tag,
        cls := if pr then 2 else 3 } := by
  obtain ⟨h1, h2, h3, h4⟩ := libLo_fields op slot c k
  obtain ⟨b0, b1, b2, b3, b4⟩ := libHi_bits sp re fo no pr tag
  unfold libRequest
  rw [h1, h2, h3, h4, b0, b1, b2, b3, b4, libHi_tag, Nat.mod_eq_of_lt hop, Nat.mod_eq_of_lt hslot, Nat.mod_eq_of_lt hc,
    Nat.mod_eq_of_lt hk, Nat.mod_eq_of_lt htag]

section
variable {s : State} {who : Requester}

theorem managementUp_iff : managementUp s = true ↔ managementDown s 3 = false ∧ managementDown s 2 = false := by
  simp [managementUp]

/-- A library command whose path is down (log 93). -/
theorem libWrite_down (hdown : managementUp s = false) (op slot c k : Nat) (sp re fo no pr : Bool) (tag : Nat) :
    libWrite who op slot c k sp re fo no pr tag s = s := by
  have hor : managementDown s 3 = true ∨ managementDown s 2 = true := by
    simp only [managementUp, Bool.and_eq_false_iff, Bool.not_eq_false'] at hdown
    exact hdown
  have hstop : ∀ o v, (0x6_0000 ≤ o ∧ o < 0x7_0000) → writeReg who o 0xF v s = s := fun o v ho => by
    unfold writeReg
    exact if_pos (by simpa [accessStopped, managementStopped, ho] using .inr hor)
  exact (congrArg (writeReg who 0x6_0014 0xF _) (hstop 0x6_0010 _ (by decide))).trans (hstop 0x6_0014 _ (by decide))

/-- The state in which a library command is accepted. -/
def libStored (who : Requester) (lo : Word) (s : State) : State := storeReg 0x6_0010 lo (stagedUsed who 0x6_0010 s)

theorem libWrite_accepted (hrole : s.twn.role = 0) (hup : managementUp s = true) (hopen : s.fenced 2 = false) {op : Nat}
    (hop : 1 ≤ op ∧ op ≤ 6) (slot c k : Nat) (sp re fo no pr : Bool) (tag : Nat) :
    libWrite who op slot c k sp re fo no pr tag s =
      libAccept (libRequest (libLo op slot c k) (libHi sp re fo no pr tag)) (libStored who (libLo op slot c k) s) := by
  have hfld : fld (libLo op slot c k) 0 4 = op := (libLo_fields op slot c k).1.trans (Nat.mod_eq_of_lt (by omega))
  exact writeReg_lib who (libLo op slot c k) (libHi sp re fo no pr tag) s (hfld.symm ▸ hop.1) (hfld.symm ▸ hop.2) hrole hopen (managementUp_iff.1 hup)

theorem libStored_within (lo : Word) : OnlyChanges [.staged] s (libStored who lo s) := by
  have hused : OnlyChanges [.staged] s (stagedUsed who 0x6_0010 s) := by
    intro p hp
    cases p with
    | staged => exact absurd (by simp) hp
    | regs => exact fun _ => rfl
    | _ => rfl
  exact hused.trans ((onlyChanges_storeReg_none (off := 0x6_0010) rfl lo _).mono (by simp))

/-- Each library command joins the FIFO while there is room (R196). -/
theorem libWrite_queued (hrole : s.twn.role = 0) (hup : managementUp s = true) (hopen : s.fenced 2 = false)
    (hroom : s.lib.fifo.length < 256) {op slot : Nat} (hop : 1 ≤ op ∧ op ≤ 6) (hslot : slot < 4096) (c : ChamberId) (k : StratumId)
    (sp re fo no pr : Bool) (tag : BitVec 16) : requestQueued s
      { op, chamber := c, stratum := k, slot, spillFirst := sp, restore := re, force := fo, notify := no, tag := tag.toNat,
        cls := if pr then 2 else 3 } (libWrite who op slot c k sp re fo no pr tag.toNat s) := by
  rw [libWrite_accepted hrole hup hopen hop, libRequest_eq (by omega) hslot c.isLt k.isLt tag.isLt]
  have hframe := libStored_within (s := s) (who := who) (libLo op slot c k)
  generalize libStored who (libLo op slot c k) s = u at hframe
  have hlib : u.lib = s.lib := hframe .lib (by decide)
  have hrst : u.rst = s.rst := hframe .rst (by decide)
  have hfenced : u.fenced 2 = false := by rw [State.fenced, hrst]; exact hopen
  have hgo : ¬ u.fenced 2 = true := by simp [hfenced]
  have hfits : ¬ 256 ≤ u.lib.fifo.length := by rw [hlib]; omega
  have hstored : OnlyChanges [.lib, .staged] s u := hframe.mono (by decide)
  unfold libAccept
  rw [if_neg hgo, if_neg hfits]
  refine ⟨?_, hstored.trans (State.modLib_within.frame.mono (by decide))⟩
  rw [State.modLib_lib, hlib]

/-- A full FIFO discards the request (R196). -/
theorem libWrite_full (hrole : s.twn.role = 0) (hup : managementUp s = true) (hopen : s.fenced 2 = false)
    (hfull : 256 ≤ s.lib.fifo.length) {op : Nat} (hop : 1 ≤ op ∧ op ≤ 6) (slot c k : Nat) (sp re fo no pr : Bool) (tag : BitVec 16) :
    (libWrite who op slot c k sp re fo no pr tag.toNat s).lib = s.lib ∧
      Raised s (libWrite who op slot c k sp re fo no pr tag.toNat s) 0x0407 [tag.toNat] ∧
      OnlyChanges (.staged :: events) s (libWrite who op slot c k sp re fo no pr tag.toNat s) := by
  have htag : (libRequest (libLo op slot c k) (libHi sp re fo no pr tag.toNat)).tag = tag.toNat := by
    show fld _ 16 16 = _
    rw [libHi_tag, Nat.mod_eq_of_lt tag.isLt]
  have hdesc : (libRequest (libLo op slot c k) (libHi sp re fo no pr tag.toNat)).desc = none := rfl
  rw [libWrite_accepted hrole hup hopen hop]
  generalize libRequest (libLo op slot c k) (libHi sp re fo no pr tag.toNat) = r at htag hdesc
  have hframe := libStored_within (s := s) (who := who) (libLo op slot c k)
  have hnow : (libStored who (libLo op slot c k) s).now = s.now := rfl
  generalize libStored who (libLo op slot c k) s = u at hframe hnow
  have hlib : u.lib = s.lib := hframe .lib (by decide)
  have hrst : u.rst = s.rst := hframe .rst (by decide)
  have hfenced : u.fenced 2 = false := by rw [State.fenced, hrst]; exact hopen
  unfold libAccept
  rw [if_neg (by simp [hfenced]), if_pos (by rw [hlib]; exact hfull), hdesc, htag]
  have hstored : OnlyChanges (.staged :: events) s u := hframe.mono (by decide)
  refine ⟨(raise_lib _ _ _).trans hlib, ?_, hstored.trans (raise_within.frame.mono (by decide))⟩
  have hraise := raised_raise 0x0407 [tag.toNat] u
  unfold Raised at hraise ⊢
  rwa [hnow] at hraise

/-- A read of LIB_SINFO0 captures LIB_SINFO1 and steps LIB_SIDX. -/
theorem sinfo0Read_spec (hopen : s.fenced 2 = false) (hup : managementUp s = true) : Completes (.sinfo0Read who) s fun t =>
    t.out = s.out ++ [.reply who 0x6_0024 (readLive (Requester.code who) s 0x6_0024) 0] ∧
    findHalf t.captures (Requester.code who) 0x6_0028 = some (slotInfo s).2 ∧
    (s.regB 0x6_0020 31 = true → t.regF 0x6_0020 0 12 = (s.regF 0x6_0020 0 12 + 1) % 3072) ∧
    (∀ o, o ≠ 0x6_0020 → t.reg o = s.reg o) ∧ OnlyChanges [.regs, .captures, .out] s t := by
  obtain ⟨u, hu⟩ : ∃ u, holdCapture (Requester.code who) 0x6_0028 (slotInfo s).2 s = u := ⟨_, rfl⟩
  have hstop : accessStopped s 0x6_0024 = false := by
    simp [accessStopped, fenceAborts, managementStopped, hopen, managementUp_iff.1 hup]
  have hread : readReg (Requester.code who) 0x6_0024 s =
      (readLive (Requester.code who) s 0x6_0024, autoInc 0x6_0020 12 3072 u) := by
    unfold readReg
    rw [if_neg (by decide), if_neg (by decide), if_pos rfl, hu]
  have hexec : exec (.sinfo0Read who) s = .next ((autoInc 0x6_0020 12 3072 u).send
      (.reply who 0x6_0024 (readLive (Requester.code who) s 0x6_0024) 0)) := by
    refine congrArg Host.Outcome.next ?_
    unfold read32
    rw [hstop, if_neg (by decide), hread]
    rfl
  obtain ⟨hw, hother, hinc, -⟩ := autoInc_spec (off := 0x6_0020) (len := 12) (n := 3072) u (by decide) (by decide) (by decide)
  have hreg : ∀ o, u.reg o = s.reg o := fun o => by rw [← hu]; rfl
  have hsu : Within [.regs, .captures, .out] s u := hu ▸ captures_within.mono
  refine ⟨_, hexec, ?_, ?_, fun h => ?_, fun o ho => (hother o ho).trans (hreg o), ((hsu.step hw).step State.send_within).frame⟩
  · have hout : (autoInc 0x6_0020 12 3072 u).out = s.out := (hw.frame .out (by decide)).trans (by rw [← hu]; rfl)
    rw [State.send_out, hout]
  · have hcap : (autoInc 0x6_0020 12 3072 u).captures = u.captures := hw.frame .captures (by decide)
    show findHalf (autoInc 0x6_0020 12 3072 u).captures _ _ = _
    rw [hcap, ← hu]
    simp [holdCapture, findHalf]
  · have hregB : u.regB 0x6_0020 31 = true := by rw [State.regB, hreg]; exact h
    have hregF : u.regF 0x6_0020 0 12 = s.regF 0x6_0020 0 12 := by rw [State.regF, hreg, State.regF]
    exact (hinc hregB).trans (by rw [hregF])

end

/-- Settles O25, by the acceptance of LIB_RQ and the read of LIB_SINFO0. -/
theorem libraryRequestsQueueUp : Obligations.LibraryRequestsQueueUp := by
  unfold Obligations.LibraryRequestsQueueUp
  refine ⟨fun s who prio notify tag hrole => ⟨fun hdown slot => ?_, fun hup hopen hroom => ?_⟩,
    fun s who slot notify prio tag hrole hup hopen hfull => ?_, fun s who hopen hup => sinfo0Read_spec hopen hup⟩
  · exact congrArg Host.Outcome.next (libWrite_down hdown ..)
  · have hslot : ∀ slot : BitVec 12, slot.toNat < 4096 := fun slot => slot.isLt
    refine ⟨fun slot c k sp re fo => ⟨_, rfl, ?_⟩, fun c k fo => ⟨_, rfl, ?_⟩, fun slot c k => ⟨_, rfl, ?_⟩,
      fun c k => ⟨_, rfl, ?_⟩, fun slot => ⟨_, rfl, ?_⟩, fun slot => ⟨_, rfl, ?_⟩⟩
    · exact libWrite_queued hrole hup hopen hroom (by decide) (hslot slot) c k sp re fo notify prio tag
    · exact libWrite_queued hrole hup hopen hroom (by decide) (by decide) c k false false fo notify prio tag
    · exact libWrite_queued hrole hup hopen hroom (by decide) (hslot slot) c k false false false notify prio tag
    · exact libWrite_queued hrole hup hopen hroom (by decide) (by decide) c k false false false notify prio tag
    · exact libWrite_queued hrole hup hopen hroom (by decide) (hslot slot) 0 0 false false false notify prio tag
    · exact libWrite_queued hrole hup hopen hroom (by decide) (hslot slot) 0 0 false false false notify prio tag
  · exact ⟨_, rfl, libWrite_full hrole hup hopen hfull (by decide) ..⟩

end Sys2Proof

/-! The refill engine's requests (R190 to R209, Tables Library-3 and Library-4). -/

namespace Sys2Proof

open Sys2Proof.Machine

/-- A loop keeps what each of its rounds keeps. -/
theorem forEach_same {α β : Type} (π : State → β) (l : List α) (f : α → State → State) (s : State)
    (h : ∀ a u, π (f a u) = π u) : π (forEach l f s) = π s :=
  forEach_keeps (fun u => π u = π s) l f (fun a u hu => (h a u).trans hu) s rfl

@[simp] theorem strat_modStrat_same (s : State) (c k : Nat) (f : Stratum → Stratum) : (s.modStrat c k f).strat c k = f (s.strat c k) := by
  rw [State.strat, State.modStrat, chm_modChm_same, Chamber.modStrat, Chamber.strat, tabGet_tabMod_same]
  rfl

theorem strat_modStrat_other (s : State) {c k x q : Nat} (f : Stratum → Stratum) (h : x ≠ c ∨ q ≠ k) :
    (s.modStrat c k f).strat x q = s.strat x q := by
  rw [State.strat, State.modStrat]
  rcases eq_or_ne x c with rfl | hx
  · rw [chm_modChm_same, Chamber.modStrat, Chamber.strat, tabGet_tabMod_other _ _ _ _ _ (h.resolve_left fun hc => hc rfl)]
    rfl
  · rw [chm_modChm_other _ _ _ hx]
    rfl

/-- The chamber's other members after a change of one of its strata. -/
theorem chm_modStrat_same (s : State) (c k : Nat) (f : Stratum → Stratum) : (s.modStrat c k f).chm c = (s.chm c).modStrat k f :=
  chm_modChm_same ..

/-- A change of a chamber that leaves its strata alone leaves every stratum alone. -/
theorem strat_modChm (s : State) (c : Nat) {f : Chamber → Chamber} (x q : Nat)
    (hf : ∀ x, (f x).strata = x.strata := by intro; rfl) : (s.modChm c f).strat x q = s.strat x q := by
  rw [State.strat, State.strat]
  rcases eq_or_ne x c with rfl | hx
  · rw [chm_modChm_same, Chamber.strat, Chamber.strat, hf]
  · rw [chm_modChm_other _ _ _ hx]

@[simp] theorem slot_modSlot_same (s : State) (i : Nat) (f : Slot → Slot) : (s.modSlot i f).slot i = f (s.slot i) := by
  simp [State.modSlot, State.slot]

section
variable {s t : State} {k : Nat} {r : LibReq}

/-- A loading sequence outside its step 7 does not wait for the refill engine. -/
theorem settleLoad_elsewhere (h : s.cfg.stage ≠ 7) : settleLoad s = s := if_neg fun hs => h hs.1

/-- The library once the request of stream `k` has ended (R198, R209). -/
def streamEnded (k : Nat) (l : Lib) : Lib :=
  { l with streams := tabSet none l.streams k none, rowAt := tabSet 0 l.rowAt k 0, done := l.done.add 1 }

/-- A request of no descriptor, relocation or continuation only ends. -/
theorem endStream_plain (hk : s.stream k = some r) (hdesc : r.desc = none) (hkind : r.kind = 0) (ok : Bool) (status result : Nat) :
    endStream k ok status result s = s.modLib (streamEnded k) := by
  simp only [endStream, hk, afterDevice, hkind, freeStreamOf, hdesc, endIssuer]
  rfl

theorem stream_streamEnded : (s.modLib (streamEnded k)).stream k = none := by
  simp [State.stream, streamEnded]

theorem notifyDone_lib : (notifyDone r s).lib = s.lib := notifyDone_within.frame .lib (by decide)

theorem notifyDone_raised (h : r.notify = true) : Raised s (notifyDone r s) 0x0402 [r.tag, r.op, r.chamber, r.stratum, r.slot] := by
  rw [notifyDone, if_pos h]
  exact raised_raise ..

theorem reqTargets_congr (hfab : t.fab = s.fab) : reqTargets t r = reqTargets s r := by
  unfold reqTargets State.col
  rw [hfab]

/-- A request has ended and asked for its event. -/
def requestDone (k : Nat) (r : LibReq) (s : State) : State := (notifyDone r s).modLib (streamEnded k)

theorem requestDone_within : Within (.lib :: events) s (requestDone k r s) := notifyDone_within.mono.step State.modLib_within

theorem requestDone_stream : (requestDone k r s).stream k = none := stream_streamEnded

theorem requestDone_done : (requestDone k r s).lib.done = s.lib.done.add 1 := congrArg (fun l : Lib => l.done.add 1) (notifyDone_lib (r := r))

theorem requestDone_slot (i : Nat) : (requestDone k r s).slot i = s.slot i := by
  have h : (requestDone k r s).lib.slots = s.lib.slots :=
    (rfl : _ = (notifyDone r s).lib.slots).trans (congrArg Lib.slots notifyDone_lib)
  rw [State.slot, h, State.slot]

theorem requestDone_fab : (requestDone k r s).fab = s.fab := requestDone_within.frame .fab (by decide)

theorem requestDone_raised (h : r.notify = true) : Raised s (requestDone k r s) 0x0402 [r.tag, r.op, r.chamber, r.stratum, r.slot] :=
  (notifyDone_raised h).within State.modLib_within

theorem ended_eq (hk : s.stream k = some r) (hdesc : r.desc = none) (hkind : r.kind = 0) :
    endStream k true 0 0 (notifyDone r s) = requestDone k r s :=
  endStream_plain ((congrArg (fun l : Lib => tabGet none l.streams k) (notifyDone_lib (r := r))).trans hk) hdesc hkind ..

end

/-! ### The start -/

section
variable {s u : State} {k : Nat} {r q : LibReq} {f : Option Nat} {g : Bool}

/-- The request's stream carries it. -/
theorem freeStream_found (h : s.freeStream = some k) : k < 16 := by
  have := List.mem_of_find?_eq_some h
  simpa using this

theorem takeFirst_within {s : State} (hnext : nextRequest s = some (r, u)) : Within [.lib] s u := nextRequest_within hnext

/-- The library of a state whose stream `k` has taken request `q`. -/
def streamTaken (k : Nat) (q : LibReq) (l : Lib) : Lib := { l with streams := tabSet none l.streams k (some q) }

theorem stream_streamTaken : (u.modLib (streamTaken k q)).stream k = some q := by simp [State.stream, streamTaken]

/-- A request that Table Library-3 refuses (R202). -/
theorem startRequest_refused (hfree : s.freeStream = some k) (hnext : nextRequest s = some (r, u))
    (hq : { r with targets := reqTargets u r, was := if r.op = 1 then targetsWere u r else [] } = q) {why : Nat}
    (hwhy : refusal (u.modLib (streamTaken k q)) q = some why) (hdesc : r.desc = none) (hkind : r.kind = 0)
    (hstays : why ≠ 8 ∨ r.cls ≠ 1) : startRequest f g s =
      (raise 0x0403 [r.tag, r.op, r.chamber, r.stratum, r.slot, why] (u.modLib (streamTaken k q))).modLib (streamEnded k) := by
  subst hq
  unfold streamTaken at hwhy
  simp only [startRequest, hfree, hnext, hwhy]
  rw [if_neg (by omega)]
  refine endStream_plain (r := { r with targets := reqTargets u r, was := if r.op = 1 then targetsWere u r else [] }) ?_ hdesc hkind ..
  exact (congrArg (fun l : Lib => tabGet none l.streams k) (raise_lib ..)).trans stream_streamTaken

theorem nextRequest_done (h : nextRequest s = some (r, u)) : u.lib.done = s.lib.done := by
  unfold nextRequest at h
  grind [State.modLib]

theorem nextRequest_slots (h : nextRequest s = some (r, u)) : u.lib.slots = s.lib.slots := by
  unfold nextRequest at h
  grind [State.modLib]

/-- A host request at the front of the FIFO goes first (R199). -/
theorem nextRequest_front {rest : List LibReq} (hp : s.pstate < 2) (hdevice : s.lib.device = []) (hhold : s.lib.devhold = false)
    (hloader : s.lib.loader = []) (hreleased : s.fab.released = true) (hfifo : s.lib.fifo = r :: rest)
    (hop : r.op = 6) (hcls : r.cls = 2 ∨ ∀ x ∈ rest, x.cls ≠ 2) :
    nextRequest s = some (r, s.modLib fun l => { l with fifo := rest }) := by
  have hfree : targetFree s r = true := by simp [targetFree, hop]
  have hnorewrite : rewriteFirst s = false := by simp [rewriteFirst, hdevice]
  have hnone : ∀ (p : LibReq → Bool) (l : List LibReq), (∀ x ∈ l, p x = false) → takeFirst p l = none := fun p l hl => by
    induction l with
    | nil => rfl
    | cons x l ih =>
      rw [takeFirst, if_neg (by simp [hl x (by simp)]), ih fun y hy => hl y (by simp [hy])]
      rfl
  unfold nextRequest
  dsimp only
  rw [if_neg (by simp [hnorewrite]; omega), hdevice, hloader, hfifo]
  simp only [takeFirst, hhold, hreleased, hfree, hop]
  have hpn : decide (2 ≤ s.pstate) = false := by simpa using hp
  rw [hpn]
  rcases hcls with hcls | hrest
  · simp [hcls]
  · rcases eq_or_ne r.cls 2 with hcls | hcls
    · simp [hcls]
    · rw [hnone _ rest fun x hx => by simp [hrest x hx]]
      simp [hcls]

/-- SHCLR is refused only for its slot. -/
theorem refusal_shclr (hop : r.op = 6) (hkind : r.kind = 0) (hslot : r.slot < 0xC00) (hst : (s.slot r.slot).st ≠ 4) :
    refusal s r = none := by
  unfold refusal failedChecks
  have hin : ¬ 0xC00 ≤ r.slot := by omega
  simp [hop, hkind, hin, hst]

/-- SHCLR needs nothing but a free stream (R216). -/
theorem startRequest_shclr (hfree : s.freeStream = some k) (hnext : nextRequest s = some (r, u)) (hop : r.op = 6) (hkind : r.kind = 0)
    (hslot : r.slot < 0xC00) (hst : (s.slot r.slot).st ≠ 4) (hopen : s.fenced 2 = false) :
    startRequest f g s = u.modLib (streamTaken k { r with targets := reqTargets s r, was := [] }) := by
  have hsu : Within [.lib] s u := nextRequest_within hnext
  have hslots : u.lib.slots = s.lib.slots := nextRequest_slots hnext
  have htargets : reqTargets u r = reqTargets s r := reqTargets_congr (hsu.frame .fab (by decide))
  have hfenced : u.fenced 2 = false := by
    rw [State.fenced, hsu.frame .rst (by decide)]
    exact hopen
  have hno : ∀ w : State, w.lib.slots = s.lib.slots → refusal w { r with targets := reqTargets s r, was := [] } = none := fun w hw => by
    refine refusal_shclr hop hkind hslot ?_
    show (w.slot r.slot).st ≠ 4
    rwa [State.slot, hw]
  have hfence : (u.modLib fun l => { l with streams := tabSet none l.streams k (some { r with targets := reqTargets s r, was := [] }) }).fenced 2 = false :=
    hfenced
  have hwas : (if r.op = 1 then targetsWere u r else []) = [] := if_neg (by omega)
  have hno' := hno (u.modLib (streamTaken k { r with targets := reqTargets s r, was := [] })) hslots
  unfold streamTaken at hno' ⊢
  simp only [startRequest, hfree, hnext, htargets, hwas, hno']
  rw [if_neg (by simp only [hfence]; simp; omega), if_neg (by omega), if_neg (by omega)]

end

/-! ### The ends -/

section
variable {s : State} {k : Nat} {r : LibReq}

/-- The shadow of a slot that SHCLR has cleared (R216). -/
def shadowCleared (x : Slot) : Slot := { x with shadow := 0, shv := false, owner := 0 }

theorem requestOver_shclr (hk : s.stream k = some r) (hop : r.op = 6) (hkind : r.kind = 0) (hdesc : r.desc = none) :
    requestOver k s = requestDone k r (s.modSlot r.slot shadowCleared) := by
  simp only [requestOver, hk, hop]
  exact ended_eq hk hdesc hkind

theorem requestOver_evict (hk : s.stream k = some r) (hop : r.op = 4) (hkind : r.kind = 0) (hdesc : r.desc = none)
    (htargets : reqTargets s r = [r.chamber]) : requestOver k s = requestDone k r (unload r.chamber r.stratum s) := by
  simp only [requestOver, hk, hop, htargets, forEach_cons, forEach_nil]
  refine ended_eq ((congrArg (fun l : Lib => tabGet none l.streams k) ?_).trans hk) hdesc hkind
  exact unload_within.frame .lib (by decide)

theorem settleKeepers_chm (v : Nets) (c : Nat) : (settleKeepers v s).chm c = s.chm c :=
  forEach_same (·.chm c) _ _ _ fun _ _ => rfl

theorem watchShafts_chm (c : Nat) : (watchShafts s).chm c = s.chm c := by
  refine forEach_same (·.chm c) _ _ _ fun n u => ?_
  dsimp only
  split <;> rfl

/-- A chamber that leaves RUN keeps its strata. -/
theorem leaveRun_strat (b : State) (v : Nets) (c x q : Nat) : (leaveRun b v c s).strat x q = s.strat x q := by
  unfold leaveRun
  split
  · exact strat_modChm ..
  · rfl

/-- R93, R174. -/
theorem unload_strat (c k : Nat) : ((unload c k s).strat c k).loaded = false ∧
    ∀ x q, x ≠ c ∨ q ≠ k → (unload c k s).strat x q = s.strat x q := by
  unfold unload
  dsimp only
  obtain ⟨u, hu, hstrat⟩ : ∃ u, (if (s.chm c).sel = k ∧ s.chmState c = 1 then leaveRun s s.nets c (settleKeepers s.nets s) else s) = u ∧
      ∀ x q, u.strat x q = s.strat x q := by
    refine ⟨_, rfl, fun x q => ?_⟩
    split
    · exact (leaveRun_strat _ _ _ _ _).trans (congrArg (·.strat q) (settleKeepers_chm _ _))
    · rfl
  rw [hu]
  have hkeep : ∀ x q, (watchShafts ((u.modStrat c k fun st => { st with loaded := false }).modChm c fun ch =>
      if ch.sel = k then { ch with entering := 0 } else ch)).strat x q = (u.modStrat c k fun st => { st with loaded := false }).strat x q :=
    fun x q => (congrArg (·.strat q) (watchShafts_chm x)).trans (strat_modChm _ _ _ _ fun y => by split <;> rfl)
  refine ⟨?_, fun x q h => ?_⟩
  · rw [hkeep, strat_modStrat_same]
  · rw [hkeep, strat_modStrat_other _ _ h, hstrat]

/-- The strata of a state that ends a request only. -/
theorem requestDone_strat (c q : Nat) : (requestDone k r s).strat c q = s.strat c q := by
  rw [State.strat, State.chm, requestDone_fab]
  rfl

theorem restoreBits_columns (c k : Nat) (v : BitVec 2048) : (restoreBits c k v s).fab.columns = s.fab.columns := rfl

theorem landRows_columns (rows : Nat) : (landRows r rows s).fab.columns = s.fab.columns := by
  unfold landRows
  split
  · rfl
  · exact forEach_same (·.fab.columns) _ _ _ fun _ _ => rfl

/-- The image of a refill has landed in its chamber (R203). -/
theorem landRows_single (hkind : r.kind = 0) (htargets : reqTargets s r = [r.chamber]) :
    landRows r 80 s = s.modStrat r.chamber r.stratum fun st => { st with words := (s.slot r.slot).image } := by
  simp only [landRows, hkind, htargets, forEach_cons, forEach_nil]
  rfl

/-- A stratum that has become loaded (R205, R215). -/
def stratumLoaded (lost : Bool) (st : Stratum) : Stratum :=
  { st with loaded := true, refilling := false, quar := false, unchecked := lost, failMask := [], rewriting := false,
            wasActive := false, needRefill := false, liveLap := none }

/-- The flip-flops of a stratum that is being loaded: its INIT values, or what its slot's shadow restores (R66, R215). -/
def bitsLoaded (c : Nat) (r : LibReq) (s : State) : State :=
  let u := s.modStrat c r.stratum fun st => { st with ffs := if (s.chm c).released then initBits st.words else 0 }
  if r.restore then restoreBits c r.stratum (s.slot r.slot).shadow u else u

theorem loadStratum_eq (c : Nat) : loadStratum c r s =
    (let t := (bitsLoaded c r s).modStrat c r.stratum (stratumLoaded (s.slot r.slot).lost)
     if (s.chmState c = 2 ∨ s.chmState c = 3) ∧ (t.chm c).sel = r.stratum ∧ !t.lys.exiting then
       t.modChm c fun ch => { ch with entering := s.chmState c, quarDue := ch.quarDue.filter (·.1 != r.stratum) }
     else t) := rfl

/-- What the loading of a chamber's bits leaves of the chamber. -/
theorem bitsLoaded_chm (c : Nat) : (bitsLoaded c r s).fab.columns = s.fab.columns ∧ (bitsLoaded c r s).lys = s.lys ∧
    (bitsLoaded c r s).rst = s.rst ∧ ((bitsLoaded c r s).strat c r.stratum).words = (s.strat c r.stratum).words ∧
    ∃ f m, (bitsLoaded c r s).chm c = { s.chm c with strata := f, shared := m } := by
  unfold bitsLoaded
  dsimp only
  split
  · refine ⟨rfl, rfl, rfl, ?_, ?_⟩
    · simp only [restoreBits, State.strat, chm_modChm_same, Chamber.strat, Chamber.modStrat, tabGet_tabMod_same, State.modStrat]
    · simp only [restoreBits, chm_modChm_same, State.modStrat, Chamber.modStrat]
      exact ⟨_, _, rfl⟩
  · refine ⟨rfl, rfl, rfl, by rw [strat_modStrat_same], ?_⟩
    rw [chm_modStrat_same]
    exact ⟨_, (s.chm c).shared, rfl⟩

theorem loadStratum_columns (c : Nat) : (loadStratum c r s).fab.columns = s.fab.columns := by
  rw [loadStratum_eq]
  dsimp only
  split
  all_goals exact (bitsLoaded_chm c).1

/-- The stratum that a refill has loaded (R205). -/
theorem loadStratum_strat (c : Nat) : ((loadStratum c r s).strat c r.stratum).loaded = true ∧
    ((loadStratum c r s).strat c r.stratum).quar = false ∧
    ((loadStratum c r s).strat c r.stratum).words = (s.strat c r.stratum).words ∧
    (r.restore = false → (s.chm c).released = true →
      ((loadStratum c r s).strat c r.stratum).ffs = initBits (s.strat c r.stratum).words) := by
  have hstrat : (loadStratum c r s).strat c r.stratum = stratumLoaded (s.slot r.slot).lost ((bitsLoaded c r s).strat c r.stratum) := by
    rw [loadStratum_eq]
    dsimp only
    split
    · rw [strat_modChm, strat_modStrat_same]
    · rw [strat_modStrat_same]
  rw [hstrat]
  refine ⟨rfl, rfl, (bitsLoaded_chm c).2.2.2.1, fun hrestore hreleased => ?_⟩
  show ((bitsLoaded c r s).strat c r.stratum).ffs = _
  simp only [bitsLoaded, hrestore, hreleased]
  simp

/-- A VACANT or QUARANTINED chamber enters RUN at its next edge once its selected stratum is loaded (R138). -/
theorem loadStratum_enters {c st : Nat} (hst : st = 2 ∨ st = 3) (hstate : s.chmState c = st) (hsel : (s.chm c).sel = r.stratum)
    (hlys : s.lys.exiting = false) : ((loadStratum c r s).chm c).entering = st ∧ (loadStratum c r s).chmState c = st := by
  obtain ⟨-, hl, hrst, -, f, m, hchm⟩ := bitsLoaded_chm (s := s) (r := r) c
  have hchm' : ∃ f q, (loadStratum c r s).chm c = { s.chm c with strata := f, shared := m, entering := st, quarDue := q } := by
    rw [loadStratum_eq]
    dsimp only
    have hsel' : (((bitsLoaded c r s).modStrat c r.stratum (stratumLoaded (s.slot r.slot).lost)).chm c).sel = r.stratum := by
      rw [chm_modStrat_same, hchm]
      exact hsel
    have hlys' : (!(bitsLoaded c r s).lys.exiting) = true := (congrArg (fun l : Lys => !l.exiting) hl).trans (by rw [hlys]; rfl)
    rw [if_pos ⟨hstate ▸ hst, hsel', hlys'⟩, chm_modChm_same, chm_modStrat_same, hchm, hstate]
    exact ⟨_, _, rfl⟩
  have hrst' : (loadStratum c r s).rst = s.rst := loadStratum_within.frame .rst (by decide)
  obtain ⟨f', q, hchm'⟩ := hchm'
  refine ⟨by rw [hchm'], ?_⟩
  unfold State.chmState State.inReset at hstate ⊢
  rw [hchm', hrst']
  dsimp only at hstate ⊢
  split at hstate
  · omega
  next hreleased =>
  split at hstate
  · omega
  next hreset =>
  split at hstate
  · omega
  next hreloc =>
  split at hstate
  · omega
  next hhsrc =>
  rw [if_neg hreleased, if_neg hreset, if_neg hreloc, if_neg hhsrc, if_pos (by omega)]

/-- A completed refill of one chamber outside lockstep, for the fabric (R205, R209). -/
theorem refillDone_single (hk : s.stream k = some r) (hop : r.op = 1) (hkind : r.kind = 0) (hdesc : r.desc = none)
    (htargets : reqTargets s r = [r.chamber]) (hlock : (s.col (colOf r.chamber)).lock ≠ .comparing) :
    refillDone k s = requestDone k r (loadStratum r.chamber r (landRows r 80 s)) := by
  obtain ⟨u, hu⟩ : ∃ u, loadStratum r.chamber r (landRows r 80 s) = u := ⟨_, rfl⟩
  have hw : Within [.fab] s u := hu ▸ landRows_within.step loadStratum_within
  have hlib : u.lib = s.lib := hw.frame .lib (by decide)
  have hcol : (u.col (colOf r.chamber)).lock ≠ .comparing := by
    have hcolumns : u.fab.columns = s.fab.columns := hu ▸ (loadStratum_columns _).trans (landRows_columns 80)
    rwa [State.col, hcolumns]
  simp only [refillDone, hk, hop, htargets, hkind, forEach_cons, forEach_nil, if_true, hu]
  rw [if_neg (by simp [hcol])]
  exact ended_eq ((congrArg (fun l : Lib => tabGet none l.streams k) hlib).trans hk) hdesc hkind

end

section
variable {s : State} {k : Nat} {r : LibReq}

/-- A refill that has completed. -/
theorem refilled_within (c : Nat) : Within (.lib :: .fab :: events) s (requestDone k r (loadStratum c r (landRows r 80 s))) :=
  (landRows_within.mono.step loadStratum_within).step requestDone_within

theorem exec_refillComplete_single {k : StreamId} (hpaired : s.paired = false) (hstage : s.cfg.stage ≠ 7) (hk : s.stream k = some r)
    (hop : r.op = 1) (hkind : r.kind = 0) (hdesc : r.desc = none) (htargets : reqTargets s r = [r.chamber])
    (hlock : (s.col (colOf r.chamber)).lock ≠ .comparing) :
    exec (.refillComplete k) s = .next (requestDone k r (loadStratum r.chamber r (landRows r 80 s))) := by
  refine congrArg Host.Outcome.next ?_
  rw [if_neg (by simp [hpaired]), refillDone_single hk hop hkind hdesc htargets hlock]
  refine settleLoad_elsewhere ?_
  rwa [(refilled_within _).frame .cfg (by decide)]

theorem requestDone_chm {c : Nat} : (requestDone k r s).chm c = s.chm c := by
  rw [State.chm, requestDone_fab, State.chm]

theorem requestDone_chmState {c : Nat} : (requestDone k r s).chmState c = s.chmState c := by
  have hrst : (requestDone k r s).rst = s.rst := requestDone_within.frame .rst (by decide)
  apply chmState_congr hrst <;> rw [requestDone_chm]

/-- The state of a chamber looks at its selected stratum's LOADED and QUAR only. -/
theorem chmState_modStrat {c q : Nat} {f : Stratum → Stratum} (hf : ∀ x, (f x).quar = x.quar ∧ (f x).loaded = x.loaded) :
    (s.modStrat c q f).chmState c = s.chmState c := by
  have hsel : (((s.chm c).modStrat q f).strat (s.chm c).sel).quar = ((s.chm c).strat (s.chm c).sel).quar ∧
      (((s.chm c).modStrat q f).strat (s.chm c).sel).loaded = ((s.chm c).strat (s.chm c).sel).loaded := by
    unfold Chamber.modStrat Chamber.strat
    dsimp only
    rcases eq_or_ne (s.chm c).sel q with h | h
    · rw [h, tabGet_tabMod_same]
      exact hf _
    · rw [tabGet_tabMod_other _ _ _ _ _ h]
      exact ⟨rfl, rfl⟩
  unfold State.chmState
  rw [chm_modStrat_same]
  dsimp only [Chamber.modStrat] at hsel ⊢
  rw [hsel.1, hsel.2]
  rfl

/-- Words that land move no chamber between its states. -/
theorem landRows_chmState (hkind : r.kind = 0) (htargets : reqTargets s r = [r.chamber]) :
    (landRows r 80 s).chmState r.chamber = s.chmState r.chamber := by
  rw [landRows_single hkind htargets]
  exact chmState_modStrat fun _ => ⟨rfl, rfl⟩

end

/-- Settles O26, by the start and the ends of the engine's requests. -/
theorem refillEngineRunsRequests : Obligations.RefillEngineRunsRequests := by
  unfold Obligations.RefillEngineRunsRequests
  refine ⟨fun s u k r q n f g why hfree hstage hnext hq hwhy hdesc hkind hstays => ?_,
    fun s k r rest n f g hfree hstage hp hopen hdevice hhold hloader hreleased hfifo hop hkind hslot hst hcls => ?_,
    fun s k r hk hop hkind hdesc hnotify hstage => ?_,
    fun s k r hk hop hkind hdesc hnotify htargets hstage => ?_,
    fun s k r hk hop hkind hdesc hpaired hrestore htargets hreleased hstage hlock hvacant hquar => ?_,
    fun s k r st hk hop hkind hdesc hpaired htargets hstage hlys hlock hst hstate hsel => ?_⟩
  · have hsu : Within [.lib] s u := takeFirst_within hnext
    have hraise := raised_raise 0x0403 [r.tag, r.op, r.chamber, r.stratum, r.slot, why] (u.modLib (streamTaken k q))
    have hstart := startRequest_refused (f := f.map (·.val)) (g := g) hfree hnext hq hwhy hdesc hkind hstays
    have hwithin : Within (.lib :: events) s (startRequest (f.map (·.val)) g s) :=
      hstart ▸ ((hsu.mono.step State.modLib_within).step raise_within).step State.modLib_within
    refine ⟨_, congrArg Host.Outcome.next ?_, ?_, ?_, ?_, hwithin.frame⟩
    · exact settleLoad_elsewhere (by rw [hwithin.frame .cfg (by decide)]; exact hstage)
    · rw [hstart]
      exact stream_streamEnded
    · have hdone : u.lib.done = s.lib.done := nextRequest_done hnext
      rw [hstart]
      show (raise _ _ (u.modLib (streamTaken k q))).lib.done.add 1 = _
      rw [raise_lib]
      exact congrArg (·.add 1) hdone
    · rw [hstart]
      exact (hraise.within State.modLib_within).before (hsu.step State.modLib_within)
  · have hnext := nextRequest_front hp hdevice hhold hloader hreleased hfifo hop hcls
    have hstart := startRequest_shclr (f := f.map (·.val)) (g := g) hfree hnext hop hkind hslot hst hopen
    refine ⟨_, congrArg Host.Outcome.next ((settleLoad_elsewhere ?_).trans hstart), stream_streamTaken, rfl,
      (State.modLib_within.trans State.modLib_within).frame⟩
    rw [hstart]
    exact hstage
  · have hwithin : Within (.lib :: events) s (requestDone k r (s.modSlot r.slot shadowCleared)) :=
      (State.modSlot_within.mono).step requestDone_within
    refine ⟨_, congrArg Host.Outcome.next ((settleLoad_elsewhere ?_).trans (requestOver_shclr hk hop hkind hdesc)),
      requestDone_stream, requestDone_done, (requestDone_slot _).trans (slot_modSlot_same ..), ?_, hwithin.frame⟩
    · rw [requestOver_shclr hk hop hkind hdesc, hwithin.frame .cfg (by decide)]
      exact hstage
    · exact hop ▸ (requestDone_raised hnotify).before State.modSlot_within
  · have hplain : notifyDone r (unload r.chamber r.stratum s) = unload r.chamber r.stratum s := by simp [notifyDone, hnotify]
    have hend : requestDone k r (unload r.chamber r.stratum s) = (unload r.chamber r.stratum s).modLib (streamEnded k) :=
      congrArg (·.modLib (streamEnded k)) hplain
    have hwithin : Within [.lib, .fab] s (requestDone k r (unload r.chamber r.stratum s)) :=
      hend ▸ unload_within.mono.step State.modLib_within
    obtain ⟨hloaded, hother⟩ := unload_strat (s := s) r.chamber r.stratum
    refine ⟨_, congrArg Host.Outcome.next ((settleLoad_elsewhere ?_).trans (requestOver_evict hk hop hkind hdesc htargets)),
      requestDone_stream, ?_, fun c q h => (requestDone_strat c q).trans (hother c q h), hwithin.frame⟩
    · rw [requestOver_evict hk hop hkind hdesc htargets, hwithin.frame .cfg (by decide)]
      exact hstage
    · rw [requestDone_strat]
      exact hloaded
  · obtain ⟨hloaded, hquars, hwords, hffs⟩ := loadStratum_strat (s := landRows r 80 s) (r := r) r.chamber
    have himage : ((landRows r 80 s).strat r.chamber r.stratum).words = (s.slot r.slot).image := by
      rw [landRows_single hkind htargets, strat_modStrat_same]
    have hrel : ((landRows r 80 s).chm r.chamber).released = true := by
      rw [landRows_single hkind htargets, chm_modStrat_same]
      exact hreleased
    rw [himage] at hwords hffs
    exact ⟨_, exec_refillComplete_single hpaired hstage hk hop hkind hdesc htargets hlock, requestDone_stream,
      (requestDone_strat ..).symm ▸ hloaded, (requestDone_strat ..).symm ▸ hquars, (requestDone_strat ..).symm ▸ hwords,
      (requestDone_strat ..).symm ▸ hffs hrestore hrel,
      fun h => hop ▸ (requestDone_raised h).before (landRows_within.step loadStratum_within), (refilled_within _).frame⟩
  · have hchm : (landRows r 80 s).chm r.chamber = (s.chm r.chamber).modStrat r.stratum fun st =>
        { st with words := (s.slot r.slot).image } := by rw [landRows_single hkind htargets, chm_modStrat_same]
    have hsel' : ((landRows r 80 s).chm r.chamber).sel = r.stratum := by
      rw [hchm]
      exact hsel
    have hlys' : (landRows r 80 s).lys.exiting = false := by rwa [landRows_within.frame .lys (by decide)]
    have hstate' : (landRows r 80 s).chmState r.chamber = st := (landRows_chmState hkind htargets).trans hstate
    obtain ⟨hent, hends⟩ := loadStratum_enters hst hstate' hsel' hlys'
    exact ⟨_, exec_refillComplete_single hpaired hstage hk hop hkind hdesc htargets hlock,
      (requestDone_strat ..).symm ▸ (loadStratum_strat r.chamber).1, requestDone_chm.symm ▸ hent, requestDone_chmState.trans hends,
      (refilled_within _).frame⟩

end Sys2Proof

/-! Lockstep: detection, diagnosis, degraded continuation, entry and exit (R236 to R254). -/

namespace Sys2Proof

open Sys2Proof.Machine

@[simp] theorem col_modCol_same (s : State) (n : Nat) (f : Column → Column) : (s.modCol n f).col n = f (s.col n) := by
  simp [State.modCol, State.col]

theorem col_of_columns {s t : State} (h : t.fab.columns = s.fab.columns) (n : Nat) : t.col n = s.col n := by
  rw [State.col, h, State.col]

@[simp] theorem raise_col (code : Nat) (fields : List Nat) (s : State) (n : Nat) : (raise code fields s).col n = s.col n :=
  col_of_columns (by rw [raise_fab]) n

/-! ### What the diagnosis does not change -/

/-- From `s` to `t` column `n` keeps its lockstep state, the stratum in diagnosis and its reaction. -/
def LockKept (n : Nat) (s t : State) : Prop :=
  (t.col n).lock = (s.col n).lock ∧ (t.col n).diagStratum = (s.col n).diagStratum ∧ (t.col n).reactAt = (s.col n).reactAt

namespace LockKept

variable {n : Nat} {s t u : State} {l : List Part}

theorem refl : LockKept n s s := ⟨rfl, rfl, rfl⟩

theorem trans (h : LockKept n s t) (h' : LockKept n t u) : LockKept n s u :=
  ⟨h'.1.trans h.1, h'.2.1.trans h.2.1, h'.2.2.trans h.2.2⟩

theorem of_columns (h : t.fab.columns = s.fab.columns) : LockKept n s t := by
  unfold LockKept
  rw [col_of_columns h]
  exact refl

theorem of_within (h : Within l s t) (hl : Part.fab ∉ l := by decide) : LockKept n s t :=
  of_columns (congrArg Fabric.columns (h.frame .fab hl))

theorem modCol {m : Nat} {f : Column → Column}
    (hf : ∀ x, (f x).lock = x.lock ∧ (f x).diagStratum = x.diagStratum ∧ (f x).reactAt = x.reactAt := by
      intro; exact ⟨rfl, rfl, rfl⟩) : LockKept n s (s.modCol m f) := by
  unfold LockKept
  rcases eq_or_ne n m with rfl | h
  · rw [col_modCol_same]
    exact hf _
  · simp [State.modCol, State.col, tabGet_tabMod_other, h]

/-- What happens last comes first: it names the state in between. -/
theorem after (h' : LockKept n t u) (h : LockKept n s t) : LockKept n s u := h.trans h'

theorem modStrat {c k : Nat} {f : Stratum → Stratum} : LockKept n s (s.modStrat c k f) := of_columns rfl

theorem libDevice {r : LibReq} : LockKept n s (libDevice r s) := of_columns rfl

theorem modFab {f : Fabric → Fabric} (hf : ∀ x, (f x).columns = x.columns := by intro; rfl) : LockKept n s (s.modFab f) :=
  of_columns (hf _)

theorem ite {p : Prop} [Decidable p] (h : LockKept n s t) (h' : LockKept n s u) : LockKept n s (if p then t else u) := by
  split
  · exact h
  · exact h'

theorem forEach {α : Type} {l : List α} {f : α → State → State} (h : ∀ a u, LockKept n u (f a u)) : LockKept n s (forEach l f s) :=
  forEach_keeps (LockKept n s) l f (fun a u hu => hu.trans (h a u)) s refl

end LockKept

section
variable {n : Nat} {s t : State}

theorem vacate_lockKept {c k : Nat} : LockKept n s (vacate c k s) := (LockKept.of_within raise_within).after .modStrat

theorem relocStep3_lockKept {m : Nat} : LockKept n s (relocStep3 m s) := by
  unfold relocStep3
  dsimp only
  split
  · refine LockKept.after (.forEach fun a u => ?_) (.after .modFab .modCol)
    exact .ite .refl (.ite .libDevice (vacate_lockKept.after .modCol))
  · exact (LockKept.of_within raise_within).after (.after .modCol (.after .modFab (.forEach fun a u => vacate_lockKept)))

theorem relocNext_lockKept {m : Nat} : LockKept n s (relocNext m s) := by
  unfold relocNext
  refine .ite .refl ?_
  refine (LockKept.of_within settleHold_within).after ?_
  dsimp only
  obtain ⟨u, hu, hkept⟩ : ∃ u, (if (s.col m).relocStep = 2 then relocStep3 m s else s) = u ∧ LockKept n s u :=
    ⟨_, rfl, .ite relocStep3_lockKept .refl⟩
  rw [hu]
  obtain ⟨w, hw, hkept'⟩ : ∃ w, (if (u.col m).relocStep = 4 ∧ (!relocBusy u m) = true then
      if (s.col m).stateLost = true then u.modCol m fun x => { x with relocStep := 5 }
      else forEach ((u.modCol m fun x => { x with relocStep := 5 }).col m).landed
        (fun q s => libDevice (relocReq s 3 (256 * (q / 4) + m, q % 4)) s) (u.modCol m fun x => { x with relocStep := 5 })
      else u) = w ∧ LockKept n u w :=
    ⟨_, rfl, .ite (.ite .modCol (.after (.forEach fun _ _ => .libDevice) .modCol)) .refl⟩
  rw [hw]
  exact (hkept.trans hkept').trans (.ite .modCol .refl)

theorem contFails_lockKept {m : Nat} : LockKept n s (contFails m s) :=
  (LockKept.of_within raise_within).after (.after (.of_within settleHold_within) (.after .modCol .modStrat))

theorem afterDevice_lockKept {r : LibReq} {ok : Bool} : LockKept n s (afterDevice r ok s) := by
  unfold afterDevice
  dsimp only
  split
  · exact relocNext_lockKept.after (.ite (.ite .modCol .refl) (.ite .modCol .refl))
  · exact .ite contFails_lockKept (.after (.ite .libDevice (.ite .libDevice .refl)) .modCol)
  · exact .refl

theorem endStream_lockKept {k status result : Nat} {ok : Bool} : LockKept n s (endStream k ok status result s) := by
  unfold endStream
  split
  · exact .refl
  · exact (LockKept.of_within freeStreamOf_within).trans afterDevice_lockKept

theorem abortRefill_lockKept {k cause rows : Nat} : LockKept n s (abortRefill k cause rows s) := by
  unfold abortRefill
  split
  · exact .refl
  next r hr =>
  refine LockKept.after (.ite endStream_lockKept ((LockKept.of_within State.fresh_within).after endStream_lockKept)) ?_
  refine (LockKept.of_within raise_within).after ?_
  exact LockKept.after (.forEach fun _ _ => .modStrat) (.of_columns (landRows_columns rows))

theorem abortFromSlot_lockKept {i : Nat} : LockKept n s (abortFromSlot i s) :=
  .forEach fun _ _ => .ite ((LockKept.of_within State.fresh_within).trans abortRefill_lockKept) .refl

theorem toSump_lockKept {i cause : Nat} : LockKept n s (toSump i cause s) := by
  unfold toSump
  exact .ite .refl (.ite
    (((LockKept.of_within State.modSlot_within).trans (.of_within raise_within)).trans abortFromSlot_lockKept)
    (((LockKept.of_within State.modSlot_within).trans (.of_within raise_within)).trans abortFromSlot_lockKept))

theorem useGolden_lockKept {i : Nat} : LockKept n s (useGolden i s) := by
  refine .ite ?_ .refl
  refine (LockKept.of_within raise_within).after (.after (.forEach fun _ _ => .modStrat) ?_)
  exact toSump_lockKept.after (.of_within State.modSlot_within)

theorem checkSlot_lockKept {i : Nat} : LockKept n s (checkSlot i s) :=
  .ite .refl (((LockKept.of_within State.modInteg_within).trans toSump_lockKept).trans (.of_within raise_within))

theorem countSomeError_lockKept {layers : List Nat} {c : Nat} : LockKept n s (countSomeError layers c s) := .of_columns rfl

/-- The check of a slot moves no lane. -/
theorem checkSlot_resPos (i : Nat) : (checkSlot i s).integ.resPos = s.integ.resPos := by
  unfold checkSlot
  dsimp only
  split
  · rfl
  · refine (congrArg Integ.resPos (raise_integ ..)).trans ?_
    exact (congrArg Integ.resPos (toSump_within.frame .integ (by decide))).trans rfl

end

section
variable {s : State} {n : Nat}

/-- A column in which a detection has happened (R236). -/
def columnDetected (k react : Nat) (paired : Bool) (x : Column) : Column :=
  { x with lock := .diagnosing, diagStratum := k, detPaired := paired, reactAt := react, digests := [] }

/-- What a detection does once it has been told. -/
def detected (n k : Nat) (u : State) : State :=
  quarantineAtEdge (n + 256) k 3 (quarantineAtEdge n k 3
    ((u.modCol n (columnDetected k (u.regF (chmReg n 0x48) 1 2) u.paired)).modLib fun l => { l with devhold := true }))

theorem detected_within {k : Nat} : Within [.fab, .lib] s (detected n k s) :=
  ((State.modCol_within.mono : Within [.fab, .lib] s _).step State.modLib_within).step
    (quarantineAtEdge_within.trans quarantineAtEdge_within)

theorem detected_col (k : Nat) : (detected n k s).col n = columnDetected k (s.regF (chmReg n 0x48) 1 2) s.paired (s.col n) :=
  col_modCol_same s n _

theorem detected_quarDue (k : Nat) {c : Nat} (hc : c = n ∨ c = n + 256) (hn : n < 256) :
    ((detected n k s).chm c).quarDue = (s.chm c).quarDue ++ [(k, 3)] := by
  unfold detected quarantineAtEdge
  rcases hc with rfl | rfl
  · rw [chm_modChm_other _ _ _ (by omega), chm_modChm_same]
    rfl
  · rw [chm_modChm_same, chm_modChm_other _ _ _ (by omega)]
    rfl

theorem lockDetect_solo (hsolo : s.paired = false) (mask : Nat) (a b : Word) : lockDetect n mask a b s =
    detected n (s.chm n).sel (raise 0x0633 [n, mask, s.now, (s.chm n).sel, a.toNat, b.toNat] s) := by
  have hpaired : (raise 0x0633 [n, mask, s.now, (s.chm n).sel, a.toNat, b.toNat] s).paired = false := by
    rw [State.paired, raise_twn]
    exact hsolo
  generalize hu : raise 0x0633 [n, mask, s.now, (s.chm n).sel, a.toNat, b.toNat] s = u at hpaired
  unfold lockDetect
  dsimp only
  rw [hu]
  exact if_neg (Bool.eq_false_iff.1 hpaired)

/-- A detection that no pair shares (R236). -/
theorem lockDetect_spec (hsolo : s.paired = false) (hn : n < 256) (mask : Nat) (a b : Word) :
    ((lockDetect n mask a b s).col n).lock = .diagnosing ∧ ((lockDetect n mask a b s).col n).diagStratum = (s.chm n).sel ∧
      (lockDetect n mask a b s).lib.devhold = true ∧
      ((lockDetect n mask a b s).chm n).quarDue = (s.chm n).quarDue ++ [((s.chm n).sel, 3)] ∧
      ((lockDetect n mask a b s).chm (n + 256)).quarDue = (s.chm (n + 256)).quarDue ++ [((s.chm n).sel, 3)] ∧
      Raised s (lockDetect n mask a b s) 0x0633 [n, mask, s.now, (s.chm n).sel, a.toNat, b.toNat] ∧
      Within (.fab :: .lib :: events) s (lockDetect n mask a b s) := by
  rw [lockDetect_solo hsolo]
  have hraise := raised_raise 0x0633 [n, mask, s.now, (s.chm n).sel, a.toNat, b.toNat] s
  refine ⟨?_, ?_, rfl, ?_, ?_, hraise.within detected_within, (raise_within.mono).step detected_within⟩
  · rw [detected_col, columnDetected]
  · rw [detected_col, columnDetected]
  · rw [detected_quarDue _ (.inl rfl) hn, raise_chm]
  · rw [detected_quarDue _ (.inr rfl) hn, raise_chm]

/-- A verdict after which no degraded continuation starts (R238, R239). -/
theorem lockVerdict_silent (v source : Nat) (hno : ¬((s.col n).reactAt = 1 ∧ v ≤ 1)) :
    ((lockVerdict n v source s).col n).lock = .silent ∧
      Raised s (lockVerdict n v source s) 0x0634 [n, (s.col n).diagStratum, v, source] := by
  obtain ⟨u, hu⟩ : ∃ u, (raise 0x0634 [n, (s.col n).diagStratum, v, source] s).modCol n (fun x => { x with lock := .silent }) = u := ⟨_, rfl⟩
  have hreact : (u.col n).reactAt = (s.col n).reactAt := by
    rw [← hu, col_modCol_same, raise_col]
  have hverdict : lockVerdict n v source s = settleHold u := by
    unfold lockVerdict lockReact
    dsimp only
    rw [hu]
    refine if_neg ?_
    rw [hreact]
    rintro ⟨-, -, h⟩
    exact hno h
  rw [hverdict]
  refine ⟨?_, ?_⟩
  · rw [col_of_columns (congrArg Fabric.columns (settleHold_within.frame .fab (by decide))), ← hu, col_modCol_same]
  · have hraise := (raised_raise 0x0634 [n, (s.col n).diagStratum, v, source] s).within
      (State.modCol_within (n := n) (f := fun x => { x with lock := .silent }))
    rw [hu] at hraise
    exact hraise.within settleHold_within

/-- A lockstep entry clears a chamber (R249). -/
def entryCleared (sel : Nat) (ch : Chamber) : Chamber :=
  { ch with shared := 0, pend := some sel, entering := 0, quarDue := [],
            strata := ch.strata.foldl (fun t p => tabSet {} t p.1 { p.2 with loaded := false, ffs := 0 }) ch.strata }

theorem entryCleared_strat (sel k : Nat) (ch : Chamber) :
    ((entryCleared sel ch).strat k).loaded = false ∧ ((entryCleared sel ch).strat k).ffs = 0 :=
  tabGet_rewritten (P := fun x : Stratum => x.loaded = false ∧ x.ffs = 0) {} (fun p => { p.2 with loaded := false, ffs := 0 })
    (fun _ => ⟨rfl, rfl⟩) ⟨rfl, rfl⟩ ch.strata k

/-- What a lockstep entry does to one chamber. -/
def enterLockstep (sel c : Nat) (s : State) : State :=
  (forEach (List.range 4) (fun k s => discardParked c k s) s).modChm c (entryCleared sel)

theorem enterLockstep_within {sel c : Nat} : Within (.fab :: events) s (enterLockstep sel c s) :=
  (Within.forEach fun _ _ => discardParked_within.mono).step State.modChm_within

theorem enterLockstep_same (sel c : Nat) : ∃ y, (enterLockstep sel c s).chm c = entryCleared sel y := ⟨_, chm_modChm_same ..⟩

theorem enterLockstep_other (sel : Nat) {c x : Nat} (h : x ≠ c) : (enterLockstep sel c s).chm x = s.chm x := by
  rw [enterLockstep, chm_modChm_other _ _ _ h]
  refine forEach_same (·.chm x) _ _ _ fun k u => ?_
  unfold discardParked
  dsimp only
  split
  · rfl
  · rw [raise_chm, State.modStrat, chm_modChm_other _ _ _ h]

end

section
variable {s : State}

theorem exec_mismatch (col : ColumnId) (cls : BitVec 3) (a b : Word) (hlock : (s.col col).lock = .comparing) :
    exec (.lockstepMismatch col cls a b none) s = .next (lockDetect col cls.toNat a b s) := if_pos hlock

theorem exec_pathFault (col : ColumnId) (cls : BitVec 3) (a b : Word) (fault : PathFault) (hlock : (s.col col).lock = .comparing) :
    exec (.lockstepMismatch col cls a b (some fault)) s =
      .next (if fault = .digestParity then countSomeError [4] ((lockVerdict col 4 1 (lockDetect col 0 a b s)).physOf col)
        (lockVerdict col 4 1 (lockDetect col 0 a b s)) else lockVerdict col 4 1 (lockDetect col 0 a b s)) := if_pos hlock

/-- A stratum with which its chamber resumes (R242). -/
def stratumResumed (st : Stratum) : Stratum :=
  { st with loaded := true, refilling := false, quar := false, unchecked := false, failMask := [] }

/-- A column that resumes with one chamber (R242). -/
def columnResumed (shadow : Nat) (x : Column) : Column :=
  { x with lock := x.resumeState, resumeState := .off, contStep := 0, shadows := tabDel x.shadows shadow }

/-- What the completion of a degraded continuation does before it is told. -/
def resumed (col k : Nat) (s : State) : State := (s.modStrat col k stratumResumed).modCol col (columnResumed (4 * 0 + k))

theorem exec_degradedComplete (col : ColumnId) (hstep : (s.col col).contStep = 4) (hstate : (s.col col).resumeState = .degradedA) :
    ∃ t, (t = raise 0x0635 [col, 0, (s.col col).diagStratum, 0] (settleHold (resumed col (s.col col).diagStratum s)) ∨
        t = (raise 0x0635 [col, 0, (s.col col).diagStratum, 0] (settleHold (resumed col (s.col col).diagStratum s))).modChm col
          fun ch => { ch with entering := s.chmState col }) ∧ exec (.degradedComplete col) s = .next t := by
  have hgood : (if (s.col col).resumeState = .degradedB then 1 else 0) = 0 := if_neg (by rw [hstate]; decide)
  have hexec : exec (.degradedComplete col) s = execDegradedComplete col s := rfl
  rw [hexec]
  unfold execDegradedComplete
  dsimp only
  rw [if_pos hstep, hgood]
  generalize hu : raise 0x0635 [col.val, 0, (s.col col).diagStratum, 0] (settleHold (resumed col (s.col col).diagStratum s)) = u
  refine ⟨if (u.chm col).sel = (s.col col).diagStratum ∧ (s.chmState col = 2 ∨ s.chmState col = 3) then
    u.modChm col fun ch => { ch with entering := s.chmState col } else u, ?_, by rw [← hu]; rfl⟩
  split
  · exact .inr rfl
  · exact .inl rfl

theorem diagnosis_verdict (col : ColumnId) (v : Nat) (k : Nat)
    (hv : v = (if badRows s col k ≠ [] then (if badRows s (col + 256) k ≠ [] then 3 else 0)
      else if badRows s (col + 256) k ≠ [] then 1 else 2)) :
    (if (!(badRows s col k).isEmpty && !(badRows s (col + 256) k).isEmpty) = true then 3
      else if (!(badRows s col k).isEmpty) = true then 0 else if (!(badRows s (col + 256) k).isEmpty) = true then 1 else 2) = v := by
  rw [hv]
  cases badRows s col k <;> cases badRows s (col + 256) k <;> rfl

/-- The diagnosis restarts its lane's stratum and counts the interrupt (R237). -/
def laneRestarted (i : Integ) : Integ := { i with interrupts := min 65535 (i.interrupts + 1), resPos := i.resPos - i.resPos % 80 }

/-- The state in which a diagnosis gives its verdict. -/
def columnDiagnosed (col : Nat) (s : State) : State :=
  useGolden (s.strat (col + 256) (s.col col).diagStratum).slot
    (useGolden (s.strat col (s.col col).diagStratum).slot (s.modInteg laneRestarted))

theorem columnDiagnosed_lockKept (col : Nat) : LockKept col s (columnDiagnosed col s) :=
  useGolden_lockKept.after (useGolden_lockKept.after (.of_within State.modInteg_within))

theorem columnDiagnosed_within (col : Nat) : Within (.fab :: .lib :: .integ :: .seed :: .que :: events) s (columnDiagnosed col s) :=
  (State.modInteg_within.mono.step useGolden_within).step useGolden_within

theorem columnDiagnosed_resPos (col : Nat) : (columnDiagnosed col s).integ.resPos = s.integ.resPos - s.integ.resPos % 80 := by
  have h : (columnDiagnosed col s).integ = (s.modInteg laneRestarted).integ :=
    (useGolden_within.frame .integ (by decide)).trans (useGolden_within.frame .integ (by decide))
  rw [h]
  rfl

theorem exec_diagnosisVerdict (col : ColumnId) (v : Nat) (hlock : (s.col col).lock = .diagnosing)
    (hv : v = (if badRows s col (s.col col).diagStratum ≠ [] then (if badRows s (col + 256) (s.col col).diagStratum ≠ [] then 3 else 0)
      else if badRows s (col + 256) (s.col col).diagStratum ≠ [] then 1 else 2)) :
    exec (.diagnosisVerdict col) s = .next (if v = 3 then
      checkSlot ((lockVerdict col v 1 (columnDiagnosed col s)).strat col (s.col col).diagStratum).slot (lockVerdict col v 1 (columnDiagnosed col s))
      else lockVerdict col v 1 (columnDiagnosed col s)) := by
  have hexec : exec (.diagnosisVerdict col) s = execDiagnosisVerdict col s := rfl
  rw [hexec]
  unfold execDiagnosisVerdict
  dsimp only
  rw [if_pos hlock, diagnosis_verdict col v _ hv]
  rfl

/-- A column that begins to compare (R249). -/
def columnEntered (x : Column) : Column :=
  { x with lock := .comparing, staged := none, slice := 0, digests := [], resumeState := .off, contStep := 0 }

theorem enterLockstep_pair (sel col : Nat) : forEach [col, col + 256] (enterLockstep sel) s =
    enterLockstep sel (col + 256) (enterLockstep sel col s) := by rw [forEach_cons, forEach_cons, forEach_nil]

theorem exec_lockstepEntry (col : ColumnId) (hstaged : (s.col col).staged = some true) (hready : stageReady s col = true) :
    exec (.lockstepEntry col) s = .next (raise 0x0631 [col, s.now]
      ((enterLockstep (s.chm col).sel (col + 256) (enterLockstep (s.chm col).sel col s)).modCol col columnEntered)) := by
  have hexec : exec (.lockstepEntry col) s = execLockstepEntry col s := rfl
  obtain ⟨u, hu⟩ : ∃ u, enterLockstep (s.chm col).sel (col + 256) (enterLockstep (s.chm col).sel col s) = u := ⟨_, rfl⟩
  have hnow : (u.modCol col columnEntered).now = s.now := by
    rw [← hu]
    have hw : Within (.fab :: events) s (enterLockstep (s.chm col).sel (col + 256) (enterLockstep (s.chm col).sel col s)) :=
      enterLockstep_within.trans enterLockstep_within
    exact (hw.step State.modCol_within).now
  rw [hexec, hu]
  unfold execLockstepEntry
  rw [if_pos ⟨hstaged, hready⟩]
  simp only [forEach_cons, forEach_nil]
  unfold enterLockstep entryCleared at hu
  rw [hu]
  exact congrArg (fun x => Host.Outcome.next (raise 0x0631 [col.val, x] (u.modCol col columnEntered))) hnow

end

/-- Settles O27, by the detection, the verdict and the entry. -/
theorem lockstepDetectsAndReacts : Obligations.LockstepDetectsAndReacts := by
  unfold Obligations.LockstepDetectsAndReacts
  refine ⟨fun s col cls a b hlock hrole => ?_, fun s col cls a b fault hlock hrole => ?_, fun s col v hlock hreact hv => ?_,
    fun s col k hstep hstate hk => ?_, fun s col hstaged hready => ?_, fun s col hstaged hready => ?_⟩
  · obtain ⟨hd, hst, hhold, hq, hq', hr, hw⟩ := lockDetect_spec (s := s) (n := col) (by simp [State.paired, hrole]) col.isLt cls.toNat a b
    exact ⟨_, exec_mismatch col cls a b hlock, hd, hst, hhold, hq, hq', hr, hw.frame⟩
  · obtain ⟨-, hst, -, -, -, -, hw⟩ := lockDetect_spec (s := s) (n := col) (by simp [State.paired, hrole]) col.isLt 0 a b
    obtain ⟨hsilent, hraised⟩ := lockVerdict_silent (s := lockDetect col 0 a b s) (n := col) 4 1 (by omega)
    have hwv : Within (.fab :: .lib :: events) s (lockVerdict col 4 1 (lockDetect col 0 a b s)) := hw.step lockVerdict_within
    have hraised' : Raised s (lockVerdict col 4 1 (lockDetect col 0 a b s)) 0x0634 [col, (s.chm col).sel, 4, 1] :=
      (hst ▸ hraised).before hw
    refine ⟨_, exec_pathFault col cls a b fault hlock, ?_⟩
    split
    next h =>
      exact ⟨(countSomeError_lockKept.1).trans hsilent, hraised'.within countSomeError_within, fun hf => absurd h hf,
        ((hwv.mono : Within (.fab :: .lib :: .seed :: events) s _).step countSomeError_within).frame⟩
    next h => exact ⟨hsilent, hraised', fun _ => hwv.frame .seed (by decide), hwv.frame.mono (by decide)⟩
  · have hkept := columnDiagnosed_lockKept (s := s) col
    have hwd := columnDiagnosed_within (s := s) col
    obtain ⟨hsilent, hraised⟩ := lockVerdict_silent (s := columnDiagnosed col s) (n := col) v 1
      (by rw [hkept.2.2]; exact fun h => hreact h.1)
    have hwv : Within (.fab :: .lib :: .integ :: .seed :: .que :: events) s (lockVerdict col v 1 (columnDiagnosed col s)) :=
      hwd.step lockVerdict_within
    have hraised' : Raised s (lockVerdict col v 1 (columnDiagnosed col s)) 0x0634 [col, (s.col col).diagStratum, v, 1] :=
      (hkept.2.1 ▸ hraised).before hwd
    have hpos : (lockVerdict col v 1 (columnDiagnosed col s)).integ.resPos = s.integ.resPos - s.integ.resPos % 80 :=
      (congrArg Integ.resPos (lockVerdict_within.frame .integ (by decide))).trans (columnDiagnosed_resPos col)
    refine ⟨_, exec_diagnosisVerdict col v hlock hv, ?_⟩
    split
    · exact ⟨checkSlot_lockKept.1.trans hsilent, hraised'.within checkSlot_within, (checkSlot_resPos _).trans hpos,
        (hwv.step checkSlot_within).frame⟩
    · exact ⟨hsilent, hraised', hpos, hwv.frame⟩
  · obtain ⟨t, ht, hexec⟩ := exec_degradedComplete col hstep hstate
    have hw : Within [.fab, .lib] s (settleHold (resumed col k s)) :=
      (State.modStrat_within.mono.step State.modCol_within).step settleHold_within
    have hraise := raised_raise 0x0635 [col.val, 0, k, 0] (settleHold (resumed col k s))
    have hstrat : ∀ st, (raise 0x0635 [col.val, 0, k, 0] (settleHold (resumed col k s))).strat col st = (s.modStrat col k stratumResumed).strat col st :=
      fun st => by rw [State.strat, raise_chm]; rfl
    have hcol : (raise 0x0635 [col.val, 0, k, 0] (settleHold (resumed col k s))).col col = columnResumed (4 * 0 + k) (s.col col) := by
      rw [raise_col]
      exact col_modCol_same _ _ _
    rw [hk] at ht
    have hwr : Within (.fab :: .lib :: events) s (raise 0x0635 [col.val, 0, k, 0] (settleHold (resumed col k s))) := hw.mono.step raise_within
    have hraised : Raised s (raise 0x0635 [col.val, 0, k, 0] (settleHold (resumed col k s))) 0x0635 [col.val, 0, k, 0] := hraise.before hw
    generalize raise 0x0635 [col.val, 0, k, 0] (settleHold (resumed col k s)) = u at *
    have hstrat' : t.strat col k = stratumResumed (s.strat col k) := by
      rcases ht with rfl | rfl
      · rw [hstrat, strat_modStrat_same]
      · rw [strat_modChm, hstrat, strat_modStrat_same]
    have hcol' : t.col col = columnResumed (4 * 0 + k) (s.col col) := by
      rcases ht with rfl | rfl
      · exact hcol
      · exact hcol
    have hraised' : Raised s t 0x0635 [col.val, 0, k, 0] := by
      rcases ht with rfl | rfl
      · exact hraised
      · exact hraised.within State.modChm_within
    have hwt : Within (.fab :: .lib :: events) s t := by
      rcases ht with rfl | rfl
      · exact hwr
      · exact hwr.step State.modChm_within
    refine ⟨t, hexec, ?_, ?_, ?_, ?_, ?_, hraised', hwt.frame⟩
    · rw [hcol']
      exact hstate
    · rw [hcol', columnResumed]
    · rw [hstrat', stratumResumed]
    · rw [hstrat', stratumResumed]
    · rw [hstrat', stratumResumed]
  · obtain ⟨y, hy⟩ := enterLockstep_same (s := enterLockstep (s.chm col).sel col s) (s.chm col).sel (col.val + 256)
    obtain ⟨z, hz⟩ := enterLockstep_same (s := s) (s.chm col).sel col
    have hother := enterLockstep_other (s := enterLockstep (s.chm col).sel col s) (s.chm col).sel
      (c := col.val + 256) (x := col) (by omega)
    rw [hz] at hother
    have hw : Within (.fab :: events) s (enterLockstep (s.chm col).sel (col.val + 256) (enterLockstep (s.chm col).sel col s)) :=
      enterLockstep_within.trans enterLockstep_within
    have hexec := exec_lockstepEntry col hstaged hready
    generalize enterLockstep (s.chm col).sel (col.val + 256) (enterLockstep (s.chm col).sel col s) = u at *
    have hchm : ∀ c, (raise 0x0631 [col.val, s.now] (u.modCol col columnEntered)).chm c = u.chm c := fun c => raise_chm ..
    have hstrat : ∀ c k, (raise 0x0631 [col.val, s.now] (u.modCol col columnEntered)).strat c k = (u.chm c).strat k :=
      fun c k => congrArg (·.strat k) (hchm c)
    refine ⟨_, hexec, ?_, ?_, ?_, ?_, fun k => ?_, ?_, (raised_raise ..).before (hw.step State.modCol_within),
      ((hw.step State.modCol_within).step raise_within).frame⟩
    · rw [raise_col, col_modCol_same, columnEntered]
    · rw [raise_col, col_modCol_same, columnEntered]
    · rw [hchm, hother, entryCleared]
    · rw [hchm, hy, entryCleared]
    · rw [hstrat, hstrat, hother, hy]
      exact ⟨(entryCleared_strat ..).1, (entryCleared_strat ..).2, (entryCleared_strat ..).1⟩
    · rw [hchm, hy, entryCleared]
  · refine ⟨_, if_pos ⟨hstaged, hready⟩, ?_, ?_, ?_, ?_⟩
    · rw [raise_col, col_modCol_same]
    · rw [raise_col, col_modCol_same]
    · exact (raised_raise ..).before State.modCol_within
    · exact ((State.modCol_within.mono : Within (.fab :: events) s _).step raise_within).frame

end Sys2Proof

/-! A column port's requests, the banks that perform them and their responses (R260 to R277). -/

namespace Sys2Proof

open Sys2Proof.Machine

/-! ### Requests -/

section
variable {s : State} {c op l : Nat} {be : BitVec 64} {d : BitVec 512} {p : BitVec 8}

/-- What a chamber's connection may do: it is in RUN with a Grotto port on pins of its own. -/
structure PortLive (s : State) (c : Nat) : Prop where
  run : s.chmState c = 1
  port : gportOf (s.chm c).selWords = true
  pins : (pinActsFor s c).isSome = true
  mem : s.inReset 3 = false

theorem PortLive.not_dead (h : PortLive s c) : ¬(s.chmState c ≠ 1 ∨ (!gportOf (s.chm c).selWords) = true ∨ (pinActsFor s c).isNone = true) := by
  obtain ⟨hrun, hport, hpins, -⟩ := h
  obtain ⟨x, hx⟩ := Option.isSome_iff_exists.1 hpins
  simp [hrun, hport, hx]

/-- R39, R44. -/
theorem portRequest_fenced (h : PortLive s c) (hfence : memFenced s 2 = true ∨ s.fenced (tierOf c) = true) :
    portRequest c op l be d p s = s.send (.portAbort c (s.chm c).sel) := by
  have hor : (memFenced s 2 || s.inReset 3 || s.fenced (tierOf c)) = true := by
    rcases hfence with hf | hf <;> simp [hf]
  unfold portRequest
  dsimp only
  rw [if_neg h.not_dead, if_pos hor]

/-- The request as its bank queues it. -/
def portAcc (s : State) (c op l : Nat) (be : BitVec 64) (d : BitVec 512) (p : BitVec 8) : BankAcc :=
  { chamber := c, stratum := (s.chm c).sel, op, line := l, be, data := d, poison := p, mesh := decide (colOf c ≠ lineGroup l) }

/-- A bank with one more access in its queue. -/
def bankQueued (a : BankAcc) (b : Bank) : Bank := { b with queue := b.queue ++ [a] }

theorem portRequest_open (h : PortLive s c) (hfence : memFenced s 2 = false) (htier : s.fenced (tierOf c) = false)
    (hroom : (s.bank (bankOf l)).queue.length < 4)
    (hreads : op = 0 → ((s.chm c).reads.countP fun r => r.stratum == (s.chm c).sel) + ((s.chm c).strat (s.chm c).sel).parked.length < 16)
    (hwrites : op ≠ 0 → heldWrites s c < 16) : portRequest c op l be d p s =
      if op = 0 then (s.modBank (bankOf l) (bankQueued (portAcc s c op l be d p))).modChm c fun ch =>
        { ch with reads := ch.reads ++ [{ stratum := (s.chm c).sel, line := l }] }
      else s.modBank (bankOf l) (bankQueued (portAcc s c op l be d p)) := by
  have hor : ¬(memFenced s 2 || s.inReset 3 || s.fenced (tierOf c)) = true := by simp [hfence, htier, h.mem]
  have hmesh : (colOf c != lineGroup l) = decide (colOf c ≠ lineGroup l) := by simp [bne, Bool.beq_eq_decide_eq]
  unfold portRequest
  dsimp only
  rw [if_neg h.not_dead, if_neg hor, if_neg (by omega), if_neg (by omega), if_neg (by omega), hmesh]
  rfl

theorem bank_modBank_same (i : Nat) (f : Bank → Bank) : (s.modBank i f).bank i = f (s.bank i) := by
  rw [State.modBank_bank, if_pos rfl]

/-- A WRITE, BITSET or BITCLR joins its bank's queue. -/
theorem portRequest_write (h : PortLive s c) (hfence : memFenced s 2 = false) (htier : s.fenced (tierOf c) = false)
    (hroom : (s.bank (bankOf l)).queue.length < 4) (hop : op ≠ 0) (hwrites : heldWrites s c < 16) :
    ((portRequest c op l be d p s).bank (bankOf l)).queue = (s.bank (bankOf l)).queue ++ [portAcc s c op l be d p] ∧
      (∀ a, grottoByte (portRequest c op l be d p s) a = grottoByte s a) ∧ OnlyChanges [.grt] s (portRequest c op l be d p s) := by
  rw [portRequest_open h hfence htier hroom (fun h => absurd h hop) fun _ => hwrites, if_neg hop]
  exact ⟨by rw [bank_modBank_same, bankQueued], fun _ => rfl, State.modBank_within.frame⟩

theorem portRequest_read (h : PortLive s c) (hfence : memFenced s 2 = false) (htier : s.fenced (tierOf c) = false)
    (hroom : (s.bank (bankOf l)).queue.length < 4)
    (hreads : ((s.chm c).reads.countP fun r => r.stratum == (s.chm c).sel) + ((s.chm c).strat (s.chm c).sel).parked.length < 16) :
    ((portRequest c 0 l be d p s).bank (bankOf l)).queue = (s.bank (bankOf l)).queue ++ [portAcc s c 0 l be d p] ∧
      ((portRequest c 0 l be d p s).chm c).reads = (s.chm c).reads ++ [{ stratum := (s.chm c).sel, line := l }] ∧
      (∀ a, grottoByte (portRequest c 0 l be d p s) a = grottoByte s a) ∧ OnlyChanges [.grt, .fab] s (portRequest c 0 l be d p s) := by
  rw [portRequest_open h hfence htier hroom (fun _ => hreads) (fun h => absurd rfl h), if_pos rfl]
  refine ⟨congrArg Bank.queue (bank_modBank_same ..), ?_, fun _ => rfl, ?_⟩
  · rw [chm_modChm_same]
    rfl
  · exact ((State.modBank_within.mono : Within [.grt, .fab] s _).step State.modChm_within).frame

theorem portRequest_full (h : PortLive s c) (hfence : memFenced s 2 = false) (htier : s.fenced (tierOf c) = false)
    (hfull : (s.bank (bankOf l)).queue.length = 4) : portRequest c op l be d p s = s := by
  have hor : ¬(memFenced s 2 || s.inReset 3 || s.fenced (tierOf c)) = true := by simp [hfence, htier, h.mem]
  unfold portRequest
  dsimp only
  rw [if_neg h.not_dead, if_neg hor, if_pos (by omega)]

end

/-! ### The bank -/

section
variable {s t : State} {l : Nat}

theorem mem_setAdd (k x : Nat) (l : List Nat) : x ∈ setAdd k l ↔ x = k ∨ x ∈ l := by
  induction l with
  | nil => simp [setAdd]
  | cons y l ih =>
    unfold setAdd
    split
    · simp
    · split
      · next h => simp [h]
      · simp only [List.mem_cons, ih]
        tauto

theorem mem_setDel (k x : Nat) (l : List Nat) : x ∈ setDel k l ↔ x ≠ k ∧ x ∈ l := by
  simp [setDel, and_comm]

/-- The poison flag and the wrong bits of a word once a word has been put. -/
theorem wordPoison_putWord (w v : Nat) (d : BitVec 64) (p : Bool) :
    wordPoison (putWord w d p s) v = if v = w then p else wordPoison s v := by
  have hiff : ∀ b : Bool, (wordPoison (putWord w d p s) v = true ↔ b = true) → wordPoison (putWord w d p s) v = b := fun b h => by
    cases b <;> simpa using h
  apply hiff
  show (if p then setAdd w s.grt.poison else setDel w s.grt.poison).contains v = true ↔ _
  rw [List.contains_iff_mem]
  cases p
  · simp [mem_setDel, wordPoison]
  · simp [mem_setAdd, wordPoison]

theorem wordErr_putWord (w v : Nat) (d : BitVec 64) (p : Bool) :
    wordErr (putWord w d p s) v = if v = w then 0 else wordErr s v := by
  show tabGet 0 (tabDel s.grt.errs w) v = _
  split
  next h => rw [h, tabGet_tabDel_same]
  next h => exact tabGet_tabDel_other _ _ _ _ h

/-- No injection is armed. -/
theorem storeWord_unarmed (hunarmed : s.regB 0x7_0020 31 = false) (w : Nat) (d : BitVec 64) (p : Bool) :
    storeWord w d p s = (putWord w d p s).modBank (bankOf (w / 8)) fun b => { b with rewrites := b.rewrites.filter fun r => r.word != w } := by
  have h : bit (((putWord w d p s).modBank (bankOf (w / 8)) fun b => { b with
      rewrites := b.rewrites.filter fun r => r.word != w }).reg 0x7_0020) 31 = false := hunarmed
  exact if_neg fun hc => absurd hc.1 (by rw [h]; decide)

/-- The first `n` words of line `l` hold the data and the poison flags of an access. -/
structure LineStored (l : Nat) (d : BitVec 512) (p : BitVec 8) (n : Nat) (s t : State) : Prop extends Within [.grt] s t where
  byte : ∀ x, grottoByte t x = if 8 * l ≤ x / 8 ∧ x / 8 < 8 * l + n then byteOf d (x - 64 * l) else grottoByte s x
  word : ∀ i < n, wordPoison t (8 * l + i) = bit p i ∧ wordErr t (8 * l + i) = 0
  queue : ∀ b, (t.bank b).queue = (s.bank b).queue

theorem LineStored.store {d : BitVec 512} {p : BitVec 8} {n : Nat} (h : LineStored l d p n s t) (hunarmed : s.regB 0x7_0020 31 = false) :
    LineStored l d p (n + 1) s (storeWord (8 * l + n) (wordAt d n) (bit p n) t) := by
  have hreg : t.regB 0x7_0020 31 = false := by
    rw [State.regB, h.frame .regs (by decide)]
    exact hunarmed
  rw [storeWord_unarmed hreg]
  refine ⟨(h.toWithin.step putWord_within).step State.modBank_within, fun x => ?_, fun i hi => ?_, fun b => ?_⟩
  · show grottoByte (putWord (8 * l + n) (wordAt d n) (bit p n) t) x = _
    rw [grottoByte_putWord, h.byte]
    split
    next hx =>
      rw [if_pos (by omega), byteOf_wordAt _ _ _ (Nat.mod_lt _ (by decide))]
      congr 1
      omega
    next hx => exact if_congr (by omega) rfl rfl
  · show wordPoison (putWord (8 * l + n) (wordAt d n) (bit p n) t) (8 * l + i) = _ ∧
      wordErr (putWord (8 * l + n) (wordAt d n) (bit p n) t) (8 * l + i) = _
    rw [wordPoison_putWord, wordErr_putWord]
    rcases Nat.lt_succ_iff_lt_or_eq.1 hi with hi | rfl
    · rw [if_neg (by omega), if_neg (by omega)]
      exact h.word i hi
    · rw [if_pos rfl, if_pos rfl]
      exact ⟨rfl, rfl⟩
  · rw [← h.queue b, State.modBank_bank]
    split
    next hb => rw [hb]; rfl
    next hb => rfl

theorem lineStored_range {d : BitVec 512} {p : BitVec 8} {f : Nat → State → State} (hunarmed : s.regB 0x7_0020 31 = false) {n : Nat}
    (hf : ∀ i < n, ∀ u, f i u = storeWord (8 * l + i) (wordAt d i) (bit p i) u) :
    LineStored l d p n s (forEach (List.range n) f s) := by
  induction n with
  | zero => exact ⟨.refl, fun x => (if_neg (by omega)).symm, fun i hi => absurd hi (by omega), fun _ => rfl⟩
  | succ n ih =>
    have hstep : forEach (List.range (n + 1)) f s = f n (forEach (List.range n) f s) := by simp [forEach, List.range_succ]
    rw [hstep, hf n (by omega)]
    exact (ih fun i hi => hf i (by omega)).store hunarmed

/-- A WRITE of a whole line (R262, R277). -/
theorem accessLine_write (hbank : s.bankState (bankOf l) ≠ 2) (hunarmed : s.regB 0x7_0020 31 = false) (d : BitVec 512) (p addrErr : BitVec 8)
    (src : Nat) : LineStored l d p 8 s (accessLine 1 l (BitVec.allOnes 64) d p addrErr src s).2 := by
  unfold accessLine
  rw [if_neg hbank, if_neg (by decide)]
  change LineStored l d p 8 s (forEach _ _ s)
  refine lineStored_range hunarmed fun i hi u => ?_
  have hbe : ∀ i < 8, (BitVec.allOnes 64).extractLsb' (8 * i) 8 = (0xFF : BitVec 8) := by decide
  unfold writeWord
  rw [hbe i hi, if_neg (by decide), if_pos ⟨rfl, rfl⟩]

theorem readWord_clean {w : Nat} (h : wordErr s w = 0) (src : Nat) :
    readWord src w false s = ((wordData s w, wordPoison s w, false), s) := by
  have hpop : popcount (0#80) = 0 := by decide
  simp [readWord, checkWord, h, hpop]

/-- What a READ of a line with no wrong bit gives (R274). -/
def lineRead (s : State) (l : Nat) : BitVec 512 × BitVec 8 × Bool :=
  (lineData ((List.range 8).map fun i => wordData s (8 * l + i)),
    ofBits 8 ((List.range 8).filter fun i => wordPoison s (8 * l + i)), false)

theorem accessLine_read (hbank : s.bankState (bankOf l) ≠ 2) (herr : ∀ i < 8, wordErr s (8 * l + i) = 0) (be : BitVec 64) (d : BitVec 512)
    (p : BitVec 8) (src : Nat) : accessLine 0 l be d p 0 src s = (lineRead s l, s) := by
  have hzero : ∀ i, bit (0#8) i = false := by simp [bit]
  unfold accessLine
  rw [if_neg hbank, if_pos rfl]
  have hfold : ∀ n ≤ 8, (List.range n).foldl (fun (acc : List (BitVec 64 × Bool) × State) i =>
      let ((d, p, _), s') := readWord src (8 * l + i) (bit (0 : BitVec 8) i) acc.2
      (acc.1 ++ [(d, p)], s')) ([], s) = ((List.range n).map fun i => (wordData s (8 * l + i), wordPoison s (8 * l + i)), s) := by
    intro n hn
    induction n with
    | zero => rfl
    | succ n ih =>
      rw [List.range_succ, List.foldl_append, ih (by omega)]
      simp [hzero, readWord_clean (herr n (by omega))]
  rw [hfold 8 (by decide)]
  have hflags : ((List.range 8).filterMap fun i => if wordPoison s (8 * l + i) = true then some i else none) =
      (List.range 8).filter fun i => wordPoison s (8 * l + i) := by
    rw [← List.filterMap_eq_filter]
    rfl
  simp only [withPos_map_range, lineRead, List.map_map, List.filterMap_map, ← hflags]
  rfl

/-! ### What the bank performs -/

/-- A bank that has taken its last access. -/
def bankEmptied (mesh : Bool) (b : Bank) : Bank := { b with queue := [], lastMesh := mesh }

/-- A bank that rests. -/
def bankResting (rest : Nat) (b : Bank) : Bank := { b with state := if b.state = 2 then 2 else rest }

theorem nextAccess_single {b : Bank} {a : BankAcc} (h : b.queue = [a]) : nextAccess b = some (a, []) := by
  unfold nextAccess
  rw [h]
  cases hmesh : a.mesh != b.lastMesh <;> simp [takeFirst, hmesh]

variable {b : Nat} {a : BankAcc}

theorem performNext_single (h : (s.bank b).queue = [a]) (addrErr : BitVec 8) : performNext b addrErr s =
    (let r := accessLine a.op a.line a.be a.data a.poison addrErr 1 (s.modBank b (bankEmptied a.mesh))
     let u := if a.op = 0 ∧ !a.gone then answerRead a r.1.1 r.1.2.1 r.1.2.2 r.2 else r.2
     u.modBank b (bankResting (restState u b))) := by
  unfold performNext
  rw [nextAccess_single h]
  simp only [if_true]
  rfl

theorem exec_bankAccess {b : BankId} (hmem : s.inReset 3 = false) (hfill : s.grt.filling = false) (hstate : (s.bank b).state ≠ 3) :
    exec (.bankAccess b 0) s = .next (performNext b 0 s) := by
  refine congrArg Host.Outcome.next (if_neg ?_)
  simp [hmem, hfill, hstate]

/-- A bank that has taken an access is in the state it was in. -/
theorem bankState_emptied (mesh : Bool) (i : Nat) : (s.modBank b (bankEmptied mesh)).bankState i = s.bankState i := by
  unfold State.bankState
  rw [State.modBank_bank]
  split
  next h => rw [h]; rfl
  next h => rfl

theorem performNext_write (h : (s.bank b).queue = [a]) (hop : a.op = 1) (hbe : a.be = BitVec.allOnes 64)
    (hbank : s.bankState (bankOf a.line) ≠ 2) (hunarmed : s.regB 0x7_0020 31 = false) :
    (∀ x, x / 64 = a.line → grottoByte (performNext b 0 s) x = byteOf a.data (x % 64)) ∧
      (∀ x, x / 64 ≠ a.line → grottoByte (performNext b 0 s) x = grottoByte s x) ∧
      (∀ i < 8, wordPoison (performNext b 0 s) (8 * a.line + i) = bit a.poison i ∧ wordErr (performNext b 0 s) (8 * a.line + i) = 0) ∧
      ((performNext b 0 s).bank b).queue = [] ∧ OnlyChanges [.grt] s (performNext b 0 s) := by
  obtain ⟨w, hw⟩ : ∃ w, (accessLine 1 a.line (BitVec.allOnes 64) a.data a.poison 0 1 (s.modBank b (bankEmptied a.mesh))).2 = w := ⟨_, rfl⟩
  have hstored : LineStored a.line a.data a.poison 8 (s.modBank b (bankEmptied a.mesh)) w := by
    rw [← hw]
    exact accessLine_write (s := s.modBank b (bankEmptied a.mesh)) (by rwa [bankState_emptied]) hunarmed ..
  have hperform : performNext b 0 s = w.modBank b (bankResting (restState w b)) := by
    rw [performNext_single h, hop, hbe]
    dsimp only
    rw [if_neg (by simp), hw]
  rw [hperform]
  refine ⟨fun x hx => ?_, fun x hx => ?_, hstored.word, ?_, ?_⟩
  · refine (hstored.byte x).trans ?_
    rw [if_pos (by omega)]
    congr 1
    omega
  · refine (hstored.byte x).trans ?_
    rw [if_neg (by omega)]
    rfl
  · refine (congrArg Bank.queue (bank_modBank_same ..)).trans ((hstored.queue b).trans ?_)
    rw [bank_modBank_same, bankEmptied]
  · exact ((State.modBank_within.trans hstored.toWithin).step State.modBank_within).frame

/-- The answer of the only read that a connection waits for. -/
theorem answerRead_single {d : BitVec 512} {p : BitVec 8} {off : Bool} (h : (s.chm a.chamber).reads = [⟨a.stratum, a.line, none, false⟩]) :
    ((answerRead a d p off s).chm a.chamber).reads = [⟨a.stratum, a.line, some ⟨a.stratum, d, p⟩, off⟩] := by
  unfold answerRead
  rw [chm_modChm_same, h]
  simp

theorem performNext_read (h : (s.bank b).queue = [a]) (hop : a.op = 0) (hgone : a.gone = false)
    (hbank : s.bankState (bankOf a.line) ≠ 2) (herr : ∀ i < 8, wordErr s (8 * a.line + i) = 0) :
    performNext b 0 s = (answerRead a (lineRead s a.line).1 (lineRead s a.line).2.1 false (s.modBank b (bankEmptied a.mesh))).modBank b
      (bankResting (restState (answerRead a (lineRead s a.line).1 (lineRead s a.line).2.1 false (s.modBank b (bankEmptied a.mesh))) b)) := by
  have haccess := accessLine_read (s := s.modBank b (bankEmptied a.mesh)) (l := a.line) (by rwa [bankState_emptied]) herr a.be a.data a.poison 1
  rw [performNext_single h, hop]
  dsimp only
  rw [haccess, if_pos (by simp [hgone])]
  rfl

end

/-! ### The responses -/

section
variable {s : State} {c : ChamberId} {r : PortResp} {line k : Nat} {rest : List PortRead}

/-- A response from a bank that was OFF reaches its chamber (R139 to R141). -/
theorem exec_portResponseArrive (hlock : (s.col (colOf c)).lock = .off) (hreads : (s.chm c).reads = ⟨k, line, some r, true⟩ :: rest) :
    exec (.portResponseArrive c) s = .next
      (let u := s.modChm c fun ch => { ch with reads := rest }
       if u.chmState c = 1 ∧ (u.chm c).sel = k ∧ (u.strat c k).parked = [] then u.send (.portData c r)
       else u.modStrat c k fun st => { st with parked := st.parked ++ [r] }) := by
  have hexec : exec (.portResponseArrive c) s = execPortResponseArrive c s := rfl
  have hpair : lockPair ((s.modChm c fun ch => { ch with reads := rest }).col (colOf c)).lock = false :=
    congrArg lockPair hlock
  rw [hexec]
  unfold execPortResponseArrive
  rw [hreads]
  simp only [if_true, hpair]
  rfl

end

/-- Settles O28, by the requests, the accesses and the responses. -/
theorem columnPortAndBanks : Obligations.ColumnPortAndBanks := by
  unfold Obligations.ColumnPortAndBanks
  refine ⟨fun s c l be d p hrun hport hpins hmem => ?_, fun s b a hq hop hbe hmem hfill hbank hstate hunarmed => ?_,
    fun s b a hq hop hgone hmem hfill hbank hstate herr hreads => ?_, fun s c r line k rest hlock hreads hrun hsel hparked => ?_,
    fun s c r line k rest hlock hreads hsel => ?_⟩
  · have hlive : PortLive s c := ⟨hrun, hport, hpins, hmem⟩
    refine ⟨fun hfence => ⟨_, congrArg Host.Outcome.next (portRequest_fenced hlive hfence), rfl, State.send_within.frame⟩,
      fun hfence htier hroom hreads => ⟨_, rfl, portRequest_read hlive hfence htier hroom hreads⟩,
      fun hfence htier hroom hwrites => ⟨⟨_, rfl, portRequest_write hlive hfence htier hroom (by decide) hwrites⟩,
        ⟨_, rfl, portRequest_write hlive hfence htier hroom (by decide) hwrites⟩,
        ⟨_, rfl, portRequest_write hlive hfence htier hroom (by decide) hwrites⟩⟩,
      fun hfull hfence htier => congrArg Host.Outcome.next (portRequest_full hlive hfence htier hfull)⟩
  · exact ⟨_, exec_bankAccess hmem hfill hstate, performNext_write hq hop hbe hbank hunarmed⟩
  · have hperform := performNext_read hq hop hgone hbank herr
    refine ⟨_, (exec_bankAccess hmem hfill hstate).trans (congrArg Host.Outcome.next hperform),
      answerRead_single (s := s.modBank b (bankEmptied a.mesh)) hreads, fun _ => rfl, ?_,
      ((State.modBank_within.mono.step answerRead_within).step State.modBank_within).frame⟩
    refine (congrArg Bank.queue (bank_modBank_same ..)).trans (congrArg Bank.queue (bank_modBank_same ..))
  · have hgo : (s.modChm c fun ch => { ch with reads := rest }).chmState c = 1 := by
      rw [← hrun]
      refine chmState_congr (by rfl) ?_ ?_ ?_ ?_ ?_ ?_ <;> rw [chm_modChm_same]
    have hhere : (s.modChm c fun ch => { ch with reads := rest }).chmState c = 1 ∧ ((s.modChm c fun ch => { ch with reads := rest }).chm c).sel = k ∧
        ((s.modChm c fun ch => { ch with reads := rest }).strat c k).parked = [] := by
      refine ⟨hgo, ?_, ?_⟩
      · rw [chm_modChm_same]
        exact hsel
      · rw [strat_modChm]
        exact hparked
    exact ⟨_, (exec_portResponseArrive hlock hreads).trans (congrArg Host.Outcome.next (if_pos hhere)), rfl, chm_modChm_same ..,
      ((State.modChm_within.mono : Within [.fab, .out] s _).step State.send_within).frame⟩
  · have hno : ¬((s.modChm c fun ch => { ch with reads := rest }).chmState c = 1 ∧ ((s.modChm c fun ch => { ch with reads := rest }).chm c).sel = k ∧
        ((s.modChm c fun ch => { ch with reads := rest }).strat c k).parked = []) := by
      rw [chm_modChm_same]
      exact fun h => hsel h.2.1
    refine ⟨_, (exec_portResponseArrive hlock hreads).trans (congrArg Host.Outcome.next (if_neg hno)), ?_, ?_,
      (State.modChm_within.step State.modStrat_within).frame⟩
    · refine (congrArg Stratum.parked (strat_modStrat_same ..)).trans ?_
      rw [strat_modChm]
      rfl
    · rw [chm_modStrat_same, chm_modChm_same]
      rfl

end Sys2Proof

/-! Bank modes, powering off and the retention models (R296 to R308). -/

namespace Sys2Proof

open Sys2Proof.Machine

section
variable {s t : State} {i m n : Nat}

/-- An OFF bank that has nothing queued: it changes its mode without an access. -/
def BankDrained (s : State) (i : Nat) : Prop := (s.bank i).state = 2 → (s.bank i).queue = []

theorem offDrained.bank (h : offDrained s) (i : Nat) : BankDrained s i := fun hst => h i (.inr hst)

theorem drainBank_empty (h : (s.bank i).queue = []) (bad : List Nat) : drainBank bad i s = s := by
  rw [drainBank, h, forEach_nil]

theorem bank_modBank_other (f : Bank → Bank) {j : Nat} (h : j ≠ i) : (s.modBank i f).bank j = s.bank j := by
  rw [State.modBank_bank, if_neg h]

theorem clearBank_bank_same : (clearBank i s).bank i = { s.bank i with rewrites := [], toRewrite := [] } := by
  unfold clearBank
  exact bank_modBank_same ..

theorem clearBank_bank_other {j : Nat} (h : j ≠ i) : (clearBank i s).bank j = s.bank j := by
  unfold clearBank
  exact bank_modBank_other _ h

theorem clearBank_byte (a : Nat) : grottoByte (clearBank i s) a = if inBank i a then 0 else grottoByte s a := by
  refine (tabGet_filter_key 0 (fun o => !inBank i o) s.grt.mem a).trans ?_
  cases inBank i a <;> rfl

/-- R298, R299. -/
theorem setBankMode_drained (h : BankDrained s i) (m : Nat) : Within [.grt] s (setBankMode i m s) ∧
    (∀ j, j ≠ i → (setBankMode i m s).bank j = s.bank j) ∧
    (m = 3 → (s.bank i).state ≠ 2 → (setBankMode i m s).bank i = { s.bank i with goingOff := true }) := by
  unfold setBankMode
  dsimp only
  split
  next hm =>
    split
    next hst => exact ⟨.refl, fun _ _ => rfl, fun _ hne => absurd hst hne⟩
    next hst => exact ⟨State.modBank_within, fun j hj => bank_modBank_other _ hj, fun _ _ => bank_modBank_same ..⟩
  next hm =>
    split
    next hst =>
      rw [drainBank_empty (h hst)]
      exact ⟨State.modBank_within.step clearBank_within, fun j hj => (clearBank_bank_other hj).trans (bank_modBank_other _ hj),
        fun h => absurd h hm⟩
    next hst =>
      split
      · exact ⟨.refl, fun _ _ => rfl, fun h => absurd h hm⟩
      · exact ⟨State.modBank_within, fun j hj => bank_modBank_other _ hj, fun h => absurd h hm⟩

/-- The modes of the first `k` banks of group `n` have been changed by `g`. -/
structure BanksSet (n : Nat) (g : Nat → Nat) (same : Nat → Prop) (k : Nat) (s t : State) : Prop extends Within [.grt] s t where
  later : ∀ j, (∀ b < k, j ≠ 8 * n + b) → t.bank j = s.bank j
  off : ∀ b < k, g b = 3 → ¬same b → (s.bank (8 * n + b)).state ≠ 2 → t.bank (8 * n + b) = { s.bank (8 * n + b) with goingOff := true }

theorem banksSet_range (hd : ∀ b < 8, BankDrained s (8 * n + b)) (g : Nat → Nat) (same : Nat → Prop) [DecidablePred same] {k : Nat} (hk : k ≤ 8) :
    BanksSet n g same k s (forEach (List.range k) (fun b s => if same b then s else setBankMode (8 * n + b) (g b) s) s) := by
  induction k with
  | zero => exact ⟨.refl, fun _ _ => rfl, fun b hb => absurd hb (by omega)⟩
  | succ k ih =>
    have hstep : forEach (List.range (k + 1)) (fun b s => if same b then s else setBankMode (8 * n + b) (g b) s) s =
        (fun b s => if same b then s else setBankMode (8 * n + b) (g b) s) k
          (forEach (List.range k) (fun b s => if same b then s else setBankMode (8 * n + b) (g b) s) s) := by
      simp [forEach, List.range_succ]
    have hprev := ih (by omega)
    rw [hstep]
    generalize forEach (List.range k) (fun b s => if same b then s else setBankMode (8 * n + b) (g b) s) s = u at hprev
    have hbank : u.bank (8 * n + k) = s.bank (8 * n + k) := hprev.later _ fun b hb => by omega
    have hdrained : BankDrained u (8 * n + k) := by
      unfold BankDrained
      rw [hbank]
      exact hd k (by omega)
    obtain ⟨hw, hother, hoff⟩ := setBankMode_drained hdrained (g k)
    dsimp only
    split
    next hsame =>
      refine ⟨hprev.toWithin, fun j hj => hprev.later j fun b hb => hj b (by omega), fun b hb hg hno hst => ?_⟩
      rcases Nat.lt_succ_iff_lt_or_eq.1 hb with hb | rfl
      · exact hprev.off b hb hg hno hst
      · exact absurd hsame hno
    next hsame =>
      refine ⟨hprev.toWithin.trans hw, fun j hj => ?_, fun b hb hg hno hst => ?_⟩
      · rw [hother j (hj k (by omega))]
        exact hprev.later j fun b hb => hj b (by omega)
      · rcases Nat.lt_succ_iff_lt_or_eq.1 hb with hb | rfl
        · rw [hother _ (by omega)]
          exact hprev.off b hb hg hno hst
        · rw [hoff hg (by rw [hbank]; exact hst), hbank]

theorem fld_mode (x : Word) {b : Nat} (hb : b < 8) : fld x 0 16 / 4 ^ b % 4 = fld x (2 * b) 2 := by
  unfold fld
  rw [Nat.shiftRight_eq_div_pow, Nat.shiftRight_eq_div_pow]
  interval_cases b <;> omega

/-- GRT_GRPn.MODE takes effect (R296, R298, R299). -/
theorem setModes_spec (hd : ∀ b < 8, BankDrained s (8 * n + b)) (m : Nat) : Within [.regs, .grt] s (setModes n m s) ∧
    (∀ o, o ≠ grpModeReg n → (setModes n m s).reg o = s.reg o) ∧
    (setModes n m s).reg (grpModeReg n) = setFld (s.reg (grpModeReg n)) 0 16 m ∧
    (∀ j, j / 8 ≠ n → (setModes n m s).bank j = s.bank j) ∧
    (∀ b < 8, m / 4 ^ b % 4 = 3 → bankMode s (8 * n + b) ≠ 3 → (s.bank (8 * n + b)).state ≠ 2 →
      (setModes n m s).bank (8 * n + b) = { s.bank (8 * n + b) with goingOff := true }) := by
  have hset := banksSet_range (s := s.setRegF (grpModeReg n) 0 16 m) (n := n) hd (fun b => m / 4 ^ b % 4)
    (fun b => m / 4 ^ b % 4 = s.regF (grpModeReg n) 0 16 / 4 ^ b % 4) (k := 8) (by decide)
  have hregs : ∀ o, (setModes n m s).reg o = (s.setRegF (grpModeReg n) 0 16 m).reg o := fun o => hset.frame .regs (by decide) o
  refine ⟨State.setRegF_within.mono.trans hset.toWithin.mono, fun o ho => ?_, ?_, fun j hj => hset.later j fun b hb => by omega,
    fun b hb hm hold hst => hset.off b hb hm ?_ hst⟩
  · rw [hregs, setRegF_reg_other ho]
  · rw [hregs, setRegF_reg]
  · have hmode : bankMode s (8 * n + b) = s.regF (grpModeReg n) 0 16 / 4 ^ b % 4 := by
      rw [bankMode, show (8 * n + b) / 8 = n by omega, show (8 * n + b) % 8 = b by omega]
      exact (fld_mode _ hb).symm
    omega

/-- Modes set in several groups, one after the other. -/
theorem setModes_list (l : List (Nat × Nat)) (hl : (l.map (·.1)).Nodup)
    (hd : ∀ p ∈ l, ∀ b < 8, BankDrained s (8 * p.1 + b)) :
    Within [.regs, .grt] s (forEach l (fun p s => setModes p.1 p.2 s) s) ∧
      (∀ o, (∀ p ∈ l, o ≠ grpModeReg p.1) → (forEach l (fun p s => setModes p.1 p.2 s) s).reg o = s.reg o) ∧
      (∀ p ∈ l, (forEach l (fun p s => setModes p.1 p.2 s) s).regF (grpModeReg p.1) 0 16 = p.2 % 2 ^ 16) := by
  induction l generalizing s with
  | nil => exact ⟨.refl, fun _ _ => rfl, fun p hp => absurd hp (by simp)⟩
  | cons p l ih =>
    rw [forEach_cons]
    obtain ⟨hw, hother, hreg, hbank, -⟩ := setModes_spec (hd p (by simp)) p.2
    rw [List.map_cons, List.nodup_cons] at hl
    have hne : ∀ q ∈ l, q.1 ≠ p.1 := fun q hq h => hl.1 (h ▸ List.mem_map_of_mem hq)
    obtain ⟨hw', hother', hregs'⟩ := ih (s := setModes p.1 p.2 s) hl.2 fun q hq b hb => by
      unfold BankDrained
      rw [hbank _ (by have := hne q hq; omega)]
      exact hd q (by simp [hq]) b hb
    refine ⟨hw.trans hw', fun o ho => ?_, fun q hq => ?_⟩
    · rw [hother' o fun q hq => ho q (by simp [hq]), hother o (ho p (by simp))]
    · rcases List.mem_cons.1 hq with rfl | hq
      · have hkept : ∀ r ∈ l, grpModeReg q.1 ≠ grpModeReg r.1 := fun r hr h => hne r hr (by unfold grpModeReg at h; omega)
        rw [State.regF, hother' _ hkept, hreg, fld_setFld_same _ _ (by decide)]
      · exact hregs' q hq

/-! ### The registers -/

theorem forEach_append {α : Type} (l l' : List α) (f : α → State → State) (s : State) :
    forEach (l ++ l') f s = forEach l' f (forEach l f s) := List.foldl_append ..

theorem forEach_map {α β : Type} (h : α → β) (l : List α) (f : β → State → State) (s : State) :
    forEach (l.map h) f s = forEach l (fun a => f (h a)) s := List.foldl_map ..

theorem forEach_flatMap {α β : Type} (l : List α) (g : α → List β) (f : β → State → State) (s : State) :
    forEach (l.flatMap g) f s = forEach l (fun a => forEach (g a) f) s := by
  induction l generalizing s with
  | nil => rfl
  | cons a l ih => rw [List.flatMap_cons, forEach_append, forEach_cons, ih]

/-- GRT_GRPn under the native model (R296, R302). -/
theorem grtGrpWrite_native {val : Word} (hmodel : s.regB 0x7_0004 30 = false) (hd : offDrained s) :
    (grtGrpWrite n val s).regF (grpModeReg n) 0 16 = fld val 0 16 ∧ (grtGrpWrite n val s).regF (grpModeReg n) 24 5 = fld val 24 5 ∧
      (∀ o, o ≠ grpModeReg n → (grtGrpWrite n val s).reg o = s.reg o) ∧
      (∀ b < 8, fld val (2 * b) 2 = 3 → bankMode s (8 * n + b) ≠ 3 → (s.bank (8 * n + b)).state ≠ 2 →
        (grtGrpWrite n val s).bank (8 * n + b) = { s.bank (8 * n + b) with goingOff := true }) ∧
      OnlyChanges [.regs, .grt] s (grtGrpWrite n val s) := by
  obtain ⟨u, hu⟩ : ∃ u, s.setRegF (grpModeReg n) 24 5 (fld val 24 5) = u := ⟨_, rfl⟩
  have hreg : u.reg (grpModeReg n) = setFld (s.reg (grpModeReg n)) 24 5 (fld val 24 5) := by rw [← hu, setRegF_reg]
  have hother : ∀ o, o ≠ grpModeReg n → u.reg o = s.reg o := fun o ho => by rw [← hu, setRegF_reg_other ho]
  have hbank : ∀ i, u.bank i = s.bank i := fun i => by rw [← hu]; rfl
  have hw : Within [.regs] s u := hu ▸ State.setRegF_within
  have hgo : ¬u.regB 0x7_0004 30 = true := by
    rw [State.regB, hother _ (by unfold grpModeReg; omega)]
    simpa [State.regB] using hmodel
  have hwrite : grtGrpWrite n val s = setModes n (fld val 0 16) u := by
    unfold grtGrpWrite
    dsimp only
    rw [hu, if_neg hgo]
  have hmode : ∀ b < 8, bankMode u (8 * n + b) = bankMode s (8 * n + b) := fun b hb => by
    rw [bankMode, bankMode, State.regF, State.regF, show (8 * n + b) / 8 = n by omega, hreg,
      fld_setFld_other _ _ (by omega) (by omega)]
  have hlt : ∀ lo, fld val lo 16 < 2 ^ 16 ∧ fld val lo 5 < 2 ^ 5 := fun lo => ⟨Nat.mod_lt _ (by decide), Nat.mod_lt _ (by decide)⟩
  obtain ⟨hw', hother', hreg', -, hoff⟩ := setModes_spec (s := u) (n := n) (fun b _ => by
    unfold BankDrained; rw [hbank]; exact hd.bank _) (fld val 0 16)
  rw [hwrite]
  refine ⟨?_, ?_, fun o ho => (hother' o ho).trans (hother o ho), fun b hb hval hold hst => ?_, (hw.mono.trans hw').frame⟩
  · rw [State.regF, hreg', fld_setFld_same _ _ (by decide), Nat.mod_eq_of_lt (hlt 0).1]
  · rw [State.regF, hreg', fld_setFld_other _ _ (by decide) (by decide), hreg, fld_setFld_same _ _ (by decide),
      Nat.mod_eq_of_lt (hlt 24).2]
  · rw [← hbank]
    exact hoff b hb (by rw [fld_mode _ hb]; exact hval) (by rw [hmode b hb]; exact hold) (by rw [hbank]; exact hst)

/-- GRT_GRPn under the compatibility model (R302). -/
theorem grtGrpWrite_compatible {val : Word} (hmodel : s.regB 0x7_0004 30 = true) :
    (grtGrpWrite n val s).regF (grpModeReg n) 0 16 = s.regF (grpModeReg n) 0 16 ∧
      (grtGrpWrite n val s).regF (grpModeReg n) 24 5 = fld val 24 5 ∧
      (∀ o, o ≠ grpModeReg n → (grtGrpWrite n val s).reg o = s.reg o) ∧ OnlyChanges [.regs] s (grtGrpWrite n val s) := by
  have hgo : (s.setRegF (grpModeReg n) 24 5 (fld val 24 5)).regB 0x7_0004 30 = true := by
    rw [State.regB, setRegF_reg_other (by unfold grpModeReg; omega)]
    exact hmodel
  have hlt : fld val 24 5 < 2 ^ 5 := Nat.mod_lt _ (by decide)
  have hwrite : grtGrpWrite n val s = s.setRegF (grpModeReg n) 24 5 (fld val 24 5) := if_pos hgo
  rw [hwrite]
  refine ⟨?_, ?_, fun o ho => setRegF_reg_other ho .., State.setRegF_within.frame⟩
  · rw [State.regF, setRegF_reg, fld_setFld_other _ _ (by decide) (by decide), State.regF]
  · rw [setRegF_regF _ _ _ (by decide), Nat.mod_eq_of_lt hlt]

/-- The segment registers read zero after a change of model (R303). -/
theorem segments_cleared (s : State) : ∃ u, forEach (List.range 4) (fun k s => s.setReg (0x7_2000 + 4 * k) 0) s = u ∧ Within [.regs] s u ∧
    (∀ k < 4, u.reg (0x7_2000 + 4 * k) = 0) ∧ ∀ o, (o < 0x7_2000 ∨ 0x7_2010 ≤ o) → u.reg o = s.reg o := by
  refine ⟨_, rfl, .forEach fun _ _ => State.setReg_within, fun k hk => ?_, fun o ho => ?_⟩
  · simp only [List.range_succ, List.range_zero, List.nil_append, List.cons_append, forEach_cons, forEach_nil]
    interval_cases k <;> simp [setReg_reg_other]
  · simp only [List.range_succ, List.range_zero, List.nil_append, List.cons_append, forEach_cons, forEach_nil]
    iterate 4 rw [setReg_reg_other _ _ _ _ (by omega)]

/-- GRT_CTRL with a change of RMODEL (R303). -/
theorem grtCtrlWrite_change {val : Word} (hne : s.regB 0x7_0004 30 ≠ bit val 30) : ∃ u, Within [.regs] s u ∧
    u.reg 0x7_0004 = val &&& 0xC000_0000 ∧ (∀ k < 4, u.reg (0x7_2000 + 4 * k) = 0) ∧ (∀ n < 256, u.reg (grpModeReg n) = s.reg (grpModeReg n)) ∧
    (∀ i, u.bank i = s.bank i) ∧
    grtCtrlWrite val s = raise 0x070B [b2n (bit val 30)]
      (if bit val 30 then forEach ((List.range 256).map fun n => (n, 0)) (fun p s => setModes p.1 p.2 s) u else u) := by
  obtain ⟨u, hu, hw, hzero, hother⟩ := segments_cleared (s.setReg 0x7_0004 (val &&& 0xC000_0000))
  refine ⟨u, State.setReg_within.trans hw, ?_, hzero, fun n hn => ?_, fun i => ?_, ?_⟩
  · rw [hother _ (by decide), setReg_reg_same]
  · rw [hother _ (by unfold grpModeReg; omega), setReg_reg_other _ _ _ _ (by unfold grpModeReg; omega)]
  · exact congrArg (tabGet {} ·.banks i) (hw.frame .grt (by decide))
  · unfold grtCtrlWrite
    dsimp only
    rw [if_neg hne, hu, forEach_map]

/-- The groups of a segment register with the modes that its code applies (Table Grotto-9). -/
def segGroups (k : Nat) (val : Word) : List (Nat × Nat) :=
  (List.range 16).flatMap fun j => (List.range 4).map fun i => (64 * k + 4 * j + i, segModes (fld val (2 * j) 2))

theorem mem_segGroups {k : Nat} {val : Word} {p : Nat × Nat} :
    p ∈ segGroups k val ↔ ∃ j < 16, ∃ i < 4, p = (64 * k + 4 * j + i, segModes (fld val (2 * j) 2)) := by
  simp only [segGroups, List.mem_flatMap, List.mem_range, List.mem_map]
  exact ⟨fun ⟨j, hj, i, hi, h⟩ => ⟨j, hj, i, hi, h.symm⟩, fun ⟨j, hj, i, hi, h⟩ => ⟨j, hj, i, hi, h.symm⟩⟩

theorem segGroups_keys (k : Nat) (val : Word) : (segGroups k val).map (·.1) = (List.range 64).map (64 * k + ·) := by
  have h : (List.range 64) = (List.range 16).flatMap fun j => (List.range 4).map fun i => 4 * j + i := by decide
  rw [h, segGroups, List.map_flatMap, List.map_flatMap]
  simp only [List.map_map, Function.comp_def, Nat.add_assoc]

theorem segGroups_nodup (k : Nat) (val : Word) : ((segGroups k val).map (·.1)).Nodup := by
  rw [segGroups_keys]
  exact List.nodup_range.map fun a b h => Nat.add_left_cancel h

theorem segModes_lt (code : Nat) : segModes code < 2 ^ 16 := by
  unfold segModes
  split
  · decide
  · split <;> decide

/-- GRT_V2SEGk under the compatibility model (R301). -/
theorem grtSegWrite_compatible {k : Nat} {val : Word} (hk : k < 4) (hmodel : s.regB 0x7_0004 30 = true) (hd : offDrained s) :
    (grtSegWrite k val s).reg (0x7_2000 + 4 * k) = val ∧
      (∀ j < 16, ∀ i < 4, (grtSegWrite k val s).regF (grpModeReg (64 * k + 4 * j + i)) 0 16 = segModes (fld val (2 * j) 2)) ∧
      OnlyChanges [.regs, .grt] s (grtSegWrite k val s) := by
  have hwrite : grtSegWrite k val s = forEach (segGroups k val) (fun p s => setModes p.1 p.2 s) (s.setReg (0x7_2000 + 4 * k) val) := by
    unfold grtSegWrite
    rw [if_neg (by simp [hmodel]), segGroups, forEach_flatMap]
    refine congrArg (forEach _ · _) (funext fun j => funext fun u => ?_)
    rw [forEach_map]
  obtain ⟨hw, hother, hmodes⟩ := setModes_list (s := s.setReg (0x7_2000 + 4 * k) val) (segGroups k val) (segGroups_nodup k val)
    fun p _ b _ => hd.bank _
  rw [hwrite]
  refine ⟨?_, fun j hj i hi => ?_, (State.setReg_within.mono.trans hw).frame⟩
  · rw [hother _ fun p hp => ?_, setReg_reg_same]
    obtain ⟨j, hj, i, hi, rfl⟩ := mem_segGroups.1 hp
    unfold grpModeReg
    omega
  · rw [hmodes _ (mem_segGroups.2 ⟨j, hj, i, hi, rfl⟩), Nat.mod_eq_of_lt (segModes_lt _)]

/-- GRT_V2SEGk ignores writes under the native model (R302). -/
theorem exec_v2segWrite_native (who : Requester) (k : Fin 4) (val : Word) (hrole : s.twn.role = 0) (hmodel : s.regB 0x7_0004 30 = false) :
    exec (.v2segWrite who k val) s = .next s := by
  have hd := regDesc_seg k k.isLt
  refine congrArg Host.Outcome.next ?_
  rw [writeReg_op who (0x7_2000 + 4 * k) val s { rw := 0xFFFF_FFFF } hd rfl rfl rfl ?_ (.inl (by omega)) (.inr hrole)]
  · unfold performWrite
    simp only [show ¬ (regDesc (0x7_2000 + 4 * k.val)).pair = 2 by rw [hd]; decide, if_false]
    iterate 5 rw [if_neg (by omega)]
    rw [if_pos (by omega)]
    unfold grtWrite
    simp only []
    rw [if_neg (by omega), if_pos (by omega), show (0x7_2000 + 4 * k.val - 0x7_0000 - 0x2000) / 4 = k by omega]
    exact if_pos (by simp [hmodel])
  · unfold badByRule
    iterate 4 rw [if_neg (by omega)]
    rw [if_pos (by omega)]
    unfold badGrt
    rw [if_neg (by omega), if_pos (by omega), hmodel]
    simp

/-- The end of a lap of the scrubbers changes no bank's state. -/
theorem endDeviceLap_bank (j : Nat) : ∃ l c, (endDeviceLap s).bank j = { s.bank j with lapped := l, lastLap := c } := by
  unfold endDeviceLap
  dsimp only
  split
  · refine forEach_keeps (fun u => ∃ l c, u.bank j = { s.bank j with lapped := l, lastLap := c }) _ _ (fun i u hu => ?_) _
      ⟨(s.bank j).lapped, (s.bank j).lastLap, rfl⟩
    obtain ⟨l, c, hu⟩ := hu
    rw [State.modBank_bank]
    split
    next h => exact ⟨false, 0, by rw [← h, hu]⟩
    next h => exact ⟨l, c, hu⟩
  · exact ⟨(s.bank j).lapped, (s.bank j).lastLap, rfl⟩

theorem endDeviceLap_mem : (endDeviceLap s).grt.mem = s.grt.mem := by
  unfold endDeviceLap
  dsimp only
  split
  · exact forEach_same (·.grt.mem) _ _ _ fun _ _ => rfl
  · rfl

/-- A bank with nothing queued powers off, or is filled when its mode has left OFF (R298, R299). -/
theorem bankPowerOff_spec (b : BankId) (bad : List Nat) (hoff : (s.bank b).goingOff = true) (hstate : (s.bank b).state ≠ 3)
    (hq : (s.bank b).queue = []) : Completes (.bankPowerOff b bad) s fun t =>
      (t.bank b).state = (if bankMode s b = 3 then 2 else 3) ∧ (t.bank b).goingOff = false ∧
      (∀ a, grottoByte t a = if inBank b a then 0 else grottoByte s a) ∧ OnlyChanges [.grt] s t := by
  have hexec : exec (.bankPowerOff b bad) s = execBankPowerOff b bad s := rfl
  unfold execBankPowerOff at hexec
  rw [if_pos ⟨hoff, hstate⟩, drainBank_empty hq] at hexec
  have hmode : bankMode (clearBank b s) b = bankMode s b := rfl
  have hclear : Within [.grt] s (clearBank b s) := clearBank_within
  refine ⟨_, hexec, ?_⟩
  dsimp only
  rw [hmode]
  split
  · obtain ⟨l, c, hbank⟩ := endDeviceLap_bank (s := (clearBank b s).modBank b fun b => { b with state := 2, goingOff := false }) b
    rw [bank_modBank_same] at hbank
    refine ⟨by rw [hbank], by rw [hbank], fun a => ?_, ((hclear.step State.modBank_within).step endDeviceLap_within).frame⟩
    exact (congrArg (tabGet 0 · a) endDeviceLap_mem).trans (clearBank_byte a)
  · refine ⟨by rw [bank_modBank_same], by rw [bank_modBank_same], fun a => clearBank_byte a, (hclear.step State.modBank_within).frame⟩

end

/-- Settles O31, by the registers' writes and the banks' moves. -/
theorem bankModesAndPower : Obligations.BankModesAndPower := by
  unfold Obligations.BankModesAndPower
  refine ⟨fun s who g val hrole hmodel hd => ⟨_, congrArg Host.Outcome.next (writeReg_grp who g g.isLt val s hrole), grtGrpWrite_native hmodel hd⟩,
    fun s who g val hrole hmodel => ⟨_, congrArg Host.Outcome.next (writeReg_grp who g g.isLt val s hrole), grtGrpWrite_compatible hmodel⟩,
    fun s b hmode hstate hq => ?_, fun s b bad hoff hstate hq => ?_, fun s b hstate => ?_,
    fun s who val hrole hmodel hval hd => ?_, fun s who val hrole hmodel hval => ?_, fun s who k val hrole hmodel hd hval => ?_,
    fun s who k val hrole hmodel => exec_v2segWrite_native who k val hrole hmodel⟩
  · exact ⟨_, congrArg Host.Outcome.next (if_pos ⟨hmode, hstate, hq⟩), bank_modBank_same .., fun _ => rfl, State.modBank_within.frame⟩
  · obtain ⟨t, hexec, hst, hgo, hbyte, hw⟩ := bankPowerOff_spec b bad hoff hstate hq
    exact ⟨t, hexec, hst, hgo, fun a ha => by rw [hbyte, ha]; rfl, fun a ha => by rw [hbyte, ha]; rfl, hw⟩
  · exact ⟨_, congrArg Host.Outcome.next (if_pos hstate), bank_modBank_same .., fun _ => rfl, State.modBank_within.frame⟩
  · obtain ⟨u, hw, hctl, hseg, hgrp, hbank, hwrite⟩ := grtCtrlWrite_change (s := s) (val := val) (by rw [hmodel, hval]; decide)
    rw [hval, if_pos rfl] at hwrite
    have hkeys : (((List.range 256).map fun n => (n, 0)).map (·.1)).Nodup := by
      rw [List.map_map]
      exact List.nodup_range.map fun a b h => h
    obtain ⟨hw', hother, hmodes⟩ := setModes_list (s := u) ((List.range 256).map fun n => (n, 0)) hkeys fun p _ b _ => by
      unfold BankDrained
      rw [hbank]
      exact hd.bank _
    have hfar : ∀ o, (o < 0x7_1000 ∨ 0x7_1400 ≤ o) → ∀ p ∈ (List.range 256).map fun n => (n, 0), o ≠ grpModeReg p.1 := fun o ho p hp => by
      obtain ⟨n, hn, rfl⟩ := List.mem_map.1 hp
      rw [List.mem_range] at hn
      unfold grpModeReg
      omega
    generalize forEach ((List.range 256).map fun n => (n, 0)) (fun p s => setModes p.1 p.2 s) u = w at hw' hother hmodes hwrite
    have hreg : ∀ o, (raise 0x070B [b2n true] w).reg o = w.reg o := fun o => by simp only [State.reg, raise_regs]
    have hwithin : Within [.regs, .grt] s w := hw.mono.trans hw'
    refine ⟨_, congrArg Host.Outcome.next ((writeReg_grtCtrl who val s hrole).trans hwrite), ?_, fun n hn => ?_, fun k hk => ?_,
      (raised_raise 0x070B [1] w).before hwithin, (hwithin.mono.step raise_within : Within (.regs :: .grt :: events) s _).frame⟩
    · rw [hreg, hother _ (hfar _ (.inl (by decide))), hctl]
    · rw [State.regF, hreg]
      exact hmodes (n, 0) (List.mem_map.2 ⟨n, List.mem_range.2 hn, rfl⟩)
    · rw [hreg, hother _ (hfar _ (.inr (by omega))), hseg k hk]
  · obtain ⟨u, hw, hctl, hseg, hgrp, hbank, hwrite⟩ := grtCtrlWrite_change (s := s) (val := val) (by rw [hmodel, hval]; decide)
    rw [hval, if_neg (by decide)] at hwrite
    have hreg : ∀ o, (raise 0x070B [b2n false] u).reg o = u.reg o := fun o => by simp only [State.reg, raise_regs]
    exact ⟨_, congrArg Host.Outcome.next ((writeReg_grtCtrl who val s hrole).trans hwrite), (hreg _).trans hctl,
      fun k hk => (hreg _).trans (hseg k hk), fun n hn => (hreg _).trans (hgrp n hn), (raised_raise 0x070B [0] u).before hw,
      (hw.mono.step raise_within : Within (.regs :: events) s _).frame⟩
  · have hcodes : ((List.range 16).any fun j => fld val (2 * j) 2 == 3) = false := by
      simpa using hval
    exact ⟨_, congrArg Host.Outcome.next (writeReg_seg who k k.isLt val s hrole hcodes), grtSegWrite_compatible k.isLt hmodel hd⟩

end Sys2Proof

/-! Doorbells, fetches and what a queue reads from its host (R317 to R330). -/

namespace Sys2Proof

open Sys2Proof.Machine

@[simp] theorem qu_modQu_same (s : State) (q : Nat) (f : Queue → Queue) : (s.modQu q f).qu q = f (s.qu q) := by
  simp [State.modQu, State.qu]

theorem qu_modQu_other (s : State) {q p : Nat} (f : Queue → Queue) (h : p ≠ q) : (s.modQu q f).qu p = s.qu p := by
  simp [State.modQu, State.qu, tabGet_tabMod_other, h]

theorem qu_of_que {s t : State} (h : t.que = s.que) (q : Nat) : t.qu q = s.qu q := by
  rw [State.qu, h, State.qu]

/-! ### Host tags -/

/-- What a queue adds to the host tags ISSUED (R312). -/
def tagsOf (x : Queue) : Nat :=
  b2n (x.dbSt == 2) + b2n (decide (0 < x.fetching)) + x.context.foldl (fun m d => m + d.reads.length) 0

theorem hostReads_eq (s : State) :
    hostReads s = (s.que.map fun p => tagsOf p.2).sum + s.pin.dbgIssued + s.xlt.orphans.length := by
  have h : ∀ (l : List (Nat × Queue)) (n : Nat), l.foldl (fun n p => n + b2n (p.2.dbSt == 2) + b2n (decide (0 < p.2.fetching)) +
      p.2.context.foldl (fun m d => m + d.reads.length) 0) n = n + (l.map fun p => tagsOf p.2).sum := fun l => by
    induction l with
    | nil => simp
    | cons p l ih =>
      intro n
      rw [List.foldl_cons, ih, List.map_cons, List.sum_cons, tagsOf]
      omega
  rw [hostReads, h, Nat.zero_add]

/-- A change of one entry of a table that adds nothing to a sum over the entries. -/
theorem sum_tabMod_le {α : Type} [DecidableEq α] (d : α) (t : List (Nat × α)) (k : Nat) (f : α → α) (w : α → Nat) (hd : w d = 0)
    (hf : ∀ x, w (f x) ≤ w x) : ((tabMod d t k f).map fun p => w p.2).sum ≤ (t.map fun p => w p.2).sum := by
  have hins : ∀ (v : α) (l : List (Nat × α)), ((tabIns k v l).map fun p => w p.2).sum = w v + (l.map fun p => w p.2).sum := fun v l => by
    induction l with
    | nil => rfl
    | cons p l ih =>
      obtain ⟨k', v'⟩ := p
      unfold tabIns
      split
      · rfl
      · rw [List.map_cons, List.sum_cons, ih, List.map_cons, List.sum_cons]
        omega
  have hdel : ∀ l : List (Nat × α), w (tabGet d l k) + ((tabDel l k).map fun p => w p.2).sum ≤ (l.map fun p => w p.2).sum := fun l => by
    induction l with
    | nil => simp [tabGet, tabDel, hd]
    | cons p l ih =>
      rw [tabGet, tabDel, List.filter_cons, List.map_cons, List.sum_cons]
      rw [tabDel] at ih
      rcases eq_or_ne k p.1 with rfl | hk
      · simp
        omega
      · rw [if_neg hk, if_pos (by simpa using hk.symm), List.map_cons, List.sum_cons]
        omega
  have hval := hf (tabGet d t k)
  have hsum := hdel t
  unfold tabMod tabSet
  split
  · omega
  · rw [hins]
    omega

/-- A queue that holds no more tags leaves a tag as free as it was. -/
theorem hostTagFree_modQu {s : State} {q : Nat} {f : Queue → Queue} (hf : ∀ x, tagsOf (f x) ≤ tagsOf x) (h : hostTagFree s = true) :
    hostTagFree (s.modQu q f) = true := by
  have hreads : hostReads (s.modQu q f) ≤ hostReads s := by
    rw [hostReads_eq, hostReads_eq]
    have := sum_tabMod_le {} s.que q f tagsOf rfl hf
    have hque : (s.modQu q f).que = tabMod {} s.que q f := rfl
    have hpin : (s.modQu q f).pin = s.pin := rfl
    have hxlt : (s.modQu q f).xlt = s.xlt := rfl
    rw [hque, hpin, hxlt]
    omega
  have hcap : tagCap (s.modQu q f) 1 = tagCap s 1 := rfl
  have hres : ∀ c, tagRes (s.modQu q f) c = tagRes s c := fun _ => rfl
  have hpool : sharedPool (s.modQu q f) = sharedPool s := rfl
  have hissued : tagsIssued (s.modQu q f) 3 = tagsIssued s 3 := rfl
  unfold hostTagFree hostTagsFree at h ⊢
  simp only [hcap, hres, hpool, hissued, Bool.and_eq_true, Bool.or_eq_true, decide_eq_true_eq] at h ⊢
  omega

/-! ### A bypass queue of a device alone -/

section
variable {s : State} {q : Nat}

/-- The queue's addresses are the host's own, and the device alone masters the link. -/
structure HostDirect (s : State) (q : Nat) : Prop where
  solo : s.twn.role = 0
  masters : s.masters = true
  bypass : (s.qu q).bypass = true

theorem HostDirect.translateFor (h : HostDirect s q) (access cid va n : Nat) (wr : Bool) :
    translateFor access q cid va n wr s = (.ok va, s) := by
  have ht : translate q va n wr s = (.ok va, s) := if_pos h.bypass
  unfold Machine.translateFor
  rw [ht]

theorem HostDirect.modQu (h : HostDirect s q) {f : Queue → Queue} (hf : (f (s.qu q)).bypass = (s.qu q).bypass) :
    HostDirect (s.modQu q f) q :=
  ⟨h.solo, h.masters, by rw [qu_modQu_same, hf, h.bypass]⟩

theorem HostDirect.when (h : HostDirect s q) (f : State → State) : s.when s.masters f = f s := if_pos h.masters

/-- A write of the queue's shadow that had to be tried again has been made. -/
def shadowTried (q : Nat) (s : State) : State :=
  if (s.qu q).retries.contains 5 then s.modQu q fun x => { x with retries := x.retries.filter (· != 5) } else s

theorem shadowTried_masters : (shadowTried q s).masters = s.masters ∧ (shadowTried q s).twn = s.twn := by
  unfold shadowTried
  split <;> exact ⟨rfl, rfl⟩

theorem shadowTried_within : Within [.que] s (shadowTried q s) := .ite State.modQu_within .refl

theorem HostDirect.writeShadow (h : HostDirect s q) : writeShadow q s =
    (shadowTried q s).send (.hostWrite 2 q (s.qu q).setup.sha.toNat (leBytes 8 (shadowValue (s.qu q)))) := by
  obtain ⟨hmasters, htwn⟩ := shadowTried_masters (s := s) (q := q)
  have hval : shadowValue ((shadowTried q s).qu q) = shadowValue (s.qu q) := by
    unfold shadowTried
    split
    · rw [qu_modQu_same]
      rfl
    · rfl
  unfold Machine.writeShadow
  dsimp only
  rw [h.translateFor]
  dsimp only
  change ringWrite 2 q _ _ (shadowTried q s) = _
  unfold ringWrite
  rw [if_neg (by rw [htwn, h.solo]; decide), hmasters]
  exact if_pos h.masters

/-- No doorbell read and no debug read waits for a tag. -/
def ReadsIdle (s : State) : Prop := (∀ p ∈ s.que, p.2.dbSt ≠ 1) ∧ s.pin.dbgOp = none

theorem serveReads_idle (h : ReadsIdle s) : serveReads s = s := by
  obtain ⟨hque, hdbg⟩ := h
  have hnone : (s.que.filter fun p => p.2.dbSt == 1) = [] := by
    rw [List.filter_eq_nil_iff]
    exact fun p hp => by simpa using hque p hp
  unfold serveReads
  rw [hnone, List.map_nil, forEach_nil]
  unfold dbgIssue
  rw [hdbg]

theorem ReadsIdle.of_eq {t : State} (h : ReadsIdle s) (hque : t.que = s.que) (hpin : t.pin = s.pin) : ReadsIdle t :=
  ⟨by rw [hque]; exact h.1, by rw [hpin]; exact h.2⟩

theorem ReadsIdle.qu (h : ReadsIdle s) (p : Nat) : (s.qu p).dbSt ≠ 1 := by
  rcases eq_or_ne (s.qu p) {} with hp | hp
  · rw [hp]
    decide
  · exact h.1 _ (mem_of_tabGet hp)

theorem ReadsIdle.modQu (h : ReadsIdle s) {f : Queue → Queue} (hf : (f (s.qu q)).dbSt ≠ 1) : ReadsIdle (s.modQu q f) := by
  refine ⟨fun p hp => ?_, h.2⟩
  rcases mem_tabMod hp with ⟨hp, -⟩ | rfl
  · exact h.1 p hp
  · exact hf

/-! ### Doorbells -/

/-- A queue that waits to read its doorbell record. -/
def readAsked (x : Queue) : Queue := { x with dbSt := 1 }

/-- A queue that reads its doorbell record. -/
def readIssued (x : Queue) : Queue := { x with dbSt := 2, dbTag := false }

/-- A doorbell read that waits goes out once it has a tag (R312). -/
theorem tryDoorbell_free (h : HostDirect s q) (hdb : (s.qu q).dbSt = 1) (htag : hostTagFree s = true) :
    tryDoorbell q s = (s.send (.hostRead 1 q (s.qu q).setup.dba.toNat 8)).modQu q readIssued := by
  unfold tryDoorbell
  dsimp only
  rw [if_neg (by rw [hdb]; decide), h.translateFor]
  dsimp only
  rw [if_pos htag, h.when]
  rfl

/-- A doorbell read that is asked for goes out at once (R312, R323). -/
theorem askDoorbell_free (h : HostDirect s q) (hdb : (s.qu q).dbSt = 0) (htag : hostTagFree s = true) :
    askDoorbell q s = ((s.modQu q readAsked).send (.hostRead 1 q (s.qu q).setup.dba.toNat 8)).modQu q readIssued := by
  have hfree : hostTagFree (s.modQu q readAsked) = true := hostTagFree_modQu (fun x => Nat.add_le_add_right (Nat.add_le_add_right (Nat.zero_le _) _) _) htag
  have hdirect : HostDirect (s.modQu q readAsked) q := h.modQu rfl
  have hgo := tryDoorbell_free hdirect (by rw [qu_modQu_same]; rfl) hfree
  rw [qu_modQu_same] at hgo
  unfold askDoorbell
  rw [if_neg (by rw [h.solo]; decide), if_neg (by simp [hdb])]
  exact hgo

theorem askDoorbell_again (hsolo : s.twn.role = 0) (hdb : (s.qu q).dbSt ≠ 0) :
    askDoorbell q s = s.modQu q fun x => { x with dbAgain := true } := by
  unfold askDoorbell
  rw [if_neg (by rw [hsolo]; decide), if_pos hdb]

/-- A queue that has taken a doorbell record (R318). -/
def doorbellTaken (rec : BitVec 64) (x : Queue) : Queue :=
  { x with sqPi := fld rec 0 16 + (if bit rec 16 then x.sqN else 0),
           cqCi := fld rec 32 16 + (if bit rec 48 then x.cqN else 0), rseen := bit rec 17, rseenSet := true }

theorem takeDoorbell_good {rec : BitVec 64} (hgood : badDoorbell (s.qu q) rec = false) (hpark : (s.qu q).park = none) :
    takeDoorbell q rec s = s.modQu q (doorbellTaken rec) := by
  unfold takeDoorbell
  dsimp only
  rw [if_neg (by simp [hgood]), hpark]
  rfl

theorem takeDoorbell_bad {rec : BitVec 64} (hbad : badDoorbell (s.qu q) rec = true) :
    takeDoorbell q rec s = changeState q (fun x => { x with error := true }) (raise 0x0809 [q, rec.toNat] s) := by
  unfold takeDoorbell
  dsimp only
  rw [if_pos hbad]

/-- A doorbell read that is over and asks for no further one (R323). -/
theorem doorbellOver_single (hagain : (s.qu q).dbAgain = false) (hidle : ReadsIdle s) :
    doorbellOver q s = readOver ⟨q, 1, 0, 0⟩ (s.modQu q fun x => { x with dbSt := 0, dbAgain := false }) := by
  have hidle' : ReadsIdle (readOver ⟨q, 1, 0, 0⟩ (s.modQu q fun x => { x with dbSt := 0, dbAgain := false })) :=
    (hidle.modQu (f := fun x => { x with dbSt := 0, dbAgain := false }) Nat.zero_ne_one).of_eq rfl rfl
  unfold doorbellOver
  dsimp only
  rw [hagain, if_neg (by simp), serveReads_idle hidle']

theorem exec_doorbellReadDone {q : QueueId} (hsolo : s.twn.role = 0) (hdb : (s.qu q).dbSt = 2) (rec : BitVec 64) :
    exec (.doorbellReadDone q rec) s = .next (doorbellOver q (takeDoorbell q rec (s.modQu q fun x => { x with dbSt := 0 }))) := by
  have hexec : exec (.doorbellReadDone q rec) s = execDoorbellReadDone q rec s := rfl
  have hpaired : (s.modQu q fun x => { x with dbSt := 0 }).paired = false := by
    have : (s.modQu q fun x => { x with dbSt := 0 }).paired = s.paired := rfl
    rw [this, State.paired, hsolo]
    rfl
  rw [hexec]
  unfold execDoorbellReadDone
  rw [if_neg (by rw [hdb]; decide)]
  dsimp only
  rw [if_neg (by rw [hpaired]; decide)]
  rfl

theorem sendVector_solo {v : Nat} (hsolo : s.twn.role = 0) : sendVector q v s = sendMsix v s :=
  if_neg fun hc => absurd (hsolo.symm.trans hc.1) (by decide)

/-- A change of state is told by a vector when the queue has one (R346). -/
theorem stateVector_solo (hsolo : s.twn.role = 0) :
    stateVector q s = s ∨ ∃ v, stateVector q s = sendMsix v (s.modQu q fun x => { x with irqCount := 0 }) := by
  unfold stateVector State.when
  split
  · exact .inr ⟨s.regF (queReg q 0x34) 0 9, sendVector_solo hsolo⟩
  · exact .inl rfl

/-- The state in which a queue of its own setting has met an error. -/
theorem st_error {x : Queue} (h : x.st = 1) : Queue.st { x with error := true } = 5 := by
  unfold Queue.st at h ⊢
  grind

/-- What telling a change of state leaves of the queue. -/
structure QueueTold (q : Nat) (s t : State) : Prop extends Within [.que, .out, .pci] s t where
  told : ∃ r n, t.qu q = { s.qu q with retries := r, irqCount := n }
  idle : ReadsIdle s → ReadsIdle t

theorem QueueTold.shadow_vector (h : HostDirect s q) : QueueTold q s (stateVector q (Machine.writeShadow q s)) := by
  obtain ⟨u, hu⟩ : ∃ u, Machine.writeShadow q s = u := ⟨_, rfl⟩
  have htold : QueueTold q s u := by
    rw [← hu, h.writeShadow]
    refine ⟨shadowTried_within.mono.step State.send_within, ?_, fun hidle => ?_⟩
    · show ∃ r n, (shadowTried q s).qu q = _
      unfold shadowTried
      split
      · rw [qu_modQu_same]
        exact ⟨_, _, rfl⟩
      · exact ⟨(s.qu q).retries, (s.qu q).irqCount, rfl⟩
    · refine ReadsIdle.of_eq (s := shadowTried q s) ?_ rfl rfl
      unfold shadowTried
      split
      · exact hidle.modQu (hidle.qu q)
      · exact hidle
  have hsolo : u.twn.role = 0 := by rw [htold.frame .twn (by decide), h.solo]
  rw [hu]
  rcases stateVector_solo (q := q) hsolo with hv | ⟨v, hv⟩
  · rw [hv]
    exact htold
  · obtain ⟨r, n, hq⟩ := htold.told
    have hque : (sendMsix v (u.modQu q fun x => { x with irqCount := 0 })).que = (u.modQu q fun x => { x with irqCount := 0 }).que :=
      sendMsix_within.frame .que (by decide)
    rw [hv]
    refine ⟨htold.toWithin.trans (State.modQu_within.mono.step sendMsix_within), ⟨r, 0, ?_⟩, fun hidle => ?_⟩
    · rw [qu_of_que hque, qu_modQu_same, hq]
    · exact ReadsIdle.of_eq ((htold.idle hidle).modQu ((htold.idle hidle).qu q)) hque (sendMsix_within.frame .pin (by decide))

/-- A RUNNING queue of a device alone that meets an error goes to ERROR (R351). -/
theorem changeState_error (hrun : (s.qu q).st = 1) :
    changeState q (fun x => { x with error := true }) s =
      stateVector q (Machine.writeShadow q (s.modQu q fun x => { x with error := true })) := by
  unfold changeState
  dsimp only
  rw [qu_modQu_same, st_error hrun, if_neg (by rw [hrun]; decide)]
  rfl

/-! ### Fetches -/

/-- R310, R327. -/
theorem tryFetch_free (h : HostDirect s q) (hst : (s.qu q).st = 1 ∨ (s.qu q).st = 2) (hfetch : (s.qu q).fetching = 0)
    (hn : 0 < fetchCount s.pci.maxRead (s.qu q)) (htag : hostTagFree s = true) : tryFetch q s =
      (s.send (.hostRead 2 q (s.qu q).fetchVa (32 * fetchCount s.pci.maxRead (s.qu q)))).modQu q fun x =>
        { x with fetching := fetchCount s.pci.maxRead (s.qu q), fetchTag := false } := by
  unfold tryFetch
  dsimp only
  rw [if_pos ⟨hst, hfetch, hn, by rw [h.solo]; decide⟩, h.translateFor]
  dsimp only
  rw [if_pos htag, h.when]

/-- A queue whose fetched descriptors have entered its context (R327). -/
def descsTaken (descs : List (BitVec 256)) (now : Nat) (x : Queue) : Queue :=
  { x with context := x.context ++ (withPos descs).map fun (i, d) => { raw := d, id := x.nextId + i, arrival := now },
           nextId := x.nextId + descs.length, sqCi := (x.sqCi + descs.length) % (2 * x.sqN),
           transit := x.transit - descs.length }

theorem takeDescs_running (h : HostDirect s q) (hrun : (s.qu q).st = 1) (descs : List (BitVec 256)) : takeDescs q descs s =
    (shadowTried q (s.modQu q (descsTaken descs s.now))).send (.hostWrite 2 q (s.qu q).setup.sha.toNat
      (leBytes 8 (shadowValue (descsTaken descs s.now (s.qu q))))) := by
  have htaken : HostDirect (s.modQu q (descsTaken descs s.now)) q := h.modQu rfl
  have hwrite := htaken.writeShadow
  rw [qu_modQu_same] at hwrite
  have hst : ∀ u : State, (u.qu q).st = 1 → sweepQueue q u = u := fun u hu => by
    unfold sweepQueue
    simp only [hu]
  unfold takeDescs
  dsimp only
  change sweepQueue q (Machine.writeShadow q (s.modQu q (descsTaken descs s.now))) = _
  rw [hwrite]
  refine hst _ ?_
  show ((shadowTried q (s.modQu q (descsTaken descs s.now))).qu q).st = 1
  unfold shadowTried
  split
  · rw [qu_modQu_same, qu_modQu_same]
    exact hrun
  · rw [qu_modQu_same]
    exact hrun

/-- A queue that waits for fewer entries of its fetch. -/
def fetchedSome (n : Nat) (x : Queue) : Queue := { x with fetching := x.fetching - n }

/-- What the arrival of entries leaves before they enter the context: the fetch's read is over with its last entry. -/
def fetchArrived (q n : Nat) (s : State) : State :=
  if n = (s.qu q).fetching then readOver ⟨q, 2, 0, 0⟩ (s.modQu q (fetchedSome n)) else s.modQu q (fetchedSome n)

theorem fetchArrived_spec (h : HostDirect s q) (n : Nat) : HostDirect (fetchArrived q n s) q ∧
    (fetchArrived q n s).qu q = fetchedSome n (s.qu q) ∧ (ReadsIdle s → ReadsIdle (fetchArrived q n s)) ∧
    (fetchArrived q n s).now = s.now ∧ (fetchArrived q n s).out = s.out ∧ OnlyChanges [.que, .xlt] s (fetchArrived q n s) := by
  have hdirect : HostDirect (s.modQu q (fetchedSome n)) q := h.modQu rfl
  have hidle : ReadsIdle s → ReadsIdle (s.modQu q (fetchedSome n)) := fun hi => hi.modQu (hi.qu q)
  have hqu : (s.modQu q (fetchedSome n)).qu q = fetchedSome n (s.qu q) := qu_modQu_same ..
  unfold fetchArrived
  split
  · exact ⟨⟨hdirect.solo, hdirect.masters, hdirect.bypass⟩, hqu, fun hi => (hidle hi).of_eq rfl rfl, rfl, rfl,
      ((State.modQu_within.mono : Within [.que, .xlt] s _).step readOver_within).frame⟩
  · exact ⟨hdirect, hqu, hidle, rfl, rfl, State.modQu_within.mono.frame⟩

theorem exec_fetchDataArrive {q : QueueId} {descs : List (BitVec 256)} (hsolo : s.twn.role = 0) (hne : descs ≠ [])
    (hlen : descs.length ≤ (s.qu q).fetching) :
    exec (.fetchDataArrive q descs) s = .next (serveReads (takeDescs q descs (fetchArrived q descs.length s))) := by
  have hexec : exec (.fetchDataArrive q descs) s = execFetchDataArrive q descs s := rfl
  have htake : descs.take (s.qu q).fetching = descs := List.take_of_length_le hlen
  have hpaired : (fetchArrived q descs.length s).paired = false := by
    have : (fetchArrived q descs.length s).twn = s.twn := by
      unfold fetchArrived
      split <;> rfl
    rw [State.paired, this, hsolo]
    rfl
  rw [hexec]
  unfold execFetchDataArrive
  dsimp only
  rw [htake, if_neg (by simpa using hne)]
  change Host.Outcome.next (serveReads (if (fetchArrived q descs.length s).paired = true then _ else
    takeDescs q descs (fetchArrived q descs.length s))) = _
  rw [if_neg (by rw [hpaired]; decide)]

/-- The fields of the queue that a shadow written again does not touch. -/
theorem shadowTried_qu : ∃ r, (shadowTried q s).qu q = { s.qu q with retries := r } := by
  unfold shadowTried
  split
  · rw [qu_modQu_same]
    exact ⟨_, rfl⟩
  · exact ⟨(s.qu q).retries, rfl⟩

theorem shadowTried_idle (h : ReadsIdle s) : ReadsIdle (shadowTried q s) := by
  unfold shadowTried
  split
  · exact h.modQu (h.qu q)
  · exact h

/-- The entries of a running queue's fetch arrive (R320, R327). -/
theorem fetchDataArrive_spec {q : QueueId} {descs : List (BitVec 256)} (h : HostDirect s q) (hidle : ReadsIdle s) (hne : descs ≠ [])
    (hlen : descs.length ≤ (s.qu q).fetching) (hrun : (s.qu q).st = 1) : Completes (.fetchDataArrive q descs) s fun t =>
      (t.qu q).context = (s.qu q).context ++ (withPos descs).map (fun p =>
        { raw := p.2, id := (s.qu q).nextId + p.1, arrival := s.now }) ∧
      (t.qu q).sqCi = ((s.qu q).sqCi + descs.length) % (2 * (s.qu q).sqN) ∧
      (t.qu q).fetching = (s.qu q).fetching - descs.length ∧
      t.out = s.out ++ [.hostWrite 2 q (s.qu q).setup.sha.toNat (leBytes 8 (shadowValue (t.qu q)))] ∧
      OnlyChanges [.que, .xlt, .out] s t := by
  obtain ⟨hdirect, hqu, hidle', hnow, hout, hw⟩ := fetchArrived_spec h descs.length
  have hidle' := hidle' hidle
  have hexec := exec_fetchDataArrive (descs := descs) h.solo hne hlen
  generalize fetchArrived q descs.length s = u at *
  have htaken := takeDescs_running hdirect (by rw [hqu]; exact hrun) descs
  obtain ⟨r, hr⟩ := shadowTried_qu (s := u.modQu q (descsTaken descs u.now)) (q := q)
  rw [qu_modQu_same, hqu, hnow] at hr
  rw [hqu, hnow] at htaken
  have hidle'' : ReadsIdle (takeDescs q descs u) := by
    rw [htaken]
    refine ReadsIdle.of_eq (shadowTried_idle (q := q) (s := u.modQu q (descsTaken descs s.now)) ?_) rfl rfl
    exact hidle'.modQu (by rw [hqu]; exact hidle.qu q)
  rw [serveReads_idle hidle'', htaken] at hexec
  have ht : ((shadowTried q (u.modQu q (descsTaken descs s.now))).send (.hostWrite 2 q (fetchedSome descs.length (s.qu q)).setup.sha.toNat
      (leBytes 8 (shadowValue (descsTaken descs s.now (fetchedSome descs.length (s.qu q))))))).qu q =
      { descsTaken descs s.now (fetchedSome descs.length (s.qu q)) with retries := r } := hr
  refine ⟨_, hexec, ?_, ?_, ?_, ?_, ?_⟩
  · rw [ht]
    rfl
  · rw [ht]
    rfl
  · rw [ht]
    rfl
  · rw [ht, State.send_out, shadowTried_within.frame .out (by decide)]
    exact congrArg (· ++ _) hout
  · refine (hw.mono (by decide)).trans ?_
    exact (((State.modQu_within.mono : Within [.que, .xlt, .out] u _).step shadowTried_within).step State.send_within).frame

/-! ### The end of a doorbell read -/

/-- A queue whose doorbell read has brought its data. -/
def readBack (x : Queue) : Queue := { x with dbSt := 0 }

/-- A queue whose doorbell read is over. -/
def readEnded (x : Queue) : Queue := { x with dbSt := 0, dbAgain := false }

theorem readEnded_readBack {x : Queue} (h : x.dbAgain = false) (rec : BitVec 64) :
    readEnded (doorbellTaken rec (readBack x)) = { doorbellTaken rec x with dbSt := 0 } := by
  simp only [readEnded, doorbellTaken, readBack, h]
  rfl

/-- A good record arrives (R318). -/
theorem doorbellReadDone_good {q : QueueId} {rec : BitVec 64} (hsolo : s.twn.role = 0) (hidle : ReadsIdle s) (hdb : (s.qu q).dbSt = 2)
    (hagain : (s.qu q).dbAgain = false) (hgood : badDoorbell (s.qu q) rec = false) (hpark : (s.qu q).park = none) :
    exec (.doorbellReadDone q rec) s =
      .next (readOver ⟨q, 1, 0, 0⟩ (((s.modQu q readBack).modQu q (doorbellTaken rec)).modQu q readEnded)) := by
  have hback : (s.modQu q readBack).qu q = readBack (s.qu q) := qu_modQu_same ..
  have htake : takeDoorbell q rec (s.modQu q readBack) = (s.modQu q readBack).modQu q (doorbellTaken rec) :=
    takeDoorbell_good (by rw [hback]; exact hgood) (by rw [hback]; exact hpark)
  have hidle' : ReadsIdle ((s.modQu q readBack).modQu q (doorbellTaken rec)) :=
    (hidle.modQu (f := readBack) Nat.zero_ne_one).modQu (by rw [hback]; exact Nat.zero_ne_one)
  rw [exec_doorbellReadDone hsolo hdb]
  change Host.Outcome.next (doorbellOver q (takeDoorbell q rec (s.modQu q readBack))) = _
  rw [htake, doorbellOver_single (by rw [qu_modQu_same, hback]; exact hagain) hidle']
  rfl

/-- A malformed record arrives at a RUNNING queue (R319). -/
theorem doorbellReadDone_bad {q : QueueId} {rec : BitVec 64} (h : HostDirect s q) (hidle : ReadsIdle s) (hdb : (s.qu q).dbSt = 2)
    (hagain : (s.qu q).dbAgain = false) (hbad : badDoorbell (s.qu q) rec = true) (hrun : (s.qu q).st = 1) :
    Completes (.doorbellReadDone q rec) s fun t =>
      (t.qu q).st = 5 ∧ Raised s t 0x0809 [q, rec.toNat] ∧ OnlyChanges (.que :: .xlt :: events) s t := by
  have hback : (s.modQu q readBack).qu q = readBack (s.qu q) := qu_modQu_same ..
  obtain ⟨u, hu⟩ : ∃ u, raise 0x0809 [q.val, rec.toNat] (s.modQu q readBack) = u := ⟨_, rfl⟩
  have hque : u.que = (s.modQu q readBack).que := hu ▸ raise_que ..
  have hqu : u.qu q = readBack (s.qu q) := (qu_of_que hque _).trans hback
  have hdirect : HostDirect u q := by
    refine ⟨?_, ?_, by rw [hqu]; exact h.bypass⟩
    · rw [← hu, raise_twn]
      exact h.solo
    · rw [← hu, State.masters, State.twinStart, raise_twn, raise_lys, raise_cfg]
      exact h.masters
  have hidleU : ReadsIdle u := (hidle.modQu (f := readBack) Nat.zero_ne_one).of_eq hque (by rw [← hu, raise_pin])
  have hrunU : (u.qu q).st = 1 := by
    rw [hqu]
    exact hrun
  have herr : HostDirect (u.modQu q fun x => { x with error := true }) q := hdirect.modQu rfl
  obtain ⟨w, hw⟩ : ∃ w, stateVector q (Machine.writeShadow q (u.modQu q fun x => { x with error := true })) = w := ⟨_, rfl⟩
  have htold : QueueTold q (u.modQu q fun x => { x with error := true }) w := hw ▸ QueueTold.shadow_vector herr
  have htake : takeDoorbell q rec (s.modQu q readBack) = w := by
    rw [takeDoorbell_bad (by rw [hback]; exact hbad), hu, changeState_error hrunU, hw]
  obtain ⟨r, n, hwq⟩ := htold.told
  rw [qu_modQu_same, hqu] at hwq
  have hidleW : ReadsIdle w := htold.idle (hidleU.modQu (by rw [hqu]; exact Nat.zero_ne_one))
  have hover := doorbellOver_single (q := q) (by rw [hwq]; exact hagain) hidleW
  have hsu : Within (.que :: .xlt :: events) s u := hu ▸ State.modQu_within.mono.step raise_within
  have hsw : Within (.que :: .xlt :: events) s w := (hsu.step State.modQu_within).step htold.toWithin
  have hraised : Raised s w 0x0809 [q, rec.toNat] := by
    have hr := (raised_raise 0x0809 [q.val, rec.toNat] (s.modQu q readBack)).before (State.modQu_within (s := s))
    rw [hu] at hr
    exact (hr.within (State.modQu_within (q := q.val))).within htold.toWithin
  refine ⟨_, (exec_doorbellReadDone h.solo hdb rec).trans (congrArg (fun t => Host.Outcome.next (doorbellOver q t)) htake), ?_⟩
  rw [hover]
  refine ⟨?_, (hraised.within (State.modQu_within (q := q.val))).within readOver_within,
    ((hsw.step State.modQu_within).step readOver_within).frame⟩
  show ((w.modQu q readEnded).qu q).st = 5
  rw [qu_modQu_same, hwq]
  exact (st_error hrun :)

end

/-! ### Errors of data reads -/

/-- No loading of an image waits for a descriptor. -/
theorem sweepLoads_none (h : ∀ p ∈ s.lib.slots, p.2.loadBy = none) : sweepLoads q s = s := by
  have hnone : (s.lib.slots.filterMap fun p => p.2.loadBy.bind fun l => if l.1 = q then some l.2 else none) = [] := by
    rw [List.filterMap_eq_nil_iff]
    exact fun p hp => by rw [h p hp]; rfl
  unfold sweepLoads
  rw [hnone]
  rfl

/-- A descriptor that has ended (R345). -/
def descDone (status result : Nat) (d : Desc) : Desc :=
  { d with ended := some (status, result), buf := [], lens := [], remq := [], parts := [], hbuf := [], yielded := false }

theorem endDesc_single {d : Desc} (hctx : (s.qu q).context = [d]) (hended : d.ended = none) (status result : Nat) :
    ((endDesc q d.id status result s).qu q).context = [descDone status result d] := by
  unfold endDesc
  rw [qu_modQu_same, hctx]
  simp [hended, descDone]

/-- The code of 0x0807 for an error of a host read. -/
def hostErrCode (kind : HostErr) : Nat := match kind with | .ur => 1 | .ca => 2 | .poisoned => 3 | .timeout => 4

theorem exec_hostReadError {q : QueueId} {cid : BitVec 16} {kind : HostErr} {d : Desc} (hslots : ∀ p ∈ s.lib.slots, p.2.loadBy = none)
    (hctx : (s.qu q).context = [d]) (hcid : d.cid = cid.toNat) (hstarted : d.started = true) (hended : d.ended = none)
    (hreads : d.reads ≠ []) (hcto : kind = .timeout → s.pci.ctoOff = false) :
    exec (.hostReadError q (.data cid) kind) s =
      .next (endDesc q d.id 8 (restartOf s q d) (raise 0x0807 [q, cid.toNat, hostErrCode kind] s)) := by
  have hexec : exec (.hostReadError q (.data cid) kind) s = execHostReadError q (.data cid) kind s := rfl
  have hon : ¬(kind = .timeout ∧ s.pci.ctoOff = true) := fun h => by simpa [hcto h.1] using h.2
  have hfind : ((s.qu q).context.find? fun d => d.cid == cid.toNat && d.started && d.ended.isNone && !d.reads.isEmpty) = some d := by
    simp [hctx, hcid, hstarted, hended, hreads]
  rw [hexec]
  unfold execHostReadError
  dsimp only
  rw [if_neg hon, hfind]
  dsimp only
  rw [sweepLoads_none]
  · rfl
  · have hlib : (endDesc q d.id 8 (restartOf s q d) (raise 0x0807 [q, cid.toNat, hostErrCode kind] s)).lib = s.lib :=
      (endDesc_within.frame .lib (by decide)).trans (raise_lib ..)
    exact fun p hp => hslots p (hlib ▸ hp)

/-- Settles O32, by the doorbell, the fetch and the error of a data read. -/
theorem doorbellsAndFetches : Obligations.DoorbellsAndFetches := by
  unfold Obligations.DoorbellsAndFetches
  refine ⟨fun s q hsolo hmasters hbypass => ⟨fun who hst hkick hdb htag => ?_, fun who o ho => ?_, fun hst hpoll hdb => ?_,
    fun hque hdbg => ⟨fun rec hdb hagain hgood hpark => ?_, fun rec hdb hagain hbad hrun => ?_⟩⟩,
    fun s q hsolo hmasters hbypass => ⟨fun n hst hfetch hn hpos htag => ?_, fun hque hdbg descs hne hlen hrun => ?_,
      fun cid kind d hslots hctx hcid hstarted hended hreads hcto => ?_⟩⟩
  · have hdirect : HostDirect s q := ⟨hsolo, hmasters, hbypass⟩
    have hkicked : kickWrite who q 0 s = askDoorbell q s := by
      unfold kickWrite
      rw [if_neg (by decide), if_pos ⟨hst, hkick⟩]
    have hwrite := (writeReg_kick who q q.isLt 0 (by decide) 0 s hsolo).trans (hkicked.trans (askDoorbell_free hdirect hdb htag))
    refine ⟨_, congrArg Host.Outcome.next hwrite, rfl, ?_, fun p hp => ?_, ?_⟩
    · show (((s.modQu q readAsked).send (.hostRead 1 q (s.qu q).setup.dba.toNat 8)).modQu q readIssued).qu q =
        readIssued (readAsked (s.qu q))
      rw [qu_modQu_same]
      exact congrArg readIssued (qu_modQu_same s q readAsked :)
    · exact (qu_modQu_other _ _ hp).trans (qu_modQu_other _ _ hp)
    · exact (((State.modQu_within.mono : Within [.que, .out] s _).step State.send_within).step State.modQu_within).frame
  · have hne : o.toNat ≠ 0 := fun h => ho (BitVec.eq_of_toNat_eq h)
    have hwrite := (writeReg_kick who q q.isLt o.toNat o.isLt 0 s hsolo).trans (if_pos hne)
    exact ⟨_, congrArg Host.Outcome.next hwrite, raised_raise .., raiseRefused_within.frame⟩
  · refine ⟨_, congrArg Host.Outcome.next ((if_pos ⟨hst, hpoll⟩).trans (askDoorbell_again hsolo hdb)), qu_modQu_same ..,
      fun p hp => qu_modQu_other _ _ hp, State.modQu_within.frame⟩
  · refine ⟨_, doorbellReadDone_good hsolo ⟨hque, hdbg⟩ hdb hagain hgood hpark, ?_, rfl, fun p hp => ?_, ?_⟩
    · show ((((s.modQu q readBack).modQu q (doorbellTaken rec)).modQu q readEnded).qu q) = _
      rw [qu_modQu_same, qu_modQu_same, qu_modQu_same]
      exact readEnded_readBack hagain rec
    · show ((((s.modQu q readBack).modQu q (doorbellTaken rec)).modQu q readEnded).qu p) = _
      rw [qu_modQu_other _ _ hp, qu_modQu_other _ _ hp, qu_modQu_other _ _ hp]
    · exact (((State.modQu_within.trans State.modQu_within).mono.step State.modQu_within).step readOver_within).frame
  · exact doorbellReadDone_bad ⟨hsolo, hmasters, hbypass⟩ ⟨hque, hdbg⟩ hdb hagain hbad hrun
  · have hdirect : HostDirect s q := ⟨hsolo, hmasters, hbypass⟩
    subst hn
    exact ⟨_, congrArg Host.Outcome.next (tryFetch_free hdirect hst hfetch hpos htag), rfl, qu_modQu_same ..,
      ((State.send_within.mono : Within [.que, .out] s _).step State.modQu_within).frame⟩
  · exact fetchDataArrive_spec ⟨hsolo, hmasters, hbypass⟩ ⟨hque, hdbg⟩ hne hlen hrun
  · have hctx' : ((raise 0x0807 [q, cid.toNat, hostErrCode kind] s).qu q).context = [d] := by
      rw [qu_of_que (raise_que ..)]
      exact hctx
    refine ⟨_, exec_hostReadError hslots hctx hcid hstarted hended hreads hcto, ⟨_, endDesc_single hctx' hended .., rfl, rfl⟩,
      (raised_raise ..).within endDesc_within, (raise_within.mono.step endDesc_within).frame⟩

end Sys2Proof

/-! Descriptors that start, and those that pass their request on (R331 to R339, R344). -/

namespace Sys2Proof

open Sys2Proof.Machine

/-- The descriptor of 256 bits w, number i, arrived at a, as the fetch leaves it. -/
def fetched (w : BitVec 256) (i a : Nat) : Desc := { raw := w, id := i, arrival := a }

/-- The same descriptor once it has started. -/
def running (w : BitVec 256) (i a : Nat) : Desc := { raw := w, id := i, arrival := a, started := true }

/-- Queue q has been served and its descriptor i has started. -/
def begun (q i : Nat) (s : State) : State := modDesc q i (fun d => { d with started := true }) (servedNow q s)

theorem begun_within {s : State} {q i : Nat} : Within [.que, .arb] s (begun q i s) :=
  (servedNow_within.mono (l := [.que, .arb])).step modDesc_within

section
variable {s : State} {q i a : Nat} {w : BitVec 256}

theorem nextStart_fetched {x : Queue} (hst : x.st = 1) (hctx : x.context = [fetched w i a]) :
    nextStart x = some (fetched w i a) := by
  have hbefore : x.context.takeWhile (·.started) = [] := by rw [hctx]; rfl
  have hfind : x.context.find? (fun d => !d.started) = some (fetched w i a) := by rw [hctx]; rfl
  unfold nextStart
  rw [hbefore, hfind]
  simp [hst]

theorem qu_begun (hctx : (s.qu q).context = [fetched w i a]) :
    (begun q i s).qu q = { s.qu q with context := [running w i a] } := by
  have hque : (servedNow q s).qu q = s.qu q := rfl
  rw [begun, modDesc, qu_modQu_same, hque, hctx]
  simp [fetched, running]

theorem begun_desc (hctx : (s.qu q).context = [fetched w i a]) : ((begun q i s).qu q).desc i = some (running w i a) := by
  rw [qu_begun hctx]
  simp [Queue.desc, running]

theorem begun_runs (hctx : (s.qu q).context = [fetched w i a]) : descRuns (begun q i s) q w i a := by
  rw [descRuns, qu_begun hctx]
  rfl

/-- The one waiting descriptor of a granted queue starts (R331, R344). -/
theorem startNext_ready (h : readyFor s q w i a) (hgrant : granted s q = true) {opcs : Nat → Nat → Bool}
    (hopc : opcs (fld w 0 4) (fld w 4 4) = true) (hplain : encrypted (s.qu q) (fetched w i a) = false) :
    startNext q opcs s = (begun q i s, some i) := by
  obtain ⟨-, -, hst, hctx, hrefusal⟩ := h
  have hopc' : opcs (fetched w i a).opc (fetched w i a).sub = true := hopc
  have hrefusal' : startRefusal (begun q i s) (s.qu q) (fetched w i a) = none := hrefusal
  unfold startNext
  rw [nextStart_fetched hst hctx]
  dsimp only
  rw [hopc', hgrant, if_neg (by simp), hplain, if_neg (by simp)]
  change (match startRefusal (begun q i s) (s.qu q) (fetched w i a) with
    | some st => (refuseStart q (fetched w i a) st (begun q i s), none)
    | none => (begun q i s, some i)) = _
  rw [hrefusal']

theorem encrypted_request (hopc : 4 < fld w 0 4) : encrypted (s.qu q) (fetched w i a) = false := by
  have : ¬ (fetched w i a).opc ≤ 4 := by
    change ¬ fld w 0 4 ≤ 4
    omega
  simp [encrypted, this]

/-- A library, switch, fence or null descriptor starts. -/
theorem startNext_request (h : readyFor s q w i a) (hgrant : granted s q = true) {opcs : Nat → Nat → Bool}
    (hopc : opcs (fld w 0 4) (fld w 4 4) = true) (hhigh : 4 < fld w 0 4) : startNext q opcs s = (begun q i s, some i) :=
  startNext_ready h hgrant hopc (encrypted_request hhigh)

theorem endDesc_ended (h : readyFor s q w i a) (status result : Nat) :
    descEnded (endDesc q i status result (begun q i s)) q w status result := by
  obtain ⟨-, -, -, hctx, -⟩ := h
  exact ⟨descDone status result (running w i a),
    endDesc_single (d := running w i a) (by rw [qu_begun hctx]) rfl status result, rfl, rfl⟩

theorem begun_ended_onlyChanges (status result : Nat) : OnlyChanges [.que, .arb] s (endDesc q i status result (begun q i s)) :=
  (begun_within.step endDesc_within).mono.frame

end

/-! ### What AUX holds -/

/-- A byte's two halves of a field of eight bits. -/
theorem fld_halves (w : BitVec 256) {lo hi : Nat} (hlo : lo < 16) (h : fld w 0 8 = 16 * hi + lo) : fld w 0 4 = lo ∧ fld w 4 4 = hi := by
  simp only [fld, Nat.shiftRight_eq_div_pow] at h ⊢
  omega

theorem fld_aux (w : BitVec 256) (lo len : Nat) (h : lo + len ≤ 64) : fld w 192 64 / 2 ^ lo % 2 ^ len = fld w (192 + lo) len := by
  simp only [fld, Nat.shiftRight_eq_div_pow]
  have hsplit : 2 ^ 64 = 2 ^ lo * 2 ^ (64 - lo) := by rw [← pow_add]; congr 1; omega
  rw [hsplit, Nat.mod_mul_right_div_self, Nat.div_div_eq_div_mul, ← pow_add, Nat.mod_mod_of_dvd _ (pow_dvd_pow 2 (by omega))]

theorem fld_ofNat_aux (w : BitVec 256) (lo len : Nat) (h : lo + len ≤ 64) :
    fld (BitVec.ofNat 64 (fld w 192 64)) lo len = fld w (192 + lo) len := by
  have hlt : fld w 192 64 < 2 ^ 64 := Nat.mod_lt _ (by decide)
  rw [← fld_aux w lo len h, fld, BitVec.toNat_ofNat, Nat.mod_eq_of_lt hlt, Nat.shiftRight_eq_div_pow]

theorem bit_ofNat_aux (w : BitVec 256) (n : Nat) (h : n < 64) : bit (BitVec.ofNat 64 (fld w 192 64)) n = bit w (192 + n) := by
  have hone : ∀ {k : Nat} (v : BitVec k) (m : Nat), bit v m = decide (fld v m 1 = 1) := fun v m => by
    simp only [bit, fld, BitVec.getLsbD, Nat.testBit_eq_decide_div_mod_eq, Nat.shiftRight_eq_div_pow, pow_one]
  rw [hone, hone, fld_ofNat_aux w n 1 (by omega)]

/-! ### The five opcodes -/

/-- What waits at a chamber once a command has been accepted for a requester. -/
def askedCommand (s : State) (op k : Nat) (t : Bool) (desc : Option (Nat × Nat)) (x : Chamber) : Chamber :=
  { x with cmd := some ⟨op, k, t, desc, cmdDelay s⟩ }

theorem acceptCmd_asked {s : State} {c : Nat} (op k : Nat) (t : Bool) (desc : Option (Nat × Nat))
    (hfree : (s.chm (s.gov c)).cmd = none) :
    acceptCmd c op k t desc s = s.modChm (s.gov c) (askedCommand s op k t desc) := by
  simp only [acceptCmd, hfree]
  rfl

section
variable {s : State} {q : QueueId} {i a : Nat} {w : BitVec 256}

theorem execDescLibraryRequest_accepted (h : readyFor s q w i a) (hgrant : granted s q = true) {sub : Nat} (hopc : fld w 0 4 = 5)
    (hsub : fld w 4 4 = sub) (hone : 1 ≤ sub) (hfifo : s.lib.fifo.length < 256) (hfence : s.fenced 2 = false) :
    Completes (.descLibraryRequest q) s fun t =>
    t.lib = { s.lib with fifo := s.lib.fifo ++ [(
      { op := sub, chamber := fld w 203 9, stratum := fld w 201 2, slot := fld w 212 12, restore := bit w 224,
        spillFirst := bit w 225, force := bit w 226, notify := bit w 227, tag := fld w 16 16,
        cls := if s.regF (queReg q 0) 28 2 = 3 then 2 else 3, desc := some (q.val, i) } : LibReq)] } ∧
    descRuns t q w i a ∧ OnlyChanges [.lib, .que, .arb] s t := by
  obtain ⟨-, -, -, hctx, -⟩ := id h
  have hstart : startNext q (fun o b => o == 5 && b != 0) s = (begun q i s, some i) :=
    startNext_request h hgrant (by simp [hopc, hsub]; omega) (by omega)
  have hexec : exec (.descLibraryRequest q) s = execDescLibraryRequest q s := rfl
  unfold execDescLibraryRequest at hexec
  rw [hstart] at hexec
  dsimp only at hexec
  rw [begun_desc hctx] at hexec
  refine ⟨_, hexec, ?_⟩
  have haux : (running w i a).aux = fld w 192 64 := rfl
  have hdsub : (running w i a).sub = sub := hsub
  have hfull : ¬ 256 ≤ (begun q i s).lib.fifo.length := by
    have : (begun q i s).lib = s.lib := rfl
    rw [this]
    omega
  have hfence' : (begun q i s).fenced 2 = false := hfence
  have hstratum := fld_ofNat_aux w 9 2 (by decide)
  have hchamber := fld_ofNat_aux w 11 9 (by decide)
  have hslot := fld_ofNat_aux w 20 12 (by decide)
  have hrestore := bit_ofNat_aux w 32 (by decide)
  have hspill := bit_ofNat_aux w 33 (by decide)
  have hforce := bit_ofNat_aux w 34 (by decide)
  have hnotify := bit_ofNat_aux w 35 (by decide)
  rw [libAccept, hfence', if_neg Bool.false_ne_true, if_neg hfull, haux, hdsub, hstratum, hchamber, hslot, hrestore, hspill, hforce, hnotify]
  exact ⟨rfl, begun_runs hctx, ((begun_within.mono (l := [.lib, .que, .arb])).step State.modLib_within).frame⟩

theorem execDescSwitch_accepted (h : readyFor s q w i a) (hgrant : granted s q = true) (hopc : fld w 0 8 = 6)
    (hfree : (s.chm (s.gov (fld w 208 9))).cmd = none) : Completes (.descSwitch q) s fun t =>
    (t.chm (s.gov (fld w 208 9))).cmd = some ⟨fld w 194 2, fld w 192 2, bit w 12, some (q.val, i), cmdDelay s⟩ ∧
    descRuns t q w i a ∧ OnlyChanges [.fab, .que, .arb] s t := by
  obtain ⟨-, -, -, hctx, -⟩ := id h
  obtain ⟨hlow, hsub⟩ := fld_halves w (lo := 6) (hi := 0) (by decide) hopc
  have hstart : startNext q (fun o b => o == 6 && b == 0) s = (begun q i s, some i) :=
    startNext_request h hgrant (by simp [hlow, hsub]) (by omega)
  have hexec : exec (.descSwitch q) s = execDescSwitch q s := rfl
  unfold execDescSwitch at hexec
  rw [hstart] at hexec
  dsimp only at hexec
  rw [begun_desc hctx] at hexec
  have haux : (running w i a).aux = fld w 192 64 := rfl
  have hchamber : fld w 192 64 / 2 ^ 16 % 512 = fld w 208 9 := fld_aux w 16 9 (by decide)
  have hop : fld w 192 64 / 4 % 4 = fld w 194 2 := fld_aux w 2 2 (by decide)
  have hstratum : fld w 192 64 % 4 = fld w 192 2 := by simpa using fld_aux w 0 2 (by decide)
  have hcmd : ((begun q i s).chm (s.gov (fld w 208 9))).cmd = none := hfree
  dsimp only at hexec
  rw [haux, hchamber, hop, hstratum] at hexec
  have haccept := acceptCmd_asked (s := begun q i s) (fld w 194 2) (fld w 192 2) (running w i a).turn (some (q.val, i)) hcmd
  rw [haccept] at hexec
  refine ⟨_, hexec, ?_, begun_runs hctx, ((begun_within.mono (l := [.fab, .que, .arb])).step State.modChm_within).frame⟩
  exact (congrArg Chamber.cmd (chm_modChm_same ..)).trans rfl

/-- A group descriptor finds its group. -/
theorem execDescGroupFire_fires (h : readyFor s q w i a) (hgrant : granted s q = true) (hopc : fld w 0 8 = 22) :
    exec (.descGroupFire q) s = .next (acceptFire (fld w 208 4) (fld w 194 2) (some (q.val, i)) (begun q i s)) := by
  obtain ⟨-, -, -, hctx, -⟩ := id h
  obtain ⟨hlow, hsub⟩ := fld_halves w (lo := 6) (hi := 1) (by decide) hopc
  have hstart : startNext q (fun o b => o == 6 && b == 1) s = (begun q i s, some i) :=
    startNext_request h hgrant (by simp [hlow, hsub]) (by omega)
  have hexec : exec (.descGroupFire q) s = execDescGroupFire q s := rfl
  unfold execDescGroupFire at hexec
  rw [hstart] at hexec
  dsimp only at hexec
  rw [begun_desc hctx] at hexec
  dsimp only at hexec
  have haux : (running w i a).aux = fld w 192 64 := rfl
  have hgroup : fld w 192 64 / 2 ^ 16 % 16 = fld w 208 4 := fld_aux w 16 4 (by decide)
  have hop : fld w 192 64 / 4 % 4 = fld w 194 2 := fld_aux w 2 2 (by decide)
  rw [haux, hgroup, hop] at hexec
  exact hexec

theorem execDescGroupFire_accepted (h : readyFor s q w i a) (hgrant : granted s q = true) (hopc : fld w 0 8 = 22)
    (hen : s.regB (grpReg (fld w 208 4) 0) 31 = true) (hfree : (s.grp (fld w 208 4)).fire = none) :
    Completes (.descGroupFire q) s fun t =>
      (t.grp (fld w 208 4)).fire = some (fld w 194 2, some (q.val, i)) ∧ (t.grp (fld w 208 4)).fireWait = cmdDelay s ∧
        descRuns t q w i a ∧ OnlyChanges [.fab, .que, .arb] s t := by
  obtain ⟨-, -, -, hctx, -⟩ := id h
  refine ⟨_, execDescGroupFire_fires h hgrant hopc, ?_⟩
  have hen' : (begun q i s).regB (grpReg (fld w 208 4) 0) 31 = true := hen
  have hfree' : ((begun q i s).grp (fld w 208 4)).fire = none := hfree
  unfold acceptFire
  rw [if_pos hen', hfree']
  refine ⟨?_, ?_, begun_runs hctx, ((begun_within.mono (l := [.fab, .que, .arb])).step State.modGrp_within).frame⟩
  all_goals simp [State.modGrp, State.grp, cmdDelay, begun, servedNow, modDesc, State.modQu, State.regF, State.reg]

theorem execDescGroupFire_refused (h : readyFor s q w i a) (hgrant : granted s q = true) (hopc : fld w 0 8 = 22)
    (hen : s.regB (grpReg (fld w 208 4) 0) 31 = false) :
    Completes (.descGroupFire q) s fun t => descEnded t q w 0x0C 4 ∧ OnlyChanges [.que, .arb] s t := by
  refine ⟨_, execDescGroupFire_fires h hgrant hopc, ?_⟩
  have hen' : (begun q i s).regB (grpReg (fld w 208 4) 0) 31 = false := hen
  have hend : acceptFire (fld w 208 4) (fld w 194 2) (some (q.val, i)) (begun q i s) = endDesc q i 0x0C 4 (begun q i s) := by
    rw [acceptFire, if_neg (by simp [hen'])]
    rfl
  rw [hend]
  exact ⟨endDesc_ended h 0x0C 4, begun_ended_onlyChanges 0x0C 4⟩

theorem execDescNop_ends (h : readyFor s q w i a) (hgrant : granted s q = true) (hopc : fld w 0 8 = 8) :
    Completes (.descNop q) s fun t => descEnded t q w 0 0 ∧ OnlyChanges [.que, .arb] s t := by
  obtain ⟨hlow, -⟩ := fld_halves w (lo := 8) (hi := 0) (by decide) hopc
  have hstart : startNext q (fun o _ => o == 8) s = (begun q i s, some i) :=
    startNext_request h hgrant (by simp [hlow]) (by omega)
  have hexec : exec (.descNop q) s = execDescNop q s := rfl
  unfold execDescNop at hexec
  rw [hstart] at hexec
  exact ⟨_, hexec, endDesc_ended h 0 0, begun_ended_onlyChanges 0 0⟩

/-- A FENCE descriptor has started and is looked at (R339). -/
theorem execDescFence_settles (h : readyFor s q w i a) (hgrant : granted s q = true) (hopc : fld w 0 8 = 7) :
    exec (.descFence q) s = .next (if fld w 192 64 ≤ s.now then endDesc q i 0 0 (begun q i s) else begun q i s) := by
  obtain ⟨-, -, -, hctx, -⟩ := id h
  obtain ⟨hlow, -⟩ := fld_halves w (lo := 7) (hi := 0) (by decide) hopc
  have hstart : startNext q (fun o _ => o == 7) s = (begun q i s, some i) :=
    startNext_request h hgrant (by simp [hlow]) (by omega)
  have hexec : exec (.descFence q) s = execDescFence q s := rfl
  unfold execDescFence settleFence at hexec
  rw [hstart] at hexec
  have hopen : ((begun q i s).qu q).context.find? (fun d => d.started && d.ended.isNone && d.opc == 7) = some (running w i a) := by
    have : (running w i a).opc = 7 := hlow
    rw [qu_begun hctx, List.find?_cons_of_pos]
    rw [this]
    rfl
  dsimp only at hexec
  rw [hopen] at hexec
  exact hexec

end

/-- Settles O34: the one waiting descriptor of a granted queue starts, then each opcode acts or passes its request on. -/
theorem requestsPassFromQueues : Obligations.RequestsPassFromQueues := by
  intro s q w i a h hgrant
  obtain ⟨-, -, -, hctx, -⟩ := id h
  refine ⟨fun sub hopc hsub hone hfifo hfence => execDescLibraryRequest_accepted h hgrant hopc hsub hone hfifo hfence,
    execDescSwitch_accepted h hgrant, fun op hopc hen hfree hop => hop ▸ execDescGroupFire_accepted h hgrant hopc hen hfree,
    execDescGroupFire_refused h hgrant, execDescNop_ends h hgrant, fun hopc hdue => ?_, fun hopc hearly => ?_⟩
  · have hexec := execDescFence_settles h hgrant hopc
    rw [if_pos hdue] at hexec
    exact ⟨_, hexec, endDesc_ended h 0 0, begun_ended_onlyChanges 0 0⟩
  · have hexec := execDescFence_settles h hgrant hopc
    rw [if_neg (by omega)] at hexec
    exact ⟨_, hexec, begun_runs hctx, begun_within.frame⟩

end Sys2Proof

/-! Completions, coalesced vectors and a queue's states (R343 to R355). -/

namespace Sys2Proof

open Sys2Proof.Machine

section
variable {s : State} {q : Nat}

/-! ### Completions -/

/-- A queue whose oldest descriptor has completed with nothing left behind it (R343, R345). -/
def completed (d : Desc) (status : Nat) (x : Queue) : Queue :=
  { x with context := [], cqPi := (x.cqPi + 1) % (2 * x.cqN), seq := (x.seq + 1) % 65536, done := x.done.add 1,
           lateTick := x.lateTick + 0, retries := x.retries.filter (· != 4),
           lasterr := if status = 0 then x.lasterr else mkFld 24 8 status ||| mkFld 16 8 (fld d.raw 0 8) ||| mkFld 0 16 d.cid }

/-- Where the next completion stands in host memory. -/
def completionAt (x : Queue) : Nat := ringBase x.setup.cqb + 16 * (x.cqPi % x.cqN)

theorem settleFence_ended {d : Desc} {e : Nat × Nat} (hctx : (s.qu q).context = [d]) (hended : d.ended = some e) :
    settleFence q s = s := by
  unfold settleFence
  rw [hctx]
  simp [hended]

theorem orphanReads_none {d : Desc} (p : Desc → Bool) (hctx : (s.qu q).context = [d]) (hreads : d.reads = []) :
    orphanReads q p s = s := by
  have hlost : (((s.qu q).context.filter p).flatMap fun d =>
      d.reads.map fun r => ((⟨q, 0, d.id, r.1⟩ : HostRead), d.cid, d.src + r.1, r.2)) = [] := by
    rw [hctx, List.filter_cons]
    split <;> simp [hreads]
  unfold orphanReads
  dsimp only
  rw [hlost]
  rfl

theorem ringWrite_solo (hsolo : s.twn.role = 0) (hmasters : s.masters = true) (kind addr : Nat) (bytes : List Byte) :
    ringWrite kind q addr bytes s = s.send (.hostWrite kind q addr bytes) := by
  unfold ringWrite
  rw [if_neg (by rw [hsolo]; decide)]
  exact if_pos hmasters

/-- A queue without an interrupt counts and sends nothing. -/
theorem countIrq_off (irq : Bool) (hoff : s.regB (queReg q 0x34) 31 = false) :
    countIrq q irq s = s.modQu q fun x => { x with irqCount := (s.qu q).irqCount + b2n irq } := by
  have hoff' : bit (s.reg (queReg q 0x34)) 31 = false := hoff
  unfold countIrq
  dsimp only
  rw [if_neg fun hc => absurd (hoff'.symm.trans hc.1) (by decide)]

/-- What the completion of the queue's only descriptor leaves (R343). -/
theorem completeFront_single (h : HostDirect s q) {d : Desc} {status result : Nat} (hctx : (s.qu q).context = [d])
    (hended : d.ended = some (status, result)) (hrun : (s.qu q).st = 1) (hirq : s.regB (queReg q 0x34) 31 = false)
    (hlate : s.regF (queReg q 0x38) 0 20 = 0) (hretries : (s.qu q).retries = []) (hreads : d.reads = [])
    (hopen : writesOpen s q d.id = false) :
    ∃ n, completeFront q s = ((s.send (.hostWrite 1 q (completionAt (s.qu q)) (completionBytes s (s.qu q) d status result false))).modQu q
      (completed d status)).modQu q fun x => { x with irqCount := n } := by
  have hstay : ¬(((s.qu q).st = 3 ∧ ((s.qu q).park.any fun p => p.access == 4) = true) ∨ (s.qu q).st = 0 ∨
      writesOpen s q d.id = true ∨ (s.qu q).retries.contains 5 = true) := by
    rw [hrun, hopen, hretries]
    simp
  unfold completeFront
  rw [settleFence_ended hctx hended]
  dsimp only
  rw [hctx]
  dsimp only
  rw [hended]
  dsimp only
  rw [if_neg hstay, h.translateFor]
  dsimp only
  rw [orphanReads_none _ hctx hreads, hlate, ringWrite_solo h.solo h.masters]
  refine ⟨_, countIrq_off _ ?_⟩
  exact hirq

/-! ### Changes of state -/

theorem changeState_same {f : Queue → Queue} (hst : (f (s.qu q)).st = (s.qu q).st) : changeState q f s = s.modQu q f := by
  unfold changeState
  dsimp only
  rw [qu_modQu_same, if_pos hst]

/-- A queue that begins to run is told to its host (R346). -/
theorem changeState_running {f : Queue → Queue} (hold : (s.qu q).st ≠ 1) (hnew : (f (s.qu q)).st = 1) :
    changeState q f s = stateVector q (Machine.writeShadow q (s.modQu q f)) := by
  unfold changeState
  dsimp only
  rw [qu_modQu_same, if_neg (by rw [hnew]; exact hold.symm), hnew]
  rfl

/-- A queue that is drained. -/
def drains (x : Queue) : Queue := { x with draining := true }

/-- The descriptors a drained queue has flushed (R352). -/
def flushedMore (n : Nat) (y : Queue) : Queue := { y with flushed := y.flushed + n }

theorem changeState_drains (hold : (s.qu q).st = 1) (hslots : ∀ p ∈ s.lib.slots, p.2.loadBy = none) :
    changeState q drains s = stateVector q (Machine.writeShadow q ((endAll q 0x0E (s.modQu q drains)).modQu q
      (flushedMore (toEnd (drains (s.qu q)) 0x0E)))) := by
  have hnew : (drains (s.qu q)).st = 6 := by
    unfold Queue.st drains at *
    grind
  unfold changeState
  dsimp only
  rw [qu_modQu_same, if_neg (by rw [hnew, hold]; decide), hnew]
  change stateVector q (Machine.writeShadow q (sweepLoads q ((endAll q 0x0E (s.modQu q drains)).modQu q
    (flushedMore (toEnd (drains (s.qu q)) 0x0E))))) = _
  rw [sweepLoads_none]
  exact hslots

theorem endAll_qu (status : Nat) : ∃ c, (endAll q status s).qu q = { s.qu q with context := c } := by
  unfold endAll
  rw [qu_modQu_same]
  exact ⟨_, rfl⟩

/-- A queue whose owner has gone is detached, and its descriptors end (R350). -/
theorem changeState_detached {f : Queue → Queue} (hold : (s.qu q).st = 1) (hnew : (f (s.qu q)).st = 4)
    (hslots : ∀ p ∈ s.lib.slots, p.2.loadBy = none) :
    changeState q f s = stateVector q (Machine.writeShadow q
      (raise 0x0805 [q, (f (s.qu q)).owner, toEnd (f (s.qu q)) 0x0D] (endAll q 0x0D (s.modQu q f)))) := by
  unfold changeState
  dsimp only
  rw [qu_modQu_same, if_neg (by rw [hnew, hold]; decide), hnew]
  change stateVector q (Machine.writeShadow q (sweepLoads q
    (raise 0x0805 [q, (f (s.qu q)).owner, toEnd (f (s.qu q)) 0x0D] (endAll q 0x0D (s.modQu q f))))) = _
  rw [sweepLoads_none]
  have hlib : (raise 0x0805 [q, (f (s.qu q)).owner, toEnd (f (s.qu q)) 0x0D] (endAll q 0x0D (s.modQu q f))).lib = s.lib :=
    raise_lib ..
  exact fun p hp => hslots p (hlib ▸ hp)

/-! ### Enabling and disabling -/

theorem regDesc_queCtrl (hq : q < 256) : regDesc (queReg q 0) = { rw := 0xF800_03FF } :=
  regDesc_que q 0 hq (by decide)

theorem bit_queCtrl (x v : Word) : bit ((x &&& ~~~(0xF800_03FF : Word)) ||| (v &&& 0xF800_03FF)) 30 = bit v 30 := by
  simp [bit]

theorem fld_queCtrl (x v : Word) : fld ((x &&& ~~~(0xF800_03FF : Word)) ||| (v &&& 0xF800_03FF)) 0 10 = fld v 0 10 := by
  refine fld_congr fun i hi => ?_
  interval_cases i <;> simp

/-- A queue as enabling starts it, without an owner that parks it (R354). -/
def enabledQueue (s : State) (q : Nat) : Queue :=
  { (s.qu q).kept with setup := setupOf s q, rseen := (s.qu q).rseen, lasterr := (s.qu q).lasterr,
                       ownerSeen := persPresent s (fld (setupOf s q).bind 0 16), ownerPark := false, enabled := true }

theorem enableQueue_runs (hst : (s.qu q).st = 0) (hok : enableRefusal s q (setupOf s q) = 0)
    (hfree : bit (setupOf s q).bind 31 = false) : enableQueue q s = changeState q (fun _ => enabledQueue s q) s := by
  have hpark : ∀ x : Queue, x.setup = setupOf s q → ownerParked s q x = false := fun x hx => by
    rw [ownerParked, Queue.ownen, hx, hfree, Bool.false_and]
  unfold enableQueue
  dsimp only
  rw [if_neg (by rw [hst]; decide), if_neg (by rw [hst]; decide), if_neg (by rw [hok]; decide), hpark _ rfl]
  rfl

/-- The owner of an enabled queue has been looked at (R350). -/
def ownerLooked (s : State) (q : Nat) (x : Queue) : Queue :=
  { x with ownerPark := ownerParked s q x, ownerSeen := x.ownerSeen || (x.ownen && persPresent s x.owner) }

/-- A disabled queue whose set-up is right begins to run (R354). -/
theorem queCtrlWritten_enables (hsolo : s.twn.role = 0) (hmasters : s.masters = true) {v : Word} (hon : bit v 31 = true)
    (hst : (s.qu q).st = 0) (hok : enableRefusal s q (setupOf s q) = 0) (hfree : bit (setupOf s q).bind 31 = false)
    (hbypass : bit (setupOf s q).prot 31 = true) : Within [.que, .out, .pci] s (queCtrlWritten q v s) ∧
      ∃ r n p o, (queCtrlWritten q v s).qu q = { enabledQueue s q with retries := r, irqCount := n, ownerPark := p, ownerSeen := o } ∧
        p = false := by
  have henabled : (enabledQueue s q).st = 1 := rfl
  have hstart := changeState_running (s := s) (q := q) (f := fun _ => enabledQueue s q) (by rw [hst]; decide) henabled
  have hdirect : HostDirect (s.modQu q fun _ => enabledQueue s q) q := ⟨hsolo, hmasters, by rw [qu_modQu_same]; exact hbypass⟩
  have htold := QueueTold.shadow_vector hdirect
  unfold queCtrlWritten
  rw [if_pos hon, enableQueue_runs hst hok hfree, hstart]
  obtain ⟨t, ht⟩ : ∃ t, stateVector q (Machine.writeShadow q (s.modQu q fun _ => enabledQueue s q)) = t := ⟨_, rfl⟩
  rw [ht] at htold ⊢
  obtain ⟨r, n, hq⟩ := htold.told
  rw [qu_modQu_same] at hq
  have hen : (t.qu q).enabled = true := by rw [hq]; rfl
  have hpark : ownerParked t q (t.qu q) = false := by
    have : (t.qu q).ownen = false := by rw [hq]; exact hfree
    rw [ownerParked, this, Bool.false_and]
  have hlook : (ownerLooked t q (t.qu q)).st = (t.qu q).st := by
    rw [ownerLooked, hpark, hq]
    rfl
  rw [if_pos ⟨hen, hon⟩]
  change Within _ s (changeState q (ownerLooked t q) t) ∧ ∃ r n p o, (changeState q (ownerLooked t q) t).qu q = _ ∧ _
  rw [changeState_same hlook, qu_modQu_same, ownerLooked, hpark, hq]
  exact ⟨((State.modQu_within.mono : Within [.que, .out, .pci] s _).trans htold.toWithin).step State.modQu_within, r, n, false, _, rfl, rfl⟩

theorem enableRefusal_bypass {u : QueueSetup} (hsize : bit (s.reg (queReg q 0)) 30 = true) (hep : bit u.ep 31 = false)
    (hbypass : bit u.prot 31 = true) (henc : bit u.prot 30 = false) : enableRefusal s q u = 0 := by
  simp [enableRefusal, hsize, hep, hbypass, henc]

theorem queueEnable_runs {q : QueueId} (who : Requester) (val : Word) (hsolo : s.twn.role = 0) (hmasters : s.masters = true)
    (hst : (s.qu q).st = 0) (hsize : bit val 30 = true) (hep : s.regB (queReg q 0x30) 31 = false)
    (hbypass : s.regB (queReg q 0x2C) 31 = true) (henc : s.regB (queReg q 0x2C) 30 = false) (hfree : s.regB (queReg q 0x28) 31 = false) :
    Completes (.queueEnable who q val) s fun t =>
      (t.qu q).st = 1 ∧ (t.qu q).setup = setupOf s q ∧ (t.qu q).sqCi = 0 ∧ (t.qu q).cqPi = 0 ∧ (t.qu q).seq = 0 ∧
      t.reg (queReg q 0) = (s.reg (queReg q 0) &&& 0x07FF_FC00) ||| ((val ||| 0x8000_0000) &&& 0xF800_03FF) ∧
      (∀ o, o ≠ queReg q 0 → t.reg o = s.reg o) ∧ OnlyChanges [.que, .regs, .out, .pci] s t := by
  have hctrl := regDesc_queCtrl q.isLt
  have hwrite := writeReg_queCtrl who q q.isLt (val ||| mkBit 31 true) s hsolo
  have hreg : ∀ o, o ≠ queReg q 0 → (storeReg (queReg q 0) (val ||| mkBit 31 true) s).reg o = s.reg o :=
    fun o ho => storeReg_reg_other ho _ s
  have hown : (storeReg (queReg q 0) (val ||| mkBit 31 true) s).reg (queReg q 0) =
      (s.reg (queReg q 0) &&& ~~~(0xF800_03FF : Word)) ||| ((val ||| mkBit 31 true) &&& 0xF800_03FF) := by
    rw [storeReg_reg_same, hctrl]
  have hw : Within [.regs] s (storeReg (queReg q 0) (val ||| mkBit 31 true) s) := storeReg_within
  have hque : ∀ p, (storeReg (queReg q 0) (val ||| mkBit 31 true) s).qu p = s.qu p := fun p => rfl
  have hsolo' : (storeReg (queReg q 0) (val ||| mkBit 31 true) s).twn.role = 0 := hsolo
  have hmasters' : (storeReg (queReg q 0) (val ||| mkBit 31 true) s).masters = true := hmasters
  have hexec : exec (.queueEnable who q val) s = .next (writeReg who (queReg q 0) 0xF (val ||| mkBit 31 true) s) := rfl
  rw [hwrite] at hexec
  generalize storeReg (queReg q 0) (val ||| mkBit 31 true) s = u at *
  have hother : ∀ o, 0 < o → u.reg (queReg q o) = s.reg (queReg q o) := fun o ho => hreg _ (by simp [queReg]; omega)
  have hsetup : setupOf u q = setupOf s q := by
    unfold setupOf
    simp [hother]
  have hok : enableRefusal u q (setupOf u q) = 0 := by
    refine enableRefusal_bypass ?_ ?_ ?_ ?_
    · rw [hown, bit_queCtrl]
      simp [bit, mkBit] at hsize ⊢
      simp [hsize]
    all_goals rw [hsetup]; assumption
  obtain ⟨hwithin, r, n, p, o, hq, hp⟩ := queCtrlWritten_enables hsolo' hmasters' (bit_enable val) (by rw [hque]; exact hst) hok
    (by rw [hsetup]; exact hfree) (by rw [hsetup]; exact hbypass)
  have hregs : ∀ o, (queCtrlWritten q (val ||| mkBit 31 true) u).reg o = u.reg o := hwithin.frame .regs (by decide)
  refine ⟨_, hexec, ?_, ?_, ?_, ?_, ?_, ?_, fun o ho => ?_, ?_⟩
  · rw [hq, hp]
    rfl
  · rw [hq]
    exact hsetup
  · rw [hq]
    rfl
  · rw [hq]
    rfl
  · rw [hq]
    rfl
  · rw [hregs, hown]
    rfl
  · rw [hregs, hreg o ho]
  · exact ((hw.mono (l := [.que, .regs, .out, .pci])).step hwithin).frame

/-- A ring size that does not exist is refused (Table Queues-11). -/
theorem queueEnable_refused {q : QueueId} (who : Requester) (val : Word) (hsolo : s.twn.role = 0) (hst : (s.qu q).st = 0)
    (hsize : bit val 30 = false) (hzero : fld val 0 10 = 0) : Completes (.queueEnable who q val) s fun t =>
      (t.qu q).st = 0 ∧ (t.qu q).cfgerr = 1 ∧ Raised s t 0x0802 [q, 1] ∧ OnlyChanges (.que :: .regs :: events) s t := by
  have hctrl := regDesc_queCtrl q.isLt
  have hwrite := writeReg_queCtrl who q q.isLt (val ||| mkBit 31 true) s hsolo
  have hown : (storeReg (queReg q 0) (val ||| mkBit 31 true) s).reg (queReg q 0) =
      (s.reg (queReg q 0) &&& ~~~(0xF800_03FF : Word)) ||| ((val ||| mkBit 31 true) &&& 0xF800_03FF) := by
    rw [storeReg_reg_same, hctrl]
  have hw : Within [.regs] s (storeReg (queReg q 0) (val ||| mkBit 31 true) s) := storeReg_within
  have hst' : ((storeReg (queReg q 0) (val ||| mkBit 31 true) s).qu q).st = 0 := hst
  have hexec : exec (.queueEnable who q val) s = .next (writeReg who (queReg q 0) 0xF (val ||| mkBit 31 true) s) := rfl
  rw [hwrite] at hexec
  generalize storeReg (queReg q 0) (val ||| mkBit 31 true) s = u at *
  have hbit : bit (val ||| mkBit 31 true) 30 = false := by
    simp [bit, mkBit] at hsize ⊢
    simp [hsize]
  have hfld : fld (val ||| mkBit 31 true) 0 10 = 0 := by
    rw [fld_or, hzero]
    rfl
  have hwhy : enableRefusal u q (setupOf u q) = 1 := by
    have hnosize : bit (u.reg (queReg q 0)) 30 = false := by rw [hown, bit_queCtrl, hbit]
    have hzero' : fld (u.reg (queReg q 0)) 0 10 = 0 := by rw [hown, fld_queCtrl, hfld]
    simp [enableRefusal, hnosize, hzero']
  have hen : enableQueue q u = raise 0x0802 [q, 1] (u.modQu q fun x => { x with cfgerr := 1 }) := by
    unfold enableQueue
    dsimp only
    rw [if_neg (by rw [hst']; decide), if_neg (by rw [hst']; decide), hwhy, if_pos (by decide)]
  have hoff : (u.qu q).enabled = false := by
    unfold Queue.st at hst'
    grind
  have hq : (enableQueue q u).qu q = { u.qu q with cfgerr := 1 } := by
    rw [hen, qu_of_que (raise_que ..), qu_modQu_same]
  have hdone : queCtrlWritten q (val ||| mkBit 31 true) u = enableQueue q u := by
    unfold queCtrlWritten
    rw [if_pos (bit_enable val)]
    dsimp only
    rw [if_neg]
    rw [hq, hoff]
    simp
  rw [hdone] at hexec
  refine ⟨_, hexec, ?_, ?_, ?_, ?_⟩
  · rw [hq]
    exact hst'
  · rw [hq]
  · rw [hen]
    have := raised_raise 0x0802 [q.val, 1] (u.modQu q fun x => { x with cfgerr := 1 })
    exact this.before (hw.mono (l := [.regs, .que]) |>.step State.modQu_within)
  · rw [hen]
    exact (((hw.mono (l := .que :: .regs :: events)).step State.modQu_within).step raise_within).frame

/-- An empty running queue that is disabled drains (R352). -/
theorem queueDisable_drains {q : QueueId} (who : Requester) (val : Word) (h : HostDirect s q) (hst : (s.qu q).st = 1)
    (hctx : (s.qu q).context = []) (hslots : ∀ p ∈ s.lib.slots, p.2.loadBy = none) : Completes (.queueDisable who q val) s fun t =>
      (t.qu q).st = 6 ∧ t.regB (queReg q 0) 31 = false ∧ (∀ o, o ≠ queReg q 0 → t.reg o = s.reg o) ∧
      OnlyChanges [.que, .regs, .out, .pci] s t := by
  have hctrl := regDesc_queCtrl q.isLt
  have hwrite := writeReg_queCtrl who q q.isLt (val &&& ~~~mkBit 31 true) s h.solo
  have hreg : ∀ o, o ≠ queReg q 0 → (storeReg (queReg q 0) (val &&& ~~~mkBit 31 true) s).reg o = s.reg o :=
    fun o ho => storeReg_reg_other ho _ s
  have hown : (storeReg (queReg q 0) (val &&& ~~~mkBit 31 true) s).reg (queReg q 0) =
      (s.reg (queReg q 0) &&& ~~~(0xF800_03FF : Word)) ||| ((val &&& ~~~mkBit 31 true) &&& 0xF800_03FF) := by
    rw [storeReg_reg_same, hctrl]
  have hw : Within [.regs] s (storeReg (queReg q 0) (val &&& ~~~mkBit 31 true) s) := storeReg_within
  have hst' : ((storeReg (queReg q 0) (val &&& ~~~mkBit 31 true) s).qu q).st = 1 := hst
  have hctx' : ((storeReg (queReg q 0) (val &&& ~~~mkBit 31 true) s).qu q).context = [] := hctx
  have hslots' : ∀ p ∈ (storeReg (queReg q 0) (val &&& ~~~mkBit 31 true) s).lib.slots, p.2.loadBy = none := hslots
  have hdirect : HostDirect (storeReg (queReg q 0) (val &&& ~~~mkBit 31 true) s) q := ⟨h.solo, h.masters, h.bypass⟩
  have hexec : exec (.queueDisable who q val) s = .next (writeReg who (queReg q 0) 0xF (val &&& ~~~mkBit 31 true) s) := rfl
  rw [hwrite] at hexec
  generalize storeReg (queReg q 0) (val &&& ~~~mkBit 31 true) s = u at *
  have hoff := bit_disable val
  have hdone : queCtrlWritten q (val &&& ~~~mkBit 31 true) u = changeState q drains u := by
    unfold queCtrlWritten
    dsimp only
    rw [if_neg fun hc => absurd (hoff.symm.trans hc.2) (by decide), if_neg fun hc => absurd (hoff.symm.trans hc) (by decide)]
    exact if_neg (by rw [hst']; decide)
  rw [hdone, changeState_drains hst' hslots'] at hexec
  obtain ⟨c, hend⟩ := endAll_qu (s := u.modQu q drains) (q := q) 0x0E
  rw [qu_modQu_same] at hend
  obtain ⟨v, hv⟩ : ∃ v, (endAll q 0x0E (u.modQu q drains)).modQu q (flushedMore (toEnd (drains (u.qu q)) 0x0E)) = v := ⟨_, rfl⟩
  have huv : Within [.que] u v := hv ▸ (State.modQu_within.trans endAll_within).step State.modQu_within
  have hvq : v.qu q = { drains (u.qu q) with context := c, flushed := (u.qu q).flushed + toEnd (drains (u.qu q)) 0x0E } := by
    rw [← hv, qu_modQu_same, hend]
    rfl
  rw [hv] at hexec
  have hdrained : (drains (u.qu q)).st = 6 := by
    unfold Queue.st drains at *
    grind
  have htold := QueueTold.shadow_vector (s := v) (q := q) ⟨(huv.frame .twn (by decide)).symm ▸ hdirect.solo, by
    rw [← hv]
    exact hdirect.masters, by
    rw [hvq]
    exact hdirect.bypass⟩
  obtain ⟨r, n, hq⟩ := htold.told
  have hall : Within [.que, .out, .pci] u (stateVector q (Machine.writeShadow q v)) := huv.mono.trans htold.toWithin
  have hregs : ∀ o, (stateVector q (Machine.writeShadow q v)).reg o = u.reg o := hall.frame .regs (by decide)
  refine ⟨_, hexec, ?_, ?_, fun o ho => ?_, ?_⟩
  · rw [hq, hvq]
    exact hdrained
  · rw [State.regB, hregs, hown]
    simp [bit, mkBit]
  · rw [hregs, hreg o ho]
  · exact ((hw.mono (l := [.que, .regs, .out, .pci])).step hall).frame

/-! ### Drained and orphaned queues -/

/-- A queue that stops. -/
def stopped (x : Queue) : Queue := { x with enabled := false, draining := false }

/-- A queue that has stopped. -/
def cleared (x : Queue) : Queue :=
  { x with error := false, detached := false, park := none, ownerPark := false, flushed := 0, dbSt := 0, dbAgain := false,
           dbTag := false, fetchTag := false }

/-- The walks that still have a queue to answer to. -/
def walksLeft (q : Nat) (t : Xlt) : Xlt :=
  { t with walks := t.walks.filter (fun w => w.queue != q || w.access == 6), later := t.later.filter fun w => w.queue != q }

/-- A drained queue is DISABLED (R352, R353). -/
theorem drainEnd_spec {q : QueueId} (h : HostDirect s q) (hst : (s.qu q).st = 6) (hctx : (s.qu q).context = [])
    (hfetch : (s.qu q).fetching = 0) (htransit : (s.qu q).transit = 0) (hretries : (s.qu q).retries = []) :
    Completes (.drainEnd q) s fun t =>
      (t.qu q).st = 0 ∧ Raised s t 0x080B [q, (s.qu q).flushed] ∧ t.xlt = walksLeft q s.xlt ∧ OnlyChanges (.que :: .xlt :: events) s t := by
  have hexec : exec (.drainEnd q) s = execDrainEnd q s := rfl
  obtain ⟨u, hu⟩ : ∃ u, (s.modQu q stopped).modXlt (walksLeft q) = u := ⟨_, rfl⟩
  have hsu : Within [.que, .xlt] s u := hu ▸ (State.modQu_within.mono.step State.modXlt_within)
  have huq : u.qu q = stopped (s.qu q) := by
    rw [← hu]
    exact qu_modQu_same s q stopped
  have hxlt : u.xlt = walksLeft q s.xlt := by
    rw [← hu]
    rfl
  have hdirect : HostDirect u q := by
    refine ⟨?_, ?_, ?_⟩
    · rw [← hu]
      exact h.solo
    · rw [← hu]
      exact h.masters
    · rw [huq]
      exact h.bypass
  have htold := QueueTold.shadow_vector hdirect
  unfold execDrainEnd at hexec
  dsimp only at hexec
  rw [if_pos ⟨hst, by rw [hctx]; rfl, hfetch, htransit, by rw [hretries]; rfl⟩] at hexec
  change exec (.drainEnd q) s = .next (raise 0x080B [q, (s.qu q).flushed]
    ((stateVector q (Machine.writeShadow q ((s.modQu q stopped).modXlt (walksLeft q)))).modQu q cleared)) at hexec
  rw [hu] at hexec
  generalize stateVector q (Machine.writeShadow q u) = v at *
  obtain ⟨r, n, hq⟩ := htold.told
  have hsv : Within (.que :: .xlt :: events) s v := (hsu.mono).step htold.toWithin
  have hall : Within (.que :: .xlt :: events) s (v.modQu q cleared) := hsv.step State.modQu_within
  refine ⟨_, hexec, ?_, (raised_raise ..).before hall, ?_, (hall.step raise_within).frame⟩
  · rw [qu_of_que (raise_que ..), qu_modQu_same, hq, huq]
    rfl
  · rw [raise_xlt]
    exact (htold.frame .xlt (by decide)).trans hxlt

/-- The presence of the queue's owner, as the engine sees it gone. -/
def ownerSought (s : State) (q : Nat) (x : Queue) : Queue :=
  { x with ownerSeen := x.ownerSeen || false, detached := x.detached || (x.ownerSeen && !false),
           ownerPark := ownerParked s q { x with ownerSeen := x.ownerSeen || false } }

/-- A queue whose owner is gone detaches (R350). -/
theorem ownerChange_detaches {q : QueueId} (h : HostDirect s q) (hst : (s.qu q).st = 1) (hown : (s.qu q).ownen = true)
    (hseen : (s.qu q).ownerSeen = true) (hgone : persPresent s (s.qu q).owner = false)
    (hslots : ∀ p ∈ s.lib.slots, p.2.loadBy = none) : Completes (.ownerChange q) s fun t =>
      (t.qu q).st = 4 ∧ Raised s t 0x0805 [q, (s.qu q).owner, toEnd (s.qu q) 0x0D] ∧ OnlyChanges (.que :: events) s t := by
  have hexec : exec (.ownerChange q) s = .next (seeOwner q s) := rfl
  have hen : (s.qu q).enabled = true := by
    unfold Queue.st at hst
    grind
  have hsee : seeOwner q s = changeState q (ownerSought s q) s := by
    unfold seeOwner
    dsimp only
    rw [if_neg (by simp [hen, hown]), hgone]
    rfl
  have hnew : (ownerSought s q (s.qu q)).st = 4 := by
    unfold Queue.st ownerSought at *
    grind
  rw [hsee, changeState_detached hst hnew hslots] at hexec
  change exec (.ownerChange q) s = .next (stateVector q (Machine.writeShadow q
      (raise 0x0805 [q, (s.qu q).owner, toEnd (s.qu q) 0x0D] (endAll q 0x0D (s.modQu q (ownerSought s q)))))) at hexec
  obtain ⟨c, hend⟩ := endAll_qu (s := s.modQu q (ownerSought s q)) (q := q) 0x0D
  rw [qu_modQu_same] at hend
  have hsw : Within (.que :: events) s (endAll q 0x0D (s.modQu q (ownerSought s q))) := (State.modQu_within.step endAll_within).mono
  have hmasters : (endAll q 0x0D (s.modQu q (ownerSought s q))).masters = true := h.masters
  have hsolo : (endAll q 0x0D (s.modQu q (ownerSought s q))).twn.role = 0 := h.solo
  generalize endAll q 0x0D (s.modQu q (ownerSought s q)) = w at *
  have hraise : Within (.que :: events) s (raise 0x0805 [q, (s.qu q).owner, toEnd (s.qu q) 0x0D] w) := hsw.step raise_within
  have hraised : Raised s (raise 0x0805 [q, (s.qu q).owner, toEnd (s.qu q) 0x0D] w) 0x0805 [q, (s.qu q).owner, toEnd (s.qu q) 0x0D] :=
    (raised_raise ..).before hsw
  have hrq : (raise 0x0805 [q, (s.qu q).owner, toEnd (s.qu q) 0x0D] w).qu q = w.qu q := qu_of_que (raise_que ..) q
  have htold := QueueTold.shadow_vector (s := raise 0x0805 [q, (s.qu q).owner, toEnd (s.qu q) 0x0D] w) (q := q)
    ⟨by rw [raise_twn]; exact hsolo, by rw [State.masters, State.twinStart, raise_twn, raise_lys, raise_cfg]; exact hmasters, by rw [hrq, hend]; exact h.bypass⟩
  obtain ⟨r, n, hq⟩ := htold.told
  refine ⟨_, hexec, ?_, hraised.within htold.toWithin, (hraise.step htold.toWithin).frame⟩
  rw [hq, hrq, hend]
  exact hnew

end

/-- Settles O35, by the completion, the coalesced vector and the changes of a queue's state. -/
theorem completionsAndQueueStates : Obligations.CompletionsAndQueueStates := by
  unfold Obligations.CompletionsAndQueueStates
  refine ⟨fun s q hsolo hmasters => ⟨fun d st res hctx hended hbypass hrun hirq hlate hretries hreads hopen => ?_,
    fun hon hwait hcount hmsix hmask => ?_⟩, fun s q hsolo hmasters => ⟨fun who val hst hsize hep hbypass henc hfree => ?_,
      fun who val hst hsize hzero => queueEnable_refused who val hsolo hst hsize hzero,
      fun who val hst hbypass hctx hslots => queueDisable_drains who val ⟨hsolo, hmasters, hbypass⟩ hst hctx hslots,
      fun hst hctx hfetch htransit hretries hbypass => drainEnd_spec ⟨hsolo, hmasters, hbypass⟩ hst hctx hfetch htransit hretries,
      fun hst hown hseen hgone hbypass hslots => ownerChange_detaches ⟨hsolo, hmasters, hbypass⟩ hst hown hseen hgone hslots⟩⟩
  · have hexec : exec (.completionWrite q) s = .next (if (s.qu q).retries.contains 4 then s else completeFront q s) := rfl
    obtain ⟨n, hfront⟩ := completeFront_single ⟨hsolo, hmasters, hbypass⟩ hctx hended hrun hirq hlate hretries hreads hopen
    rw [hretries, if_neg (by decide), hfront] at hexec
    refine ⟨_, hexec, rfl, ?_, ?_, ?_, ?_, (((State.send_within.mono (l := [.que, .out])).step State.modQu_within).step State.modQu_within).frame⟩
    all_goals
      rw [qu_modQu_same, qu_modQu_same]
      rfl
  · have hexec : exec (.irqCoalesceTimeout q) s = execIrqCoalesceTimeout q s := rfl
    unfold execIrqCoalesceTimeout at hexec
    dsimp only at hexec
    rw [if_pos ⟨hon, hwait, hcount⟩, sendVector_solo (by exact hsolo)] at hexec
    have hsend : sendMsix (fld (s.reg (queReg q 0x34)) 0 9) (s.modQu q fun x => { x with irqCount := 0 }) =
        (s.modQu q fun x => { x with irqCount := 0 }).send (.msix (s.regF (queReg q 0x34) 0 9)
          (s.msixEntry (s.regF (queReg q 0x34) 0 9)).addr (s.msixEntry (s.regF (queReg q 0x34) 0 9)).data) := by
      have hgo : ((!(s.modQu q fun x => { x with irqCount := 0 }).masters || !(s.modQu q fun x => { x with irqCount := 0 }).pci.msixOn)) = false := by
        change (!s.masters || !s.pci.msixOn) = false
        rw [hmasters, hmsix]
        rfl
      unfold sendMsix
      rw [hgo, if_neg (by decide)]
      exact if_neg fun hc => absurd (hmask.symm.trans hc) (by decide)
    rw [hsend] at hexec
    exact ⟨_, hexec, rfl, (qu_modQu_same s q fun x => { x with irqCount := 0 } :), ((State.modQu_within.mono (l := [.que, .out])).step State.send_within).frame⟩
  · exact queueEnable_runs who val hsolo hmasters hst hsize hep hbypass henc hfree

end Sys2Proof

/-! Walks of the tables and invalidations of the TLB (R365 to R376). -/

namespace Sys2Proof

open Sys2Proof.Machine

/-- Walks that start read the root entries and stand as walking; nothing else of the translation changes (R368). -/
theorem startWalks_xlt (s : State) : ∃ w, (startWalks s).xlt = { s.xlt with walking := w } := by
  have hloop : ∀ (l : List Walk) (f : Walk → State → State), (∀ w u, ∃ k, (f w u).xlt = { u.xlt with walking := k }) →
      ∀ u : State, ∃ k, (forEach l f u).xlt = { u.xlt with walking := k } := fun l f hf => by
    induction l with
    | nil => exact fun u => ⟨u.xlt.walking, rfl⟩
    | cons w l ih =>
      intro u
      obtain ⟨k, hk⟩ := hf w u
      obtain ⟨k', hk'⟩ := ih (f w u)
      rw [hk] at hk'
      exact ⟨k', hk'⟩
  unfold startWalks
  split
  · exact ⟨s.xlt.walking, rfl⟩
  · refine hloop _ _ (fun w u => ?_) s
    dsimp only
    split
    · exact ⟨u.xlt.walking, rfl⟩
    · refine ⟨u.xlt.walking ++ [(w.asid, w.vpn)], ?_⟩
      unfold State.when
      split <;> rfl

theorem startWalks_none {s : State} (h : s.xlt.walks = []) : startWalks s = s := by
  unfold startWalks
  rw [h]
  split <;> rfl

section
variable {s : State}

/-! ### Invalidations -/

/-- The invalidation that a command of scope `scope` asks for. -/
def asked (s : State) (scope asid npages : Nat) : Inval :=
  { scope := scope, asid := asid, va := (s.reg 0x9_0020).toNat + (s.regF 0x9_0024 0 16) * 2 ^ 32, npages := npages }

theorem runInval_spec (v : Inval) :
    (runInval v s).xlt.tlb = s.xlt.tlb.filter (fun e => !inScope v e) ∧ (runInval v s).xlt.inv = s.xlt.inv := by
  unfold runInval dropEntries
  obtain ⟨w, hw⟩ := startWalks_xlt ((s.modXlt fun t =>
    { t with invReads := ((readsInFlight s).filter fun (r, va, n) => usesRemoved s v r.queue va n).map (·.1),
             invWrites := s.twn.held.filter fun r => (r.kind == 1 || r.kind == 2) && !(s.qu r.queue).bypass &&
               (v.scope == 1 || (s.qu r.queue).asid == v.asid) }).modXlt fun t =>
    { t with tlb := t.tlb.filter (fun e => !inScope v e), walking := t.walking.filter fun p => !(v.scope == 1 || p.1 == v.asid) })
  rw [hw]
  exact ⟨rfl, rfl⟩

/-- An invalidation that finds none running drops the entries in its scope (R371, R372). -/
theorem invCommand_first (hnone : s.xlt.inv = []) (scope asid npages : Nat) :
    (invCommand scope asid npages s).xlt.tlb = s.xlt.tlb.filter (fun e => !inScope (asked s scope asid npages) e) ∧
      (invCommand scope asid npages s).xlt.inv.length = 1 ∧ OnlyChanges [.xlt, .out] s (invCommand scope asid npages s) := by
  have hrun : invCommand scope asid npages s =
      runInval (asked s scope asid npages) (s.modXlt fun t => { t with inv := t.inv ++ [asked s scope asid npages] }) := by
    unfold invCommand
    rw [if_neg (by rw [hnone]; decide), hnone]
    rfl
  obtain ⟨htlb, hinv⟩ := runInval_spec (s := s.modXlt fun t => { t with inv := t.inv ++ [asked s scope asid npages] })
    (asked s scope asid npages)
  rw [hrun]
  refine ⟨htlb, ?_, (State.modXlt_within.mono.step runInval_within).frame⟩
  rw [hinv]
  change (s.xlt.inv ++ [asked s scope asid npages]).length = 1
  rw [hnone]
  rfl

theorem invWord_fields (scope asid n : Nat) (hscope : scope < 4) (hasid : asid < 256) (hn : n < 65536) :
    fld (mkFld 30 2 scope ||| mkFld 16 8 asid ||| mkFld 0 16 n) 30 2 = scope ∧
      fld (mkFld 30 2 scope ||| mkFld 16 8 asid ||| mkFld 0 16 n) 16 8 = asid ∧
      fld (mkFld 30 2 scope ||| mkFld 16 8 asid ||| mkFld 0 16 n) 0 16 = n := by
  simp only [fld_or]
  rw [fld_mkFld_same _ _ _ (by decide), fld_mkFld_same _ _ _ (by decide), fld_mkFld_same _ _ _ (by decide),
    fld_mkFld_above 16 8 asid 30 2 (by decide) (by decide), fld_mkFld_above 0 16 n 30 2 (by decide) (by decide),
    fld_mkFld_below 30 2 scope 16 8 (by decide) (by decide), fld_mkFld_above 0 16 n 16 8 (by decide) (by decide),
    fld_mkFld_below 30 2 scope 0 16 (by decide) (by decide), fld_mkFld_below 16 8 asid 0 16 (by decide) (by decide)]
  refine ⟨?_, ?_, ?_⟩
  · simpa using Nat.mod_eq_of_lt hscope
  · simpa using Nat.mod_eq_of_lt hasid
  · simpa using Nat.mod_eq_of_lt hn

theorem exec_invAll (who : Requester) (hsolo : s.twn.role = 0) : exec (.invAll who) s = .next (invCommand 1 0 0 s) := by
  have h := writeReg_inv who (mkFld 30 2 1) s (by decide) hsolo
  exact congrArg Host.Outcome.next h

theorem mkFld_zero (lo len : Nat) : mkFld lo len 0 = 0#32 := by
  simp [mkFld]

theorem exec_invAsid (who : Requester) (asid : Fin 256) (hsolo : s.twn.role = 0) :
    exec (.invAsid who asid) s = .next (invCommand 2 asid 0 s) := by
  obtain ⟨hscope, hasid, hn⟩ := invWord_fields 2 asid 0 (by decide) asid.isLt (by decide)
  rw [mkFld_zero, BitVec.or_zero] at hscope hasid hn
  have h := writeReg_inv who (mkFld 30 2 2 ||| mkFld 16 8 asid) s (by rw [hscope]; decide) hsolo
  rw [hscope, hasid, hn] at h
  exact congrArg Host.Outcome.next h

theorem exec_invRange (who : Requester) (asid : Fin 256) (n : BitVec 16) (hsolo : s.twn.role = 0) :
    exec (.invRange who asid n) s = .next (invCommand 3 asid n.toNat s) := by
  obtain ⟨hscope, hasid, hn⟩ := invWord_fields 3 asid n.toNat (by decide) asid.isLt n.isLt
  have h := writeReg_inv who (mkFld 30 2 3 ||| mkFld 16 8 asid ||| mkFld 0 16 n.toNat) s (by rw [hscope]; decide) hsolo
  rw [hscope, hasid, hn] at h
  exact congrArg Host.Outcome.next h

/-- The seventeenth invalidation is refused (R371). -/
theorem invCommand_full (hfull : 16 ≤ s.xlt.inv.length) (scope asid npages : Nat) :
    invCommand scope asid npages s = raise 0x0907 [asid, scope] s := by
  unfold invCommand
  exact if_pos hfull

/-- A ring without a write to try again tries none. -/
theorem retryWrite_none {q : Nat} (h : (s.qu q).retries = []) : retryWrite q s = s := by
  unfold retryWrite
  rw [h]

/-- The last invalidation is over (R373). -/
theorem exec_invalidationComplete {v : Inval} (hsolo : s.twn.role = 0) (hinv : s.xlt.inv = [v]) (hover : invReadsOver s = true)
    (hretries : ∀ p ∈ s.que, p.2.retries = []) : Completes .invalidationComplete s fun t =>
    t.xlt = { s.xlt with inv := [], invReads := [], invWrites := [], invDone := (s.xlt.invDone + 1) % 65536 } ∧
      OnlyChanges [.xlt, .out, .pci] s t := by
  have hpaired : s.paired = false := by rw [State.paired, hsolo]; rfl
  have hexec : exec .invalidationComplete s = execInvalidationComplete s := rfl
  obtain ⟨u, hu⟩ : ∃ u, (s.modXlt fun t => { t with inv := [], invReads := [], invWrites := [], invDone := (t.invDone + 1) % 65536 }) = u :=
    ⟨_, rfl⟩
  have hsu : Within [.xlt, .out, .pci] s u := hu ▸ State.modXlt_within.mono
  have hvector : Within [.out, .pci] u (xltVector 256 u) := by
    have hsolo' : u.twn.role = 0 := by rw [← hu]; exact hsolo
    unfold xltVector State.when
    split
    · rw [show (fun s => sendVector 256 (s.regF 0x9_0004 0 9) s) u = sendMsix (u.regF 0x9_0004 0 9) u from sendVector_solo hsolo']
      exact sendMsix_within
    · exact .refl
  have hque : (xltVector 256 u).que = s.que := (hvector.frame .que (by decide)).trans (by rw [← hu]; rfl)
  have hover' : invalidationOver s = forEach (s.que.map (·.1)) retryWrite (xltVector 256 u) := by
    unfold invalidationOver
    rw [hinv]
    dsimp only
    rw [hu, hque]
  have hstay : forEach (s.que.map (·.1)) retryWrite (xltVector 256 u) = xltVector 256 u := by
    refine forEach_eq_self fun q _ => retryWrite_none ?_
    rw [qu_of_que hque]
    rcases eq_or_ne (s.qu q) {} with hq | hq
    · rw [hq]
    · exact hretries _ (mem_of_tabGet hq)
  unfold execInvalidationComplete at hexec
  rw [hover, if_neg (by decide), if_neg (by rw [hpaired]; simp), hover', hstay] at hexec
  refine ⟨_, hexec, ?_, (hsu.step hvector).frame⟩
  rw [hvector.frame .xlt (by decide), ← hu]
  rfl

/-! ### A ring write that a translation or a fault holds up -/

/-- What telling a parked queue's host leaves of it, whether its shadow is translated or not. -/
structure ParkTold (q : Nat) (s t : State) : Prop extends Within (.que :: .xlt :: events) s t where
  told : ∃ r n, t.qu q = { s.qu q with retries := r, irqCount := n }
  idle : ReadsIdle s → ReadsIdle t

variable {q : Nat}

theorem ParkTold.trans {t u : State} (h : ParkTold q s t) (h' : ParkTold q t u) : ParkTold q s u := by
  obtain ⟨r, n, hq⟩ := h.told
  obtain ⟨r', n', hq'⟩ := h'.told
  exact ⟨h.toWithin.trans h'.toWithin, ⟨r', n', by rw [hq', hq]⟩, fun hi => h'.idle (h.idle hi)⟩

/-- A change outside the queues and the pins. -/
theorem ParkTold.of_within {t : State} (h : Within (.xlt :: events) s t) : ParkTold q s t := by
  have hque : t.que = s.que := h.frame .que (by decide)
  exact ⟨h.mono, ⟨_, _, qu_of_que hque q⟩, fun hi => hi.of_eq hque (h.frame .pin (by decide))⟩

theorem ParkTold.modQu {f : Queue → Queue} {r : List Nat} {n : Nat} (hf : f (s.qu q) = { s.qu q with retries := r, irqCount := n }) :
    ParkTold q s (s.modQu q f) :=
  ⟨State.modQu_within.mono, ⟨r, n, by rw [qu_modQu_same, hf]⟩, fun hi => hi.modQu (by rw [hf]; exact hi.qu q)⟩

theorem ParkTold.ringWrite (hsolo : s.twn.role = 0) (kind addr : Nat) (bytes : List Byte) :
    ParkTold q s (ringWrite kind q addr bytes s) := by
  refine .of_within ?_
  unfold Machine.ringWrite
  rw [if_neg (by rw [hsolo]; decide)]
  unfold State.when
  split
  · exact State.send_within.mono
  · exact .refl

theorem ParkTold.shadowTried : ParkTold q s (shadowTried q s) := by
  unfold Sys2Proof.shadowTried
  split
  · exact .modQu rfl
  · exact .of_within .refl

/-- The shadow of a parked queue faults: it is tried again or waits. -/
theorem ParkTold.shadowFaultNow (hst : (s.qu q).st = 3) (kind level : Nat) : ParkTold q s (shadowFaultNow q kind level s) := by
  have hcount : ParkTold q s (countFault s) := .of_within State.modXlt_within.mono
  have hst' : ((countFault s).qu q).st = 3 := hst
  unfold Machine.shadowFaultNow
  dsimp only
  split
  · exact hcount.trans (.of_within faultLater_within.mono)
  · rw [if_neg (by rw [hst']; decide)]
    split
    · exact hcount.trans (.modQu (r := _) (n := _) rfl)
    · exact (hcount.trans (.of_within recordFault_within)).trans (.modQu rfl)

theorem ParkTold.writeShadow (hsolo : s.twn.role = 0) (hst : (s.qu q).st = 3) : ParkTold q s (writeShadow q s) := by
  have hx : Within [.xlt, .out] s (translateFor 5 q 0xFFFF (s.qu q).setup.sha.toNat 8 true s).2 := translateFor_within
  unfold Machine.writeShadow
  dsimp only
  generalize translateFor 5 q 0xFFFF (s.qu q).setup.sha.toNat 8 true s = res at hx
  obtain ⟨r, u⟩ := res
  have htold : ParkTold q s u := .of_within hx.mono
  have hsolo' : u.twn.role = 0 := by rw [show u.twn = s.twn from hx.frame .twn (by decide), hsolo]
  have hst' : (u.qu q).st = 3 := by rw [qu_of_que (hx.frame .que (by decide)), hst]
  cases r with
  | ok bus =>
    have htried : ParkTold q u (Sys2Proof.shadowTried q u) := .shadowTried
    refine (htold.trans htried).trans (.ringWrite ?_ ..)
    rw [(shadowTried_masters (s := u) (q := q)).2, hsolo']
  | wait => exact htold
  | fault k l =>
    have hpaired : u.paired = false := by rw [State.paired, hsolo']; rfl
    refine htold.trans ?_
    change ParkTold q u (shadowFault q k l u)
    unfold shadowFault stampFault
    rw [hpaired, if_pos (by decide)]
    exact .shadowFaultNow hst' k l

theorem ParkTold.stateVector (hsolo : s.twn.role = 0) : ParkTold q s (stateVector q s) := by
  rcases stateVector_solo (q := q) hsolo with h | ⟨v, h⟩
  · rw [h]
    exact .of_within .refl
  · rw [h]
    exact (ParkTold.modQu rfl).trans (.of_within sendMsix_within.mono)

/-! ### Walks -/

/-- The one access that waits for a page. -/
def waitingFor (asid : Fin 256) (vpn : BitVec 36) (q access : Nat) : Walk :=
  { asid := asid, vpn := vpn.toNat, queue := q, access := access, cid := 0xFFFF, va := 4096 * vpn.toNat }

theorem waitingFor_waits (asid : Fin 256) (vpn : BitVec 36) (q access : Nat) :
    waitsFor asid vpn.toNat (waitingFor asid vpn q access) = true := by
  simp [waitsFor, waitingFor]

/-- A walk's further reads have gone out and it runs no more (R367, R368). -/
def walkRead (asid : Fin 256) (vpn : BitVec 36) (q : Nat) (es : List (BitVec 64)) (s : State) : State :=
  (forEach ((tableReads (4096 * vpn.toNat) 4 (rootOf s asid) es).drop 1)
    (fun a s => s.when s.masters fun s => s.send (.hostRead 3 q a 8)) s).modXlt fun t =>
      { t with walking := t.walking.filter (· != (asid.val, vpn.toNat)) }

theorem forEach_hostReads (hmasters : s.masters = true) (q : Nat) (l : List Nat) :
    forEach l (fun a s => s.when s.masters fun s => s.send (.hostRead 3 q a 8)) s =
      { s with out := s.out ++ l.map fun a => .hostRead 3 q a 8 } := by
  induction l generalizing s with
  | nil => simp [forEach_nil]
  | cons a l ih =>
    have hsend : s.when s.masters (fun s => s.send (.hostRead 3 q a 8)) = s.send (.hostRead 3 q a 8) := if_pos hmasters
    rw [forEach_cons, hsend, ih (s := s.send (.hostRead 3 q a 8)) hmasters]
    simp [State.send]

theorem walkRead_eq (hmasters : s.masters = true) (asid : Fin 256) (vpn : BitVec 36) (q : Nat) (es : List (BitVec 64)) :
    walkRead asid vpn q es s = { s with
      out := s.out ++ ((tableReads (4096 * vpn.toNat) 4 (rootOf s asid) es).drop 1).map (fun a => .hostRead 3 q a 8),
      xlt := { s.xlt with walking := s.xlt.walking.filter (· != (asid.val, vpn.toNat)) } } := by
  unfold walkRead
  rw [forEach_hostReads hmasters]
  rfl

theorem exec_walkComplete {asid : Fin 256} {vpn : BitVec 36} {q access : Nat} {es : List (BitVec 64)}
    (hwalks : s.xlt.walks = [waitingFor asid vpn q access]) (hruns : (asid.val, vpn.toNat) ∈ s.xlt.walking) (hsolo : s.twn.role = 0) :
    exec (.walkComplete asid vpn es false) s = .next (match walkEntries (4096 * vpn.toNat) 4 es with
      | .inl (k, l) => startWalks (serveReads (walkFault (waitingFor asid vpn q access) k l
          ((walkRead asid vpn q es s).modXlt fun t => { t with walks := t.walks.filter fun w => !waitsFor asid vpn.toNat w })))
      | .inr (size, ppn, r, w) => startWalks (fillArrives asid vpn.toNat size ppn r w (walkRead asid vpn q es s))) := by
  have hexec : exec (.walkComplete asid vpn es false) s = execWalkComplete asid vpn es false s := rfl
  have hmine : s.xlt.walks.filter (waitsFor asid vpn.toNat) = [waitingFor asid vpn q access] := by
    rw [hwalks, List.filter_cons_of_pos (waitingFor_waits ..), List.filter_nil]
  have hrun : walkRuns s asid vpn.toNat = true := by
    unfold walkRuns
    simpa using hruns
  have hpaired : (walkRead asid vpn q es s).paired = false := by
    have : (walkRead asid vpn q es s).twn = s.twn := by
      unfold walkRead
      exact ((Within.forEach (l := [.out]) fun _ _ => .when State.send_within)).frame .twn (by decide)
    rw [State.paired, this, hsolo]
    rfl
  rw [hexec]
  unfold execWalkComplete
  dsimp only
  rw [hrun, if_neg (by decide), hmine]
  change (match walkEntries (4096 * vpn.toNat) 4 es with
    | .inl (k, l) => done (startWalks (serveReads (walkFault (waitingFor asid vpn q access) k l
        ((walkRead asid vpn q es s).modXlt fun t => { t with walks := t.walks.filter fun w => !waitsFor asid vpn.toNat w }))))
    | .inr (size, ppn, r, w) => done (startWalks (if (walkRead asid vpn q es s).paired then _
        else fillArrives asid vpn.toNat size ppn r w (walkRead asid vpn q es s)))) = _
  rw [hpaired]
  cases walkEntries (4096 * vpn.toNat) 4 es <;> rfl

/-- No access waits for a page whose walk has ended. -/
def walksOver (asid vpn : Nat) (t : Xlt) : Xlt :=
  { t with walks := t.walks.filter (fun w => !waitsFor asid vpn w), filling := t.filling.filter (· != (asid, vpn)) }

theorem tryDoorbell_idle (h : (s.qu q).dbSt ≠ 1) : tryDoorbell q s = s := by
  unfold tryDoorbell
  exact if_pos h

/-- The fill for a doorbell that waits no more changes nothing but the translations. -/
theorem fillArrives_doorbell {asid : Fin 256} {vpn : BitVec 36} (hidle : ReadsIdle s)
    (hwalks : s.xlt.walks = [waitingFor asid vpn q 0]) (size ppn : Nat) (r w : Bool) :
    startWalks (fillArrives asid vpn.toNat size ppn r w s) =
      tlbFill { asid := asid, size := size, vpn := 4096 * vpn.toNat / 2 ^ size, ppn := ppn, r := r, w := w }
        (s.modXlt (walksOver asid vpn.toNat)) := by
  have hwait := waitingFor_waits asid vpn q 0
  have hmine : s.xlt.walks.filter (waitsFor asid vpn.toNat) = [waitingFor asid vpn q 0] := by
    rw [hwalks, List.filter_cons_of_pos hwait, List.filter_nil]
  have hover : (walksOver asid vpn.toNat s.xlt).walks = [] := by
    simp [walksOver, hwalks, hwait]
  obtain ⟨u, hu⟩ : ∃ u, tlbFill { asid := asid, size := size, vpn := 4096 * vpn.toNat / 2 ^ size, ppn := ppn, r := r, w := w }
      (s.modXlt (walksOver asid vpn.toNat)) = u := ⟨_, rfl⟩
  have huq : u.que = s.que := by rw [← hu]; rfl
  have huw : u.xlt.walks = [] := by rw [← hu]; exact hover
  have hui : ReadsIdle u := hidle.of_eq huq (by rw [← hu]; rfl)
  have hdrive : driveAccess (waitingFor asid vpn q 0) u = u := tryDoorbell_idle (hui.qu q)
  unfold fillArrives
  rw [hmine]
  change startWalks (serveReads (driveAccess (waitingFor asid vpn q 0)
    (tlbFill { asid := asid, size := size, vpn := 4096 * vpn.toNat / 2 ^ size, ppn := ppn, r := r, w := w }
      (s.modXlt (walksOver asid vpn.toNat))))) = _
  rw [hu, hdrive, serveReads_idle hui, startWalks_none huw]

theorem tlbFind_tlbFill (e : TlbEntry) (va : Nat) (h : e.vpn = va / 2 ^ e.size) : tlbFind (tlbFill e s) e.asid va = some e := by
  have hhead : (tlbFill e s).xlt.tlb = e :: (s.xlt.tlb.filter fun f => !(f.asid == e.asid && f.size == e.size && f.vpn == e.vpn)).take 8191 := rfl
  unfold tlbFind
  rw [hhead, List.find?_cons_of_pos]
  simp [h]

/-- A walk that ends in a leaf fills the TLB (R365, R367). -/
theorem walkComplete_fills {asid : Fin 256} {vpn : BitVec 36} {es : List (BitVec 64)} {size ppn : Nat} {r wr : Bool}
    (hsolo : s.twn.role = 0) (hmasters : s.masters = true) (hidle : ReadsIdle s)
    (hleaf : walkEntries (4096 * vpn.toNat) 4 es = .inr (size, ppn, r, wr))
    (hwalks : s.xlt.walks = [waitingFor asid vpn q 0]) (hruns : (asid.val, vpn.toNat) ∈ s.xlt.walking) :
    Completes (.walkComplete asid vpn es false) s fun t =>
      t.xlt.walks = [] ∧ (asid.val, vpn.toNat) ∉ t.xlt.walking ∧ tlbFind t asid (4096 * vpn.toNat) =
        some { asid := asid, size := size, vpn := 4096 * vpn.toNat / 2 ^ size, ppn := ppn, r := r, w := wr } ∧
      t.out = s.out ++ ((tableReads (4096 * vpn.toNat) 4 (rootOf s asid) es).drop 1).map (fun a => .hostRead 3 q a 8) ∧
      OnlyChanges [.xlt, .out] s t := by
  have hexec := exec_walkComplete (es := es) hwalks hruns hsolo
  rw [hleaf] at hexec
  dsimp only at hexec
  have hread := walkRead_eq hmasters asid vpn q es
  have hread_walks : (walkRead asid vpn q es s).xlt.walks = [waitingFor asid vpn q 0] := by
    rw [hread]
    exact hwalks
  have hread_idle : ReadsIdle (walkRead asid vpn q es s) := by
    rw [hread]
    exact hidle
  have hfill := fillArrives_doorbell hread_idle hread_walks size ppn r wr
  rw [hfill] at hexec
  refine ⟨_, hexec, ?_, ?_, tlbFind_tlbFill _ _ rfl, ?_, ?_⟩
  · change (walksOver asid vpn.toNat (walkRead asid vpn q es s).xlt).walks = []
    simp [walksOver, hread_walks, waitingFor_waits asid vpn q 0]
  · change (asid.val, vpn.toNat) ∉ (walkRead asid vpn q es s).xlt.walking
    rw [hread]
    simp
  · change (walkRead asid vpn q es s).out = _
    rw [hread]
  · have hw : Within [.xlt, .out] s (walkRead asid vpn q es s) :=
      (Within.forEach fun _ _ => .when State.send_within.mono).step State.modXlt_within
    exact ((hw.step State.modXlt_within).step State.modXlt_within).frame

/-! ### Walks that fault -/

/-- A queue parked by a fault. -/
def parked (access cid : Nat) (x : Queue) : Queue := { x with park := some ⟨access, cid⟩ }

theorem st_parked {x : Queue} (hst : x.st = 1) (access cid : Nat) : (parked access cid x).st = 3 := by
  unfold Queue.st parked at *
  grind

/-- A fault of a queue without descriptors stops none. -/
theorem stopDescs_told (hctx : (s.qu q).context = []) : ParkTold q s (stopDescs q s) := by
  have hreads : ∀ p, orphanReads q p s = s := fun p => by
    unfold orphanReads
    dsimp only
    rw [hctx]
    rfl
  have hnone : (s.net.remotes.any fun m => m.queue == q && m.read && ([] : List Nat).contains m.cid) = false := by
    simp
  unfold stopDescs stopWhere
  dsimp only
  rw [hreads, hctx]
  change ParkTold q s ((if (s.net.remotes.any fun m => m.queue == q && m.read && ([] : List Nat).contains m.cid) = true then _ else s).modQu q _)
  rw [hnone, if_neg (by decide)]
  exact .modQu (r := (s.qu q).retries) (n := (s.qu q).irqCount) (by
    simp only [hctx, List.map_nil, List.foldl_nil, Nat.sub_zero])

theorem countFault_recordWaits : recordWaits (countFault s) q = recordWaits s q := rfl

/-- The fault of a running queue's fetch parks it (R376). -/
theorem takeFault_parks (hsolo : s.twn.role = 0) (hst : (s.qu q).st = 1) (hctx : (s.qu q).context = [])
    (hrec : recordWaits s q = false) (k l va : Nat) :
    Within (.que :: .xlt :: events) s (takeFault q 1 0xFFFF k l va s) ∧ ((takeFault q 1 0xFFFF k l va s).qu q).st = 3 ∧
      ((takeFault q 1 0xFFFF k l va s).qu q).park = some ⟨1, 0xFFFF⟩ ∧
      Raised s (takeFault q 1 0xFFFF k l va s) 0x0902 [q, k, 1, 0xFFFF, 0] ∧ (ReadsIdle s → ReadsIdle (takeFault q 1 0xFFFF k l va s)) := by
  have hpaired : s.paired = false := by rw [State.paired, hsolo]; rfl
  have hcount : Within [.xlt] s (countFault s) := State.modXlt_within
  have hcount_st : ((countFault s).qu q).st = 1 := hst
  have hcount_ctx : ((countFault s).qu q).context = [] := hctx
  have hdesc : ((countFault s).qu q).desc 0xFFFF = none := by rw [Queue.desc, hcount_ctx]; rfl
  obtain ⟨more, hmore⟩ : ∃ m, othersStop ((countFault s).qu q) 0xFFFFFFFF = m := ⟨_, rfl⟩
  obtain ⟨u, hu⟩ : ∃ u, recordFault q k 1 0xFFFF l va 0 more false (stopDescs q (countFault s)) = u := ⟨_, rfl⟩
  have hstop : ParkTold q s (stopDescs q (countFault s)) := (ParkTold.of_within hcount.mono).trans (stopDescs_told hcount_ctx)
  have hsu : ParkTold q s u := hu ▸ hstop.trans (.of_within recordFault_within)
  have hraised : Raised s u 0x0902 [q, k, 1, 0xFFFF, 0] := by
    rw [← hu]
    exact (raised_raise ..).before (hstop.toWithin.step State.modXlt_within)
  have htake : takeFault q 1 0xFFFF k l va s = changeState q (parked 1 0xFFFF) u := by
    unfold takeFault stampFault
    rw [hpaired, if_pos (by decide)]
    unfold takeFaultNow
    dsimp only
    rw [if_neg (by simp [Queue.dropsAccess]), if_neg (by rw [countFault_recordWaits, hrec]; simp), if_pos (Or.inl hcount_st), hdesc]
    dsimp only
    rw [if_neg (by decide), if_neg (by decide), if_neg (by decide), hmore, hu]
    rfl
  obtain ⟨r, n, huq⟩ := hsu.told
  have hust : (u.qu q).st = 1 := by rw [huq]; exact hst
  have hpark : ((u.modQu q (parked 1 0xFFFF)).qu q).st = 3 := by rw [qu_modQu_same]; exact st_parked hust 1 0xFFFF
  have hchange : changeState q (parked 1 0xFFFF) u = stateVector q (Machine.writeShadow q (u.modQu q (parked 1 0xFFFF))) := by
    unfold changeState
    dsimp only
    rw [hpark, if_neg (by rw [hust]; decide)]
    rfl
  have husolo : (u.modQu q (parked 1 0xFFFF)).twn.role = 0 := by
    have : u.twn = s.twn := hsu.toWithin.frame .twn (by decide)
    change u.twn.role = 0
    rw [this, hsolo]
  have hshadow := ParkTold.writeShadow husolo hpark
  have hshadow_solo : (Machine.writeShadow q (u.modQu q (parked 1 0xFFFF))).twn.role = 0 := by
    rw [show (Machine.writeShadow q (u.modQu q (parked 1 0xFFFF))).twn = (u.modQu q (parked 1 0xFFFF)).twn from
      hshadow.toWithin.frame .twn (by decide), husolo]
  have htold := hshadow.trans (.stateVector hshadow_solo)
  rw [htake, hchange]
  have hall : Within (.que :: .xlt :: events) s (u.modQu q (parked 1 0xFFFF)) := hsu.toWithin.step State.modQu_within
  obtain ⟨r', n', htq⟩ := htold.told
  refine ⟨hall.trans htold.toWithin, ?_, ?_, (hraised.within State.modQu_within).within htold.toWithin, fun hidle => htold.idle ?_⟩
  · rw [htq]
    exact hpark
  · rw [htq, qu_modQu_same]
    rfl
  · exact (hsu.idle hidle).modQu ((hsu.idle hidle).qu q)

/-- A walk that ends in no leaf parks the queue that waits for it (R369, R376). -/
theorem walkComplete_faults {q : QueueId} {asid : Fin 256} {vpn : BitVec 36} {es : List (BitVec 64)} {k l : Nat}
    (hsolo : s.twn.role = 0) (hidle : ReadsIdle s) (hfault : walkEntries (4096 * vpn.toNat) 4 es = .inl (k, l))
    (hwalks : s.xlt.walks = [waitingFor asid vpn q 1]) (hruns : (asid.val, vpn.toNat) ∈ s.xlt.walking)
    (hst : (s.qu q).st = 1) (hctx : (s.qu q).context = []) (hrec : recordWaits s q = false) :
    Completes (.walkComplete asid vpn es false) s fun t =>
      (t.qu q).st = 3 ∧ (t.qu q).park = some ⟨1, 0xFFFF⟩ ∧ Raised s t 0x0902 [q, k, 1, 0xFFFF, 0] ∧
      OnlyChanges (.xlt :: .que :: events) s t := by
  have hexec := exec_walkComplete (es := es) hwalks hruns hsolo
  rw [hfault] at hexec
  dsimp only at hexec
  obtain ⟨u, hu⟩ : ∃ u, (walkRead asid vpn q es s).modXlt (fun t => { t with walks := t.walks.filter fun w => !waitsFor asid vpn.toNat w }) = u :=
    ⟨_, rfl⟩
  obtain ⟨v, hv⟩ : ∃ v, forEach ((tableReads (4096 * vpn.toNat) 4 (rootOf s asid) es).drop 1)
    (fun a s => s.when s.masters fun s => s.send (.hostRead 3 q a 8)) s = v := ⟨_, rfl⟩
  have hsv : Within [.out] s v := hv ▸ (Within.forEach fun _ _ => .when State.send_within)
  have hread : walkRead asid vpn q es s = v.modXlt fun t => { t with walking := t.walking.filter (· != (asid.val, vpn.toNat)) } := by
    rw [walkRead, hv]
  have hsu : Within (.que :: .xlt :: events) s u := by
    rw [← hu, hread]
    exact (hsv.mono.step State.modXlt_within).step State.modXlt_within
  have hwaiting : u.xlt.waiting = s.xlt.waiting := by
    rw [← hu, hread]
    change v.xlt.waiting = _
    rw [show v.xlt = s.xlt from hsv.frame .xlt (by decide)]
  have hque : u.que = s.que := by
    rw [← hu, hread]
    exact hsv.frame .que (by decide)
  have hpin : u.pin = s.pin := by
    rw [← hu, hread]
    exact hsv.frame .pin (by decide)
  have htwn : u.twn = s.twn := hsu.frame .twn (by decide)
  have huq : u.qu q = s.qu q := qu_of_que hque q
  obtain ⟨hw, hst', hpark, hraised, hidle'⟩ := takeFault_parks (s := u) (q := q) (htwn ▸ hsolo) (huq ▸ hst) (huq ▸ hctx)
    (by rw [recordWaits, hwaiting]; exact hrec) k l (4096 * vpn.toNat)
  rw [hu] at hexec
  change exec (.walkComplete asid vpn es false) s = .next (startWalks (serveReads (takeFault q 1 0xFFFF k l (4096 * vpn.toNat) u))) at hexec
  rw [serveReads_idle (hidle' (hidle.of_eq hque hpin))] at hexec
  have hkept : (startWalks (takeFault q 1 0xFFFF k l (4096 * vpn.toNat) u)).qu q = (takeFault q 1 0xFFFF k l (4096 * vpn.toNat) u).qu q :=
    qu_of_que (startWalks_within.frame .que (by decide)) q
  refine ⟨_, hexec, by rw [hkept, hst'], by rw [hkept, hpark], (hraised.before hsu).within startWalks_within, ?_⟩
  exact ((((hsu.mono (l := .xlt :: .que :: events)).step hw).step startWalks_within)).frame

/-! ### Walks that start -/

/-- A fetch whose page is not in the TLB starts the page's walk (R365, R368). -/
theorem descriptorFetch_misses {q : QueueId} {n va : Nat} (hsolo : s.twn.role = 0) (hmasters : s.masters = true)
    (hst : (s.qu q).st = 1) (hbypass : (s.qu q).bypass = false) (hfetch : (s.qu q).fetching = 0)
    (hn : fetchCount s.pci.maxRead (s.qu q) = n) (hpos : 0 < n) (hva : (s.qu q).fetchVa = va) (hlow : va + 32 * n ≤ 2 ^ 48)
    (hspace : s.regB (asReg (s.qu q).asid) 0 = true) (hmiss : tlbFind s (s.qu q).asid va = none) (hwalks : s.xlt.walks = [])
    (hwalking : s.xlt.walking = []) (hfilling : s.xlt.filling = []) (htags : hostReads s < tagCap s 1) :
    Completes (.descriptorFetch q false) s fun t =>
      t.xlt = { s.xlt with miss := s.xlt.miss.add 1, walking := [((s.qu q).asid, va / 4096)],
                           walks := [{ asid := (s.qu q).asid, vpn := va / 4096, queue := q, access := 1, cid := 0xFFFF, va := va }] } ∧
      t.out = s.out ++ [.hostRead 3 q (rootOf s (s.qu q).asid + 8 * (va / 4096 / 2 ^ 27 % 512)) 8] ∧
      OnlyChanges [.xlt, .out] s t := by
  subst hn hva
  have hexec : exec (.descriptorFetch q false) s = .next (tryFetch q s) := rfl
  have hwait : Machine.translate q (s.qu q).fetchVa (32 * fetchCount s.pci.maxRead (s.qu q)) false s = (.wait, s) := by
    unfold Machine.translate
    dsimp only
    rw [hbypass, if_neg (by decide), if_neg (by omega), hspace, if_neg (by decide), hmiss]
  obtain ⟨w, hw⟩ : ∃ w : Walk, w = { asid := (s.qu q).asid, vpn := (s.qu q).fetchVa / 4096, queue := q, access := 1, cid := 0xFFFF, va := (s.qu q).fetchVa } :=
    ⟨_, rfl⟩
  obtain ⟨u, hu⟩ : ∃ u, (s.modXlt fun t => { t with miss := t.miss.add 1, walks := t.walks ++ [w] }) = u := ⟨_, rfl⟩
  have huwalks : u.xlt.walks = [w] := by
    rw [← hu]
    exact congrArg (· ++ [w]) hwalks
  have huwalking : u.xlt.walking = [] := by rw [← hu]; exact hwalking
  have hufilling : u.xlt.filling = [] := by rw [← hu]; exact hfilling
  have hutags : hostReads u < tagCap u 1 := by rw [← hu]; exact htags
  have hroom : ¬ min 16 (tagCap u 1 - hostReads u) ≤ runningWalks u := by
    rw [runningWalks, huwalking]
    simp only [List.length_nil]
    omega
  have hstart : startWalks u = (u.send (.hostRead 3 q (rootOf u w.asid + 8 * (w.vpn / 2 ^ 27 % 512)) 8)).modXlt fun t =>
      { t with walking := t.walking ++ [(w.asid, w.vpn)] } := by
    have husolo : u.twn.role = 0 := by rw [← hu]; exact hsolo
    have humasters : u.masters = true := by rw [← hu]; exact hmasters
    unfold startWalks
    rw [if_neg (by rw [husolo]; decide), huwalks, forEach_cons, forEach_nil]
    dsimp only
    rw [if_neg (by simp [huwalking, hufilling]; omega)]
    rw [show u.when u.masters _ = _ from if_pos humasters, hw]
  have hfor : translateFor 1 q 0xFFFF (s.qu q).fetchVa (32 * fetchCount s.pci.maxRead (s.qu q)) false s = (.wait, startWalks u) := by
    unfold Machine.translateFor
    rw [hwait]
    dsimp only
    rw [hwalks, if_neg (by simp), ← hu, hw]
  have htry : tryFetch q s = startWalks u := by
    unfold tryFetch
    dsimp only
    rw [if_pos ⟨Or.inl hst, hfetch, hpos, by rw [hsolo]; decide⟩, hfor]
  rw [htry, hstart] at hexec
  refine ⟨_, hexec, ?_, ?_, ?_⟩
  · change { u.xlt with walking := u.xlt.walking ++ [(w.asid, w.vpn)] } = _
    rw [← hu, hw]
    simp [State.modXlt, hwalks, hwalking]
  · rw [← hu, hw]
    rfl
  · have hsu : Within [.xlt, .out] s u := hu ▸ State.modXlt_within.mono
    exact ((hsu.step State.send_within).step State.modXlt_within).frame

end

/-- Settles O36, by the walk that fills or faults, the walk that starts, and the invalidations' scopes. -/
theorem walksAndInvalidations : Obligations.WalksAndInvalidations := by
  unfold Obligations.WalksAndInvalidations
  refine ⟨fun s asid vpn hsolo hmasters hdbg hque => ⟨fun es size ppn r wr q hleaf hwalks hruns =>
      walkComplete_fills hsolo hmasters ⟨hque, hdbg⟩ hleaf hwalks hruns,
    fun es k l q hfault hwalks hruns hst hctx hrec => walkComplete_faults hsolo ⟨hque, hdbg⟩ hfault hwalks hruns hst hctx hrec,
    fun q n va hst hbypass hfetch hn hpos hva hlow hspace hmiss hwalks hwalking hfilling htags =>
      descriptorFetch_misses hsolo hmasters hst hbypass hfetch hn hpos hva hlow hspace hmiss hwalks hwalking hfilling htags⟩,
    fun s who hsolo hnone => ⟨?_, fun asid => ?_, fun asid n va hva => ?_⟩, fun s who asid hsolo hfull => ?_,
    fun s v hsolo hinv hover hretries => exec_invalidationComplete hsolo hinv hover hretries, fun s hwait => ?_⟩
  · obtain ⟨htlb, hlen, hframe⟩ := invCommand_first hnone 1 0 0
    refine ⟨_, exec_invAll who hsolo, ?_, hlen, hframe⟩
    rw [htlb]
    simp [inScope, asked]
  · obtain ⟨htlb, hlen, hframe⟩ := invCommand_first hnone 2 asid 0
    refine ⟨_, exec_invAsid who asid hsolo, ?_, hlen, hframe⟩
    rw [htlb]
    rfl
  · obtain ⟨htlb, hlen, hframe⟩ := invCommand_first hnone 3 asid n.toNat
    refine ⟨_, exec_invRange who asid n hsolo, fun e => ?_, hlen, hframe⟩
    rw [htlb, ← hva]
    have hscope : ∀ e, inScope (asked s 3 asid n.toNat) e = true ↔ e.asid = asid.val ∧
        e.vpn * 2 ^ e.size < (s.reg 0x9_0020).toNat + s.regF 0x9_0024 0 16 * 2 ^ 32 + (n.toNat + 1) * 4096 ∧
        (s.reg 0x9_0020).toNat + s.regF 0x9_0024 0 16 * 2 ^ 32 < (e.vpn + 1) * 2 ^ e.size := fun e => by
      simp only [inScope, asked, Bool.and_eq_true, beq_iff_eq, and_assoc]
      exact and_congr_right' (and_congr decide_eq_true_iff decide_eq_true_iff)
    rw [List.mem_filter, ← hscope e, Bool.not_eq_true, Bool.not_eq_true']
  · refine ⟨_, exec_invAsid who asid hsolo, ?_⟩
    rw [invCommand_full hfull]
    exact ⟨raised_raise .., raise_within.frame⟩
  · refine ⟨s, ?_, Within.refl.frame⟩
    have hexec : exec .invalidationComplete s = execInvalidationComplete s := rfl
    unfold execInvalidationComplete at hexec
    rw [hwait] at hexec
    exact hexec

end Sys2Proof

/-! The fault ring, ring writes tried again and descriptors abandoned (R378 to R395). -/

namespace Sys2Proof

open Sys2Proof.Machine

section
variable {s : State}

/-- A record written, and the ring's producer index a step further (R384). -/
def recordTaken (s : State) (rest : List FaultRec) (t : Xlt) : Xlt :=
  { t with waiting := rest, frPi := (t.frPi + 1) % (2 * frN s), fseq := (t.fseq + 1) % 2 ^ 32 }

/-- A queue that nothing waits for is not driven again. -/
theorem madeAgain_none {q : Nat} (h : ∀ w ∈ s.xlt.later, w.queue ≠ q) : madeAgain q s = s := by
  have hmine : s.xlt.later.filter (fun w => w.queue == q) = [] := by
    rw [List.filter_eq_nil_iff]
    exact fun w hw => by simpa using h w hw
  have hkept : s.xlt.later.filter (fun w => w.queue != q) = s.xlt.later := by
    rw [List.filter_eq_self]
    exact fun w hw => by simpa using h w hw
  unfold madeAgain
  dsimp only
  rw [hmine, forEach_nil]
  unfold State.modXlt
  dsimp only
  rw [hkept]

theorem faultRecordWrite_writes (hsolo : s.twn.role = 0) (hmasters : s.masters = true) {r : FaultRec} {rest : List FaultRec}
    (hwaiting : s.xlt.waiting = r :: rest) (hon : s.regB 0x9_0004 31 = true) (hsilent : s.regB 0x9_0004 30 = false)
    (hroom : frFull s = false) (hok : s.xlt.frErr = false) (hlater : ∀ w ∈ s.xlt.later, w.queue ≠ r.queue) :
    Completes (.faultRecordWrite false) s fun t =>
      t.out = s.out ++ [.hostWrite 3 r.queue (ringBase (frBase s &&& 0xFFFF_FFFF_FFFF_FE00) + 32 * (s.xlt.frPi % frN s)) (faultBytes s r)] ∧
      t.xlt = { s.xlt with waiting := rest, frPi := (s.xlt.frPi + 1) % (2 * frN s), fseq := (s.xlt.fseq + 1) % 2 ^ 32 } ∧
      OnlyChanges [.xlt, .out] s t := by
  have hexec : exec (.faultRecordWrite false) s = execFaultRecordWrite false s := rfl
  unfold execFaultRecordWrite at hexec
  rw [hwaiting] at hexec
  dsimp only at hexec
  rw [hon, hroom, hok, if_neg (by decide), if_neg (by decide), ringWrite_solo hsolo hmasters] at hexec
  obtain ⟨u, hu⟩ : ∃ u, (s.send (.hostWrite 3 r.queue (ringBase (frBase s &&& 0xFFFF_FFFF_FFFF_FE00) + 32 * (s.xlt.frPi % frN s))
      (faultBytes s r))).modXlt (recordTaken s rest) = u := ⟨_, rfl⟩
  have hvector : xltVector r.queue u = u := by
    have hoff : u.regB 0x9_0004 30 = false := by rw [← hu]; exact hsilent
    unfold xltVector State.when
    rw [hoff]
    rfl
  change exec (.faultRecordWrite false) s = .next (madeAgain r.queue (xltVector r.queue ((s.send (.hostWrite 3 r.queue
    (ringBase (frBase s &&& 0xFFFF_FFFF_FFFF_FE00) + 32 * (s.xlt.frPi % frN s)) (faultBytes s r))).modXlt (recordTaken s rest)))) at hexec
  rw [hu, hvector, madeAgain_none (by rw [← hu]; exact hlater)] at hexec
  subst hu
  exact ⟨_, hexec, rfl, rfl, ((State.send_within.mono (l := [.xlt, .out])).step State.modXlt_within).frame⟩

/-- A ring write of the shadow is tried again (R388). -/
theorem ringWriteRetry_shadow {q : QueueId} (h : HostDirect s q) (hretries : (s.qu q).retries = [5]) (htold : (s.qu q).retryTold = false) :
    Completes (.ringWriteRetry q) s fun t =>
      Raised s t 0x0906 [q, 5] ∧ (t.qu q).retries = [] ∧
      .hostWrite 2 q (s.qu q).setup.sha.toNat (leBytes 8 (shadowValue (s.qu q))) ∈ t.out ∧ OnlyChanges (.que :: events) s t := by
  have hexec : exec (.ringWriteRetry q) s = .next (retryWrite q s) := rfl
  obtain ⟨u, hu⟩ : ∃ u, raise 0x0906 [q, 5] (s.modQu q fun x => { x with retryTold := true }) = u := ⟨_, rfl⟩
  have huq : u.qu q = { s.qu q with retryTold := true } := by
    rw [← hu, qu_of_que (raise_que ..), qu_modQu_same]
  have hsu : Within (.que :: events) s u := hu ▸ State.modQu_within.mono.step raise_within
  have hraised : Raised s u 0x0906 [q, 5] := by
    rw [← hu]
    have : Within [.que] s (s.modQu q fun x => { x with retryTold := true }) := State.modQu_within
    exact (raised_raise ..).before this
  have hdirect : HostDirect u q := by
    refine ⟨?_, ?_, by rw [huq]; exact h.bypass⟩
    · rw [← hu, raise_twn]
      exact h.solo
    · rw [← hu, State.masters, State.twinStart, raise_twn, raise_lys, raise_cfg]
      exact h.masters
  have htried : (shadowTried q u).qu q = { u.qu q with retries := [] } := by
    have hmem : (u.qu q).retries = [5] := by rw [huq]; exact hretries
    unfold shadowTried
    rw [hmem, if_pos (by decide), qu_modQu_same, hmem]
    rfl
  have hretry : retryWrite q s = (shadowTried q u).send (.hostWrite 2 q (s.qu q).setup.sha.toNat (leBytes 8 (shadowValue (s.qu q)))) := by
    have hwrite := hdirect.writeShadow
    rw [huq] at hwrite
    unfold retryWrite
    rw [hretries, htold]
    dsimp only
    rw [if_neg (by decide), if_pos (by decide), if_neg (by decide), hu, hwrite]
    rfl
  rw [hretry] at hexec
  refine ⟨_, hexec, (hraised.within shadowTried_within).within State.send_within, ?_, ?_, ?_⟩
  · change ((shadowTried q u).qu q).retries = []
    rw [htried]
  · change _ ∈ (shadowTried q u).out ++ [_]
    simp
  · exact ((hsu.step shadowTried_within).step State.send_within).frame

/-! ### Abandoning -/

/-- A parked queue that goes on (R377). -/
def unparked (x : Queue) : Queue := { x with park := none, context := x.context.map fun d => { d with stopped := false } }

theorem qactWord_fields {q : Nat} (hq : q < 256) : fld (mkFld 30 2 1 ||| mkFld 0 8 q) 30 2 = 1 ∧ fld (mkFld 30 2 1 ||| mkFld 0 8 q) 0 8 = q := by
  rw [fld_or, fld_or, fld_mkFld_same _ _ _ (by decide), fld_mkFld_above 0 8 q 30 2 (by decide) (by decide),
    fld_mkFld_below 30 2 1 0 8 (by decide) (by decide), fld_mkFld_same _ _ _ (by decide)]
  refine ⟨by decide, ?_⟩
  simpa using Nat.mod_eq_of_lt hq

theorem abandon_ends (who : Requester) {q : QueueId} {p : Park} {d : Desc} (h : HostDirect s q) (hst : (s.qu q).st = 3)
    (hown : (s.qu q).ownerPark = false) (hpark : (s.qu q).park = some p) (haccess : p.access = 2 ∨ p.access = 3)
    (hctx : (s.qu q).context = [d]) (hid : d.id = p.cid) (hopc : d.opc ≠ 5) (hended : d.ended = none) :
    Completes (.abandon who q) s fun t =>
      descEnded t q d.raw 0x12 (restartOf s q d) ∧ (t.qu q).st = 1 ∧ Raised s t 0x0905 [q, d.cid, restartOf s q d] ∧ Raised s t 0x0904 [q, 1] ∧
      OnlyChanges (.que :: events) s t := by
  obtain ⟨hcode, hqueue⟩ := qactWord_fields q.isLt
  have hgood : badXlt s 0x9_0058 (mkFld 30 2 1 ||| mkFld 0 8 q) = false := by
    have hany : (s.qu q).park.any (fun p => p.access == 2 || p.access == 3) = true := by
      rw [hpark]
      simpa using haccess
    change (!(fld (mkFld 30 2 1 ||| mkFld 0 8 q) 30 2 == 1 && (s.qu (fld (mkFld 30 2 1 ||| mkFld 0 8 q) 0 8)).st == 3 &&
      (s.qu (fld (mkFld 30 2 1 ||| mkFld 0 8 q) 0 8)).park.any fun p => p.access == 2 || p.access == 3)) = false
    rw [hcode, hqueue, hst, hany]
    rfl
  have hexec : exec (.abandon who q) s = .next (abandonQueue q s) := by
    have hwrite := writeReg_qact who _ s hgood h.solo
    rw [hqueue] at hwrite
    exact congrArg Host.Outcome.next hwrite
  obtain ⟨u, hu⟩ : ∃ u, raise 0x0905 [q, d.cid, restartOf s q d] (endDesc q d.id 0x12 (restartOf s q d) s) = u := ⟨_, rfl⟩
  have huctx : (u.qu q).context = [descDone 0x12 (restartOf s q d) d] := by
    rw [← hu, qu_of_que (raise_que ..), endDesc_single hctx hended]
  have hfields : ∃ c, u.qu q = { s.qu q with context := c } := by
    rw [← hu, qu_of_que (raise_que ..), endDesc, qu_modQu_same]
    exact ⟨_, rfl⟩
  obtain ⟨c, huq⟩ := hfields
  have hsu : Within (.que :: events) s u := hu ▸ endDesc_within.mono.step raise_within
  have hraised : Raised s u 0x0905 [q, d.cid, restartOf s q d] := by
    rw [← hu]
    have : Within [.que] s (endDesc q d.id 0x12 (restartOf s q d) s) := endDesc_within
    exact (raised_raise ..).before this
  have hrun : (unparked (u.qu q)).st = 1 := by
    rw [huq]
    unfold Queue.st unparked at *
    grind
  have hust : (u.qu q).st = 3 := by rw [huq]; exact hst
  obtain ⟨v, hv⟩ : ∃ v, raise 0x0904 [q, 1] u = v := ⟨_, rfl⟩
  have hvq : v.qu q = u.qu q := by rw [← hv]; exact qu_of_que (raise_que ..) q
  have hsv : Within (.que :: events) s v := hv ▸ hsu.step raise_within
  have hdone : abandonQueue q s = changeState q unparked v := by
    have hfind : (s.qu q).desc p.cid = some d := by
      rw [Queue.desc, hctx, List.find?_cons_of_pos]
      simp [hid]
    unfold abandonQueue
    dsimp only
    rw [hpark]
    dsimp only
    rw [hfind]
    dsimp only
    rw [if_neg hopc, hu]
    change changeState q unparked (raise 0x0904 [q, (unparked (u.qu q)).st] u) = _
    rw [hrun, hv]
  have hdirect : HostDirect (v.modQu q unparked) q := by
    refine ⟨?_, ?_, ?_⟩
    · change v.twn.role = 0
      rw [show v.twn = s.twn from hsv.frame .twn (by decide), h.solo]
    · change v.masters = true
      have htwn : v.twn = s.twn := hsv.frame .twn (by decide)
      have hlys : v.lys = s.lys := hsv.frame .lys (by decide)
      have hcfg : v.cfg = s.cfg := hsv.frame .cfg (by decide)
      rw [State.masters, State.twinStart, htwn, hlys, hcfg]
      exact h.masters
    · rw [qu_modQu_same, hvq, huq]
      exact h.bypass
  have htold := QueueTold.shadow_vector hdirect
  obtain ⟨r, n, hq⟩ := htold.told
  rw [qu_modQu_same, hvq] at hq
  rw [hdone, changeState_running (by rw [hvq, hust]; decide) (by rw [hvq]; exact hrun)] at hexec
  have hmod : Within [.que] v (v.modQu q unparked) := State.modQu_within
  refine ⟨_, hexec, ⟨{ descDone 0x12 (restartOf s q d) d with stopped := false }, ?_, rfl, rfl⟩, ?_, ?_, ?_, ?_⟩
  · rw [hq]
    change (u.qu q).context.map _ = _
    rw [huctx]
    rfl
  · rw [hq]
    exact hrun
  · exact (((hraised.within (hv ▸ raise_within : Within events u v)).within hmod).within htold.toWithin)
  · have hlast : Raised s v 0x0904 [q, 1] := by
      rw [← hv]
      exact (raised_raise ..).before hsu
    exact (hlast.within hmod).within htold.toWithin
  · exact ((hsv.step hmod).step htold.toWithin).frame

/-! ### The transaction tags in use -/

theorem exec_taguse0Read (who : Requester) : exec (.taguse0Read who) s =
    .next (reply who 0x9_0040 (readLive (Requester.code who) s 0x9_0040) (holdCapture (Requester.code who) 0x9_0044 (tagUse s).2 s)) := by
  have hopen : accessStopped s 0x9_0040 = false := accessStopped_out s _ (by omega)
  have hexec : exec (.taguse0Read who) s = .next (read32 who 0x9_0040 s) := rfl
  rw [hexec]
  unfold read32
  rw [hopen, if_neg (by decide)]
  rfl

end

/-- Settles O37, by the record written, the consumer read again, the shadow written again and the abandoned descriptor. -/
theorem faultRingTakesRecords : Obligations.FaultRingTakesRecords := by
  intro s hsolo hmasters
  refine ⟨fun r rest hwaiting hon hsilent hroom hok hlater => faultRecordWrite_writes hsolo hmasters hwaiting hon hsilent hroom hok hlater,
    fun v hwaiting htag => ?_, fun rec hwaiting htag => ?_, fun who val hoff => ?_,
    fun q hretries htold hbypass => ringWriteRetry_shadow ⟨hsolo, hmasters, hbypass⟩ hretries htold,
    fun who q p d hst hown hpark haccess hctx hid hopc hended hbypass _ =>
      abandon_ends who ⟨hsolo, hmasters, hbypass⟩ hst hown hpark haccess hctx hid hopc hended, fun who => ?_⟩
  · have hexec : exec (.faultConsumerReread (some v)) s = execFaultConsumerReread (some v) s := rfl
    unfold execFaultConsumerReread at hexec
    dsimp only at hexec
    rw [if_neg (by simpa using hwaiting), if_neg (by rw [htag]; simp), show s.when s.masters _ = _ from if_pos hmasters] at hexec
    exact ⟨_, hexec, rfl, rfl, (((State.send_within.mono (l := [.xlt, .out])).step State.modXlt_within).step State.modXlt_within).frame⟩
  · have hexec : exec (.faultConsumerReread rec) s = execFaultConsumerReread rec s := rfl
    unfold execFaultConsumerReread at hexec
    dsimp only at hexec
    rw [if_neg (by simpa using hwaiting), if_pos ⟨by rw [hsolo]; decide, by rw [htag]; rfl⟩] at hexec
    exact ⟨_, hexec, rfl, State.modXlt_within.frame⟩
  · have hwrite := writeReg_fctrl who (val ||| mkBit 31 true) s hsolo
    have hstart : fctrlWritten (s.reg 0x9_0004) (val ||| mkBit 31 true) (storeReg 0x9_0004 (val ||| mkBit 31 true) s) =
        (storeReg 0x9_0004 (val ||| mkBit 31 true) s).modXlt fun t => { t with frPi := 0, fseq := 0, frCi := 0, frErr := false } := by
      have hoff' : bit (s.reg 0x9_0004) 31 = false := hoff
      unfold fctrlWritten
      rw [bit_enable, hoff']
      rfl
    refine ⟨_, congrArg Host.Outcome.next (hwrite.trans hstart), storeReg_reg_same 0x9_0004 _ s, fun o ho => storeReg_reg_other ho _ s, rfl, ?_⟩
    exact ((storeReg_within.mono (l := [.regs, .xlt])).step State.modXlt_within).frame
  · exact ⟨_, exec_taguse0Read who, rfl, findHalf_cons ..,
      ((holdCapture_within.mono (l := [.captures, .out])).step reply_within).frame⟩

end Sys2Proof

/-! Bundles, their links, and the sessions that encrypt them (R420 to R430). -/

namespace Sys2Proof

open Sys2Proof.Machine

@[simp] theorem bun_modBun_same (s : State) (b : Nat) (f : Bundle → Bundle) : (s.modBun b f).bun b = f (s.bun b) := by
  simp [State.modBun, State.bun]

theorem bun_modBun_other (s : State) {b p : Nat} (f : Bundle → Bundle) (h : p ≠ b) : (s.modBun b f).bun p = s.bun p := by
  simp [State.modBun, State.bun, tabGet_tabMod_other, h]

@[simp] theorem bun_modLink_same (s : State) (b : Nat) (f : Link → Link) :
    (s.modLink b f).bun b = { s.bun b with link := f (s.bun b).link } := bun_modBun_same ..

theorem bun_of_gvl {s t : State} (h : t.gvl = s.gvl) (b : Nat) : t.bun b = s.bun b := by
  rw [State.bun, h, State.bun]

@[simp] theorem sess_modSess_same (s : State) (b : Nat) (rx : Bool) (f : Session → Session) :
    (s.modSess b rx f).sess b rx = f (s.sess b rx) := by
  simp [State.modSess, State.modCry, State.sess]

theorem sess_of_cry {s t : State} (h : t.cry = s.cry) (b : Nat) (rx : Bool) : t.sess b rx = s.sess b rx := by
  rw [State.sess, h, State.sess]

@[simp] theorem key_modKey_same (s : State) (k : Nat) (f : KeyEntry → KeyEntry) : (s.modKey k f).key k = f (s.key k) := by
  simp [State.modKey, State.modCry, State.key]

theorem key_of_cry {s t : State} (h : t.cry = s.cry) (k : Nat) : t.key k = s.key k := by
  rw [State.key, h, State.key]

section
variable {s : State} {b : Nat}

/-- A table entry whose check passes is used as it stands (R404). -/
theorem useKey_whole {k : Nat} (h : (s.key k).dbl = false) : useKey k s = s := by
  unfold useKey
  rw [if_neg (by simp [h])]

/-! ### A session starts -/

/-- A bundle with nothing to send sends nothing. -/
theorem pump_empty (h : (s.bun b).link.waiting = []) : pump b s = s.modLink b fun l => { l with waiting := [] } := by
  unfold pump
  rw [h]
  rfl

/-- The session of a direction as its nonces start it (R421). -/
def sessionStarted (tags : Nat) (key : List Byte) (x : Session) : Session :=
  { x with running := true, counter := tags, fails := 0, own := none, peer := none, key := key }

/-- One more session of a bundle (Table Crypto-13). -/
def sessionCounted (b : Nat) (c : Cry) : Cry := { c with started := tabMod 0 c.started b fun n => (n + 1) % 65536 }

/-- How many records wait for their acknowledgement. -/
def tagsWaiting (s : State) (b : Nat) : Nat := ((s.bun b).link.retry.filter fun f => fTy f == 0xA).length

/-- A session with both nonces taken (R421). -/
def sessionUp (b : Nat) (tx : Bool) (own peer : BitVec 128) (s : State) : State :=
  (s.modSess b (!tx) (sessionStarted (if tx then tagsWaiting s b else 0)
      (sessionKey (s.key (s.sess b (!tx)).index).key (if tx then own else peer) (if tx then peer else own)))).modCry (sessionCounted b)

theorem sessionEstablish_starts (b : BundleId) (tx : Bool) {own peer : BitVec 128} {ss : Session} (hss : s.sess b (!tx) = ss)
    (hown : ss.own = some own) (hpeer : ss.peer = some peer) (hen : ss.enabled = true) (hidle : ss.running = false)
    (hup : (s.bun b).st = 6) (hhost : s.inReset 5 = false) (hdbl : (s.key ss.index).dbl = false) (hkey : linkKeyOk s ss.index = true)
    (hwaiting : (s.bun b).link.waiting = []) (hheld : tx = true ∨ (s.bun b).link.record = []) :
    Completes (.sessionEstablish b tx) s fun t =>
      t.sess b (!tx) = { ss with running := true, fails := 0, own := none, peer := none,
                                 counter := if tx then ((s.bun b).link.retry.filter fun f => fTy f == 0xA).length else 0,
                                 key := sessionKey (s.key ss.index).key (if tx then own else peer) (if tx then peer else own) } ∧
      tabGet 0 t.cry.started b = (tabGet 0 s.cry.started b + 1) % 65536 ∧
      (t.bun b).link.retry = (if tx then recount (s.bun b).link.retry else (s.bun b).link.retry) ∧ OnlyChanges [.cry, .gvl] s t := by
  subst hss
  have hexec : exec (.sessionEstablish b tx) s = execSessionEstablish b tx s := rfl
  unfold execSessionEstablish at hexec
  dsimp only at hexec
  rw [hown, hpeer] at hexec
  dsimp only at hexec
  rw [if_pos ⟨hen, by rw [hidle]; rfl, hup, by rw [hhost]; rfl⟩, useKey_whole hdbl, hkey, if_neg (by decide)] at hexec
  obtain ⟨u, hu⟩ : ∃ u, sessionUp b tx own peer s = u :=
    ⟨_, rfl⟩
  have hsess : u.sess b (!tx) = sessionStarted (if tx then tagsWaiting s b else 0)
      (sessionKey (s.key (s.sess b (!tx)).index).key (if tx then own else peer) (if tx then peer else own)) (s.sess b (!tx)) := by
    rw [← hu]
    exact (sess_modSess_same s b (!tx) _ :)
  have hcount : tabGet 0 u.cry.started b = (tabGet 0 s.cry.started b + 1) % 65536 := by
    rw [← hu]
    exact (tabGet_tabMod_same 0 s.cry.started b.val (fun n => (n + 1) % 65536) :)
  have hsu : Within [.cry] s u := hu ▸ State.modSess_within.step State.modCry_within
  have hbun : u.bun b = s.bun b := bun_of_gvl (hsu.frame .gvl (by decide)) b
  change exec (.sessionEstablish b tx) s = .next (pump b (if tx then (sessionUp b tx own peer s).modLink b fun l => { l with retry := recount l.retry }
    else if ((sessionUp b tx own peer s).bun b).link.record.isEmpty then sessionUp b tx own peer s
    else sendNak b ((dropRecord b (sessionUp b tx own peer s)).modLink b fun l => { l with nakSent := false }))) at hexec
  rw [hu] at hexec
  cases tx with
  | true =>
    rw [if_pos rfl] at hexec
    have hempty : ((u.modLink b fun l => { l with retry := recount l.retry }).bun b).link.waiting = [] := by
      rw [bun_modLink_same, hbun]
      exact hwaiting
    rw [pump_empty hempty] at hexec
    refine ⟨_, hexec, hsess, hcount, ?_, ?_⟩
    · rw [bun_modLink_same, bun_modLink_same, hbun]
      rfl
    · exact (((hsu.mono (l := [.cry, .gvl])).step State.modLink_within).step State.modLink_within).frame
  | false =>
    have hrecord : (u.bun b).link.record = [] := by
      rw [hbun]
      simpa using hheld
    rw [if_neg (by decide), hrecord, if_pos (by rfl), pump_empty (by rw [hbun]; exact hwaiting)] at hexec
    refine ⟨_, hexec, hsess, hcount, ?_, ((hsu.mono (l := [.cry, .gvl])).step State.modLink_within).frame⟩
    rw [bun_modLink_same, hbun]
    rfl

/-! ### A key fails -/

/-- A key that a double-bit error has failed (R404). -/
def keyFailed (e : KeyEntry) : KeyEntry := { e with st := 3, kcv := 0, key := [], dbl := false }

/-- The session of a direction as its binding leaves it (R420). -/
def sessionBound (en : Bool) (idx : Nat) (x : Session) : Session :=
  { x with enabled := en, index := idx, running := false, fails := 0, own := none }

theorem recordSend_keyFails (b : BundleId) (aes : Bool) (hrun : (s.sess b false).running = true) (hopen : s.wireOpen b = true)
    (hnext : (nextRecord s b).isEmpty = false) (hactive : s.standby b = false) (hst : (s.key (s.sess b false).index).st ≠ 3)
    (hhost : s.inReset 5 = false) (hen : s.regB (0xA_0200 + 0x10 * b) 31 = true)
    (hidx : s.regF (0xA_0200 + 0x10 * b) 8 6 = (s.sess b false).index) : Completes (.recordSend b aes true) s fun t =>
      (t.sess b false).running = false ∧ (t.key (s.sess b false).index).st = 3 ∧ (t.key (s.sess b false).index).key = [] ∧
      Raised s t 0x0A05 [(s.sess b false).index] ∧ Raised s t 0x0A08 [b, 1, 1] ∧ OnlyChanges (.cry :: events) s t := by
  have hexec : exec (.recordSend b aes true) s = execRecordSend b aes true s := rfl
  unfold execRecordSend at hexec
  dsimp only at hexec
  rw [hrun, hopen, hnext, hactive, if_neg (by decide), if_pos (by simp)] at hexec
  obtain ⟨k, hk⟩ : ∃ k, (s.sess b false).index = k := ⟨_, rfl⟩
  rw [hk] at hst hidx ⊢
  obtain ⟨u, hu⟩ : ∃ u, (spoilKey k s).modKey k keyFailed = u := ⟨_, rfl⟩
  have hsu : Within [.cry] s u := hu ▸ (State.modKey_within : Within [.cry] s (spoilKey k s)).step State.modKey_within
  have hfailed : (u.key k).st = 3 ∧ (u.key k).key = [] ∧ (u.key k).dbl = false := by
    rw [← hu, key_modKey_same]
    exact ⟨rfl, rfl, rfl⟩
  have huse : useKey k (spoilKey k s) = raise 0x0A05 [k] u := by
    have hspoilt : (spoilKey k s).key k = { s.key k with dbl := true } := key_modKey_same ..
    unfold useKey
    rw [hspoilt, if_pos ⟨rfl, hst⟩]
    change raise 0x0A05 [k] ((spoilKey k s).modKey k keyFailed) = _
    rw [hu]
  obtain ⟨v, hv⟩ : ∃ v, (raise 0x0A05 [k] u).modSess b false (sessionBound true k) = v := ⟨_, rfl⟩
  have hsv : Within (.cry :: events) s v := hv ▸ (((hsu.mono (l := .cry :: events)).step raise_within).step State.modSess_within)
  have hraised : Raised s v 0x0A05 [k] := by
    rw [← hv]
    exact ((raised_raise 0x0A05 [k] u).before hsu).within (State.modSess_within (b := b) (rx := false) (f := sessionBound true k))
  have hvkey : v.key k = u.key k := by
    rw [← hv]
    change (raise 0x0A05 [k] u).key k = u.key k
    exact key_of_cry (raise_cry ..) k
  obtain ⟨hkst, hkkey, hkdbl⟩ := hfailed
  have hstart : sessionKeyFails b false s = raise 0x0A08 [b, 1, 1] v := by
    have hreg : ∀ o, (raise 0x0A05 [k] u).reg o = s.reg o := (hsu.mono (l := .cry :: events) |>.step raise_within).frame .regs (by decide)
    have hrst : v.rst = s.rst := hsv.frame .rst (by decide)
    have hhost' : v.inReset 5 = false := by rw [State.inReset, hrst]; exact hhost
    have hbad : linkKeyOk v k = false := by rw [linkKeyOk, hvkey, hkst]; rfl
    have hen' : bit (s.reg (0xA_0200 + 0x10 * b)) 31 = true := hen
    have hidx' : fld (s.reg (0xA_0200 + 0x10 * b)) 8 6 = k := hidx
    unfold sessionKeyFails
    dsimp only
    have hbound : (raise 0x0A05 [k] u).modSess b false (fun x => { x with enabled := true, index := k, running := false, fails := 0, own := none }) = v :=
      hv
    rw [hk, huse]
    unfold startSession
    dsimp only
    rw [hreg, show bit (s.reg (0xA_0200 + 0x10 * b.val)) (if false = true then 30 else 31) = true from hen',
      show fld (s.reg (0xA_0200 + 0x10 * b.val)) (if false = true then 0 else 8) 6 = k from hidx', hbound, hhost', if_neg (by decide),
      useKey_whole (by rw [hvkey, hkdbl]), hbad, if_neg (by decide)]
    rfl
  rw [hstart] at hexec
  refine ⟨_, hexec, ?_, ?_, ?_, hraised.within raise_within, (raised_raise ..).before hsv, (hsv.step raise_within).frame⟩
  · rw [sess_of_cry (raise_cry ..), ← hv, sess_modSess_same]
    rfl
  · rw [key_of_cry (raise_cry ..), hvkey, hkst]
  · rw [key_of_cry (raise_cry ..), hvkey, hkkey]

/-! ### Records -/

/-- A link whose retry buffer has taken a flit (R552, R556). -/
def bufferedIn (l : Link) (f : List Byte) : Link :=
  { l with retry := l.retry ++ [f.take 4 ++ leBytes 2 l.nextSeq ++ f.drop 6],
           nextSeq := (l.nextSeq + 1) % 4096,
           taken := if fTy f = 0xA then l.taken else tabMod 0 l.taken (fVc f) (· + 1) }

theorem forEach_bufferFlit (fs : List (List Byte)) :
    (forEach fs (fun f s => bufferFlit b f s) s).bun b = { s.bun b with link := fs.foldl bufferedIn (s.bun b).link } := by
  induction fs generalizing s with
  | nil => rfl
  | cons f fs ih =>
    have hstep : (bufferFlit b f s).bun b = { s.bun b with link := bufferedIn (s.bun b).link f } :=
      bun_modLink_same s b (bufferedIn · f)
    rw [forEach_cons, ih, hstep]
    rfl

/-- Buffering leaves what waits and what has been received. -/
theorem bufferedIn_kept (fs : List (List Byte)) (l : Link) :
    (fs.foldl bufferedIn l).waiting = l.waiting ∧ (fs.foldl bufferedIn l).ackVal = l.ackVal := by
  induction fs generalizing l with
  | nil => exact ⟨rfl, rfl⟩
  | cons f fs ih => exact ih (bufferedIn l f)

theorem bufferedIn_length (fs : List (List Byte)) (l : Link) :
    (fs.foldl bufferedIn l).retry.length = l.retry.length + fs.length := by
  induction fs generalizing l with
  | nil => rfl
  | cons f fs ih =>
    have hone : (bufferedIn l f).retry.length = l.retry.length + 1 := by simp [bufferedIn]
    rw [List.foldl_cons, ih, hone, List.length_cons]
    omega

theorem bufferedIn_nextSeq (f : List Byte) (fs : List (List Byte)) (l : Link) :
    ((f :: fs).foldl bufferedIn l).nextSeq = (l.nextSeq + (f :: fs).length) % 4096 := by
  induction fs generalizing f l with
  | nil => rfl
  | cons g fs ih =>
    have hone : (bufferedIn l f).nextSeq = (l.nextSeq + 1) % 4096 := rfl
    rw [List.foldl_cons, ih, hone]
    simp only [List.length_cons]
    omega

/-- A device that mirrors nothing sends the flits as its session seals them (R422, R554). -/
theorem sendWire_alone {flits : List (List Byte)} (hrun : (s.sess b false).running = true) (hlead : s.twn.role ≠ 1) :
    (sendWire b flits s).out = s.out ++ (wireFlits (s.sess b false).key (s.bun b).link.ackVal [] flits).map (Out.flit b) := by
  have hloop : ∀ (fs : List (List Byte)) (u : State), u.twn.role ≠ 1 →
      (forEach fs (fun f s => (s.when (s.twn.role == 1 && !s.twinBundle b) fun s => s.send (.twin 8 f)).send (.flit b f)) u).out =
        u.out ++ fs.map (Out.flit b) := fun fs => by
    induction fs with
    | nil => intro u _; simp [forEach_nil]
    | cons f fs ih =>
      intro u hu
      have hstep : (u.when (u.twn.role == 1 && !u.twinBundle b) fun s => s.send (.twin 8 f)) = u := by
        unfold State.when
        rw [beq_false_of_ne hu]
        rfl
      rw [forEach_cons, hstep, ih (u.send (.flit b f)) hu]
      simp [State.send]
  unfold sendWire
  dsimp only
  rw [hrun, if_pos rfl]
  exact hloop _ _ hlead

/-- The TAG flit that closes a record (R423). -/
def tagFlit (s : State) (b : Nat) : List Byte := mkFlit 0xA (fVc ((nextRecord s b).headD [])) 0 0 0 0 (leBytes 8 (s.sess b false).counter)

/-- The record's flits have left what waits for the retry buffer. -/
def recordBuffered (b : Nat) (s : State) : State :=
  (forEach (nextRecord s b ++ [tagFlit s b]) (fun f s => bufferFlit b f s)
    (s.modLink b fun l => { l with waiting := leaveWaiting (fVc ((nextRecord s b).headD [])) (nextRecord s b).length l.waiting })).modSess b false
      fun x => { x with counter := x.counter + 1 }

theorem recordSend_goes (b : BundleId) (hrun : (s.sess b false).running = true) (hopen : s.wireOpen b = true)
    (hnext : (nextRecord s b).isEmpty = false) (hactive : s.standby b = false) (hcount : (s.sess b false).counter ≠ 2 ^ 64 - 1)
    (hdbl : (s.key (s.sess b false).index).dbl = false) (hsame : s.cry.gcmBad = false) : Completes (.recordSend b false false) s fun t =>
      (t.sess b false).counter = (s.sess b false).counter + 1 ∧
      (t.bun b).link.waiting =
        leaveWaiting (fVc ((nextRecord s b).headD [])) (nextRecord s b).length (s.bun b).link.waiting ∧
      (t.bun b).link.nextSeq = ((s.bun b).link.nextSeq + (nextRecord s b).length + 1) % 4096 ∧
      (t.bun b).link.retry.length = (s.bun b).link.retry.length + (nextRecord s b).length + 1 ∧
      (s.twn.role ≠ 1 → t.out = s.out ++ (wireFlits (s.sess b false).key (s.bun b).link.ackVal []
        ((t.bun b).link.retry.drop (s.bun b).link.retry.length)).map (Out.flit b)) ∧
      OnlyChanges [.cry, .gvl, .out] s t := by
  have hexec : exec (.recordSend b false false) s = execRecordSend b false false s := rfl
  unfold execRecordSend at hexec
  dsimp only at hexec
  rw [hrun, hopen, hnext, hactive, hdbl, if_neg (by decide), if_neg (by decide), if_neg hcount] at hexec
  obtain ⟨v, hv⟩ : ∃ v, s.modLink b (fun l => { l with waiting := leaveWaiting (fVc ((nextRecord s b).headD [])) (nextRecord s b).length l.waiting }) = v :=
    ⟨_, rfl⟩
  obtain ⟨w, hw⟩ : ∃ w, forEach (nextRecord s b ++ [tagFlit s b]) (fun f s => bufferFlit b f s) v = w := ⟨_, rfl⟩
  have hsv : Within [.gvl] s v := hv ▸ State.modLink_within
  have hvw : Within [.gvl] v w := hw ▸ (Within.forEach fun _ _ => bufferFlit_within)
  have hsw : Within [.gvl] s w := hsv.trans hvw
  have hwbun : w.bun b = { v.bun b with link := (nextRecord s b ++ [tagFlit s b]).foldl bufferedIn (v.bun b).link } := by
    rw [← hw]
    exact forEach_bufferFlit _
  have hvbun : (v.bun b).link = { (s.bun b).link with
      waiting := leaveWaiting (fVc ((nextRecord s b).headD [])) (nextRecord s b).length (s.bun b).link.waiting } := by
    rw [← hv, bun_modLink_same]
  obtain ⟨u, hu⟩ : ∃ u, w.modSess b false (fun x => { x with counter := x.counter + 1 }) = u := ⟨_, rfl⟩
  have hsess : u.sess b false = { s.sess b false with counter := (s.sess b false).counter + 1 } := by
    rw [← hu, sess_modSess_same, sess_of_cry (hsw.frame .cry (by decide))]
  have hubun : u.bun b = w.bun b := by rw [← hu]; rfl
  have hgcm : u.cry.gcmBad = false := by
    have hcry : w.cry = s.cry := hsw.frame .cry (by decide)
    rw [← hu]
    change w.cry.gcmBad = false
    rw [hcry, hsame]
  have hsu : Within [.cry, .gvl, .out] s u := (hsw.mono).step (hu ▸ State.modSess_within : Within [.cry] w u)
  have hsend : sendSealed b ((w.bun b).link.retry.drop (s.bun b).link.retry.length) (u.modCry fun c => { c with gcmBad := c.gcmBad || false }) =
      sendWire b ((w.bun b).link.retry.drop (s.bun b).link.retry.length) u := by
    have hstay : (u.modCry fun c => { c with gcmBad := c.gcmBad || false }) = u := by
      unfold State.modCry
      simp only [Bool.or_false]
    rw [hstay]
    unfold sendSealed
    rw [hgcm]
    rfl
  change exec (.recordSend b false false) s = .next (sendSealed b ((recordBuffered b s).bun b |>.link.retry.drop (s.bun b).link.retry.length)
    ((recordBuffered b s).modCry fun c => { c with gcmBad := c.gcmBad || false })) at hexec
  rw [recordBuffered, hv, hw, hu, hubun, hsend] at hexec
  have htw : Within [.out] u (sendWire b ((w.bun b).link.retry.drop (s.bun b).link.retry.length) u) := sendWire_within
  obtain ⟨t, ht⟩ : ∃ t, sendWire b ((w.bun b).link.retry.drop (s.bun b).link.retry.length) u = t := ⟨_, rfl⟩
  have hrunning : (u.sess b false).running = true := by rw [hsess]; exact hrun
  have hout : u.twn.role ≠ 1 → t.out = _ := fun hlead => ht ▸ sendWire_alone hrunning hlead
  rw [ht] at hexec htw
  have htbun : t.bun b = w.bun b := (bun_of_gvl (htw.frame .gvl (by decide)) b).trans hubun
  obtain ⟨hwaiting, hack⟩ := bufferedIn_kept (nextRecord s b ++ [tagFlit s b]) (v.bun b).link
  have hlen := bufferedIn_length (nextRecord s b ++ [tagFlit s b]) (v.bun b).link
  refine ⟨t, hexec, ?_, ?_, ?_, ?_, fun hlead => ?_, (hsu.step htw).frame⟩
  · rw [sess_of_cry (htw.frame .cry (by decide)), hsess]
  · rw [htbun, hwbun]
    refine hwaiting.trans ?_
    rw [hvbun]
  · obtain ⟨f, fs, hcons⟩ : ∃ f fs, nextRecord s b ++ [tagFlit s b] = f :: fs := by
      cases nextRecord s b with
      | nil => exact ⟨_, _, rfl⟩
      | cons f fs => exact ⟨_, _, rfl⟩
    have hseq := bufferedIn_nextSeq f fs (v.bun b).link
    rw [← hcons, List.length_append, List.length_singleton, hvbun] at hseq
    rw [htbun, hwbun, hvbun]
    exact hseq
  · rw [htbun, hwbun]
    refine hlen.trans ?_
    rw [hvbun, List.length_append]
    rfl
  · have hulead : u.twn.role ≠ 1 := by rw [show u.twn = s.twn from hsu.frame .twn (by decide)]; exact hlead
    rw [hout hulead, hubun, htbun, show u.out = s.out from (hu ▸ hsw.frame .out (by decide)), hsess, hwbun]
    have hack' := hack.trans (congrArg Link.ackVal hvbun)
    exact congrArg (fun a => s.out ++ (wireFlits (s.sess b false).key a []
      ((List.foldl bufferedIn (v.bun b).link (nextRecord s b ++ [tagFlit s b])).retry.drop (s.bun b).link.retry.length)).map (Out.flit b)) hack'

end

/-- Settles O38, by the session that starts, the key that fails and the record that goes out. -/
theorem sessionsAndRecords : Obligations.SessionsAndRecords :=
  ⟨fun _ b tx _ _ _ hss hown hpeer hen hidle hup hhost hdbl hkey hwaiting hheld =>
      sessionEstablish_starts b tx hss hown hpeer hen hidle hup hhost hdbl hkey hwaiting hheld,
    fun _ b aes hrun hopen hnext hactive hst hhost hen hidx => recordSend_keyFails b aes hrun hopen hnext hactive hst hhost hen hidx,
    fun _ b hrun hopen hnext hactive hcount hdbl hsame => recordSend_goes b hrun hopen hnext hactive hcount hdbl hsame⟩

end Sys2Proof

/-! The integrity lanes and the rewriting of frames (R489 to R503). -/

namespace Sys2Proof

open Sys2Proof.Machine

section
variable {s : State}

/-! ### The lanes -/

/-- Whether the lane drops the rest of its stratum. -/
def dropping (d : Bool) (i : Integ) : Integ := { i with dropStratum := d }

/-- The lanes one row further (R491, R492). -/
def lanesOn (i : Integ) : Integ :=
  let i := if i.resPos + 1 = 163840 then { i with resPos := 0, laps := i.laps + 1, resLap := 1638, overrun := false, interrupts := 0 }
    else { i with resPos := i.resPos + 1 }
  if i.libPos + 1 = 245760 then { i with libPos := 0, libLap := 2457 } else { i with libPos := i.libPos + 1 }

theorem lanesOn_before {i : Integ} (hres : i.resPos + 1 ≠ 163840) (hlib : i.libPos + 1 ≠ 245760) :
    lanesOn i = { i with resPos := i.resPos + 1, libPos := i.libPos + 1 } := by
  unfold lanesOn
  dsimp only
  rw [if_neg hres, if_neg (by exact hlib)]

theorem modInteg_self {f : Integ → Integ} (h : f s.integ = s.integ) : s.modInteg f = s := by
  rw [State.modInteg, h]

/-- A row of a stratum that is not loaded is passed over. -/
theorem residentRow_unloaded {g : Nat} (hloaded : (s.strat (s.integ.resPos / 320) (s.integ.resPos / 80 % 4)).loaded = false)
    (hmask : (s.strat (s.integ.resPos / 320) (s.integ.resPos / 80 % 4)).failMask = []) :
    ∃ d, residentRow [] g s = s.modInteg (dropping d) := by
  obtain ⟨d, hd⟩ : ∃ d, (if s.integ.resPos % 80 = 0 then s.modInteg (dropping false) else s) = s.modInteg (dropping d) := by
    split
    · exact ⟨false, rfl⟩
    · exact ⟨s.integ.dropStratum, (modInteg_self rfl).symm⟩
  have hloaded' : ((s.modInteg (dropping d)).strat (s.integ.resPos / 320) (s.integ.resPos / 80 % 4)).loaded = false := hloaded
  have hmask' : ((s.modInteg (dropping d)).strat (s.integ.resPos / 320) (s.integ.resPos / 80 % 4)).failMask = [] := hmask
  refine ⟨d, ?_⟩
  unfold residentRow
  dsimp only
  change (if s.integ.resPos % 80 = 0 then s.modInteg (dropping false) else s) = _ at hd
  rw [show (if s.integ.resPos % 80 = 0 then s.modInteg fun i => { i with dropStratum := false } else s) = s.modInteg (dropping d) from hd,
    hloaded', Bool.false_and, Bool.false_and, Bool.false_and, Bool.false_and, if_neg Bool.false_ne_true]
  exact if_neg fun h => h.2.1 hmask'

/-- A slot that is not READY and has no failed row is passed over. -/
theorem libraryRow_unready {g : Nat} (hst : (s.slot (s.integ.libPos / 80)).st ≠ 2) (hfail : s.integ.slotFail = []) :
    libraryRow [] g s = s := by
  have hrow : (if s.integ.libPos % 80 = 0 then s.modInteg fun x => { x with slotFail := [] } else s) = s := by
    split
    · exact modInteg_self (by rw [← hfail])
    · rfl
  unfold libraryRow
  dsimp only
  rw [hrow, if_neg (show ¬((s.slot (s.integ.libPos / 80)).st = 2 ∨ s.integ.slotFail ≠ []) by simp [hst, hfail])]
  exact if_neg fun h => h.2 hfail

theorem exec_scanRowRead {g h : Fin 3} (hrun : lanesRun s = true) :
    exec (.scanRowRead [] [] g h true) s = .next ((libraryRow [] h (residentRow [] g s)).modInteg lanesOn) := by
  have hexec : exec (.scanRowRead [] [] g h true) s = execScanRowRead [] [] g h true s := rfl
  rw [hexec]
  unfold execScanRowRead
  rw [hrun, if_neg (by decide)]
  dsimp only
  rw [if_neg (by simp)]
  rfl

/-- The failure of a row of a stratum that nothing shields (R496, Table Integrity-2). -/
theorem residentReact_collects {c k : Nat} (hquar : (s.strat c k).quar = false) (hlock : (s.col (colOf c)).lock = .off)
    (hlap : (s.strat c k).liveLap = none) (hpaired : s.paired = false) : residentReact c k s = (s, true) := by
  unfold residentReact
  dsimp only
  rw [hquar, if_neg (by decide), hlock, if_neg (by simp), hlap, if_neg (by simp), hpaired]
  split <;> rfl

/-- The failed row of a stratum. -/
def rowFailed (row : Nat) (st : Stratum) : Stratum := { st with failMask := [row] }

/-- What a failing row leaves once its event is raised (R496). -/
def failureTold (c k row : Nat) (s : State) : State :=
  raise 0x0602 [c, k, (s.strat c k).slot, row, b2n (s.isActive c k), 1] (s.modInteg fun i => { i with count602 := i.count602 + 1 })

theorem raise_strat (code : Nat) (fields : List Nat) (c k : Nat) : (raise code fields s).strat c k = s.strat c k := by
  rw [State.strat, raise_chm, State.strat]

theorem residentRow_fails {c k row : Nat} (hpos : s.integ.resPos = 320 * c + 80 * k + row) (hk : k < 4) (hrow : 1 ≤ row ∧ row < 79)
    (hdrop : s.integ.dropStratum = false) (hloaded : (s.strat c k).loaded = true) (hrefill : (s.strat c k).refilling = false)
    (hchecked : (s.strat c k).unchecked = false) (hused : s.fab.retired.contains (s.physOf (colOf c)) = false)
    (hmask : (s.strat c k).failMask = []) (hlap : (s.strat c k).liveLap = none) (hquar : (s.strat c k).quar = false)
    (hlock : (s.col (colOf c)).lock = .off) (hsig : rowSig (s.strat c k).words row ≠ (s.slot (s.strat c k).slot).golden.getD row 0)
    (hgold : (s.slot (s.strat c k).slot).goldBad = false) (hpaired : s.paired = false) (hcheck : s.twn.checking = false) :
    residentRow [] 0 s = (failureTold c k row s).modStrat c k (rowFailed row) := by
  have hc : s.integ.resPos / 320 = c := by omega
  have hkk : s.integ.resPos / 80 % 4 = k := by omega
  have hr : s.integ.resPos % 80 = row := by omega
  have htwn : (failureTold c k row s).twn = s.twn := raise_twn ..
  have hstrat : (failureTold c k row s).strat c k = s.strat c k := raise_strat ..
  have hcol : (failureTold c k row s).col (colOf c) = s.col (colOf c) := raise_col ..
  have hpaired' : (failureTold c k row s).paired = false := by rw [State.paired, htwn]; exact hpaired
  have hreact := residentReact_collects (s := failureTold c k row s) (c := c) (k := k) (by rw [hstrat, hquar]) (by rw [hcol, hlock])
    (by rw [hstrat, hlap]) hpaired'
  unfold residentRow
  dsimp only
  rw [hc, hkk, hr, if_neg (show ¬row = 0 by omega), hloaded, hrefill, hchecked, hused, hdrop, if_neg (show ¬(row = 79 ∧ _) by omega)]
  rw [if_pos (show (true && !false && !false && !false && !false) = true from rfl), if_pos (show ([] : List (Fin 2048)) = [] from rfl), hgold]
  rw [if_neg (show ¬(if false = true then 2 else 0) = 2 by decide), if_neg hsig, if_neg (show ¬(s.strat c k).failMask ≠ [] by rw [hmask]; simp)]
  have hgo : (if (failureTold c k row s).twn.checking = true then failSilent 2 (raise 0x0C07 [1, (failureTold c k row s).twn.role]
      (failureTold c k row s)) else failureTold c k row s) = failureTold c k row s := if_neg (by rw [htwn, hcheck]; decide)
  change (if (residentReact c k (if (failureTold c k row s).twn.checking = true then failSilent 2 (raise 0x0C07
      [1, (failureTold c k row s).twn.role] (failureTold c k row s)) else failureTold c k row s)).2 = true then
    State.modStrat (residentReact c k (if (failureTold c k row s).twn.checking = true then failSilent 2 (raise 0x0C07
      [1, (failureTold c k row s).twn.role] (failureTold c k row s)) else failureTold c k row s)).1 c k (rowFailed row) else _) = _
  rw [hgo, hreact]
  rfl

/-! ### Frame rewrites -/

theorem useGolden_whole {i : Nat} (h : (s.slot i).goldBad = false) : useGolden i s = s :=
  if_neg (by simp [h])

/-- The request taken from the device's queue onto a stream. -/
def rewriteTaken (k : Nat) (r : LibReq) (l : Lib) : Lib := { l with device := [], streams := tabSet none l.streams k (some r) }

/-- The landing rows of a chamber that its stratum does not run in. -/
theorem rewords_inactive {c k : Nat} (f : ImageWords → ImageWords) (h : s.isActive c k = false) :
    rewords c k f s = s.modStrat c k fun st => { st with words := f st.words } :=
  if_neg (by simp [h])

theorem reqTargets_single {r : LibReq} (htargets : r.targets = []) (hlock : (s.col (colOf r.chamber)).lock = .off) :
    reqTargets s r = [r.chamber] := by
  unfold reqTargets
  rw [htargets, if_neg (by simp), hlock, if_neg (by simp)]

theorem frameRewriteStart_writes {r : LibReq} {k : Nat} (hfree : s.freeStream = some k) (hdevice : s.lib.device = [r]) (hop : r.op = 7)
    (htarget : targetFree s r = true) (hlib : s.inReset 2 = false) (htier : s.inReset (tierOf r.chamber) = false)
    (hfence : s.fenced 2 = false) (hfence' : s.fenced (tierOf r.chamber) = false) (htargets : r.targets = [])
    (hrew : (s.strat r.chamber r.stratum).rewriting = true) (hready : (s.slot r.slot).st = 2) (hgold : (s.slot r.slot).goldBad = false)
    (hpower : s.pstate < 2) (hlock : (s.col (colOf r.chamber)).lock = .off) (hidle : s.isActive r.chamber r.stratum = false)
    (hrows : ∀ row ∈ r.rows, rowSig (s.slot r.slot).image row = (s.slot r.slot).golden.getD row 0) :
    Completes (.frameRewriteStart none) s fun t =>
      t.stream k = some { r with targets := [r.chamber] } ∧ t.lib.device = [] ∧
      (t.strat r.chamber r.stratum).words = copyRows (s.strat r.chamber r.stratum).words (s.slot r.slot).image r.rows ∧
      (t.strat r.chamber r.stratum).ffs = (s.strat r.chamber r.stratum).ffs ∧ OnlyChanges [.lib, .fab] s t := by
  have hreq := reqTargets_single htargets hlock
  have hcan : rewriteCan s r = true := by
    unfold rewriteCan
    rw [hreq, hop, htarget, hlib, hfence, hrew]
    simp [hpower, htier, hfence']
  obtain ⟨u, hu⟩ : ∃ u, s.modLib (rewriteTaken k { r with targets := [r.chamber] }) = u := ⟨_, rfl⟩
  have hsu : Within [.lib, .fab] s u := hu ▸ State.modLib_within.mono
  have hslot : u.slot r.slot = s.slot r.slot := by rw [← hu]; rfl
  have huse : useGolden r.slot (s.modLib fun l =>
      { l with device := [], streams := tabSet none l.streams k (some { r with targets := [r.chamber] }) }) = u :=
    (useGolden_whole (by exact hgold)).trans hu
  have hgood : ((u.slot r.slot).st != 2 || (none : Option (Fin 80)).isSome || r.rows.any fun row =>
      rowSig (u.slot r.slot).image row != (u.slot r.slot).golden.getD row 0) = false := by
    rw [hslot, hready]
    simpa using hrows
  have hidle' : u.isActive r.chamber r.stratum = false := by rw [← hu]; exact hidle
  have hexec : exec (.frameRewriteStart none) s = execFrameRewriteStart none s := rfl
  unfold execFrameRewriteStart at hexec
  rw [hfree, hdevice, takeFirst, if_pos hcan] at hexec
  dsimp only at hexec
  rw [hreq] at hexec
  rw [huse] at hexec
  rw [hgood, if_neg Bool.false_ne_true, show reqTargets u { r with targets := [r.chamber] } = [r.chamber] from rfl, forEach_cons,
    forEach_nil, hidle', if_neg Bool.false_ne_true, rewords_inactive _ hidle'] at hexec
  change exec (.frameRewriteStart none) s = .next ((((u.modStrat r.chamber r.stratum _).modStrat r.chamber r.stratum _)).modLib _) at hexec
  refine ⟨_, hexec, ?_, ?_, ?_, ?_, ?_⟩
  · change u.stream k = _
    rw [← hu]
    exact (tabGet_tabSet_same (none : Option LibReq) s.lib.streams k (some { r with targets := [r.chamber] }) :)
  · change u.lib.device = []
    rw [← hu]
    rfl
  · change (State.strat (State.modStrat (State.modStrat u _ _ _) _ _ _) _ _).words = _
    rw [strat_modStrat_same, strat_modStrat_same, hslot]
    change copyRows (u.strat r.chamber r.stratum).words _ _ = _
    rw [← hu]
    rfl
  · change (State.strat (State.modStrat (State.modStrat u _ _ _) _ _ _) _ _).ffs = _
    rw [strat_modStrat_same, strat_modStrat_same]
    change (u.strat r.chamber r.stratum).ffs = _
    rw [← hu]
    rfl
  · exact (((hsu.step State.modStrat_within).step State.modStrat_within).step State.modLib_within).frame

/-- The lane has been interrupted once more (R493). -/
def interrupted (i : Integ) : Integ := { i with interrupts := min 65535 (i.interrupts + 1) }

/-- A stratum whose frame rewrite has ended well (R500). -/
def rewriteOver (x : Stratum) : Stratum := { x with rewriting := false, failMask := [], wasActive := false }

theorem rewriteFound {c : ChamberId} {st : StratumId} {k : Nat} {r : LibReq} (hbusy : s.busyStreams = [(k, r)]) (hop : r.op = 7)
    (hchamber : r.chamber = c.val) (hstratum : r.stratum = st.val) :
    (s.busyStreams.find? fun p => p.2.op == 7 && p.2.chamber == c.val && p.2.stratum == st.val) = some (k, r) := by
  rw [hbusy, List.find?_cons_of_pos]
  simp [hop, hchamber, hstratum]

theorem frameRewriteReread_clean {c : ChamberId} {st : StratumId} {k : Nat} {r : LibReq} (hbusy : s.busyStreams = [(k, r)]) (hop : r.op = 7)
    (hchamber : r.chamber = c.val) (hstratum : r.stratum = st.val) (hdesc : r.desc = none) (hkind : r.kind = 0) (hstream : s.stream k = some r)
    (hidle : (s.strat c st).wasActive = false) (hgold : (s.slot (s.strat c st).slot).goldBad = false)
    (hrows : ∀ row ∈ r.rows, rowSig (s.strat c st).words row = (s.slot (s.strat c st).slot).golden.getD row 0) :
    Completes (.frameRewriteReread c st true) s fun t =>
      t.stream k = none ∧ (t.strat c st).failMask = [] ∧ (t.strat c st).rewriting = false ∧
      Raised s t 0x0603 [c, st, r.rows.length, 0, 0] ∧ OnlyChanges (.integ :: .fab :: .lib :: events) s t := by
  have hexec : exec (.frameRewriteReread c st true) s = execFrameRewriteReread c st true s := rfl
  have huse : useGolden (s.strat c st).slot (s.modInteg fun i => { i with interrupts := min 65535 (i.interrupts + 1) }) = s.modInteg interrupted :=
    useGolden_whole (by exact hgold)
  have hstrat : (s.modInteg interrupted).strat c st = s.strat c st := rfl
  have hslot : (s.modInteg interrupted).slot (s.strat c st).slot = s.slot (s.strat c st).slot := rfl
  have hall : (true && r.rows.all fun row => rowSig (s.strat c st).words row == (s.slot (s.strat c st).slot).golden.getD row 0) = true := by
    simpa using hrows
  unfold execFrameRewriteReread at hexec
  rw [rewriteFound hbusy hop hchamber hstratum] at hexec
  dsimp only at hexec
  rw [huse, hstrat, hslot, hall, if_pos rfl, hidle] at hexec
  obtain ⟨u, hu⟩ : ∃ u, (s.modInteg interrupted).modStrat c st rewriteOver = u := ⟨_, rfl⟩
  have hsu : Within (.integ :: .fab :: .lib :: events) s u := hu ▸ State.modInteg_within.mono.step State.modStrat_within
  have hustrat : u.strat c st = rewriteOver (s.strat c st) := by
    rw [← hu, strat_modStrat_same]
    rfl
  have hraise : (raise 0x0603 [c.val, st.val, r.rows.length, 0, 0] u).stream k = some r := by
    rw [State.stream, raise_lib, ← hu]
    exact hstream
  change exec (.frameRewriteReread c st true) s = .next (endStream k true 0 0 (raise 0x0603 [c.val, st.val, r.rows.length, 0, 0]
    ((s.modInteg interrupted).modStrat c st rewriteOver))) at hexec
  rw [hu, endStream_plain hraise hdesc hkind] at hexec
  have hkept : (((raise 0x0603 [c.val, st.val, r.rows.length, 0, 0] u).modLib (streamEnded k)).strat c st) = u.strat c st := raise_strat ..
  refine ⟨_, hexec, stream_streamEnded, by rw [hkept, hustrat]; rfl, by rw [hkept, hustrat]; rfl, ?_, ((hsu.step raise_within).step State.modLib_within).frame⟩
  exact ((raised_raise ..).before hsu).within State.modLib_within

/-- Quarantining a stratum of a column outside lockstep (R176). -/
theorem quarantine_single {c k cause : Nat} (hlock : (s.col (colOf c)).lock = .off) (hquar : (s.strat c k).quar = false) :
    ((quarantine c k cause s).strat c k).quar = true := by
  have hsettled : (settleKeepers s.nets s).strat c k = s.strat c k := by rw [State.strat, settleKeepers_chm, State.strat]
  have hone : quarantine c k cause s = watchShafts (quarantineOne s s.nets c k cause (settleKeepers s.nets s)) := by
    unfold quarantine
    dsimp only
    rw [hlock]
    rfl
  rw [hone, State.strat, watchShafts_chm, ← State.strat]
  unfold quarantineOne
  rw [hsettled, hquar, if_neg Bool.false_ne_true]
  dsimp only
  rw [raise_strat, strat_modStrat_same]

theorem frameRewriteReread_fails {c : ChamberId} {st : StratumId} {k : Nat} {r : LibReq} (hbusy : s.busyStreams = [(k, r)]) (hop : r.op = 7)
    (hchamber : r.chamber = c.val) (hstratum : r.stratum = st.val) (hdesc : r.desc = none) (hkind : r.kind = 0) (hstream : s.stream k = some r)
    (hlock : (s.col (colOf c)).lock = .off) (hquar : (s.strat c st).quar = false) (hgold : (s.slot (s.strat c st).slot).goldBad = false) :
    Completes (.frameRewriteReread c st false) s fun t =>
      t.stream k = none ∧ (t.strat c st).quar = true ∧ Raised s t 0x0604 [c, st, 1] ∧
      OnlyChanges (.integ :: .fab :: .lib :: events) s t := by
  have hexec : exec (.frameRewriteReread c st false) s = execFrameRewriteReread c st false s := rfl
  have huse : useGolden (s.strat c st).slot (s.modInteg fun i => { i with interrupts := min 65535 (i.interrupts + 1) }) = s.modInteg interrupted :=
    useGolden_whole (by exact hgold)
  unfold execFrameRewriteReread at hexec
  rw [rewriteFound hbusy hop hchamber hstratum] at hexec
  dsimp only at hexec
  rw [huse, Bool.false_and, if_neg Bool.false_ne_true] at hexec
  obtain ⟨u, hu⟩ : ∃ u, (s.modInteg interrupted).modStrat c st (fun x => { x with rewriting := false, failMask := [] }) = u := ⟨_, rfl⟩
  have hsu : Within (.integ :: .fab :: .lib :: events) s u := hu ▸ State.modInteg_within.mono.step State.modStrat_within
  have hucol : u.col (colOf c) = s.col (colOf c) := by rw [← hu]; rfl
  have huquar : (u.strat c st).quar = false := by
    rw [← hu, strat_modStrat_same]
    exact hquar
  have hlib : u.lib = s.lib := by rw [← hu]; rfl
  have hfails : rewriteFails k c st 1 (s.modInteg interrupted) = endStream k true 0 0 (raise 0x0604 [c.val, st.val, 1] (quarantine c st 2 u)) := by
    unfold rewriteFails
    dsimp only
    rw [hu, hucol, hlock, if_neg (by simp)]
  have hstream' : (raise 0x0604 [c.val, st.val, 1] (quarantine c st 2 u)).stream k = some r := by
    have hkept : (quarantine c st 2 u).lib = u.lib := quarantine_within.frame .lib (by decide)
    rw [State.stream, raise_lib, hkept, hlib]
    exact hstream
  rw [hfails, endStream_plain hstream' hdesc hkind] at hexec
  have hsv : Within (.integ :: .fab :: .lib :: events) s (quarantine c st 2 u) := hsu.step quarantine_within
  refine ⟨_, hexec, stream_streamEnded, ?_, ((raised_raise ..).before hsv).within State.modLib_within,
    ((hsv.step raise_within).step State.modLib_within).frame⟩
  change ((raise 0x0604 [c.val, st.val, 1] (quarantine c st 2 u)).strat c st).quar = true
  rw [raise_strat]
  exact quarantine_single (by rw [hucol, hlock]) huquar

end

/-- Settles O39, by the lanes' rows, and the rewrite that starts and is read again. -/
theorem integrityLanesScanAndRewrite : Obligations.IntegrityLanesScanAndRewrite := by
  refine ⟨fun s hrun _ hres hlib hloaded hmask hst hfail => ?_, fun s g c k row hrun hpaired hcheck hpos hc hk hrow hrow' hdrop hlib hend hst hfail
      hloaded hrefill hchecked hused hmask hlap hquar hlock hsig hgold => ?_, fun s n i hrun hover => ?_,
    fun s r k hfree hdevice hop htarget hlib htier hfence hfence' _ htargets hrew hready hgold hpower hlock hidle hrows =>
      frameRewriteStart_writes hfree hdevice hop htarget hlib htier hfence hfence' htargets hrew hready hgold hpower hlock hidle hrows,
    fun s c st k r hbusy hop hchamber hstratum hdesc hkind hstream hidle hgold hrows =>
      frameRewriteReread_clean hbusy hop hchamber hstratum hdesc hkind hstream hidle hgold hrows,
    fun s c st k r hbusy hop hchamber hstratum hdesc hkind hstream hlock hquar hgold =>
      frameRewriteReread_fails hbusy hop hchamber hstratum hdesc hkind hstream hlock hquar hgold⟩
  · have hexec := exec_scanRowRead (g := 0) (h := 0) hrun
    obtain ⟨d, hd⟩ := residentRow_unloaded (g := 0) hloaded hmask
    rw [show residentRow [] ((0 : Fin 3) : Nat) s = _ from hd, libraryRow_unready (by exact hst) (by exact hfail)] at hexec
    have hon := lanesOn_before (i := dropping d s.integ) (show s.integ.resPos + 1 ≠ 163840 by omega) (show s.integ.libPos + 1 ≠ 245760 by omega)
    refine ⟨_, hexec, congrArg Integ.resPos hon, congrArg Integ.libPos hon, (congrArg Integ.count602 hon :),
      ((State.modInteg_within).step State.modInteg_within).frame⟩
  · have hexec := exec_scanRowRead (g := 0) (h := g) hrun
    obtain ⟨u, hu⟩ : ∃ u, (failureTold c k row s).modStrat c k (rowFailed row) = u := ⟨_, rfl⟩
    have hinteg : u.integ = { s.integ with count602 := s.integ.count602 + 1 } := by
      rw [← hu]
      exact raise_integ ..
    have hlibrary : u.lib = s.lib := by
      rw [← hu]
      exact raise_lib ..
    have hrowFails := residentRow_fails hpos hk ⟨hrow, hrow'⟩ hdrop hloaded hrefill hchecked hused hmask hlap hquar hlock hsig hgold hpaired hcheck
    have hunready : (u.slot (u.integ.libPos / 80)).st ≠ 2 := by
      rw [hinteg, State.slot, hlibrary]
      exact hst
    rw [show residentRow [] ((0 : Fin 3) : Nat) s = _ from hrowFails, hu, libraryRow_unready hunready (by rw [hinteg]; exact hfail)] at hexec
    have hon := lanesOn_before (i := u.integ) (by rw [hinteg]; show s.integ.resPos + 1 ≠ 163840; omega)
      (by rw [hinteg]; show s.integ.libPos + 1 ≠ 245760; omega)
    have hcounted : Within (.integ :: .fab :: events) s (s.modInteg fun i => { i with count602 := i.count602 + 1 }) := State.modInteg_within.mono
    have hsu : Within (.integ :: .fab :: events) s u := hu ▸ (hcounted.step raise_within).step State.modStrat_within
    have hraised : Raised s u 0x0602 [c, k, (s.strat c k).slot, row, b2n (s.isActive c k), 1] := by
      rw [← hu]
      exact ((raised_raise ..).before hcounted).within State.modStrat_within
    refine ⟨_, hexec, hraised.within State.modInteg_within, ?_, ?_, (hsu.step State.modInteg_within).frame⟩
    · change (u.strat c k).failMask = [row]
      rw [← hu, strat_modStrat_same]
      rfl
    · refine (congrArg Integ.count602 hon).trans ?_
      exact congrArg Integ.count602 hinteg
  · have hexec : exec (.residentLapOverrun n i) s = .next (raise 0x0607 [n, i.toNat] (s.modInteg fun x => { x with overrun := true, resLap := n })) :=
      if_pos ⟨hrun, by rw [hover]; rfl⟩
    refine ⟨_, hexec, ?_, (raised_raise ..).before (State.modInteg_within (s := s)), (State.modInteg_within.mono.step raise_within).frame⟩
    rw [raise_integ]
    rfl

end Sys2Proof

/-! A bundle's control and test registers (R518 to R543). -/

namespace Sys2Proof

open Sys2Proof.Machine

section
variable {s : State} {b : Nat}

/-! ### Bundles that move -/

theorem raise_bun (code : Nat) (fields : List Nat) (c : Nat) : (raise code fields s).bun c = s.bun c := bun_of_gvl (raise_gvl ..) c

/-- DETECT begins with nothing of the link changed (R519, R546). -/
theorem enterDetect_bun : ((enterDetect b s).bun b).st = 1 ∧ ((enterDetect b s).bun b).link = (s.bun b).link ∧
    ((enterDetect b s).bun b).attempts = (s.bun b).attempts := by
  unfold enterDetect laneReset
  rw [bun_modBun_same, bun_modBun_same]
  exact ⟨rfl, rfl, rfl⟩

/-- A link that goes down keeps its store (R522). -/
def linkOver (l : Link) : Link := { l with st := 0, expect := ({ l with st := 0 } : Link).ackVal, record := [] }

theorem linkDown_bun : (linkDown b s).bun b = { s.bun b with link := linkOver (s.bun b).link } := by
  have hend : ∀ u : State, (endSessions b u).bun b = u.bun b := fun u => bun_of_gvl (endSessions_within.frame .gvl (by decide)) b
  unfold linkDown dropRecord
  rw [bun_modLink_same, hend, bun_modLink_same]
  rfl

theorem twinFell_single (h : s.twinBundle b = false) : twinFell b s = s := if_pos (by rw [h]; rfl)

theorem twinBundle_of_cfg {t : State} (h : t.cfg = s.cfg) (b : Nat) : t.twinBundle b = s.twinBundle b := by
  rw [State.twinBundle, State.twinStart, h, ← State.twinStart, ← State.twinBundle]

/-- OFF from UP (R524). -/
theorem bundleOff_up (hup : (s.bun b).st = 6) : ((bundleOff b s).bun b).st = 0 ∧ ((bundleOff b s).bun b).link.st = 0 ∧
    Raised s (bundleOff b s) 0x0B03 [b, 7] := by
  unfold bundleOff
  rw [if_pos hup]
  dsimp only
  refine ⟨?_, ?_, ?_⟩
  · rw [bun_modBun_same]
  · rw [bun_modBun_same]
    unfold laneReset
    rw [bun_modBun_same, raise_bun, linkDown_bun]
    rfl
  · exact (((raised_raise ..).before linkDown_within).within laneReset_within).within State.modBun_within

theorem bundleOff_down (hup : (s.bun b).st ≠ 6) : ((bundleOff b s).bun b).st = 0 ∧ Within [.gvl] s (bundleOff b s) := by
  unfold bundleOff
  rw [if_neg hup]
  dsimp only
  refine ⟨?_, laneReset_within.step State.modBun_within⟩
  rw [bun_modBun_same]

/-- A bundle of no pair that leaves UP (R522). -/
theorem leaveUp_single (hup : (s.bun b).st = 6) (hpair : (s.bun b).link.pair = false) (htwin : s.twinBundle b = false) (cause : Nat) :
    leaveUp b cause s = enterDetect b (linkDown b (raise 0x0B03 [b, cause] s)) := by
  obtain ⟨u, hu⟩ : ∃ u, enterDetect b (linkDown b (raise 0x0B03 [b, cause] s)) = u := ⟨_, rfl⟩
  have hlink : (u.bun b).link.pair = false := by
    rw [← hu, enterDetect_bun.2.1, linkDown_bun, raise_bun]
    exact hpair
  have hmate : groupMate u b = none := by
    unfold groupMate
    dsimp only
    rw [hlink, Bool.false_and, if_neg Bool.false_ne_true]
  have hsu : Within (.gvl :: .cry :: events) s u := hu ▸ (raise_within.mono.step linkDown_within).step enterDetect_within
  unfold leaveUp
  rw [if_pos hup]
  dsimp only
  rw [hu, hmate]
  exact twinFell_single (by rw [twinBundle_of_cfg (hsu.frame .cfg (by decide)), htwin])

theorem leaveUp_spec (hup : (s.bun b).st = 6) (hpair : (s.bun b).link.pair = false) (htwin : s.twinBundle b = false) (cause : Nat) :
    ((leaveUp b cause s).bun b).st = 1 ∧ ((leaveUp b cause s).bun b).link = linkOver (s.bun b).link ∧
      Raised s (leaveUp b cause s) 0x0B03 [b, cause] ∧ Within (.gvl :: .cry :: events) s (leaveUp b cause s) := by
  obtain ⟨hst, hlink, -⟩ := enterDetect_bun (s := linkDown b (raise 0x0B03 [b, cause] s)) (b := b)
  rw [leaveUp_single hup hpair htwin]
  refine ⟨hst, ?_, ((raised_raise ..).within linkDown_within).within enterDetect_within,
    (raise_within.mono.step linkDown_within).step enterDetect_within⟩
  rw [hlink, linkDown_bun, raise_bun]

/-! ### GVL_Bb_CTRL -/

theorem regDesc_gvlCtrl (hb : b < 8) : regDesc (gvlReg b 0) = { rw := 0xBC00_0000, enums := [(26, 2, 0, 2)] } :=
  regDesc_gvl b 0 hb (by decide)

/-- The bits of a control word that a write keeps. -/
theorem bit_gvlCtrl (hb : b < 8) (v : Word) {i : Nat} (hi : i = 28 ∨ i = 29 ∨ i = 31) :
    (storeReg (gvlReg b 0) v s).regB (gvlReg b 0) i = bit v i := by
  rw [State.regB, storeReg_reg_same, regDesc_gvlCtrl hb]
  rcases hi with rfl | rfl | rfl <;> simp [bit]

/-- Bits outside the stored ones leave a register as it is. -/
theorem stored_self (x : Word) {m e : Word} (h : e &&& m = 0) : (x &&& ~~~m) ||| ((x ||| e) &&& m) = x := by
  refine BitVec.eq_of_getLsbD_eq fun i hi => ?_
  have hbit := congrArg (·.getLsbD i) h
  simp only [BitVec.getLsbD_and] at hbit
  simp only [BitVec.getLsbD_or, BitVec.getLsbD_and, BitVec.getLsbD_not, hi, decide_true, Bool.true_and]
  cases hx : x.getLsbD i <;> cases hm : m.getLsbD i <;> simp_all

/-- A write that leaves every register as it was. -/
theorem Within.unstored {t : State} (h : Within [.regs] s t) (hreg : ∀ o, t.reg o = s.reg o) : Within [] s t := by
  refine ⟨⟨fun p _ => ?_, h.grotto, h.regs⟩, h.now, h.raised, h.sent, h.unpaired⟩
  rcases eq_or_ne p .regs with rfl | hp
  · exact hreg
  · exact h.frame p (by simpa using hp)

/-- A write that sets only RETRAIN stores nothing (Table Lanes-9). -/
theorem storeReg_retrain (hb : b < 8) (o : Nat) :
    (storeReg (gvlReg b 0) (s.reg (gvlReg b 0) ||| mkBit 30 true) s).reg o = s.reg o := by
  rcases eq_or_ne o (gvlReg b 0) with rfl | ho
  · rw [storeReg_reg_same, regDesc_gvlCtrl hb]
    generalize s.reg (gvlReg b 0) = x
    exact stored_self x (by decide)
  · exact storeReg_reg_other ho _ s

/-! ### Words with one bit set or cleared -/

theorem bit_mkBit {i j : Nat} (hi : i < 32) (hj : j < 32) : bit (mkBit j true) i = decide (i = j) := by
  interval_cases i <;> interval_cases j <;> decide

theorem bit_set (v : Word) {i j : Nat} (hi : i < 32) (hj : j < 32) : bit (v ||| mkBit j true) i = (bit v i || decide (i = j)) := by
  rw [bit_or, bit_mkBit hi hj]

theorem bit_cleared (v : Word) {i j : Nat} (hi : i < 32) (hj : j < 32) :
    bit (v &&& ~~~mkBit j true) i = (bit v i && !decide (i = j)) := by
  have h := bit_mkBit hi hj
  simp only [bit] at h ⊢
  rw [BitVec.getLsbD_and, BitVec.getLsbD_not, h, decide_eq_true hi, Bool.true_and]

/-- A field apart from the bit. -/
theorem fld_set (v : Word) {lo len j : Nat} (hlo : lo + len ≤ 32) (hj : j < 32) (hne : j < lo ∨ lo + len ≤ j) :
    fld (v ||| mkBit j true) lo len = fld v lo len :=
  fld_congr fun i hi => by
    have := bit_set v (i := lo + i) (by omega) hj
    rw [decide_eq_false (by omega), Bool.or_false] at this
    exact this

theorem fld_cleared (v : Word) {lo len j : Nat} (hlo : lo + len ≤ 32) (hj : j < 32) (hne : j < lo ∨ lo + len ≤ j) :
    fld (v &&& ~~~mkBit j true) lo len = fld v lo len :=
  fld_congr fun i hi => by
    have := bit_cleared v (i := lo + i) (by omega) hj
    rw [decide_eq_false (by omega), Bool.not_false, Bool.and_true] at this
    exact this

/-- The bits of a field that is zero are zero. -/
theorem bit_of_fld_zero {v : Word} {lo len i : Nat} (h : fld v lo len = 0) (hlo : lo ≤ i) (hi : i < lo + len) : bit v i = false := by
  have hbit : (fld v lo len).testBit (i - lo) = bit v i := by
    rw [fld, Nat.testBit_mod_two_pow, Nat.testBit_shiftRight, decide_eq_true (by omega), Bool.true_and, bit, BitVec.getLsbD]
    congr 1
    omega
  rw [← hbit, h, Nat.zero_testBit]

theorem fld_lower_zero {v : Word} {lo len len' : Nat} (h : fld v lo len = 0) (hlen : len' ≤ len) : fld v lo len' = 0 := by
  have hmod : fld v lo len' = fld v lo len % 2 ^ len' := by
    rw [fld, fld, Nat.mod_mod_of_dvd _ (pow_dvd_pow 2 hlen)]
  rw [hmod, h, Nat.zero_mod]

/-! ### Lane counters -/

/-- Every lane rewritten the same way. -/
def lanesMapped (f : Lane → Lane) (x : Bundle) : List (Nat × Lane) := x.lanes.foldl (fun t p => tabSet {} t p.1 (f p.2)) x.lanes

/-- What a rewriting gives every lane, and the reset lane has, holds of every lane. -/
theorem lane_mapped {P : Lane → Prop} {f : Lane → Lane} (hf : ∀ l, P (f l)) (hreset : P {}) (x : Bundle) (k : Nat) :
    P (tabGet {} (lanesMapped f x) k) := by
  have hfold : ∀ (l t : List (Nat × Lane)), (∀ p ∈ t, p.1 = k → p ∈ l ∨ P p.2) →
      ∀ p ∈ l.foldl (fun t p => tabSet {} t p.1 (f p.2)) t, p.1 = k → P p.2 := fun l => by
    induction l with
    | nil =>
      intro t ht p hp hk
      exact (ht p hp hk).resolve_left (by simp)
    | cons q l ih =>
      intro t ht p hp hk
      refine ih _ (fun p hp hk => ?_) p hp hk
      have hp : p ∈ tabMod {} t q.1 fun _ => f q.2 := hp
      rcases mem_tabMod hp with ⟨hp, hne⟩ | rfl
      · rcases ht p hp hk with hmem | hP
        · rcases List.mem_cons.mp hmem with rfl | hmem
          · exact absurd rfl hne
          · exact .inl hmem
        · exact .inr hP
      · exact .inr (hf q.2)
  rcases eq_or_ne (tabGet {} (lanesMapped f x) k) {} with h | h
  · rw [h]
    exact hreset
  · exact hfold x.lanes x.lanes (fun p hp _ => .inl hp) _ (mem_of_tabGet h) rfl

/-! ### What each control word does -/

/-- EN set where it was clear (R518, R551). -/
theorem ctrlWritten_enables {old new : Word} (hnew : bit new 31 = true) (hold : bit old 31 = false) (htest : bit new 28 = false)
    (htest' : bit old 28 = false) (hretrain : bit new 30 = false) (hsleep : bit new 29 = false) :
    ctrlWritten b old new s = enterDetect b ((s.modLink b Link.clear).modBun b fun x => { x with attempts := 0, timeouts := 0 }) := by
  unfold ctrlWritten
  dsimp only
  rw [hnew, hold, htest, htest', hretrain, hsleep]
  rfl

theorem ctrlWritten_disables {old new : Word} (hnew : bit new 31 = false) (htwin : s.twinBundle b = false) :
    ctrlWritten b old new s = bundleOff b s := by
  have hfell : twinFell b (bundleOff b s) = bundleOff b s :=
    twinFell_single (by rw [twinBundle_of_cfg (bundleOff_within.frame .cfg (by decide)), htwin])
  unfold ctrlWritten
  dsimp only
  rw [hnew, hfell]
  simp

/-- A write over an enabled bundle that leaves TEST and SLEEP as they are. -/
theorem ctrlWritten_retrains {old new : Word} (hnew : bit new 31 = true) (hold : bit old 31 = true) (htest : bit new 28 = bit old 28)
    (hretrain : bit new 30 = true) (hsleep : bit new 29 = bit old 29) : ctrlWritten b old new s = retrain b s := by
  unfold ctrlWritten
  dsimp only
  rw [hnew, hold, htest, hretrain, hsleep]
  cases bit old 28 <;> cases bit old 29 <;> rfl

theorem ctrlWritten_sleeps {old new : Word} (hnew : bit new 31 = true) (hold : bit old 31 = true) (htest : bit new 28 = bit old 28)
    (hretrain : bit new 30 = false) (hsleep : bit new 29 = true) (hsleep' : bit old 29 = false) :
    ctrlWritten b old new s = askSleep b s := by
  unfold ctrlWritten
  dsimp only
  rw [hnew, hold, htest, hretrain, hsleep, hsleep']
  cases bit old 28 <;> rfl

theorem ctrlWritten_tests {old new : Word} (hnew : bit new 31 = true) (hold : bit old 31 = true) (htest : bit new 28 = true)
    (htest' : bit old 28 = false) (hretrain : bit new 30 = false) (hsleep : bit new 29 = false) :
    ctrlWritten b old new s = enterTest b s := by
  unfold ctrlWritten
  dsimp only
  rw [hnew, hold, htest, htest', hretrain, hsleep]
  rfl

theorem ctrlWritten_endsTest {old new : Word} (hnew : bit new 31 = true) (hold : bit old 31 = true) (htest : bit new 28 = false)
    (htest' : bit old 28 = true) (hretrain : bit new 30 = false) (hsleep : bit new 29 = false) (hst : (s.bun b).st = 9) :
    ctrlWritten b old new s = enterDetect b (s.modLink b Link.clear) := by
  unfold ctrlWritten
  dsimp only
  rw [hnew, hold, htest, htest', hretrain, hsleep]
  have hend : (!false) = true ∧ true = true ∧ (s.bun b).st = 9 := ⟨rfl, rfl, hst⟩
  exact if_pos hend

/-! ### The instructions -/

/-- What a write of the control register stores, and what it then does. -/
theorem writeReg_ctrl (who : Requester) (b : BundleId) {v : Word} (hsolo : s.twn.role = 0) (hv : fld v 26 2 ≤ 2) :
    ∃ u, writeReg who (gvlReg b 0) 0xF v s = ctrlWritten b (s.reg (gvlReg b 0)) v u ∧ u = storeReg (gvlReg b 0) v s ∧ Within [.regs] s u ∧
      u.bun b = s.bun b ∧ u.twinBundle b = s.twinBundle b ∧ (∀ o, o ≠ gvlReg b 0 → u.reg o = s.reg o) :=
  ⟨_, writeReg_gvlCtrl who b b.isLt v s hv hsolo, rfl, storeReg_within, rfl, rfl, fun _ ho => storeReg_reg_other ho v s⟩

section
variable {b : BundleId} (who : Requester) (hsolo : s.twn.role = 0)
include hsolo

theorem bundleEnable_trains {val : Word} (hval : fld val 26 5 = 0) (hoff : s.regB (gvlReg b 0) 31 = false)
    (htest : s.regB (gvlReg b 0) 28 = false) : Completes (.bundleEnable who b val) s fun t =>
      (t.bun b).st = 1 ∧ (t.bun b).attempts = 0 ∧ (t.bun b).link = (s.bun b).link.clear ∧ t.regB (gvlReg b 0) 31 = true ∧
      (∀ o, o ≠ gvlReg b 0 → t.reg o = s.reg o) ∧ OnlyChanges [.regs, .gvl] s t := by
  have hclear : ∀ i, 26 ≤ i → i < 31 → bit (val ||| mkBit 31 true) i = false := fun i hi hi' => by
    rw [bit_set val (by omega) (by decide), bit_of_fld_zero hval hi hi', decide_eq_false (by omega)]
    rfl
  obtain ⟨u, hwrite, hu, hsu, hbun, -, hother⟩ := writeReg_ctrl who b (v := val ||| mkBit 31 true) hsolo
    (by rw [fld_set val (by decide) (by decide) (by decide), fld_lower_zero hval (by decide)]; decide)
  rw [ctrlWritten_enables (bit_enable val) hoff (hclear 28 (by decide) (by decide)) htest (hclear 30 (by decide) (by decide))
    (hclear 29 (by decide) (by decide))] at hwrite
  obtain ⟨v, hv⟩ : ∃ v, (u.modLink b Link.clear).modBun b (fun x => { x with attempts := 0, timeouts := 0 }) = v := ⟨_, rfl⟩
  have hvbun : v.bun b = { s.bun b with link := (s.bun b).link.clear, attempts := 0, timeouts := 0 } := by
    rw [← hv, bun_modBun_same, bun_modLink_same, hbun]
  have huv : Within [.gvl] u v := hv ▸ State.modLink_within.step State.modBun_within
  rw [hv] at hwrite
  obtain ⟨hst, hlink, hattempts⟩ := enterDetect_bun (s := v) (b := b)
  have hut : Within [.gvl] u (enterDetect b v) := huv.step enterDetect_within
  have hregs : ∀ o, (enterDetect b v).reg o = u.reg o := hut.frame .regs (by decide)
  refine ⟨_, congrArg Host.Outcome.next hwrite, hst, by rw [hattempts, hvbun], by rw [hlink, hvbun], ?_, fun o ho => ?_, ?_⟩
  · rw [State.regB, hregs, hu]
    exact (bit_gvlCtrl b.isLt _ (by simp)).trans (bit_enable val)
  · rw [hregs, hother o ho]
  · exact ((hsu.mono (l := [.regs, .gvl])).step hut).frame

theorem bundleDisable_falls {val : Word} (hval : fld val 26 2 ≤ 2) (htwin : s.twinBundle b = false) (hup : (s.bun b).st = 6) :
    Completes (.bundleDisable who b val) s fun t =>
      (t.bun b).st = 0 ∧ (t.bun b).link.st = 0 ∧ t.regB (gvlReg b 0) 31 = false ∧ Raised s t 0x0B03 [b, 7] ∧
      (∀ o, o ≠ gvlReg b 0 → t.reg o = s.reg o) ∧ OnlyChanges (.regs :: .gvl :: .cry :: events) s t := by
  obtain ⟨u, hwrite, hu, hsu, hbun, hutwin, hother⟩ := writeReg_ctrl who b (v := val &&& ~~~mkBit 31 true) hsolo
    (by rw [fld_cleared val (by decide) (by decide) (by decide)]; exact hval)
  rw [ctrlWritten_disables (bit_disable val) (hutwin.trans htwin)] at hwrite
  obtain ⟨hst, hlink, hraised⟩ := bundleOff_up (s := u) (b := b) (by rw [hbun, hup])
  have hregs : ∀ o, (bundleOff b u).reg o = u.reg o := bundleOff_within.frame .regs (by decide)
  refine ⟨_, congrArg Host.Outcome.next hwrite, hst, hlink, ?_, hraised.before hsu, fun o ho => ?_, ?_⟩
  · rw [State.regB, hregs, hu]
    exact (bit_gvlCtrl b.isLt _ (by simp)).trans (bit_disable val)
  · rw [hregs, hother o ho]
  · exact ((hsu.mono (l := .regs :: .gvl :: .cry :: events)).step bundleOff_within).frame

theorem bundleDisable_off {val : Word} (hval : fld val 26 2 ≤ 2) (htwin : s.twinBundle b = false) (hup : (s.bun b).st ≠ 6) :
    Completes (.bundleDisable who b val) s fun t =>
      (t.bun b).st = 0 ∧ t.regB (gvlReg b 0) 31 = false ∧ (∀ o, o ≠ gvlReg b 0 → t.reg o = s.reg o) ∧
      OnlyChanges [.regs, .gvl] s t := by
  obtain ⟨u, hwrite, hu, hsu, hbun, hutwin, hother⟩ := writeReg_ctrl who b (v := val &&& ~~~mkBit 31 true) hsolo
    (by rw [fld_cleared val (by decide) (by decide) (by decide)]; exact hval)
  rw [ctrlWritten_disables (bit_disable val) (hutwin.trans htwin)] at hwrite
  obtain ⟨hst, hut⟩ := bundleOff_down (s := u) (b := b) (by rw [hbun]; exact hup)
  have hregs : ∀ o, (bundleOff b u).reg o = u.reg o := bundleOff_within.frame .regs (by decide)
  refine ⟨_, congrArg Host.Outcome.next hwrite, hst, ?_, fun o ho => ?_, ?_⟩
  · rw [State.regB, hregs, hu]
    exact (bit_gvlCtrl b.isLt _ (by simp)).trans (bit_disable val)
  · rw [hregs, hother o ho]
  · exact ((hsu.mono (l := [.regs, .gvl])).step hut).frame

/-- RETRAIN of an enabled bundle, which stores nothing. -/
theorem bundleRetrain_eq (hon : s.regB (gvlReg b 0) 31 = true) (hwidth : s.regF (gvlReg b 0) 26 2 ≤ 2) :
    ∃ u, exec (.bundleRetrain who b) s = .next (retrain b u) ∧ Within [] s u ∧ u.bun b = s.bun b ∧ u.twinBundle b = s.twinBundle b := by
  obtain ⟨u, hwrite, hu, hsu, hbun, hutwin, -⟩ := writeReg_ctrl who b (v := s.reg (gvlReg b 0) ||| mkBit 30 true) hsolo
    (by rw [fld_set _ (by decide) (by decide) (by decide)]; exact hwidth)
  have hset : ∀ i, i < 32 → bit (s.reg (gvlReg b 0) ||| mkBit 30 true) i = (bit (s.reg (gvlReg b 0)) i || decide (i = 30)) :=
    fun i hi => bit_set _ hi (by decide)
  rw [ctrlWritten_retrains (by rw [hset 31 (by decide), show bit (s.reg (gvlReg b 0)) 31 = true from hon]; rfl) hon
    (by rw [hset 28 (by decide)]; simp) (by rw [hset 30 (by decide)]; simp) (by rw [hset 29 (by decide)]; simp)] at hwrite
  exact ⟨u, congrArg Host.Outcome.next hwrite, hsu.unstored fun o => hu ▸ storeReg_retrain b.isLt o, hbun, hutwin⟩

theorem bundleRetrain_backoff (hon : s.regB (gvlReg b 0) 31 = true) (hwidth : s.regF (gvlReg b 0) 26 2 ≤ 2) (hst : (s.bun b).st = 8) :
    Completes (.bundleRetrain who b) s fun t => (t.bun b).st = 1 ∧ OnlyChanges [.gvl] s t := by
  obtain ⟨u, hexec, hsu, hbun, -⟩ := bundleRetrain_eq who hsolo hon hwidth
  have hgo : retrain b u = enterDetect b u := by
    unfold retrain
    dsimp only
    rw [hbun, hst, if_neg (by decide), if_pos (.inr rfl)]
  rw [hgo] at hexec
  exact ⟨_, hexec, enterDetect_bun.1, ((hsu.mono (l := [.gvl])).step enterDetect_within).frame⟩

theorem bundleRetrain_up (hon : s.regB (gvlReg b 0) 31 = true) (hwidth : s.regF (gvlReg b 0) 26 2 ≤ 2) (htwin : s.twinBundle b = false)
    (hst : (s.bun b).st = 6) (hpair : (s.bun b).link.pair = false) : Completes (.bundleRetrain who b) s fun t =>
      (t.bun b).st = 1 ∧ (t.bun b).link.st = 0 ∧ Raised s t 0x0B03 [b, 7] ∧ OnlyChanges (.gvl :: .cry :: events) s t := by
  obtain ⟨u, hexec, hsu, hbun, hutwin⟩ := bundleRetrain_eq who hsolo hon hwidth
  have hgo : retrain b u = leaveUp b 7 u := if_pos (by rw [hbun, hst])
  obtain ⟨hst', hlink, hraised, hw⟩ := leaveUp_spec (s := u) (b := b) (by rw [hbun, hst]) (by rw [hbun, hpair]) (hutwin.trans htwin) 7
  rw [hgo] at hexec
  exact ⟨_, hexec, hst', by rw [hlink]; rfl, hraised.before hsu, ((hsu.mono (l := .gvl :: .cry :: events)).trans hw).frame⟩

theorem sleepRequest_asks (hon : s.regB (gvlReg b 0) 31 = true) (hwidth : s.regF (gvlReg b 0) 26 2 ≤ 2) (hst : (s.bun b).st = 6)
    (hretrain : s.regB (gvlReg b 0) 30 = false) (hsleep : s.regB (gvlReg b 0) 29 = false) : Completes (.sleepRequest who b) s fun t =>
        t.out = s.out ++ [.block b 0x78 4] ∧ t.bun b = { s.bun b with sleepAsk := true } ∧ t.regB (gvlReg b 0) 29 = true ∧
        OnlyChanges [.regs, .gvl, .out] s t := by
  obtain ⟨u, hwrite, hu, hsu, hbun, -, -⟩ := writeReg_ctrl who b (v := s.reg (gvlReg b 0) ||| mkBit 29 true) hsolo
    (by rw [fld_set _ (by decide) (by decide) (by decide)]; exact hwidth)
  have hset : ∀ i, i < 32 → bit (s.reg (gvlReg b 0) ||| mkBit 29 true) i = (bit (s.reg (gvlReg b 0)) i || decide (i = 29)) :=
    fun i hi => bit_set _ hi (by decide)
  rw [ctrlWritten_sleeps (by rw [hset 31 (by decide), show bit (s.reg (gvlReg b 0)) 31 = true from hon]; rfl) hon
    (by rw [hset 28 (by decide)]; simp) (by rw [hset 30 (by decide), show bit (s.reg (gvlReg b 0)) 30 = false from hretrain]; rfl)
    (by rw [hset 29 (by decide)]; simp) hsleep] at hwrite
  have hask : askSleep b u = (u.send (.block b 0x78 4)).modBun b fun x => { x with sleepAsk := true } := if_pos (by rw [hbun, hst])
  rw [hask] at hwrite
  refine ⟨_, congrArg Host.Outcome.next hwrite, ?_, ?_, ?_, ((hsu.mono (l := [.regs, .gvl, .out])).step (State.send_within.mono (l := [.gvl, .out]) |>.step State.modBun_within)).frame⟩
  · change u.out ++ _ = _
    rw [show u.out = s.out from hsu.frame .out (by decide)]
  · rw [bun_modBun_same]
    change ({ u.bun b with sleepAsk := true } : Bundle) = _
    rw [hbun]
  · change u.regB (gvlReg b 0) 29 = true
    rw [hu]
    refine (bit_gvlCtrl b.isLt _ (by simp)).trans ?_
    rw [hset 29 (by decide)]
    simp

/-- A lane whose test counters are cleared. -/
def testCleared (l : Lane) : Lane := { l with bits := {}, err := {} }

theorem testEnter_tests {val : Word} (hval : fld val 26 5 = 0) (hval' : bit val 31 = true) (hon : s.regB (gvlReg b 0) 31 = true)
    (htest : s.regB (gvlReg b 0) 28 = false) (hst : (s.bun b).st ≠ 6) : Completes (.testEnter who b val) s fun t =>
        (t.bun b).st = 9 ∧ (∀ k, ((t.bun b).lane k).bits = {} ∧ ((t.bun b).lane k).err = {}) ∧ t.regB (gvlReg b 0) 28 = true ∧
        OnlyChanges [.regs, .gvl] s t := by
  have hset : ∀ i, i < 32 → bit (val ||| mkBit 28 true) i = (bit val i || decide (i = 28)) := fun i hi => bit_set _ hi (by decide)
  have hzero : ∀ i, 26 ≤ i → i < 31 → bit val i = false := fun i hi hi' => bit_of_fld_zero hval hi hi'
  obtain ⟨u, hwrite, hu, hsu, hbun, -, -⟩ := writeReg_ctrl who b (v := val ||| mkBit 28 true) hsolo
    (by rw [fld_set _ (by decide) (by decide) (by decide), fld_lower_zero hval (by decide)]; decide)
  rw [ctrlWritten_tests (by rw [hset 31 (by decide), hval']; rfl) hon (by rw [hset 28 (by decide)]; simp) htest
    (by rw [hset 30 (by decide), hzero 30 (by decide) (by decide)]; rfl)
    (by rw [hset 29 (by decide), hzero 29 (by decide) (by decide)]; rfl)] at hwrite
  have henter : enterTest b u = u.modBun b fun x => { x with st := 9, lanes := lanesMapped testCleared x } := by
    unfold enterTest
    dsimp only
    rw [if_neg (by rw [hbun]; exact hst), if_neg (by rw [hbun]; exact hst)]
    rfl
  rw [henter] at hwrite
  refine ⟨_, congrArg Host.Outcome.next hwrite, by rw [bun_modBun_same], fun k => ?_, ?_, ((hsu.mono (l := [.regs, .gvl])).step State.modBun_within).frame⟩
  · rw [bun_modBun_same]
    exact lane_mapped (P := fun l => l.bits = {} ∧ l.err = {}) (fun _ => ⟨rfl, rfl⟩) ⟨rfl, rfl⟩ (u.bun b) k
  · change u.regB (gvlReg b 0) 28 = true
    rw [hu]
    refine (bit_gvlCtrl b.isLt _ (by simp)).trans ?_
    rw [hset 28 (by decide)]
    simp

theorem testExit_trains {val : Word} (hval : fld val 26 2 = 0) (hval' : fld val 29 3 = 4) (hon : s.regB (gvlReg b 0) 31 = true)
    (htest : s.regB (gvlReg b 0) 28 = true) (hst : (s.bun b).st = 9) : Completes (.testExit who b val) s fun t =>
        (t.bun b).st = 1 ∧ (t.bun b).link = (s.bun b).link.clear ∧ t.regB (gvlReg b 0) 28 = false ∧ OnlyChanges [.regs, .gvl] s t := by
  have hset : ∀ i, i < 32 → bit (val &&& ~~~mkBit 28 true) i = (bit val i && !decide (i = 28)) := fun i hi => bit_cleared _ hi (by decide)
  have htop : ∀ i < 3, bit val (29 + i) = (4).testBit i := fun i hi => by
    rw [← hval', fld, Nat.testBit_mod_two_pow, Nat.testBit_shiftRight, decide_eq_true hi, Bool.true_and, bit, BitVec.getLsbD]
  obtain ⟨u, hwrite, hu, hsu, hbun, -, -⟩ := writeReg_ctrl who b (v := val &&& ~~~mkBit 28 true) hsolo
    (by rw [fld_cleared _ (by decide) (by decide) (by decide), hval]; decide)
  rw [ctrlWritten_endsTest (by rw [hset 31 (by decide), htop 2 (by decide)]; decide) hon (by rw [hset 28 (by decide)]; simp) htest
    (by rw [hset 30 (by decide), htop 1 (by decide)]; decide) (by rw [hset 29 (by decide), htop 0 (by decide)]; decide)
    (by rw [hbun, hst])] at hwrite
  obtain ⟨hst', hlink, -⟩ := enterDetect_bun (s := u.modLink b Link.clear) (b := b)
  have hut : Within [.gvl] u (enterDetect b (u.modLink b Link.clear)) := State.modLink_within.step enterDetect_within
  refine ⟨_, congrArg Host.Outcome.next hwrite, hst', by rw [hlink, bun_modLink_same, hbun], ?_, ((hsu.mono (l := [.regs, .gvl])).step hut).frame⟩
  rw [State.regB, hut.frame .regs (by decide), hu]
  refine (bit_gvlCtrl b.isLt _ (by simp)).trans ?_
  rw [hset 28 (by decide)]
  simp

/-! ### GVL_Bb_TEST -/

/-- A write of the test register over what it holds stores nothing but its own bits. -/
theorem writeReg_test {j : Nat} (hj : j = 28 ∨ j = 19) (hwidth : s.regF (gvlReg b 0x20) 29 3 ≤ 4) :
    ∃ u, writeReg who (gvlReg b 0x20) 0xF (s.reg (gvlReg b 0x20) ||| mkBit j true) s =
        testWritten b (s.reg (gvlReg b 0x20) ||| mkBit j true) u ∧ Within [] s u ∧ u.bun b = s.bun b ∧ u.out = s.out := by
  have hbit : j < 29 := by omega
  have hdesc : regDesc (gvlReg b 0x20) = { rw := 0xEFF0_0000, reset := 0x8000_0000, enums := [(29, 3, 0, 4)] } :=
    regDesc_gvl b 0x20 b.isLt (by decide)
  have hwrite := writeReg_gvlTest who b b.isLt (s.reg (gvlReg b 0x20) ||| mkBit j true) s
    (by rw [fld_set _ (by decide) (by omega) (.inl hbit)]; exact hwidth) hsolo
  refine ⟨_, hwrite, storeReg_within.unstored fun o => ?_, rfl, rfl⟩
  rcases eq_or_ne o (gvlReg b 0x20) with rfl | ho
  · rw [storeReg_reg_same, hdesc]
    exact stored_self _ (by rcases hj with rfl | rfl <;> decide)
  · exact storeReg_reg_other ho _ s

theorem bitInject_sends (hwidth : s.regF (gvlReg b 0x20) 29 3 ≤ 4) (hclr : s.regB (gvlReg b 0x20) 19 = false) (hst : (s.bun b).st = 9) :
    Completes (.bitInject who b) s fun t =>
      t.out = s.out ++ [.block b 0x100 (s.regF (gvlReg b 0x20) 20 8)] ∧ OnlyChanges [.out] s t := by
  obtain ⟨u, hwrite, hsu, hbun, hout⟩ := writeReg_test who hsolo (j := 28) (.inl rfl) hwidth
  have hset : ∀ i, i < 32 → bit (s.reg (gvlReg b 0x20) ||| mkBit 28 true) i = (bit (s.reg (gvlReg b 0x20)) i || decide (i = 28)) :=
    fun i hi => bit_set _ hi (by decide)
  have hsend : testWritten b (s.reg (gvlReg b 0x20) ||| mkBit 28 true) u = u.send (.block b 0x100 (s.regF (gvlReg b 0x20) 20 8)) := by
    unfold testWritten
    dsimp only
    rw [hset 28 (by decide), hset 19 (by decide), show bit (s.reg (gvlReg b 0x20)) 19 = false from hclr, hbun, hst,
      fld_set _ (by decide) (by decide) (by decide)]
    simp [State.regF]
  rw [hsend] at hwrite
  refine ⟨_, congrArg Host.Outcome.next hwrite, ?_, ((hsu.mono (l := [.out])).step State.send_within).frame⟩
  change u.out ++ _ = _
  rw [hout]

/-- A lane whose counters are cleared. -/
def countersCleared (l : Lane) : Lane := { l with bits := {}, err := {}, bip := {} }

theorem testCounterClear_clears (hwidth : s.regF (gvlReg b 0x20) 29 3 ≤ 4) (hinj : s.regB (gvlReg b 0x20) 28 = false) :
    Completes (.testCounterClear who b) s fun t =>
      (∀ k, ((t.bun b).lane k).bits = {} ∧ ((t.bun b).lane k).err = {} ∧ ((t.bun b).lane k).bip = {}) ∧
      (t.bun b).st = (s.bun b).st ∧ OnlyChanges [.gvl] s t := by
  obtain ⟨u, hwrite, hsu, hbun, -⟩ := writeReg_test who hsolo (j := 19) (.inr rfl) hwidth
  have hset : ∀ i, i < 32 → bit (s.reg (gvlReg b 0x20) ||| mkBit 19 true) i = (bit (s.reg (gvlReg b 0x20)) i || decide (i = 19)) :=
    fun i hi => bit_set _ hi (by decide)
  have hclear : testWritten b (s.reg (gvlReg b 0x20) ||| mkBit 19 true) u = u.modBun b fun x => { x with lanes := lanesMapped countersCleared x } := by
    unfold testWritten
    dsimp only
    rw [hset 28 (by decide), hset 19 (by decide), show bit (s.reg (gvlReg b 0x20)) 28 = false from hinj]
    simp
    rfl
  rw [hclear] at hwrite
  refine ⟨_, congrArg Host.Outcome.next hwrite, fun k => ?_, ?_, ((hsu.mono (l := [.gvl])).step State.modBun_within).frame⟩
  · rw [bun_modBun_same]
    exact lane_mapped (P := fun l => l.bits = {} ∧ l.err = {} ∧ l.bip = {}) (fun _ => ⟨rfl, rfl, rfl⟩) ⟨rfl, rfl, rfl⟩ (u.bun b) k
  · rw [bun_modBun_same, hbun]

end

end

/-- Settles O40, by what each control word of a bundle does. -/
theorem bundleControlRegister : Obligations.BundleControlRegister :=
  fun _ who _ hsolo htwin => ⟨fun _ hval hoff htest => bundleEnable_trains who hsolo hval hoff htest,
    fun _ hval hup => bundleDisable_falls who hsolo hval htwin hup, fun _ hval hup => bundleDisable_off who hsolo hval htwin hup,
    fun hon hwidth => ⟨bundleRetrain_backoff who hsolo hon hwidth, bundleRetrain_up who hsolo hon hwidth htwin,
      sleepRequest_asks who hsolo hon hwidth, fun _ hval hval' htest hst => testEnter_tests who hsolo hval hval' hon htest hst,
      fun _ hval hval' htest hst => testExit_trains who hsolo hval hval' hon htest hst⟩,
    fun hwidth hinj hclr => ⟨bitInject_sends who hsolo hwidth hclr, testCounterClear_clears who hsolo hwidth hinj⟩⟩

end Sys2Proof

/-! Training and the ways out of UP (R519 to R523). -/

namespace Sys2Proof

open Sys2Proof.Machine

theorem sess_modSess_other (s : State) (b : Nat) (rx : Bool) (f : Session → Session) : (s.modSess b rx f).sess b (!rx) = s.sess b (!rx) := by
  have hne : 2 * b + b2n (!rx) ≠ 2 * b + b2n rx := by cases rx <;> simp [b2n]
  exact tabGet_tabMod_other _ _ _ _ _ hne

section
variable {s : State} {b : Nat}

/-- A session that has ended, with what was exchanged for the next one. -/
def sessionEnded (x : Session) : Session := { x with running := false, own := none, peer := none }

theorem endSessions_sess (rx : Bool) : (endSessions b s).sess b rx = if (s.sess b rx).enabled then sessionEnded (s.sess b rx) else s.sess b rx := by
  have hstep : ∀ (u : State) (r : Bool), (if (u.sess b r).enabled then u.modSess b r fun x => { x with running := false, own := none, peer := none } else u).sess b r =
      if (u.sess b r).enabled then sessionEnded (u.sess b r) else u.sess b r := fun u r => by
    split
    · rw [sess_modSess_same]
      rfl
    · rfl
  have hother : ∀ (u : State) (r : Bool), (if (u.sess b r).enabled then u.modSess b r fun x => { x with running := false, own := none, peer := none } else u).sess b (!r) =
      u.sess b (!r) := fun u r => by
    split
    · exact sess_modSess_other u b r _
    · rfl
  unfold endSessions
  rw [forEach_cons, forEach_cons, forEach_nil]
  cases rx with
  | false =>
    refine (hother _ true).trans ?_
    exact hstep s false
  | true =>
    refine (hstep _ true).trans ?_
    rw [show (State.sess _ b true) = s.sess b true from hother s false]

theorem linkDown_sess (rx : Bool) (h : (s.sess b rx).enabled = true) : (linkDown b s).sess b rx = sessionEnded (s.sess b rx) := by
  have hlink : (s.modLink b fun l => { l with st := 0 }).sess b rx = s.sess b rx := rfl
  have hend := endSessions_sess (s := s.modLink b fun l => { l with st := 0 }) (b := b) rx
  rw [hlink, h, if_pos rfl] at hend
  exact hend

/-- A direction that is not bound has no session (R420). -/
theorem startSession_unbound (rx : Bool) (h : bit (s.reg (0xA_0200 + 0x10 * b)) (if rx then 30 else 31) = false) :
    startSession b rx s = s.modSess b rx (sessionBound false (fld (s.reg (0xA_0200 + 0x10 * b)) (if rx then 0 else 8) 6)) := by
  unfold startSession
  dsimp only
  rw [h]
  rfl

/-- A bundle whose training has succeeded (R523). -/
def trained (pb : Fin 8) (map : BitVec 24) (inv : BitVec 8) (x : Bundle) : Bundle :=
  { x with st := 6, attempts := 0, timeouts := 0, clkLock := true, txIdle := false, rxIdle := false, firstMark := true,
           partner := mkBit 31 true ||| mkFld 24 3 pb ||| mkFld 0 24 map.toNat, pinv := inv,
           woken := false, sleepAsk := false,
           lanes := (List.range 8).foldl (fun t k => tabMod {} t k (fun (l : Lane) => { l with
                      lock := true, seq := none, badMs := false, lowDens := 0, guarding := false })) x.lanes }

/-- A link in INIT. -/
def linkInit (l : Link) : Link := { l with st := 1, nakSent := false, resends := 0 }

/-- A link that has told what it has freed. -/
def linkReported (l : Link) : Link := { l with reported := l.freed }

theorem sendInit_bun : (sendInit b s).bun b = { s.bun b with link := linkReported (s.bun b).link } :=
  bun_modLink_same ..

/-- A bundle with no session in either direction (R420). -/
def sessionsUnbound (b : Nat) (s : State) : State :=
  (s.modSess b false (sessionBound false (fld (s.reg (0xA_0200 + 0x10 * b)) 8 6))).modSess b true
    (sessionBound false (fld (s.reg (0xA_0200 + 0x10 * b)) 0 6))

theorem startSessions_unbound (h : fld (s.reg (0xA_0200 + 0x10 * b)) 30 2 = 0) :
    startSession b true (startSession b false s) = sessionsUnbound b s := by
  have htx : bit (s.reg (0xA_0200 + 0x10 * b)) 31 = false := bit_of_fld_zero h (by decide) (by decide)
  have hrx : bit (s.reg (0xA_0200 + 0x10 * b)) 30 = false := bit_of_fld_zero h (by decide) (by decide)
  rw [startSession_unbound false htx]
  exact startSession_unbound true hrx

theorem sessionsUnbound_sess (rx : Bool) : ((sessionsUnbound b s).sess b rx).enabled = false := by
  unfold sessionsUnbound
  cases rx with
  | true =>
    rw [sess_modSess_same]
    rfl
  | false =>
    rw [show false = !true from rfl, sess_modSess_other, show (!true) = false from rfl, sess_modSess_same]
    rfl

theorem trainingUp_spec (b : BundleId) (pb : Fin 8) (map : BitVec 24) (inv : BitVec 8) (us : BitVec 16)
    (htrain : (s.bun b).training = true) (hwoken : (s.bun b).woken = false) (hsleep : s.regB (gvlReg b 0) 29 = false)
    (hpower : s.pstate < 3) (hcfg : fld (s.reg (0xA_0200 + 0x10 * b)) 30 2 = 0) : Completes (.trainingUp b pb map inv us) s fun t =>
      (t.bun b).st = 6 ∧ (t.bun b).link.st = 1 ∧ (t.bun b).partner = mkBit 31 true ||| mkFld 24 3 pb ||| mkFld 0 24 map.toNat ∧
      (t.bun b).pinv = inv ∧ (t.bun b).attempts = 0 ∧ (t.sess b false).enabled = false ∧ (t.sess b true).enabled = false ∧
      Raised s t 0x0B02 [b, pb, map.toNat, us.toNat] ∧ OnlyChanges (.gvl :: .cry :: events) s t := by
  have hexec : exec (.trainingUp b pb map inv us) s = execTrainingUp b pb map inv us s := rfl
  unfold execTrainingUp at hexec
  dsimp only at hexec
  rw [if_pos htrain, hwoken, if_neg Bool.false_ne_true] at hexec
  obtain ⟨u, hu⟩ : ∃ u, raise 0x0B02 [b.val, pb.val, map.toNat, us.toNat] (s.modBun b (trained pb map inv)) = u := ⟨_, rfl⟩
  have hmod : Within (.gvl :: .cry :: events) s (s.modBun b (trained pb map inv)) := State.modBun_within.mono
  have hsu : Within (.gvl :: .cry :: events) s u := hu ▸ hmod.step raise_within
  have hubun : u.bun b = trained pb map inv (s.bun b) := by rw [← hu, raise_bun, bun_modBun_same]
  have hraised : Raised s u 0x0B02 [b, pb, map.toNat, us.toNat] := by
    rw [← hu]
    exact (raised_raise ..).before hmod
  obtain ⟨v, hv⟩ : ∃ v, sendInit b (u.modLink b linkInit) = v := ⟨_, rfl⟩
  have huv : Within [.gvl, .out] u v := hv ▸ State.modLink_within.mono.step sendInit_within
  have hvbun : v.bun b = { trained pb map inv (s.bun b) with link := linkReported (linkInit (trained pb map inv (s.bun b)).link) } := by
    rw [← hv, sendInit_bun, bun_modLink_same, hubun]
  have hsv : Within (.gvl :: .cry :: events) s v := hsu.step huv
  have hregs : ∀ o, v.reg o = s.reg o := hsv.frame .regs (by decide)
  have hsessions := startSessions_unbound (s := v) (b := b) (by rw [hregs, hcfg])
  have hlys : v.lys = s.lys := hsv.frame .lys (by decide)
  change exec (.trainingUp b pb map inv us) s = .next (if (startSession b true (startSession b false (sendInit b
      ((raise 0x0B02 [b.val, pb.val, map.toNat, us.toNat] (s.modBun b (trained pb map inv))).modLink b linkInit)))).regB (gvlReg b 0) 29 = true ∨
      3 ≤ (startSession b true (startSession b false (sendInit b
      ((raise 0x0B02 [b.val, pb.val, map.toNat, us.toNat] (s.modBun b (trained pb map inv))).modLink b linkInit)))).pstate then _ else
      startSession b true (startSession b false (sendInit b
      ((raise 0x0B02 [b.val, pb.val, map.toNat, us.toNat] (s.modBun b (trained pb map inv))).modLink b linkInit)))) at hexec
  have hstay : ¬((sessionsUnbound b v).regB (gvlReg b 0) 29 = true ∨ 3 ≤ (sessionsUnbound b v).pstate) := by
    have hreg : (sessionsUnbound b v).regB (gvlReg b 0) 29 = false := by
      rw [State.regB, show (sessionsUnbound b v).reg (gvlReg b 0) = v.reg (gvlReg b 0) from rfl, hregs]
      exact hsleep
    have hp : (sessionsUnbound b v).pstate = s.pstate := by
      change v.lys.pstate = s.lys.pstate
      rw [hlys]
    rw [hreg, hp]
    simp [hpower]
  rw [hu, hv, hsessions, if_neg hstay] at hexec
  have hbun : (sessionsUnbound b v).bun b = { trained pb map inv (s.bun b) with link := linkReported (linkInit (trained pb map inv (s.bun b)).link) } := hvbun
  have hlast : Within [.cry] v (sessionsUnbound b v) := State.modSess_within.step State.modSess_within
  refine ⟨_, hexec, ?_, ?_, ?_, ?_, ?_, sessionsUnbound_sess false, sessionsUnbound_sess true, (hraised.within huv).within hlast,
    (hsv.step hlast).frame⟩
  all_goals
    rw [hbun]
    rfl

theorem trainingTimeout_spec (b : BundleId) (phase : Fin 6) (htwin : s.twinBundle b = false) (htrain : (s.bun b).training = true)
    (hfew : (s.bun b).timeouts < 8) : Completes (.trainingTimeout b phase none) s fun t =>
      t.bun b = { s.bun b with st := 8, attempts := min 127 ((s.bun b).attempts + 1), timeouts := (s.bun b).timeouts + 1 } ∧
      Raised s t 0x0B04 [b, phase, min 127 ((s.bun b).attempts + 1)] ∧ OnlyChanges (.gvl :: events) s t := by
  have hexec : exec (.trainingTimeout b phase none) s = execTrainingTimeout b phase none s := rfl
  unfold execTrainingTimeout at hexec
  rw [if_pos htrain] at hexec
  dsimp only at hexec
  rw [bun_modBun_same] at hexec
  dsimp only at hexec
  rw [if_pos (show (s.bun b).timeouts + 1 ≤ 8 ∨ ((s.bun b).timeouts + 1 - 8) % 64 = 0 from .inl (by omega)),
    show State.twinBundle (raise _ _ (State.modBun _ _ _)) b = false from (twinBundle_of_cfg (raise_cfg ..) b).trans htwin,
    if_neg Bool.false_ne_true] at hexec
  have hmod : Within (.gvl :: events) s (s.modBun b fun x => { x with st := 8, attempts := min 127 (x.attempts + 1), timeouts := x.timeouts + 1 }) :=
    State.modBun_within.mono
  refine ⟨_, hexec, ?_, (raised_raise ..).before hmod, (hmod.step raise_within).frame⟩
  rw [raise_bun, bun_modBun_same]

/-- Leaving UP trains again, keeps what waits for its acknowledgement and ends the sessions (R522). -/
theorem leaveUp_ends (hup : (s.bun b).st = 6) (hpair : (s.bun b).link.pair = false) (htwin : s.twinBundle b = false) (n : Nat) :
    ((leaveUp b n s).bun b).st = 1 ∧ ((leaveUp b n s).bun b).link.st = 0 ∧ ((leaveUp b n s).bun b).link.retry = (s.bun b).link.retry ∧
      (∀ rx, (s.sess b rx).enabled = true →
        ((leaveUp b n s).sess b rx).running = false ∧ ((leaveUp b n s).sess b rx).own = none ∧ ((leaveUp b n s).sess b rx).peer = none) ∧
      Raised s (leaveUp b n s) 0x0B03 [b, n] ∧ OnlyChanges (.gvl :: .cry :: events) s (leaveUp b n s) := by
  obtain ⟨hst, hlink, hraised, hw⟩ := leaveUp_spec hup hpair htwin n
  refine ⟨hst, by rw [hlink]; rfl, by rw [hlink]; rfl, fun rx hen => ?_, hraised, hw.frame⟩
  have hkept : (raise 0x0B03 [b, n] s).sess b rx = s.sess b rx := sess_of_cry (raise_cry ..) b rx
  rw [leaveUp_single hup hpair htwin, sess_of_cry (enterDetect_within.frame .cry (by decide)), linkDown_sess rx (by rw [hkept, hen]), hkept]
  exact ⟨rfl, rfl, rfl⟩

end

/-- Settles O41, by the training's ends and the ways out of UP. -/
theorem trainingLeadsToUp : Obligations.TrainingLeadsToUp := by
  intro s b htwin
  refine ⟨fun pb map inv us htrain hwoken hsleep hpower hcfg => trainingUp_spec b pb map inv us htrain hwoken hsleep hpower hcfg,
    fun phase htrain hfew => trainingTimeout_spec b phase htwin htrain hfew, fun hst => ⟨?_, ?_⟩, fun c hup hpair => ?_⟩
  · exact ⟨_, congrArg Host.Outcome.next (if_pos hst), enterDetect_bun.1, enterDetect_within.frame⟩
  · exact ⟨_, congrArg Host.Outcome.next (if_pos hst), enterDetect_bun.1, enterDetect_within.frame⟩
  · exact ⟨_, rfl, leaveUp_ends hup hpair htwin _⟩

end Sys2Proof

/-! Adaptation of the lanes, bursts and markers (R513 to R516, R528 to R531). -/

namespace Sys2Proof

open Sys2Proof.Machine

section
variable {s : State} {b : Nat}

theorem bun_modLane (s : State) (b k : Nat) (f : Lane → Lane) :
    (s.modLane b k f).bun b = { s.bun b with lanes := tabMod {} (s.bun b).lanes k f } := bun_modBun_same ..

theorem lane_modLane_same (s : State) (b k : Nat) (f : Lane → Lane) : ((s.modLane b k f).bun b).lane k = f ((s.bun b).lane k) := by
  rw [bun_modLane]
  exact tabGet_tabMod_same ({} : Lane) (s.bun b).lanes k f

theorem lane_modLane_other (s : State) (b : Nat) {k j : Nat} (f : Lane → Lane) (h : j ≠ k) :
    ((s.modLane b k f).bun b).lane j = (s.bun b).lane j := by
  rw [bun_modLane]
  exact tabGet_tabMod_other ({} : Lane) (s.bun b).lanes k j f h

/-- Lanes that are changed one after the other, each once. -/
theorem forEach_modLane {l : List Nat} (hl : l.Nodup) (f : Nat → Lane → Lane) (j : Nat) :
    ((forEach l (fun k s => s.modLane b k (f k)) s).bun b).lane j = if j ∈ l then f j ((s.bun b).lane j) else (s.bun b).lane j := by
  induction l generalizing s with
  | nil => rfl
  | cons k l ih =>
    obtain ⟨hk, hl⟩ := List.nodup_cons.mp hl
    rw [forEach_cons, ih hl]
    rcases eq_or_ne j k with rfl | hj
    · rw [if_neg hk, if_pos (by simp), lane_modLane_same]
    · rw [lane_modLane_other _ _ _ hj]
      simp [hj]

/-- What changing lanes leaves of the bundle. -/
theorem forEach_modLane_bun (l : List Nat) (f : Nat → Lane → Lane) :
    ∃ t, (forEach l (fun k s => s.modLane b k (f k)) s).bun b = { s.bun b with lanes := t } := by
  induction l generalizing s with
  | nil => exact ⟨(s.bun b).lanes, rfl⟩
  | cons k l ih =>
    obtain ⟨t, ht⟩ := ih (s := s.modLane b k (f k))
    rw [bun_modLane] at ht
    exact ⟨t, ht⟩

/-! ### Windows -/

theorem adaptWindowEnd_good {b : BundleId} {k : LaneId} {n : Nat} {m : BitVec 6} {taps : BitVec 30} (hup : (s.bun b).st = 6)
    (hrx : (s.bun b).rxIdle = false) (hfrozen : ((s.bun b).lane k).frozen = false) (hdens : adaptDens s b ≤ n) (hlow : adaptLow s b ≤ m.toNat) :
    exec (.adaptWindowEnd b k n m 0 taps) s = .next (s.modLane b k fun _ =>
      { (s.bun b).lane k with density := n, margin := m.toNat, okWin := ((s.bun b).lane k).okWin + 1, lowDens := 0,
                              taps := taps, guard := 0, guarding := false,
                              badMs := ((s.bun b).lane k).badMs || decide (m.toNat < adaptGood s b) }) := by
  have hexec : exec (.adaptWindowEnd b k n m 0 taps) s = execAdaptWindowEnd b k n m 0 taps s := rfl
  rw [hexec]
  unfold execAdaptWindowEnd
  dsimp only
  rw [if_pos ⟨.inr hup, by rw [hrx]; rfl⟩]
  simp only [hdens, hlow, hfrozen, Nat.not_lt.mpr hlow, decide_true, decide_false, Bool.and_false, Bool.false_and, Bool.not_true,
    Bool.not_false, Bool.and_true, Bool.or_false, if_true, and_self, Nat.lt_irrefl, Bool.false_eq_true, if_false, false_and,
    show ¬ 977 ≤ 0 by decide]
  rfl

theorem adaptWindowEnd_guards {b : BundleId} {k : LaneId} {n : Nat} {m : BitVec 6} {taps : BitVec 30} (hup : (s.bun b).st = 6)
    (hrx : (s.bun b).rxIdle = false) (hfrozen : ((s.bun b).lane k).frozen = false) (hdens : adaptDens s b ≤ n) (hlow : m.toNat < adaptLow s b)
    (hguard : ((s.bun b).lane k).guarding = false) :
    exec (.adaptWindowEnd b k n m 0 taps) s = .next (raise 0x0B05 [b, k, m.toNat] (s.modLane b k fun _ =>
      { (s.bun b).lane k with density := n, margin := m.toNat, okWin := 0, lowDens := 0,
                              taps := ((s.bun b).lane k).good.getD 0x20000000#30, guard := 0, guarding := true,
                              badMs := ((s.bun b).lane k).badMs || decide (m.toNat < adaptGood s b) })) := by
  have hexec : exec (.adaptWindowEnd b k n m 0 taps) s = execAdaptWindowEnd b k n m 0 taps s := rfl
  rw [hexec]
  unfold execAdaptWindowEnd
  dsimp only
  rw [if_pos ⟨.inr hup, by rw [hrx]; rfl⟩]
  simp only [hdens, hlow, hup, hfrozen, hguard, Nat.not_le.mpr hlow, decide_true, decide_false, Bool.and_false, Bool.false_and, Bool.not_true,
    Bool.not_false, Bool.and_true, Bool.or_false, if_true, and_false, Nat.lt_irrefl, Bool.false_eq_true, if_false, false_and,
    show ¬ 977 ≤ 0 by decide, beq_self_eq_true]
  rfl

/-! ### Idle directions -/

theorem rxWake_awake (h : (s.bun b).rxIdle = false) : rxWake b s = s := if_neg (by simp [h])

theorem leaveIdle_awake (h : (s.bun b).txIdle = false) : leaveIdle b s = s := if_neg (by simp [h])

/-- A direction that wakes keeps its state and its link. -/
theorem rxWake_bun : ((rxWake b s).bun b).st = (s.bun b).st ∧ ((rxWake b s).bun b).link = (s.bun b).link ∧
    ((rxWake b s).bun b).partner = (s.bun b).partner := by
  unfold rxWake
  split
  · rw [bun_modBun_same]
    exact ⟨rfl, rfl, rfl⟩
  · exact ⟨rfl, rfl, rfl⟩

/-! ### Bursts -/

/-- A lane that a burst has judged (R531). -/
def burstJudged (ms : List (BitVec 6)) (bad : Bool) (k : Nat) (l : Lane) : Lane :=
  { l with margin := (ms.getD k 0).toNat, guard := 0, guarding := bad && l.guarding }

/-- The lanes of a burst judged and the outcome told. -/
def burstTold (b : Nat) (ms : List (BitVec 6)) (bad : Bool) (out : Nat) (s : State) : State :=
  raise 0x0B06 [b, (s.bun b).burstMask.toNat, out]
    (forEach (bitsOf (s.bun b).burstMask) (fun k s => s.modLane b k (burstJudged ms bad k)) s)

theorem burstTold_spec (ms : List (BitVec 6)) (bad : Bool) (out : Nat) :
    (∃ t, (burstTold b ms bad out s).bun b = { s.bun b with lanes := t }) ∧
      Raised s (burstTold b ms bad out s) 0x0B06 [b, (s.bun b).burstMask.toNat, out] ∧
      Within (.gvl :: events) s (burstTold b ms bad out s) := by
  have hlanes : Within (.gvl :: events) s (forEach (bitsOf (s.bun b).burstMask) (fun k s => s.modLane b k (burstJudged ms bad k)) s) :=
    Within.forEach fun _ _ => State.modLane_within.mono
  refine ⟨?_, (raised_raise ..).before hlanes, hlanes.step raise_within⟩
  rw [burstTold, raise_bun]
  exact forEach_modLane_bun ..

theorem burstBad_iff (ms : List (BitVec 6)) :
    ((bitsOf (s.bun b).burstMask).any fun k => decide ((ms.getD k 0).toNat < adaptLow s b)) = true ↔
      ∃ k ∈ bitsOf (s.bun b).burstMask, (ms.getD k 0).toNat < adaptLow s b := by
  simp only [List.any_eq_true, decide_eq_true_eq]

theorem exec_retrainBurstEnd {b : BundleId} {ms : List (BitVec 6)} (hup : (s.bun b).st = 6) (hburst : 0 < (s.bun b).burst) {bad : Bool}
    (hbad : ((bitsOf (s.bun b).burstMask).any fun k => decide ((ms.getD k 0).toNat < adaptLow s b)) = bad) :
    exec (.retrainBurstEnd b ms) s = .next (
      if (if !bad then 1 else if (s.bun b).burst = 1 then 2 else 3) = 1 then
        (burstTold b ms bad (if !bad then 1 else if (s.bun b).burst = 1 then 2 else 3) s).modBun b fun x => { x with burst := 0, burstMask := 0 }
      else if (if !bad then 1 else if (s.bun b).burst = 1 then 2 else 3) = 2 then
        sendRetrain b (s.bun b).burstMask 2 (burstTold b ms bad (if !bad then 1 else if (s.bun b).burst = 1 then 2 else 3) s)
      else leaveUp b 5 (burstTold b ms bad (if !bad then 1 else if (s.bun b).burst = 1 then 2 else 3) s)) := by
  subst hbad
  exact if_pos ⟨hup, hburst⟩

theorem retrainBurstEnd_good {b : BundleId} {ms : List (BitVec 6)} (hup : (s.bun b).st = 6) (hburst : 0 < (s.bun b).burst)
    (hgood : ∀ k ∈ bitsOf (s.bun b).burstMask, adaptLow s b ≤ (ms.getD k 0).toNat) : Completes (.retrainBurstEnd b ms) s fun t =>
      (t.bun b).burst = 0 ∧ (t.bun b).burstMask = 0 ∧ Raised s t 0x0B06 [b, (s.bun b).burstMask.toNat, 1] ∧
      OnlyChanges (.gvl :: events) s t := by
  have hbad : ((bitsOf (s.bun b).burstMask).any fun k => decide ((ms.getD k 0).toNat < adaptLow s b)) = false := by
    rw [Bool.eq_false_iff]
    intro h
    obtain ⟨k, hk, hlt⟩ := (burstBad_iff ms).mp h
    exact absurd (hgood k hk) (Nat.not_le.mpr hlt)
  obtain ⟨-, hraised, hw⟩ := burstTold_spec (s := s) (b := b) ms false 1
  refine ⟨_, exec_retrainBurstEnd hup hburst hbad, ?_, ?_, hraised.within State.modBun_within, (hw.step State.modBun_within).frame⟩
  all_goals exact (congrArg _ (bun_modBun_same ..)).trans rfl

theorem retrainBurstEnd_fails {b : BundleId} {ms : List (BitVec 6)} {k : Nat} (hup : (s.bun b).st = 6) (hburst : 2 ≤ (s.bun b).burst)
    (hk : k ∈ bitsOf (s.bun b).burstMask) (hlow : (ms.getD k 0).toNat < adaptLow s b) (htwin : s.twinBundle b = false)
    (hpair : (s.bun b).link.pair = false) : Completes (.retrainBurstEnd b ms) s fun t =>
      (t.bun b).st = 1 ∧ Raised s t 0x0B06 [b, (s.bun b).burstMask.toNat, 3] ∧ Raised s t 0x0B03 [b, 5] ∧
      OnlyChanges (.gvl :: .cry :: events) s t := by
  have hexec := exec_retrainBurstEnd hup (by omega) ((burstBad_iff ms).mpr ⟨k, hk, hlow⟩)
  rw [show (if (!true) = true then 1 else if (s.bun b).burst = 1 then 2 else 3) = 3 from
    (if_neg (by decide)).trans (if_neg (by omega))] at hexec
  obtain ⟨⟨t, hbun⟩, hraised, hw⟩ := burstTold_spec (s := s) (b := b) ms true 3
  obtain ⟨hst, -, hdown, hw'⟩ := leaveUp_spec (s := burstTold b ms true 3 s) (b := b) (by rw [hbun]; exact hup) (by rw [hbun]; exact hpair)
    (by rw [twinBundle_of_cfg (hw.frame .cfg (by decide)), htwin]) 5
  exact ⟨_, hexec, hst, hraised.within hw', hdown.before hw, ((hw.mono (l := .gvl :: .cry :: events)).trans hw').frame⟩

end

/-- Settles O42, by the window's ends, the burst's judgement and the markers. -/
theorem lanesAdapt : Obligations.LanesAdapt := by
  intro s b hup
  refine ⟨fun k n m taps hrx hfrozen hdens hlow => ?_, fun k n m taps hrx hfrozen hdens hlow hguard => ?_, ?_, fun mask htx hrx => ?_,
    fun ms hburst hgood => retrainBurstEnd_good hup hburst hgood,
    fun ms k hburst hk hlow htwin hpair => retrainBurstEnd_fails hup hburst hk hlow htwin hpair, fun bip => ?_,
    fun k pb l n bip own prev hpb hl hseq hrx => ?_, fun k pb l n bip own hpb htwin hpair => ?_⟩
  · exact ⟨_, adaptWindowEnd_good hup hrx hfrozen hdens hlow, lane_modLane_same .., fun j hj => lane_modLane_other _ _ _ hj,
      State.modLane_within.frame⟩
  · have hmod : ∀ f : Lane → Lane, Within (.gvl :: events) s (s.modLane b k f) := fun f => State.modLane_within.mono
    refine ⟨_, adaptWindowEnd_guards hup hrx hfrozen hdens hlow hguard, ?_, ?_, (raised_raise ..).before (hmod _), ((hmod _).step raise_within).frame⟩
    all_goals rw [raise_bun, lane_modLane_same]
  · refine ⟨_, congrArg Host.Outcome.next (if_pos hup), fun k hk => ?_, (Within.forEach fun _ _ => State.modLane_within).frame⟩
    refine (forEach_modLane (List.nodup_range) (fun _ (l : Lane) => { l with good := if l.badMs then l.good else some l.taps, badMs := false }) k).trans ?_
    rw [if_pos (List.mem_range.mpr hk)]
  · refine ⟨_, congrArg Host.Outcome.next (if_pos hup), ?_, ?_⟩
    all_goals rw [rxWake_awake hrx, leaveIdle_awake htx]
    · rfl
    · exact State.send_within.frame
  · exact ⟨_, if_pos hup, rfl, (bun_modBun_same ..).trans rfl, ((State.send_within.mono (l := [.gvl, .out])).step State.modBun_within).frame⟩
  · have hexec : exec (.markerReceive b k pb l n bip own) s = execMarkerReceive b k pb l n bip own s := rfl
    unfold execMarkerReceive at hexec
    dsimp only at hexec
    rw [if_pos hup, rxWake_awake hrx, if_neg (by rw [hpb, hl]; simp)] at hexec
    refine ⟨_, hexec, ?_, State.modLane_within.frame⟩
    rw [lane_modLane_same, hseq]
    rfl
  · have hexec : exec (.markerReceive b k pb l n bip own) s = execMarkerReceive b k pb l n bip own s := rfl
    unfold execMarkerReceive at hexec
    dsimp only at hexec
    rw [if_pos hup, if_pos (.inl hpb)] at hexec
    obtain ⟨hst, hlink, -⟩ := rxWake_bun (s := s) (b := b)
    have hwake : Within [.gvl] s (rxWake b s) := rxWake_within
    obtain ⟨hst', -, hraised, hw⟩ := leaveUp_spec (s := rxWake b s) (b := b) (hst.trans hup) (by rw [hlink]; exact hpair)
      (by rw [twinBundle_of_cfg (hwake.frame .cfg (by decide)), htwin]) 3
    exact ⟨_, hexec, hst', hraised.before hwake, ((hwake.mono (l := .gvl :: .cry :: events)).trans hw).frame⟩

end Sys2Proof

/-! Electrical idle, deep sleep, beacons and the test checker (R532 to R542). -/

namespace Sys2Proof

open Sys2Proof.Machine

section
variable {s : State} {b : Nat}

/-- SLEEP is entered with the link down (R536). -/
theorem enterSleep_spec (htwin : s.twinBundle b = false) :
    ((enterSleep b s).bun b).st = 7 ∧ ((enterSleep b s).bun b).sleepAsk = false ∧ ((enterSleep b s).bun b).link.st = 0 ∧
      Raised s (enterSleep b s) 0x0B09 [b, 1] ∧ Within (.gvl :: .cry :: events) s (enterSleep b s) := by
  obtain ⟨u, hu⟩ : ∃ u, (linkDown b s).modBun b (fun x => { x with st := 7, sleepAsk := false, clkLock := false, txIdle := false, rxIdle := false }) = u :=
    ⟨_, rfl⟩
  have hsu : Within (.gvl :: .cry :: events) s u := hu ▸ linkDown_within.mono.step State.modBun_within
  have hall : Within (.gvl :: .cry :: events) s (raise 0x0B09 [b, 1] u) := hsu.step raise_within
  have hsleep : enterSleep b s = raise 0x0B09 [b, 1] u := by
    unfold enterSleep
    dsimp only
    rw [hu]
    exact twinFell_single (by rw [twinBundle_of_cfg (hall.frame .cfg (by decide)), htwin])
  have hbun : u.bun b = { s.bun b with link := linkOver (s.bun b).link, st := 7, sleepAsk := false, clkLock := false, txIdle := false, rxIdle := false } := by
    rw [← hu, bun_modBun_same, linkDown_bun]
  rw [hsleep, raise_bun, hbun]
  exact ⟨rfl, rfl, rfl, (raised_raise ..).before hsu, hall⟩

theorem ctr_add_within {c : Ctr} {n : Nat} (h : c.n + n < 2 ^ 48) : c.add n = { n := c.n + n, ovf := c.ovf } := by
  have hmin : min (c.n + n) (2 ^ 48 - 1) = c.n + n := by omega
  have hovf : decide (2 ^ 48 - 1 < c.n + n) = false := decide_eq_false (by omega)
  rw [Ctr.add, hmin, hovf, Bool.or_false]

theorem checkerSyncChange_synced {b : BundleId} {k : LaneId} {on : Bool} {n e : Nat} (htest : (s.bun b).st = 9)
    (hsync : ((s.bun b).lane k).sync = true) (hbits : ((s.bun b).lane k).bits.n + n < 2 ^ 48) (herr : ((s.bun b).lane k).err.n + e < 2 ^ 48) :
    exec (.checkerSyncChange b k on n e) s = .next (s.modLane b k fun _ => { (s.bun b).lane k with
      bits := { n := ((s.bun b).lane k).bits.n + n, ovf := ((s.bun b).lane k).bits.ovf },
      err := { n := ((s.bun b).lane k).err.n + e, ovf := ((s.bun b).lane k).err.ovf }, sync := on }) := by
  have hexec : exec (.checkerSyncChange b k on n e) s = execCheckerSyncChange b k on n e s := rfl
  rw [hexec]
  unfold execCheckerSyncChange
  dsimp only
  rw [if_pos htest, hsync, if_pos rfl, ctr_add_within hbits, ctr_add_within herr]
  cases ((s.bun b).lane k).bits.ovf <;> cases ((s.bun b).lane k).err.ovf <;> rfl

theorem checkerSyncChange_lost {b : BundleId} {k : LaneId} {on : Bool} {n e : Nat} (htest : (s.bun b).st = 9)
    (hsync : ((s.bun b).lane k).sync = false) :
    exec (.checkerSyncChange b k on n e) s = .next (s.modLane b k fun _ => { (s.bun b).lane k with sync := on }) := by
  have hexec : exec (.checkerSyncChange b k on n e) s = execCheckerSyncChange b k on n e s := rfl
  rw [hexec]
  unfold execCheckerSyncChange
  dsimp only
  rw [if_pos htest, hsync, if_neg Bool.false_ne_true]
  dsimp only
  rw [if_neg (by simp), if_neg (by simp)]
  rfl

end

/-- Settles O43, by what each of the lanes' commands does. -/
theorem lanesSleepAndTest : Obligations.LanesSleepAndTest := by
  intro s b htwin
  refine ⟨fun hup htx hidle => ?_, fun hup => ?_, fun hup htx hwaiting => ?_, fun hup => ?_, fun hup hask => ?_, fun hup hask hpair => ?_,
    fun hsleep hbit hpower => ⟨?_, ?_⟩, fun k on n e htest hsync => ?_, fun k on n e htest hsync hbits herr => ?_, fun k htest hsync hovf => ?_⟩
  · refine ⟨_, congrArg Host.Outcome.next ((if_pos (.inl hidle)).trans (if_pos ⟨hup, by rw [htx]; rfl, by rw [htwin]; rfl⟩)), rfl,
      (bun_modBun_same ..).trans rfl, ((State.send_within.mono (l := [.gvl, .out])).step State.modBun_within).frame⟩
  · exact ⟨_, congrArg Host.Outcome.next (if_pos hup), bun_modBun_same .., State.modBun_within.frame⟩
  · obtain ⟨u, hu⟩ : ∃ u, (s.send (.block b 0x1E 32)).modBun b (fun x => { x with txIdle := false, firstMark := true }) = u := ⟨_, rfl⟩
    have hubun : u.bun b = { s.bun b with txIdle := false, firstMark := true } := by
      rw [← hu, bun_modBun_same]
      rfl
    have hsu : Within [.gvl, .out] s u := hu ▸ State.send_within.mono.step State.modBun_within
    have hleave : leaveIdle b s = u.modLink b fun l => { l with waiting := [] } := by
      unfold leaveIdle
      rw [if_pos htx, hu]
      exact pump_empty (by rw [hubun]; exact hwaiting)
    have hexec : exec (.eidleExit b) s = .next (leaveIdle b s) := congrArg Host.Outcome.next (if_pos hup)
    rw [hleave] at hexec
    refine ⟨_, hexec, by rw [State.modLink_out, ← hu]; rfl, ?_, ?_, (hsu.step State.modLink_within).frame⟩
    all_goals
      rw [bun_modLink_same, hubun]
  · obtain ⟨hst, -, hlink, hraised, hw⟩ := enterSleep_spec (s := s.send (.block b 0x79 4)) (b := b) htwin
    have hsend : Within (.gvl :: .cry :: events) s (s.send (.block b 0x79 4)) := State.send_within.mono
    refine ⟨_, congrArg Host.Outcome.next (if_pos hup), hst, hlink, hw.sent _ ?_, hraised.before hsend, (hsend.trans hw).frame⟩
    simp [State.send]
  · obtain ⟨hst, hsleep, -, hraised, hw⟩ := enterSleep_spec htwin
    exact ⟨_, congrArg Host.Outcome.next (if_pos ⟨hup, hask⟩), hst, hsleep, hraised, hw.frame⟩
  · obtain ⟨hst, -, hraised, hw⟩ := leaveUp_spec hup hpair htwin 6
    exact ⟨_, congrArg Host.Outcome.next (if_pos hask), hst, hraised, hw.frame⟩
  · exact ⟨_, congrArg Host.Outcome.next (if_pos ⟨hsleep, by rw [hbit]; rfl, hpower⟩), rfl, (bun_modBun_same ..).trans rfl,
      ((State.send_within.mono (l := [.gvl, .out])).step State.modBun_within).frame⟩
  · exact ⟨_, congrArg Host.Outcome.next (if_pos ⟨hsleep, by rw [hbit]; rfl, hpower⟩), bun_modBun_same .., State.modBun_within.frame⟩
  · exact ⟨_, checkerSyncChange_lost htest hsync, lane_modLane_same .., State.modLane_within.frame⟩
  · refine ⟨_, checkerSyncChange_synced htest hsync hbits herr, ?_, ?_, ?_, State.modLane_within.frame⟩
    all_goals rw [lane_modLane_same]
  · have hmod : ∀ f : Lane → Lane, Within (.gvl :: events) s (s.modLane b k f) := fun f => State.modLane_within.mono
    refine ⟨_, if_pos ⟨htest, hsync, by rw [if_neg Bool.false_ne_true, hovf]; rfl⟩, ?_, ?_, (raised_raise ..).before (hmod _), ((hmod _).step raise_within).frame⟩
    all_goals
      rw [raise_bun, lane_modLane_same]
      rfl

end Sys2Proof

/-! A replay that gives up on a bundle whose partner shares another one (R553, R617). -/

namespace Sys2Proof

open Sys2Proof.Machine

/-- A bundle in UP whose last INIT carried PAIR and ACTIVE. -/
def pairBundle (retry : List FlitBytes) (resends : Nat) : Bundle :=
  { st := 6, link := { st := 2, pair := true, retry := retry, resends := resends } }

/-- Two bundles lead to the same pair; the first has resent its flit eight times without an ACK. -/
def replaysSpent : State :=
  { State.reset with gvl := [(2, pairBundle [[]] 8), (3, pairBundle [] 0)] }

/-- The bundle that gives up. -/
def spentBundle : BundleId := 2

theorem replaysSpent_retry :
    observed (fun t => (t.bun spentBundle).link.retry) (.replayTimeout spentBundle) replaysSpent = some [] := by decide +kernel

/-- Refutes O44: a bundle of a partner's pair that leaves UP after eight resends hands its link store, and with it the retry
buffer, to the standby bundle of the group, so that its own retry buffer is empty. -/
theorem not_linkLayerDelivers : ¬ Obligations.LinkLayerDelivers := by
  unfold Obligations.LinkLayerDelivers
  intro h
  obtain ⟨-, -, hresends, -⟩ := h replaysSpent spentBundle (by decide +kernel) (by decide +kernel) (by decide +kernel) (by decide +kernel)
  obtain ⟨-, hspent⟩ := hresends [] (by decide +kernel) (by decide +kernel) (by decide +kernel) (by decide +kernel)
    (by decide +kernel) (by decide +kernel) (by decide +kernel)
  obtain ⟨t, ht, -, hretry, -⟩ := hspent (by decide +kernel)
  have hsome := (observed_of_next (fun t => (t.bun spentBundle).link.retry) ht).symm.trans replaysSpent_retry
  rw [hretry] at hsome
  exact absurd hsome (by decide)

end Sys2Proof

/-! The census that numbers a hierarchy and the discovery of peers (R563 to R574). -/

namespace Sys2Proof

open Sys2Proof.Machine

/-! ### What sending leaves of the adoptions -/

/-- No bundle's adoption changes. -/
def AdoptionsKept (s t : State) : Prop := ∀ x, (t.bun x).link.adopted = (s.bun x).link.adopted

namespace AdoptionsKept
variable {s t u : State}

theorem trans (h : AdoptionsKept s t) (h' : AdoptionsKept t u) : AdoptionsKept s u := fun x => (h' x).trans (h x)

theorem of_gvl (h : t.gvl = s.gvl) : AdoptionsKept s t := fun x => by rw [bun_of_gvl h]

theorem modLink {b : Nat} {f : Link → Link} (hf : ∀ l, (f l).adopted = l.adopted) : AdoptionsKept s (s.modLink b f) := fun x => by
  rcases eq_or_ne x b with rfl | hx
  · rw [bun_modLink_same]
    exact hf _
  · rw [State.modLink, bun_modBun_other s _ hx]

theorem forEach {α : Type} {l : List α} {f : α → State → State} (hf : ∀ a v, AdoptionsKept v (f a v)) :
    AdoptionsKept s (Machine.forEach l f s) := by
  induction l generalizing s with
  | nil => exact fun _ => rfl
  | cons a l ih => exact (hf a s).trans ih

end AdoptionsKept

section
variable {s : State} {b : Nat}

theorem pumpGo_adopted (fs : List (List Byte)) (blocked : List Nat) (kept : List (List Byte)) :
    AdoptionsKept s (pumpGo b fs blocked kept s) := by
  induction fs generalizing s blocked kept with
  | nil => exact .modLink fun _ => rfl
  | cons f fs ih =>
    unfold pumpGo
    split
    · have hbuffer : AdoptionsKept s (bufferFlit b f s) := .modLink fun _ => rfl
      exact (hbuffer.trans (.of_gvl (sendWire_within.frame .gvl (by decide)))).trans (ih _ _)
    · exact ih _ _

theorem enqueue_adopted {flits : List (List Byte)} : AdoptionsKept s (enqueue b flits s) := by
  unfold enqueue pump
  refine AdoptionsKept.trans ?_ (pumpGo_adopted _ _ _)
  exact .modLink fun _ => rfl

theorem sendMgmt_adopted {kind : Nat} {args : List (Nat × Nat)} : AdoptionsKept s (sendMgmt b kind args s) := enqueue_adopted

theorem sendMgmt_net {kind : Nat} {args : List (Nat × Nat)} : (sendMgmt b kind args s).net = s.net :=
  sendMgmt_within.frame .net (by decide)

theorem takeMsg_net {vc : Nat} {p : List Byte → Bool} : (takeMsg b vc p s).net = s.net := takeMsg_within.frame .net (by decide)

theorem takeMsg_cfg {vc : Nat} {p : List Byte → Bool} : (takeMsg b vc p s).cfg = s.cfg := takeMsg_within.frame .cfg (by decide)

theorem netMode_of_cfg {t : State} (h : t.cfg = s.cfg) : t.netMode = s.netMode := by rw [State.netMode, h, State.netMode]

/-! ### The census of a worker -/

/-- The bundles that a census still asks. -/
def askedNext (s : State) (except_ : Option Nat) : List Nat := (List.range 8).filter fun b =>
  !s.twinBundle b && (if s.netMode = 2 then (s.bun b).st == 6 else (s.bun b).link.st == 2) && except_ != some b &&
    !(s.net.children.any fun c => c.bundle == b)

/-- Every asked bundle joins the children; nothing else of the network changes (R563). -/
theorem askChildren_net (depth : Nat) (except_ : Option Nat) :
    (askChildren depth except_ s).net = { s.net with children := s.net.children ++ (askedNext s except_).map fun x => { bundle := x } } := by
  have hloop : ∀ (l : List Nat) (u : State), (forEach l (fun b s => sendMgmt b 2 [(1, depth), (8, s.cfg.uid.toNat)]
      (s.modNet fun n => { n with children := n.children ++ [{ bundle := b }] })) u).net =
        { u.net with children := u.net.children ++ l.map fun x => { bundle := x } } := fun l => by
    induction l with
    | nil => intro u; simp [forEach_nil]
    | cons x l ih =>
      intro u
      rw [forEach_cons, ih, sendMgmt_net]
      simp [State.modNet]
  exact hloop _ s

theorem askChildren_adopted {depth : Nat} {except_ : Option Nat} : AdoptionsKept s (askChildren depth except_ s) :=
  .forEach fun _ _ => AdoptionsKept.trans (.of_gvl rfl) sendMgmt_adopted

/-- A worker whose census goes on has at most reported (R566). -/
theorem censusMoves_worker {p : Nat} (hmode : s.netMode = 2) (hparent : s.net.parent = some p) :
    ∃ c, (censusMoves s).net = { s.net with census := c } ∧ AdoptionsKept s (censusMoves s) ∧
      Within [.net, .gvl, .out] s (censusMoves s) ∧ (s.net.census = true → allReported s.net = true → c = false) := by
  unfold censusMoves
  rw [if_neg (show ¬s.netMode = 1 by omega), hparent]
  by_cases h : (s.net.census && allReported s.net) = true
  · rw [if_pos h]
    exact ⟨false, sendMgmt_net, AdoptionsKept.trans (.of_gvl rfl) sendMgmt_adopted,
      (State.modNet_within.mono (l := [.net, .gvl, .out])).step sendMgmt_within, fun _ _ => rfl⟩
  · rw [if_neg h]
    exact ⟨s.net.census, rfl, .of_gvl rfl, .refl, fun hc ha => absurd (by rw [hc, ha]; rfl) h⟩

theorem censusReceive_collects (b : BundleId) (d : Fin 4) (uid : BitVec 64) (hmode : s.netMode = 2) (htwin : s.twinBundle b = false)
    (hlink : s.linkHolds b = false) (hset : s.net.settled = false) (hparent : s.net.parent = none) :
    Completes (.censusReceive b d uid) s fun t =>
      t.net = { s.net with heard := s.net.heard ++ [(b.val, d.val, uid)], census := true } ∧ OnlyChanges [.net, .gvl] s t := by
  have hexec : exec (.censusReceive b d uid) s = execCensusReceive b d uid s := rfl
  unfold execCensusReceive at hexec
  dsimp only at hexec
  rw [hlink, if_neg Bool.false_ne_true, if_pos ⟨(netMode_of_cfg takeMsg_cfg).trans hmode, by
    rw [twinBundle_of_cfg takeMsg_cfg, htwin]; rfl⟩, if_pos (by rw [takeMsg_net, hparent, hset]; simp)] at hexec
  refine ⟨_, hexec, ?_, ((takeMsg_within.mono (l := [.net, .gvl])).step State.modNet_within).frame⟩
  simp [State.modNet, takeMsg_net]

theorem censusReceive_refuses (b : BundleId) (d : Fin 4) (uid : BitVec 64) (hmode : s.netMode = 2) (htwin : s.twinBundle b = false)
    (hlink : s.linkHolds b = false) (hparent : s.net.parent ≠ none) :
    Completes (.censusReceive b d uid) s fun t => t.net = s.net ∧ OnlyChanges [.gvl, .out] s t := by
  have hexec : exec (.censusReceive b d uid) s = execCensusReceive b d uid s := rfl
  unfold execCensusReceive at hexec
  dsimp only at hexec
  rw [hlink, if_neg Bool.false_ne_true, if_pos ⟨(netMode_of_cfg takeMsg_cfg).trans hmode, by
    rw [twinBundle_of_cfg takeMsg_cfg, htwin]; rfl⟩, if_neg (by rw [takeMsg_net]; simp [hparent])] at hexec
  exact ⟨_, hexec, sendMgmt_net.trans takeMsg_net, ((takeMsg_within.mono (l := [.gvl, .out])).step sendMgmt_within).frame⟩

theorem censusCollectEnd_adopts {b d : Nat} {uid : BitVec 64} (hmode : s.netMode = 2) (hparent : s.net.parent = none)
    (hheard : s.net.heard = [(b, d, uid)]) (hd : d ≤ 2) : Completes .censusCollectEnd s fun t =>
      t.net.parent = some b ∧ t.net.depth = d + 1 ∧ t.net.heard = [] ∧ (t.bun b).link.adopted = true ∧
        OnlyChanges [.net, .gvl, .out] s t := by
  have hexec : exec .censusCollectEnd s = execCensusCollectEnd s := rfl
  unfold execCensusCollectEnd at hexec
  dsimp only at hexec
  rw [hheard, if_neg (by simp [hmode, hparent]), show [(b, d, uid)].filter (fun h => decide (h.2.1 ≤ 2)) = [(b, d, uid)] by simp [hd]] at hexec
  dsimp only [List.foldl_nil] at hexec
  rw [forEach_cons, forEach_nil] at hexec
  obtain ⟨u, hu⟩ : ∃ u, State.modLink (State.modNet (s.modNet fun n => { n with heard := [] })
      fun n => { n with parent := some b, depth := d + 1 }) b (fun l => { l with adopted := true }) = u := ⟨_, rfl⟩
  rw [hu] at hexec
  have hunet : u.net = { s.net with heard := [], parent := some b, depth := d + 1 } := by rw [← hu]; rfl
  have hubun : (u.bun b).link.adopted = true := by rw [← hu, bun_modLink_same]
  have hsu : Within [.net, .gvl, .out] s u := by
    rw [← hu]
    exact (State.modNet_within.mono.step State.modNet_within).step State.modLink_within
  obtain ⟨v, hv⟩ : ∃ v, askChildren (d + 1) (some b) (sendMgmt b 3 [(1, b2n (b == b))] u) = v := ⟨_, rfl⟩
  rw [hv] at hexec
  have huv : Within [.net, .gvl, .out] u v := by
    rw [← hv]
    exact (sendMgmt_within.mono (l := [.net, .gvl, .out])).step askChildren_within
  have hvnet : v.net = { u.net with children := v.net.children } := by rw [← hv, askChildren_net, sendMgmt_net]
  have hvbun : AdoptionsKept u v := by
    rw [← hv]
    exact sendMgmt_adopted.trans askChildren_adopted
  have hvmode : v.netMode = 2 := (netMode_of_cfg ((hsu.trans huv).frame .cfg (by decide))).trans hmode
  obtain ⟨c, hnet, hbun, hlast, -⟩ := censusMoves_worker (s := v) (p := b) hvmode (by rw [hvnet, hunet])
  refine ⟨_, hexec, ?_, ?_, ?_, ((hvbun.trans hbun) b).trans hubun, ((hsu.trans huv).trans hlast).frame⟩
  all_goals rw [hnet, hvnet, hunet]

theorem censusCollectEnd_tooDeep {b d : Nat} {uid : BitVec 64} (hmode : s.netMode = 2) (hparent : s.net.parent = none)
    (hheard : s.net.heard = [(b, d, uid)]) (hd : 2 < d) : Completes .censusCollectEnd s fun t =>
      t.net.parent = none ∧ t.net.census = false ∧ t.net.heard = [] ∧ Raised s t 0x0B10 [s.cfg.uid.toNat, 1] ∧
        OnlyChanges (.net :: .gvl :: events) s t := by
  have hexec : exec .censusCollectEnd s = execCensusCollectEnd s := rfl
  unfold execCensusCollectEnd at hexec
  dsimp only at hexec
  rw [hheard, if_neg (by simp [hmode, hparent]), show [(b, d, uid)].filter (fun h => decide (h.2.1 ≤ 2)) = [] by simp [hd]] at hexec
  dsimp only at hexec
  rw [forEach_cons, forEach_nil] at hexec
  obtain ⟨u, hu⟩ : ∃ u, sendMgmt b 3 [(1, 0)] (s.modNet fun n => { n with heard := [] }) = u := ⟨_, rfl⟩
  have hsu : Within (.net :: .gvl :: events) s u := by
    rw [← hu]
    exact State.modNet_within.mono.step sendMgmt_within
  have hunet : u.net = { s.net with heard := [] } := by rw [← hu, sendMgmt_net]; rfl
  have hcfg : u.cfg = s.cfg := hsu.frame .cfg (by decide)
  rw [hu, hcfg] at hexec
  have hclose : Within (.net :: .gvl :: events) s (u.modNet fun n => { n with census := false }) := hsu.step State.modNet_within
  refine ⟨_, hexec, ?_, ?_, ?_, (raised_raise ..).before hclose, (hclose.step raise_within).frame⟩
  all_goals
    rw [raise_net]
    simp [State.modNet, hunet, hparent]

theorem censusTimeout_worker (hmode : s.netMode = 2) (hcensus : s.net.census = true) : Completes .censusTimeout s fun t =>
    t.net = { s.net with census := false } ∧ Raised s t 0x0B10 [s.cfg.uid.toNat, 2] ∧ OnlyChanges (.net :: events) s t := by
  have hexec : exec .censusTimeout s = execCensusTimeout s := rfl
  have hends : censusEnds s = raise 0x0B10 [s.cfg.uid.toNat, 2] (s.modNet fun n => { n with census := false }) := by
    unfold censusEnds
    rw [hcensus, if_neg (by decide)]
    dsimp only
    rw [if_neg (show ¬s.netMode = 1 by omega)]
  have hquiet : censusAwaited s = false := by simp [censusAwaited, hmode]
  unfold execCensusTimeout goOnAfterCensus at hexec
  rw [hquiet, Bool.false_and, Bool.false_and, if_neg Bool.false_ne_true, hends] at hexec
  have hclose : Within (.net :: events) s (s.modNet fun n => { n with census := false }) := State.modNet_within.mono
  exact ⟨_, hexec, raise_net .., (raised_raise ..).before hclose, (hclose.step raise_within).frame⟩

/-- A census that is not awaited, or a loader that is past its selection, goes on with nothing (R563). -/
theorem goOnAfterCensus_waits {t : State} (h : s.netMode = 2 ∨ t.cfg.stage ≠ 2) : goOnAfterCensus s t = t := by
  unfold goOnAfterCensus
  rcases h with h | h
  · simp [censusAwaited, h]
  · simp [h]

theorem reportReceive_worker {b : BundleId} {p size depth : Nat} (hmode : s.netMode = 2) (hlink : s.linkHolds b = false)
    (hparent : s.net.parent = some p) (hcensus : s.net.census = true) (hkids : s.net.children = [{ bundle := b, adopted := true }]) :
    Completes (.reportReceive b size depth) s fun t =>
      t.net = { s.net with children := [{ bundle := b, adopted := true, size := some size, depth := depth }], census := false } ∧
        OnlyChanges [.net, .gvl, .out] s t := by
  have hexec : exec (.reportReceive b size depth) s = execReportReceive b size depth s := rfl
  unfold execReportReceive takeReport at hexec
  dsimp only at hexec
  rw [hlink, if_neg Bool.false_ne_true, goOnAfterCensus_waits (.inl hmode)] at hexec
  obtain ⟨u, hu⟩ : ∃ u, (takeMsg b 3 (isMgmt 4) s).modNet (fun n => { n with children := n.children.map fun c =>
    if c.bundle = b.val ∧ c.adopted ∧ c.size.isNone then { c with size := some size, depth := depth } else c }) = u := ⟨_, rfl⟩
  rw [hu] at hexec
  have hsu : Within [.net, .gvl, .out] s u := by
    rw [← hu]
    exact takeMsg_within.mono.step State.modNet_within
  have hnet : u.net = { s.net with children := [{ bundle := b, adopted := true, size := some size, depth := depth }] } := by
    rw [← hu]
    simp [State.modNet, takeMsg_net, hkids]
  obtain ⟨c, hmoved, -, hlast, hends⟩ := censusMoves_worker (s := u) (p := p)
    ((netMode_of_cfg (hsu.frame .cfg (by decide))).trans hmode) (by rw [hnet]; exact hparent)
  have hc : c = false := hends (by rw [hnet]; exact hcensus) (by rw [hnet]; rfl)
  refine ⟨_, hexec, ?_, (hsu.trans hlast).frame⟩
  rw [hmoved, hnet, hc]

/-! ### Addresses -/

/-- The network of a node that has taken an address and has no children (R567). -/
def addressed (addr : Nat) (n : Net) : Net :=
  { n with addr := some addr, range := min 63 addr, nodes := min 63 addr - addr + 1, settled := true, census := false, children := [] }

theorem takeAddress_leaf (hkids : s.net.children = []) (addr : Nat) :
    takeAddress addr s = raise 0x0B11 [s.netMode, addr, min 63 addr] (s.modNet (addressed addr)) := by
  unfold takeAddress
  rw [hkids]
  rfl

theorem assignReceive_takes {b : BundleId} {base parent : Fin 64} (hmode : s.netMode = 2) (hlink : s.linkHolds b = false)
    (hparent : s.net.parent = some b.val) (haddr : s.net.addr = none) (hkids : s.net.children = []) :
    Completes (.assignReceive b base parent) s fun t =>
      t.net = { s.net with addr := some base, range := base, nodes := 1, settled := true, census := false } ∧
        Raised s t 0x0B11 [2, base, base] ∧ OnlyChanges (.net :: .gvl :: events) s t := by
  have hexec : exec (.assignReceive b base parent) s = execAssignReceive b base parent s := rfl
  have htaken : (takeMsg b 3 (isMgmt 5) s).netMode = 2 := (netMode_of_cfg takeMsg_cfg).trans hmode
  have hbase : min 63 base.val = base.val := by omega
  unfold execAssignReceive at hexec
  dsimp only at hexec
  rw [hlink, if_neg Bool.false_ne_true, if_pos (by rw [takeMsg_net, haddr]; exact ⟨htaken, hparent, rfl⟩),
    takeAddress_leaf (by rw [takeMsg_net]; exact hkids), htaken, hbase] at hexec
  have hmod : Within (.net :: .gvl :: events) s ((takeMsg b 3 (isMgmt 5) s).modNet (addressed base.val)) :=
    takeMsg_within.mono.step State.modNet_within
  refine ⟨_, hexec, ?_, (raised_raise ..).before hmod, (hmod.step raise_within).frame⟩
  rw [raise_net]
  simp [State.modNet, takeMsg_net, addressed, hbase, hkids]

/-- The network of a manager whose one child has reported (R567). -/
def numbered (kid : Child) (n : Net) : Net :=
  { n with addr := some 0, range := min 63 (kid.size.getD 0), nodes := min 63 (kid.size.getD 0) + 1, settled := true, census := false,
           children := [{ kid with base := 1 }] }

theorem takeAddress_root {kid : Child} (hkids : s.net.children = [kid]) :
    takeAddress 0 s = sendMgmt kid.bundle 5 [(1, 1), (1, 0)]
      (raise 0x0B11 [s.netMode, 0, min 63 (kid.size.getD 0)] (s.modNet (numbered kid))) := by
  have htotal : min 63 (0 + (1 + kid.size.getD 0) - 1) = min 63 (kid.size.getD 0) := by omega
  unfold takeAddress
  rw [hkids]
  dsimp only [giveBases, List.foldl_cons, List.foldl_nil]
  rw [htotal, forEach_cons, forEach_nil, if_pos (show 0 + 1 ≤ 63 by decide)]
  rfl

theorem reportReceive_manager {b : BundleId} {size depth : Nat} (hmode : s.netMode = 1) (hlink : s.linkHolds b = false)
    (hcensus : s.net.census = true) (hstage : s.cfg.stage ≠ 2) (hkids : s.net.children = [{ bundle := b, adopted := true }]) :
    Completes (.reportReceive b size depth) s fun t =>
      t.net.addr = some 0 ∧ t.net.range = min 63 size ∧ t.net.nodes = min 63 size + 1 ∧
      t.net.children = [{ bundle := b, adopted := true, size := some size, depth := depth, base := 1 }] ∧
      Raised s t 0x0B11 [1, 0, min 63 size] ∧ OnlyChanges (.net :: .gvl :: events) s t := by
  have hexec : exec (.reportReceive b size depth) s = execReportReceive b size depth s := rfl
  unfold execReportReceive takeReport at hexec
  dsimp only at hexec
  rw [hlink, if_neg Bool.false_ne_true] at hexec
  obtain ⟨u, hu⟩ : ∃ u, (takeMsg b 3 (isMgmt 4) s).modNet (fun n => { n with children := n.children.map fun c =>
    if c.bundle = b.val ∧ c.adopted ∧ c.size.isNone then { c with size := some size, depth := depth } else c }) = u := ⟨_, rfl⟩
  rw [hu] at hexec
  have hsu : Within (.net :: .gvl :: events) s u := by
    rw [← hu]
    exact takeMsg_within.mono.step State.modNet_within
  have hnet : u.net = { s.net with children := [{ bundle := b, adopted := true, size := some size, depth := depth }] } := by
    rw [← hu]
    simp [State.modNet, takeMsg_net, hkids]
  have humode : u.netMode = 1 := (netMode_of_cfg (hsu.frame .cfg (by decide))).trans hmode
  have hmoves : censusMoves u = takeAddress 0 u := by
    unfold censusMoves
    rw [if_pos (by rw [hnet, hcensus]; rfl), if_pos humode]
  rw [hmoves, takeAddress_root (by rw [hnet]), humode] at hexec
  dsimp only [Option.getD_some] at hexec
  have hmod := hsu.step (State.modNet_within (f := numbered { bundle := b, adopted := true, size := some size, depth := depth }))
  have hlast := (hmod.step (raise_within (code := 0x0B11) (fields := [1, 0, min 63 size]))).step
    (sendMgmt_within (b := b) (kind := 5) (args := [(1, 1), (1, 0)]))
  rw [goOnAfterCensus_waits (.inr (by
    rw [show State.cfg _ = s.cfg from hlast.frame .cfg (by decide)]
    exact hstage))] at hexec
  refine ⟨_, hexec, ?_, ?_, ?_, ?_, ((raised_raise ..).before hmod).within sendMgmt_within, hlast.frame⟩
  all_goals
    rw [sendMgmt_net, raise_net]
    rfl

end

end Sys2Proof

/-! The census that ends without an answer, and the discovery of peers (R563, R571 to R574). -/

namespace Sys2Proof

open Sys2Proof.Machine

section
variable {s : State}

/-! ### A loader with no flash -/

/-- What follows the selection does nothing outside its stages (R435). -/
theorem laterSteps_spent (h : s.cfg.stage = 0xD) : settleLoad (stepSix (stepFive (stepThree (stepFirmware s)))) = s := by
  have hfirm : stepFirmware s = s := by
    unfold stepFirmware
    split
    · rfl
    · exact if_pos (.inl (by omega))
  have hthree : stepThree s = s := if_pos (.inl (by omega))
  have hfive : stepFive s = s := by
    unfold stepFive
    split
    · rfl
    · exact if_pos (.inl (by omega))
  have hsix : stepSix s = s := by
    unfold stepSix
    split
    · rfl
    · exact if_pos (.inl (by omega))
  have hsettle : settleLoad s = s := if_neg (by omega)
  rw [hfirm, hthree, hfive, hsix, hsettle]

/-- A loader that has found nothing to select stays where it is (R463). -/
theorem loadRounds_spent (n : Nat) (h : s.cfg.stage = 0xD) : loadRounds n s = s := by
  have hselect : stepSelect s = s := if_pos (.inl (by omega))
  induction n with
  | zero => rfl
  | succ n ih => rw [loadRounds, hselect, laterSteps_spent h, ih]

/-- A loader that no flash gives anything ends its selection at once (R463, R466). -/
theorem stepSelect_nothing (hstage : s.cfg.stage = 2) (hpicked : s.cfg.picked = []) (hflash : flashHeld s = false)
    (hcensus : censusAwaited s = false) (ha : s.cfg.flashA = none) (hb : s.cfg.flashB = none) :
    stepSelect s = s.modCfg fun c => { c with stage := 0xD } := by
  have hsources : sources s = [] := by rw [sources, ha, hb]; rfl
  have hread : readDirectories s = s := by rw [readDirectories, ha, hb]; rfl
  have hdirs : haveDirectories s = true := by rw [haveDirectories, ha, hb]; rfl
  have hset : ∀ f, pickSet s f = none := fun f => by rw [pickSet, hsources]; rfl
  have hfirm : pickFirmware s = none := by rw [pickFirmware, hsources]; rfl
  unfold stepSelect
  rw [if_neg (by simp [hstage, hpicked, hflash, hcensus, hdirs]), hread]
  dsimp only
  rw [hset, hset, hfirm]
  split <;> simp_all

theorem loadGo_nothing (hstage : s.cfg.stage = 2) (hpicked : s.cfg.picked = []) (hflash : flashHeld s = false)
    (hcensus : censusAwaited s = false) (ha : s.cfg.flashA = none) (hb : s.cfg.flashB = none) :
    loadGo s = s.modCfg fun c => { c with stage := 0xD } := by
  have hselect := stepSelect_nothing hstage hpicked hflash hcensus ha hb
  have hspent : (s.modCfg fun c => { c with stage := 0xD }).cfg.stage = 0xD := rfl
  unfold loadGo
  rw [loadRounds, hselect, laterSteps_spent hspent, loadRounds_spent _ hspent]

/-- The census of a manager that has heard of no child ends with address 0, and its loader goes on (R563, R567). -/
theorem censusTimeout_alone (hmode : s.netMode = 1) (hcensus : s.net.census = true) (hset : s.net.settled = false)
    (hkids : s.net.children = []) (hlisten : s.cfg.listen = false) (hstage : s.cfg.stage = 2) (hpicked : s.cfg.picked = [])
    (hheld : s.regB 0xF_0004 30 = false) (ha : s.cfg.flashA = none) (hb : s.cfg.flashB = none) :
    Completes .censusTimeout s fun t => t.net.addr = some 0 ∧ t.net.settled = true ∧ t.cfg.stage = 0xD := by
  have hexec : exec .censusTimeout s = execCensusTimeout s := rfl
  obtain ⟨w, hw⟩ : ∃ w, s.modNet (fun n => { n with children := n.children.filter fun c => c.adopted && c.size.isSome }) = w := ⟨_, rfl⟩
  have hends : censusEnds s = takeAddress 0 w := by
    unfold censusEnds
    rw [hcensus, if_neg (by decide)]
    dsimp only
    rw [if_pos hmode, hkids, ← hw]
    rfl
  have hwkids : w.net.children = [] := by
    rw [← hw]
    change List.filter _ s.net.children = []
    rw [hkids]
    rfl
  have hsw : Within (.net :: events) s w := by
    rw [← hw]
    exact State.modNet_within.mono
  obtain ⟨u, hu⟩ : ∃ u, takeAddress 0 w = u := ⟨_, rfl⟩
  have hleaf : raise 0x0B11 [w.netMode, 0, min 63 0] (w.modNet (addressed 0)) = u := (takeAddress_leaf hwkids 0).symm.trans hu
  have hsu : Within (.net :: events) s u := by
    rw [← hleaf]
    exact (hsw.step State.modNet_within).step raise_within
  have hunet : u.net = addressed 0 w.net := by
    rw [← hleaf]
    exact raise_net ..
  have hcfg : u.cfg = s.cfg := hsu.frame .cfg (by decide)
  have hregs : ∀ o, u.reg o = s.reg o := hsu.frame .regs (by decide)
  have humode : u.netMode = 1 := (netMode_of_cfg hcfg).trans hmode
  have hawaited : censusAwaited s = true := by simp [censusAwaited, hmode, hset, hlisten]
  have hover : censusAwaited u = false := by simp [censusAwaited, hunet, addressed]
  have hfree : flashHeld u = false := by rw [flashHeld, State.regB, hregs, ← State.regB, hheld]; rfl
  obtain ⟨v, hv⟩ : ∃ v, u.modCfg (fun c => { c with flashClk := [] }) = v := ⟨_, rfl⟩
  have hvcfg : v.cfg = { s.cfg with flashClk := [] } := by rw [← hv, ← hcfg]; rfl
  have hvnet : v.net = u.net := by rw [← hv]; rfl
  have hvover : censusAwaited v = false := by rw [← hv]; exact hover
  have hvfree : flashHeld v = false := by rw [← hv]; exact hfree
  have hdiscover : discoverFlash u = v := by
    have hnone : ∀ b, flashOf v b = none := fun b => by cases b <;> simp [flashOf, hvcfg, ha, hb]
    unfold discoverFlash
    rw [if_neg (by simp [humode, hover, hfree]), hv, forEach_cons, forEach_cons, forEach_nil, hnone false]
    dsimp only
    rw [hnone true]
  unfold execCensusTimeout goOnAfterCensus at hexec
  rw [hends, hu, hawaited, hover, hcfg, hstage, if_pos (by decide), hdiscover,
    loadGo_nothing (by rw [hvcfg]; exact hstage) (by rw [hvcfg]; exact hpicked) hvfree hvover (by rw [hvcfg]; exact ha)
      (by rw [hvcfg]; exact hb)] at hexec
  exact ⟨_, hexec, congrArg Net.addr (hvnet.trans hunet), congrArg Net.settled (hvnet.trans hunet), rfl⟩

/-! ### Discovery -/

theorem flood_net {i : NodeInfo} {except_ : Option Nat} : (flood i except_ s).net = s.net := flood_within.frame .net (by decide)

/-- The network of a peer that has announced itself (R571). -/
theorem announce_net : (announce s).net = { s.net with
    seq := s.net.seq + 1, database := putInfo { ownInfo s with seq := s.net.seq + 1 } s.net.database } := flood_net

theorem discoveryStart_announces (hmode : s.netMode = 3) : Completes .discoveryStart s fun t =>
    t.net = { s.net with settled := false, seq := s.net.seq + 1,
                         database := putInfo { ownInfo s with seq := s.net.seq + 1 } s.net.database } ∧
      OnlyChanges [.net, .gvl, .out] s t :=
  ⟨_, congrArg Host.Outcome.next (if_pos hmode), announce_net,
    ((State.modNet_within.mono (l := [.net, .gvl, .out])).step announce_within).frame⟩

theorem nodeinfoReceive_newer {b : BundleId} {info : NodeInfo} (hmode : s.netMode = 3) (hlink : s.linkHolds b = false)
    (huid : info.uid ≠ s.cfg.uid) (hnew : (s.net.database.find? fun j => j.uid == info.uid) = none) :
    Completes (.nodeinfoReceive b info) s fun t =>
      t.net = { s.net with database := putInfo info s.net.database, settled := false } ∧ OnlyChanges [.net, .gvl, .out] s t := by
  have hexec : exec (.nodeinfoReceive b info) s = execNodeinfoReceive b info s := rfl
  unfold execNodeinfoReceive at hexec
  dsimp only at hexec
  rw [hlink, if_neg Bool.false_ne_true, takeMsg_net, hnew, takeMsg_cfg, netMode_of_cfg takeMsg_cfg, hmode,
    if_pos (by simp [huid])] at hexec
  refine ⟨_, hexec, ?_, ((takeMsg_within.mono (l := [.net, .gvl, .out])).step State.modNet_within |>.step flood_within).frame⟩
  rw [flood_net]
  simp [State.modNet, takeMsg_net]

theorem nodeinfoReceive_older {b : BundleId} {info j : NodeInfo} (hlink : s.linkHolds b = false)
    (hknown : (s.net.database.find? fun j => j.uid == info.uid) = some j) (hold : info.seq ≤ j.seq) :
    Completes (.nodeinfoReceive b info) s fun t => t.net = s.net ∧ OnlyChanges [.gvl] s t := by
  have hexec : exec (.nodeinfoReceive b info) s = execNodeinfoReceive b info s := rfl
  unfold execNodeinfoReceive at hexec
  dsimp only at hexec
  rw [hlink, if_neg Bool.false_ne_true, takeMsg_net, hknown] at hexec
  dsimp only at hexec
  rw [if_neg (by simp [hold])] at hexec
  exact ⟨_, hexec, takeMsg_net, takeMsg_within.frame⟩

/-- The network of a peer that has settled and knows of itself only (R572). -/
def settledAlone (i : NodeInfo) (n : Net) : Net := { n with addr := some i.proposed.val, nodes := 1, routes := [], settled := true }

theorem discoverySettle_alone {i : NodeInfo} (hmode : s.netMode = 3) (hset : s.net.settled = false) (hdb : s.net.database = [i])
    (huid : i.uid = s.cfg.uid) (haddr : i.addr = none) (hown : s.net.addr = none) :
    Completes .discoverySettle s fun t =>
      t.net.addr = some i.proposed.val ∧ t.net.nodes = 1 ∧ t.net.routes = [] ∧ t.net.settled = true ∧
      Raised s t 0x0B11 [3, i.proposed, (ownInfo s).proposed] ∧ OnlyChanges (.net :: .gvl :: events) s t := by
  have hexec : exec .discoverySettle s = execDiscoverySettle s := rfl
  have haddrs : settleAddrs [i] = [(i.uid, i.proposed.val)] := by simp [settleAddrs, haddr]
  unfold execDiscoverySettle at hexec
  rw [if_neg (by simp [hmode, hset]), hdb] at hexec
  dsimp only at hexec
  rw [haddrs, show [(i.uid, i.proposed.val)].find? (fun p => p.1 == s.cfg.uid) = some (i.uid, i.proposed.val) by simp [huid],
    show [(i.uid, i.proposed.val)].filter (fun p => p.1 != s.cfg.uid) = [] by simp [huid], hown, forEach_nil] at hexec
  obtain ⟨v, hv⟩ : ∃ v, s.modNet (settledAlone i) = v := ⟨_, rfl⟩
  have hvnet : v.net = settledAlone i s.net := by rw [← hv]; rfl
  have hsv : Within (.net :: .gvl :: events) s v := by
    rw [← hv]
    exact State.modNet_within.mono
  have hproposed : (ownInfo v).proposed = (ownInfo s).proposed := by rw [← hv]; rfl
  change exec .discoverySettle s = .next (announce (raise 0x0B11 [3, i.proposed.val, (ownInfo (s.modNet (settledAlone i))).proposed.val]
    (s.modNet (settledAlone i)))) at hexec
  rw [hv, hproposed] at hexec
  refine ⟨_, hexec, ?_, ?_, ?_, ?_, ((raised_raise ..).before hsv).within announce_within, ((hsv.step raise_within).step announce_within).frame⟩
  all_goals
    rw [announce_net, raise_net, hvnet]
    rfl

/-! ### The start of a census -/

theorem censusStart_asks (b : BundleId) (hmode : s.netMode = 1) (hset : s.net.settled = false) (htwin : s.twinBundle b = false)
    (hlink : (s.bun b).link.st = 2) : Completes (.censusStart b) s fun t =>
      t.net.census = true ∧
      t.net.children = s.net.children ++ (((List.range 8).filter fun x =>
        !s.twinBundle x && (s.bun x).link.st == 2 && !(s.net.children.any fun c => c.bundle == x)).map fun x => { bundle := x }) ∧
      OnlyChanges [.net, .gvl, .out] s t := by
  have hnext : askedNext (s.modNet fun n => { n with census := true }) none = (List.range 8).filter fun x =>
      !s.twinBundle x && (s.bun x).link.st == 2 && !(s.net.children.any fun c => c.bundle == x) := by
    refine List.filter_congr fun x _ => ?_
    change (!s.twinBundle x && (if s.netMode = 2 then (s.bun x).st == 6 else (s.bun x).link.st == 2) && none != some x &&
      !(s.net.children.any fun c => c.bundle == x)) = _
    rw [if_neg (show ¬s.netMode = 2 by omega), show ((none : Option Nat) != some x) = true from rfl, Bool.and_true]
  refine ⟨_, congrArg Host.Outcome.next (if_pos ⟨hmode, by simp [hset], by simp [htwin], hlink⟩), ?_, ?_,
    ((State.modNet_within.mono (l := [.net, .gvl, .out])).step askChildren_within).frame⟩
  all_goals rw [askChildren_net]
  · rfl
  · rw [hnext]
    rfl

end

/-! ### The obligation -/

/-- Settles O45, by the census of a manager and of a worker and by the discovery of a peer. -/
theorem censusAndDiscovery : Obligations.CensusAndDiscovery := by
  unfold Obligations.CensusAndDiscovery
  refine ⟨fun s => ⟨fun b hmode hset htwin hlink => ?_, fun hmode => ⟨fun b d uid htwin hlink hset => ⟨fun hp => ?_, fun hp => ?_⟩,
      fun b d uid hp hheard => ⟨fun hd => ?_, fun hd => ?_⟩, fun b p size depth hlink hp hcensus hkids => ?_, fun hcensus => ?_,
      fun b base parent hlink hp haddr hkids => ?_⟩, fun b size depth hlink hmode hcensus hstage hkids _ => ?_,
      fun hmode hcensus hset hkids hlisten hstage hpicked hheld ha hb => ?_⟩,
    fun s hmode => ⟨?_, fun b info hlink huid => ⟨fun hnew => ?_, fun j hknown hold => ?_⟩,
      fun i hset hdb huid haddr hlinks hown => ?_⟩⟩
  · exact censusStart_asks b hmode hset htwin hlink
  · exact censusReceive_collects b d uid hmode htwin hlink hset hp
  · exact censusReceive_refuses b d uid hmode htwin hlink hp
  · exact censusCollectEnd_adopts hmode hp hheard hd
  · exact censusCollectEnd_tooDeep hmode hp hheard hd
  · exact reportReceive_worker hmode hlink hp hcensus hkids
  · exact censusTimeout_worker hmode hcensus
  · exact assignReceive_takes hmode hlink hp haddr hkids
  · exact reportReceive_manager hmode hlink hcensus hstage hkids
  · exact censusTimeout_alone hmode hcensus hset hkids hlisten hstage hpicked hheld ha hb
  · exact discoveryStart_announces hmode
  · exact nodeinfoReceive_newer hmode hlink huid hnew
  · exact nodeinfoReceive_older hlink hknown hold
  · exact discoverySettle_alone hmode hset hdb huid haddr hown

end Sys2Proof

/-! Remote requests to this device's Grotto, and the answers to its own (R575 to R579). -/

namespace Sys2Proof

open Sys2Proof.Machine

section
variable {s : State} {b o : Nat}

/-! ### Answers that wait for their bundle -/

/-- A bundle whose wire is closed sends nothing of what waits (R554). -/
theorem pumpGo_closed (hwire : s.wireOpen b = false) (fs : List (List Byte)) (blocked : List Nat) (kept : List (List Byte)) :
    pumpGo b fs blocked kept s = s.modLink b fun l => { l with waiting := kept ++ fs } := by
  induction fs generalizing blocked kept with
  | nil => rw [pumpGo, List.append_nil]
  | cons f fs ih =>
    rw [pumpGo, if_neg (by simp [canSend, hwire]), ih]
    simp

/-- Flits join what waits on a bundle whose wire is closed, and nothing else changes. -/
theorem enqueue_closed (hwire : s.wireOpen b = false) (fs : List (List Byte)) :
    (∀ c, ((enqueue b fs s).bun c).link.waiting = if c = b then (s.bun b).link.waiting ++ fs else (s.bun c).link.waiting) ∧
      Within [.gvl] s (enqueue b fs s) := by
  have hwire' : (s.modLink b fun l => { l with waiting := l.waiting ++ fs }).wireOpen b = false := by
    rw [State.wireOpen, bun_modLink_same]
    exact hwire
  unfold enqueue pump
  rw [pumpGo_closed hwire']
  refine ⟨fun c => ?_, State.modLink_within.step State.modLink_within⟩
  split
  case isTrue h =>
    rw [h, bun_modLink_same, bun_modLink_same]
    rfl
  case isFalse h => rw [State.modLink, bun_modBun_other _ _ h, State.modLink, bun_modBun_other _ _ h]

theorem nextHop_of_eq {t : State} (hnet : t.net = s.net) (hcfg : t.cfg = s.cfg) (dst : Nat) : nextHop t dst = nextHop s dst := by
  rw [nextHop, netMode_of_cfg hcfg, hnet, nextHop]

/-- The flits of an answer (Tables Network-7 and -8). -/
def rspFlits (s : State) (dst rid status : Nat) (data : Option (BitVec 512)) : List (List Byte) :=
  let pay := leBytes 2 rid ++ leBytes 1 status ++ leBytes 1 0
  match data with
  | some d => mkMsg 6 1 dst s.ownAddr true (pay ++ leBytes 64 d.toNat)
  | none => mkMsg 6 1 dst s.ownAddr false pay

/-- An answer whose bundle cannot send waits there. -/
theorem sendRsp_waits {dst : Nat} (hhop : nextHop s dst = some o) (hwire : s.wireOpen o = false) (rid status : Nat)
    (data : Option (BitVec 512)) :
    ((sendRsp dst rid status 0 data s).bun o).link.waiting = (s.bun o).link.waiting ++ rspFlits s dst rid status data ∧
      Within [.gvl] s (sendRsp dst rid status 0 data s) := by
  have hsend : sendRsp dst rid status 0 data s = enqueue o (rspFlits s dst rid status data) s := by
    unfold sendRsp sendTo
    dsimp only
    rw [hhop]
    rfl
  obtain ⟨hwaiting, hw⟩ := enqueue_closed hwire (rspFlits s dst rid status data)
  rw [hsend]
  exact ⟨(hwaiting o).trans (if_pos rfl), hw⟩

/-! ### Messages taken from their buffer -/

/-- What a bundle shows of itself to a sender does not change. -/
def SendSame (s t : State) : Prop := ∀ c, (t.bun c).st = (s.bun c).st ∧ (t.bun c).txIdle = (s.bun c).txIdle ∧
  (t.bun c).link.st = (s.bun c).link.st ∧ (t.bun c).link.waiting = (s.bun c).link.waiting

theorem SendSame.trans {t u : State} (h : SendSame s t) (h' : SendSame t u) : SendSame s u := fun c => by
  obtain ⟨h1, h2, h3, h4⟩ := h c
  obtain ⟨k1, k2, k3, k4⟩ := h' c
  exact ⟨k1.trans h1, k2.trans h2, k3.trans h3, k4.trans h4⟩

theorem SendSame.modLink {f : Link → Link} (hst : ∀ l, (f l).st = l.st) (hwaiting : ∀ l, (f l).waiting = l.waiting) :
    SendSame s (s.modLink b f) := fun c => by
  rcases eq_or_ne c b with rfl | hc
  · rw [bun_modLink_same]
    exact ⟨rfl, rfl, hst _, hwaiting _⟩
  · rw [State.modLink, bun_modBun_other s _ hc]
    exact ⟨rfl, rfl, rfl, rfl⟩

theorem SendSame.of_gvl {t : State} (h : t.gvl = s.gvl) : SendSame s t := fun c => by
  rw [bun_of_gvl h]
  exact ⟨rfl, rfl, rfl, rfl⟩

theorem SendSame.wireOpen {t : State} (h : SendSame s t) (c : Nat) : t.wireOpen c = s.wireOpen c := by
  obtain ⟨hst, hidle, hlink, -⟩ := h c
  rw [State.wireOpen, hst, hidle, hlink, State.wireOpen]

theorem takeMsg_sendSame {vc : Nat} {p : List Byte → Bool} : SendSame s (takeMsg b vc p s) := by
  unfold takeMsg freeCredits
  split
  · exact .of_gvl rfl
  · refine SendSame.trans ?_ (SendSame.modLink (fun _ => rfl) fun _ => rfl)
    exact .modLink (fun _ => rfl) fun _ => rfl

end

/-! ### Requests -/

section
variable {s : State} {b : BundleId} {src : Fin 64} {rid : BitVec 16} {line : BitVec 21} {o : Nat}

/-- The request has left its buffer. -/
theorem takeReq_spec (ty : Nat) : ∃ u, takeReq b ty src rid.toNat s = u ∧ Within [.gvl] s u ∧ SendSame s u :=
  ⟨_, rfl, takeMsg_within, takeMsg_sendSame⟩

/-- A request to a device that accepts none is answered REFUSED (R577). -/
theorem serveRemote_refuses (ty : Nat) (hhop : nextHop s src = some o) (hwire : s.wireOpen o = false) (hlink : s.linkHolds b = false)
    (hgen : s.regB 0xB_8004 31 = false) (be : BitVec 64) (data : BitVec 512) (p : BitVec 8) (bad : List Nat) :
    ((serveRemote b ty src rid.toNat line.toNat be data p bad s).bun o).link.waiting =
        (s.bun o).link.waiting ++ mkMsg 6 1 src s.ownAddr false (leBytes 2 rid.toNat ++ leBytes 1 2 ++ leBytes 1 0) ∧
      OnlyChanges [.gvl] s (serveRemote b ty src rid.toNat line.toNat be data p bad s) := by
  obtain ⟨u, hu, hsu, hsame⟩ := takeReq_spec (s := s) (b := b) (src := src) (rid := rid) ty
  have hregs : ∀ a, u.reg a = s.reg a := hsu.frame .regs (by decide)
  have hnet : u.net = s.net := hsu.frame .net (by decide)
  have hugen : u.regB 0xB_8004 31 = false := by rw [State.regB, hregs, ← State.regB, hgen]
  have hown : u.ownAddr = s.ownAddr := by rw [State.ownAddr, hnet, State.ownAddr]
  obtain ⟨hwaiting, hw⟩ := sendRsp_waits (s := u) ((nextHop_of_eq hnet (hsu.frame .cfg (by decide)) src).trans hhop)
    ((hsame.wireOpen o).trans hwire) rid.toNat 2 none
  have hserve : serveRemote b ty src rid.toNat line.toNat be data p bad s = sendRsp src rid.toNat 2 0 none u := by
    unfold serveRemote
    rw [hlink, hgen, if_neg (by simp)]
    dsimp only
    rw [hu, hugen, if_pos (by rfl)]
  rw [hserve]
  refine ⟨?_, (hsu.trans hw).frame⟩
  rw [hwaiting, (hsame o).2.2.2, rspFlits, hown]

/-- What a request does once it has left its buffer (R575 to R577). -/
theorem serveRemote_quiet (ty : Nat) (hlink : s.linkHolds b = false) (hgen : s.regB 0xB_8004 31 = true) (hquiet : quietGrotto s)
    (be : BitVec 64) (data : BitVec 512) {u : State} (hu : takeReq b ty src rid.toNat s = u) :
    serveRemote b ty src rid.toNat line.toNat be data 0 [] s =
      if ty = 2 then sendRsp src rid.toNat 0 (sideRead 4 line.toNat 0xFF [] u).1.2 (some (sideRead 4 line.toNat 0xFF [] u).1.1)
        (sideRead 4 line.toNat 0xFF [] u).2
      else sendRsp src rid.toNat 0 0 none (sideAccess (ty - 2) line.toNat be data 0 [] u).2 := by
  have hsu : Within [.gvl] s u := hu ▸ takeMsg_within
  have hregs : ∀ a, u.reg a = s.reg a := hsu.frame .regs (by decide)
  have hugen : u.regB 0xB_8004 31 = true := by rw [State.regB, hregs, ← State.regB, hgen]
  have hrst : u.rst = s.rst := hsu.frame .rst (by decide)
  have hopen : sideAborts u = false := by
    rw [← hquiet.sideAborts_eq, sideAborts, memFenced, State.inReset, hrst, ← State.inReset, ← memFenced, ← sideAborts]
  unfold serveRemote
  rw [if_neg (by simp [hlink, hquiet.sideStopped_eq, hquiet.2.2.1])]
  dsimp only
  rw [hu, hugen, if_neg (by simp), hopen, if_neg Bool.false_ne_true]

/-- A Grotto that is quiet stays calm while a message leaves its buffer. -/
theorem Calm.of_gvl {u : State} (h : Calm s) (hsu : Within [.gvl] s u) : Calm u := by
  have hgrt : u.grt = s.grt := hsu.frame .grt (by decide)
  have hbank : ∀ i, u.bank i = s.bank i := fun i => by rw [State.bank, hgrt, State.bank]
  refine ⟨fun i => by rw [hbank, h.queue], fun i => by rw [hbank]; exact h.state i, by rw [hgrt, h.errs], by rw [hgrt, h.poison], ?_⟩
  rw [State.regB, show u.reg 0x7_0020 = s.reg 0x7_0020 from hsu.frame .regs (by decide) _, ← State.regB, h.unarmed]

/-- The answer to an access of Grotto waits at its bundle, with the bytes as the access has left them. -/
theorem sendRsp_answers {u v : State} {op : Nat} {p : Nat → Option Byte} (hhop : nextHop s src = some o) (hwire : s.wireOpen o = false)
    (hsu : Within [.gvl] s u) (hsame : SendSame s u) (huv : Patched op p u v) (d : Option (BitVec 512)) :
    ((sendRsp src rid.toNat 0 0 d v).bun o).link.waiting = (s.bun o).link.waiting ++ rspFlits s src rid.toNat 0 d ∧
      (∀ a, grottoByte (sendRsp src rid.toNat 0 0 d v) a = patch op (p a) (grottoByte s a)) ∧
      OnlyChanges [.grt, .gvl] s (sendRsp src rid.toNat 0 0 d v) := by
  have hgvl : v.gvl = u.gvl := huv.frame .gvl (by decide)
  have hnet : v.net = s.net := (huv.frame .net (by decide)).trans (hsu.frame .net (by decide))
  have hcfg : v.cfg = s.cfg := (huv.frame .cfg (by decide)).trans (hsu.frame .cfg (by decide))
  have hkept : SendSame s v := hsame.trans (.of_gvl hgvl)
  have hown : v.ownAddr = s.ownAddr := by rw [State.ownAddr, hnet, State.ownAddr]
  have hframe : OnlyChanges [.grt, .gvl] s v := (hsu.frame.mono (by decide)).trans (huv.frame.mono (by decide))
  obtain ⟨hwaiting, hw⟩ := sendRsp_waits (s := v) ((nextHop_of_eq hnet hcfg src).trans hhop) ((hkept.wireOpen o).trans hwire) rid.toNat 0 d
  refine ⟨?_, fun a => ?_, hframe.trans (hw.frame.mono (by decide))⟩
  · have hflits : rspFlits v src rid.toNat 0 d = rspFlits s src rid.toNat 0 d := by simp only [rspFlits, hown]
    rw [hwaiting, (hkept o).2.2.2, hflits]
  · rw [hw.frame.grottoByte_eq (by decide), huv.byte, hsu.frame.grottoByte_eq (by decide)]

theorem lineBytes_of_gvl {u : State} (hsu : Within [.gvl] s u) (l : Nat) : lineBytes u l = lineBytes s l :=
  List.map_congr_left fun _ _ => hsu.frame.grottoByte_eq (by decide) _

theorem remoteRead_answers (hhop : nextHop s src = some o) (hwire : s.wireOpen o = false) (hlink : s.linkHolds b = false)
    (hgen : s.regB 0xB_8004 31 = true) (hquiet : quietGrotto s) : Completes (.remoteRead b src rid line []) s fun t =>
      (t.bun o).link.waiting = (s.bun o).link.waiting ++ mkMsg 6 1 src s.ownAddr true
        (leBytes 2 rid.toNat ++ leBytes 1 0 ++ leBytes 1 0 ++ (List.range 64).map fun i => grottoByte s (64 * line.toNat + i)) ∧
      (∀ a, grottoByte t a = grottoByte s a) ∧ OnlyChanges [.grt, .gvl] s t := by
  obtain ⟨u, hu, hsu, hsame⟩ := takeReq_spec (s := s) (b := b) (src := src) (rid := rid) 2
  obtain ⟨hdata, huv⟩ := sideRead_calm (hquiet.calm.of_gvl hsu) 4 line.toNat 0xFF
  have hexec : exec (.remoteRead b src rid line []) s = .next (serveRemote b 2 src rid.toNat line.toNat 0 0 0 [] s) := rfl
  rw [serveRemote_quiet 2 hlink hgen hquiet 0 0 hu, if_pos rfl, hdata] at hexec
  obtain ⟨hwaiting, hbytes, hframe⟩ := sendRsp_answers (rid := rid) hhop hwire hsu hsame huv
    (some (BitVec.ofNat 512 (ofLeBytes (lineBytes u line.toNat))))
  refine ⟨_, hexec, ?_, hbytes, hframe⟩
  have hline : leBytes 64 (BitVec.ofNat 512 (ofLeBytes (lineBytes u line.toNat))).toNat = lineBytes s line.toNat := by
    rw [lineBytes_of_gvl hsu]
    exact leBytes_toNat_ofLeBytes _ (by simp [lineBytes])
  rw [hwaiting, rspFlits, hline, lineBytes]

/-- A request that changes a line: exactly its enabled bytes (R577). -/
theorem serveRemote_changes {op : Nat} (hop : op = 1 ∨ op = 2 ∨ op = 3) (hhop : nextHop s src = some o) (hwire : s.wireOpen o = false)
    (hlink : s.linkHolds b = false) (hgen : s.regB 0xB_8004 31 = true) (hquiet : quietGrotto s) (be : BitVec 64) (data : BitVec 512) :
    ∃ t, serveRemote b (2 + op) src rid.toNat line.toNat be data 0 [] s = t ∧
      (∀ i < 64, grottoByte t (64 * line.toNat + i) = if be.getLsbD i then byteOp op (grottoByte s (64 * line.toNat + i)) (byteOf data i)
        else grottoByte s (64 * line.toNat + i)) ∧
      (∀ a, a / 64 ≠ line.toNat → grottoByte t a = grottoByte s a) ∧
      (t.bun o).link.waiting = (s.bun o).link.waiting ++ mkMsg 6 1 src s.ownAddr false
        (leBytes 2 rid.toNat ++ leBytes 1 0 ++ leBytes 1 0) ∧ OnlyChanges [.grt, .gvl] s t := by
  obtain ⟨u, hu, hsu, hsame⟩ := takeReq_spec (s := s) (b := b) (src := src) (rid := rid) (2 + op)
  have hcalm := hquiet.calm.of_gvl hsu
  have hside := (sideAccess_calm hcalm (accessLine_calm_write hcalm op line.toNat (by omega) be data 2)).2
  have hserve := serveRemote_quiet (line := line) (2 + op) hlink hgen hquiet be data hu
  rw [if_neg (show ¬2 + op = 2 by omega), Nat.add_sub_cancel_left] at hserve
  obtain ⟨hwaiting, hbytes, hframe⟩ := sendRsp_answers (rid := rid) hhop hwire hsu hsame hside none
  refine ⟨_, hserve, fun i hi => ?_, fun a ha => ?_, hwaiting, hframe⟩
  · rw [hbytes, show (64 * line.toNat + i) / 64 = line.toNat by omega, show (64 * line.toNat + i) % 64 = i by omega]
    unfold bit
    cases be.getLsbD i <;> simp [patch]
  · rw [hbytes, if_neg (fun h => ha h.1)]
    rfl

theorem remoteWrite_writes (hhop : nextHop s src = some o) (hwire : s.wireOpen o = false) (hlink : s.linkHolds b = false)
    (hgen : s.regB 0xB_8004 31 = true) (hquiet : quietGrotto s) (be : BitVec 64) (data : BitVec 512) :
    Completes (.remoteWrite b src rid line be data 0 []) s fun t =>
        (∀ i < 64, grottoByte t (64 * line.toNat + i) =
          if be.getLsbD i then data.extractLsb' (8 * i) 8 else grottoByte s (64 * line.toNat + i)) ∧
        (∀ a, a / 64 ≠ line.toNat → grottoByte t a = grottoByte s a) ∧
        (t.bun o).link.waiting = (s.bun o).link.waiting ++ mkMsg 6 1 src s.ownAddr false
          (leBytes 2 rid.toNat ++ leBytes 1 0 ++ leBytes 1 0) ∧ OnlyChanges [.grt, .gvl] s t := by
  obtain ⟨t, ht, hbytes, hother, hwaiting, hframe⟩ :=
    serveRemote_changes (op := 1) (.inl rfl) hhop hwire hlink hgen hquiet (rid := rid) (line := line) be data
  exact ⟨t, congrArg Host.Outcome.next ht, hbytes, hother, hwaiting, hframe⟩

theorem remoteBitset_sets (hhop : nextHop s src = some o) (hwire : s.wireOpen o = false) (hlink : s.linkHolds b = false)
    (hgen : s.regB 0xB_8004 31 = true) (hquiet : quietGrotto s) (be : BitVec 64) (data : BitVec 512) :
    Completes (.remoteBitset b src rid line be data []) s fun t =>
        (∀ i < 64, grottoByte t (64 * line.toNat + i) = grottoByte s (64 * line.toNat + i) |||
          (if be.getLsbD i then data.extractLsb' (8 * i) 8 else 0)) ∧
        (∀ a, a / 64 ≠ line.toNat → grottoByte t a = grottoByte s a) ∧ OnlyChanges [.grt, .gvl] s t := by
  obtain ⟨t, ht, hbytes, hother, -, hframe⟩ :=
    serveRemote_changes (op := 2) (.inr (.inl rfl)) hhop hwire hlink hgen hquiet (rid := rid) (line := line) be data
  refine ⟨t, congrArg Host.Outcome.next ht, fun i hi => ?_, hother, hframe⟩
  rw [hbytes i hi]
  split
  · rfl
  · exact (BitVec.or_zero).symm

theorem remoteBitclr_clears (hhop : nextHop s src = some o) (hwire : s.wireOpen o = false) (hlink : s.linkHolds b = false)
    (hgen : s.regB 0xB_8004 31 = true) (hquiet : quietGrotto s) (be : BitVec 64) (data : BitVec 512) :
    Completes (.remoteBitclr b src rid line be data []) s fun t =>
        (∀ i < 64, grottoByte t (64 * line.toNat + i) = grottoByte s (64 * line.toNat + i) &&&
          ~~~ (if be.getLsbD i then data.extractLsb' (8 * i) 8 else 0)) ∧
        (∀ a, a / 64 ≠ line.toNat → grottoByte t a = grottoByte s a) ∧ OnlyChanges [.grt, .gvl] s t := by
  obtain ⟨t, ht, hbytes, hother, -, hframe⟩ :=
    serveRemote_changes (op := 3) (.inr (.inr rfl)) hhop hwire hlink hgen hquiet (rid := rid) (line := line) be data
  refine ⟨t, congrArg Host.Outcome.next ht, fun i hi => ?_, hother, hframe⟩
  rw [hbytes i hi]
  split
  · rfl
  · exact BitVec.and_allOnes.symm

end

end Sys2Proof

/-! The answers to the device's own remote requests (R348, R575). -/

namespace Sys2Proof

open Sys2Proof.Machine

section
variable {s : State}

/-! ### Waiting requests -/

/-- No descriptor has remote requests to issue. -/
def RemotesIdle (s : State) : Prop := ∀ p ∈ s.que, ∀ d ∈ p.2.context, d.remq = []

theorem serveRemotes_idle (h : RemotesIdle s) : serveRemotes s = s := by
  have hnone : (s.que.flatMap fun p => (p.2.context.filter fun d => !d.remq.isEmpty && !d.stopped).map fun d => (p.1, d.id)) = [] := by
    refine List.flatMap_eq_nil_iff.2 fun p hp => ?_
    rw [List.map_eq_nil_iff, List.filter_eq_nil_iff]
    intro d hd
    simp [h p hp d hd]
  unfold serveRemotes
  rw [hnone, forEach_nil]

theorem serveBar2_idle (h : s.grt.barWait = []) : serveBar2 s = s := by
  have hself : s.modGrt (fun g => { g with barWait := [] }) = s := by
    rw [State.modGrt, ← h]
  unfold serveBar2
  rw [h, forEach_nil, hself, ite_self]

/-- Nothing waits for a tag that has become free. -/
structure TagsIdle (s : State) : Prop where
  reads : ReadsIdle s
  remotes : RemotesIdle s
  bar : s.grt.barWait = []
  walks : s.xlt.walks = []

theorem serveTags_idle (h : TagsIdle s) : serveTags s = s := by
  unfold serveTags
  rw [serveRemotes_idle h.remotes, serveReads_idle h.reads, serveBar2_idle h.bar, startWalks_none h.walks]

/-! ### One descriptor that has asked -/

/-- The device has one queue, with one descriptor that runs and asks for nothing more. -/
structure Asker (s : State) (q : Nat) (x : Queue) (d : Desc) : Prop where
  que : s.que = [(q, x)]
  context : x.context = [d]
  running : d.ended = none
  asked : d.remq = []
  db : x.dbSt ≠ 1
  dbg : s.pin.dbgOp = none
  bar : s.grt.barWait = []
  walks : s.xlt.walks = []

variable {q : Nat} {x : Queue} {d : Desc} {m : Remote}

theorem Asker.qu (h : Asker s q x d) : s.qu q = x := by
  rw [State.qu, h.que]
  simp [tabGet]

theorem Asker.of_eq {t : State} (h : Asker s q x d) (hque : t.que = s.que) (hpin : t.pin = s.pin) (hgrt : t.grt = s.grt)
    (hxlt : t.xlt = s.xlt) : Asker t q x d :=
  ⟨hque.trans h.que, h.context, h.running, h.asked, h.db, by rw [hpin, h.dbg], by rw [hgrt, h.bar], by rw [hxlt, h.walks]⟩

theorem mem_modQu_single (hque : s.que = [(q, x)]) {f : Queue → Queue} {p : Nat × Queue} (hp : p ∈ (s.modQu q f).que) :
    p = (q, (s.modQu q f).qu q) := by
  rw [qu_modQu_same]
  refine (mem_tabMod hp).resolve_left fun hold => hold.2 ?_
  have hs := hold.1
  rw [hque, List.mem_singleton] at hs
  rw [hs]

/-- Its end leaves nothing that waits for a tag. -/
theorem Asker.ended (h : Asker s q x d) (status result : Nat) : TagsIdle (endDesc q d.id status result s) := by
  have hctx : ((endDesc q d.id status result s).qu q).context = [descDone status result d] :=
    endDesc_single (by rw [h.qu, h.context]) h.running status result
  have hdb : ((endDesc q d.id status result s).qu q).dbSt = x.dbSt := by
    unfold endDesc
    rw [qu_modQu_same, h.qu]
  have hmem : ∀ p ∈ (endDesc q d.id status result s).que, p = (q, (endDesc q d.id status result s).qu q) :=
    fun _ hp => mem_modQu_single h.que hp
  refine ⟨⟨fun p hp => ?_, h.dbg⟩, fun p hp e he => ?_, h.bar, h.walks⟩
  · rw [hmem p hp]
    exact hdb.trans_ne h.db
  · rw [hmem p hp, hctx, List.mem_singleton] at he
    rw [he]
    rfl

theorem Asker.desc (h : Asker s q x d) (hid : d.id = m.cid) : (s.qu q).desc m.cid = some d := by
  rw [h.qu, Queue.desc, h.context]
  simp [hid]

/-- A failed answer, or none in time, ends the descriptor with REMOTE_ERROR (R348, R575). -/
theorem Asker.answer_fails (h : Asker s q x d) (hq : m.queue = q) (hid : d.id = m.cid) (poison : BitVec 8) (data : BitVec 512) :
    serveTags (remoteAnswer m false poison data s) = endDesc q d.id 0x10 (restartOf s q d) s := by
  have hanswer : remoteAnswer m false poison data s = endDesc q d.id 0x10 (restartOf s q d) s := by
    unfold remoteAnswer
    dsimp only
    rw [hq, h.desc hid, ← hid]
    dsimp only
    rw [h.running, if_neg (by simp), if_pos (by rfl)]
  rw [hanswer, serveTags_idle (h.ended ..)]

/-- The last answer of a COPY to another node ends it OK (R336, R348). -/
theorem Asker.answer_ends (h : Asker s q x d) (hq : m.queue = q) (hid : d.id = m.cid) (hremotes : s.net.remotes = [])
    (hread : m.read = false) (hstop : d.stopped = false) (hopc : d.opc = 1) (hall : totalBytes d ≤ d.off) (hpoison : d.poison = none)
    (hsrc : d.srcg = false) (poison : BitVec 8) (data : BitVec 512) :
    serveTags (remoteAnswer m true poison data s) = endDesc q d.id 0 d.off s := by
  have hnone : outstanding s q d.id = false := by rw [outstanding, hremotes]; rfl
  have hfinish : finishDesc q d.id s = endDesc q d.id 0 d.off s := by
    unfold finishDesc
    rw [show (s.qu q).desc d.id = some d by rw [hid, h.desc hid]]
    dsimp only
    rw [h.asked, hnone, if_neg (by simp), show overlapFree d s = s from if_neg (by simp [hsrc]), if_neg (by simp [hopc]),
      if_neg (by simp [hopc]), hpoison]
  have hanswer : remoteAnswer m true poison data s = endDesc q d.id 0 d.off s := by
    unfold remoteAnswer
    dsimp only
    rw [hq, h.desc hid, ← hid]
    dsimp only
    rw [h.running, if_neg (by simp), if_neg (by simp), hread, if_neg Bool.false_ne_true, hstop, if_neg Bool.false_ne_true, h.asked,
      show (!([] : List RemReq).isEmpty) = false from rfl, if_neg Bool.false_ne_true, hnone, if_neg Bool.false_ne_true,
      if_neg Bool.false_ne_true, if_pos ⟨hall, by simp [moreBeats, hopc]⟩, hfinish]
  rw [hanswer, serveTags_idle (h.ended ..)]

/-! ### The commands -/

/-- The request of a tag that has been freed. -/
def tagFreed (s : State) : State := { s with net := { s.net with remotes := [] } }

theorem filter_freed (m : Remote) : [m].filter (fun x => x.rid != m.rid) = [] := by simp

theorem msgHeld_open (h : ∀ b, s.linkHolds b = false) (vc : Nat) (p : List Byte → Bool) : s.msgHeld vc p = false := by
  unfold State.msgHeld
  split
  · exact h _
  · rfl

/-- An answer has left its buffer and matches the one request that is outstanding. -/
theorem rspReceive_matched (hopen : ∀ b, s.linkHolds b = false) (hremotes : s.net.remotes = [m]) (hrid : m.rid < 65536)
    (status : Byte) (poison : BitVec 8) (data : BitVec 512) : ∃ u, Within [.gvl] s u ∧
      exec (.rspReceive (BitVec.ofNat 16 m.rid) status poison data) s =
        .next (serveTags (remoteAnswer m (status == 0) poison data (tagFreed u))) := by
  have hexec : exec (.rspReceive (BitVec.ofNat 16 m.rid) status poison data) s = execRspReceive (BitVec.ofNat 16 m.rid) status poison data s := rfl
  unfold execRspReceive at hexec
  dsimp only at hexec
  rw [msgHeld_open hopen, if_neg Bool.false_ne_true] at hexec
  obtain ⟨u, hu⟩ : ∃ u, takeAnyMsg 1 (fun f => fTy f == 6 && ofLeBytes ((fPay f).take 2) == (BitVec.ofNat 16 m.rid).toNat &&
    fb f 10 == status.toNat) s = u := ⟨_, rfl⟩
  have hsu : Within [.gvl] s u := hu ▸ takeAnyMsg_within
  have hnet : u.net = s.net := hsu.frame .net (by decide)
  have htag : (BitVec.ofNat 16 m.rid).toNat = m.rid := by
    rw [BitVec.toNat_ofNat]
    exact Nat.mod_eq_of_lt hrid
  rw [hu, htag, hnet, hremotes, show [m].find? (fun y => y.rid == m.rid) = some m by simp] at hexec
  refine ⟨u, hsu, hexec.trans ?_⟩
  have hfreed : u.modNet (fun n => { n with remotes := n.remotes.filter fun y => y.rid != m.rid }) = tagFreed u := by
    rw [State.modNet, tagFreed, hnet, hremotes, filter_freed]
  dsimp only
  rw [hfreed]
  rfl

theorem tagFreed_within {u : State} (hsu : Within [.gvl] s u) : Within [.net, .que, .gvl] s (tagFreed u) :=
  hsu.mono.step (State.modNet_within (f := fun n => { n with remotes := [] }))

theorem Asker.freed {u : State} (h : Asker s q x d) (hsu : Within [.gvl] s u) : Asker (tagFreed u) q x d :=
  h.of_eq (hsu.frame .que (by decide)) (hsu.frame .pin (by decide)) (hsu.frame .grt (by decide)) (hsu.frame .xlt (by decide))

theorem endDesc_ends (h : Asker s q x d) (status result : Nat) :
    ∃ d', ((endDesc q d.id status result s).qu q).context = [d'] ∧ d'.ended = some (status, result) :=
  ⟨_, endDesc_single (by rw [h.qu, h.context]) h.running .., rfl⟩

theorem restartOf_of_eq {t : State} (hque : t.que = s.que) (hnet : t.net = s.net) : restartOf t q d = restartOf s q d := by
  unfold restartOf
  rw [qu_of_que hque, hnet]

/-- A request that is not answered in time ends its descriptor and is counted for its node (R575). -/
theorem remoteTimeout_ends {q : QueueId} (h : Asker s q x d) (hremotes : s.net.remotes = [m]) (hq : m.queue = q.val) (hid : d.id = m.cid)
    (hrid : m.rid < 65536) : Completes (.remoteTimeout (BitVec.ofNat 16 m.rid)) s fun t =>
      t.net.remotes = [] ∧ tabGet 0 t.net.timeouts m.node = tabGet 0 s.net.timeouts m.node + 1 ∧
      (∃ d', (t.qu q).context = [d'] ∧ d'.ended = some (0x10, restartOf { s with net := { s.net with remotes := [] } } q d)) ∧
      OnlyChanges [.net, .que] s t := by
  have hexec : exec (.remoteTimeout (BitVec.ofNat 16 m.rid)) s = execRemoteTimeout (BitVec.ofNat 16 m.rid) s := rfl
  have htag : (BitVec.ofNat 16 m.rid).toNat = m.rid := by
    rw [BitVec.toNat_ofNat]
    exact Nat.mod_eq_of_lt hrid
  unfold execRemoteTimeout at hexec
  rw [htag, hremotes, show [m].find? (fun y => y.rid == m.rid) = some m by simp] at hexec
  dsimp only at hexec
  obtain ⟨u, hu⟩ : ∃ u, s.modNet (fun n => { n with
    remotes := n.remotes.filter (fun y => y.rid != m.rid), timeouts := tabMod 0 n.timeouts m.node (· + 1) }) = u := ⟨_, rfl⟩
  have hsu : Within [.net, .que] s u := by
    rw [← hu]
    exact State.modNet_within.mono
  have hunet : u.net = { s.net with remotes := [], timeouts := tabMod 0 s.net.timeouts m.node (· + 1) } := by
    rw [← hu, State.modNet]
    dsimp only
    rw [hremotes, filter_freed]
  have hasker : Asker u q x d := by
    rw [← hu]
    exact h.of_eq rfl rfl rfl rfl
  have hrestart : restartOf u q d = restartOf (tagFreed s) q d := by
    have hremotes' : u.net.remotes = (tagFreed s).net.remotes := by rw [hunet]; rfl
    unfold restartOf
    rw [show u.qu q = (tagFreed s).qu q by rw [← hu]; rfl, hremotes']
  rw [hu, hasker.answer_fails hq hid, hrestart] at hexec
  have hnet : (endDesc q d.id 0x10 (restartOf (tagFreed s) q d) u).net = u.net := rfl
  refine ⟨_, hexec, ?_, ?_, endDesc_ends hasker .., (hsu.step endDesc_within).frame⟩
  · rw [hnet, hunet]
  · rw [hnet, hunet]
    exact tabGet_tabMod_same (0 : Nat) s.net.timeouts m.node (· + 1)

end

/-! ### The obligation -/

/-- Settles O46, by the accesses of a quiet Grotto and by the end of a descriptor whose answer comes, or does not. -/
theorem remoteRequestsAndAnswers : Obligations.RemoteRequestsAndAnswers := by
  unfold Obligations.RemoteRequestsAndAnswers
  refine ⟨fun s b src rid line o hhop hwire hlink => ⟨fun hgen hquiet => ⟨?_, fun be data => ⟨?_, ?_, ?_⟩⟩, fun hgen be data p bad => ?_⟩,
    fun s m q x d hremotes hq hque hctx hid hstarted hended hstop hremq hst hdb hdbg hbar hwalks hopen => ?_⟩
  · exact remoteRead_answers hhop hwire hlink hgen hquiet
  · exact remoteWrite_writes hhop hwire hlink hgen hquiet be data
  · exact remoteBitset_sets hhop hwire hlink hgen hquiet be data
  · exact remoteBitclr_clears hhop hwire hlink hgen hquiet be data
  · obtain ⟨hwaiting, hframe⟩ := serveRemote_refuses (rid := rid) (line := line) 3 hhop hwire hlink hgen be data p bad
    exact ⟨_, rfl, hwaiting, hframe⟩
  have hasker : Asker s q x d := ⟨hque, hctx, hended, hremq, hdb, hdbg, hbar, hwalks⟩
  refine ⟨fun poison data hrid hread hopc hall hpoison hdst hsrc => ?_, fun status poison data hrid hstatus => ?_, fun hrid => ?_,
    fun rid status poison data hrid => ?_⟩
  · obtain ⟨u, hsu, hexec⟩ := rspReceive_matched hopen hremotes hrid 0 poison data
    have hfreed := hasker.freed hsu
    rw [show ((0 : Byte) == 0) = true from rfl, hfreed.answer_ends hq hid rfl hread hstop hopc hall hpoison hsrc poison data] at hexec
    exact ⟨_, hexec, rfl, endDesc_ends hfreed .., ((tagFreed_within hsu).step endDesc_within).frame⟩
  · obtain ⟨u, hsu, hexec⟩ := rspReceive_matched hopen hremotes hrid status poison data
    have hfreed := hasker.freed hsu
    have hrestart : restartOf (tagFreed u) q d = restartOf (tagFreed s) q d :=
      restartOf_of_eq (hsu.frame .que (by decide)) (congrArg (fun n : Net => { n with remotes := [] }) (hsu.frame .net (by decide)))
    rw [beq_false_of_ne hstatus, hfreed.answer_fails hq hid poison data, hrestart] at hexec
    exact ⟨_, hexec, rfl, endDesc_ends hfreed .., ((tagFreed_within hsu).step endDesc_within).frame⟩
  · exact remoteTimeout_ends hasker hremotes hq hid hrid
  · obtain ⟨u, hu⟩ : ∃ u, takeAnyMsg 1 (fun f => fTy f == 6 && ofLeBytes ((fPay f).take 2) == rid.toNat &&
      fb f 10 == status.toNat) s = u := ⟨_, rfl⟩
    have hsu : Within [.gvl] s u := hu ▸ takeAnyMsg_within
    have hnet : u.net = s.net := hsu.frame .net (by decide)
    have hexec : exec (.rspReceive rid status poison data) s = execRspReceive rid status poison data s := rfl
    unfold execRspReceive at hexec
    dsimp only at hexec
    rw [msgHeld_open hopen, if_neg Bool.false_ne_true, hu, hnet, hremotes,
      show [m].find? (fun y => y.rid == rid.toNat) = none by simp [hrid]] at hexec
    exact ⟨u, hexec, hnet, hsu.frame .que (by decide), hsu.frame⟩

end Sys2Proof

/-! Stream routes: their set-up, the beats they carry and their credits (R580 to R582). -/

namespace Sys2Proof

open Sys2Proof.Machine

/-! ### Tables rewritten entry by entry -/

theorem tabGet_foldl_entries {α : Type} [DecidableEq α] {d : α} (g : α → α) {l : List (Nat × α)} (hl : tabWf d l = true) (t : List (Nat × α))
    (i : Nat) : tabGet d (l.foldl (fun t p => tabSet d t p.1 (g p.2)) t) i =
      if i ∈ l.map (·.1) then g (tabGet d l i) else tabGet d t i := by
  induction l generalizing t with
  | nil => rfl
  | cons p l ih =>
    obtain ⟨-, hlt, htail⟩ := (tabWf_cons d p.1 p.2 l).1 hl
    rw [List.foldl_cons, ih htail, tabGet_tabSet]
    by_cases hip : i = p.1
    · have hout : i ∉ l.map (·.1) := fun h => by
        obtain ⟨q, hq, hqi⟩ := List.mem_map.1 h
        have hkey := hlt q hq
        omega
      rw [if_neg hout, if_pos hip, if_pos (by simp [hip]), tabGet, if_pos hip]
    · have hiff : i ∈ (p :: l).map (·.1) ↔ i ∈ l.map (·.1) := by simp [hip]
      rw [if_neg hip, tabGet, if_neg hip]
      exact (if_congr hiff rfl rfl).symm

theorem tabGet_eq_default {α : Type} {d : α} {l : List (Nat × α)} {i : Nat} (h : i ∉ l.map (·.1)) : tabGet d l i = d := by
  induction l with
  | nil => rfl
  | cons p l ih =>
    rw [List.map_cons, List.mem_cons, not_or] at h
    rw [tabGet, if_neg h.1, ih h.2]

/-- A table whose entries are all rewritten by a function that keeps the default. -/
theorem tabGet_rewritten_at {α : Type} [DecidableEq α] {d : α} {g : α → α} (hg : g d = d) {l : List (Nat × α)} (hl : tabWf d l = true) (i : Nat) :
    tabGet d (l.foldl (fun t p => tabSet d t p.1 (g p.2)) l) i = g (tabGet d l i) := by
  rw [tabGet_foldl_entries g hl]
  split
  · rfl
  case isFalse h => rw [tabGet_eq_default h, hg]

section
variable {s : State}

@[simp] theorem route_modRoute_same (s : State) (e : Nat) (f : Route → Route) : (s.modRoute e f).route e = f (s.route e) := by
  simp [State.modRoute, State.modNet, State.route]

theorem route_modRoute_other (s : State) {e i : Nat} (f : Route → Route) (h : i ≠ e) : (s.modRoute e f).route i = s.route i := by
  simp [State.modRoute, State.modNet, State.route, tabGet_tabMod_other, h]

theorem route_of_net {t : State} (h : t.net = s.net) (e : Nat) : t.route e = s.route e := by rw [State.route, h, State.route]

/-! ### Endpoints that take nothing -/

theorem epOwned_of_eq {t : State} (hfab : t.fab = s.fab) (hrst : t.rst = s.rst) (e : Nat) : epOwned t e = epOwned s e := by
  have hcol : ∀ n, t.col n = s.col n := fun n => by rw [State.col, hfab, State.col]
  have hchm : ∀ c, t.chm c = s.chm c := fun c => by rw [State.chm, hfab, State.chm]
  have hfence : ∀ d, t.fenced d = s.fenced d := fun d => by rw [State.fenced, hrst, State.fenced]
  have hstate : ∀ c, t.chmState c = s.chmState c := fun c => by
    rw [State.chmState, hchm, State.inReset, hrst, ← State.inReset, State.chmState]
  simp only [epOwned, epChamber, hcol, hchm, hfence, hstate]

/-- Nothing goes into an endpoint that its chamber does not own (R581, R733). -/
theorem drainInputs_closed {e : Nat} (h : epOwned s e = false) : drainInputs e s = s := by
  have hclosed : ∀ k, epFree s e k = false := fun k => by rw [epFree, h]; rfl
  have hports : forEach ((s.pin.ports.map (·.1)).filter fun p => s.regF (0xE_0300 + 4 * p) 0 10 == e) drainPort s = s := by
    refine forEach_eq_self fun p hp => ?_
    have hep : s.regF (0xE_0300 + 4 * p) 0 10 = e := eq_of_beq (List.mem_filter.1 hp).2
    unfold drainPort
    rw [hep]
    exact if_pos (.inr (by rw [hclosed]; rfl))
  unfold drainInputs
  dsimp only
  rw [hports]
  exact if_pos (.inr (by rw [hclosed]; rfl))

/-! ### The commands -/

theorem streamRouteWrite_sets (who : Requester) (val : Word) (hsolo : s.twn.role = 0) : Completes (.streamRouteWrite who val) s fun t =>
    t.route (s.regF 0xB_8028 0 10) = { s.route (s.regF 0xB_8028 0 10) with
      v := bit val 31, dir := bit val 30, node := fld val 16 6, rep := fld val 0 10,
      cred := if bit val 31 && !(s.route (s.regF 0xB_8028 0 10)).v then 32 else (s.route (s.regF 0xB_8028 0 10)).cred } ∧
    (∀ e, e ≠ s.regF 0xB_8028 0 10 → t.route e = s.route e) ∧ OnlyChanges [.net] s t :=
  ⟨_, congrArg Host.Outcome.next (writeReg_srdata who val s hsolo), route_modRoute_same .., fun _ he => route_modRoute_other _ _ he,
    State.modRoute_within.frame⟩

/-- A beat has left its buffer. -/
theorem beatReceive_taken (src : Fin 64) (e : BitVec 10) (beat : Beat) (hopen : ∀ b, s.linkHolds b = false) : ∃ u, Within [.gvl] s u ∧
    exec (.beatReceive src e beat) s = .next (
      if (s.route e.toNat).v ∧ !(s.route e.toNat).dir ∧ (s.route e.toNat).node = src.val ∧ (s.route e.toNat).landing.length < 32 then
        drainInputs e.toNat (u.modRoute e.toNat fun r => { r with landing := r.landing ++ [beat] })
      else raise 0x0B13 [src, e.toNat, 2] (sendRsp src e.toNat 0x10 1 none u)) := by
  obtain ⟨u, hu⟩ : ∃ u, takeAnyMsg 0 (fun f => fTy f == 7 && fSrc f == src.val && ofLeBytes ((fPay f).take 2) % 1024 == e.toNat) s = u := ⟨_, rfl⟩
  have hsu : Within [.gvl] s u := hu ▸ takeAnyMsg_within
  have hroute : ∀ i, u.route i = s.route i := route_of_net (hsu.frame .net (by decide))
  have hexec : exec (.beatReceive src e beat) s = execBeatReceive src e beat s := rfl
  unfold execBeatReceive at hexec
  dsimp only at hexec
  rw [msgHeld_open hopen, if_neg Bool.false_ne_true, hu, hroute] at hexec
  refine ⟨u, hsu, ?_⟩
  rw [hexec]
  split <;> rfl

theorem beatReceive_lands {src : Fin 64} {e : BitVec 10} {beat : Beat} (hv : (s.route e.toNat).v = true)
    (hdir : (s.route e.toNat).dir = false) (hnode : (s.route e.toNat).node = src.val) (hroom : (s.route e.toNat).landing.length < 32)
    (hclosed : epOwned s e.toNat = false) (hopen : ∀ b, s.linkHolds b = false) : Completes (.beatReceive src e beat) s fun t =>
      t.route e.toNat = { s.route e.toNat with landing := (s.route e.toNat).landing ++ [beat] } ∧
      (∀ i, i ≠ e.toNat → t.route i = s.route i) ∧ OnlyChanges [.net, .gvl] s t := by
  obtain ⟨u, hsu, hexec⟩ := beatReceive_taken src e beat hopen
  have hroute : ∀ i, u.route i = s.route i := route_of_net (hsu.frame .net (by decide))
  have hfab : u.fab = s.fab := hsu.frame .fab (by decide)
  have hrst : u.rst = s.rst := hsu.frame .rst (by decide)
  rw [if_pos ⟨hv, by rw [hdir]; rfl, hnode, hroom⟩, drainInputs_closed (s := u.modRoute _ _)
    ((epOwned_of_eq (s := s) hfab hrst _).trans hclosed)] at hexec
  refine ⟨_, hexec, ?_, fun i hi => ?_, ((hsu.mono (l := [.net, .gvl])).step State.modRoute_within).frame⟩
  · rw [route_modRoute_same, hroute]
  · rw [route_modRoute_other _ _ hi, hroute]

theorem beatReceive_discards {src : Fin 64} {e : BitVec 10} {beat : Beat} (hv : (s.route e.toNat).v = false)
    (hopen : ∀ b, s.linkHolds b = false) : Completes (.beatReceive src e beat) s fun t =>
      Raised s t 0x0B13 [src, e.toNat, 2] ∧ t.net = s.net ∧ OnlyChanges (.gvl :: events) s t := by
  obtain ⟨u, hsu, hexec⟩ := beatReceive_taken src e beat hopen
  rw [if_neg (by simp [hv])] at hexec
  have hsent : Within (.gvl :: events) s (sendRsp src e.toNat 0x10 1 none u) := hsu.mono.step sendRsp_within
  have hlast := hsent.step (raise_within (code := 0x0B13) (fields := [src, e.toNat, 2]))
  exact ⟨_, hexec, (raised_raise ..).before hsent, hlast.frame .net (by decide), hlast.frame⟩

/-- What returned credits make of a route (R582). -/
def credited (src e n : Nat) (r : Route) : Route :=
  if r.v = true ∧ r.dir = true ∧ r.node = src ∧ r.rep = e then { r with cred := min 32 (r.cred + n) } else r

theorem bcreditReceive_credits {src : Fin 64} {e : BitVec 10} {n : Byte} (hwf : tabWf {} s.net.streams = true)
    (hopen : ∀ b, s.linkHolds b = false) : Completes (.bcreditReceive src e n) s fun t =>
      (∀ i, t.route i = { s.route i with cred :=
        (if (s.route i).v = true ∧ (s.route i).dir = true ∧ (s.route i).node = src.val ∧ (s.route i).rep = e.toNat
         then min 32 ((s.route i).cred + n.toNat) else (s.route i).cred) }) ∧ OnlyChanges [.net, .gvl] s t := by
  obtain ⟨u, hu⟩ : ∃ u, takeAnyMsg 1 (fun f => fTy f == 6 && fSrc f == src.val && fb f 10 == 0x10) s = u := ⟨_, rfl⟩
  have hsu : Within [.gvl] s u := hu ▸ takeAnyMsg_within
  have hnet : u.net = s.net := hsu.frame .net (by decide)
  have hexec : exec (.bcreditReceive src e n) s = execBcreditReceive src e n s := rfl
  unfold execBcreditReceive at hexec
  dsimp only at hexec
  rw [msgHeld_open hopen, if_neg Bool.false_ne_true, hu] at hexec
  refine ⟨_, hexec, fun i => ?_, ((hsu.mono (l := [.net, .gvl])).step State.modNet_within).frame⟩
  have hall := tabGet_rewritten_at (g := credited src e.toNat n.toNat) rfl hwf i
  rw [← hnet] at hall
  refine hall.trans ?_
  rw [hnet]
  change credited src e.toNat n.toNat (s.route i) = _
  unfold credited
  split <;> rfl

theorem streamRouteBeatSend_eq {e : BitVec 10} {beat : Beat} (hv : (s.route e.toNat).v = true) (hdir : (s.route e.toNat).dir = true)
    (hcred : 0 < (s.route e.toNat).cred) (hown : epOwned s e.toNat = true) : exec (.streamRouteBeatSend e beat) s =
      .next (match nextHop s (s.route e.toNat).node with
        | some b => enqueue b (mkMsg 7 0 (s.route e.toNat).node s.ownAddr true (beatPay (s.route e.toNat).rep beat))
            (s.modRoute e.toNat fun r => { r with cred := r.cred - 1 })
        | none => raise 0x0B13 [(s.route e.toNat).node, (s.route e.toNat).rep, 1] s) := by
  have hexec : exec (.streamRouteBeatSend e beat) s = execStreamRouteBeatSend e beat s := rfl
  unfold execStreamRouteBeatSend at hexec
  dsimp only at hexec
  rw [if_pos ⟨hv, hdir, hcred, hown⟩] at hexec
  exact hexec

end

/-- Settles O47, by what a route write, a beat and a credit message make of their route. -/
theorem streamRoutesCarryBeats : Obligations.StreamRoutesCarryBeats := by
  intro s
  refine ⟨fun who val hsolo => streamRouteWrite_sets who val hsolo,
    fun src e beat hv hdir hnode hroom hclosed hopen => beatReceive_lands hv hdir hnode hroom hclosed hopen,
    fun src e beat hv hopen => beatReceive_discards hv hopen, fun src e n hwf hopen => bcreditReceive_credits hwf hopen,
    fun e beat hv hdir hcred hown => ⟨fun b hhop hwire => ?_, fun hhop => ?_⟩⟩
  · have hexec := streamRouteBeatSend_eq (beat := beat) hv hdir hcred hown
    rw [hhop] at hexec
    obtain ⟨hwaiting, hw⟩ := enqueue_closed (s := s.modRoute e.toNat fun r => { r with cred := r.cred - 1 }) (b := b) hwire
      (mkMsg 7 0 (s.route e.toNat).node s.ownAddr true (beatPay (s.route e.toNat).rep beat))
    refine ⟨_, hexec, ?_, (hwaiting b).trans (if_pos rfl), ((State.modRoute_within.mono (l := [.net, .gvl])).step hw).frame⟩
    rw [route_of_net (hw.frame .net (by decide)), route_modRoute_same]
  · have hexec := streamRouteBeatSend_eq (beat := beat) hv hdir hcred hown
    rw [hhop] at hexec
    exact ⟨_, hexec, raise_net .., raised_raise .., raise_within.frame⟩

end Sys2Proof

/-! The pair's synchronisation: HELLO, its refusals, the timeout, arbitration and the barrier (R595 to R600). -/

namespace Sys2Proof

open Sys2Proof.Machine

section
variable {s : State}

/-! ### Roles -/

theorem sendMsix_twn (vec : Nat) : (sendMsix vec s).twn = s.twn := sendMsix_within.frame .twn (by decide)

/-- A role change leaves the rest of Brynerek, and tells it at most (Table Twin-12). -/
theorem setPair_twn (role pst : Nat) : (setPair role pst s).twn = { s.twn with role := role, pstate := pst } := by
  unfold setPair
  dsimp only
  split
  · rw [sendMsix_twn]
    rfl
  · rfl

theorem onlyChanges_modTwn (f : Twin → Twin) : OnlyChanges [.twn] s (s.modTwn f) := by
  intro p hp
  cases p with
  | twn => exact absurd (by decide) hp
  | regs => exact fun _ => rfl
  | _ => rfl

theorem setPair_frame (role pst : Nat) : OnlyChanges [.twn, .out, .pci] s (setPair role pst s) := by
  unfold setPair
  dsimp only
  split
  · exact ((onlyChanges_modTwn _).mono (by decide)).trans (sendMsix_within.frame.mono (by decide))
  · exact (onlyChanges_modTwn _).mono (by decide)

/-- What the release of the fabric leaves and shows (R435, R472). -/
theorem releaseFabric_spec (n : Nat) : (releaseFabric n s).fab.released = true ∧ (releaseFabric n s).cfg.stage = 0xB ∧
    (releaseFabric n s).twn = s.twn ∧ (releaseFabric n s).now = s.now := by
  have hw := releaseFabric_within (micros := n) (s := s)
  refine ⟨?_, ?_, hw.frame .twn (by decide), congrArg (·.tbase) (hw.frame .lys (by decide) : (releaseFabric n s).lys = s.lys)⟩
  · unfold releaseFabric
    dsimp only
    rw [show ∀ c f u, (raise c f u).fab = u.fab from fun c f u => raise_fab c f u]
    rfl
  · unfold releaseFabric
    dsimp only
    rw [raise_cfg]
    rfl

/-- Step 10 ALONE (R597, R598). -/
theorem goOnAlone_spec : (goOnAlone s).twn = { s.twn with leadLow := true, failDrive := none, hbRun := false, role := 0, pstate := 3 } ∧
    (goOnAlone s).cfg.stage = 0xB ∧ (goOnAlone s).fab.released = true := by
  unfold goOnAlone
  obtain ⟨hfab, hstage, htwn, -⟩ := releaseFabric_spec (s := raise 0x0C09 [4]
    (setPair 0 3 (s.modTwn fun t => { t with leadLow := true, failDrive := none, hbRun := false }))) s.micros
  refine ⟨?_, hstage, hfab⟩
  rw [htwn, raise_twn, setPair_twn]
  rfl

/-- Brynerek of a device that has failed silent (R605). -/
def silenced (cause : Nat) (t : Twin) : Twin :=
  { t with fscause := cause, failDrive := none, failin := t.failin || t.role == 1, leadLow := false, hbRun := false, checking := false,
           phase := 0, lines := 0, role := 0, pstate := 4 }

/-- A device of a twin start that is not SILENT fails silent (R605). -/
theorem failSilent_spec (cause : Nat) (htwin : s.twinStart = true) (hst : s.twn.pstate ≠ 4) :
    (failSilent cause s).twn = silenced cause s.twn ∧ Raised s (failSilent cause s) 0x0C03 [cause, s.twn.role, s.now] := by
  obtain ⟨u, hu⟩ : ∃ u, (sendTwin 5 [] s).when (s.twn.role == 1) (fun s => s.send (.twin 9 [])) = u := ⟨_, rfl⟩
  have hsu : Within [.out] s u := by
    rw [← hu]
    exact sendTwin_within.step (.when State.send_within)
  have htwn : u.twn = s.twn := hsu.frame .twn (by decide)
  obtain ⟨v, hv⟩ : ∃ v, bundlesOff (setPair 0 4 (u.modTwn fun t => { t with
    fscause := cause, failDrive := none, failin := t.failin || s.twn.role == 1, leadLow := false, hbRun := false,
    checking := false, phase := 0, lines := 0 })) = v := ⟨_, rfl⟩
  have huv : Within (.cry :: .gvl :: .twn :: events) u v := by
    rw [← hv]
    exact ((State.modTwn_within).mono.step setPair_within).step bundlesOff_within
  have hvtwn : v.twn = silenced cause s.twn := by
    rw [← hv, show ∀ w, (bundlesOff w).twn = w.twn from fun w => bundlesOff_within.frame .twn (by decide), setPair_twn]
    change ({ u.twn with
      fscause := cause, failDrive := none, failin := u.twn.failin || s.twn.role == 1, leadLow := false, hbRun := false,
      checking := false, phase := 0, lines := 0, role := 0, pstate := 4 } : Twin) = _
    rw [htwn]
    rfl
  have hsv : Within (.cry :: .gvl :: .twn :: events) s v := hsu.mono.trans huv
  have hnow : v.now = s.now := congrArg (·.tbase) (hsv.frame .lys (by decide) : v.lys = s.lys)
  have hfail : failSilent cause s = raise 0x0C03 [cause, s.twn.role, s.now] v := by
    unfold failSilent
    rw [if_neg (by simp [htwin, hst])]
    dsimp only
    rw [hu, hv, hnow]
  rw [hfail]
  exact ⟨(raise_twn ..).trans hvtwn, (raised_raise ..).before hsv⟩

/-- Step 10 SILENT (R597, R598). -/
theorem goOnSilent_spec (htwin : s.twinStart = true) (hst : s.twn.pstate ≠ 4) : (goOnSilent s).twn = silenced 0xB s.twn ∧
    (goOnSilent s).cfg.stage = 0xB ∧ Raised s (goOnSilent s) 0x0C03 [0xB, s.twn.role, s.now] := by
  obtain ⟨htwn, hraised⟩ := failSilent_spec 0xB htwin hst
  obtain ⟨-, hstage, hkept, -⟩ := releaseFabric_spec (s := failSilent 0xB s) s.micros
  exact ⟨hkept.trans htwn, hstage, hraised.within releaseFabric_within⟩

/-! ### HELLO -/

theorem syncing_pstate (h : syncing s = true) : s.twn.pstate = 1 := by
  simp only [syncing, Bool.and_eq_true, beq_iff_eq] at h
  exact h.2

theorem syncing_modTwn {f : Twin → Twin} (hf : (f s.twn).pstate = s.twn.pstate) (h : syncing s = true) : syncing (s.modTwn f) = true := by
  rw [← h]
  exact congrArg (fun n => s.cfg.stage == 9 && n == 1) hf

/-- The device has heard a HELLO (R595). -/
def helloHeard (h : Hello) (t : Twin) : Twin := { t with puid := h.uid, heard := some h }

theorem exec_helloReceive (htwin : s.twinStart = true) (hsync : syncing s = true) (hnone : s.twn.sync = none) {h : Hello}
    (halone : h.alone = false) : exec (.helloReceive h) s = .next (match helloRefusal s h with
      | none => (s.modTwn (helloHeard h)).modTwn fun t => { t with sync := some h, lead := wouldLead s h }
      | some r => if wouldLead s h then goOnAlone (raise 0x0C0C [r] (s.modTwn (helloHeard h)))
        else goOnSilent (raise 0x0C0C [r] (s.modTwn (helloHeard h)))) := by
  have hexec : exec (.helloReceive h) s = execHelloReceive h s := rfl
  have hpst := syncing_pstate hsync
  unfold execHelloReceive at hexec
  rw [htwin, if_neg (by decide)] at hexec
  change exec (.helloReceive h) s = (if (s.modTwn (helloHeard h)).twn.pstate = 3 then _ else
    if !syncing (s.modTwn (helloHeard h)) || (s.modTwn (helloHeard h)).twn.sync.isSome || h.alone then _ else
    match helloRefusal (s.modTwn (helloHeard h)) h with
      | none => _
      | some r => _) at hexec
  rw [if_neg (show ¬(s.modTwn (helloHeard h)).twn.pstate = 3 from by change ¬s.twn.pstate = 3; omega),
    syncing_modTwn (f := helloHeard h) rfl hsync, show (s.modTwn (helloHeard h)).twn.sync = none from hnone, halone,
    if_neg (by simp)] at hexec
  rw [hexec]
  change (match helloRefusal s h with
      | none => _
      | some r => _) = _
  split <;> rfl

theorem helloReceive_kept (htwin : s.twinStart = true) (hsync : syncing s = true) (hnone : s.twn.sync = none) {h : Hello}
    (halone : h.alone = false) (hok : helloRefusal s h = none) : Completes (.helloReceive h) s fun t =>
      t.twn = { s.twn with puid := h.uid, heard := some h, sync := some h, lead := wouldLead s h } ∧ OnlyChanges [.twn] s t := by
  have hexec := exec_helloReceive htwin hsync hnone halone
  rw [hok] at hexec
  exact ⟨_, hexec, rfl, (onlyChanges_modTwn _).trans (onlyChanges_modTwn _)⟩

/-- What stands when a check of HELLO has failed and been told (R597). -/
theorem refused_within (h : Hello) (r : Nat) : Within (.twn :: events) s (raise 0x0C0C [r] (s.modTwn (helloHeard h))) :=
  (State.modTwn_within (f := helloHeard h)).mono.step raise_within

theorem refused_raised (h : Hello) (r : Nat) : Raised s (raise 0x0C0C [r] (s.modTwn (helloHeard h))) 0x0C0C [r] :=
  (raised_raise ..).before (State.modTwn_within (f := helloHeard h))

theorem helloReceive_alone (htwin : s.twinStart = true) (hsync : syncing s = true) (hnone : s.twn.sync = none) {h : Hello} {r : Nat}
    (halone : h.alone = false) (hbad : helloRefusal s h = some r) (hlead : wouldLead s h = true) : Completes (.helloReceive h) s fun t =>
        t.twn.role = 0 ∧ t.twn.pstate = 3 ∧ t.twn.puid = h.uid ∧ t.cfg.stage = 0xB ∧ t.fab.released = true ∧ Raised s t 0x0C0C [r] := by
  have hexec := exec_helloReceive htwin hsync hnone halone
  rw [hbad, hlead] at hexec
  dsimp only at hexec
  rw [if_pos rfl] at hexec
  obtain ⟨htwn, hstage, hfab⟩ := goOnAlone_spec (s := raise 0x0C0C [r] (s.modTwn (helloHeard h)))
  rw [raise_twn] at htwn
  refine ⟨_, hexec, ?_, ?_, ?_, hstage, hfab, (refused_raised h r).within goOnAlone_within⟩
  all_goals rw [htwn]
  rfl

theorem helloReceive_silent (htwin : s.twinStart = true) (hsync : syncing s = true) (hnone : s.twn.sync = none) {h : Hello} {r : Nat}
    (halone : h.alone = false) (hbad : helloRefusal s h = some r) (hlead : wouldLead s h = false) : Completes (.helloReceive h) s fun t =>
        t.twn.role = 0 ∧ t.twn.pstate = 4 ∧ t.twn.fscause = 0xB ∧ t.twn.failDrive = none ∧ t.cfg.stage = 0xB ∧
        Raised s t 0x0C0C [r] ∧ Raised s t 0x0C03 [0xB, s.twn.role, s.now] := by
  have hexec := exec_helloReceive htwin hsync hnone halone
  rw [hbad, hlead] at hexec
  dsimp only at hexec
  rw [if_neg Bool.false_ne_true] at hexec
  obtain ⟨w, hw⟩ : ∃ w, raise 0x0C0C [r] (s.modTwn (helloHeard h)) = w := ⟨_, rfl⟩
  have hsw : Within (.twn :: events) s w := hw ▸ refused_within h r
  have hraised : Raised s w 0x0C0C [r] := hw ▸ refused_raised h r
  have htwnw : w.twn = helloHeard h s.twn := by rw [← hw, raise_twn]; rfl
  have hnow : w.now = s.now := congrArg (·.tbase) (hsw.frame .lys (by decide) : w.lys = s.lys)
  have htwinw : w.twinStart = true := by
    rw [State.twinStart, show w.cfg = s.cfg from hsw.frame .cfg (by decide), ← State.twinStart, htwin]
  have hpst := syncing_pstate hsync
  obtain ⟨htwn, hstage, hsilent⟩ := goOnSilent_spec htwinw (show w.twn.pstate ≠ 4 by rw [htwnw]; change s.twn.pstate ≠ 4; omega)
  rw [htwnw] at htwn hsilent
  rw [hw] at hexec
  rw [show (helloHeard h s.twn).role = s.twn.role from rfl, hnow] at hsilent
  refine ⟨_, hexec, ?_, ?_, ?_, ?_, hstage, hraised.within goOnSilent_within, hsilent.before hsw⟩
  all_goals
    rw [htwn]
    rfl

/-! ### Nobody is heard -/

theorem syncTimeout_watches (hsync : syncing s = true) (hnone : s.twn.heard = none) : Completes (.syncTimeout false) s fun t =>
    t.twn = { s.twn with leadLow := true, leadin := true } ∧ OnlyChanges [.twn] s t :=
  ⟨_, (if_neg (by simp [hsync, hnone])).trans (if_neg (by decide)), rfl, onlyChanges_modTwn _⟩

/-- Nobody is heard: the line's outcome is told (R597). -/
def unheard (f : Twin → Twin) (s : State) : State := raise 0x0C0C [1] (s.modTwn f)

theorem unheard_silent {f : Twin → Twin} (hf : ∀ t, (f t).pstate = t.pstate) (hpair : ∀ t, (f t).role = t.role) (htwin : s.twinStart = true)
    (hsync : syncing s = true) : (goOnSilent (unheard f s)).twn = silenced 0xB (f s.twn) ∧ (goOnSilent (unheard f s)).cfg.stage = 0xB ∧
      Raised s (goOnSilent (unheard f s)) 0x0C0C [1] := by
  have hmod : Within [.twn] s (s.modTwn f) := State.modTwn_within hpair
  have htwn : (unheard f s).twn = f s.twn := raise_twn ..
  have hw : Within (.twn :: events) s (unheard f s) := hmod.mono.step raise_within
  have hraised : Raised s (unheard f s) 0x0C0C [1] := (raised_raise ..).before hmod
  have htwin' : (unheard f s).twinStart = true := by
    rw [State.twinStart, show (unheard f s).cfg = s.cfg from hw.frame .cfg (by decide), ← State.twinStart, htwin]
  have hpst := syncing_pstate hsync
  obtain ⟨hsilent, hstage, -⟩ := goOnSilent_spec htwin' (show (unheard f s).twn.pstate ≠ 4 by rw [htwn, hf]; omega)
  exact ⟨by rw [hsilent, htwn], hstage, hraised.within goOnSilent_within⟩

theorem syncTimeout_silent (htwin : s.twinStart = true) (hsync : syncing s = true) (hnone : s.twn.heard = none) :
    Completes (.syncTimeout true) s fun t =>
      t.twn.pstate = 4 ∧ t.twn.fscause = 0xB ∧ t.cfg.stage = 0xB ∧ Raised s t 0x0C0C [1] := by
  obtain ⟨htwn, hstage, hraised⟩ := unheard_silent (f := fun t => { t with leadin := false }) (fun _ => rfl) (fun _ => rfl) htwin hsync
  exact ⟨_, (if_neg (by simp [hsync, hnone])).trans (if_pos rfl), congrArg Twin.pstate htwn, congrArg Twin.fscause htwn, hstage, hraised⟩

theorem arbitrationEnd_won (hsync : syncing s = true) (hnone : s.twn.heard = none) : Completes (.arbitrationEnd true) s fun t =>
    t.twn.role = 0 ∧ t.twn.pstate = 3 ∧ t.twn.leadLow = true ∧ t.cfg.stage = 0xB ∧ Raised s t 0x0C0C [1] := by
  obtain ⟨htwn, hstage, -⟩ := goOnAlone_spec (s := unheard (fun t => { t with leadLow := true, leadin := false }) s)
  have hraised : Raised s (unheard (fun t => { t with leadLow := true, leadin := false }) s) 0x0C0C [1] :=
    (raised_raise ..).before State.modTwn_within
  exact ⟨_, if_neg (by simp [hsync, hnone]), congrArg Twin.role htwn, congrArg Twin.pstate htwn, congrArg Twin.leadLow htwn, hstage,
    hraised.within goOnAlone_within⟩

theorem arbitrationEnd_lost (htwin : s.twinStart = true) (hsync : syncing s = true) (hnone : s.twn.heard = none) :
    Completes (.arbitrationEnd false) s fun t =>
      t.twn.role = 0 ∧ t.twn.pstate = 4 ∧ t.twn.fscause = 0xB ∧ t.twn.leadLow = false ∧ Raised s t 0x0C0C [1] := by
  obtain ⟨htwn, -, hraised⟩ := unheard_silent (f := fun t => { t with leadLow := false, leadin := false }) (fun _ => rfl) (fun _ => rfl)
    htwin hsync
  exact ⟨_, if_neg (by simp [hsync, hnone]), congrArg Twin.role htwn, congrArg Twin.pstate htwn, congrArg Twin.fscause htwn,
    congrArg Twin.leadLow htwn, hraised⟩

/-! ### The barrier -/

/-- Brynerek at the barrier, before the roles stand (R599, R600). -/
def atBarrier (lead : Bool) (t : Twin) : Twin :=
  { t with sync := none, failDrive := if lead then some false else none, failin := false, leadLow := lead, leadin := false, hbRun := !lead,
           hbok := lead, stamped := 0, wasPaired := true, held := [], progress := [], own := [] }

/-- The setup that takes effect at the barrier, with the phases cleared (R599). -/
def barrierSetup (s : State) : State := (takeTwinSetup s).modFab fun f => { f with phase := [], early := [] }

/-- The roles of a pair stand, and the fabric is released (R599, R600). -/
def barrierPassed (lead : Bool) (h : Hello) (s : State) : State :=
  let u := setPair (if lead then 1 else 2) 2 ((barrierSetup s).modTwn (atBarrier lead))
  releaseFabric u.micros (raise 0x0C02 [u.twn.role, h.uid.toNat, u.now] u)

theorem exec_syncBarrier (hsync : syncing s = true) {h : Hello} (hsome : s.twn.sync = some h) : exec .syncBarrier s =
    .next (barrierPassed s.twn.lead h (if s.twn.lead then s else s.modLys fun l => { l with tbase := h.barrier })) := by
  have hexec : exec .syncBarrier s = execSyncBarrier s := rfl
  unfold execSyncBarrier at hexec
  rw [hsome] at hexec
  dsimp only at hexec
  rw [hsync, if_neg (by decide)] at hexec
  exact hexec

theorem barrierPassed_spec (lead : Bool) (h : Hello) : (barrierPassed lead h s).twn =
      { atBarrier lead { s.twn with delay := delayInEffect s, pins := s.reg 0xC_000C } with role := if lead then 1 else 2, pstate := 2 } ∧
    (barrierPassed lead h s).now = s.now ∧ (barrierPassed lead h s).fab.released = true ∧ (barrierPassed lead h s).cfg.stage = 0xB ∧
    (⟨0x0C02, [if lead then 1 else 2, h.uid.toNat, s.now], s.now⟩ : Event) ∈ (barrierPassed lead h s).ev.raised := by
  obtain ⟨u, hu⟩ : ∃ u, setPair (if lead then 1 else 2) 2 ((barrierSetup s).modTwn (atBarrier lead)) = u := ⟨_, rfl⟩
  have htwn : u.twn = { atBarrier lead { s.twn with delay := delayInEffect s, pins := s.reg 0xC_000C } with
      role := if lead then 1 else 2, pstate := 2 } := by
    rw [← hu, setPair_twn]
    rfl
  have hnow : u.now = s.now := by
    have hlys : u.lys = s.lys := by
      rw [← hu]
      exact setPair_frame _ _ .lys (by decide)
    exact congrArg (·.tbase) hlys
  have hrole : u.twn.role = if lead then 1 else 2 := by rw [htwn]
  obtain ⟨v, hv⟩ : ∃ v, raise 0x0C02 [if lead then 1 else 2, h.uid.toNat, s.now] u = v := ⟨_, rfl⟩
  have hraised : Raised u v 0x0C02 [if lead then 1 else 2, h.uid.toNat, s.now] := hv ▸ raised_raise ..
  have huv : Within events u v := hv ▸ raise_within
  have hpassed : barrierPassed lead h s = releaseFabric u.micros v := by
    rw [barrierPassed, hu, hrole, hnow, hv]
  obtain ⟨hfab, hstage, hkept, hnow'⟩ := releaseFabric_spec (s := v) u.micros
  have hlast := hraised.within (releaseFabric_within (micros := u.micros))
  rw [Raised, hnow] at hlast
  rw [hpassed]
  refine ⟨?_, ?_, hfab, hstage, hlast⟩
  · rw [hkept, show v.twn = u.twn from huv.frame .twn (by decide), htwn]
  · rw [hnow', show v.now = u.now from congrArg (·.tbase) (huv.frame .lys (by decide) : v.lys = u.lys), hnow]

end

/-- Settles O48, by the HELLO, its refusals, the timeout, the arbitration and the barrier. -/
theorem pairSynchronises : Obligations.PairSynchronises := by
  intro s htwin hsync
  refine ⟨fun h hnone halone => ⟨fun hok => helloReceive_kept htwin hsync hnone halone hok, fun r hbad =>
      ⟨fun hlead => helloReceive_alone htwin hsync hnone halone hbad hlead, fun hlead => helloReceive_silent htwin hsync hnone halone hbad hlead⟩⟩,
    fun hnone => ⟨syncTimeout_watches hsync hnone, syncTimeout_silent htwin hsync hnone, arbitrationEnd_won hsync hnone,
      arbitrationEnd_lost htwin hsync hnone⟩, fun h hsome => ⟨fun hlead => ?_, fun hlead => ?_⟩⟩
  · have hexec := exec_syncBarrier hsync hsome
    rw [hlead, if_pos rfl] at hexec
    obtain ⟨htwn, hnow, hfab, hstage, hraised⟩ := barrierPassed_spec (s := s) true h
    exact ⟨_, hexec, congrArg Twin.role htwn, congrArg Twin.pstate htwn, hnow, congrArg Twin.failDrive htwn, congrArg Twin.delay htwn,
      congrArg Twin.pins htwn, hfab, hstage, hraised⟩
  · have hexec := exec_syncBarrier hsync hsome
    rw [hlead, if_neg Bool.false_ne_true] at hexec
    obtain ⟨htwn, hnow, hfab, hstage, hraised⟩ := barrierPassed_spec (s := s.modLys fun l => { l with tbase := h.barrier }) false h
    exact ⟨_, hexec, congrArg Twin.role htwn, congrArg Twin.pstate htwn, hnow, congrArg Twin.failDrive htwn, congrArg Twin.hbRun htwn,
      congrArg Twin.pins htwn, hfab, hstage, hraised⟩

end Sys2Proof

/-! What an edge leaves of Brynerek and of the pins' levels in a device that is not paired (R605, R610). -/

namespace Sys2Proof

open Sys2Proof.Machine

/-- Brynerek stays as it is in a device that is not paired, and so do the levels of its balls. -/
def TwinKept (s t : State) : Prop := (s.paired = false → t.twn = s.twn) ∧ t.pin.ball = s.pin.ball

namespace TwinKept

variable {s t u b : State} {v : Nets} {c k : Nat} {l : List Part}

theorem refl : TwinKept s s := ⟨fun _ => rfl, rfl⟩

theorem trans (h : TwinKept s t) (h' : TwinKept t u) : TwinKept s u := by
  refine ⟨fun hp => ?_, h'.2.trans h.2⟩
  have htwn := h.1 hp
  exact (h'.1 (by rw [State.paired, htwn, ← State.paired, hp])).trans htwn

theorem ite {p : Prop} [Decidable p] (h : TwinKept s t) (h' : TwinKept s u) : TwinKept s (if p then t else u) := by
  split
  · exact h
  · exact h'

theorem forEach {α : Type} {xs : List α} {f : α → State → State} (h : ∀ a w, TwinKept w (f a w)) :
    TwinKept s (Machine.forEach xs f s) :=
  forEach_keeps (fun w => TwinKept s w) xs f (fun a w hw => hw.trans (h a w)) s refl

/-- What changes neither Brynerek nor the pins. -/
theorem elsewhere (h : Within l s t) (hl : (l.all fun p => p != .twn && p != .pin) = true := by rfl) : TwinKept s t := by
  have hnot : ∀ p, p = .twn ∨ p = .pin → p ∉ l := fun p hp hmem => by
    have hall := List.all_eq_true.1 hl p hmem
    rcases hp with rfl | rfl <;> simp at hall
  have hpin : t.pin = s.pin := h.frame .pin (hnot _ (.inr rfl))
  exact ⟨fun _ => h.frame .twn (hnot _ (.inl rfl)), by rw [hpin]⟩

/-- What only a pair does. -/
theorem inPair {p : Prop} [Decidable p] (hp : p → s.paired = true) (h : Within l s t)
    (hl : (l.all fun p => p != .pin) = true := by rfl) : TwinKept s (if p then t else s) := by
  have hnot : Part.pin ∉ l := fun hmem => by
    have hall := List.all_eq_true.1 hl _ hmem
    simp at hall
  have hpin : t.pin = s.pin := h.frame .pin hnot
  split
  · exact ⟨fun hpair => absurd (hp ‹_›) (by simp [hpair]), by rw [hpin]⟩
  · exact refl

theorem modPin {f : Pins → Pins} (hf : ∀ p, (f p).ball = p.ball) : TwinKept s (s.modPin f) := ⟨fun _ => rfl, hf _⟩

theorem modChm {f : Chamber → Chamber} : TwinKept s (s.modChm c f) := elsewhere State.modChm_within

theorem modCol {f : Column → Column} : TwinKept s (s.modCol c f) := elsewhere State.modCol_within

theorem raise {code : Nat} {fields : List Nat} : TwinKept s (Machine.raise code fields s) := elsewhere raise_within

theorem holdTurn {mask : BitVec 8} : TwinKept s (Machine.holdTurn c mask s) := ⟨fun _ => rfl, rfl⟩

theorem enterRun : TwinKept s (Machine.enterRun c s) := by
  unfold Machine.enterRun
  exact .ite holdTurn refl

theorem switchTo {tt : Bool} {rank : Nat} : TwinKept s (Machine.switchTo b v c k tt rank s) := by
  unfold Machine.switchTo
  refine .ite refl ?_
  exact (ite refl (elsewhere leaveRun_within)).trans (modChm.trans (.ite
    (trans (t := latchFence c k _) (elsewhere latchFence_within) ((ite refl holdTurn).trans (.ite raise refl))) raise))

theorem releaseChamber {rank : Nat} : TwinKept s (Machine.releaseChamber c rank s) := by
  unfold Machine.releaseChamber
  exact .ite refl (.ite raise (modChm.trans ((ite (.ite (elsewhere latchFence_within) raise) refl).trans
    (raise.trans ((ite modCol refl).trans enterRun)))))

theorem applyOp {op rank : Nat} {tt : Bool} : TwinKept s (Machine.applyOp b v c op k tt rank s) := by
  unfold Machine.applyOp
  split
  · exact .forEach fun _ _ => .ite modChm switchTo
  · exact .forEach fun _ _ => elsewhere holdChamber_within
  · exact .forEach fun _ _ => releaseChamber
  · exact refl

theorem entryCurrent {e : Nat} : TwinKept s (Machine.entryCurrent b v c e s) := by
  unfold Machine.entryCurrent
  exact modChm.trans (.ite (elsewhere stopSchedule_within) (modChm.trans (.forEach fun _ _ => switchTo)))

theorem chamberActs {due : List Nat} : TwinKept s (Machine.chamberActs b v due c s) :=
  chamberActs_of (fun _ => refl) trans (fun _ => modChm) (fun _ => modChm) (fun _ _ _ => raise) (fun _ _ _ _ => elsewhere endIssuer_within)
    (fun _ _ _ => elsewhere haltSchedule_within) (fun _ _ _ _ _ _ => applyOp) (fun _ _ => entryCurrent) (fun _ _ => elsewhere clearCmd_within)
    (fun _ _ _ _ => switchTo)

theorem lockDetect {n mask : Nat} {x y : Word} : TwinKept s (Machine.lockDetect n mask x y s) := by
  unfold Machine.lockDetect
  refine trans ?_ (inPair id failSilent_within)
  exact raise.trans (modCol.trans ((elsewhere State.modLib_within).trans
    ((elsewhere quarantineAtEdge_within).trans (elsewhere quarantineAtEdge_within))))

theorem compareDigests : TwinKept s (Machine.compareDigests b v c s) := by
  unfold Machine.compareDigests
  refine .ite refl ?_
  split
  · exact modCol.trans (.ite refl lockDetect)
  · exact modCol

theorem loadPin {i : Nat} : TwinKept s (Machine.loadPin c i s) := by
  unfold Machine.loadPin
  have hset : ∀ f : Pins → Pins, (∀ p, (f p).ball = p.ball) → TwinKept s (s.fresh.modPin f) := fun f hf =>
    (elsewhere State.fresh_within).trans (modPin hf)
  refine .ite (trans ?_ raise) (hset _ fun _ => rfl)
  exact (hset _ fun _ => rfl).trans (modPin fun _ => rfl)

theorem edgeCounts : TwinKept s (Machine.edgeCounts c s) := by
  unfold Machine.edgeCounts pinEdge
  refine trans (ite ?_ refl) (.ite modCol refl)
  refine trans (ite ?_ refl) (.ite refl modChm)
  split
  · exact refl
  · exact .forEach fun _ _ => .ite loadPin refl

theorem edgeEnds : TwinKept s (Machine.edgeEnds b c s) := by
  have hafter : ∀ w, TwinKept w (afterSwitch b c w) := fun w => by
    unfold afterSwitch
    exact inPair (fun h => h.1) failSilent_within
  unfold Machine.edgeEnds
  exact (ite enterRun refl).trans ((hafter _).trans (elsewhere deliverParked_within))

/-- Coincident edges of global clocks (R135, R166). -/
theorem clockEdges {clks : List Nat} : TwinKept s (Machine.clockEdges clks s) := by
  unfold Machine.clockEdges
  exact (elsewhere trigFires_within).trans (elsewhere settleKeepers_within)
    |>.trans (.forEach fun _ _ => elsewhere loadAtEdges_within)
    |>.trans (.forEach fun _ _ => edgeCounts)
    |>.trans (.forEach fun _ _ => compareDigests)
    |>.trans (.forEach fun _ _ => elsewhere deviceActs_within)
    |>.trans (.forEach fun _ _ => elsewhere countWaits_within)
    |>.trans (.forEach fun _ _ => chamberActs)
    |>.trans (elsewhere groupsEnd_within)
    |>.trans (elsewhere groupCounts_within)
    |>.trans (.forEach fun _ _ => edgeEnds)
    |>.trans (elsewhere leaveUnreleased_within)
    |>.trans (elsewhere watchShafts_within)
    |>.trans (elsewhere State.fresh_within)

theorem clockInputRises {n : Nat} : TwinKept s (Machine.clockInputRises n s) := by
  unfold Machine.clockInputRises
  exact trans (t := State.modFab _ _) (elsewhere State.modFab_within) (.ite refl clockEdges)

/-! ### Queues -/

variable {q : Nat}

/-- The state that comes with an answer. -/
theorem withAnswer {α : Type} {x : α × State} {a : α} (h : Within l s x.2) (hx : x = (a, t))
    (hl : (l.all fun p => p != .twn && p != .pin) = true := by rfl) : TwinKept s t := by
  rw [hx] at h
  exact elsewhere h hl

/-- What only a lead does. -/
theorem atLead {p : Prop} [Decidable p] (hp : p → s.twn.role = 1) (h : Within l s t) (h' : TwinKept s u)
    (hl : (l.all fun p => p != .pin) = true := by rfl) : TwinKept s (if p then t else u) := by
  split
  case isTrue hlead =>
    have hthen : TwinKept s (if p then t else s) := inPair (fun hp' => by rw [State.paired, hp hp']; rfl) h hl
    rw [if_pos hlead] at hthen
    exact hthen
  case isFalse => exact h'

theorem sendVector {vec : Nat} : TwinKept s (Machine.sendVector q vec s) := by
  unfold Machine.sendVector
  exact atLead (l := [.twn]) (fun h => h.1) State.modTwn_within (elsewhere sendMsix_within)

theorem ringWrite {kind addr : Nat} {bytes : List Byte} : TwinKept s (Machine.ringWrite kind q addr bytes s) := by
  unfold Machine.ringWrite
  exact atLead (l := [.twn, .out]) id (sendTwin_within.mono.step State.modTwn_within)
    (elsewhere (l := [.out]) (.when State.send_within))

theorem stateVector : TwinKept s (Machine.stateVector q s) := by
  unfold Machine.stateVector
  exact .ite ((elsewhere State.modQu_within).trans sendVector) refl

theorem stampFault {access id kind level va : Nat} {now : State → State} (h : TwinKept s (now s)) :
    TwinKept s (Machine.stampFault q access id kind level va now s) := by
  unfold Machine.stampFault
  exact .ite h (.ite ((elsewhere sendTwin_within).trans (elsewhere State.modXlt_within)) refl)

theorem shadowFault {kind level : Nat} : TwinKept s (Machine.shadowFault q kind level s) := by
  unfold Machine.shadowFault
  refine stampFault ?_
  unfold Machine.shadowFaultNow
  refine (elsewhere countFault_within).trans (.ite (elsewhere faultLater_within) (.ite ?_ ?_))
  · exact (elsewhere stopDescs_within).trans (elsewhere State.modQu_within) |>.trans (elsewhere recordFault_within) |>.trans stateVector
  · exact (ite refl (elsewhere recordFault_within)).trans (elsewhere addRetry_within)

theorem writeShadow : TwinKept s (Machine.writeShadow q s) := by
  unfold Machine.writeShadow
  dsimp only
  split
  · next h => exact (withAnswer translateFor_within h).trans ((ite (elsewhere State.modQu_within) refl).trans ringWrite)
  · next h => exact withAnswer translateFor_within h
  · next h => exact (withAnswer translateFor_within h).trans shadowFault

theorem changeState {f : Queue → Queue} : TwinKept s (Machine.changeState q f s) := by
  unfold Machine.changeState
  dsimp only
  split
  · exact elsewhere State.modQu_within
  · refine .trans ?_ (writeShadow.trans stateVector)
    refine (elsewhere (State.modQu_within (q := q) (f := f))).trans ?_
    split
    · exact (elsewhere endAll_within).trans (raise.trans (elsewhere sweepLoads_within))
    · exact (elsewhere endAll_within).trans ((elsewhere State.modQu_within).trans (elsewhere sweepLoads_within))
    · exact raise
    · exact refl

theorem takeFault {access cid kind level va : Nat} : TwinKept s (Machine.takeFault q access cid kind level va s) := by
  have hend : ∀ (st off : Nat) (u : State), TwinKept u
      (match st with
       | 4 => sweepLoads q (endDesc q cid 0x0D off u)
       | 6 => sweepLoads q ((endDesc q cid 0x0E off u).modQu q fun y => { y with flushed := y.flushed + 1 })
       | _ => stopWhere q (fun d => d.id == cid) u) := by
    intro st off u
    split
    · exact (elsewhere endDesc_within).trans (elsewhere sweepLoads_within)
    · exact (elsewhere endDesc_within).trans ((elsewhere State.modQu_within).trans (elsewhere sweepLoads_within))
    · exact elsewhere stopWhere_within
  unfold Machine.takeFault
  refine stampFault ?_
  unfold Machine.takeFaultNow
  have hdb : TwinKept (countFault s) (if access = 0 then (countFault s).modQu q fun x => { x with dbSt := 0 } else countFault s) :=
    .ite (elsewhere State.modQu_within) refl
  refine (elsewhere countFault_within).trans (.ite refl (.ite (elsewhere faultLater_within) (hdb.trans (.ite ?_ ?_))))
  · exact (elsewhere stopDescs_within).trans (elsewhere recordFault_within) |>.trans changeState
  · exact .trans (ite (elsewhere recordFault_within) refl) (.ite (elsewhere addRetry_within) (.ite (hend _ _ _) refl))

theorem tryDoorbell : TwinKept s (Machine.tryDoorbell q s) := by
  unfold Machine.tryDoorbell
  dsimp only
  split
  · exact refl
  · split
    · next h => exact (withAnswer translateFor_within h).trans (.ite
        ((elsewhere (l := [.out]) (.when State.send_within)).trans (elsewhere State.modQu_within)) (elsewhere State.modQu_within))
    · next h => exact withAnswer translateFor_within h
    · next h => exact (withAnswer translateFor_within h).trans takeFault

theorem takeQueue : TwinKept s (Machine.takeQueue q s) := by
  unfold Machine.takeQueue askDoorbell
  refine trans (.forEach fun _ _ => elsewhere State.send_within) (trans (elsewhere State.modQu_within)
    (trans (elsewhere State.modQu_within) (.ite refl (.ite (elsewhere State.modQu_within) ?_))))
  exact (elsewhere State.modQu_within).trans tryDoorbell

end TwinKept

end Sys2Proof

/-! Takeover, the loss of a partner, failing silent and the rejoin commands (R605, R610 to R623). -/

namespace Sys2Proof

open Sys2Proof.Machine

/-! ### Levels of a bank -/

theorem getLsbD_putBit {w : Nat} (v : BitVec w) (i : Nat) (x : Bool) {j : Nat} (hj : j < w) :
    (putBit v i x).getLsbD j = if j = i then x else v.getLsbD j := by
  have hone : (BitVec.ofNat w (1 <<< i)).getLsbD j = decide (j = i) := by
    rw [BitVec.getLsbD_ofNat, Nat.one_shiftLeft, Nat.testBit_two_pow]
    simp [hj, eq_comm]
  unfold putBit
  cases x with
  | true => rw [if_pos rfl, BitVec.getLsbD_or, hone]; by_cases h : j = i <;> simp [h]
  | false => rw [if_neg Bool.false_ne_true, BitVec.getLsbD_and, BitVec.getLsbD_not, hone]; by_cases h : j = i <;> simp [h, hj]

/-- The first n levels of a bank as they are put. -/
theorem getLsbD_putBits (v : BitVec 768) (level : BitVec 48) (k n : Nat) {i : Nat} (hi : i < 768) :
    ((List.range n).foldl (fun v j => putBit v (48 * k + j) (bit level j)) v).getLsbD i =
      if 48 * k ≤ i ∧ i < 48 * k + n then level.getLsbD (i - 48 * k) else v.getLsbD i := by
  induction n with
  | zero => rw [if_neg (by omega)]; rfl
  | succ n ih =>
    rw [List.range_succ, List.foldl_append, List.foldl_cons, List.foldl_nil, getLsbD_putBit _ _ _ hi, ih]
    by_cases h : i = 48 * k + n
    · rw [if_pos h, if_pos (by omega), h, Nat.add_sub_cancel_left]
      rfl
    · rw [if_neg h]
      exact if_congr (by omega) rfl rfl

section
variable {s : State}

theorem setBank_kept (k : Nat) (level : BitVec 48) : (s.paired = false → (setBank k level s).twn = s.twn) ∧
    (setBank k level s).pin.ball = (List.range 48).foldl (fun v j => putBit v (48 * k + j) (bit level j)) s.pin.ball := by
  obtain ⟨u, hu⟩ : ∃ u, s.modPin (fun p => { p with
    ball := (List.range 48).foldl (fun v j => putBit v (48 * k + j) (bit level j)) p.ball }) = u := ⟨_, rfl⟩
  have hball : u.pin.ball = (List.range 48).foldl (fun v j => putBit v (48 * k + j) (bit level j)) s.pin.ball := by rw [← hu]; rfl
  have htwn : u.twn = s.twn := by rw [← hu]; rfl
  have hset : setBank k level s = if !clockInput s k && clockInput u k then clockInputRises k u else u := by rw [← hu]; rfl
  have hkept : TwinKept u (setBank k level s) := by
    rw [hset]
    exact .ite .clockInputRises .refl
  refine ⟨fun hp => ?_, hkept.2.trans hball⟩
  rw [hkept.1 (by rw [State.paired, htwn, ← State.paired, hp]), htwn]

theorem setBanks_twn (l : List (Nat × Nat)) (hp : s.paired = false) :
    (forEach l (fun (k, v) s => setBank k (BitVec.ofNat 48 v) s) s).twn = s.twn := by
  induction l generalizing s with
  | nil => rfl
  | cons p l ih =>
    have htwn := (setBank_kept (s := s) p.1 (BitVec.ofNat 48 p.2)).1 hp
    rw [forEach_cons]
    exact (ih (by rw [State.paired, htwn, ← State.paired, hp])).trans htwn

/-! ### Takeover -/

/-- A shadow that sees its partner gone (R610): its new role, told. -/
def takenOver (s : State) : State :=
  let u := setPair 0 3 (s.modTwn fun t => { t with failin := true, leadLow := true, hbRun := false, checking := false })
  raise 0x0C04 [u.now, u.twn.puid.toNat] u

theorem takenOver_within : Within (.twn :: events) s (takenOver s) :=
  ((State.modTwn_within).mono.step setPair_within).step raise_within

theorem takenOver_twn : (takenOver s).twn =
    { s.twn with failin := true, leadLow := true, hbRun := false, checking := false, role := 0, pstate := 3 } := by
  rw [takenOver, raise_twn, setPair_twn]
  rfl

theorem takenOver_raised : Raised s (takenOver s) 0x0C04 [s.now, s.twn.puid.toNat] := by
  obtain ⟨u, hu⟩ : ∃ u, setPair 0 3 (s.modTwn fun t => { t with failin := true, leadLow := true, hbRun := false, checking := false }) = u :=
    ⟨_, rfl⟩
  have hsu : Within [.twn, .out, .pci] s u := hu ▸ (State.modTwn_within).mono.step setPair_within
  have hnow : u.now = s.now := congrArg (·.tbase) (hsu.frame .lys (by decide) : u.lys = s.lys)
  have hpuid : u.twn.puid = s.twn.puid := by
    rw [← hu, setPair_twn]
    rfl
  have hover : takenOver s = raise 0x0C04 [s.now, s.twn.puid.toNat] u := by
    rw [takenOver, hu, hnow, hpuid]
  rw [hover]
  exact (raised_raise ..).before hsu

theorem takenOver_unpaired : (takenOver s).paired = false := by
  rw [State.paired, takenOver_twn]
  rfl

/-- What the new lead does for its queues and its pins (R605, R615). -/
def queuesTaken (s : State) : State := forEach ((s.que.filter fun p => p.2.st != 0).map (·.1)) takeQueue s

theorem exec_takeover (hrole : s.twn.role = 2) : exec .takeover s = .next
    ((forEach (queuesTaken (takenOver s)).twn.own (fun (k, v) s => setBank k (BitVec.ofNat 48 v) s) (queuesTaken (takenOver s))).modTwn
      fun t => { t with held := [], progress := [], own := [] }) := by
  have hexec : exec .takeover s = execTakeover s := rfl
  unfold execTakeover at hexec
  rw [if_neg (by simp [hrole])] at hexec
  exact hexec

theorem queuesTaken_twn (hp : s.paired = false) : (queuesTaken s).twn = s.twn :=
  (TwinKept.forEach fun _ _ => TwinKept.takeQueue).1 hp

theorem takeover_spec (hrole : s.twn.role = 2) : Completes .takeover s fun t =>
      t.twn.role = 0 ∧ t.twn.pstate = 3 ∧ t.twn.failin = true ∧ t.twn.leadLow = true ∧ t.twn.held = [] ∧ t.twn.progress = [] ∧
      Raised s t 0x0C04 [s.now, s.twn.puid.toNat] := by
  obtain ⟨u, hu⟩ : ∃ u, queuesTaken (takenOver s) = u := ⟨_, rfl⟩
  have hutwn : u.twn = (takenOver s).twn := hu ▸ queuesTaken_twn takenOver_unpaired
  have hup : u.paired = false := by rw [State.paired, hutwn, ← State.paired, takenOver_unpaired]
  have hqueues : Within (.regs :: .fab :: .lib :: .que :: .xlt :: .net :: .cry :: .gvl :: .twn :: .pin :: .seed :: events) (takenOver s) u := by
    rw [← hu]
    exact .forEach fun _ _ => takeQueue_within.mono
  obtain ⟨v, hv⟩ : ∃ v, forEach u.twn.own (fun (k, v) s => setBank k (BitVec.ofNat 48 v) s) u = v := ⟨_, rfl⟩
  have hvtwn : v.twn = u.twn := hv ▸ setBanks_twn _ hup
  have hbanks : Within (.regs :: .fab :: .lib :: .que :: .cry :: .gvl :: .twn :: .pin :: .seed :: events) u v := by
    rw [← hv]
    exact .forEach fun _ _ => setBank_within
  have hexec := exec_takeover hrole
  rw [hu, hv] at hexec
  have hraised := ((takenOver_raised.within hqueues).within hbanks).within
    (State.modTwn_within (f := fun t => { t with held := [], progress := [], own := [] }))
  have htwn : v.twn = (takenOver s).twn := hvtwn.trans hutwn
  rw [takenOver_twn] at htwn
  exact ⟨_, hexec, congrArg Twin.role htwn, congrArg Twin.pstate htwn, congrArg Twin.failin htwn, congrArg Twin.leadLow htwn, rfl, rfl, hraised⟩

/-- Records that are sent are in what has been sent. -/
theorem mem_out_forEach_send {α : Type} {l : List α} {f : α → Out} {a : α} (ha : a ∈ l) :
    f a ∈ (forEach l (fun a s => s.send (f a)) s).out := by
  have hall : ∀ (l : List α) (u : State), (forEach l (fun a s => s.send (f a)) u).out = u.out ++ l.map f := fun l => by
    induction l with
    | nil => intro u; simp [forEach_nil]
    | cons a l ih => intro u; rw [forEach_cons, ih]; simp [State.send]
  rw [hall]
  exact List.mem_append_right _ (List.mem_map_of_mem ha)

theorem takeover_writes {x : Queue} {r : CommitRec} {q : Nat} (hrole : s.twn.role = 2) (hque : s.que = [(q, x)]) (hst : x.st ≠ 0)
    (hheld : s.twn.held = [r]) (hkind : r.kind = 2) (hq : r.queue = q) :
    Completes .takeover s fun t => .hostWrite 2 q r.addr r.bytes ∈ t.out := by
  refine ⟨_, exec_takeover hrole, ?_⟩
  have huque : (takenOver s).que = [(q, x)] := (takenOver_within.frame .que (by decide)).trans hque
  have huheld : (takenOver s).twn.held = [r] := by rw [takenOver_twn]; exact hheld
  have hrec : r ∈ recordsToWrite (takenOver s) q := by
    have hof : ((takenOver s).twn.held.filter fun r => r.kind == 2 && r.queue == q) = [r] := by simp [huheld, hkind, hq]
    unfold recordsToWrite
    dsimp only
    rw [hof]
    simp [lastOf]
  have htaken : queuesTaken (takenOver s) = takeQueue q (takenOver s) := by
    rw [queuesTaken, huque, show [(q, x)].filter (fun p => p.2.st != 0) = [(q, x)] by simp [hst]]
    rfl
  have hmem : Out.hostWrite 2 q r.addr r.bytes ∈ (queuesTaken (takenOver s)).out := by
    have hsent := mem_out_forEach_send (s := takenOver s) (f := fun r => Out.hostWrite r.kind r.queue r.addr r.bytes) hrec
    rw [hkind, hq] at hsent
    have hlater : Within (.lib :: .que :: .xlt :: .net :: .twn :: events)
        (forEach (recordsToWrite (takenOver s) q) (fun r s => s.send (.hostWrite r.kind r.queue r.addr r.bytes)) (takenOver s))
        (takeQueue q (takenOver s)) := State.modQu_within.mono.step State.modQu_within |>.step askDoorbell_within
    rw [htaken]
    exact hlater.sent _ hsent
  obtain ⟨v, hv⟩ : ∃ v, forEach (queuesTaken (takenOver s)).twn.own (fun (k, v) s => setBank k (BitVec.ofNat 48 v) s)
    (queuesTaken (takenOver s)) = v := ⟨_, rfl⟩
  have hbanks : Within (.regs :: .fab :: .lib :: .que :: .cry :: .gvl :: .twn :: .pin :: .seed :: events) (queuesTaken (takenOver s)) v := by
    rw [← hv]
    exact .forEach fun _ _ => setBank_within
  have hlast : Out.hostWrite 2 q r.addr r.bytes ∈ v.out := hbanks.sent _ hmem
  rw [hv]
  exact hlast

theorem takeover_samples {k : Fin 16} {v : BitVec 48} (hrole : s.twn.role = 2) (hque : s.que = []) (hown : s.twn.own = [(k.val, v.toNat)]) :
    Completes .takeover s fun t =>
      t.twn.own = [] ∧ (∀ j < 48, t.pin.ball.getLsbD (48 * k + j) = v.getLsbD j) ∧
      (∀ i, i / 48 ≠ k.val → t.pin.ball.getLsbD i = s.pin.ball.getLsbD i) := by
  have hk := k.isLt
  have htaken : queuesTaken (takenOver s) = takenOver s := by
    rw [queuesTaken, show (takenOver s).que = [] from (takenOver_within.frame .que (by decide)).trans hque]
    rfl
  have hpin : (takenOver s).pin = s.pin := takenOver_within.frame .pin (by decide)
  have hexec := exec_takeover hrole
  rw [htaken, show (takenOver s).twn.own = [(k.val, v.toNat)] by rw [takenOver_twn]; exact hown, forEach_cons, forEach_nil] at hexec
  have hball : (setBank k.val (BitVec.ofNat 48 v.toNat) (takenOver s)).pin.ball =
      (List.range 48).foldl (fun w j => putBit w (48 * k + j) (bit v j)) s.pin.ball := by
    rw [(setBank_kept ..).2, hpin, BitVec.ofNat_toNat, BitVec.setWidth_eq]
  refine ⟨_, hexec, rfl, fun j hj => ?_, fun i hi => ?_⟩
  · change (setBank k.val (BitVec.ofNat 48 v.toNat) (takenOver s)).pin.ball.getLsbD _ = _
    rw [hball, getLsbD_putBits _ _ _ _ (by omega), if_pos (by omega), Nat.add_sub_cancel_left]
  · change (setBank k.val (BitVec.ofNat 48 v.toNat) (takenOver s)).pin.ball.getLsbD _ = _
    rw [hball]
    by_cases hw : i < 768
    · rw [getLsbD_putBits _ _ _ _ hw, if_neg (by omega)]
    · rw [BitVec.getLsbD_of_ge _ _ (by omega), BitVec.getLsbD_of_ge _ _ (by omega)]

/-! ### Failing silent -/

theorem aloneReceive_silent (htwin : s.twinStart = true) (hrole : s.twn.role = 2) (hst : s.twn.pstate = 2) (hlow : s.twn.failin = false) :
    Completes .aloneReceive s fun t =>
      t.twn.role = 0 ∧ t.twn.pstate = 4 ∧ t.twn.fscause = 8 ∧ t.twn.failDrive = none ∧ t.twn.leadLow = false ∧ t.twn.hbRun = false ∧
      Raised s t 0x0C03 [8, 2, s.now] ∧ OnlyChanges (.twn :: .gvl :: .cry :: events) s t := by
  obtain ⟨htwn, hraised⟩ := failSilent_spec 8 htwin (by omega)
  rw [hrole] at hraised
  exact ⟨_, congrArg Host.Outcome.next (if_pos ⟨hrole, by simp [hlow]⟩), congrArg Twin.role htwn, congrArg Twin.pstate htwn,
    congrArg Twin.fscause htwn, congrArg Twin.failDrive htwn, congrArg Twin.leadLow htwn, congrArg Twin.hbRun htwn, hraised,
    failSilent_within.frame.mono (by decide)⟩

theorem failsilentReceive_shadow (hrole : s.twn.role = 2) (hst : s.twn.pstate = 2) :
    Completes .failsilentReceive s fun t => t.twn = { s.twn with leadin := true } ∧ OnlyChanges [.twn] s t := by
  have hexec : exec .failsilentReceive s = execFailsilentReceive s := rfl
  unfold execFailsilentReceive at hexec
  rw [if_neg (by omega), if_neg (by omega), if_pos hrole] at hexec
  exact ⟨_, hexec, rfl, onlyChanges_modTwn _⟩

theorem bundleOff_other {b c : Nat} (h : c ≠ b) : (bundleOff b s).bun c = s.bun c := by
  have hdown : (linkDown b s).bun c = s.bun c := by
    unfold linkDown dropRecord
    rw [State.modLink, bun_modBun_other _ _ h, bun_of_gvl (endSessions_within.frame .gvl (by decide)), State.modLink, bun_modBun_other _ _ h]
  unfold bundleOff laneReset
  dsimp only
  rw [bun_modBun_other _ _ h, bun_modBun_other _ _ h]
  split
  · rw [raise_bun, hdown]
  · rfl

theorem bundleOff_st (b : Nat) : ((bundleOff b s).bun b).st = 0 := by
  by_cases hup : (s.bun b).st = 6
  · exact (bundleOff_up hup).1
  · exact (bundleOff_down hup).1

/-- Every bundle outside the pair is OFF (R608). -/
theorem bundlesOff_st {b : Nat} (hb : b < 8) (htwin : s.twinBundle b = false) : ((bundlesOff s).bun b).st = 0 := by
  have hall : ∀ (l : List Nat) (u : State), u.twinBundle b = false → (b ∈ l ∨ (u.bun b).st = 0) →
      ((forEach l (fun b s => if s.twinBundle b then s else bundleOff b s) u).bun b).st = 0 := fun l => by
    induction l with
    | nil => intro u _ h; exact h.resolve_left (by simp)
    | cons a l ih =>
      intro u hu h
      have hstep : Within (.cry :: .gvl :: events) u (if u.twinBundle a then u else bundleOff a u) := .ite .refl bundleOff_within
      rw [forEach_cons]
      refine ih _ ((twinBundle_of_cfg (hstep.frame .cfg (by decide)) b).trans hu) ?_
      rcases eq_or_ne b a with rfl | hne
      · rw [hu, if_neg Bool.false_ne_true]
        exact .inr (bundleOff_st b)
      · have hbun : State.bun (if u.twinBundle a then u else bundleOff a u) b = u.bun b := by
          split
          · rfl
          · exact bundleOff_other hne
        rw [hbun]
        exact h.imp_left fun hmem => (List.mem_cons.1 hmem).resolve_left hne
  exact hall _ s htwin (.inl (List.mem_range.2 hb))

theorem failSilent_bundles {cause b : Nat} (htwin : s.twinStart = true) (hst : s.twn.pstate ≠ 4) (hb : b < 8) (hout : s.twinBundle b = false) :
    ((failSilent cause s).bun b).st = 0 := by
  unfold failSilent
  rw [if_neg (by simp [htwin, hst])]
  dsimp only
  rw [raise_bun]
  refine bundlesOff_st hb ?_
  obtain ⟨u, hu⟩ : ∃ u, (sendTwin 5 [] s).when (s.twn.role == 1) (fun s => s.send (.twin 9 [])) = u := ⟨_, rfl⟩
  have hsu : Within [.out] s u := by
    rw [← hu]
    exact sendTwin_within.step (.when State.send_within)
  rw [hu]
  have hset : Within [.twn, .out, .pci] u (setPair 0 4 (u.modTwn fun t => { t with
    fscause := cause, failDrive := none, failin := t.failin || s.twn.role == 1, leadLow := false, hbRun := false,
    checking := false, phase := 0, lines := 0 })) := (State.modTwn_within).mono.step setPair_within
  exact (twinBundle_of_cfg ((hset.frame .cfg (by decide)).trans (hsu.frame .cfg (by decide))) b).trans hout

theorem sidebandFault_silent (htwin : s.twinStart = true) (hrole : s.twn.role = 1) (hst : s.twn.pstate = 2) :
    Completes .sidebandFault s fun t =>
      t.twn.role = 0 ∧ t.twn.pstate = 4 ∧ t.twn.fscause = 9 ∧ t.twn.failin = true ∧ t.twn.failDrive = none ∧
      (∀ b, s.twinBundle b = false → b < 8 → (t.bun b).st = 0) ∧ Raised s t 0x0C03 [9, 1, s.now] ∧
      OnlyChanges (.twn :: .gvl :: .cry :: events) s t := by
  have hst' : (s.modTwn fun t => { t with failin := true }).twn.pstate ≠ 4 := by
    change s.twn.pstate ≠ 4
    omega
  obtain ⟨htwn, hraised⟩ := failSilent_spec (s := s.modTwn fun t => { t with failin := true }) 9 htwin hst'
  rw [show (s.modTwn fun t => { t with failin := true }).twn.role = 1 from hrole] at hraised
  refine ⟨_, congrArg Host.Outcome.next (if_pos hrole), congrArg Twin.role htwn, congrArg Twin.pstate htwn, congrArg Twin.fscause htwn,
    ?_, congrArg Twin.failDrive htwn, fun b hout hb => failSilent_bundles (s := s.modTwn _) htwin hst' hb hout, hraised,
    (onlyChanges_modTwn _).mono (by decide) |>.trans (failSilent_within.frame.mono (by decide))⟩
  exact congrArg Twin.failin htwn

/-! ### The partner is lost -/

theorem sendHeld_twn (p : CommitRec → Bool) : (sendHeld p s).twn = { s.twn with held := s.twn.held.filter fun r => !p r } := by
  have hsent : ∀ (l : List CommitRec) (u : State), (forEach l (fun r s =>
      if r.kind = 4 then sendMsix r.addr s else s.send (.hostWrite r.kind r.queue r.addr r.bytes)) u).twn = u.twn := fun l u =>
    (Within.forEach (l := [.out, .pci]) fun r w => .ite sendMsix_within State.send_within.mono).frame .twn (by decide)
  unfold sendHeld
  dsimp only
  change ({ (forEach _ _ s).twn with held := (forEach _ _ s).twn.held.filter fun r => !p r } : Twin) = _
  rw [hsent]

/-- A lead that goes on alone (R619). -/
theorem goAlone_spec (cause : Nat) : (goAlone cause s).twn = { s.twn with
      held := [], failDrive := none, failin := true, leadLow := true, hbRun := false, role := 0, pstate := 3 } ∧
    Raised s (goAlone cause s) 0x0C09 [cause] := by
  have hnone : s.twn.held.filter (fun r => !(fun _ => true) r) = [] := by simp
  have hheld : (sendHeld (fun _ => true) (sendTwin 6 [] s)).twn = { s.twn with held := [] } := by
    rw [sendHeld_twn, show (sendTwin 6 [] s).twn = s.twn from sendTwin_within.frame .twn (by decide), hnone]
  have hw : Within (.twn :: events) s (setPair 0 3 ((sendHeld (fun _ => true) (sendTwin 6 [] s)).modTwn fun t =>
      { t with failDrive := none, failin := true, leadLow := true, hbRun := false })) :=
    sendTwin_within.mono.step sendHeld_within |>.step State.modTwn_within |>.step setPair_within
  unfold goAlone
  refine ⟨?_, (raised_raise ..).before hw⟩
  rw [raise_twn, setPair_twn]
  change ({ (sendHeld (fun _ => true) (sendTwin 6 [] s)).twn with
    failDrive := none, failin := true, leadLow := true, hbRun := false, role := 0, pstate := 3 } : Twin) = _
  rw [hheld]

theorem failsilentReceive_lead (hrole : s.twn.role = 1) (hst : s.twn.pstate = 2) : Completes .failsilentReceive s fun t =>
      t.twn.role = 0 ∧ t.twn.pstate = 3 ∧ t.twn.failDrive = none ∧ t.twn.leadLow = true ∧ t.twn.held = [] ∧
      Raised s t 0x0C09 [1] ∧ OnlyChanges (.twn :: events) s t := by
  have hexec : exec .failsilentReceive s = execFailsilentReceive s := rfl
  unfold execFailsilentReceive at hexec
  rw [if_neg (by omega), if_pos hrole] at hexec
  obtain ⟨htwn, hraised⟩ := goAlone_spec (s := s) 1
  exact ⟨_, hexec, congrArg Twin.role htwn, congrArg Twin.pstate htwn, congrArg Twin.failDrive htwn, congrArg Twin.leadLow htwn,
    congrArg Twin.held htwn, hraised, goAlone_within.frame⟩

theorem heartbeatTimeout_lead (hrole : s.twn.role = 1) : Completes .heartbeatTimeout s fun t =>
      t.twn.role = 0 ∧ t.twn.pstate = 3 ∧ t.twn.hbok = false ∧ Raised s t 0x0C09 [2] ∧ OnlyChanges (.twn :: events) s t := by
  obtain ⟨htwn, hraised⟩ := goAlone_spec (s := s.modTwn fun t => { t with hbok := false }) 2
  exact ⟨_, congrArg Host.Outcome.next (if_pos hrole), congrArg Twin.role htwn, congrArg Twin.pstate htwn, congrArg Twin.hbok htwn,
    hraised.before State.modTwn_within, ((onlyChanges_modTwn _).mono (by decide)).trans goAlone_within.frame⟩

/-! ### A rejoin that is abandoned -/

/-- A barrier that does not hold has nothing to release (R622). -/
theorem releaseBarrier_free (h : s.twn.heldAtBarrier = false) : releaseBarrier s = s := by
  unfold releaseBarrier
  rw [h, if_neg Bool.false_ne_true]

theorem releaseBarrier_twn : (releaseBarrier s).twn = { s.twn with heldAtBarrier := false } := by
  by_cases h : s.twn.heldAtBarrier = true
  · unfold releaseBarrier
    rw [if_pos h]
    exact (Within.forEach (l := .fab :: .pin :: events) fun c w => .ite releaseChamber_within .refl).frame .twn (by decide)
  · rw [Bool.not_eq_true] at h
    rw [releaseBarrier_free h, ← h]

theorem abandonRejoin_spec (n : Nat) (hst : s.twn.pstate = 5) : (abandonRejoin n s).twn =
      { s.twn with heldAtBarrier := false, phase := 0, lines := 0, role := 0, pstate := 3 } ∧
    Raised s (abandonRejoin n s) 0x0C0B [s.twn.phase, n, 1] := by
  have hw : Within (.fab :: .twn :: .pin :: events) s (setPair 0 3 ((releaseBarrier s).modTwn fun t => { t with phase := 0, lines := 0 })) :=
    releaseBarrier_within.step State.modTwn_within |>.step setPair_within
  unfold abandonRejoin
  rw [if_neg (by omega)]
  refine ⟨?_, (raised_raise ..).before hw⟩
  rw [raise_twn, setPair_twn]
  change ({ (releaseBarrier s).twn with phase := 0, lines := 0, role := 0, pstate := 3 } : Twin) = _
  rw [releaseBarrier_twn]

theorem failsilentReceive_rejoin (hst : s.twn.pstate = 5) (hfree : s.twn.heldAtBarrier = false) : Completes .failsilentReceive s fun t =>
    t.twn.role = 0 ∧ t.twn.pstate = 3 ∧ t.twn.phase = 0 ∧ Raised s t 0x0C0B [s.twn.phase, s.twn.barrierHold, 1] ∧
    OnlyChanges (.twn :: events) s t := by
  obtain ⟨htwn, hraised⟩ := abandonRejoin_spec (s := s) s.twn.barrierHold hst
  refine ⟨_, congrArg Host.Outcome.next (if_pos hst), congrArg Twin.role htwn, congrArg Twin.pstate htwn, congrArg Twin.phase htwn,
    hraised, ?_⟩
  have hw : Within (.twn :: events) s (setPair 0 3 (s.modTwn fun t => { t with phase := 0, lines := 0 })) :=
    (State.modTwn_within).mono.step setPair_within
  unfold abandonRejoin
  rw [if_neg (by omega), releaseBarrier_free hfree]
  exact (hw.step raise_within).frame

end

end Sys2Proof

/-! The five rejoin commands (R621 to R623). -/

namespace Sys2Proof

open Sys2Proof.Machine

section
variable {s : State}

/-- Brynerek when a rejoin starts (R621). -/
def rejoining (lines : Nat) (t : Twin) : Twin := { t with phase := 2, lines := lines }

/-- A rejoin without a HELLO that could be refused starts (R621). -/
theorem rejoinStart_starts {uid lines : Nat} (hst : s.twn.pstate = 3) (hp : s.pstate = 0) :
    (rejoinStart none uid lines s).twn =
        { rejoining (if s.twn.maxLine then 2 ^ 21 else lines) s.twn with role := 0, pstate := 5 } ∧
      Raised s (rejoinStart none uid lines s) 0x0C0A [uid, if s.twn.maxLine then 2 ^ 21 else lines] := by
  obtain ⟨n, hn⟩ : ∃ n, (if s.twn.maxLine then 2 ^ 21 else lines) = n := ⟨_, rfl⟩
  have hstart : rejoinStart none uid lines s = raise 0x0C0A [uid, n] (setPair 0 5 (s.modTwn (rejoining n))) := by
    unfold rejoinStart
    rw [if_neg (by omega)]
    dsimp only [Option.bind]
    rw [hn]
    rfl
  have hw : Within [.twn, .out, .pci] s (setPair 0 5 (s.modTwn (rejoining n))) :=
    (State.modTwn_within (f := rejoining n)).mono.step setPair_within
  rw [hstart, hn]
  refine ⟨?_, (raised_raise ..).before hw⟩
  rw [raise_twn, setPair_twn]
  rfl

theorem rejoin_starts (who : Requester) (hst : s.twn.pstate = 3) (hp : s.pstate = 0) (hnone : s.twn.heard = none) :
    Completes (.rejoin who) s fun t =>
      t.twn.pstate = 5 ∧ t.twn.role = 0 ∧ t.twn.phase = 2 ∧ Raised s t 0x0C0A [s.twn.puid.toNat, t.twn.lines] := by
  obtain ⟨n, hn⟩ : ∃ n, (linesLogged s).1 = n := ⟨_, rfl⟩
  have hcommand : rejoinCommand s = rejoinStart none s.twn.puid.toNat n s.fresh := by
    rw [← hn]
    change rejoinStart s.twn.heard s.twn.puid.toNat (linesLogged s).1 s.fresh = _
    rw [hnone]
  have hexec : exec (.rejoin who) s = .next (rejoinStart none s.twn.puid.toNat n s.fresh) :=
    congrArg Host.Outcome.next ((writeReg_rejoin who s hst).trans hcommand)
  obtain ⟨htwn, hraised⟩ := rejoinStart_starts (s := s.fresh) (uid := s.twn.puid.toNat) (lines := n) hst hp
  have hlines : (rejoinStart none s.twn.puid.toNat n s.fresh).twn.lines = if s.fresh.twn.maxLine then 2 ^ 21 else n := by rw [htwn]; rfl
  refine ⟨_, hexec, congrArg Twin.pstate htwn, congrArg Twin.role htwn, congrArg Twin.phase htwn, ?_⟩
  rw [hlines]
  exact hraised.before State.fresh_within

theorem writeReg_rejoin_refused (who : Requester) (hrole : s.twn.role = 0) (hst : s.twn.pstate ≠ 3) :
    writeReg who 0xC_0010 0xF (mkFld 30 2 1) s = raiseRefused 0x0C 0xC_0010 who 2 s := by
  have hbad : badByRule s 0xC_0010 0 (mkFld 30 2 1) = true := by
    change (!(fld (mkFld 30 2 1) 30 2 == 1 && s.twn.pstate == 3)) = true
    simp [hst]
  have hrefusal : writeRefusal s (Requester.code who) 0xC_0010 0 (mkFld 30 2 1) = some 2 := by
    rw [writeRefusal, hbad, Bool.or_true, if_pos rfl]
  rw [writeReg_refused who 0xC_0010 _ s 2 (.inr hrole) (by decide) (by decide) hrefusal, pinSequence_other who _ s (by decide)]
  rfl

theorem rejoinAuto_starts (uid : BitVec 64) (lines : BitVec 22) (hauto : s.regB 0xC_0004 30 = true) (hst : s.twn.pstate = 3)
    (hp : s.pstate = 0) (hnone : s.twn.heard = none) : Completes (.rejoinAuto uid lines) s fun t =>
      t.twn.pstate = 5 ∧ t.twn.role = 0 ∧ t.twn.phase = 2 ∧ Raised s t 0x0C0A [uid.toNat, t.twn.lines] := by
  have hexec : exec (.rejoinAuto uid lines) s = .next (rejoinStart none uid.toNat lines.toNat s) := by
    refine congrArg Host.Outcome.next ((if_pos hauto).trans ?_)
    rw [hnone]
  obtain ⟨htwn, hraised⟩ := rejoinStart_starts (uid := uid.toNat) (lines := lines.toNat) hst hp
  have hlines : (rejoinStart none uid.toNat lines.toNat s).twn.lines = if s.twn.maxLine then 2 ^ 21 else lines.toNat := by rw [htwn]; rfl
  refine ⟨_, hexec, congrArg Twin.pstate htwn, congrArg Twin.role htwn, congrArg Twin.phase htwn, ?_⟩
  rw [hlines]
  exact hraised

theorem rejoinEnd_survivor (n tb : Nat) (hst : s.twn.pstate = 5) (hphase : s.twn.phase = 4) : Completes (.rejoinEnd n tb) s fun t =>
      t.twn.role = 1 ∧ t.twn.pstate = 2 ∧ t.twn.phase = 0 ∧ t.twn.heldAtBarrier = false ∧ Raised s t 0x0C0B [4, n, 0] := by
  obtain ⟨u, hu⟩ : ∃ u, (takeTwinSetup (releaseBarrier s)).modTwn (fun t => { t with
    phase := 0, lines := 0, failDrive := some false, failin := false, leadLow := true,
    hbok := true, maxLine := false, held := [], progress := [], wasPaired := true }) = u := ⟨_, rfl⟩
  have hsu : Within (.fab :: .twn :: .pin :: events) s u := by
    rw [← hu]
    exact releaseBarrier_within.mono.step takeTwinSetup_within |>.step State.modTwn_within
  have hutwn : u.twn.phase = 0 ∧ u.twn.heldAtBarrier = false := by
    rw [← hu]
    refine ⟨rfl, ?_⟩
    exact congrArg Twin.heldAtBarrier (releaseBarrier_twn (s := s))
  have hexec : exec (.rejoinEnd n tb) s = .next (raise 0x0C0B [4, n, 0] (setPair 1 2 u)) := by
    rw [← hu]
    exact if_pos ⟨hst, hphase⟩
  have htwn : (raise 0x0C0B [4, n, 0] (setPair 1 2 u)).twn = { u.twn with role := 1, pstate := 2 } := by rw [raise_twn, setPair_twn]
  have hnow : (setPair 1 2 u).now = s.now := by
    have hlys : (setPair 1 2 u).lys = u.lys := setPair_frame _ _ .lys (by decide)
    exact congrArg (·.tbase) (hlys.trans (hsu.frame .lys (by decide)))
  refine ⟨_, hexec, congrArg Twin.role htwn, congrArg Twin.pstate htwn, (congrArg Twin.phase htwn).trans hutwn.1,
    (congrArg Twin.heldAtBarrier htwn).trans hutwn.2, ?_⟩
  have hraised := raised_raise 0x0C0B [4, n, 0] (setPair 1 2 u)
  rw [Raised, hnow] at hraised
  exact hraised

theorem rejoinEnd_rejoiner (n tb : Nat) (htwin : s.twinStart = true) (hst : s.twn.pstate ≠ 5) (hready : twinReady s = true ∨ syncing s = true) :
    Completes (.rejoinEnd n tb) s fun t => t.twn.role = 2 ∧ t.twn.pstate = 2 ∧ t.lys.tbase = tb := by
  have hexec : exec (.rejoinEnd n tb) s = execRejoinEnd n tb s := rfl
  unfold execRejoinEnd at hexec
  rw [if_neg (by omega), if_pos ⟨htwin, hready⟩] at hexec
  refine ⟨_, hexec, ?_, ?_, ?_⟩
  · rw [raise_twn, setPair_twn]
  · rw [raise_twn, setPair_twn]
  · rw [raise_lys, show ∀ u, (setPair 2 2 u).lys = u.lys from fun u => setPair_frame _ _ .lys (by decide)]
    rfl

end

/-- Settles O49, by the takeover, the ways in which a device fails silent or goes on alone, and the rejoin commands. -/
theorem partnerLossAndTakeover : Obligations.PartnerLossAndTakeover := by
  unfold Obligations.PartnerLossAndTakeover
  refine ⟨fun s htwin => ⟨fun hrole => ⟨takeover_spec hrole, fun x r q hque hst hheld hkind hq => takeover_writes hrole hque hst hheld hkind hq,
      fun k v hque hown => takeover_samples hrole hque hown, fun hst hlow => aloneReceive_silent htwin hrole hst hlow,
      fun hst => failsilentReceive_shadow hrole hst⟩,
    fun hrole hst => ⟨sidebandFault_silent htwin hrole hst, failsilentReceive_lead hrole hst, heartbeatTimeout_lead hrole⟩,
    fun hst hfree => failsilentReceive_rejoin hst hfree⟩,
   fun s htwin => ⟨fun who hrole => ⟨fun hst hp hnone => rejoin_starts who hst hp hnone, fun hst => ?_⟩,
    fun uid lines => ⟨fun hauto hst hp hnone => rejoinAuto_starts uid lines hauto hst hp hnone,
      fun hauto => ⟨_, congrArg Host.Outcome.next (if_neg (by rw [hauto]; decide)), rfl⟩⟩,
    fun n hst => ⟨fun hn => ⟨_, if_neg (by omega), rfl, rfl, rfl⟩, fun hn => ⟨_, if_pos (.inr hn), rfl⟩⟩,
    fun n tb hst hphase => rejoinEnd_survivor n tb hst hphase, fun n tb hst hready => rejoinEnd_rejoiner n tb htwin hst hready,
    fun n => ⟨fun hst => ?_, fun hst => ⟨_, congrArg Host.Outcome.next (if_pos hst), rfl⟩⟩⟩⟩
  · obtain ⟨hraised, hframe⟩ := raiseRefused_spec 0x0C 0xC_0010 who 2 s
    exact ⟨_, congrArg Host.Outcome.next (writeReg_rejoin_refused who hrole hst), hframe .twn (by decide), hraised, hframe⟩
  · obtain ⟨htwn, hraised⟩ := abandonRejoin_spec (s := s) n hst
    exact ⟨_, rfl, congrArg Twin.role htwn, congrArg Twin.pstate htwn, congrArg Twin.phase htwn, congrArg Twin.heldAtBarrier htwn, hraised⟩

end Sys2Proof

/-! Chambers that a device action holds, each at the next edge of its own switch clock (R166, R167, R622). -/

namespace Sys2Proof

open Sys2Proof.Machine

/-- From `x` to `y` a chamber keeps what holds it and what waits to hold it, and no command comes to wait at it. -/
def SameHold (x y : Chamber) : Prop :=
  (x.released = true → y.released = true) ∧ y.reloc = x.reloc ∧ y.hsrc = x.hsrc ∧ y.holdDue = x.holdDue ∧ (x.cmd = none → y.cmd = none) ∧
    (y.entering = x.entering ∨ y.entering = 0)

theorem SameHold.refl (x : Chamber) : SameHold x x := ⟨id, rfl, rfl, rfl, id, .inl rfl⟩

theorem SameHold.trans {x y z : Chamber} (h : SameHold x y) (h' : SameHold y z) : SameHold x z := by
  obtain ⟨hrel, hreloc, hsrc, hdue, hcmd, hent⟩ := h
  obtain ⟨hrel', hreloc', hsrc', hdue', hcmd', hent'⟩ := h'
  exact ⟨hrel' ∘ hrel, hreloc'.trans hreloc, hsrc'.trans hsrc, hdue'.trans hdue, hcmd' ∘ hcmd, hent'.elim (fun h => h ▸ hent) .inr⟩

theorem sameHold_loadFfs (s : State) (v : Nets) (c g : Nat) (x : Chamber) : SameHold x (loadFfs s v c g x) := by
  unfold loadFfs
  generalize x.selWords = ws
  suffices h : ∀ (l : ImageWords) (y : Chamber), SameHold x y → SameHold x (l.foldl (fun ch (p : Nat × BitVec 80) =>
      match ffLoad s v c g p.1 with
      | none => ch
      | some b =>
        if bit p.2 33 then { ch with shared := putBit ch.shared p.1 b }
        else ch.modStrat ch.sel fun st => { st with ffs := putBit st.ffs p.1 b }) y) from h ws x (.refl x)
  intro l
  induction l with
  | nil => exact fun _ h => h
  | cons p l ih =>
    intro y hy
    refine ih _ (hy.trans ?_)
    dsimp only
    split
    · exact .refl y
    · split
      · exact .refl y
      · exact .refl y

/-- What an edge does besides the holds that are due keeps chamber `c` held or waiting to be held: nothing that could release
it comes to wait, no column enters lockstep, and no group comes to fire anything but a SWITCH. -/
structure KeepsHold (c : Nat) (s t : State) : Prop where
  chm : SameHold (s.chm c) (t.chm c)
  rst : t.rst = s.rst
  cmd : ∀ x, (s.chm x).cmd = none → (t.chm x).cmd = none
  lock : ∀ n, (s.col n).lock = .off → (t.col n).lock = .off
  fire : ∀ g p, (t.grp g).fire = some p → (s.grp g).fire = some p ∨ p.1 = 1

namespace KeepsHold

variable {s t u b : State} {v : Nets} {c x k : Nat} {l : List Part}

theorem refl : KeepsHold c s s := ⟨.refl _, rfl, fun _ => id, fun _ => id, fun _ _ => .inl⟩

theorem trans (h : KeepsHold c s t) (h' : KeepsHold c t u) : KeepsHold c s u :=
  ⟨h.chm.trans h'.chm, h'.rst.trans h.rst, fun x => h'.cmd x ∘ h.cmd x, fun n => h'.lock n ∘ h.lock n,
    fun g p hp => (h'.fire g p hp).elim (h.fire g p) .inr⟩

theorem ite {p : Prop} [Decidable p] (h : KeepsHold c s t) (h' : KeepsHold c s u) : KeepsHold c s (if p then t else u) := by
  split
  · exact h
  · exact h'

theorem forEach {α : Type} {xs : List α} {f : α → State → State} (h : ∀ a w, KeepsHold c w (f a w)) :
    KeepsHold c s (Machine.forEach xs f s) :=
  forEach_keeps (fun w => KeepsHold c s w) xs f (fun a w hw => hw.trans (h a w)) s refl

theorem of_eq (hfab : t.fab = s.fab) (hrst : t.rst = s.rst) : KeepsHold c s t := by
  have hchm : ∀ x, t.chm x = s.chm x := fun x => by rw [State.chm, hfab, State.chm]
  refine ⟨hchm c ▸ .refl _, hrst, fun x => (hchm x ▸ id), fun n => ?_, fun g p hp => .inl ?_⟩
  · rw [State.col, State.col, hfab]
    exact id
  · rwa [State.grp, hfab] at hp

/-- What leaves the fabric and the reset domains alone. -/
theorem elsewhere (h : Within l s t) (hl : (l.all fun p => p != .fab && p != .rst) = true := by rfl) : KeepsHold c s t := by
  have hnot : ∀ p, p = .fab ∨ p = .rst → p ∉ l := fun p hp hmem => by
    have hall := List.all_eq_true.1 hl p hmem
    rcases hp with rfl | rfl <;> simp at hall
  exact of_eq (h.frame .fab (hnot _ (.inl rfl))) (h.frame .rst (hnot _ (.inr rfl)))

theorem modChm {f : Chamber → Chamber} (hf : ∀ y, SameHold y (f y) := by exact fun y => SameHold.refl y) : KeepsHold c s (s.modChm x f) := by
  refine ⟨?_, rfl, fun z hz => ?_, fun _ => id, fun _ _ => .inl⟩
  · by_cases h : c = x
    · subst h
      rw [chm_modChm_same]
      exact hf _
    · rw [chm_modChm_other _ _ _ h]
      exact .refl _
  · by_cases h : z = x
    · subst h
      rw [chm_modChm_same]
      exact (hf _).2.2.2.2.1 hz
    · rwa [chm_modChm_other _ _ _ h]

/-- A change of another chamber. -/
theorem modChm_other {f : Chamber → Chamber} (hx : c ≠ x) (hf : ∀ y : Chamber, (f y).cmd = y.cmd) : KeepsHold c s (s.modChm x f) := by
  refine ⟨?_, rfl, fun z hz => ?_, fun _ => id, fun _ _ => .inl⟩
  · rw [chm_modChm_other _ _ _ hx]
    exact .refl _
  · by_cases h : z = x
    · subst h
      rw [chm_modChm_same, hf, hz]
    · rwa [chm_modChm_other _ _ _ h]

theorem modCol {f : Column → Column} (hf : ∀ y : Column, y.lock = .off → (f y).lock = .off := by exact fun _ => id) :
    KeepsHold c s (s.modCol x f) := by
  refine ⟨.refl _, rfl, fun _ => id, fun n hn => ?_, fun _ _ => .inl⟩
  by_cases h : n = x
  · subst h
    rw [State.col, State.modCol, State.modFab, tabGet_tabMod_same]
    exact hf _ hn
  · rw [State.col, State.modCol, State.modFab, tabGet_tabMod_other _ _ _ _ _ h]
    exact hn

/-- A change of the fabric besides its chambers, columns and groups. -/
theorem modFab {f : Fabric → Fabric}
    (hf : ∀ y, (f y).chambers = y.chambers ∧ (f y).columns = y.columns ∧ (f y).groups = y.groups := by exact fun _ => ⟨rfl, rfl, rfl⟩) :
    KeepsHold c s (s.modFab f) := by
  obtain ⟨hchm, hcol, hgrp⟩ := hf s.fab
  have hc : ∀ x, (s.modFab f).chm x = s.chm x := fun x => congrArg (tabGet ({} : Chamber) · x) hchm
  refine ⟨hc c ▸ .refl _, rfl, fun x => hc x ▸ id, fun n hn => ?_, fun g p hp => .inl ?_⟩
  · exact (congrArg (fun t => (tabGet ({} : Column) t n).lock) hcol).trans hn
  · exact (congrArg (fun t => (tabGet ({} : SwGroup) t g).fire) hgrp).symm.trans hp

theorem modGrp {f : SwGroup → SwGroup} (hf : ∀ (y : SwGroup) p, (f y).fire = some p → y.fire = some p ∨ p.1 = 1) : KeepsHold c s (s.modGrp x f) := by
  refine ⟨.refl _, rfl, fun _ => id, fun _ => id, fun g p hp => ?_⟩
  by_cases h : g = x
  · subst h
    rw [State.grp, State.modGrp, State.modFab, tabGet_tabMod_same] at hp
    exact hf _ p hp
  · rw [State.grp, State.modGrp, State.modFab, tabGet_tabMod_other _ _ _ _ _ h] at hp
    exact .inl hp

theorem raise {code : Nat} {fields : List Nat} : KeepsHold c s (Machine.raise code fields s) := elsewhere raise_within

theorem endIssuer {d : Option (Nat × Nat)} {a r : Nat} : KeepsHold c s (Machine.endIssuer d a r s) := elsewhere endIssuer_within

theorem holdTurn {mask : BitVec 8} : KeepsHold c s (Machine.holdTurn x mask s) :=
  trans (t := State.modPin s _) (elsewhere State.modPin_within) modChm

theorem enterRun : KeepsHold c s (Machine.enterRun x s) := by
  unfold Machine.enterRun
  exact .ite holdTurn refl

theorem leaveRun : KeepsHold c s (Machine.leaveRun b v x s) := by
  unfold Machine.leaveRun
  exact .ite modChm refl

theorem switchTo {tt : Bool} {rank : Nat} : KeepsHold c s (Machine.switchTo b v x k tt rank s) := by
  unfold Machine.switchTo
  refine .ite refl ?_
  refine trans (ite refl leaveRun) (trans (modChm fun y => ?_) (ite ?_ raise))
  · exact ⟨id, rfl, rfl, rfl, id, .inr rfl⟩
  · exact trans (t := latchFence x k _) modChm ((ite refl holdTurn).trans (.ite raise refl))

theorem stopSchedule {reason : Nat} : KeepsHold c s (Machine.stopSchedule x reason s) := by
  unfold Machine.stopSchedule
  exact .ite ((modChm).trans ((elsewhere State.setRegF_within).trans raise)) refl

theorem haltSchedule {reason : Nat} {due : Option Nat} : KeepsHold c s (Machine.haltSchedule x reason due s) := by
  unfold Machine.haltSchedule
  split
  · split
    · exact refl
    · exact (modChm).trans ((elsewhere State.setRegF_within).trans raise)
  · exact stopSchedule

theorem entryCurrent {e : Nat} : KeepsHold c s (Machine.entryCurrent b v x e s) := by
  unfold Machine.entryCurrent
  exact (modChm).trans (.ite stopSchedule ((modChm).trans (.forEach fun _ _ => switchTo)))

theorem clearCmd {d : ChmCmd} : KeepsHold c s (Machine.clearCmd x d s) := by
  unfold Machine.clearCmd
  exact trans (modChm (f := fun y => { y with cmd := none }) fun _ => ⟨id, rfl, rfl, rfl, fun _ => rfl, .inl rfl⟩) endIssuer

/-- A SWITCH, and an operation that Table Strata-12 does not know. -/
theorem applyOp {op rank : Nat} {tt : Bool} (hop : op ≠ 2 ∧ op ≠ 3) : KeepsHold c s (Machine.applyOp b v x op k tt rank s) := by
  unfold Machine.applyOp
  split
  · exact .forEach fun _ _ => .ite modChm switchTo
  · exact absurd rfl hop.1
  · exact absurd rfl hop.2
  · exact refl

theorem chamberActs {due : List Nat} (hcmd : (b.chm x).cmd = none) (hfire : ∀ g p, (b.grp g).fire = some p → p.1 = 1) :
    KeepsHold c s (Machine.chamberActs b v due x s) := by
  refine chamberActs_of (fun _ => refl) trans (fun _ => modChm) (fun _ => modChm fun _ => ⟨id, rfl, rfl, rfl, fun _ => rfl, .inl rfl⟩)
    (fun _ _ _ => raise) (fun _ _ _ _ => endIssuer) (fun _ _ _ => haltSchedule) (fun w op k tt rank hop => applyOp ?_)
    (fun _ _ => entryCurrent) (fun _ _ => clearCmd) (fun _ _ _ _ => switchTo)
  rcases hop with ⟨g, -, hop⟩ | ⟨d, hd⟩
  · cases hp : (b.grp g).fire with
    | none =>
      rw [hp] at hop
      exact ⟨by simp [hop], by simp [hop]⟩
    | some p =>
      have h1 := hfire g p hp
      rw [hp] at hop
      simp only [Option.map_some, Option.getD_some, h1] at hop
      omega
  · rw [dueCmd, hcmd] at hd
    exact absurd hd (by simp)

theorem compareDigests (hlock : (b.col x).lock = .off) : KeepsHold c s (Machine.compareDigests b v x s) := by
  unfold Machine.compareDigests
  rw [if_pos (by rw [hlock]; decide)]
  exact refl

theorem loadPin {i : Nat} : KeepsHold c s (Machine.loadPin x i s) := elsewhere loadPin_within

theorem edgeCounts : KeepsHold c s (Machine.edgeCounts x s) := by
  unfold Machine.edgeCounts pinEdge
  refine trans (ite ?_ refl) (.ite modCol refl)
  refine trans (ite ?_ refl) (.ite refl modChm)
  split
  · exact refl
  · exact .forEach fun _ _ => .ite loadPin refl

theorem loadAtEdges {clks : List Nat} : KeepsHold c s (Machine.loadAtEdges b v clks x s) := by
  unfold Machine.loadAtEdges
  exact .ite refl (.forEach fun g _ => modChm fun y => sameHold_loadFfs b v x g y)

theorem countWaits : KeepsHold c s (Machine.countWaits b x s) := by
  unfold Machine.countWaits
  exact .ite refl (modChm fun _ => ⟨id, rfl, rfl, rfl, fun h => congrArg (Option.map _) h, .inl rfl⟩)

theorem settleKeepers : KeepsHold c s (Machine.settleKeepers v s) := by
  unfold Machine.settleKeepers
  exact .forEach fun _ _ => modCol

theorem watchShafts : KeepsHold c s (Machine.watchShafts s) := by
  unfold Machine.watchShafts
  exact .forEach fun _ _ => .ite refl modCol

theorem trigFires {clks : List Nat} : KeepsHold c s (Machine.trigFires clks s) := by
  unfold Machine.trigFires
  refine .forEach fun g w => .ite refl (.ite ?_ raise)
  refine trans ?_ (modGrp fun _ p hp => .inr ?_)
  · split
    · exact endIssuer
    · exact refl
  · rw [← Option.some.inj hp]

theorem groupsEnd {due : List Nat} : KeepsHold c s (Machine.groupsEnd b due s) := by
  unfold Machine.groupsEnd
  refine .forEach fun g w => ?_
  split
  · exact refl
  · exact (forEach fun _ _ => raise).trans ((modGrp fun _ p hp => absurd hp (by simp)).trans (.ite endIssuer endIssuer))

theorem groupCounts {clks : List Nat} : KeepsHold c s (Machine.groupCounts b v clks s) := by
  unfold Machine.groupCounts
  refine trans (forEach fun _ _ => ?_) (forEach fun _ _ => ?_)
  · exact modGrp fun _ _ => .inl
  · refine ite (forEach fun _ _ => ite ?_ raise) refl
    exact modGrp fun _ _ => .inl

theorem edgeEnds : KeepsHold c s (Machine.edgeEnds b x s) := by
  have hafter : ∀ w, KeepsHold c w (afterSwitch b x w) := fun w => by
    unfold afterSwitch
    exact .ite (elsewhere failSilent_within) refl
  have hparked : ∀ w, KeepsHold c w (deliverParked x w) := fun w => by
    unfold deliverParked
    split
    · split
      · exact refl
      · exact trans (t := w.modStrat _ _ _) modChm (elsewhere State.send_within)
    · exact refl
  unfold Machine.edgeEnds
  exact (ite enterRun refl).trans ((hafter _).trans (hparked _))

theorem leaveUnreleased {clks : List Nat} : KeepsHold c s (Machine.leaveUnreleased b clks s) := by
  have hone : ∀ x w, KeepsHold c w (releaseOne x w) := fun x w => by
    unfold releaseOne
    refine trans (modChm fun y => ?_) (ite refl raise)
    exact ⟨fun _ => rfl, rfl, rfl, rfl, fun h => by simp [h], .inl rfl⟩
  unfold Machine.leaveUnreleased
  exact .ite refl (trans (t := Machine.forEach (leavingOn b clks) releaseOne s) (forEach hone) modFab)

end KeepsHold

end Sys2Proof

/-! The barrier of a rejoin holds every chamber in RUN at its own edge (R166, R167, R622). -/

namespace Sys2Proof

open Sys2Proof.Machine

section

variable {s t b : State} {v : Nets} {c x : Nat} {p : Prop}

/-- A chamber that has left UNRELEASED outside reset and relocation is held with the source Command, or, where `p` allows it,
waits for that at its next edge. -/
structure Awaits (p : Prop) (c : Nat) (s : State) : Prop where
  released : (s.chm c).released = true
  reloc : (s.chm c).reloc = false
  reset : s.inReset (tierOf c) = false
  entering : (s.chm c).entering ≤ 1
  due : (s.chm c).holdDue = 0 ∨ (s.chm c).holdDue = 1
  held : (s.chm c).hsrc = 1 ∨ p ∧ (s.chm c).hsrc = 0 ∧ (s.chm c).holdDue = 1

/-- Nothing that could release a chamber waits anywhere. -/
structure NoRelease (s : State) : Prop where
  cmd : ∀ x, (s.chm x).cmd = none
  lock : ∀ n, (s.col n).lock = .off
  fire : ∀ g q, (s.grp g).fire = some q → q.1 = 1

theorem NoRelease.keeps (h : NoRelease s) (hk : KeepsHold c s t) : NoRelease t :=
  ⟨fun x => hk.cmd x (h.cmd x), fun n => hk.lock n (h.lock n), fun g q hq => (hk.fire g q hq).elim (h.fire g q) id⟩

theorem Awaits.keeps (h : Awaits p c s) (hk : KeepsHold c s t) : Awaits p c t := by
  obtain ⟨hrel, hreloc, hsrc, hdue, -, hent⟩ := hk.chm
  have hreset : t.inReset (tierOf c) = false := by
    rw [State.inReset, hk.rst]
    exact h.reset
  have hle := h.entering
  refine ⟨hrel h.released, hreloc.trans h.reloc, hreset, by omega, hdue ▸ h.due, ?_⟩
  rw [hsrc, hdue]
  exact h.held

/-- The state of such a chamber (R131): HELD once it is held, and until then one that the hold strikes. -/
theorem Awaits.chmState (h : Awaits p c s) :
    ((s.chm c).hsrc = 1 → s.chmState c = 4) ∧
      ((s.chm c).hsrc = 0 → s.chmState c ≠ 0 ∧ s.chmState c ≠ 6 ∧ s.chmState c ≠ 4 ∧ s.chmState c ≠ 5) := by
  have hle := h.entering
  refine ⟨fun hsrc => ?_, fun hsrc => ?_⟩
  · simp [State.chmState, h.released, h.reset, h.reloc, hsrc]
  · simp only [State.chmState, h.released, h.reset, h.reloc, hsrc]
    split_ifs
    all_goals
      simp_all
    omega

theorem holdChamber_other {hsrc : Nat} (hx : c ≠ x) : KeepsHold c s (holdChamber b v x hsrc s) := by
  unfold holdChamber
  refine .ite .refl (.ite .refl (.trans .leaveRun (.trans (.modChm_other hx fun y => ?_) .raise)))
  rfl

/-- A hold with the source Command strikes a chamber that waits for it. -/
theorem holdChamber_awaits {due : Nat} (h : Awaits True c s) (hdue : due = 0 ∨ due = 1) :
    Awaits False c (holdChamber b v c 1 (s.modChm c fun x => { x with holdDue := due })) := by
  obtain ⟨w, hw⟩ : ∃ w, (s.modChm c fun x => { x with holdDue := due }) = w := ⟨_, rfl⟩
  have hchm : w.chm c = { s.chm c with holdDue := due } := by rw [← hw, chm_modChm_same]
  have hst : w.chmState c = s.chmState c := by
    rw [State.chmState, hchm, ← hw]
    rfl
  have hreset : w.inReset (tierOf c) = false := by
    rw [← hw]
    exact h.reset
  obtain ⟨hheld, hfree⟩ := h.chmState
  rw [hw, holdChamber, hst]
  rcases h.held with hsrc | ⟨-, hsrc, -⟩
  · rw [hheld hsrc, if_neg (by decide), if_pos (by decide)]
    exact ⟨hchm ▸ h.released, hchm ▸ h.reloc, hreset, hchm ▸ h.entering, hchm ▸ hdue, .inl (hchm ▸ hsrc)⟩
  · obtain ⟨h0, h6, h4, h5⟩ := hfree hsrc
    rw [if_neg (by omega), if_neg (by omega)]
    refine Awaits.keeps ?_ (.raise (s := (leaveRun b v c w).modChm c fun x => { x with hsrc := 1 }))
    obtain ⟨⟨hrel, hreloc, -, hdue', -, hent⟩, hrst, -⟩ := KeepsHold.leaveRun (b := b) (v := v) (s := w) (c := c) (x := c)
    have hle : (w.chm c).entering ≤ 1 := hchm ▸ h.entering
    rw [hchm] at hrel hreloc hdue'
    refine ⟨?_, ?_, ?_, ?_, ?_, ?_⟩
    · rw [chm_modChm_same]
      exact hrel h.released
    · rw [chm_modChm_same]
      exact hreloc.trans h.reloc
    · exact (congrArg (fun r : Resets => bit r.inReset (tierOf c)) hrst).trans hreset
    · rw [chm_modChm_same]
      dsimp only
      omega
    · rw [chm_modChm_same]
      exact hdue' ▸ hdue
    · rw [chm_modChm_same]
      exact .inl rfl

theorem quarantines_keeps (l : List (Nat × Nat)) (sel : Nat) (f : Chamber → Chamber) (hf : ∀ y, SameHold y (f y)) :
    KeepsHold c s (forEach l (fun q s =>
      let s := quarantineOne b v x sel q.2 s
      if q.2 = 3 then s.modCol (colOf x) fun y => { y with diagStratum := sel } else s) (s.modChm x f)) := by
  refine .trans (.modChm hf) (.forEach fun q w => .trans (t := quarantineOne b v x sel q.2 w) ?_ (.ite .modCol .refl))
  unfold quarantineOne
  exact .ite .refl (.trans (.ite .leaveRun .refl) (.trans (t := State.modStrat _ _ _ _) .modChm .raise))

/-- What comes before a hold in the acts of the device at an edge (R138). -/
theorem entersRun_keeps (k : Nat) : KeepsHold c s (if (b.chm x).entering = 0 then s else
    latchFence x k (s.modChm x fun y => { y with entering := 0 })) := by
  refine .ite .refl (.trans (.modChm fun y => ?_) (.modChm (s := s.modChm x fun y => { y with entering := 0 })))
  exact ⟨id, rfl, rfl, rfl, id, .inr rfl⟩

theorem deviceActs_other (hx : c ≠ x) : KeepsHold c s (deviceActs b v x s) := by
  unfold deviceActs
  refine .trans (entersRun_keeps (b.chm x).sel) (.trans (.ite .refl (.trans (.trans (.modChm_other hx fun y => ?_)
    (holdChamber_other hx)) (.ite .modChm .refl))) (quarantines_keeps _ _ _ .refl))
  rfl

theorem deviceActs_free (hdue : (b.chm x).holdDue = 0) : KeepsHold c s (deviceActs b v x s) := by
  unfold deviceActs
  dsimp only
  rw [if_pos hdue]
  exact .trans (entersRun_keeps (b.chm x).sel) (quarantines_keeps _ _ _ .refl)

theorem deviceActs_awaits (h : Awaits True c s) (hdue : (b.chm c).holdDue = 1) : Awaits False c (deviceActs b v c s) := by
  unfold deviceActs
  dsimp only
  rw [if_neg (show ¬ (b.chm c).holdDue = 0 by omega), hdue, if_neg (show ¬ 1 = 3 by decide)]
  exact (holdChamber_awaits (h.keeps (entersRun_keeps (b.chm c).sel)) (.inl rfl)).keeps (quarantines_keeps _ _ _ .refl)

theorem deviceActs_noRelease (l : List Nat) (h : NoRelease s) : NoRelease (forEach l (deviceActs b v) s) :=
  forEach_keeps NoRelease l _ (fun x _ hw => hw.keeps (deviceActs_other (c := x + 1) (by omega))) s h

theorem Awaits.waits (h : Awaits p c s) : Awaits True c s := { h with held := h.held.imp_right fun hp => ⟨trivial, hp.2⟩ }

theorem Awaits.weaken (h : Awaits False c s) : Awaits p c s := { h with held := h.held.imp_right fun hp => hp.1.elim }

theorem Awaits.deviceActs {q : Prop} (hb : Awaits q c b) (h : Awaits p c s) (x : Nat) : Awaits p c (Machine.deviceActs b v x s) := by
  by_cases hx : c = x
  · subst hx
    rcases hb.due with hdue | hdue
    · exact h.keeps (deviceActs_free hdue)
    · exact (deviceActs_awaits h.waits hdue).weaken
  · exact h.keeps (deviceActs_other hx)

/-- The acts of the device at an edge hold what waits for it there. -/
theorem Awaits.struck {l : List Nat} (hb : Awaits p c b) (h : Awaits p c s) (hkeep : KeepsHold c b s) (hc : c ∈ l) :
    Awaits False c (forEach l (Machine.deviceActs b v) s) := by
  rcases hb.held with hsrc | ⟨-, -, hdue⟩
  · have hfree : Awaits False c s := { h with held := .inl (hkeep.chm.2.2.1.trans hsrc) }
    exact forEach_keeps (Awaits False c) l _ (fun x w hw => hb.deviceActs hw x) s hfree
  · exact forEach_establishes (P := Awaits p c) (Q := Awaits False c) hc (fun x w hw => hb.deviceActs hw x) (fun x w _ hw => hb.deviceActs hw x)
      (fun w hw => deviceActs_awaits hw.waits hdue) h

/-- At coincident edges nothing is released, what is held stays held, and a chamber that waits is held at its own edge. -/
theorem clockEdges_awaits (clks : List Nat) (hfree : NoRelease s) : NoRelease (clockEdges clks s) ∧
    (Awaits p c s → Awaits p c (clockEdges clks s) ∧ (clks.contains (s.chm c).swclkUse = true → Awaits False c (clockEdges clks s))) := by
  obtain ⟨b, hb⟩ : ∃ b, trigFires clks s = b := ⟨_, rfl⟩
  obtain ⟨u, hu⟩ : ∃ u, forEach ((chambersOn b clks).filter (· < 256)) (compareDigests b b.nets)
    (forEach (chambersOn b clks) edgeCounts (forEach (b.fab.chambers.map (·.1)) (loadAtEdges b b.nets clks)
      (settleKeepers b.nets b))) = u := ⟨_, rfl⟩
  obtain ⟨t, ht⟩ : ∃ t, forEach (chambersOn b clks) (Machine.deviceActs b b.nets) u = t := ⟨_, rfl⟩
  have hsb : ∀ c, KeepsHold c s b := fun c => hb ▸ .trigFires
  have hfreeb : NoRelease b := hfree.keeps (hsb 0)
  have hbu : ∀ c, KeepsHold c b u := fun c => by
    rw [← hu]
    exact .trans .settleKeepers (.trans (.forEach fun _ _ => .loadAtEdges) (.trans (.forEach fun _ _ => .edgeCounts)
      (.forEach fun x _ => .compareDigests (hfreeb.lock x))))
  have hend : ∀ c, KeepsHold c t (clockEdges clks s) := fun c => by
    unfold clockEdges
    dsimp only
    rw [hb, hu, ht]
    exact .trans (.forEach fun _ _ => .countWaits) (.trans (.forEach fun x _ => .chamberActs (hfreeb.cmd x) hfreeb.fire)
      (.trans .groupsEnd (.trans .groupCounts (.trans (.forEach fun _ _ => .edgeEnds) (.trans .leaveUnreleased
        (.trans .watchShafts (.elsewhere State.fresh_within)))))))
  have hfreet : NoRelease t := ht ▸ deviceActs_noRelease _ (hfreeb.keeps (hbu 0))
  refine ⟨hfreet.keeps (hend 0), fun h => ?_⟩
  have hab : Awaits p c b := h.keeps (hsb c)
  have hau : Awaits p c u := hab.keeps (hbu c)
  have hat : Awaits p c t := ht ▸ forEach_keeps (Awaits p c) _ _ (fun x w hw => hab.deviceActs hw x) u hau
  refine ⟨hat.keeps (hend c), fun hclk => ?_⟩
  obtain ⟨gs, hgs⟩ := trigFires_fab clks s
  have hchm : b.chm c = s.chm c := by rw [State.chm, ← hb, hgs, State.chm]
  have hmem : (c, b.chm c) ∈ b.fab.chambers := mem_of_tabGet fun hdef => by
    have hrel := hab.released
    rw [State.chm, hdef] at hrel
    exact absurd hrel (by decide)
  have hon : c ∈ chambersOn b clks := by
    refine List.mem_filterMap.2 ⟨_, hmem, ?_⟩
    dsimp only
    rw [hab.released, hchm, hclk]
    rfl
  have hstruck : Awaits False c t := ht ▸ hab.struck hau (hbu c) hon
  exact hstruck.keeps (hend c)

/-- A chamber's own edge is one that a command can bring. -/
theorem bringEdge_awaits (g : Nat) (hfree : NoRelease s) : NoRelease (bringEdge g s) ∧
    (Awaits p c s → Awaits p c (bringEdge g s) ∧ ((s.chm c).swclkUse = g → Awaits False c (bringEdge g s))) := by
  obtain ⟨w, hw⟩ : ∃ w, s.modFab (fun f => { f with
    early := ((coincident s g).filter (clockRuns s)).foldl (fun t n => tabMod 0 t n (· + 1)) f.early }) = w := ⟨_, rfl⟩
  have hkeep : ∀ c, KeepsHold c s w := fun c => hw ▸ .modFab
  have hedge : bringEdge g s = clockEdges (coincident s g) w := by rw [← hw, bringEdge]
  obtain ⟨hfree', hawaits⟩ := clockEdges_awaits (p := p) (c := c) (coincident s g) (hfree.keeps (hkeep 0))
  rw [hedge]
  refine ⟨hfree', fun h => ?_⟩
  obtain ⟨hstay, hstrike⟩ := hawaits (h.keeps (hkeep c))
  refine ⟨hstay, fun hclk => hstrike ?_⟩
  have hchm : (w.chm c).swclkUse = g := by
    rw [← hw, ← hclk]
    rfl
  rw [hchm]
  simp [coincident]

/-- What orders the holds: each chamber of the list is to be held at its next edge. -/
def holdsOrdered (cs : List Nat) (due : Nat) (s : State) : State := forEach cs (fun c s => s.modChm c fun ch => { ch with holdDue := due }) s

theorem holdsOrdered_noRelease (cs : List Nat) (due : Nat) (h : NoRelease s) : NoRelease (holdsOrdered cs due s) :=
  forEach_keeps NoRelease cs _ (fun x w hw => hw.keeps (t := w.modChm x fun ch => { ch with holdDue := due })
    (KeepsHold.modChm_other (c := x + 1) (by omega) fun _ => rfl)) s h

/-- A chamber that is only given another order. -/
theorem modChm_ordered (x due : Nat) {y : Chamber} (h : ∃ d, s.chm c = { y with holdDue := d }) :
    ∃ d, (s.modChm x fun ch => { ch with holdDue := due }).chm c = { y with holdDue := d } := by
  by_cases hx : c = x
  · subst hx
    obtain ⟨d, hd⟩ := h
    exact ⟨due, by rw [chm_modChm_same, hd]⟩
  · rwa [chm_modChm_other _ _ _ hx]

/-- A chamber in RUN (R131). -/
theorem running_fields (hst : s.chmState c = 1) : (s.chm c).released = true ∧ (s.chm c).reloc = false ∧ s.inReset (tierOf c) = false ∧
    (s.chm c).hsrc = 0 ∧ (s.chm c).entering ≤ 1 := by
  unfold State.chmState at hst
  generalize s.chm c = ch at hst ⊢
  dsimp only at hst
  by_cases hrel : ch.released = true
  · rw [hrel, if_neg (by decide)] at hst
    by_cases hreset : s.inReset (tierOf c) = true
    · rw [hreset, if_pos rfl] at hst
      omega
    · rw [if_neg hreset] at hst
      by_cases hreloc : ch.reloc = true
      · rw [hreloc, if_pos rfl] at hst
        omega
      · rw [if_neg hreloc] at hst
        by_cases hsrc : ch.hsrc = 0
        · rw [if_neg (by omega)] at hst
          refine ⟨hrel, by simpa using hreloc, by simpa using hreset, hsrc, ?_⟩
          by_cases hent : ch.entering = 0
          · omega
          · rw [if_pos hent] at hst
            omega
        · rw [if_pos hsrc] at hst
          omega
  · rw [if_pos (by simpa using hrel)] at hst
    omega

theorem holdsOrdered_waits {cs : List Nat} (hc : c ∈ cs) (hst : s.chmState c = 1) : Awaits True c (holdsOrdered cs 1 s) := by
  obtain ⟨hrel, hreloc, hreset, hsrc, hent⟩ := running_fields hst
  have hdue : ((holdsOrdered cs 1 s).chm c).holdDue = 1 := by
    refine forEach_establishes (P := fun _ => True) (Q := fun w => (w.chm c).holdDue = 1) hc (fun _ _ _ => trivial) (fun x w _ hw => ?_)
      (fun w _ => by rw [chm_modChm_same]) trivial
    by_cases hx : c = x
    · subst hx
      rw [chm_modChm_same]
    · rwa [chm_modChm_other _ _ _ hx]
  obtain ⟨d, hchm⟩ : ∃ d, (holdsOrdered cs 1 s).chm c = { s.chm c with holdDue := d } :=
    forEach_keeps (fun w => ∃ d, w.chm c = { s.chm c with holdDue := d }) cs _ (fun x w hw => modChm_ordered x 1 hw) s ⟨_, rfl⟩
  have hrst : (holdsOrdered cs 1 s).rst = s.rst := forEach_same State.rst cs _ s fun _ _ => rfl
  refine ⟨hchm ▸ hrel, hchm ▸ hreloc, ?_, hchm ▸ hent, .inr hdue, .inr ⟨trivial, hchm ▸ hsrc, hdue⟩⟩
  rw [State.inReset, hrst]
  exact hreset

theorem holdsOrdered_done (cs : List Nat) (h : Awaits False c s) : Awaits False c (holdsOrdered cs 0 s) := by
  refine forEach_keeps (Awaits False c) cs _ (fun x w hw => ?_) s h
  by_cases hx : c = x
  · subst hx
    have hchm : (w.modChm c fun ch => { ch with holdDue := 0 }).chm c = { w.chm c with holdDue := 0 } := chm_modChm_same ..
    exact ⟨hchm ▸ hw.released, hchm ▸ hw.reloc, hw.reset, hchm ▸ hw.entering, .inl (by rw [hchm]), .inl (hchm ▸ (hw.held.resolve_right fun h => h.1))⟩
  · exact hw.keeps (.modChm_other hx fun _ => rfl)

/-- While the clocks run, a device that holds chambers has held each of them that was in RUN. -/
theorem holdChambers_holds {cs : List Nat} (hrun : clocksRun s = true) (hrel : s.fab.released = true) (hfree : NoRelease s) (hc : c ∈ cs)
    (hst : s.chmState c = 1) : Awaits False c (holdChambers cs 1 s) := by
  obtain ⟨u, hu⟩ : ∃ u, holdsOrdered cs 1 s = u := ⟨_, rfl⟩
  have hordered : Awaits True c u := hu ▸ holdsOrdered_waits hc hst
  have hfreeu : NoRelease u := hu ▸ holdsOrdered_noRelease cs 1 hfree
  have hhold : holdChambers cs 1 s = holdsOrdered cs 0
      (forEach cs (fun c s => if (s.chm c).holdDue = 0 then s else bringEdge (s.chm c).swclkUse s) u) := by
    rw [← hu, holdChambers, hrun, hrel]
    rfl
  have hstep : ∀ (p : Prop) x w, (NoRelease w ∧ Awaits p c w) → NoRelease (if (w.chm x).holdDue = 0 then w else bringEdge (w.chm x).swclkUse w) ∧
      Awaits p c (if (w.chm x).holdDue = 0 then w else bringEdge (w.chm x).swclkUse w) := fun p x w hw => by
    split
    · exact hw
    · exact ⟨(bringEdge_awaits (p := p) (c := c) _ hw.1).1, ((bringEdge_awaits _ hw.1).2 hw.2).1⟩
  rw [hhold]
  refine holdsOrdered_done cs ?_
  refine (forEach_establishes (P := fun w => NoRelease w ∧ Awaits True c w) (Q := fun w => NoRelease w ∧ Awaits False c w) hc (hstep True)
    (fun x w _ hw => hstep False x w hw) (fun w hw => ?_) ⟨hfreeu, hordered⟩).2
  obtain ⟨hfreew, haw⟩ := hw
  split
  case isTrue hdue =>
    refine ⟨hfreew, { haw with held := .inl (haw.held.resolve_right fun h => ?_) }⟩
    omega
  case isFalse =>
    obtain ⟨hfree', hstrike⟩ := bringEdge_awaits (p := True) (c := c) (w.chm c).swclkUse hfreew
    exact ⟨hfree', (hstrike haw).2 rfl⟩

end

end Sys2Proof

/-! A rejoin starts, holds the chambers at its barrier, ends and is abandoned (R610, R620 to R623). -/

namespace Sys2Proof

open Sys2Proof.Machine

section

variable {s : State}

/-! ### The start -/

/-- What stands against the start of a rejoin: nothing, or the first check of Table Twin-4 that the HELLO held fails. -/
theorem rejoinStart_checks {h : Option Hello} {uid lines r : Nat} (hst : s.twn.pstate = 3) (hp : s.pstate = 0) :
    (h.bind (helloRefusal s) = none → rejoinStart h uid lines s = rejoinStart none uid lines s) ∧
      (h.bind (helloRefusal s) = some r → rejoinStart h uid lines s = raise 0x0C0C [r] s) := by
  have hgo : ¬(s.twn.pstate ≠ 3 ∨ s.pstate ≠ 0) := by omega
  refine ⟨fun hnone => ?_, fun hsome => ?_⟩
  · rw [rejoinStart, if_neg hgo, hnone, rejoinStart, if_neg hgo]
    rfl
  · rw [rejoinStart, if_neg hgo, hsome]

theorem heard_none (h : ∀ x, s.twn.heard = some x → helloRefusal s x = none) : s.twn.heard.bind (helloRefusal s) = none := by
  cases hx : s.twn.heard with
  | none => rfl
  | some x => exact h x hx

theorem heard_some {x : Hello} {r : Nat} (hx : s.twn.heard = some x) (hr : helloRefusal s x = some r) :
    s.twn.heard.bind (helloRefusal s) = some r := by
  rw [hx]
  exact hr

theorem rejoinStart_frame {h : Option Hello} {uid lines : Nat} : OnlyChanges (.twn :: events) s (rejoinStart h uid lines s) :=
  rejoinStart_within.frame

/-- The write of REJOIN is the start of a rejoin, with the number of lines that the log gives. -/
theorem exec_rejoin (who : Requester) (hst : s.twn.pstate = 3) : exec (.rejoin who) s =
    .next (rejoinStart s.twn.heard s.twn.puid.toNat (linesLogged s).1 s.fresh) :=
  congrArg Host.Outcome.next (writeReg_rejoin who s hst)

theorem rejoin_begins (who : Requester) (hst : s.twn.pstate = 3) (hp : s.pstate = 0)
    (hok : ∀ h, s.twn.heard = some h → helloRefusal s h = none) : Completes (.rejoin who) s fun t =>
      t.twn.pstate = 5 ∧ t.twn.role = 0 ∧ t.twn.phase = 2 ∧ Raised s t 0x0C0A [s.twn.puid.toNat, t.twn.lines] ∧
      (s.twn.maxLine = true → t.twn.lines = 2 ^ 21) ∧ OnlyChanges (.twn :: .seed :: events) s t := by
  obtain ⟨n, hn⟩ : ∃ n, (linesLogged s).1 = n := ⟨_, rfl⟩
  have hstart : rejoinStart s.twn.heard s.twn.puid.toNat n s.fresh = rejoinStart none s.twn.puid.toNat n s.fresh :=
    (rejoinStart_checks (s := s.fresh) (r := 0) hst hp).1 (heard_none hok)
  have hexec : exec (.rejoin who) s = .next (rejoinStart none s.twn.puid.toNat n s.fresh) := by rw [exec_rejoin who hst, hn, hstart]
  obtain ⟨htwn, hraised⟩ := rejoinStart_starts (s := s.fresh) (uid := s.twn.puid.toNat) (lines := n) hst hp
  have hlines : (rejoinStart none s.twn.puid.toNat n s.fresh).twn.lines = if s.twn.maxLine then 2 ^ 21 else n := congrArg Twin.lines htwn
  refine ⟨_, hexec, congrArg Twin.pstate htwn, congrArg Twin.role htwn, congrArg Twin.phase htwn, ?_, fun hmax => ?_, ?_⟩
  · rw [hlines]
    exact hraised.before State.fresh_within
  · rw [hlines, if_pos hmax]
  · exact (State.fresh_within.frame.mono (by decide)).trans (rejoinStart_frame.mono (by decide))

theorem rejoin_fails (who : Requester) {h : Hello} {r : Nat} (hst : s.twn.pstate = 3) (hp : s.pstate = 0) (hh : s.twn.heard = some h)
    (hr : helloRefusal s h = some r) : Completes (.rejoin who) s fun t =>
      t.twn = s.twn ∧ Raised s t 0x0C0C [r] ∧ OnlyChanges (.seed :: events) s t := by
  have hstart : rejoinStart s.twn.heard s.twn.puid.toNat (linesLogged s).1 s.fresh = raise 0x0C0C [r] s.fresh :=
    (rejoinStart_checks (s := s.fresh) hst hp).2 (heard_some hh hr)
  refine ⟨_, (exec_rejoin who hst).trans (congrArg Host.Outcome.next hstart), raise_twn .., ?_, ?_⟩
  · exact (raised_raise 0x0C0C [r] s.fresh).before State.fresh_within
  · exact (State.fresh_within.frame.mono (by decide)).trans (raise_within.frame.mono (by decide))

theorem rejoinAuto_begins (uid : BitVec 64) (lines : BitVec 22) (hauto : s.regB 0xC_0004 30 = true) (hst : s.twn.pstate = 3)
    (hp : s.pstate = 0) (hok : ∀ h, s.twn.heard = some h → helloRefusal s h = none) : Completes (.rejoinAuto uid lines) s fun t =>
      t.twn = { s.twn with pstate := 5, role := 0, phase := 2, lines := if s.twn.maxLine then 2 ^ 21 else lines.toNat } ∧
      Raised s t 0x0C0A [uid.toNat, t.twn.lines] ∧ OnlyChanges (.twn :: events) s t := by
  have hexec : exec (.rejoinAuto uid lines) s = .next (rejoinStart none uid.toNat lines.toNat s) :=
    congrArg Host.Outcome.next ((if_pos hauto).trans ((rejoinStart_checks (r := 0) hst hp).1 (heard_none hok)))
  obtain ⟨htwn, hraised⟩ := rejoinStart_starts (uid := uid.toNat) (lines := lines.toNat) hst hp
  have hlines : (rejoinStart none uid.toNat lines.toNat s).twn.lines = if s.twn.maxLine then 2 ^ 21 else lines.toNat := congrArg Twin.lines htwn
  refine ⟨_, hexec, htwn, ?_, rejoinStart_frame⟩
  rw [hlines]
  exact hraised

theorem rejoinAuto_fails (uid : BitVec 64) (lines : BitVec 22) {h : Hello} {r : Nat} (hauto : s.regB 0xC_0004 30 = true)
    (hst : s.twn.pstate = 3) (hp : s.pstate = 0) (hh : s.twn.heard = some h) (hr : helloRefusal s h = some r) :
    Completes (.rejoinAuto uid lines) s fun t => t.twn = s.twn ∧ Raised s t 0x0C0C [r] ∧ OnlyChanges events s t :=
  ⟨_, congrArg Host.Outcome.next ((if_pos hauto).trans ((rejoinStart_checks hst hp).2 (heard_some hh hr))), raise_twn ..,
    raised_raise .., raise_within.frame⟩

/-! ### The barrier -/

theorem keepsTwin_of_bringEdge (g : Nat) : TwinKept s (bringEdge g s) :=
  TwinKept.trans (t := State.modFab _ _) (.elsewhere State.modFab_within) .clockEdges

theorem holdChambers_twn (cs : List Nat) (hsrc : Nat) : TwinKept s (holdChambers cs hsrc s) := by
  unfold holdChambers
  refine .ite (.trans (.forEach fun _ _ => .modChm) (.trans (.forEach fun c w => .ite .refl (keepsTwin_of_bringEdge _)) (.forEach fun _ _ => .modChm))) ?_
  exact (TwinKept.elsewhere settleKeepers_within).trans (.trans (.forEach fun _ _ => .elsewhere holdChamber_within) (.elsewhere watchShafts_within))

/-- What the survivor tells the rejoining device of the chambers it has held changes nothing of its own. -/
theorem sendChambers_within (l : List (Nat × Chamber)) (f : Nat → Chamber → Nat → List Byte) :
    Within [.out] s (forEach l (fun (c, ch) s => forEach (List.range 4) (fun k s =>
      if (ch.strat k).loaded then sendTwin 7 (f c ch k) s else s) s) s) :=
  .forEach fun _ _ => .forEach fun _ _ => .ite sendTwin_within .refl

theorem rejoinBarrier_holds {n : Nat} (hst : s.twn.pstate = 5) (hrole : s.twn.role = 0) (hn : n ≤ max 1 (s.regF 0xC_0014 0 16))
    (hp : s.pstate = 0) (hrel : s.fab.released = true) (hfires : noFires s) (hcmd : ∀ c, (s.chm c).cmd = none)
    (hlock : ∀ c, (s.col c).lock = .off) : Completes (.rejoinBarrier n) s fun t =>
        t.twn.phase = 4 ∧ t.twn.heldAtBarrier = true ∧ t.twn.barrierHold = n ∧ t.twn.pstate = 5 ∧
        ∀ c, s.chmState c = 1 → t.chmState c = 4 ∧ (t.chm c).hsrc = 1 := by
  have hexec : exec (.rejoinBarrier n) s = execRejoinBarrier n s := rfl
  unfold execRejoinBarrier at hexec
  rw [if_neg (by omega)] at hexec
  obtain ⟨u, hu⟩ : ∃ u, holdChambers (s.fab.chambers.map (·.1)) 1 s = u := ⟨_, rfl⟩
  dsimp only at hexec
  rw [hu] at hexec
  have hsent := sendChambers_within (s := u) u.fab.chambers fun c ch k =>
    leBytes 2 c ++ leBytes 1 k ++ leBytes 2 (ch.strat k).slot ++ leBytes 256 (ch.stateBits k).toNat
  have hutwn : u.twn = s.twn := hu ▸ (holdChambers_twn _ 1).1 (by rw [State.paired, hrole]; rfl)
  refine ⟨_, hexec, rfl, rfl, rfl, ?_, fun c hrun => ?_⟩
  · exact (congrArg Twin.pstate ((hsent.frame .twn (by decide)).trans hutwn)).trans hst
  · have hfree : NoRelease s := ⟨hcmd, hlock, fun g q hq => absurd hq (by simp [(hfires g).1])⟩
    have hmem : c ∈ s.fab.chambers.map (·.1) := List.mem_map.2 ⟨_, mem_of_tabGet fun hdef => by
      have hreleased := (running_fields hrun).1
      rw [State.chm, hdef] at hreleased
      exact absurd hreleased (by decide), rfl⟩
    have hheld : Awaits False c u := hu ▸ holdChambers_holds (by rw [clocksRun, hp]; rfl) hrel hfree hmem hrun
    have hend := hheld.keeps (KeepsHold.trans (.elsewhere hsent) (.elsewhere State.modTwn_within))
    have hsrc := hend.held.resolve_right fun h => h.1
    exact ⟨hend.chmState.1 hsrc, hsrc⟩

/-! ### The chambers after the barrier -/

/-- A chamber that has been released: its pending stratum is selected, and 0x0305 has told it (R170). -/
def Freed (c sel : Nat) (s t : State) : Prop := (t.chm c).hsrc = 0 ∧ (t.chm c).sel = sel ∧ Raised s t 0x0305 [c, sel]

/-- The end of the barrier for one chamber (R622). -/
def freedAtBarrier (c : Nat) (s : State) : State := if (s.chm c).hsrc = 1 then releaseChamber c 1 s else s

theorem releaseBarrier_eq (hbar : s.twn.heldAtBarrier = true) : releaseBarrier s =
    forEach (s.fab.chambers.map (·.1)) freedAtBarrier (s.modTwn fun t => { t with heldAtBarrier := false }) := if_pos hbar

theorem freedAtBarrier_other {c x : Nat} {u : State} (hx : x ≠ c) : Seen c False u (freedAtBarrier x u) :=
  .ite (fun _ => releaseChamber_seen.weaken hx) fun _ => .refl

theorem freedAtBarrier_freed {c sel : Nat} {u : State} (h : Freed c sel s u) (x : Nat) : Freed c sel s (freedAtBarrier x u) := by
  obtain ⟨hsrc, hsel, hraised⟩ := h
  by_cases hx : x = c
  · subst hx
    rw [freedAtBarrier, if_neg (by omega)]
    exact ⟨hsrc, hsel, hraised⟩
  · have hseen := freedAtBarrier_other (u := u) hx
    have hfields := hseen.kept id
    exact ⟨(congrArg Chamber.hsrc hfields :).trans hsrc, (congrArg Chamber.sel hfields :).trans hsel, hraised.within hseen.toWithin⟩

theorem freedAtBarrier_frees {c : Nat} {u : State} (hst : s.chmState c = 4) (hsrc : (s.chm c).hsrc = 1) (hu : Seen c False s u) :
    Freed c ((s.chm c).pend.getD (s.chm c).sel) s (freedAtBarrier c u) := by
  have hfields := hu.kept id
  have husrc : (u.chm c).hsrc = 1 := (congrArg Chamber.hsrc hfields :).trans hsrc
  have husel : (u.chm c).sel = (s.chm c).sel := (congrArg Chamber.sel hfields :)
  have hupend : (u.chm c).pend = (s.chm c).pend := (congrArg Chamber.pend hfields :)
  obtain ⟨hsrc', -, -, hsel', -, hraised⟩ := releaseChamber_frees (rank := 1) (hu.chmState.trans hst) (by omega)
  rw [hupend, husel] at hsel' hraised
  rw [freedAtBarrier, if_pos husrc]
  exact ⟨hsrc', hsel', hraised.before hu.toWithin⟩

theorem releaseBarrier_frees {c : Nat} (hbar : s.twn.heldAtBarrier = true) (hst : s.chmState c = 4) (hsrc : (s.chm c).hsrc = 1) :
    Freed c ((s.chm c).pend.getD (s.chm c).sel) s (releaseBarrier s) := by
  obtain ⟨w, hw⟩ : ∃ w, s.modTwn (fun t => { t with heldAtBarrier := false }) = w := ⟨_, rfl⟩
  have hsw : Within [.twn] s w := hw ▸ State.modTwn_within
  have hwst : w.chmState c = 4 := hw ▸ hst
  have hchm : w.chm c = s.chm c := hw ▸ rfl
  have hmem : c ∈ s.fab.chambers.map (·.1) := List.mem_map.2 ⟨_, mem_of_tabGet fun hdef => by
    rw [State.chm] at hsrc
    rw [hdef] at hsrc
    exact absurd hsrc (by decide), rfl⟩
  rw [← hchm] at hsrc ⊢
  rw [releaseBarrier_eq hbar, hw]
  suffices hfreed : Freed c ((w.chm c).pend.getD (w.chm c).sel) w
      (forEach (s.fab.chambers.map (·.1)) freedAtBarrier w) from ⟨hfreed.1, hfreed.2.1, hfreed.2.2.before hsw⟩
  refine forEach_establishes (P := fun u => Seen c False w u ∨ Freed c ((w.chm c).pend.getD (w.chm c).sel) w u)
    (Q := Freed c ((w.chm c).pend.getD (w.chm c).sel) w) hmem (fun x u hu => ?_) (fun x u _ hu => freedAtBarrier_freed hu x) (fun u hu => ?_) (.inl .refl)
  · rcases hu with hu | hu
    · by_cases hx : x = c
      · subst hx
        exact .inr (freedAtBarrier_frees hwst hsrc hu)
      · exact .inl (hu.trans (freedAtBarrier_other hx))
    · exact .inr (freedAtBarrier_freed hu x)
  · exact hu.elim (freedAtBarrier_frees hwst hsrc) fun hu => freedAtBarrier_freed hu c

/-- What a rejoin's end leaves of a chamber that it has released. -/
theorem Freed.elsewhere {c sel : Nat} {t u : State} (h : Freed c sel s t) (hfab : u.fab = t.fab) (hev : t.ev.raised ⊆ u.ev.raised) :
    Freed c sel s u := by
  obtain ⟨hsrc, hsel, hraised⟩ := h
  have hchm : u.chm c = t.chm c := by rw [State.chm, hfab, State.chm]
  exact ⟨hchm ▸ hsrc, hchm ▸ hsel, hev hraised⟩

/-- The same in the words of the obligation, which reads the selected stratum in the new state. -/
theorem Freed.told {c sel : Nat} {t : State} (h : Freed c sel s t) : (t.chm c).hsrc = 0 ∧ (t.chm c).sel = sel ∧
    Raised s t 0x0305 [c, (t.chm c).sel] := by
  obtain ⟨hsrc, hsel, hraised⟩ := h
  exact ⟨hsrc, hsel, hsel.symm ▸ hraised⟩

/-! ### The end -/

/-- What the survivor's Brynerek holds once both devices are a pair again. -/
def rejoined (t : Twin) : Twin :=
  { t with phase := 0, lines := 0, failDrive := some false, failin := false, leadLow := true,
           hbok := true, maxLine := false, held := [], progress := [], wasPaired := true }

theorem raised_mono_raise (code : Nat) (fields : List Nat) : s.ev.raised ⊆ (raise code fields s).ev.raised :=
  fun _ he => raise_within.raised _ he

theorem rejoinEnd_pairs (n tb : Nat) (hst : s.twn.pstate = 5) (hphase : s.twn.phase = 4) (hbar : s.twn.heldAtBarrier = true) :
    Completes (.rejoinEnd n tb) s fun t =>
      t.twn.role = 1 ∧ t.twn.pstate = 2 ∧ t.twn.phase = 0 ∧ t.twn.heldAtBarrier = false ∧ t.twn.failDrive = some false ∧
      t.now = s.now ∧ Raised s t 0x0C0B [4, n, 0] ∧
      (∀ c, s.chmState c = 4 → (s.chm c).hsrc = 1 → (t.chm c).hsrc = 0 ∧ (t.chm c).sel = (s.chm c).pend.getD (s.chm c).sel ∧
        Raised s t 0x0305 [c, (t.chm c).sel]) ∧ OnlyChanges (.twn :: .fab :: .pin :: events) s t := by
  obtain ⟨u, hu⟩ : ∃ u, (takeTwinSetup (releaseBarrier s)).modTwn rejoined = u := ⟨_, rfl⟩
  have hru : Within [.twn] (releaseBarrier s) u := hu ▸ takeTwinSetup_within.step State.modTwn_within
  have hsu : Within (.fab :: .twn :: .pin :: events) s u := releaseBarrier_within.mono.step hru
  have hbaru : u.twn.heldAtBarrier = false := by
    rw [← hu]
    exact congrArg Twin.heldAtBarrier (releaseBarrier_twn (s := s))
  have hdone : u.twn.phase = 0 ∧ u.twn.failDrive = some false := by
    rw [← hu]
    exact ⟨rfl, rfl⟩
  have hexec : exec (.rejoinEnd n tb) s = .next (raise 0x0C0B [4, n, 0] (setPair 1 2 u)) := by
    rw [← hu]
    exact if_pos ⟨hst, hphase⟩
  have htwn : (raise 0x0C0B [4, n, 0] (setPair 1 2 u)).twn = { u.twn with role := 1, pstate := 2 } := by rw [raise_twn, setPair_twn]
  have hset : OnlyChanges [.twn, .out, .pci] u (setPair 1 2 u) := setPair_frame 1 2
  have hlys : (setPair 1 2 u).lys = s.lys := (hset .lys (by decide)).trans (hsu.frame .lys (by decide))
  have hnow : (setPair 1 2 u).now = s.now := congrArg (·.tbase) hlys
  have hraised := raised_raise 0x0C0B [4, n, 0] (setPair 1 2 u)
  rw [Raised, hnow] at hraised
  refine ⟨_, hexec, congrArg Twin.role htwn, congrArg Twin.pstate htwn, (congrArg Twin.phase htwn).trans hdone.1,
    (congrArg Twin.heldAtBarrier htwn).trans hbaru, (congrArg Twin.failDrive htwn).trans hdone.2, ?_, hraised, fun c hheld hsrc => ?_, ?_⟩
  · exact (congrArg (·.tbase) (raise_lys ..)).trans hnow
  · refine (Freed.elsewhere (releaseBarrier_frees hbar hheld hsrc) ?_ ?_).told
    · rw [raise_fab]
      exact (hset .fab (by decide)).trans (hru.frame .fab (by decide))
    · have hev : (setPair 1 2 u).ev = (releaseBarrier s).ev := (hset .ev (by decide)).trans (hru.frame .ev (by decide))
      rw [← hev]
      exact raised_mono_raise _ _
  · exact (hsu.frame.mono (by decide)).trans ((hset.mono (by decide)).trans (raise_within.frame.mono (by decide)))

/-- A rejoining device holds no chamber any more: the state that it has been sent has none in HELD. -/
theorem takeStates_free (l : List Nat) (c : Nat) (h : c ∈ l ∨ (s.chm c).hsrc = 0) : ((forEach l takeState s).chm c).hsrc = 0 := by
  have hkeep : ∀ x w, (w.chm c).hsrc = 0 → ((takeState x w).chm c).hsrc = 0 := fun x w hw => by
    by_cases hx : c = x
    · subst hx
      exact congrArg Chamber.hsrc (chm_modChm_same w c _)
    · exact (congrArg Chamber.hsrc (chm_modChm_other w x _ hx)).trans hw
  rcases h with h | h
  · exact forEach_establishes (P := fun _ => True) (Q := fun w => (w.chm c).hsrc = 0) h (fun _ _ _ => trivial) (fun x w _ => hkeep x w)
      (fun w _ => congrArg Chamber.hsrc (chm_modChm_same w c _)) trivial
  · exact forEach_keeps (fun w => (w.chm c).hsrc = 0) l _ (fun x w hw => hkeep x w hw) s h

theorem keys_or_free (c : Nat) : c ∈ s.fab.chambers.map (·.1) ∨ (s.chm c).hsrc = 0 := by
  by_cases h : s.chm c = {}
  · exact .inr (by rw [h])
  · exact .inl (List.mem_map.2 ⟨_, mem_of_tabGet h, rfl⟩)

/-- What the rejoining device takes over besides the survivor's set-up, its TBASE and its chambers. -/
def rejoinedFabric (f : Fabric) : Fabric := { f with phase := [], early := [], released := true }

def rejoinedTwin (t : Twin) : Twin :=
  { t with failDrive := none, failin := false, leadLow := false, hbRun := true, ready := false,
           held := [], progress := [], sync := none, wasPaired := true }

theorem rejoinEnd_follows (n tb : Nat) (htwin : s.twinStart = true) (hst : s.twn.pstate ≠ 5) (hready : twinReady s = true ∨ syncing s = true) :
    Completes (.rejoinEnd n tb) s fun t =>
      t.twn.role = 2 ∧ t.twn.pstate = 2 ∧ t.now = tb ∧ t.fab.released = true ∧ t.cfg.stage = 0xB ∧ t.twn.hbRun = true ∧
      t.twn.pins = s.reg 0xC_000C ∧ (∀ c, (t.chm c).hsrc = 0) ∧ (⟨0x0C0B, [4, n, 0], tb⟩ : Event) ∈ t.ev.raised := by
  obtain ⟨w, hw⟩ : ∃ w, forEach (s.fab.chambers.map (·.1)) takeState s = w := ⟨_, rfl⟩
  have hwreg : w.reg 0xC_000C = s.reg 0xC_000C :=
    hw ▸ (Within.forEach (l := [.fab, .seed]) fun _ _ => takeState_within).frame .regs (by decide) _
  have hwchm : ∀ c, (w.chm c).hsrc = 0 := fun c => hw ▸ takeStates_free _ c (keys_or_free c)
  obtain ⟨u, hu⟩ : ∃ u, ((((takeTwinSetup w).modLys fun l => { l with tbase := tb }).modFab rejoinedFabric).modTwn rejoinedTwin).modCfg
    (fun c => { c with stage := 0xB }) = u := ⟨_, rfl⟩
  have hexec : exec (.rejoinEnd n tb) s = .next (raise 0x0C0B [4, n, 0] (setPair 2 2 u)) := by
    rw [← hu, ← hw]
    have hexec : exec (.rejoinEnd n tb) s = execRejoinEnd n tb s := rfl
    unfold execRejoinEnd at hexec
    rw [if_neg (by omega), if_pos ⟨htwin, hready⟩] at hexec
    exact hexec
  have hufab : u.fab = rejoinedFabric w.fab := hu ▸ rfl
  have hutwn : u.twn = rejoinedTwin (takeTwinSetup w).twn := hu ▸ rfl
  have hulys : u.lys.tbase = tb := hu ▸ rfl
  have hucfg : u.cfg.stage = 0xB := hu ▸ rfl
  have hset : OnlyChanges [.twn, .out, .pci] u (setPair 2 2 u) := setPair_frame 2 2
  have hfab : (raise 0x0C0B [4, n, 0] (setPair 2 2 u)).fab = rejoinedFabric w.fab := by
    rw [raise_fab, ← hufab]
    exact hset .fab (by decide)
  have htwn : (raise 0x0C0B [4, n, 0] (setPair 2 2 u)).twn = { u.twn with role := 2, pstate := 2 } := by rw [raise_twn, setPair_twn]
  have hcfg : (setPair 2 2 u).cfg = u.cfg := hset .cfg (by decide)
  have hnow : (setPair 2 2 u).now = tb := (congrArg (·.tbase) (hset .lys (by decide))).trans hulys
  have hraised := raised_raise 0x0C0B [4, n, 0] (setPair 2 2 u)
  rw [Raised, hnow] at hraised
  refine ⟨_, hexec, congrArg Twin.role htwn, congrArg Twin.pstate htwn, ?_, congrArg Fabric.released hfab, ?_,
    (congrArg Twin.hbRun htwn).trans (congrArg Twin.hbRun hutwn), ?_, fun c => ?_, hraised⟩
  · exact (congrArg (·.tbase) (raise_lys ..)).trans hnow
  · rw [raise_cfg, hcfg, hucfg]
  · exact (congrArg Twin.pins htwn).trans ((congrArg Twin.pins hutwn).trans hwreg)
  · rw [State.chm, hfab]
    exact hwchm c

/-! ### An abandoned rejoin -/

theorem setPair_sent (pst : Nat) : OnlyChanges (.twn :: events) s (setPair 0 pst s) := setPair_within.frame.mono (by decide)

theorem rejoinAbandon_free (n : Nat) (hst : s.twn.pstate = 5) (hbar : s.twn.heldAtBarrier = false) : Completes (.rejoinAbandon n) s fun t =>
      t.twn = { s.twn with role := 0, pstate := 3, phase := 0, lines := 0 } ∧ Raised s t 0x0C0B [s.twn.phase, n, 1] ∧
      OnlyChanges (.twn :: events) s t := by
  obtain ⟨htwn, hraised⟩ := abandonRejoin_spec (s := s) n hst
  refine ⟨_, rfl, ?_, hraised, ?_⟩
  · rw [htwn, ← hbar]
  · rw [abandonRejoin, if_neg (by omega), releaseBarrier_free hbar]
    exact ((onlyChanges_modTwn _).mono (by decide)).trans ((setPair_sent 3).trans (raise_within.frame.mono (by decide)))

theorem rejoinAbandon_held (n : Nat) (hst : s.twn.pstate = 5) (hbar : s.twn.heldAtBarrier = true) : Completes (.rejoinAbandon n) s fun t =>
      t.twn = { s.twn with role := 0, pstate := 3, phase := 0, lines := 0, heldAtBarrier := false } ∧
      Raised s t 0x0C0B [s.twn.phase, n, 1] ∧
      (∀ c, s.chmState c = 4 → (s.chm c).hsrc = 1 → (t.chm c).hsrc = 0 ∧ (t.chm c).sel = (s.chm c).pend.getD (s.chm c).sel ∧
        Raised s t 0x0305 [c, (t.chm c).sel]) ∧ OnlyChanges (.twn :: .fab :: .pin :: events) s t := by
  obtain ⟨htwn, hraised⟩ := abandonRejoin_spec (s := s) n hst
  refine ⟨_, rfl, htwn, hraised, fun c hheld hsrc => ?_, abandonRejoin_within.frame.mono (by decide)⟩
  have hrest : Within (.twn :: events) (releaseBarrier s) (abandonRejoin n s) := by
    rw [abandonRejoin, if_neg (by omega)]
    exact (State.modTwn_within (s := releaseBarrier s)).mono.step setPair_within |>.step raise_within
  exact ((releaseBarrier_frees hbar hheld hsrc).elsewhere (hrest.frame .fab (by decide)) fun _ he => hrest.raised _ he).told

end

/-- Settles O51, by the start of a rejoin, the barrier that holds every chamber at its own edge, both ends and the abandoning. -/
theorem rejoinRestoresThePair : Obligations.RejoinRestoresThePair := by
  unfold Obligations.RejoinRestoresThePair
  refine fun s htwin => ⟨fun hst hrole hp => ⟨fun who hok => rejoin_begins who hst hp hok, fun who h r hh hr => rejoin_fails who hst hp hh hr,
      fun hauto uid lines => ⟨fun hok => rejoinAuto_begins uid lines hauto hst hp hok, fun h r hh hr => rejoinAuto_fails uid lines hauto hst hp hh hr⟩⟩,
    fun hst hrole => ⟨fun n hn hp hrel hfires hcmd hlock => rejoinBarrier_holds hst hrole hn hp hrel hfires hcmd hlock,
      fun n tb hphase hbar => rejoinEnd_pairs n tb hst hphase hbar, fun n hbar => rejoinAbandon_free n hst hbar,
      fun n hbar => rejoinAbandon_held n hst hbar⟩,
    fun n tb hst hready => rejoinEnd_follows n tb htwin hst hready⟩

end Sys2Proof

/-! Echo: how an event is counted, queued and taken into the ring and the log (R661 to R671, R690, R691). -/

namespace Sys2Proof

open Sys2Proof.Machine

section

variable {s : State} {e : Event} {rest : List Event}

/-! ### Into the queue -/

/-- A leaf counts one more event (R690). -/
def leafCounts (code : Nat) (x : Echo) : Echo :=
  { x with leaves := tabMod {} x.leaves code fun l => { l with count := l.count.add 1 } }

/-- The event queue has no place for an event (R662). -/
def eventLost (fault : Bool) (x : Echo) : Echo :=
  { x with lost := x.lost.add 1, lostTick := min 65535 (x.lostTick + 1), lostRing := true, lostLog := x.lostLog || fault }

/-- An event joins the event queue, or is lost (R662). -/
def joins (e : Event) (x : Echo) : Echo :=
  if 64 ≤ x.queue.length ∨ (56 ≤ x.queue.length ∧ !isFault e.code e.fields) then eventLost (isFault e.code e.fields) x
  else { x with queue := x.queue ++ [e] }

/-- What an event with a leaf does to Echo when it leaves the raised ones. -/
def enqueued (e : Event) (x : Echo) : Echo := joins e (leafCounts e.code x)

theorem modEv_joins (u : State) : u.modEv (joins e) =
    if 64 ≤ u.ev.queue.length ∨ (56 ≤ u.ev.queue.length ∧ !isFault e.code e.fields) then u.modEv (eventLost (isFault e.code e.fields))
    else u.modEv fun x => { x with queue := x.queue ++ [e] } := by
  have hjoins : u.modEv (joins e) = { u with ev := joins e u.ev } := rfl
  rw [hjoins, joins]
  split <;> rfl

theorem enqueueEvent_eq (hleaf : hasLeaf e.code = true) (leafBad : Bool) (u : State) :
    enqueueEvent leafBad e u = (if leafBad = true then leafLost e.code u else u).modEv (enqueued e) := by
  obtain ⟨w, hw⟩ : ∃ w, (if leafBad = true then leafLost e.code u else u) = w := ⟨_, rfl⟩
  have hsplit : w.modEv (enqueued e) = (w.modEv (leafCounts e.code)).modEv (joins e) := rfl
  unfold enqueueEvent
  simp only [hleaf, and_true, if_true]
  rw [hw, hsplit, modEv_joins]
  rfl

theorem exec_eventEnqueue (hq : s.ev.raised = e :: rest) (hleaf : hasLeaf e.code = true) : exec (.eventEnqueue false) s =
    .next { s with ev := enqueued e { s.ev with raised := rest } } := by
  have hexec : exec (.eventEnqueue false) s = execEventEnqueue false s := rfl
  rw [hexec, execEventEnqueue, hq]
  dsimp only
  rw [enqueueEvent_eq hleaf, if_neg Bool.false_ne_true]
  rfl

theorem joins_queues (x : Echo) (h : x.queue.length < 56 ∨ x.queue.length < 64 ∧ isFault e.code e.fields = true) :
    joins e x = { x with queue := x.queue ++ [e] } := by
  unfold joins
  rw [if_neg]
  rcases h with h | ⟨h, hfault⟩
  · omega
  · simp [hfault]
    omega

theorem joins_loses (x : Echo) (h : 64 ≤ x.queue.length ∨ 56 ≤ x.queue.length ∧ isFault e.code e.fields = false) :
    joins e x = eventLost (isFault e.code e.fields) x := by
  unfold joins
  rw [if_pos]
  exact h.imp_right fun h => ⟨h.1, by rw [h.2]; rfl⟩

theorem leaf_counted (code : Nat) (x : Echo) : tabGet ({} : Leaf) (leafCounts code x).leaves code =
    { tabGet ({} : Leaf) x.leaves code with count := (tabGet ({} : Leaf) x.leaves code).count.add 1 } := by
  unfold leafCounts
  rw [tabGet_tabMod_same]

theorem leaf_counted_other (code : Nat) (x : Echo) {c : Nat} (h : c ≠ code) :
    tabGet ({} : Leaf) (leafCounts code x).leaves c = tabGet ({} : Leaf) x.leaves c := by
  unfold leafCounts
  rw [tabGet_tabMod_other _ _ _ _ _ h]

theorem enqueue_joins (hq : s.ev.raised = e :: rest) (hleaf : hasLeaf e.code = true)
    (h : s.ev.queue.length < 56 ∨ s.ev.queue.length < 64 ∧ isFault e.code e.fields = true) : Completes (.eventEnqueue false) s fun t =>
      t.ev.queue = s.ev.queue ++ [e] ∧ t.ev.raised = rest ∧ (t.leaf e.code).count = (s.leaf e.code).count.add 1 ∧
      (∀ c, c ≠ e.code → t.leaf c = s.leaf c) ∧ t.ev.lost = s.ev.lost ∧ OnlyChanges [.ev] s t := by
  have hev : enqueued e { s.ev with raised := rest } =
      { leafCounts e.code { s.ev with raised := rest } with queue := s.ev.queue ++ [e] } := joins_queues _ h
  have hexec := exec_eventEnqueue hq hleaf
  rw [hev] at hexec
  exact ⟨_, hexec, rfl, rfl, congrArg Leaf.count (leaf_counted e.code { s.ev with raised := rest }),
    fun c hc => leaf_counted_other e.code { s.ev with raised := rest } hc, rfl, onlyChanges_modEv s fun _ => _⟩

theorem enqueue_loses (hq : s.ev.raised = e :: rest) (hleaf : hasLeaf e.code = true)
    (h : 64 ≤ s.ev.queue.length ∨ 56 ≤ s.ev.queue.length ∧ isFault e.code e.fields = false) : Completes (.eventEnqueue false) s fun t =>
      t.ev.queue = s.ev.queue ∧ t.ev.lost = s.ev.lost.add 1 ∧ t.ev.lostRing = true ∧
        (t.leaf e.code).count = (s.leaf e.code).count.add 1 ∧ OnlyChanges [.ev] s t := by
  have hev : enqueued e { s.ev with raised := rest } = eventLost (isFault e.code e.fields) (leafCounts e.code { s.ev with raised := rest }) :=
    joins_loses _ h
  have hexec := exec_eventEnqueue hq hleaf
  rw [hev] at hexec
  exact ⟨_, hexec, rfl, rfl, rfl, congrArg Leaf.count (leaf_counted e.code { s.ev with raised := rest }), onlyChanges_modEv s fun _ => _⟩

/-- A leaf word that fails its check (R691). -/
theorem leafLost_spec (code : Nat) (u : State) : ∃ n, (leafLost code u).ev = { u.ev with
      leaves := tabSet {} u.ev.leaves code { count := {}, lost := true, episodes := n },
      raised := (leafLost code u).ev.raised } ∧ n = min 255 ((u.leaf code).episodes + 1) ∧ Raised u (leafLost code u) 0x0E09 [code, n] ∧
      OnlyChanges events u (leafLost code u) := by
  refine ⟨_, ?_, rfl, ?_, ?_⟩
  · rw [leafLost, raise_ev]
    rfl
  · exact (raised_raise 0x0E09 _ _).before (State.modEv_within (s := u))
  · exact ((onlyChanges_modEv u _).mono (by decide)).trans raise_within.frame

theorem enqueue_restarts (hq : s.ev.raised = e :: rest) (hleaf : hasLeaf e.code = true) (h : s.ev.queue.length < 56) :
    Completes (.eventEnqueue true) s fun t =>
      t.ev.queue = s.ev.queue ++ [e] ∧ (t.leaf e.code).count = ({} : Ctr).add 1 ∧ (t.leaf e.code).lost = true ∧
      Raised s t 0x0E09 [e.code, min 255 ((s.leaf e.code).episodes + 1)] ∧ OnlyChanges events s t := by
  obtain ⟨u, hu⟩ : ∃ u, s.modEv (fun x => { x with raised := rest }) = u := ⟨_, rfl⟩
  have hexec : exec (.eventEnqueue true) s = .next ((leafLost e.code u).modEv (enqueued e)) := by
    have hexec : exec (.eventEnqueue true) s = execEventEnqueue true s := rfl
    rw [hexec, execEventEnqueue, hq]
    dsimp only
    rw [hu, enqueueEvent_eq hleaf, if_pos rfl]
    rfl
  obtain ⟨n, hlost, hn, hraised, hframe⟩ := leafLost_spec e.code u
  have hqueue : (leafLost e.code u).ev.queue = s.ev.queue := by
    rw [hlost, ← hu]
    rfl
  have hev : enqueued e (leafLost e.code u).ev = { leafCounts e.code (leafLost e.code u).ev with queue := s.ev.queue ++ [e] } := by
    rw [enqueued, joins_queues _ (.inl (by rw [show (leafCounts e.code (leafLost e.code u).ev).queue = s.ev.queue from hqueue]; exact h)), ← hqueue]
    rfl
  have hleafu : tabGet ({} : Leaf) (leafLost e.code u).ev.leaves e.code = { count := {}, lost := true, episodes := n } := by
    rw [hlost]
    dsimp only
    rw [tabGet_tabSet_same]
  have hcounted := leaf_counted e.code (leafLost e.code u).ev
  rw [hleafu] at hcounted
  have hnow : u.now = s.now := hu ▸ rfl
  have hepisodes : (u.leaf e.code).episodes = (s.leaf e.code).episodes := hu ▸ rfl
  rw [Raised, hnow, hn, hepisodes] at hraised
  have hsu : OnlyChanges events s u := hu ▸ (onlyChanges_modEv s _).mono (by decide)
  have hlast : OnlyChanges events (leafLost e.code u) ((leafLost e.code u).modEv (enqueued e)) := (onlyChanges_modEv _ _).mono (by decide)
  have ht : (leafLost e.code u).modEv (enqueued e) = { leafLost e.code u with
      ev := { leafCounts e.code (leafLost e.code u).ev with queue := s.ev.queue ++ [e] } } := by
    rw [← hev]
    rfl
  rw [ht] at hexec hlast
  exact ⟨_, hexec, rfl, congrArg Leaf.count hcounted, congrArg Leaf.lost hcounted, hraised, hsu.trans (hframe.trans hlast)⟩

/-! ### Out of the queue -/

/-- What the queue and the sequence numbers lose by the event taken (R664). -/
def taken (rest : List Event) (x : Echo) : Echo := { x with queue := rest, seq := (x.seq + 1) % 2 ^ 32 }

/-- The event taken as the ring leaves it, and what the log and the vector do to a FAULT. -/
def logged (e : Event) (seq : Nat) (p : State × Bool) : State :=
  let (s, b) := if isFault e.code e.fields then logTake e seq p.1 else (p.1, false)
  if isFault e.code e.fields ∧ (p.2 ∨ b) then echoVector s else s

theorem exec_eventTake (hq : s.ev.queue = e :: rest) : exec .eventTake s =
    .next (logged e s.ev.seq (ringTake e s.ev.seq (s.modEv (taken rest)))) := by
  have hexec : exec .eventTake s = execEventTake s := rfl
  rw [hexec, execEventTake, hq]
  rfl

theorem logged_info (hfault : isFault e.code e.fields = false) (seq : Nat) (p : State × Bool) : logged e seq p = p.1 := by
  rw [logged, hfault, if_neg Bool.false_ne_true]
  exact if_neg fun h => absurd h.1 Bool.false_ne_true

/-- A FAULT that finds the log empty is its first record (R671). -/
theorem logTake_first (seq : Nat) (hlog : s.ev.log = []) : logTake e seq s =
    (s.modEv fun x => { x with log := [openRecord e seq true s.ev.lostLog false], lostLog := false }, true) := by
  unfold logTake
  simp [State.modEv, hlog]

theorem ringTake_frozen (seq : Nat) (h : s.ev.ringState = 2) : ringTake e seq s = (s, false) := by
  unfold ringTake
  exact if_pos (by omega)

theorem ringTake_merges (seq : Nat) {k : Nat} (h : s.ev.ringState = 0) (hlast : s.ev.last = some k)
    (hsame : identical e (tabGet {} s.ev.ring k) = true) (hrep : (tabGet ({} : Record) s.ev.ring k).rep < 65535) :
    ringTake e seq s = (s.modEv fun x => { x with ring := tabMod {} x.ring k fun r => r.merge e.tbase }, false) := by
  unfold ringTake
  rw [if_neg (by omega)]
  simp only [hlast, Option.getD_some, hsame, hrep, and_self, if_true]

/-- What an event that opens a record does to the ring (R667 to R669). -/
def opens (e : Event) (seq post : Nat) (x : Echo) : Echo :=
  let fault := isFault e.code e.fields
  { x with ring := tabSet {} x.ring x.head { openRecord e seq fault x.lostRing false with trigger := fault }, last := some x.head,
           head := (x.head + 1) % 4096, wrapped := x.wrapped || x.head == 4095, lostRing := false,
           trigIdx := if fault then x.head else x.trigIdx, ringState := if fault then 1 else 0, postLeft := if fault then post else x.postLeft }

theorem ringTake_opens (seq : Nat) (h : s.ev.ringState = 0) (hlast : s.ev.last = none) : ringTake e seq s =
    (if isFault e.code e.fields = true ∧ s.regF echCtrl 12 12 = 0 then freezeRing (s.modEv (opens e seq (s.regF echCtrl 12 12)))
      else s.modEv (opens e seq (s.regF echCtrl 12 12)), true) := by
  unfold ringTake
  rw [if_neg (by omega)]
  cases hfault : isFault e.code e.fields with
  | false => simp [hlast, h, hfault, opens, openRecord, State.modEv]
  | true => simp [hlast, h, hfault, opens, openRecord, State.modEv]

theorem take_merges {k : Nat} (hq : s.ev.queue = e :: rest) (hfault : isFault e.code e.fields = false) (hring : s.ev.ringState = 0)
    (hlast : s.ev.last = some k) (hsame : identical e (tabGet {} s.ev.ring k) = true) (hrep : (tabGet ({} : Record) s.ev.ring k).rep < 65535) :
    Completes .eventTake s fun t =>
        tabGet {} t.ev.ring k = { tabGet ({} : Record) s.ev.ring k with rep := (tabGet ({} : Record) s.ev.ring k).rep + 1, tlast := e.tbase } ∧
        t.ev.head = s.ev.head ∧ t.ev.queue = rest ∧ t.ev.seq = (s.ev.seq + 1) % 2 ^ 32 ∧ t.ev.log = s.ev.log ∧ OnlyChanges [.ev] s t := by
  have hmerge := ringTake_merges (s := s.modEv (taken rest)) s.ev.seq hring hlast hsame hrep
  have hexec := exec_eventTake hq
  rw [hmerge, logged_info hfault] at hexec
  exact ⟨_, hexec, tabGet_tabMod_same ({} : Record) s.ev.ring k fun r => r.merge e.tbase, rfl, rfl, rfl, rfl,
    (onlyChanges_modEv s _).trans (onlyChanges_modEv _ _)⟩

theorem take_opens (hq : s.ev.queue = e :: rest) (hfault : isFault e.code e.fields = false) (hring : s.ev.ringState = 0)
    (hlast : s.ev.last = none) : Completes .eventTake s fun t =>
      tabGet {} t.ev.ring s.ev.head = openRecord e s.ev.seq false s.ev.lostRing false ∧ t.ev.head = (s.ev.head + 1) % 4096 ∧
      t.ev.last = some s.ev.head ∧ t.ev.ringState = 0 ∧ t.ev.lostRing = false ∧ t.ev.queue = rest ∧ t.ev.log = s.ev.log ∧
      (∀ k, k ≠ s.ev.head → tabGet {} t.ev.ring k = tabGet {} s.ev.ring k) ∧ OnlyChanges [.ev] s t := by
  have hopens := ringTake_opens (s := s.modEv (taken rest)) (e := e) s.ev.seq hring hlast
  have hexec := exec_eventTake hq
  rw [hopens, logged_info hfault, if_neg (by simp [hfault])] at hexec
  have hstate : (if isFault e.code e.fields = true then 1 else 0) = 0 := if_neg (by simp [hfault])
  refine ⟨_, hexec, ?_, rfl, rfl, hstate, rfl, rfl, rfl, fun k hk => tabGet_tabSet_other ({} : Record) s.ev.ring _ _ _ hk,
    (onlyChanges_modEv s _).trans (onlyChanges_modEv _ _)⟩
  refine (tabGet_tabSet_same ({} : Record) s.ev.ring s.ev.head _).trans ?_
  rw [hfault]
  rfl

theorem take_frozen (hq : s.ev.queue = e :: rest) (hfault : isFault e.code e.fields = false) (hring : s.ev.ringState = 2) :
    Completes .eventTake s fun t => t.ev = { s.ev with queue := rest, seq := (s.ev.seq + 1) % 2 ^ 32 } ∧ OnlyChanges [.ev] s t := by
  have hfrozen := ringTake_frozen (s := s.modEv (taken rest)) (e := e) s.ev.seq hring
  have hexec := exec_eventTake hq
  rw [hfrozen, logged_info hfault] at hexec
  exact ⟨_, hexec, rfl, onlyChanges_modEv s _⟩

/-- The first record of the log, and Echo's vector (R671, R674). -/
theorem logged_first (hfault : isFault e.code e.fields = true) (seq : Nat) (hlog : s.ev.log = []) : logged e seq (s, true) =
    echoVector (s.modEv fun x => { x with log := [openRecord e seq true s.ev.lostLog false], lostLog := false }) := by
  rw [logged, if_pos hfault, logTake_first seq hlog]
  exact if_pos ⟨hfault, .inl rfl⟩

theorem echoVector_ev (u : State) : (echoVector u).ev = u.ev := echoVector_within.frame .ev (by decide)

theorem take_triggers (hq : s.ev.queue = e :: rest) (hfault : isFault e.code e.fields = true) (hring : s.ev.ringState = 0)
    (hlast : s.ev.last = none) (hlog : s.ev.log = []) (hpost : s.regF 0xD_0000 12 12 ≠ 0) : Completes .eventTake s fun t =>
        tabGet {} t.ev.ring s.ev.head = { openRecord e s.ev.seq true s.ev.lostRing false with trigger := true } ∧
        t.ev.ringState = 1 ∧ t.ev.trigIdx = s.ev.head ∧ t.ev.postLeft = s.regF 0xD_0000 12 12 ∧
        t.ev.log = [openRecord e s.ev.seq true s.ev.lostLog false] ∧ t.ev.queue = rest ∧ OnlyChanges events s t := by
  obtain ⟨v, hv⟩ : ∃ v, (s.modEv (taken rest)).modEv (opens e s.ev.seq (s.regF echCtrl 12 12)) = v := ⟨_, rfl⟩
  have hopens : ringTake e s.ev.seq (s.modEv (taken rest)) = (v, true) := by
    rw [ringTake_opens (s := s.modEv (taken rest)) (e := e) s.ev.seq hring hlast, ← hv]
    exact congrArg (·, true) (if_neg fun h => hpost h.2)
  have hexec := exec_eventTake hq
  have hvlog : v.ev.log = [] := hv ▸ hlog
  rw [hopens, logged_first hfault _ hvlog] at hexec
  have hvev : v.ev = opens e s.ev.seq (s.regF echCtrl 12 12) (taken rest s.ev) := hv ▸ rfl
  have hvl : v.ev.lostLog = s.ev.lostLog := hv ▸ rfl
  have hsv : OnlyChanges events s v := hv ▸ ((onlyChanges_modEv s _).trans (onlyChanges_modEv _ _)).mono (by decide)
  refine ⟨_, hexec, ?_, ?_, ?_, ?_, ?_, ?_, hsv.trans (((onlyChanges_modEv _ _).mono (by decide)).trans (echoVector_within.frame.mono (by decide)))⟩
  all_goals rw [echoVector_ev]
  · change tabGet {} v.ev.ring s.ev.head = _
    rw [hvev]
    change tabGet {} (tabSet {} s.ev.ring s.ev.head _) s.ev.head = _
    rw [tabGet_tabSet_same, hfault]
    rfl
  · exact (congrArg Echo.ringState hvev).trans (if_pos hfault)
  · exact (congrArg Echo.trigIdx hvev).trans (if_pos hfault)
  · exact (congrArg Echo.postLeft hvev).trans (if_pos hfault)
  · exact congrArg (fun l => [openRecord e s.ev.seq true l false]) hvl
  · exact congrArg Echo.queue hvev

/-- A ring that freezes and asks for no commit (R668, R674). -/
theorem freezeRing_spec (hcommit : s.regB echCtrl 30 = false) : ∃ l, (freezeRing s).ev = { s.ev with ringState := 2, postLeft := 0, raised := l } ∧
    Raised s (freezeRing s) 0x0E02 [s.ev.trigIdx, (tabGet ({} : Record) s.ev.ring s.ev.trigIdx).code] := by
  obtain ⟨u, hu⟩ : ∃ u, raise 0x0E02 [s.ev.trigIdx, (tabGet ({} : Record) s.ev.ring s.ev.trigIdx).code]
    (s.modEv fun e => { e with ringState := 2, postLeft := 0 }) = u := ⟨_, rfl⟩
  have hreg : (echoVector u).reg echCtrl = s.reg echCtrl := by
    refine (echoVector_within.frame .regs (by decide) echCtrl).trans ?_
    rw [← hu]
    exact raise_within.frame .regs (by decide) echCtrl
  have hfreeze : freezeRing s = echoVector u := by
    unfold freezeRing
    dsimp only
    rw [hu, if_neg]
    rw [State.regB, hreg, ← State.regB, hcommit]
    decide
  rw [hfreeze]
  refine ⟨u.ev.raised, ?_, ?_⟩
  · rw [echoVector_ev, ← hu, raise_ev]
    rfl
  · rw [← hu]
    exact ((raised_raise ..).before (State.modEv_within (s := s))).within echoVector_within

theorem take_freezes (hq : s.ev.queue = e :: rest) (hfault : isFault e.code e.fields = true) (hring : s.ev.ringState = 0)
    (hlast : s.ev.last = none) (hlog : s.ev.log = []) (hpost : s.regF 0xD_0000 12 12 = 0) (hcommit : s.regB 0xD_0000 30 = false) :
    Completes .eventTake s fun t =>
        t.ev.ringState = 2 ∧ t.ev.trigIdx = s.ev.head ∧ Raised s t 0x0E02 [s.ev.head, e.code] ∧ OnlyChanges events s t := by
  obtain ⟨v, hv⟩ : ∃ v, (s.modEv (taken rest)).modEv (opens e s.ev.seq (s.regF echCtrl 12 12)) = v := ⟨_, rfl⟩
  have hopens : ringTake e s.ev.seq (s.modEv (taken rest)) = (freezeRing v, true) := by
    rw [ringTake_opens (s := s.modEv (taken rest)) (e := e) s.ev.seq hring hlast, ← hv]
    exact congrArg (·, true) (if_pos ⟨hfault, hpost⟩)
  have hvev : v.ev = opens e s.ev.seq (s.regF echCtrl 12 12) (taken rest s.ev) := hv ▸ rfl
  have hvlog : v.ev.log = [] := hv ▸ hlog
  have htrig : v.ev.trigIdx = s.ev.head := (congrArg Echo.trigIdx hvev).trans (if_pos hfault)
  have hcode : (tabGet ({} : Record) v.ev.ring s.ev.head).code = e.code := by
    rw [hvev]
    change (tabGet {} (tabSet {} s.ev.ring s.ev.head _) s.ev.head).code = _
    rw [tabGet_tabSet_same]
    rfl
  have hsv : Within [.ev] s v := hv ▸ (State.modEv_within (s := s)).step State.modEv_within
  obtain ⟨l, hfroze, hraised⟩ := freezeRing_spec (s := v) (hv ▸ hcommit)
  rw [htrig, hcode] at hraised
  have hexec := exec_eventTake hq
  rw [hopens, logged_first hfault _ (by rw [hfroze]; exact hvlog)] at hexec
  refine ⟨_, hexec, ?_, ?_, ?_, ?_⟩
  · rw [echoVector_ev]
    exact congrArg Echo.ringState hfroze
  · rw [echoVector_ev]
    exact (congrArg Echo.trigIdx hfroze).trans htrig
  · exact ((hraised.before hsv).within State.modEv_within).within echoVector_within
  · exact (hsv.frame.mono (by decide)).trans (freezeRing_within.frame.trans
      (((onlyChanges_modEv _ _).mono (by decide)).trans (echoVector_within.frame.mono (by decide))))

end

/-- Settles O52, by what an event does on its way into the queue and out of it into the ring and the log. -/
theorem eventsAreCountedAndRecorded : Obligations.EventsAreCountedAndRecorded := by
  unfold Obligations.EventsAreCountedAndRecorded
  refine fun s e rest => ⟨fun hq hleaf => ⟨fun h => enqueue_joins hq hleaf (.inl h), fun h56 h64 => ⟨fun hfault => ?_, fun hinfo =>
      enqueue_loses hq hleaf (.inr ⟨h56, hinfo⟩)⟩, fun h64 => ?_, fun h => enqueue_restarts hq hleaf h⟩,
    fun hq => ⟨fun k hinfo hring hlast hsame hrep => take_merges hq hinfo hring hlast hsame hrep,
      fun hinfo hring hlast => take_opens hq hinfo hring hlast, fun hfault hring hlast hlog hpost => take_triggers hq hfault hring hlast hlog hpost,
      fun hfault hring hlast hlog hpost hcommit => take_freezes hq hfault hring hlast hlog hpost hcommit,
      fun hinfo hring => take_frozen hq hinfo hring⟩⟩
  · obtain ⟨t, hexec, hqueue, -, -, -, hlost, hframe⟩ := enqueue_joins hq hleaf (.inr ⟨h64, hfault⟩)
    exact ⟨t, hexec, hqueue, hlost, hframe⟩
  · obtain ⟨t, hexec, hqueue, hlost, -, -, hframe⟩ := enqueue_loses hq hleaf (.inl h64)
    exact ⟨t, hexec, hqueue, hlost, hframe⟩

end Sys2Proof

/-! Commits to flash and the reads that capture (R675, R678 to R688, R776). -/

namespace Sys2Proof

open Sys2Proof.Machine

section

variable {s : State} {who : Requester}

/-! ### The request -/

theorem exec_echCommit : exec (.echCommit who) s = .next (requestCommit false false s) :=
  congrArg Host.Outcome.next ((writeReg_ech who (mkFld 30 2 3) s (by decide)).trans rfl)

theorem echCommit_pends (hflash : commitsFlash s = true) (hpend : s.ev.commit.pending = false) : Completes (.echCommit who) s fun t =>
    t.ev = { s.ev with commit := { s.ev.commit with pending := true, repairOnly := false, auto := false } } ∧ OnlyChanges [.ev] s t := by
  have hrequest : requestCommit false false s = s.modEv fun e => { e with commit := { s.ev.commit with pending := true, repairOnly := false, auto := false } } := by
    rw [requestCommit, hflash, if_neg (by decide)]
    simp [State.modEv, hpend]
  exact ⟨_, exec_echCommit.trans (congrArg Host.Outcome.next hrequest), rfl, onlyChanges_modEv s _⟩

/-- A commit that fails (R776). -/
theorem commitFails_spec (result : Nat) : (commitFails result s).ev.commit = { s.ev.commit with lastRes := result } ∧
    (commitFails result s).ev.sectors = s.ev.sectors ∧ Raised s (commitFails result s) 0x0E06 [result] := by
  unfold commitFails
  refine ⟨?_, ?_, (raised_raise ..).before (State.modEv_within (s := s))⟩
  · rw [raise_ev]
    rfl
  · rw [raise_ev]
    rfl

theorem echCommit_noFlash (hflash : commitsFlash s = false) : Completes (.echCommit who) s fun t =>
    t.ev.commit = { s.ev.commit with lastRes := 2 } ∧ Raised s t 0x0E06 [2] ∧ OnlyChanges events s t := by
  have hrequest : requestCommit false false s = commitFails 2 s := by rw [requestCommit, hflash]; rfl
  obtain ⟨hcommit, -, hraised⟩ := commitFails_spec (s := s) 2
  exact ⟨_, exec_echCommit.trans (congrArg Host.Outcome.next hrequest), hcommit, hraised, commitFails_within.frame⟩

/-! ### The start -/

/-- Where no sector is retired or near its limit, none is retired by a commit's start (R680). -/
theorem retireWorn_eq (h : ∀ x ∈ s.ev.sectors, x.retired = false ∧ x.erases < 100000) : retireWorn s = s := by
  refine forEach_eq_self fun i hi => if_neg fun hworn => ?_
  have hlt : i < s.ev.sectors.length := by
    obtain ⟨k, hk, rfl⟩ := List.mem_map.1 hi
    exact Nat.mod_lt _ (by have := List.mem_range.1 hk; omega)
  have herases := (h _ (List.getElem_mem hlt)).2
  have hget : s.ev.sectors.getD i {} = s.ev.sectors[i] := List.getD_eq_getElem _ _ hlt
  rw [hget] at hworn
  omega

theorem usable_some (hne : s.ev.sectors ≠ []) (h : ∀ x ∈ s.ev.sectors, x.retired = false ∧ x.erases < 100000) :
    (List.range s.ev.sectors.length).any (usableSector s) = true := by
  have hlt : 0 < s.ev.sectors.length := List.length_pos_iff.2 hne
  refine List.any_eq_true.2 ⟨0, List.mem_range.2 hlt, ?_⟩
  rw [usableSector, List.getD_eq_getElem _ _ hlt, (h _ (List.getElem_mem hlt)).1]
  rfl

/-- A sector is erased and programmed (R679, R680). -/
def programs (bytes : List Byte) (p : Nat × Nat) (s : State) : State :=
  let er := (s.ev.sectors.getD p.2 {}).erases + 1
  let s := s.modEv fun e => { e with sectors := e.sectors.set p.2 { erases := er } }
  (s.send (.flash 1 p.2 [])).send (.flash 2 p.2 (sectorHeader er ++ (bytes.drop (65504 * p.1)).take 65504))

theorem programs_within (bytes : List Byte) (p : Nat × Nat) : Within [.ev, .out] s (programs bytes p s) :=
  ((State.modEv_within (s := s)).mono (l := [.ev, .out])).step State.send_within |>.step State.send_within

/-- The sectors that a commit without the ring takes. -/
def sectorsNeeded (s : State) : Nat := ceilDiv (commitLength s s.ev.commit.repairOnly false) 65504

/-- The state once a commit has programmed its sectors. -/
def programmed (secs : List Nat) (s : State) : State :=
  forEach (withPos secs) (programs (commitBytes s (sectorsNeeded s) s.ev.commit.repairOnly false s.ev.commit.auto)) s

theorem programmed_within (secs : List Nat) : Within [.ev, .out] s (programmed secs s) := .forEach fun p _ => programs_within _ p

theorem programmed_commit (secs : List Nat) : (programmed secs s).ev.commit = s.ev.commit :=
  forEach_same (fun w => w.ev.commit) _ _ s fun _ _ => rfl

section

variable (hmay : commitMayStart s = true) (hne : s.ev.sectors ≠ []) (hgood : ∀ x ∈ s.ev.sectors, x.retired = false ∧ x.erases < 100000)
  (hring : s.ev.ringState ≠ 2)

include hmay hne hgood hring

theorem commitStart_noSpace (h : (freeSectors s).length < sectorsNeeded s) : Completes .echoCommitStart s fun t =>
      t.ev.commit = { s.ev.commit with pending := false, stopped := false, lastRes := 3 } ∧ Raised s t 0x0E06 [3] ∧ OnlyChanges events s t := by
  have hexec : exec .echoCommitStart s = .next (dropCommit 3 s) := by
    have hexec : exec .echoCommitStart s = execEchoCommitStart s := rfl
    have hnoring : (s.ev.ringState == 2 && !s.ev.commit.repairOnly) = false := by simp [hring]
    rw [hexec, execEchoCommitStart, hmay, if_neg (by decide), retireWorn_eq hgood]
    dsimp only
    rw [usable_some hne hgood, if_neg (by decide), hnoring, if_pos]
    · rfl
    · rw [List.length_take]
      exact lt_of_le_of_lt (Nat.min_le_right ..) h
  obtain ⟨hcommit, -, hraised⟩ := commitFails_spec (s := s.modEv fun e => { e with commit := { e.commit with pending := false, stopped := false } }) 3
  exact ⟨_, hexec, hcommit, hraised.before (State.modEv_within (s := s)), dropCommit_within.frame⟩

theorem commitStart_writes (hreps : (repairEntries s).length ≤ 8192) (h : sectorsNeeded s ≤ (freeSectors s).length) :
    Completes .echoCommitStart s fun t =>
      t.ev.commit.writing = true ∧ t.ev.commit.pending = false ∧
      t.ev.commit.sectors = (freeSectors s).take (sectorsNeeded s) ∧
      t.ev.commit.carriesLog = !s.ev.commit.repairOnly ∧ t.ev.commit.carriesRing = false ∧
      t.cfg.flashOps = s.cfg.flashOps + 1 ∧ OnlyChanges [.ev, .cfg, .out] s t := by
  obtain ⟨secs, hsecs⟩ : ∃ l, (freeSectors s).take (sectorsNeeded s) = l := ⟨_, rfl⟩
  obtain ⟨u, hu⟩ : ∃ u, programmed secs s = u := ⟨_, rfl⟩
  have hexec : exec .echoCommitStart s = .next ((u.modCfg fun g => { g with flashOps := g.flashOps + 1 }).modEv
      fun e => { e with commit := { e.commit with
        pending := false, stopped := false, writing := true, sectors := secs, carriesRing := false,
        carriesLog := !s.ev.commit.repairOnly, onlyRepair := s.ev.commit.repairOnly, cols := u.fab.unrecorded, softs := u.grt.unrecorded } }) := by
    have hexec : exec .echoCommitStart s = execEchoCommitStart s := rfl
    have hnoring : (s.ev.ringState == 2 && !s.ev.commit.repairOnly) = false := by simp [hring]
    have hall : ¬((freeSectors s).take (sectorsNeeded s)).length < sectorsNeeded s := by
      rw [List.length_take]
      omega
    rw [hexec, execEchoCommitStart, hmay, if_neg (by decide), retireWorn_eq hgood]
    dsimp only
    rw [usable_some hne hgood, if_neg (by decide), hnoring]
    change (if ((freeSectors s).take (sectorsNeeded s)).length < sectorsNeeded s then _ else _) = _
    rw [if_neg hall, if_pos (by omega), ← hu, ← hsecs]
    rfl
  have hsu : Within [.ev, .out] s u := hu ▸ programmed_within secs
  have hcfg : u.cfg = s.cfg := hsu.frame .cfg (by decide)
  refine ⟨_, hexec, rfl, rfl, hsecs.symm, rfl, rfl, ?_, (hsu.frame.mono (by decide)).trans ?_⟩
  · exact congrArg (fun g => g.flashOps + 1) hcfg
  · exact (State.modCfg_within.frame.mono (by decide)).trans ((onlyChanges_modEv _ _).mono (by decide))

end

/-! ### The end -/

theorem echoCommitEnd_done (hwrite : s.ev.commit.writing = true) (hrearm : s.ev.commit.rearmLater = false)
    (hclear : s.ev.commit.clearLater = false) : Completes (.echoCommitEnd none) s fun t =>
      t.ev.commit.writing = false ∧ t.ev.commit.lastRes = 1 ∧ t.ev.commit.done = (s.ev.commit.done + 1) % 65536 ∧
      t.ev.cseq = (s.ev.cseq + 1) % 2 ^ 32 ∧ t.ev.usedSectors = s.ev.commit.sectors ∧
      t.fab.unrecorded = s.fab.unrecorded.filter (fun p => !s.ev.commit.cols.contains p) ∧
      Raised s t 0x0E05 [(s.ev.cseq + 1) % 2 ^ 32, s.ev.commit.sectors.length, b2n s.ev.commit.onlyRepair] ∧
      OnlyChanges (.cfg :: .fab :: .grt :: events) s t := by
  obtain ⟨u, hu⟩ : ∃ u, ((s.modEv fun e =>
      { e with cseq := (e.cseq + 1) % 2 ^ 32, lastSector := s.ev.commit.sectors.getLastD 0, usedSectors := s.ev.commit.sectors,
               commit := { e.commit with lastRes := 1, done := (e.commit.done + 1) % 65536 } }).modFab fun f =>
      { f with unrecorded := f.unrecorded.filter fun p => !s.ev.commit.cols.contains p }).modGrt (fun g =>
      { g with unrecorded := g.unrecorded.filter fun p => !s.ev.commit.softs.contains p }) = u := ⟨_, rfl⟩
  obtain ⟨w, hw⟩ : ∃ w, raise 0x0E05 [(s.ev.cseq + 1) % 2 ^ 32, s.ev.commit.sectors.length, b2n s.ev.commit.onlyRepair] u = w := ⟨_, rfl⟩
  have hexec : exec (.echoCommitEnd none) s = .next (commitOver w) := by
    have hexec : exec (.echoCommitEnd none) s = execEchoCommitEnd none s := rfl
    rw [hexec, execEchoCommitEnd, hwrite, if_neg (by decide), ← hw, ← hu]
    rfl
  have hwev : w.ev = { u.ev with raised := w.ev.raised } := by
    rw [← hw, raise_ev]
  have hwcommit : w.ev.commit = { s.ev.commit with lastRes := 1, done := (s.ev.commit.done + 1) % 65536 } := by
    rw [hwev, ← hu]
    rfl
  have hover : commitOver w = (w.modCfg fun g => { g with flashOps := g.flashOps - 1 }).modEv fun e =>
      { e with commit := { e.commit with writing := false, carriesRing := false, carriesLog := false, rearmLater := false,
                                         clearLater := false, sectors := [], cols := [], softs := [] } } := by
    unfold commitOver
    rw [hwcommit]
    dsimp only
    rw [hrearm, hclear, if_neg Bool.false_ne_true, if_neg Bool.false_ne_true]
  have hraised : Raised u w 0x0E05 [(s.ev.cseq + 1) % 2 ^ 32, s.ev.commit.sectors.length, b2n s.ev.commit.onlyRepair] := hw ▸ raised_raise ..
  have hnow : u.now = s.now := hu ▸ rfl
  rw [Raised, hnow] at hraised
  have hfab : w.fab = u.fab := hw ▸ raise_fab ..
  have hsu : OnlyChanges (.cfg :: .fab :: .grt :: events) s u := by
    rw [← hu]
    exact ((onlyChanges_modEv s _).mono (by decide)).trans ((State.modFab_within.frame.mono (by decide)).trans
      ((onlyChanges_modGrt _ _).mono (by decide)))
  have huw : OnlyChanges (.cfg :: .fab :: .grt :: events) u w := hw ▸ raise_within.frame.mono (by decide)
  rw [hover] at hexec
  refine ⟨_, hexec, rfl, (congrArg EchoCommit.lastRes hwcommit), congrArg EchoCommit.done hwcommit, ?_, ?_, ?_, hraised, ?_⟩
  · refine (congrArg Echo.cseq hwev).trans ?_
    rw [← hu]
    rfl
  · refine (congrArg Echo.usedSectors hwev).trans ?_
    rw [← hu]
    rfl
  · refine (congrArg Fabric.unrecorded hfab).trans ?_
    rw [← hu]
    rfl
  · exact (hsu.trans huw).trans ((State.modCfg_within.frame.mono (by decide)).trans ((onlyChanges_modEv _ _).mono (by decide)))

/-! ### A sector that fails -/

theorem retireSector_spec (i cause : Nat) : (retireSector i cause s).ev.sectors = s.ev.sectors.set i { s.ev.sectors.getD i {} with retired := true } ∧
    Raised s (retireSector i cause s) 0x0E07 [i, (s.ev.sectors.getD i {}).erases, cause] := by
  have hsent : Within [.ev, .out] s ((s.modEv fun e => { e with sectors := e.sectors.set i { s.ev.sectors.getD i {} with retired := true } }).send (.flash 4 i [])) :=
    (State.modEv_within (s := s)).mono (l := [.ev, .out]) |>.step State.send_within
  refine ⟨?_, (raised_raise ..).before hsent⟩
  rw [retireSector, raise_ev]
  rfl

theorem retireSector_retired {i : Nat} (cause : Nat) (hi : i < s.ev.sectors.length) :
    ((retireSector i cause s).ev.sectors.getD i {}).retired = true := by
  rw [(retireSector_spec i cause).1, List.getD_eq_getElem _ _ (by rw [List.length_set]; exact hi), List.getElem_set_self]

theorem rearm_sectors : (rearm s).ev.sectors = s.ev.sectors := by
  unfold rearm
  split
  · rfl
  · split <;> rfl

theorem clearLog_sectors : (clearLog s).ev.sectors = s.ev.sectors := by
  unfold clearLog
  split <;> rfl

theorem commitOver_sectors : (commitOver s).ev.sectors = s.ev.sectors := by
  unfold commitOver
  dsimp only
  split
  · rw [clearLog_sectors]
    split
    · exact rearm_sectors
    · rfl
  · split
    · exact rearm_sectors
    · rfl

theorem tellExhausted_sectors : (tellExhausted s).ev.sectors = s.ev.sectors := by
  unfold tellExhausted
  split
  · rfl
  · rw [raise_ev]
    rfl

/-- The next free sector takes the part of one that failed. -/
def takesPart (i k : Nat) (s : State) : State :=
  let er := (s.ev.sectors.getD k {}).erases + 1
  let s := (s.send (.flash 1 k [])).send (.flash 2 k (sectorHeader er))
  s.modEv fun e => { e with sectors := e.sectors.set k { erases := er },
                            commit := { e.commit with sectors := e.commit.sectors.map fun x => if x = i then k else x } }

/-- With no free sector left the commit ends. -/
def endsShort (s : State) : State :=
  let s := commitOver s
  if (List.range s.ev.sectors.length).any (usableSector s) then commitFails 3 s else commitFails 4 (tellExhausted s)

theorem takesPart_within (i k : Nat) : Within [.ev, .out] s (takesPart i k s) := by
  unfold takesPart
  exact (State.send_within (s := s)).mono (l := [.ev, .out]) |>.step State.send_within |>.step State.modEv_within

theorem endsShort_within : Within (.cfg :: events) s (endsShort s) := by
  unfold endsShort
  exact commitOver_within.mono.trans (.ite commitFails_within.mono (tellExhausted_within.mono.step commitFails_within))

theorem endsShort_sectors : (endsShort s).ev.sectors = s.ev.sectors := by
  unfold endsShort
  dsimp only
  split
  · rw [(commitFails_spec 3).2.1, commitOver_sectors]
  · rw [(commitFails_spec 4).2.1, tellExhausted_sectors, commitOver_sectors]

theorem takesPart_retired {i k : Nat} (hk : k ≠ i) (h : (s.ev.sectors.getD i {}).retired = true) :
    ((takesPart i k s).ev.sectors.getD i {}).retired = true := by
  change ((s.ev.sectors.set k _).getD i {}).retired = true
  rw [List.getD_eq_getElem?_getD, List.getElem?_set_ne hk, ← List.getD_eq_getElem?_getD]
  exact h

theorem echoCommitEnd_fails (i : BitVec 12) (hwrite : s.ev.commit.writing = true) (hi : i.toNat ∈ s.ev.commit.sectors)
    (hlt : i.toNat < s.ev.sectors.length) : Completes (.echoCommitEnd (some i)) s fun t =>
      (t.ev.sectors.getD i.toNat {}).retired = true ∧ Raised s t 0x0E07 [i.toNat, (s.ev.sectors.getD i.toNat {}).erases, 2] ∧
      OnlyChanges (.cfg :: events) s t := by
  obtain ⟨u, hu⟩ : ∃ u, retireSector i.toNat 2 s = u := ⟨_, rfl⟩
  have hretired : (u.ev.sectors.getD i.toNat {}).retired = true := hu ▸ retireSector_retired 2 hlt
  have hraised : Raised s u 0x0E07 [i.toNat, (s.ev.sectors.getD i.toNat {}).erases, 2] := hu ▸ (retireSector_spec i.toNat 2).2
  have hframe : OnlyChanges (.cfg :: events) s u := hu ▸ retireSector_within.frame.mono (by decide)
  have hexec : exec (.echoCommitEnd (some i)) s = execEchoCommitEnd (some i) s := rfl
  rw [execEchoCommitEnd, hwrite, if_neg (by decide)] at hexec
  dsimp only at hexec
  rw [if_neg (by simpa using hi), hu] at hexec
  cases hfree : (freeSectors u).filter fun k => !s.ev.commit.sectors.contains k with
  | nil =>
    rw [hfree] at hexec
    have hend : exec (.echoCommitEnd (some i)) s = .next (endsShort u) := by
      rw [hexec, endsShort]
      dsimp only
      split <;> rfl
    refine ⟨_, hend, ?_, hraised.within endsShort_within, hframe.trans endsShort_within.frame⟩
    rw [endsShort_sectors]
    exact hretired
  | cons k l =>
    rw [hfree] at hexec
    have hk : k ≠ i.toNat := fun heq => by
      have hmem : k ∈ (freeSectors u).filter fun k => !s.ev.commit.sectors.contains k := hfree ▸ List.mem_cons_self
      have hnot := (List.mem_filter.1 hmem).2
      rw [heq] at hnot
      simp [hi] at hnot
    exact ⟨takesPart i.toNat k u, hexec, takesPart_retired hk hretired, hraised.within (takesPart_within _ _),
      hframe.trans ((takesPart_within _ _).frame.mono (by decide))⟩

/-! ### Reads that capture -/

theorem rdata0Read_captures (hcode : (recordAt s).code ≠ 0) : Completes (.rdata0Read who) s fun t =>
    tabGet [] t.ev.capture (Requester.code who) =
      ((List.range 16).map fun k => ofLeBytes (((recordBytes (recordAt s)).drop (4 * k)).take 4)) ∧
    t.out = s.out ++ [.reply who 0xD_0040 (BitVec.ofNat 32 (ofLeBytes ((recordBytes (recordAt s)).take 4))) 0] ∧
    OnlyChanges [.ev, .out] s t := by
  obtain ⟨words, hwords⟩ : ∃ l, ((List.range 16).map fun k => ofLeBytes (((recordBytes (recordAt s)).drop (4 * k)).take 4)) = l := ⟨_, rfl⟩
  have hcapture : captureRecord (Requester.code who) s = s.modEv fun e => { e with capture := tabSet [] e.capture (Requester.code who) words } := by
    rw [captureRecord, if_neg hcode, hwords]
  obtain ⟨u, hu⟩ : ∃ u, s.modEv (fun e => { e with capture := tabSet [] e.capture (Requester.code who) words }) = u := ⟨_, rfl⟩
  have hgot : tabGet [] u.ev.capture (Requester.code who) = words := by
    rw [← hu]
    exact tabGet_tabSet_same ([] : List Nat) s.ev.capture (Requester.code who) words
  have hlive : readLive (Requester.code who) u 0xD_0040 = BitVec.ofNat 32 ((tabGet [] u.ev.capture (Requester.code who)).getD 0 0) := rfl
  have hfirst : words.getD 0 0 = ofLeBytes ((recordBytes (recordAt s)).take 4) := by
    rw [← hwords]
    rfl
  have hread : readReg (Requester.code who) 0xD_0040 s = (readLive (Requester.code who) u 0xD_0040, u) := by
    rw [← hu, ← hcapture]
    rfl
  have hexec : exec (.rdata0Read who) s = .next (reply who 0xD_0040 (BitVec.ofNat 32 (ofLeBytes ((recordBytes (recordAt s)).take 4))) u) := by
    have hexec : exec (.rdata0Read who) s = .next (read32 who 0xD_0040 s) := rfl
    have hopen : accessStopped s 0xD_0040 = false := rfl
    rw [hexec, read32, hopen, if_neg Bool.false_ne_true, hread, hlive, hgot, hfirst]
  refine ⟨_, hexec, hgot.trans hwords.symm, ?_, ?_⟩
  · rw [← hu]
    rfl
  · rw [← hu]
    exact ((onlyChanges_modEv s _).mono (by decide)).trans (onlyChanges_send _ _ (by decide))

theorem cvalLoRead_captures : Completes (.cvalLoRead who) s fun t =>
    t.out = s.out ++ [.reply who 0xD_0038 (counterShown s).1 0] ∧
    findHalf t.captures (Requester.code who) 0xD_003C = some (counterShown s).2 ∧ OnlyChanges [.captures, .out] s t := by
  have hexec : exec (.cvalLoRead who) s = .next (reply who 0xD_0038 (counterShown s).1 (holdCapture (Requester.code who) 0xD_003C (counterShown s).2 s)) := rfl
  refine ⟨_, hexec, rfl, ?_, ?_⟩
  · simp [findHalf, holdCapture, reply, State.send]
  · exact (holdCapture_within.frame.mono (by decide)).trans (onlyChanges_send _ _ (by decide))

end

/-- Settles O54, by the request for a commit, its start and its ends, and the reads that capture. -/
theorem commitsToFlash : Obligations.CommitsToFlash := by
  unfold Obligations.CommitsToFlash
  exact fun s who hrole => ⟨fun hflash hpend => echCommit_pends hflash hpend, fun hflash => echCommit_noFlash hflash,
    fun hmay hne hgood hring hreps => ⟨fun h => commitStart_writes hmay hne hgood hring hreps h, fun h => commitStart_noSpace hmay hne hgood hring h⟩,
    fun hwrite => ⟨fun hrearm hclear => echoCommitEnd_done hwrite hrearm hclear, fun i hi hlt => echoCommitEnd_fails i hwrite hi hlt⟩,
    fun hcode => rdata0Read_captures hcode, cvalLoRead_captures⟩

end Sys2Proof

/-! The supervisor's frames (R640, R656, R657, Table Lysata-10). -/

namespace Sys2Proof

open Sys2Proof.Machine

section

variable {s : State} {m : List Byte}

/-- The address of a frame, at its register. -/
def spiAddr (m : List Byte) : Nat := ofBeBytes ((m.drop 1).take 4) - ofBeBytes ((m.drop 1).take 4) % 4

theorem spiAddr_of_aligned {a : Nat} (h : ofBeBytes ((m.drop 1).take 4) = a) (ha : a % 4 = 0) : spiAddr m = a := by
  rw [spiAddr, h, ha, Nat.sub_zero]

/-- A frame that reaches its last byte is answered. -/
theorem spiReply_whole (hlen : 16 ≤ m.length) (st : Nat) (data : Word) (u : State) : spiReply m.length st data u =
    u.send (.spi (leBytes 1 st ++ beBytes data ++ leBytes 1 (spiCrc (leBytes 1 st ++ beBytes data)))) := if_neg (by omega)

theorem spiFrame_badCrc (hlen : 16 ≤ m.length) (hop : fb m 0 = 0x0B) (hcrc : spiCrc (m.take 5) ≠ fb m 5) :
    spiFrame m s = spiReply m.length 1 0 s := by
  unfold spiFrame
  dsimp only
  rw [if_pos hop, if_neg (by omega), if_pos hcrc]

theorem spiFrame_read (hlen : 16 ≤ m.length) (hop : fb m 0 = 0x0B) (hcrc : spiCrc (m.take 5) = fb m 5) :
    spiFrame m s = spiReply m.length (spiAccess false (spiAddr m) 0 s).1.1 (spiAccess false (spiAddr m) 0 s).1.2 (spiAccess false (spiAddr m) 0 s).2 := by
  unfold spiFrame
  dsimp only
  rw [if_pos hop, if_neg (by omega), if_neg (not_not.2 hcrc)]
  rfl

theorem spiFrame_write (hlen : 16 ≤ m.length) (hop : fb m 0 = 0x02) (hcrc : spiCrc (m.take 9) = fb m 9) {p : (Nat × Word) × State}
    (hp : spiAccess true (spiAddr m) (BitVec.ofNat 32 (ofBeBytes ((m.drop 5).take 4))) s = p) :
    spiFrame m s = spiReply m.length p.1.1 p.1.2 p.2 := by
  rw [← hp]
  unfold spiFrame
  dsimp only
  rw [if_neg (by omega), if_pos hop, if_neg (by omega), if_neg (not_not.2 hcrc)]
  rfl

theorem spiAccess_outside (write : Bool) {addr : Nat} (h : 0x20_0000 ≤ addr) (val : Word) : spiAccess write addr val s = ((3, 0), s) := if_pos h

theorem spiAccess_unpowered (write : Bool) {addr : Nat} (h : addr < 0x20_0000) (hoff : blockPowered s addr = false) (val : Word) :
    spiAccess write addr val s = ((5, 0), s) := by
  rw [spiAccess, if_neg (by omega), hoff]
  rfl

theorem spiAccess_write {addr : Nat} (h : addr < 0x20_0000) (hon : blockPowered s addr = true) (val : Word) :
    spiAccess true addr val s = ((if refusals s < refusals (writeReg .supervisor addr 0xF val s) then 4 else 0, 0), writeReg .supervisor addr 0xF val s) := by
  rw [spiAccess, if_neg (by omega), hon]
  rfl

theorem spiAccess_read {addr : Nat} (h : addr < 0x20_0000) (hon : blockPowered s addr = true) :
    spiAccess false addr 0 s = ((0, (readReg 2 addr s).1), (readReg 2 addr s).2) := by
  rw [spiAccess, if_neg (by omega), hon]
  rfl

/-- A DEV register is what it is. -/
theorem readReg_dev (who : Nat) {off : Nat} (hoff : off < 0x1_0000) : readReg who off s = (devRead off, s) := by
  have hdesc : regDesc off = {} := if_pos (by omega)
  have hlive : readLive who s off = devRead off := if_pos hoff
  have hsdata : isSdata off = false := by
    simp [isSdata]
    omega
  unfold readReg
  rw [hdesc, hlive, if_neg (by decide), if_neg (by decide), if_neg (by omega), if_neg (by omega), if_neg (by omega), hsdata,
    if_neg Bool.false_ne_true, if_neg (by omega)]

/-- The block of the queues answers in P0 to P2. -/
theorem blockPowered_of_low (h : s.pstate ≤ 2) (addr : Nat) : blockPowered s addr = true := by simp [blockPowered, h]

theorem spiRead_spec (hlen : 16 ≤ m.length) (hop : fb m 0 = 0x0B) :
    (spiCrc (m.take 5) ≠ fb m 5 → Completes (.spiReadFrame m) s fun t =>
      t.out = s.out ++ [.spi ([1, 0, 0, 0, 0] ++ leBytes 1 (spiCrc [1, 0, 0, 0, 0]))] ∧ OnlyChanges [.out] s t) ∧
    (spiCrc (m.take 5) = fb m 5 → ∀ a, ofBeBytes ((m.drop 1).take 4) = 4 * a → a < 0x4000 → s.pstate ≤ 2 →
      Completes (.spiReadFrame m) s fun t =>
      t.out = s.out ++ [.spi (([0] : List Byte) ++ beBytes (devRead (4 * a)) ++ leBytes 1 (spiCrc (([0] : List Byte) ++ beBytes (devRead (4 * a)))))] ∧
      OnlyChanges [.out] s t) ∧
    (spiCrc (m.take 5) = fb m 5 → 0x20_0000 ≤ ofBeBytes ((m.drop 1).take 4) → Completes (.spiReadFrame m) s fun t =>
      t.out = s.out ++ [.spi ([3, 0, 0, 0, 0] ++ leBytes 1 (spiCrc [3, 0, 0, 0, 0]))] ∧ OnlyChanges [.out] s t) := by
  have hexec : exec (.spiReadFrame m) s = .next (spiFrame m s) := rfl
  refine ⟨fun hcrc => ?_, fun hcrc a ha hlt hp => ?_, fun hcrc ha => ?_⟩
  · rw [spiFrame_badCrc hlen hop hcrc, spiReply_whole hlen] at hexec
    exact ⟨_, hexec, rfl, State.send_within.frame⟩
  · rw [spiFrame_read hlen hop hcrc, spiAddr_of_aligned ha (by omega), spiAccess_read (by omega) (blockPowered_of_low hp _), readReg_dev 2 (by omega : 4 * a < 0x1_0000),
      spiReply_whole hlen] at hexec
    exact ⟨_, hexec, rfl, State.send_within.frame⟩
  · rw [spiFrame_read hlen hop hcrc, spiAccess_outside false (by unfold spiAddr; omega), spiReply_whole hlen] at hexec
    dsimp only at hexec
    rw [show leBytes 1 3 ++ beBytes 0 = [3, 0, 0, 0, 0] from rfl] at hexec
    exact ⟨_, hexec, rfl, State.send_within.frame⟩

section

variable (hlen : 16 ≤ m.length) (hop : fb m 0 = 0x02) (hcrc : spiCrc (m.take 9) = fb m 9)

include hlen hop hcrc

/-- A write frame is the register write of the supervisor, and its answer says whether that write was refused. -/
theorem spiWrite_exec {addr : Nat} (ha : ofBeBytes ((m.drop 1).take 4) = addr) (halign : addr % 4 = 0) (hlt : addr < 0x20_0000)
    (hon : blockPowered s addr = true) {u : State} (hu : writeReg .supervisor addr 0xF (BitVec.ofNat 32 (ofBeBytes ((m.drop 5).take 4))) s = u) :
    exec (.spiWriteFrame m) s = .next (u.send (.spi (leBytes 1 (if refusals s < refusals u then 4 else 0) ++ beBytes 0 ++
      leBytes 1 (spiCrc (leBytes 1 (if refusals s < refusals u then 4 else 0) ++ beBytes 0))))) := by
  have hexec : exec (.spiWriteFrame m) s = .next (spiFrame m s) := rfl
  have haccess := spiAccess_write hlt hon (BitVec.ofNat 32 (ofBeBytes ((m.drop 5).take 4)))
  rw [hu] at haccess
  rw [hexec, spiFrame_write hlen hop hcrc ((congrArg (fun x => spiAccess true x _ s) (spiAddr_of_aligned ha halign)).trans haccess),
    spiReply_whole hlen]

theorem spiWrite_unpowered {a : Nat} (ha : ofBeBytes ((m.drop 1).take 4) = 4 * a) (hlt : a < 0x8_0000) (hp : 2 < s.pstate)
    (hblock : alwaysOn (4 * a) = false) : Completes (.spiWriteFrame m) s fun t =>
      t.out = s.out ++ [.spi ([5, 0, 0, 0, 0] ++ leBytes 1 (spiCrc [5, 0, 0, 0, 0]))] ∧ OnlyChanges [.out] s t := by
  have hexec : exec (.spiWriteFrame m) s = .next (spiFrame m s) := rfl
  have hoff : blockPowered s (4 * a) = false := by simp [blockPowered, hblock, hp]
  rw [spiFrame_write hlen hop hcrc ((congrArg (fun x => spiAccess true x _ s) (spiAddr_of_aligned ha (by omega))).trans
    (spiAccess_unpowered true (by omega) hoff _)), spiReply_whole hlen] at hexec
  dsimp only at hexec
  rw [show leBytes 1 5 ++ beBytes 0 = [5, 0, 0, 0, 0] from rfl] at hexec
  exact ⟨_, hexec, rfl, State.send_within.frame⟩

theorem spiWrite_effect {a : Nat} (ha : ofBeBytes ((m.drop 1).take 4) = 4 * a) (hlt : a < 0x8_0000) {u : State} (hon : blockPowered s (4 * a) = true)
    (hu : exec (.registerWrite .supervisor (4 * a) 0xF (BitVec.ofNat 32 (ofBeBytes ((m.drop 5).take 4)))) s = .next u) :
    (refusals u ≤ refusals s → Completes (.spiWriteFrame m) s fun t => t = u.send (.spi ([0, 0, 0, 0, 0] ++ leBytes 1 (spiCrc [0, 0, 0, 0, 0])))) ∧
    (refusals s < refusals u → Completes (.spiWriteFrame m) s fun t => t = u.send (.spi ([4, 0, 0, 0, 0] ++ leBytes 1 (spiCrc [4, 0, 0, 0, 0])))) := by
  rw [exec_registerWrite (by omega : 4 * a < 0x20_0000)] at hu
  have hexec := spiWrite_exec hlen hop hcrc ha (by omega) (by omega) hon (Host.Outcome.next.inj hu)
  refine ⟨fun hle => ?_, fun hlt => ?_⟩
  · rw [if_neg (by omega)] at hexec
    exact ⟨_, hexec, rfl⟩
  · rw [if_pos hlt] at hexec
    exact ⟨_, hexec, rfl⟩

theorem spiWrite_stores {off : Nat} {val : Word} (ha : ofBeBytes ((m.drop 1).take 4) = off) (halign : off % 4 = 0)
    (hval : ofBeBytes ((m.drop 5).take 4) = val.toNat) (hlo : 0x8_0000 ≤ off) (hhi : off < 0x9_0000) (hctrl : off % 0x100 ≠ 0)
    (hpair : (regDesc off).pair = 0) (hrole : s.twn.role = 0) (hp : s.pstate ≤ 2) (hok : writeRefusal s 2 off 0 val = none) :
    Completes (.spiWriteFrame m) s fun t =>
      t.reg off = (s.reg off &&& ~~~(regDesc off).rw) ||| (val &&& (regDesc off).rw) ∧ (∀ o, o ≠ off → t.reg o = s.reg o) ∧
      t.out = s.out ++ [.spi ([0, 0, 0, 0, 0] ++ leBytes 1 (spiCrc [0, 0, 0, 0, 0]))] ∧ OnlyChanges [.regs, .out] s t := by
  have hwrite : writeReg .supervisor off 0xF (BitVec.ofNat 32 (ofBeBytes ((m.drop 5).take 4))) s = storeReg off val s := by
    rw [hval, BitVec.ofNat_toNat, BitVec.setWidth_eq, writeReg_plain .supervisor off val s (.inr hrole) (by omega) (by omega) hok (by omega),
      pinSequence_other .supervisor off s (by omega), performWrite_storesOnly (.inl ⟨hlo, hhi, hctrl⟩) hpair]
  have hexec := spiWrite_exec hlen hop hcrc ha halign (by omega) (blockPowered_of_low hp off) hwrite
  have hsame : ¬ refusals s < refusals (storeReg off val s) := by
    have hev : (storeReg off val s).ev = s.ev := storeReg_within.frame .ev (by decide)
    rw [refusals, refusals, hev]
    exact lt_irrefl _
  rw [if_neg hsame] at hexec
  exact ⟨_, hexec, storeReg_reg_same off val s, fun o ho => storeReg_reg_other ho val s, rfl,
    (storeReg_within.frame.mono (by decide)).trans (onlyChanges_send _ _ (by decide))⟩

end

end

/-- Settles O55, by what a frame's access gives and the frame that carries it. -/
theorem spiFramesAccessRegisters : Obligations.SpiFramesAccessRegisters := by
  unfold Obligations.SpiFramesAccessRegisters
  exact fun s m hlen => ⟨fun hop => spiRead_spec hlen hop,
    fun hop hcrc a ha hlt => ⟨fun hp hblock => spiWrite_unpowered hlen hop hcrc ha hlt hp hblock,
      fun u hon hu => spiWrite_effect hlen hop hcrc ha hlt hon hu⟩,
    fun hop hcrc off val ha halign hval hlo hhi hctrl hpair hrole hp hok => spiWrite_stores hlen hop hcrc ha halign hval hlo hhi hctrl hpair hrole hp hok⟩

end Sys2Proof

/-! The debug access port (R418, R419, R696, R703 to R705). -/

namespace Sys2Proof

open Sys2Proof.Machine

section

variable {s : State}

/-- What an operation of the debug port leaves in the pins once it has ended. -/
def dbgDone (st : Nat) (data : Word) (p : Pins) : Pins :=
  { p with dbgOp := none, dbgGrt := false, dbgIssued := 0, dbgTag := false, dbgStatus := st, dbgData := data }

theorem dbgFinish_eq (st : Nat) (data : Word) (u : State) : dbgFinish st data u = u.modPin (dbgDone st data) := rfl

theorem dbgFinish_frame (st : Nat) (data : Word) : OnlyChanges [.pin] s (dbgFinish st data s) := State.modPin_within.frame

/-- No debug operation is under way. -/
def DbgIdle (s : State) : Prop := s.pin.dbgOp = none ∧ s.pin.dbgGrt = false

theorem dbgDone_idle (h : DbgIdle s) (st : Nat) (data : Word) : dbgDone st data s.pin =
    { s.pin with dbgGrt := false, dbgIssued := 0, dbgTag := false, dbgStatus := st, dbgData := data } := by
  rw [dbgDone, ← h.1]

theorem dbgStart_locked (h : DbgIdle s) (hlock : s.cfg.debugLock = true) (f : State → State) : dbgStart false f s = dbgFinish 4 0 s := by
  rw [dbgStart, h.1, h.2, hlock]
  rfl

theorem dbgStart_free (h : DbgIdle s) (hlock : s.cfg.debugLock = false) (exempt : Bool) (f : State → State) : dbgStart exempt f s = f s := by
  rw [dbgStart, h.1, h.2, hlock]
  rfl

theorem dbg_locked (h : DbgIdle s) (hlock : s.cfg.debugLock = true) :
    (∀ (off : Nat) (val : Word), Completes (.dbgRegwr off val) s fun t =>
      t.pin = { s.pin with dbgGrt := false, dbgIssued := 0, dbgTag := false, dbgStatus := 4, dbgData := 0 } ∧ OnlyChanges [.pin] s t) ∧
    ∀ off : Nat, 0x1_0000 ≤ off → off < 0xD_0000 → Completes (.dbgRegrd off) s fun t =>
      t.pin = { s.pin with dbgGrt := false, dbgIssued := 0, dbgTag := false, dbgStatus := 4, dbgData := 0 } ∧ OnlyChanges [.pin] s t := by
  refine ⟨fun off val => ⟨_, congrArg Host.Outcome.next (dbgStart_locked h hlock _), dbgDone_idle h 4 0, dbgFinish_frame 4 0⟩, fun off hlo hhi => ?_⟩
  have hexempt : lockExempt off = false := by
    simp [lockExempt]
    omega
  have hexec : exec (.dbgRegrd off) s = execDbgRegrd off s := rfl
  rw [execDbgRegrd, hexempt] at hexec
  exact ⟨_, hexec.trans (congrArg Host.Outcome.next (dbgStart_locked h hlock _)), dbgDone_idle h 4 0, dbgFinish_frame 4 0⟩

/-! ### Registers -/

section

variable (h : DbgIdle s) (hlock : s.cfg.debugLock = false) (hp : s.pstate ≤ 2) (hrole : s.twn.role = 0)

include h hlock

theorem dbgNop_ends : Completes .dbgNop s fun t =>
      t.pin = { s.pin with dbgGrt := false, dbgIssued := 0, dbgTag := false, dbgStatus := 0, dbgData := 0 } ∧ OnlyChanges [.pin] s t :=
  ⟨_, congrArg Host.Outcome.next (dbgStart_free h hlock _ _), dbgDone_idle h 0 0, dbgFinish_frame 0 0⟩

theorem dbgBufrd_ends (a : Nat) : Completes (.dbgBufrd a) s fun t =>
      t.pin = { s.pin with dbgGrt := false, dbgIssued := 0, dbgTag := false, dbgStatus := 0,
                           dbgData := BitVec.ofNat 32 (ofLeBytes (fitBytes 4 (s.pin.dbgBuf.drop (a - a % 4)))) } ∧
      OnlyChanges [.pin] s t :=
  ⟨_, congrArg Host.Outcome.next (dbgStart_free h hlock _ _), dbgDone_idle h 0 _, dbgFinish_frame 0 _⟩

include hp

/-- A DEV register reads as what it is, whatever its offset in the block. -/
theorem dbgRegrd_dev {off : Nat} (hoff : off < 0x1_0000) : Completes (.dbgRegrd off) s fun t =>
      t.pin = { s.pin with dbgGrt := false, dbgIssued := 0, dbgTag := false, dbgStatus := 0, dbgData := devRead off } ∧ OnlyChanges [.pin] s t := by
  have hexec : exec (.dbgRegrd off) s = execDbgRegrd off s := rfl
  rw [execDbgRegrd, dbgStart_free h hlock] at hexec
  dsimp only at hexec
  rw [blockPowered_of_low hp, if_neg (by decide), readReg_dev 3 hoff] at hexec
  exact ⟨_, hexec, dbgDone_idle h 0 _, dbgFinish_frame 0 _⟩

include hrole

theorem exec_dbgRegwr (off : Nat) (val : Word) {u : State} (hu : writeReg .jtag off 0xF val s = u) : exec (.dbgRegwr off val) s =
    .next (dbgFinish (if refusals s < refusals u then 2 else 0) 0 u) := by
  have hexec : exec (.dbgRegwr off val) s = execDbgRegwr off val s := rfl
  rw [hexec, execDbgRegwr, dbgStart_free h hlock]
  dsimp only
  rw [blockPowered_of_low hp, if_neg (by decide), if_neg (by omega), hu]
  rfl

theorem dbgRegwr_effect {off : Nat} {val : Word} {u : State} (hoff : off < 0x20_0000) (hu : exec (.registerWrite .jtag off 0xF val) s = .next u) :
    (refusals u ≤ refusals s → Completes (.dbgRegwr off val) s fun t => t = dbgFinish 0 0 u) ∧
    (refusals s < refusals u → Completes (.dbgRegwr off val) s fun t => t = dbgFinish 2 0 u) := by
  rw [exec_registerWrite hoff] at hu
  have hexec := exec_dbgRegwr h hlock hp hrole off val (Host.Outcome.next.inj hu)
  refine ⟨fun hle => ?_, fun hlt => ?_⟩
  · rw [if_neg (by omega)] at hexec
    exact ⟨_, hexec, rfl⟩
  · rw [if_pos hlt] at hexec
    exact ⟨_, hexec, rfl⟩

theorem dbgRegwr_stores {off : Nat} {val : Word} (hlo : 0x8_0000 ≤ off) (hhi : off < 0x9_0000) (hctrl : off % 0x100 ≠ 0)
    (hpair : (regDesc off).pair = 0) (hok : writeRefusal s 3 off 0 val = none) : Completes (.dbgRegwr off val) s fun t =>
        t.reg off = (s.reg off &&& ~~~(regDesc off).rw) ||| (val &&& (regDesc off).rw) ∧ (∀ o, o ≠ off → t.reg o = s.reg o) ∧
        t.pin = { s.pin with dbgGrt := false, dbgIssued := 0, dbgTag := false, dbgStatus := 0, dbgData := 0 } ∧ OnlyChanges [.regs, .pin] s t := by
  have hwrite : writeReg .jtag off 0xF val s = storeReg off val s := by
    rw [writeReg_plain .jtag off val s (.inr hrole) (by omega) (by omega) hok (by omega), pinSequence_other .jtag off s (by omega),
      performWrite_storesOnly (.inl ⟨hlo, hhi, hctrl⟩) hpair]
  have hsame : ¬ refusals s < refusals (storeReg off val s) := by
    have hev : (storeReg off val s).ev = s.ev := storeReg_within.frame .ev (by decide)
    rw [refusals, refusals, hev]
    exact lt_irrefl _
  have hpin : (storeReg off val s).pin = s.pin := storeReg_within.frame .pin (by decide)
  have hexec := exec_dbgRegwr h hlock hp hrole off val hwrite
  rw [if_neg hsame] at hexec
  refine ⟨_, hexec, storeReg_reg_same off val s, fun o ho => storeReg_reg_other ho val s, ?_,
    (storeReg_within.frame.mono (by decide)).trans ((dbgFinish_frame 0 0).mono (by decide))⟩
  exact (congrArg (dbgDone 0 0) hpin).trans (dbgDone_idle h 0 0)

end

/-! ### Host reads -/

/-- A host read of the debug port that waits for its issue. -/
def dbgAsks (q : QueueId) (a : BitVec 64) (n : Nat) (dun : BitVec 64) (p : Pins) : Pins :=
  { p with dbgOp := some (q, a.toNat, n, dun.toNat), dbgIssued := 0, dbgStatus := 1, dbgData := 0 }

/-- A read within one page and one request is one read. -/
theorem requests_single {m addr len : Nat} (h1 : 1 ≤ len) (h : len ≤ m) : requests m addr len = [(addr, len)] := by
  have hceil : ceilDiv len m = 1 := by
    unfold ceilDiv
    rw [Nat.div_eq_of_lt_le] <;> omega
  rw [requests, hceil]
  simp [h]

/-- A tag that is free stays free when the debug port's own reads are over. -/
theorem hostTagFree_asks (hfree : hostTagFree s = true) (q : QueueId) (a : BitVec 64) (n : Nat) (dun : BitVec 64) :
    hostTagsFree 1 (s.modPin (dbgAsks q a n dun)) = true := by
  have hreads : hostReads (s.modPin (dbgAsks q a n dun)) + s.pin.dbgIssued = hostReads s := by
    simp only [hostReads, State.modPin, dbgAsks]
    omega
  have hres : ∀ c, tagRes (s.modPin (dbgAsks q a n dun)) c = tagRes s c := fun _ => rfl
  have hcap : tagCap (s.modPin (dbgAsks q a n dun)) 1 = tagCap s 1 := rfl
  have hissued : tagsIssued (s.modPin (dbgAsks q a n dun)) 3 = tagsIssued s 3 := rfl
  have hpool : sharedPool (s.modPin (dbgAsks q a n dun)) = sharedPool s := rfl
  unfold hostTagFree hostTagsFree at hfree
  unfold hostTagsFree
  simp only [Bool.and_eq_true, Bool.or_eq_true, decide_eq_true_eq, hres, hcap, hissued, hpool] at hfree ⊢
  omega

theorem dbgHostrd_asks (h : DbgIdle s) (hlock : s.cfg.debugLock = false) (hp : s.pstate ≤ 2) (hrole : s.twn.role = 0) {q : QueueId}
    {a : BitVec 64} {n : Nat} (dun : BitVec 64) (h1 : 1 ≤ n) (hmax : n ≤ s.pci.maxRead) (hpage : a.toNat % 4096 + n ≤ 4096)
    (hbypass : (s.qu q).bypass = true) (hmasters : s.masters = true) (hfree : hostTagFree s = true) : Completes (.dbgHostrd q a n dun) s fun t =>
        t.out = s.out ++ [.hostRead 5 q a.toNat n] ∧ t.pin.dbgStatus = 1 ∧ t.pin.dbgOp = some (q.val, a.toNat, n, dun.toNat) ∧
        t.pin.dbgIssued = 1 ∧ OnlyChanges [.pin, .out] s t := by
  obtain ⟨u, hu⟩ : ∃ u, s.modPin (dbgAsks q a n dun) = u := ⟨_, rfl⟩
  have hissue : dbgIssue u = (u.send (.hostRead 5 q a.toNat n)).modPin fun p => { p with dbgIssued := 1, dbgTag := false } := by
    have hop : u.pin.dbgOp = some (q.val, a.toNat, n, dun.toNat) := hu ▸ rfl
    have hissued : u.pin.dbgIssued = 0 := hu ▸ rfl
    have hdirect : HostDirect u q := ⟨hu ▸ hrole, hu ▸ hmasters, hu ▸ hbypass⟩
    have htags : hostTagsFree 1 u = true := hu ▸ hostTagFree_asks hfree q a n dun
    have hparts : pageParts a.toNat n = [(a.toNat, n)] := if_pos (by omega)
    have hrequests : requests u.pci.maxRead a.toNat n = [(a.toNat, n)] := requests_single h1 (hu ▸ hmax)
    unfold dbgIssue
    rw [hop]
    dsimp only
    rw [if_neg (by omega), hparts]
    simp only [List.foldl_cons, List.foldl_nil, hdirect.translateFor, List.nil_append, List.any_cons, List.any_nil, Bool.or_false,
      List.flatMap_cons, List.flatMap_nil, List.append_nil, hrequests, List.length_cons, List.length_nil, htags, forEach_cons, forEach_nil,
      hdirect.when]
    rfl
  have hexec : exec (.dbgHostrd q a n dun) s = .next (dbgIssue u) := by
    have hexec : exec (.dbgHostrd q a n dun) s = execDbgHostrd q a n dun s := rfl
    rw [hexec, execDbgHostrd, dbgStart_free h hlock]
    rw [if_neg (by omega), if_neg (by omega), if_neg (by omega), ← hu]
    rfl
  rw [hissue] at hexec
  refine ⟨_, hexec, ?_, ?_, ?_, rfl, ?_⟩
  · rw [← hu]
    rfl
  · rw [← hu]
    rfl
  · rw [← hu]
    rfl
  · rw [← hu]
    exact (State.modPin_within.frame.mono (by decide)).trans ((onlyChanges_send _ _ (by decide)).trans (State.modPin_within.frame.mono (by decide)))

end

end Sys2Proof

/-! The debug port at Grotto, and the host's bytes of a HOSTRD (R418, R419, R696, R705). -/

namespace Sys2Proof

open Sys2Proof.Machine

/-! ### Words of a line -/

/-- Whole bytes shifted away. -/
theorem ofLeBytes_shiftRight (l : List Byte) (j : Nat) : ofLeBytes l >>> (8 * j) = ofLeBytes (l.drop j) := by
  induction j generalizing l with
  | zero => rfl
  | succ j ih =>
    cases l with
    | nil => simp [ofLeBytes]
    | cons b t =>
      have hb := b.isLt
      have hdiv : (b.toNat + 256 * ofLeBytes t) >>> 8 = ofLeBytes t := by
        rw [Nat.shiftRight_eq_div_pow]
        omega
      rw [List.drop_succ_cons, ← ih t, ofLeBytes, show 8 * (j + 1) = 8 + 8 * j by omega, Nat.shiftRight_add, hdiv]

/-- The low bytes of a number. -/
theorem ofLeBytes_mod (l : List Byte) (n : Nat) : ofLeBytes l % 2 ^ (8 * n) = ofLeBytes (l.take n) := by
  induction n generalizing l with
  | zero => simp [Nat.mod_one, ofLeBytes]
  | succ n ih =>
    cases l with
    | nil => simp [ofLeBytes]
    | cons b t =>
      have hb := b.isLt
      have hpow : 2 ^ (8 * (n + 1)) = 256 * 2 ^ (8 * n) := by rw [Nat.mul_succ, Nat.pow_add, Nat.mul_comm]
      have hpos : 0 < 2 ^ (8 * n) := Nat.two_pow_pos _
      rw [List.take_succ_cons, ofLeBytes, ofLeBytes, ← ih t, hpow, Nat.mod_mul, Nat.add_mul_mod_self_left, Nat.mod_eq_of_lt (by omega),
        Nat.add_mul_div_left _ _ (by decide), Nat.div_eq_of_lt (by omega), Nat.zero_add]

theorem ofLeBytes_lt (l : List Byte) : ofLeBytes l < 2 ^ (8 * l.length) := by
  have h := ofLeBytes_mod l l.length
  rw [List.take_length] at h
  exact h ▸ Nat.mod_lt _ (Nat.two_pow_pos _)

/-- A 32-bit word of a line. -/
theorem lineWord (s : State) (w : Nat) :
    BitVec.ofNat 32 ((BitVec.ofNat 512 (ofLeBytes (lineBytes s (4 * w / 64)))).toNat >>> (8 * (4 * w % 64))) =
      BitVec.ofNat 32 (ofLeBytes ((List.range 4).map fun i => grottoByte s (4 * w + i))) := by
  have hlen : (lineBytes s (4 * w / 64)).length = 64 := by simp [lineBytes]
  have hlt := ofLeBytes_lt (lineBytes s (4 * w / 64))
  rw [hlen, show 8 * 64 = 512 from rfl] at hlt
  have hbytes : ((lineBytes s (4 * w / 64)).drop (4 * w % 64)).take 4 = (List.range 4).map fun i => grottoByte s (4 * w + i) := by
    refine List.ext_getElem (by simp [lineBytes]; omega) fun i hi hi' => ?_
    have hat : 64 * (4 * w / 64) + (4 * w % 64 + i) = 4 * w + i := by omega
    simp [lineBytes, hat]
  rw [BitVec.toNat_ofNat, Nat.mod_eq_of_lt hlt, ofLeBytes_shiftRight, ← hbytes, ← ofLeBytes_mod]
  refine BitVec.eq_of_toNat_eq ?_
  rw [BitVec.toNat_ofNat, BitVec.toNat_ofNat, Nat.mod_mod]

section

variable {s : State} (h : DbgIdle s) (hlock : s.cfg.debugLock = false) (hp : s.pstate ≤ 2) (hrole : s.twn.role = 0)

include h hlock hp hrole

/-- Grotto is closed to JTAG: the access is counted and refused (R419). -/
theorem dbgGrotto_closed (hopen : s.regB 0xA_0004 0 = false) (off : Nat) (val : Word) (bad : List Nat) :
    (Completes (.dbgGrtrd off bad) s fun t => t.pin.dbgStatus = 2 ∧ t.pin.dbgData = 0 ∧ OnlyChanges [.pin, .cry] s t) ∧
      (Completes (.dbgGrtwr off val bad) s fun t => t.pin.dbgStatus = 2 ∧ OnlyChanges [.pin, .cry] s t) := by
  have hframe : OnlyChanges [.pin, .cry] s (dbgFinish 2 0 (countDebug 1 s)) :=
    (State.modCry_within.frame.mono (by decide)).trans ((dbgFinish_frame 2 0).mono (by decide))
  have hread : exec (.dbgGrtrd off bad) s = .next (dbgFinish 2 0 (countDebug 1 s)) := by
    have hexec : exec (.dbgGrtrd off bad) s = execDbgGrtrd off bad s := rfl
    rw [hexec, execDbgGrtrd, dbgStart_free h hlock]
    rw [if_neg (by omega), if_neg (by omega), grottoOpen, hopen]
    rfl
  have hwrite : exec (.dbgGrtwr off val bad) s = .next (dbgFinish 2 0 (countDebug 1 s)) := by
    have hexec : exec (.dbgGrtwr off val bad) s = execDbgGrtwr off val bad s := rfl
    rw [hexec, execDbgGrtwr, dbgStart_free h hlock]
    rw [if_neg (by omega), if_neg (by omega), grottoOpen, hopen]
    rfl
  exact ⟨⟨_, hread, rfl, rfl, hframe⟩, _, hwrite, rfl, hframe⟩

theorem dbgGrtrd_reads {w : Nat} (hw : w < 0x0200_0000) (hopen : s.regB 0xA_0004 0 = true) (hquiet : quietGrotto s) :
    Completes (.dbgGrtrd (4 * w) []) s fun t =>
        t.pin.dbgStatus = 0 ∧ t.pin.dbgData = BitVec.ofNat 32 (ofLeBytes ((List.range 4).map fun i => grottoByte s (4 * w + i))) ∧
        (∀ a, grottoByte t a = grottoByte s a) ∧ OnlyChanges [.pin, .grt] s t := by
  have hread := accessLine_calm_read hquiet.calm (4 * w / 64) 2
  obtain ⟨hans, hside⟩ := sideAccess_calm hquiet.calm (l := 4 * w / 64) (op := 0) (be := 0) (data := 0) (p := fun _ => none)
    (by rw [hread]; exact Patched.refl 0 hquiet.calm)
  rw [hread] at hans
  obtain ⟨u, hu⟩ : ∃ u, (sideAccess 0 (4 * w / 64) 0 0 0 [] s).2 = u := ⟨_, rfl⟩
  rw [hu] at hside
  have hurole : u.twn.role = 0 := by rw [hside.frame .twn (by decide), hrole]
  have hgrotto : dbgGrotto (4 * w) [] s =
      dbgFinish 0 (BitVec.ofNat 32 (ofLeBytes ((List.range 4).map fun i => grottoByte s (4 * w + i)))) u := by
    have hoff : 4 * w % 64 - 4 * w % 4 = 4 * w % 64 := by omega
    rw [dbgGrotto, if_neg (by simp [hquiet.sideAborts_eq, hquiet.sideStopped_eq]),
      show sideAccess 0 (4 * w / 64) 0 0 0 [] s = (_, u) from Prod.ext hans hu]
    dsimp only
    rw [if_neg (by omega), if_neg Bool.false_ne_true, hoff, lineWord]
  have hexec : exec (.dbgGrtrd (4 * w) []) s = .next (dbgGrotto (4 * w) [] s) := by
    have hexec : exec (.dbgGrtrd (4 * w) []) s = execDbgGrtrd (4 * w) [] s := rfl
    rw [hexec, execDbgGrtrd, dbgStart_free h hlock, if_neg (by omega), if_neg (by omega), grottoOpen, hopen, if_neg (by decide)]
    dsimp only
    rw [if_neg (by omega), Nat.mod_eq_of_lt (by omega)]
    rfl
  rw [hgrotto] at hexec
  refine ⟨_, hexec, rfl, rfl, fun a => ?_, (hside.frame.mono (by decide)).trans ((dbgFinish_frame 0 _).mono (by decide))⟩
  exact hside.byte a

theorem dbgGrtwr_writes {w : Nat} (hw : w < 0x0200_0000) (hopen : s.regB 0xA_0004 0 = true) (hquiet : quietGrotto s) (val : Word) :
    Completes (.dbgGrtwr (4 * w) val []) s fun t =>
        t.pin.dbgStatus = 0 ∧ storedAt s t (4 * w) (leBytes 4 val.toNat) ∧ OnlyChanges [.pin, .grt] s t := by
  have hlen : (leBytes 4 val.toNat).length = 4 := length_leBytes ..
  have hmod : 4 * w % 0x0800_0000 = 4 * w := Nat.mod_eq_of_lt (by omega)
  have hwrite := bar2Perform_quiet hquiet (4 * w) [true, true, true, true] (leBytes 4 val.toNat) (by rw [hlen]; rfl) (by rw [hlen]; omega)
  rw [hmod] at hwrite
  have hexec : exec (.dbgGrtwr (4 * w) val []) s = .next (dbgFinish 0 0 (bar2Perform (4 * w) [true, true, true, true] (leBytes 4 val.toNat) [] s)) := by
    have hexec : exec (.dbgGrtwr (4 * w) val []) s = execDbgGrtwr (4 * w) val [] s := rfl
    rw [hexec, execDbgGrtwr, dbgStart_free h hlock, if_neg (by omega), if_neg (by omega), grottoOpen, hopen, if_neg (by decide)]
    dsimp only
    rw [if_neg (by omega), hmod, if_neg (by simp [hquiet.sideAborts_eq, hquiet.sideStopped_eq])]
    rfl
  refine ⟨_, hexec, rfl, ⟨fun i hi => ?_, fun a ha => ?_⟩, (hwrite.frame.mono (by decide)).trans ((dbgFinish_frame 0 0).mono (by decide))⟩
  · have hi4 : i < 4 := by rwa [hlen] at hi
    have hbe : [true, true, true, true].getD i false = true := by
      obtain rfl | rfl | rfl | rfl : i = 0 ∨ i = 1 ∨ i = 2 ∨ i = 3 := by omega
      all_goals rfl
    refine (hwrite.byte (4 * w + i)).trans ?_
    rw [Nat.add_sub_cancel_left, if_pos ⟨by omega, hbe⟩]
    have hwindow : bar2Window (4 * w) = 0 := by
      unfold bar2Window
      omega
    rw [hwindow]
    rfl
  · refine (hwrite.byte a).trans ?_
    have hnone : ¬(4 * w ≤ a ∧ [true, true, true, true].getD (a - 4 * w) false = true) := fun hin => by
      rw [hlen] at ha
      have hfar : [true, true, true, true].length ≤ a - 4 * w := by
        simp
        omega
      rw [List.getD_eq_default _ _ hfar] at hin
      exact absurd hin.2 (by decide)
    rw [if_neg hnone]
    rfl

end

/-! ### The host's bytes arrive -/

/-- What takes the debug engine's flag of a detected fault of the XTS engine along. -/
def XtsKept (s t : State) : Prop := t.cry.xtsBad = s.cry.xtsBad ∧ t.lys.devfault = s.lys.devfault

namespace XtsKept

variable {s t u : State} {l : List Part}

theorem refl : XtsKept s s := ⟨rfl, rfl⟩

theorem trans (h : XtsKept s t) (h' : XtsKept t u) : XtsKept s u := ⟨h'.1.trans h.1, h'.2.trans h.2⟩

theorem ite {p : Prop} [Decidable p] (h : XtsKept s t) (h' : XtsKept s u) : XtsKept s (if p then t else u) := by
  split
  · exact h
  · exact h'

theorem forEach {α : Type} {xs : List α} {f : α → State → State} (h : ∀ a w, XtsKept w (f a w)) : XtsKept s (Machine.forEach xs f s) :=
  forEach_keeps (fun w => XtsKept s w) xs f (fun a w hw => hw.trans (h a w)) s refl

theorem elsewhere (h : Within l s t) (hl : (l.all fun p => p != .cry && p != .lys) = true := by rfl) : XtsKept s t := by
  have hnot : ∀ p, p = .cry ∨ p = .lys → p ∉ l := fun p hp hmem => by
    have hall := List.all_eq_true.1 hl p hmem
    rcases hp with rfl | rfl <;> simp at hall
  have hcry : t.cry = s.cry := h.frame .cry (hnot _ (.inl rfl))
  have hlys : t.lys = s.lys := h.frame .lys (hnot _ (.inr rfl))
  exact ⟨by rw [hcry], by rw [hlys]⟩

theorem bundlesOff : XtsKept s (Machine.bundlesOff s) := by
  have hsessions : ∀ b w, XtsKept w (endSessions b w) := fun b w => by
    unfold endSessions
    exact .forEach fun _ _ => .ite ⟨rfl, rfl⟩ .refl
  have hoff : ∀ b w, XtsKept w (bundleOff b w) := fun b w => by
    unfold bundleOff linkDown dropRecord
    refine .trans (.ite (.trans ?_ (elsewhere raise_within)) .refl) (.trans (elsewhere laneReset_within) (elsewhere State.modBun_within))
    exact .trans (elsewhere State.modLink_within) (.trans (hsessions _ _) (elsewhere State.modLink_within))
  unfold Machine.bundlesOff
  exact .forEach fun b w => .ite .refl (hoff b w)

theorem failSilent {cause : Nat} : XtsKept s (Machine.failSilent cause s) := by
  unfold Machine.failSilent
  refine .ite .refl (.trans ?_ (elsewhere raise_within))
  refine .trans (t := setPair 0 4 _) ?_ .bundlesOff
  exact (elsewhere sendTwin_within).trans ((elsewhere (l := [.out]) (.when State.send_within)).trans
    ((elsewhere State.modTwn_within).trans (elsewhere setPair_within)))

end XtsKept

section

variable {s : State}

/-- Whatever the fault action is, a detected device fault sets DEVFAULT and leaves the engine's own flags (R649). -/
theorem deviceFault_flags (code : Nat) : (deviceFault code s).lys.devfault = true ∧ (deviceFault code s).cry.xtsBad = s.cry.xtsBad := by
  obtain ⟨u, hu⟩ : ∃ u, raise 0x0D0C [code, if s.twinStart then 3 else s.regF 0x1_0004 30 2] (s.modLys fun l => { l with devfault := true }) = u :=
    ⟨_, rfl⟩
  have hfault : u.lys.devfault = true := by
    rw [← hu, raise_lys]
    rfl
  have hbad : u.cry.xtsBad = s.cry.xtsBad := by
    rw [← hu, raise_cry]
    rfl
  suffices h : XtsKept u (deviceFault code s) from ⟨h.2.trans hfault, h.1.trans hbad⟩
  unfold deviceFault
  dsimp only
  rw [hu]
  split
  · exact .elsewhere holdAll_within
  · exact XtsKept.trans (t := u.modLys _) ⟨rfl, rfl⟩ .bundlesOff
  · exact .failSilent
  · exact .refl

/-- A key whose check word holds is used as it is (R410). -/
theorem useKey_good {k : Nat} (h : (s.key k).dbl = false) : useKey k s = s := by
  rw [useKey, h]
  exact if_neg fun hbad => absurd hbad.1 Bool.false_ne_true

/-- The debug buffer holds other bytes. -/
def dbgFilled (buf : List Byte) (p : Pins) : Pins := { p with dbgBuf := buf }

/-- A HOSTRD that has filled the debug buffer. -/
def hostrdEnded (buf : List Byte) (s : State) : State := dbgFinish 0 0 (s.modPin (dbgFilled buf))

theorem hostrdEnded_frame (buf : List Byte) : OnlyChanges [.pin] s (hostrdEnded buf s) :=
  State.modPin_within.frame.trans (dbgFinish_frame 0 0)

/-- The buffer as the bytes that arrived leave it. -/
theorem modPin_filled (got : List Byte) (n : Nat) {buf : List Byte} (hbuf : fitBytes 4096 (got ++ s.pin.dbgBuf.drop n) = buf) :
    s.modPin (fun p => { p with dbgBuf := fitBytes 4096 (got ++ p.dbgBuf.drop n) }) = s.modPin (dbgFilled buf) := by
  rw [← hbuf]
  rw [State.modPin, State.modPin, dbgFilled]

variable {q a n dun : Nat} (hop : s.pin.dbgOp = some (q, a, n, dun)) (hissued : s.pin.dbgIssued ≠ 0)

include hop hissued

theorem hostrdDone_error : Completes (.dbgHostrdDone none) s fun t =>
    t.pin = { s.pin with dbgOp := none, dbgGrt := false, dbgIssued := 0, dbgTag := false, dbgStatus := 3, dbgData := 0 } ∧ OnlyChanges [.pin] s t := by
  have hexec : exec (.dbgHostrdDone none) s = execDbgHostrdDone none s := rfl
  rw [execDbgHostrdDone, hop] at hexec
  dsimp only at hexec
  rw [if_neg hissued] at hexec
  exact ⟨_, hexec, rfl, dbgFinish_frame 3 0⟩

/-- Bytes that are not decrypted: the queue has no key, or the key gives the debug port no right. -/
theorem exec_hostrdDone_plain (bytes : List Byte) (hkey : (s.qu q).enc = true → (s.key (s.qu q).keyIdx).dbl = false)
    (hopen : ((s.qu q).enc && bit (rightsOf s (s.qu q).keyIdx) 3) = false) {buf : List Byte}
    (hbuf : fitBytes 4096 (fitBytes n bytes ++ s.pin.dbgBuf.drop n) = buf) :
    exec (.dbgHostrdDone (some bytes)) s = .next (hostrdEnded buf s) := by
  have huse : (if (s.qu q).enc then useKey (s.qu q).keyIdx s else s) = s := by
    split
    · exact useKey_good (hkey ‹_›)
    · rfl
  have hexec : exec (.dbgHostrdDone (some bytes)) s = execDbgHostrdDone (some bytes) s := rfl
  rw [hexec, execDbgHostrdDone, hop]
  dsimp only
  rw [if_neg hissued, huse, hopen, Bool.false_and, Bool.false_and, Bool.false_and, if_neg Bool.false_ne_true, if_neg Bool.false_ne_true,
    if_neg Bool.false_ne_true, modPin_filled _ n hbuf]
  rfl

theorem hostrdDone_plain (bytes : List Byte) (henc : (s.qu q).enc = false) : Completes (.dbgHostrdDone (some bytes)) s fun t =>
    t.pin = { s.pin with dbgOp := none, dbgGrt := false, dbgIssued := 0, dbgTag := false, dbgStatus := 0, dbgData := 0,
                         dbgBuf := fitBytes 4096 (fitBytes n bytes ++ s.pin.dbgBuf.drop n) } ∧ OnlyChanges [.pin] s t := by
  obtain ⟨buf, hbuf⟩ : ∃ l, fitBytes 4096 (fitBytes n bytes ++ s.pin.dbgBuf.drop n) = l := ⟨_, rfl⟩
  rw [hbuf]
  exact ⟨_, exec_hostrdDone_plain hop hissued bytes (fun h => absurd h (by simp [henc])) (by simp [henc]) hbuf, rfl, hostrdEnded_frame buf⟩

theorem hostrdDone_noRight (bytes : List Byte) (hdbl : (s.key (s.qu q).keyIdx).dbl = false) (hright : bit (rightsOf s (s.qu q).keyIdx) 3 = false) :
    Completes (.dbgHostrdDone (some bytes)) s fun t =>
      t.pin.dbgStatus = 0 ∧ t.pin.dbgBuf = fitBytes 4096 (fitBytes n bytes ++ s.pin.dbgBuf.drop n) ∧ OnlyChanges [.pin] s t := by
  obtain ⟨buf, hbuf⟩ : ∃ l, fitBytes 4096 (fitBytes n bytes ++ s.pin.dbgBuf.drop n) = l := ⟨_, rfl⟩
  rw [hbuf]
  exact ⟨_, exec_hostrdDone_plain hop hissued bytes (fun _ => hdbl) (by simp [hright]) hbuf, rfl, rfl, hostrdEnded_frame buf⟩

section

variable (henc : (s.qu q).enc = true) (hright : bit (rightsOf s (s.qu q).keyIdx) 3 = true) (hdbl : (s.key (s.qu q).keyIdx).dbl = false)
  (hwhole : n % (s.qu q).sector = 0)

include henc hright hdbl hwhole

theorem hostrdDone_decrypted (bytes : List Byte) (hgood : s.cry.xtsBad = false) : Completes (.dbgHostrdDone (some bytes)) s fun t =>
      t.pin.dbgStatus = 0 ∧ t.pin.dbgBuf = fitBytes 4096
        (((withPos (chunks (s.qu q).sector (n / (s.qu q).sector) (fitBytes n bytes))).flatMap fun (i, b) =>
            xts (s.key (s.qu q).keyIdx).key false (dun + i) b) ++ s.pin.dbgBuf.drop n) ∧
      OnlyChanges [.pin] s t := by
  obtain ⟨got, hgot⟩ : ∃ l, ((withPos (chunks (s.qu q).sector (n / (s.qu q).sector) (fitBytes n bytes))).flatMap fun (i, b) =>
      xts (s.key (s.qu q).keyIdx).key false (dun + i) b) = l := ⟨_, rfl⟩
  obtain ⟨buf, hbuf⟩ : ∃ l, fitBytes 4096 (got ++ s.pin.dbgBuf.drop n) = l := ⟨_, rfl⟩
  have hexec : exec (.dbgHostrdDone (some bytes)) s = .next (hostrdEnded buf s) := by
    have hexec : exec (.dbgHostrdDone (some bytes)) s = execDbgHostrdDone (some bytes) s := rfl
    rw [execDbgHostrdDone, hop] at hexec
    dsimp only at hexec
    rw [if_neg hissued, if_pos henc, useKey_good hdbl, henc, hright, hwhole, hgood] at hexec
    rw [hexec, if_neg (by decide), if_neg (by decide), if_pos (by decide), hgot, modPin_filled _ n hbuf]
    rfl
  rw [hgot, hbuf]
  exact ⟨_, hexec, rfl, rfl, hostrdEnded_frame buf⟩

theorem hostrdDone_fault (bytes : List Byte) (hbad : s.cry.xtsBad = true) : Completes (.dbgHostrdDone (some bytes)) s fun t =>
      t.pin.dbgStatus = 3 ∧ t.pin.dbgBuf = s.pin.dbgBuf ∧ t.cry.xtsBad = false ∧ t.lys.devfault = true ∧ Raised s t 0x0A06 [1, q] := by
  obtain ⟨u, hu⟩ : ∃ u, dbgFinish 3 0 (s.modCry fun c => { c with xtsBad := false }) = u := ⟨_, rfl⟩
  have hexec : exec (.dbgHostrdDone (some bytes)) s = .next (deviceFault 0x0A06 (raise 0x0A06 [1, q] u)) := by
    have hexec : exec (.dbgHostrdDone (some bytes)) s = execDbgHostrdDone (some bytes) s := rfl
    rw [execDbgHostrdDone, hop] at hexec
    dsimp only at hexec
    rw [if_neg hissued, if_pos henc, useKey_good hdbl, henc, hright, hwhole, hbad] at hexec
    rw [hexec, ← hu]
    rfl
  have hpin : (deviceFault 0x0A06 (raise 0x0A06 [1, q] u)).pin = u.pin :=
    (deviceFault_within.frame .pin (by decide)).trans (raise_pin ..)
  obtain ⟨hfault, hflag⟩ := deviceFault_flags (s := raise 0x0A06 [1, q] u) 0x0A06
  refine ⟨_, hexec, ?_, ?_, ?_, hfault, ?_⟩
  · rw [hpin, ← hu]
    rfl
  · rw [hpin, ← hu]
    rfl
  · rw [hflag, raise_cry, ← hu]
    rfl
  · have hnow : u.now = s.now := hu ▸ rfl
    have hraised := (raised_raise 0x0A06 [1, q] u).within (deviceFault_within (code := 0x0A06))
    rwa [Raised, hnow] at hraised

end

end

/-- Settles O56, by the lock, the accesses that the port performs at once, and what a host read brings. -/
theorem debugPortOperates : Obligations.DebugPortOperates := by
  unfold Obligations.DebugPortOperates
  refine ⟨fun s hop hgrt => ⟨fun hlock => dbg_locked ⟨hop, hgrt⟩ hlock, fun hlock hp hrole => ?_⟩, fun s q a n dun hop hissued =>
    ⟨hostrdDone_error hop hissued, fun bytes henc => hostrdDone_plain hop hissued bytes henc,
      fun bytes henc hright hdbl hwhole => ⟨fun hgood => hostrdDone_decrypted hop hissued henc hright hdbl hwhole bytes hgood,
        fun hbad => hostrdDone_fault hop hissued henc hright hdbl hwhole bytes hbad⟩,
      fun bytes _ hdbl hright => hostrdDone_noRight hop hissued bytes hdbl hright⟩⟩
  have h : DbgIdle s := ⟨hop, hgrt⟩
  exact ⟨dbgNop_ends h hlock, fun off hoff => dbgRegrd_dev h hlock hp hoff, fun off val u hoff hu => dbgRegwr_effect h hlock hp hrole hoff hu,
    fun off val hlo hhi hctrl hpair hok => dbgRegwr_stores h hlock hp hrole hlo hhi hctrl hpair hok,
    fun q a n dun h1 hmax hpage hbypass hmasters hfree => dbgHostrd_asks h hlock hp hrole dun h1 hmax hpage hbypass hmasters hfree,
    fun a => dbgBufrd_ends h hlock a, fun off hclosed val bad => dbgGrotto_closed h hlock hp hrole hclosed off val bad,
    fun w hw hopen hquiet => ⟨dbgGrtrd_reads h hlock hp hrole hw hopen hquiet, fun val => dbgGrtwr_writes h hlock hp hrole hw hopen hquiet val⟩⟩

end Sys2Proof

/-! Service pins and the lock sequence (R735 to R738, R749, R750). -/

namespace Sys2Proof

open Sys2Proof.Machine

theorem bit_putBit_same {w : Nat} (v : BitVec w) (i : Nat) (x : Bool) (hi : i < w) : bit (putBit v i x) i = x := by
  rw [bit, getLsbD_putBit v i x hi, if_pos rfl]

theorem bit_putBit_other {w : Nat} (v : BitVec w) (i : Nat) (x : Bool) {j : Nat} (h : j ≠ i) : bit (putBit v i x) j = bit v j := by
  by_cases hj : j < w
  · rw [bit, getLsbD_putBit v i x hj, if_neg h, bit]
  · rw [bit, bit, BitVec.getLsbD_of_ge _ _ (by omega), BitVec.getLsbD_of_ge _ _ (by omega)]

section

variable {s : State} {who : Requester}

/-! ### The USER outputs -/

theorem svcSet_sets {val : Word} (hopen : bit s.pin.locked 1 = false) : Completes (.svcSet who val) s fun t =>
    t.pin.user = s.pin.user ||| BitVec.ofNat 4 (fld val 12 4) ∧
      t.pin = { s.pin with user := t.pin.user, seqs := t.pin.seqs } ∧ OnlyChanges [.pin] s t :=
  ⟨_, congrArg Host.Outcome.next (writeReg_svcSet who val s hopen), rfl, rfl, State.modPin_within.frame.trans State.modPin_within.frame⟩

theorem svcClr_clears {val : Word} (hopen : bit s.pin.locked 1 = false) : Completes (.svcClr who val) s fun t =>
    t.pin.user = s.pin.user &&& ~~~ BitVec.ofNat 4 (fld val 12 4) ∧
      t.pin = { s.pin with user := t.pin.user, seqs := t.pin.seqs } ∧ OnlyChanges [.pin] s t :=
  ⟨_, congrArg Host.Outcome.next (writeReg_svcClr who val s hopen), rfl, rfl, State.modPin_within.frame.trans State.modPin_within.frame⟩

theorem svcTgl_toggles {val : Word} (hopen : bit s.pin.locked 1 = false) : Completes (.svcTgl who val) s fun t =>
    t.pin.user = s.pin.user ^^^ BitVec.ofNat 4 (fld val 12 4) ∧
      t.pin = { s.pin with user := t.pin.user, seqs := t.pin.seqs } ∧ OnlyChanges [.pin] s t :=
  ⟨_, congrArg Host.Outcome.next (writeReg_svcTgl who val s hopen), rfl, rfl, State.modPin_within.frame.trans State.modPin_within.frame⟩

/-- A locked group refuses the write that would move its pins (R750). -/
theorem svcTgl_locked {val : Word} (hlocked : bit s.pin.locked 1 = true) (huser : fld val 12 4 ≠ 0) : Completes (.svcTgl who val) s fun t =>
      t.pin.user = s.pin.user ∧ Raised s t 0x0E01 [0xE_002C, Requester.code who, 2] ∧ OnlyChanges (.pin :: events) s t := by
  have hmask : (lockMaskOf 0xE_002C &&& s.pin.locked) != 0 := by
    have hm : lockMaskOf 0xE_002C = 0b00010 := rfl
    rw [hm]
    revert hlocked
    generalize s.pin.locked = l
    revert l
    decide
  have hbad : badByRule s 0xE_002C 0 val = true := by
    have hmoves : (fld val 12 4 != 0) = true := by simpa using huser
    change ((lockMaskOf 0xE_002C &&& s.pin.locked) != 0 && (fld val 12 4 != 0)) = true
    rw [hmask, hmoves]
    rfl
  have hrefusal : writeRefusal s (Requester.code who) 0xE_002C 0 val = some 2 := by
    rw [writeRefusal, hbad, Bool.or_true, if_pos rfl]
  have hwrite := writeReg_refused who 0xE_002C val s 2 (.inl rfl) (by decide) (by decide) hrefusal
  have hseq : pinSequence who 0xE_002C s = breakLock who s := rfl
  have hbreak : Within [.pin] s (breakLock who s) := State.modPin_within
  rw [hseq, show eventOwner 0xE_002C = 0x0E from rfl] at hwrite
  obtain ⟨hraised, hframe⟩ := raiseRefused_spec 0x0E 0xE_002C who 2 (breakLock who s)
  refine ⟨_, congrArg Host.Outcome.next hwrite, ?_, hraised.before hbreak, (hbreak.frame.mono (by decide)).trans (hframe.mono (by decide))⟩
  rw [hframe .pin (by decide)]
  rfl

/-! ### The lock sequence -/

/-- The key and the mask of a PIN_LOCK write. -/
theorem exec_pinLock (key : Byte) (mask : BitVec 5) : exec (.pinLock who key mask) s = .next (lockWrite who key mask s) := by
  have hkey : BitVec.ofNat 8 (fld (mkFld 24 8 key.toNat ||| mkFld 0 5 mask.toNat) 24 8) = key := by
    rw [fld_or, fld_mkFld_same 24 8 _ (by decide), fld_mkFld_above 0 5 _ 24 8 (by decide) (by decide), Nat.or_zero, Nat.mod_eq_of_lt key.isLt,
      BitVec.ofNat_toNat, BitVec.setWidth_eq]
  have hmask : BitVec.ofNat 5 (fld (mkFld 24 8 key.toNat ||| mkFld 0 5 mask.toNat) 0 5) = mask := by
    rw [fld_or, fld_mkFld_below 24 8 _ 0 5 (by decide) (by decide), fld_mkFld_same 0 5 _ (by decide), Nat.zero_or, Nat.mod_eq_of_lt mask.isLt,
      BitVec.ofNat_toNat, BitVec.setWidth_eq]
  have hexec : exec (.pinLock who key mask) s = .next (writeReg who 0xE_0004 0xF (mkFld 24 8 key.toNat ||| mkFld 0 5 mask.toNat) s) := rfl
  rw [hexec, writeReg_pinLock, hkey, hmask]

/-- A requester has got so far in the sequence. -/
def sequenceAt (who : Requester) (v : LockSeq) (s : State) : State :=
  s.modPin fun p => { p with seqs := tabSet {} p.seqs (Requester.code who) v }

theorem sequenceAt_seqs (v : LockSeq) : tabGet {} (sequenceAt who v s).pin.seqs (Requester.code who) = v :=
  tabGet_tabSet_same ({} : LockSeq) s.pin.seqs (Requester.code who) v

theorem sequenceAt_within (v : LockSeq) : Within [.pin] s (sequenceAt who v s) := State.modPin_within

theorem lockWrite_first {mask : BitVec 5} (h : (tabGet ({} : LockSeq) s.pin.seqs (Requester.code who)).count = 0) :
    lockWrite who 0xC5 mask s = sequenceAt who ⟨1, mask⟩ s := if_pos ⟨h, rfl⟩

theorem lockWrite_second {mask : BitVec 5} (h : tabGet ({} : LockSeq) s.pin.seqs (Requester.code who) = ⟨1, mask⟩) :
    lockWrite who 0x3A mask s = sequenceAt who ⟨2, mask⟩ s := by
  unfold lockWrite
  rw [h, if_neg (by simp), if_pos ⟨rfl, rfl, rfl⟩]
  rfl

theorem lockWrite_third {mask : BitVec 5} (h : tabGet ({} : LockSeq) s.pin.seqs (Requester.code who) = ⟨2, mask⟩) :
    lockWrite who 0xC5 mask s = lockGroups who mask (sequenceAt who {} s) := by
  unfold lockWrite
  rw [h, if_neg (by simp), if_neg (by simp), if_pos ⟨rfl, rfl, rfl⟩]
  rfl

theorem pinLock_counts {key : Byte} {mask : BitVec 5} {n : Nat} (h : lockWrite who key mask s = sequenceAt who ⟨n, mask⟩ s) :
    Completes (.pinLock who key mask) s fun t =>
      tabGet {} t.pin.seqs (Requester.code who) = ⟨n, mask⟩ ∧ t.pin.locked = s.pin.locked ∧ OnlyChanges [.pin] s t :=
  ⟨_, (exec_pinLock key mask).trans (congrArg Host.Outcome.next h), sequenceAt_seqs _, rfl, (sequenceAt_within _).frame⟩

theorem pinLock_locks {mask : BitVec 5} (h : tabGet ({} : LockSeq) s.pin.seqs (Requester.code who) = ⟨2, mask⟩) :
    Completes (.pinLock who 0xC5 mask) s fun t =>
      t.pin.locked = s.pin.locked ||| mask ∧ Raised s t 0x0E11 [Requester.code who, mask.toNat] ∧
      (bit (s.pin.locked ||| mask) 4 = true → t.regB 0xE_0010 31 = false) ∧ (∀ o, o ≠ 0xE_0010 → t.reg o = s.reg o) ∧
      OnlyChanges (.regs :: .pin :: events) s t := by
  obtain ⟨u, hu⟩ : ∃ u, (sequenceAt who {} s).modPin (fun p => { p with locked := p.locked ||| mask }) = u := ⟨_, rfl⟩
  obtain ⟨w, hw⟩ : ∃ w, (if bit u.pin.locked 4 then u.setRegF 0xE_0010 31 1 0 else u) = w := ⟨_, rfl⟩
  have hexec : exec (.pinLock who 0xC5 mask) s = .next (raise 0x0E11 [Requester.code who, mask.toNat] w) := by
    rw [exec_pinLock, lockWrite_third h, lockGroups, hu, ← hw]
  have hsu : Within [.pin] s u := hu ▸ (sequenceAt_within {}).step State.modPin_within
  have huw : Within [.regs] u w := hw ▸ .ite State.setRegF_within .refl
  have hulocked : u.pin.locked = s.pin.locked ||| mask := hu ▸ rfl
  have hreg : ∀ o, (raise 0x0E11 [Requester.code who, mask.toNat] w).reg o = w.reg o := raise_within.frame .regs (by decide)
  refine ⟨_, hexec, ?_, ((raised_raise ..).before huw).before hsu, fun hlantern => ?_, fun o ho => ?_, ?_⟩
  · rw [raise_pin, huw.frame .pin (by decide), hulocked]
  · rw [State.regB, hreg, ← hw, hulocked, if_pos hlantern]
    exact bit_of_fld_zero (setRegF_regF (lo := 31) (len := 1) u 0xE_0010 0 (by decide)) (by decide) (by decide)
  · rw [hreg, ← hsu.frame .regs (by decide) o, ← hw]
    split
    · exact setRegF_reg_other ho _ _ _ _
    · rfl
  · exact (hsu.frame.mono (by decide)).trans ((huw.frame.mono (by decide)).trans (raise_within.frame.mono (by decide)))

/-! ### Inputs -/

/-- A level is seen at a service pin. -/
def svcSeen (k : Nat) (v : Bool) (p : Pins) : Pins := { p with svc := putBit p.svc k v }

theorem svcInput_told {k : Fin 16} {v : Bool} (hnew : bit s.pin.svc k ≠ v)
    (hedge : if v then s.regF (svcReg k) 28 2 % 2 = 1 else 2 ≤ s.regF (svcReg k) 28 2) (hin : svcOutput s k = false)
    (hdigital : svcAnalogue s k = false) (htold : bit s.pin.edgeTold k = false) : Completes (.svcInputAccept k v) s fun t =>
        bit t.pin.svc k = v ∧ (∀ i, i ≠ k.val → bit t.pin.svc i = bit s.pin.svc i) ∧ bit t.pin.edgeTold k = true ∧
        Raised s t 0x0D12 [k, b2n v] ∧ OnlyChanges (.pin :: events) s t := by
  obtain ⟨u, hu⟩ : ∃ u, s.modPin (svcSeen k v) = u := ⟨_, rfl⟩
  obtain ⟨w, hw⟩ : ∃ w, u.modPin (fun p => { p with edgeTold := putBit p.edgeTold k true }) = w := ⟨_, rfl⟩
  have hexec : exec (.svcInputAccept k v) s = .next (raise 0x0D12 [k, b2n v] w) := by
    have hexec : exec (.svcInputAccept k v) s = execSvcInputAccept k v s := rfl
    have hchosen : (if v then u.regF (svcReg k) 28 2 % 2 == 1 else decide (2 ≤ u.regF (svcReg k) 28 2)) = true := by
      have hreg : u.regF (svcReg k) 28 2 = s.regF (svcReg k) 28 2 := hu ▸ rfl
      rw [hreg]
      cases v <;> simpa using hedge
    have hinu : svcOutput u k = false := hu ▸ hin
    have hdigitalu : svcAnalogue u k = false := hu ▸ hdigital
    have htoldu : bit u.pin.edgeTold k = false := hu ▸ htold
    rw [hexec, execSvcInputAccept]
    dsimp only
    rw [if_neg hnew, show s.modPin (fun p => { p with svc := putBit p.svc k v }) = u from hu, hchosen, hinu, hdigitalu, htoldu, ← hw]
    rfl
  have hsw : Within [.pin] s w := by
    rw [← hw, ← hu]
    exact (State.modPin_within (s := s)).step State.modPin_within
  have hsvc : w.pin.svc = putBit s.pin.svc k v := by
    rw [← hw, ← hu]
    rfl
  have hedges : w.pin.edgeTold = putBit s.pin.edgeTold k true := by
    rw [← hw, ← hu]
    rfl
  refine ⟨_, hexec, ?_, fun i hi => ?_, ?_, (raised_raise ..).before hsw, (hsw.frame.mono (by decide)).trans (raise_within.frame.mono (by decide))⟩
  · rw [raise_pin, hsvc, bit_putBit_same _ _ _ k.isLt]
  · rw [raise_pin, hsvc, bit_putBit_other _ _ _ hi]
  · rw [raise_pin, hedges, bit_putBit_same _ _ _ k.isLt]

theorem svcInput_seen {k : Fin 16} {v : Bool} (hnew : bit s.pin.svc k ≠ v) (hedge : s.regF (svcReg k) 28 2 = 0) :
    Completes (.svcInputAccept k v) s fun t =>
      bit t.pin.svc k = v ∧ (∀ i, i ≠ k.val → bit t.pin.svc i = bit s.pin.svc i) ∧ OnlyChanges [.pin] s t := by
  have hexec : exec (.svcInputAccept k v) s = .next (s.modPin (svcSeen k v)) := by
    have hexec : exec (.svcInputAccept k v) s = execSvcInputAccept k v s := rfl
    have hreg : (s.modPin (svcSeen k v)).regF (svcReg k) 28 2 = 0 := hedge
    have hchosen : (if v then 0 % 2 == 1 else decide (2 ≤ 0)) = false := by cases v <;> rfl
    rw [hexec, execSvcInputAccept]
    dsimp only
    rw [if_neg hnew, show s.modPin (fun p => { p with svc := putBit p.svc k v }) = s.modPin (svcSeen k v) from rfl, hreg, hchosen,
      if_neg fun h => absurd h.1 Bool.false_ne_true]
    rfl
  refine ⟨_, hexec, bit_putBit_same _ _ _ k.isLt, fun i hi => bit_putBit_other _ _ _ hi, State.modPin_within.frame⟩

end

/-- Settles O57, by the USER outputs, the three keys of the lock sequence and the levels accepted at service inputs. -/
theorem servicePinsAndLocks : Obligations.ServicePinsAndLocks := by
  unfold Obligations.ServicePinsAndLocks
  exact fun s who => ⟨fun val hopen => ⟨svcSet_sets hopen, svcClr_clears hopen, svcTgl_toggles hopen⟩,
    fun val hlocked huser => svcTgl_locked hlocked huser,
    fun mask => ⟨fun h => pinLock_counts (lockWrite_first h), fun h => pinLock_counts (lockWrite_second h), fun h => pinLock_locks h⟩,
    fun k v hnew => ⟨fun hedge hin hdigital htold => svcInput_told hnew hedge hin hdigital htold, fun hedge => svcInput_seen hnew hedge⟩⟩

end Sys2Proof

/-! Dual inputs, D-PHY ports and the JTAG instructions (R723 to R733, R746 to R748). -/

namespace Sys2Proof

open Sys2Proof.Machine

section

variable {s : State}

/-! ### Dual inputs -/

theorem dualInput_episode {i : Fin 768} {d : Bool} (hdual : s.regB (ioReg i) 12 = true) (hmode : s.regF (ioReg i) 10 2 ≠ 0)
    (hnew : bit s.pin.episode i ≠ d) : Completes (.dualInputMismatch i d) s fun t =>
      bit t.pin.episode i = d ∧ (∀ j, j ≠ i.val → bit t.pin.episode j = bit s.pin.episode j) ∧
      Raised s t 0x0E0D [i, s.regF (ioReg i) 0 6, if d then 1 else 2] ∧ OnlyChanges (.pin :: events) s t := by
  obtain ⟨u, hu⟩ : ∃ u, s.modPin (fun p => { p with episode := putBit p.episode i d }) = u := ⟨_, rfl⟩
  have hexec : exec (.dualInputMismatch i d) s = .next (raise 0x0E0D [i, s.regF (ioReg i) 0 6, if d then 1 else 2] u) := by
    rw [← hu]
    exact if_pos ⟨hdual, hmode, hnew⟩
  have hsu : Within [.pin] s u := hu ▸ State.modPin_within
  have hepisode : u.pin.episode = putBit s.pin.episode i d := hu ▸ rfl
  refine ⟨_, hexec, ?_, fun j hj => ?_, (raised_raise ..).before hsu, (hsu.frame.mono (by decide)).trans (raise_within.frame.mono (by decide))⟩
  · rw [raise_pin, hepisode, bit_putBit_same _ _ _ i.isLt]
  · rw [raise_pin, hepisode, bit_putBit_other _ _ _ hj]

/-! ### D-PHY ports -/

theorem port_modPort_same (p : Nat) (f : Dphy → Dphy) : (s.modPort p f).port p = f (s.port p) := by
  simp [State.port, State.modPort, State.modPin]

theorem port_modPort_other (f : Dphy → Dphy) {p i : Nat} (h : i ≠ p) : (s.modPort p f).port i = s.port i := by
  simp [State.port, State.modPort, State.modPin, tabGet_tabMod_other, h]

theorem modPort_frame (p : Nat) (f : Dphy → Dphy) : OnlyChanges [.pin] s (s.modPort p f) := State.modPin_within.frame

theorem ulps_reports {p : Fin 32} (hon : portOn s p = true) (b : Bool) : Completes (.ulpsEntryExit p b) s fun t =>
      t.port p = { s.port p with ulps := b } ∧ (∀ i, i ≠ p.val → t.port i = s.port i) ∧ OnlyChanges [.pin] s t :=
  ⟨_, congrArg Host.Outcome.next (if_pos hon), port_modPort_same _ _, fun _ hi => port_modPort_other _ hi, modPort_frame _ _⟩

theorem deskew_reports {p : Fin 32} (hon : portOn s p = true) (ok : Bool) (hrate : 150 < s.regF (dphyReg p) 18 9) :
    Completes (.dphyDeskewCalibration p ok) s fun t =>
      t.port p = { s.port p with skewOk := ok } ∧ (∀ i, i ≠ p.val → t.port i = s.port i) ∧ OnlyChanges [.pin] s t :=
  ⟨_, congrArg Host.Outcome.next (if_pos ⟨hon, hrate⟩), port_modPort_same _ _, fun _ hi => port_modPort_other _ hi, modPort_frame _ _⟩

/-- The lead of a pair sends the burst (R604). -/
theorem dphyBurst_lead {p : Fin 32} (hon : portOn s p = true) (hrel : s.fab.released = true) (hrole : s.twn.role = 1) (hup : s.twinUp = true)
    (b : List Byte) : Completes (.dphyBurst p ⟨[b], false⟩) s fun t =>
      t.out = s.out ++ [.twin 27 (leBytes 1 p ++ leBytes 1 0 ++ (leBytes 4 b.length ++ b))] ∧ OnlyChanges [.out] s t := by
  have hpaired : s.paired = true := by simp [State.paired, hrole]
  have hsend : ∀ l, sendTwin 27 l s = s.send (.twin 27 l) := fun l => by rw [sendTwin, hup]; rfl
  have hexec : exec (.dphyBurst p ⟨[b], false⟩) s = execDphyBurst p ⟨[b], false⟩ s := rfl
  rw [execDphyBurst, hpaired, if_neg (by decide), if_pos ⟨hrole, hon, hrel⟩, hsend] at hexec
  refine ⟨_, hexec, ?_, onlyChanges_send _ _ (by decide)⟩
  rw [List.flatMap_cons, List.flatMap_nil, List.append_nil]
  rfl

/-- A port whose endpoint no chamber has keeps its beats. -/
theorem drainPort_kept {p : Nat} (howned : epOwned s (s.regF (dphyReg p) 0 10) = false) : drainPort p s = s := by
  have hfree : epFree s (s.regF (dphyReg p) 0 10) (16 + p) = false := by rw [epFree, howned]; rfl
  have hnot : (!epFree s (s.regF (0xE_0300 + 4 * p) 0 10) (16 + p)) = true := by
    change (!epFree s (s.regF (dphyReg p) 0 10) (16 + p)) = true
    rw [hfree]
    rfl
  rw [drainPort]
  exact if_pos (.inr hnot)

/-- Reading one lane index by index gives the lane. -/
theorem flatMap_getElem_lane (b : List Byte) :
    ((List.range b.length).flatMap fun i => [b].filterMap fun l => l[i]?) = b := by
  induction b with
  | nil => rfl
  | cons x b ih =>
    rw [List.length_cons, List.range_succ_eq_map, List.flatMap_cons, List.flatMap_map]
    exact congrArg (x :: ·) ih

theorem laneBytes_single (b : List Byte) : laneBytes [b] = b :=
  (congrArg (fun n => (List.range n).flatMap fun i => [b].filterMap fun l => l[i]?) (Nat.zero_max b.length)).trans (flatMap_getElem_lane b)

/-- A burst of at most 64 bytes is one beat. -/
theorem packBeats_one {b : List Byte} (hne : b ≠ []) (hlen : b.length ≤ 64) (fuel : Nat) :
    packBeats (fuel + 1) b = [mkBeat (b.map fun x => (x, false)) true] := by
  rw [packBeats, if_pos hlen, if_neg hne]

/-- A state that has the port's beats in its buffer. -/
def buffered (s : State) (p : Nat) (beats : List Beat) : State := s.modPort p fun d => { d with buffer := d.buffer ++ beats }

theorem modPort_within (p : Nat) (f : Dphy → Dphy) : Within [.pin] s (s.modPort p f) := State.modPin_within

theorem buffered_drainPort {p : Nat} (howned : epOwned s (s.regF (dphyReg p) 0 10) = false) (beats : List Beat) :
    drainPort p (buffered s p beats) = buffered s p beats := drainPort_kept howned

theorem bufferBeats_one {p : Nat} (howned : epOwned s (s.regF (dphyReg p) 0 10) = false) (hempty : (s.port p).buffer = []) (x : Beat) :
    bufferBeats p [x] s = (buffered s p [x], false) := by
  rw [bufferBeats, drainPort_kept howned, hempty, if_neg (by decide), bufferBeats]
  rfl

/-- What a burst in one lane, of at most 64 bytes, comes to at a port whose endpoint no chamber has. -/
theorem takeBurst_single {p : Nat} {b : List Byte} (sot : Bool) (hon : portOn s p = true) (hrel : s.fab.released = true)
    (howned : epOwned s (s.regF (dphyReg p) 0 10) = false) (hne : b ≠ []) (hlen : b.length ≤ 64) (hempty : (s.port p).buffer = []) :
    takeBurst p ⟨[b], sot⟩ s =
      if sot then closeBurst p 2 (buffered s p [{ mkBeat (b.map fun x => (x, false)) true with last := false }])
      else buffered s p [mkBeat (b.map fun x => (x, false)) true] := by
  have hlanes : laneBytes ([b].take (s.regF (dphyReg p) 29 2 + 1)) = b := by
    rw [List.take_succ_cons, List.take_nil, laneBytes_single]
  rw [takeBurst, drainPort_kept howned]
  dsimp only
  rw [hon, hrel, if_neg (by decide), hempty, if_neg (by decide), hlanes, packBeats_one hne hlen]
  cases sot with
  | false =>
    rw [if_neg Bool.false_ne_true, bufferBeats_one howned hempty]
    dsimp only
    rw [if_neg Bool.false_ne_true, if_neg Bool.false_ne_true, if_neg Bool.false_ne_true, buffered_drainPort howned]
  | true =>
    rw [if_pos rfl, List.map_cons, List.map_nil, bufferBeats_one howned hempty]
    dsimp only
    rw [if_neg Bool.false_ne_true, if_pos rfl, if_pos rfl]

theorem exec_dphyBurst_alone (hpair : s.paired = false) (p : Fin 32) (burst : BurstEnv) :
    exec (.dphyBurst p burst) s = .next (takeBurst p burst s) := by
  have hexec : exec (.dphyBurst p burst) s = execDphyBurst p burst s := rfl
  rw [hexec, execDphyBurst, hpair, if_pos (by decide)]
  rfl

/-- A burst becomes beats in the port's buffer (R729). -/
theorem dphyBurst_buffers {p : Fin 32} {b : List Byte} (hon : portOn s p = true) (hrel : s.fab.released = true) (hpair : s.paired = false)
    (howned : epOwned s (s.regF (dphyReg p) 0 10) = false) (hne : b ≠ []) (hlen : b.length ≤ 64) (hempty : (s.port p).buffer = []) :
    Completes (.dphyBurst p ⟨[b], false⟩) s fun t =>
      t.port p = { s.port p with buffer := [mkBeat (b.map fun x => (x, false)) true] } ∧ OnlyChanges [.pin] s t := by
  refine ⟨_, (exec_dphyBurst_alone hpair p _).trans (congrArg Host.Outcome.next (takeBurst_single false hon hrel howned hne hlen hempty)),
    ?_, modPort_frame _ _⟩
  rw [if_neg Bool.false_ne_true, buffered, port_modPort_same, hempty, List.nil_append]

/-- A burst with a start-of-transmission error closes damaged with 0x0E0F (R731). -/
theorem dphyBurst_damaged {p : Fin 32} {b : List Byte} (hon : portOn s p = true) (hrel : s.fab.released = true) (hpair : s.paired = false)
    (howned : epOwned s (s.regF (dphyReg p) 0 10) = false) (hne : b ≠ []) (hlen : b.length ≤ 64) (hempty : (s.port p).buffer = []) :
    Completes (.dphyBurst p ⟨[b], true⟩) s fun t =>
      t.port p = { s.port p with
        buffer := [{ mkBeat (b.map fun x => (x, false)) true with last := false }, closingBeat], damaged := true } ∧
      Raised s t 0x0E0F [p, 2, 1] ∧ OnlyChanges (.pin :: events) s t := by
  obtain ⟨u, hu⟩ : ∃ u, (buffered s p [{ mkBeat (b.map fun x => (x, false)) true with last := false }]).modPort p
      (fun d => { d with buffer := d.buffer ++ [closingBeat], damaged := true }) = u := ⟨_, rfl⟩
  have howned' : epOwned (raise 0x0E0F [p, 2, 1] u) ((raise 0x0E0F [p, 2, 1] u).regF (dphyReg p) 0 10) = false := by
    rw [State.regF, State.reg, raise_regs, ← State.reg, ← State.regF, epOwned_of_eq (raise_fab ..) (raise_rst ..), ← hu]
    exact howned
  have hexec : exec (.dphyBurst p ⟨[b], true⟩) s = .next (raise 0x0E0F [p, 2, 1] u) := by
    rw [exec_dphyBurst_alone hpair, takeBurst_single true hon hrel howned hne hlen hempty, if_pos rfl, closeBurst, hu, drainPort_kept howned']
  have hsu : Within [.pin] s u := hu ▸ (modPort_within ..).trans (modPort_within ..)
  refine ⟨_, hexec, ?_, (raised_raise ..).before hsu, (hsu.frame.mono (by decide)).trans (raise_within.frame.mono (by decide))⟩
  have hport : u.port p = { s.port p with
      buffer := [{ mkBeat (b.map fun x => (x, false)) true with last := false }, closingBeat], damaged := true } := by
    rw [← hu, port_modPort_same, buffered, port_modPort_same, hempty]
    rfl
  rw [State.port, raise_pin]
  exact hport

/-- A burst that meets a full buffer is discarded whole and counted (R730). -/
theorem dphyBurst_full {p : Fin 32} (hon : portOn s p = true) (hrel : s.fab.released = true) (hpair : s.paired = false)
    (howned : epOwned s (s.regF (dphyReg p) 0 10) = false) (burst : BurstEnv) (hfull : (s.port p).buffer.length = 128) :
    Completes (.dphyBurst p burst) s fun t =>
      t.port p = { s.port p with fullTick := min 65535 ((s.port p).fullTick + 1) } ∧ OnlyChanges [.pin] s t := by
  have htake : takeBurst p burst s = s.modPort p fun d => { d with fullTick := min 65535 (d.fullTick + 1) } := by
    rw [takeBurst, drainPort_kept howned]
    dsimp only
    rw [hon, hrel, if_neg (by decide), hfull, if_pos (Nat.le_refl _)]
  exact ⟨_, (exec_dphyBurst_alone hpair p _).trans (congrArg Host.Outcome.next htake), port_modPort_same _ _, modPort_frame _ _⟩

end

/-- Settles O58: the burst's clauses rest on a port whose endpoint no chamber has keeping its beats. -/
theorem dualInputsAndDphyPorts : Obligations.DualInputsAndDphyPorts := by
  intro s
  refine ⟨fun i d hdual hmode hnew => dualInput_episode hdual hmode hnew, fun p hon => ⟨fun b => ulps_reports hon b,
    fun ok hrate => deskew_reports hon ok hrate, fun hrel hrole hup b => dphyBurst_lead hon hrel hrole hup b, fun hrel hpair howned =>
    ⟨fun b sot hne hlen hempty => ⟨?_, ?_⟩, fun burst hfull => dphyBurst_full hon hrel hpair howned burst hfull⟩⟩⟩
  · rintro rfl
    exact dphyBurst_buffers hon hrel hpair howned hne hlen hempty
  · rintro rfl
    exact dphyBurst_damaged hon hrel hpair howned hne hlen hempty

end Sys2Proof

/-! The JTAG instructions (R746 to R748). -/

namespace Sys2Proof

open Sys2Proof.Machine

section

variable {s : State}

/-! ### The data register -/

theorem scanBarred_of {t : State} (hcfg : t.cfg = s.cfg) (htwn : t.twn = s.twn) : scanBarred t = scanBarred s := by
  rw [scanBarred, State.twinStart, hcfg, htwn, ← State.twinStart, ← scanBarred]

theorem jtagRegister_of_pin {t : State} {code : Nat} (hir : t.pin.jtagIr = code) (hcfg : t.cfg = s.cfg) (htwn : t.twn = s.twn) :
    jtagRegister t = if code = 0x02 then 1 else if code = 0x10 then 3 else if code = 0x01 then 0
      else if (code = 0x00 ∨ code = 0x05 ∨ code = 0x06) ∧ !scanBarred s then 0 else 2 := by
  rw [jtagRegister, hir, scanBarred_of hcfg htwn]

/-! ### Instructions that only select a register -/

theorem loadIr_completes {i : Instr} {code reg : Nat} (hexec : exec i s = .next (loadIr code s))
    (hreg : jtagRegister (loadIr code s) = reg) :
    Completes i s fun t => t.pin = { s.pin with jtagIr := code } ∧ jtagRegister t = reg ∧ OnlyChanges [.pin] s t :=
  ⟨_, hexec, rfl, hreg, State.modPin_within.frame⟩

/-- A barred instruction acts as BYPASS (R748). -/
theorem takePins_barred {i : Instr} {code : Nat} (hexec : exec i s = .next (takePins code s)) (hbar : scanBarred s = true)
    (hother : code ≠ 0x02 ∧ code ≠ 0x10 ∧ code ≠ 0x01) :
    Completes i s fun t => t.pin = { s.pin with jtagIr := code } ∧ jtagRegister t = 2 ∧ OnlyChanges [.pin] s t := by
  obtain ⟨hid, hdbg, hsample⟩ := hother
  refine loadIr_completes (hexec.trans (congrArg Host.Outcome.next (if_pos hbar))) ?_
  rw [jtagRegister_of_pin (s := s) (t := loadIr code s) (code := code) rfl rfl rfl, if_neg hid, if_neg hdbg, if_neg hsample, hbar, if_neg (fun h => absurd h.2 (by decide))]

/-! ### Instructions that take the pins -/

/-- The pins after an instruction has taken them. -/
def heldPins (s : State) (code : Nat) : Pins := { s.pin with jtagIr := code, scanHolds := true }

theorem takePins_completes {i : Instr} {code reg : Nat} (hexec : exec i s = .next (takePins code s)) (hbar : scanBarred s = false)
    (hreg : (if code = 0x02 then 1 else if code = 0x10 then 3 else if code = 0x01 then 0
      else if code = 0x00 ∨ code = 0x05 ∨ code = 0x06 then 0 else 2) = reg) :
    Completes i s fun t => t.pin = heldPins s code ∧ jtagRegister t = reg ∧ Raised s t 0x0E0E [code] ∧ OnlyChanges (.pin :: events) s t := by
  obtain ⟨u, hu⟩ : ∃ u, loadIr code (s.modPin fun p => { p with scanHolds := true }) = u := ⟨_, rfl⟩
  have hsu : Within [.pin] s u := hu ▸ Within.trans (t := s.modPin fun p => { p with scanHolds := true }) State.modPin_within State.modPin_within
  have hpin : u.pin = heldPins s code := hu ▸ rfl
  have hcfg : u.cfg = s.cfg := hu ▸ rfl
  have htwn : u.twn = s.twn := hu ▸ rfl
  refine ⟨raise 0x0E0E [code] u, ?_, by rw [raise_pin, hpin], ?_, (raised_raise ..).before hsu,
    (hsu.frame.mono (by decide)).trans (raise_within.frame.mono (by decide))⟩
  · rw [hexec, takePins, hbar, if_neg Bool.false_ne_true, hu]
  · rw [jtagRegister_of_pin (s := s) (code := code) (by rw [raise_pin, hpin]; rfl) (by rw [raise_cfg, hcfg]) (by rw [raise_twn, htwn]), hbar]
    rw [← hreg]
    simp only [Bool.not_false, and_true]

/-- HIGHZ disables every driver (R748). -/
theorem driverDisabled_highz {t : State} (hpin : t.pin = heldPins s 0x03) (i : Nat) : driverDisabled t i = true := by
  rw [driverDisabled, outputsOff, hpin, heldPins]
  simp

/-! ### Capture -/

theorem bit_scanCells_low {j i : Nat} (hi : i < 3 * j) (level : Bool) (drive : Option Bool) (v : BitVec 2626) :
    bit (scanCells j level drive v) i = bit v i := by
  rw [scanCells, bit_putBit_other _ _ _ (by omega), bit_putBit_other _ _ _ (by omega), bit_putBit_other _ _ _ (by omega)]

theorem bit_foldl_kept {i : Nat} {f : BitVec 2626 → Nat → BitVec 2626} (hf : ∀ v k, bit (f v k) i = bit v i) (l : List Nat) (v : BitVec 2626) :
    bit (l.foldl f v) i = bit v i := by
  induction l generalizing v with
  | nil => rfl
  | cons k l ih => rw [List.foldl_cons, ih, hf]

/-- One pin's cells: input, output and control. -/
def pinCells (input output control : Nat → Bool) (v : BitVec 2626) (i : Nat) : BitVec 2626 :=
  putBit (putBit (putBit v (3 * i) (input i)) (3 * i + 1) (output i)) (3 * i + 2) (control i)

theorem bit_pinCells_other (input output control : Nat → Bool) (v : BitVec 2626) {i j : Nat} (h : j < 3 * i) :
    bit (pinCells input output control v i) j = bit v j := by
  rw [pinCells, bit_putBit_other _ _ _ (by omega), bit_putBit_other _ _ _ (by omega), bit_putBit_other _ _ _ (by omega)]

theorem bit_pinCells_input (input output control : Nat → Bool) (v : BitVec 2626) {i : Nat} (h : i < 768) :
    bit (pinCells input output control v i) (3 * i) = input i := by
  rw [pinCells, bit_putBit_other _ _ _ (by omega), bit_putBit_other _ _ _ (by omega), bit_putBit_same _ _ _ (by omega)]

theorem bit_pinCells_output (input output control : Nat → Bool) (v : BitVec 2626) {i : Nat} (h : i < 768) :
    bit (pinCells input output control v i) (3 * i + 1) = output i := by
  rw [pinCells, bit_putBit_other _ _ _ (by omega), bit_putBit_same _ _ _ (by omega)]

theorem bit_foldl_pinCells (input output control : Nat → Bool) (v : BitVec 2626) (n : Nat) {i : Nat} (hi : i < n) (hn : n ≤ 768) :
    bit ((List.range n).foldl (pinCells input output control) v) (3 * i) = input i ∧
      bit ((List.range n).foldl (pinCells input output control) v) (3 * i + 1) = output i := by
  induction n with
  | zero => exact absurd hi (Nat.not_lt_zero i)
  | succ n ih =>
    rw [List.range_succ, List.foldl_append, List.foldl_cons, List.foldl_nil]
    rcases Nat.lt_succ_iff_lt_or_eq.1 hi with hlt | rfl
    · rw [bit_pinCells_other _ _ _ _ (by omega), bit_pinCells_other _ _ _ _ (by omega)]
      exact ih hlt (by omega)
    · exact ⟨bit_pinCells_input _ _ _ _ (by omega), bit_pinCells_output _ _ _ _ (by omega)⟩

/-- What a capture puts into the register above the pins leaves the pins' cells. -/
theorem captureScan_cells (s : State) : ∃ scan, (captureScan s).pin = { s.pin with scan := scan } ∧ ∀ i < 768,
    bit scan (3 * i) = bit s.pin.ball i ∧ bit scan (3 * i + 1) = bit s.pin.outv i := by
  refine ⟨_, rfl, fun i hi => ?_⟩
  have hlow : ∀ j < 3 * 768, ∀ (a b c : Bool) (x y z : Option Bool) (f g : Nat → Bool) (f' g' : Nat → Option Bool) (v : BitVec 2626),
      bit (scanCells 803 a x (scanCells 802 b y (scanCells 800 c z ((List.range 16).foldl (fun v k => scanCells (784 + k) (f k) (f' k) v)
        ((List.range 16).foldl (fun v k => scanCells (768 + k) (g k) (g' k) v) v))))) j = bit v j := by
    intro j hj a b c x y z f g f' g' v
    rw [bit_scanCells_low (by omega), bit_scanCells_low (by omega), bit_scanCells_low (by omega),
      bit_foldl_kept (fun v k => bit_scanCells_low (by omega) ..), bit_foldl_kept (fun v k => bit_scanCells_low (by omega) ..)]
  obtain ⟨hin, hout⟩ := bit_foldl_pinCells (bit s.pin.ball) (bit s.pin.outv) (pinEnable s) (Config.freeBits 2626 s.seed) 768 hi (Nat.le_refl _)
  exact ⟨(hlow _ (by omega) ..).trans hin, (hlow _ (by omega) ..).trans hout⟩

theorem samplePreload_captures : Completes .jtagSamplePreload s fun t =>
    t.pin = { s.pin with jtagIr := 1, scan := t.pin.scan } ∧ jtagRegister t = 0 ∧
      (∀ i < 768, t.pin.scan.getLsbD (3 * i) = s.pin.ball.getLsbD i ∧ t.pin.scan.getLsbD (3 * i + 1) = s.pin.outv.getLsbD i) ∧
      OnlyChanges [.pin, .seed] s t := by
  obtain ⟨scan, hpin, hcells⟩ := captureScan_cells (loadIr 0x01 s)
  refine ⟨captureScan (loadIr 0x01 s), rfl, ?_, ?_, ?_, ?_⟩
  · rw [hpin]
    rfl
  · rw [jtagRegister_of_pin (s := s) (t := captureScan (loadIr 0x01 s)) (code := 0x01) (by rw [hpin]; rfl) rfl rfl]
    rfl
  · rw [hpin]
    exact hcells
  · exact (State.modPin_within (s := s)).frame.mono (by decide) |>.trans
      ((State.fresh_within.frame.mono (by decide)).trans (State.modPin_within.frame.mono (by decide)))

end

/-- Settles O59: an instruction that takes the pins tells it, a barred one is BYPASS, and SAMPLE/PRELOAD captures the pins' cells. -/
theorem jtagInstructions : Obligations.JtagInstructions := by
  intro s
  refine ⟨fun hbar => ⟨takePins_completes rfl hbar rfl, takePins_completes rfl hbar rfl, takePins_completes rfl hbar rfl, ?_,
    takePins_completes rfl hbar rfl⟩, fun hbar => ⟨takePins_barred rfl hbar (by decide), takePins_barred rfl hbar (by decide)⟩,
    samplePreload_captures, loadIr_completes rfl rfl, loadIr_completes rfl rfl, loadIr_completes rfl rfl, ?_⟩
  · obtain ⟨t, hexec, hpin, hreg, hraised, hframe⟩ := takePins_completes (i := .jtagHighz) (code := 3) rfl hbar rfl
    exact ⟨t, hexec, hpin, hreg, driverDisabled_highz hpin, hraised, hframe⟩
  · exact ⟨_, rfl, rfl, rfl, State.modPin_within.frame.trans (State.modPin_within.frame (s := s.modPin _))⟩

end Sys2Proof

/-! A queue whose context is one descriptor, and what its engine does there (R310 to R312, R331, R344). -/

namespace Sys2Proof

open Sys2Proof.Machine

/-! ### One queue put in place of another -/

section
variable {α : Type}

theorem tabDel_tabIns (t : List (Nat × α)) (k : Nat) (v : α) : tabDel (tabIns k v t) k = tabDel t k := by
  induction t with
  | nil => simp [tabIns, tabDel]
  | cons p t ih =>
    unfold tabDel at ih ⊢
    rw [tabIns]
    split
    · rw [List.filter_cons_of_neg (by simp)]
    · rw [List.filter_cons, List.filter_cons, ih]

theorem tabDel_tabDel (t : List (Nat × α)) (k : Nat) : tabDel (tabDel t k) k = tabDel t k := by
  rw [tabDel, tabDel, List.filter_filter]
  simp only [Bool.and_self]

variable [DecidableEq α]

theorem tabDel_tabSet (d : α) (t : List (Nat × α)) (k : Nat) (v : α) : tabDel (tabSet d t k v) k = tabDel t k := by
  unfold tabSet
  split
  · exact tabDel_tabDel t k
  · rw [tabDel_tabIns, tabDel_tabDel]

theorem tabSet_tabSet (d : α) (t : List (Nat × α)) (k : Nat) (v v' : α) : tabSet d (tabSet d t k v) k v' = tabSet d t k v' := by
  rw [tabSet, tabDel_tabSet, ← tabSet]

/-- A sum over the entries of a table, one of which is replaced. -/
theorem sum_tabSet_le (d : α) (t : List (Nat × α)) (k : Nat) (v : α) (w : α → Nat) (hd : w d = 0) :
    ((tabSet d t k v).map fun p => w p.2).sum + w (tabGet d t k) ≤ (t.map fun p => w p.2).sum + w v := by
  have hins : ∀ l : List (Nat × α), ((tabIns k v l).map fun p => w p.2).sum = w v + (l.map fun p => w p.2).sum := fun l => by
    induction l with
    | nil => rfl
    | cons p l ih =>
      rw [tabIns]
      split
      · rfl
      · rw [List.map_cons, List.sum_cons, ih, List.map_cons, List.sum_cons, Nat.add_left_comm]
  have hget : w (tabGet d t k) + ((tabDel t k).map fun p => w p.2).sum ≤ (t.map fun p => w p.2).sum := by
    clear hins
    induction t with
    | nil => simp [tabGet, tabDel, hd]
    | cons p t ih =>
      rw [tabGet, tabDel, List.filter_cons, List.map_cons, List.sum_cons]
      rw [tabDel] at ih
      rcases eq_or_ne k p.1 with rfl | hk
      · simp
        omega
      · rw [if_neg hk, if_pos (by simpa using hk.symm), List.map_cons, List.sum_cons]
        omega
  unfold tabSet
  split
  · omega
  · rw [hins]
    omega

end

/-- The state with x for queue q. -/
def putQu (q : Nat) (x : Queue) (s : State) : State := { s with que := tabSet {} s.que q x }

section
variable {s : State} {q : Nat} {x y : Queue}

theorem modQu_eq_putQu (f : Queue → Queue) : s.modQu q f = putQu q (f (s.qu q)) s := rfl

@[simp] theorem qu_putQu : (putQu q x s).qu q = x := tabGet_tabSet_same ..

@[simp] theorem putQu_putQu : putQu q y (putQu q x s) = putQu q y s := by
  rw [putQu, show (putQu q x s).que = tabSet {} s.que q x from rfl, tabSet_tabSet]
  rfl

theorem modQu_putQu (f : Queue → Queue) : (putQu q x s).modQu q f = putQu q (f x) s := by
  rw [modQu_eq_putQu, qu_putQu, putQu_putQu]

theorem putQu_send (o : Out) : (putQu q x s).send o = putQu q x (s.send o) := rfl

theorem putQu_within : Within [.que] s (putQu q x s) := State.modQu_within (f := fun _ => x)

/-- Whether others stand before a queue is nothing of its own (R344). -/
theorem contested_putQu : contested (putQu q x s) q = contested s q := by
  have hothers : ∀ t : State, contested t q = (tabDel t.que q).any fun p => p.2.ready && decide (prioOf t q ≤ prioOf t p.1) := fun t => by
    rw [contested, tabDel, List.any_filter]
    simp only [Bool.and_assoc]
  rw [hothers, hothers]
  exact congrArg (List.any · _) (tabDel_tabSet ..)

/-- A queue that nobody contests is granted (R344). -/
theorem granted_of_uncontested (h : contested s q = false) : granted s q = true := by
  rw [granted, Bool.not_eq_true', List.any_eq_false]
  rw [contested, List.any_eq_false] at h
  intro p hp hbefore
  refine h p hp ?_
  simp only [servedBefore, Bool.and_eq_true, Bool.or_eq_true, decide_eq_true_eq] at hbefore ⊢
  obtain ⟨hother, hbefore⟩ := hbefore
  exact ⟨hother, by omega⟩

/-! ### Tags -/

theorem hostReads_putQu_le (htags : tagsOf x ≤ tagsOf (s.qu q)) : hostReads (putQu q x s) ≤ hostReads s := by
  have hsum := sum_tabSet_le {} s.que q x tagsOf rfl
  have hqu : tabGet {} s.que q = s.qu q := rfl
  rw [hqu] at hsum
  rw [hostReads_eq, hostReads_eq]
  change ((tabSet {} s.que q x).map fun p => tagsOf p.2).sum + s.pin.dbgIssued + s.xlt.orphans.length ≤ _
  omega

theorem hostTagFree_putQu (htags : tagsOf x ≤ tagsOf (s.qu q)) (h : hostTagFree s = true) : hostTagFree (putQu q x s) = true := by
  have hreads := hostReads_putQu_le htags
  have hcap : tagCap (putQu q x s) 1 = tagCap s 1 := rfl
  have hres : ∀ c, tagRes (putQu q x s) c = tagRes s c := fun _ => rfl
  have hpool : sharedPool (putQu q x s) = sharedPool s := rfl
  have hissued : tagsIssued (putQu q x s) 3 = tagsIssued s 3 := rfl
  unfold hostTagFree hostTagsFree at h ⊢
  simp only [hcap, hres, hpool, hissued, Bool.and_eq_true, Bool.or_eq_true, decide_eq_true_eq] at h ⊢
  omega

theorem grottoTagFree_putQu (htags : tagsOf x ≤ tagsOf (s.qu q)) (h : grottoTagFree s = true) : grottoTagFree (putQu q x s) = true := by
  have hreads := hostReads_putQu_le htags
  have hcap : tagCap (putQu q x s) 2 = tagCap s 2 := rfl
  have hres : ∀ c, tagRes (putQu q x s) c = tagRes s c := fun _ => rfl
  have hpool : sharedPool (putQu q x s) = sharedPool s := rfl
  have hissued : tagsIssued (putQu q x s) 3 = tagsIssued s 3 := rfl
  unfold grottoTagFree sharedUsed at h ⊢
  simp only [hcap, hres, hpool, hissued, Bool.and_eq_true, Bool.or_eq_true, decide_eq_true_eq] at h ⊢
  omega

end

/-! ### A queue that holds one descriptor -/

/-- Queue x with the one descriptor d. -/
def holding (x : Queue) (d : Desc) : Queue := { x with context := [d] }

/-- Queue x has moved n bytes. -/
def hasMoved (n : Nat) (x : Queue) : Queue := { x with bytes := x.bytes.add n }

section
variable {s : State} {q i : Nat} {x : Queue} {d : Desc}

theorem desc_holding (hid : d.id = i) : (holding x d).desc i = some d := by
  rw [Queue.desc]
  exact List.find?_cons_of_pos (by simpa using hid)

theorem modDesc_holding (hid : d.id = i) (f : Desc → Desc) : modDesc q i f (putQu q (holding x d) s) = putQu q (holding x (f d)) s := by
  rw [modDesc, modQu_putQu]
  simp [holding, hid]

theorem endDesc_holding (hid : d.id = i) (hrun : d.ended = none) (status result : Nat) :
    endDesc q i status result (putQu q (holding x d) s) = putQu q (holding x (descDone status result d)) s := by
  unfold endDesc
  rw [modQu_putQu]
  simp [holding, hid, hrun, descDone]

theorem hasMoved_holding (n : Nat) : (putQu q (holding x d) s).modQu q (hasMoved n) = putQu q (holding (hasMoved n x) d) s := modQu_putQu _

/-- The one descriptor of a queue holds its queue's data tags. -/
theorem tagsOf_holding_le {d' : Desc} (hctx : x.context = [d']) (hreads : d.reads.length ≤ d'.reads.length) :
    tagsOf (holding x d) ≤ tagsOf x := by
  rw [tagsOf, tagsOf, hctx]
  exact Nat.add_le_add_left (Nat.add_le_add_left hreads 0) _

theorem tagsOf_hasMoved (n : Nat) : tagsOf (holding (hasMoved n x) d) = tagsOf (holding x d) := rfl

end

end Sys2Proof

/-! A data transfer of one granule (R331 to R343, R379). -/

namespace Sys2Proof

open Sys2Proof.Machine

/-! ### The transfer starts -/

section
variable {s : State} {q i a : Nat} {w : BitVec 256}

/-- The base of the state in which a queue has been served twice: for its start and for its data. -/
def servedTwice (q : Nat) (s : State) : State := servedNow q (servedNow q s)

theorem servedTwice_within : Within [.arb] s (servedTwice q s) := servedNow_within.trans servedNow_within

theorem begun_eq_putQu (hctx : (s.qu q).context = [fetched w i a]) :
    begun q i s = putQu q (holding (s.qu q) (running w i a)) (servedNow q s) := by
  have hque : (servedNow q s).qu q = s.qu q := rfl
  rw [begun, modDesc, modQu_eq_putQu, hque, hctx]
  simp [holding, fetched, running]

/-- The one waiting descriptor of a queue that nobody contests starts and moves data at once (R331, R344). -/
theorem goOn_ready (h : readyFor s q w i a) (hfree : contested s q = false) (hplain : (s.qu q).enc = false) {opc : Nat} (hlt : opc < 16)
    (hopc : fld w 0 8 = opc) :
    goOn q opc s = (putQu q (holding (s.qu q) (running w i a)) (servedTwice q s), some i) := by
  obtain ⟨hlow, hsub⟩ := fld_halves w (lo := opc) (hi := 0) hlt (by rw [hopc]; omega)
  obtain ⟨-, -, -, hctx, -⟩ := id h
  have hstart : startNext q (fun o b => o == opc && b == 0) s = (begun q i s, some i) :=
    startNext_ready h (granted_of_uncontested hfree) (by simp [hlow, hsub]) (by simp [encrypted, hplain])
  have hgrant : granted (begun q i s) q = true := by
    rw [begun_eq_putQu hctx]
    exact granted_of_uncontested (contested_putQu.trans hfree)
  rw [goOn, hctx, List.find?_cons_of_neg (by simp), List.find?_nil, hstart]
  dsimp only
  rw [takeTurn, if_pos hgrant, begun_eq_putQu hctx]
  rfl

theorem takeUpsets_none {env : DescEnv} (htlb : env.tlbBad = []) (hplain : (s.qu q).enc = false) : takeUpsets q env s = s := by
  rw [takeUpsets, htlb]
  exact if_neg fun h => absurd (hplain.symm.trans h.2) (by decide)

theorem dataCommand_ready (h : readyFor s q w i a) (hfree : contested s q = false) (hplain : (s.qu q).enc = false) {opc : Nat} (hlt : opc < 16)
    (hopc : fld w 0 8 = opc) {env : DescEnv} (htlb : env.tlbBad = []) (hbad : env.addrErr = [])
    (hfence : opc = 2 ∨ opc = 3 → epFenced s (fld (s.qu q).setup.ep 0 10) = false) (pre : Nat → State → State) :
    dataCommand q opc env pre s = runDesc q i (some env) (pre i (putQu q (holding (s.qu q) (running w i a)) (servedTwice q s))) := by
  rw [dataCommand, takeUpsets_none htlb hplain, goOn_ready h hfree hplain hlt hopc]
  dsimp only
  rw [if_neg, modDesc_holding (show (running w i a).id = i from rfl), hbad]
  · rfl
  · rintro ⟨hstream, hclosed⟩
    rw [qu_putQu] at hclosed
    exact Bool.false_ne_true ((hfence hstream).symm.trans hclosed)

/-- No fence stands before an open endpoint (R44, R145). -/
theorem epFenced_of_open {e : Nat} (h : epOpen s e = true) : epFenced s e = false := by
  rw [epOpen, epOwned, Bool.and_eq_true] at h
  obtain ⟨howned, -⟩ := h
  rw [epFenced]
  cases hc : epChamber s e with
  | none => rfl
  | some c =>
    rw [hc] at howned
    simpa using (Bool.and_eq_true_iff.1 howned).2

end

/-! ### Host data of one granule -/

section
variable {s : State} {q i : Nat} {x : Queue} {d : Desc}

/-- A part of a page's line is one request's. -/
theorem translateParts_line (hbypass : x.bypass = true) (access : Nat) (wr : Bool) {va n : Nat} (hline : va % 64 + n ≤ 64) :
    translateParts q i access wr va n (putQu q (holding x d) s) = (some [(va, n)], none, putQu q (holding x d) s) := by
  have hfirst : min n (4096 - va % 4096) = n := by omega
  have htr : translateFor access q i va n wr (putQu q (holding x d) s) = (.ok va, putQu q (holding x d) s) := by
    have ht : translate q va n wr (putQu q (holding x d) s) = (.ok va, putQu q (holding x d) s) :=
      if_pos (by rw [qu_putQu]; exact hbypass)
    rw [translateFor, ht]
  rw [translateParts, hfirst, if_neg (Nat.lt_irrefl n), List.foldl_cons, List.foldl_nil]
  dsimp only
  rw [htr]
  rfl

/-- The descriptor with a read of n bytes from o on in flight. -/
def hasAsked (o n : Nat) (d : Desc) : Desc := { d with readTo := o + n, reads := [(o, n)], wantTag := false }

/-- The descriptor after the bytes of a granule have been read into it. -/
def hasRead (o n : Nat) (bytes : List Byte) (d : Desc) : Desc :=
  { d with readTo := o + n, reads := [], sentTo := o + n, hbuf := (bytes.drop o).take n, wantTag := false }

theorem issueReads_line (hsolo : s.twn.role = 0) (hmasters : s.masters = true) (hid : d.id = i) {o va n : Nat} (hn : 0 < n)
    (hmax : n ≤ s.pci.maxRead) (hreadTo : d.readTo = o) (hreads : d.reads = []) (htag : hostTagFree (putQu q (holding x d) s) = true) :
    issueReads q i o [(va, n)] (putQu q (holding x d) s) = putQu q (holding x (hasAsked o n d)) (s.send (.hostRead 0 q va n)) := by
  have hreqs : requests (putQu q (holding x d) s).pci.maxRead va n = [(va, n)] := requests_single hn hmax
  have hgo : ¬ (decide (d.readTo ≠ o) || (putQu q (holding x d) s).twn.role == 2) = true := by
    rw [hreadTo, show (putQu q (holding x d) s).twn.role = 0 from hsolo]
    simp
  have hsent : (putQu q (holding x d) s).when (putQu q (holding x d) s).masters (fun s => s.send (.hostRead 0 q va n)) =
      putQu q (holding x d) (s.send (.hostRead 0 q va n)) := if_pos hmasters
  rw [issueReads]
  dsimp only
  rw [List.flatMap_cons, List.flatMap_nil, List.append_nil, hreqs, List.foldl_cons, List.foldl_nil]
  dsimp only
  rw [qu_putQu, desc_holding hid]
  dsimp only
  rw [if_neg hgo, htag, if_neg (by decide), hsent, modDesc_holding hid, hreads]
  rfl

theorem takeHost_line (hsolo : s.twn.role = 0) (hid : d.id = i) {o n : Nat} (hn : 0 < n) (hsentTo : d.sentTo = o)
    (hbuf : d.hbuf = []) (hplain : encrypted x d = false) {bytes : List Byte} (hdata : o + n ≤ bytes.length) :
    takeHost q i bytes (putQu q (holding x (hasAsked o n d)) s) = putQu q (holding x (hasRead o n bytes d)) s := by
  have hupTo : min bytes.length (hasAsked o n d).readTo = o + n := Nat.min_eq_right hdata
  have htaken : takenBytes (putQu q (holding x (hasAsked o n d)) s) (holding x (hasAsked o n d)) (hasAsked o n d) (hasAsked o n d).sentTo
      ((bytes.take (o + n)).drop (hasAsked o n d).sentTo) = (bytes.drop o).take n := by
    have hsent : (hasAsked o n d).sentTo = o := hsentTo
    have hplain' : encrypted (holding x (hasAsked o n d)) (hasAsked o n d) = false := hplain
    rw [takenBytes, hplain', if_neg Bool.false_ne_true, hsent, List.drop_take, Nat.add_sub_cancel_left]
  have hlen : ((bytes.drop o).take n).length = n := by
    rw [List.length_take, List.length_drop]
    omega
  have hsome : (bytes.drop o).take n ≠ [] := List.ne_nil_of_length_pos (by omega)
  have hrole : ∀ y, ¬ (putQu q y s).twn.role = 1 := fun y => by
    rw [show (putQu q y s).twn.role = 0 from hsolo]
    decide
  have hsent : d.sentTo + ((bytes.drop o).take n).length = o + n := by rw [hlen, hsentTo]
  have hover : [(o, n)].filter (fun r : Nat × Nat => !decide (r.1 + r.2 ≤ o + n)) = [] := by simp
  have hid' : (hasAsked o n d).id = i := hid
  rw [takeHost, qu_putQu, desc_holding hid']
  dsimp only
  rw [hupTo, htaken, if_neg hsome, modDesc_holding hid']
  rw [if_neg (hrole _)]
  refine (modDesc_holding (by exact hid) _).trans ?_
  simp only [hasAsked, hasRead, hsent, hover, hbuf, List.nil_append]

/-- The reads of a granule within a line are asked for and their data taken at once (R310, R312, R321). -/
theorem hostReady_line (hsolo : s.twn.role = 0) (hmasters : s.masters = true) (hid : d.id = i) {o va n : Nat} (hn : 0 < n) (hmax : n ≤ s.pci.maxRead)
    (hreadTo : d.readTo = o) (hsentTo : d.sentTo = o) (hreads : d.reads = []) (hbuf : d.hbuf = []) (hplain : encrypted x d = false)
    (htag : hostTagFree (putQu q (holding x d) s) = true) (env : DescEnv) (hdata : o + n ≤ env.hostData.length) :
    hostReady q i o n [(va, n)] (some env) (putQu q (holding x d) s) =
      (true, putQu q (holding x (hasRead o n env.hostData d)) (s.send (.hostRead 0 q va n))) := by
  have hrole : ¬ (putQu q (holding x (hasAsked o n d)) (s.send (.hostRead 0 q va n))).twn.role = 2 := by
    rw [show (putQu q (holding x (hasAsked o n d)) (s.send (.hostRead 0 q va n))).twn.role = 0 from hsolo]
    decide
  have hsolo' : (s.send (.hostRead 0 q va n)).twn.role = 0 := hsolo
  have hlen : ((env.hostData.drop o).take n).length = n := by
    rw [List.length_take, List.length_drop]
    omega
  have hhere : (some (hasRead o n env.hostData d)).any (fun d => decide (n ≤ d.hbuf.length)) = true := by
    rw [Option.any_some, hasRead, hlen]
    exact decide_eq_true (Nat.le_refl n)
  rw [hostReady, issueReads_line hsolo hmasters hid hn hmax hreadTo hreads htag,
    if_neg hrole, takeHost_line hsolo' hid hn hsentTo hbuf hplain hdata, qu_putQu,
    desc_holding (show (hasRead o n env.hostData d).id = i from hid), hhere]

end

/-! ### One granule -/

/-- A descriptor under way: it has neither ended nor stopped, and nothing of it waits. -/
structure Underway (i : Nat) (d : Desc) : Prop where
  id : d.id = i
  ended : d.ended = none
  stopped : d.stopped = false
  poison : d.poison = none
  remq : d.remq = []

section
variable {s : State} {q i : Nat} {x : Queue} {d : Desc}

theorem emitBeats_other (hid : d.id = i) (hopc : d.opc ≠ 2) (fuel : Nat) :
    emitBeats q i (fuel + 1) (putQu q (holding x d) s) = putQu q (holding x d) s := by
  rw [emitBeats, qu_putQu, desc_holding hid]
  dsimp only
  rw [if_neg hopc, if_pos (.inl hopc)]

/-- What a granule of n bytes leaves of a descriptor that is no STREAM_IN. -/
def movedOn (n : Nat) (d : Desc) : Desc := { d with off := d.off + n, buf := d.buf.drop n, lens := dropLens n d.lens }

/-- A granule that is ready is moved (R379). -/
theorem runGranules_moves {v b z : State} {env : Option DescEnv} {n : Nat} {parts : List (Nat × Nat)} {bytes : List (Byte × Bool)} {dz : Desc}
    (h : Underway i d) (hopc : d.opc ≠ 2) (hoff : d.off = 0) (hn : 0 < n) (htotal : totalBytes d = n) (hbeats : moreBeats d = false)
    (hplain : encrypted x d = false) (hend : granuleEnd x d 0 n = n)
    (hparts : (if d.srcHost || d.dstHost then translateParts q i (if d.srcHost then 2 else 3) d.dstHost ((if d.srcHost then d.src else d.dst) + 0) n
      (putQu q (holding x d) s) else (some [], none, putQu q (holding x d) s)) = (some parts, none, putQu q (holding x d) s))
    (hread : (if d.srcHost then hostReady q i 0 n parts env (putQu q (holding x d) s) else (true, putQu q (holding x d) s)) = (true, v))
    (habort : sideAborts v = false) (hlinks : granuleStopped v d 0 n = false) (htag : grottoTagFree v = true)
    (hsource : granuleSource q i 0 n d.bad v = (bytes, b))
    (hsink : granuleSink q i 0 parts bytes d.bad b = putQu q (holding x dz) z) (hdz : dz.id = i) (fuel : Nat) :
    runGranules q i env 0 (fuel + 1) (putQu q (holding x d) s) =
      runGranules q i env n fuel (putQu q (holding (hasMoved n x) (movedOn n dz)) z) := by
  have hpos : readPos d = 0 := by rw [readPos, if_neg hopc, hoff]
  have hplain' : encrypted (holding x d) d = false := hplain
  have hend' : granuleEnd (holding x d) d 0 n = n := hend
  rw [runGranules, emitBeats_other h.id hopc, qu_putQu, desc_holding h.id]
  dsimp only
  rw [if_neg (by simp [h.ended, h.stopped]), htotal, hpos, if_neg (by omega), if_neg (by omega), hend', if_neg (by simp [hbeats]),
    if_neg (fun hin => hopc hin.1), Nat.sub_zero, hparts]
  dsimp only
  rw [hplain', if_neg Bool.false_ne_true, if_neg (fun hin => Bool.false_ne_true hin.1), if_neg (fun hin => Bool.false_ne_true hin.1), hread]
  dsimp only
  rw [if_neg (by decide), if_neg (fun hin => Bool.false_ne_true (habort.symm.trans hin.1)), hlinks, if_neg Bool.false_ne_true, htag,
    if_neg (fun hin => absurd hin.1 (by decide)), hsource]
  dsimp only
  rw [hsink, if_neg hopc, Nat.min_self, modDesc_holding hdz]
  rw [Nat.zero_add]
  exact congrArg (runGranules q i env n fuel) (hasMoved_holding n)

/-- A transfer that has moved everything ends with the count (R343). -/
theorem runGranules_ends {env : Option DescEnv} {used : Nat} (h : Underway i d) (hemit : emitBeats q i 65 (putQu q (holding x d) s) = putQu q (holding x d) s)
    (hall : totalBytes d ≤ readPos d) (hin : d.opc = 2 → d.len ≤ d.off) (hbeats : moreBeats d = false) (hlast : d.opc = 3 → d.bufEnd = 1)
    (hsides : (d.srcg && d.dstg) = false) (hremote : ∀ m ∈ s.net.remotes, m.queue ≠ q) (fuel : Nat) :
    runGranules q i env used (fuel + 1) (putQu q (holding x d) s) = putQu q (holding x (descDone 0 d.off d)) s := by
  have hout : outstanding (putQu q (holding x d) s) q i = false := by
    rw [outstanding, List.any_eq_false]
    intro m hm hout
    exact hremote m hm (by simpa using (Bool.and_eq_true_iff.1 hout).1)
  have hoverlap : overlapFree d (putQu q (holding x d) s) = putQu q (holding x d) s := by
    refine if_neg fun hover => ?_
    obtain ⟨-, hsrc, hdst, -⟩ := hover
    rw [hsrc, hdst] at hsides
    exact absurd hsides (by decide)
  rw [runGranules, hemit, qu_putQu, desc_holding h.id]
  dsimp only
  rw [if_neg (by simp [h.ended, h.stopped]), if_pos (.inl hall), if_neg, finishDesc, qu_putQu, desc_holding h.id]
  · dsimp only
    rw [h.remq, hout, if_neg (by decide), hoverlap, if_neg, if_neg, h.poison]
    · exact endDesc_holding h.id h.ended 0 d.off
    · exact fun hst => absurd (hlast hst.1) (by rw [hst.2]; decide)
    · exact fun hst => absurd (hlast hst.1) (by rw [hst.2]; decide)
  · rintro (hmore | ⟨hopc, hleft⟩)
    · exact Bool.false_ne_true (hbeats.symm.trans hmore)
    · exact absurd (hin hopc) (by omega)

end

end Sys2Proof

/-! Transfers of one granule (R331 to R343, R379): what each side does, and their end. -/

namespace Sys2Proof

open Sys2Proof.Machine

section
variable {s : State} {q i : Nat} {x : Queue} {d : Desc}

theorem isRemote_low {a : Nat} (h : a < 2 ^ 56) : isRemote s a = false := by
  rw [isRemote, decide_eq_false (by omega), Bool.false_and]

/-- Nothing of the descriptor waits for a tag or for its turn. -/
structure Unmarked (d : Desc) : Prop where
  yielded : d.yielded = false
  wantTag : d.wantTag = false
  wantGrt : d.wantGrt = false

/-- A descriptor of neither remote side runs its granules (R343). -/
theorem runDesc_ended {t : State} {env : Option DescEnv} {dt : Desc} {xt : Queue} {m : Nat} (h : Underway i d) (hmark : Unmarked d)
    (hsrc : d.srcg = true → d.src < 2 ^ 56) (hdst : d.dstg = true → d.dst < 2 ^ 56)
    (hrun : ∀ fuel, runGranules q i env 0 (fuel + m) (putQu q (holding x d) s) = putQu q (holding xt dt) t) (hm : m ≤ 70)
    (hid : dt.id = i) (hended : dt.ended.isNone = false) :
    runDesc q i env (putQu q (holding x d) s) = putQu q (holding xt dt) t := by
  have hclear : ({ d with yielded := false, wantTag := false, wantGrt := false } : Desc) = d := by
    obtain ⟨hy, ht, hg⟩ := hmark
    cases d
    simp_all
  have hnosrc : ∀ u : State, ¬ (d.srcg = true ∧ isRemote u d.src = true) := fun u hr =>
    Bool.false_ne_true ((isRemote_low (hsrc hr.1)).symm.trans hr.2)
  have hnodst : ∀ u : State, ¬ (d.dstg = true ∧ isRemote u d.dst = true) := fun u hr =>
    Bool.false_ne_true ((isRemote_low (hdst hr.1)).symm.trans hr.2)
  have hfuel : granuleFuel d = d.len + 70 - m + m := by
    rw [granuleFuel]
    omega
  rw [runDesc, modDesc_holding h.id, hclear, qu_putQu, desc_holding h.id]
  dsimp only
  rw [if_neg (by simp [h.ended, h.stopped]), if_neg (fun hr => hnosrc _ ⟨hr.1, hr.2.1⟩), if_neg (fun hr => hnosrc _ ⟨hr.1, hr.2.1⟩), hfuel, hrun,
    if_neg (hnodst _), qu_putQu, desc_holding hid]
  dsimp only
  rw [hended, if_neg (fun hr => Bool.false_ne_true hr.1)]

/-- What is the same of two descriptors between two steps of their transfer. -/
structure SameTransfer (d e : Desc) : Prop where
  raw : e.raw = d.raw
  off : e.off = d.off
  bufEnd : e.bufEnd = d.bufEnd

theorem SameTransfer.refl (d : Desc) : SameTransfer d d := ⟨rfl, rfl, rfl⟩

theorem totalBytes_movedOn {n : Nat} {e : Desc} (hsame : SameTransfer d e) (htotal : totalBytes d = n) (hoff : d.off = 0)
    (hbuf : d.opc = 3 → e.buf.length ≤ n) : totalBytes (movedOn n e) = n := by
  have hopc : (movedOn n e).opc = d.opc := congrArg (fld · 0 4) hsame.raw
  have hlen : (movedOn n e).len = d.len := congrArg (fld · 32 32) hsame.raw
  rw [totalBytes, hopc, hlen]
  split
  · next h3 =>
    have := hbuf h3
    simp only [movedOn, hsame.off, hoff, List.length_drop]
    omega
  · next h3 => rwa [totalBytes, if_neg h3] at htotal

/-- A transfer of one granule, but a STREAM_IN: its granule is moved and it ends with the count. -/
theorem runDesc_oneGranule {v b z : State} {env : Option DescEnv} {n : Nat} {parts : List (Nat × Nat)} {bytes : List (Byte × Bool)} {e : Desc}
    (h : Underway i d) (hmark : Unmarked d) (hopc : d.opc ≠ 2) (hoff : d.off = 0) (hn : 0 < n) (htotal : totalBytes d = n)
    (hlast : d.opc = 3 → d.bufEnd = 1) (hplain : encrypted x d = false) (hend : granuleEnd x d 0 n = n)
    (hsrc : d.srcg = true → d.src < 2 ^ 56) (hdst : d.dstg = true → d.dst < 2 ^ 56) (hsides : (d.srcg && d.dstg) = false)
    (hparts : (if d.srcHost || d.dstHost then translateParts q i (if d.srcHost then 2 else 3) d.dstHost ((if d.srcHost then d.src else d.dst) + 0) n
      (putQu q (holding x d) s) else (some [], none, putQu q (holding x d) s)) = (some parts, none, putQu q (holding x d) s))
    (hread : (if d.srcHost then hostReady q i 0 n parts env (putQu q (holding x d) s) else (true, putQu q (holding x d) s)) = (true, v))
    (hquiet : sideAborts v = false ∧ downLinks v = [] ∧ grottoTagFree v = true)
    (hsource : granuleSource q i 0 n d.bad v = (bytes, b))
    (hsink : granuleSink q i 0 parts bytes d.bad b = putQu q (holding x e) z)
    (he : Underway i e) (hsame : SameTransfer d e) (hbuf : d.opc = 3 → e.buf.length ≤ n) (hremote : ∀ m ∈ z.net.remotes, m.queue ≠ q) :
    runDesc q i env (putQu q (holding x d) s) = putQu q (holding (hasMoved n x) (descDone 0 n (movedOn n e))) z := by
  obtain ⟨habort, hdown, htag⟩ := hquiet
  have hlinks : granuleStopped v d 0 n = false := by simp [granuleStopped, sideStopped, hdown]
  have hmore : ∀ c : Desc, c.opc = d.opc → c.bufEnd = d.bufEnd → moreBeats c = false := fun c hc hce => by
    rw [moreBeats, hc, hce]
    by_cases h3 : d.opc = 3
    · simp [hlast h3]
    · simp [h3]
  have hopce : (movedOn n e).opc = d.opc := congrArg (fld · 0 4) hsame.raw
  have hoffe : (movedOn n e).off = n := by
    rw [movedOn, hsame.off, hoff, Nat.zero_add]
  have hmoved : Underway i (movedOn n e) := ⟨he.id, he.ended, he.stopped, he.poison, he.remq⟩
  have hall : totalBytes (movedOn n e) ≤ readPos (movedOn n e) := by
    rw [totalBytes_movedOn hsame htotal hoff hbuf, readPos, if_neg (by rwa [hopce]), hoffe]
  have hsides' : ((movedOn n e).srcg && (movedOn n e).dstg) = false := by
    have : (movedOn n e).raw = d.raw := hsame.raw
    rw [Desc.srcg, Desc.dstg, this]
    exact hsides
  refine runDesc_ended (m := 2) h hmark hsrc hdst (fun fuel => ?_) (by decide) hmoved.id rfl
  rw [runGranules_moves h hopc hoff hn htotal (hmore d rfl rfl) hplain hend hparts hread habort hlinks htag hsource hsink he.id,
    runGranules_ends hmoved (emitBeats_other hmoved.id (by rwa [hopce]) 64) hall (fun h2 => absurd (hopce.symm.trans h2) hopc)
      (hmore _ hopce hsame.bufEnd) (fun h3 => hsame.bufEnd.trans (hlast (hopce.symm.trans h3))) hsides' hremote, hoffe]

end

end Sys2Proof

/-! FILL, COPY and STREAM_OUT within one granule (R335 to R337). -/

namespace Sys2Proof

open Sys2Proof.Machine

/-! ### What a start has checked -/

section
variable {s : State} {q i a : Nat} {w : BitVec 256}

theorem fld_mod_grotto (w : BitVec 256) (lo : Nat) : fld w lo 64 % 2 ^ 27 = fld w lo 27 := by
  rw [fld, fld, Nat.mod_mod_of_dvd _ (pow_dvd_pow 2 (by decide))]

theorem readyFor.badField (h : readyFor s q w i a) : badField (s.qu q) (running w i a) = false := by
  obtain ⟨-, -, -, -, hstart⟩ := h
  rw [startRefusal] at hstart
  split at hstart
  · exact absurd hstart (by simp)
  · split at hstart
    · exact absurd hstart (by simp)
    · next hno => exact Bool.eq_false_iff.2 hno

/-- A transfer that starts has bytes to move and Grotto addresses within Grotto (R333, R413). -/
theorem readyFor.fields (h : readyFor s q w i a) (hlow : 1 ≤ fld w 0 4) (hhigh : fld w 0 4 ≤ 4) :
    badFlags (running w i a) = false ∧ 0 < fld w 32 32 ∧ ∀ g ∈ (running w i a).grottoAddrs, badGrottoAddr g (fld w 32 32) = false := by
  have hfield := h.badField
  have hopc : (running w i a).opc = fld w 0 4 := rfl
  have hlen : (running w i a).len = fld w 32 32 := rfl
  rw [Machine.badField] at hfield
  simp only [Bool.or_eq_false_iff] at hfield
  obtain ⟨⟨⟨⟨⟨hflags, -⟩, huse⟩, -⟩, -⟩, haddr⟩ := hfield
  refine ⟨hflags, ?_, fun g hg => ?_⟩
  · rw [hopc, decide_eq_true hlow, decide_eq_true hhigh, Bool.and_self, Bool.true_or, if_pos rfl, hlen] at huse
    exact Nat.pos_of_ne_zero (by simpa using huse)
  · exact Bool.eq_false_iff.2 (List.any_eq_false.1 haddr g hg)

/-- An image that starts to load has bytes (R338). -/
theorem readyFor.imageLen (h : readyFor s q w i a) (hopc : fld w 0 8 = 5) : 0 < fld w 32 32 := by
  obtain ⟨hlow, hsub⟩ := fld_halves w (lo := 5) (hi := 0) (by decide) hopc
  have hfield := h.badField
  have hopc5 : (running w i a).opc = 5 := hlow
  have hsub0 : (running w i a).sub = 0 := hsub
  have hlen : (running w i a).len = fld w 32 32 := rfl
  rw [Machine.badField] at hfield
  simp only [Bool.or_eq_false_iff] at hfield
  obtain ⟨⟨⟨⟨-, huse⟩, -⟩, -⟩, -⟩ := hfield
  rw [hopc5, hsub0, if_pos (by decide), hlen] at huse
  exact Nat.pos_of_ne_zero (by simpa using huse)

/-- FLAGS.SRCG is for COPY and STREAM_IN (Table Queues-5). -/
theorem srcg_of_badFlags {d : Desc} (h : badFlags d = false) (hopc : 2 < d.opc) : d.srcg = false := by
  have hone : (d.opc == 1) = false := beq_eq_false_iff_ne.2 (by omega)
  have htwo : (d.opc == 2) = false := beq_eq_false_iff_ne.2 (by omega)
  rw [badFlags] at h
  simp only [Bool.or_eq_false_iff, hone, htwo, Bool.or_self, Bool.not_false, Bool.and_true] at h
  exact h.1.1.1.2

theorem badGrottoAddr_low {g n : Nat} (h : badGrottoAddr g n = false) (hg : g < 2 ^ 56) : g < 2 ^ 27 ∧ g + n ≤ 2 ^ 27 := by
  rw [badGrottoAddr] at h
  simp only [Bool.or_eq_false_iff, bne_eq_false_iff_eq, decide_eq_false_iff_not] at h
  obtain ⟨⟨-, hmid⟩, hend⟩ := h
  omega

end

/-! ### Grotto during a transfer -/

section
variable {s : State} {q i a : Nat} {x : Queue} {d : Desc} {w : BitVec 256}

theorem putQu_self {t : State} (h : t.que = (putQu q x s).que) : putQu q x t = t := by
  have hque : tabSet {} t.que q x = t.que := by
    rw [h]
    exact tabSet_tabSet ..
  rw [putQu, hque]

theorem quietGrotto.putQu (h : quietGrotto s) (htags : tagsOf x ≤ tagsOf (s.qu q)) : quietGrotto (putQu q x s) := by
  obtain ⟨habort, hdown, htag, hrest⟩ := h
  exact ⟨habort, hdown, grottoTagFree_putQu htags htag, hrest⟩

theorem quietGrotto.side (h : quietGrotto s) : sideAborts s = false ∧ downLinks s = [] ∧ grottoTagFree s = true :=
  ⟨h.1, h.2.1, h.2.2.1⟩

/-- The bytes of a granule, none poisoned. -/
def cleanBytes (l : List Byte) : List (Byte × Bool) := l.map fun b => (b, false)

/-- Unpoisoned bytes go into this device's Grotto (R262, R278). -/
theorem granuleSink_grotto (hid : d.id = i) (hopc : d.opc ≠ 2) (hdstg : d.dstg = true) (hbad : d.bad = []) (hlow : d.dst < 2 ^ 56) (l : List Byte)
    (hend : d.dst % 2 ^ 27 + l.length ≤ 2 ^ 27) (hcalm : Calm (putQu q (holding x d) s)) (parts : List (Nat × Nat)) :
    ∃ z, granuleSink q i 0 parts (cleanBytes l) d.bad (putQu q (holding x d) s) = putQu q (holding x d) z ∧
      Patched 1 (transferByte (d.dst % 2 ^ 27) (l.map some)) (putQu q (holding x d) s) z := by
  have hhost : d.dstHost = false := by rw [Desc.dstHost, hdstg, Bool.not_true, Bool.and_false]
  have hclean : ∀ (base : Nat), (fun w => (List.range 8).any fun j =>
      decide (base ≤ 8 * w + j) && (((cleanBytes l)[8 * w + j - base]?).map (·.2)).getD false) = fun _ => false := fun base => by
    have hbyte : ∀ k : Nat, (((cleanBytes l)[k]?).map (·.2)).getD false = false := fun k => by
      rw [cleanBytes, List.getElem?_map]
      cases l[k]? <;> rfl
    refine funext fun w => List.any_eq_false.2 fun j _ => ?_
    rw [hbyte, Bool.and_false]
    exact Bool.false_ne_true
  have hwritten := sideWrite_calm hcalm 1 (d.dst % 2 ^ 27) (by decide) (l.map some) (by rw [List.length_map]; exact hend)
  have hsink : granuleSink q i 0 parts (cleanBytes l) d.bad (putQu q (holding x d) s) =
      sideWrite 1 (d.dst % 2 ^ 27) (l.map some) (fun _ => false) [] (putQu q (holding x d) s) := by
    have hbytes : (cleanBytes l).map (fun b => some b.1) = l.map some := by
      rw [cleanBytes, List.map_map]
      rfl
    rw [granuleSink, qu_putQu, desc_holding hid]
    dsimp only
    rw [hhost, if_neg Bool.false_ne_true, if_neg hopc, isRemote_low hlow, if_neg Bool.false_ne_true, hclean, hbytes, hbad, Nat.add_zero]
  obtain ⟨z, hz⟩ : ∃ z, sideWrite 1 (d.dst % 2 ^ 27) (l.map some) (fun _ => false) [] (putQu q (holding x d) s) = z := ⟨_, rfl⟩
  rw [hz] at hsink hwritten
  have hque : z.que = (putQu q (holding x d) s).que := hwritten.frame .que (by decide)
  exact ⟨z, hsink.trans (putQu_self hque).symm, hwritten⟩

theorem storedAt_of_patched {t : State} {g : Nat} {l : List Byte} (h : Patched 1 (transferByte g (l.map some)) s t) : storedAt s t g l := by
  refine ⟨fun j hj => ?_, fun o ho => ?_⟩
  · have hbyte : transferByte g (l.map some) (g + j) = some (l.getD j 0) := by
      rw [transferByte, if_neg (by omega), Nat.add_sub_cancel_left, List.getD_eq_getElem?_getD, List.getD_eq_getElem?_getD, List.getElem?_map,
        List.getElem?_eq_getElem hj]
      rfl
    rw [h.byte, hbyte]
    rfl
  · rw [h.byte, transferByte_outside _ (by rwa [List.length_map])]
    rfl

/-- What a transfer of n bytes has come to when it has ended. -/
theorem descEnded_moved {n : Nat} (e : Desc) (hraw : e.raw = w) :
    descEnded (putQu q (holding (hasMoved n x) (descDone 0 n (movedOn n e))) s) q w 0 n := by
  refine ⟨descDone 0 n (movedOn n e), ?_, hraw, rfl⟩
  rw [qu_putQu]
  rfl

theorem holding_tags (hctx : (s.qu q).context = [fetched w i a]) (hreads : d.reads = []) : tagsOf (holding (s.qu q) d) ≤ tagsOf (s.qu q) :=
  tagsOf_holding_le hctx (by rw [hreads]; exact Nat.zero_le _)

theorem underway_running : Underway i (running w i a) := ⟨rfl, rfl, rfl, rfl, rfl⟩

theorem unmarked_running : Unmarked (running w i a) := ⟨rfl, rfl, rfl⟩

end

/-! ### Transfers into Grotto -/

section
variable {s : State} {q i a : Nat} {x : Queue} {d e : Desc} {w : BitVec 256}

/-- A transfer of one granule into this device's Grotto (R335 to R337). -/
theorem runDesc_intoGrotto {v b : State} {env : Option DescEnv} {n : Nat} {parts : List (Nat × Nat)} {l : List Byte}
    (h : Underway i d) (hmark : Unmarked d) (hopc : d.opc ≠ 2) (hoff : d.off = 0) (hn : 0 < n) (htotal : totalBytes d = n)
    (hlast : d.opc = 3 → d.bufEnd = 1) (hplain : encrypted x d = false) (hend : granuleEnd x d 0 n = n) (hbad : d.bad = [])
    (hsrcg : d.srcg = false) (hdstg : d.dstg = true) (hlow : d.dst < 2 ^ 56) (hfit : d.dst % 2 ^ 27 + n ≤ 2 ^ 27)
    (hparts : (if d.srcHost || d.dstHost then translateParts q i (if d.srcHost then 2 else 3) d.dstHost ((if d.srcHost then d.src else d.dst) + 0) n
      (putQu q (holding x d) s) else (some [], none, putQu q (holding x d) s)) = (some parts, none, putQu q (holding x d) s))
    (hread : (if d.srcHost then hostReady q i 0 n parts env (putQu q (holding x d) s) else (true, putQu q (holding x d) s)) = (true, v))
    (hquiet : quietGrotto v) (hsource : granuleSource q i 0 n d.bad v = (cleanBytes l, putQu q (holding x e) b)) (hlen : l.length = n)
    (hcalm : Calm (putQu q (holding x e) b))
    (he : Underway i e) (hsame : SameTransfer d e) (hebad : e.bad = d.bad) (hbuf : d.opc = 3 → e.buf.length ≤ n)
    (hremote : ∀ m ∈ b.net.remotes, m.queue ≠ q) :
    ∃ z, runDesc q i env (putQu q (holding x d) s) = putQu q (holding (hasMoved n x) (descDone 0 n (movedOn n e))) z ∧
      Patched 1 (transferByte (d.dst % 2 ^ 27) (l.map some)) (putQu q (holding x e) b) z := by
  have hopce : e.opc = d.opc := congrArg (fld · 0 4) hsame.raw
  have hdste : e.dst = d.dst := congrArg (fld · 128 64) hsame.raw
  have hdstge : e.dstg = true := (congrArg (bit · 11) hsame.raw).trans hdstg
  obtain ⟨z, hsink, hz⟩ := granuleSink_grotto he.id (by rwa [hopce]) hdstge (hebad.trans hbad) (by rwa [hdste]) l (by rwa [hdste, hlen]) hcalm parts
  rw [hebad] at hsink
  rw [hdste] at hz
  have hnet : z.net = b.net := hz.frame .net (by decide)
  exact ⟨z, runDesc_oneGranule h hmark hopc hoff hn htotal hlast hplain hend (fun hs => absurd (hsrcg.symm.trans hs) Bool.false_ne_true)
    (fun _ => hlow) (by rw [hsrcg, Bool.false_and]) hparts hread hquiet.side hsource hsink he hsame hbuf (by rwa [hnet]), hz⟩

/-- What such a transfer leaves. -/
theorem intoGrotto_leaves {b z : State} {n g : Nat} {l : List Byte} {parts : List Part} (hraw : e.raw = w)
    (hz : Patched 1 (transferByte g (l.map some)) (putQu q (holding x e) b) z) (hgrt : b.grt = s.grt) (hframe : OnlyChanges parts s b)
    (hque : Part.que ∈ parts) (hgrtp : Part.grt ∈ parts) :
    descEnded (putQu q (holding (hasMoved n x) (descDone 0 n (movedOn n e))) z) q w 0 n ∧
      storedAt s (putQu q (holding (hasMoved n x) (descDone 0 n (movedOn n e))) z) g l ∧
      OnlyChanges parts s (putQu q (holding (hasMoved n x) (descDone 0 n (movedOn n e))) z) := by
  have hbyte : ∀ o, grottoByte (putQu q (holding x e) b) o = grottoByte s o := fun o => by
    have : (putQu q (holding x e) b).grt = s.grt := hgrt
    rw [grottoByte, this, ← grottoByte]
  obtain ⟨hin, hout⟩ := storedAt_of_patched hz
  refine ⟨descEnded_moved e hraw, ⟨fun j hj => hin j hj, fun o ho => (hout o ho).trans (hbyte o)⟩, ?_⟩
  exact (hframe.trans (putQu_within.frame.mono (by simpa using hque))).trans
    ((hz.frame.mono (by simpa using hgrtp)).trans (putQu_within.frame.mono (by simpa using hque)))

theorem quiet_started (h : readyFor s q w i a) (hquiet : quietGrotto s) :
    quietGrotto (putQu q (holding (s.qu q) (running w i a)) (servedTwice q s)) := by
  obtain ⟨-, -, -, hctx, -⟩ := h
  exact quietGrotto.putQu (s := servedTwice q s) hquiet (holding_tags hctx rfl)

/-- A granule of one line is the whole transfer. -/
theorem granuleEnd_line (henc : x.enc = false) {n : Nat}
    (hline : (if d.srcHost || d.dstHost then (if d.srcHost then d.src else d.dst) else if d.opc = 2 then d.src else d.dst) % 64 + n ≤ 64) :
    granuleEnd x d 0 n = n := by
  rw [granuleEnd, encrypted, henc, Bool.false_and, Bool.false_and, Bool.false_and, if_neg Bool.false_ne_true, if_neg Bool.false_ne_true]
  split
  · next hh =>
    rw [if_pos hh] at hline
    omega
  · next hh =>
    rw [if_neg hh] at hline
    omega

theorem encrypted_plain (henc : x.enc = false) : encrypted x d = false := by
  rw [encrypted, henc, Bool.false_and, Bool.false_and]

end

/-! ### FILL -/

section
variable {s : State} {q : QueueId} {i a : Nat} {w : BitVec 256} {env : DescEnv}

/-- The bytes of a FILL's pattern at a destination (R336). -/
def fillBytes (pattern g n : Nat) : List Byte := (List.range n).map fun j => BitVec.ofNat 8 (pattern >>> (8 * ((g + j) % 8)))

theorem descFill_moves (h : readyFor s q w i a) (hquiet : quietGrotto s) (hplain : (s.qu q).enc = false) (htlb : env.tlbBad = [])
    (hbad : env.addrErr = []) (hfree : contested s q = false) (hremote : ∀ m ∈ s.net.remotes, m.queue ≠ q.val)
    (hopc : fld w 0 8 = 4) (hdstg : bit w 11 = true) (hlow : fld w 128 64 < 2 ^ 56) (hline : fld w 128 64 % 64 + fld w 32 32 ≤ 64) :
    Completes (.descFill q env) s fun t =>
      descEnded t q w 0 (fld w 32 32) ∧ (t.qu q).bytes = (s.qu q).bytes.add (fld w 32 32) ∧
      storedAt s t (fld w 128 27) ((List.range (fld w 32 32)).map fun j =>
        BitVec.ofNat 8 (fld w 64 64 >>> (8 * ((fld w 128 27 + j) % 8)))) ∧ OnlyChanges [.que, .arb, .grt] s t := by
  obtain ⟨hlo, -⟩ := fld_halves w (lo := 4) (hi := 0) (by decide) hopc
  obtain ⟨hflags, hn, haddr⟩ := h.fields (by omega) (by omega)
  have hopc4 : (running w i a).opc = 4 := hlo
  have hdstg' : (running w i a).dstg = true := hdstg
  have hsrcHost : (running w i a).srcHost = false := by simp [Desc.srcHost, hopc4]
  have hdstHost : (running w i a).dstHost = false := by simp [Desc.dstHost, hdstg']
  have hsrcg : (running w i a).srcg = false := srcg_of_badFlags hflags (by rw [hopc4]; decide)
  obtain ⟨hdst, hfit⟩ := badGrottoAddr_low (haddr (fld w 128 64) (by simp [Desc.grottoAddrs, hopc4, hdstg']; rfl)) hlow
  have hg : fld w 128 64 % 2 ^ 27 = fld w 128 27 := fld_mod_grotto w 128
  have hexec : exec (.descFill q env) s = .next (dataCommand q 4 env (fun _ s => s) s) := rfl
  rw [dataCommand_ready h hfree hplain (by decide) hopc htlb hbad (by omega)] at hexec
  have hquiet' := quiet_started h hquiet
  have hno3 : ∀ {p : Prop}, (running w i a).opc = 3 → p := fun h3 => absurd (hopc4.symm.trans h3) (by decide)
  have hside : (if (running w i a).srcHost || (running w i a).dstHost then (if (running w i a).srcHost then (running w i a).src
      else (running w i a).dst) else if (running w i a).opc = 2 then (running w i a).src else (running w i a).dst) % 64 + fld w 32 32 ≤ 64 := by
    rw [hsrcHost, hdstHost, hopc4]
    exact hline
  have hsource : granuleSource q i 0 (fld w 32 32) (running w i a).bad (putQu q (holding (s.qu q) (running w i a)) (servedTwice q s)) =
      (cleanBytes (fillBytes (fld w 64 64) (fld w 128 27) (fld w 32 32)), putQu q (holding (s.qu q) (running w i a)) (servedTwice q s)) := by
    rw [granuleSource, qu_putQu, desc_holding (i := i) rfl]
    dsimp only
    rw [hopc4, cleanBytes, fillBytes, List.map_map]
    refine congrArg (·, _) (List.map_congr_left fun j hj => ?_)
    have hmod : ((running w i a).dst + 0 + j) % 2 ^ 27 % 8 = (fld w 128 27 + j) % 8 := by
      change (fld w 128 64 + 0 + j) % 2 ^ 27 % 8 = _
      omega
    rw [hdstg', if_pos rfl, hmod]
    rfl
  obtain ⟨z, hrun, hz⟩ := runDesc_intoGrotto (env := some env) (parts := []) underway_running unmarked_running (by rw [hopc4]; decide) rfl hn
    (by rw [totalBytes, hopc4]; rfl) hno3 (encrypted_plain hplain) (granuleEnd_line hplain hside) rfl
    hsrcg hdstg' hlow (by change fld w 128 64 % _ + _ ≤ _; omega) (by rw [hsrcHost, hdstHost]; rfl) (by rw [hsrcHost]; rfl) hquiet' hsource
    (by simp [fillBytes]) hquiet'.calm underway_running (SameTransfer.refl _) rfl hno3 hremote
  obtain ⟨hended, hstored, hframe⟩ := intoGrotto_leaves (s := s) (n := fld w 32 32) (parts := [.que, .arb, .grt]) rfl hz rfl
    (servedTwice_within.frame.mono (by decide)) (by decide) (by decide)
  rw [hrun] at hexec
  refine ⟨_, hexec, hended, ?_, ?_, hframe⟩
  · rw [qu_putQu]
    rfl
  · exact hg ▸ hstored

end

end Sys2Proof

/-! COPY and STREAM_OUT within one granule (R335, R337). -/

namespace Sys2Proof

open Sys2Proof.Machine

/-! ### COPY from the host -/

section
variable {s : State} {q i : Nat} {x : Queue} {d : Desc}

/-- The descriptor after its granule's host bytes have been used. -/
def hostUsed (n : Nat) (d : Desc) : Desc := { d with hbuf := d.hbuf.drop n }

/-- Host bytes that have come are a granule's data. -/
theorem granuleSource_host (hid : d.id = i) (hthree : d.opc ≠ 3) (hfour : d.opc ≠ 4) (hhost : d.srcHost = true) (n : Nat) (bad : List Nat) :
    granuleSource q i 0 n bad (putQu q (holding x d) s) = (cleanBytes (fitBytes n d.hbuf), putQu q (holding x (hostUsed n d)) s) := by
  have hmod := modDesc_holding (q := q) (x := x) (s := s) hid (hostUsed n)
  rw [granuleSource, qu_putQu, desc_holding hid]
  dsimp only
  split
  · next h4 => exact absurd h4 hfour
  · next h3 => exact absurd h3 hthree
  · rw [if_pos hhost]
    exact congrArg (_, ·) hmod

theorem fitBytes_read (n : Nat) (l : List Byte) : fitBytes n ((l.drop 0).take n) = (List.range n).map fun j => l.getD j 0 := by
  rw [fitBytes, List.drop_zero]
  refine List.map_congr_left fun j hj => ?_
  rw [List.getD_eq_getElem?_getD, List.getD_eq_getElem?_getD, List.getElem?_take_of_lt (List.mem_range.1 hj)]

end

section
variable {s : State} {q : QueueId} {i a : Nat} {w : BitVec 256} {env : DescEnv}

theorem descCopy_fromHost (h : readyFor s q w i a) (hquiet : quietGrotto s) (hbypass : (s.qu q).bypass = true) (hplain : (s.qu q).enc = false)
    (htlb : env.tlbBad = []) (hbad : env.addrErr = []) (hfree : contested s q = false) (hremote : ∀ m ∈ s.net.remotes, m.queue ≠ q.val)
    (hopc : fld w 0 8 = 1) (hsrcg : bit w 10 = false) (hdstg : bit w 11 = true) (hlow : fld w 128 64 < 2 ^ 56)
    (hline : fld w 64 64 % 64 + fld w 32 32 ≤ 64) (htag : hostTagFree s = true) (hmax : 64 ≤ s.pci.maxRead)
    (hdata : fld w 32 32 ≤ env.hostData.length) : Completes (.descCopy q env) s fun t =>
      descEnded t q w 0 (fld w 32 32) ∧ t.out = s.out ++ [.hostRead 0 q (fld w 64 64) (fld w 32 32)] ∧
      storedAt s t (fld w 128 27) ((List.range (fld w 32 32)).map fun j => env.hostData.getD j 0) ∧
      OnlyChanges [.que, .arb, .grt, .out] s t := by
  obtain ⟨hlo, -⟩ := fld_halves w (lo := 1) (hi := 0) (by decide) hopc
  obtain ⟨-, hn, haddr⟩ := h.fields (by omega) (by omega)
  obtain ⟨hsolo, hmasters, -, hctx, -⟩ := id h
  obtain ⟨n, hlen⟩ : ∃ n, fld w 32 32 = n := ⟨_, rfl⟩
  rw [hlen] at hline hdata hn haddr ⊢
  obtain ⟨d, hd⟩ : ∃ d, running w i a = d := ⟨_, rfl⟩
  have hopc1 : d.opc = 1 := hd ▸ hlo
  have hdstg' : d.dstg = true := hd ▸ hdstg
  have hsrcg' : d.srcg = false := hd ▸ hsrcg
  have hsrc : d.src = fld w 64 64 := hd ▸ rfl
  have hdst : d.dst = fld w 128 64 := hd ▸ rfl
  have hsrcHost : d.srcHost = true := by simp [Desc.srcHost, hopc1, hsrcg']
  have hdstHost : d.dstHost = false := by simp [Desc.dstHost, hdstg']
  have hno3 : ∀ {p : Prop}, d.opc = 3 → p := fun h3 => absurd (hopc1.symm.trans h3) (by decide)
  obtain ⟨-, hfit⟩ := badGrottoAddr_low (haddr (fld w 128 64) (by rw [hd]; simp [Desc.grottoAddrs, hopc1, hdstg', hdst])) hlow
  have hexec : exec (.descCopy q env) s = .next (dataCommand q 1 env (fun _ s => s) s) := rfl
  rw [dataCommand_ready h hfree hplain (by decide) hopc htlb hbad (by omega), hd] at hexec
  have hparts := translateParts_line (s := servedTwice q s) (q := q) (i := i) (d := d) hbypass 2 false hline
  have hread := hostReady_line (s := servedTwice q s) (q := q) (x := s.qu q) (d := d) (i := i) (o := 0) (va := fld w 64 64) hsolo hmasters
    (hd ▸ rfl) hn (Nat.le_trans (by omega) hmax) (hd ▸ rfl) (hd ▸ rfl) (hd ▸ rfl) (hd ▸ rfl) (encrypted_plain hplain)
    (hostTagFree_putQu (holding_tags hctx (hd ▸ rfl)) htag) env (by omega)
  have hquiet' : ∀ e : Desc, e.reads = [] → quietGrotto (putQu q (holding (s.qu q) e) ((servedTwice q s).send (.hostRead 0 q (fld w 64 64) n))) :=
    fun e he => quietGrotto.putQu (s := (servedTwice q s).send _) hquiet (holding_tags hctx he)
  obtain ⟨z, hrun, hz⟩ := runDesc_intoGrotto (s := servedTwice q s) (q := q) (i := i) (x := s.qu q) (d := d) (env := some env) (n := n)
    (parts := [(fld w 64 64, n)]) (hd ▸ underway_running) (hd ▸ unmarked_running) (by rw [hopc1]; decide) (hd ▸ rfl) hn
    (by rw [totalBytes, if_neg (by rw [hopc1]; decide)]; exact hd ▸ hlen) hno3 (encrypted_plain hplain)
    (granuleEnd_line hplain (by rw [hsrcHost, hsrc]; exact hline)) (hd ▸ rfl)
    hsrcg' hdstg' (by rwa [hdst]) (by rw [hdst]; omega) (by rw [hsrcHost, hdstHost, hsrc]; exact hparts)
    (by rw [hsrcHost]; exact hread) (hquiet' _ rfl)
    (granuleSource_host (d := hasRead 0 n env.hostData d) (hd ▸ rfl) (by exact hno3) (fun h4 => absurd (hopc1.symm.trans h4) (by decide)) hsrcHost n d.bad)
    (by simp [fitBytes]) (hquiet' _ rfl).calm (hd ▸ ⟨rfl, rfl, rfl, rfl, rfl⟩) ⟨rfl, rfl, rfl⟩ rfl hno3 hremote
  obtain ⟨hended, hstored, hframe⟩ := intoGrotto_leaves (s := s) (w := w) (n := n) (parts := [.que, .arb, .grt, .out]) (hd ▸ rfl) hz rfl
    ((servedTwice_within.frame.mono (by decide)).trans (onlyChanges_send _ _ (by decide))) (by decide) (by decide)
  rw [hrun] at hexec
  refine ⟨_, hexec, hended, ?_, ?_, hframe⟩
  · exact hz.frame .out (by decide)
  · have hread' : fitBytes n (hasRead 0 n env.hostData d).hbuf = (List.range n).map fun j => env.hostData.getD j 0 := fitBytes_read n _
    rw [hread', hdst, fld_mod_grotto] at hstored
    exact hstored

end

/-! ### COPY to the host -/

section
variable {s : State} {q i : Nat} {x : Queue} {d : Desc}

/-- Grotto's bytes are a granule's data (R276, R278). -/
theorem granuleSource_grotto (hid : d.id = i) (hopc : d.opc = 1) (hsrcg : d.srcg = true) (hlow : d.src < 2 ^ 56) (hbad : d.bad = []) {n : Nat}
    (hfit : d.src % 2 ^ 27 + n ≤ 2 ^ 27) (hcalm : Calm (putQu q (holding x d) s)) :
    ∃ z, granuleSource q i 0 n d.bad (putQu q (holding x d) s) =
        (cleanBytes ((List.range n).map fun j => grottoByte (putQu q (holding x d) s) (d.src % 2 ^ 27 + j)), putQu q (holding x d) z) ∧
      Patched 0 (fun _ => none) (putQu q (holding x d) s) z := by
  have hhost : d.srcHost = false := by simp [Desc.srcHost, hopc, hsrcg]
  obtain ⟨hbytes, hpatched⟩ := sideBytes_calm hcalm 2 (d.src % 2 ^ 27) (d.src % 2 ^ 27) n (by exact hfit)
  obtain ⟨r, hr⟩ : ∃ r, sideBytes 2 (d.src % 2 ^ 27) (d.src % 2 ^ 27) n [] (putQu q (holding x d) s) = r := ⟨_, rfl⟩
  rw [hr] at hbytes hpatched
  have hque : r.2.que = (putQu q (holding x d) s).que := hpatched.frame .que (by decide)
  refine ⟨r.2, ?_, hpatched⟩
  rw [granuleSource, qu_putQu, desc_holding hid]
  dsimp only
  split
  · next h4 => exact absurd (hopc.symm.trans h4) (by decide)
  · next h3 => exact absurd (hopc.symm.trans h3) (by decide)
  · rw [hhost, if_neg Bool.false_ne_true, isRemote_low hlow, if_neg Bool.false_ne_true, Nat.add_zero, hbad, hr, putQu_self hque]
    refine Prod.ext ?_ rfl
    rw [hbytes, cleanBytes, List.map_map]
    rfl

/-- Unpoisoned bytes within a line go to the host in one write (R310, R311). -/
theorem granuleSink_host (hid : d.id = i) (hdstHost : d.dstHost = true) (hplain : encrypted x d = false) (hsolo : s.twn.role = 0)
    (hmasters : s.masters = true) {va : Nat} {l : List Byte} (hn : 0 < l.length) (hmax : l.length ≤ s.pci.maxPayload) (bad : List Nat) :
    granuleSink q i 0 [(va, l.length)] (cleanBytes l) bad (putQu q (holding x d) s) =
      putQu q (holding x d) (s.send (.dataWrite q va s.pci.relaxed l)) := by
  have hclean : (cleanBytes l).findIdx? (·.2) = none := by
    rw [List.findIdx?_eq_none_iff]
    intro p hp
    obtain ⟨b, -, rfl⟩ := List.mem_map.1 hp
    rfl
  have hbytes : (cleanBytes l).map (·.1) = l := by
    rw [cleanBytes, List.map_map]
    exact List.map_id l
  have hreqs : requests (putQu q (holding x d) s).pci.maxPayload va l.length = [(va, l.length)] := requests_single hn hmax
  have hcrypt : crypt (putQu q (holding x d) s) (holding x d) d true 0 l = l := by
    have hplain' : encrypted (holding x d) d = false := hplain
    rw [crypt, hplain', if_neg Bool.false_ne_true]
  have hnone : (putQu q (holding x d) s).when ((putQu q (holding x d) s).twn.role == 1)
      (sendTwin 4 (leBytes 1 q ++ leBytes 2 d.cid ++ leBytes 4 (0 + (cleanBytes l).length))) = putQu q (holding x d) s := by
    rw [show (putQu q (holding x d) s).twn.role = 0 from hsolo]
    rfl
  have hnote : notePoison q i 0 (cleanBytes l) (putQu q (holding x d) s) = putQu q (holding x d) s := by
    rw [notePoison, hclean]
  rw [granuleSink, qu_putQu, desc_holding hid]
  dsimp only
  rw [if_pos hdstHost, hbytes, hcrypt, hnote, List.flatMap_cons, List.flatMap_nil, List.append_nil, hreqs, hnone, List.foldl_cons, List.foldl_nil]
  dsimp only
  rw [List.drop_zero, List.take_length]
  exact if_pos hmasters

end

section
variable {s : State} {q : QueueId} {i a : Nat} {w : BitVec 256} {env : DescEnv}

theorem descCopy_toHost (h : readyFor s q w i a) (hquiet : quietGrotto s) (hbypass : (s.qu q).bypass = true) (hplain : (s.qu q).enc = false)
    (htlb : env.tlbBad = []) (hbad : env.addrErr = []) (hfree : contested s q = false) (hremote : ∀ m ∈ s.net.remotes, m.queue ≠ q.val)
    (hopc : fld w 0 8 = 1) (hsrcg : bit w 10 = true) (hdstg : bit w 11 = false) (hlow : fld w 64 64 < 2 ^ 56)
    (hline : fld w 128 64 % 64 + fld w 32 32 ≤ 64) (hmax : 64 ≤ s.pci.maxPayload) : Completes (.descCopy q env) s fun t =>
      descEnded t q w 0 (fld w 32 32) ∧
      t.out = s.out ++ [.dataWrite q (fld w 128 64) s.pci.relaxed
        ((List.range (fld w 32 32)).map fun j => grottoByte s (fld w 64 27 + j))] ∧
      (∀ o, grottoByte t o = grottoByte s o) ∧ OnlyChanges [.que, .arb, .grt, .out] s t := by
  obtain ⟨hlo, -⟩ := fld_halves w (lo := 1) (hi := 0) (by decide) hopc
  obtain ⟨-, hn, haddr⟩ := h.fields (by omega) (by omega)
  obtain ⟨hsolo, hmasters, -, hctx, -⟩ := id h
  have hquiet' := quiet_started h hquiet
  obtain ⟨n, hlen⟩ : ∃ n, fld w 32 32 = n := ⟨_, rfl⟩
  rw [hlen] at hline hn haddr ⊢
  obtain ⟨d, hd⟩ : ∃ d, running w i a = d := ⟨_, rfl⟩
  rw [hd] at hquiet'
  have hopc1 : d.opc = 1 := hd ▸ hlo
  have hdstg' : d.dstg = false := hd ▸ hdstg
  have hsrcg' : d.srcg = true := hd ▸ hsrcg
  have hsrc : d.src = fld w 64 64 := hd ▸ rfl
  have hdst : d.dst = fld w 128 64 := hd ▸ rfl
  have hsrcHost : d.srcHost = false := by simp [Desc.srcHost, hopc1, hsrcg']
  have hdstHost : d.dstHost = true := by simp [Desc.dstHost, hopc1, hdstg']
  have hno3 : ∀ {p : Prop}, d.opc = 3 → p := fun h3 => absurd (hopc1.symm.trans h3) (by decide)
  obtain ⟨-, hfit⟩ := badGrottoAddr_low (haddr (fld w 64 64) (by rw [hd]; simp [Desc.grottoAddrs, hopc1, hsrcg', hsrc])) hlow
  have hexec : exec (.descCopy q env) s = .next (dataCommand q 1 env (fun _ s => s) s) := rfl
  rw [dataCommand_ready h hfree hplain (by decide) hopc htlb hbad (by omega), hd] at hexec
  obtain ⟨z, hsource, hz⟩ := granuleSource_grotto (q := q) (x := s.qu q) (s := servedTwice q s) (d := d) (i := i) (n := n) (hd ▸ rfl) hopc1 hsrcg'
    (by rwa [hsrc]) (hd ▸ rfl) (by rw [hsrc]; omega) hquiet'.calm
  obtain ⟨l, hl⟩ : ∃ l, ((List.range n).map fun j => grottoByte (putQu q (holding (s.qu q) d) (servedTwice q s)) (d.src % 2 ^ 27 + j)) = l := ⟨_, rfl⟩
  have hllen : l.length = n := by rw [← hl, List.length_map, List.length_range]
  rw [hl] at hsource
  have hframe : OnlyChanges [.que, .arb, .grt, .out] s z :=
    (servedTwice_within.frame.mono (by decide)).trans ((putQu_within.frame.mono (by decide)).trans (hz.frame.mono (by decide)))
  have hpci : z.pci = s.pci := hframe .pci (by decide)
  have hzmasters : z.masters = true := by
    rw [State.masters, State.twinStart, hframe .cfg (by decide), hframe .twn (by decide), hframe .lys (by decide)]
    exact hmasters
  have hsink := granuleSink_host (s := z) (q := q) (x := s.qu q) (d := d) (i := i) (va := fld w 128 64) (l := l) (hd ▸ rfl) hdstHost
    (encrypted_plain hplain) ((congrArg Twin.role (hframe .twn (by decide))).trans hsolo) hzmasters (by omega) (by rw [hpci]; omega) d.bad
  rw [hllen] at hsink
  have hnet : (z.send (.dataWrite q (fld w 128 64) z.pci.relaxed l)).net = s.net := hframe .net (by decide)
  have hrun := runDesc_oneGranule (s := servedTwice q s) (q := q) (i := i) (x := s.qu q) (d := d) (env := some env) (n := n)
    (parts := [(fld w 128 64, n)]) (hd ▸ underway_running) (hd ▸ unmarked_running) (by rw [hopc1]; decide) (hd ▸ rfl) hn
    (by rw [totalBytes, if_neg (by rw [hopc1]; decide)]; exact hd ▸ hlen) hno3 (encrypted_plain hplain)
    (granuleEnd_line hplain (by rw [hsrcHost, hdstHost, hdst]; exact hline)) (fun _ => by rwa [hsrc])
    (fun hon => absurd (hdstg'.symm.trans hon) Bool.false_ne_true) (by rw [hdstg', Bool.and_false])
    (by rw [hsrcHost, hdstHost, hdst]; exact translateParts_line hbypass 3 true hline) (by rw [hsrcHost]; rfl)
    hquiet'.side hsource hsink (hd ▸ underway_running) (SameTransfer.refl d) hno3 (by rwa [hnet])
  rw [hrun] at hexec
  have hbyte : ∀ o, grottoByte z o = grottoByte s o := fun o => hz.byte o
  refine ⟨_, hexec, descEnded_moved d (hd ▸ rfl), ?_, hbyte,
    (hframe.trans (onlyChanges_send _ _ (by decide))).trans (putQu_within.frame.mono (by decide))⟩
  have hout : z.out = s.out := hz.frame .out (by decide)
  have hread : l = (List.range n).map fun j => grottoByte s (fld w 64 27 + j) := by
    rw [← hl, hsrc, fld_mod_grotto]
    rfl
  rw [← hread, ← hout, ← hpci]
  rfl

end

/-! ### STREAM_OUT -/

section
variable {s : State} {q i : Nat} {x : Queue} {d : Desc}

/-- The descriptor that has taken one last beat of n bytes (R337). -/
def beatTaken (l : List Byte) (d : Desc) : Desc := { d with buf := cleanBytes l, lens := [l.length], bufEnd := 1 }

theorem takeBeats_last {b : Beat} (hok : beatOk b = true) (hlast : b.last = true) (hend : d.bufEnd = 0) (hoff : d.off = 0) (hbuf : d.buf = [])
    (hlens : d.lens = []) (hlen : d.len = b.bytes.toNat + 1) :
    takeBeats [b] d = beatTaken ((leBytes 64 b.data.toNat).take d.len) d := by
  have hbytes : b.bytes.toNat < 64 := b.bytes.isLt
  have hroom : d.len - (d.off + d.buf.length) = d.len := by rw [hoff, hbuf]; rfl
  have htake : ((leBytes 64 b.data.toNat).take d.len).length = d.len := by
    rw [List.length_take, length_leBytes]
    omega
  rw [takeBeats, if_neg (by rw [hend, hoff, hbuf, hlens]; simp; omega), hok, if_neg (by decide)]
  dsimp only
  rw [hroom, hlast, ← hlen, Nat.min_self, if_neg (Nat.lt_irrefl _), if_pos rfl, takeBeats, hbuf, hlens, beatTaken, htake]
  rfl

theorem granuleSource_beats (hid : d.id = i) (hopc : d.opc = 3) {l : List Byte} (hbuf : d.buf = cleanBytes l) (bad : List Nat) :
    granuleSource q i 0 l.length bad (putQu q (holding x d) s) = (cleanBytes l, putQu q (holding x d) s) := by
  rw [granuleSource, qu_putQu, desc_holding hid]
  dsimp only
  split
  · next h4 => exact absurd (hopc.symm.trans h4) (by decide)
  · have hlen : (cleanBytes l).length = l.length := List.length_map ..
    rw [hbuf, ← hlen, List.take_length, Nat.sub_self, List.replicate_zero, List.append_nil]
  · next _ h3 => exact absurd hopc h3

end

section
variable {s : State} {q : QueueId} {i a : Nat} {w : BitVec 256} {env : DescEnv}

theorem descStreamOut_moves (h : readyFor s q w i a) (hquiet : quietGrotto s) (hplain : (s.qu q).enc = false)
    (htlb : env.tlbBad = []) (hbad : env.addrErr = []) (hfree : contested s q = false) (hremote : ∀ m ∈ s.net.remotes, m.queue ≠ q.val)
    {e : Nat} {b : Beat} (hopc : fld w 0 8 = 3) (hdstg : bit w 11 = true) (hlow : fld w 128 64 < 2 ^ 56)
    (hline : fld w 128 64 % 64 + fld w 32 32 ≤ 64) (hep : fld (s.qu q).setup.ep 0 10 = e) (hopen : epOpen s e = true) (hbeats : env.beats = [b])
    (hok : beatOk b = true) (hlast : b.last = true) (hlen : fld w 32 32 = b.bytes.toNat + 1) : Completes (.descStreamOut q env) s fun t =>
      descEnded t q w 0 (fld w 32 32) ∧
      storedAt s t (fld w 128 27) ((leBytes 64 b.data.toNat).take (fld w 32 32)) ∧ OnlyChanges [.que, .arb, .grt] s t := by
  obtain ⟨hlo, -⟩ := fld_halves w (lo := 3) (hi := 0) (by decide) hopc
  obtain ⟨hflags, hn, haddr⟩ := h.fields (by omega) (by omega)
  obtain ⟨-, -, -, hctx, -⟩ := id h
  obtain ⟨n, hn'⟩ : ∃ n, fld w 32 32 = n := ⟨_, rfl⟩
  rw [hn'] at hline hn haddr hlen ⊢
  obtain ⟨l, hl⟩ : ∃ l, (leBytes 64 b.data.toNat).take n = l := ⟨_, rfl⟩
  have hllen : l.length = n := by
    have : b.bytes.toNat < 64 := b.bytes.isLt
    rw [← hl, List.length_take, length_leBytes]
    omega
  have hopc3 : (running w i a).opc = 3 := hlo
  have htaken : takeBeats env.beats (running w i a) = beatTaken l (running w i a) := by
    have hlen' : (running w i a).len = n := hn'
    rw [hbeats, takeBeats_last hok hlast rfl rfl rfl rfl (hlen'.trans hlen), hlen', hl]
  have hexec : exec (.descStreamOut q env) s = .next (dataCommand q 3 env (fun id s =>
    if epOpen s (fld (s.qu q).setup.ep 0 10) then modDesc q id (takeBeats env.beats) s else s) s) := rfl
  have hopen' : epOpen (putQu q (holding (s.qu q) (running w i a)) (servedTwice q s)) e = true := hopen
  have hep' : fld (holding (s.qu q) (running w i a)).setup.ep 0 10 = e := hep
  rw [dataCommand_ready h hfree hplain (by decide) hopc htlb hbad (fun _ => by rw [hep]; exact epFenced_of_open hopen)] at hexec
  rw [qu_putQu, hep', hopen', if_pos rfl, modDesc_holding (show (running w i a).id = i from rfl), htaken] at hexec
  obtain ⟨d, hd⟩ : ∃ d, beatTaken l (running w i a) = d := ⟨_, rfl⟩
  rw [hd] at hexec
  have hopcd : d.opc = 3 := hd ▸ hopc3
  have hdstg' : d.dstg = true := hd ▸ hdstg
  have hdst : d.dst = fld w 128 64 := hd ▸ rfl
  have hsrcg' : d.srcg = false := hd ▸ srcg_of_badFlags hflags (lt_of_lt_of_eq (by decide) hopc3.symm)
  have hsrcHost : d.srcHost = false := by simp [Desc.srcHost, hopcd]
  have hdstHost : d.dstHost = false := by simp [Desc.dstHost, hdstg']
  have hbuf : d.buf = cleanBytes l := hd ▸ rfl
  have hblen : d.buf.length = n := by rw [hbuf, cleanBytes, List.length_map, hllen]
  have hunder : Underway i d := hd ▸ ⟨rfl, rfl, rfl, rfl, rfl⟩
  obtain ⟨-, hfit⟩ := badGrottoAddr_low (haddr (fld w 128 64) (by simp [Desc.grottoAddrs, hopc3, show (running w i a).dstg = true from hdstg]; rfl)) hlow
  have hquiet' : quietGrotto (putQu q (holding (s.qu q) d) (servedTwice q s)) :=
    quietGrotto.putQu (s := servedTwice q s) hquiet (holding_tags hctx (hd ▸ rfl))
  have hsource := granuleSource_beats (q := q) (x := s.qu q) (s := servedTwice q s) hunder.id hopcd hbuf d.bad
  rw [hllen] at hsource
  obtain ⟨z, hrun, hz⟩ := runDesc_intoGrotto (s := servedTwice q s) (q := q) (i := i) (x := s.qu q) (d := d) (env := some env) (n := n)
    (parts := []) hunder (hd ▸ ⟨rfl, rfl, rfl⟩) (by rw [hopcd]; decide) (hd ▸ rfl) hn
    (by rw [totalBytes, if_pos hopcd, hblen, ← hd]; exact Nat.zero_add n) (fun _ => hd ▸ rfl) (encrypted_plain hplain)
    (granuleEnd_line hplain (by rw [hsrcHost, hdstHost, hopcd, hdst]; exact hline)) (hd ▸ rfl) hsrcg' hdstg' (by rwa [hdst])
    (by rw [hdst]; omega) (by rw [hsrcHost, hdstHost]; rfl) (by rw [hsrcHost]; rfl) hquiet' hsource hllen hquiet'.calm hunder
    (SameTransfer.refl d) rfl (fun _ => Nat.le_of_eq hblen) hremote
  obtain ⟨hended, hstored, hframe⟩ := intoGrotto_leaves (s := s) (w := w) (n := n) (parts := [.que, .arb, .grt]) (hd ▸ rfl) hz rfl
    (servedTwice_within.frame.mono (by decide)) (by decide) (by decide)
  rw [hrun] at hexec
  refine ⟨_, hexec, hended, ?_, hframe⟩
  rw [hdst, fld_mod_grotto] at hstored
  rw [hl]
  exact hstored

end

end Sys2Proof

/-! STREAM_IN within one granule (R337, R580, R581). -/

namespace Sys2Proof

open Sys2Proof.Machine

/-! ### An endpoint with nothing else to take -/

section
variable {s : State} {q i e : Nat} {x : Queue} {d : Desc}

/-- No other source has anything for endpoint e. -/
structure InputsIdle (s : State) (e : Nat) : Prop where
  ports : s.pin.ports = []
  landing : (s.route e).landing = []

theorem InputsIdle.drain (h : InputsIdle s e) : drainInputs e s = s := by
  have hports : ((s.pin.ports.map (·.1)).filter fun p => s.regF (0xE_0300 + 4 * p) 0 10 == e) = [] := by rw [h.ports]; rfl
  rw [drainInputs, hports, forEach_nil, drainLanding]
  exact if_pos (.inl h.landing)

theorem InputsIdle.of_eq {t : State} (h : InputsIdle s e) (hpin : t.pin = s.pin) (hnet : t.net = s.net) : InputsIdle t e :=
  ⟨by rw [hpin, h.ports], by rw [route_of_net hnet, h.landing]⟩

/-- STREAM_IN has no beat to deliver: its buffer does not hold one, or all has gone. -/
theorem emitBeats_waits (hid : d.id = i) (hep : fld x.setup.ep 0 10 = e) (hidle : InputsIdle s e)
    (hwait : min 64 (d.len - d.off) = 0 ∨ d.buf.length < min 64 (d.len - d.off)) (fuel : Nat) :
    emitBeats q i (fuel + 1) (putQu q (holding x d) s) = putQu q (holding x d) s := by
  have hidle' : InputsIdle (putQu q (holding x d) s) e := hidle.of_eq rfl rfl
  have hep' : fld (holding x d).setup.ep 0 10 = e := hep
  rw [emitBeats, qu_putQu, desc_holding hid]
  dsimp only
  rw [hep', hidle'.drain, ite_self]
  exact if_pos (.inr (hwait.elim .inl fun h => .inr (.inl h)))

/-- The endpoint's route after a whole message has gone in. -/
def messageIn (r : Route) : Route := { r with mid := 0 }

/-- The last beat of a message goes into the endpoint of a column out of lockstep (R146, R581). -/
theorem putBeats_last (hlock : (s.col (colOf (e / 2))).lock = .off) {b : Beat} (hlast : b.last = true) (k : Nat) :
    putBeats e k [b] s = (s.send (.beatIn e b)).modRoute e messageIn := by
  have htargets : epTargets s e = [e] := by
    rw [epTargets, hlock]
    rfl
  rw [putBeats, forEach_cons, forEach_nil, htargets, forEach_cons, forEach_nil, List.getLast?_singleton]
  simp only [hlast]
  rfl

/-- The descriptor after its last beat of n bytes has gone. -/
def beatGone (n : Nat) (d : Desc) : Desc := { d with buf := d.buf.drop n, off := d.off + n }

/-- A whole message of one beat leaves the buffer while the endpoint is open (R337). -/
theorem emitBeats_last {n : Nat} (hid : d.id = i) (hopc : d.opc = 2) (hep : fld x.setup.ep 0 10 = e) (hidle : InputsIdle s e)
    (hopen : epOpen s e = true) (hfreeEp : epFree s e 3 = true) (hlock : (s.col (colOf (e / 2))).lock = .off) (hoff : d.off = 0)
    (hn : 0 < n) (hmax : n ≤ 64) (hlen : d.len = n) (hbuf : d.buf.length = n) (heom : d.eom = true) (hrun : d.ended = none) (fuel : Nat) :
    emitBeats q i (fuel + 2) (putQu q (holding x d) s) = putQu q (holding (hasMoved n x) (beatGone n d))
      ((s.send (.beatIn e (mkBeat (d.buf.take n) true))).modRoute e messageIn) := by
  have hidle' : InputsIdle (putQu q (holding x d) s) e := hidle.of_eq rfl rfl
  have hep' : fld (holding x d).setup.ep 0 10 = e := hep
  have hopen' : epOpen (putQu q (holding x d) s) e = true := hopen
  have hfree' : epFree (putQu q (holding x d) s) e 3 = true := hfreeEp
  have hnow : min 64 (d.len - d.off) = n := by omega
  have hlast : (decide (d.len ≤ d.off + 64) && d.eom) = true := by rw [heom, Bool.and_true, decide_eq_true (by omega)]
  have hput : putBeats e 3 [mkBeat (d.buf.take n) true] (putQu q (holding x d) s) = putQu q (holding x d)
      ((s.send (.beatIn e (mkBeat (d.buf.take n) true))).modRoute e messageIn) := putBeats_last (s := putQu q (holding x d) s) hlock rfl 3
  obtain ⟨z, hz⟩ : ∃ z, (s.send (.beatIn e (mkBeat (d.buf.take n) true))).modRoute e messageIn = z := ⟨_, rfl⟩
  have hidlez : InputsIdle z e := by
    refine hz ▸ ⟨hidle.ports, ?_⟩
    rw [route_modRoute_same]
    exact hidle.landing
  rw [hz] at hput ⊢
  have hgone : (putQu q (holding x (beatGone n d)) z).modQu q (hasMoved n) = putQu q (holding (hasMoved n x) (beatGone n d)) z := hasMoved_holding n
  have hmod := modDesc_holding (q := q) (x := x) (s := z) hid (beatGone n)
  rw [emitBeats, qu_putQu, desc_holding hid]
  dsimp only
  rw [hep', hidle'.drain, ite_self, hnow, if_neg, hlast, hput]
  · refine Eq.trans (congrArg (emitBeats q i (fuel + 1)) ((congrArg (State.modQu · q (hasMoved n)) hmod).trans hgone)) ?_
    refine emitBeats_waits (d := beatGone n d) (x := hasMoved n x) hid hep hidlez (.inl ?_) fuel
    have : (beatGone n d).len - (beatGone n d).off = n - (0 + n) := by
      rw [beatGone, hoff]
      exact congrArg (· - (0 + n)) hlen
    omega
  · rw [hopen', hfree', hbuf, hrun, hopc]
    simp
    omega

end

/-! ### The granule of a STREAM_IN -/

section
variable {s : State} {q i e : Nat} {x : Queue} {d : Desc}

theorem runGranules_of_emitBeats {u v : State} (huv : emitBeats q i 65 u = v) (hv : emitBeats q i 65 v = v) (env : Option DescEnv) (used fuel : Nat) :
    runGranules q i env used (fuel + 1) u = runGranules q i env used (fuel + 1) v := by
  rw [runGranules, huv]
  conv_rhs => rw [runGranules, hv]

/-- The descriptor with its granule in the buffer. -/
def buffering (l : List Byte) (d : Desc) : Desc := { d with buf := d.buf ++ cleanBytes l }

/-- Host bytes that have come go into the buffer (R337). -/
theorem runGranules_buffers {v : State} {env : Option DescEnv} {n : Nat} {c : Desc} {parts : List (Nat × Nat)}
    (h : Underway i d) (hopc : d.opc = 2) (hsrcg : d.srcg = false) (hoff : d.off = 0) (hbuf : d.buf = []) (hn : 0 < n) (hmax : n ≤ 64) (hlen : d.len = n)
    (hplain : x.enc = false) (hline : d.src % 64 + n ≤ 64)
    (hemit : emitBeats q i 65 (putQu q (holding x d) s) = putQu q (holding x d) s)
    (hparts : translateParts q i 2 false d.src n (putQu q (holding x d) s) = (some parts, none, putQu q (holding x d) s))
    (hread : hostReady q i 0 n parts env (putQu q (holding x d) s) = (true, putQu q (holding x c) v))
    (hc : c.id = i) (hraw : c.raw = d.raw)
    (hquiet : quietGrotto (putQu q (holding x c) v)) (fuel : Nat) :
    runGranules q i env 0 (fuel + 1) (putQu q (holding x d) s) =
      runGranules q i env n fuel (putQu q (holding x (buffering (fitBytes n c.hbuf) (hostUsed n c))) v) := by
  have hpos : readPos d = 0 := by rw [readPos, if_pos hopc, hoff, hbuf]; rfl
  have htotal : totalBytes d = n := by rw [totalBytes, if_neg (by rw [hopc]; decide), hlen]
  have hmore : moreBeats d = false := by simp [moreBeats, hopc]
  have hsrcHost : d.srcHost = true := by simp [Desc.srcHost, hopc, hsrcg]
  have hdstHost : d.dstHost = false := by simp [Desc.dstHost, hopc]
  have hopcc : c.opc = 2 := (congrArg (fld · 0 4) hraw).trans hopc
  have hhostc : c.srcHost = true := by
    have hsrcgc : c.srcg = false := (congrArg (bit · 10) hraw).trans hsrcg
    simp [Desc.srcHost, hopcc, hsrcgc]
  have hdstHostc : c.dstHost = false := by simp [Desc.dstHost, hopcc]
  obtain ⟨habort, hdown, htag⟩ := hquiet.side
  have hlinks : granuleStopped (putQu q (holding x c) v) d 0 n = false := by simp [granuleStopped, sideStopped, hdown]
  have hend : granuleEnd (holding x d) d 0 n = n := granuleEnd_line hplain (by rw [hsrcHost]; exact hline)
  have hplain' : encrypted (holding x d) d = false := encrypted_plain hplain
  have hsource := granuleSource_host (q := q) (x := x) (s := v) hc (by rw [hopcc]; decide) (by rw [hopcc]; decide) hhostc n d.bad
  have hsink : granuleSink q i 0 parts (cleanBytes (fitBytes n c.hbuf)) d.bad (putQu q (holding x (hostUsed n c)) v) =
      putQu q (holding x (buffering (fitBytes n c.hbuf) (hostUsed n c))) v := by
    have hid : (hostUsed n c).id = i := hc
    have hhost : (hostUsed n c).dstHost = false := hdstHostc
    rw [granuleSink, qu_putQu, desc_holding hid]
    dsimp only
    rw [hhost, if_neg Bool.false_ne_true, if_pos (show (hostUsed n c).opc = 2 from hopcc)]
    exact modDesc_holding hid (buffering (fitBytes n c.hbuf))
  rw [runGranules, hemit, qu_putQu, desc_holding h.id]
  dsimp only
  rw [if_neg (by simp [h.ended, h.stopped]), htotal, hpos, hlen, if_neg (by omega), if_neg (by omega), hend, hmore,
    if_neg (by simp), hbuf, if_neg (by simp; omega), Nat.sub_zero, hsrcHost, hdstHost, if_pos rfl, if_pos rfl, Bool.true_or, if_pos rfl, Nat.add_zero, hparts]
  dsimp only
  rw [hplain', if_neg Bool.false_ne_true, if_neg (fun hin => Bool.false_ne_true hin.1), if_neg (fun hin => Bool.false_ne_true hin.1), hread, if_pos rfl]
  dsimp only
  rw [if_neg (by decide), if_neg (fun hin => Bool.false_ne_true (habort.symm.trans hin.1)), hlinks, if_neg Bool.false_ne_true, htag,
    if_neg (fun hin => absurd hin.1 (by decide)), hsource, hsink, if_pos hopc, Nat.zero_add]

end

section
variable {s : State} {q : QueueId} {i a : Nat} {w : BitVec 256} {env : DescEnv}

/-- FLAGS.DSTG is not for STREAM_IN (Table Queues-5). -/
theorem dstg_of_badFlags {d : Desc} (h : badFlags d = false) (hopc : d.opc = 2) : d.dstg = false := by
  rw [badFlags, hopc] at h
  simp only [Bool.or_eq_false_iff] at h
  simpa using h.1.1.2

theorem descStreamIn_moves (h : readyFor s q w i a) (hquiet : quietGrotto s) (hbypass : (s.qu q).bypass = true) (hplain : (s.qu q).enc = false)
    (htlb : env.tlbBad = []) (hbad : env.addrErr = []) (hfree : contested s q = false) (hremote : ∀ m ∈ s.net.remotes, m.queue ≠ q.val)
    {e : Nat} (hopc : fld w 0 8 = 2) (hsrcg : bit w 10 = false) (heom : bit w 13 = true) (hline : fld w 64 64 % 64 + fld w 32 32 ≤ 64)
    (htag : hostTagFree s = true) (hmax : 64 ≤ s.pci.maxRead) (hdata : fld w 32 32 ≤ env.hostData.length)
    (hlock : (s.col (colOf (e / 2))).lock = .off) (hep : fld (s.qu q).setup.ep 0 10 = e) (hopen : epOpen s e = true)
    (hmid : (s.route e).mid = 0) (hidle : InputsIdle s e) : Completes (.descStreamIn q env) s fun t =>
      descEnded t q w 0 (fld w 32 32) ∧
      t.out = s.out ++ [.hostRead 0 q (fld w 64 64) (fld w 32 32),
        .beatIn e (mkBeat ((List.range (fld w 32 32)).map fun j => (env.hostData.getD j 0, false)) true)] ∧
      OnlyChanges [.que, .arb, .net, .out] s t := by
  obtain ⟨hlo, -⟩ := fld_halves w (lo := 2) (hi := 0) (by decide) hopc
  obtain ⟨hflags, hn, -⟩ := h.fields (by omega) (by omega)
  obtain ⟨hsolo, hmasters, -, hctx, -⟩ := id h
  obtain ⟨n, hlen⟩ : ∃ n, fld w 32 32 = n := ⟨_, rfl⟩
  rw [hlen] at hline hn hdata ⊢
  have hopc2 : (running w i a).opc = 2 := hlo
  have hdstg := dstg_of_badFlags hflags hopc2
  have hexec : exec (.descStreamIn q env) s =
    .next (dataCommand q 2 env (fun _ s => drainInputs (fld (s.qu q).setup.ep 0 10) s) s) := rfl
  rw [dataCommand_ready h hfree hplain (by decide) hopc htlb hbad (fun _ => by rw [hep]; exact epFenced_of_open hopen)] at hexec
  have hep' : ∀ d, fld (holding (s.qu q) d).setup.ep 0 10 = e := fun _ => hep
  have hdrained := (hidle.of_eq (t := putQu q (holding (s.qu q) (running w i a)) (servedTwice q s)) rfl rfl).drain
  rw [qu_putQu, hep', hdrained] at hexec
  obtain ⟨d, hd⟩ : ∃ d, running w i a = d := ⟨_, rfl⟩
  rw [hd] at hexec hopc2 hdstg
  have hsrc : d.src = fld w 64 64 := hd ▸ rfl
  have hdlen : d.len = n := hd ▸ hlen
  have hsrcg' : d.srcg = false := hd ▸ hsrcg
  have hunder : Underway i d := hd ▸ underway_running
  have hread := hostReady_line (s := servedTwice q s) (q := q) (x := s.qu q) (d := d) (i := i) (o := 0) (va := d.src) hsolo hmasters
    hunder.id hn (Nat.le_trans (by omega) hmax) (hd ▸ rfl) (hd ▸ rfl) (hd ▸ rfl) (hd ▸ rfl) (encrypted_plain hplain)
    (hostTagFree_putQu (holding_tags hctx (hd ▸ rfl)) htag) env (by omega)
  obtain ⟨c, hc⟩ : ∃ c, hasRead 0 n env.hostData d = c := ⟨_, rfl⟩
  obtain ⟨b, hb⟩ : ∃ b, (servedTwice q s).send (.hostRead 0 q d.src n) = b := ⟨_, rfl⟩
  have hcraw : c.raw = d.raw := hc ▸ rfl
  have hcid : c.id = i := hc ▸ hunder.id
  have hquiet' : quietGrotto (putQu q (holding (s.qu q) c) b) :=
    hb ▸ quietGrotto.putQu (s := (servedTwice q s).send _) hquiet (holding_tags hctx (hc ▸ rfl))
  have hbytes : fitBytes n c.hbuf = (List.range n).map fun j => env.hostData.getD j 0 := by
    rw [← hc]
    exact fitBytes_read n _
  rw [hc, hb] at hread
  obtain ⟨l, hl⟩ : ∃ l, ((List.range n).map fun j => env.hostData.getD j 0) = l := ⟨_, rfl⟩
  have hllen : (cleanBytes l).length = n := by rw [cleanBytes, List.length_map, ← hl, List.length_map, List.length_range]
  rw [hl] at hbytes
  have hmoves := runGranules_buffers (s := servedTwice q s) (q := q) (x := s.qu q) (env := some env) hunder hopc2 hsrcg' (hd ▸ rfl) (hd ▸ rfl) hn
    (by omega) hdlen hplain (by rw [hsrc]; exact hline)
    (emitBeats_waits (s := servedTwice q s) hunder.id hep (hidle.of_eq rfl rfl) (.inr (by rw [← hd]; change 0 < min 64 (fld w 32 32 - 0); omega)) 64)
    (translateParts_line hbypass 2 false (by rw [hsrc]; exact hline)) hread hcid hcraw hquiet'
  rw [hbytes] at hmoves
  obtain ⟨f, hf⟩ : ∃ f, buffering l (hostUsed n c) = f := ⟨_, rfl⟩
  have hfraw : f.raw = d.raw := hf ▸ hcraw
  have hfbuf : f.buf = cleanBytes l := hf ▸ hc ▸ hd ▸ rfl
  have hfoff : f.off = 0 := hf ▸ hc ▸ hd ▸ rfl
  have hunderf : Underway i f := hf ▸ hc ▸ hd ▸ ⟨rfl, rfl, rfl, rfl, rfl⟩
  have hopcf : f.opc = 2 := (congrArg (fld · 0 4) hfraw).trans hopc2
  have hlenf : f.len = n := (congrArg (fld · 32 32) hfraw).trans hdlen
  have hsrcgf : f.srcg = false := (congrArg (bit · 10) hfraw).trans hsrcg'
  have hown : epOwned s e = true := (Bool.and_eq_true_iff.1 hopen).1
  have hfreeEp : epFree s e 3 = true := by
    have hmid' : (tabGet ({} : Route) s.net.streams e).mid = 0 := hmid
    rw [epFree, hown, hmid']
    rfl
  have hidleb : InputsIdle b e := hidle.of_eq (hb ▸ rfl) (hb ▸ rfl)
  have hemit := emitBeats_last (s := b) (q := q) (x := s.qu q) (n := n) hunderf.id hopcf hep hidleb (hb ▸ hopen) (hb ▸ hfreeEp) (hb ▸ hlock) hfoff hn
    (by omega) hlenf (by rw [hfbuf, hllen]) ((congrArg (bit · 13) hfraw).trans (hd ▸ heom)) hunderf.ended 63
  rw [hfbuf, List.take_of_length_le (Nat.le_of_eq hllen)] at hemit
  obtain ⟨z, hz⟩ : ∃ z, (b.send (.beatIn e (mkBeat (cleanBytes l) true))).modRoute e messageIn = z := ⟨_, rfl⟩
  rw [hz] at hemit
  have hidlez : InputsIdle z e := by
    refine hz ▸ ⟨hidleb.ports, ?_⟩
    rw [route_modRoute_same]
    exact hidleb.landing
  obtain ⟨g, hg⟩ : ∃ g, beatGone n f = g := ⟨_, rfl⟩
  have hgraw : g.raw = d.raw := hg ▸ hfraw
  have hopcg : g.opc = 2 := (congrArg (fld · 0 4) hgraw).trans hopc2
  have hgoff : g.off = n := by rw [← hg, beatGone, hfoff, Nat.zero_add]
  have hgbuf : g.buf = [] := by rw [← hg, beatGone, hfbuf, List.drop_of_length_le (Nat.le_of_eq hllen)]
  have hgunder : Underway i g := hg ▸ ⟨hunderf.id, hunderf.ended, hunderf.stopped, hunderf.poison, hunderf.remq⟩
  have hglen : g.len = n := (congrArg (fld · 32 32) hgraw).trans hdlen
  rw [hg] at hemit
  have hagain := emitBeats_waits (s := z) (q := q) (i := i) (x := hasMoved n (s.qu q)) (d := g) hgunder.id hep hidlez
    (.inl (by rw [hglen, hgoff, Nat.sub_self, Nat.min_zero])) 64
  have hpos : readPos g = n := by rw [readPos, if_pos hopcg, hgoff, hgbuf, List.length_nil, Nat.add_zero]
  have hrem : z.net.remotes = s.net.remotes := hz ▸ hb ▸ rfl
  have hends := runGranules_ends (s := z) (q := q) (x := hasMoved n (s.qu q)) (env := some env) (used := n) hgunder hagain
    (by rw [hpos, totalBytes, if_neg (by rw [hopcg]; decide), hglen]) (fun _ => by rw [hglen, hgoff]) (by simp [moreBeats, hopcg])
    (fun h3 => absurd (hopcg.symm.trans h3) (by decide)) (by rw [show g.srcg = false from (congrArg (bit · 10) hgraw).trans hsrcg', Bool.false_and])
    (by rwa [hrem])
  have hrun := runDesc_ended (m := 2) (env := some env) hunder (hd ▸ unmarked_running) (fun hon => absurd (hsrcg'.symm.trans hon) Bool.false_ne_true)
    (fun hon => absurd (hdstg.symm.trans hon) Bool.false_ne_true)
    (fun fuel => (hmoves (fuel + 1)).trans ((congrArg (fun c => runGranules q i (some env) n (fuel + 1) (putQu q (holding (s.qu q) c) b)) hf).trans
      ((runGranules_of_emitBeats hemit hagain (some env) n fuel).trans (hends fuel)))) (by decide) hgunder.id rfl
  rw [hrun, hgoff] at hexec
  have hframe : OnlyChanges [.que, .arb, .net, .out] s z := by
    rw [← hz, ← hb]
    exact (servedTwice_within.frame.mono (by decide)).trans ((onlyChanges_send _ _ (by decide)).trans ((onlyChanges_send _ _ (by decide)).trans
      (State.modNet_within.frame.mono (by decide))))
  refine ⟨_, hexec, ⟨descDone 0 n g, by rw [qu_putQu]; rfl, hgraw.trans (hd ▸ rfl), rfl⟩, ?_, hframe.trans (putQu_within.frame.mono (by decide))⟩
  have hclean : ((List.range n).map fun j => (env.hostData.getD j 0, false)) = cleanBytes l := by
    rw [← hl, cleanBytes, List.map_map]
    rfl
  rw [hclean]
  have hout : z.out = s.out ++ [.hostRead 0 q d.src n] ++ [.beatIn e (mkBeat (cleanBytes l) true)] := by
    rw [← hz, ← hb]
    rfl
  rw [hsrc, List.append_assoc] at hout
  exact hout

end

/-- Settles O33: each transfer is one granule, whose bytes go to its other side before the descriptor ends with the count. -/
theorem transfersMoveTheirBytes : Obligations.TransfersMoveTheirBytes := by
  intro s q w i a env h hquiet hbypass hplain htlb hbad _ hfree hremote
  exact ⟨descFill_moves h hquiet hplain htlb hbad hfree hremote, descCopy_fromHost h hquiet hbypass hplain htlb hbad hfree hremote,
    descCopy_toHost h hquiet hbypass hplain htlb hbad hfree hremote,
    fun e hopc hsrcg heom hline htag hmax hdata hlock hep hopen hmid hland hports =>
      descStreamIn_moves h hquiet hbypass hplain htlb hbad hfree hremote hopc hsrcg heom hline htag hmax hdata hlock hep hopen hmid ⟨hports, hland⟩,
    fun e b hopc hdstg hlow hline hep hopen hbeats hok hlast hlen =>
      descStreamOut_moves h hquiet hplain htlb hbad hfree hremote hopc hdstg hlow hline hep hopen hbeats hok hlast hlen⟩

end Sys2Proof

/-! LOAD_IMAGE granule by granule (R338, R344, R477 to R480). -/

namespace Sys2Proof

open Sys2Proof.Machine

/-! ### The state while a load runs -/

/-- What a load changes of s beside its queue: whose turn it was, the library and what has gone out. -/
def loadBase (s : State) (a : List (Nat × Nat)) (l : Lib) (o : List Out) : State := { s with arb := a, lib := l, out := o }

theorem loadBase_frame (s : State) (a : List (Nat × Nat)) (l : Lib) (o : List Out) : OnlyChanges [.arb, .lib, .out] s (loadBase s a l o) := by
  intro p hp
  cases p with
  | arb => exact absurd (by decide) hp
  | lib => exact absurd (by decide) hp
  | out => exact absurd (by decide) hp
  | regs => exact fun _ => rfl
  | _ => rfl

theorem loadBase_frame_kept (s : State) (a : List (Nat × Nat)) (o : List Out) : OnlyChanges [.arb, .out] s (loadBase s a s.lib o) := by
  intro p hp
  cases p with
  | arb => exact absurd (by decide) hp
  | out => exact absurd (by decide) hp
  | regs => exact fun _ => rfl
  | _ => rfl

theorem servedTwice_eq_loadBase (q : Nat) (s : State) : ∃ a, servedTwice q s = loadBase s a s.lib s.out := ⟨_, rfl⟩

/-- The queue x and its descriptor d between two granules of the load of w. -/
structure AtLoad (s : State) (q i : Nat) (w : BitVec 256) (x : Queue) (d : Desc) : Prop where
  under : Underway i d
  raw : d.raw = w
  readTo : d.readTo = d.off
  sentTo : d.sentTo = d.off
  reads : d.reads = []
  hbuf : d.hbuf = []
  inside : d.off ≤ d.len
  plain : x.enc = false
  bypass : x.bypass = true
  tags : tagsOf (holding x d) ≤ tagsOf (s.qu q)

/-- The descriptor that has read up to `hi`. -/
def readUpTo (hi : Nat) (d : Desc) : Desc :=
  { d with off := hi, readTo := hi, sentTo := hi, reads := [], hbuf := [], wantTag := false }

/-- The descriptor that has used n host bytes and stands at `hi`. -/
def pageUsed (hi n : Nat) (d : Desc) : Desc := { d with off := hi, hbuf := d.hbuf.drop n }

/-- The end of the granule that begins where d stands: of its 64 bytes of host memory, or of the container (R380). -/
def pageEnd (d : Desc) : Nat := min d.len (d.off + 64 - (d.src + d.off) % 64)

section
variable {s : State} {q i : Nat} {w : BitVec 256} {x : Queue} {d : Desc} {a : List (Nat × Nat)} {l : Lib} {o : List Out}

theorem AtLoad.next (h : AtLoad s q i w x d) {hi : Nat} (hhi : hi ≤ d.len) (n : Nat) : AtLoad s q i w (hasMoved n x) (readUpTo hi d) where
  under := ⟨h.under.id, h.under.ended, h.under.stopped, h.under.poison, h.under.remq⟩
  raw := h.raw
  readTo := rfl
  sentTo := rfl
  reads := rfl
  hbuf := rfl
  inside := hhi
  plain := h.plain
  bypass := h.bypass
  tags := by
    have htags := h.tags
    rw [tagsOf_hasMoved]
    rw [tagsOf, holding, List.foldl_cons, List.foldl_nil, h.reads] at htags
    exact htags

theorem pageEnd_bounds (hoff : d.off < d.len) : d.off < pageEnd d ∧ pageEnd d ≤ d.len ∧ (d.src + d.off) % 64 + (pageEnd d - d.off) ≤ 64 := by
  rw [pageEnd]
  omega

/-- How a load goes on from a granule that has been read and staged. -/
def goOnLoad (q i : Nat) (c : Container) (fail : Option (Nat × Nat)) (env : DescEnv) (used fuel : Nat) (d : Desc) (r : State × Option Nat) : State :=
  match r.2, fail with
  | some k, _ => rejectLoad q i d c (0x13, k) r.1
  | none, some f => if min d.len (rejectAt c f) ≤ pageEnd d then rejectLoad q i d c f r.1 else readImage q i c fail env used fuel r.1
  | none, none => readImage q i c fail env used fuel r.1

/-- A granule of a load is read and staged (R380, R477). -/
theorem readImage_granule (h : AtLoad s q i w x d) (hopc : fld w 0 8 = 5) (hsolo : s.twn.role = 0) (hmasters : s.masters = true)
    (hfree : contested s q = false) (hopen : s.fenced 2 = false) (hpath : loadPathDown s = false) (htag : hostTagFree s = true)
    (hmax : 64 ≤ s.pci.maxRead) (env : DescEnv) (hdata : d.len ≤ env.hostData.length) (hoff : d.off < d.len)
    (c : Container) (fail : Option (Nat × Nat)) (used fuel : Nat) :
    ∃ o', readImage q i c fail env used (fuel + 1) (putQu q (holding x d) (loadBase s a l o)) =
      goOnLoad q i c fail env (used + (pageEnd d - d.off)) fuel d
        (if dataStart c ≤ pageEnd d then stageUpTo (q, i) true d.aux d.off (pageEnd d) (stageStop fail) c
            (putQu q (holding (hasMoved (pageEnd d - d.off) x) (readUpTo (pageEnd d) d)) (loadBase s a l o'))
          else (putQu q (holding (hasMoved (pageEnd d - d.off) x) (readUpTo (pageEnd d) d)) (loadBase s a l o'), none)) := by
  obtain ⟨hlow, hsub⟩ := fld_halves w (lo := 5) (hi := 0) (by decide) (by rw [hopc])
  have hopc5 : d.opc = 5 := (congrArg (fld · 0 4) h.raw).trans hlow
  have hsub0 : d.sub = 0 := (congrArg (fld · 4 4) h.raw).trans hsub
  have hsrcHost : d.srcHost = true := by simp [Desc.srcHost, hopc5, hsub0]
  obtain ⟨hmore, hin, hline⟩ := pageEnd_bounds hoff
  have hend : granuleEnd (holding x d) d d.off d.len = pageEnd d := by
    have hplain : (holding x d).enc = false := h.plain
    rw [granuleEnd, encrypted_plain hplain, hplain, hsrcHost]
    rfl
  have hcont : ¬ (4096 ≤ used ∧ contested (putQu q (holding x d) (loadBase s a l o)) q = true) := by
    rw [contested_putQu]
    exact fun hc => Bool.false_ne_true (hfree.symm.trans hc.2)
  have hread := hostReady_line (s := loadBase s a l o) (q := q) (x := x) (d := d) (i := i) (o := d.off) (va := d.src + d.off) (n := pageEnd d - d.off)
    hsolo hmasters h.under.id (by omega) (Nat.le_trans (by omega) hmax) h.readTo h.sentTo h.reads h.hbuf (encrypted_plain h.plain)
    (hostTagFree_putQu (s := loadBase s a l o) h.tags htag) env (by omega)
  have hopen' : (putQu q (holding x d) (loadBase s a l o)).fenced 2 = false := hopen
  have hpath' : loadPathDown (putQu q (holding x d) (loadBase s a l o)) = false := hpath
  have hsent : (loadBase s a l o).send (.hostRead 0 q (d.src + d.off) (pageEnd d - d.off)) =
      loadBase s a l (o ++ [.hostRead 0 q (d.src + d.off) (pageEnd d - d.off)]) := rfl
  rw [hsent] at hread
  refine ⟨o ++ [.hostRead 0 q (d.src + d.off) (pageEnd d - d.off)], ?_⟩
  obtain ⟨b, hb⟩ : ∃ b, loadBase s a l (o ++ [.hostRead 0 q (d.src + d.off) (pageEnd d - d.off)]) = b := ⟨_, rfl⟩
  rw [hb] at hread ⊢
  obtain ⟨n, hn⟩ : ∃ n, pageEnd d - d.off = n := ⟨_, rfl⟩
  rw [hn] at hread ⊢
  have hused : pageUsed (pageEnd d) n (hasRead d.off n env.hostData d) = readUpTo (pageEnd d) d := by
    have hto : d.off + n = pageEnd d := by omega
    have hnone : ((env.hostData.drop d.off).take n).drop n = [] := List.drop_eq_nil_of_le (List.length_take_le _ _)
    rw [pageUsed, hasRead, readUpTo, hto, hnone]
  have hmod := modDesc_holding (q := q) (x := x) (s := b) (show (hasRead d.off n env.hostData d).id = i from h.under.id) (pageUsed (pageEnd d) n)
  rw [hused] at hmod
  rw [readImage, qu_putQu, desc_holding h.under.id]
  dsimp only
  rw [if_neg (by simp [h.under.ended, h.under.stopped]), if_neg (by omega), hopen', if_neg Bool.false_ne_true, hpath', if_neg Bool.false_ne_true,
    if_neg hcont, hend, hn, translateParts_line h.bypass 2 false (by omega)]
  dsimp only
  rw [hread]
  dsimp only
  rw [if_neg (by decide)]
  have hgo : (modDesc q i (pageUsed (pageEnd d) n) (putQu q (holding x (hasRead d.off n env.hostData d)) b)).modQu q
      (hasMoved n) = putQu q (holding (hasMoved n x) (readUpTo (pageEnd d) d)) b :=
    (congrArg (State.modQu · q (hasMoved n)) hmod).trans (hasMoved_holding n)
  exact congrArg (fun u => goOnLoad q i c fail env (used + n) fuel d
    (if dataStart c ≤ pageEnd d then stageUpTo (q, i) true d.aux d.off (pageEnd d) (stageStop fail) c u else (u, none))) hgo

end

end Sys2Proof

/-! A load that is rejected as a whole (R459, R478, R479). -/

namespace Sys2Proof

open Sys2Proof.Machine

/-! ### The checks of a container -/

/-- What is checked of a section in a load from the host is in the container alone. -/
theorem sectionReason_host (s t : State) (c : Container) (k : Nat) (y : ContSection) :
    sectionReason t c true k y = sectionReason s c true k y := by
  unfold sectionReason
  cases hbody : y.body with
  | reginit l => simp only [Bool.and_true, Bool.or_true, Bool.not_true, Bool.false_and]
  | chimage im => simp only [Bool.not_true, Bool.and_false, Bool.false_and]
  | _ => rfl

theorem sectionsFail_host (s t : State) (c : Container) : sectionsFail t c true = sectionsFail s c true := by
  unfold sectionsFail
  simp only [sectionReason_host s t]

section
variable {s : State} {q : Nat}

theorem slotRefused_load (x : Queue) (a : List (Nat × Nat)) (o : List Out) (who : Option (Nat × Nat)) (k : Nat) :
    slotRefused (putQu q x (loadBase s a s.lib o)) who k = slotRefused s who k := rfl

theorem headerReason_load (x : Queue) (a : List (Nat × Nat)) (l : Lib) (o : List Out) (kind : Nat) (host : Bool) (len : Nat) (c : Container) :
    headerReason (putQu q x (loadBase s a l o)) kind host len c = headerReason s kind host len c := rfl

theorem hostReject_load (x : Queue) (a : List (Nat × Nat)) (o : List Out) (who : Nat × Nat) (len base : Nat) (c : Container) :
    hostReject (putQu q x (loadBase s a s.lib o)) who len base c = hostReject s who len base c := by
  unfold hostReject
  simp only [headerReason_load, slotRefused_load, sectionsFail_host s (putQu q x (loadBase s a s.lib o))]

end

/-! ### The start of a load -/

section
variable {s : State} {q i : Nat} {w : BitVec 256} {a : Nat}

theorem AtLoad.start (h : readyFor s q w i a) (hplain : (s.qu q).enc = false) (hbypass : (s.qu q).bypass = true) :
    AtLoad s q i w (s.qu q) (running w i a) := by
  obtain ⟨-, -, -, hctx, -⟩ := h
  exact ⟨underway_running, rfl, rfl, rfl, rfl, rfl, Nat.zero_le _, hplain, hbypass, holding_tags hctx rfl⟩

theorem dataStart_pos (c : Container) : 0 < dataStart c := by
  rw [dataStart, Container.dataStart]
  omega

/-- LOAD_IMAGE starts with the checks of its container (R338, R478). -/
theorem loadImage_starts {env : DescEnv} {c : Container} (h : readyFor s q w i a) (hfree : contested s q = false) (hplain : (s.qu q).enc = false)
    (htlb : env.tlbBad = []) (hopc : fld w 0 8 = 5) (hmode : s.netMode = 0) : ∃ arb,
    loadImage q c env s = readImage q i c (hostReject s (q, i) (fld w 32 32) (fld w 192 64) c) env 0 (granuleFuel (running w i a))
      (putQu q (holding (s.qu q) (running w i a)) (loadBase s arb s.lib s.out)) := by
  obtain ⟨arb, harb⟩ := servedTwice_eq_loadBase q s
  have hgo := goOn_ready h hfree hplain (opc := 5) (by decide) hopc
  rw [harb] at hgo
  refine ⟨arb, ?_⟩
  have hoff : ¬ dataStart c ≤ (running w i a).off := Nat.not_le.2 (dataStart_pos c)
  have hmod : modDesc q i (fun d => { d with yielded := false, wantTag := false }) (putQu q (holding (s.qu q) (running w i a)) (loadBase s arb s.lib s.out)) =
      putQu q (holding (s.qu q) (running w i a)) (loadBase s arb s.lib s.out) := modDesc_holding (d := running w i a) rfl _
  rw [loadImage, takeUpsets_none htlb hplain]
  dsimp only
  rw [hgo]
  dsimp only
  rw [if_neg (fun hm => absurd (hmode.symm.trans hm.2.1) (by decide)), qu_putQu, desc_holding (show (running w i a).id = i from rfl)]
  dsimp only
  rw [if_neg hoff, hmod, hostReject_load]
  rfl

/-- A load goes on after a granule that no failure meets. -/
theorem goOnLoad_staging (c : Container) (env : DescEnv) (used fuel : Nat) (d : Desc) (u : State) :
    goOnLoad q i c none env used fuel d (u, none) = readImage q i c none env used fuel u := rfl

/-- A load with a failure ends once the failure is known. -/
theorem goOnLoad_failing (c : Container) (f : Nat × Nat) (env : DescEnv) (used fuel : Nat) (d : Desc) (u : State) :
    goOnLoad q i c (some f) env used fuel d (u, none) =
      if min d.len (rejectAt c f) ≤ pageEnd d then rejectLoad q i d c f u else readImage q i c (some f) env used fuel u := rfl

end

/-! ### A rejected container -/

theorem length_chunks_le (n : Nat) (fuel : Nat) (l : List Byte) : (chunks n fuel l).length ≤ fuel := by
  induction fuel generalizing l with
  | zero => exact Nat.le_refl _
  | succ fuel ih =>
    rw [chunks]
    split
    · exact Nat.zero_le _
    · rw [List.length_cons]
      exact Nat.succ_le_succ (ih _)

theorem length_sections_le (c : Container) : c.sections.length ≤ 0xFFFF := by
  have hnsect : c.nsect < 2 ^ (8 * ((c.head.drop 28).take 2).length) := ofLeBytes_lt _
  have htwo : ((c.head.drop 28).take 2).length ≤ 2 := List.length_take_le _ _
  have hpow : 2 ^ (8 * ((c.head.drop 28).take 2).length) ≤ 2 ^ 16 := Nat.pow_le_pow_right (by decide) (by omega)
  have htable : c.table.length ≤ c.nsect := length_chunks_le _ _ _
  rw [Container.sections, withPos, List.length_map, List.length_zip, List.length_range]
  omega

theorem rejectAt_header (c : Container) (why : Nat) : rejectAt c (why, 0xFFFF) = dataStart c := by
  rw [rejectAt, List.getElem?_eq_none (length_sections_le c)]

/-- Nothing is staged of a container whose header fails (R479). -/
theorem stageUpTo_header (who : Nat × Nat) (base lo hi why : Nat) (c : Container) (s : State) :
    stageUpTo who true base lo hi (stageStop (some (why, 0xFFFF))) c s = (s, none) := by
  have hstop : stageStop (some (why, 0xFFFF)) = 0 := if_pos (.inr rfl)
  rw [stageUpTo, hstop]
  refine List.foldl_fixed' (fun p => ?_) _
  dsimp only
  split
  · exact if_pos (.inr (.inl (Nat.zero_le _)))
  · rfl

section
variable {s : State} {q i : Nat} {w : BitVec 256}

/-- What a load needs of the device while it runs. -/
structure LoadOpen (s : State) (q : Nat) : Prop where
  solo : s.twn.role = 0
  masters : s.masters = true
  free : contested s q = false
  fence : s.fenced 2 = false
  path : loadPathDown s = false
  tag : hostTagFree s = true
  maxRead : 64 ≤ s.pci.maxRead

theorem AtLoad.len_eq {x : Queue} {d : Desc} (h : AtLoad s q i w x d) : d.len = fld w 32 32 := congrArg (fld · 32 32) h.raw

theorem readImage_rejects (hopen : LoadOpen s q) (hopc : fld w 0 8 = 5) {env : DescEnv} (hdata : fld w 32 32 ≤ env.hostData.length) (c : Container)
    (why : Nat) {a : List (Nat × Nat)} {l : Lib} (fuel : Nat) : ∀ {x : Queue} {d : Desc} {o : List Out} {used : Nat}, AtLoad s q i w x d →
    d.off < min (fld w 32 32) (dataStart c) → d.len - d.off < fuel → ∃ x' d' e o',
      readImage q i c (some (why, 0xFFFF)) env used fuel (putQu q (holding x d) (loadBase s a l o)) =
        rejectLoad q i e c (why, 0xFFFF) (putQu q (holding x' d') (loadBase s a l o')) ∧ AtLoad s q i w x' d' := by
  induction fuel with
  | zero => exact fun _ _ hfuel => absurd hfuel (Nat.not_lt_zero _)
  | succ fuel ih =>
    intro x d o used h hoff hfuel
    have hlen := h.len_eq
    obtain ⟨hmore, hin, -⟩ := pageEnd_bounds (d := d) (by omega)
    obtain ⟨o', hread⟩ := readImage_granule (a := a) (l := l) (o := o) h hopc hopen.solo hopen.masters hopen.free hopen.fence hopen.path hopen.tag
      hopen.maxRead env (by omega) (by omega) c (some (why, 0xFFFF)) used fuel
    rw [stageUpTo_header, ite_self, goOnLoad_failing, rejectAt_header, hlen] at hread
    have hnext := h.next hin (pageEnd d - d.off)
    split at hread
    · exact ⟨_, _, _, _, hread, hnext⟩
    · next hon =>
      obtain ⟨x', d', e, o'', hgo, hat⟩ := ih (o := o') (used := used + (pageEnd d - d.off)) hnext (by exact Nat.not_le.1 hon)
        (by have : (readUpTo (pageEnd d) d).len - (readUpTo (pageEnd d) d).off = d.len - pageEnd d := rfl; omega)
      exact ⟨x', d', e, o'', hread.trans hgo, hat⟩

theorem dropLoad_none (cid : Nat) (h : ∀ p ∈ s.lib.slots, p.2.loadBy = none) : dropLoad q i cid s = s := by
  have hmine : (s.lib.slots.filter fun p => p.2.loadBy == some (q, i)) = [] := by
    rw [List.filter_eq_nil_iff]
    intro p hp
    rw [h p hp]
    simp
  rw [dropLoad, hmine]
  rfl

end

section
variable {s : State} {q : QueueId} {i a : Nat} {w : BitVec 256} {c : Container} {env : DescEnv}

theorem descLoadImage_rejected (h : readyFor s q w i a) (hopen : LoadOpen s q) (hopc : fld w 0 8 = 5) (htlb : env.tlbBad = [])
    (hbypass : (s.qu q).bypass = true) (hplain : (s.qu q).enc = false) (hmode : s.netMode = 0) (hdata : fld w 32 32 ≤ env.hostData.length)
    (hslots : ∀ p ∈ s.lib.slots, p.2.loadBy = none) {why : Nat}
    (hreject : hostReject s (q, i) (fld w 32 32) (fld w 192 64) c = some (why, 0xFFFF)) : Completes (.descLoadImage q c env) s fun t =>
      descEnded t q w 0x0B (why + 65536 * 0xFFFF) ∧ Raised s t 0x0503 [c.kind.toNat, 3, c.imageid.toNat, why, 0xFFFF] ∧
      t.cfg = { s.cfg with lastrej := mkFld 24 8 why ||| mkFld 22 2 3 ||| mkFld 20 2 c.kind.toNat ||| mkFld 0 16 0xFFFF } ∧
      OnlyChanges (.que :: .arb :: .cfg :: events) s t := by
  have hexec : exec (.descLoadImage q c env) s = .next (loadImage q c env s) := rfl
  obtain ⟨arb, hstart⟩ := loadImage_starts (c := c) h hopen.free hplain htlb hopc hmode
  have hn := h.imageLen hopc
  obtain ⟨x, d, e, o, hread, hat⟩ := readImage_rejects hopen hopc hdata c why (a := arb) (l := s.lib) (granuleFuel (running w i a)) (o := s.out) (used := 0)
    (AtLoad.start h hplain hbypass) (by have := dataStart_pos c; exact Nat.lt_min.2 ⟨hn, this⟩) (by rw [granuleFuel]; exact Nat.lt_add_of_pos_right (by decide))
  obtain ⟨u, hu⟩ : ∃ u, putQu q (holding x (descDone 0x0B (why + 65536 * 0xFFFF) d)) (loadBase s arb s.lib o) = u := ⟨_, rfl⟩
  have hsu : OnlyChanges (.que :: .arb :: .cfg :: events) s u := by
    rw [← hu]
    exact (loadBase_frame_kept s arb o).mono (by decide) |>.trans (putQu_within.frame.mono (by decide))
  obtain ⟨v, hv⟩ : ∃ v, u.modCfg (fun y => { y with lastrej := mkFld 24 8 why ||| mkFld 22 2 3 ||| mkFld 20 2 c.kind.toNat ||| mkFld 0 16 0xFFFF }) = v :=
    ⟨_, rfl⟩
  have hvslots : ∀ p ∈ (raise 0x0503 [c.kind.toNat, 3, c.imageid.toNat, why, 0xFFFF] v).lib.slots, p.2.loadBy = none := by
    rw [raise_lib, ← hv, ← hu]
    exact hslots
  rw [hstart, hreject, hread, rejectLoad, endDesc_holding hat.under.id hat.under.ended] at hexec
  dsimp only at hexec
  rw [hu, recordReject, hv, dropLoad_none _ hvslots] at hexec
  refine ⟨_, hexec, ⟨descDone 0x0B (why + 65536 * 0xFFFF) d, ?_, hat.raw, rfl⟩, ?_, ?_, ?_⟩
  · rw [qu_of_que (raise_que ..), ← hv, ← hu]
    exact congrArg Queue.context qu_putQu
  · have hnow : s.now = v.now := hv ▸ hu ▸ rfl
    rw [Raised, hnow]
    exact raised_raise ..
  · rw [raise_cfg, ← hv, ← hu]
    rfl
  · exact (hsu.trans (hv ▸ (onlyChanges_modCfg _ _).mono (by decide))).trans (raise_within.frame.mono (by decide))

end

end Sys2Proof

/-! A container of one image is staged (R185 to R188, R477 to R480). -/

namespace Sys2Proof

open Sys2Proof.Machine

/-! ### One slot put in place of another -/

/-- The library with y for slot k. -/
def withSlot (k : Nat) (y : Slot) (l : Lib) : Lib := { l with slots := tabSet {} l.slots k y }

section
variable {s : State} {q k : Nat} {x : Queue} {y : Slot} {a : List (Nat × Nat)} {l : Lib} {o : List Out}

theorem withSlot_withSlot (y' : Slot) : withSlot k y' (withSlot k y l) = withSlot k y' l := by
  rw [withSlot, show (withSlot k y l).slots = tabSet {} l.slots k y from rfl, tabSet_tabSet]
  rfl

theorem modSlot_load (f : Slot → Slot) : (putQu q x (loadBase s a l o)).modSlot k f =
    putQu q x (loadBase s a (withSlot k (f (tabGet {} l.slots k)) l) o) := rfl

theorem slot_withSlot : tabGet ({} : Slot) (withSlot k y l).slots k = y := tabGet_tabSet_same ..

/-! ### The slot's states while its image comes -/

/-- What an image leaves in its slot (R186, R188, R485). -/
structure Staged (im : ChamberImage) (y : Slot) : Prop where
  st : y.st = 2
  image : y.image = im.words
  rel : y.rel = im.rel
  pers : y.pers = im.pers.toNat

/-- The library when the container's bytes up to `off` have been read: its one image has not begun, is being written, or is READY. -/
inductive Staging (l : Lib) (who : Nat × Nat) (k : Nat) (z : ContSection) (im : ChamberImage) (off : Nat) : Lib → Prop
  | waiting (h : off ≤ z.offset) : Staging l who k z im off l
  | writing {y : Slot} (hlo : z.offset < off) (hhi : off < z.offset + z.slen) (hby : y.loadBy = some who) :
      Staging l who k z im off (withSlot k y l)
  | ready {y : Slot} (hhi : z.offset + z.slen ≤ off) (h : Staged im y) (hby : y.loadBy = some who) : Staging l who k z im off (withSlot k y l)

/-- The one image of a container is staged as its bytes come. -/
theorem stageUpTo_one {c : Container} {z : ContSection} {im : ChamberImage} (hsec : c.sections = [z]) (hbody : z.body = .chimage im)
    (who : Nat × Nat) (base lo hi : Nat) (u : State) :
    stageUpTo who true base lo hi (stageStop none) c u =
      if hi ≤ z.offset ∨ z.offset + z.slen ≤ lo then (u, none)
      else if slotRefused u (some who) (base + z.arg) then (u, some 0)
      else if hi < z.offset + z.slen then (beginSlot (base + z.arg) who u, none)
      else if (sectionReason u c true 0 z).isSome then (emptySlot (base + z.arg) (beginSlot (base + z.arg) who u), none)
      else (stageImage (base + z.arg) (some who) im u, none) := by
  have hpos : withPos c.sections = [(0, z)] := by rw [hsec]; rfl
  rw [stageUpTo, hpos, List.foldl_cons, List.foldl_nil]
  dsimp only
  rw [hbody]
  have hstop : ∀ p : Prop, ((none : Option Nat).isSome = true ∨ stageStop none ≤ 0 ∨ p) = p := fun p => by
    simp [stageStop]
  simp only [hstop]

/-- A slot into which an image begins to come (R186). -/
def slotBegun (who : Nat × Nat) (y : Slot) : Slot := { y with st := 1, rel := false, lsi := false, home := 0, pers := 0, loadBy := some who }

theorem stageImage_eq (who : Nat × Nat) (im : ChamberImage) : ∃ y, Staged im y ∧ y.loadBy = some who ∧
    stageImage k (some who) im (putQu q x (loadBase s a l o)) = putQu q x (loadBase s a (withSlot k y l) o) :=
  ⟨_, ⟨rfl, rfl, rfl, rfl⟩, rfl, modSlot_load _⟩

/-- A load does not refuse the slot that it writes (R187, log 35). -/
theorem slotRefused_mine {u : State} {who : Nat × Nat} (hby : (u.slot k).loadBy = some who) (hk : k < 0xC00) :
    slotRefused u (some who) k = false := by
  rw [slotRefused, hby, decide_eq_false (Nat.not_le.2 hk), Option.isSome_some, beq_self_eq_true]
  rfl

theorem lt_of_slotRefused {u : State} {who : Option (Nat × Nat)} (h : slotRefused u who k = false) : k < 0xC00 := by
  rw [slotRefused, Bool.or_eq_false_iff] at h
  exact Nat.not_le.1 (of_decide_eq_false h.1)

section
variable {c : Container} {z : ContSection} {im : ChamberImage} {who : Nat × Nat} {base lo hi : Nat}

/-- Bytes of the image have come, and its slot is writing or READY. -/
theorem stageUpTo_writes (hsec : c.sections = [z]) (hbody : z.body = .chimage im) (hpass : sectionReason s c true 0 z = none)
    (hk : base + z.arg = k) (hrefused : slotRefused (putQu q x (loadBase s a l o)) (some who) k = false)
    (hall : ∀ y, withSlot k y l = withSlot k y s.lib) (hhi : z.offset < hi) (hlo : lo < z.offset + z.slen) :
    ∃ l', stageUpTo who true base lo hi (stageStop none) c (putQu q x (loadBase s a l o)) = (putQu q x (loadBase s a l' o), none) ∧
      Staging s.lib who k z im hi l' := by
  have hpass' : (sectionReason (putQu q x (loadBase s a l o)) c true 0 z).isSome = false := by
    rw [sectionReason_host s, hpass]
    rfl
  rw [stageUpTo_one hsec hbody, if_neg (by omega), hk, hrefused, if_neg Bool.false_ne_true]
  by_cases hend : hi < z.offset + z.slen
  · refine ⟨withSlot k (slotBegun who (tabGet {} l.slots k)) l, ?_, ?_⟩
    · rw [if_pos hend]
      rfl
    · rw [hall]
      exact .writing hhi hend rfl
  · obtain ⟨y, hy, hby, hstage⟩ := stageImage_eq (s := s) (q := q) (k := k) (x := x) (a := a) (l := l) (o := o) who im
    refine ⟨withSlot k y l, ?_, ?_⟩
    · rw [if_neg hend, hpass', if_neg Bool.false_ne_true, hstage]
    · rw [hall]
      exact .ready (by omega) hy hby

theorem stageUpTo_skips (hsec : c.sections = [z]) (hbody : z.body = .chimage im) (hskip : hi ≤ z.offset ∨ z.offset + z.slen ≤ lo) (u : State) :
    stageUpTo who true base lo hi (stageStop none) c u = (u, none) := by
  rw [stageUpTo_one hsec hbody, if_pos hskip]

/-- Reading on takes a container's one image from one of its stages to the next (R186, R479). -/
theorem Staging.next (h : Staging s.lib who k z im lo l) (hsec : c.sections = [z]) (hbody : z.body = .chimage im)
    (hpass : sectionReason s c true 0 z = none) (hslen : 0 < z.slen) (hk : base + z.arg = k) (hrefused : slotRefused s (some who) k = false)
    (hmore : lo < hi) :
    ∃ l', stageUpTo who true base lo hi (stageStop none) c (putQu q x (loadBase s a l o)) = (putQu q x (loadBase s a l' o), none) ∧
      Staging s.lib who k z im hi l' := by
  cases h with
  | waiting hoff =>
    by_cases hhi : hi ≤ z.offset
    · exact ⟨s.lib, stageUpTo_skips hsec hbody (.inl hhi) _, .waiting hhi⟩
    · exact stageUpTo_writes hsec hbody hpass hk hrefused (fun _ => rfl) (by omega) (by omega)
  | @writing y hlo hhi hby =>
    refine stageUpTo_writes hsec hbody hpass hk (slotRefused_mine ?_ (lt_of_slotRefused hrefused)) (fun _ => withSlot_withSlot _) (by omega) hhi
    exact (congrArg Slot.loadBy slot_withSlot).trans hby
  | @ready y hend hy hby => exact ⟨_, stageUpTo_skips hsec hbody (.inr hend) _, .ready (by omega) hy hby⟩

end

end

/-! ### The end of a load -/

/-- Entries of a table are what it reads, where their key stands once. -/
theorem tabGet_of_mem {α : Type} (d : α) {t : List (Nat × α)} {p : Nat × α} (hp : p ∈ t) (hone : (t.countP fun r => r.1 == p.1) ≤ 1) :
    tabGet d t p.1 = p.2 := by
  induction t with
  | nil => simp at hp
  | cons r t ih =>
    rw [tabGet]
    split
    · next hkey =>
      rcases List.mem_cons.1 hp with rfl | hmem
      · rfl
      · have hpos : 0 < t.countP fun r => r.1 == p.1 := List.countP_pos_iff.2 ⟨p, hmem, beq_self_eq_true _⟩
        rw [List.countP_cons_of_pos (by simpa using hkey.symm)] at hone
        omega
    · next hkey =>
      have hmem : p ∈ t := (List.mem_cons.1 hp).resolve_left fun he => hkey (congrArg Prod.fst he)
      rw [List.countP_cons_of_neg (by simpa using fun he => hkey he.symm)] at hone
      exact ih hmem hone

/-- What a table reads after each of its entries has been written again by a rule that gives v at key k. -/
theorem tabGet_foldl_eq {α : Type} [DecidableEq α] (d : α) (g : Nat × α → α) {k : Nat} {v : α} (l t : List (Nat × α))
    (hall : ∀ p ∈ l, p.1 = k → g p = v) (hsome : (∃ p ∈ l, p.1 = k) ∨ tabGet d t k = v) :
    tabGet d (l.foldl (fun t p => tabSet d t p.1 (g p)) t) k = v := by
  induction l generalizing t with
  | nil => exact hsome.elim (fun ⟨p, hp, _⟩ => absurd hp (by simp)) id
  | cons p l ih =>
    rw [List.foldl_cons]
    refine ih _ (fun r hr => hall r (List.mem_cons_of_mem p hr)) ?_
    by_cases hkey : p.1 = k
    · right
      rw [← hkey, tabGet_tabSet_same]
      exact hall p (by simp) hkey
    · rw [tabGet_tabSet_other _ _ _ _ _ (Ne.symm hkey)]
      refine hsome.imp_left fun ⟨r, hr, hrk⟩ => ⟨r, (List.mem_cons.1 hr).resolve_left ?_, hrk⟩
      rintro rfl
      exact hkey hrk

theorem mem_tabIns_self {α : Type} (k : Nat) (v : α) (t : List (Nat × α)) : (k, v) ∈ tabIns k v t := by
  induction t with
  | nil => exact List.mem_singleton_self _
  | cons p t ih =>
    rw [tabIns]
    split
    · exact List.mem_cons_self
    · exact List.mem_cons_of_mem _ ih

theorem mem_tabSet {α : Type} [DecidableEq α] {d : α} {t : List (Nat × α)} {k : Nat} {v : α} {p : Nat × α} (hp : p ∈ tabSet d t k v) :
    p = (k, v) ∨ (p ∈ t ∧ p.1 ≠ k) := by
  have hdel : ∀ {p}, p ∈ tabDel t k → p ∈ t ∧ p.1 ≠ k := fun hp => by
    obtain ⟨hmem, hne⟩ := List.mem_filter.1 hp
    exact ⟨hmem, by simpa using hne⟩
  rw [tabSet] at hp
  split at hp
  · exact .inr (hdel hp)
  · exact (mem_of_mem_tabIns hp).imp_right hdel

section
variable {s : State} {k : Nat} {y : Slot} {who : Nat × Nat}

/-- A slot that the load holds no longer (R479). -/
def slotFreed (who : Nat × Nat) (y : Slot) : Slot := if y.loadBy = some who then { y with loadBy := none } else y

theorem slot_freeLoad_mine {u : State} (hlib : u.lib = withSlot k y s.lib) (hy : y ≠ {}) : (freeLoad who u).slot k = slotFreed who y := by
  have hslots : u.lib.slots = tabSet {} s.lib.slots k y := congrArg Lib.slots hlib
  have hmem : (k, y) ∈ u.lib.slots := by
    rw [hslots, tabSet, if_neg hy]
    exact mem_tabIns_self ..
  refine tabGet_foldl_eq {} (fun p => slotFreed who p.2) u.lib.slots u.lib.slots (fun p hp hkey => ?_) (.inl ⟨_, hmem, rfl⟩)
  rw [hslots] at hp
  rcases mem_tabSet hp with rfl | ⟨-, hne⟩
  · rfl
  · exact absurd hkey hne

theorem slot_freeLoad_other {u : State} {j : Nat} (hlib : u.lib = withSlot k y s.lib) (hj : j ≠ k) (hslots : ∀ p ∈ s.lib.slots, p.2.loadBy = none)
    (hone : (s.lib.slots.countP fun p => p.1 == j) ≤ 1) : (freeLoad who u).slot j = s.slot j := by
  have hu : u.lib.slots = tabSet {} s.lib.slots k y := congrArg Lib.slots hlib
  refine tabGet_foldl_eq {} (fun p => slotFreed who p.2) u.lib.slots u.lib.slots (fun p hp hkey => ?_) (.inr ?_)
  · rw [hu] at hp
    rcases mem_tabSet hp with rfl | ⟨hmem, -⟩
    · exact absurd hkey.symm hj
    · have hnone : slotFreed who p.2 = p.2 := if_neg (by rw [hslots p hmem]; simp)
      rw [hnone, State.slot, ← hkey]
      exact (tabGet_of_mem _ hmem (by rwa [hkey])).symm
  · rw [hu, tabGet_tabSet_other _ _ _ _ _ hj]
    rfl

end

/-! ### The whole load -/

section
variable {s : State} {q i k : Nat} {w : BitVec 256} {c : Container} {z : ContSection} {im : ChamberImage}

/-- Before the section begins nothing changes. -/
theorem Staging.early {l₀ l : Lib} {who : Nat × Nat} {lo hi : Nat} (h : Staging l₀ who k z im lo l) (hmore : lo < hi) (hhi : hi ≤ z.offset) :
    Staging l₀ who k z im hi l := by
  cases h with
  | waiting => exact .waiting hhi
  | writing hlo => omega
  | ready hend => omega

/-- What a load that is not rejected has passed (R478). -/
theorem hostReject_one (hsec : c.sections = [z]) (hbody : z.body = .chimage im) {who : Nat × Nat} {len base : Nat}
    (h : hostReject s who len base c = none) : slotRefused s (some who) (base + z.arg) = false ∧ sectionReason s c true 0 z = none := by
  have hpos : withPos c.sections = [(0, z)] := by rw [hsec]; rfl
  rw [hostReject] at h
  split at h
  · exact absurd h (by simp)
  · rw [hpos, List.find?_cons, List.find?_nil] at h
    dsimp only at h
    rw [hbody] at h
    dsimp only at h
    cases hrefused : slotRefused s (some who) (base + z.arg) with
    | true => rw [hrefused] at h; exact absurd h (by simp)
    | false =>
      refine ⟨rfl, ?_⟩
      rw [hrefused] at h
      dsimp only at h
      rw [sectionsFail, hpos] at h
      cases hreason : sectionReason s c true 0 z with
      | none => rfl
      | some r => simp [hreason] at h

theorem readImage_stages (hopen : LoadOpen s q) (hopc : fld w 0 8 = 5) {env : DescEnv} (hdata : fld w 32 32 ≤ env.hostData.length)
    (hsec : c.sections = [z]) (hbody : z.body = .chimage im) (hpass : sectionReason s c true 0 z = none) (hslen : 0 < z.slen)
    (hstart : dataStart c ≤ z.offset) (hk : fld w 192 64 + z.arg = k) (hrefused : slotRefused s (some (q, i)) k = false) {a : List (Nat × Nat)}
    (fuel : Nat) : ∀ {x : Queue} {d : Desc} {l : Lib} {o : List Out} {used : Nat}, AtLoad s q i w x d → Staging s.lib (q, i) k z im d.off l →
    d.len - d.off < fuel → ∃ x' d' l' o',
      readImage q i c none env used fuel (putQu q (holding x d) (loadBase s a l o)) =
        freeLoad (q, i) (putQu q (holding x' (descDone 0 (fld w 32 32) d')) (loadBase s a l' o')) ∧ d'.raw = w ∧
      Staging s.lib (q, i) k z im (fld w 32 32) l' := by
  induction fuel with
  | zero => exact fun _ _ hfuel => absurd hfuel (Nat.not_lt_zero _)
  | succ fuel ih =>
    intro x d l o used h hst hfuel
    have hlen := h.len_eq
    have haux : d.aux = fld w 192 64 := congrArg (fld · 192 64) h.raw
    by_cases hall : d.len ≤ d.off
    · have hoff : d.off = fld w 32 32 := by rw [← hlen]; exact Nat.le_antisymm h.inside hall
      refine ⟨x, d, l, o, ?_, h.raw, hoff ▸ hst⟩
      rw [readImage, qu_putQu, desc_holding h.under.id]
      dsimp only
      rw [if_neg (by simp [h.under.ended, h.under.stopped]), if_pos hall, endDesc_holding h.under.id h.under.ended, hlen]
    · obtain ⟨hmore, hin, -⟩ := pageEnd_bounds (d := d) (by omega)
      obtain ⟨o', hread⟩ := readImage_granule (a := a) (l := l) (o := o) h hopc hopen.solo hopen.masters hopen.free hopen.fence hopen.path hopen.tag
        hopen.maxRead env (by omega) (by omega) c none used fuel
      have hnext := h.next hin (pageEnd d - d.off)
      obtain ⟨l', hstage, hst'⟩ : ∃ l', (if dataStart c ≤ pageEnd d then stageUpTo (q, i) true d.aux d.off (pageEnd d) (stageStop none) c
            (putQu q (holding (hasMoved (pageEnd d - d.off) x) (readUpTo (pageEnd d) d)) (loadBase s a l o'))
          else (putQu q (holding (hasMoved (pageEnd d - d.off) x) (readUpTo (pageEnd d) d)) (loadBase s a l o'), none)) =
          (putQu q (holding (hasMoved (pageEnd d - d.off) x) (readUpTo (pageEnd d) d)) (loadBase s a l' o'), none) ∧
          Staging s.lib (q, i) k z im (pageEnd d) l' := by
        by_cases hdue : dataStart c ≤ pageEnd d
        · rw [if_pos hdue, haux]
          exact hst.next hsec hbody hpass hslen hk hrefused hmore
        · exact ⟨l, if_neg hdue, hst.early hmore (by omega)⟩
      rw [hstage, goOnLoad_staging] at hread
      obtain ⟨x', d', l'', o'', hgo, hend⟩ := ih (o := o') (used := used + (pageEnd d - d.off)) hnext hst'
        (by have : (readUpTo (pageEnd d) d).len - (readUpTo (pageEnd d) d).off = d.len - pageEnd d := rfl; omega)
      exact ⟨x', d', l'', o'', hread.trans hgo, hend⟩

end

section
variable {s : State} {q : QueueId} {i a : Nat} {w : BitVec 256} {c : Container} {env : DescEnv} {z : ContSection} {im : ChamberImage}

theorem descLoadImage_staged (h : readyFor s q w i a) (hopen : LoadOpen s q) (hopc : fld w 0 8 = 5) (htlb : env.tlbBad = [])
    (hbypass : (s.qu q).bypass = true) (hplain : (s.qu q).enc = false) (hmode : s.netMode = 0) (hdata : fld w 32 32 ≤ env.hostData.length)
    (hslots : ∀ p ∈ s.lib.slots, p.2.loadBy = none) (hpass : hostReject s (q, i) (fld w 32 32) (fld w 192 64) c = none)
    (hsec : c.sections = [z]) (hbody : z.body = .chimage im) (hstart : dataStart c ≤ z.offset) (hslen : 0 < z.slen)
    (hin : z.offset + z.slen ≤ fld w 32 32) : Completes (.descLoadImage q c env) s fun t =>
      descEnded t q w 0 (fld w 32 32) ∧ (t.slot (fld w 192 64 + z.arg)).st = 2 ∧
      (t.slot (fld w 192 64 + z.arg)).image = im.words ∧ (t.slot (fld w 192 64 + z.arg)).rel = im.rel ∧
      (t.slot (fld w 192 64 + z.arg)).pers = im.pers.toNat ∧ (t.slot (fld w 192 64 + z.arg)).loadBy = none ∧
      (∀ k, k ≠ fld w 192 64 + z.arg → (s.lib.slots.countP fun p => p.1 == k) ≤ 1 → t.slot k = s.slot k) ∧ OnlyChanges [.que, .arb, .lib, .out] s t := by
  have hexec : exec (.descLoadImage q c env) s = .next (loadImage q c env s) := rfl
  obtain ⟨arb, hgo⟩ := loadImage_starts (c := c) h hopen.free hplain htlb hopc hmode
  obtain ⟨hrefused, hreason⟩ := hostReject_one hsec hbody hpass
  obtain ⟨k, hk⟩ : ∃ k, fld w 192 64 + z.arg = k := ⟨_, rfl⟩
  rw [hk] at hrefused ⊢
  obtain ⟨x, d, l, o, hread, hraw, hst⟩ := readImage_stages hopen hopc hdata hsec hbody hreason hslen hstart hk hrefused (a := arb)
    (granuleFuel (running w i a)) (o := s.out) (used := 0) (AtLoad.start h hplain hbypass) (.waiting (Nat.zero_le _))
    (by rw [granuleFuel]; exact Nat.lt_add_of_pos_right (by decide))
  rw [hgo, hpass, hread] at hexec
  cases hst with
  | waiting hoff => omega
  | writing _ hhi => omega
  | @ready y _ hy hby =>
    have hne : y ≠ {} := fun he => absurd (hy.st.symm.trans (congrArg Slot.st he)) (by decide)
    have hmine : (freeLoad (q, i) (putQu q (holding x (descDone 0 (fld w 32 32) d)) (loadBase s arb (withSlot k y s.lib) o))).slot k =
        { y with loadBy := none } := (slot_freeLoad_mine rfl hne).trans (if_pos hby)
    refine ⟨_, hexec, ⟨descDone 0 (fld w 32 32) d, congrArg Queue.context qu_putQu, hraw, rfl⟩, ?_, ?_, ?_, ?_, ?_,
      fun j hj hone => slot_freeLoad_other rfl hj hslots hone, ?_⟩
    · rw [hmine]; exact hy.st
    · rw [hmine]; exact hy.image
    · rw [hmine]; exact hy.rel
    · rw [hmine]; exact hy.pers
    · rw [hmine]
    · exact ((loadBase_frame s arb (withSlot k y s.lib) o).mono (by decide)).trans ((putQu_within.frame.mono (by decide)).trans
        (State.modLib_within.frame.mono (by decide)))

end

/-- Settles O60: granule by granule the image comes into its slot, whose load ends with it; a container whose header fails stages nothing. -/
theorem imagesLoadFromQueues : Obligations.ImagesLoadFromQueues := by
  intro s q w i a c env h _ hfree hopc htlb hbypass hplain hmode hfence hpath htag hmax hdata hslots
  obtain ⟨hsolo, hmasters, -⟩ := id h
  have hopen : LoadOpen s q := ⟨hsolo, hmasters, hfree, hfence, hpath, htag, hmax⟩
  exact ⟨fun z im hpass hsec hbody hstart hslen hin =>
      descLoadImage_staged h hopen hopc htlb hbypass hplain hmode hdata hslots hpass hsec hbody hstart hslen hin,
    fun why hreject => descLoadImage_rejected h hopen hopc htlb hbypass hplain hmode hdata hslots hreject⟩

end Sys2Proof

end OneThread
